-- ==== Sys2Proof/Word.lean ====
section
/-! DEFINITION. The words of the machine and the plainest bit-field arithmetic over them (00_scope.md, Numbers:
bit 0 is the least significant bit, ranges are written [high:low]). -/

namespace Sys2Proof

/-- A byte of memory, of a frame or of a message. -/
abbrev Byte := BitVec 8

/-- A 64-bit register, descriptor word or sync object value (00_scope.md, Registers: all registers are 64 bits wide). -/
abbrev Word := BitVec 64

/-- Field [hi:lo] of a word, as a number. -/
def Word.field (w : Word) (hi lo : Nat) : Nat := (w.toNat / 2 ^ lo) % 2 ^ (hi + 1 - lo)

/-- Bit i of a word. -/
def Word.bit (w : Word) (i : Nat) : Bool := w.toNat.testBit i

/-- The word whose bits [hi:lo] are 1 and whose other bits are 0. -/
def Word.mask (hi lo : Nat) : Word := BitVec.ofNat 64 ((2 ^ (hi + 1 - lo) - 1) * 2 ^ lo)

/-- The word with field [hi:lo] replaced by v (taken modulo the field's size). -/
def Word.setField (w : Word) (hi lo v : Nat) : Word :=
  (w &&& ~~~(Word.mask hi lo)) ||| (BitVec.ofNat 64 ((v % 2 ^ (hi + 1 - lo)) * 2 ^ lo))

/-- The word with bit i set to b. -/
def Word.setBit (w : Word) (i : Nat) (b : Bool) : Word := Word.setField w i i (if b then 1 else 0)

/-- The word with only bit i set. -/
def Word.oneBit (i : Nat) : Word := BitVec.ofNat 64 (2 ^ i)

end Sys2Proof
end

