-- ==== Sys2Proof/Syntax.lean ====
section
/-! DEFINITION. The commands and events that the VT9 takes: one constructor of Instr per row of opcode_table.json, with
the operands each row needs, and the types of those operands. A register command (a write to a page's CMD register) takes
the fields of CMD as operands and reads the argument registers (CMD_ARG..., CONN_CTRL, ...) from the state, as the
spec's own command does; a descriptor row names the started descriptor by ring and index; an instruction of a Zarn core
takes the core's number and the fields of its encoding. -/

namespace Sys2Proof

/-- The completion status codes (R97). -/
inductive Status where
  | ok | accessViolation | state | resource | format | timeout | peerViolation | integrity | abortedByReset
  | pageNotReady | poisoned | notAborted | version
  deriving DecidableEq, Repr

/-- The blocks that have register pages (R8). -/
inductive Blk where
  | dev | prt | vif | hlk | dlk | rng | syn | mlr | rma | ept | pkt | pmu | fwi | sch | num | xrd | kvs | att | ckp
  | sto | cph | trs | clk | pwr | flt
  deriving DecidableEq, Repr

/-- A register page: its block and its number within the block (PG_ID, R21). The emulated control page of VI v is
page 0x1000 + v of FWI ("Emulated control pages", 21_firmware.md). -/
structure Page where
  blk : Blk
  num : Nat
  deriving DecidableEq, Repr

/-- The status of a PCIe completion TLP (R66 to R69). -/
inductive CplStatus where
  | success | poisoned | unsupported | abort
  deriving DecidableEq, Repr

/-- The answer of the host to a PRI page request (R61). -/
inductive PriCode where
  | success | invalidRequest | responseFailure
  deriving DecidableEq, Repr

/-- What the host's configuration writes have set in PF0's configuration space and in the MSI-X table of BAR2 (R58, R80): the
payload and read request sizes in bytes; the range of Device Control 2's Completion Timeout Value in NOC cycles (R66); LTR;
ASPM L1 and the L1 PM substates; ATS and PRI; MSI-X Enable, its Function Mask, and the table's entries whose Mask bit is 0:
vector, address, data. -/
structure PfCfg where
  maxPayload : Nat
  maxRead : Nat
  ctoLo : Nat
  ctoHi : Nat
  ltr : Bool
  aspmL1 : Bool
  l11 : Bool
  l12 : Bool
  ats : Bool
  pri : Bool
  msixEn : Bool
  msixMask : Bool
  msixTable : List (Nat × Nat × Nat)
  deriving DecidableEq, Repr

/-- What enumeration learns of one PCIe function (R86, R87, R89): its place (bus 1 is the port's own, bus k + 1 the one below the
k-th bridge found), whether it is a switch or an NVMe endpoint,
its identity, the sizes of its BARs, the payload size it supports, whether it completes requests with 10-bit tags, and an NVMe
endpoint's namespaces: number, MiB, and whether its LBAs are 4,096 bytes. -/
structure CfgFunc where
  bus : Nat
  dev : Nat
  fn : Nat
  isSwitch : Bool
  isNvme : Bool
  vendor : Nat
  device : Nat
  cls : Nat
  bars : List Nat
  maxPayload : Nat
  tag10 : Bool
  nss : List (Nat × Nat × Bool)
  deriving DecidableEq, Repr

/-- A configuration completion during enumeration: Retry Status, or a success that finds one function (R86). -/
inductive CfgCpl where
  | retry
  | found (f : CfgFunc)
  deriving DecidableEq, Repr

/-- Who makes an access to the sync-object aperture: P0 through BAR0, or a partner through a downstream port (R116). -/
inductive AptSrc where
  | p0
  | port (n : Nat)
  deriving DecidableEq, Repr

/-- An arriving Millrace packet (R118, R123, R124): the outer fields that the device looks at, the header, the
extension and the payload, and whether the authentication tag verifies under a key is asked of Config. The TYPE is
given by the row. -/
structure MlrPacket where
  ipSrc : BitVec 128
  ipDst : BitVec 128
  v6 : Bool
  ce : Bool
  ver : Nat
  rsvClear : Bool
  lenOk : Bool
  ece : Bool
  retx : Bool
  areq : Bool
  dstConn : Nat
  path : Nat
  psn : BitVec 32
  ackPsn : BitVec 32
  salt : BitVec 32
  nonce : Word
  srcConn : Nat
  ext : List Byte
  payload : List Byte
  tag : BitVec 128
  deriving DecidableEq, Repr

/-- A TCP segment handed to the storage front end (R322, R323). -/
structure TcpSeg where
  src : BitVec 128
  dst : BitVec 128
  sport : Nat
  syn : Bool
  ack : Bool
  fin : Bool
  rst : Bool
  seq : BitVec 32
  ackNo : BitVec 32
  window : Nat
  mss : Nat
  sack : List (BitVec 32 × BitVec 32)
  payload : List Byte
  deriving DecidableEq, Repr

/-- The fields of an NVMe submission entry that the storage front end uses (R315, R326). -/
structure NvmeSqe where
  opc : Nat
  cid : Nat
  nsid : Nat
  cdw10 : BitVec 32
  cdw11 : BitVec 32
  cdw12 : BitVec 32
  cdw13 : BitVec 32
  cdw14 : BitVec 32
  cdw15 : BitVec 32
  deriving DecidableEq, Repr

/-- The two sides of the isolation barrier (R12). -/
inductive Side where
  | host | field
  deriving DecidableEq, Repr

/-- The two classes of barrier messages (R357). -/
inductive MsgClass where
  | fault | mgmt
  deriving DecidableEq, Repr

/-- A power or clock control request of firmware, barrier messages 0x1B to 0x1F (R431): it may lower the MULT limit of a
core die or the soft power cap. -/
inductive PwrReq where
  | multLimit (die : Nat) (mult : Nat)
  | softCap (watts : Nat)
  deriving DecidableEq, Repr

/-- A field-side access through the SMBus debugger or the management port (R372, R375). -/
inductive DbgAccess where
  | readReg (pg : Page) (off : Nat)
  | writeReg (pg : Page) (off width : Nat) (val : Word)
  | haltCore (core : Nat)
  | resumeCore (core : Nat)
  | readG (core : Nat) (reg : Nat)
  | flashWrite (addr : Nat) (data : List Byte)
  deriving DecidableEq, Repr

/-- What ends a phase of a live update (R428). -/
inductive UpdEvent where
  | loaded
  | saved
  | formatBad
  | ready
  | resumed
  deriving DecidableEq, Repr

/-- A RAISE message (R468, R482). -/
structure RaiseMsg where
  src : Nat
  unit : Nat
  part : Nat
  lasting : Bool
  count : Nat
  elw : Word
  deriving DecidableEq, Repr


/-- The commands and events of opcode_table.json, one constructor per row; each docstring gives the
row's rule and the table's summary of it. -/
inductive Instr where
  /-- REG_WRITE (R7): A write to a register field that has no row of its own acts as its access code gives. -/
  | regWrite (pg : Page) (off : Nat) (width : Nat) (val : BitVec 64)
  /-- BAR0_BAD_ACCESS (R27): An access to BAR0 that is not aligned 64-bit or 32-bit completes with Unsupported Request, is logged in HLK.UR_LOG and has no effect. -/
  | bar0BadAccess (reqId : Nat) (off : Nat) (len : Nat)
  /-- SHADOW_WRITE (R36): A write to a shadow register changes the shadow while PENDING is 0, and is otherwise dropped and sets DROPPED. -/
  | shadowWrite (pg : Page) (off : Nat) (width : Nat) (val : BitVec 64)
  /-- LIVE_WRITE (R36): A write to the live offset of a staged register is ignored and sets SWAP_STAT.LIVE_WR. -/
  | liveWrite (pg : Page) (off : Nat) (width : Nat) (val : BitVec 64)
  /-- SWAP_ARM (R36): A whole 64-bit SWAP_REQ write with ARM = 1 sets PENDING if EXPECT equals APPLIED, and otherwise sets STALE. -/
  | swapArm (pg : Page) (off : Nat) (width : Nat) (val : BitVec 64)
  /-- SWAP_CANCEL (R36): A SWAP_REQ write with CANCEL = 1 and ARM = 0 clears PENDING and keeps the shadows. -/
  | swapCancel (pg : Page) (off : Nat) (width : Nat) (val : BitVec 64)
  /-- SWAP_APPLY (R38): At the block's swap point, reached after work ends or PREV_HELD clears, the shadow set is checked and copied into the live set, and APPLIED increments. -/
  | swapApply (pg : Page)
  /-- SHADOW_SYNC (R36): PG_CTRL.SHADOW_SYNC copies every staged live register into its shadow, and is refused while PENDING = 1. -/
  | shadowSync (pg : Page)
  /-- CTR_CLEAR (R24): PG_CTRL.CTR_CLEAR sets COUNT and OVF of every counter of the page to 0. -/
  | ctrClear (pg : Page)
  /-- ERR_INJ_WRITE (R30): A write of 1 to an ERR_INJ bit raises that error source once while test injection is enabled, and is otherwise refused. -/
  | errInjWrite (pg : Page) (val : BitVec 64)
  /-- ERR_STAT_CLEAR (R466): A W1C write to ERR_STAT clears the written bits in every ELW that the page covers and sends CLEAR to the field side. -/
  | errStatClear (pg : Page) (off : Nat) (width : Nat) (val : BitVec 64)
  /-- CREATE (R49): The PRT command CREATE moves a FREE tenant partition to BUILDING. -/
  | create (part : Nat)
  /-- ASSIGN (R49): The PRT command ASSIGN makes the partition owner of a range of identifiers of one resource type. -/
  | assign (part : Nat)
  /-- UNASSIGN (R49): The PRT command UNASSIGN starts the scrub of a range of quiescent resources owned by the partition. -/
  | unassign (part : Nat)
  /-- ACTIVATE (R49): The PRT command ACTIVATE moves a BUILDING partition to ACTIVE. -/
  | activate (part : Nat)
  /-- RELEASE (R50): The PRT command RELEASE moves the partition to DRAINING and stops its rings, resets its VIs, revokes its regions and closes its connections. -/
  | release (part : Nat)
  /-- PART_DRAIN_DONE (R50): When every operation taken under a DRAINING partition has completed, it enters SCRUBBING and RELEASE completes. -/
  | partDrainDone (part : Nat)
  /-- SCRUB_DONE (R51): The scrub of one resource completes, with verification where set, and the resource returns to the free pool or to P0; the next granule of the stack starts its scrub. -/
  | scrubDone (ty : Nat) (id : Nat) (bad : List Nat)
  /-- BIND (R53): The VIF command BIND sets a VI's PASID and dirty-page log and moves it to BOUND. -/
  | bind (vi : Nat)
  /-- VIF_ENABLE (R53): The VIF command ENABLE moves a BOUND or QUIESCED VI of an ACTIVE partition to ENABLED. -/
  | vifEnable (vi : Nat)
  /-- VIF_RESET (R53): The VIF command RESET stops an ENABLED or ORPHANED VI under R70 and moves it to RESETTING. -/
  | vifReset (vi : Nat)
  /-- UNBIND (R53): The VIF command UNBIND clears a VI's PASID and log and moves it to UNBOUND. -/
  | unbind (vi : Nat)
  /-- HARVEST (R55): The VIF command HARVEST copies the dirty-page bitmap to the host word by word, clearing each word and LOG_OVF. -/
  | harvest (vi : Nat)
  /-- VI_QUIESCE (R52): A RESETTING VI whose outstanding read count reaches 0 enters QUIESCED. -/
  | viQuiesce (vi : Nat)
  /-- DOORBELL (R107): A doorbell write delivers a ring's producer or consumer index, which is taken, latched, refused for overflow or dropped by ring state. -/
  | doorbell (off : Nat) (val : BitVec 64)
  /-- HOST_COMPLETION (R68): A completion TLP for a device read is placed by tag, or discarded if its tag is quarantined or unknown, or fails its descriptor if poisoned or UR/CA. -/
  | hostCompletion (port : Nat) (tag : Nat) (cs : CplStatus) (data : List Byte)
  /-- CPL_TIMEOUT (R66): A read whose completion has not arrived within CPL_TO × 4,096 NOC cycles times out, its descriptor completes with TIMEOUT and its tag is quarantined. -/
  | cplTimeout (port : Nat) (tag : Nat)
  /-- QUARANTINE_END (R67): A tag's quarantine of 2 × CPL_TO × 4,096 NOC cycles ends and the tag may be reused. -/
  | quarantineEnd (port : Nat) (tag : Nat)
  /-- ATS_INVALIDATE (R62): A received ATS Invalidate Request ends every use of the named translations. -/
  | atsInvalidate (itag : Nat) (pasid : Option Nat) (addr : Nat) (len : Nat)
  /-- ATS_INV_COMPLETE (R62): Once the reads under the invalidated translations have ended, the device sends the Invalidation Completion. -/
  | atsInvComplete (itag : Nat)
  /-- PAGE_RESPONSE (R61): A PRI page response resumes waiting work, fails it with ACCESS_VIOLATION, or on Response Failure stops page requests. -/
  | pageResponse (prg : Nat) (code : PriCode)
  /-- PORT_FREEZE (R73): A freeze cause on the host link puts the port into freeze, ends outstanding reads and stops requests. -/
  | portFreeze (cause : Nat)
  /-- FREEZE_RELEASE (R75): A write of HLK.FREEZE.RELEASE releases a frozen host port, or is refused with STATE. -/
  | freezeRelease
  /-- BME_CLEAR (R72): A clear of PF0 Bus Master Enable stops every host request of P0 and stops every VI under R70. -/
  | bmeClear
  /-- FUNCTION_LEVEL_RESET (R72): A Function Level Reset of PF0 resets its configuration space and the HLK page, disables host-resident P0 rings and stops every VI. -/
  | functionLevelReset
  /-- HOT_RESET (R72): A hot reset of the host link acts as a reset of PF0 under R72. -/
  | hotReset
  /-- PERST_ASSERT (R77): Assertion of PERST_N holds the host link in reset, entering D3cold from D3hot. -/
  | perstAssert
  /-- PERST_DEASSERT (R77): Deassertion of PERST_N is a conventional reset under R72 and lets the link train. -/
  | perstDeassert
  /-- D3HOT_ENTER (R77): A PowerState write to D3hot stops new host requests and host-resident ring fetches. -/
  | d3hotEnter (pmeEn : Bool)
  /-- D0_ENTER (R77): A return to D0 from D3hot writes held completion entries before new fetches. -/
  | d0Enter
  /-- DETECT (R84): Every 1 ms an EMPTY downstream port runs Detect and enters RESET if a receiver is found. -/
  | detect (port : Nat) (receiver : Bool)
  /-- PERST_HOLD_END (R84): The PERST_HOLD time of a RESET port elapses, DPERST_N goes high and the port enters TRAINING. -/
  | perstHoldEnd (port : Nat)
  /-- DL_ACTIVE (R85): A TRAINING port's link reaches DL_Active and the port enters ENUMERATING. -/
  | dlActive (port : Nat) (speed : Nat) (width : Nat) (flit : Bool)
  /-- TRAIN_TIMEOUT (R85): A training attempt not at DL_Active within 100 ms times out, and the port returns to EMPTY or enters HELD after the third. -/
  | trainTimeout (port : Nat)
  /-- ENUM_START (R86): 100 ms after DL_Active the port sends its first configuration request. -/
  | enumStart (port : Nat)
  /-- ENUM_CONFIG_CPL (R86): A configuration completion arrives during enumeration, is retried on Retry Status, or advances the walk of the hierarchy. -/
  | enumConfigCpl (port : Nat) (cpl : CfgCpl)
  /-- ENUM_NORESP (R86): No successful configuration completion within 1 s of DPERST_N going high ends enumeration with NORESP and the port enters HELD. -/
  | enumNoresp (port : Nat)
  /-- ENUM_END (R89): Enumeration ends, BARs are assigned, and the port enters READY and announces its partner. -/
  | enumEnd (port : Nat)
  /-- SLOT_CHANGE (R88): A hot-plug change of a switch slot on a drive port re-enumerates that slot alone and sets SLOT_CHG. -/
  | slotChange (port : Nat) (bus : Nat) (devs : List CfgFunc)
  /-- DLK_RETRY (R83): The DLK command RETRY moves a HELD port to RESET. -/
  | dlkRetry (port : Nat)
  /-- DLK_DOWN (R90): The DLK command DOWN stops the port's requests and waits for its outstanding reads. -/
  | dlkDown (port : Nat)
  /-- DOWN_DONE (R90): When a DOWN port's reads have ended it sets PARTNER_DOWN, drives DPERST_N low and enters HELD or OFF. -/
  | downDone (port : Nat)
  /-- INBOUND_REQUEST (R91): A memory request from a partner is decoded by the port's inbound windows, checked, and routed to HBM, the sync-object aperture or a peer port, or refused. -/
  | inboundRequest (port : Nat) (write : Bool) (addr : Nat) (len : Nat) (data : List Byte)
  /-- DPORT_FREEZE (R94): A freeze cause or ERR_FATAL at a root port moves the port to FROZEN. -/
  | dportFreeze (port : Nat) (cause : Nat)
  /-- DPORT_FREEZE_RELEASE (R95): A write of DLK.FREEZE.RELEASE moves a frozen port to RESET, or is refused with STATE. -/
  | dportFreezeRelease (port : Nat)
  /-- DESC_FETCH (R99): A descriptor is fetched from ring memory and checked; a failed fetch stops the ring. -/
  | descFetch (ring : Nat) (err : Option Status)
  /-- DESC_START (R100): A descriptor at the head of its ring whose fence and wait conditions hold starts on its engine. -/
  | descStart (ring : Nat)
  /-- WAIT_TIMEOUT (R101): A wait not met within WAIT_TO × 65,536 NOC cycles of reaching the head completes the descriptor with TIMEOUT. -/
  | waitTimeout (ring : Nat)
  /-- DESC_END (R102): A descriptor ends: its completion entry is written or held, then its signal addition is made, then its interrupt sent. -/
  | descEnd (ring : Nat) (idx : Nat)
  /-- HELD_CPL_WRITE (R110): Held completion entries and their signals are written in order once the completion ring is ENABLED and has room. -/
  | heldCplWrite (ring : Nat)
  /-- RING_SETUP (R106): The RNG command SETUP loads a DISABLED ring's context and zeroes its indices. -/
  | ringSetup (ring : Nat)
  /-- RING_ENABLE (R106): The RNG command ENABLE moves a set-up DISABLED ring to ENABLED. -/
  | ringEnable (ring : Nat)
  /-- RING_DISABLE (R106): The RNG command DISABLE moves a ring to DRAINING and aborts held descriptors. -/
  | ringDisable (ring : Nat)
  /-- RING_DISABLED (R106): A DRAINING ring whose started descriptors have ended becomes DISABLED and sets RING_DISABLED. -/
  | ringDisabled (ring : Nat)
  /-- RING_RESUME (R106): The RNG command RESUME sets CONS and returns a STOPPED ring to ENABLED. -/
  | ringResume (ring : Nat)
  /-- RING_READ (R106): The RNG command READ copies a ring's context, indices and status to the RNG registers. -/
  | ringRead (ring : Nat)
  /-- SET_PEVT (R112): The RNG command SET_PEVT makes an event ring its owner's partition event ring. -/
  | setPevt (ring : Nat)
  /-- NOP (R99): The ring-engine descriptor NOP does nothing beyond its wait, fence and signal. -/
  | nop (ring : Nat) (idx : Nat)
  /-- SYNC_ADD (R99): The ring-engine descriptor SYNC_ADD adds VALUE to a sync object. -/
  | syncAdd (ring : Nat) (idx : Nat)
  /-- SYNC_SET (R99): The ring-engine descriptor SYNC_SET sets a sync object to VALUE. -/
  | syncSet (ring : Nat) (idx : Nat)
  /-- SYNC_READ (R99): The ring-engine descriptor SYNC_READ returns a sync object's value in the completion entry. -/
  | syncRead (ring : Nat) (idx : Nat)
  /-- SYNC_APERTURE_ADD (R116): An aligned 64-bit aperture write at 16 × n adds its value to sync object n and re-evaluates its waits and watches. -/
  | syncApertureAdd (src : AptSrc) (obj : Nat) (val : BitVec 64)
  /-- SYNC_APERTURE_SET (R116): An aligned 64-bit aperture write at 16 × n + 8 sets sync object n and re-evaluates its waits and watches. -/
  | syncApertureSet (src : AptSrc) (obj : Nat) (val : BitVec 64)
  /-- SYNC_APERTURE_READ (R116): An aligned 64-bit aperture read returns the value of a sync object. -/
  | syncApertureRead (src : AptSrc) (obj : Nat)
  /-- SYNC_APERTURE_BAD (R116): An aperture access of another size or alignment, or to an object not owned, is dropped or refused and sets a SYN error bit. -/
  | syncApertureBad (src : AptSrc) (write : Bool) (off : Nat) (len : Nat)
  /-- WRITE (R156): An arriving Millrace WRITE passes R126 and the window rule, is validated against its region and placed, or refused with a NAK. -/
  | write (pkt : MlrPacket)
  /-- WRITE_LAST (R157): An arriving WRITE_LAST is validated and held until every earlier write of its connection is placed. -/
  | writeLast (pkt : MlrPacket)
  /-- READ_REQ (R165): An arriving READ_REQ is validated and its bit set, and its service waits for earlier writes. -/
  | readReq (pkt : MlrPacket)
  /-- READ_RESP (R166): An arriving READ_RESP is placed at the requester, triggers a re-issue on PAGE_NOT_READY, ends the read on another status, or is discarded if late. -/
  | readResp (pkt : MlrPacket)
  /-- ACK (R132): An arriving ACK acknowledges PSNs before ACK_PSN, grows CWND and handles an echoed ECE. -/
  | ack (pkt : MlrPacket)
  /-- SACK (R132): An arriving SACK acknowledges PSNs before ACK_PSN and those whose MAP bit is 1. -/
  | sack (pkt : MlrPacket)
  /-- NAK (R135): An arriving NAK schedules a re-send after HINT on PAGE_NOT_READY, or completes the operation with its CODE. -/
  | nak (pkt : MlrPacket)
  /-- PROBE (R148): An arriving PROBE request is echoed at once; an arriving echo completes the PROBE descriptor with the round trip. -/
  | probe (pkt : MlrPacket)
  /-- SPATE_WRITE (R146): An arriving SPATE_WRITE is placed at its region key and offset and adds LEN to the channel's sync object, or is refused. -/
  | spateWrite (pkt : MlrPacket)
  /-- DATA_SEND (R132): The sender builds and transmits a new data packet of a started descriptor when the window and CWND allow. -/
  | dataSend (conn : Nat)
  /-- ACK_DELAY_EXPIRE (R131): ACK_DELAY PKT cycles after the first unacknowledged accepted data packet, the receiver sends an ACK or SACK. -/
  | ackDelayExpire (conn : Nat)
  /-- REORDER_LOSS (R133): REORDER_WIN after a packet's transmission with a later packet acknowledged, the packet is declared lost, retransmitted and its path held. -/
  | reorderLoss (conn : Nat) (psn : Nat)
  /-- RTO_EXPIRE (R133): A packet unacknowledged RTO cycles after its transmission is declared lost and retransmitted, or its connection fails past RETRY_MAX. -/
  | rtoExpire (conn : Nat) (psn : Nat)
  /-- NAK_RESEND (R135): HINT PKT cycles after a PAGE_NOT_READY NAK, the refused PSN is re-sent under a new nonce. -/
  | nakResend (conn : Nat) (psn : Nat)
  /-- PATH_HOLD_END (R137): A path's hold of PATH_HOLD PKT cycles ends and it rejoins the rotation. -/
  | pathHoldEnd (conn : Nat) (path : Nat)
  /-- CONTEXT_FETCHED (R142): A connection context fetched from its backing entry arrives, and its held packets are processed in arrival order, or the fetch fails and the connection errors. -/
  | contextFetched (conn : Nat) (ok : Bool)
  /-- CONTEXT_WRITEBACK_DONE (R143): The write-back of an evicted context completes, and a waiting miss for it may fetch it. -/
  | contextWritebackDone (conn : Nat)
  /-- MISS_HOLD_TIMEOUT (R142): A packet held 102,400 PKT cycles in the miss holding buffer is dropped. -/
  | missHoldTimeout (hid : Nat)
  /-- CONN_CLOSED (R128): A CLOSING connection whose descriptors and READ_REQs are done and TX_UNA equals TX_NEXT becomes CLOSED. -/
  | connClosed (conn : Nat)
  /-- CONN_OPEN (R128): The MLR command OPEN writes a CLOSED connection's context from the argument registers and makes it ACTIVE. -/
  | connOpen (part : Nat)
  /-- MLR_CMD_CLOSE (R128): The MLR command CLOSE moves an ACTIVE connection to CLOSING, or an ERROR one to CLOSED. -/
  | mlrCmdClose (part : Nat)
  /-- MLR_CMD_QUERY (R148): The MLR command QUERY copies a connection's state to CONN_STAT and CONN_STAT1. -/
  | mlrCmdQuery (part : Nat)
  /-- MLR_SET_PART (R140): The MLR command SET_PART sets a partition's addresses, connection range and backing table. -/
  | mlrSetPart (part : Nat)
  /-- SPATE_OPEN (R144): The MLR command SPATE_OPEN opens a spate channel for a partition with its key context and sync object. -/
  | spateOpen (part : Nat)
  /-- SPATE_CLOSE (R144): The MLR command SPATE_CLOSE closes an open spate channel. -/
  | spateClose (part : Nat)
  /-- SPATE_SEND (R145): The descriptor SPATE_SEND sends a buffer as SPATE_WRITE packets and completes when its last byte is transmitted. -/
  | spateSend (ring : Nat) (idx : Nat)
  /-- MLR_CLOSE (R148): The Millrace descriptor CLOSE closes a connection under R128. -/
  | mlrClose (ring : Nat) (idx : Nat)
  /-- MLR_QUERY (R148): The Millrace descriptor QUERY returns a connection's state in its result. -/
  | mlrQuery (ring : Nat) (idx : Nat)
  /-- PROBE_SEND (R148): The descriptor PROBE sends a PROBE request on the named path of an ACTIVE connection. -/
  | probeSend (ring : Nat) (idx : Nat)
  /-- PROBE_TIMEOUT (R148): A PROBE with no echo within RTO_MAX completes with TIMEOUT. -/
  | probeTimeout (ring : Nat) (idx : Nat)
  /-- REGION_ENTRY_FETCHED (R153): A region entry fetched for a waiting packet arrives and the packet is validated, or the fetch fails and it is refused with REASON 11. -/
  | regionEntryFetched (key : Nat) (ok : Bool)
  /-- WRITE_PLACED (R156): A write's bytes become visible or issued to the host, and its PSN bit is set. -/
  | writePlaced (conn : Nat) (psn : Nat)
  /-- WRITE_LAST_PLACE (R159): A held WRITE_LAST whose earlier writes are placed is placed, writes RMA_WRITE_DONE, adds to NOTIFY_SYNC and is acknowledged. -/
  | writeLastPlace (conn : Nat) (psn : Nat)
  /-- READ_SERVE_START (R157): A validated READ_REQ whose earlier writes are placed begins reading region memory and sending READ_RESP packets. -/
  | readServeStart (conn : Nat) (psn : Nat)
  /-- STALL_EXPIRE (R161): A stall of STALL PKT cycles ends with the page still absent, and the packet is NAKed with PAGE_NOT_READY. -/
  | stallExpire (conn : Nat)
  /-- PNR_LIMIT_EXPIRE (R162): A fault table entry open for PNR_LIMIT × 65,536 PKT cycles makes later accesses to its page refused with REASON 9. -/
  | pnrLimitExpire (entry : Nat)
  /-- READ_REISSUE (R166): RD_WAIT after a PAGE_NOT_READY READ_RESP, the requester sends a new READ_REQ for the remaining bytes. -/
  | readReissue (ring : Nat) (idx : Nat)
  /-- READ_TIMEOUT (R167): A READ descriptor not complete within READ_TO × 65,536 PKT cycles completes with TIMEOUT. -/
  | readTimeout (ring : Nat) (idx : Nat)
  /-- REGION_CLOSED (R168): A CLOSING region with no packet in flight becomes CLOSED and its REVOKE completes with OK. -/
  | regionClosed (key : Nat)
  /-- RMA_WRITE (R171): The remote-memory descriptor WRITE sends its local range as WRITE packets, the last as WRITE_LAST if LAST = 1. -/
  | rmaWrite (ring : Nat) (idx : Nat)
  /-- RMA_READ (R166): The remote-memory descriptor READ sends a READ_REQ and keeps an outstanding read. -/
  | rmaRead (ring : Nat) (idx : Nat)
  /-- REGISTER (R152): The descriptor REGISTER writes a region entry and makes it ACTIVE. -/
  | register (ring : Nat) (idx : Nat)
  /-- REVOKE (R168): The descriptor REVOKE moves an ACTIVE region to CLOSING. -/
  | revoke (ring : Nat) (idx : Nat)
  /-- RMA_QUERY (R170): The descriptor QUERY returns a region's state, mode and in-flight count. -/
  | rmaQuery (ring : Nat) (idx : Nat)
  /-- RMA_SET_PART (R173): The RMA command SET_PART sets a partition's region table and writes every entry to CLOSED. -/
  | rmaSetPart (part : Nat)
  /-- RMA_CMD_QUERY (R173): The RMA command QUERY copies the state of REG_KEY into REG_STAT. -/
  | rmaCmdQuery (part : Nat)
  /-- FRAME_RECEIVE (R176): A frame received at a MAC is checked, filtered, stamped and dispatched to a pipeline by its hash. -/
  | frameReceive (ept : Nat) (frame : List Byte) (fcsOk : Bool)
  /-- PASS_START (R183): A pipeline starts a pass of a frame: it walks the parse graph, hands it to Millrace or storage, or looks it up and applies its action. -/
  | passStart (pipe : Nat)
  /-- RECIRC_PASS (R199): A recirculated frame starts a further pass at its named node under its stamped version. -/
  | recircPass (pipe : Nat)
  /-- PFC_RECEIVE (R177): A received PFC frame pauses transmission of its class at the next frame boundary, or is dropped if PFC is off for the class. -/
  | pfcReceive (ept : Nat) (cls : Nat) (quanta : Nat)
  /-- PFC_PAUSE_END (R211): A received pause's quanta run out and the paused leaves with frames become eligible again. -/
  | pfcPauseEnd (ept : Nat) (cls : Nat)
  /-- PFC_REPEAT (R177): Every 32,768 PKT cycles while ingress bytes of a class stay above XON, the port sends a PFC frame again. -/
  | pfcRepeat (ept : Nat) (cls : Nat)
  /-- LINK_UP (R174): An Ethernet port's link trains and comes up, setting LINK_UP. -/
  | linkUp (ept : Nat)
  /-- LINK_DOWN (R211): An Ethernet port's link is lost and its queued frames are dropped. -/
  | linkDown (ept : Nat)
  /-- SLOT_RETIRE (R196): A DRAINING rule-set slot with REFS 0 and no older live slot becomes FREE and a sweep starts. -/
  | slotRetire (slot : Nat)
  /-- SWEEP_DONE (R198): A sweep of the classifier tables completes and SWEEP clears. -/
  | sweepDone
  /-- PKT_OPEN (R200): The PKT command OPEN makes a FREE slot BUILDING with the next version and a copy of CURRENT's graph. -/
  | pktOpen
  /-- GRAPH_LOAD (R200): The PKT command GRAPH_LOAD loads a graph image into the BUILDING slot. -/
  | graphLoad
  /-- SET_EXACT (R200): The PKT command SET_EXACT makes a P0 granule the exact table, with all entries cleared. -/
  | setExact
  /-- EX_INSERT (R200): The PKT command EX_INSERT inserts an exact entry visible from the BUILDING version. -/
  | exInsert
  /-- EX_DELETE (R200): The PKT command EX_DELETE deletes an exact entry from the BUILDING version. -/
  | exDelete
  /-- WC_WRITE (R200): The PKT command WC_WRITE writes a wildcard entry visible from the BUILDING version. -/
  | wcWrite
  /-- WC_DELETE (R200): The PKT command WC_DELETE deletes a wildcard entry from the BUILDING version. -/
  | wcDelete
  /-- COMMIT (R195): The PKT command COMMIT makes the BUILDING slot CURRENT and the old CURRENT slot DRAINING. -/
  | commit
  /-- ABANDON (R200): The PKT command ABANDON frees the BUILDING slot and undoes its entry changes. -/
  | abandon
  /-- RXT_SETUP (R200): The PKT command RXT_SETUP loads a receive target context. -/
  | rxtSetup
  /-- INJECT (R193): The PKT command INJECT sends a P0 frame from HBM through a Sluice leaf. -/
  | inject
  /-- PORT_TRANSMIT (R208): A port node picks the next frame to send by ceiling, floor and DRR, and transmits it. -/
  | portTransmit (ept : Nat)
  /-- ADMIT_WAITING (R204): A Millrace, INJECT or storage packet waiting for egress room is admitted and built once it fits. -/
  | admitWaiting (leaf : Nat)
  /-- PNODE_SET (R216): The SCH command PNODE_SET sets a partition node's floor, ceiling, quantum and buffer. -/
  | pnodeSet (port : Nat) (part : Nat)
  /-- PNODE_CLEAR (R216): The SCH command PNODE_CLEAR removes a partition node that no leaf names. -/
  | pnodeClear (port : Nat) (part : Nat)
  /-- PNODE_READ (R216): The SCH command PNODE_READ returns a partition node's buckets, occupancy and ROUND. -/
  | pnodeRead (port : Nat) (part : Nat)
  /-- LEAF_SET (R216): The SCH command LEAF_SET sets a leaf's port, depth limit, class and quantum. -/
  | leafSet (port : Nat) (leaf : Nat)
  /-- LEAF_READ (R215): The SCH command LEAF_READ returns a leaf's depth, high-water marks and drops, optionally clearing the marks. -/
  | leafRead (leaf : Nat)
  /-- METER_SET (R212): The SCH command METER_SET sets a meter's rates, bursts and colour actions and fills its buckets. -/
  | meterSet (meter : Nat)
  /-- METER_READ (R216): The SCH command METER_READ returns a meter's buckets and colour counts. -/
  | meterRead (meter : Nat)
  /-- SCH_CHANGE_APPLY (R216): At the node's next round boundary a PNODE_SET or LEAF_SET takes effect and the command completes. -/
  | schChangeApply
  /-- CONVERT (R233): The descriptor CONVERT converts COUNT elements from one format to another. -/
  | convert (ring : Nat) (idx : Nat)
  /-- SUM (R233): The descriptor SUM adds COUNT terms to an XACC and rounds it once. -/
  | sum (ring : Nat) (idx : Nat)
  /-- XRD_OPEN (R248): The Confluence descriptor OPEN creates an ACTIVE reduction group over a slot range. -/
  | xrdOpen (ring : Nat) (idx : Nat)
  /-- CONTRIBUTE (R247): The descriptor CONTRIBUTE adds local terms to a group, waiting for segments beyond the window. -/
  | contribute (ring : Nat) (idx : Nat)
  /-- ATTACH (R238): The descriptor ATTACH makes a connection's WRITE packets reduction packets, or detaches it. -/
  | attach (ring : Nat) (idx : Nat)
  /-- XRD_QUERY (R247): The descriptor QUERY returns a group's state, LOW and terms added. -/
  | xrdQuery (ring : Nat) (idx : Nat)
  /-- XRD_CLOSE (R247): The descriptor CLOSE frees a FAILED group's context. -/
  | xrdClose (ring : Nat) (idx : Nat)
  /-- REDUCTION_PACKET (R239): A WRITE on an attached connection is validated against a group and its terms added, held or refused. -/
  | reductionPacket (pkt : MlrPacket)
  /-- SEGMENT_RELEASE (R244): Once an emitted segment's local write is placed and its packets built, its block is released, LOW advances and held packets enter the window. -/
  | segmentRelease (key : Nat) (seg : Nat)
  /-- SLOT_WAIT_EXPIRE (R240): A packet held beyond the window for SLOT_WAIT PKT cycles is NAKed with PAGE_NOT_READY and discarded. -/
  | slotWaitExpire (conn : Nat) (psn : Nat)
  /-- GROUP_IDLE_TIMEOUT (R246): A group with no progress for IDLE_TO × 65,536 PKT cycles fails with TIMEOUT. -/
  | groupIdleTimeout (key : Nat)
  /-- GROUP_DONE (R245): An EMITTED group whose writes are placed and emission packets acknowledged frees its context and its OPEN ends with OK. -/
  | groupDone (key : Nat)
  /-- SEQ_CREATE (R261): The Cellar descriptor SEQ_CREATE makes a FREE sequence ACTIVE with its shape and an extent. -/
  | seqCreate (ring : Nat) (idx : Nat)
  /-- INGEST (R257): The descriptor INGEST allocates blocks and converts and writes NTOK tokens into one layer of a sequence. -/
  | ingest (ring : Nat) (idx : Nat)
  /-- INGEST_DONE (R258): When every byte of an INGEST is visible, TOKENS(LAYER) advances and the INGEST ends with OK. -/
  | ingestDone (ring : Nat) (idx : Nat)
  /-- LOOKUP (R259): The descriptor LOOKUP copies present tokens of one layer to a destination. -/
  | lookup (ring : Nat) (idx : Nat)
  /-- FORK (R263): The descriptor FORK makes a FREE sequence share the first tokens of an ACTIVE one. -/
  | fork (ring : Nat) (idx : Nat)
  /-- TRIM (R264): The descriptor TRIM raises LOW_TOK and releases blocks wholly before it. -/
  | trim (ring : Nat) (idx : Nat)
  /-- DROP (R262): The descriptor DROP moves an ACTIVE sequence to CLOSING. -/
  | drop (ring : Nat) (idx : Nat)
  /-- DROP_DONE (R262): When nothing holds a CLOSING sequence, its slots are decremented, its extent freed and it becomes FREE. -/
  | dropDone (seq : Nat)
  /-- KVS_QUERY (R265): The Cellar descriptor QUERY returns a sequence's state, tokens and blocks held. -/
  | kvsQuery (ring : Nat) (idx : Nat)
  /-- BLOCK_READ_ERROR (R266): A block read with an uncorrectable error is read again; a second failure retires the page, poisons its slots and ends the request with POISONED. -/
  | blockReadError (addr : Nat) (again : Bool) (ring : Nat) (idx : Nat)
  /-- KVS_SET_PART (R270): The KVS command SET_PART sets a partition's table area and sequence count. -/
  | kvsSetPart (part : Nat)
  /-- POOL_ADD (R270): The KVS command POOL_ADD adds granules to a partition's pool. -/
  | poolAdd (part : Nat) (pool : Nat)
  /-- POOL_CLEAR (R270): The KVS command POOL_CLEAR removes a pool with no allocated slot. -/
  | poolClear (part : Nat) (pool : Nat)
  /-- POOL_READ (R270): The KVS command POOL_READ returns a pool's slot counts. -/
  | poolRead (part : Nat) (pool : Nat)
  /-- RETIRE_ADD (R270): The KVS command RETIRE_ADD enters a page in the retired-page table and poisons overlapping slots. -/
  | retireAdd
  /-- RETIRE_READ (R270): The KVS command RETIRE_READ returns one retired-page table entry. -/
  | retireRead
  /-- ATTEND (R291): The descriptor ATTEND reads a request record and takes it as an attention request. -/
  | attend (ring : Nat) (idx : Nat)
  /-- INBOX_OPEN (R273): The descriptor INBOX_OPEN binds an inbox to the partition and records BASE_VAL. -/
  | inboxOpen (ring : Nat) (idx : Nat)
  /-- INBOX_CLOSE (R275): The descriptor INBOX_CLOSE stops an inbox taking requests. -/
  | inboxClose (ring : Nat) (idx : Nat)
  /-- INBOX_CLOSED (R275): An inbox with no taken request in progress closes and its INBOX_CLOSE completes. -/
  | inboxClosed (inbox : Nat)
  /-- INBOX_QUERY (R291): The descriptor INBOX_QUERY returns an inbox's state and the value at which it takes its next request. -/
  | inboxQuery (ring : Nat) (idx : Nat)
  /-- INBOX_TAKE (R273): An inbox whose PROD_SYNC has reached the next request reads its record and takes it. -/
  | inboxTake (inbox : Nat)
  /-- CHUNK_START (R289): A free attention unit takes the next waiting chunk by round robin among partitions. -/
  | chunkStart (unit : Nat)
  /-- CHUNK_DONE (R280): A unit finishes folding a chunk into a partial; when all are done the partials merge and the response is delivered. -/
  | chunkDone (unit : Nat)
  /-- STEP_OPEN (R293): The Kiln descriptor STEP_OPEN reads a region list, allocates staging, invalidates the commit block and starts copying. -/
  | stepOpen (ring : Nat) (idx : Nat)
  /-- REGION_COPY_COMPLETE (R296): A region's staged form is visible, its fence is added to and its shard begins to drain. -/
  | regionCopyComplete (part : Nat) (step : Nat) (region : Nat) (err : Option Status)
  /-- CONTAINER_WRITE_ACK (R304): A container write is acknowledged, freeing pages and starting the next phase, until the commit record is acknowledged and the step commits. -/
  | containerWriteAck (part : Nat) (step : Nat) (shard : Nat) (st : Status)
  /-- DRAIN_TIMEOUT (R305): A step with no commit within DRAIN_TO × 65,536 ENG cycles is abandoned with TIMEOUT. -/
  | drainTimeout (part : Nat) (step : Nat)
  /-- STEP_ABANDON (R306): The descriptor STEP_ABANDON abandons an open step, or completes with NOT_ABORTED once its commit write is issued. -/
  | stepAbandon (ring : Nat) (idx : Nat)
  /-- RESTORE (R308): The descriptor RESTORE verifies containers, picks the newest covering step and writes the destinations from its shards. -/
  | restore (ring : Nat) (idx : Nat)
  /-- CKP_QUERY (R311): The Kiln descriptor QUERY returns a step's state and progress. -/
  | ckpQuery (ring : Nat) (idx : Nat)
  /-- SET_STAGE (R314): The CKP command SET_STAGE appends granules to a partition's staging area. -/
  | setStage (part : Nat)
  /-- STAGE_CLEAR (R314): The CKP command STAGE_CLEAR removes a partition's staging area. -/
  | stageClear (part : Nat)
  /-- STAGE_READ (R314): The CKP command STAGE_READ returns a staging area's page counts. -/
  | stageRead (part : Nat)
  /-- TCP_SEGMENT (R323): A TCP segment handed to the storage front end is processed by its terminated connection. -/
  | tcpSegment (seg : TcpSeg)
  /-- TCP_RTO (R323): A storage TCP retransmission timer expires and the segment is retransmitted. -/
  | tcpRto (tcp : Nat)
  /-- ICREQ (R315): An ICReq PDU opens an NVMe/TCP connection and is answered with ICResp. -/
  | icreq (tcp : Nat) (hpda : Nat) (hdgst : Bool) (ddgst : Bool) (maxr2t : Nat)
  /-- CAPSULECMD (R315): A CapsuleCmd PDU delivers one NVMe command to its queue. -/
  | capsulecmd (tcp : Nat) (sqe : NvmeSqe) (data : List Byte)
  /-- H2CDATA (R327): An H2CData PDU delivers write data, checked by its data digest. -/
  | h2cdata (tcp : Nat) (cid : Nat) (off : Nat) (data : List Byte) (ddgstOk : Bool)
  /-- H2CTERMREQ (R325): An H2CTermReq PDU ends the connection's transport. -/
  | h2ctermreq (tcp : Nat)
  /-- CONNECT (R324): A Fabrics Connect admits a host by NQN and creates a controller or I/O queue. -/
  | connect (tcp : Nat) (cid : Nat) (qid : Nat) (sqsize : Nat) (hostNqn : List Byte) (cntlid : Nat) (kato : Nat)
  /-- PROPERTY_GET (R315): A Fabrics Property Get returns a controller property. -/
  | propertyGet (tcp : Nat) (cid : Nat) (ofst : Nat)
  /-- PROPERTY_SET (R325): A Fabrics Property Set writes a controller property; clearing CC.EN ends the controller. -/
  | propertySet (tcp : Nat) (cid : Nat) (ofst : Nat) (val : BitVec 64)
  /-- IDENTIFY (R315): The admin command Identify returns controller or namespace data. -/
  | identify (q : Nat) (sqe : NvmeSqe)
  /-- GET_LOG_PAGE (R315): The admin command Get Log Page returns the Error or SMART log. -/
  | getLogPage (q : Nat) (sqe : NvmeSqe)
  /-- SET_FEATURES (R334): The admin command Set Features changes a supported feature, or completes with Feature Not Changeable. -/
  | setFeatures (q : Nat) (sqe : NvmeSqe)
  /-- GET_FEATURES (R315): The admin command Get Features returns a feature value. -/
  | getFeatures (q : Nat) (sqe : NvmeSqe)
  /-- ASYNCHRONOUS_EVENT_REQUEST (R315): The admin command Asynchronous Event Request waits for a Namespace Attribute Changed notice. -/
  | asynchronousEventRequest (q : Nat) (sqe : NvmeSqe)
  /-- ABORT (R332): The admin command Abort completes at once with not aborted and affects no command. -/
  | abort (q : Nat) (sqe : NvmeSqe)
  /-- KEEP_ALIVE (R325): The admin command Keep Alive restarts the controller's Keep Alive Timer. -/
  | keepAlive (q : Nat) (sqe : NvmeSqe)
  /-- KEEP_ALIVE_EXPIRE (R325): A controller's Keep Alive Timer expires and the controller ends. -/
  | keepAliveExpire (ctrl : Nat)
  /-- NVME_WRITE (R327): The I/O command Write holds cache pages, fetches its data and writes it to the cache or drives. -/
  | nvmeWrite (q : Nat) (cid : Nat)
  /-- NVME_READ (R328): The I/O command Read returns data from the cache or drives. -/
  | nvmeRead (q : Nat) (cid : Nat)
  /-- FLUSH (R320): The I/O command Flush completes once earlier writes of its namespace are on the drives with FUA. -/
  | flush (q : Nat) (cid : Nat)
  /-- WRITE_ZEROES (R315): The I/O command Write Zeroes writes zeros to its LBA range. -/
  | writeZeroes (q : Nat) (cid : Nat)
  /-- DATASET_MANAGEMENT (R316): The I/O command Dataset Management Deallocate completes successfully and changes no data. -/
  | datasetManagement (q : Nat) (cid : Nat)
  /-- NVME_CMD_START (R330): A command whose overlapping earlier commands of its queue have completed starts. -/
  | nvmeCmdStart (q : Nat) (cid : Nat)
  /-- DRIVE_COMPLETION (R335): A back-end drive command completes, finishing waiting commands, or fails a read or moves the namespace to FAILED. -/
  | driveCompletion (did : Nat) (ok : Bool) (data : List Byte)
  /-- DIRTY_WRITEBACK (R320): The front end writes the oldest dirty cache page to the drives. -/
  | dirtyWriteback (ns : Nat)
  /-- NS_EMPTY (R321): A CLOSING or FAILED namespace with nothing in progress becomes EMPTY and STO_NS_STATE is written. -/
  | nsEmpty (ns : Nat)
  /-- PS_IDLE_EXPIRE (R337): After IDLEn × 65,536 NOC cycles without a command, the front end moves to power state PSn. -/
  | psIdleExpire (n : Nat)
  /-- PS_EXIT_DONE (R337): A power state exit ends and the front end runs at full rate in PS0. -/
  | psExitDone
  /-- CAPSULE_IO (R326): The capsule descriptor IO submits one NVMe I/O command from a capsule ring. -/
  | capsuleIo (ring : Nat) (idx : Nat)
  /-- CAPSULE_ADMIN (R326): The capsule descriptor ADMIN submits one permitted admin command from a capsule ring. -/
  | capsuleAdmin (ring : Nat) (idx : Nat)
  /-- NS_CREATE (R339): The STO command NS_CREATE defines an EMPTY namespace's extents and key and makes it READY. -/
  | nsCreate (part : Nat)
  /-- NS_DELETE (R339): The STO command NS_DELETE moves a READY namespace to CLOSING or a FAILED one toward EMPTY. -/
  | nsDelete (part : Nat)
  /-- LISTEN (R339): The STO command LISTEN sets a partition's NVMe/TCP listener and host list. -/
  | listen (part : Nat)
  /-- QP_RING (R339): The STO command QP_RING binds or unbinds a capsule ring to a queue pair. -/
  | qpRing (part : Nat)
  /-- NS_READ (R339): The STO command NS_READ returns a namespace's state, NSID and size. -/
  | nsRead (part : Nat)
  /-- SEAL (R346): The cipher descriptor SEAL encrypts and authenticates one segment, taking a nonce on FIRST and writing the tag on LAST. -/
  | seal (ring : Nat) (idx : Nat)
  /-- CPH_OPEN (R347): The cipher descriptor OPEN decrypts one segment and verifies the tag on LAST, zeroing output on failure. -/
  | cphOpen (ring : Nat) (idx : Nat)
  /-- XTS_ENC (R348): The descriptor XTS_ENC encrypts data units under AES-256-XTS. -/
  | xtsEnc (ring : Nat) (idx : Nat)
  /-- XTS_DEC (R348): The descriptor XTS_DEC decrypts data units under AES-256-XTS. -/
  | xtsDec (ring : Nat) (idx : Nat)
  /-- KEY_LOAD (R344): The descriptor KEY_LOAD loads a key, salt and limit into an EMPTY context and zeroes COUNTER. -/
  | keyLoad (ring : Nat) (idx : Nat)
  /-- KEY_GEN (R344): The descriptor KEY_GEN loads a key from the random bit generator into an EMPTY context. -/
  | keyGen (ring : Nat) (idx : Nat)
  /-- KEY_CLEAR (R354): The descriptor KEY_CLEAR makes a context EMPTY. -/
  | keyClear (ring : Nat) (idx : Nat)
  /-- SAVE (R353): The descriptor SAVE writes a context's blob record, wrapped or clear, and makes it EMPTY. -/
  | save (ring : Nat) (idx : Nat)
  /-- CPH_RESTORE (R353): The cipher descriptor RESTORE checks a blob record and loads it into an EMPTY context. -/
  | cphRestore (ring : Nat) (idx : Nat)
  /-- KEY_QUERY (R354): The descriptor KEY_QUERY returns a context's state, algorithm, salt and counter. -/
  | keyQuery (ring : Nat) (idx : Nat)
  /-- KEY_CONTEXT_FETCHED (R342): A key context fetched for a waiting use arrives, or the fetch is poisoned and the use fails. -/
  | keyContextFetched (key : Nat) (ok : Bool)
  /-- SET_DOMAIN (R356): The CPH command SET_DOMAIN sets a BUILDING partition's WRAP_DOMAIN. -/
  | setDomain (part : Nat)
  /-- BARRIER_RESEND_TIMEOUT (R359): A barrier frame without ACK for 64 FLD cycles is resent, and after 16 resends the barrier-link fault is raised. -/
  | barrierResendTimeout (side : Side) (cls : MsgClass)
  /-- PAGE_RD (R31): A PAGE_RD message reads a field-side page register, answered with PAGE_RD_RSP. -/
  | pageRd (pg : Page) (off : Nat)
  /-- PAGE_RD_RSP (R31): A PAGE_RD_RSP message completes a host-side read of a field page. -/
  | pageRdRsp (pg : Page) (off : Nat) (val : BitVec 64)
  /-- PAGE_WR (R358): A PAGE_WR message writes a field-side page register, answered with PAGE_WR_ACK. -/
  | pageWr (pg : Page) (off : Nat) (width : Nat) (val : BitVec 64)
  /-- PAGE_WR_ACK (R358): A PAGE_WR_ACK message completes a host-side write of a field page. -/
  | pageWrAck (pg : Page) (off : Nat)
  /-- HOST_RD (R358): A HOST_RD message lets Weir read a host-side page register. -/
  | hostRd (pg : Page) (off : Nat)
  /-- HOST_RD_RSP (R358): A HOST_RD_RSP message returns a host-side register value to Weir. -/
  | hostRdRsp (pg : Page) (off : Nat) (val : BitVec 64)
  /-- HOST_WR (R358): A HOST_WR message lets Weir write a host-side page register. -/
  | hostWr (pg : Page) (off : Nat) (width : Nat) (val : BitVec 64)
  /-- HOST_WR_ACK (R358): A HOST_WR_ACK message confirms a Weir write to a host-side page. -/
  | hostWrAck (pg : Page) (off : Nat)
  /-- INT (R358): An INT message carries a field page's unit interrupt to the host side. -/
  | int (pg : Page)
  /-- BARRIER_ACK (R359): A barrier ACK message acknowledges frames of the class it names. -/
  | barrierAck (rcv : Side) (cls : MsgClass) (seq : Nat)
  /-- BARRIER_NAK (R359): A barrier NAK message makes the sender resend from the named SEQ. -/
  | barrierNak (rcv : Side) (cls : MsgClass) (seq : Nat)
  /-- BARRIER_FRAME_BAD (R359): A barrier frame with a bad CRC or unexpected SEQ is discarded and a NAK sent. -/
  | barrierFrameBad (rcv : Side) (cls : MsgClass) (seq : Nat) (crcOk : Bool)
  /-- POWER_CLOCK_CONTROL (R431): A power or clock control message requests a limit change, clamped to the field-side limits. -/
  | powerClockControl (req : PwrReq)
  /-- IMG_REQ (R358): An IMG_REQ message asks Weir to stream an image. -/
  | imgReq (kind : Nat)
  /-- IMG_DATA (R367): An IMG_DATA message carries part of an image to the host side. -/
  | imgData (kind : Nat) (data : List Byte)
  /-- IMG_END (R358): An IMG_END message ends an image transfer. -/
  | imgEnd (kind : Nat)
  /-- IMG_ACK (R358): An IMG_ACK message confirms an image transfer. -/
  | imgAck (kind : Nat)
  /-- KEY_INSTALL (R362): A KEY_INSTALL message installs the device wrapping key into the cipher engine. -/
  | keyInstall
  /-- SEED (R361): A SEED message seeds the host-side random bit generator. -/
  | seed
  /-- RESEED_DUE (R361): After 2^20 requests served by the host-side generator, Weir sends a new SEED. -/
  | reseedDue
  /-- ATT_REQ (R370): An ATT_REQ message asks Weir to sign an attestation report. -/
  | attReq (vi : Nat)
  /-- ATT_RSP (R371): An ATT_RSP message returns a signed report or refusal from Weir. -/
  | attRsp (vi : Nat) (st : Status)
  /-- MBOX (R358): An MBOX message carries a firmware request to Weir. -/
  | mbox (msg : List Byte)
  /-- MBOX_RSP (R358): An MBOX_RSP message carries Weir's answer to firmware. -/
  | mboxRsp (msg : List Byte)
  /-- HEARTBEAT (R480): A HEARTBEAT message from Weir restarts the host side's heartbeat timer. -/
  | heartbeat
  /-- HEARTBEAT_SEND (R480): Every 65,536 FLD cycles Weir sends HEARTBEAT. -/
  | heartbeatSend
  /-- TELEMETRY (R358): A sensor or wear telemetry message carries readings across the barrier. -/
  | telemetry (kind : Nat) (readings : List Byte)
  /-- VIN40_APPLY (R367): VIN40 reaches 36 V and the isolated converter brings up the field supply. -/
  | vin40Apply
  /-- STARTUP_REFIN (R367): REFIN is found present, AON runs and the FLD PLL passes its test. -/
  | startupRefin
  /-- STARTUP_BOOT_ROM (R367): The boot ROM senses fuses, accepts KEYMAN and WEIR, locks UDS, derives secrets and starts Weir, or falls back. -/
  | startupBootRom
  /-- STARTUP_POWER (R367): Weir powers the GaN stage and base regulators, each after its power-good, with HSEN high. -/
  | startupPower
  /-- STARTUP_PLL (R367): Host-side PLLs become stable and the dies leave reset. -/
  | startupPll
  /-- STARTUP_HBM_TRAIN (R367): The eight HBM4 stacks finish training. -/
  | startupHbmTrain
  /-- STARTUP_IMAGES (R367): RUNTIME and MONITOR are streamed, accepted and loaded, keys and seed installed, and cores released. -/
  | startupImages
  /-- STARTUP_LINK_READY (R367): The link die releases the endpoint, the host link is ready and the first scrub of HBM starts. -/
  | startupLinkReady
  /-- RECOVERY_FLASH_WRITE (R366): In recovery the UART accepts a flash write of a signed bank. -/
  | recoveryFlashWrite (addr : Nat) (data : List Byte)
  /-- DEBUG_CHALLENGE (R372): The TRS command DEBUG_CHALLENGE issues a 48-byte challenge. -/
  | debugChallenge
  /-- DEBUG_UNLOCK (R372): The TRS command DEBUG_UNLOCK verifies a signed response and unlocks debug until reset. -/
  | debugUnlock
  /-- REPORT (R370): The TRS command REPORT asks Weir for a partition's attestation report. -/
  | report (part : Nat)
  /-- REPORT_SIGNED (R371): Weir signs a queued report with AK and writes it. -/
  | reportSigned
  /-- CERTS (R371): The TRS command CERTS writes the certificate chain from DeviceID to AK. -/
  | certs
  /-- SVN_COMMIT (R374): The TRS command SVN_COMMIT raises each SVN_FLOOR to the running image's SVN. -/
  | svnCommit
  /-- BANK_SELECT (R374): The TRS command BANK_SELECT writes the boot-select word. -/
  | bankSelect (bank : Nat)
  /-- MGMT_KEY (R375): The TRS command MGMT_KEY wraps and stores the management key and zeroes its source. -/
  | mgmtKey
  /-- INJ_EN_SET (R373): A W1S write to TRS.TEST.INJ_EN enables test injection until reset. -/
  | injEnSet
  /-- DEBUG_ACCESS (R372): A debug access through the SMBus reaches core debug or pages, or is refused while locked. -/
  | debugAccess (acc : DbgAccess)
  /-- MGMT_REQUEST (R375): A request on the management port is authenticated under the management key and served, or refused. -/
  | mgmtRequest (auth : Bool) (acc : DbgAccess)
  /-- S_MOV (R381): S.MOV copies RS to RD. -/
  | sMov (c : Nat) (rd : BitVec 5) (rs : BitVec 5)
  /-- S_ADD (R381): S.ADD adds RS to RD; S.ADD g0, g0 is S.NOP. -/
  | sAdd (c : Nat) (rd : BitVec 5) (rs : BitVec 5)
  /-- S_SUB (R381): S.SUB subtracts RS from RD. -/
  | sSub (c : Nat) (rd : BitVec 5) (rs : BitVec 5)
  /-- S_AND (R381): S.AND ANDs RS into RD. -/
  | sAnd (c : Nat) (rd : BitVec 5) (rs : BitVec 5)
  /-- S_OR (R381): S.OR ORs RS into RD. -/
  | sOr (c : Nat) (rd : BitVec 5) (rs : BitVec 5)
  /-- S_XOR (R381): S.XOR XORs RS into RD. -/
  | sXor (c : Nat) (rd : BitVec 5) (rs : BitVec 5)
  /-- S_SHL (R381): S.SHL shifts RD left by RS under R388. -/
  | sShl (c : Nat) (rd : BitVec 5) (rs : BitVec 5)
  /-- S_SAR (R381): S.SAR shifts RD right arithmetically by RS under R388. -/
  | sSar (c : Nat) (rd : BitVec 5) (rs : BitVec 5)
  /-- S_ADD_I (R381): S.ADD.I adds a sign-extended 6-bit immediate to RD. -/
  | sAddI (c : Nat) (rd : BitVec 5) (imm : BitVec 6)
  /-- S_LDI (R381): S.LDI loads a sign-extended 6-bit immediate into RD. -/
  | sLdi (c : Nat) (rd : BitVec 5) (imm : BitVec 6)
  /-- S_SHL_I (R381): S.SHL.I shifts RD left by an immediate. -/
  | sShlI (c : Nat) (rd : BitVec 5) (imm : BitVec 6)
  /-- S_SHR_I (R381): S.SHR.I shifts RD right logically by an immediate. -/
  | sShrI (c : Nat) (rd : BitVec 5) (imm : BitVec 6)
  /-- S_LD64 (R381): S.LD64 loads a 64-bit word at RB' + OFF5 × 8. -/
  | sLd64 (c : Nat) (rd : BitVec 3) (rb : BitVec 3) (off : BitVec 5)
  /-- S_ST64 (R381): S.ST64 stores a 64-bit word at RB' + OFF5 × 8. -/
  | sSt64 (c : Nat) (rd : BitVec 3) (rb : BitVec 3) (off : BitVec 5)
  /-- S_LDF (R381): S.LDF loads a 64-bit word from the frame at g2. -/
  | sLdf (c : Nat) (rd : BitVec 5) (imm : BitVec 6)
  /-- S_STF (R381): S.STF stores a 64-bit word to the frame at g2. -/
  | sStf (c : Nat) (rd : BitVec 5) (imm : BitVec 6)
  /-- S_J (R381): S.J jumps by a signed 11-bit halfword offset. -/
  | sJ (c : Nat) (imm : BitVec 11)
  /-- S_JZ (R381): S.JZ branches if RS' is zero. -/
  | sJz (c : Nat) (rs : BitVec 3) (imm : BitVec 7)
  /-- S_JNZ (R381): S.JNZ branches if RS' is not zero. -/
  | sJnz (c : Nat) (rs : BitVec 3) (imm : BitVec 7)
  /-- S_JR (R381): S.JR jumps to the address in RS. -/
  | sJr (c : Nat) (rd : BitVec 5) (rs : BitVec 5)
  /-- S_JLR (R381): S.JLR writes the link to g1 and jumps to the address in RS. -/
  | sJlr (c : Nat) (rd : BitVec 5) (rs : BitVec 5)
  /-- S_DBNZ (R382): S.DBNZ decrements g8 + C and branches backward if the result is not zero. -/
  | sDbnz (c : Nat) (ctr : BitVec 3) (d : BitVec 8)
  /-- DBNZ (R382): DBNZ decrements any counter register and branches by a signed offset if not zero. -/
  | dbnz (c : Nat) (rd : BitVec 5) (imm : BitVec 20)
  /-- ADD (R385): ADD adds RS2 to RS1 without flags. -/
  | add (c : Nat) (rd : BitVec 5) (rs1 : BitVec 5) (rs2 : BitVec 5) (f6 : BitVec 6)
  /-- SUB (R385): SUB subtracts RS2 from RS1 without flags. -/
  | sub (c : Nat) (rd : BitVec 5) (rs1 : BitVec 5) (rs2 : BitVec 5) (f6 : BitVec 6)
  /-- AND (R385): AND computes RS1 AND RS2. -/
  | and (c : Nat) (rd : BitVec 5) (rs1 : BitVec 5) (rs2 : BitVec 5) (f6 : BitVec 6)
  /-- OR (R385): OR computes RS1 OR RS2. -/
  | or (c : Nat) (rd : BitVec 5) (rs1 : BitVec 5) (rs2 : BitVec 5) (f6 : BitVec 6)
  /-- XOR (R385): XOR computes RS1 XOR RS2. -/
  | xor (c : Nat) (rd : BitVec 5) (rs1 : BitVec 5) (rs2 : BitVec 5) (f6 : BitVec 6)
  /-- SHL (R388): SHL shifts RS1 left by the unmasked RS2. -/
  | shl (c : Nat) (rd : BitVec 5) (rs1 : BitVec 5) (rs2 : BitVec 5) (f6 : BitVec 6)
  /-- SHR (R388): SHR shifts RS1 right logically by the unmasked RS2. -/
  | shr (c : Nat) (rd : BitVec 5) (rs1 : BitVec 5) (rs2 : BitVec 5) (f6 : BitVec 6)
  /-- SAR (R388): SAR shifts RS1 right arithmetically by the unmasked RS2. -/
  | sar (c : Nat) (rd : BitVec 5) (rs1 : BitVec 5) (rs2 : BitVec 5) (f6 : BitVec 6)
  /-- ROTL (R388): ROTL rotates RS1 left by RS2 mod width. -/
  | rotl (c : Nat) (rd : BitVec 5) (rs1 : BitVec 5) (rs2 : BitVec 5) (f6 : BitVec 6)
  /-- ROTR (R388): ROTR rotates RS1 right by RS2 mod width. -/
  | rotr (c : Nat) (rd : BitVec 5) (rs1 : BitVec 5) (rs2 : BitVec 5) (f6 : BitVec 6)
  /-- LTS (R385): LTS sets RD to 1 if RS1 < RS2 signed. -/
  | lts (c : Nat) (rd : BitVec 5) (rs1 : BitVec 5) (rs2 : BitVec 5) (f6 : BitVec 6)
  /-- LTU (R385): LTU sets RD to 1 if RS1 < RS2 unsigned. -/
  | ltu (c : Nat) (rd : BitVec 5) (rs1 : BitVec 5) (rs2 : BitVec 5) (f6 : BitVec 6)
  /-- ADD_F (R386): ADD.F adds and writes N, Z, C and V. -/
  | addF (c : Nat) (rd : BitVec 5) (rs1 : BitVec 5) (rs2 : BitVec 5) (f6 : BitVec 6)
  /-- SUB_F (R386): SUB.F subtracts and writes N, Z, C and V; CMP is SUB.F to g0. -/
  | subF (c : Nat) (rd : BitVec 5) (rs1 : BitVec 5) (rs2 : BitVec 5) (f6 : BitVec 6)
  /-- NEG (R389): NEG negates RS1 and writes N, Z and V. -/
  | neg (c : Nat) (rd : BitVec 5) (rs1 : BitVec 5) (rs2 : BitVec 5) (f6 : BitVec 6)
  /-- AND_F (R385): AND.F computes AND and writes N and Z, clearing C and V; TST is AND.F to g0. -/
  | andF (c : Nat) (rd : BitVec 5) (rs1 : BitVec 5) (rs2 : BitVec 5) (f6 : BitVec 6)
  /-- ADD_I (R385): ADD.I adds a sign-extended immediate. -/
  | addI (c : Nat) (rd : BitVec 5) (rs1 : BitVec 5) (imm : BitVec 11)
  /-- AND_I (R385): AND.I ANDs a sign-extended immediate. -/
  | andI (c : Nat) (rd : BitVec 5) (rs1 : BitVec 5) (imm : BitVec 11)
  /-- OR_I (R385): OR.I ORs a sign-extended immediate. -/
  | orI (c : Nat) (rd : BitVec 5) (rs1 : BitVec 5) (imm : BitVec 11)
  /-- XOR_I (R385): XOR.I XORs a sign-extended immediate. -/
  | xorI (c : Nat) (rd : BitVec 5) (rs1 : BitVec 5) (imm : BitVec 11)
  /-- SHL_I (R388): SHL.I shifts left by an unsigned immediate. -/
  | shlI (c : Nat) (rd : BitVec 5) (rs1 : BitVec 5) (imm : BitVec 11)
  /-- SHR_I (R388): SHR.I shifts right logically by an unsigned immediate. -/
  | shrI (c : Nat) (rd : BitVec 5) (rs1 : BitVec 5) (imm : BitVec 11)
  /-- SAR_I (R388): SAR.I shifts right arithmetically by an unsigned immediate. -/
  | sarI (c : Nat) (rd : BitVec 5) (rs1 : BitVec 5) (imm : BitVec 11)
  /-- ROTR_I (R388): ROTR.I rotates right by an immediate mod width. -/
  | rotrI (c : Nat) (rd : BitVec 5) (rs1 : BitVec 5) (imm : BitVec 11)
  /-- LTS_I (R385): LTS.I compares RS1 with an immediate, signed. -/
  | ltsI (c : Nat) (rd : BitVec 5) (rs1 : BitVec 5) (imm : BitVec 11)
  /-- LTU_I (R385): LTU.I compares RS1 with an immediate, unsigned. -/
  | ltuI (c : Nat) (rd : BitVec 5) (rs1 : BitVec 5) (imm : BitVec 11)
  /-- ADD_FI (R386): ADD.FI adds an immediate and writes N, Z, C and V. -/
  | addFi (c : Nat) (rd : BitVec 5) (rs1 : BitVec 5) (imm : BitVec 11)
  /-- SUB_FI (R386): SUB.FI subtracts an immediate and writes N, Z, C and V. -/
  | subFi (c : Nat) (rd : BitVec 5) (rs1 : BitVec 5) (imm : BitVec 11)
  /-- MULLO (R390): MULLO returns the low bits of the product. -/
  | mullo (c : Nat) (rd : BitVec 5) (rs1 : BitVec 5) (rs2 : BitVec 5) (f6 : BitVec 6)
  /-- MULHI_SS (R390): MULHI.SS returns the high bits of a signed × signed product. -/
  | mulhiSs (c : Nat) (rd : BitVec 5) (rs1 : BitVec 5) (rs2 : BitVec 5) (f6 : BitVec 6)
  /-- MULHI_UU (R390): MULHI.UU returns the high bits of an unsigned × unsigned product. -/
  | mulhiUu (c : Nat) (rd : BitVec 5) (rs1 : BitVec 5) (rs2 : BitVec 5) (f6 : BitVec 6)
  /-- MULHI_SU (R390): MULHI.SU returns the high bits of a signed × unsigned product. -/
  | mulhiSu (c : Nat) (rd : BitVec 5) (rs1 : BitVec 5) (rs2 : BitVec 5) (f6 : BitVec 6)
  /-- DIVS (R389): DIVS divides signed, with the edge results and V and DZ flags of R389, or traps DIVZERO. -/
  | divs (c : Nat) (rd : BitVec 5) (rs1 : BitVec 5) (rs2 : BitVec 5) (f6 : BitVec 6)
  /-- DIVU (R389): DIVU divides unsigned, setting DZ on division by zero or trapping DIVZERO. -/
  | divu (c : Nat) (rd : BitVec 5) (rs1 : BitVec 5) (rs2 : BitVec 5) (f6 : BitVec 6)
  /-- RMDS (R389): RMDS returns the signed remainder under R389. -/
  | rmds (c : Nat) (rd : BitVec 5) (rs1 : BitVec 5) (rs2 : BitVec 5) (f6 : BitVec 6)
  /-- RMDU (R389): RMDU returns the unsigned remainder under R389. -/
  | rmdu (c : Nat) (rd : BitVec 5) (rs1 : BitVec 5) (rs2 : BitVec 5) (f6 : BitVec 6)
  /-- LD8S (R391): LD8S loads a sign-extended byte. -/
  | ld8s (c : Nat) (rd : BitVec 5) (rs1 : BitVec 5) (imm : BitVec 11)
  /-- LD16S (R391): LD16S loads a sign-extended halfword. -/
  | ld16s (c : Nat) (rd : BitVec 5) (rs1 : BitVec 5) (imm : BitVec 11)
  /-- LD32S (R391): LD32S loads a sign-extended word. -/
  | ld32s (c : Nat) (rd : BitVec 5) (rs1 : BitVec 5) (imm : BitVec 11)
  /-- LD64 (R391): LD64 loads a 64-bit word. -/
  | ld64 (c : Nat) (rd : BitVec 5) (rs1 : BitVec 5) (imm : BitVec 11)
  /-- LD8U (R391): LD8U loads a zero-extended byte. -/
  | ld8u (c : Nat) (rd : BitVec 5) (rs1 : BitVec 5) (imm : BitVec 11)
  /-- LD16U (R391): LD16U loads a zero-extended halfword. -/
  | ld16u (c : Nat) (rd : BitVec 5) (rs1 : BitVec 5) (imm : BitVec 11)
  /-- LD32U (R391): LD32U loads a zero-extended word. -/
  | ld32u (c : Nat) (rd : BitVec 5) (rs1 : BitVec 5) (imm : BitVec 11)
  /-- ST8 (R391): ST8 stores a byte. -/
  | st8 (c : Nat) (rs2 : BitVec 5) (rs1 : BitVec 5) (imm : BitVec 11)
  /-- ST16 (R391): ST16 stores a halfword. -/
  | st16 (c : Nat) (rs2 : BitVec 5) (rs1 : BitVec 5) (imm : BitVec 11)
  /-- ST32 (R391): ST32 stores a word. -/
  | st32 (c : Nat) (rs2 : BitVec 5) (rs1 : BitVec 5) (imm : BitVec 11)
  /-- ST64 (R391): ST64 stores a 64-bit word. -/
  | st64 (c : Nat) (rs2 : BitVec 5) (rs1 : BitVec 5) (imm : BitVec 11)
  /-- FL32 (R391): FL32 loads a binary32 into an f register. -/
  | fl32 (c : Nat) (rd : BitVec 5) (rs1 : BitVec 5) (imm : BitVec 11)
  /-- FL64 (R391): FL64 loads a binary64 into an f register. -/
  | fl64 (c : Nat) (rd : BitVec 5) (rs1 : BitVec 5) (imm : BitVec 11)
  /-- FS32 (R391): FS32 stores a binary32 from an f register. -/
  | fs32 (c : Nat) (rs2 : BitVec 5) (rs1 : BitVec 5) (imm : BitVec 11)
  /-- FS64 (R391): FS64 stores a binary64 from an f register. -/
  | fs64 (c : Nat) (rs2 : BitVec 5) (rs1 : BitVec 5) (imm : BitVec 11)
  /-- RMW_SWAP (R392): RMW.SWAP atomically writes RS2 to memory and returns the old value. -/
  | rmwSwap (c : Nat) (rd : BitVec 5) (rs1 : BitVec 5) (rs2 : BitVec 5) (f6 : BitVec 6)
  /-- RMW_ADD (R392): RMW.ADD atomically adds RS2 to memory. -/
  | rmwAdd (c : Nat) (rd : BitVec 5) (rs1 : BitVec 5) (rs2 : BitVec 5) (f6 : BitVec 6)
  /-- RMW_AND (R392): RMW.AND atomically ANDs RS2 into memory. -/
  | rmwAnd (c : Nat) (rd : BitVec 5) (rs1 : BitVec 5) (rs2 : BitVec 5) (f6 : BitVec 6)
  /-- RMW_OR (R392): RMW.OR atomically ORs RS2 into memory. -/
  | rmwOr (c : Nat) (rd : BitVec 5) (rs1 : BitVec 5) (rs2 : BitVec 5) (f6 : BitVec 6)
  /-- RMW_XOR (R392): RMW.XOR atomically XORs RS2 into memory. -/
  | rmwXor (c : Nat) (rd : BitVec 5) (rs1 : BitVec 5) (rs2 : BitVec 5) (f6 : BitVec 6)
  /-- RMW_SMIN (R392): RMW.SMIN atomically stores the signed minimum. -/
  | rmwSmin (c : Nat) (rd : BitVec 5) (rs1 : BitVec 5) (rs2 : BitVec 5) (f6 : BitVec 6)
  /-- RMW_SMAX (R392): RMW.SMAX atomically stores the signed maximum. -/
  | rmwSmax (c : Nat) (rd : BitVec 5) (rs1 : BitVec 5) (rs2 : BitVec 5) (f6 : BitVec 6)
  /-- RMW_UMIN (R392): RMW.UMIN atomically stores the unsigned minimum. -/
  | rmwUmin (c : Nat) (rd : BitVec 5) (rs1 : BitVec 5) (rs2 : BitVec 5) (f6 : BitVec 6)
  /-- RMW_UMAX (R392): RMW.UMAX atomically stores the unsigned maximum. -/
  | rmwUmax (c : Nat) (rd : BitVec 5) (rs1 : BitVec 5) (rs2 : BitVec 5) (f6 : BitVec 6)
  /-- RMW_CMPX (R392): RMW.CMPX atomically stores RS2 if memory equals RD and sets Z accordingly. -/
  | rmwCmpx (c : Nat) (rd : BitVec 5) (rs1 : BitVec 5) (rs2 : BitVec 5) (f6 : BitVec 6)
  /-- BRANCH (R393): A conditional branch of OP 0x05 jumps by IMM21 when its COND holds on FLG. -/
  | branch (c : Nat) (cond : BitVec 4) (imm : BitVec 21)
  /-- JMPL (R394): JMPL writes pc + 4 to RD and jumps by a signed offset. -/
  | jmpl (c : Nat) (rd : BitVec 5) (imm : BitVec 20)
  /-- JMPLR (R394): JMPLR writes pc + 4 to RD and jumps to RS1 + offset. -/
  | jmplr (c : Nat) (rd : BitVec 5) (f4 : BitVec 4) (rs1 : BitVec 5) (imm : BitVec 11)
  /-- PCOFF (R394): PCOFF sets RD to pc plus a shifted signed offset. -/
  | pcoff (c : Nat) (rd : BitVec 5) (imm : BitVec 20)
  /-- PLZ (R394): PLZ loads IMM16 shifted into place with zeros elsewhere. -/
  | plz (c : Nat) (rd : BitVec 5) (hw : BitVec 2) (imm : BitVec 16)
  /-- PLN (R394): PLN loads the complement of IMM16 shifted into place. -/
  | pln (c : Nat) (rd : BitVec 5) (hw : BitVec 2) (imm : BitVec 16)
  /-- PLK (R394): PLK inserts IMM16 into one 16-bit field of RD. -/
  | plk (c : Nat) (rd : BitVec 5) (hw : BitVec 2) (imm : BitVec 16)
  /-- SYSRD (R395): SYSRD reads a system register. -/
  | sysrd (c : Nat) (rd : BitVec 5) (rs1 : BitVec 5) (imm : BitVec 11)
  /-- SYSWR (R395): SYSWR swaps a system register with RS1. -/
  | syswr (c : Nat) (rd : BitVec 5) (rs1 : BitVec 5) (imm : BitVec 11)
  /-- SYSSET (R395): SYSSET ORs RS1 into a system register and returns the old value. -/
  | sysset (c : Nat) (rd : BitVec 5) (rs1 : BitVec 5) (imm : BitVec 11)
  /-- SYSCLR (R395): SYSCLR clears RS1's bits in a system register and returns the old value. -/
  | sysclr (c : Nat) (rd : BitVec 5) (rs1 : BitVec 5) (imm : BitVec 11)
  /-- MBAR (R416): MBAR orders the named pairs of access kinds and discards translations. -/
  | mbar (c : Nat) (rd : BitVec 5) (rs1 : BitVec 5) (imm : BitVec 11)
  /-- FBAR (R395): FBAR makes later fetches observe this core's earlier stores. -/
  | fbar (c : Nat) (rd : BitVec 5) (rs1 : BitVec 5) (imm : BitVec 11)
  /-- LCALL (R410): LCALL traps to a higher level. -/
  | lcall (c : Nat) (rd : BitVec 5) (rs1 : BitVec 5) (imm : BitVec 11)
  /-- LBRK (R410): LBRK raises a breakpoint trap. -/
  | lbrk (c : Nat) (rd : BitVec 5) (rs1 : BitVec 5) (imm : BitVec 11)
  /-- IDLE (R410): IDLE stalls the core until an enabled interrupt is pending. -/
  | idle (c : Nat) (rd : BitVec 5) (rs1 : BitVec 5) (imm : BitVec 11)
  /-- LRET (R410): LRET returns from a trap to PREV, restoring EN and pc. -/
  | lret (c : Nat) (rd : BitVec 5) (rs1 : BitVec 5) (imm : BitVec 11)
  /-- UDL (R402): UDL verifies a signed decode blob and replaces this core's writable decode table. -/
  | udl (c : Nat) (rd : BitVec 5) (rs1 : BitVec 5) (imm : BitVec 11)
  /-- FADD (R397): FADD adds two floating-point values, correctly rounded. -/
  | fadd (c : Nat) (rd : BitVec 5) (rs1 : BitVec 5) (rs2 : BitVec 5) (f6 : BitVec 6)
  /-- FSUB (R397): FSUB subtracts two floating-point values. -/
  | fsub (c : Nat) (rd : BitVec 5) (rs1 : BitVec 5) (rs2 : BitVec 5) (f6 : BitVec 6)
  /-- FMUL (R397): FMUL multiplies two floating-point values. -/
  | fmul (c : Nat) (rd : BitVec 5) (rs1 : BitVec 5) (rs2 : BitVec 5) (f6 : BitVec 6)
  /-- FDIV (R397): FDIV divides two floating-point values. -/
  | fdiv (c : Nat) (rd : BitVec 5) (rs1 : BitVec 5) (rs2 : BitVec 5) (f6 : BitVec 6)
  /-- FSQRT (R397): FSQRT takes the square root of RS1. -/
  | fsqrt (c : Nat) (rd : BitVec 5) (rs1 : BitVec 5) (rs2 : BitVec 5) (f6 : BitVec 6)
  /-- FMIN (R398): FMIN returns the IEEE minimum with −0 below +0. -/
  | fmin (c : Nat) (rd : BitVec 5) (rs1 : BitVec 5) (rs2 : BitVec 5) (f6 : BitVec 6)
  /-- FMAX (R398): FMAX returns the IEEE maximum with −0 below +0. -/
  | fmax (c : Nat) (rd : BitVec 5) (rs1 : BitVec 5) (rs2 : BitVec 5) (f6 : BitVec 6)
  /-- FSIGN_COPY (R397): FSIGN COPY gives RS1 the sign of RS2. -/
  | fsignCopy (c : Nat) (rd : BitVec 5) (rs1 : BitVec 5) (rs2 : BitVec 5) (f6 : BitVec 6)
  /-- FSIGN_FLIP (R397): FSIGN FLIP gives RS1 the inverse of RS2's sign. -/
  | fsignFlip (c : Nat) (rd : BitVec 5) (rs1 : BitVec 5) (rs2 : BitVec 5) (f6 : BitVec 6)
  /-- FSIGN_MIX (R397): FSIGN MIX gives RS1 the XOR of both signs. -/
  | fsignMix (c : Nat) (rd : BitVec 5) (rs1 : BitVec 5) (rs2 : BitVec 5) (f6 : BitVec 6)
  /-- FCMP (R398): FCMP compares two values and writes N, Z, V and C in FLG. -/
  | fcmp (c : Nat) (rd : BitVec 5) (rs1 : BitVec 5) (rs2 : BitVec 5) (f6 : BitVec 6)
  /-- FCNV_P (R397): FCNV.P converts between binary32 and binary64. -/
  | fcnvP (c : Nat) (rd : BitVec 5) (rs1 : BitVec 5) (rs2 : BitVec 5) (f6 : BitVec 6)
  /-- FCNV_TI (R399): FCNV.TI converts a float to an integer under its rounding override. -/
  | fcnvTi (c : Nat) (rd : BitVec 5) (rs1 : BitVec 5) (rs2 : BitVec 5) (f6 : BitVec 6)
  /-- FCNV_FI (R397): FCNV.FI converts an integer to a float rounded under RND. -/
  | fcnvFi (c : Nat) (rd : BitVec 5) (rs1 : BitVec 5) (rs2 : BitVec 5) (f6 : BitVec 6)
  /-- FBITS_G (R397): FBITS.G copies an f register's bits to a g register. -/
  | fbitsG (c : Nat) (rd : BitVec 5) (rs1 : BitVec 5) (rs2 : BitVec 5) (f6 : BitVec 6)
  /-- FBITS_F (R397): FBITS.F copies a g register's bits to an f register. -/
  | fbitsF (c : Nat) (rd : BitVec 5) (rs1 : BitVec 5) (rs2 : BitVec 5) (f6 : BitVec 6)
  /-- FKIND (R397): FKIND returns a one-hot class of RS1. -/
  | fkind (c : Nat) (rd : BitVec 5) (rs1 : BitVec 5) (rs2 : BitVec 5) (f6 : BitVec 6)
  /-- FMAC (R397): FMAC computes RS1 × RS2 + RS3 with one rounding. -/
  | fmac (c : Nat) (rd : BitVec 5) (rs1 : BitVec 5) (rs2 : BitVec 5) (rs3 : BitVec 5) (p : Bool) (f4hi : BitVec 2)
  /-- FMAC_NA (R397): FMAC.NA computes RS1 × RS2 − RS3 with one rounding. -/
  | fmacNa (c : Nat) (rd : BitVec 5) (rs1 : BitVec 5) (rs2 : BitVec 5) (rs3 : BitVec 5) (p : Bool) (f4hi : BitVec 2)
  /-- FMAC_NP (R397): FMAC.NP computes −(RS1 × RS2) + RS3 with one rounding. -/
  | fmacNp (c : Nat) (rd : BitVec 5) (rs1 : BitVec 5) (rs2 : BitVec 5) (rs3 : BitVec 5) (p : Bool) (f4hi : BitVec 2)
  /-- FMAC_NPA (R397): FMAC.NPA computes −(RS1 × RS2) − RS3 with one rounding. -/
  | fmacNpa (c : Nat) (rd : BitVec 5) (rs1 : BitVec 5) (rs2 : BitVec 5) (rs3 : BitVec 5) (p : Bool) (f4hi : BitVec 2)
  /-- CUSTOM (R401): A custom instruction runs its slot's µop sequence on working copies and commits them in one step. -/
  | custom (c : Nat) (rd : BitVec 5) (f4 : BitVec 4) (rs1 : BitVec 5) (rs2 : BitVec 5) (slot : BitVec 6)
  /-- INTERRUPT_TAKE (R410): A pending enabled interrupt is taken at an instruction boundary at K or M. -/
  | interruptTake (core : Nat)
  /-- CYCMP_MATCH (R411): CYCLES reaches sr.CYCMP and the CYCMP interrupt becomes pending. -/
  | cycmpMatch (core : Nat)
  /-- DRV_ABI_WRITE (R425): A write of DRV_ABI.VERSION runs the ABI handshake and sets HS_OK. -/
  | drvAbiWrite (vi : Option Nat) (version : Nat)
  /-- HOST_BEAT_WRITE (R427): A write to HOST_BEAT refreshes the beat. -/
  | hostBeatWrite (vi : Option Nat) (count : Nat)
  /-- BEAT_LAPSE (R427): A beat not refreshed for BEAT_TO × 65,536 CTL cycles lapses, orphaning the VI or stopping host-resident P0 fetches. -/
  | beatLapse (vi : Option Nat)
  /-- VI_MASTER_CLEAR (R70): A clear of a VI's emulated master-enable stops the VI under R70. -/
  | viMasterClear (vi : Nat)
  /-- VI_MASTER_SET (R71): A set of a VI's emulated master-enable re-enables the VI and writes held completion entries. -/
  | viMasterSet (vi : Nat)
  /-- VI_FLR (R70): A write of the emulated function reset stops the VI and discards its host-resident completion entries. -/
  | viFlr (vi : Nat)
  /-- RING_CMD (R424): A write to an emulated page's RING_CMD is checked against the VI and issued through RNG.CMD. -/
  | ringCmd (vi : Nat) (op : Nat) (ring : Nat)
  /-- ATT_REPORT_REQUEST (R370): A write of ATT_CMD.REQ asks for an attestation report for the VI's partition. -/
  | attReportRequest (vi : Nat)
  /-- EMULATED_ACCESS_TIMEOUT (R424): An emulated-page access unanswered for 40,000 CTL cycles is answered by the hardware responder. -/
  | emulatedAccessTimeout (vi : Nat) (write : Bool)
  /-- UPDATE (R428): The FWI command UPDATE starts a live update of RUNTIME and MONITOR. -/
  | update
  /-- UPDATE_PHASE_END (R428): A live-update phase ends and the next begins, or the update ends with OK, INTEGRITY or VERSION. -/
  | updatePhaseEnd (ev : UpdEvent)
  /-- UPDATE_PAUSE_TIMEOUT (R428): A pause of 4,000,000 CTL cycles without a ready signal restarts the old images and ends UPDATE with TIMEOUT. -/
  | updatePauseTimeout
  /-- VI_EXPORT (R432): The FWI command VI_EXPORT writes a QUIESCED VI's ring, vector and beat state as one image. -/
  | viExport (vi : Nat)
  /-- VI_IMPORT (R432): The FWI command VI_IMPORT applies an exported image to a BOUND VI. -/
  | viImport (vi : Nat)
  /-- DPT_SET (R430): The FWI command DPT_SET names a partition's device page table root. -/
  | dptSet (part : Nat)
  /-- MAP (R430): The FWI command MAP makes a device virtual page present. -/
  | map (part : Nat)
  /-- UNMAP (R432): The FWI command UNMAP makes a device virtual page absent. -/
  | unmap (part : Nat)
  /-- INVALIDATE (R430): The FWI command INVALIDATE marks a device virtual page invalid. -/
  | invalidate (part : Nat)
  /-- SET_BEAT (R432): The FWI command SET_BEAT sets BEAT_TO of a VI or the operator page. -/
  | setBeat (opr : Bool) (vi : Nat)
  /-- CTL_WATCHDOG_EXPIRE (R429): A control core's watchdog expires and the core crashes. -/
  | ctlWatchdogExpire (core : Nat)
  /-- TCM_UNCORRECTABLE (R429): A control core's tightly coupled memory reports an uncorrectable error and the core crashes. -/
  | tcmUncorrectable (core : Nat)
  /-- RING_GROUP_MOVE (R429): A crashed core's ring groups move to other control cores, which replay their journals. -/
  | ringGroupMove (group : Nat) (dst : Nat)
  /-- CORE_RESTART (R429): A crashed control core restarts from the restart copy, or is marked out on a second crash. -/
  | coreRestart (core : Nat)
  /-- REFIN_LOSS (R448): A detector declares REFIN absent; host-side PLLs stop, balls go safe and the host side is powered down. -/
  | refinLoss (side : Side)
  /-- REFIN_RESTORE (R449): REFIN is declared present again; AON and FLD restart and the host side is restarted. -/
  | refinRestore (side : Side)
  /-- PLL_LOCK (R436): A starting PLL locks and begins its stability windows. -/
  | pllLock (pll : Nat)
  /-- PLL_WINDOW (R436): A PLL stability window of 4,096 REFIN cycles ends and is judged, making the PLL STABLE or FAILED, or raising a fault. -/
  | pllWindow (pll : Nat) (count : Nat)
  /-- PLL_LOCK_LOST (R437): A PLL loses lock, stops its output and enters FAILED. -/
  | pllLockLost (pll : Nat)
  /-- PLL_IDLE_STOP (R438): An AUTO PLL whose consumers have been closed for IDLE AON cycles stops. -/
  | pllIdleStop (pll : Nat)
  /-- CORE_SWITCH_DONE (R440): A CORE mux finishes switching to its new source and BUSY clears. -/
  | coreSwitchDone (die : Nat)
  /-- SWITCH_FORCE (R440): No falling edge of the old source in 64 cycles forces the switch and sets FORCED. -/
  | switchForce (die : Nat)
  /-- GATE_IDLE_CLOSE (R443): An AUTO cluster idle for IDLE × 16 cycles closes its gate. -/
  | gateIdleClose (cluster : Nat)
  /-- CLUSTER_WAKE (R447): A closed cluster finishes waking after its latency and serves the waiting work. -/
  | clusterWake (cluster : Nat)
  /-- HOLD (R444): The CLK command HOLD closes a cluster with no busy unit and keeps it closed. -/
  | hold (cluster : Nat)
  /-- CLK_RELEASE (R444): The CLK command RELEASE returns a held cluster to its MODE. -/
  | clkRelease (cluster : Nat)
  /-- MULT_SLEW (R460): Every 8 REFIN cycles a PLL slews its running MULT by 1 toward its target. -/
  | multSlew (die : Nat)
  /-- RAIL_SETTLED (R460): A raised CORE rail settles and the PLL may move into the higher bin. -/
  | railSettled (die : Nat)
  /-- CONTROL_PERIOD (R456): A control period ends; the controller measures power, sets the cap and applies or undoes throttle steps. -/
  | controlPeriod (power : Nat) (vin : Nat) (iin : Nat) (temps : List Int)
  /-- VIN_TRIP (R455): VIN40 stays below 35 V or above 46 V for 1 µs, and the host side loses power. -/
  | vinTrip (ovr : Bool)
  /-- HOST_RESTART (R455): After VIN40 has been in range and HSEN high for 10 ms, Weir restarts the host side. -/
  | hostRestart
  /-- CURRENT_LIMIT (R459): The input current reaches 30 A and the hard throttle engages. -/
  | currentLimit
  /-- THERMAL_TRIP (R462): A sensor reaches its trip value and the hard throttle engages. -/
  | thermalTrip (sensor : Nat)
  /-- THERMAL_TRIP_CLEAR (R462): A tripped sensor reads 10 °C below its trip value and the hard throttle ends. -/
  | thermalTripClear (sensor : Nat)
  /-- RETENTION_ENTER (R463): A cluster closed for RET_IDLE AON cycles enters retention. -/
  | retentionEnter (cluster : Nat)
  /-- RETENTION_WAKE (R463): A retained cluster's rails return after 400 FLD cycles. -/
  | retentionWake (cluster : Nat)
  /-- WEAR_CHARGE (R464): A core die enters bin 3 after its last charged hour, Weir charges an hour and writes the wear record, withdrawing bin 3 at 8,760 hours. -/
  | wearCharge (die : Nat)
  /-- WEAR_RECORD_WRITTEN (R464): The wear record is written to flash and bin 3 is granted. -/
  | wearRecordWritten
  /-- WEAR_BUCKET_ADVANCE (R464): After 730 powered hours a new wear bucket starts and the oldest is cleared. -/
  | wearBucketAdvance
  /-- HSEN_LOW (R493): HSEN goes low while the host side is powered, and the GaN stage is disabled. -/
  | hsenLow
  /-- ERROR_LATCH (R466): A sub-block's error pin fires, sets its ELW bit and queues a raise. -/
  | errorLatch (pg : Page) (unit : Nat) (bit : Nat) (part : Option Nat) (lasting : Bool)
  /-- RAISE (R470): Weir takes a RAISE, looks up its severity, logs it and reacts. -/
  | raise (msg : RaiseMsg)
  /-- CLEAR (R482): A CLEAR message reports an ELW after a W1C write. -/
  | clear (src : Nat) (unit : Nat) (elw : BitVec 64)
  /-- CONTAIN_PART (R475): The host side takes CONTAIN_PART and stops fetching and receiving for the partition. -/
  | containPart (part : Nat) (src : Nat)
  /-- UNCONTAIN_PART (R475): The host side takes UNCONTAIN_PART and ends a partition's containment. -/
  | uncontainPart (part : Nat)
  /-- CONTAIN_PLANE (R476): The host side takes CONTAIN_PLANE and contains the data, control or management plane. -/
  | containPlane (plane : Nat) (src : Nat)
  /-- UNCONTAIN_PLANE (R476): UNCONTAIN_PLANE ends a plane's containment and held work runs. -/
  | uncontainPlane (plane : Nat)
  /-- SAFE_ENTER (R477): The host side takes SAFE_ENTER and enters the safe state. -/
  | safeEnter (src : Nat)
  /-- SAFE_EXIT (R478): The SAFE_EXIT message reports the end of a safe-state exit. -/
  | safeExit (recoveries : Nat)
  /-- COLLECTOR_FAULT (R479): An ELW parity error sends COLLECTOR_FAULT and the host side enters the safe state at once. -/
  | collectorFault (pg : Page) (unit : Nat) (elw : BitVec 64)
  /-- REACT_DONE (R482): A REACT_DONE message confirms a reaction applied on the host side. -/
  | reactDone (typ : Nat) (seq : Nat)
  /-- QUIET_PERIOD_END (R478): The safe state's quiet period ends and the device powers down, restarts and scrubs the host side. -/
  | quietPeriodEnd
  /-- HEARTBEAT_TIMEOUT (R480): No HEARTBEAT for 2,621,440 NOC cycles makes the host side enter the safe state. -/
  | heartbeatTimeout
  /-- FIELD_WATCHDOG_EXPIRE (R480): The field watchdog expires, stops ALIVE, sends SAFE_ENTER and restarts Weir. -/
  | fieldWatchdogExpire
  /-- TABLE_SWEEP (R479): Every 65,536 FLD cycles the severity table is swept for parity. -/
  | tableSweep (parityBad : Bool)
  /-- ALIVE_TOGGLE (R481): Every 100,000 FLD cycles ALIVE changes level while its conditions hold. -/
  | aliveToggle
  /-- SEV_WRITE (R470): A write of a severity table word stores it with floors, or is refused for codes 5–7, after any running reaction. -/
  | sevWrite (k : Nat) (width : Nat) (half : Nat) (val : BitVec 64)
  /-- FLT_UNCONTAIN_PART (R485): The FLT command UNCONTAIN_PART ends a partition's containment. -/
  | fltUncontainPart (part : Nat)
  /-- FLT_UNCONTAIN_PLANE (R485): The FLT command UNCONTAIN_PLANE ends a plane's containment. -/
  | fltUncontainPlane
  /-- EXIT (R485): The FLT command EXIT starts the safe-state exit sequence at once. -/
  | exit
  /-- SRC_READ (R485): The FLT command SRC_READ returns a source's lasting and transient raise counts. -/
  | srcRead
  /-- FIELD_SUPPLY_LOSS (R455): VIN40 falls below the 24 V at which the field-side converter runs, and the whole device, field side included, loses power. -/
  | fieldSupplyLoss
  /-- BUS_MASTER_ENABLE_SET (R72): A configuration write sets PF0 Bus Master Enable, so P0 host requests resume and R160 stops refusing MODE 2 accesses. -/
  | busMasterEnableSet (cfg : PfCfg) (aerClear : List Nat)
  /-- HOST_LINK_DL_ACTIVE (R75): The host link finishes training and reaches DL_Active, and HLK.LINK_STAT.UP becomes 1. -/
  | hostLinkDlActive (speed : Nat) (width : Nat) (flit : Bool) (tagMode : Nat)
  /-- NO_RECEIVER_IN_DETECT (R83): A TRAINING downstream port finds no receiver in Detect and returns to EMPTY. -/
  | noReceiverInDetect (port : Nat)
  /-- COUNTER_WRAP (R418): A page counter or core PMC wraps from 0xFFFF_FFFF_FFFF to 0, sets OVF, and raises INT_STAT.CTR_OVF or the PMU interrupt where OVF_INT is 1. -/
  | counterWrap (pg : Page) (ctr : Nat)
  /-- HARVEST_DONE (R55): A HARVEST that has been paced under VIF.CFG.HARVEST_RATE copies its last bitmap word and ends, with CMD_DONE, SEQ and any sync addition. -/
  | harvestDone (vi : Nat)
  deriving DecidableEq, Repr

end Sys2Proof
end

