-- ==== Sys2Proof/Decode.lean ====
section
/-! DEFINITION. Decoding of command words. The opcode table gives no row any bits: the device takes commands as accesses,
packets, descriptors and events, so a bare word spells no command. -/

namespace Sys2Proof

/-- The command that a word of nbits bits spells by the opcode table's bits: none, since no row of the table gives bits. -/
def decodeTableWord (_nbits _w : Nat) : Option Instr := none

end Sys2Proof
end

