-- ==== Sys2Proof/Machine/State.lean ====
section
/-! DEFINITION. The state of the VT9: every register, context, table, queue, buffer, mode and pin that the spec gives the
device, as plain data; the fault and refusal reasons; and the state right after device reset. Register pages are one
sparse table of 64-bit registers (01 to 24, "Registers"); what the spec keeps outside the pages is held in the structures
below, one group per chapter. -/

namespace Sys2Proof.Machine

/-! ## Time (R3 to R5) -/

/-- Cycles of each named clock since device reset (00_scope.md, "Durations and clocks"). ENG and CORE are clocks of each core die:
raw counts the cycles of their sources, and the other the cycles that their clusters run under the duty of R458 and the hard
throttle of R459 (R4). -/
structure Clocks where
  refin : Nat
  aon : Nat
  fld : Nat
  ctl : Nat
  noc : Nat
  pkt : Nat
  engRaw0 : Nat
  engRaw1 : Nat
  eng0 : Nat
  eng1 : Nat
  coreRaw0 : Nat
  coreRaw1 : Nat
  core0 : Nat
  core1 : Nat
  deriving DecidableEq, Repr

/-! ## What leaves the device -/

/-- What the device puts on a bus, a link or a ball: the record of its outputs, oldest first. It is the model's own field
(the spec gives the outputs, not a record of them); nothing the device does reads it. -/
inductive Out where
  | hostWrite (vi : Option Nat) (addr : Nat) (data : List Byte)
  | hostRead (port tag : Nat) (vi : Option Nat) (addr len : Nat)
  | msix (vector addr data : Nat)
  | partnerWrite (port addr : Nat) (data : List Byte)
  | partnerAccess (port : Nat) (write : Bool) (addr len : Nat) (data : List Byte)
  | readReply (port : Option Nat) (off : Nat) (val : Word)
  | readReplyBytes (port : Nat) (addr : Nat) (data : List Byte)
  | unsupported (port : Option Nat) (off len : Nat)
  | invalidationCompletion (itag : Nat)
  | translationRequest (vi : Option Nat) (addr : Nat)
  | pageRequest (prg : Nat) (vi : Option Nat) (addr : Nat)
  | pmeMessage
  | ltrMessage (micros : Nat)
  | cfgRead (port : Nat)
  | millrace (typ : Nat) (pkt : MlrPacket) (sport dport dscp : Nat) (ecn : Bool)
  | frame (ept : Nat) (data : List Byte)
  | pfc (ept cls quanta : Nat)
  | barrier (sender : Side) (typ seq : Nat) (payload : List Nat)
  | tcp (src dst : BitVec 128) (sport dport : Nat) (syn ack fin rst : Bool) (seq ackNo : BitVec 32) (mss : Nat)
      (payload : List Byte)
  | drive (did drive : Nat) (opc : Nat) (bnsid lba blocks : Nat) (fua : Bool) (data : List Byte)
  | fieldReply (ok : Bool) (data : List Word)
  deriving DecidableEq, Repr

/-! ## Partitions and ownership (03_partitions.md) -/

/-- The states of a partition (R48). -/
inductive PartState where
  | free | building | active | draining | scrubbing
  deriving DecidableEq, Repr

/-- The addresses, connection range and backing table that MLR SET_PART gives a partition (R140). -/
structure MlrPart where
  ip6 : BitVec 128
  v4En : Bool
  ip4 : BitVec 32
  base : Nat
  first : Nat
  count : Nat
  deriving DecidableEq, Repr

/-- The NVMe/TCP listener of a partition: subsystem name, leaf and host list (LISTEN, R339). -/
structure Listener where
  subNqn : List Byte
  leaf : Nat
  hosts : List (List Byte × BitVec 128)
  deriving DecidableEq, Repr

/-- One partition: its state, the settings that other blocks' commands made for it (R48, R50, R140, R173, R255, R300, R351,
R430), and the sync object that a RELEASE in progress adds to. -/
structure Part where
  state : PartState
  ways : BitVec 32
  pevt : Option Nat
  mlr : Option MlrPart
  rmaTable : Option (Nat × Nat)
  kvs : Option (Nat × Nat × Nat)
  stage : List Nat
  wrapDomain : Word
  dptRoot : Option Nat
  listener : Option Listener
  relSync : Option Nat
  deriving DecidableEq, Repr

/-- Who holds an identifier of an assignable resource type (R42, R48, R51): nobody, a partition, the scrubber (with the
partition that gave it up), or, for an HBM granule, the wait for its first scrub after reset. -/
inductive Own where
  | free
  | owned (p : Nat)
  | scrubbing (giver : Nat)
  | awaiting
  deriving DecidableEq, Repr

/-- An operation taken under a partition that is not complete (R46): a descriptor, a packet placed or served for a connection, an
attention request, a checkpoint step, a storage command. -/
inductive OldOp where
  | desc (ring idx : Nat)
  | packet (conn : Nat) (psn : BitVec 32)
  | request (id : Nat)
  | step (sid : Nat)
  | cmd (order : Nat)
  deriving DecidableEq, Repr

/-- A scrub that is due or running (R51): the resource, the partition it came from, whether it has started, whether the granule is
read back (PRT.CFG.SCRUB_VERIFY as it stood at the start), and the operations taken under the old owner that it waits for (R46). -/
structure Scrub where
  ty : Nat
  id : Nat
  giver : Option Nat
  started : Bool
  verify : Bool
  after : List OldOp
  deriving DecidableEq, Repr

/-- The states of a virtual interface (R52). -/
inductive ViState where
  | unbound | bound | enabled | resetting | quiesced | orphaned
  deriving DecidableEq, Repr

/-- One virtual interface (R52 to R55, R70, R424, R427): state, PASID, dirty-page log, the emulated master-enable, the
beat timer, the messages its masked vectors hold, and the writes that wait for firmware (R424, R428). -/
structure Vi where
  state : ViState
  pasid : Nat
  logBase : Nat
  logSize : Nat
  logOvf : Bool
  masterEn : Bool
  beatTo : Nat
  beatAt : Nat
  heldVec : List Nat
  heldWrites : List (Nat × Word)
  reportBusy : Bool
  deriving DecidableEq, Repr

/-- A HARVEST in progress under HARVEST_RATE (R55): the VI, the host address and the next bitmap word. -/
structure Harvest where
  vi : Nat
  host : Nat
  next : Nat
  syncEn : Bool
  sync : Nat
  deriving DecidableEq, Repr

/-! ## Rings (06_rings_and_sync.md) -/

/-- The states of a ring (R106). -/
inductive RingState where
  | disabled | enabled | draining | stopped
  deriving DecidableEq, Repr

/-- The types of a ring (RNG.CTX1.TYPE). -/
inductive RingType where
  | submission | completion | event
  deriving DecidableEq, Repr

/-- A descriptor fetched and not started (R98 to R101): its index, its 64 bytes, the status a check at fetch gave it, and
its wait: when it reached the head, and whether the wait has been released. -/
structure Desc where
  idx : Nat
  words : List Word
  bad : Option Status
  headAt : Option Nat
  released : Bool
  gen : Nat
  deriving DecidableEq, Repr

/-- A completion entry with its signal, held or about to be written (R102, R103, R110). -/
structure Cpl where
  ring : Nat
  idx : Nat
  tag : Nat
  engine : Nat
  status : Status
  detail : BitVec 32
  r0 : Word
  r1 : Word
  suppress : Bool
  signal : Option Nat
  part : Nat
  deriving DecidableEq, Repr

/-- One ring: its context (CTX0 to CTX2), indices, state and queues (R105 to R113). -/
structure Ring where
  setUp : Bool
  state : RingState
  hbm : Bool
  base : Nat
  logSize : Nat
  type : RingType
  viEn : Bool
  vi : Nat
  dbSlot : Nat
  cplRing : Nat
  waitTo : Nat
  irqEn : Bool
  vector : Nat
  prod : Nat
  cons : Nat
  fetched : List Desc
  stopping : Option Status
  held : List Cpl
  dropped : Nat
  deriving DecidableEq, Repr

/-- How far a started descriptor has come. -/
inductive Phase where
  | ready | fetching | running | done
  deriving DecidableEq, Repr

/-- The states of a key context (R341). -/
inductive KeyState where
  | empty | ready | exhausted
  deriving DecidableEq, Repr

/-- A message in progress on a key context (R341, R346, R352): its nonce counter and salt, the bytes of its associated data,
the payload bytes processed so far, and the authentication accumulator. -/
structure Msg where
  nonce : Word
  salt : BitVec 32
  aadLen : Nat
  done : Nat
  acc : Nat
  deriving DecidableEq, Repr

/-- A key context (R341). -/
structure Key where
  state : KeyState
  alg : Nat
  use : Nat
  key : List Byte
  salt : BitVec 32
  counter : Nat
  limit : Nat
  lowSent : Bool
  msg : Option Msg
  deriving DecidableEq, Repr

/-- What an engine keeps for a descriptor in progress. -/
inductive EngCtx where
  | none
  /-- WRITE, SPATE_SEND (R145, R171): packets built so far, the first packet that must not be sent, and the failures. -/
  | send (next : Nat) (stopAt : Option Nat) (fails : List (Nat × Status))
  /-- READ (R166): the PSN of its latest READ_REQ once sent, where that request starts in the descriptor, the byte ranges
  placed, and, after PAGE_NOT_READY, when RD_WAIT ends and where the next request starts. -/
  | read (reqPsn : Option (BitVec 32)) (pos : Nat) (placed : List (Nat × Nat)) (resume : Option (Nat × Nat))
  /-- PROBE (R148): the path probed, the PKT cycle of the send, and RTO_MAX as it stood then. -/
  | probe (path : Nat) (ts : Nat) (limit : Nat)
  /-- INGEST (R257): the NUM.CFG recorded, the slots it allocated, and its element counts. -/
  | ingest (numCfg : Word) (alloc : List Nat) (sat flushed nan : Nat)
  /-- CONTRIBUTE (R248): elements added so far. -/
  | contribute (added : Nat)
  /-- RESTORE (R308): sources whose reads failed; the remote read in progress (source, container offset, length), the PSN of
  its latest READ_REQ, where that request starts in the range, and its wait as for READ. -/
  | restore (fails : List (Nat × Status)) (rd : Option (Nat × Nat × Nat)) (reqPsn : Option (BitVec 32)) (pos : Nat)
      (resume : Option (Nat × Nat))
  /-- SEAL, OPEN, XTS (R345, R346): the algorithm and key taken at the start, and the message with its nonce. -/
  | cipher (alg : Nat) (key : List Byte) (msg : Msg)
  deriving DecidableEq, Repr

/-- A started descriptor (R100, R102): its words, its phase, the host data read for it, and its result once done. -/
structure Work where
  ring : Nat
  idx : Nat
  part : Nat
  words : List Word
  phase : Phase
  buf : Tab Byte
  want : Nat
  ctx : EngCtx
  status : Status
  detail : BitVec 32
  r0 : Word
  r1 : Word
  noSignal : Bool
  startPkt : Nat
  gen : Nat
  rgen : Nat
  cpl : Nat
  vi : Option Nat
  deriving DecidableEq, Repr

/-! ## Host link and downstream ports (04_host_link.md, 05_downstream_links.md) -/

/-- What a device read is for; gone once a DISABLE has ended the fetch that it was for (R106). -/
inductive ReadUse where
  | desc (ring idx : Nat)
  | operand (ring idx off : Nat)
  | nvme (q cid : Nat)
  | serve (conn : Nat) (psn : BitVec 32) (off : Nat)
  | gone
  deriving DecidableEq, Repr

/-- An outstanding read (R59, R66): the port (0 the host link, n + 1 downstream port n), its tag, its VI, its use and
extent, the NOC cycle of its issue, and the bytes that have arrived so far (R66, R67). -/
structure HostRead where
  port : Nat
  tag : Nat
  vi : Option Nat
  part : Nat
  use : ReadUse
  addr : Nat
  len : Nat
  at_ : Nat
  got : List Byte
  deriving DecidableEq, Repr

/-- A quarantined tag (R67, R68). -/
structure Quar where
  port : Nat
  tag : Nat
  timedOut : Bool
  at_ : Nat
  deriving DecidableEq, Repr

/-- A PRI page request not yet answered (R61, R161), of a VI or P0, and the reads that wait for its page. -/
structure PageReq where
  prg : Nat
  vi : Option Nat
  page : Nat
  waiters : List ReadUse
  deriving DecidableEq, Repr

/-- An ATS invalidation being carried out (R62): the reads under the named translations that have not ended, and the validated
writes (connection, PSN) that have not been issued. -/
structure Inval where
  itag : Nat
  tags : List Nat
  writes : List (Nat × BitVec 32)
  at_ : Nat
  deriving DecidableEq, Repr

/-- A cached address translation (R58, R62): PASID (none for P0), page number. -/
structure AtcEntry where
  pasid : Option Nat
  page : Nat
  deriving DecidableEq, Repr

/-- The host link outside its page (R58 to R80): PF0's identifiers and configuration, AER causes, PRI and ATS state, balls PERST_N
and WAKE_N, held interrupts of PF0 and of VIs (number and vector), MSI-X pending bits, tag rotation, and whether the link is in
L1.2. -/
structure Hlk where
  vendor : BitVec 16
  device : BitVec 16
  cfg : PfCfg
  pba : List Nat
  heldVecs : List (Nat × Nat)
  l12 : Bool
  bme : Bool
  pmeEn : Bool
  priEn : Bool
  respFail : Bool
  aer : List Nat
  perst : Bool
  wakeN : Bool
  d3cold : Bool
  nextTag : Nat
  heldIrq : List Nat
  atc : List AtcEntry
  invals : List Inval
  pageReqs : List PageReq
  nextPrg : Nat
  vecMap : Tab Nat
  deriving DecidableEq, Repr

/-- The states of a downstream port (R83). -/
inductive DState where
  | off | empty | reset | training | enumerating | ready | frozen | held
  deriving DecidableEq, Repr

/-- What enumeration gives a function (R86): its bus, the secondary bus of a bridge (0 for none), and the address of each of its
BARs, none for one that does not fit. -/
structure FuncSite where
  bus : Nat
  dev : Nat
  fn : Nat
  secondary : Nat
  bars : List (Option Nat)
  deriving DecidableEq, Repr

/-- One downstream root port (R83 to R96); inq holds the inbound requests that wait at its entry (R38, R476). -/
structure DPort where
  state : DState
  since : Nat
  perstHighAt : Nat
  dlActiveAt : Nat
  trainFails : Nat
  enumStarted : Bool
  enumOk : Bool
  funcs : List CfgFunc
  enabled : List CfgFunc
  result : Nat
  goingDown : Bool
  thenOff : Bool
  aer : List Nat
  up : Bool
  flit : Bool
  tagMode : Nat
  speed : Nat
  width : Nat
  nextTag : Nat
  inq : List (Bool × Nat × Nat × List Byte)
  sites : List FuncSite
  slots : Tab (List (Nat × Nat))
  maxPayload : Nat
  deriving DecidableEq, Repr

/-! ## Millrace and remote memory (07_millrace_transport.md, 08_remote_memory.md) -/

/-- The states of a connection (R128). -/
inductive ConnState where
  | closed | active | error | closing
  deriving DecidableEq, Repr

/-- Who built a data packet: a descriptor (with the packet's index in it), the service of a READ_REQ, an emission of a
reduction group, or an attention response. -/
inductive PktOwner where
  | work (ring idx i : Nat)
  | serve (reqPsn : BitVec 32)
  | emit (key entry seg : Nat)
  | response (req : Nat)
  | step (sid shard : Nat)
  deriving DecidableEq, Repr

/-- A data packet sent and not yet acknowledged (R132 to R135): what it carries, how often it was retransmitted, its place in
the order of transmissions, its last path, whether it is declared lost, and the PKT cycles at which its timers end. -/
structure TxPkt where
  psn : BitVec 32
  typ : Nat
  ext : List Byte
  payload : List Byte
  owner : PktOwner
  order : Nat
  path : Nat
  tries : Nat
  lost : Bool
  rtoAt : Nat
  reorderAt : Nat
  nakAt : Option Nat
  deriving DecidableEq, Repr

/-- A data packet that an engine has built and that waits for the window and CWND (R132). -/
structure TxItem where
  typ : Nat
  ext : List Byte
  payload : List Byte
  owner : PktOwner
  deriving DecidableEq, Repr

/-- A received data packet that is validated and still being acted on (R130, R153, R157, R168): in flight until it is
placed, served or refused. Its bytes go to host memory for a VI, or to HBM, in the given pieces. gen is the generation of the page's set
under which it arrived (R38). -/
structure RxPkt where
  psn : BitVec 32
  typ : Nat
  pkt : MlrPacket
  key : Nat
  host : Option Nat
  segs : List (Nat × Nat)
  gen : Nat
  deriving DecidableEq, Repr

/-- A READ_REQ validated (R165): the request's PSN, region key, offset, length, bytes sent, and host bytes read for it. -/
structure Serve where
  psn : BitVec 32
  key : Nat
  off : Nat
  len : Nat
  sent : Nat
  started : Bool
  buf : Tab Byte
  deriving DecidableEq, Repr

/-- One connection context (R127 to R139, R149, R155, R161). -/
structure Conn where
  state : ConnState
  part : Nat
  peerConn : Nat
  window : Nat
  v4 : Bool
  pathsM1 : Nat
  sportSeed : Nat
  mtu : Nat
  ecnEn : Bool
  dscp : Nat
  leaf : Nat
  txKey : Nat
  rxKey : Nat
  peer : BitVec 128
  cause : Nat
  txNext : BitVec 32
  txUna : BitVec 32
  rxNext : BitVec 32
  cwnd : Nat
  credit : Nat
  lastCut : Option Nat
  lastPath : Nat
  pathHeld : Tab Nat
  tx : List TxPkt
  outq : List TxItem
  sendOrder : Nat
  ackedOrder : Nat
  rxBits : List (BitVec 32)
  rxPkts : List RxPkt
  serves : List Serve
  ackCount : Nat
  ackDue : Option Nat
  sackSent : Bool
  ecePaths : List Nat
  eceSent : Tab Nat
  attached : Bool
  stalls : List (Nat × BitVec 32 × Nat)
  authFails : Nat
  authAt : Option Nat
  refusals : Nat
  refuseAt : Option Nat
  xrdRefusals : Nat
  xrdRefuseAt : Option Nat
  deriving DecidableEq, Repr

/-- Why a packet lies in the miss holding buffer (R142, R153, R158, R161, R240). -/
inductive HoldWhy where
  | context | region | stall | window
  deriving DecidableEq, Repr

/-- A packet in the miss holding buffer (R142), with the generation of the page's set under which it arrived (R38). -/
structure HeldPkt where
  hid : Nat
  conn : Nat
  why : HoldWhy
  typ : Nat
  pkt : MlrPacket
  at_ : Nat
  gen : Nat
  deriving DecidableEq, Repr

/-- A spate channel (R144); what limits its events outlives its closing (R149, R155). -/
structure Spate where
  isOpen : Bool
  part : Nat
  rxKey : Nat
  sync : Nat
  authFails : Nat
  authAt : Option Nat
  refusals : Nat
  refuseAt : Option Nat
  deriving DecidableEq, Repr

/-- An open entry of the fault table (R161, R162): the partition or VI, the page, when it was opened, whether it has passed
PNR_LIMIT, and whether an access has been refused for that. -/
structure FaultEntry where
  id : Nat
  mode : Nat
  part : Nat
  vi : Nat
  page : Nat
  at_ : Nat
  limited : Bool
  told : Bool
  deriving DecidableEq, Repr

/-- The Millrace and remote memory blocks outside their pages; missWait holds the connections whose fetch waits for a context that
is not pinned (R141); gated holds the packets that wait at the entry of the held
cluster 20 (R444); rxGen is the generation of the page's set under which the packet in hand started, where that is not the live one
(R38). -/
structure Mlr where
  conns : Tab Conn
  resident : List Nat
  fetching : List Nat
  missWait : List Nat
  writingBack : List Nat
  held : List HeldPkt
  nextHid : Nat
  heldHwm : Nat
  spates : Tab Spate
  regionCache : List Nat
  regionFetch : List Nat
  faults : List FaultEntry
  faultHwm : Nat
  nextFault : Nat
  gated : List (Nat × MlrPacket)
  rxGen : Option Nat
  deriving DecidableEq, Repr

/-! ## Ethernet ports, packet pipeline, Sluice (09_packet_pipeline.md, 10_sluice_scheduler.md) -/

/-- One Ethernet port outside its page (R174 to R179, R211). -/
structure EptPort where
  up : Bool
  ingress : Tab Nat
  pausing : List Nat
  pauseAt : Tab Nat
  paused : Tab Nat
  stampBase : Nat
  deriving DecidableEq, Repr

/-- A frame in the pipelines (R180 to R199). -/
structure Frame where
  ept : Nat
  cls : Nat
  data : List Byte
  stamp : Nat
  hash : Nat
  version : Option Nat
  pass : Nat
  node : Nat
  gen : Nat
  deriving DecidableEq, Repr

/-- The states of a rule-set slot (R194). -/
inductive SlotState where
  | free | building | current | draining
  deriving DecidableEq, Repr

/-- A rule-set version: parse graph, profiles, START and ODD_PROFILE (R182, R187, R194, R200). -/
structure Graph where
  nodes : List (List Word)
  edges : List (BitVec 32)
  profiles : List (List Word)
  start : Nat
  odd : Nat
  deriving DecidableEq, Repr

/-- One of the eight rule-set slots (R194 to R196). -/
structure RuleSlot where
  state : SlotState
  version : Nat
  refs : Nat
  graph : Graph
  deriving DecidableEq, Repr

/-- A receive target context (R192). -/
structure RxTarget where
  bufBase : Nat
  bufLog : Nat
  hbm : Bool
  ring : Nat
  deriving DecidableEq, Repr

/-- The packet pipeline outside its page (R180 to R200). -/
structure Pkt where
  slots : Tab RuleSlot
  exact : Option Nat
  wild : Tab (List Word)
  targets : Tab RxTarget
  newQ : Tab (List Frame)
  recQ : Tab (List Frame)
  sweeps : Nat
  deriving DecidableEq, Repr

/-- A frame queued in a leaf (R204, R215): its length with the FCS, the PKT cycle of its admission, what leaves the port when it
is transmitted, the SPATE_SEND descriptor that it is a packet of, and the generation of the MLR page's set under which it was built
(R38). -/
structure TxFrame where
  len : Nat
  stamp : Nat
  body : Out
  desc : Option (Nat × Nat)
  gen : Nat
  deriving DecidableEq, Repr

/-- What waits at a leaf for room (R202, R204): a packet of the storage front end; an INJECT frame, by its place in HBM, or the next
packet of a connection or of a SPATE_SEND descriptor, which are not built before they fit. -/
inductive LeafWait where
  | packet (len : Nat) (body : Out)
  | inject (addr len : Nat)
  | conn (c : Nat)
  | spate (ring idx : Nat)
  deriving DecidableEq, Repr

/-- A leaf queue (R201 to R207, R215). -/
structure Leaf where
  port : Option Nat
  depthMax : Nat
  cls : Nat
  quantum : Nat
  q : List TxFrame
  waiting : List LeafWait
  depthHwm : Nat
  sojHwm : Nat
  drops : Nat
  deficit : Nat
  deriving DecidableEq, Repr

/-- A partition node under a port node (R201, R204 to R210); its floor and ceiling buckets count 1/12,800 byte, which is
what 1 Mb/s brings in one PKT cycle. At its pointer atTurn says that the child's turn has begun, and mid that a turn of the
round has. -/
structure PNode where
  floor : Nat
  ceil : Nat
  quantum : Nat
  floorBurst : Nat
  ceilBurst : Nat
  buf : Nat
  floorB : Int
  ceilB : Int
  at_ : Nat
  deficit : Nat
  active : List Nat
  ptr : Nat
  atTurn : Bool
  mid : Bool
  round : Nat
  deriving DecidableEq, Repr

/-- A port node (R201, R206); atTurn and mid as for a partition node. -/
structure PortNode where
  active : List Nat
  ptr : Nat
  atTurn : Bool
  mid : Bool
  round : Nat
  deriving DecidableEq, Repr

/-- A meter (R212 to R214): its settings, its buckets in units of 2^-16 byte, and its colour counts. -/
structure Meter where
  mode : Bool
  aware : Bool
  cir : Nat
  pir : Nat
  cbs : Nat
  pbs : Nat
  dscp : Nat
  yellow : Nat
  red : Nat
  cB : Nat
  pB : Nat
  at_ : Nat
  nYellow : Nat
  nRed : Nat
  deriving DecidableEq, Repr

/-- A PNODE_SET or LEAF_SET that waits for its round boundary (R216). -/
inductive SchChange where
  | pnode (port part : Nat) (a0 a1 a2 : Word)
  | leaf (port leaf : Nat) (a0 : Word)
  deriving DecidableEq, Repr

/-- Sluice outside its page. -/
structure Sch where
  leaves : Tab Leaf
  pnodes : Tab PNode
  ports : Tab PortNode
  meters : Tab Meter
  change : Option SchChange
  deriving DecidableEq, Repr

/-! ## Numbers and Confluence (11_number_formats.md, 12_confluence_reduction.md) -/

/-- An exact accumulator (R227): V counts units of 2^-149 and lies in 416-bit two's complement. -/
structure Xacc where
  v : Int
  pinf : Bool
  ninf : Bool
  nan : Bool
  ovf : Bool
  terms : Nat
  deriving DecidableEq, Repr

/-- What a Confluence slot holds (R236): the accumulator of a SUM, or the running extreme of MIN and MAX as the source
element's bits, once a term has been taken. -/
structure XSlot where
  acc : Xacc
  ext : Option Nat
  deriving DecidableEq, Repr

/-- The states of a reduction group (R245). -/
inductive GroupState where
  | active | emitted | failed
  deriving DecidableEq, Repr

/-- An entry of a group's emit table (R247). -/
structure Emit where
  conn : Nat
  imm : Nat
  rkey : Nat
  off : Nat
  deriving DecidableEq, Repr

/-- A segment block (R237, R243, R244): the segment, the terms counted, whether it is emitted, its local write placed, and its
packets built. -/
structure Seg where
  seg : Nat
  count : Nat
  emitted : Bool
  placed : Bool
  built : Bool
  deriving DecidableEq, Repr

/-- A reduction group context (R236 to R248). -/
structure Group where
  state : GroupState
  part : Nat
  ring : Nat
  idx : Nat
  dstAddr : Nat
  total : Nat
  segElems : Nat
  slots : Nat
  op : Nat
  srcFmt : Nat
  dstFmt : Nat
  sat : Bool
  dstEn : Bool
  dstHbm : Bool
  contrib : Nat
  emits : List Emit
  low : Nat
  segs : List Seg
  emittedN : Nat
  terms : Nat
  since : Nat
  gen : Nat
  deriving DecidableEq, Repr

/-- Confluence outside its page. -/
structure Xrd where
  groups : Tab Group
  slots : Tab XSlot
  hwm : Nat
  deriving DecidableEq, Repr

/-! ## Cellar, decode attention, Kiln (13 to 15) -/

/-- The states of a sequence (R261). -/
inductive SeqState where
  | free | active | closing
  deriving DecidableEq, Repr

/-- The shape of a sequence (R251). -/
structure Shape where
  fmt : Nat
  layers : Nat
  g : Nat
  gh : Nat
  d : Nat
  sexpK : Int
  sexpV : Int
  maxBlk : Nat
  pool : Nat
  deriving DecidableEq, Repr

/-- A sequence record (R251, R256, R261, R264): its handles and token counts lie in its extent in HBM. Each request in use
holds a number; released blocks wait for the requests below a number to end. -/
structure Seq where
  state : SeqState
  shape : Shape
  extent : Nat
  lowTok : Nat
  dropper : Option (Nat × Nat)
  users : List Nat
  deferred : List (Nat × List Nat)
  deriving DecidableEq, Repr

/-- A pool (R253, R254): slot size, granules in order, low-water mark, the allocator's rotation, reference counts, poisoned
slots, slots that POOL_ADD excluded (R267), and whether KVS_POOL_LOW may be written again. -/
structure Pool where
  slot : Nat
  grans : List Nat
  lowWater : Nat
  rot : Nat
  refs : Tab Nat
  poison : List Nat
  excluded : List Nat
  lowSent : Bool
  deriving DecidableEq, Repr

/-- Cellar outside its page; sequences are keyed by sequence key, pools by 4 × partition + pool. -/
structure Kvs where
  seqs : Tab Seq
  pools : Tab Pool
  extents : List (Nat × Nat × Nat)
  nextUse : Nat
  retired : List Nat
  retiredGran : List Nat
  deriving DecidableEq, Repr

/-- Where an attention request came from (R273, R291). -/
inductive ReqFrom where
  | attend (ring idx : Nat)
  | inbox (n k : Nat)
  deriving DecidableEq, Repr

/-- A partial of one row (R280): running maximum and sum as FP32 bits, and the D accumulators. -/
structure Partial where
  m : BitVec 32
  l : BitVec 32
  a : List (BitVec 32)
  nanRow : Bool
  deriving DecidableEq, Repr

/-- One chunk of a request (R280, R289): waiting, running on a unit, or done with its partials. -/
inductive ChunkState where
  | waiting
  | running (unit : Nat)
  | done (rows : List Partial)
  deriving DecidableEq, Repr

/-- An attention request taken and in progress (R271 to R290): its record, the counts and UNIT_LIMIT recorded, its number among
the users of its sequence, the addresses of its blocks, its chunks, and its result once known. -/
structure Req where
  id : Nat
  part : Nat
  origin : ReqFrom
  vi : Option Nat
  hdr : List Word
  body : List Byte
  tokens : Nat
  lowTok : Nat
  limit : Nat
  use : Option Nat
  blocks : List Nat
  chunks : List ChunkState
  status : Status
  detail : Nat
  nanRows : Nat
  sending : Bool
  deriving DecidableEq, Repr

/-- An inbox (R273, R275); released says that the wait for its next request has been met (R115). -/
structure Inbox where
  part : Nat
  base : Nat
  logSlots : Nat
  slotLog : Nat
  prodSync : Nat
  baseVal : Word
  taken : Nat
  released : Bool
  closer : Option (Nat × Nat)
  deriving DecidableEq, Repr

/-- The decode attention engine outside its page: by inbox number, failed responses not yet reported and the cycle of the last
report (R292); lastPart is the round robin's last partition. -/
structure Att where
  inboxes : Tab Inbox
  respFails : Tab (Nat × Option Nat)
  reqs : List Req
  nextReq : Nat
  lastPart : Nat
  deriving DecidableEq, Repr

/-- One region of an open step (R294, R296, R300, R302): its entry, its staging pages, its shard's container offset, stored length
and CRC, and how far it has come. -/
structure Region where
  entry : List Word
  pages : List Nat
  off : Nat
  stored : Nat
  crc : Word
  copied : Bool
  issued : Bool
  acked : Bool
  deriving DecidableEq, Repr

/-- An open checkpoint step (R293 to R306). -/
structure Step where
  sid : Nat
  part : Nat
  step : Word
  ring : Nat
  idx : Nat
  runId : Word
  remote : Bool
  target : Nat
  conn : Nat
  base : Nat
  size : Nat
  regions : List Region
  order : List Nat
  phase : Nat
  phaseAcked : Bool
  sat : Nat
  flushed : Nat
  nan : Nat
  numCfg : Word
  drainTo : Nat
  openedAt : Nat
  abandoned : Option Status
  commitRetry : Option Status
  deriving DecidableEq, Repr

/-- Kiln outside its page: open steps in order of opening, and staging pages in use. -/
structure Ckp where
  steps : List Step
  nextSid : Nat
  used : List Nat
  deriving DecidableEq, Repr

/-! ## Storage front end (16_storage_front_end.md) -/

/-- The states of a namespace (R321). -/
inductive NsState where
  | empty | ready | closing | failed
  deriving DecidableEq, Repr

/-- An extent of a namespace (R317). -/
structure Extent where
  drive : Nat
  bnsid : Nat
  firstMib : Nat
  mibs : Nat
  deriving DecidableEq, Repr

/-- A namespace (R317 to R321); deleting says that NS_DELETE waits for a FAILED one to fall idle. -/
structure Ns where
  state : NsState
  part : Nat
  nsid : Nat
  lba4k : Bool
  key : Nat
  extents : List Extent
  deleting : Bool
  deriving DecidableEq, Repr

/-- A cached 64 KiB page of a namespace (R320): its place in staging, which of its LBAs it holds, which are dirty, which are in a
write to a drive, and the order numbers of the oldest dirty and the written data. -/
structure CachePage where
  ns : Nat
  page : Nat
  staging : Nat
  valid : List Nat
  dirty : List Nat
  writing : List Nat
  dirtySeq : Nat
  writeSeq : Nat
  deriving DecidableEq, Repr

/-- A controller of a subsystem (R315, R325): its host, its admin connection, CC, its shutdown state, the keep-alive timer,
features, waiting Asynchronous Event Requests, notices not yet sent, and the STO.CFG recorded. -/
structure Ctrl where
  part : Nat
  hostNqn : List Byte
  admin : Nat
  cc : Nat
  shst : Nat
  kato : Nat
  kaAt : Nat
  arb : Nat
  aec : Nat
  aerWait : List Nat
  notices : Nat
  cfg : Word
  wce : Bool
  deriving DecidableEq, Repr

/-- A submission queue (R324, R326, R333): an NVMe/TCP queue of a controller, or a capsule ring; qp is its queue pair, none for
an admin queue. TCP queues are keyed by connection, capsule rings by 2^20 + ring. -/
structure SQueue where
  part : Nat
  ctrl : Option Nat
  ring : Option Nat
  qp : Option Nat
  qid : Nat
  size : Nat
  head : Nat
  wce : Bool
  closing : Bool
  deriving DecidableEq, Repr

/-- A command of a queue (R327, R330): its entry; a capsule's descriptor and data buffer; its namespace and LBA range; the cache
pages it holds; data received, by offset or by buffer address; XRDY bytes asked for; the drive commands it waits for; its
order number. -/
structure Cmd where
  q : Nat
  cid : Nat
  sqe : NvmeSqe
  desc : Option (Nat × Nat)
  addr : Nat
  len : Nat
  hbm : Bool
  vi : Option Nat
  part : Nat
  admin : Bool
  started : Bool
  ns : Nat
  slba : Nat
  nlb : Nat
  data : Tab Byte
  want : Nat
  held : Bool
  xrdy : Nat
  issued : Bool
  waits : List Nat
  failed : Option Status
  order : Nat
  deriving DecidableEq, Repr

/-- What a drive command is for: a command of a queue, a cache page, a container write of a step, a container read (base is the
container's first LBA). -/
inductive DriveUse where
  | cmd (q cid : Nat)
  | page (ns page : Nat)
  | kiln (sid shard : Nat)
  | restore (ring idx src base : Nat)
  deriving DecidableEq, Repr

/-- A command outstanding at a back-end drive (R320, R335): the namespace LBAs it moves. -/
structure DriveCmd where
  did : Nat
  drive : Nat
  write : Bool
  ns : Nat
  lba : Nat
  count : Nat
  use : DriveUse
  deriving DecidableEq, Repr

/-- A segment sent and not acknowledged, whether it was retransmitted, and whether a SACK covers it. -/
structure TcpSent where
  seq : BitVec 32
  data : List Byte
  fin : Bool
  retx : Bool
  sacked : Bool
  at_ : Nat
  deriving DecidableEq, Repr

/-- A terminated TCP connection of the storage front end (R323): addresses, receive and send sequence numbers, congestion and
retransmission state, the bytes not yet sent, and the NVMe/TCP settings of its ICReq. -/
structure Tcp where
  part : Nat
  src : BitVec 128
  dst : BitVec 128
  sport : Nat
  estab : Bool
  closing : Bool
  rcvNxt : BitVec 32
  ooo : List (BitVec 32 × Nat)
  sndUna : BitVec 32
  sndNxt : BitVec 32
  sent : List TcpSent
  sndBuf : List Byte
  cwnd : Nat
  ssthresh : Nat
  wnd : Nat
  wscale : Nat
  mss : Nat
  dupAcks : Nat
  recover : Option (BitVec 32)
  srtt : Nat
  rttvar : Nat
  rto : Nat
  sentAt : Nat
  icDone : Bool
  hdgst : Bool
  ddgst : Bool
  maxr2t : Nat
  hpda : Nat
  deriving DecidableEq, Repr

/-- The storage front end outside its page. -/
structure Sto where
  nss : Tab Ns
  ctrls : Tab Ctrl
  queues : Tab SQueue
  tcps : Tab Tcp
  cmds : List Cmd
  cache : List CachePage
  drives : List DriveCmd
  nextDid : Nat
  nextTcp : Nat
  nextOrder : Nat
  idleSince : Nat
  exiting : Bool
  errors : Tab (List Word)
  deriving DecidableEq, Repr

/-! ## Cipher, trust, start-up, barrier (17_cipher_engine.md, 18_trust_and_field_side.md) -/

/-- The cipher engine outside its page. -/
structure Cph where
  keys : Tab Key
  resident : List Nat
  fetching : List Nat
  poisoned : List Nat
  dwk : Option (List Byte)
  rngSeed : Nat
  rngServed : Nat
  deriving DecidableEq, Repr

/-- A barrier frame not yet acknowledged (R357, R359). -/
structure BFrame where
  seq : Nat
  typ : Nat
  payload : List Nat
  sentAt : Nat
  resends : Nat
  deriving DecidableEq, Repr

/-- One direction and class of the barrier (R359): frames awaiting acknowledgement or room, the sender's next SEQ, and the
SEQ the receiver expects. -/
structure BChan where
  unacked : List BFrame
  waiting : List (Nat × List Nat)
  nextSeq : Nat
  expect : Nat
  deriving DecidableEq, Repr

/-- The four channels of the barrier (R357, R359): by sender and class, fault (F) or management (M). reads holds the reads of field
pages by cores that wait for their PAGE_RD_RSP, oldest first (R31): the core that reads, and the address. -/
structure Bar where
  hostToFieldF : BChan
  hostToFieldM : BChan
  fieldToHostF : BChan
  fieldToHostM : BChan
  reads : List (Nat × Nat)
  deriving DecidableEq, Repr

/-- An accepted firmware image (R364, R365): its body, measurement and SVN. -/
structure Image where
  body : List Byte
  meas : List Byte
  svn : Nat
  deriving DecidableEq, Repr

/-- An attestation report request that Weir has queued (R370, R371). -/
structure Report where
  part : Nat
  vi : Option Nat
  nonce : List Byte
  dest : Nat
  deriving DecidableEq, Repr

/-- The field side: fuses and secrets, flash, images, start-up, debug, reports (signed: those of VIs not yet sent) and
management key (R360 to R375). -/
structure Trs where
  uds : List Byte
  udsLocked : Bool
  rootHash : List Byte
  svnFloor : List Nat
  revoke : BitVec 4
  handoffCdi : Option (List Byte)
  handoffDwk : Option (List Byte)
  handoffWear : Option (List Byte)
  handoffMkw : Option (List Byte)
  ak : Option (List Byte)
  flash : Tab Byte
  keyman : Option Image
  weir : Option Image
  runtime : Option Image
  monitor : Option Image
  incoming : Tab (List Byte)
  startup : Nat
  recovery : Bool
  triedBank : Bool
  fieldPower : Bool
  hostPower : Bool
  dieReset : Bool
  weirRuns : Bool
  linkReady : Bool
  abiVersion : Nat
  reports : List Report
  reportSeq : Nat
  signed : List (Nat × List Byte)
  attWaits : List Nat
  signedAt : List Nat
  mgmtKey : Option (List Byte)
  telemetry : Tab (List Byte)
  mbox : List (List Byte)
  mboxRsp : List (List Byte)
  pwrAnswer : Option (Nat × Bool)
  deriving DecidableEq, Repr

/-! ## Cores and firmware (19 to 21) -/

/-- The levels of a core (R406). -/
inductive Level where
  | u | k | m
  deriving DecidableEq, Repr

/-- One Zarn core (R379, R400, R403, R407): registers, pc, level, system registers by number, decode table, pending lines,
stalls, cached translations (ASID, virtual address with its level in bits [1:0], leaf), tightly coupled memory, and, for the
fixed counters, the clock cycle at which its gate closed, the cycles it missed, and the offsets that writes gave CYCLES and
SLOTS; page is a load of a field page that crosses the barrier: its address, and the value once it has come back (R31). -/
structure Core where
  g : Tab Word
  f : Tab Word
  pc : Word
  level : Level
  sys : Tab Word
  slots : Tab Word
  uops : Tab Word
  soft : Bool
  idle : Bool
  halted : Bool
  tlb : List (Nat × Nat × Word)
  crashes : Nat
  crashAt : Nat
  wdogAt : Nat
  tcm : Tab Byte
  cycOff : Word
  slotOff : Word
  page : Option (Nat × Option Word)
  deriving DecidableEq, Repr

/-- A journal entry of a ring group (R423). -/
structure JEntry where
  op : Nat
  ring : Nat
  issued : Bool
  deriving DecidableEq, Repr

/-- A ring group (R423, R429): the core that serves it and its journal. Group v is VI v; group 0x1000 is P0's pages. -/
structure RingGroup where
  core : Nat
  journal : List JEntry
  deriving DecidableEq, Repr

/-- Firmware state (R423 to R432): ring groups and those that move, crashed cores to restart, the update's phase, bank and images,
the restart copy, the operator beat, the routes of page interrupts, CONTROL of each VI page as phase 2 saved it, the ABI before the
update, and the device page table leaves given out. -/
structure Fwi where
  groups : Tab RingGroup
  moving : List Nat
  toRestart : List Nat
  phase : Nat
  bank : Nat
  newImages : Option (Image × Image)
  pauseAt : Nat
  restartCopy : Option (Image × Image)
  opBeatTo : Nat
  opBeatAt : Nat
  opLapsed : Bool
  irqRoute : Tab Nat
  saved : Tab Word
  oldAbi : Nat
  leaves : Nat
  deriving DecidableEq, Repr

/-! ## Clocks, power, faults (22 to 24) -/

/-- The states of a PLL (R436, CLK.PLL_STAT). -/
inductive PllState where
  | off | locking | testing | stable | failed
  deriving DecidableEq, Repr

/-- One PLL (R435 to R439). -/
structure Pll where
  state : PllState
  run : Nat
  windows : Nat
  fails : Nat
  count : Nat
  mult : Nat
  since : Nat
  slewAt : Nat
  deriving DecidableEq, Repr

/-- The CORE source multiplexer of one core die (R440, R441). -/
structure Mux where
  busy : Bool
  used : Bool
  deriving DecidableEq, Repr

/-- One cluster gate (R442 to R447, R463): since when it has been open or closed, in AON cycles, and, for what its cluster counts
in its own clock's cycles (R4), the cycle at which it closed and the cycles it has missed. -/
structure Gate where
  isOpen : Bool
  held : Bool
  retained : Bool
  waking : Bool
  opens : Nat
  since : Nat
  stopAt : Option Nat
  missed : Nat
  deriving DecidableEq, Repr

/-- The clock block outside its page. -/
structure Clk where
  plls : Tab Pll
  mux0 : Mux
  mux1 : Mux
  gates : Tab Gate
  refinHost : Bool
  refinField : Bool
  deriving DecidableEq, Repr

/-- The power controller and wear meter outside their page (R456 to R465). -/
structure Pwr where
  window : List Nat
  peakUsed : Nat
  over100 : Nat
  thermalCap : Option Nat
  fwCap : Option Nat
  fwMult0 : Nat
  fwMult1 : Nat
  capMult0 : Nat
  capMult1 : Nat
  duty : Nat
  hardOver : Bool
  hardSensors : List Nat
  temps : Tab Int
  hwm : Tab Int
  railBin0 : Nat
  railBin1 : Nat
  railUp0 : Bool
  railUp1 : Bool
  bin3 : Bool
  hourEnd : Nat
  charging : Option Nat
  buckets : List Nat
  wearOut : Bool
  bucketAt : Nat
  tripAt : Option Nat
  hsenAt : Option Nat
  hostOff : Bool
  vinLast : Nat
  deriving DecidableEq, Repr

/-- A raise on its way to Weir (R468, R474): from a field page when local; whether its message has been sent. -/
structure Held where
  msg : RaiseMsg
  fromField : Bool
  sent : Bool
  deriving DecidableEq, Repr

/-- The fault collector (R466 to R485): ELWs by page, unit; raises not yet sent; the log; counts; containments; the safe
state and its timers; ALIVE; whether Weir is to reload its default table after the exit (R479). -/
structure Flt where
  elws : Tab Word
  queue : List Held
  log : Tab (List Word)
  raises : Tab (Nat × Nat)
  transAt : Tab (List Nat)
  parts : List Nat
  blocks : Tab (List Nat)
  planes : List Nat
  safe : Bool
  safeAt : Nat
  exiting : Bool
  heartbeatAt : Nat
  heartbeatSent : Nat
  watchdogAt : Nat
  alive : Bool
  aliveAt : Nat
  reload : Bool
  deriving DecidableEq, Repr

/-- The balls that the state does not hold elsewhere (R488, R493). -/
structure Balls where
  dperst : BitVec 6
  pgood : Bool
  hsen : Bool
  idle : Bool
  deriving DecidableEq, Repr

/-! ## The whole device -/

/-- The state of the device, and the commands that wait to be taken, first in first out. entry holds commands at the entry of
blocks that hold their work; badLines, the 64-byte lines of HBM that hold a lasting fault (R469); prev, by page, the units of
work that a capture-model page's last swap left in progress (R38). -/
structure State where
  pending : List Instr
  clk : Clocks
  regs : Tab Word
  entry : List (Page × Word)
  prev : Tab (List Nat)
  hbm : Tab Byte
  badLines : List Nat
  out : List Out
  free : Nat
  parts : Tab Part
  owner : Tab Own
  gran : Tab Own
  scrubs : List Scrub
  vis : Tab Vi
  harvests : List Harvest
  rings : Tab Ring
  work : List Work
  sync : Tab Word
  reads : List HostRead
  quar : List Quar
  hlk : Hlk
  dports : Tab DPort
  mlr : Mlr
  epts : Tab EptPort
  pkt : Pkt
  sch : Sch
  xrd : Xrd
  kvs : Kvs
  att : Att
  ckp : Ckp
  sto : Sto
  cph : Cph
  bar : Bar
  trs : Trs
  cores : Tab Core
  fwi : Fwi
  cg : Clk
  pwr : Pwr
  flt : Flt
  balls : Balls
  deriving DecidableEq, Repr

/-! ## How a step can end -/

/-- Why the machine stops with a fault. -/
inductive Fault where
  /-- Raised by every meaning of a Zarn instruction for a core number that the device does not have (cores are numbered
  0 to 79, "Cores" in 20_cores_and_counters.md): no core could issue it. Safe: the machine stops where the device has
  nothing to go on with. -/
  | noSuchCore (core : Nat)
  deriving DecidableEq, Repr

/-- Why a command has no meaning. -/
inductive Refusal where
  /-- Raised by exec for a command of the table that the model gives no meaning yet. Safe: the machine stops where the
  device goes on. -/
  | notModelled (mnemonic : String)
  deriving DecidableEq, Repr

/-! ## Values at device reset -/

/-- A partition that owns nothing (R48). -/
def Part.free : Part :=
  { state := .free, ways := 0, pevt := none, mlr := none, rmaTable := none, kvs := none, stage := [], wrapDomain := 0,
    dptRoot := none, listener := none, relSync := none }

/-- A VI that is not bound (R52). -/
def Vi.unbound : Vi :=
  { state := .unbound, pasid := 0, logBase := 0, logSize := 0, logOvf := false, masterEn := false, beatTo := 0, beatAt := 0,
    heldVec := [], heldWrites := [], reportBusy := false }

/-- A ring context at its reset values (R42, R106): DISABLED, never set up; LOG_SIZE 4, a submission ring of P0. -/
def Ring.reset : Ring :=
  { setUp := false, state := .disabled, hbm := false, base := 0, logSize := 4, type := .submission, viEn := false, vi := 0,
    dbSlot := 0, cplRing := 0, waitTo := 0, irqEn := false, vector := 0, prod := 0, cons := 0, fetched := [],
    stopping := none, held := [], dropped := 0 }

/-- Every clock at reset has counted no cycle. -/
def Clocks.reset : Clocks :=
  { refin := 0, aon := 0, fld := 0, ctl := 0, noc := 0, pkt := 0, engRaw0 := 0, engRaw1 := 0, eng0 := 0, eng1 := 0,
    coreRaw0 := 0, coreRaw1 := 0, core0 := 0, core1 := 0 }

/-- PF0's configuration at reset, as the PCI Express Base Specification gives it (PRESUMED, assumption 6): payloads of 128 bytes,
read requests of 512, completion timeouts of 50 µs to 50 ms, nothing enabled, every MSI-X vector masked. -/
def Hlk.cfgReset : PfCfg :=
  { maxPayload := 128, maxRead := 512, ctoLo := 100000, ctoHi := 100000000, ltr := false, aspmL1 := false, l11 := false,
    l12 := false, ats := false, pri := false, msixEn := false, msixMask := false, msixTable := [] }

/-- The host link at reset: its identifiers (R2), link down, nothing enabled, PERST_N asserted as the host holds it at power-up. -/
def Hlk.reset : Hlk :=
  { vendor := 0xD0E2, device := 0x0A09, cfg := Hlk.cfgReset, pba := [], heldVecs := [], l12 := false, bme := false,
    pmeEn := false, priEn := false, respFail := false, aer := [], perst := true, wakeN := true, d3cold := false, nextTag := 0, heldIrq := [], atc := [], invals := [], pageReqs := [], nextPrg := 0, vecMap := [] }

/-- A downstream port at reset: EMPTY (DLK.STAT.STATE, reset 1). -/
def DPort.reset : DPort :=
  { state := .empty, since := 0, perstHighAt := 0, dlActiveAt := 0, trainFails := 0, enumStarted := false, enumOk := false,
    funcs := [], enabled := [], result := 0, goingDown := false, thenOff := false, aer := [], up := false, flit := false,
    tagMode := 0, speed := 0, width := 0, nextTag := 0, inq := [], sites := [], slots := [], maxPayload := 128 }

/-- A connection that is CLOSED and was never opened. -/
def Conn.reset : Conn :=
  { state := .closed, part := 0, peerConn := 0, window := 0, v4 := false, pathsM1 := 0, sportSeed := 0, mtu := 0,
    ecnEn := false, dscp := 0, leaf := 0, txKey := 0, rxKey := 0, peer := 0, cause := 0, txNext := 0, txUna := 0,
    rxNext := 0, cwnd := 0, credit := 0, lastCut := none, lastPath := 0, pathHeld := [], tx := [], outq := [],
    sendOrder := 0, ackedOrder := 0, rxBits := [], rxPkts := [], serves := [], ackCount := 0, ackDue := none,
    sackSent := false, ecePaths := [], eceSent := [], attached := false, stalls := [], authFails := 0, authAt := none,
    refusals := 0, refuseAt := none, xrdRefusals := 0, xrdRefuseAt := none }

/-- Millrace and remote memory at reset: every connection CLOSED, nothing held. -/
def Mlr.reset : Mlr :=
  { conns := [], resident := [], fetching := [], missWait := [], writingBack := [], held := [], nextHid := 0, heldHwm := 0, spates := [],
    regionCache := [], regionFetch := [], faults := [], faultHwm := 0, nextFault := 0, gated := [], rxGen := none }

/-- An Ethernet port at reset: down, empty. -/
def EptPort.reset : EptPort :=
  { up := false, ingress := [], pausing := [], pauseAt := [], paused := [], stampBase := 0 }

/-- The reset graph (R194): node 0 is an Ethernet header of 14 bytes that ends the walk with profile 0; every profile drops;
nodes, edges and profiles that are not listed are all zero. -/
def Graph.reset : Graph := { nodes := [[0x01800E0000000000, 0, 0, 0]], edges := [], profiles := [], start := 0, odd := 0 }

/-- A free rule-set slot. -/
def RuleSlot.free : RuleSlot := { state := .free, version := 0, refs := 0, graph := .reset }

/-- The packet pipeline at reset: slot 0 CURRENT with version 0 and no rules (PKT.SLOT_STAT), no table set. -/
def Pkt.reset : Pkt :=
  { slots := [(0, { RuleSlot.free with state := .current })], exact := none, wild := [], targets := [], newQ := [],
    recQ := [], sweeps := 0 }

/-- A leaf at its scrubbed values (R42): empty, deficit 0, high-water marks 0, under no port. -/
def Leaf.reset : Leaf :=
  { port := none, depthMax := 0, cls := 0, quantum := 0, q := [], waiting := [], depthHwm := 0, sojHwm := 0, drops := 0,
    deficit := 0 }

/-- A port node with no active partition. -/
def PortNode.reset : PortNode := { active := [], ptr := 0, atTurn := false, mid := false, round := 0 }

/-- A meter at its reset values. -/
def Meter.reset : Meter :=
  { mode := false, aware := false, cir := 0, pir := 0, cbs := 0, pbs := 0, dscp := 0, yellow := 0, red := 0, cB := 0,
    pB := 0, at_ := 0, nYellow := 0, nRed := 0 }

/-- An exact accumulator holding zero terms (R227). -/
def Xacc.zero : Xacc := { v := 0, pinf := false, ninf := false, nan := false, ovf := false, terms := 0 }

/-- A Confluence slot with all bits 0. -/
def XSlot.zero : XSlot := { acc := .zero, ext := none }

/-- The cipher engine at reset: no keys, no seed (R341, R361). -/
def Cph.reset : Cph := { keys := [], resident := [], fetching := [], poisoned := [], dwk := none, rngSeed := 0, rngServed := 0 }

/-- A pool with no granule. -/
def Pool.empty : Pool :=
  { slot := 0, grans := [], lowWater := 0, rot := 0, refs := [], poison := [], excluded := [], lowSent := false }

/-- An EMPTY key context (R341). -/
def Key.empty : Key :=
  { state := .empty, alg := 0, use := 0, key := [], salt := 0, counter := 0, limit := 0, lowSent := false, msg := none }

/-- An empty barrier channel (R359). -/
def BChan.reset : BChan := { unacked := [], waiting := [], nextSeq := 0, expect := 0 }

/-- The barrier at reset: every channel empty. -/
def Bar.reset : Bar := { hostToFieldF := .reset, hostToFieldM := .reset, fieldToHostF := .reset, fieldToHostM := .reset, reads := [] }

/-- The field side at reset: blank fuses and flash, no image, no key, start-up not begun. -/
def Trs.reset : Trs :=
  { uds := [], udsLocked := false, rootHash := [], svnFloor := [0, 0, 0], revoke := 0, handoffCdi := none,
    handoffDwk := none, handoffWear := none, handoffMkw := none, ak := none, flash := [], keyman := none, weir := none,
    runtime := none, monitor := none, incoming := [], startup := 0, recovery := false, triedBank := false,
    fieldPower := false, hostPower := false, dieReset := true, weirRuns := false, linkReady := false, abiVersion := 0,
    reports := [], reportSeq := 0, signed := [], attWaits := [], signedAt := [], mgmtKey := none, telemetry := [], mbox := [], mboxRsp := [], pwrAnswer := none }

/-- A core at reset (R404): level M, registers 0, pc 0. -/
def Core.reset : Core :=
  { g := [], f := [], pc := 0, level := .m, sys := [], slots := [], uops := [], soft := false, idle := false,
    halted := true, tlb := [], crashes := 0, crashAt := 0, wdogAt := 0, tcm := [],
    cycOff := 0, slotOff := 0, page := none }

/-- A PLL at reset: OFF. -/
def Pll.reset : Pll :=
  { state := .off, run := 0, windows := 0, fails := 0, count := 0, mult := 0, since := 0, slewAt := 0 }

/-- A cluster gate at reset: closed. -/
def Gate.reset : Gate :=
  { isOpen := false, held := false, retained := false, waking := false, opens := 0, since := 0, stopAt := some 0, missed := 0 }

/-- The power controller and wear meter at reset (23_power_and_thermal.md). -/
def Pwr.reset : Pwr :=
  { window := [], peakUsed := 0, over100 := 0, thermalCap := none, fwCap := none, fwMult0 := 36, fwMult1 := 36,
    capMult0 := 36, capMult1 := 36, duty := 0, hardOver := false, hardSensors := [], temps := [], hwm := [], railBin0 := 0,
    railBin1 := 0, railUp0 := false, railUp1 := false, bin3 := true, hourEnd := 0, charging := none,
    buckets := [], wearOut := false, bucketAt := 0, tripAt := none, hsenAt := none, hostOff := false, vinLast := 0 }

/-- The fault collector at reset: nothing latched, nothing contained (R470, R477). -/
def Flt.reset : Flt :=
  { elws := [], queue := [], log := [], raises := [], transAt := [], parts := [], blocks := [], planes := [], safe := false,
    safeAt := 0, exiting := false, heartbeatAt := 0, heartbeatSent := 0, watchdogAt := 0, alive := false,
    aliveAt := 0, reload := false }

/-- The granules reserved to P0 (R44): granule 0 of each stack. -/
def reservedGranules : List Nat := [0, 192, 384, 576, 768, 960, 1152, 1344]

/-- The device right after device reset, before its first start-up step (R48, R367): every register at its reset value, P0
ACTIVE and owner of the reserved granules, every other granule awaiting its first scrub, every other resource free, no
command waiting. -/
def State.reset : State :=
  { pending := [], clk := .reset, regs := [], entry := [], prev := [], hbm := [], badLines := [], out := [], free := 0,
    parts := [(0, { Part.free with state := .active })], owner := [],
    gran := reservedGranules.map (fun g => (g, Own.owned 0)), scrubs := [], vis := [], harvests := [], rings := [],
    work := [], sync := [], reads := [], quar := [], hlk := .reset,
    dports := (List.range 6).map (fun n => (n, DPort.reset)), mlr := .reset,
    epts := (List.range 16).map (fun n => (n, EptPort.reset)), pkt := .reset,
    sch := { leaves := [], pnodes := [], ports := (List.range 16).map (fun n => (n, PortNode.reset)), meters := [],
             change := none },
    xrd := { groups := [], slots := [], hwm := 0 },
    kvs := { seqs := [], pools := [], extents := [], nextUse := 0, retired := [], retiredGran := [] },
    att := { inboxes := [], respFails := [], reqs := [], nextReq := 0, lastPart := 0 }, ckp := { steps := [], nextSid := 0, used := [] },
    sto := { nss := [], ctrls := [], queues := [], tcps := [], cmds := [], cache := [], drives := [], nextDid := 0,
             nextTcp := 0, nextOrder := 0, idleSince := 0, exiting := false, errors := [] },
    cph := .reset, bar := .reset, trs := .reset, cores := (List.range 80).map (fun n => (n, Core.reset)),
    fwi := { groups := [], moving := [], toRestart := [], phase := 0, bank := 0, newImages := none, pauseAt := 0,
             restartCopy := none, opBeatTo := 0, opBeatAt := 0, opLapsed := false, irqRoute := [], saved := [], oldAbi := 0, leaves := 0 },
    cg := { plls := (List.range 24).map (fun n => (n, Pll.reset)), mux0 := { busy := false, used := false },
            mux1 := { busy := false, used := false }, gates := (List.range 25).map (fun n => (n, Gate.reset)),
            refinHost := true, refinField := true },
    pwr := .reset, flt := .reset, balls := { dperst := 0, pgood := false, hsen := true, idle := true } }

end Sys2Proof.Machine
end

