-- ==== Sys2Proof/Machine/Regs.lean ====
section
/-! DEFINITION. The registers of every page, from the register tables of the chapters: where each lies, whether it is
staged, its reset value, and which of its bits a write may change (R7, R24, R25). A bit in none of the masks is RO, WO or
reserved: RO bits hold what the device stores there, WO and reserved bits hold 0. -/

namespace Sys2Proof

/-- One register or array of registers: offset, number, distance, staged, reset value, and the RW, W1C and W1S bits. -/
structure RegDef where
  off : Nat
  n : Nat
  stride : Nat
  staged : Bool
  reset : Word
  rw : Word
  w1c : Word
  w1s : Word
  deriving DecidableEq, Repr

/-- The registers of the DEV page. -/
def devRegs : List RegDef :=
  [
    ⟨0x100, 1, 0, false, 0x109000100000000, 0x0, 0x0, 0x0⟩,  -- IDENT
    ⟨0x108, 1, 0, false, 0x2004022010008000, 0x0, 0x0, 0x0⟩,  -- CAP_IO
    ⟨0x110, 1, 0, false, 0x4010200800300080, 0x0, 0x0, 0x0⟩,  -- CAP_COMPUTE
    ⟨0x118, 1, 0, false, 0x2000000004000, 0x0, 0x0, 0x0⟩,  -- CAP_QUEUE
    ⟨0x120, 1, 0, false, 0x1000001000000, 0x0, 0x0, 0x0⟩,  -- CAP_CONN
    ⟨0x128, 1, 0, false, 0x40000000010000, 0x0, 0x0, 0x0⟩,  -- CAP_CLASS
    ⟨0x130, 1, 0, false, 0x2000000008000, 0x0, 0x0, 0x0⟩,  -- CAP_SCHED
    ⟨0x138, 1, 0, false, 0x10000000100000, 0x0, 0x0, 0x0⟩,  -- CAP_ENGINE
    ⟨0x140, 1, 0, false, 0x1000040050080100, 0x0, 0x0, 0x0⟩,  -- CAP_MISC
    ⟨0x148, 1, 0, false, 0x100080002001000, 0x0, 0x0, 0x0⟩  -- CAP_MEM
  ]

/-- The registers of the PRT page. -/
def prtRegs : List RegDef :=
  [
    ⟨0x100, 1, 0, true, 0x0, 0x1, 0x0, 0x0⟩,  -- CFG
    ⟨0x108, 1, 0, false, 0x0, 0xFFFFFFFFFFFFFFFF, 0x0, 0x0⟩,  -- CMD_ARG0
    ⟨0x110, 1, 0, false, 0x0, 0x8000000000003FFF, 0x0, 0x0⟩,  -- CMD_ARG1
    ⟨0x118, 1, 0, false, 0x0, 0x0, 0x0, 0x0⟩,  -- CMD
    ⟨0x120, 1, 0, false, 0x0, 0x0, 0x0, 0x0⟩,  -- CMD_STAT
    ⟨0x128, 1, 0, false, 0x1, 0x0, 0x0, 0x0⟩,  -- GUARANTEE
    ⟨0x1000, 128, 16, false, 0x0, 0x0, 0x0, 0x0⟩,  -- PSTAT
    ⟨0x1008, 128, 16, false, 0x0, 0x0, 0x0, 0x0⟩  -- PWAYS
  ]

/-- The registers of the VIF page. -/
def vifRegs : List RegDef :=
  [
    ⟨0x100, 1, 0, false, 0x0, 0xFFFFFFFFFFFFFFFF, 0x0, 0x0⟩,  -- CMD_ADDR
    ⟨0x108, 1, 0, false, 0x0, 0xBF0FFFFF00003FFF, 0x0, 0x0⟩,  -- CMD_ARG
    ⟨0x110, 1, 0, false, 0x0, 0x0, 0x0, 0x0⟩,  -- CMD
    ⟨0x118, 1, 0, false, 0x0, 0x0, 0x0, 0x0⟩,  -- CMD_STAT
    ⟨0x120, 1, 0, false, 0x0, 0xFFF, 0x0, 0x0⟩,  -- SEL
    ⟨0x128, 1, 0, false, 0x0, 0x0, 0x0, 0x0⟩,  -- STATE
    ⟨0x130, 1, 0, false, 0x0, 0x0, 0x0, 0x0⟩,  -- LOG_BASE
    ⟨0x138, 1, 0, true, 0x0, 0xFFFFFFFF, 0x0, 0x0⟩  -- CFG
  ]

/-- The registers of the HLK page. -/
def hlkRegs : List RegDef :=
  [
    ⟨0x100, 1, 0, true, 0x100000005F5E, 0x1FFFFFFFFFFF, 0x0, 0x0⟩,  -- CFG
    ⟨0x108, 1, 0, false, 0x0, 0x0, 0x0, 0x0⟩,  -- LINK_STAT
    ⟨0x110, 1, 0, false, 0x0, 0x0, 0x0, 0x0⟩,  -- FREEZE
    ⟨0x118, 1, 0, false, 0x0, 0x0, 0x0, 0x0⟩,  -- TAGS
    ⟨0x120, 1, 0, false, 0x0, 0x0, 0x0, 0x0⟩,  -- UR_LOG
    ⟨0x128, 1, 0, false, 0x0, 0xFFFFFFFF, 0x0, 0x0⟩,  -- VEC_SEL
    ⟨0x130, 1, 0, false, 0x0, 0x7FF, 0x0, 0x0⟩,  -- VEC_MAP
    ⟨0x138, 1, 0, true, 0x5, 0xF, 0x0, 0x0⟩,  -- WAKE_EN
    ⟨0x140, 1, 0, false, 0x0, 0x0, 0x0, 0x0⟩  -- DISCARDS
  ]

/-- The registers of the DLK page. -/
def dlkRegs : List RegDef :=
  [
    ⟨0x100, 1, 0, true, 0xF040000000005F5E, 0xFFF00000FFFFFFFF, 0x0, 0x0⟩,  -- CFG
    ⟨0x108, 1, 0, true, 0x0, 0x3F3F, 0x0, 0x0⟩,  -- P2P
    ⟨0x110, 1, 0, false, 0x0, 0x0, 0x0, 0x0⟩,  -- FREEZE
    ⟨0x118, 1, 0, false, 0x2000000000000000, 0x0, 0x0, 0x0⟩,  -- STAT
    ⟨0x120, 1, 0, false, 0x0, 0x0, 0x0, 0x0⟩,  -- PARTNER
    ⟨0x128, 1, 0, false, 0x0, 0x0, 0x0, 0x0⟩,  -- ANNOUNCE
    ⟨0x130, 1, 0, false, 0x0, 0x0, 0x0, 0x0⟩,  -- CMD
    ⟨0x200, 16, 16, true, 0x0, 0xFFFFFFFFFFFF0000, 0x0, 0x0⟩,  -- IWIN_BASE
    ⟨0x208, 16, 16, true, 0x100000000000000, 0xFFFFFFFFFFFF0000, 0x0, 0x0⟩  -- IWIN_CTL
  ]

/-- The registers of the RNG page. -/
def rngRegs : List RegDef :=
  [
    ⟨0x100, 1, 0, true, 0x10, 0x3F, 0x0, 0x0⟩,  -- CFG
    ⟨0x108, 1, 0, false, 0x0, 0xFFFFFFFFFFFFF001, 0x0, 0x0⟩,  -- CTX0
    ⟨0x110, 1, 0, false, 0x2000000000000000, 0xFFFFFFFFFFFC0000, 0x0, 0x0⟩,  -- CTX1
    ⟨0x118, 1, 0, false, 0x0, 0xFFFFFFF000000000, 0x0, 0x0⟩,  -- CTX2
    ⟨0x120, 1, 0, false, 0x0, 0xFFFFFFFF, 0x0, 0x0⟩,  -- IDX
    ⟨0x128, 1, 0, false, 0x0, 0x0, 0x0, 0x0⟩,  -- RSTAT
    ⟨0x130, 1, 0, false, 0x0, 0x0, 0x0, 0x0⟩,  -- CMD
    ⟨0x138, 1, 0, false, 0x0, 0x0, 0x0, 0x0⟩  -- CMD_STAT
  ]

/-- The registers of the SYN page. -/
def synRegs : List RegDef :=
  [
    ⟨0x100, 64, 16, true, 0x0, 0x8000000000003FFF, 0x0, 0x0⟩,  -- WATCH_CTL
    ⟨0x500, 1, 0, false, 0x0, 0x0, 0xFFFFFFFFFFFFFFFF, 0x0⟩,  -- WATCH_HIT
    ⟨0x108, 64, 16, true, 0x0, 0xFFFFFFFFFFFFFFFF, 0x0, 0x0⟩  -- WATCH_THR
  ]

/-- The registers of the MLR page. -/
def mlrRegs : List RegDef :=
  [
    ⟨0x100, 1, 0, true, 0x1B1C, 0x1FFFFFFFF, 0x0, 0x0⟩,  -- PORT_CFG
    ⟨0x108, 1, 0, true, 0x10064000003E80, 0xFFFFFFFFFFFFFFFF, 0x0, 0x0⟩,  -- ACKCFG
    ⟨0x110, 1, 0, true, 0x2710000271000, 0xFFFFFFFFFFFFFFFF, 0x0, 0x0⟩,  -- RTO
    ⟨0x118, 1, 0, true, 0x40000830070000, 0xFFFFFFFFF0FF0000, 0x0, 0x0⟩,  -- CC
    ⟨0x120, 1, 0, true, 0x2710000003E80, 0xFFFFFFFFFFFFFFFF, 0x0, 0x0⟩,  -- CC_TIME
    ⟨0x128, 1, 0, false, 0x0, 0x0, 0x0, 0x0⟩,  -- MISS_STAT
    ⟨0x140, 1, 0, false, 0x0, 0xFFFFFFFFFFFFFFFE, 0x0, 0x0⟩,  -- CONN_CTRL
    ⟨0x148, 1, 0, false, 0x0, 0xFFFFFFFFFFFF0000, 0x0, 0x0⟩,  -- CONN_PATH
    ⟨0x150, 1, 0, false, 0x0, 0xFFFFFFFFFF003FFF, 0x0, 0x0⟩,  -- CONN_KEYS
    ⟨0x158, 1, 0, false, 0x0, 0xFFFFFFFFFFFFFFFF, 0x0, 0x0⟩,  -- CONN_PEER0
    ⟨0x160, 1, 0, false, 0x0, 0xFFFFFFFFFFFFFFFF, 0x0, 0x0⟩,  -- CONN_PEER1
    ⟨0x168, 1, 0, false, 0x0, 0xFFFFFFFFFFFFFFFF, 0x0, 0x0⟩,  -- CONN_PSN
    ⟨0x190, 1, 0, false, 0x0, 0xFFFFFFFFFFFFF000, 0x0, 0x0⟩,  -- PART_BASE
    ⟨0x198, 1, 0, false, 0x0, 0xFFFFFFFFFFFF8000, 0x0, 0x0⟩,  -- PART_RANGE
    ⟨0x1a0, 1, 0, false, 0x0, 0xFFFFFFFFFFFFFFFF, 0x0, 0x0⟩,  -- PART_SRC0
    ⟨0x1a8, 1, 0, false, 0x0, 0xFFFFFFFFFFFFFFFF, 0x0, 0x0⟩,  -- PART_SRC1
    ⟨0x1b0, 1, 0, false, 0x0, 0x1FFFFFFFF, 0x0, 0x0⟩,  -- PART_V4
    ⟨0x170, 1, 0, false, 0x0, 0x0, 0x0, 0x0⟩,  -- CMD
    ⟨0x178, 1, 0, false, 0x0, 0x0, 0x0, 0x0⟩,  -- CMD_STAT
    ⟨0x180, 1, 0, false, 0x0, 0x0, 0x0, 0x0⟩,  -- CONN_STAT
    ⟨0x188, 1, 0, false, 0x0, 0x0, 0x0, 0x0⟩  -- CONN_STAT1
  ]

/-- The registers of the RMA page. -/
def rmaRegs : List RegDef :=
  [
    ⟨0x100, 1, 0, true, 0x32000000000001F4, 0xFFFF0000FFFFFFFF, 0x0, 0x0⟩,  -- CFG0
    ⟨0x108, 1, 0, true, 0x32000000C800, 0xFFFFFFFFFFFFFFFF, 0x0, 0x0⟩,  -- CFG1
    ⟨0x110, 1, 0, true, 0x6400003200, 0xFFFFFFFFFFFFFFFF, 0x0, 0x0⟩,  -- CFG2
    ⟨0x140, 1, 0, false, 0x0, 0xFFFFFFFFFFFFF000, 0x0, 0x0⟩,  -- PART_TBL
    ⟨0x148, 1, 0, false, 0x0, 0x3FFFFFF, 0x0, 0x0⟩,  -- PART_CNT
    ⟨0x150, 1, 0, false, 0x0, 0x0, 0x0, 0x0⟩,  -- CMD
    ⟨0x158, 1, 0, false, 0x0, 0x0, 0x0, 0x0⟩,  -- CMD_STAT
    ⟨0x160, 1, 0, false, 0x0, 0xFFFFFFFF, 0x0, 0x0⟩,  -- REG_KEY
    ⟨0x168, 1, 0, false, 0x0, 0x0, 0x0, 0x0⟩,  -- REG_STAT
    ⟨0x170, 1, 0, false, 0x0, 0x0, 0x0, 0x0⟩  -- FAULT_STAT
  ]

/-- The registers of the EPT page. -/
def eptRegs : List RegDef :=
  [
    ⟨0x100, 1, 0, true, 0x4000009100002580, 0xF800FFFFFF003FFF, 0x0, 0x0⟩,  -- CFG
    ⟨0x108, 1, 0, true, 0x0, 0xFFFFFFFFFFFF, 0x0, 0x0⟩,  -- MAC
    ⟨0x110, 1, 0, true, 0x0, 0xFFFFFFFFFFFF, 0x0, 0x0⟩,  -- GW_MAC
    ⟨0x118, 1, 0, true, 0x0, 0xFFFFFFFFC0000000, 0x0, 0x0⟩,  -- MLR_TAG
    ⟨0x120, 1, 0, true, 0x4000000020000, 0xFFFFFFFFFFFFFFFF, 0x0, 0x0⟩,  -- PFC
    ⟨0x128, 1, 0, false, 0x0, 0x0, 0x0, 0x0⟩,  -- STAT
    ⟨0x130, 1, 0, false, 0x0, 0x0, 0x0, 0x0⟩  -- STAMP
  ]

/-- The registers of the PKT page. -/
def pktRegs : List RegDef :=
  [
    ⟨0x100, 1, 0, true, 0x0, 0x1, 0x0, 0x0⟩,  -- CFG
    ⟨0x140, 1, 0, false, 0x0, 0xFFFFFFFFFFFFFFFF, 0x0, 0x0⟩,  -- CMD_ADDR
    ⟨0x148, 1, 0, false, 0x0, 0xFFFFFFFF8000FFFF, 0x0, 0x0⟩,  -- CMD_ARG
    ⟨0x150, 1, 0, false, 0x0, 0x0, 0x0, 0x0⟩,  -- CMD
    ⟨0x158, 1, 0, false, 0x0, 0x0, 0x0, 0x0⟩,  -- CMD_STAT
    ⟨0x160, 1, 0, false, 0x0, 0x0, 0x0, 0x0⟩,  -- VER_STAT
    ⟨0x180, 8, 8, false, 0x0, 0x0, 0x0, 0x0⟩  -- SLOT_STAT
  ]

/-- The registers of the PMU page. -/
def pmuRegs : List RegDef :=
  [
    ⟨0x100, 1, 0, false, 0x0, 0x0, 0x0, 0x0⟩,  -- CYCLES
    ⟨0x108, 1, 0, false, 0x0, 0x0, 0x0, 0x0⟩,  -- RETIRED
    ⟨0x110, 1, 0, false, 0x0, 0x0, 0x0, 0x0⟩,  -- SLOTS
    ⟨0x118, 1, 0, false, 0x8000000000000000, 0x0, 0x0, 0x0⟩  -- STATE
  ]

/-- The registers of the FWI page. -/
def fwiRegs : List RegDef :=
  [
    ⟨0x100, 1, 0, false, 0x0, 0x0, 0x0, 0x0⟩,  -- ABI
    ⟨0x108, 1, 0, false, 0x0, 0xFFFFFFFF, 0x0, 0x0⟩,  -- DRV_ABI
    ⟨0x110, 1, 0, false, 0x0, 0xFFFFFFFF, 0x0, 0x0⟩,  -- HOST_BEAT
    ⟨0x118, 1, 0, true, 0x30D40, 0xFFFFFFFF, 0x0, 0x0⟩,  -- CFG
    ⟨0x140, 1, 0, false, 0x0, 0xFFFFFFFFFFFFFFFF, 0x0, 0x0⟩,  -- CMD_ADDR
    ⟨0x148, 1, 0, false, 0x0, 0xFFFFFFFFFFFFFFFF, 0x0, 0x0⟩,  -- CMD_ARG
    ⟨0x150, 1, 0, false, 0x0, 0x0, 0x0, 0x0⟩,  -- CMD
    ⟨0x158, 1, 0, false, 0x0, 0x0, 0x0, 0x0⟩,  -- CMD_STAT
    ⟨0x160, 1, 0, false, 0x0, 0x0, 0x0, 0x0⟩,  -- CORES
    ⟨0x168, 1, 0, false, 0x0, 0x0, 0x0, 0x0⟩,  -- UPD_STAT
    ⟨0x170, 1, 0, false, 0x0, 0xFFFFFFFF, 0x0, 0x0⟩,  -- IRQ_SEL
    ⟨0x178, 1, 0, false, 0x0, 0x800000000000007F, 0x0, 0x0⟩  -- IRQ_ROUTE
  ]

/-- The registers of the emulated control page. -/
def vipRegs : List RegDef :=
  [
    ⟨0x100, 1, 0, false, 0x0, 0x0, 0x0, 0x0⟩,  -- ABI
    ⟨0x108, 1, 0, false, 0x0, 0xFFFFFFFF, 0x0, 0x0⟩,  -- DRV_ABI
    ⟨0x110, 1, 0, false, 0x0, 0xFFFFFFFF, 0x0, 0x0⟩,  -- HOST_BEAT
    ⟨0x118, 1, 0, false, 0x0, 0x4, 0x0, 0x0⟩,  -- CONTROL
    ⟨0x120, 3, 8, false, 0x0, 0xFFFFFFFFFFFFFFFF, 0x0, 0x0⟩,  -- RING_CTX
    ⟨0x138, 1, 0, false, 0x0, 0x0, 0x0, 0x0⟩,  -- RING_CMD
    ⟨0x140, 1, 0, false, 0x0, 0x0, 0x0, 0x0⟩,  -- RING_STAT
    ⟨0x200, 64, 16, false, 0x0, 0xFFFFFFFFFFFFFFFF, 0x0, 0x0⟩,  -- VEC_ADDR
    ⟨0x208, 64, 16, false, 0x100000000, 0x1FFFFFFFF, 0x0, 0x0⟩,  -- VEC_CTL
    ⟨0x600, 6, 8, false, 0x0, 0xFFFFFFFFFFFFFFFF, 0x0, 0x0⟩,  -- ATT_NONCE
    ⟨0x630, 1, 0, false, 0x0, 0xFFFFFFFFFFFFFFFF, 0x0, 0x0⟩,  -- ATT_ADDR
    ⟨0x638, 1, 0, false, 0x0, 0x0, 0x0, 0x0⟩,  -- ATT_CMD
    ⟨0x640, 1, 0, false, 0x0, 0x0, 0x0, 0x0⟩  -- ATT_STAT
  ]

/-- The registers of the SCH page. -/
def schRegs : List RegDef :=
  [
    ⟨0x100, 16, 8, true, 0x4000000000000000, 0xC000FFFFFF000000, 0x0, 0x0⟩,  -- PORT
    ⟨0x180, 3, 8, false, 0x0, 0xFFFFFFFFFFFFFFFF, 0x0, 0x0⟩,  -- CMD_ARG
    ⟨0x1a0, 1, 0, false, 0x0, 0x0, 0x0, 0x0⟩,  -- CMD
    ⟨0x1a8, 1, 0, false, 0x0, 0x0, 0x0, 0x0⟩,  -- CMD_STAT
    ⟨0x1b0, 3, 8, false, 0x0, 0x0, 0x0, 0x0⟩,  -- RD
    ⟨0x1c8, 1, 0, false, 0x0, 0x0, 0x0, 0x0⟩,  -- BUF_STAT
    ⟨0x1d0, 1, 0, false, 0x0, 0x0, 0x0, 0x0⟩  -- FLOOR_STAT
  ]

/-- The registers of the NUM page. -/
def numRegs : List RegDef :=
  [
    ⟨0x100, 1, 0, true, 0x0, 0xF, 0x0, 0x0⟩  -- CFG
  ]

/-- The registers of the XRD page. -/
def xrdRegs : List RegDef :=
  [
    ⟨0x100, 1, 0, true, 0xC80000000001900, 0xFFFF0000FFFFFFFF, 0x0, 0x0⟩,  -- CFG0
    ⟨0x108, 1, 0, true, 0x1F4, 0xFFFFFFFF, 0x0, 0x0⟩,  -- CFG1
    ⟨0x140, 1, 0, false, 0x0, 0x0, 0x0, 0x0⟩  -- STAT
  ]

/-- The registers of the KVS page. -/
def kvsRegs : List RegDef :=
  [
    ⟨0x100, 1, 0, true, 0x0, 0xFF, 0x0, 0x0⟩,  -- CFG
    ⟨0x140, 1, 0, false, 0x0, 0xFFFFFFFFFFFFFFFF, 0x0, 0x0⟩,  -- CMD_ARG0
    ⟨0x148, 1, 0, false, 0x0, 0xFFFFFFFFFFFFFFFF, 0x0, 0x0⟩,  -- CMD_ARG1
    ⟨0x150, 1, 0, false, 0x0, 0x0, 0x0, 0x0⟩,  -- CMD
    ⟨0x158, 1, 0, false, 0x0, 0x0, 0x0, 0x0⟩,  -- CMD_STAT
    ⟨0x160, 1, 0, false, 0x0, 0x0, 0x0, 0x0⟩,  -- RD0
    ⟨0x168, 1, 0, false, 0x0, 0x0, 0x0, 0x0⟩,  -- RD1
    ⟨0x170, 1, 0, false, 0x0, 0x0, 0x0, 0x0⟩  -- STAT
  ]

/-- The registers of the ATT page. -/
def attRegs : List RegDef :=
  [
    ⟨0x100, 1, 0, true, 0x0, 0x3F, 0x0, 0x0⟩,  -- CFG
    ⟨0x140, 1, 0, false, 0x0, 0x0, 0x0, 0x0⟩,  -- STAT
    ⟨0x148, 1, 0, false, 0x0, 0x3FF, 0x0, 0x0⟩,  -- INBOX_SEL
    ⟨0x150, 1, 0, false, 0x0, 0x0, 0x0, 0x0⟩  -- INBOX_STAT
  ]

/-- The registers of the CKP page. -/
def ckpRegs : List RegDef :=
  [
    ⟨0x100, 1, 0, true, 0x6B6C00000000, 0xFFFFFFFF000000FF, 0x0, 0x0⟩,  -- CFG
    ⟨0x140, 1, 0, false, 0x0, 0xFFFFFFFFFFFFFFFF, 0x0, 0x0⟩,  -- CMD_ARG0
    ⟨0x150, 1, 0, false, 0x0, 0x0, 0x0, 0x0⟩,  -- CMD
    ⟨0x158, 1, 0, false, 0x0, 0x0, 0x0, 0x0⟩,  -- CMD_STAT
    ⟨0x160, 1, 0, false, 0x0, 0x0, 0x0, 0x0⟩,  -- RD0
    ⟨0x168, 1, 0, false, 0x0, 0x0, 0x0, 0x0⟩,  -- RD1
    ⟨0x170, 1, 0, false, 0x0, 0x0, 0x0, 0x0⟩  -- STAT
  ]

/-- The registers of the STO page. -/
def stoRegs : List RegDef :=
  [
    ⟨0x100, 1, 0, true, 0x1144800000000000, 0xFFFFF00000000000, 0x0, 0x0⟩,  -- CFG
    ⟨0x108, 1, 0, true, 0x1F01310BEC7736, 0xFFFFFFFFFFFFFFFF, 0x0, 0x0⟩,  -- PWR
    ⟨0x140, 3, 8, false, 0x0, 0xFFFFFFFFFFFFFFFF, 0x0, 0x0⟩,  -- CMD_ARG
    ⟨0x158, 1, 0, false, 0x0, 0x0, 0x0, 0x0⟩,  -- CMD
    ⟨0x160, 1, 0, false, 0x0, 0x0, 0x0, 0x0⟩,  -- CMD_STAT
    ⟨0x168, 1, 0, false, 0x0, 0x0, 0x0, 0x0⟩,  -- RD0
    ⟨0x170, 1, 0, false, 0x0, 0x0, 0x0, 0x0⟩,  -- RD1
    ⟨0x178, 1, 0, false, 0x0, 0x0, 0x0, 0x0⟩,  -- STAT
    ⟨0x180, 1, 0, false, 0x0, 0x0, 0x0, 0x0⟩  -- CACHE_STAT
  ]

/-- The registers of the CPH page. -/
def cphRegs : List RegDef :=
  [
    ⟨0x100, 1, 0, true, 0x20200E0000100000, 0xFFFFFF00FFFFFFFF, 0x0, 0x0⟩,  -- CFG
    ⟨0x140, 1, 0, false, 0x0, 0xFFFFFFFFFFFFFFFF, 0x0, 0x0⟩,  -- CMD_ARG0
    ⟨0x150, 1, 0, false, 0x0, 0x0, 0x0, 0x0⟩,  -- CMD
    ⟨0x158, 1, 0, false, 0x0, 0x0, 0x0, 0x0⟩,  -- CMD_STAT
    ⟨0x160, 1, 0, false, 0x0, 0x0, 0x0, 0x0⟩  -- STAT
  ]

/-- The registers of the TRS page. -/
def trsRegs : List RegDef :=
  [
    ⟨0x100, 1, 0, true, 0x400, 0xFFFF, 0x0, 0x0⟩,  -- CFG
    ⟨0x108, 1, 0, false, 0x0, 0x0, 0x0, 0x0⟩,  -- BOOT
    ⟨0x110, 1, 0, false, 0x8000000000000000, 0x0, 0x0, 0x0⟩,  -- DEBUG
    ⟨0x118, 6, 8, false, 0x0, 0x0, 0x0, 0x0⟩,  -- CHAL
    ⟨0x148, 1, 0, false, 0x0, 0x0, 0x0, 0x1⟩,  -- TEST
    ⟨0x150, 1, 0, false, 0x0, 0xFFFFFFFFFFFFFFFF, 0x0, 0x0⟩,  -- CMD_ADDR
    ⟨0x158, 1, 0, false, 0x0, 0x0, 0x0, 0x0⟩,  -- CMD
    ⟨0x160, 1, 0, false, 0x0, 0x0, 0x0, 0x0⟩,  -- CMD_STAT
    ⟨0x168, 1, 0, false, 0x0, 0x0, 0x0, 0x0⟩  -- RD0
  ]

/-- The registers of the CLK page. -/
def clkRegs : List RegDef :=
  [
    ⟨0x100, 1, 0, false, 0x8000000000000000, 0x0, 0x0, 0x0⟩,  -- REFIN_STAT
    ⟨0x108, 1, 0, false, 0x0, 0x1F, 0x0, 0x0⟩,  -- PLL_SEL
    ⟨0x110, 1, 0, false, 0x0, 0x0, 0x0, 0x0⟩,  -- PLL_STAT
    ⟨0x118, 1, 0, false, 0x0, 0x0, 0x8000000000000000, 0x0⟩,  -- SW_STAT
    ⟨0x120, 1, 0, false, 0x0, 0x1F, 0x0, 0x0⟩,  -- GATE_SEL
    ⟨0x128, 1, 0, false, 0x0, 0x0, 0x0, 0x0⟩,  -- GATE_STAT
    ⟨0x140, 1, 0, true, 0x0, 0x3, 0x0, 0x0⟩,  -- CORE_SEL
    ⟨0x148, 1, 0, true, 0x1F, 0x1F, 0x0, 0x0⟩,  -- PERIPH_EN
    ⟨0x150, 1, 0, false, 0x0, 0x0, 0x0, 0x0⟩,  -- CMD
    ⟨0x158, 1, 0, false, 0x0, 0x0, 0x0, 0x0⟩,  -- CMD_STAT
    ⟨0x300, 25, 8, true, 0x40, 0xC00000000000FFFF, 0x0, 0x0⟩,  -- GATE_CTL
    ⟨0x200, 1, 0, true, 0x4000000000000271, 0xC000FF00FFFFFFFF, 0x0, 0x0⟩,  -- PLL_CTL0
    ⟨0x208, 1, 0, true, 0x4000000000000271, 0xC000FF00FFFFFFFF, 0x0, 0x0⟩,  -- PLL_CTL1
    ⟨0x210, 1, 0, true, 0x240000000271, 0xC000FF00FFFFFFFF, 0x0, 0x0⟩,  -- PLL_CTL2
    ⟨0x218, 1, 0, true, 0x8000240000000271, 0xC000FF00FFFFFFFF, 0x0, 0x0⟩,  -- PLL_CTL3
    ⟨0x220, 1, 0, true, 0x4000000000000271, 0xC000FF00FFFFFFFF, 0x0, 0x0⟩,  -- PLL_CTL4
    ⟨0x228, 1, 0, true, 0x4000000000000271, 0xC000FF00FFFFFFFF, 0x0, 0x0⟩,  -- PLL_CTL5
    ⟨0x230, 1, 0, true, 0x271, 0xC000FF00FFFFFFFF, 0x0, 0x0⟩,  -- PLL_CTL6
    ⟨0x238, 1, 0, true, 0x240000000271, 0xC000FF00FFFFFFFF, 0x0, 0x0⟩,  -- PLL_CTL7
    ⟨0x240, 1, 0, true, 0x8000240000000271, 0xC000FF00FFFFFFFF, 0x0, 0x0⟩,  -- PLL_CTL8
    ⟨0x248, 1, 0, true, 0x4000000000000271, 0xC000FF00FFFFFFFF, 0x0, 0x0⟩,  -- PLL_CTL9
    ⟨0x250, 1, 0, true, 0x4000000000000271, 0xC000FF00FFFFFFFF, 0x0, 0x0⟩,  -- PLL_CTL10
    ⟨0x258, 1, 0, true, 0x271, 0xC000FF00FFFFFFFF, 0x0, 0x0⟩,  -- PLL_CTL11
    ⟨0x260, 1, 0, true, 0x271, 0xC000FF00FFFFFFFF, 0x0, 0x0⟩,  -- PLL_CTL12
    ⟨0x268, 1, 0, true, 0x4000000000000271, 0xC000FF00FFFFFFFF, 0x0, 0x0⟩,  -- PLL_CTL13
    ⟨0x270, 1, 0, true, 0x4000000000000271, 0xC000FF00FFFFFFFF, 0x0, 0x0⟩,  -- PLL_CTL14
    ⟨0x280, 1, 0, true, 0x4000000000000271, 0xC000FF00FFFFFFFF, 0x0, 0x0⟩,  -- PLL_CTL16
    ⟨0x288, 1, 0, true, 0x4000000000000271, 0xC000FF00FFFFFFFF, 0x0, 0x0⟩,  -- PLL_CTL17
    ⟨0x290, 1, 0, true, 0x4000000000000271, 0xC000FF00FFFFFFFF, 0x0, 0x0⟩,  -- PLL_CTL18
    ⟨0x298, 1, 0, true, 0x4000000000000271, 0xC000FF00FFFFFFFF, 0x0, 0x0⟩,  -- PLL_CTL19
    ⟨0x2a0, 1, 0, true, 0x4000000000000271, 0xC000FF00FFFFFFFF, 0x0, 0x0⟩,  -- PLL_CTL20
    ⟨0x2a8, 1, 0, true, 0x4000000000000271, 0xC000FF00FFFFFFFF, 0x0, 0x0⟩,  -- PLL_CTL21
    ⟨0x2b0, 1, 0, true, 0x4000000000000271, 0xC000FF00FFFFFFFF, 0x0, 0x0⟩,  -- PLL_CTL22
    ⟨0x2b8, 1, 0, true, 0x4000000000000271, 0xC000FF00FFFFFFFF, 0x0, 0x0⟩  -- PLL_CTL23
  ]

/-- The registers of the PWR page. -/
def pwrRegs : List RegDef :=
  [
    ⟨0x100, 1, 0, true, 0x3485A55035C0271, 0xFFFFFFFFFFFFFFFF, 0x0, 0x0⟩,  -- CFG
    ⟨0x140, 1, 0, false, 0x0, 0x0, 0x0, 0x0⟩,  -- IN_STAT
    ⟨0x148, 1, 0, false, 0x47E24240000, 0x0, 0x0, 0x0⟩,  -- CTRL_STAT
    ⟨0x150, 1, 0, false, 0x0, 0xF, 0x0, 0x0⟩,  -- THERM_SEL
    ⟨0x158, 1, 0, false, 0x0, 0x0, 0x0, 0x0⟩,  -- THERM_STAT
    ⟨0x160, 1, 0, false, 0x0, 0x0, 0x0, 0x0⟩  -- WEAR
  ]

/-- The registers of the FLT page. -/
def fltRegs : List RegDef :=
  [
    ⟨0x100, 1, 0, true, 0xBEC00001000, 0xFFFFFFFFFFFFFF00, 0x0, 0x0⟩,  -- CFG
    ⟨0x108, 1, 0, true, 0xBEC, 0xFFFFFFFF, 0x0, 0x0⟩,  -- CFG1
    ⟨0x140, 1, 0, false, 0x0, 0x0, 0x0, 0x0⟩,  -- STAT
    ⟨0x148, 1, 0, false, 0x0, 0x0, 0x0, 0x0⟩,  -- PART_CONT0
    ⟨0x150, 1, 0, false, 0x0, 0x0, 0x0, 0x0⟩,  -- PART_CONT1
    ⟨0x158, 1, 0, false, 0x0, 0x3FF, 0x0, 0x0⟩,  -- LOG_SEL
    ⟨0x160, 4, 8, false, 0x0, 0x0, 0x0, 0x0⟩,  -- LOG
    ⟨0x180, 1, 0, false, 0x0, 0x0, 0x0, 0x0⟩,  -- LOG_STAT
    ⟨0x188, 1, 0, false, 0x0, 0xFFFFFFFFFFFFFFFF, 0x0, 0x0⟩,  -- CMD_ARG
    ⟨0x190, 1, 0, false, 0x0, 0x0, 0x0, 0x0⟩,  -- CMD
    ⟨0x198, 1, 0, false, 0x0, 0x0, 0x0, 0x0⟩,  -- CMD_STAT
    ⟨0x1a0, 1, 0, false, 0x0, 0x0, 0x0, 0x0⟩,  -- RD0
    ⟨0x1000, 512, 8, false, 0x1111111111111111, 0xFFFFFFFFFFFFFFFF, 0x0, 0x0⟩  -- SEV
  ]

/-- Block codes (R8). -/
def Blk.code : Blk → Nat
  | .dev => 1 | .prt => 2 | .vif => 3 | .hlk => 4 | .dlk => 5 | .rng => 6 | .syn => 7 | .mlr => 8 | .rma => 9
  | .ept => 10 | .pkt => 11 | .pmu => 12 | .fwi => 13 | .sch => 14 | .num => 15 | .xrd => 16 | .kvs => 17 | .att => 18
  | .ckp => 19 | .sto => 20 | .cph => 21 | .trs => 22 | .clk => 23 | .pwr => 24 | .flt => 25

/-- The clocks of PG_CAP.CLOCK. The tables give DEV's page none; it reports FLD (DESIGN CHOICE: the spec leaves it open, assumption
138). -/
def Blk.clock : Blk → Nat
  | .clk => 1
  | .dev | .trs | .pwr | .flt => 2
  | .fwi => 4
  | .prt | .vif | .hlk | .dlk | .rng | .syn | .sto => 5
  | .mlr | .rma | .ept | .pkt | .sch | .xrd | .cph => 6
  | .num | .kvs | .att | .ckp => 7
  | .pmu => 3

/-- The blocks that follow the capture model (R38). -/
def Blk.capture : Blk → Bool
  | .rng | .mlr | .pkt | .num | .xrd | .kvs | .att | .ckp | .sto | .cph => true
  | .dev | .prt | .vif | .hlk | .dlk | .syn | .rma | .ept | .pmu | .fwi | .sch | .trs | .clk | .pwr | .flt => false

/-- The number of pages of a block, emulated control pages left out (R467). -/
def Blk.pages : Blk → Nat
  | .dlk => 6 | .ept => 16 | .pmu => 80 | .kvs | .att | .ckp => 2
  | .dev | .prt | .vif | .hlk | .rng | .syn | .mlr | .rma | .pkt | .fwi | .sch | .num | .xrd | .sto | .cph | .trs | .clk
  | .pwr | .flt => 1

/-- The blocks in the order of their codes, which is the order of the page directory (R21). -/
def Blk.all : List Blk :=
  [.dev, .prt, .vif, .hlk, .dlk, .rng, .syn, .mlr, .rma, .ept, .pkt, .pmu, .fwi, .sch, .num, .xrd, .kvs, .att, .ckp, .sto,
   .cph, .trs, .clk, .pwr, .flt]

/-- Whether the page is a VI's emulated control page (21_firmware.md). -/
def Page.emulated (pg : Page) : Bool := decide (pg.blk = .fwi) && decide (0x1000 ≤ pg.num)

/-- Whether the device has the page. -/
def Page.exist (pg : Page) : Bool := decide (pg.num < pg.blk.pages) || (pg.emulated && decide (pg.num < 0x2000))

/-- Pages before those of block b, in directory order. -/
def Blk.base (b : Blk) : Nat := (Blk.all.filter (fun x => x.code < b.code)).foldl (fun a x => a + x.pages) 0

/-- SRC_PAGE of a page: its position in the page directory (R467). -/
def Page.src (pg : Page) : Nat := pg.blk.base + pg.num

/-- The page at a directory position, where there is one. -/
def Page.ofSrc (n : Nat) : Option Page :=
  (Blk.all.find? (fun b => decide (b.base ≤ n) && decide (n < b.base + b.pages))).map (fun b => ⟨b, n - b.base⟩)

/-- PG_CAP.SHADOW: the page has staged registers and a swap point (R25). -/
def Page.shadow (pg : Page) : Bool :=
  match pg.blk with
  | .dev => false
  | .kvs | .att | .ckp => decide (pg.num = 0)
  | .fwi => decide (pg.num = 0)
  | .prt | .vif | .hlk | .dlk | .rng | .syn | .mlr | .rma | .ept | .pkt | .pmu | .sch | .num | .xrd | .sto | .cph | .trs
  | .clk | .pwr | .flt => true

/-- PG_CAP.CTR_N (R494). -/
def Page.ctrN (pg : Page) : Nat :=
  if pg.blk = .dev ∨ pg.blk = .prt ∨ pg.emulated = true then 0 else 8

/-- PG_CAP.CLOCK: PMU pages of Skovra cores run on CORE, those of control cores on CTL (R421). -/
def Page.clock (pg : Page) : Nat := if pg.blk = .pmu ∧ 64 ≤ pg.num then 4 else pg.blk.clock

/-- PG_ID.SIZE in units of 4 KiB. -/
def Page.size (pg : Page) : Nat := if pg.blk = .prt ∨ pg.blk = .flt then 2 else 1

/-- The block's own registers on a page: instance 1 of KVS, ATT and CKP defines STAT only. -/
def Page.ownRegs (pg : Page) : List RegDef :=
  match pg.blk with
  | .dev => devRegs | .prt => prtRegs | .vif => vifRegs | .hlk => hlkRegs | .dlk => dlkRegs | .rng => rngRegs
  | .syn => synRegs | .mlr => mlrRegs | .rma => rmaRegs | .ept => eptRegs | .pkt => pktRegs | .pmu => pmuRegs
  | .fwi => if pg.emulated then vipRegs else fwiRegs
  | .sch => schRegs | .num => numRegs | .xrd => xrdRegs
  | .kvs => if pg.num = 0 then kvsRegs else kvsRegs.filter (fun r => r.off = 0x170)
  | .att => if pg.num = 0 then attRegs else attRegs.filter (fun r => r.off = 0x140)
  | .ckp => if pg.num = 0 then ckpRegs else ckpRegs.filter (fun r => r.off = 0x170)
  | .sto => stoRegs | .cph => cphRegs | .trs => trsRegs | .clk => clkRegs | .pwr => pwrRegs | .flt => fltRegs

/-- CTR_SEL0 to CTR_SEL7 (R24, R494); on PMU pages they are PMSEL0 to PMSEL7 with the level filter of R418. -/
def Page.ctrSel (pg : Page) : RegDef :=
  ⟨0x700, pg.ctrN, 8, pg.shadow, if pg.blk = .pmu then 0x3000000000000000 else 0,
   if pg.blk = .pmu then 0xF80000000000FFFF else 0xC00000000000FFFF, 0, 0⟩

/-- The registers of the common header that hold state (R24 and "Common header registers"): PG_CTRL, PG_STAT, SWAP_STAT,
INT_STAT, INT_EN, ERR_MASK. -/
def headRegs : List RegDef :=
  [
    ⟨0x010, 1, 0, false, 0, 0x1, 0, 0⟩,
    ⟨0x018, 1, 0, false, 0, 0, 0x8000000000000000, 0⟩,
    ⟨0x028, 1, 0, false, 0, 0, 0xF0, 0⟩,
    ⟨0x030, 1, 0, false, 0, 0, 0xFFFFFFFFFFFFFF0F, 0⟩,
    ⟨0x038, 1, 0, false, 0, 0xFFFFFFFFFFFFFF0F, 0, 0⟩,
    ⟨0x048, 1, 0, false, 0, 0xFFFFFFFFFFFFFFFF, 0, 0⟩
  ]

/-- Every register of a page that a read or a write reaches at its live offset, ERR_STAT and the header's computed words
apart. -/
def Page.regs (pg : Page) : List RegDef :=
  headRegs ++ pg.ownRegs ++ (if pg.ctrN = 0 then [] else [pg.ctrSel, ⟨0xF00, pg.ctrN, 8, false, 0, 0xFFFFFFFFFFFF, 0x8000000000000000, 0⟩])

/-- Whether a register or array of registers covers an offset. -/
def RegDef.covers (d : RegDef) (off : Nat) : Bool :=
  if d.n ≤ 1 ∧ d.stride = 0 then decide (off = d.off)
  else decide (d.off ≤ off) && decide (off < d.off + d.n * d.stride) && decide ((off - d.off) % d.stride = 0)

/-- The register at a live offset. -/
def Page.regAt (pg : Page) (off : Nat) : Option RegDef := pg.regs.find? (fun d => d.covers off)

/-- The live offsets of the staged registers of a page, rising within each register. -/
def Page.staged (pg : Page) : List Nat :=
  if pg.shadow then
    (pg.regs.filter (fun d => d.staged)).flatMap (fun d => (List.range d.n).map (fun i => d.off + i * d.stride))
  else []

/-- What a stored word reads as when nothing has been written since reset: the reset value of the register at off, at its
shadow's offset off + 0x700, or of its copy in the previous set at off + 0x8000 (R36 step 1). -/
def Page.resetAt (pg : Page) (off : Nat) : Word :=
  let live := if 0x8000 ≤ off then off - 0x8000 else off
  match pg.regAt live with
  | some d => d.reset
  | none =>
    if 0x800 ≤ live ∧ live < 0xF00 then
      match pg.regAt (live - 0x700) with
      | some d => if d.staged then d.reset else 0
      | none => 0
    else 0

/-- The key of a page's word in State.regs. -/
def Page.key (pg : Page) (off : Nat) : Nat := (pg.blk.code * 65536 + pg.num) * 65536 + off

/-- A page with only one number. -/
abbrev Blk.page (b : Blk) : Page := ⟨b, 0⟩

end Sys2Proof

namespace Sys2Proof.Machine

/-- The stored word of a page. -/
def State.reg (s : State) (pg : Page) (off : Nat) : Word := (Tab.find s.regs (pg.key off)).getD (pg.resetAt off)

/-- Store a word of a page; the reset value is kept by listing nothing. -/
def State.setReg (s : State) (pg : Page) (off : Nat) (v : Word) : State :=
  { s with regs := Tab.set (pg.resetAt off) s.regs (pg.key off) v }

end Sys2Proof.Machine
end

