-- ==== Sys2Proof/Machine/Operands.lean ====
section
/-! DEFINITION. The forms in which commands name things: bytes and words in memory, status codes, descriptor fields, and
the BAR0 address map. -/

namespace Sys2Proof

/-- The byte order of R6: n bytes of a number, least significant first. -/
def leBytes (n v : Nat) : List Byte :=
  match n with
  | 0 => []
  | n + 1 => BitVec.ofNat 8 v :: leBytes n (v / 256)

/-- The number that bytes spell, least significant first. -/
def leNat (bs : List Byte) : Nat :=
  match bs with
  | [] => 0
  | b :: r => b.toNat + 256 * leNat r

/-- The number that bytes spell in network byte order (R6). -/
def beNat (bs : List Byte) : Nat := bs.foldl (fun a b => a * 256 + b.toNat) 0

/-- n bytes of a number in network byte order. -/
def beBytes (n v : Nat) : List Byte := (leBytes n v).reverse

/-- The eight bytes of a word. -/
def Word.bytes (w : Word) : List Byte := leBytes 8 w.toNat

/-- A word from a number. -/
abbrev Word.of (n : Nat) : Word := BitVec.ofNat 64 n

/-- The bytes of several words. -/
def wordsBytes (ws : List Word) : List Byte := ws.flatMap Word.bytes

/-- The words that bytes spell, n of them; missing bytes read as 0. -/
def bytesWords (n : Nat) (bs : List Byte) : List Word :=
  match n with
  | 0 => []
  | n + 1 => Word.of (leNat (bs.take 8)) :: bytesWords n (bs.drop 8)

/-- Word i of a list, 0 beyond its end. -/
def wordAt (ws : List Word) (i : Nat) : Word := ws.getD i 0

/-- Field [hi:lo] of word i of a list. -/
def wf (ws : List Word) (i hi lo : Nat) : Nat := Word.field (wordAt ws i) hi lo

/-- Bit k of word i of a list. -/
def wb (ws : List Word) (i k : Nat) : Bool := Word.bit (wordAt ws i) k

/-- The code of a completion status (R97). -/
def Status.code : Status → Nat
  | .ok => 0x00 | .accessViolation => 0x01 | .state => 0x02 | .resource => 0x03 | .format => 0x04 | .timeout => 0x05
  | .peerViolation => 0x06 | .integrity => 0x07 | .abortedByReset => 0x08 | .pageNotReady => 0x09 | .poisoned => 0x0A
  | .notAborted => 0x0B | .version => 0x0C

/-- The status of a code, where the code is one of R97. -/
def Status.ofCode (c : Nat) : Option Status :=
  match c with
  | 0x00 => some .ok | 0x01 => some .accessViolation | 0x02 => some .state | 0x03 => some .resource
  | 0x04 => some .format | 0x05 => some .timeout | 0x06 => some .peerViolation | 0x07 => some .integrity
  | 0x08 => some .abortedByReset | 0x09 => some .pageNotReady | 0x0A => some .poisoned | 0x0B => some .notAborted
  | 0x0C => some .version
  | _ => none

/-- The first failing check decides (R39): the status of the first true condition, OK when none holds. -/
def firstFail (cs : List (Bool × Status)) : Status :=
  match cs with
  | [] => .ok
  | (b, st) :: r => if b then st else firstFail r

/-- Whether a list of words has a bit set outside the given masks, word by word (reserved bits of R99). -/
def reservedSet (ws masks : List Word) : Bool :=
  match masks with
  | [] => false
  | m :: ms => decide ((ws.headD 0) &&& ~~~m ≠ 0) || reservedSet (ws.drop 1) ms

/-! ## Common fields of a descriptor (R98) -/

/-- TAG. -/
def dTag (ws : List Word) : Nat := wf ws 0 63 48
/-- WAIT_SYNC. -/
def dWaitSync (ws : List Word) : Nat := wf ws 0 47 34
/-- SIG_SYNC. -/
def dSigSync (ws : List Word) : Nat := wf ws 0 33 20
/-- WAIT_EN. -/
def dWaitEn (ws : List Word) : Bool := wb ws 0 19
/-- SIG_EN. -/
def dSigEn (ws : List Word) : Bool := wb ws 0 18
/-- SIG_ON_ERR. -/
def dSigOnErr (ws : List Word) : Bool := wb ws 0 17
/-- CPL_SUPPRESS. -/
def dSuppress (ws : List Word) : Bool := wb ws 0 16
/-- FENCE. -/
def dFence (ws : List Word) : Bool := wb ws 0 15
/-- ENGINE. -/
def dEngine (ws : List Word) : Nat := wf ws 0 14 8
/-- OPCODE. -/
def dOpcode (ws : List Word) : Nat := wf ws 0 7 0
/-- WAIT_VALUE. -/
def dWaitValue (ws : List Word) : Word := wordAt ws 1

/-! ## The BAR0 address map (R20 to R22, R107, R116, 03_partitions.md) -/

/-- Where an offset of operator BAR0 leads. -/
inductive Bar0 where
  | directory (off : Nat)
  | page (pg : Page) (off : Nat)
  | doorbell (ring : Nat)
  | viDoorbell (vi slot : Nat)
  | aperture (off : Nat)
  | nothing
  deriving DecidableEq, Repr

/-- Index of a page in the page directory of R21, emulated control pages included (they follow FWI instance 0). -/
def Page.dirIndex (pg : Page) : Nat :=
  if pg.emulated then 112 + (pg.num - 0x1000) else if pg.src ≤ 111 then pg.src else pg.src + 4096

/-- Number of entries of the page directory (R20): the 127 pages and the 4,096 emulated control pages. -/
def dirEntries : Nat := 127 + 4096

/-- The page of a directory entry. -/
def Page.ofDir (i : Nat) : Option Page :=
  if i ≤ 111 then Page.ofSrc i
  else if i < 112 + 4096 then some ⟨.fwi, 0x1000 + (i - 112)⟩
  else Page.ofSrc (i - 4096)

/-- The 4 KiB units that the pages before directory position n take (PRT and FLT take two). -/
def pageUnitsBefore (n : Nat) : Nat := if 1 < n then n + 1 else n

/-- BAR0 offset of a page: pages lie one after another from 0x0001_0000 in directory order (DESIGN CHOICE: the spec leaves
the offsets to the directory; assumption 12); emulated control pages lie where 03_partitions.md puts them. -/
def Page.offset (pg : Page) : Nat :=
  if pg.emulated then 0x10001000 + (pg.num - 0x1000) * 0x2000 else 0x10000 + 0x1000 * pageUnitsBefore pg.src

/-- The directory position whose page holds 4 KiB unit u after 0x0001_0000, and the unit within that page. -/
def unitPage (u : Nat) : Nat × Nat :=
  if u ≤ 1 then (u, 0) else if u = 2 then (1, 1) else if u = 128 then (126, 1) else (u - 1, 0)

/-- Decode an offset of operator BAR0. -/
def bar0Decode (off : Nat) : Bar0 :=
  if off < 0x10000 then .directory off
  else if off < 0x10000 + 0x1000 * 129 then
    let u := unitPage ((off - 0x10000) / 0x1000)
    match Page.ofSrc u.1 with
    | some pg => .page pg (u.2 * 0x1000 + off % 0x1000)
    | none => .nothing
  else if 0x08000000 ≤ off ∧ off < 0x08000000 + 8 * 131072 then .doorbell ((off - 0x08000000) / 8)
  else if 0x0C000000 ≤ off ∧ off < 0x0C040000 then .aperture (off - 0x0C000000)
  else if 0x10000000 ≤ off ∧ off < 0x10000000 + 4096 * 0x2000 then
    let v := (off - 0x10000000) / 0x2000
    let r := (off - 0x10000000) % 0x2000
    if r < 0x1000 then .viDoorbell v (r / 8) else .page ⟨.fwi, 0x1000 + v⟩ (r - 0x1000)
  else .nothing

end Sys2Proof
end

