-- ==== Sys2Proof/Machine/Crypto.lean ====
section
/-! DEFINITION. The algorithms that the spec names by their standards: AES-GCM (NIST SP 800-38D), ChaCha20-Poly1305 (RFC
8439), AES-XTS (IEEE 1619) and AES-KW (RFC 3394) of R340 and R352, and SHA-384 and HMAC (R360 to R366). -/

namespace Sys2Proof

/-! ## AES -/

/-- Bytes XORed pairwise; the shorter list decides the length. -/
def xorBytes (a b : List Byte) : List Byte := List.zipWith (fun x y => x ^^^ y) a b

/-- n zero bytes. -/
def zeros (n : Nat) : List Byte := List.replicate n 0

/-- The AES S-box, byte i at bits [8i + 7 : 8i]. -/
def sboxBits : Nat := 0x16BB54B00F2D99416842E6BF0D89A18CDF2855CEE9871E9B948ED9691198F8E19E1DC186B95735610EF6034866B53E708A8BBD4B1F74DDE8C6B4A61C2E2578BA08AE7A65EAF4566CA94ED58D6D37C8E779E4959162ACD3C25C2406490A3A32E0DB0B5EDE14B8EE4688902A22DC4F816073195D643D7EA7C41744975FEC130CCDD2F3FF1021DAB6BCF5389D928F40A351A89F3C507F02F94585334D43FBAAEFD0CF584C4A39BECB6A5BB1FC20ED00D153842FE329B3D63B52A05A6E1B1A2C830975B227EBE28012079A059618C323C7041531D871F1E5A534CCF73F362693FDB7C072A49CAFA2D4ADF04759FA7DC982CA76ABD7FE2B670130C56F6BF27B777C63

/-- The inverse S-box. -/
def invSboxBits : Nat := 0x7D0C2155631469E126D677BA7E042B17619953833CBBEBC8B0F52AAE4D3BE0A0EF9CC9939F7AE52D0D4AB519A97F51605FEC8027591012B131C7078833A8DD1FF45ACD78FEC0DB9A2079D2C64B3E56FC1BBE18AA0E62B76F89C5291D711AF1476EDF751CE837F9E28535ADE72274AC9673E6B4F0CECFF297EADC674F4111913A6B8A130103BDAFC1020F3FCA8F1E2CD00645B3B80558E4F70AD3BC8C00ABD890849D8DA75746155EDAB9EDFD5048706C92B6655DCC5CA4D41698688664F6F87225D18B6D49A25B76B224D92866A12E084EC3FA420B954CEE3D23C2A632947B54CBE9DEC444438E3487FF2F9B8239E37CFBD7F3819EA340BF38A53630D56A0952

/-- SubBytes of one byte. -/
def sbox (b : Byte) : Byte := BitVec.ofNat 8 (sboxBits / 2 ^ (8 * b.toNat))

/-- InvSubBytes of one byte. -/
def invSbox (b : Byte) : Byte := BitVec.ofNat 8 (invSboxBits / 2 ^ (8 * b.toNat))

/-- Multiplication by x in the AES field. -/
def xtime (b : Byte) : Byte := (b <<< 1) ^^^ (if b.toNat < 128 then 0 else 0x1B)

/-- Multiplication by a four-bit constant in the AES field. -/
def gmul (k : Nat) (b : Byte) : Byte :=
  (if k.testBit 0 then b else 0) ^^^ (if k.testBit 1 then xtime b else 0) ^^^
  (if k.testBit 2 then xtime (xtime b) else 0) ^^^ (if k.testBit 3 then xtime (xtime (xtime b)) else 0)

/-- The round constant of step j, from 1. -/
def rcon (j : Nat) : Byte :=
  match j with
  | 0 => 0
  | 1 => 1
  | j + 2 => xtime (rcon (j + 1))

/-- Add k words to a key schedule that holds i words. -/
def expandKey (nk : Nat) (ws : List (List Byte)) (i k : Nat) : List (List Byte) :=
  match k with
  | 0 => ws
  | k + 1 =>
    let prev := ws.getD (i - 1) []
    let t := if i % nk = 0 then xorBytes ((prev.drop 1 ++ prev.take 1).map sbox) [rcon (i / nk), 0, 0, 0]
      else if nk = 8 ∧ i % 8 = 4 then prev.map sbox else prev
    expandKey nk (ws ++ [xorBytes (ws.getD (i - nk) []) t]) (i + 1) k

/-- Consecutive pieces of n bytes, k of them. -/
def chunksOf (n k : Nat) (l : List Byte) : List (List Byte) :=
  match k with
  | 0 => []
  | k + 1 => l.take n :: chunksOf n k (l.drop n)

/-- The round keys of a 16- or 32-byte key. -/
def roundKeys (key : List Byte) : List (List Byte) :=
  let nk := key.length / 4
  let ws := expandKey nk (chunksOf 4 nk key) nk (4 * (nk + 7) - nk)
  chunksOf 16 (nk + 7) ws.flatten

/-- A permutation of a block's bytes. -/
def pick16 (b : List Byte) (m : Nat) : List Byte := (List.range 16).map (fun i => b.getD (m * i % 16) 0)

/-- One column of MixColumns with the constants of its first row. -/
def mixCol (k : List Nat) (c : List Byte) : List Byte :=
  (List.range 4).map (fun i => (List.range 4).foldl (fun a j => a ^^^ gmul (k.getD ((j + 4 - i) % 4) 0) (c.getD j 0)) 0)

/-- MixColumns of a block. -/
def mixCols (k : List Nat) (b : List Byte) : List Byte := (chunksOf 4 4 b).flatMap (mixCol k)

/-- Encrypt one block under round keys. -/
def aesEnc (rk : List (List Byte)) (b : List Byte) : List Byte :=
  let n := rk.length - 1
  let s := (List.range (n - 1)).foldl
    (fun s i => xorBytes (mixCols [2, 3, 1, 1] (pick16 (s.map sbox) 5)) (rk.getD (i + 1) [])) (xorBytes b (rk.getD 0 []))
  xorBytes (pick16 (s.map sbox) 5) (rk.getD n [])

/-- Decrypt one block under round keys. -/
def aesDec (rk : List (List Byte)) (b : List Byte) : List Byte :=
  let n := rk.length - 1
  let s := (List.range (n - 1)).foldl
    (fun s i => mixCols [14, 11, 13, 9] (xorBytes ((pick16 s 13).map invSbox) (rk.getD (n - 1 - i) [])))
    (xorBytes b (rk.getD n []))
  xorBytes ((pick16 s 13).map invSbox) (rk.getD 0 [])

/-! ## GCM -/

/-- Multiplication in the field of GHASH; a block is a number whose most significant bit is its first. -/
def ghMul (x y : Nat) : Nat :=
  ((List.range 128).foldl (fun (a : Nat × Nat) i =>
    (if x.testBit (127 - i) then a.1 ^^^ a.2 else a.1,
     if a.2 % 2 = 1 then (a.2 / 2) ^^^ (0xE1 * 2 ^ 120) else a.2 / 2)) (0, y)).1

/-- Add bytes, padded to whole blocks with zeros, to a GHASH. -/
def ghash (h acc : Nat) (bs : List Byte) : Nat :=
  (chunksOf 16 ((bs.length + 15) / 16) bs).foldl
    (fun a b => ghMul (a ^^^ beNat (b ++ zeros (16 - b.length))) h) acc

/-- The 96-bit nonce of a message (R343). -/
def nonce96 (salt : BitVec 32) (ctr : Word) : List Byte := beBytes 4 salt.toNat ++ beBytes 8 ctr.toNat

/-- XOR bytes with a key stream whose block i is given, from block number first, of n bytes each. -/
def streamXor (blk : Nat → List Byte) (n first : Nat) (bs : List Byte) : List Byte :=
  ((chunksOf n ((bs.length + n - 1) / n) bs).zipIdx).flatMap (fun c => xorBytes c.1 (blk (first + c.2)))

/-! ## ChaCha20 and Poly1305 -/

/-- Rotate a 32-bit number left. -/
def rotl32 (x n : Nat) : Nat := (x * 2 ^ n + x / 2 ^ (32 - n)) % 2 ^ 32

/-- One quarter round on four places of the state. -/
def quarter (s : List Nat) (a b c d : Nat) : List Nat :=
  let g := fun (s : List Nat) (x y z r : Nat) =>
    let v := (s.getD x 0 + s.getD y 0) % 2 ^ 32
    (s.set x v).set z (rotl32 (s.getD z 0 ^^^ v) r)
  g (g (g (g s a b d 16) c d b 12) a b d 8) c d b 7

/-- Two rounds. -/
def doubleRound (s : List Nat) : List Nat :=
  [(0, 4, 8, 12), (1, 5, 9, 13), (2, 6, 10, 14), (3, 7, 11, 15), (0, 5, 10, 15), (1, 6, 11, 12), (2, 7, 8, 13),
   (3, 4, 9, 14)].foldl (fun s q => quarter s q.1 q.2.1 q.2.2.1 q.2.2.2) s

/-- A number of n little-endian 32-bit words. -/
def leWords32 (n : Nat) (bs : List Byte) : List Nat := (chunksOf 4 n bs).map leNat

/-- Block i of the ChaCha20 key stream. -/
def chachaBlock (key nonce : List Byte) (i : Nat) : List Byte :=
  let s0 := [0x61707865, 0x3320646e, 0x79622d32, 0x6b206574] ++ leWords32 8 key ++ [i % 2 ^ 32] ++ leWords32 3 nonce
  let s := (List.range 10).foldl (fun s _ => doubleRound s) s0
  (List.zipWith (fun x y => leBytes 4 (x + y)) s s0).flatten

/-- Add bytes, padded to whole blocks with zeros, to a Poly1305 accumulator of r. -/
def poly1305 (r acc : Nat) (bs : List Byte) : Nat :=
  (chunksOf 16 ((bs.length + 15) / 16) bs).foldl
    (fun a b => (a + leNat (b ++ zeros (16 - b.length)) + 2 ^ 128) * r % (2 ^ 130 - 5)) acc

/-- r of a one-time key, clamped. -/
def polyR (otk : List Byte) : Nat := leNat (otk.take 16) &&& 0x0FFFFFFC0FFFFFFC0FFFFFFC0FFFFFFF

/-! ## The AEADs of R340, message by message -/

/-- Whether an ALG code is ChaCha20-Poly1305 (R340). -/
def algChacha (alg : Nat) : Bool := decide (alg = 2)

/-- Key bytes of an ALG code (R340). -/
def keyBytes (alg : Nat) : Nat := if alg = 0 then 16 else if alg = 3 then 64 else 32

/-- The hash key of a message: H of GCM, r of Poly1305. -/
def aeadHash (alg : Nat) (key nonce : List Byte) : Nat :=
  if algChacha alg then polyR (chachaBlock (key.take 32) nonce 0)
  else beNat (aesEnc (roundKeys (key.take (keyBytes alg))) (zeros 16))

/-- Add padded bytes to a message's authentication accumulator. -/
def aeadAbsorb (alg : Nat) (key nonce : List Byte) (acc : Nat) (bs : List Byte) : Nat :=
  if algChacha alg then poly1305 (aeadHash alg key nonce) acc bs else ghash (aeadHash alg key nonce) acc bs

/-- Encrypt or decrypt payload that lies off bytes into the message, off a multiple of 64. -/
def aeadStream (alg : Nat) (key nonce : List Byte) (off : Nat) (bs : List Byte) : List Byte :=
  if algChacha alg then streamXor (chachaBlock (key.take 32) nonce) 64 (1 + off / 64) bs
  else
    let rk := roundKeys (key.take (keyBytes alg))
    streamXor (fun i => aesEnc rk (nonce ++ beBytes 4 i)) 16 (2 + off / 16) bs

/-- The tag of a message from its accumulator and its lengths in bytes. -/
def aeadTag (alg : Nat) (key nonce : List Byte) (acc aadLen len : Nat) : List Byte :=
  if algChacha alg then
    let a := aeadAbsorb alg key nonce acc (leBytes 8 aadLen ++ leBytes 8 len)
    leBytes 16 (a + leNat (((chachaBlock (key.take 32) nonce 0).drop 16).take 16))
  else
    let a := aeadAbsorb alg key nonce acc (beBytes 8 (8 * aadLen) ++ beBytes 8 (8 * len))
    xorBytes (beBytes 16 a) (aesEnc (roundKeys (key.take (keyBytes alg))) (nonce ++ beBytes 4 1))

/-- Seal a whole message: ciphertext and tag. -/
def aeadSeal (alg : Nat) (key nonce aad plain : List Byte) : List Byte × List Byte :=
  let c := aeadStream alg key nonce 0 plain
  (c, aeadTag alg key nonce (aeadAbsorb alg key nonce (aeadAbsorb alg key nonce 0 aad) c) aad.length plain.length)

/-- Open a whole message: the plaintext where the tag verifies. -/
def aeadOpen (alg : Nat) (key nonce aad cipher tag : List Byte) : Option (List Byte) :=
  let t := aeadTag alg key nonce (aeadAbsorb alg key nonce (aeadAbsorb alg key nonce 0 aad) cipher) aad.length cipher.length
  if t = tag then some (aeadStream alg key nonce 0 cipher) else none

/-! ## AES-256-XTS (R348) -/

/-- A tweak times x. -/
def xtsNext (t : Nat) : Nat := if t < 2 ^ 127 then 2 * t else (2 * t - 2 ^ 128) ^^^ 0x87

/-- The blocks of one data unit. -/
def xtsBlocks (enc : Bool) (rk : List (List Byte)) (t : Nat) (k : Nat) (bs : List Byte) : List Byte :=
  match k with
  | 0 => []
  | k + 1 =>
    let w := leBytes 16 t
    let x := xorBytes (bs.take 16) w
    xorBytes (if enc then aesEnc rk x else aesDec rk x) w ++ xtsBlocks enc rk (xtsNext t) k (bs.drop 16)

/-- One data unit of number n. -/
def xtsUnit (enc : Bool) (key : List Byte) (n : Nat) (bs : List Byte) : List Byte :=
  xtsBlocks enc (roundKeys (key.take 32)) (leNat (aesEnc (roundKeys ((key.drop 32).take 32)) (leBytes 16 n)))
    (bs.length / 16) bs

/-- Data units of size du from unit first on. -/
def xtsUnits (enc : Bool) (key : List Byte) (du first : Nat) (bs : List Byte) : List Byte :=
  ((chunksOf du (bs.length / du) bs).zipIdx).flatMap (fun u => xtsUnit enc key (first + u.2) u.1)

/-! ## AES key wrap (R352) -/

/-- One step of wrapping: the check register and the registers. -/
def kwStep (rk : List (List Byte)) (n : Nat) (a : List Byte × List (List Byte)) (t : Nat) :
    List Byte × List (List Byte) :=
  let i := t % n
  let b := aesEnc rk (a.1 ++ a.2.getD i [])
  (xorBytes (b.take 8) (beBytes 8 (t + 1)), a.2.set i (b.drop 8))

/-- One step of unwrapping. -/
def kwUnstep (rk : List (List Byte)) (n : Nat) (a : List Byte × List (List Byte)) (t : Nat) :
    List Byte × List (List Byte) :=
  let i := t % n
  let b := aesDec rk (xorBytes a.1 (beBytes 8 (t + 1)) ++ a.2.getD i [])
  (b.take 8, a.2.set i (b.drop 8))

/-- Wrap n 8-byte registers. -/
def kwWrap (key : List Byte) (n : Nat) (plain : List Byte) : List Byte :=
  let r := (List.range (6 * n)).foldl (kwStep (roundKeys key) n) (List.replicate 8 0xA6, chunksOf 8 n plain)
  r.1 ++ r.2.flatten

/-- Unwrap n 8-byte registers; none where the integrity value fails. -/
def kwUnwrap (key : List Byte) (n : Nat) (wrapped : List Byte) : Option (List Byte) :=
  let r := ((List.range (6 * n)).reverse).foldl (kwUnstep (roundKeys key) n) (wrapped.take 8, chunksOf 8 n (wrapped.drop 8))
  if r.1 = List.replicate 8 0xA6 then some r.2.flatten else none

/-! ## SHA-384 and HMAC -/

/-- The 80 round constants, constant i at bits [64i + 63 : 64i]. -/
def shaK : Nat := 0x6C44198C4A4758175FCB6FAB3AD6FAEC597F299CFC657E2A4CC5D4BECB3E42B6431D67C49C100D4C3C9EBE0A15C9BEBC32CAAB7B40C7249328DB77F523047D841B710B35131C471B113F9804BEF90DAE0A637DC5A2C898A606F067AA72176FBAF57D4F7FEE6ED178EADA7DD6CDE0EB1ED186B8C721C0C207CA273ECEEA26619CC67178F2E372532BBEF9A3F7B2C67915A4506CEBDE82BDE990BEFFFA23631E288CC702081A6439EC84C87814A1F0AB7278A5636F43172F60748F82EE5DEFB2FC682E6FF3D6B2B8A35B9CCA4F7763E3734ED8AA4AE3418ACB391C0CB3C5C95A6334B0BCB5E19B48A82748774CDF8EEB991E376C085141AB5319A4C116B8D2D0C8106AA07032BBD1B8F40E35855771202AD69906245565A910D192E819D6EF5218C76C51A30654BE30C24B8B70D0F89791A81A664BBC423001A2BFE8A14CF1036492722C851482353B81C2C92E47EDAEE6766A0ABB3C77B2A8650A73548BAF63DE53380D139D95B3DF4D2C6DFC5AC42AED2E1B21385C26C92627B70A8546D22FFC142929670A0E6E7006CA6351E003826FD5A79147930AA725C6E00BF33DA88FC2BF597FC7BEEF0EE4B00327C898FB213FA831C66D2DB43210983E5152EE66DFAB76F988DA831153B55CB0A9DCBD41FBD44A7484AA6EA6E4832DE92C6F592B0275240CA1CC77AC9C650FC19DC68B8CD5B5EFBE4786384F25E3E49B69C19EF14AD2C19BF174CF6926949BDC06A725C7123580DEB1FE3B1696B172BE5D74F27B896F550C7DC3D5FFB4E2243185BE4EE4B28C12835B0145706FBED807AA98A3030242AB1C5ED5DA6D8118923F82A4AF194F9B59F111F1B605D0193956C25BF348B538E9B5DBA58189DBBCB5C0FBCFEC4D3B2F7137449123EF65CD428A2F98D728AE22

/-- Rotate a 64-bit number right. -/
def rotr64 (x n : Nat) : Nat := x / 2 ^ n + x * 2 ^ (64 - n) % 2 ^ 64

/-- Extend a message schedule by k words; the list holds the latest word first. -/
def shaSchedule (ws : List Nat) (k : Nat) : List Nat :=
  match k with
  | 0 => ws
  | k + 1 =>
    let x := ws.getD 14 0
    let y := ws.getD 1 0
    let s0 := rotr64 x 1 ^^^ rotr64 x 8 ^^^ (x / 2 ^ 7)
    let s1 := rotr64 y 19 ^^^ rotr64 y 61 ^^^ (y / 2 ^ 6)
    shaSchedule (((ws.getD 15 0 + s0 + ws.getD 6 0 + s1) % 2 ^ 64) :: ws) k

/-- One round on the eight working variables. -/
def shaRound (s : List Nat) (kw : Nat) : List Nat :=
  match s with
  | [a, b, c, d, e, f, g, h] =>
    let s1 := rotr64 e 14 ^^^ rotr64 e 18 ^^^ rotr64 e 41
    let ch := (e &&& f) ^^^ ((2 ^ 64 - 1 - e) &&& g)
    let t1 := h + s1 + ch + kw
    let s0 := rotr64 a 28 ^^^ rotr64 a 34 ^^^ rotr64 a 39
    let mj := (a &&& b) ^^^ (a &&& c) ^^^ (b &&& c)
    [(t1 + s0 + mj) % 2 ^ 64, a, b, c, (d + t1) % 2 ^ 64, e, f, g]
  | _ => s

/-- Take one 128-byte block into the hash state. -/
def shaBlock (h : List Nat) (b : List Byte) : List Nat :=
  let ws := (shaSchedule ((chunksOf 8 16 b).map beNat).reverse 64).reverse
  let s := (ws.zipIdx).foldl (fun s w => shaRound s (w.1 + shaK / 2 ^ (64 * w.2) % 2 ^ 64)) h
  List.zipWith (fun x y => (x + y) % 2 ^ 64) h s

/-- SHA-384. -/
def sha384 (m : List Byte) : List Byte :=
  let p := m ++ [0x80] ++ zeros ((239 - m.length % 128) % 128) ++ beBytes 16 (8 * m.length)
  let h := (chunksOf 128 (p.length / 128) p).foldl shaBlock
    [0xCBBB9D5DC1059ED8, 0x629A292A367CD507, 0x9159015A3070DD17, 0x152FECD8F70E5939, 0x67332667FFC00B31, 0x8EB44A8768581511, 0xDB0C2E0D64F98FA7, 0x47B5481DBEFA4FA4]
  ((h.take 6).map (beBytes 8)).flatten

/-- HMAC-SHA-384. -/
def hmac384 (key m : List Byte) : List Byte :=
  let k := if 128 < key.length then sha384 key else key
  let k := k ++ zeros (128 - k.length)
  sha384 (xorBytes k (List.replicate 128 0x5C) ++ sha384 (xorBytes k (List.replicate 128 0x36) ++ m))

end Sys2Proof
end

