-- ==== Sys2Proof/Machine/Curve.lean ====
section
/-! DEFINITION. ECDSA with SHA-384 on brainpoolP384r1 (18_trust_and_field_side.md R364, R369 to R372). The curve's constants
come from its standard (PRESUMED, assumption 25). -/

namespace Sys2Proof

/-- The field prime of brainpoolP384r1. -/
def curveP : Nat := 0x8CB91E82A3386D280F5D6F7E50E641DF152F7109ED5456B412B1DA197FB71123ACD3A729901D1A71874700133107EC53
/-- Coefficient A. -/
def curveA : Nat := 0x7BC382C63D8C150C3C72080ACE05AFA0C2BEA28E4FB22787139165EFBA91F90F8AA5814A503AD4EB04A8C7DD22CE2826
/-- Coefficient B. -/
def curveB : Nat := 0x04A8C7DD22CE28268B39B55416F0447C2FB77DE107DCD2A62E880EA53EEB62D57CB4390295DBC9943AB78696FA504C11
/-- The order of the base point. -/
def curveQ : Nat := 0x8CB91E82A3386D280F5D6F7E50E641DF152F7109ED5456B31F166E6CAC0425A7CF3AB6AF6B7FC3103B883202E9046565
/-- The base point. -/
def curveG : Nat × Nat :=
  (0x1D1C64F068CF45FFA2A63A81B7C13F6B8847A3E77EF14FE3DB7FCAFE0CBD10E8E826E03436D646AAEF87B2E247D4AF1E,
   0x8ABE1D7520F9C2A45CB1EB8E95CFD55262B70B29FEEC5864E19C054FF99129280E4646217791811142820341263C5315)

/-- b to the power e modulo m, by squaring over k bits of e. -/
def powMod (b e m k : Nat) : Nat :=
  match k with
  | 0 => 1 % m
  | k + 1 =>
    let r := powMod (b * b % m) (e / 2) m k
    if e % 2 = 1 then b * r % m else r

/-- The inverse modulo a prime of 384 bits. -/
def invMod (a m : Nat) : Nat := powMod (a % m) (m - 2) m 384

/-- Addition of points; none is the point at infinity. -/
def ptAdd (x y : Option (Nat × Nat)) : Option (Nat × Nat) :=
  match x, y with
  | none, y => y
  | x, none => x
  | some (x1, y1), some (x2, y2) =>
    if x1 = x2 ∧ (y1 + y2) % curveP = 0 then none
    else
      let l := if x1 = x2 then (3 * x1 * x1 + curveA) * invMod (2 * y1) curveP % curveP
        else (y2 + curveP - y1) * invMod (x2 + curveP - x1) curveP % curveP
      let x3 := (l * l + 2 * curveP - x1 - x2) % curveP
      some (x3, (l * (x1 + curveP - x3) + curveP - y1) % curveP)

/-- k times a point, over n bits of k. -/
def ptMul (k : Nat) (p : Option (Nat × Nat)) (n : Nat) : Option (Nat × Nat) :=
  match n with
  | 0 => none
  | n + 1 =>
    let r := ptMul (k / 2) (ptAdd p p) n
    if k % 2 = 1 then ptAdd p r else r

/-- Whether a point lies on the curve. -/
def onCurve (p : Nat × Nat) : Bool :=
  decide (p.1 < curveP) && decide (p.2 < curveP) &&
  decide (p.2 * p.2 % curveP = (p.1 * p.1 * p.1 + curveA * p.1 + curveB) % curveP)

/-- The point of an uncompressed SEC 1 encoding of 97 bytes. -/
def pointOf (bs : List Byte) : Option (Nat × Nat) :=
  let p := (beNat ((bs.drop 1).take 48), beNat ((bs.drop 49).take 48))
  if leNat (bs.take 1) = 4 ∧ bs.length = 97 ∧ onCurve p = true then some p else none

/-- The uncompressed SEC 1 encoding of a point. -/
def pointBytes (p : Nat × Nat) : List Byte := 4 :: beBytes 48 p.1 ++ beBytes 48 p.2

/-- Verify an ECDSA signature r, s over bytes under a public key of 97 bytes. -/
def ecdsaVerify (pub msg r s : List Byte) : Bool :=
  let rn := beNat r
  let sn := beNat s
  match pointOf pub with
  | none => false
  | some q =>
    if rn = 0 ∨ curveQ ≤ rn ∨ sn = 0 ∨ curveQ ≤ sn then false
    else
      let w := invMod sn curveQ
      let e := beNat (sha384 msg)
      match ptAdd (ptMul (e * w % curveQ) (some curveG) 384) (ptMul (rn * w % curveQ) (some q) 384) with
      | some p => decide (p.1 % curveQ = rn)
      | none => false

/-- Sign bytes with a private scalar and a number k below the order: r and s, 48 bytes each, most significant first. -/
def ecdsaSign (d : Nat) (msg : List Byte) (k : Nat) : List Byte × List Byte :=
  match ptMul k (some curveG) 384 with
  | some p =>
    let r := p.1 % curveQ
    (beBytes 48 r, beBytes 48 (invMod k curveQ * (beNat (sha384 msg) + r * d) % curveQ))
  | none => (beBytes 48 0, beBytes 48 0)

/-- The private scalar of a derived secret (R369): the secret itself, or, while that is out of range, the derivation repeated
with a counter byte. -/
def scalarOf (derive : List Byte → List Byte) (k i : Nat) (first : List Byte) : Nat :=
  match k with
  | 0 => 1
  | k + 1 => if 0 < beNat first ∧ beNat first < curveQ then beNat first else scalarOf derive k (i + 1) (derive [BitVec.ofNat 8 (i + 1)])

/-- The public key of a private scalar, as an uncompressed SEC 1 point. -/
def publicOf (d : Nat) : List Byte :=
  match ptMul d (some curveG) 384 with
  | some p => pointBytes p
  | none => []

end Sys2Proof
end

