-- ==== Sys2Proof/Config.lean ====
section
/-! DEFINITION. What the spec leaves open or leaves to standards that it names: constants without a body, of which no proof
can see the value. -/

namespace Sys2Proof

/-- Fresh random words (R361, the random bit generator): draw n of the device's own count of draws. -/
opaque Config.freeWord : Nat → Word

/-- The wrapping key that SP 800-108 in counter mode with HMAC-SHA-384 derives from the device wrapping key for a partition,
its WRAP_DOMAIN and the debug bit (R351): the spec leaves the encoding of the derivation input to the standard, so the key
is 32 bytes that no proof can see. -/
opaque Config.wrapKey : List Byte → Nat → Word → Bool → List Byte

/-- The decode attention engine's exp, tanh and ln of FP32 arguments (R284): fixed functions whose accuracy alone is given. -/
opaque Config.exp32 : BitVec 32 → BitVec 32
/-- tanh of the decode attention engine (R284). -/
opaque Config.tanh32 : BitVec 32 → BitVec 32
/-- The natural logarithm of the decode attention engine (R284). -/
opaque Config.ln32 : BitVec 32 → BitVec 32

/-- The identity bytes of NVMe Identify Controller (vendor, serial number, model, firmware revision), which the spec does not
give. -/
opaque Config.nvmeText : Nat → Byte
/-- VS of the NVMe controllers: a 2.x version that the spec does not give whole (R315). -/
opaque Config.nvmeVersion : BitVec 32
/-- CAP.TO of the NVMe controllers, which the spec does not give. -/
opaque Config.nvmeTimeout : BitVec 8
/-- Byte i of the SMART log at its n-th reading: the spec gives the page (R315) and none of its values. -/
opaque Config.smartByte : Nat → Nat → Byte

/-- Bytes of a port's ingress buffer, which the spec does not give (R177, R181). -/
opaque Config.ingressBytes : Nat

/-- Output frequency of an HBM PLL in MHz, which the spec leaves to the PHY (R435). -/
opaque Config.hbmPllMhz : Nat

/-- Severity of a source in the default table of Weir's image, modulo 5, which the spec leaves to the image (R470). -/
opaque Config.defaultSeverity : Nat → Nat

/-- Dwedaren's root public key, an uncompressed point, which the spec gives no place (R365); ROOT_HASH is checked over it. -/
opaque Config.rootKey : List Byte

/-- The firmware ABI version that an image of RUNTIME declares, which the spec gives no place (R370, R429). -/
opaque Config.abiVersion : List Byte → BitVec 32

/-- Whether a fused multiply-add of 0 × ∞ with a quiet NaN addend signals invalid: IEEE 754-2019, which R396 names, leaves it to
the implementation. -/
opaque Config.fmaInvalid : Bool

/-- The DER bytes of the certificates from DeviceID to AK (R369, R371), of which the spec gives the profile alone. -/
opaque Config.certChain : List Byte

/-- Whether the host's translation tables let a PASID (none for P0) reach len bytes at an address at NOC cycle n: the host's own,
which no register of the device shows (R60, R234). -/
opaque Config.hostReach : Option Nat → Nat → Nat → Nat → Bool

/-- Whether the completion of the n-th Translation Request finds the page present (R58, R61, R161). -/
opaque Config.atsPresent : Nat → Bool

/-- Byte i of the n-th record that the device stores in memory in a layout that the spec leaves open (R256). -/
opaque Config.openByte : Nat → Nat → Byte

end Sys2Proof
end

