-- ==== Sys2Proof/Machine/Base.lean ====
section
/-! DEFINITION. The operations that everything rests on: HBM, ownership, register pages and their status bits, counters, error
latching, host writes, interrupts, ring entries and events. -/

namespace Sys2Proof.Machine

/-! ## HBM (R44) -/

/-- Bytes of HBM: addresses 0x0 to 0x5F_FFFF_FFFF. -/
def hbmSize : Nat := 0x6000000000

/-- What a byte of HBM that nothing has written reads as (DESIGN CHOICE, assumption 3: R48 leaves it undefined). -/
def hbmFill : Byte := 0

/-- One byte of HBM. -/
def State.byte (s : State) (a : Nat) : Byte := Tab.get hbmFill s.hbm a

/-- Write one byte of HBM. -/
def State.setByte (s : State) (a : Nat) (b : Byte) : State := { s with hbm := Tab.set hbmFill s.hbm a b }

/-- n bytes of HBM from address a. -/
def State.bytes (s : State) (a n : Nat) : List Byte := (List.range n).map (fun i => s.byte (a + i))

/-- Write bytes to HBM from address a on. -/
def State.setBytes (s : State) (a : Nat) (bs : List Byte) : State :=
  match bs with
  | [] => s
  | b :: r => (s.setByte a b).setBytes (a + 1) r

/-- The little-endian word at an address. -/
def State.word (s : State) (a : Nat) : Word := Word.of (leNat (s.bytes a 8))

/-- Write a little-endian word. -/
def State.setWord (s : State) (a : Nat) (w : Word) : State := s.setBytes a w.bytes

/-- Set n bytes from address a to 0, which is what an unlisted byte reads as. -/
def State.zero (s : State) (a n : Nat) : State := { s with hbm := s.hbm.filter (fun e => e.1 < a ∨ a + n ≤ e.1) }

/-- n words from address a. -/
def State.words (s : State) (a n : Nat) : List Word := (List.range n).map (fun i => s.word (a + 8 * i))

/-- The 64-byte lines of an extent that hold a lasting fault (R469). -/
def State.badIn (s : State) (a n : Nat) : List Nat :=
  s.badLines.filter (fun l => decide (n ≠ 0) && decide (64 * l < a + n) && decide (a < 64 * l + 64))

/-- The first byte of an extent that a lasting fault takes. -/
def State.firstBad (s : State) (a n : Nat) : Option Nat :=
  match s.badIn a n with
  | [] => none
  | l :: r => some (max a (64 * r.foldl min l))

/-- The line at an address has failed a second read: its fault lasts (R469), for as long as the device is not reset (DESIGN
CHOICE, assumption 62). -/
def State.markBad (s : State) (a : Nat) : State :=
  if s.badLines.contains (a / 64) then s else { s with badLines := s.badLines ++ [a / 64] }

/-! ## Ownership (R42 to R45) -/

/-- The resource types of R42. -/
def tyGranule : Nat := 1
/-- Cache way. -/
def tyWay : Nat := 2
/-- Ring. -/
def tyRing : Nat := 3
/-- Sync object. -/
def tySync : Nat := 4
/-- Connection. -/
def tyConn : Nat := 5
/-- Cipher key context. -/
def tyKey : Nat := 6
/-- Meter. -/
def tyMeter : Nat := 7
/-- Scheduler leaf. -/
def tyLeaf : Nat := 8
/-- Virtual interface. -/
def tyVi : Nat := 9
/-- Confluence slot. -/
def tySlot : Nat := 10
/-- NVMe I/O queue pair. -/
def tyQp : Nat := 11
/-- Namespace. -/
def tyNs : Nat := 12
/-- Downstream port. -/
def tyPort : Nat := 13

/-- How many identifiers a resource type has (R42); 0 for a type that is not defined. -/
def tyCount (ty : Nat) : Nat :=
  match ty with
  | 1 => 1536 | 2 => 32 | 3 => 131072 | 4 => 16384 | 5 => 16777216 | 6 => 1048576 | 7 => 32768 | 8 => 131072
  | 9 => 4096 | 10 => 1048576 | 11 => 4096 | 12 => 1024 | 13 => 6
  | _ => 0

/-- Key of an identifier in the owner table. -/
def ownKey (ty id : Nat) : Nat := ty * 0x100000000 + id

/-- Who holds an identifier (cache ways, which several partitions share, are kept in Part.ways). -/
def State.own (s : State) (ty id : Nat) : Own :=
  if ty = 1 then Tab.get .awaiting s.gran id else Tab.get .free s.owner (ownKey ty id)

/-- Change who holds an identifier. -/
def State.setOwn (s : State) (ty id : Nat) (o : Own) : State :=
  if ty = 1 then { s with gran := Tab.set .awaiting s.gran id o }
  else { s with owner := Tab.set .free s.owner (ownKey ty id) o }

/-- The partition that owns an identifier, if one does. -/
def State.ownerOf (s : State) (ty id : Nat) : Option Nat :=
  match s.own ty id with
  | .owned p => some p
  | .free | .scrubbing _ | .awaiting => none

/-- Whether partition p owns an identifier. -/
def State.owns (s : State) (p ty id : Nat) : Bool := decide (s.own ty id = .owned p)

/-- The granule of an HBM address (R44). -/
def granule (a : Nat) : Nat := a / 0x10000000

/-- The HBM stack of a granule (R44). -/
def stack (g : Nat) : Nat := g / 192

/-- Whether len bytes from a lie in HBM, in granules that partition p owns. -/
def State.ownsHbm (s : State) (p a len : Nat) : Bool :=
  decide (a + len ≤ hbmSize) &&
  ((List.range (granule (a + (len - 1)) - granule a + 1)).all (fun i => s.owns p tyGranule (granule a + i)))

/-- The partition of a number. -/
def State.part (s : State) (p : Nat) : Part := Tab.get Part.free s.parts p

/-- Change a partition. -/
def State.setPart (s : State) (p : Nat) (x : Part) : State := { s with parts := Tab.set Part.free s.parts p x }

/-- The VI of a number. -/
def State.vi (s : State) (v : Nat) : Vi := Tab.get Vi.unbound s.vis v

/-- Change a VI. -/
def State.setVi (s : State) (v : Nat) (x : Vi) : State := { s with vis := Tab.set Vi.unbound s.vis v x }

/-- The ring of a number. -/
def State.ring (s : State) (r : Nat) : Ring := Tab.get Ring.reset s.rings r

/-- Change a ring. -/
def State.setRing (s : State) (r : Nat) (x : Ring) : State := { s with rings := Tab.set Ring.reset s.rings r x }

/-- The partition of a ring's work: its owner, P0 where nobody owns it. -/
def State.ringPart (s : State) (r : Nat) : Nat := (s.ownerOf tyRing r).getD 0

/-! ## Interrupts of PF0 and of pages (R28, R74, R77, R80) -/

/-- Whether the host link is frozen (HLK.FREEZE.FROZEN). -/
def State.frozen (s : State) : Bool := (s.reg Blk.hlk.page 0x110).bit 63

/-- PF0's D-state (HLK.LINK_STAT.DSTATE). -/
def State.dstate (s : State) : Nat := (s.reg Blk.hlk.page 0x108).field 47 46

/-- Whether the data plane is contained (plane 0 of R485). -/
def State.dataHeld (s : State) : Bool := s.flt.planes.contains 0

/-- The gate of a cluster. -/
def State.gate (s : State) (c : Nat) : Gate := Tab.get .reset s.cg.gates c

/-- Change the gate of a cluster. -/
def State.setGate (s : State) (c : Nat) (g : Gate) : State :=
  { s with cg := { s.cg with gates := Tab.insert s.cg.gates c g } }

/-- Whether a cluster's gate is closed (R10, R443, R444): its work waits at the gate. -/
def State.clusterStopped (s : State) (c : Nat) : Bool := !(s.gate c).isOpen

/-- The clock of a cluster (R443): CORE of its die, CTL, ENG of its die, NOC for the storage front end, else PKT. -/
def State.clusterClock (s : State) (c : Nat) : Nat :=
  if c < 4 then s.clk.core0 else if c < 8 then s.clk.core1 else if c < 10 then s.clk.ctl
  else if c = 10 ∨ c = 12 then s.clk.eng0 else if c = 11 ∨ c = 13 then s.clk.eng1
  else if c = 24 then s.clk.noc else s.clk.pkt

/-- The cycles that a cluster has run: what a duration in it counts (R4). -/
def State.cyc (s : State) (c : Nat) : Nat := (s.gate c).stopAt.getD (s.clusterClock c) - (s.gate c).missed

/-- Whether the host link may issue requests: link up, not frozen (R74), in D0 (R77), Bus Master Enable set (R72), data plane not
contained (R476), not in the safe state (R477). -/
def State.hostUp (s : State) : Bool :=
  (s.reg Blk.hlk.page 0x108).bit 63 && !s.frozen && decide (s.dstate = 0) && s.hlk.bme && !s.hlk.perst && !s.dataHeld &&
  !s.flt.safe

/-- Whether requests may carry a VI's PASID (R60): the VI is ENABLED or ORPHANED. -/
def State.viIssues (s : State) (v : Option Nat) : Bool :=
  match v with
  | none => true
  | some v => decide ((s.vi v).state = .enabled) || decide ((s.vi v).state = .orphaned)

/-- Put something on an output. -/
def State.emit (s : State) (o : Out) : State := { s with out := s.out ++ [o] }

/-- Whether a vector of PF0 is masked: MSI-X off, the function masked, or the vector not among the unmasked ones of the table
(R58, R80). -/
def State.msixMasked (s : State) (vec : Nat) : Bool :=
  !s.hlk.cfg.msixEn || s.hlk.cfg.msixMask || !(s.hlk.cfg.msixTable.any (fun e => e.1 = vec))

/-- Send an MSI-X message of PF0 with the address and data of its table entry; hold it while the link issues nothing (R74,
R77); keep it in the pending-bit array while it is masked (R58, R80). -/
def State.msix (s : State) (vec : Nat) : State :=
  if !s.hostUp then { s with hlk := { s.hlk with heldIrq := s.hlk.heldIrq ++ [vec] } }
  else if s.msixMasked vec then
    { s with hlk := { s.hlk with pba := if s.hlk.pba.contains vec then s.hlk.pba else s.hlk.pba ++ [vec] } }
  else
    match s.hlk.cfg.msixTable.find? (fun e => e.1 = vec) with
    | some e => s.emit (.msix vec e.2.1 e.2.2)
    | none => s

/-- Whether a page raises its unit interrupt (R28). -/
def State.pageIrq (s : State) (pg : Page) : Bool := decide (s.reg pg 0x30 &&& s.reg pg 0x38 ≠ 0)

/-- The MSI-X vector that HLK.VEC_MAP assigns to a page. -/
def State.pageVector (s : State) (pg : Page) : Nat := Tab.get 0 s.hlk.vecMap pg.dirIndex

/-- Send a page's unit interrupt (R80). -/
def State.sendPageIrq (s : State) (pg : Page) : State := s.msix (s.pageVector pg)

/-- Whether a page lies on the field die (R473, management plane). -/
def blkField (b : Blk) : Bool :=
  match b with
  | .dev | .trs | .clk | .pwr | .flt => true
  | .prt | .vif | .hlk | .dlk | .rng | .syn | .mlr | .rma | .ept | .pkt | .pmu | .fwi | .sch | .num | .xrd | .kvs | .att
  | .ckp | .sto | .cph => false

/-- Set INT_STAT bits; on a host-side page a message goes out when the interrupt goes from zero to non-zero (R80). -/
def State.intRaise (s : State) (pg : Page) (bits : Word) : State :=
  let s' := s.setReg pg 0x30 (s.reg pg 0x30 ||| bits)
  if !s.pageIrq pg && s'.pageIrq pg && !blkField pg.blk then s'.sendPageIrq pg else s'

/-! ## Counters (R24, R494, 20_cores_and_counters.md) -/

/-- Whether a page's counters freeze at a wrap: PMCTL.FRZ_OVF of the core of a PMU page (R420). -/
def State.freezeOnWrap (s : State) (pg : Page) : Bool :=
  decide (pg.blk = .pmu) && (Tab.get 0 (Tab.get Core.reset s.cores pg.num).sys 0x220).bit 1

/-- What a wrap of counter i brings about beyond OVF: a freeze where FRZ_OVF asks for it, and the interrupt where OVF_INT does. -/
def State.counterWrapped (s : State) (pg : Page) (i : Nat) : State :=
  let s1 := if s.freezeOnWrap pg then s.setReg pg 0x10 ((s.reg pg 0x10).setBit 0 true) else s
  if (s.reg pg (0x700 + 8 * i)).bit 62 then
    let s2 := s1.intRaise pg (Word.oneBit 2)
    if pg.blk = .pmu then s2.intRaise pg (Word.oneBit 8) else s2
  else s1

/-- Add n to counter i of a page, with wrap, OVF and CTR_OVF (R24, R418). -/
def State.counterAdd (s : State) (pg : Page) (i n : Nat) : State :=
  let w := s.reg pg (0xF00 + 8 * i)
  let c := w.field 47 0 + n
  let s' := s.setReg pg (0xF00 + 8 * i)
    (if 2 ^ 48 ≤ c then (w.setField 47 0 c).setBit 63 true else w.setField 47 0 c)
  if 2 ^ 48 ≤ c then s'.counterWrapped pg i else s'

/-- Count n occurrences of an event on every counter of the page that selects it, unless the page's counters are frozen. -/
def State.countHere (s : State) (pg : Page) (code n : Nat) : State :=
  if (s.reg pg 0x10).bit 0 then s
  else
    (List.range pg.ctrN).foldl
      (fun t i => if (t.reg pg (0x700 + 8 * i)).field 15 0 = code then t.counterAdd pg i n else t) s

/-! ## The barrier, sending (R14, R357, R359) -/

/-- The channel of a sender and a class (R359). -/
def State.chan (s : State) (side : Side) (cls : MsgClass) : BChan :=
  match side, cls with
  | .host, .fault => s.bar.hostToFieldF
  | .host, .mgmt => s.bar.hostToFieldM
  | .field, .fault => s.bar.fieldToHostF
  | .field, .mgmt => s.bar.fieldToHostM

/-- Change the channel of a sender and a class. -/
def State.setChan (s : State) (side : Side) (cls : MsgClass) (b : BChan) : State :=
  match side, cls with
  | .host, .fault => { s with bar := { s.bar with hostToFieldF := b } }
  | .host, .mgmt => { s with bar := { s.bar with hostToFieldM := b } }
  | .field, .fault => { s with bar := { s.bar with fieldToHostF := b } }
  | .field, .mgmt => { s with bar := { s.bar with fieldToHostM := b } }

/-- Put a frame on the barrier and keep it until it is acknowledged; it is counted on the TRS page. -/
def State.frameRaw (s : State) (side : Side) (cls : MsgClass) (typ : Nat) (payload : List Nat) : State :=
  let b := s.chan side cls
  let f : BFrame := { seq := b.nextSeq, typ := typ, payload := payload, sentAt := s.clk.fld, resends := 0 }
  ((s.setChan side cls { b with unacked := b.unacked ++ [f], nextSeq := (b.nextSeq + 1) % 65536 }).emit
    (.barrier side typ f.seq payload)).countHere Blk.trs.page 1 1

/-- An INT message of a field page, at once or once the window has room (R80, R358, R359). -/
def State.fieldIrq (s : State) (pg : Page) : State :=
  let b := s.chan .field .mgmt
  if s.trs.hostPower = false then s
  else if b.unacked.length < 8 ∧ b.waiting = [] then s.frameRaw .field .mgmt 0x18 [pg.src]
  else s.setChan .field .mgmt { b with waiting := b.waiting ++ [(0x18, [pg.src])] }

/-- The interrupt of a field page has gone from zero to non-zero since a state: an INT message crosses. -/
def State.intCross (s old : State) (pg : Page) : State :=
  if blkField pg.blk && !old.pageIrq pg && s.pageIrq pg then s.fieldIrq pg else s

/-- Put a frame on the barrier. -/
def State.frameOut (s : State) (side : Side) (cls : MsgClass) (typ : Nat) (payload : List Nat) : State :=
  (s.frameRaw side cls typ payload).intCross s Blk.trs.page

/-- Set INT_STAT bits; a message goes out when the interrupt goes from zero to non-zero, and that of a field page crosses the barrier
first (R80, R358). -/
def State.setInt (s : State) (pg : Page) (bits : Word) : State := (s.intRaise pg bits).intCross s pg

/-- Set one INT_STAT bit. -/
def State.setIntBit (s : State) (pg : Page) (b : Nat) : State := s.setInt pg (Word.oneBit b)

/-- Count n occurrences of an event of a page. -/
def State.count (s : State) (pg : Page) (code n : Nat) : State := (s.countHere pg code n).intCross s pg

/-- Count one occurrence of an event of a block with one page. -/
abbrev State.count1 (s : State) (b : Blk) (code : Nat) : State := s.count b.page code 1

/-- The raises of host-side pages that go out next, as many as there is room for, and the queue with them marked sent. -/
def sendHeld (q : List Held) (room : Nat) : List Held × List RaiseMsg :=
  match q with
  | [] => ([], [])
  | h :: r =>
    if h.fromField || h.sent || decide (room = 0) then
      let t := sendHeld r room
      (h :: t.1, t.2)
    else
      let t := sendHeld r (room - 1)
      ({ h with sent := true } :: t.1, h.msg :: t.2)

/-- The payload of a RAISE (R468). -/
def raisePayload (m : RaiseMsg) : List Nat :=
  [m.src, m.unit, m.part, if m.lasting then 1 else 0, m.count, m.elw.toNat]

/-- The raises held by host-side units cross as far as the fault class has room (R359, R468). -/
def State.sendRaises (s : State) : State :=
  let b := s.chan .host .fault
  if s.trs.hostPower && b.waiting.isEmpty then
    let t := sendHeld s.flt.queue (8 - b.unacked.length)
    t.2.foldl (fun u m => u.frameOut .host .fault 0x00 (raisePayload m)) { s with flt := { s.flt with queue := t.1 } }
  else s

/-- Send a barrier message: at most 8 frames of a class and direction are unacknowledged, and further ones wait (R359). While
the host side is unpowered nothing is sent to it. A raise that is ready goes before a management message (R14). -/
def State.barrierSend (s : State) (side : Side) (cls : MsgClass) (typ : Nat) (payload : List Nat) : State :=
  if side = .field ∧ s.trs.hostPower = false then s
  else
    let s0 := if side = .host ∧ cls = .mgmt then s.sendRaises else s
    let b := s0.chan side cls
    if b.unacked.length < 8 ∧ b.waiting = [] then s0.frameOut side cls typ payload
    else s0.setChan side cls { b with waiting := b.waiting ++ [(typ, payload)] }

/-! ## Errors (R28, R29, R466 to R468) -/

/-- Key of a unit's error latch word. -/
def elwKey (pg : Page) (unit : Nat) : Nat := (pg.blk.code * 65536 + pg.num) * 65536 + unit

/-- The error latch word of a unit. -/
def State.elw (s : State) (pg : Page) (unit : Nat) : Word := Tab.get 0 s.flt.elws (elwKey pg unit)

/-- ERR_STAT: the OR of the error latch words of the page's units (R466); bit 2 of CPH stays set until the device wrapping
key is installed (R362). -/
def State.errStat (s : State) (pg : Page) : Word :=
  (s.flt.elws.filter (fun e => e.1 / 65536 = pg.blk.code * 65536 + pg.num)).foldl (fun a e => a ||| e.2)
    (if pg.blk = .cph ∧ s.cph.dwk = none then 4 else 0)

/-- The number of a fault source (R467). -/
def srcOf (pg : Page) (bit : Nat) : Nat := pg.src * 64 + bit

/-- Whether a raise not yet sent is of the same unit of the same page. -/
def Held.sameUnit (h x : Held) : Bool :=
  !x.sent && decide (x.msg.src / 64 = h.msg.src / 64) && decide (x.msg.unit = h.msg.unit)

/-- Merge an occurrence into the last held raise of its unit: the count grows, and raises that name different partitions
name none (R468). -/
def mergeRaise (h : Held) (l : List Held) : List Held :=
  match l with
  | [] => []
  | x :: r =>
    if h.sameUnit x && !(r.any h.sameUnit) then
      { x with msg := { x.msg with count := x.msg.count + h.msg.count,
                                   part := if x.msg.part = h.msg.part then x.msg.part else 0x7F,
                                   lasting := x.msg.lasting || h.msg.lasting, elw := h.msg.elw } } :: r
    else x :: mergeRaise h r

/-- Hold a raise until it is sent: a unit holds 16, and a further occurrence is merged into its last (R468). The Bool says
whether it was merged. -/
def holdRaise (q : List Held) (h : Held) : List Held × Bool :=
  if (q.filter h.sameUnit).length < 16 then (q ++ [h], false) else (mergeRaise h q, true)

/-- An error of a unit: its ELW bit is set, INT_STAT.ERR follows unless masked, and a raise is held and sent (R466 to
R468). -/
def State.latch (s : State) (pg : Page) (unit bit part : Nat) (lasting : Bool) : State :=
  let old := s.errStat pg
  let e := s.elw pg unit ||| Word.oneBit bit
  let q := holdRaise s.flt.queue
    { msg := { src := srcOf pg bit, unit := unit, part := part, lasting := lasting, count := 1, elw := e },
      fromField := blkField pg.blk, sent := false }
  let s1 := { s with flt := { s.flt with elws := Tab.set 0 s.flt.elws (elwKey pg unit) e, queue := q.1 } }
  let s2 := if q.2 then s1.count1 .flt 4 else s1
  let s3 := if !old.bit bit && !(s.reg pg 0x48).bit bit then s2.setIntBit pg 3 else s2
  s3.sendRaises

/-- A lasting error of a page that serves no partition's work. -/
abbrev State.err (s : State) (b : Blk) (bit : Nat) : State := s.latch b.page 0 bit 0x7F true

/-- A lasting error met in the work of a partition. -/
abbrev State.errFor (s : State) (b : Blk) (bit p : Nat) : State := s.latch b.page 0 bit p true

/-! ## Refusals and swap status (R36, R39) -/

/-- Refuse a register command that has no completion: PG_STAT.REFUSED and REFUSED_OFF (R39). -/
def State.refuse (s : State) (pg : Page) (off : Nat) : State :=
  let w := s.reg pg 0x18
  let s' := s.setReg pg 0x18 ((w.setBit 63 true).setField 59 32 off)
  if w.bit 63 then s' else s'.setIntBit pg 1

/-- Set a refusal bit of SWAP_STAT; INT_STAT.SWAP_REFUSED follows when it goes from 0 to 1. -/
def State.swapFlag (s : State) (pg : Page) (b : Nat) : State :=
  let w := s.reg pg 0x28
  let s' := s.setReg pg 0x28 (w.setBit b true)
  if w.bit b then s' else s'.setIntBit pg 1

/-- SWAP_STAT.PENDING. -/
def State.swapPending (s : State) (pg : Page) : Bool := (s.reg pg 0x28).bit 0

/-- SWAP_STAT.APPLIED, the generation of the live set. -/
def State.applied (s : State) (pg : Page) : Nat := (s.reg pg 0x28).field 63 32

/-- A live register as a unit of work of generation gen sees it: the live set, or the previous set (R38). -/
def State.regFor (s : State) (pg : Page) (gen off : Nat) : Word :=
  if gen = s.applied pg then s.reg pg off else s.reg pg (off + 0x8000)

/-! ## Swap points (R36 to R38) -/

/-- PG_STAT.CONTAINED (R475, R476). -/
def State.pageContained (s : State) (pg : Page) : Bool :=
  s.flt.blocks.any (fun e => !e.2.isEmpty && decide ((Page.ofSrc e.1).map (fun p => p.blk) = some pg.blk)) ||
  s.flt.planes.contains (if blkField pg.blk then 2 else if pg.blk = .pmu ∧ pg.num < 64 then 1 else 0)

/-- Whether a page waits for its swap point; a contained block lets none come, nor does the safe state to a page of the host side. -/
def State.swapDue (s : State) (pg : Page) : Bool :=
  pg.exist && pg.shadow && s.swapPending pg && (!s.flt.safe || blkField pg.blk) && !s.pageContained pg

/-- The shadow of a staged register. -/
def State.shade (s : State) (pg : Page) (off : Nat) : Word := s.reg pg (off + 0x700)

/-- The shadow set is rejected: the live set stays (R37). -/
def State.swapReject (s : State) (pg : Page) (off : Nat) : State :=
  let s1 := s.setReg pg 0x28 (((s.reg pg 0x28).setBit 0 false).setBit 4 true)
  (s1.setReg pg 0x18 ((s1.reg pg 0x18).setField 59 32 (off + 0x700))).setIntBit pg 1

/-- Every shadow is copied into its live register (R36 step 5). -/
def State.swapLive (s : State) (pg : Page) : State :=
  let s1 := pg.staged.foldl (fun t o => t.setReg pg o (s.reg pg (o + 0x700))) s
  let w := s.reg pg 0x28
  (s1.setReg pg 0x28 ((w.setBit 0 false).setField 63 32 (w.field 63 32 + 1))).setIntBit pg 0

/-- The lowest live offset of a register that a list of checks at the swap fails. -/
def swapFail (checks : List (Nat × Bool)) : Option Nat := (checks.find? (fun c => c.2)).map (fun c => c.1)

/-- The swap of a boundary-model page that new work finds armed: the work is held until the swap point, which is the next cycle,
and is then taken under the set that applies (R38). -/
def State.swapFirst (s : State) (pg : Page) (checks : List (Nat × Bool)) : State :=
  if s.swapDue pg then
    match swapFail checks with
    | some off => s.swapReject pg off
    | none => s.swapLive pg
  else s

/-! ## Sync objects, part 1 (R114) -/

/-- The value of a sync object. -/
def State.syncVal (s : State) (o : Nat) : Word := Tab.get 0 s.sync o

/-- Store a sync object's value. -/
def State.setSync (s : State) (o : Nat) (v : Word) : State := { s with sync := Tab.set 0 s.sync o v }

/-! ## Host writes (R55, R60, R64) -/

/-- Set the dirty bit of one page of a VI (R55). -/
def State.dirtyPage (s : State) (v page : Nat) : State :=
  let x := s.vi v
  if page < 2 ^ x.logSize then
    let a := x.logBase + page / 8
    (s.setByte a (s.byte a ||| BitVec.ofNat 8 (2 ^ (page % 8)))).count1 .vif 2
  else (s.setVi v { x with logOvf := true }).count1 .vif 3

/-- Log the pages that a VI's write of len bytes touches (R55). -/
def State.dirty (s : State) (v addr len : Nat) : State :=
  if (s.vi v).logSize = 0 ∨ len = 0 then s
  else (List.range ((addr + (len - 1)) / 4096 - addr / 4096 + 1)).foldl (fun t i => t.dirtyPage v (addr / 4096 + i)) s

/-- The pieces that cover an extent, none across a multiple of m. -/
def pieces (m a len : Nat) : List (Nat × Nat) :=
  if len = 0 then []
  else (List.range ((a + (len - 1)) / m - a / m + 1)).map (fun i =>
    let lo := max a ((a / m + i) * m)
    let hi := min (a + len) ((a / m + i + 1) * m)
    (lo, hi - lo))

/-- Whether requests of P0 or of a VI may be issued on the host link now. -/
def State.hostReady (s : State) (v : Option Nat) : Bool := s.hostUp && s.viIssues v

/-- Issue a write on the host link for P0 (no VI) or a VI, in TLPs that do not cross a multiple of Max_Payload_Size (R58);
nothing is issued while the link or the VI may not issue. -/
def State.hostWrite (s : State) (v : Option Nat) (addr : Nat) (data : List Byte) : State :=
  if s.hostReady v then
    let s1 := match v with
      | none => s
      | some v => s.dirty v addr data.length
    (pieces s.hlk.cfg.maxPayload addr data.length).foldl
      (fun t p => (t.count1 .hlk 2).emit (.hostWrite v p.1 ((data.drop (p.1 - addr)).take p.2))) s1
  else s

/-- Write to memory that a command names: HBM, or host memory through a VI or P0. -/
def State.store (s : State) (hbm : Bool) (v : Option Nat) (addr : Nat) (data : List Byte) : State :=
  if hbm then s.setBytes addr data else s.hostWrite v addr data

/-! ## Interrupts of rings (R80, R113) -/

/-- Send vector n of a VI: held while the link issues nothing (R74, R77) or while it is masked (21_firmware.md, VEC_ADDR and
VEC_CTL). -/
def State.viVector (s : State) (v n : Nat) : State :=
  let ctl := s.reg ⟨.fwi, 0x1000 + v⟩ (0x208 + 16 * n)
  if !s.hostUp then { s with hlk := { s.hlk with heldVecs := s.hlk.heldVecs ++ [(v, n)] } }
  else if ctl.bit 32 then
    let x := s.vi v
    if x.heldVec.contains n then s else s.setVi v { x with heldVec := x.heldVec ++ [n] }
  else
    (s.hostWrite (some v) (s.reg ⟨.fwi, 0x1000 + v⟩ (0x200 + 16 * n)).toNat (leBytes 4 (ctl.field 31 0)))

/-- The interrupt of a completion or event ring (R113). -/
def State.ringIrq (s : State) (r : Ring) : State :=
  if r.irqEn then (if r.viEn then s.viVector r.vi r.vector else s.msix r.vector) else s

/-! ## Entries of rings (R103 to R105) -/

/-- Entries held by a ring: PROD − CONS modulo 2^32. -/
def Ring.count (r : Ring) : Nat := (r.prod + 2 ^ 32 - r.cons) % 2 ^ 32

/-- Whether a ring has room for one entry. -/
def Ring.room (r : Ring) : Bool := decide (r.count < 2 ^ r.logSize)

/-- PHASE of the entry at index i (R105). -/
def Ring.phaseAt (r : Ring) (i : Nat) : Bool := decide ((i / 2 ^ r.logSize) % 2 = 0)

/-- The VI that a ring's accesses carry: none for a P0 ring. -/
def Ring.viOf (r : Ring) : Option Nat := if r.viEn then some r.vi else none

/-- Whether the device can write a ring's memory now. -/
def State.ringReach (s : State) (r : Ring) : Bool := r.hbm || s.hostReady r.viOf

/-- Write one 32-byte entry at PROD with its PHASE bit and advance PROD (R103, R105). -/
def State.ringEntry (s : State) (n : Nat) (w0 w1 w2 w3 : Word) : State :=
  let r := s.ring n
  let data := wordsBytes [w0.setBit 63 (r.phaseAt r.prod), w1, w2, w3]
  let s1 := s.store r.hbm r.viOf (r.base + 32 * (r.prod % 2 ^ r.logSize)) data
  s1.setRing n { s1.ring n with prod := (r.prod + 1) % 2 ^ 32 }

/-- Write an entry and send the interrupt that an empty ring's first entry causes (R113). -/
def State.ringPut (s : State) (n : Nat) (w0 w1 w2 w3 : Word) : State :=
  let r := s.ring n
  let s1 := s.ringEntry n w0 w1 w2 w3
  if r.count = 0 then s1.ringIrq r else s1

/-! ## Wake events (R78) -/

/-- Signal wake on an event whose HLK.WAKE_EN bit is b, in D3hot or D3cold and with PME_En set; a frozen link
sends no message (R74). -/
def State.wake (s : State) (b : Nat) : State :=
  if s.hlk.pmeEn && (s.reg Blk.hlk.page 0x138).bit b then
    if s.hlk.d3cold then { s with hlk := { s.hlk with wakeN := false } }
    else if s.dstate = 3 ∧ s.frozen = false then s.emit .pmeMessage
    else s
  else s

/-! ## Events (R104, R111, R112) -/

/-- An event is lost for want of an ENABLED event ring (R112). -/
def State.eventLost (s : State) : State := (s.count1 .rng 6).err .rng 2

/-- Write an entry to an event ring; one of P0 in HBM is a wake event (R78). -/
def State.eventPut (s : State) (n : Nat) (w0 w1 w2 w3 : Word) : State :=
  let s1 := s.ringPut n w0 w1 w2 w3
  if (s.ring n).hbm && decide (s.ringPart n = 0) then s1.wake 0 else s1

/-- Whether a ring is an ENABLED event ring (R112). -/
def Ring.takesEvents (r : Ring) : Bool := decide (r.type = .event) && decide (r.state = .enabled)

/-- Write the OVERFLOW entry that a ring owes, once it has room (R111). -/
def State.overflow (s : State) (n : Nat) : State :=
  let r := s.ring n
  if r.takesEvents && decide (0 < r.dropped) && r.room && s.ringReach r then
    let s1 := s.eventPut n (((0 : Word).setField 47 32 0x0001).setField 31 0 n) (Word.of r.dropped) 0 0
    s1.setRing n { s1.ring n with dropped := 0 }
  else s

/-- Write an event to an event ring, behind the OVERFLOW entry that it owes: lost if it is no ENABLED event ring, dropped and
counted if it has no room (R111, R112). -/
def State.eventRing (s : State) (n typ : Nat) (st : Status) (obj : Nat) (w1 w2 w3 : Word) : State :=
  let s0 := s.overflow n
  let r := s0.ring n
  if !r.takesEvents then s0.eventLost
  else if r.room && decide (r.dropped = 0) && s0.ringReach r then
    s0.eventPut n ((((0 : Word).setField 55 48 st.code).setField 47 32 typ).setField 31 0 obj) w1 w2 w3
  else (s0.setRing n { r with dropped := min (r.dropped + 1) 0xFFFFFFFF }).count1 .rng 7

/-- Write an event to a partition's event ring, a ring that it still owns (R112). -/
def State.event (s : State) (p typ : Nat) (st : Status) (obj : Nat) (w1 w2 w3 : Word) : State :=
  match (s.part p).pevt with
  | some n => if s.owns p tyRing n then s.eventRing n typ st obj w1 w2 w3 else s.eventLost
  | none => s.eventLost

end Sys2Proof.Machine
end

