-- ==== Sys2Proof/Machine/Pools.lean ====
section
/-! DEFINITION. Cellar's pools and block tables as the rest of the device sees them: slots, handles, token counts, retired
pages and poison (13_cellar_kv_store.md, R252 to R256, R264, R266 to R269). -/

namespace Sys2Proof.Machine

/-! ## Pools (R253 to R255) -/

/-- Key of a pool: partition and pool number. -/
def poolKey (p n : Nat) : Nat := 4 * p + n

/-- A pool, where it has been set up. -/
def State.pool (s : State) (k : Nat) : Option Pool := Tab.find s.kvs.pools k

/-- Change a pool. -/
def State.updPool (s : State) (k : Nat) (f : Pool → Pool) : State :=
  { s with kvs := { s.kvs with pools := Tab.upd s.kvs.pools k f } }

/-- Slots per granule of a pool. -/
def Pool.perGran (x : Pool) : Nat := 268435456 / x.slot

/-- Slots of a pool. -/
def Pool.slots (x : Pool) : Nat := x.perGran * x.grans.length

/-- Address of a slot. -/
def Pool.slotAddr (x : Pool) (n : Nat) : Nat := x.grans.getD (n / x.perGran) 0 * 0x10000000 + n % x.perGran * x.slot

/-- The slots of a pool that are poisoned, withdrawn or excluded, each once (R267). -/
def Pool.bad (x : Pool) : List Nat := x.poison ++ x.excluded.filter (fun n => !x.poison.contains n)

/-- Whether a slot may be taken: not allocated, not poisoned, withdrawn or excluded. -/
def Pool.isFree (x : Pool) (n : Nat) : Bool := (Tab.find x.refs n).isNone && !x.poison.contains n && !x.excluded.contains n

/-- Free slots of a pool. -/
def Pool.free (x : Pool) : Nat :=
  x.slots - x.refs.length - (x.bad.filter (fun n => (Tab.find x.refs n).isNone)).length

/-- The lowest free slot among k slots from n on. -/
def Pool.lowest (x : Pool) (n k : Nat) : Option Nat :=
  match k with
  | 0 => none
  | k + 1 => if x.isFree n then some n else x.lowest (n + 1) k

/-- Take a slot from the first granule of the rotation that has one; k granules are tried (R254). -/
def Pool.take (x : Pool) (k : Nat) : Option (Nat × Pool) :=
  match k with
  | 0 => none
  | k + 1 =>
    match x.lowest (x.rot * x.perGran) x.perGran with
    | some n => some (n, { x with rot := (x.rot + 1) % x.grans.length, refs := Tab.insert x.refs n 1 })
    | none => Pool.take { x with rot := (x.rot + 1) % x.grans.length } k

/-- Take k slots, as far as the pool has them. -/
def Pool.takeMany (x : Pool) (k : Nat) : List Nat × Pool :=
  match k with
  | 0 => ([], x)
  | k + 1 =>
    match x.take x.grans.length with
    | some r =>
      let t := r.2.takeMany k
      (r.1 :: t.1, t.2)
    | none => ([], x)

/-- The KVS page whose die holds an address: stacks 0 to 3 lie at core die 0 (01_architecture.md). -/
def kvsPageOf (a : Nat) : Page := ⟨.kvs, if stack (granule a) < 4 then 0 else 1⟩

/-- KVS_POOL_LOW, once, when a pool's free slots fall below its LOW_WATER (R269). -/
def State.poolLow (s : State) (k : Nat) : State :=
  match s.pool k with
  | some x =>
    if x.lowWater ≤ x.free then s.updPool k (fun y => { y with lowSent := false })
    else if x.lowSent then s
    else
      ((s.updPool k (fun y => { y with lowSent := true })).setIntBit ⟨.kvs, 0⟩ 10).event (k / 4) 0x0150 .ok (k % 4)
        (Word.of x.free) 0 0
  | none => s

/-! ## The table area (R256) -/

/-- Store n bytes whose layout the spec leaves open: free values (assumption 125). -/
def State.openBytes (s : State) (a n : Nat) : State :=
  ({ s with free := s.free + 1 } : State).setBytes a ((List.range n).map (Config.openByte s.free))

/-- Bytes of allocator state that a partition's pools take: 4 per slot. -/
def State.allocBytes (s : State) (p : Nat) : Nat :=
  ((s.kvs.pools.filter (fun e => e.1 / 4 = p)).map (fun e => 4 * e.2.slots)).sum

/-- Where the allocator state of a slot lies: at the area's end, pool after pool (DESIGN CHOICE, assumption 22: the spec gives no
places within the area). -/
def State.slotState (s : State) (k n : Nat) : Option Nat :=
  (s.part (k / 4)).kvs.map (fun t => t.1 + t.2.1 - s.allocBytes (k / 4) + 4 * n +
    ((s.kvs.pools.filter (fun e => decide (e.1 / 4 = k / 4) && decide (e.1 < k))).map (fun e => 4 * e.2.slots)).sum)

/-- The allocator state of a slot is stored in the table area. -/
def State.slotStore (s : State) (k n : Nat) : State :=
  match s.slotState k n with
  | some a => s.openBytes a 4
  | none => s

/-- Allocate n slots of a pool that has them. -/
def State.allocSlots (s : State) (k n : Nat) : List Nat × State :=
  match s.pool k with
  | some x =>
    let r := x.takeMany n
    let s1 := r.1.foldl (fun t j => (t.count (kvsPageOf (x.slotAddr j)) 2 1).slotStore k j) (s.updPool k (fun _ => r.2))
    (r.1, s1.poolLow k)
  | none => ([], s)

/-- Release one reference to a slot; at 0 it is free again, or withdrawn if poisoned (R254, R267). -/
def State.releaseSlot (s : State) (k n : Nat) : State :=
  match s.pool k with
  | some x =>
    match Tab.find x.refs n with
    | some c =>
      if 1 < c then (s.updPool k (fun y => { y with refs := Tab.insert y.refs n (c - 1) })).slotStore k n
      else
        let s1 := (s.updPool k (fun y => { y with refs := Tab.erase y.refs n })).slotStore k n
        (if x.poison.contains n then s1 else s1.count (kvsPageOf (x.slotAddr n)) 3 1).poolLow k
    | none => s
  | none => s

/-! ## Sequences and block tables (R250, R252, R256) -/

/-- A free sequence record. -/
def Seq.free : Seq :=
  { state := .free, shape := { fmt := 0, layers := 0, g := 0, gh := 0, d := 0, sexpK := 0, sexpV := 0, maxBlk := 0, pool := 0 },
    extent := 0, lowTok := 0, dropper := none, users := [], deferred := [] }

/-- The sequence of a key. -/
def State.seq (s : State) (q : Nat) : Seq := Tab.get Seq.free s.kvs.seqs q

/-- Partition of a sequence key. -/
def seqPart (q : Nat) : Nat := q / 2 ^ 25

/-- Where a sequence's record of 64 bytes lies in the table area of its partition (R256). -/
def State.seqRecord (s : State) (q : Nat) : Option Nat :=
  match (s.part (seqPart q)).kvs with
  | some t => if q % 2 ^ 25 < t.2.2 then some (t.1 + 64 * (q % 2 ^ 25)) else none
  | none => none

/-- Change a sequence; a record that changes is stored in the table area. -/
def State.setSeq (s : State) (q : Nat) (x : Seq) : State :=
  let s1 : State := { s with kvs := { s.kvs with seqs := Tab.set Seq.free s.kvs.seqs q x } }
  if x = s.seq q then s1
  else
    match s.seqRecord q with
    | some a => s1.openBytes a 64
    | none => s1

/-- Bytes of a block (R252). -/
def Shape.blockBytes (h : Shape) : Nat :=
  if h.fmt = 1 then 64 * h.gh * h.d else if h.fmt = 3 then 32 * h.gh * h.d else 17 * h.gh * h.d

/-- Bytes of a layer's entry in an extent (R256). -/
def Shape.entryBytes (h : Shape) : Nat := 8 * ((8 + 4 * h.g * h.maxBlk + 7) / 8)

/-- Bytes of an extent, rounded up to 4 KiB. -/
def Shape.extentBytes (h : Shape) : Nat := (h.layers * h.entryBytes + 4095) / 4096 * 4096

/-- Address of a layer's entry. -/
def Seq.entry (x : Seq) (l : Nat) : Nat := x.extent + l * x.shape.entryBytes

/-- TOKENS of a layer. -/
def State.tokens (s : State) (x : Seq) (l : Nat) : Nat := leNat (s.bytes (x.entry l) 4)

/-- Set TOKENS of a layer. -/
def State.setTokens (s : State) (x : Seq) (l n : Nat) : State := s.setBytes (x.entry l) (leBytes 4 n)

/-- Address of a handle. -/
def Seq.handleAt (x : Seq) (l g b : Nat) : Nat := x.entry l + 8 + 4 * (g * x.shape.maxBlk + b)

/-- The slot that a handle names, where it is valid. -/
def State.handle (s : State) (x : Seq) (l g b : Nat) : Option Nat :=
  let h := leNat (s.bytes (x.handleAt l g b) 4)
  if h.testBit 31 then some (h % 2 ^ 30) else none

/-- Store a handle. -/
def State.setHandle (s : State) (x : Seq) (l g b : Nat) (v : Option Nat) : State :=
  s.setBytes (x.handleAt l g b) (leBytes 4 (match v with
    | some n => 2 ^ 31 + n
    | none => 0))

/-- Pool of a sequence. -/
def seqPool (q : Nat) (x : Seq) : Nat := poolKey (seqPart q) x.shape.pool

/-- Address of the block that a handle names. -/
def State.blockAt (s : State) (q : Nat) (x : Seq) (l g b : Nat) : Option Nat :=
  match s.handle x l g b, s.pool (seqPool q x) with
  | some n, some p => some (p.slotAddr n)
  | _, _ => none

/-- Whether the block of a handle is poisoned (R267). -/
def State.blockPoisoned (s : State) (q : Nat) (x : Seq) (l g b : Nat) : Bool :=
  match s.handle x l g b, s.pool (seqPool q x) with
  | some n, some p => p.poison.contains n
  | _, _ => false

/-- A request takes a sequence into use (R260): its number, and the state. -/
def State.useSeq (s : State) (q : Nat) : Nat × State :=
  let n := s.kvs.nextUse
  (n, ({ s with kvs := { s.kvs with nextUse := n + 1 } }).setSeq q { s.seq q with users := (s.seq q).users ++ [n] })

/-- Release the blocks that TRIM left to the requests that have now ended (R264). -/
def State.settleDeferred (s : State) (q : Nat) : State :=
  let x := s.seq q
  let due := x.deferred.filter (fun d => !(x.users.any (fun u => decide (u < d.1))))
  let s1 := s.setSeq q { x with deferred := x.deferred.filter (fun d => x.users.any (fun u => decide (u < d.1))) }
  (due.flatMap Prod.snd).foldl (fun t n => t.releaseSlot (seqPool q x) n) s1

/-- A request ends its use of a sequence. -/
def State.unuseSeq (s : State) (q n : Nat) : State :=
  (s.setSeq q { s.seq q with users := (s.seq q).users.filter (fun u => u ≠ n) }).settleDeferred q

/-! ## INGEST that stops (R257, R258) -/

/-- SEQ of a data body. -/
def kSeq (ws : List Word) : Nat := wf ws 3 63 32
/-- LAYER of a data body. -/
def kLayer (ws : List Word) : Nat := wf ws 4 47 40
/-- FIRST_TOK of a data body. -/
def kFirst (ws : List Word) : Nat := wf ws 3 31 0
/-- NTOK of a data body. -/
def kNtok (ws : List Word) : Nat := wf ws 4 63 48

/-- Clear the handles of a layer that name one of the given slots. -/
def State.clearHandles (s : State) (x : Seq) (l b0 b1 : Nat) (slots : List Nat) : State :=
  (List.range x.shape.g).foldl (fun t g =>
    (List.range (b1 + 1 - b0)).foldl (fun t i =>
      match t.handle x l g (b0 + i) with
      | some n => if slots.contains n then t.setHandle x l g (b0 + i) none else t
      | none => t) t) s

/-- The blocks that a stopped INGEST allocated are freed (R258). -/
def State.ingestUndo (s : State) (ws : List Word) (alloc : List Nat) : State :=
  let q := kSeq ws
  let x := s.seq q
  let s1 := s.clearHandles x (kLayer ws) (kFirst ws / 16) ((kFirst ws + kNtok ws - 1) / 16) alloc
  alloc.foldl (fun t n => t.releaseSlot (seqPool q x) n) s1

/-! ## Retired pages (R266 to R268) -/

/-- Whether an HBM page or its granule is retired. -/
def State.pageRetired (s : State) (a : Nat) : Bool :=
  s.kvs.retired.contains (a / 65536 * 65536) || s.kvs.retiredGran.contains (granule a)

/-- The slots of a pool that overlap len bytes at an address inside one granule. -/
def Pool.overlap (x : Pool) (a len : Nat) : List Nat :=
  let i := x.grans.findIdx (fun g => g = granule a)
  if i < x.grans.length then
    let o := a % 0x10000000
    (List.range ((o + len - 1) / x.slot - o / x.slot + 1)).filterMap (fun j =>
      if o / x.slot + j < x.perGran then some (i * x.perGran + o / x.slot + j) else none)
  else []

/-- Poison the slots of a pool that overlap an extent, and write KVS_POISONED (R266, R269). -/
def State.poisonPool (s : State) (k a len : Nat) : State :=
  match s.pool k with
  | some x =>
    let hit := x.overlap a len
    match hit with
    | [] => s
    | f :: _ =>
      let new := hit.filter (fun n => !x.poison.contains n)
      let s1 := s.updPool k (fun y => { y with poison := y.poison ++ new })
      let s2 := new.foldl (fun t n => (t.count (kvsPageOf (x.slotAddr n)) 9 1).slotStore k n) s1
      (s2.event (k / 4) 0x0151 .ok (k % 4 * 2 ^ 30 + f) (Word.of (a / 65536)) (Word.of (x.poison.length + new.length)) 0).poolLow k
  | none => s

/-- Poison every pool's slots that overlap an extent. -/
def State.poisonAt (s : State) (a len : Nat) : State :=
  (s.kvs.pools.map Prod.fst).foldl (fun t k => t.poisonPool k a len) s

/-- Enter the HBM page of an address in the retired-page table; a full table retires the whole granule (R266, R268). -/
def State.retirePage (s : State) (addr : Nat) : State :=
  let a := addr / 65536 * 65536
  if s.kvs.retired.contains a then s
  else if s.kvs.retired.length < 4096 then
    (({ s with kvs := { s.kvs with retired := s.kvs.retired ++ [a] } }).setIntBit (kvsPageOf a) 9).poisonAt a 65536
  else
    let g := granule a
    (({ s with kvs := { s.kvs with retiredGran := if s.kvs.retiredGran.contains g then s.kvs.retiredGran else s.kvs.retiredGran ++ [g] } }).latch (kvsPageOf a) 0 2 0x7F true).poisonAt
      (g * 0x10000000) 0x10000000

end Sys2Proof.Machine
end

