-- ==== Sys2Proof/Machine/Sync.lean ====
section
/-! DEFINITION. The operations over sync objects: the addition and the store, with the waits they release and the watches they
fire (06_rings_and_sync.md, R100, R102, R114 to R117). -/

namespace Sys2Proof.Machine

/-! ## Sync objects, part 2: waits, watches and the additions (R100, R102, R114, R115, R117) -/

/-- Whether a descriptor at the head of its ring waits on object o and its condition holds at value v. -/
def Desc.meets (d : Desc) (o : Nat) (v : Word) : Bool :=
  !d.released && d.headAt.isSome && d.bad.isNone && dWaitEn d.words && decide (dWaitSync d.words = o) &&
  decide ((dWaitValue d.words).toNat ≤ v.toNat)

/-- Release the wait at the head of a ring if its condition holds (R115). -/
def Ring.release (r : Ring) (o : Nat) (v : Word) : Ring :=
  match r.fetched with
  | d :: rest => if d.meets o v then { r with fetched := { d with released := true } :: rest } else r
  | [] => r

/-- Whether value v of an inbox's producer object meets the wait for its next request (R273). -/
def Inbox.meets (x : Inbox) (v : Word) : Bool := decide (x.taken + 1 ≤ (v - x.baseVal).toNat)

/-- Release the wait of an inbox on object o if its condition holds (R115, R273). -/
def Inbox.release (x : Inbox) (o : Nat) (v : Word) : Inbox :=
  if x.prodSync = o then { x with released := x.released || x.meets v } else x

/-- How many rings have a wait at their head that value v of object o releases. -/
def State.releaseCount (s : State) (o : Nat) (v : Word) : Nat :=
  (s.rings.filter (fun e => match e.2.fetched with
    | d :: _ => d.meets o v
    | [] => false)).length

/-- Fire watch w if it is armed on object o and the object's value has reached its threshold (R117). -/
def State.watch (s : State) (o w : Nat) : State :=
  let ctl := s.reg Blk.syn.page (0x100 + 16 * w)
  if ctl.bit 63 && decide (ctl.field 13 0 = o) &&
     decide ((s.reg Blk.syn.page (0x108 + 16 * w)).toNat ≤ (s.syncVal o).toNat) then
    let hit := s.reg Blk.syn.page 0x500
    let s1 := (s.setReg Blk.syn.page (0x100 + 16 * w) (ctl.setBit 63 false)).setReg Blk.syn.page 0x500 (hit.setBit w true)
    if hit.bit w then s1 else s1.setIntBit Blk.syn.page 8
  else s

/-- After an operation on object o: release the waits and fire the watches that its value meets (R115, R117). -/
def State.syncSettle (s : State) (o : Nat) : State :=
  let v := s.syncVal o
  let k := s.releaseCount o v
  let s1 := { s with rings := s.rings.map (fun e => (e.1, e.2.release o v)),
                     att := { s.att with inboxes := s.att.inboxes.map (fun e => (e.1, e.2.release o v)) } }
  let s2 := if k = 0 then s1 else s1.count Blk.syn.page 4 k
  (List.range 64).foldl (fun t w => t.watch o w) s2

/-- The checks of SYN at the swap (R117): a watch that is armed names an object of P0. -/
def State.synChecks (s : State) : List (Nat × Bool) :=
  (List.range 64).map (fun w =>
    (0x100 + 16 * w, (s.shade Blk.syn.page (0x100 + 16 * w)).bit 63 &&
      !s.owns 0 tySync ((s.shade Blk.syn.page (0x100 + 16 * w)).field 13 0)))

/-- Watches that a swap armed fire at once where their object has reached the threshold (R117). -/
def State.swapSyn (s : State) : State :=
  (List.range 64).foldl (fun t w => t.watch ((t.reg Blk.syn.page (0x100 + 16 * w)).field 13 0) w) s

/-- An operation of SYN is taken: after the swap, where one is armed (R38). -/
def State.synTake (s : State) : State :=
  if s.swapDue Blk.syn.page && (swapFail s.synChecks).isNone then (s.swapFirst Blk.syn.page s.synChecks).swapSyn
  else s.swapFirst Blk.syn.page s.synChecks

/-- ADD v to a sync object (R114): a wrap writes SYNC_WRAP to the object's owner and sets SYN ERR_STAT bit 0. -/
def State.syncAdd (s : State) (o : Nat) (v : Word) : State :=
  let s0 := s.synTake
  let old := s0.syncVal o
  let s1 := (s0.setSync o (old + v)).count1 .syn 1
  let s2 := s1.syncSettle o
  if old.toNat + v.toNat < 2 ^ 64 then s2
  else
    let s3 := s2.err .syn 0
    match s.ownerOf tySync o with
    | some p => s3.event p 0x0004 .ok o (Word.of (v.field 31 0)) 0 0
    | none => s3

/-- SET a sync object to v (R114). -/
def State.syncSet (s : State) (o : Nat) (v : Word) : State :=
  ((s.synTake.setSync o v).count1 .syn 2).syncSettle o

/-- READ a sync object: the value, and what the read leaves (R114). -/
def State.syncRead (s : State) (o : Nat) : Word × State := (s.syncVal o, s.synTake.count1 .syn 3)

end Sys2Proof.Machine
end

