-- ==== Sys2Proof/Machine/Drives.lean ====
section
/-! DEFINITION. The back-end drives and the cache of the storage front end: drive indices, extents, encrypted reads and writes of
namespace LBAs, staging pages and cached pages (16_storage_front_end.md R317 to R320, 15_kiln_checkpoint.md R300). -/

namespace Sys2Proof.Machine

/-! ## Drives (R318) -/

/-- The enabled NVMe endpoints behind the drive ports D0 and D1 (instances 4 and 5), in order of enumeration; the position in
this list is the drive index. -/
def State.driveList (s : State) : List (Nat × CfgFunc) :=
  [4, 5].flatMap (fun n => ((Tab.get DPort.reset s.dports n).enabled.filter (fun f => f.isNvme)).map (fun f => (n, f)))

/-- Whether a drive is present behind a READY port that P0 owns. -/
def State.driveOk (s : State) (i : Nat) : Bool :=
  match s.driveList[i]? with
  | some e => decide ((Tab.get DPort.reset s.dports e.1).state = .ready) && s.owns 0 tyPort e.1
  | none => false

/-- MiB and LBA size of a namespace of a drive. -/
def State.driveNs (s : State) (i bnsid : Nat) : Option (Nat × Nat) :=
  match s.driveList[i]? with
  | some e =>
    match e.2.nss.find? (fun n => decide (n.1 = bnsid)) with
    | some n => some (n.2.1, if n.2.2 then 4096 else 512)
    | none => none
  | none => none

/-! ## Namespaces (R317, R321) -/

/-- A namespace number whose contents are not defined. -/
def Ns.empty : Ns := { state := .empty, part := 0, nsid := 0, lba4k := false, key := 0, extents := [], deleting := false }

/-- A namespace. -/
def State.ns (s : State) (n : Nat) : Ns := Tab.get Ns.empty s.sto.nss n

/-- Change a namespace. -/
def State.setNs (s : State) (n : Nat) (x : Ns) : State := { s with sto := { s.sto with nss := Tab.set Ns.empty s.sto.nss n x } }

/-- LBA size of a namespace. -/
def Ns.lba (x : Ns) : Nat := if x.lba4k then 4096 else 512

/-- Bytes of a namespace. -/
def Ns.bytes (x : Ns) : Nat := (x.extents.map (fun e => e.mibs)).sum * 2 ^ 20

/-- LBAs of a namespace. -/
def Ns.lbas (x : Ns) : Nat := x.bytes / x.lba

/-- The namespace of a partition under a host NSID. -/
def State.nsOf (s : State) (p nsid : Nat) : Option Nat :=
  (s.sto.nss.find? (fun e => decide (e.2.state ≠ .empty) && decide (e.2.part = p) && decide (e.2.nsid = nsid))).map Prod.fst

/-- The pieces of a byte range that lie in each extent, in list order: extent, offset in it, offset in the namespace, length. -/
def extPieces (es : List Extent) (base off len : Nat) : List (Extent × Nat × Nat × Nat) :=
  match es with
  | [] => []
  | e :: r =>
    let n := e.mibs * 2 ^ 20
    let lo := max off base
    let hi := min (off + len) (base + n)
    (if lo < hi then [(e, lo - base, lo, hi - lo)] else []) ++ extPieces r (base + n) off len

/-! ## Commands to the drives (R319, R320) -/

/-- The key of a namespace's key context. -/
def State.nsKey (s : State) (x : Ns) : List Byte := (Tab.get Key.empty s.cph.keys x.key).key

/-- Issue one command to a drive for a piece of a namespace. -/
def State.driveCmd (s : State) (n : Nat) (x : Ns) (write fua : Bool) (use : DriveUse) (data : List Byte) (slba : Nat)
    (pc : Extent × Nat × Nat × Nat) : Nat × State :=
  let e := pc.1
  let bl := match s.driveNs e.drive e.bnsid with
    | some d => d.2
    | none => 512
  let did := s.sto.nextDid
  let lba := pc.2.2.1 / x.lba
  let bytes := if write then xtsUnits true (s.nsKey x) x.lba lba ((data.drop (pc.2.2.1 - slba * x.lba)).take pc.2.2.2) else []
  let s1 := s.count Blk.cph.page 4 (pc.2.2.2 / x.lba)
  let s2 := s1.emit (.drive did e.drive (if write then 1 else 2) e.bnsid ((e.firstMib * 2 ^ 20 + pc.2.1) / bl)
    (pc.2.2.2 / bl) fua bytes)
  (did, { s2 with sto := { s2.sto with
    nextDid := did + 1,
    drives := s2.sto.drives ++ [{ did := did, drive := e.drive, write := write, ns := n, lba := lba,
                                  count := pc.2.2.2 / x.lba, use := use }] } })

/-- Read or write a range of LBAs of a namespace on its drives: the numbers of the commands issued. -/
def State.driveIo (s : State) (n : Nat) (write fua : Bool) (slba nlb : Nat) (use : DriveUse) (data : List Byte) :
    List Nat × State :=
  let x := s.ns n
  (extPieces x.extents 0 (slba * x.lba) (nlb * x.lba)).foldl (fun a pc =>
    let r := a.2.driveCmd n x write fua use data slba pc
    (a.1 ++ [r.1], r.2)) ([], s)

/-! ## Staging areas (R300, R320) -/

/-- The 64 KiB pages of a partition's staging area that are not retired, in the order of its granules. -/
def State.stagePages (s : State) (p : Nat) : List Nat :=
  ((s.part p).stage.flatMap (fun g => (List.range 4096).map (fun i => g * 0x10000000 + i * 65536))).filter
    (fun a => !s.pageRetired a)

/-- The free pages of a staging area. -/
def State.stageFree (s : State) (p : Nat) : List Nat := (s.stagePages p).filter (fun a => !s.ckp.used.contains a)

/-- Mark pages as in use. -/
def State.usePages (s : State) (l : List Nat) : State := { s with ckp := { s.ckp with used := s.ckp.used ++ l } }

/-- Pages are free again. -/
def State.freePages (s : State) (l : List Nat) : State :=
  { s with ckp := { s.ckp with used := s.ckp.used.filter (fun a => !l.contains a) } }

/-! ## Cached pages (R320) -/

/-- LBAs of a cache page. -/
def Ns.perPage (x : Ns) : Nat := 65536 / x.lba

/-- The cached page of a namespace that holds a page number. -/
def State.cachePage (s : State) (n page : Nat) : Option CachePage :=
  s.sto.cache.find? (fun c => decide (c.ns = n) && decide (c.page = page))

/-- Change a cached page. -/
def State.updCache (s : State) (n page : Nat) (f : CachePage → CachePage) : State :=
  { s with sto := { s.sto with cache := s.sto.cache.map (fun c => if c.ns = n ∧ c.page = page then f c else c) } }

/-- The page numbers that a range of LBAs touches. -/
def Ns.pagesOf (x : Ns) (slba nlb : Nat) : List Nat :=
  if nlb = 0 then [] else
    (List.range ((slba + nlb - 1) / x.perPage + 1 - slba / x.perPage)).map (fun i => slba / x.perPage + i)

/-- Whether a cached page may make room: nothing dirty or on its way to a drive, and no command holds it. -/
def State.evictable (s : State) (c : CachePage) : Bool :=
  decide (c.dirty = []) && decide (c.writing = []) &&
  !(s.sto.cmds.any (fun m => m.held && decide (m.ns = c.ns) && ((s.ns m.ns).pagesOf m.slba m.nlb).contains c.page))

/-- Take n pages of a partition's staging area; clean cached pages make room, oldest first (DESIGN CHOICE, assumption 24). -/
def State.stageTake (s : State) (p n : Nat) : Option (List Nat × State) :=
  let free := s.stageFree p
  let clean := s.sto.cache.filter (fun c => decide ((s.ns c.ns).part = p) && s.evictable c)
  if free.length + clean.length < n then none
  else
    let out := clean.take (n - free.length)
    let s1 : State := { s with sto := { s.sto with cache := s.sto.cache.filter (fun c => !out.contains c) } }
    let s2 := s1.freePages (out.map (fun c => c.staging))
    let l := (s2.stageFree p).take n
    some (l, s2.usePages l)

/-- The staging address of a cached LBA. -/
def CachePage.at_ (c : CachePage) (x : Ns) (lba : Nat) : Nat := c.staging + lba % x.perPage * x.lba

/-- The bytes of an LBA that the cache holds. -/
def State.cacheRead (s : State) (n lba : Nat) : Option (List Byte) :=
  let x := s.ns n
  match s.cachePage n (lba / x.perPage) with
  | some c => if c.valid.contains (lba % x.perPage) then some (s.bytes (c.at_ x lba) x.lba) else none
  | none => none

/-- Write one LBA into its cached page; dirty says that the drives do not have it. -/
def State.cacheWrite (s : State) (n lba : Nat) (data : List Byte) (dirty : Bool) : State :=
  let x := s.ns n
  let i := lba % x.perPage
  match s.cachePage n (lba / x.perPage) with
  | some c =>
    (s.setBytes (c.at_ x lba) data).updCache n c.page (fun y =>
      { y with valid := y.valid.filter (fun j => j ≠ i) ++ [i],
               dirty := y.dirty.filter (fun j => j ≠ i) ++ (if dirty then [i] else []),
               writing := y.writing.filter (fun j => j ≠ i),
               dirtySeq := if dirty && decide (y.dirty = []) then s.sto.nextOrder else y.dirtySeq })
  | none => s

/-- A container write makes the cached copies of its LBAs void. -/
def State.cacheDrop (s : State) (n slba nlb : Nat) : State :=
  let x := s.ns n
  { s with sto := { s.sto with cache := s.sto.cache.map (fun c =>
      if c.ns = n then
        let keep (i : Nat) : Bool := !(decide (slba ≤ c.page * x.perPage + i) && decide (c.page * x.perPage + i < slba + nlb))
        { c with valid := c.valid.filter keep, dirty := c.dirty.filter keep, writing := c.writing.filter keep }
      else c) } }

end Sys2Proof.Machine
end

