-- ==== Sys2Proof/Machine/Steps.lean ====
section
/-! DEFINITION. What lies under several engines: connections by number with the packets they owe and the WRITEs that engines build
(R171), and checkpoint steps: their containers, the order of their writes, and their abandonment (15_kiln_checkpoint.md,
R302 to R306). -/

namespace Sys2Proof.Machine

/-! ## Connections -/

/-- A connection by ID. -/
def State.conn (s : State) (c : Nat) : Conn := Tab.get Conn.reset s.mlr.conns c

/-- Change a connection. -/
def State.setConn (s : State) (c : Nat) (x : Conn) : State :=
  { s with mlr := { s.mlr with conns := Tab.set Conn.reset s.mlr.conns c x } }

/-- Apply f to a connection. -/
def State.updConn (s : State) (c : Nat) (f : Conn → Conn) : State := s.setConn c (f (s.conn c))

/-- The payload bytes of an MTU code (R122). -/
def mtuBytes (code : Nat) : Nat := 1024 * 2 ^ (code % 4)

/-- Packets of an engine wait on their connection for the window and CWND (R132). -/
def State.connEnqueue (s : State) (c : Nat) (items : List TxItem) : State :=
  s.updConn c (fun x => { x with outq := x.outq ++ items })

/-- The 16-byte placement extension (R124). -/
def placeExt (rkey imm off : Nat) : List Byte := beBytes 4 rkey ++ beBytes 4 imm ++ beBytes 8 off

/-- The packets of a Millrace WRITE of data to a region at an offset, MTU-sized but the last; with last, the final one is a
WRITE_LAST that carries imm (R171). k bounds the number of packets. -/
def writeItems (k mtu : Nat) (last : Bool) (rkey imm off : Nat) (owner : PktOwner) (data : List Byte) : List TxItem :=
  match k with
  | 0 => []
  | k + 1 =>
    let fin := decide (data.length ≤ mtu)
    { typ := if fin && last then 2 else 1, ext := placeExt rkey (if fin && last then imm else 0) off,
      payload := data.take mtu, owner := owner } ::
    (if fin then [] else writeItems k mtu last rkey imm (off + mtu) owner (data.drop mtu))

/-- The packets of a WRITE of a whole buffer. -/
def writeAll (mtu : Nat) (last : Bool) (rkey imm off : Nat) (owner : PktOwner) (data : List Byte) : List TxItem :=
  writeItems (data.length / mtu + 1) mtu last rkey imm off owner data

/-- Whether packets of an owner are still to be sent or acknowledged on a connection. -/
def Conn.owes (x : Conn) (o : PktOwner) : Bool :=
  x.tx.any (fun p => decide (p.owner = o)) || x.outq.any (fun p => decide (p.owner = o))

/-- Forget the packets of an owner that have not been sent. -/
def Conn.dropQueued (x : Conn) (o : PktOwner) : Conn := { x with outq := x.outq.filter (fun p => decide (p.owner ≠ o)) }

/-! ## Region entries (R294, R295, R299) -/

/-- ADDR. -/
def rgAddr (e : List Word) : Nat := (wordAt e 0).toNat
/-- SPACE. -/
def rgSpace (e : List Word) : Nat := wf e 1 63 62
/-- DTYPE. -/
def rgType (e : List Word) : Nat := wf e 1 61 58
/-- NARROW. -/
def rgNarrow (e : List Word) : Nat := wf e 1 57 56
/-- NDIM. -/
def rgNdim (e : List Word) : Nat := wf e 1 55 52
/-- URGENCY. -/
def rgUrgency (e : List Word) : Nat := wf e 1 51 44
/-- FENCE. -/
def rgFence (e : List Word) : Nat := wf e 1 13 0
/-- TENSOR_ID. -/
def rgTensor (e : List Word) : Nat := wf e 2 31 0
/-- SHAPE of dimension i. -/
def rgShape (e : List Word) (i : Nat) : Nat := (wordAt e (8 + 3 * i)).toNat
/-- START of dimension i. -/
def rgStart (e : List Word) (i : Nat) : Nat := (wordAt e (9 + 3 * i)).toNat
/-- EXTENT of dimension i. -/
def rgExtent (e : List Word) (i : Nat) : Nat := (wordAt e (10 + 3 * i)).toNat

/-- n rounded up to a multiple of 4,096. -/
def up4k (n : Nat) : Nat := (n + 4095) / 4096 * 4096

/-- The staged length of a region's data (R299). -/
def stagedLen (narrow len : Nat) : Nat :=
  if narrow = 0 then len else if narrow = 1 then len / 2 else len / 4 + (len / 4 + 255) / 256

/-! ## Containers (R302, R303) -/

/-- One bit of CRC-64/XZ. -/
def crc64Bit (c : Nat) : Nat := if c % 2 = 1 then c / 2 ^^^ 0xC96C5795D7870F42 else c / 2

/-- CRC-64/XZ of bytes. -/
def crc64 (bs : List Byte) : Word :=
  let step (c : Nat) (b : Byte) : Nat := (List.range 8).foldl (fun x _ => crc64Bit x) (c ^^^ b.toNat)
  Word.of (bs.foldl step (2 ^ 64 - 1) ^^^ (2 ^ 64 - 1))

/-- A manifest entry (R302). -/
def Region.manifest (r : Region) : List Word :=
  let w1 := ((((0 : Word).setField 61 58 (rgType r.entry)).setField 57 56 (rgNarrow r.entry)).setField 55 52 (rgNdim r.entry))
  [Word.of r.off, w1, wordAt r.entry 2, wordAt r.entry 3, Word.of r.stored, r.crc, 0, 0] ++ (r.entry.drop 8).take 24

/-- The manifest before padding. -/
def Step.manifest (x : Step) : List Byte :=
  wordsBytes ([((0 : Word).setField 63 32 0x4B4C4E4D).setField 31 16 1, x.step, x.runId, Word.of x.regions.length, 0, 0, 0, 0] ++
    x.regions.flatMap Region.manifest)

/-- The container offset of the manifest. -/
def Step.manifestOff (x : Step) : Nat := 4096 + (x.regions.map (fun r => up4k r.stored)).sum

/-- Bytes of the container. -/
def Step.used (x : Step) : Nat := x.manifestOff + up4k (64 + 256 * x.regions.length)

/-- The commit block with its record (R303). -/
def Step.commit (x : Step) : List Byte :=
  let m := x.manifest
  let ws : List Word := [((0 : Word).setField 63 32 0x4B4C4E43).setField 31 16 1, x.step, x.runId, Word.of x.manifestOff,
    Word.of m.length, crc64 m, Word.of x.used]
  wordsBytes (ws ++ [crc64 (wordsBytes ws)]) ++ List.replicate 4032 0

/-! ## Steps (R293) -/

/-- A step context. -/
def State.stepOf (s : State) (sid : Nat) : Option Step := s.ckp.steps.find? (fun x => decide (x.sid = sid))

/-- Change a step context. -/
def State.updStep (s : State) (sid : Nat) (f : Step → Step) : State :=
  { s with ckp := { s.ckp with steps := s.ckp.steps.map (fun x => if x.sid = sid then f x else x) } }

/-- Whether a drive command writes a container of a step. -/
def DriveUse.ofStep (u : DriveUse) (sid : Nat) : Bool :=
  match u with
  | .kiln x _ => decide (x = sid)
  | .cmd _ _ | .page _ _ | .restore _ _ _ _ => false

/-- Whether a packet belongs to a step. -/
def PktOwner.ofStep (o : PktOwner) (sid : Nat) : Bool :=
  match o with
  | .step x _ => decide (x = sid)
  | .work _ _ _ | .serve _ | .emit _ _ _ | .response _ => false

/-- Whether a write that a step has issued has not ended. -/
def State.stepWrites (s : State) (x : Step) : Bool :=
  s.sto.drives.any (fun d => d.use.ofStep x.sid) ||
  (x.remote && ((s.conn x.conn).tx.any (fun p => p.owner.ofStep x.sid) ||
                (s.conn x.conn).outq.any (fun p => p.owner.ofStep x.sid)))

/-- The number under which a step issues the write of a phase other than the shards. -/
def phaseShard (phase : Nat) : Nat := 0x10000 + phase

/-- Whether one write of a step has not ended. -/
def State.stepWrite (s : State) (x : Step) (shard : Nat) : Bool :=
  s.sto.drives.any (fun d => decide (d.use = .kiln x.sid shard)) ||
  (x.remote && (s.conn x.conn).owes (.step x.sid shard))

/-- The staging pages that a step holds. -/
def Step.pages (x : Step) : List Nat := x.regions.flatMap (fun r => if r.acked then [] else r.pages)

/-- Issue a write of a step's container: a Millrace WRITE with LAST = 1, or drive writes with Force Unit Access (R304). -/
def State.stepIssue (s : State) (x : Step) (shard off : Nat) (data : List Byte) : State :=
  if x.remote then
    s.connEnqueue x.conn (writeAll (mtuBytes (s.conn x.conn).mtu) true x.target 0 (x.base + off) (.step x.sid shard) data)
  else
    ((s.cacheDrop x.target (x.base + off / 4096) (data.length / 4096)).driveIo x.target true true (x.base + off / 4096)
      (data.length / 4096) (.kiln x.sid shard) data).2

/-- The staged bytes of a region. -/
def State.staged (s : State) (r : Region) : List Byte := (r.pages.flatMap (fun a => s.bytes a 65536)).take r.stored

/-- Bytes padded with 0 to a multiple of 4,096. -/
def pad4k (bs : List Byte) : List Byte := bs ++ List.replicate (up4k bs.length - bs.length) 0

/-- Issue the shard of region i. -/
def State.shardIssue (s : State) (x : Step) (i : Nat) : State :=
  match x.regions[i]? with
  | some r =>
    (s.updStep x.sid (fun y => { y with regions := y.regions.modify i (fun z => { z with issued := true }) })).stepIssue x i
      r.off (pad4k (s.staged r))
  | none => s

/-- Whether an earlier-opened step of the same partition is still open (R304). -/
def State.earlierOpen (s : State) (x : Step) : Bool :=
  (s.ckp.steps.takeWhile (fun y => y.sid ≠ x.sid)).any (fun y => decide (y.part = x.part) && y.abandoned.isNone)

/-- Issue what a step's phase now allows (R304): copied shards in the order of their copies once the commit block is
invalidated, the manifest once every shard is acknowledged, the commit record once the manifest is and no earlier step of
the partition is open. -/
def State.stepAdvance (s : State) (sid : Nat) : State :=
  match s.stepOf sid with
  | some x =>
    if x.abandoned.isSome then s
    else if x.phase = 2 then
      let due := x.order.filter (fun i => match x.regions[i]? with
        | some r => r.copied && !r.issued
        | none => false)
      if x.regions.all (fun r => r.acked) then
        ((s.updStep sid (fun y => { y with phase := 3, phaseAcked := false })).stepIssue x (phaseShard 3) x.manifestOff
          (pad4k x.manifest))
      else due.foldl (fun t i => t.shardIssue x i) s
    else if decide (x.phase = 3) && x.phaseAcked && !s.earlierOpen x then
      (s.updStep sid (fun y => { y with phase := 4, phaseAcked := false })).stepIssue x (phaseShard 4) 0 x.commit
    else s
  | none => s

/-- The other steps of a partition go on when one of them commits or is abandoned. -/
def State.stepsAdvance (s : State) (p : Nat) : State :=
  (s.ckp.steps.filter (fun x => x.part = p)).foldl (fun t x => t.stepAdvance x.sid) s

/-! ## Abandonment (R305, R306) -/

/-- An abandoned step whose issued writes have ended frees its pages and its context (R305). -/
def State.stepSettle (s : State) (sid : Nat) : State :=
  match s.stepOf sid with
  | some x =>
    if x.abandoned.isSome && !s.stepWrites x then
      let s1 := s.freePages x.pages
      { s1 with ckp := { s1.ckp with steps := s1.ckp.steps.filter (fun y => y.sid ≠ sid) } }
    else s
  | none => s

/-- Every abandoned step is looked at. -/
def State.stepsSettle (s : State) : State := s.ckp.steps.foldl (fun t x => t.stepSettle x.sid) s

/-- Abandon a step (R305), but for the end of its STEP_OPEN: no further write, fences released, CKP_ABANDONED, pages freed
once the issued writes have ended; later steps of the partition go on. unknown says that the commit block's state is not
known (R306). -/
def State.stepMark (s : State) (sid : Nat) (st : Status) (unknown : Bool) : State :=
  match s.stepOf sid with
  | some x =>
    if x.abandoned.isSome then s
    else
      let s1 := s.updStep sid (fun y => { y with abandoned := some st })
      let s2 := (x.regions.filter (fun r => !r.copied)).foldl (fun t r => t.syncAdd (rgFence r.entry) 1) s1
      let s3 := if x.remote then s2.updConn x.conn (fun c => { c with outq := c.outq.filter (fun p => !p.owner.ofStep sid) })
        else s2
      let s4 := (s3.count1 .ckp 4).setIntBit Blk.ckp.page 9
      ((s4.event x.part 0x0170 .ok (x.step.toNat % 2 ^ 32) ((Word.of st.code).setBit 31 unknown) (Word.of x.base)
        (Word.of x.size)).stepSettle sid).stepsAdvance x.part
  | none => s

end Sys2Proof.Machine
end

