-- ==== Sys2Proof/Machine/Gates.lean ====
section
/-! DEFINITION. The clock gates of the clusters and the PLLs beneath them, as far as an access to a page opens them (R10, R33, R435
to R443). The meanings of the clock block's own rows are in Clocks.lean. -/

namespace Sys2Proof.Machine

/-! ## PLLs and multiplexers -/

/-- Whether a PLL's output runs. -/
def Pll.running (p : Pll) : Bool :=
  match p.state with
  | .locking | .testing | .stable => true
  | .off | .failed => false

/-- The PLL of a number. -/
def State.pll (s : State) (n : Nat) : Pll := Tab.get .reset s.cg.plls n

/-- Change a PLL. -/
def State.setPll (s : State) (n : Nat) (x : Pll) : State :=
  { s with cg := { s.cg with plls := Tab.insert s.cg.plls n x } }

/-- Whether the device has a PLL of this number (R435). -/
def pllExists (n : Nat) : Bool := decide (n < 24) && decide (n ≠ 15)

/-- Whether a PLL drives a CORE domain, with a multiplier (R435). -/
def pllCore (n : Nat) : Bool := [2, 3, 7, 8].contains n

/-- The core die of a CORE PLL. -/
def pllDie (n : Nat) : Nat := n / 5 % 2

/-- The PLLs that MODE can stop (R435). -/
def pllStoppable (n : Nat) : Bool := pllCore n || [6, 11, 12].contains n

/-- PLL_CTL of a PLL. -/
def State.pllCtl (s : State) (n : Nat) : Word := s.reg Blk.clk.page (0x200 + 8 * n)

/-- MODE of a PLL: 0 AUTO, 1 ON, 2 OFF. -/
def State.pllMode (s : State) (n : Nat) : Nat := (s.pllCtl n).field 63 62

/-- The multiplexer of a core die. -/
def State.mux (s : State) (d : Nat) : Mux := if d = 0 then s.cg.mux0 else s.cg.mux1

/-- Change the multiplexer of a core die. -/
def State.setMux (s : State) (d : Nat) (m : Mux) : State :=
  { s with cg := if d = 0 then { s.cg with mux0 := m } else { s.cg with mux1 := m } }

/-- CORE_SEL of a core die. -/
def State.coreSel (s : State) (d : Nat) : Bool := (s.reg Blk.clk.page 0x140).bit d

/-- The PLL of a core die's source: CORE_A or CORE_B. -/
def corePll (d : Nat) (b : Bool) : Nat := (if d = 0 then 2 else 7) + (if b then 1 else 0)

/-- The top MULT of a voltage bin (23_power_and_thermal.md). -/
def binTop (b : Nat) : Nat :=
  match b with
  | 0 => 20
  | 1 => 28
  | 2 => 32
  | _ => 36

/-- The voltage bin of a MULT. -/
def binOf (m : Nat) : Nat := if m ≤ 20 then 0 else if m ≤ 28 then 1 else if m ≤ 32 then 2 else 3

/-- The MULT limit of a core die that PWR.CTRL_STAT reports: the controller's, firmware's, and bin 3's withdrawal
(R439, R458, R465). -/
def State.maxMult (s : State) (d : Nat) : Nat :=
  min (min (if d = 0 then s.pwr.capMult0 else s.pwr.capMult1) (if d = 0 then s.pwr.fwMult0 else s.pwr.fwMult1))
    (if s.pwr.bin3 then 36 else 32)

/-- The MULT that a core PLL is to run at, the wear meter's grant apart: the lower of its own and the limit (R439). -/
def State.wantMult (s : State) (n : Nat) : Nat := min ((s.pllCtl n).field 47 40) (s.maxMult (pllDie n))

/-- The MULT that a core PLL is to run at: within 32 while no charged hour runs (R464). -/
def State.pllTarget (s : State) (n : Nat) : Nat :=
  min (s.wantMult n) (if s.clk.aon < s.pwr.hourEnd then 36 else 32)

/-- The bin of a core die's rail (R460). -/
def State.railBin (s : State) (d : Nat) : Nat := if d = 0 then s.pwr.railBin0 else s.pwr.railBin1

/-- The rail of a core die begins to rise to a higher bin. -/
def State.railRaise (s : State) (d : Nat) : State :=
  { s with pwr := if d = 0 then { s.pwr with railUp0 := true } else { s.pwr with railUp1 := true } }

/-- Start a PLL: it locks (R436). A core PLL starts at its target as far as the rail allows. -/
def State.pllStart (s : State) (n : Nat) : State :=
  let m := if pllCore n then min (s.pllTarget n) (binTop (s.railBin (pllDie n))) else 0
  let s1 := if pllCore n && decide (m < s.pllTarget n) then s.railRaise (pllDie n) else s
  (s1.setPll n { Pll.reset with state := .locking, mult := m, since := s.clk.refin, slewAt := s.clk.refin }).count1 .clk 3

/-- Stop a PLL. -/
def State.pllStop (s : State) (n : Nat) : State :=
  (s.setPll n { s.pll n with state := .off, run := 0, mult := 0 }).count1 .clk 4

/-! ## Ring groups (R423), whose cores answer for the emulated pages -/

/-- A ring group: unless it has moved, group g is served by control core 64 + g modulo 16 (DESIGN CHOICE, assumption 82: the
spec leaves the balance to firmware). -/
def State.ringGroup (s : State) (g : Nat) : RingGroup := Tab.get { core := 64 + g % 16, journal := [] } s.fwi.groups g

/-- Change a ring group. -/
def State.setRingGroup (s : State) (g : Nat) (x : RingGroup) : State :=
  { s with fwi := { s.fwi with groups := Tab.insert s.fwi.groups g x } }

/-! ## Gates (R442 to R447) -/

/-- The PLL whose clock a cluster runs on (R435, R443). -/
def State.clusterPll (s : State) (c : Nat) : Nat :=
  if c < 8 then corePll (c / 4) (s.mux (c / 4)).used
  else match c with
  | 8 => 4
  | 9 => 9
  | 10 | 12 => 6
  | 11 | 13 => 11
  | 24 => 14
  | _ => 12

/-- A cluster's gate goes up; it counts cycles again, those that it missed left out (R4, R417). -/
def State.gateUp (s : State) (c : Nat) : State :=
  let g := s.gate c
  let miss := match g.stopAt with
    | some a => g.missed + (s.clusterClock c - a)
    | none => g.missed
  (s.setGate c { g with isOpen := true, waking := false, opens := (g.opens + 1) % 2 ^ 32, since := s.clk.aon, stopAt := none,
                        missed := miss }).count1 .clk 1

/-- A cluster's gate closes. -/
def State.gateClose (s : State) (c : Nat) : State :=
  let g := s.gate c
  (s.setGate c { g with isOpen := false, since := s.clk.aon, stopAt := some (g.stopAt.getD (s.clusterClock c)) }).count1 .clk 2

/-- Work or an access has arrived for a closed cluster that may open (R10, R33, R443, R447): its PLL starts where it stopped under
AUTO, and the gate opens once the PLL is STABLE. -/
def State.wakeCluster (s : State) (c : Nat) : State :=
  let n := s.clusterPll c
  if (s.pll n).state = .stable then s.gateUp c
  else if (s.pll n).state = .off ∧ s.pllMode n ≠ 2 then (s.setGate c { s.gate c with waking := true }).pllStart n
  else s.setGate c { s.gate c with waking := true }

/-- The cluster whose gate an access to a page opens (R33, R443); the page of the packet pipelines stands for
the first of their clusters, and the operator page of firmware for the first control-core cluster (DESIGN CHOICE, assumption 135); the
core that serves a VI answers for its page (R424). -/
def State.pageCluster (s : State) (pg : Page) : Option Nat :=
  match pg.blk with
  | .fwi => some (if 0x1000 ≤ pg.num then (s.ringGroup (pg.num - 0x1000)).core / 8 else 8)
  | .pmu => some (pg.num / 8)
  | .att => some (10 + pg.num)
  | .kvs | .ckp => some (12 + pg.num)
  | .num => some 12
  | .pkt => some 14
  | .mlr | .rma => some 20
  | .cph => some 21
  | .xrd => some 22
  | .sch => some 23
  | .sto => some 24
  | .dev | .prt | .vif | .hlk | .dlk | .rng | .syn | .ept | .trs | .clk | .pwr | .flt => none

/-- An access reaches a page whose cluster's gate may be closed (R33): it opens the gate, that of a held cluster for the access
alone (R444). -/
def State.pageAccess (s : State) (pg : Page) : State :=
  match s.pageCluster pg with
  | none => s
  | some c =>
    let g := s.gate c
    if g.isOpen || !s.trs.hostPower then s
    else if g.held then (if (s.pll (s.clusterPll c)).state = .stable ∧ g.retained = false then (s.gateUp c).gateClose c else s)
    else if g.retained then s.setGate c { g with waking := true }
    else s.wakeCluster c

end Sys2Proof.Machine
end

