-- ==== Sys2Proof/Machine/Ops.lean ====
section
/-! DEFINITION. The shared operations over descriptors and commands: completion entries, work in progress, page
commands, and time. Every chapter's meanings are written over these and those of Base.lean. -/

namespace Sys2Proof.Machine

/-! ## Completion entries (R102, R103, R110) -/

/-- The addition that ends a descriptor, where its conditions hold (R102). -/
def State.signalOf (s : State) (c : Cpl) : State :=
  match c.signal with
  | some o => if s.owns c.part tySync o then s.syncAdd o 1 else s
  | none => s

/-- Write a completion entry to its ring, make its addition, and then send the interrupt due (R102, R113). -/
def State.cplWrite (s : State) (cring : Nat) (c : Cpl) : State :=
  let w0 := ((((0 : Word).setField 55 48 c.status.code).setField 47 40 c.engine).setField 39 23 c.ring).setField 15 0 c.tag
  let w1 := ((Word.of c.idx).setField 31 0 c.idx).setField 63 32 (if c.status = .ok then 0 else c.detail.toNat)
  let r := s.ring cring
  let s1 := (s.ringEntry cring w0 w1 c.r0 c.r1).signalOf c
  if r.count = 0 then s1.ringIrq r else s1

/-- Whether a completion ring takes an entry now. -/
def State.cplReady (s : State) (cring : Nat) : Bool :=
  let r := s.ring cring
  decide (r.state = .enabled) && r.room && s.ringReach r

/-- End a descriptor towards software: the entry is written, or suppressed, or held behind a full, disabled or unreachable
completion ring, and then the addition is made (R102, R110). -/
def State.complete (s : State) (cring : Nat) (c : Cpl) : State :=
  if c.suppress && decide (c.status = .ok) then s.signalOf c
  else if s.cplReady cring && decide ((s.ring cring).held = []) then s.cplWrite cring c
  else
    let r := s.ring cring
    s.setRing cring { r with held := r.held ++ [c] }

/-- Whether an entry of this status takes the addition (R102): SIG_EN, and OK or SIG_ON_ERR, and not ABORTED_BY_RESET from one of
the causes that make none. -/
def signalObj (words : List Word) (st : Status) (noSignal : Bool) : Option Nat :=
  if dSigEn words && (!noSignal || decide (st ≠ .abortedByReset)) && (decide (st = .ok) || dSigOnErr words) then some (dSigSync words) else none

/-! ## Work in progress -/

/-- The started descriptor of a ring and index. -/
def State.workAt (s : State) (ring idx : Nat) : Option Work :=
  s.work.find? (fun w => decide (w.ring = ring) && decide (w.idx = idx))

/-- Change the started descriptor of a ring and index. -/
def State.updWork (s : State) (ring idx : Nat) (f : Work → Work) : State :=
  { s with work := s.work.map (fun w => if w.ring = ring ∧ w.idx = idx then f w else w) }

/-- Whether a failure of this descriptor abandons the message of its key context: a segment of SEAL or OPEN that follows the
first, or a first segment that has started its message (R346, R354). -/
def Work.ofMessage (w : Work) : Bool :=
  let first := wb w.words 6 43
  decide (dEngine w.words = 8) && (decide (dOpcode w.words = 1) || decide (dOpcode w.words = 2)) &&
  !(first && wb w.words 6 42) && (!first || decide (w.ctx ≠ .none))

/-- Abandon the message in progress that a failed segment belongs to (R354). -/
def State.abandonMsg (s : State) (ring idx : Nat) : State :=
  match s.workAt ring idx with
  | some w =>
    if w.ofMessage && s.owns w.part tyKey (wf w.words 6 63 44) then
      { s with cph := { s.cph with keys := Tab.upd s.cph.keys (wf w.words 6 63 44) (fun k => { k with msg := none }) } }
    else s
  | none => s

/-- Forget the attention request of an ATTEND: its chunks stop and its sequence is no longer in use (R290). -/
def State.dropAttend (s : State) (ring idx : Nat) : State :=
  let gone := s.att.reqs.filter (fun r => r.origin = .attend ring idx)
  let s1 : State := { s with att := { s.att with reqs := s.att.reqs.filter (fun r => r.origin ≠ .attend ring idx) } }
  gone.foldl (fun t r => match r.use with
    | some n => t.unuseSeq (wf r.hdr 0 63 32) n
    | none => t) s1

/-- The step of a STEP_OPEN is abandoned with its status (R305). -/
def State.dropStep (s : State) (ring idx : Nat) (st : Status) : State :=
  match s.ckp.steps.find? (fun x => decide (x.ring = ring) && decide (x.idx = idx) && x.abandoned.isNone) with
  | some x => s.stepMark x.sid st false
  | none => s

/-- The command of a capsule descriptor that has not started is forgotten (R333). -/
def State.dropCmd (s : State) (ring idx : Nat) : State :=
  { s with sto := { s.sto with cmds := s.sto.cmds.filter (fun c => c.started || decide (c.desc ≠ some (ring, idx))) } }

/-- What a failure undoes beyond the descriptor itself: a message of the cipher engine, the request of an
ATTEND, a checkpoint step, a command not started, and the blocks of an INGEST. -/
def State.undoWork (s : State) (ring idx : Nat) (st : Status) : State :=
  let s1 := (((s.abandonMsg ring idx).dropAttend ring idx).dropStep ring idx st).dropCmd ring idx
  match s1.workAt ring idx with
  | some w =>
    match w.ctx with
    | .ingest _ alloc _ _ _ => s1.ingestUndo w.words alloc
    | .none | .send _ _ _ | .read _ _ _ _ | .probe _ _ _ | .contribute _ | .cipher _ _ _ | .restore _ _ _ _ _ => s1
  | none => s1

/-- A descriptor's engine has finished it, or one of its checks has failed: its result waits for DESC_END. -/
def State.workDone (s : State) (ring idx : Nat) (st : Status) (detail : Nat) (r0 r1 : Word) : State :=
  (if st = .ok then s else s.undoWork ring idx st).updWork ring idx (fun w =>
    { w with phase := .done, status := st, detail := BitVec.ofNat 32 detail, r0 := r0, r1 := r1, ctx := .none })

/-- End a descriptor's work with a status alone. -/
abbrev State.workFail (s : State) (ring idx : Nat) (st : Status) : State := s.workDone ring idx st 0 0 0

/-- A descriptor fetched and never started, given straight to its end with no addition (R50, R106). -/
def State.abortDesc (s : State) (ring : Nat) (d : Desc) (noSignal : Bool) : State :=
  { s with work := s.work ++
      [{ ring := ring, idx := d.idx, part := s.ringPart ring, words := d.words, phase := .done, buf := [], want := 0,
         ctx := .none, status := .abortedByReset, detail := 0, r0 := 0, r1 := 0, noSignal := noSignal, startPkt := s.clk.pkt,
         gen := 0, rgen := d.gen, cpl := (s.ring ring).cplRing, vi := (s.ring ring).viOf }] }

/-! ## Page commands (R36, R38, R39 and the CMD_STAT registers) -/

/-- Offset of a page's CMD register. -/
def cmdOff (b : Blk) : Nat :=
  match b with
  | .prt => 0x118 | .vif => 0x110 | .rng => 0x130 | .mlr => 0x170 | .rma => 0x150 | .pkt => 0x150 | .sch => 0x1A0
  | .kvs => 0x150 | .ckp => 0x150 | .sto => 0x158 | .cph => 0x150 | .trs => 0x158 | .fwi => 0x150 | .clk => 0x150
  | .flt => 0x190 | .dlk => 0x130
  | .dev | .hlk | .syn | .ept | .pmu | .num | .xrd | .att | .pwr => 0

/-- Offset of a page's CMD_STAT register. -/
def cmdStatOff (b : Blk) : Nat := cmdOff b + 8

/-- INT_STAT bit CMD_DONE of a page. -/
def cmdDoneBit (b : Blk) : Nat := if b = .flt then 12 else 8

/-- The bits of SEQ in a page's CMD_STAT. -/
def seqBits (b : Blk) : Nat := match b with
  | .vif => 20 | .rng => 30 | .mlr => 24
  | .dev | .prt | .hlk | .dlk | .syn | .rma | .ept | .pkt | .pmu | .fwi | .sch | .num | .xrd | .kvs | .att | .ckp | .sto
  | .cph | .trs | .clk | .pwr | .flt => 32

/-- CMD_STAT of a page whose last command had this OP, object and status (each page's own layout). -/
def cmdStatWord (b : Blk) (op obj : Nat) (st : Status) (seq : Nat) : Word :=
  let w := ((0 : Word).setField 55 48 st.code).setField (seqBits b - 1) 0 seq
  match b with
  | .prt => (w.setField 47 40 op).setField 38 32 obj
  | .vif => (w.setField 47 40 op).setField 31 20 obj
  | .rng => (w.setField 62 56 op).setField 46 30 obj
  | .mlr => (w.setField 62 56 op).setField 47 24 obj
  | .rma | .kvs | .ckp | .sto | .cph => (w.setField 62 56 op).setField 38 32 obj
  | .fwi => w
  | .dev | .hlk | .dlk | .syn | .ept | .pkt | .pmu | .sch | .num | .xrd | .att | .trs | .clk | .pwr | .flt =>
    w.setField 62 56 op

/-- CMD_STAT.BUSY of a page. -/
def State.cmdBusy (s : State) (b : Blk) : Bool := (s.reg b.page (cmdStatOff b)).bit 63

/-- Set CMD_STAT.BUSY: a command is running, or is held at the block's entry (R38). -/
def State.setBusy (s : State) (b : Blk) (x : Bool) : State :=
  s.setReg b.page (cmdStatOff b) ((s.reg b.page (cmdStatOff b)).setBit 63 x)

/-- A page command ends: CMD_STAT takes its outcome, SEQ increments, BUSY clears, CMD_DONE is set (R39). -/
def State.cmdEnd (s : State) (b : Blk) (op obj : Nat) (st : Status) : State :=
  let seq := (s.reg b.page (cmdStatOff b)).field (seqBits b - 1) 0 + 1
  (s.setReg b.page (cmdStatOff b) (cmdStatWord b op obj st seq)).setIntBit b.page (cmdDoneBit b)

/-- Whether a block holds new work at its entry: a boundary-model page with a swap armed (R38), or a data-plane block
while the data plane is contained (R476). -/
def State.entryHeld (s : State) (pg : Page) : Bool :=
  (!pg.blk.capture && s.swapPending pg) || (!blkField pg.blk && decide (pg.blk ≠ .pmu) && s.dataHeld)

/-- Take a write to a page's CMD register: dropped in the safe state except on FLT (R477); it opens the gate of the page's cluster
(R33), and is refused while a command runs (R39) and on a field page of a contained management plane (R476), held at the entry of a block
that holds its work (R38, R476), and otherwise run. off is the access's own offset, for REFUSED_OFF (R39). -/
def State.takeCmdAt (s : State) (b : Blk) (off : Nat) (val : Word) (run : Word → State → State) : State :=
  if s.flt.safe && decide (b ≠ .flt) then s
  else
    let t := s.pageAccess b.page
    if t.cmdBusy b then t.refuse b.page off
    else if blkField b && decide (b ≠ .flt) && t.flt.planes.contains 2 then t.refuse b.page off
    else if t.entryHeld b.page then { (t.setBusy b true) with entry := t.entry ++ [(b.page, val)] }
    else run val t

/-- Take a 64-bit write to a page's CMD register. -/
abbrev State.takeCmd (s : State) (b : Blk) (val : Word) (run : Word → State → State) : State := s.takeCmdAt b (cmdOff b) val run

/-- The addition that ends a PRT or VIF command with SYNC_EN = 1 to an object that P0 owns. -/
def State.cmdSync (s : State) (arg : Word) : State := if arg.bit 63 then s.syncAdd (arg.field 13 0) 1 else s

/-! ## Time (R3 to R5) -/

/-- Whether the PLL of a number runs. -/
def State.pllRuns (s : State) (n : Nat) : Bool := (Tab.get Pll.reset s.cg.plls n).running

/-- Cycles that a clock gains where its PLL runs. -/
def State.ticks (s : State) (pll n : Nat) : Nat := if s.pllRuns pll then n else 0

/-- How many of the cycles a to a + n − 1 leave remainder below k when divided by m. -/
def cyclesOf (a n m k : Nat) : Nat := ((List.range n).filter (fun i => decide ((a + i) % m < k))).length

/-- Whether the hard throttle of R459 is in force on a core die. -/
def State.hardThrottle (s : State) : Bool := s.pwr.hardOver || !s.pwr.hardSensors.isEmpty

/-- Of the n cycles of an ENG source from cycle a, those that its clusters run: the duty of R458 takes n of every 16, and the
hard throttle of R459 one in four of those that are left (which ones is the model's choice, assumption 26). -/
def State.engCycles (s : State) (a n : Nat) : Nat :=
  let duty := if s.pwr.duty = 0 then 16 else s.pwr.duty
  ((List.range n).filter (fun i => decide ((a + i) % 16 < duty) && (!s.hardThrottle || decide ((a + i) % 4 = 0)))).length

/-- Of the n cycles of a CORE source from cycle a, those that its clusters run under the hard throttle: one in four. -/
def State.coreCycles (s : State) (a n : Nat) : Nat := if s.hardThrottle then cyclesOf a n 4 1 else n

/-- One REFIN period passes: each clock advances by its PLL's ratio to REFIN while that PLL runs (R3, R435), AON by one in
sixteen; the clusters of CORE and ENG run the cycles that the throttles leave them (R4). -/
def State.ticked (s : State) : Clocks :=
  let c := s.clk
  let e0 := s.ticks 6 18
  let e1 := s.ticks 11 18
  let a := if s.cg.mux0.used then 3 else 2
  let b := if s.cg.mux1.used then 8 else 7
  let k0 := s.ticks a (Tab.get Pll.reset s.cg.plls a).mult
  let k1 := s.ticks b (Tab.get Pll.reset s.cg.plls b).mult
  { refin := c.refin + 1, aon := (c.refin + 1) / 16, fld := c.fld + s.ticks 0 2, ctl := c.ctl + s.ticks 4 20,
    noc := c.noc + s.ticks 1 20, pkt := c.pkt + s.ticks 12 16, engRaw0 := c.engRaw0 + e0, engRaw1 := c.engRaw1 + e1,
    eng0 := c.eng0 + s.engCycles c.engRaw0 e0, eng1 := c.eng1 + s.engCycles c.engRaw1 e1,
    coreRaw0 := c.coreRaw0 + k0, coreRaw1 := c.coreRaw1 + k1,
    core0 := c.core0 + s.coreCycles c.coreRaw0 k0, core1 := c.core1 + s.coreCycles c.coreRaw1 k1 }

/-! ## L1.2 and latency tolerance (R77, R79) -/

/-- Whether work whose memory lies in host memory waits or runs: a read outstanding, a descriptor to fetch from an ENABLED ring
in host memory, an entry held for such a ring, a descriptor in progress with a host transfer to make, or an interrupt held
(DEDUCED from R79's words, assumption 16). -/
def State.hostPending (s : State) : Bool :=
  s.reads.any (fun r => decide (r.port = 0)) ||
  s.rings.any (fun e => !e.2.hbm && ((decide (e.2.type = .submission) && decide (e.2.state = .enabled) && decide (e.2.count ≠ 0)) ||
    !e.2.held.isEmpty)) ||
  s.work.any (fun w => !(s.ring w.ring).hbm && decide (w.phase ≠ .done)) ||
  !s.hlk.heldIrq.isEmpty || !s.hlk.heldVecs.isEmpty

/-- Whether the link rests in L1: D3hot with no read outstanding, or ASPM L1 with no host work pending (R77). -/
def State.linkL1 (s : State) : Bool :=
  (s.reg Blk.hlk.page 0x108).bit 63 &&
  ((decide (s.dstate = 3) && !(s.reads.any (fun r => decide (r.port = 0)))) ||
   (decide (s.dstate = 0) && s.hlk.cfg.aspmL1 && !s.hostPending))

/-- L1.2 is entered once the link rests in L1 with the substate enabled, with an LTR message of 100 µs, and left with one of
10 µs when host work is pending (R79). -/
def State.linkSubstate (s : State) : State :=
  let deep := s.linkL1 && s.hlk.cfg.l12
  if deep && !s.hlk.l12 then
    let s1 : State := { s with hlk := { s.hlk with l12 := true } }
    if s.hlk.cfg.ltr && !s.hostPending && decide (s.dstate = 0) then s1.emit (.ltrMessage 100) else s1
  else if !deep && s.hlk.l12 then
    let s1 : State := { s with hlk := { s.hlk with l12 := false } }
    if s.hlk.cfg.ltr && s.hostPending && s.hostUp then s1.emit (.ltrMessage 10) else s1
  else s

/-- What a step does when no command waits: time passes, and the link's power substate follows. Every clock stops with REFIN
(R448). -/
def State.tick (s : State) : State := if s.cg.refinField then ({ s with clk := s.ticked }).linkSubstate else s

end Sys2Proof.Machine
end

