-- ==== Sys2Proof/Machine/Descs.lean ====
section
/-! DEFINITION. Which descriptors an engine defines and which bits of each are not reserved (R99, and the descriptor tables
of the engines' chapters). -/

namespace Sys2Proof.Machine

/-- All bits of a word. -/
def allBits : Word := 0xFFFFFFFFFFFFFFFF

/-- The bits of words 2 to 7 that a descriptor of an engine and opcode may set; none where the engine does not define the
opcode (R99). -/
def bodyMasks (engine opcode : Nat) : Option (List Word) :=
  match engine, opcode with
  | 0x00, 0x00 => some [0, 0, 0, 0, 0, 0]
  | 0x00, 0x01 => some [0x3FFF, allBits, 0, 0, 0, 0]
  | 0x00, 0x02 => some [0x3FFF, allBits, 0, 0, 0, 0]
  | 0x00, 0x03 => some [0x3FFF, 0, 0, 0, 0, 0]
  | 0x01, 0x01 => some [allBits, allBits, allBits, 0xFFFFFFFFFFFFFFE0, allBits, allBits]
  | 0x01, 0x02 => some [0xFFFFFF, 0, 0, 0, 0, 0]
  | 0x01, 0x03 => some [0xFFFFFF, 0, 0, 0, 0, 0]
  | 0x01, 0x04 => some [0xFFFFFFFF, 0, 0, 0, 0, 0]
  | 0x02, 0x01 => some [allBits, allBits, allBits, 0xFFFFFFFFFFFFFFC0, 0, 0]
  | 0x02, 0x02 => some [allBits, allBits, allBits, 0xFFFFFF4000000000, 0, 0]
  | 0x02, 0x03 => some [0x37FFFFFFFF003FFF, allBits, allBits, 0xFFFFFF8000000000, 0xFFFFFFFF, 0]
  | 0x02, 0x04 => some [0xFFFFFFFF, 0, 0, 0, 0, 0]
  | 0x02, 0x05 => some [0xFFFFFFFF, 0, 0, 0, 0, 0]
  | 0x03, 0x01 => some [allBits, 0xFFFFFFFFFFFFF800, 0xFFFFFFFFFFFFFE00, 0xFFFFF00000000000, allBits, 0]
  | 0x03, 0x02 => some [allBits, allBits, 0xFFFFF80000000000, 0, 0, 0]
  | 0x03, 0x03 => some [0x1FFFFFF, 0, 0, 0, 0, 0]
  | 0x03, 0x04 => some [0xFFFFF, 0, 0, 0, 0, 0]
  | 0x03, 0x05 => some [0xFFFFF, 0, 0, 0, 0, 0]
  | 0x04, 0x01 => some [0xFFFFFFFF, 0xFFFFFFFFFF000000, 0xFFFFFFFF00000000, 0, 0, 0]
  | 0x04, 0x02 => some [allBits, allBits, 0xFFFFFFF800000000, allBits, 0, 0]
  | 0x04, 0x03 => some [allBits, allBits, 0xFFFFFFF800000000, allBits, 0, 0]
  | 0x04, 0x04 => some [allBits, 0xFFFFFFFF, 0, 0, 0, 0]
  | 0x04, 0x05 => some [0xFFFFFFFF, 0xFFFFFFFF, 0, 0, 0, 0]
  | 0x04, 0x06 => some [0xFFFFFFFF, 0, 0, 0, 0, 0]
  | 0x04, 0x07 => some [0xFFFFFFFF, 0, 0, 0, 0, 0]
  | 0x05, 0x01 => some [allBits, 0x8000000000000000, 0, 0, 0, 0]
  | 0x05, 0x02 => some [allBits, 0xFFFFE00000003FFF, 0, 0, 0, 0]
  | 0x05, 0x03 => some [0x3FF, 0, 0, 0, 0, 0]
  | 0x05, 0x04 => some [0x3FF, 0, 0, 0, 0, 0]
  | 0x06, 0x01 => some [allBits, allBits, 0x80000000FFFFFFFF, 0xFFFFFF0000000000, allBits, allBits]
  | 0x06, 0x02 => some [allBits, 0, 0, 0, 0, 0]
  | 0x06, 0x03 => some [allBits, allBits, allBits, allBits, 0, 0]
  | 0x06, 0x04 => some [allBits, 0, 0, 0, 0, 0]
  | 0x07, 0x01 => some [0xFF000000FFFFFFFF, allBits, 0xFFFFFFFF80000000, allBits, allBits, allBits]
  | 0x07, 0x02 => some [0xFF000000FFFFFFFF, allBits, 0xFFFFFFFF80000000, allBits, allBits, allBits]
  | 0x08, 0x01 => some [allBits, allBits, allBits, 0xFFFFFFFFFFFF0000, 0xFFFFFF8000000000, 0]
  | 0x08, 0x02 => some [allBits, allBits, allBits, 0xFFFFFFFFFFFF0000, 0xFFFFFF80FFFFFFFF, allBits]
  | 0x08, 0x03 => some [allBits, allBits, allBits, 0xFFFFFFFF80000000, 0xFFFFF30000000000, 0]
  | 0x08, 0x04 => some [allBits, allBits, allBits, 0xFFFFFFFF80000000, 0xFFFFF30000000000, 0]
  | 0x08, 0x05 => some [allBits, 0xFFFFFFFFFC000000, allBits, 0, 0xFFFFF20000000000, 0]
  | 0x08, 0x06 => some [0, 0xFFFFFFFFFC000000, allBits, 0, 0xFFFFF00000000000, 0]
  | 0x08, 0x07 => some [0, 0, 0, 0, 0xFFFFF00000000000, 0]
  | 0x08, 0x08 => some [allBits, 1, 0, 0, 0xFFFFF10000000000, 0]
  | 0x08, 0x09 => some [allBits, 1, 0, 0, 0xFFFFF20000000000, 0]
  | 0x08, 0x0A => some [0, 0, 0, 0, 0xFFFFF00000000000, 0]
  | 0x09, 0x01 => some [allBits, allBits, 0xFFFFFFFFFFF80000, allBits, allBits, 0]
  | 0x09, 0x02 => some [allBits, allBits, 0xFFFFFFFFFFF80000, allBits, allBits, 0]
  | _, _ => none

/-- Whether a descriptor names an undefined engine or opcode, or sets a reserved bit (R99). -/
def descFormatBad (ws : List Word) : Bool :=
  match bodyMasks (dEngine ws) (dOpcode ws) with
  | none => true
  | some m => reservedSet (ws.drop 2) m

/-- The check of a descriptor at fetch, for partition p (R99): FORMAT, then ACCESS_VIOLATION for a sync object of an enabled
wait or signal, or the SYNC operand of the ring engine, that p does not own. -/
def State.descCheck (s : State) (p : Nat) (ws : List Word) : Option Status :=
  if descFormatBad ws then some .format
  else if (dWaitEn ws && !s.owns p tySync (dWaitSync ws)) || (dSigEn ws && !s.owns p tySync (dSigSync ws)) ||
      (decide (dEngine ws = 0) && decide (dOpcode ws ≠ 0) && !s.owns p tySync (wf ws 2 13 0)) then
    some .accessViolation
  else none

/-- The page whose live set a descriptor of an engine runs under. -/
def enginePage (engine : Nat) : Page :=
  match engine with
  | 1 => Blk.mlr.page | 2 => Blk.rma.page | 3 => Blk.xrd.page | 4 => Blk.kvs.page | 5 => Blk.att.page | 6 => Blk.ckp.page
  | 7 => Blk.sto.page | 8 => Blk.cph.page | 9 => Blk.num.page
  | _ => Blk.rng.page

/-- Run the operation of a started descriptor where it is one of engine and opcode and has not finished, and the data plane
takes work. -/
def State.runDesc (s : State) (ring idx engine opcode : Nat) (f : Work → State) : State :=
  match s.workAt ring idx with
  | some w =>
    if (decide (w.phase = .ready) || decide (w.phase = .fetching)) && decide (dEngine w.words = engine) &&
       decide (dOpcode w.words = opcode) && !s.flt.safe && !s.dataHeld then f w
    else s
  | none => s

end Sys2Proof.Machine
end

