-- ==== Sys2Proof/Machine/Conns.lean ====
section
/-! DEFINITION. Connections and reduction groups as other engines see them: sequence numbers, packets that engines build for
a connection, the end of WRITE descriptors (R171), and the failure of a group (R246). -/

namespace Sys2Proof.Machine

/-! ## Connections -/

/-- PSN a is before PSN b (R126). -/
def psnBefore (a b : BitVec 32) : Bool := decide (1 ≤ (b - a).toNat) && decide ((b - a).toNat < 2 ^ 31)

/-- Whether a partition has the address family: an IPv6 address (R120), or IPv4 enabled. -/
def Part.hasAddr (p : Part) (v4 : Bool) : Bool :=
  match p.mlr with
  | some m => if v4 then m.v4En else decide (m.ip6 ≠ 0)
  | none => false

/-! ## WRITE descriptors (R171) -/

/-- CONN of a WRITE or READ descriptor. -/
def rConn (ws : List Word) : Nat := wf ws 5 63 40
/-- LENGTH of a WRITE or READ descriptor. -/
def rLen (ws : List Word) : Nat := wf ws 3 63 32

/-- Whether a packet was built by a descriptor. -/
def PktOwner.isWork (o : PktOwner) (ring idx : Nat) : Bool :=
  match o with
  | .work r i _ => decide (r = ring) && decide (i = idx)
  | .serve _ | .emit _ _ _ | .response _ | .step _ _ => false

/-- The failure of lowest packet index. -/
def firstFailed (fs : List (Nat × Status)) : Option (Nat × Status) :=
  fs.foldl (fun a f => match a with
    | some b => if f.1 < b.1 then some f else some b
    | none => some f) none

/-- A WRITE ends once it sends no further packet and every packet that it sent has been acknowledged or refused (R171). -/
def State.writeSettle (s : State) (ring idx : Nat) : State :=
  match s.workAt ring idx with
  | some w =>
    match w.ctx with
    | .send next stopAt fails =>
      let x := s.conn (rConn w.words)
      let n := (rLen w.words + mtuBytes x.mtu - 1) / mtuBytes x.mtu
      let stop := match stopAt with
        | some k => min k n
        | none => if fails = [] then n else next
      if decide (w.phase ≠ .done) && decide (stop ≤ next) && !(x.tx.any (fun p => p.owner.isWork ring idx)) then
        match firstFailed fails with
        | some f => s.workDone ring idx f.2 f.1 0 0
        | none => s.workDone ring idx .ok 0 0 0
      else s
    | .none | .read _ _ _ _ | .probe _ _ _ | .ingest _ _ _ _ _ | .contribute _ | .cipher _ _ _ | .restore _ _ _ _ _ => s
  | none => s

/-- A read of a WRITE's local source fails at packet k: that packet and those after it are not sent (R171). -/
def State.writeReadFailed (s : State) (ring idx k : Nat) (st : Status) : State :=
  (s.updWork ring idx (fun w => match w.ctx with
    | .send next stopAt fails =>
      { w with ctx := .send next (some (match stopAt with
        | some j => min j k
        | none => k)) (fails ++ [(k, st)]) }
    | .none | .read _ _ _ _ | .probe _ _ _ | .ingest _ _ _ _ _ | .contribute _ | .cipher _ _ _ | .restore _ _ _ _ _ => w)).writeSettle ring idx

/-! ## READ_REQs being served (R165) -/

/-- The read response extension (R124). -/
def readRespExt (psn : BitVec 32) (st : Status) (roff : Nat) : List Byte :=
  beBytes 4 psn.toNat ++ beBytes 1 st.code ++ [0, 0, 0] ++ beBytes 8 roff

/-- The service of a READ_REQ. -/
def Conn.serveOf (x : Conn) (psn : BitVec 32) : Option Serve := x.serves.find? (fun v => decide (v.psn = psn))

/-- Change a service. -/
def State.updServe (s : State) (c : Nat) (psn : BitVec 32) (f : Serve → Serve) : State :=
  s.updConn c (fun x => { x with serves := x.serves.map (fun v => if v.psn = psn then f v else v) })

/-- A service ends early: a READ_RESP without payload names the status and the first byte not sent. -/
def State.serveEnd (s : State) (c : Nat) (psn : BitVec 32) (st : Status) : State :=
  match (s.conn c).serveOf psn with
  | some v =>
    (s.updConn c (fun x => { x with serves := x.serves.filter (fun y => y.psn ≠ psn) })).connEnqueue c
      [{ typ := 4, ext := readRespExt psn st v.sent, payload := [], owner := .serve psn }]
  | none => s

/-- Where a RESTORE keeps the copy of its source list; container bytes are keyed by source × 2^64 + offset. -/
def srcListKey : Nat := 2 ^ 90
/-- Where a RESTORE keeps the copy of its destination list. -/
def dstListKey : Nat := 2 ^ 91

/-- Source entry i of a RESTORE (R307). -/
def Work.srcEntry (w : Work) (i : Nat) : List Word := bytesWords 4 ((List.range 32).map (fun j => Tab.get 0 w.buf (srcListKey + 64 + 32 * i + j)))
/-- KIND of a source entry: remote. -/
def srcRemote (e : List Word) : Bool := wb e 0 63
/-- NSID or RKEY of a source entry. -/
def srcTarget (e : List Word) : Nat := wf e 0 31 0
/-- CONN of a source entry. -/
def srcConn (e : List Word) : Nat := wf e 1 63 40
/-- BASE of a source entry. -/
def srcBase (e : List Word) : Nat := (wordAt e 2).toNat
/-- SIZE of a source entry. -/
def srcSize (e : List Word) : Nat := (wordAt e 3).toNat

/-- Whether a RESTORE in progress has a destination in host memory (SPACE 1 of an entry of the list that it has copied). -/
def Work.destHost (w : Work) : Bool :=
  match w.ctx with
  | .restore _ _ _ _ _ => w.buf.any (fun e => decide (dstListKey + 64 ≤ e.1) && decide ((e.1 - dstListKey - 64) % 256 = 15) &&
      decide (e.2.toNat / 64 = 1))
  | .none | .send _ _ _ | .read _ _ _ _ | .probe _ _ _ | .ingest _ _ _ _ _ | .contribute _ | .cipher _ _ _ => false

/-- Whether a RESTORE reads a container over a connection now. -/
def Work.restoresOn (w : Work) (c : Nat) : Bool :=
  match w.ctx with
  | .restore _ (some r) _ _ _ => decide (w.phase ≠ .done) && srcRemote (w.srcEntry r.1) && decide (srcConn (w.srcEntry r.1) = c)
  | .restore _ none _ _ _ | .none | .send _ _ _ | .read _ _ _ _ | .probe _ _ _ | .ingest _ _ _ _ _ | .contribute _
  | .cipher _ _ _ => false

/-- A remote read of a RESTORE fails: its source is recorded with the status. -/
def State.restoreFail (s : State) (ring idx : Nat) (st : Status) : State :=
  s.updWork ring idx (fun w => match w.ctx with
    | .restore fails (some r) _ _ _ => { w with ctx := .restore (fails ++ [(r.1, st)]) none none 0 none }
    | .restore _ none _ _ _ | .none | .send _ _ _ | .read _ _ _ _ | .probe _ _ _ | .ingest _ _ _ _ _ | .contribute _
    | .cipher _ _ _ => w)

/-! ## Reduction groups (R236, R245, R246) -/

/-- A reduction group by key. -/
def State.group (s : State) (key : Nat) : Option Group := Tab.find s.xrd.groups key

/-- Change a group. -/
def State.updGroup (s : State) (key : Nat) (f : Group → Group) : State :=
  { s with xrd := { s.xrd with groups := Tab.upd s.xrd.groups key f } }

/-- The group key of a partition and first slot. -/
def groupKey (p slot : Nat) : Nat := p * 2 ^ 25 + slot % 2 ^ 20

/-- The slot range of a group, cleared. -/
def State.clearSlots (s : State) (first n : Nat) : State :=
  { s with xrd := { s.xrd with slots := s.xrd.slots.filter (fun e => e.1 < first ∨ first + n ≤ e.1) } }

/-- Whether a descriptor in progress is a CONTRIBUTE to a group (R247). -/
def Work.contributesTo (w : Work) (key : Nat) : Bool :=
  decide (dEngine w.words = 3) && decide (dOpcode w.words = 2) && decide (w.phase ≠ .done) && decide (w.ctx ≠ .none) &&
  decide (groupKey w.part (wf w.words 4 63 44) = key)

/-- The packets in the miss holding buffer that are no group's. -/
def HeldPkt.ofGroup (h : HeldPkt) (key : Nat) : Bool :=
  decide (h.why = .window) && decide (beNat (h.pkt.ext.take 4) = key)

/-- A group fails (R246): its slots are freed, its held packets and unsent emissions go, its OPEN ends with the status, its
CONTRIBUTE descriptors end with STATE, and the event and interrupt follow (R249). -/
def State.failGroup (s : State) (key : Nat) (st : Status) : State :=
  match s.group key with
  | some g =>
    if g.state = .failed then s
    else
      let s1 := (s.updGroup key (fun x => { x with state := .failed, segs := [] })).clearSlots (key % 2 ^ 20) g.slots
      let s2 : State := { s1 with
        mlr := { s1.mlr with
          held := s1.mlr.held.filter (fun h => !h.ofGroup key),
          conns := s1.mlr.conns.map (fun e => (e.1, { e.2 with outq := e.2.outq.filter (fun p => match p.owner with
            | .emit k _ _ => k ≠ key
            | .work _ _ _ | .serve _ | .response _ | .step _ _ => true) })) } }
      let s3 := s2.workDone g.ring g.idx st g.low 0 0
      let s4 := (s3.work.filter (fun w => w.contributesTo key)).foldl (fun t w => t.workFail w.ring w.idx .state) s3
      (((s4.count1 .xrd 7).setIntBit Blk.xrd.page 8).event g.part 0x0141 .ok key (Word.of st.code) (Word.of g.low) 0)
  | none => s

end Sys2Proof.Machine
end

