-- ==== Sys2Proof/Machine/Flags.lean ====
section
/-! DEFINITION. Numbers: the formats of R217, exact decoding, the one rounding, the range rules, MX blocks and the exact
accumulator (11_number_formats.md), and the rounding and exception flags of IEEE 754 that the cores use (R396). Every
result is computed exactly and narrowed once. -/

namespace Sys2Proof

/-! ## Formats -/

/-- How a float format ends its range (R218): infinities and NaNs, a NaN only (FP8-E4M3), or neither. -/
inductive Specials where
  | ieee
  | nanOnly
  | none
  deriving DecidableEq, Repr

/-- A float format: exponent bits, mantissa bits, bias, specials, and the code of its largest finite value. -/
structure FFmt where
  eb : Nat
  mb : Nat
  bias : Nat
  sp : Specials
  maxFin : Nat
  deriving DecidableEq, Repr

/-- FP32. -/
def fFp32 : FFmt := ⟨8, 23, 127, .ieee, 0x7F7FFFFF⟩
/-- binary64, of the cores alone. -/
def fFp64 : FFmt := ⟨11, 52, 1023, .ieee, 0x7FEFFFFFFFFFFFFF⟩
/-- BF16. -/
def fBf16 : FFmt := ⟨8, 7, 127, .ieee, 0x7F7F⟩
/-- FP16. -/
def fFp16 : FFmt := ⟨5, 10, 15, .ieee, 0x7BFF⟩
/-- FP8-E4M3. -/
def fE4M3 : FFmt := ⟨4, 3, 7, .nanOnly, 0x7E⟩
/-- FP8-E5M2. -/
def fE5M2 : FFmt := ⟨5, 2, 15, .ieee, 0x7B⟩
/-- FP6-E3M2. -/
def fE3M2 : FFmt := ⟨3, 2, 3, .none, 0x1F⟩
/-- FP6-E2M3. -/
def fE2M3 : FFmt := ⟨2, 3, 1, .none, 0x1F⟩
/-- FP4-E2M1. -/
def fE2M1 : FFmt := ⟨2, 1, 1, .none, 0x7⟩

/-- The kinds of element that a format code names (R217). -/
inductive Elem where
  | flt (f : FFmt)
  | mx (f : FFmt)
  | int (bits : Nat)
  | xacc
  deriving DecidableEq, Repr

/-- The element kind of a format code; none for 0xD to 0xF (R217). -/
def elemOf (code : Nat) : Option Elem :=
  match code with
  | 0x0 => some (.flt fFp32) | 0x1 => some (.flt fBf16) | 0x2 => some (.flt fFp16) | 0x3 => some (.flt fE4M3)
  | 0x4 => some (.flt fE5M2) | 0x5 => some (.mx fE4M3) | 0x6 => some (.mx fE5M2) | 0x7 => some (.mx fE3M2)
  | 0x8 => some (.mx fE2M3) | 0x9 => some (.mx fE2M1) | 0xA => some (.int 8) | 0xB => some (.int 32) | 0xC => some .xacc
  | _ => none

/-- Width of an encoding of a float format. -/
def FFmt.width (f : FFmt) : Nat := 1 + f.eb + f.mb

/-- Bits of one element of a format. -/
def Elem.bits : Elem → Nat
  | .flt f => f.width
  | .mx f => f.width
  | .int b => b
  | .xacc => 512

/-- Bytes that n elements of a format take. -/
def Elem.bytes (el : Elem) (n : Nat) : Nat := n * el.bits / 8

/-- Whether a format is an MX format. -/
def Elem.isMx : Elem → Bool
  | .mx _ => true
  | .flt _ | .int _ | .xacc => false

/-! ## Exact values (R220) -/

/-- An exact value: (−1)^neg × m × 2^e (a zero where m is 0), an infinity, or NaN. -/
inductive Num where
  | fin (neg : Bool) (m : Nat) (e : Int)
  | inf (neg : Bool)
  | nan
  deriving DecidableEq, Repr

/-- Decode a float encoding (R218, R220). -/
def decodeFlt (f : FFmt) (bits : Nat) : Num :=
  let man := bits % 2 ^ f.mb
  let ex := bits / 2 ^ f.mb % 2 ^ f.eb
  let neg := decide (bits / 2 ^ (f.mb + f.eb) % 2 = 1)
  let fin := if ex = 0 then Num.fin neg man (1 - (f.bias : Int) - f.mb)
    else Num.fin neg (2 ^ f.mb + man) ((ex : Int) - f.bias - f.mb)
  match f.sp with
  | .ieee => if ex = 2 ^ f.eb - 1 then (if man = 0 then .inf neg else .nan) else fin
  | .nanOnly => if ex = 2 ^ f.eb - 1 ∧ man = 2 ^ f.mb - 1 then .nan else fin
  | .none => fin

/-- The signed integer of a two's complement encoding of b bits. -/
def toSigned (b v : Nat) : Int := if v % 2 ^ b < 2 ^ (b - 1) then (v % 2 ^ b : Nat) else (v % 2 ^ b : Nat) - (2 ^ b : Nat)

/-- The exact value of an integer. -/
def numOfInt (v : Int) : Num := .fin (decide (v < 0)) v.natAbs 0

/-- Scale a value by a power of two. -/
def Num.scale (x : Num) (k : Int) : Num :=
  match x with
  | .fin n m e => .fin n m (e + k)
  | .inf n => .inf n
  | .nan => .nan

/-- Decode an element that is not XACC, with the scale byte of its MX block (R219, R220). -/
def decodeElem (el : Elem) (bits scale : Nat) : Num :=
  match el with
  | .flt f => decodeFlt f bits
  | .mx f => if scale = 0xFF then .nan else (decodeFlt f bits).scale ((scale : Int) - 127)
  | .int b => numOfInt (toSigned b bits)
  | .xacc => .nan

/-! ## The one rounding (R221, R396) -/

/-- Rounding modes: to nearest with ties to even (the engines' only mode), to nearest with ties away, and the directed
modes (sr.FPS.RND). -/
inductive Round where
  | even
  | away
  | up
  | down
  | zero
  deriving DecidableEq, Repr

/-- Whether a magnitude whose discarded part is r out of 2^k, with kept part n, is rounded up. -/
def roundsUp (md : Round) (neg : Bool) (n r k : Nat) : Bool :=
  match md with
  | .even => decide (2 ^ k < 2 * r) || (decide (2 * r = 2 ^ k) && decide (n % 2 = 1))
  | .away => decide (2 ^ k ≤ 2 * r) && decide (r ≠ 0)
  | .up => !neg && decide (r ≠ 0)
  | .down => neg && decide (r ≠ 0)
  | .zero => false

/-- m × 2^e in whole units of 2^q, rounded, and whether that is exact. -/
def roundTo (md : Round) (neg : Bool) (m : Nat) (e q : Int) : Nat × Bool :=
  if q ≤ e then (m * 2 ^ (e - q).toNat, true)
  else
    let k := (q - e).toNat
    let n := m / 2 ^ k
    let r := m % 2 ^ k
    (if roundsUp md neg n r k then n + 1 else n, decide (r = 0))

/-- Smallest exponent of a normal value of a format. -/
def FFmt.emin (f : FFmt) : Int := 1 - (f.bias : Int)

/-- A non-zero magnitude m × 2^e rounded into a format as if its range were unbounded upward: the bits without the sign
(above maxFin where the value overflows), and whether it was exact. -/
def roundBits (f : FFmt) (md : Round) (neg : Bool) (m : Nat) (e : Int) : Nat × Bool :=
  let top := e + Nat.log2 m
  let q := max top f.emin - f.mb
  let r := roundTo md neg m e q
  ((q - (f.emin - f.mb)).toNat * 2 ^ f.mb + r.1, r.2)

/-- The sign bit of a format. -/
def FFmt.signBit (f : FFmt) (neg : Bool) : Nat := if neg then 2 ^ (f.eb + f.mb) else 0

/-- The bits of infinity without the sign. -/
def FFmt.infBits (f : FFmt) : Nat := (2 ^ f.eb - 1) * 2 ^ f.mb

/-- The canonical NaN (R222): FP8-E4M3 0x7F, an IEEE format's quiet NaN with the top mantissa bit; FP6 and FP4 have none. -/
def FFmt.nan (f : FFmt) : Nat :=
  match f.sp with
  | .nanOnly => 2 ^ (f.eb + f.mb) - 1
  | .ieee => f.infBits + 2 ^ (f.mb - 1)
  | .none => 0

/-- What a conversion made of an element (R233): nothing to count, a saturated element, a non-zero one flushed to zero, or a
NaN output from a NaN input. -/
inductive Conv where
  | plain
  | saturated
  | flushed
  | nanOut
  deriving DecidableEq, Repr

/-- The range rules for a result that is beyond the largest finite value or infinite (R222). -/
def overBits (f : FFmt) (sat neg inf : Bool) : Nat :=
  match f.sp with
  | .none => f.signBit neg + f.maxFin
  | .ieee => if inf || !sat then f.signBit neg + f.infBits else f.signBit neg + f.maxFin
  | .nanOnly => if sat then f.signBit neg + f.maxFin else f.nan

/-- Convert an exact value into a float format (R221, R222), with what R233 counts of it. -/
def encodeFlt (f : FFmt) (sat : Bool) (x : Num) : Nat × Conv :=
  match x with
  | .nan => (f.nan, .nanOut)
  | .inf neg => (overBits f sat neg true, if f.sp = .ieee then .plain else .saturated)
  | .fin neg m e =>
    if m = 0 then (f.signBit neg, .plain)
    else
      let r := (roundBits f .even neg m e).1
      if f.maxFin < r then (overBits f sat neg false, .saturated)
      else (f.signBit neg + r, if r = 0 then .flushed else .plain)

/-- Round an exact value to an integer. -/
def roundInt (md : Round) (neg : Bool) (m : Nat) (e : Int) : Int :=
  let n := (roundTo md neg m e 0).1
  if neg then -(n : Int) else n

/-- Clamp an integer to b bits of two's complement. -/
def clampInt (b : Nat) (v : Int) : Int := max (-(2 ^ (b - 1) : Nat) : Int) (min v ((2 ^ (b - 1) : Nat) - 1))

/-- The two's complement encoding of an integer in b bits. -/
def intBits (b : Nat) (v : Int) : Nat := (v % (2 ^ b : Nat)).toNat

/-- Convert an exact value into an integer format (R223), with what R233 counts of it. -/
def encodeInt (b : Nat) (x : Num) : Nat × Conv :=
  match x with
  | .nan => (0, .saturated)
  | .inf neg => (intBits b (if neg then -(2 ^ (b - 1) : Nat) else (2 ^ (b - 1) : Nat) - 1), .saturated)
  | .fin neg m e =>
    let v := roundInt .even neg m e
    let c := clampInt b v
    (intBits b c, if c ≠ v then .saturated else if v = 0 ∧ m ≠ 0 then .flushed else .plain)

/-- Convert one element into a target that is neither MX nor XACC; equal format codes copy the bits (R222). A NaN copied
counts as a NaN output. -/
def convertElem (src dst : Elem) (sat : Bool) (bits scale : Nat) : Nat × Conv :=
  match dst with
  | .flt f =>
    if src = dst then (bits, if decodeElem src bits scale = .nan then .nanOut else .plain)
    else encodeFlt f sat (decodeElem src bits scale)
  | .int b => if src = dst then (bits, .plain) else encodeInt b (decodeElem src bits scale)
  | .mx _ | .xacc => (0, .plain)

/-! ## MX blocks (R219, R225) -/

/-- The exponent of the element format's largest finite value (R225 step 3). -/
def mxExp (f : FFmt) : Int := if f = fE4M3 then 8 else if f = fE5M2 then 15 else if f = fE3M2 then 4 else 2

/-- ⌊log₂⌋ of a non-zero magnitude m × 2^e. -/
def floorLog2 (m : Nat) (e : Int) : Int := e + Nat.log2 m

/-- Whether one magnitude is at most another. -/
def magLe (m1 : Nat) (e1 : Int) (m2 : Nat) (e2 : Int) : Bool :=
  let k := min e1 e2
  decide (m1 * 2 ^ (e1 - k).toNat ≤ m2 * 2 ^ (e2 - k).toNat)

/-- Whether a value is NaN or infinite. -/
def Num.special : Num → Bool
  | .fin _ _ _ => false
  | .inf _ | .nan => true

/-- The largest ⌊log₂ |x|⌋ of the non-zero values of a block; none where every value is zero. -/
def blockLog (xs : List Num) : Option Int :=
  xs.foldl (fun a x => match x with
    | .fin _ m e => if m = 0 then a else some (match a with
      | some b => max b (floorLog2 m e)
      | none => floorLog2 m e)
    | .inf _ | .nan => a) none

/-- Encode a block of values (32 of them in R225, 256 in R298): scale byte, element bits with what is counted of each, and
whether the block is a NaN output. -/
def encodeMx (f : FFmt) (m adj : Int) (xs : List Num) : Nat × List (Nat × Conv) × Bool :=
  if xs.any Num.special then (0xFF, xs.map (fun _ => (0, .plain)), true)
  else
    match blockLog xs with
    | none => (0x00, xs.map (fun _ => (0, .plain)), false)
    | some l =>
      let e := max (-127) (min (l - m + adj) 127)
      ((e + 127).toNat, xs.map (fun x => encodeFlt f true (x.scale (-e))), false)

/-- MX_ADJ of a NUM.CFG word, a four-bit two's complement number. -/
def mxAdj (cfg : Word) : Int := toSigned 4 (cfg.field 3 0)

/-- Element i of w bits in bytes read as one little-endian integer (R219); for whole-byte elements, element i of an array. -/
def packedElem (w : Nat) (bs : List Byte) (i : Nat) : Nat :=
  if w % 8 = 0 then leNat ((bs.drop (i * (w / 8))).take (w / 8)) else leNat bs / 2 ^ (w * i) % 2 ^ w

/-- Pack elements of w bits into bytes, element 0 least significant (R219). -/
def packElems (w : Nat) (es : List Nat) : List Byte :=
  leBytes (w * es.length / 8) (es.foldr (fun x acc => x % 2 ^ w + acc * 2 ^ w) 0)

/-! ## Minimum and maximum (R226) -/

/-- Whether a value lies at or below another, −0 below +0; for values that are not NaN. -/
def Num.le (a b : Num) : Bool :=
  match a, b with
  | .nan, _ | _, .nan => false
  | .inf n, _ => if n then true else decide (b = .inf false)
  | _, .inf n => !n
  | .fin n1 m1 e1, .fin n2 m2 e2 =>
    match n1, n2 with
    | true, false => true
    | false, true => false
    | false, false => magLe m1 e1 m2 e2
    | true, true => magLe m2 e2 m1 e1

/-- The lesser or greater of two values under R226; NaN if either is. -/
def Num.pick (mx : Bool) (a b : Num) : Num :=
  if a = .nan ∨ b = .nan then .nan else if (if mx then b.le a else a.le b) then a else b

/-! ## IEEE arithmetic (R396), once rounded, with flags -/

/-- Exception flags: invalid, division by zero, overflow, underflow, inexact. -/
structure FFlags where
  nv : Bool
  dz : Bool
  ovf : Bool
  unf : Bool
  nx : Bool
  deriving DecidableEq, Repr

/-- No flag. -/
def noFlags : FFlags := ⟨false, false, false, false, false⟩

/-- Invalid operation. -/
def invalidFlags : FFlags := ⟨true, false, false, false, false⟩

/-- Whether an overflow in this mode delivers infinity. -/
def overInf (md : Round) (neg : Bool) : Bool :=
  match md with
  | .even | .away => true
  | .up => !neg
  | .down => neg
  | .zero => false

/-- Whether a non-zero magnitude is tiny after rounding: rounded to the format's precision with an unbounded exponent, it
lies below the smallest normal (R396). -/
def tinyAfter (f : FFmt) (md : Round) (neg : Bool) (m : Nat) (e : Int) : Bool :=
  let top := e + Nat.log2 m
  let n := (roundTo md neg m e (top - f.mb)).1
  !(magLe 1 f.emin n (top - f.mb))

/-- Round an exact value into an IEEE format in a mode, with flags. -/
def ieeeRound (f : FFmt) (md : Round) (x : Num) : Nat × FFlags :=
  match x with
  | .nan => (f.nan, noFlags)
  | .inf neg => (f.signBit neg + f.infBits, noFlags)
  | .fin neg m e =>
    if m = 0 then (f.signBit neg, noFlags)
    else
      let r := roundBits f md neg m e
      if f.maxFin < r.1 then
        (f.signBit neg + (if overInf md neg then f.infBits else f.maxFin), ⟨false, false, true, false, true⟩)
      else (f.signBit neg + r.1, ⟨false, false, false, !r.2 && tinyAfter f md neg m e, !r.2⟩)

/-- The exact sum of two finite values; the sign of an exact zero sum of unlike signs is + except toward −∞. -/
def finAdd (md : Round) (n1 : Bool) (m1 : Nat) (e1 : Int) (n2 : Bool) (m2 : Nat) (e2 : Int) : Num :=
  let k := min e1 e2
  let a : Int := (if n1 then -1 else 1) * ((m1 * 2 ^ (e1 - k).toNat : Nat) : Int)
  let b : Int := (if n2 then -1 else 1) * ((m2 * 2 ^ (e2 - k).toNat : Nat) : Int)
  let v := a + b
  if v = 0 then .fin (if n1 = n2 then n1 else decide (md = .down)) 0 k else .fin (decide (v < 0)) v.natAbs k

/-- Exact addition; the Bool says the operation is invalid. -/
def numAdd (md : Round) (x y : Num) : Num × Bool :=
  match x, y with
  | .nan, _ | _, .nan => (.nan, false)
  | .inf a, .inf b => if a = b then (.inf a, false) else (.nan, true)
  | .inf a, .fin _ _ _ => (.inf a, false)
  | .fin _ _ _, .inf b => (.inf b, false)
  | .fin n1 m1 e1, .fin n2 m2 e2 => (finAdd md n1 m1 e1 n2 m2 e2, false)

/-- The value with its sign changed. -/
def Num.neg : Num → Num
  | .fin n m e => .fin (!n) m e
  | .inf n => .inf (!n)
  | .nan => .nan

/-- Exact multiplication. -/
def numMul (x y : Num) : Num × Bool :=
  match x, y with
  | .nan, _ | _, .nan => (.nan, false)
  | .inf a, .inf b => (.inf (a != b), false)
  | .inf a, .fin b m _ => if m = 0 then (.nan, true) else (.inf (a != b), false)
  | .fin a m _, .inf b => if m = 0 then (.nan, true) else (.inf (a != b), false)
  | .fin a m1 e1, .fin b m2 e2 => (.fin (a != b) (m1 * m2) (e1 + e2), false)

/-- A quotient of magnitudes to more bits than any format holds, its last bit sticky: rounding it equals rounding the exact
quotient. -/
def stickyDiv (m1 m2 : Nat) : Nat × Int :=
  let k := 130 + Nat.log2 m2
  let q := m1 * 2 ^ k / m2
  (2 * q + (if m1 * 2 ^ k % m2 = 0 then 0 else 1), -(k : Int) - 1)

/-- Division: the quotient, invalid, division by zero. -/
def numDiv (x y : Num) : Num × Bool × Bool :=
  match x, y with
  | .nan, _ | _, .nan => (.nan, false, false)
  | .inf _, .inf _ => (.nan, true, false)
  | .inf a, .fin b _ _ => (.inf (a != b), false, false)
  | .fin a _ _, .inf b => (.fin (a != b) 0 0, false, false)
  | .fin a m1 e1, .fin b m2 e2 =>
    if m2 = 0 then (if m1 = 0 then (.nan, true, false) else (.inf (a != b), false, true))
    else if m1 = 0 then (.fin (a != b) 0 0, false, false)
    else
      let q := stickyDiv m1 m2
      (.fin (a != b) q.1 (e1 - e2 + q.2), false, false)

/-- A square root to more bits than any format holds, its last bit sticky. -/
def stickySqrt (m : Nat) (e : Int) : Nat × Int :=
  let k : Nat := if e % 2 = 0 then 260 else 261
  let n := m * 2 ^ k
  let r := Nat.sqrt n
  (2 * r + (if r * r = n then 0 else 1), (e - k) / 2 - 1)

/-- Square root: the root, invalid. -/
def numSqrt (x : Num) : Num × Bool :=
  match x with
  | .nan => (.nan, false)
  | .inf n => if n then (.nan, true) else (.inf false, false)
  | .fin n m e =>
    if m = 0 then (.fin n 0 0, false)
    else if n then (.nan, true)
    else
      let r := stickySqrt m e
      (.fin false r.1 r.2, false)

/-! ## The exact accumulator (R227 to R231) -/

end Sys2Proof

namespace Sys2Proof.Machine

/-- Whether V lies in 416 bits of two's complement. -/
def xaccFits (v : Int) : Bool := decide (-(2 ^ 415 : Nat) ≤ v) && decide (v < (2 ^ 415 : Nat))

/-- Terms are counted to 2^64 − 1. -/
def termSat (n : Nat) : Nat := min n (2 ^ 64 - 1)

/-- Add an exact value to an accumulator (R228). -/
def Xacc.add (x : Xacc) (t : Num) : Xacc :=
  let y := { x with terms := termSat (x.terms + 1) }
  match t with
  | .nan => { y with nan := true }
  | .inf neg => if neg then { y with ninf := true } else { y with pinf := true }
  | .fin neg m e =>
    let u : Int := (if neg then -1 else 1) * (((roundTo .zero neg m e (-149)).1 : Nat) : Int)
    if xaccFits (x.v + u) then { y with v := x.v + u } else { y with ovf := true }

/-- Merge an accumulator into another (R228). -/
def Xacc.merge (x y : Xacc) : Xacc :=
  let ok := xaccFits (x.v + y.v)
  { v := if ok then x.v + y.v else x.v, pinf := x.pinf || y.pinf, ninf := x.ninf || y.ninf, nan := x.nan || y.nan,
    ovf := x.ovf || y.ovf || !ok, terms := termSat (x.terms + y.terms) }

/-- The value that an accumulator rounds from (R229): NaN, an infinity, or V × 2^-149, +0 where V is 0. -/
def Xacc.value (x : Xacc) : Num :=
  if x.nan || x.ovf || (x.pinf && x.ninf) then .nan
  else if x.pinf then .inf false
  else if x.ninf then .inf true
  else .fin (decide (x.v < 0)) x.v.natAbs (-149)

/-- The 64-byte image of an accumulator (R231). -/
def Xacc.image (x : Xacc) : List Byte :=
  leBytes 52 (intBits 416 x.v) ++
  leBytes 1 ((if x.pinf then 1 else 0) + (if x.ninf then 2 else 0) + (if x.nan then 4 else 0) + (if x.ovf then 8 else 0)) ++
  [0, 0, 0] ++ leBytes 8 x.terms

/-- Whether an image has a reserved bit set (R231). -/
def imageBad (bs : List Byte) : Bool := decide (leNat ((bs.drop 52).take 4) / 16 ≠ 0)

/-- The accumulator that an image holds (R231). -/
def Xacc.ofImage (bs : List Byte) : Xacc :=
  let fl := leNat ((bs.drop 52).take 1)
  { v := toSigned 416 (leNat (bs.take 52)), pinf := fl.testBit 0, ninf := fl.testBit 1, nan := fl.testBit 2,
    ovf := fl.testBit 3, terms := leNat ((bs.drop 56).take 8) }

/-- Round an accumulator into a format (R229); an integer target takes 0 for NaN. -/
def Xacc.round (x : Xacc) (dst : Elem) (sat : Bool) : Nat :=
  match dst with
  | .flt f => (encodeFlt f sat x.value).1
  | .int b => (encodeInt b x.value).1
  | .mx _ | .xacc => 0

end Sys2Proof.Machine
end

