-- ==== Sys2Proof/Machine/Reads.lean ====
section
/-! DEFINITION. Reads that the device issues on the host link and on the downstream ports: limits, tags, quarantine, and the
bytes that a descriptor waits for (R59, R66 to R69, R93). Port 0 is the host link, port n + 1 is downstream port n. -/

namespace Sys2Proof.Machine

/-- The page of a link: HLK, or the instance of DLK. -/
def linkPage (port : Nat) : Page := if port = 0 then Blk.hlk.page else ⟨.dlk, port - 1⟩

/-- A downstream port. -/
def State.dport (s : State) (n : Nat) : DPort := Tab.get DPort.reset s.dports n

/-- Change a downstream port. -/
def State.updDport (s : State) (n : Nat) (f : DPort → DPort) : State := { s with dports := Tab.insert s.dports n (f (s.dport n)) }

/-- Whether a downstream port may issue requests: READY, not going down (R90), data plane free, not in the safe state. -/
def State.dportUp (s : State) (n : Nat) : Bool :=
  decide ((s.dport n).state = .ready) && !(s.dport n).goingDown && !s.dataHeld && !s.flt.safe

/-- Tag space and reads outstanding of a tag mode (R59): 2 is 14-bit, 1 is 10-bit, 0 is 8-bit. A space of n tags is the values 0
to n − 1 (DESIGN CHOICE for the 768 of 10-bit mode: R59 gives their number alone; assumption 120). -/
def tagLimits (mode : Nat) : Nat × Nat := if mode = 2 then (16384, 4096) else if mode = 1 then (768, 768) else (256, 256)

/-- The tag mode of a link as it was negotiated (R58, R82). -/
def State.tagMode (s : State) (port : Nat) : Nat :=
  if port = 0 then (s.reg Blk.hlk.page 0x108).field 61 60 else (s.dport (port - 1)).tagMode

/-- The limit on reads outstanding of a link (R59, HLK.CFG.READS_MAX). -/
def State.readLimit (s : State) (port : Nat) : Nat :=
  if port = 0 then min (tagLimits (s.tagMode 0)).2 ((s.reg Blk.hlk.page 0x100).field 44 32)
  else (tagLimits (s.tagMode port)).2

/-- The completion timeout of a link in NOC cycles (R66, R93): on the host link within the range that the Completion
Timeout Value field selects. -/
def State.readTimeout (s : State) (port : Nat) : Nat :=
  let t := (s.reg (linkPage port) 0x100).field 31 0 * 4096
  if port = 0 then max s.hlk.cfg.ctoLo (min t s.hlk.cfg.ctoHi) else t

/-- Reads outstanding on a link. -/
def State.outstanding (s : State) (port : Nat) : Nat := (s.reads.filter (fun r => r.port = port)).length

/-- Whether a tag is neither outstanding nor quarantined. -/
def State.tagFree (s : State) (port tag : Nat) : Bool :=
  !(s.reads.any (fun r => decide (r.port = port) && decide (r.tag = tag))) &&
  !(s.quar.any (fun q => decide (q.port = port) && decide (q.tag = tag)))

/-- The next free tag in rotation (R59). -/
def State.nextTag (s : State) (port : Nat) : Option Nat :=
  let n := (tagLimits (s.tagMode port)).1
  let start := if port = 0 then s.hlk.nextTag else (s.dport (port - 1)).nextTag
  ((List.range n).map (fun i => (start + i) % n)).find? (fun t => s.tagFree port t)

/-- Reads of a link end without their completions: their tags go into quarantine (R67). -/
def State.endReads (s : State) (which : HostRead → Bool) (timedOut : Bool) : State :=
  { s with
    quar := s.quar ++ (s.reads.filter which).map (fun r => { port := r.port, tag := r.tag, timedOut := timedOut, at_ := s.clk.noc }),
    reads := s.reads.filter (fun r => !which r) }

/-! ## The memory that a descriptor names (R45, R82, R105) -/

/-- Base of a downstream port's window (R82). -/
def windowBase (n : Nat) : Nat := 0x0100000000000000 + n * 0x10000000000

/-- The downstream port whose window holds an address. -/
def windowPort (a : Nat) : Option Nat :=
  if windowBase 0 ≤ a ∧ a < windowBase 6 then some ((a - windowBase 0) / 0x10000000000) else none

/-- Where a descriptor's operand lies: HBM, the host (with the VI of the ring, or P0's), or a downstream port's window. -/
inductive Space where
  | hbm
  | host
  | window
  deriving DecidableEq, Repr

/-- The PASID of a requester: none for P0 (R60). -/
def State.pasidOf (s : State) (v : Option Nat) : Option Nat := v.map (fun v => (s.vi v).pasid)

/-- Whether partition p may reach len bytes at a in a space (R45): HBM granules it owns; a window of a port it owns; any host
address that the ring's PASID reaches (R60), which the host's tables alone know. -/
def State.mayReach (s : State) (p : Nat) (v : Option Nat) (sp : Space) (a len : Nat) : Bool :=
  match sp with
  | .hbm => s.ownsHbm p a len
  | .host => Config.hostReach (s.pasidOf v) a len s.clk.noc
  | .window =>
    match windowPort a, windowPort (a + (len - 1)) with
    | some n, some m => decide (n = m) && s.owns p tyPort n
    | _, _ => false

/-- Whether memory of a space takes writes now: the host link or the downstream port may issue requests. Work that has bytes to
write there waits until it may (R76, R77, R90; DESIGN CHOICE for a port that is not READY, assumption 121). -/
def State.spaceUp (s : State) (sp : Space) (v : Option Nat) (a : Nat) : Bool :=
  match sp with
  | .hbm => true
  | .host => s.hostReady v
  | .window =>
    match windowPort a with
    | some n => s.dportUp n
    | none => true

/-- Do what writes bytes to memory of a space once it takes writes; until then the descriptor waits, and is run again. -/
def State.whenUp (s : State) (sp : Space) (v : Option Nat) (a : Nat) (act : State) : State := if s.spaceUp sp v a then act else s

/-- Write bytes for a descriptor of a ring's VI, to memory that takes writes now; a partner gets requests of at most
Max_Payload_Size (R86). -/
def State.put (s : State) (sp : Space) (v : Option Nat) (a : Nat) (data : List Byte) : State :=
  match sp with
  | .hbm => s.setBytes a data
  | .host => s.hostWrite v a data
  | .window =>
    match windowPort a with
    | some n =>
      if s.dportUp n then
        (pieces (s.dport n).maxPayload a data.length).foldl (fun t p =>
          (t.count ⟨.dlk, n⟩ 1 1).emit (.partnerWrite n p.1 ((data.drop (p.1 - a)).take p.2))) s
      else s
    | none => s

/-- Whether every byte of an extent has arrived in a buffer keyed by address. -/
def bufHas (b : Tab Byte) (a len : Nat) : Bool := (List.range len).all (fun i => (Tab.find b (a + i)).isSome)

/-- The bytes of an extent of a buffer. -/
def bufBytes (b : Tab Byte) (a len : Nat) : List Byte := (List.range len).map (fun i => Tab.get 0 b (a + i))

/-- Put arrived bytes into the buffer of a descriptor. -/
def bufPut (b : Tab Byte) (a : Nat) (data : List Byte) : Tab Byte :=
  match data with
  | [] => b
  | x :: r => bufPut (Tab.insert b a x) (a + 1) r

/-- Whether two extents share a byte. -/
def shares (h1 : Bool) (a1 n1 : Nat) (h2 : Bool) (a2 n2 : Nat) : Bool :=
  decide (h1 = h2) && decide (a1 < a2 + n2) && decide (a2 < a1 + n1) && decide (n1 ≠ 0) && decide (n2 ≠ 0)

/-- DETAIL of a conversion or sum that a failed read at an address, in HBM or not, ends (R235): the first element of the 64-byte
chunk, or 0xFFFF_FFFF for the starting image of a SUM. -/
def numDetail (ws : List Word) (hbm : Bool) (addr : Nat) : Nat :=
  let src := (wordAt ws 2).toNat
  let ss := (wordAt ws 5).toNat
  match elemOf (wf ws 4 31 28) with
  | some el =>
    let n := wf ws 4 63 32
    if hbm = wb ws 4 22 ∧ src ≤ addr ∧ addr < src + n * el.bits / 8 then (addr - src) / 64 * 512 / el.bits
    else if hbm = wb ws 4 22 ∧ el.isMx ∧ ss ≤ addr ∧ addr < ss + n / 32 then (addr - ss) / 64 * 2048
    else 0xFFFFFFFF
  | none => 0

/-- DETAIL of an INGEST that a failed read ends (R258): the token at which it stopped, which holds the address. -/
def State.ingestDetail (s : State) (ws : List Word) (addr : Nat) : Nat :=
  let h := (s.seq (kSeq ws)).shape
  let per := 2 * h.g * h.gh * h.d
  let bits := ((elemOf (wf ws 4 39 36)).map Elem.bits).getD 1
  let src := (wordAt ws 2).toNat
  kFirst ws + (if src ≤ addr ∧ addr < src + kNtok ws * per * bits / 8 then (addr - src) * 8 / (per * bits)
    else (addr - (wordAt ws 5).toNat) * 32 / per)

/-- DETAIL of an operation that a failed read of an operand ends, by its engine. -/
def State.operandDetail (s : State) (w : Work) (hbm : Bool) (addr : Nat) : Nat :=
  match dEngine w.words, dOpcode w.words with
  | 9, _ => numDetail w.words hbm addr
  | 4, 2 => s.ingestDetail w.words addr
  | _, _ => 0

/-- The ERR_STAT bit that an engine sets when a read of an operand ends with a status: NUM for a poisoned read, ATT for any
failed read of a request record. -/
def readErrBit (engine opcode : Nat) (st : Status) : Option (Blk × Nat) :=
  match engine, opcode with
  | 9, _ => if st = .poisoned then some (.num, 1) else none
  | 5, 1 => some (.att, 1)
  | _, _ => none

/-- The packet of a WRITE or SPATE_SEND that holds a byte of its local buffer. -/
def packetOf (mtu : Nat) (w : Work) (addr : Nat) : Nat := (addr - (wordAt w.words 2).toNat) / mtu

/-- End the work of a descriptor whose operand read at an address failed, where it has not ended before: a WRITE stops at that
packet (R171), a SPATE_SEND ends there (R145), and the group of a CONTRIBUTE fails (R246). -/
def State.operandFailed (s : State) (ring idx : Nat) (hbm : Bool) (addr : Nat) (st : Status) : State :=
  match s.workAt ring idx with
  | some w =>
    if w.phase = .done then s
    else
      let s1 := match readErrBit (dEngine w.words) (dOpcode w.words) st with
        | some b => s.errFor b.1 b.2 w.part
        | none => s
      match dEngine w.words, dOpcode w.words with
      | 1, 1 => s1.workDone ring idx st (packetOf (mtuBytes (wf w.words 5 23 22)) w addr) 0 0
      | 2, 1 => s1.writeReadFailed ring idx (packetOf (mtuBytes (s1.conn (rConn w.words)).mtu) w addr) st
      | 3, 2 =>
        (s1.workDone ring idx st 0 0 0).failGroup (groupKey w.part (wf w.words 4 63 44)) st
      | _, _ => s1.workDone ring idx st (s.operandDetail w hbm addr) 0 0
  | none => s

/-- What the end of a read with this status, after got bytes have arrived, does to what it was for: a descriptor ends with the
status; a command of the storage front end fails with it. (A ring's own fetch is handled by the rings, R109.) -/
def State.failOperand (s : State) (u : ReadUse) (got : Nat) (st : Status) (noSignal : Bool) : State :=
  match u with
  | .operand ring idx addr =>
    (s.operandFailed ring idx false (addr + got) st).updWork ring idx (fun w => { w with noSignal := w.noSignal || noSignal })
  | .nvme q cid =>
    { s with sto := { s.sto with cmds := s.sto.cmds.map (fun c =>
        if c.q = q ∧ c.cid = cid ∧ c.failed = none then { c with failed := some st } else c) } }
  | .desc _ _ | .serve _ _ _ | .gone => s

/-! ## Translation and page requests (R58, R60, R61, R161) -/

/-- The address translation cache takes a page; it holds 8,192 entries (R58). -/
def State.atcPut (s : State) (v : Option Nat) (page : Nat) : State :=
  { s with hlk := { s.hlk with atc := ({ pasid := s.pasidOf v, page := page } :: s.hlk.atc).take 8192 } }

/-- Whether a host page of a requester is known to be present: always while ATS is off, when requests go untranslated. -/
def State.hostPage (s : State) (v : Option Nat) (page : Nat) : Bool :=
  !s.hlk.cfg.ats || s.hlk.atc.any (fun e => decide (e.pasid = s.pasidOf v) && decide (e.page = page))

/-- Translate a host page: a page that the cache lacks is asked for by a Translation Request, and whether its completion finds
the page present is the host's (R58, R60). -/
def State.atsPage (s : State) (v : Option Nat) (page : Nat) : State :=
  if s.hostPage v page || !s.hostReady v then s
  else
    let s1 := ({ s with free := s.free + 1 } : State).emit (.translationRequest v (page * 4096))
    if Config.atsPresent s.free then s1.atcPut v page else s1

/-- Whether page requests are stopped (R61). -/
def State.priStopped (s : State) : Bool := !s.hlk.priEn || s.hlk.respFail

/-- Ask for a host page by a page request, of which 4,096 may be outstanding (R58, R61, R161); a read that needs the page waits for
the answer, behind a request for the same page where one is outstanding. -/
def State.priAsk (s : State) (v : Option Nat) (page : Nat) (u : Option ReadUse) : State :=
  if s.hlk.pageReqs.any (fun r => decide (r.vi = v) && decide (r.page = page)) then
    { s with hlk := { s.hlk with pageReqs := s.hlk.pageReqs.map (fun r =>
        if r.vi = v ∧ r.page = page then { r with waiters := r.waiters ++ u.toList.filter (fun x => !r.waiters.contains x) }
        else r) } }
  else if !s.priStopped && s.hostReady v && decide (s.hlk.pageReqs.length < 4096) then
    let r : PageReq := { prg := s.hlk.nextPrg, vi := v, page := page, waiters := u.toList }
    (({ s with hlk := { s.hlk with pageReqs := s.hlk.pageReqs ++ [r], nextPrg := (s.hlk.nextPrg + 1) % 512 } } : State).count1
      .hlk 6).emit (.pageRequest r.prg v (page * 4096))
  else s

/-! ## Issuing reads (R58, R59) -/

/-- The checks of HLK at the swap. -/
def State.hlkChecks (s : State) : List (Nat × Bool) := [(0x100, decide ((s.shade Blk.hlk.page 0x100).field 44 32 = 0))]

/-- A TLP of the host link: after the swap of HLK, where one is armed (R38). -/
def State.hlkTake (s : State) : State := s.swapFirst Blk.hlk.page s.hlkChecks

/-- Put a read on a link under a tag. -/
def State.readOut (s : State) (port tag : Nat) (v : Option Nat) (part : Nat) (use : ReadUse) (addr len : Nat) : State :=
  let n := (tagLimits (s.tagMode port)).1
  let s1 : State := { s with reads := s.reads ++
    [{ port := port, tag := tag, vi := v, part := part, use := use, addr := addr, len := len, at_ := s.clk.noc, got := [] }] }
  let s2 : State := if port = 0 then { s1 with hlk := { s1.hlk with nextTag := (tag + 1) % n } }
    else s1.updDport (port - 1) (fun d => { d with nextTag := (tag + 1) % n })
  (s2.count (linkPage port) 1 1).emit (.hostRead port tag v addr len)

/-- Whether a read serves a remote READ_REQ: its region's pages have been translated, or are asked for untranslated (R151). -/
def ReadUse.served (u : ReadUse) : Bool :=
  match u with
  | .serve _ _ _ => true
  | .operand _ _ _ | .nvme _ _ | .desc _ _ | .gone => false

/-- Issue one read, whose bytes lie in one page; the Bool says whether it was issued. It is held while the link or the VI may not
issue, no tag is free or the limit is reached (R59), and while its page is asked for; with page requests stopped, the
descriptor that needs the page ends with PAGE_NOT_READY (R61). -/
def State.issueRead (s : State) (port : Nat) (v : Option Nat) (part : Nat) (use : ReadUse) (addr len : Nat) : Bool × State :=
  let s0 := if port = 0 then s.hlkTake else s
  let up := if port = 0 then s0.hostReady v else s0.dportUp (port - 1)
  if up && decide (s0.outstanding port < s0.readLimit port) then
    match s0.nextTag port with
    | some t =>
      if port = 0 ∧ use.served = false then
        let s1 := s0.atsPage v (addr / 4096)
        if s1.hostPage v (addr / 4096) then (true, s1.readOut port t v part use addr len)
        else if s1.priStopped then (false, s1.failOperand use 0 .pageNotReady false)
        else (false, s1.priAsk v (addr / 4096) (some use))
      else (true, s0.readOut port t v part use addr len)
    | none => (false, s0)
  else (false, s0)

/-- Whether a host read that could be issued needs a page that no page request can be made for (R61). -/
def State.pageNever (s : State) (v : Option Nat) (addr : Nat) : Bool :=
  s.hostReady v && decide (s.outstanding 0 < s.readLimit 0) && (s.nextTag 0).isSome && !s.hostPage v (addr / 4096) && s.priStopped

/-- Whether a descriptor is in progress. -/
def State.workLive (s : State) (ring idx : Nat) : Bool :=
  match s.workAt ring idx with
  | some w => decide (w.phase ≠ .done)
  | none => false

/-- Whether a use has a read outstanding, or waits for a page. -/
def State.asked (s : State) (u : ReadUse) : Bool :=
  s.reads.any (fun r => decide (r.use = u)) || s.hlk.pageReqs.any (fun r => r.waiters.contains u)

/-- The extent in the pieces that a link reads: Max_Read_Request_Size on the host link (R58), 4,096 bytes on a downstream port. -/
def State.readPieces (s : State) (port a len : Nat) : List (Nat × Nat) :=
  pieces (if port = 0 then s.hlk.cfg.maxRead else 4096) a len

/-- Ask for the pieces of an extent that have neither arrived nor been asked for; a piece that the link holds back is asked
for when the operation is run again. -/
def State.askPieces (s : State) (w : Work) (port : Nat) (ps : List (Nat × Nat)) : State :=
  ps.foldl (fun t p =>
    if bufHas w.buf p.1 p.2 || t.asked (.operand w.ring w.idx p.1) || !t.workLive w.ring w.idx then t
    else (t.issueRead port w.vi w.part (.operand w.ring w.idx p.1) p.1 p.2).2) s

/-! ## Reading the operands of a descriptor (R45, R69, R469) -/

/-- What reading a descriptor's operand answers: its bytes; or not yet, in the state in which the missing reads are
asked for; or never, in the state in which a failed read has ended the operation. -/
inductive Fetch where
  | got (data : List Byte)
  | wait (s : State)
  deriving Repr

/-- Read len bytes at a for a started descriptor: HBM at once, where a line whose second read fails too ends the operation with
POISONED (R469); host and partner memory by reads. While the VI or the link is stopped for good the read is never made; the
events that stop it end the descriptor (R70). -/
def State.fetch (s : State) (w : Work) (sp : Space) (a len : Nat) : Fetch :=
  let go (port : Nat) : Fetch :=
    if bufHas w.buf a len then .got (bufBytes w.buf a len)
    else .wait ((s.updWork w.ring w.idx (fun x => { x with phase := .fetching })).askPieces w port (s.readPieces port a len))
  match sp with
  | .hbm =>
    match s.firstBad a len with
    | some b => .wait (s.operandFailed w.ring w.idx true b .poisoned)
    | none => .got (s.bytes a len)
  | .host => go 0
  | .window =>
    match windowPort a with
    | some n => go (n + 1)
    | none => .got []

/-- The space of an operand: HBM by its descriptor's bit, else a downstream port's window where the address lies in one
(R82), else host memory. -/
def spaceOf (hbm : Bool) (a : Nat) : Space := if hbm then .hbm else if (windowPort a).isSome then .window else .host

/-- Read several extents for a started descriptor: all their bytes once every one has arrived, and meanwhile the state in
which the missing reads are asked for; nothing more is asked for once a read has ended the descriptor. -/
def State.fetchAll (s : State) (w : Work) (xs : List (Space × Nat × Nat)) : Option (List (List Byte)) × State :=
  match xs with
  | [] => (some [], s)
  | x :: r =>
    match s.fetch w x.1 x.2.1 x.2.2 with
    | .got d =>
      let t := s.fetchAll w r
      (t.1.map (fun l => d :: l), t.2)
    | .wait s1 => (none, if s1.workLive w.ring w.idx then (s1.fetchAll w r).2 else s1)

end Sys2Proof.Machine
end

