-- ==== Sys2Proof/Machine/Rings.lean ====
section
/-! DEFINITION. Rings, descriptors, doorbells, completions and sync objects (06_rings_and_sync.md). -/

namespace Sys2Proof.Machine

/-! ## Fetch, start and end of descriptors (R99 to R102, R109) -/

/-- Whether a partition takes work: ACTIVE (R48) and not contained (R475). -/
def State.partTakes (s : State) (p : Nat) : Bool := decide ((s.part p).state = .active) && !s.flt.parts.contains p

/-- Register the wait of the descriptor that has just reached the head of its ring, and evaluate it (R100). -/
def State.settleHead (s : State) (n : Nat) : State :=
  let r := s.ring n
  match r.fetched with
  | d :: rest =>
    if d.headAt = none then
      let d1 := { d with headAt := some s.clk.noc }
      s.setRing n (({ r with fetched := d1 :: rest }).release (dWaitSync d.words) (s.syncVal (dWaitSync d.words)))
    else s
  | [] => s

/-- Put a fetched descriptor behind those already fetched, with the outcome of its check (R99). -/
def State.fetched (s : State) (n idx : Nat) (ws : List Word) : State :=
  let r := s.ring n
  let d : Desc := { idx := idx, words := ws, bad := s.descCheck (s.ringPart n) ws, headAt := none, released := false,
                    gen := s.applied Blk.rng.page }
  ((s.setRing n { r with fetched := r.fetched ++ [d] }).count1 .rng 1).settleHead n

/-- A submission ring enters STOPPED and says why (R108, R109); the STATUS of an event of cause 1, which R108 does not give, is OK
(DESIGN CHOICE, assumption 123). -/
def State.ringStopped (s : State) (n cause : Nat) (st : Status) : State :=
  let s1 := s.setRing n { s.ring n with state := .stopped, stopping := none }
  (s1.setIntBit Blk.rng.page 9).event (s.ringPart n) 0x0002 st n (Word.of cause) 0 0

/-- A ring that must stop stops once none of its started descriptors remains (R108). -/
def State.tryStop (s : State) (n : Nat) : State :=
  let r := s.ring n
  match r.stopping with
  | some st =>
    if r.state = .enabled ∧ (s.work.any (fun w => decide (w.ring = n))) = false then s.ringStopped n 1 st else s
  | none => s

/-- A fetch from ring memory fails: the ring stops with CONS at the first descriptor not fetched (R109). -/
def State.fetchFailed (s : State) (n idx : Nat) (st : Status) : State :=
  (s.setRing n { s.ring n with cons := idx }).ringStopped n 2 st

/-- Whether the device fetches from a submission ring now (R50, R52, R99, R110, R427, R428, R475). -/
def State.mayFetch (s : State) (n : Nat) : Bool :=
  let r := s.ring n
  decide (r.type = .submission) && decide (r.state = .enabled) && r.stopping.isNone && decide (r.count ≠ 0) &&
  s.partTakes (s.ringPart n) && !s.flt.safe && !s.dataHeld && decide ((s.ring r.cplRing).held = []) &&
  decide (s.fwi.phase ≠ 3) && !(s.fwi.opLapsed && !r.viEn && !r.hbm) &&
  (!r.viEn || decide ((s.vi r.vi).state = .enabled)) &&
  !(s.reads.any (fun x => match x.use with
    | .desc q _ => decide (q = n)
    | .operand _ _ _ | .nvme _ _ | .serve _ _ _ | .gone => false))

/-- The index after i. -/
def nextIdx (i : Nat) : Nat := (i + 1) % 2 ^ 32

/-- Fetch the next descriptor of a ring: from HBM at once, where a second failed read leaves a lasting fault and stops the ring
with POISONED; from host memory by a read, which waits while its page is asked for (R99, R105, R109, R469). -/
def State.descFetch (s : State) (n : Nat) (err : Option Status) : State :=
  if s.mayFetch n then
    let r := s.ring n
    let a := r.base + 64 * (r.cons % 2 ^ r.logSize)
    if r.hbm then
      let s1 := if err.isSome then s.markBad a else s
      if (s1.firstBad a 64).isSome then s1.fetchFailed n r.cons .poisoned
      else (s1.setRing n { r with cons := nextIdx r.cons }).fetched n r.cons (s1.words a 8)
    else
      match s.issueRead 0 r.viOf (s.ringPart n) (.desc n r.cons) a 64 with
      | (true, s1) => s1.setRing n { s1.ring n with cons := nextIdx r.cons }
      | (false, s1) => if s1.pageNever r.viOf a then s1.fetchFailed n r.cons .pageNotReady else s1
  else s

/-- DESC_FETCH: a descriptor is fetched from ring memory and checked (R99); err says that both reads of HBM failed (R109). -/
def execDescFetch (ring : Nat) (err : Option Status) (s : State) : Host.Outcome State Fault Refusal :=
  .next (s.descFetch ring err)

/-- A descriptor as started work. -/
def State.toWork (s : State) (n : Nat) (d : Desc) (ph : Phase) (st : Status) : Work :=
  let r := s.ring n
  { ring := n, idx := d.idx, part := s.ringPart n, words := d.words, phase := ph, buf := [], want := 0, ctx := .none,
    status := st, detail := 0, r0 := 0, r1 := 0, noSignal := false, startPkt := s.clk.pkt,
    gen := s.applied (enginePage (dEngine d.words)), rgen := d.gen, cpl := r.cplRing, vi := r.viOf }

/-- The descriptor at the head leaves the ring for the engines, and the next reaches the head. -/
def State.popHead (s : State) (n : Nat) (w : Work) : State :=
  let r := s.ring n
  (({ s with work := s.work ++ [w] }).setRing n { r with fetched := r.fetched.drop 1 }).settleHead n

/-- Whether the clusters of an engine are stopped (R10, R443, R444). Cellar, Kiln and the conversion engines stand on both core
dies, and work goes on while either's gate is open (DESIGN CHOICE, assumption 122: no rule says which die serves a descriptor). -/
def State.engineStopped (s : State) (engine : Nat) : Bool :=
  match engine with
  | 1 | 2 => s.clusterStopped 20
  | 3 => s.clusterStopped 22
  | 4 | 6 | 9 => s.clusterStopped 12 && s.clusterStopped 13
  | 7 => s.clusterStopped 24
  | 8 => s.clusterStopped 21
  | _ => false

/-- Whether the descriptor at the head of a ring may start: its fence and its wait hold (R100); one that a check refused
waits for nothing (R99). -/
def State.mayStart (s : State) (n : Nat) (d : Desc) : Bool :=
  !s.flt.safe && !s.dataHeld &&
  (d.bad.isSome ||
   (!s.engineStopped (dEngine d.words) && (!dFence d.words || !(s.work.any (fun w => decide (w.ring = n)))) && (!dWaitEn d.words || d.released)))

/-- Start the descriptor at the head of a ring (R100). -/
def State.descStart (s : State) (n : Nat) : State :=
  let r := s.ring n
  match r.fetched with
  | d :: _ =>
    if (decide (r.state = .enabled) || decide (r.state = .stopped)) && s.mayStart n d then
      match d.bad with
      | some st => s.popHead n (s.toWork n d .done st)
      | none => s.popHead n (s.toWork n d .ready .ok)
    else s
  | [] => s

/-- DESC_START: the descriptor at the head of its ring starts on its engine (R100). -/
def execDescStart (ring : Nat) (s : State) : Host.Outcome State Fault Refusal := .next (s.descStart ring)

/-- End the wait of the descriptor at the head of a ring whose limit has passed (R101). -/
def State.waitTimeout (s : State) (n : Nat) : State :=
  let r := s.ring n
  match r.fetched with
  | d :: _ =>
    match d.headAt with
    | some t =>
      if decide (r.waitTo ≠ 0) && dWaitEn d.words && !d.released && d.bad.isNone &&
         decide (t + r.waitTo * 65536 ≤ s.clk.noc) then
        s.popHead n (s.toWork n d .done .timeout)
      else s
    | none => s
  | [] => s

/-- WAIT_TIMEOUT: a wait not met in time completes its descriptor with TIMEOUT (R101). -/
def execWaitTimeout (ring : Nat) (s : State) : Host.Outcome State Fault Refusal := .next (s.waitTimeout ring)

/-- The completion entry of a finished descriptor (R103). -/
def Work.entry (w : Work) : Cpl :=
  { ring := w.ring, idx := w.idx, tag := dTag w.words, engine := dEngine w.words, status := w.status, detail := w.detail,
    r0 := w.r0, r1 := w.r1, suppress := dSuppress w.words, signal := signalObj w.words w.status w.noSignal, part := w.part }

/-- A finished descriptor ends: entry, addition, interrupt (R102, R113). -/
def State.descEnd (s : State) (n idx : Nat) : State :=
  match s.workAt n idx with
  | some w =>
    if w.phase = .done then
      let s1 : State := { s with work := s.work.filter (fun x => !(decide (x.ring = n) && decide (x.idx = idx))) }
      let s2 := if w.status = .ok then s1 else s1.count1 .rng 2
      (s2.complete w.cpl w.entry).tryStop n
    else s
  | none => s

/-- DESC_END: a descriptor ends (R102). -/
def execDescEnd (ring idx : Nat) (s : State) : Host.Outcome State Fault Refusal := .next (s.descEnd ring idx)

/-- Write held entries of a completion ring, in order, while it takes them; k bounds how many (R110). -/
def State.heldWrite (s : State) (n k : Nat) : State :=
  match k with
  | 0 => s
  | k + 1 =>
    match (s.ring n).held with
    | c :: rest =>
      if s.cplReady n then
        ((s.setRing n { s.ring n with held := rest }).cplWrite n c).heldWrite n k
      else s
    | [] => s

/-- HELD_CPL_WRITE: held completion entries and their signals are written in order (R110). -/
def execHeldCplWrite (ring : Nat) (s : State) : Host.Outcome State Fault Refusal :=
  .next (s.heldWrite ring (s.ring ring).held.length)

/-! ## RNG commands (R106, R112) -/

/-- The type that CTX1.TYPE codes; 3 is not one. -/
def RingType.ofCode (c : Nat) : Option RingType :=
  if c = 0 then some .submission else if c = 1 then some .completion else if c = 2 then some .event else none

/-- The code of a ring's type. -/
def RingType.code : RingType → Nat
  | .submission => 0 | .completion => 1 | .event => 2

/-- The code of a ring's state (R106). -/
def RingState.code : RingState → Nat
  | .disabled => 0 | .enabled => 1 | .draining => 2 | .stopped => 3

/-- Bytes of one entry of a ring of this type. -/
def RingType.entryBytes (t : RingType) : Nat := if t = .submission then 64 else 32

/-- The context that three words spell (RNG.CTX0 to CTX2); a TYPE of 3 reads as submission and is refused by the format
check. -/
def ringOfCtx (c0 c1 c2 : Word) : Ring :=
  { Ring.reset with
    setUp := true, hbm := c0.bit 0, base := c0.field 63 12 * 4096, logSize := c1.field 63 59,
    type := (RingType.ofCode (c1.field 58 57)).getD .submission, vi := c1.field 56 45, viEn := c1.bit 44,
    dbSlot := c1.field 43 35, cplRing := c1.field 34 18, waitTo := c2.field 63 48, irqEn := c2.bit 47,
    vector := c2.field 46 36 }

/-- The format checks of SETUP (R105, R106, R113). -/
def ringFormatBad (c1 : Word) (x : Ring) : Bool :=
  decide (c1.field 58 57 = 3) || decide (x.logSize < 4) || decide (20 < x.logSize) ||
  decide (x.base % (2 ^ x.logSize * x.type.entryBytes) ≠ 0) || (x.viEn && decide (64 ≤ x.vector))

/-- The outcome of the checks of SETUP for ring n and a context (R39, R106). -/
def State.setupCheck (s : State) (n : Nat) (c1 : Word) (x : Ring) : Status :=
  if ringFormatBad c1 x then .format
  else
    match s.ownerOf tyRing n with
    | none => .state
    | some p =>
      firstFail
        [((x.hbm && !s.ownsHbm p x.base (2 ^ x.logSize * x.type.entryBytes)) || (x.viEn && !s.owns p tyVi x.vi) ||
          (decide (x.type = .submission) && !s.owns p tyRing x.cplRing), .accessViolation),
         (decide (x.type = .submission) &&
          !((s.ring x.cplRing).setUp && decide ((s.ring x.cplRing).type = .completion)), .format),
         (decide ((s.ring n).state ≠ .disabled) ||
          (x.viEn && s.rings.any (fun e => decide (e.1 ≠ n) && e.2.setUp && e.2.viEn && decide (e.2.vi = x.vi) &&
            decide (e.2.dbSlot = x.dbSlot))), .state)]

/-- Discard the entries held for a completion ring, with their additions (R110). -/
def State.discardHeld (s : State) (n : Nat) : State :=
  let r := s.ring n
  let k := r.held.length
  let s1 := s.setRing n { r with held := [] }
  if k = 0 then s1 else s1.count Blk.rng.page 8 k

/-- SETUP with a context: its effect after its checks (R106). A ring set up as another type is its owner's event ring no more
(R112). -/
def State.ringSetup (s : State) (n : Nat) (x : Ring) : State :=
  let p := s.ringPart n
  let s1 := (s.discardHeld n).setRing n x
  if decide (x.type ≠ .event) && decide ((s.part p).pevt = some n) then s1.setPart p { s1.part p with pevt := none } else s1

/-- The capsule queue of a ring is reset (R333): commands not started end, started ones run on, and the queue goes once none is
left. -/
def State.capsuleClose (s : State) (n : Nat) : State :=
  let q := 2 ^ 20 + n
  let gone := s.sto.cmds.filter (fun c => decide (c.q = q) && !c.started)
  let s1 : State := { s with sto := { s.sto with
    cmds := s.sto.cmds.filter (fun c => decide (c.q ≠ q) || c.started),
    queues := if s.sto.cmds.any (fun c => decide (c.q = q) && c.started) then
        Tab.upd s.sto.queues q (fun x => { x with closing := true })
      else Tab.erase s.sto.queues q } }
  let s2 := if (Tab.find s.sto.queues q).isSome then s1.count1 .sto 8 else s1
  gone.foldl (fun t c => match c.desc with
    | some d => (t.workFail d.1 d.2 .abortedByReset).updWork d.1 d.2 (fun w => { w with noSignal := true })
    | none => t) s2

/-- A use that is no longer wanted where it is the fetch of ring n. -/
def ReadUse.drop (n : Nat) (u : ReadUse) : ReadUse :=
  match u with
  | .desc q i => if q = n then .gone else .desc q i
  | .operand _ _ _ | .nvme _ _ | .serve _ _ _ | .gone => u

/-- The fetch of a ring that waits for its data or for its page is forgotten: its bytes go nowhere (R106). -/
def State.fetchDrop (s : State) (n : Nat) : State :=
  { s with reads := s.reads.map (fun r => { r with use := r.use.drop n }),
           hlk := { s.hlk with pageReqs := s.hlk.pageReqs.map (fun r => { r with waiters := r.waiters.map (ReadUse.drop n) }) } }

/-- DISABLE (R106): no fetch, held descriptors complete with ABORTED_BY_RESET and no addition (R102). -/
def State.ringDisable (s : State) (n : Nat) : State :=
  let r := s.ring n
  let s1 := r.fetched.foldl (fun t d => t.abortDesc n d true) (s.fetchDrop n)
  ((s1.setRing n { r with state := .draining, fetched := [], stopping := none }).capsuleClose n)

/-- Entries held for a ring as RNG.RSTAT.HELD reports them (R110). -/
def State.heldFor (s : State) (n : Nat) : Nat :=
  let r := s.ring n
  match r.type with
  | .completion => r.held.length
  | .submission => ((s.ring r.cplRing).held.filter (fun c => c.ring = n)).length
  | .event => 0

/-- RNG.CTX0 of a ring. -/
def Ring.ctx0 (r : Ring) : Word := (Word.of r.base).setBit 0 r.hbm
/-- RNG.CTX1 of a ring. -/
def Ring.ctx1 (r : Ring) : Word :=
  ((((((0 : Word).setField 63 59 r.logSize).setField 58 57 r.type.code).setField 56 45 r.vi).setBit 44 r.viEn).setField
    43 35 r.dbSlot).setField 34 18 r.cplRing
/-- RNG.CTX2 of a ring. -/
def Ring.ctx2 (r : Ring) : Word := (((0 : Word).setField 63 48 r.waitTo).setBit 47 r.irqEn).setField 46 36 r.vector

/-- READ copies a ring to the RNG registers (R106). -/
def State.ringRead (s : State) (n : Nat) : State :=
  let r := s.ring n
  let pg := Blk.rng.page
  ((((s.setReg pg 0x108 r.ctx0).setReg pg 0x110 r.ctx1).setReg pg 0x118 r.ctx2).setReg pg 0x120
    (((0 : Word).setField 63 32 r.prod).setField 31 0 r.cons)).setReg pg 0x128
    ((((0 : Word).setField 63 62 r.state.code).setField 47 32 (s.heldFor n)).setField 31 0 r.dropped)

/-- The status of an RNG command other than SETUP (R106): a ring that nobody owns, or that was never set up, or is in
another state, gives STATE. -/
def State.ringCmdCheck (s : State) (op n : Nat) : Status :=
  let r := s.ring n
  let owned := (s.ownerOf tyRing n).isSome
  match op with
  | 0x02 => firstFail [(!owned || !r.setUp || decide (r.state ≠ .disabled) ||
      (r.viEn && decide ((s.vi r.vi).state ≠ .enabled)), .state)]
  | 0x03 => firstFail [(!owned || !r.setUp || !(decide (r.state = .enabled) || decide (r.state = .stopped)), .state)]
  | 0x04 => firstFail [(!owned || !r.setUp || decide (r.state ≠ .stopped), .state)]
  | 0x05 => .ok
  | 0x06 => firstFail [(!owned || !r.setUp || decide (r.type ≠ .event), .state)]
  | _ => .format

/-- The effect of an RNG command that passed its checks (R106). -/
def State.ringCmdDo (s : State) (op n : Nat) (x : Ring) : State :=
  let r := s.ring n
  match op with
  | 0x01 => s.ringSetup n x
  | 0x02 => s.setRing n { r with state := .enabled }
  | 0x03 => s.ringDisable n
  | 0x04 => s.setRing n { r with state := .enabled, stopping := none, cons := (s.reg Blk.rng.page 0x120).field 31 0 }
  | 0x05 => s.ringRead n
  | 0x06 =>
    let p := s.ringPart n
    s.setPart p { s.part p with pevt := some n }
  | _ => s

/-- The outcome of an RNG command with a context. -/
def State.ringCmd (s : State) (op n : Nat) (c0 c1 c2 : Word) : Status × State :=
  let x := ringOfCtx c0 c1 c2
  let st := if op = 1 then s.setupCheck n c1 x else s.ringCmdCheck op n
  if st = .ok then (.ok, s.ringCmdDo op n x) else (st, s)

/-- Run the command in a word written to RNG.CMD. -/
def rngRun (val : Word) (s : State) : State :=
  let pg := Blk.rng.page
  let op := val.field 31 24
  let n := val.field 16 0
  let res := s.ringCmd op n (s.reg pg 0x108) (s.reg pg 0x110) (s.reg pg 0x118)
  res.2.cmdEnd .rng op n res.1

/-- The word that writes OP and RING to RNG.CMD. -/
def rngCmdWord (op n : Nat) : Word := ((0 : Word).setField 31 24 op).setField 16 0 n

/-- RING_SETUP: load a DISABLED ring's context (R106). -/
def execRingSetup (ring : Nat) (s : State) : Host.Outcome State Fault Refusal :=
  .next (s.takeCmd .rng (rngCmdWord 0x01 ring) rngRun)
/-- RING_ENABLE: a set-up DISABLED ring becomes ENABLED (R106). -/
def execRingEnable (ring : Nat) (s : State) : Host.Outcome State Fault Refusal :=
  .next (s.takeCmd .rng (rngCmdWord 0x02 ring) rngRun)
/-- RING_DISABLE: a ring becomes DRAINING (R106). -/
def execRingDisable (ring : Nat) (s : State) : Host.Outcome State Fault Refusal :=
  .next (s.takeCmd .rng (rngCmdWord 0x03 ring) rngRun)
/-- RING_RESUME: a STOPPED ring becomes ENABLED again (R106). -/
def execRingResume (ring : Nat) (s : State) : Host.Outcome State Fault Refusal :=
  .next (s.takeCmd .rng (rngCmdWord 0x04 ring) rngRun)
/-- RING_READ: copy a ring to the RNG registers (R106). -/
def execRingRead (ring : Nat) (s : State) : Host.Outcome State Fault Refusal :=
  .next (s.takeCmd .rng (rngCmdWord 0x05 ring) rngRun)
/-- SET_PEVT: an event ring becomes its owner's partition event ring (R112). -/
def execSetPevt (ring : Nat) (s : State) : Host.Outcome State Fault Refusal :=
  .next (s.takeCmd .rng (rngCmdWord 0x06 ring) rngRun)

/-- RING_DISABLED: a DRAINING ring none of whose started descriptors remains becomes DISABLED (R106). -/
def execRingDisabled (ring : Nat) (s : State) : Host.Outcome State Fault Refusal :=
  .next (if (s.ring ring).state = .draining ∧ (s.work.any (fun w => decide (w.ring = ring))) = false then
      (s.setRing ring { s.ring ring with state := .disabled }).setIntBit Blk.rng.page 10
    else s)

/-! ## Doorbells (R107, R108, R111, R113) -/

/-- A doorbell is dropped and counted (R107). -/
def State.doorbellDrop (s : State) : State := s.count1 .rng 3

/-- The index of a doorbell for a submission ring: taken, or the ring must stop (R108). -/
def State.doorbellSub (s : State) (n idx : Nat) : State :=
  let r := s.ring n
  if (idx + 2 ^ 32 - r.cons) % 2 ^ 32 ≤ 2 ^ r.logSize then s.setRing n { r with prod := idx }
  else if r.state = .enabled then (s.setRing n { r with stopping := some .ok }).tryStop n
  else s

/-- The index of a doorbell for a completion or event ring: taken, with the further interrupt of R113 and the OVERFLOW
entry of R111; or RNG ERR_STAT bit 1 (R108). -/
def State.doorbellCons (s : State) (n idx : Nat) : State :=
  let r := s.ring n
  if (r.prod + 2 ^ 32 - idx) % 2 ^ 32 ≤ 2 ^ r.logSize then
    let s1 := s.setRing n { r with cons := idx }
    let s2 := if (s1.ring n).count = 0 then s1 else s1.ringIrq r
    s2.overflow n
  else s.errFor .rng 1 (s.ringPart n)

/-- A doorbell for a ring (R107): dropped for a ring that is DISABLED or DRAINING or whose partition drains (R50). -/
def State.doorbellRing (s : State) (n idx : Nat) : State :=
  let r := s.ring n
  if r.state = .disabled ∨ r.state = .draining ∨ (s.part (s.ringPart n)).state ≠ .active then s.doorbellDrop
  else if r.type = .submission then s.doorbellSub n idx
  else s.doorbellCons n idx

/-- The set-up ring of a VI at a doorbell slot. -/
def State.viRing (s : State) (v slot : Nat) : Option Nat :=
  (s.rings.find? (fun e => e.2.setUp && e.2.viEn && decide (e.2.vi = v) && decide (e.2.dbSlot = slot))).map Prod.fst

/-- A doorbell write that has reached the device, at a BAR0 offset (R107). -/
def State.doorbellAt (s : State) (off idx : Nat) : State :=
  match bar0Decode off with
  | .doorbell n =>
    if off % 8 ≠ 0 then s
    else if (s.ring n).viEn then s.doorbellDrop else s.doorbellRing n idx
  | .viDoorbell v slot =>
    if off % 8 ≠ 0 then s
    else
      match s.viRing v slot with
      | some n =>
        if (s.vi v).state = .enabled ∨ (s.vi v).state = .orphaned then s.doorbellRing n idx else s.doorbellDrop
      | none => s.doorbellDrop
  | .directory _ | .page _ _ | .aperture _ | .nothing => s

/-- A host's doorbell write: dropped while the port is frozen (R74), BAR0 is not decoded (R77) or the device is in the safe
state (R477). -/
def State.doorbell (s : State) (off : Nat) (val : Word) : State :=
  if s.frozen then (s.count1 .hlk 5).doorbellDrop
  else if decide (s.dstate = 3) || s.flt.safe then s
  else s.doorbellAt off (val.field 31 0)

/-- DOORBELL: a doorbell write delivers an index (R107). -/
def execDoorbell (off : Nat) (val : Word) (s : State) : Host.Outcome State Fault Refusal := .next (s.doorbell off val)

/-! ## Ring engine (R99) -/

/-- The sync object that a ring-engine descriptor names. -/
def Work.syncObj (w : Work) : Nat := wf w.words 2 13 0

/-- NOP: nothing beyond its wait, fence and signal (R99). -/
def execNop (ring idx : Nat) (s : State) : Host.Outcome State Fault Refusal :=
  .next (s.runDesc ring idx 0x00 0x00 (fun _ => s.workDone ring idx .ok 0 0 0))

/-- SYNC_ADD: adds VALUE to SYNC (R99, R114). -/
def execSyncAdd (ring idx : Nat) (s : State) : Host.Outcome State Fault Refusal :=
  .next (s.runDesc ring idx 0x00 0x01 (fun w =>
    if s.owns w.part tySync w.syncObj then (s.syncAdd w.syncObj (wordAt w.words 3)).workDone ring idx .ok 0 0 0
    else s.workFail ring idx .accessViolation))

/-- SYNC_SET: sets SYNC to VALUE (R99, R114). -/
def execSyncSet (ring idx : Nat) (s : State) : Host.Outcome State Fault Refusal :=
  .next (s.runDesc ring idx 0x00 0x02 (fun w =>
    if s.owns w.part tySync w.syncObj then (s.syncSet w.syncObj (wordAt w.words 3)).workDone ring idx .ok 0 0 0
    else s.workFail ring idx .accessViolation))

/-- SYNC_READ: returns the value of SYNC in RESULT word 0 (R99). -/
def execSyncRead (ring idx : Nat) (s : State) : Host.Outcome State Fault Refusal :=
  .next (s.runDesc ring idx 0x00 0x03 (fun w =>
    if s.owns w.part tySync w.syncObj then (s.syncRead w.syncObj).2.workDone ring idx .ok 0 (s.syncRead w.syncObj).1 0
    else s.workFail ring idx .accessViolation))

/-! ## The sync-object aperture (R92, R116) -/

/-- A partner's request that no window takes or that comes from a port without an owner (R92). -/
def State.inboundUnmatched (s : State) (n : Nat) : State :=
  (s.count ⟨.dlk, n⟩ 3 1).latch ⟨.dlk, n⟩ 0 4 0x7F true

/-- A partner's request that fails a check of R91: dropped or refused, with PEER_ACCESS to the port's owner (R92). -/
def State.inboundFailed (s : State) (n p addr : Nat) : State :=
  ((s.count ⟨.dlk, n⟩ 3 1).latch ⟨.dlk, n⟩ 0 5 p true).event p 0x0003 .peerViolation n (Word.of (addr / 2 ^ 32)) 0 0

/-- What an access of the sync-object aperture does once it is allowed: its effect, and the value of a read. -/
inductive SyncAct where
  | add (v : Word)
  | set (v : Word)
  | read
  deriving DecidableEq, Repr

/-- The act of an aligned 64-bit access at an aperture offset (R116). -/
def syncActAt (off : Nat) (write : Bool) (v : Word) : SyncAct :=
  if !write then .read else if off % 16 = 0 then .add v else .set v

/-- Do it; rep is the port and address to which a read replies. -/
def State.syncAct (s : State) (obj : Nat) (act : SyncAct) (port : Option Nat) (addr : Nat) : State :=
  match act with
  | .add v => s.syncAdd obj v
  | .set v => s.syncSet obj v
  | .read => (s.syncRead obj).2.emit (.readReply port addr (s.syncRead obj).1)

/-- Record a BAR0 access that R27 refuses (R81). -/
def State.urLog (s : State) (reqId off len : Nat) : State :=
  (s.setReg Blk.hlk.page 0x120 ((((0 : Word).setField 63 48 reqId).setField 47 40 len).setField 28 0 off)).err .hlk 0

/-- Whether R27 allows an access to BAR0: aligned, 4 or 8 bytes. -/
def accessOk (off len : Nat) : Bool := (decide (len = 4) || decide (len = 8)) && decide (off % len = 0)

/-- BAR0 as its reader and writer see the port's state: what an access does where the port is in D0 and not frozen, nothing in the
safe state, D3hot and under PERST_N (R77, R477), and while frozen a dropped write or a read of all ones (R74). -/
def State.bar0Gate (s : State) (rd : Bool) (off : Nat) (act : State) : State :=
  if decide (s.dstate = 3) || s.hlk.perst || s.flt.safe then s
  else if s.frozen then (if rd then s.emit (.readReply none off (~~~0)) else s.count1 .hlk 5)
  else act

/-- An access of P0 to a sync object: P0 reaches its own objects alone (R116). -/
def State.syncP0 (s : State) (obj off : Nat) (act : SyncAct) : State :=
  s.bar0Gate (decide (act = .read)) (0x0C000000 + off)
    (if s.owns 0 tySync obj then s.syncAct obj act none (0x0C000000 + off)
     else
       let s1 := s.err .syn 3
       if act = .read then s1.emit (.unsupported none (0x0C000000 + off) 8) else s1)

/-- An aperture access of another size or alignment does nothing: SYN ERR_STAT bit 1 (R116). -/
def State.syncBad (s : State) : State := s.err .syn 1

/-- Such an access of P0; one that R27 refuses is recorded with requester identifier 0, since the command names none (DESIGN CHOICE,
assumption 106; R81). -/
def State.apertureBad (s : State) (write : Bool) (off len : Nat) : State :=
  s.bar0Gate (!write) (0x0C000000 + off)
    (let s1 := s.syncBad
     let s2 := if accessOk off len then s1 else s1.urLog 0 (0x0C000000 + off) len
     if write then s2 else s2.emit (.unsupported none (0x0C000000 + off) len))

end Sys2Proof.Machine
end

