-- ==== Sys2Proof/Machine/HostLink.lean ====
section
/-! DEFINITION. The host link: completions, timeouts, resets, freeze, power states (04_host_link.md). PAGE_RESPONSE stands
with the stalls that make page requests, in 08. -/

namespace Sys2Proof.Machine

/-- The HLK page. -/
abbrev hlkPage : Page := Blk.hlk.page

/-! ## How reads end (R66 to R69, R93, R109) -/

/-- What the end of a read with a failing status does: a ring's fetch fails, of a STOPPED ring too (R109); a descriptor or an NVMe
command ends with the status, at the first byte that has not arrived. -/
def State.failRead (s : State) (r : HostRead) (st : Status) (noSignal : Bool) : State :=
  match r.use with
  | .desc n idx => if (s.ring n).state = .enabled ∨ (s.ring n).state = .stopped then s.fetchFailed n idx st else s
  | .operand _ _ _ | .nvme _ _ => s.failOperand r.use r.got.length st noSignal
  | .serve c psn _ => s.serveEnd c psn st
  | .gone => s

/-- Give a read's next bytes to what it is for. -/
def State.placeRead (s : State) (r : HostRead) (data : List Byte) : State :=
  match r.use with
  | .operand ring idx _ => s.updWork ring idx (fun w => { w with buf := bufPut w.buf (r.addr + r.got.length) data })
  | .nvme q cid =>
    { s with sto := { s.sto with cmds := s.sto.cmds.map (fun c =>
        if c.q = q ∧ c.cid = cid then { c with data := bufPut c.data (r.addr + r.got.length) data } else c) } }
  | .serve c psn _ => s.updServe c psn (fun v => { v with buf := bufPut v.buf (r.addr + r.got.length) data })
  | .desc _ _ | .gone => s

/-- A read whose bytes have all arrived: a ring's fetch gives its descriptor. -/
def State.readWhole (s : State) (r : HostRead) (all : List Byte) : State :=
  match r.use with
  | .desc n idx =>
    if (s.ring n).state = .enabled ∨ (s.ring n).state = .stopped then s.fetched n idx (bytesWords 8 all) else s
  | .operand _ _ _ | .nvme _ _ | .serve _ _ _ | .gone => s

/-- A set of AER with one more bit. -/
def aerAdd (l : List Nat) (c : Nat) : List Nat := if l.contains c then l else l ++ [c]

/-- The code under which AER keeps an Unexpected Completion; it is no cause of R73. -/
def aerUnexpected : Nat := 0x10

/-- Count a discarded completion of a quarantined tag (R68, R93). -/
def State.discardCpl (s : State) (q : Quar) : State :=
  if q.port = 0 then
    let w := s.reg hlkPage 0x140
    let s1 := s.count hlkPage 3 1
    if q.timedOut then (s1.setReg hlkPage 0x140 (w.setField 63 32 (w.field 63 32 + 1))).err .hlk 2
    else s1.setReg hlkPage 0x140 (w.setField 31 0 (w.field 31 0 + 1))
  else
    let s1 := s.count (linkPage q.port) 5 1
    if q.timedOut then s1.latch (linkPage q.port) 0 3 0x7F true else s1

/-- A completion whose tag is neither outstanding nor quarantined: discarded, and logged as an Unexpected Completion (R68,
R93). -/
def State.unexpectedCpl (s : State) (port : Nat) : State :=
  if port = 0 then ({ s with hlk := { s.hlk with aer := aerAdd s.hlk.aer aerUnexpected } } : State).err .hlk 4
  else (s.count (linkPage port) 5 1).updDport (port - 1) (fun d => { d with aer := aerAdd d.aer aerUnexpected })

/-- The outstanding read of a port and tag. -/
def State.readAt (s : State) (port tag : Nat) : Option HostRead :=
  s.reads.find? (fun r => decide (r.port = port) && decide (r.tag = tag))

/-- The outstanding reads without that of a port and tag. -/
def State.readsBut (s : State) (port tag : Nat) : List HostRead :=
  s.reads.filter (fun x => !(decide (x.port = port) && decide (x.tag = tag)))

/-- A read times out (R66): its tag is quarantined, its user ends with TIMEOUT. -/
def State.cplTimeout (s : State) (port tag : Nat) : State :=
  match s.readAt port tag with
  | some r =>
    if r.at_ + s.readTimeout port ≤ s.clk.noc then
      let s1 := s.endReads (fun x => decide (x.port = port) && decide (x.tag = tag)) true
      let s2 := if port = 0 then (s1.errFor .hlk 1 r.part).count hlkPage 4 1
        else s1.latch (linkPage port) 0 2 r.part true
      s2.failRead r .timeout false
    else s
  | none => s

/-- A completion for an outstanding read: its bytes are placed where they are due, and the read ends once they all have arrived (R67
to R69). -/
def State.readCpl (s : State) (r : HostRead) (cs : CplStatus) (data : List Byte) : State :=
  let s1 : State := { s with reads := s.readsBut r.port r.tag }
  match cs with
  | .success =>
    let d := data.take (r.len - r.got.length)
    let s2 := s1.placeRead r d
    if (r.got ++ d).length < r.len then
      { s2 with reads := s2.reads ++ [{ r with got := r.got ++ d }] }
    else s2.readWhole r (r.got ++ d)
  | .poisoned => (if r.port = 0 then s1.errFor .hlk 3 r.part else s1).failRead r .poisoned false
  | .unsupported | .abort => s1.failRead r .accessViolation false

/-- A completion TLP (R66 to R69, R93): for a read outstanding, where the timeout of a read whose time is up comes first; for a
quarantined tag; or for neither. -/
def State.completion (s : State) (port tag : Nat) (cs : CplStatus) (data : List Byte) : State :=
  let s0 := s.cplTimeout port tag
  match s0.readAt port tag with
  | some r => s0.readCpl r cs data
  | none =>
    match s0.quar.find? (fun q => decide (q.port = port) && decide (q.tag = tag)) with
    | some q => s0.discardCpl q
    | none => s0.unexpectedCpl port

/-- HOST_COMPLETION: a completion for a device read (R68). -/
def execHostCompletion (port tag : Nat) (cs : CplStatus) (data : List Byte) (s : State) :
    Host.Outcome State Fault Refusal :=
  .next (s.completion port tag cs data)

/-- CPL_TIMEOUT: a read's completion has not arrived in time (R66). -/
def execCplTimeout (port tag : Nat) (s : State) : Host.Outcome State Fault Refusal := .next (s.cplTimeout port tag)

/-- QUARANTINE_END: a tag's quarantine of twice the timeout ends (R67). The timeout is CPL_TO as it stands at the end (DESIGN
CHOICE, assumption 124: R67 does not say whether a later CPL_TO changes a quarantine that runs). -/
def execQuarantineEnd (port tag : Nat) (s : State) : Host.Outcome State Fault Refusal :=
  .next { s with quar := s.quar.filter (fun q =>
    !(decide (q.port = port) && decide (q.tag = tag) &&
      decide (q.at_ + 2 * ((s.reg (linkPage port) 0x100).field 31 0 * 4096) ≤ s.clk.noc))) }

/-! ## ATS invalidation (R62) -/

/-- Whether a read goes through a translation of a PASID (none for P0) in a range. -/
def State.readUses (s : State) (pasid : Option Nat) (addr len : Nat) (r : HostRead) : Bool :=
  decide (r.port = 0) && decide (s.pasidOf r.vi = pasid) &&
  decide (r.addr < addr + len) && decide (addr < r.addr + r.len)

/-- The validated writes of remote peers that go through a translation of a PASID in a range and have not been issued. -/
def State.writesUnder (s : State) (pasid : Option Nat) (addr len : Nat) : List (Nat × BitVec 32) :=
  s.mlr.conns.flatMap (fun e => (e.2.rxPkts.filter (fun p => p.host.isSome && decide (s.pasidOf p.host = pasid) &&
    p.segs.any (fun g => decide (g.1 < addr + len) && decide (addr < g.1 + g.2)))).map (fun p => (e.1, p.psn)))

/-- ATS_INVALIDATE: the cached translations named are dropped, and the reads and writes under them are awaited (R62). -/
def execAtsInvalidate (itag : Nat) (pasid : Option Nat) (addr len : Nat) (s : State) : Host.Outcome State Fault Refusal :=
  let s1 := s.count hlkPage 7 1
  .next { s1 with hlk := { s1.hlk with
    atc := s1.hlk.atc.filter (fun e => !(decide (e.pasid = pasid) && decide (addr / 4096 ≤ e.page) &&
      decide (e.page * 4096 < addr + len))),
    invals := s1.hlk.invals ++
      [{ itag := itag, tags := (s.reads.filter (s.readUses pasid addr len)).map (fun r => r.tag),
         writes := s.writesUnder pasid addr len, at_ := s.clk.noc }] } }

/-- Whether every read that an invalidation waits for has ended, and every write has been issued or is no more. -/
def State.invalDone (s : State) (x : Inval) : Bool :=
  !(s.reads.any (fun r => decide (r.port = 0) && x.tags.contains r.tag && decide (r.at_ ≤ x.at_))) &&
  !(x.writes.any (fun w => (s.conn w.1).rxPkts.any (fun p => decide (p.psn = w.2))))

/-- ATS_INV_COMPLETE: the Invalidation Completion is sent once those reads and writes have ended (R62). -/
def execAtsInvComplete (itag : Nat) (s : State) : Host.Outcome State Fault Refusal :=
  .next (match s.hlk.invals.find? (fun x => decide (x.itag = itag)) with
    | some x =>
      if s.invalDone x then
        ({ s with hlk := { s.hlk with invals := s.hlk.invals.filter (fun y => y.itag ≠ itag) } }).emit (.invalidationCompletion itag)
      else s
    | none => s)

/-! ## Stopping a VI (R70, R71) -/

/-- Whether a ring is a set-up ring of VI v in host memory. -/
def State.viHostRing (s : State) (v n : Nat) : Bool :=
  (s.ring n).setUp && (s.ring n).viEn && decide ((s.ring n).vi = v) && !(s.ring n).hbm

/-- The memory that a descriptor's body names, as its engine's chapter lays it out: whether it is HBM, and the address. -/
def descMems (ws : List Word) : List (Bool × Nat) :=
  let a (i : Nat) : Nat := (wordAt ws i).toNat
  match dEngine ws, dOpcode ws with
  | 1, 1 => [(wb ws 5 24, a 2)]
  | 2, 1 | 2, 2 => [(wb ws 5 38, a 2)]
  | 3, 1 => if wb ws 4 10 then [(wb ws 4 9, a 2)] else []
  | 3, 2 => [(wb ws 4 43, a 2)]
  | 4, 2 | 4, 3 => [(wb ws 4 35, a 2)]
  | 5, 1 => [(wb ws 3 63, a 2)]
  | 7, _ => if wf ws 4 63 32 = 0 then [] else [(wb ws 4 31, a 3)]
  | 8, 1 | 8, 2 => [(wb ws 6 41, a 2), (wb ws 6 40, a 3), (wb ws 6 39, a 4)]
  | 8, 3 | 8, 4 => [(wb ws 6 41, a 2), (wb ws 6 40, a 3)]
  | 8, 5 | 8, 9 => [(wb ws 6 41, a 2)]
  | 8, 8 => [(wb ws 6 40, a 2)]
  | 9, 1 => [(wb ws 4 22, a 2), (wb ws 4 21, a 3)]
  | 9, 2 => (wb ws 4 22, a 2) :: (if wb ws 4 19 || wb ws 4 20 then [(wb ws 4 21, a 3)] else [])
  | _, _ => []

/-- Whether a descriptor names host memory. -/
def descHost (ws : List Word) : Bool := (descMems ws).any (fun m => !m.1 && (windowPort m.2).isNone)

/-- Whether an engine that has taken a descriptor has a host transfer left to make for it: the response of an ATTEND, a region of
an open step that is not copied, a destination of a RESTORE. -/
def State.engineHost (s : State) (w : Work) : Bool :=
  s.att.reqs.any (fun r => decide (r.origin = .attend w.ring w.idx) && decide (wf r.hdr 0 6 5 = 1)) ||
  s.ckp.steps.any (fun x => decide (x.ring = w.ring) && decide (x.idx = w.idx) && x.abandoned.isNone &&
    x.regions.any (fun g => decide (rgSpace g.entry = 1) && !g.copied)) ||
  w.destHost

/-- Whether a descriptor in progress still has host transfers to make (R70). -/
def State.hostDue (s : State) (w : Work) : Bool :=
  decide (w.phase ≠ .done) && (s.engineHost w || (descHost w.words && (match w.ctx with
    | .send next _ _ => decide (dEngine w.words = 1) || decide (next * mtuBytes (s.conn (rConn w.words)).mtu < rLen w.words)
    | .none | .read _ _ _ _ | .probe _ _ _ | .ingest _ _ _ _ _ | .contribute _ | .cipher _ _ _ | .restore _ _ _ _ _ =>
      decide (dEngine w.words ≠ 5) || decide (w.phase ≠ .running))))

/-- Descriptors end with ABORTED_BY_RESET and make no addition; the group of an OPEN fails with it (R246). -/
def State.abortWorks (s : State) (which : Work → Bool) : State :=
  (s.work.filter which).foldl (fun t w =>
    (if dEngine w.words = 3 ∧ dOpcode w.words = 1 then
        (t.failGroup (groupKey w.part (wf w.words 4 63 44)) .abortedByReset).workFail w.ring w.idx .abortedByReset
      else t.workFail w.ring w.idx .abortedByReset).updWork w.ring w.idx (fun x => { x with noSignal := true })) s

/-- Descriptors that rings have fetched, that have not started and that name host memory end with ABORTED_BY_RESET (R70). -/
def State.abortFetched (s : State) (which : Ring → Bool) : State :=
  s.rings.foldl (fun t e =>
    if which e.2 then
      let t1 := (e.2.fetched.filter (fun d => d.bad.isNone && descHost d.words)).foldl (fun u d => u.abortDesc e.1 d true) t
      (t1.setRing e.1 { t1.ring e.1 with
        fetched := (t1.ring e.1).fetched.filter (fun d => !(d.bad.isNone && descHost d.words)) }).settleHead e.1
    else t) s

/-- The fetches of rings whose reads end unanswered are made again: CONS stands at the descriptor not fetched. -/
def State.fetchRewind (s : State) (which : HostRead → Bool) : State :=
  (s.reads.filter which).foldl (fun t r => match r.use with
    | .desc n i => t.setRing n { t.ring n with cons := i }
    | .operand _ _ _ | .nvme _ _ | .serve _ _ _ | .gone => t) s

/-- Host reads of a requester end, and every descriptor of its rings with a host transfer not made ends with ABORTED_BY_RESET (R70,
R72). -/
def State.hostStop (s : State) (v : Option Nat) : State :=
  let mine (r : HostRead) : Bool := decide (r.port = 0) && decide (r.vi = v)
  let s1 := (s.fetchRewind mine).endReads mine false
  (s1.abortWorks (fun w => decide (w.vi = v) && s.hostDue w)).abortFetched (fun r => r.setUp && decide (r.viOf = v))

/-- A VI is stopped (R70). -/
def State.viStop (s : State) (v : Nat) : State := (s.setVi v { s.vi v with state := .resetting }).hostStop (some v)

/-- The rings of a VI that lie in host memory lose their contexts at a reset, with the entries that would go to them; each
discarded entry is counted and makes no addition (R71). -/
def State.viRingsReset (s : State) (v : Nat) : State :=
  let gone (w : Work) : Bool := decide (w.vi = some v) && decide (w.phase = .done) && s.viHostRing v w.cpl
  let lost := (s.work.filter gone).length +
    (s.rings.foldl (fun a e => if s.viHostRing v e.1 then a + e.2.held.length else a) 0) +
    (s.rings.foldl (fun a e => if s.viHostRing v e.1 && s.viHostRing v e.2.cplRing then a + e.2.fetched.length else a) 0)
  let s1 := s.rings.foldl (fun t e =>
    if s.viHostRing v e.1 && !s.viHostRing v e.2.cplRing then e.2.fetched.foldl (fun u d => u.abortDesc e.1 d true) t
    else t) s
  let s2 : State := { s1 with work := s1.work.filter (fun w => !gone w),
                              rings := s1.rings.filter (fun e => !s.viHostRing v e.1) }
  if lost = 0 then s2 else s2.count Blk.vif.page 1 lost

/-- A function reset of a VI (R70, R71): VI FLR, VIF RESET, a reset of PF0. -/
def State.viReset (s : State) (v : Nat) : State := (s.viStop v).viRingsReset v

/-- The VIs that take work. -/
def State.liveVis (s : State) : List Nat :=
  (s.vis.filter (fun e => decide (e.2.state = .enabled) || decide (e.2.state = .orphaned))).map Prod.fst

/-- BME_CLEAR: P0's host requests stop, and every VI that takes work is stopped as by a clear of master-enable (R72). -/
def execBmeClear (s : State) : Host.Outcome State Fault Refusal :=
  let s1 : State := { s with hlk := { s.hlk with bme := false } }
  .next (s.liveVis.foldl (fun t v => t.viStop v) (s1.hostStop none))

/-- Send the vectors of PF0 that wait in the pending-bit array and are masked no more (R80). -/
def State.pbaSend (s : State) : State :=
  s.hlk.pba.foldl (fun t v => t.msix v) { s with hlk := { s.hlk with pba := [] } }

/-- Firmware writes a signed report to its VI's address, and ATT_STAT (R370, R371). -/
def State.attWrite (s : State) (v : Nat) : State :=
  let pg : Page := ⟨.fwi, 0x1000 + v⟩
  match s.trs.signed.find? (fun e => e.1 = v) with
  | some e =>
    let s1 : State := { s with trs := { s.trs with signed := s.trs.signed.filter (fun x => x.1 ≠ v),
                                                   attWaits := s.trs.attWaits.filter (fun x => x ≠ v) } }
    let s2 := (s1.hostWrite (some v) (s1.reg pg 0x630).toNat e.2).setReg pg 0x640 0
    s2.setVi v { s2.vi v with reportBusy := false }
  | none => s

/-- Send the interrupts of PF0 and of VIs that were held while the link issued nothing, and write the reports that waited with them
(R74, R77). -/
def State.flushIrq (s : State) : State :=
  if s.hostUp then
    let s1 := s.hlk.heldIrq.foldl (fun t v => t.msix v) { s with hlk := { s.hlk with heldIrq := [] } }
    let s2 := s1.hlk.heldVecs.foldl (fun t e => t.viVector e.1 e.2) { s1 with hlk := { s1.hlk with heldVecs := [] } }
    s2.trs.attWaits.foldl (fun t v => t.attWrite v) s2.pbaSend
  else s

/-- PF0's configuration as far as the device supports it: payloads of 128 to 512 bytes, read requests of 128 to 4,096 (R58). -/
def pfClip (c : PfCfg) : PfCfg :=
  { c with maxPayload := max 128 (min c.maxPayload 512), maxRead := max 128 (min c.maxRead 4096) }

/-- Page faults that wait for page requests ask again, where they may (R61, R161). -/
def State.faultsAsk (s : State) : State :=
  (s.mlr.faults.filter (fun f => decide (f.mode = 2))).foldl (fun t f => t.priAsk (some f.vi) f.page none) s

/-- BUS_MASTER_ENABLE_SET: the host's driver configures PF0 and lets it issue host requests again (R58, R72): it clears AER bits (R75),
sets ATS, PRI and the MSI-X table, and with PRI clears Response Failure (R61). -/
def execBusMasterEnableSet (cfg : PfCfg) (aerClear : List Nat) (s : State) : Host.Outcome State Fault Refusal :=
  let s1 : State := { s with hlk := { s.hlk with
    cfg := pfClip cfg, bme := true, priEn := cfg.pri, respFail := s.hlk.respFail && !cfg.pri,
    atc := if cfg.ats then s.hlk.atc else [], aer := s.hlk.aer.filter (fun c => !aerClear.contains c) } }
  .next s1.flushIrq.faultsAsk

/-! ## Resets of PF0 (R72) -/

/-- The HLK page at its reset values, its freeze state kept (R75) and, where the link stays up, its link status. -/
def State.hlkPageReset (s : State) (linkDown : Bool) : State :=
  let frz := s.reg hlkPage 0x110
  let link := if linkDown then 0 else (s.reg hlkPage 0x108).setField 47 44 0
  let lo := hlkPage.key 0
  let s1 : State := { s with
    regs := s.regs.filter (fun e => !(decide (lo ≤ e.1) && decide (e.1 < lo + 65536))),
    flt := { s.flt with elws := s.flt.elws.filter (fun e => !(decide (lo ≤ e.1) && decide (e.1 < lo + 65536))) } }
  (s1.setReg hlkPage 0x110 frz).setReg hlkPage 0x108 link

/-- P0's rings in host memory are disabled; descriptors fetched from them end with ABORTED_BY_RESET (R72). -/
def State.p0HostRingsOff (s : State) : State :=
  s.rings.foldl (fun t e =>
    if e.2.setUp && !e.2.viEn && !e.2.hbm then
      let t1 := e.2.fetched.foldl (fun u d => u.abortDesc e.1 d true) t
      t1.setRing e.1 { t1.ring e.1 with state := .disabled, fetched := [], stopping := none }
    else t) s

/-- A Function Level Reset, hot reset or conventional reset of PF0 (R72): configuration space, page requests and held messages go
with it. -/
def State.pf0Reset (s : State) (linkDown : Bool) : State :=
  let s1 := s.liveVis.foldl (fun t v => t.viReset v) (s.hostStop none).p0HostRingsOff
  let s2 : State := { s1 with hlk := { s1.hlk with
    bme := false, pmeEn := false, priEn := false, respFail := false, aer := [], vecMap := [], heldIrq := [], heldVecs := [],
    pba := [], pageReqs := [], cfg := Hlk.cfgReset, l12 := false, atc := [], d3cold := false } }
  s2.hlkPageReset linkDown

/-- FUNCTION_LEVEL_RESET of PF0 (R72). -/
def execFunctionLevelReset (s : State) : Host.Outcome State Fault Refusal := .next (s.pf0Reset false)

/-- HOT_RESET of the host link (R72). -/
def execHotReset (s : State) : Host.Outcome State Fault Refusal := .next (s.pf0Reset true)

/-- PERST_ASSERT: the host link is held in reset; from D3hot this is D3cold (R77). -/
def execPerstAssert (s : State) : Host.Outcome State Fault Refusal :=
  .next (({ s with hlk := { s.hlk with perst := true, d3cold := s.hlk.d3cold || decide (s.dstate = 3) } }).setReg hlkPage 0x108
    ((s.reg hlkPage 0x108).setBit 63 false))

/-- PERST_DEASSERT: a conventional reset of PF0 (R72, R77); WAKE_N is released (R78). -/
def execPerstDeassert (s : State) : Host.Outcome State Fault Refusal :=
  .next (if s.hlk.perst then
      let s1 := s.pf0Reset true
      { s1 with hlk := { s1.hlk with perst := false, wakeN := true } }
    else s)

/-- HOST_LINK_DL_ACTIVE: the host link reaches DL_Active; LINK_STAT takes what it negotiated (R75, LINK_STAT). -/
def execHostLinkDlActive (speed width : Nat) (flit : Bool) (tagMode : Nat) (s : State) : Host.Outcome State Fault Refusal :=
  .next (if s.hlk.perst || s.flt.safe then s
    else
      (s.setReg hlkPage 0x108 ((((((s.reg hlkPage 0x108).setBit 63 true).setBit 62 flit).setField 61 60 tagMode).setField
        58 56 speed).setField 55 48 width)).flushIrq)

/-! ## Port freeze (R73 to R75) -/

/-- PORT_FREEZE: the host link freezes on a cause of R73; the first cause stands, SEQ counts every one. -/
def State.portFreeze (s : State) (cause : Nat) : State :=
  let w := s.reg hlkPage 0x110
  let w1 := w.setField 47 32 (w.field 47 32 + 1)
  let s1 : State := { s with hlk := { s.hlk with aer := aerAdd s.hlk.aer cause, atc := [] } }
  let s2 := if cause = 1 then s1.setReg hlkPage 0x108 ((s1.reg hlkPage 0x108).setBit 63 false) else s1
  let s3 := s2.err .hlk (if cause = 1 then 5 else 6)
  if w.bit 63 then s3.setReg hlkPage 0x110 w1
  else
    let s4 := (s3.setReg hlkPage 0x110 ((w1.setBit 63 true).setField 7 0 cause)).setIntBit hlkPage 8
    let mine := s.reads.filter (fun r => r.port = 0)
    mine.foldl (fun t r => t.failRead r .timeout false) (s4.endReads (fun r => decide (r.port = 0)) false)

/-- PORT_FREEZE (R73). A code that R73 does not define is no cause. -/
def execPortFreeze (cause : Nat) (s : State) : Host.Outcome State Fault Refusal :=
  .next (if 1 ≤ cause ∧ cause ≤ 6 then s.portFreeze cause else s)

/-- FREEZE_RELEASE: release the port, or refuse the write at an offset with STATE while the link is down or a cause stands in AER
(R39, R75). -/
def State.hlkRelease (s : State) (off : Nat) : State :=
  if !(s.reg hlkPage 0x108).bit 63 || s.hlk.aer.any (fun c => decide (1 ≤ c) && decide (c ≤ 6)) then s.refuse hlkPage off
  else if s.frozen then
    ((s.setReg hlkPage 0x110 ((s.reg hlkPage 0x110).setBit 63 false)).setIntBit hlkPage 9).flushIrq
  else s

/-- FREEZE_RELEASE: a 64-bit write of HLK.FREEZE (R75). -/
def execFreezeRelease (s : State) : Host.Outcome State Fault Refusal := .next (s.hlkRelease 0x110)

/-! ## Power states (R76, R77) -/

/-- Change PF0's D-state. -/
def State.setDstate (s : State) (d : Nat) : State :=
  if s.dstate = d then s else (s.setReg hlkPage 0x108 ((s.reg hlkPage 0x108).setField 47 46 d)).setIntBit hlkPage 10

/-- D3HOT_ENTER: no new host request, host-resident rings stop fetching (R77); the same write of PMCSR sets or clears PME_En. -/
def execD3hotEnter (pmeEn : Bool) (s : State) : Host.Outcome State Fault Refusal :=
  .next (({ s with hlk := { s.hlk with pmeEn := pmeEn } }).setDstate 3)

/-- D0_ENTER: PF0 returns to D0 with all state kept (R77). -/
def execD0Enter (s : State) : Host.Outcome State Fault Refusal := .next ((s.setDstate 0).flushIrq)

/-- BAR0_BAD_ACCESS: an access that R27 does not allow completes with Unsupported Request, is logged and has no
effect (R27, R81); in D3hot and under PERST_N BAR0 is not decoded (R77). -/
def execBar0BadAccess (reqId off len : Nat) (s : State) : Host.Outcome State Fault Refusal :=
  .next (if accessOk off len || s.flt.safe || s.hlk.perst || decide (s.dstate = 3) then s else (s.urLog reqId off len).emit (.unsupported none off len))

end Sys2Proof.Machine
end

