-- ==== Sys2Proof/Machine/Cellar.lean ====
section
/-! DEFINITION. Cellar: sequences, ingest, lookup, fork, trim, drop, and the KVS commands (13_cellar_kv_store.md). -/

namespace Sys2Proof.Machine

/-- The KVS page of core die 0, which holds configuration and commands. -/
abbrev kvsPage : Page := Blk.kvs.page

/-! ## Names and shapes (R250, R251) -/

/-- SEQ_COUNT of a partition: 0 where it has no table. -/
def State.seqCount (s : State) (p : Nat) : Nat :=
  match (s.part p).kvs with
  | some t => t.2.2
  | none => 0

/-- The check of a sequence key named on a ring of p (R250). -/
def State.seqKeyCheck (s : State) (p q : Nat) : Status :=
  if s.seqCount p ≤ q % 2 ^ 25 then .format else if seqPart q ≠ p then .accessViolation else .ok

/-- The shape that word 3 and MAX_BLK of SEQ_CREATE spell (R265). -/
def shapeOf (ws : List Word) : Shape :=
  { fmt := wf ws 3 61 58, layers := wf ws 3 57 50 + 1, g := wf ws 3 49 46 + 1, gh := wf ws 3 45 42 + 1,
    d := if wf ws 3 41 40 = 0 then 64 else if wf ws 3 41 40 = 1 then 128 else 256,
    sexpK := toSigned 8 (wf ws 3 39 32), sexpV := toSigned 8 (wf ws 3 31 24), maxBlk := wf ws 4 63 32,
    pool := wf ws 3 63 62 }

/-- Whether a scale exponent is in its range (R251). -/
def sexpOk (fmt : Nat) (e : Int) : Bool := if fmt = 3 then decide (-32 ≤ e) && decide (e ≤ 31) else decide (e = 0)

/-- The format checks of a shape (R251, R265); FMT takes 0x1, 0x3 and 0x9. -/
def shapeBad (ws : List Word) (h : Shape) : Bool :=
  !([1, 3, 9].contains h.fmt) || decide (wf ws 3 41 40 = 3) || decide (16 < h.g) || decide (16 < h.gh) ||
  !sexpOk h.fmt h.sexpK || !sexpOk h.fmt h.sexpV || decide (h.maxBlk = 0) || decide (65536 < h.maxBlk)

/-! ## Extents of the table area (R256) -/

/-- Where a partition's extents may lie: after the sequence records, before the allocator state at the area's end (DESIGN
CHOICE, assumption 22: the spec gives no places within the area). -/
def State.extentRange (s : State) (p : Nat) : Nat × Nat :=
  match (s.part p).kvs with
  | some t => (t.1 + 64 * t.2.2, t.1 + t.2.1 - s.allocBytes p)
  | none => (0, 0)

/-- The lowest place at or above a where n bytes fit among extents sorted by address. -/
def firstFit (hi n a : Nat) (es : List (Nat × Nat)) : Option Nat :=
  match es with
  | [] => if a + n ≤ hi then some a else none
  | e :: r => if a + n ≤ e.1 then some a else firstFit hi n (max a (e.1 + e.2)) r

/-- Sort extents by address. -/
def insertExtent (e : Nat × Nat) (l : List (Nat × Nat)) : List (Nat × Nat) :=
  match l with
  | [] => [e]
  | x :: r => if e.1 ≤ x.1 then e :: x :: r else x :: insertExtent e r

/-- The place first-fit gives an extent of n bytes of a partition (R256). -/
def State.findExtent (s : State) (p n : Nat) : Option Nat :=
  let es := ((s.kvs.extents.filter (fun e => seqPart e.1 = p)).map Prod.snd).foldr insertExtent []
  firstFit (s.extentRange p).2 n (s.extentRange p).1 es

/-- Give a sequence an extent with every token count and handle 0, and make it ACTIVE (R261). -/
def State.seqMake (s : State) (q a lowTok : Nat) (h : Shape) : State :=
  let s1 := (s.zero a h.extentBytes).setSeq q
    { Seq.free with state := .active, shape := h, extent := a, lowTok := lowTok }
  { s1 with kvs := { s1.kvs with extents := s1.kvs.extents ++ [(q, a, h.extentBytes)] } }

/-- Run SEQ_CREATE (R250, R251, R253, R261, R265). -/
def State.seqCreate (s : State) (w : Work) : State :=
  let q := wf w.words 2 31 0
  let h := shapeOf w.words
  let fmt := shapeBad w.words h || decide (s.seqKeyCheck w.part q = .format)
  if fmt then s.workFail w.ring w.idx .format
  else if s.seqKeyCheck w.part q = .accessViolation then s.workFail w.ring w.idx .accessViolation
  else
    match s.pool (poolKey w.part h.pool) with
    | none => s.workFail w.ring w.idx .format
    | some x =>
      if (s.seq q).state ≠ .free ∨ x.slot < h.blockBytes then s.workFail w.ring w.idx .state
      else
        match s.findExtent w.part h.extentBytes with
        | some a => (s.seqMake q a 0 h).workDone w.ring w.idx .ok 0 0 0
        | none => s.workFail w.ring w.idx .resource

/-- SEQ_CREATE: makes a FREE sequence ACTIVE with its shape and an extent (R261). -/
def execSeqCreate (ring idx : Nat) (s : State) : Host.Outcome State Fault Refusal :=
  .next (s.runDesc ring idx 0x04 0x01 (fun w => s.seqCreate w))

/-! ## The source layout (R256 to R259) -/

/-- ADDR of a data body. -/
def kAddr (ws : List Word) : Nat := (wordAt ws 2).toNat
/-- FMT of a data body. -/
def kFmt (ws : List Word) : Nat := wf ws 4 39 36
/-- HBM of a data body. -/
def kHbm (ws : List Word) : Bool := wb ws 4 35
/-- SCALE_ADDR of a data body. -/
def kScale (ws : List Word) : Nat := (wordAt ws 5).toNat

/-- KV heads of a layer. -/
def Shape.heads (h : Shape) : Nat := h.g * h.gh

/-- Elements of n tokens in the source layout. -/
def Shape.elems (h : Shape) (n : Nat) : Nat := n * 2 * h.heads * h.d

/-- Bits of an element of a format code that Cellar takes. -/
def kvBits (fmt : Nat) : Nat :=
  match elemOf fmt with
  | some e => e.bits
  | none => 0

/-- The ranges of a data body: elements, and scales of MXFP4-E2M1. -/
def dataRanges (ws : List Word) (h : Shape) : List (Space × Nat × Nat) :=
  let n := h.elems (kNtok ws)
  (spaceOf (kHbm ws) (kAddr ws), kAddr ws, n * kvBits (kFmt ws) / 8) ::
  (if kFmt ws = 9 then [(spaceOf (kHbm ws) (kScale ws), kScale ws, n / 32)] else [])

/-- The format checks of a data body that need no shape (R257, R259). -/
def dataFormatBad (ws : List Word) : Bool :=
  !([0, 1, 2, 3, 9].contains (kFmt ws)) || decide (kNtok ws = 0) ||
  decide (kAddr ws % 64 ≠ 0) || (decide (kFmt ws = 9) && decide (kScale ws % 64 ≠ 0))

/-- The format checks of a data body that need the shape. -/
def shapeFormatBad (ws : List Word) (lookup : Bool) (h : Shape) : Bool :=
  (if lookup then !([0, 1, 2, h.fmt].contains (kFmt ws)) else decide (kFmt ws = 9) && decide (h.fmt ≠ 9)) ||
  decide (h.layers ≤ kLayer ws) || decide (h.maxBlk * 16 < kFirst ws + kNtok ws)

/-- The checks of a data body up to STATE, in order; a FREE sequence gives STATE once the checks that need no shape have
passed (DEDUCED, assumption 23). -/
def State.dataCheck (s : State) (w : Work) (lookup : Bool) : Status :=
  let ws := w.words
  let q := kSeq ws
  let x := s.seq q
  if dataFormatBad ws || decide (s.seqKeyCheck w.part q = .format) then .format
  else if s.seqKeyCheck w.part q = .accessViolation then .accessViolation
  else if x.state = .free then .state
  else if shapeFormatBad ws lookup x.shape then .format
  else if !((dataRanges ws x.shape).all (fun r => s.mayReach w.part w.vi r.1 r.2.1 r.2.2)) then .accessViolation
  else if x.state ≠ .active then .state
  else .ok

/-! ## Element rows (R252, R257, R259) -/

/-- What one row of D elements becomes: element bytes, scale bytes, saturated, flushed, NaN outputs. -/
structure Row where
  data : List Byte
  scales : List Byte
  sat : Nat
  flushed : Nat
  nan : Nat
  deriving DecidableEq, Repr

/-- How many conversions of a row are of one kind. -/
def rowCount (c : Conv) (l : List (Nat × Conv)) : Nat := (l.filter (fun x => x.2 = c)).length

/-- A row of converted elements. -/
def rowOf (bits : Nat) (l : List (Nat × Conv)) (scales : List Byte) (nanBlocks : Nat) : Row :=
  { data := packElems bits (l.map Prod.fst), scales := scales, sat := rowCount .saturated l,
    flushed := rowCount .flushed l, nan := rowCount .nanOut l + nanBlocks }

/-- The exact values of a row of n elements. -/
def rowValues (el : Elem) (n : Nat) (data scales : List Byte) : List Num :=
  (List.range n).map (fun i => decodeElem el (packedElem el.bits data i) (scales.getD (i / 32) 0).toNat)

/-- MX blocks of a row of values. -/
def rowBlocks (f : FFmt) (adj : Int) (k : Nat) (xs : List Num) : List (Nat × List (Nat × Conv) × Bool) :=
  match k with
  | 0 => []
  | k + 1 => encodeMx f (mxExp f) adj (xs.take 32) :: rowBlocks f adj k (xs.drop 32)

/-- Convert one row of n elements from a format to another, scaled by 2^e first; a row of equal formats with e = 0 is copied
bit for bit. -/
def convertRow (src dst : Elem) (e adj : Int) (n : Nat) (data scales : List Byte) : Row :=
  if src = dst ∧ e = 0 then
    { data := data, scales := scales, sat := 0, flushed := 0,
      nan := ((rowValues src n data scales).filter (fun x => x = .nan)).length }
  else
    let xs := (rowValues src n data scales).map (fun x => x.scale e)
    match dst with
    | .mx f =>
      let bs := rowBlocks f adj (n / 32) xs
      rowOf dst.bits (bs.flatMap (fun b => b.2.1)) (bs.map (fun b => BitVec.ofNat 8 b.1)) (bs.filter (fun b => b.2.2)).length
    | .flt f => rowOf dst.bits (xs.map (encodeFlt f true)) [] 0
    | .int b => rowOf dst.bits (xs.map (encodeInt b)) [] 0
    | .xacc => rowOf dst.bits [] [] 0

/-- Byte offset of element (h, t) of a part within a block, and of its scales (R252): kv is 0 for keys, 1 for values. -/
def Shape.rowAt (h : Shape) (kv head t : Nat) : Nat × Nat :=
  let i := (head * 16 + t) * h.d
  let partBytes := h.gh * 16 * h.d * kvBits h.fmt / 8
  (kv * partBytes + i * kvBits h.fmt / 8, 16 * h.gh * h.d + kv * (h.gh * h.d / 2) + i / 32)

/-- Where a row lies in the source layout: element offset. -/
def Shape.srcRow (h : Shape) (t kv head : Nat) : Nat := ((t * 2 + kv) * h.heads + head) * h.d

/-- Every (token of the transfer, kv, head) of n tokens. -/
def Shape.rows (h : Shape) (n : Nat) : List (Nat × Nat × Nat) :=
  (List.range n).flatMap (fun t => (List.range 2).flatMap (fun kv => (List.range h.heads).map (fun hd => (t, kv, hd))))

/-- The exponent of a key or value part. -/
def Shape.sexp (h : Shape) (kv : Nat) : Int := if kv = 0 then h.sexpK else h.sexpV

/-- The bytes of a row of a buffer of a format. -/
def rowBytes (fmt d off : Nat) (data : List Byte) : List Byte := (data.drop (off * kvBits fmt / 8)).take (d * kvBits fmt / 8)

/-- The element kind of a format code; FP32 for one that is none. -/
def kvElem (fmt : Nat) : Elem := (elemOf fmt).getD (.flt fFp32)

/-! ## INGEST (R257, R258) -/

/-- The blocks of a layer that an INGEST enters and that have no handle: group and block. -/
def State.ingestNeeds (s : State) (x : Seq) (ws : List Word) : List (Nat × Nat) :=
  let b0 := kFirst ws / 16
  let b1 := (kFirst ws + kNtok ws - 1) / 16
  ((List.range (b1 + 1 - b0)).flatMap (fun i => (List.range x.shape.g).map (fun g => (g, b0 + i)))).filter
    (fun gb => (s.handle x (kLayer ws) gb.1 gb.2).isNone)

/-- Whether another INGEST on the layer is in progress. -/
def State.layerBusy (s : State) (w : Work) : Bool :=
  s.work.any (fun v => decide (v.phase ≠ .done) && decide (v.phase ≠ .ready) && decide (dEngine v.words = 4) &&
    decide (dOpcode v.words = 2) && decide (kSeq v.words = kSeq w.words) && decide (kLayer v.words = kLayer w.words) &&
    !(decide (v.ring = w.ring) && decide (v.idx = w.idx)))

/-- The partly filled block that an INGEST appends into is poisoned (R267). -/
def State.appendPoisoned (s : State) (x : Seq) (ws : List Word) : Bool :=
  (List.range x.shape.g).any (fun g => s.blockPoisoned (kSeq ws) x (kLayer ws) g (kFirst ws / 16))

/-- Write one converted row of an INGEST, with its counts. -/
def State.ingestRow (s : State) (x : Seq) (ws : List Word) (adj : Int) (data scales : List Byte)
    (acc : Nat × Nat × Nat) (r : Nat × Nat × Nat) : State × Nat × Nat × Nat :=
  let h := x.shape
  let off := h.srcRow r.1 r.2.1 r.2.2
  let t := kFirst ws + r.1
  let row := convertRow (kvElem (kFmt ws)) (kvElem h.fmt) (if h.fmt = 3 then -(h.sexp r.2.1) else 0) adj h.d
    (rowBytes (kFmt ws) h.d off data) ((scales.drop (off / 32)).take (h.d / 32))
  let at_ := h.rowAt r.2.1 (r.2.2 % h.gh) (t % 16)
  let s1 := match s.blockAt (kSeq ws) x (kLayer ws) (r.2.2 / h.gh) (t / 16) with
    | some a => (s.setBytes (a + at_.1) row.data).setBytes (a + at_.2) row.scales
    | none => s
  (s1, acc.1 + row.sat, acc.2.1 + row.flushed, acc.2.2 + row.nan)

/-- Convert and write every row of an INGEST. -/
def State.ingestRows (s : State) (x : Seq) (ws : List Word) (adj : Int) (data scales : List Byte)
    (acc : Nat × Nat × Nat) (rs : List (Nat × Nat × Nat)) : State × Nat × Nat × Nat :=
  match rs with
  | [] => (s, acc)
  | r :: rest =>
    let t := s.ingestRow x ws adj data scales acc r
    t.1.ingestRows x ws adj data scales t.2 rest

/-- The first block in a token range of a layer that is poisoned, if one is (R267). -/
def State.firstPoisoned (s : State) (q : Nat) (x : Seq) (l t0 t1 : Nat) : Option Nat :=
  ((List.range (t1 / 16 + 1 - t0 / 16)).map (fun i => t0 / 16 + i)).find?
    (fun b => (List.range x.shape.g).any (fun g => s.blockPoisoned q x l g b))

/-- Read the source of an INGEST that has its blocks, and write its tokens, unless a block that it enters has been poisoned
meanwhile (R267). -/
def State.ingestData (s : State) (w : Work) (cfg : Word) (alloc : List Nat) : State :=
  let x := s.seq (kSeq w.words)
  match s.fetchAll w (dataRanges w.words x.shape) with
  | (some ds, s1) =>
    match s1.firstPoisoned (kSeq w.words) x (kLayer w.words) (kFirst w.words) (kFirst w.words + kNtok w.words - 1) with
    | some b => s1.workDone w.ring w.idx .poisoned (max (kFirst w.words) (b * 16)) 0 0
    | none =>
    let r := s1.ingestRows x w.words (mxAdj cfg) (ds.getD 0 []) (ds.getD 1 []) (0, 0, 0) (x.shape.rows (kNtok w.words))
    r.1.updWork w.ring w.idx (fun v => { v with phase := .running, ctx := .ingest cfg alloc r.2.1 r.2.2.1 r.2.2.2 })
  | (none, s1) => s1

/-- Allocate the blocks of an INGEST and set their handles. -/
def State.ingestAlloc (s : State) (x : Seq) (ws : List Word) (need : List (Nat × Nat)) : List Nat × State :=
  let r := s.allocSlots (seqPool (kSeq ws) x) need.length
  (r.1, (need.zip r.1).foldl (fun t e => t.setHandle x (kLayer ws) e.1.1 e.1.2 (some e.2)) r.2)

/-- Start an INGEST whose common checks have passed. -/
def State.ingestStart (s : State) (w : Work) : State :=
  let ws := w.words
  let x := s.seq (kSeq ws)
  let need := s.ingestNeeds x ws
  let free := match s.pool (seqPool (kSeq ws) x) with
    | some p => p.free
    | none => 0
  if kFirst ws ≠ s.tokens x (kLayer ws) ∨ s.layerBusy w = true then s.workFail w.ring w.idx .state
  else if free < need.length then (s.count1 .kvs 4).workFail w.ring w.idx .resource
  else if s.appendPoisoned x ws then s.workDone w.ring w.idx .poisoned (kFirst ws) 0 0
  else
    let r := s.ingestAlloc x ws need
    let cfg := s.reg Blk.num.page 0x100
    (r.2.updWork w.ring w.idx (fun v => { v with ctx := .ingest cfg r.1 0 0 0 })).ingestData w cfg r.1

/-- Run INGEST: its checks and allocation when it starts, its data when they have arrived. -/
def State.ingest (s : State) (w : Work) : State :=
  match w.ctx with
  | .ingest cfg alloc _ _ _ => s.ingestData w cfg alloc
  | .none | .send _ _ _ | .read _ _ _ _ | .probe _ _ _ | .contribute _ | .cipher _ _ _ | .restore _ _ _ _ _ =>
    match s.dataCheck w false with
    | .ok => s.ingestStart w
    | st => s.workFail w.ring w.idx st

/-- INGEST: allocates blocks and converts and writes NTOK tokens into one layer (R257). -/
def execIngest (ring idx : Nat) (s : State) : Host.Outcome State Fault Refusal :=
  .next (s.runDesc ring idx 0x04 0x02 (fun w => s.ingest w))

/-- Count n occurrences of a KVS event, where there are any. -/
def State.countKvs (s : State) (code n : Nat) : State := if n = 0 then s else s.count kvsPage code n

/-- Every byte of an INGEST is visible: TOKENS advances and it ends with OK (R258). -/
def State.ingestDone (s : State) (ring idx : Nat) : State :=
  match s.workAt ring idx with
  | some w =>
    match w.ctx, w.phase with
    | .ingest _ _ sat flushed nan, .running =>
      let x := s.seq (kSeq w.words)
      let s1 := s.setTokens x (kLayer w.words) (kFirst w.words + kNtok w.words)
      ((s1.countKvs 1 (kNtok w.words)).countKvs 7 sat).workDone ring idx .ok 0
        (((0 : Word).setField 63 32 sat).setField 31 0 flushed) ((0 : Word).setField 63 32 nan)
    | _, _ => s
  | none => s

/-- INGEST_DONE (R258). -/
def execIngestDone (ring idx : Nat) (s : State) : Host.Outcome State Fault Refusal := .next (s.ingestDone ring idx)

/-! ## LOOKUP (R259, R260) -/

/-- One row of a LOOKUP: element bytes and scale bytes as the destination takes them. -/
def State.lookupRow (s : State) (x : Seq) (ws : List Word) (r : Nat × Nat × Nat) : Row :=
  let h := x.shape
  let t := kFirst ws + r.1
  let at_ := h.rowAt r.2.1 (r.2.2 % h.gh) (t % 16)
  match s.blockAt (kSeq ws) x (kLayer ws) (r.2.2 / h.gh) (t / 16) with
  | some a =>
    convertRow (kvElem h.fmt) (kvElem (kFmt ws)) (if kFmt ws = h.fmt then 0 else h.sexp r.2.1) 0 h.d
      (s.bytes (a + at_.1) (h.d * kvBits h.fmt / 8)) (if h.fmt = 9 then s.bytes (a + at_.2) (h.d / 32) else [])
  | none => { data := List.replicate (h.d * kvBits (kFmt ws) / 8) 0, scales := [], sat := 0, flushed := 0, nan := 0 }

/-- Write n tokens of a LOOKUP to its destination. -/
def State.lookupPut (s : State) (w : Work) (x : Seq) (n : Nat) : State :=
  let rows := (x.shape.rows n).map (s.lookupRow x w.words)
  let s1 := s.put (spaceOf (kHbm w.words) (kAddr w.words)) w.vi (kAddr w.words) (rows.flatMap Row.data)
  if kFmt w.words = 9 then
    s1.put (spaceOf (kHbm w.words) (kScale w.words)) w.vi (kScale w.words) (rows.flatMap Row.scales)
  else s1

/-- Run LOOKUP. -/
def State.lookup (s : State) (w : Work) : State :=
  let ws := w.words
  match s.dataCheck w true with
  | .ok =>
    let x := s.seq (kSeq ws)
    let last := kFirst ws + kNtok ws
    if s.tokens x (kLayer ws) < last ∨ kFirst ws < x.lowTok then s.workFail w.ring w.idx .state
    else
      let s1 := s.count1 .kvs 5
      match s1.firstPoisoned (kSeq ws) x (kLayer ws) (kFirst ws) (last - 1) with
      | some b => s1.workDone w.ring w.idx .poisoned (b * 16) 0 0
      | none =>
        s.whenUp (spaceOf (kHbm ws) (kAddr ws)) w.vi (kAddr ws) (s.whenUp (spaceOf (kHbm ws) (kScale ws)) w.vi (kScale ws)
          ((s1.lookupPut w x (kNtok ws)).workDone w.ring w.idx .ok 0 0 0))
  | st => s.workFail w.ring w.idx st

/-- LOOKUP: copies present tokens of one layer to a destination (R259). -/
def execLookup (ring idx : Nat) (s : State) : Host.Outcome State Fault Refusal :=
  .next (s.runDesc ring idx 0x04 0x03 (fun w => s.lookup w))

/-! ## FORK, TRIM, DROP, QUERY (R261 to R265) -/

/-- The smallest TOKENS of a sequence. -/
def State.minTokens (s : State) (x : Seq) : Nat :=
  (List.range x.shape.layers).foldl (fun m l => min m (s.tokens x l)) (x.shape.maxBlk * 16)

/-- Every (layer, group, block) of a sequence in a block range. -/
def Shape.cells (h : Shape) (b0 b1 : Nat) : List (Nat × Nat × Nat) :=
  (List.range h.layers).flatMap (fun l => (List.range h.g).flatMap (fun g =>
    (List.range (b1 - b0)).map (fun i => (l, g, b0 + i))))

/-- The slots whose handles lie in a block range. -/
def State.slotsIn (s : State) (x : Seq) (b0 b1 : Nat) : List Nat :=
  (x.shape.cells b0 b1).filterMap (fun c => s.handle x c.1 c.2.1 c.2.2)

/-- The references to a slot of a pool. -/
def State.slotRefs (s : State) (k n : Nat) : Nat :=
  match s.pool k with
  | some x => (Tab.find x.refs n).getD 0
  | none => 0

/-- Share a sequence's first tokens with a new one at a (R263). -/
def State.forkInto (s : State) (src new a n : Nat) : State :=
  let x := s.seq src
  let s1 := s.seqMake new a x.lowTok x.shape
  let y := s1.seq new
  let s2 := (List.range x.shape.layers).foldl (fun t l => t.setTokens y l n) s1
  (x.shape.cells 0 (n / 16)).foldl (fun t c =>
    match s.handle x c.1 c.2.1 c.2.2 with
    | some slot => ((t.setHandle y c.1 c.2.1 c.2.2 (some slot)).updPool (seqPool src x)
        (fun p => { p with refs := Tab.insert p.refs slot ((Tab.find p.refs slot).getD 0 + 1) })).slotStore (seqPool src x) slot
    | none => t) s2

/-- Run FORK (R250, R263). -/
def State.fork (s : State) (w : Work) : State :=
  let src := wf w.words 2 63 32
  let new := wf w.words 2 31 0
  let n := wf w.words 3 31 0
  let p := w.part
  let x := s.seq src
  match firstFail [
      (decide (s.seqKeyCheck p src = .format) || decide (s.seqKeyCheck p new = .format) || decide (n % 16 ≠ 0), .format),
      (decide (s.seqKeyCheck p src ≠ .ok) || decide (s.seqKeyCheck p new ≠ .ok), .accessViolation),
      (decide (x.state ≠ .active) || decide ((s.seq new).state ≠ .free), .state),
      (decide (s.minTokens x < n) || decide (n < x.lowTok), .state),
      ((s.slotsIn x 0 (n / 16)).any (fun k => decide (65535 ≤ s.slotRefs (seqPool src x) k)), .resource)] with
  | .ok =>
    match s.findExtent p x.shape.extentBytes with
    | some a => (s.forkInto src new a n).workDone w.ring w.idx .ok 0 0 0
    | none => s.workFail w.ring w.idx .resource
  | st => s.workFail w.ring w.idx st

/-- FORK: makes a FREE sequence share the first tokens of an ACTIVE one (R263). -/
def execFork (ring idx : Nat) (s : State) : Host.Outcome State Fault Refusal :=
  .next (s.runDesc ring idx 0x04 0x04 (fun w => s.fork w))

/-- Raise LOW_TOK and release the blocks wholly before it; their slots wait for the requests in use (R264). -/
def State.trimTo (s : State) (q before : Nat) : State :=
  let x := s.seq q
  let slots := s.slotsIn x 0 (before / 16)
  let s1 := (x.shape.cells 0 (before / 16)).foldl (fun t c =>
    if (t.handle x c.1 c.2.1 c.2.2).isSome then t.setHandle x c.1 c.2.1 c.2.2 none else t) s
  (s1.setSeq q { x with lowTok := before, deferred := x.deferred ++ [(s.kvs.nextUse, slots)] }).settleDeferred q

/-- Run TRIM (R264). -/
def State.trim (s : State) (w : Work) : State :=
  let q := wf w.words 2 31 0
  let before := wf w.words 3 31 0
  let x := s.seq q
  match firstFail [
      (decide (s.seqKeyCheck w.part q = .format) || decide (before % 16 ≠ 0), .format),
      (decide (s.seqKeyCheck w.part q ≠ .ok), .accessViolation),
      (decide (x.state ≠ .active), .state),
      (decide (before < x.lowTok) || decide (s.minTokens x < before), .state)] with
  | .ok => (s.trimTo q before).workDone w.ring w.idx .ok 0 0 0
  | st => s.workFail w.ring w.idx st

/-- TRIM: raises LOW_TOK and releases blocks wholly before it (R264). -/
def execTrim (ring idx : Nat) (s : State) : Host.Outcome State Fault Refusal :=
  .next (s.runDesc ring idx 0x04 0x05 (fun w => s.trim w))

/-- Run DROP: the sequence becomes CLOSING and the descriptor waits (R262). -/
def State.drop (s : State) (w : Work) : State :=
  let q := wf w.words 2 31 0
  match firstFail [(decide (s.seqKeyCheck w.part q = .format), .format),
      (decide (s.seqKeyCheck w.part q ≠ .ok), .accessViolation), (decide ((s.seq q).state ≠ .active), .state)] with
  | .ok =>
    (s.setSeq q { s.seq q with state := .closing, dropper := some (w.ring, w.idx) }).updWork w.ring w.idx
      (fun v => { v with phase := .running })
  | st => s.workFail w.ring w.idx st

/-- DROP: moves an ACTIVE sequence to CLOSING (R262). -/
def execDrop (ring idx : Nat) (s : State) : Host.Outcome State Fault Refusal :=
  .next (s.runDesc ring idx 0x04 0x06 (fun w => s.drop w))

/-- Whether nothing holds a sequence: no request in use, no INGEST in progress (R262). -/
def State.seqIdle (s : State) (q : Nat) : Bool :=
  decide ((s.seq q).users = []) &&
  !(s.work.any (fun v => decide (v.phase ≠ .done) && decide (v.phase ≠ .ready) && decide (dEngine v.words = 4) &&
    decide (dOpcode v.words = 2) && decide (kSeq v.words = q)))

/-- A CLOSING sequence that nothing holds gives up its slots and extent and becomes FREE (R262). -/
def State.dropDone (s : State) (q : Nat) : State :=
  let x := s.seq q
  if x.state = .closing ∧ s.seqIdle q = true then
    let s1 := ((s.slotsIn x 0 x.shape.maxBlk) ++ x.deferred.flatMap Prod.snd).foldl
      (fun t n => t.releaseSlot (seqPool q x) n) s
    let s2 : State := { s1 with kvs := { s1.kvs with extents := s1.kvs.extents.filter (fun e => e.1 ≠ q) } }
    let s3 := s2.setSeq q Seq.free
    match x.dropper with
    | some d => s3.workDone d.1 d.2 .ok 0 0 0
    | none => s3
  else s

/-- DROP_DONE (R262). -/
def execDropDone (seq : Nat) (s : State) : Host.Outcome State Fault Refusal := .next (s.dropDone seq)

/-- The code of a sequence's state (R265). -/
def SeqState.code : SeqState → Nat
  | .free => 0 | .active => 1 | .closing => 2

/-- Run QUERY (R265). -/
def State.kvsQuery (s : State) (w : Work) : State :=
  let q := wf w.words 2 31 0
  match s.seqKeyCheck w.part q with
  | .ok =>
    let x := s.seq q
    s.workDone w.ring w.idx .ok 0
      (((0 : Word).setField 63 62 x.state.code).setField 31 0 (if x.state = .free then 0 else s.minTokens x))
      (((0 : Word).setField 63 32 x.lowTok).setField 31 0 (s.slotsIn x 0 x.shape.maxBlk).length)
  | st => s.workFail w.ring w.idx st

/-- QUERY: returns a sequence's state, tokens and blocks held (R265). -/
def execKvsQuery (ring idx : Nat) (s : State) : Host.Outcome State Fault Refusal :=
  .next (s.runDesc ring idx 0x04 0x07 (fun w => s.kvsQuery w))

/-! ## KVS commands (R268 to R270) -/

/-- Whether an extent lies in P0 granules. -/
def State.inP0 (s : State) (a len : Nat) : Bool := decide (len = 0) || s.ownsHbm 0 a len

/-- SET_PART: table area and sequence count of a partition. -/
def State.kvsSetPart (s : State) (p : Nat) (a0 a1 : Word) : Status × State :=
  let base := a0.field 63 12 * 4096
  let size := a1.field 63 40 * 4096
  let n := a1.field 25 0
  let live := s.kvs.seqs.any (fun e => decide (seqPart e.1 = p) && decide (e.2.state ≠ .free))
  let st := (s.part p).state
  match firstFail [
      (decide (2 ^ 25 < n) || decide (size < 64 * n), .format), (!s.inP0 base size, .accessViolation),
      ((decide (st ≠ .building) && decide (st ≠ .active)) || (decide (st = .active) && live), .state)] with
  | .ok => (.ok, s.setPart p { s.part p with kvs := some (base, size, n) })
  | e => (e, s)

/-- Whether a granule lies in a pool of a partition or in its staging area (R255). -/
def State.granInUse (s : State) (p g : Nat) : Bool :=
  s.kvs.pools.any (fun e => e.2.grans.contains g) || (s.part p).stage.contains g

/-- The slots of newly added granules that overlap a retired page (R267). -/
def State.excluded (s : State) (x : Pool) (gs : List Nat) : List Nat :=
  (s.kvs.retired.filter (fun a => gs.contains (granule a))).flatMap (fun a => x.overlap a 65536) ++
  (s.kvs.retiredGran.filter (fun g => gs.contains g)).flatMap (fun g => x.overlap (g * 0x10000000) 0x10000000)

/-- POOL_ADD. -/
def State.poolAdd (s : State) (p n : Nat) (a0 a1 : Word) : Status × State :=
  let slot := a0.field 31 0
  let gs := (List.range (a0.field 47 32)).map (fun i => a0.field 63 48 + i)
  let x := (s.pool (poolKey p n)).getD { Pool.empty with slot := slot }
  let y : Pool := { x with grans := x.grans ++ gs, lowWater := a1.field 31 0 }
  match firstFail [
      (decide (slot % 64 ≠ 0) || decide (slot < 1024) || decide (262144 < slot) || decide (gs = []) ||
        decide (1536 < a0.field 63 48 + gs.length), .format),
      (!(gs.all (fun g => s.owns p tyGranule g)), .accessViolation),
      (decide ((s.part p).kvs = none) || decide (x.slot ≠ slot) || gs.any (s.granInUse p), .state)] with
  | .ok =>
    let top := ((s.kvs.extents.filter (fun e => seqPart e.1 = p)).map (fun e => e.2.1 + e.2.2)).foldl max
      (s.extentRange p).1
    if (s.extentRange p).2 < top + 4 * (y.slots - x.slots) then (.resource, s)
    else
      let z : Pool := { y with excluded := y.excluded ++ (s.excluded y gs).dedup }
      (.ok, ({ s with kvs := { s.kvs with pools := Tab.insert s.kvs.pools (poolKey p n) z } }).poolLow (poolKey p n))
  | e => (e, s)

/-- POOL_CLEAR; a pool that does not exist gives OK. -/
def State.poolClear (s : State) (p n : Nat) : Status × State :=
  match s.pool (poolKey p n) with
  | some x =>
    if x.refs = [] then (.ok, { s with kvs := { s.kvs with pools := Tab.erase s.kvs.pools (poolKey p n) } })
    else (.state, s)
  | none => (.ok, s)

/-- POOL_READ. -/
def State.poolRead (s : State) (p n : Nat) : Status × State :=
  match s.pool (poolKey p n) with
  | some x =>
    (.ok, (s.setReg kvsPage 0x160 (((0 : Word).setField 63 32 x.slots).setField 31 0 x.free)).setReg kvsPage 0x168
      (((0 : Word).setField 63 32 x.bad.length).setField 31 0 x.slot))
  | none => (.state, s)

/-- RETIRE_ADD; a page already in the table enters nothing. -/
def State.retireAdd (s : State) (a0 : Word) : Status × State :=
  let a := a0.toNat
  if a % 65536 ≠ 0 ∨ 0x5FFFFFFFFF < a then (.format, s)
  else if s.kvs.retired.contains a then (.ok, s)
  else if 4096 ≤ s.kvs.retired.length then (.resource, s)
  else
    (.ok, (({ s with kvs := { s.kvs with retired := s.kvs.retired ++ [a] } }).setIntBit (kvsPageOf a) 9).poisonAt a 65536)

/-- RETIRE_READ. -/
def State.retireRead (s : State) (a0 : Word) : Status × State :=
  (.ok, s.setReg kvsPage 0x160 (Word.of (s.kvs.retired.getD (a0.field 11 0) 0)))

/-- Run a KVS command word (R270). -/
def kvsRun (val : Word) (s : State) : State :=
  let op := val.field 31 24
  let p := val.field 6 0
  let n := val.field 9 8
  let a0 := s.reg kvsPage 0x140
  let a1 := s.reg kvsPage 0x148
  let r : Status × State := match op with
    | 1 => s.kvsSetPart p a0 a1
    | 2 => s.poolAdd p n a0 a1
    | 3 => s.poolClear p n
    | 4 => s.poolRead p n
    | 5 => s.retireAdd a0
    | 6 => s.retireRead a0
    | _ => (.format, s)
  r.2.cmdEnd .kvs op p r.1

/-- The word of a KVS command. -/
def kvsWord (op pool part : Nat) : Word := (((0 : Word).setField 31 24 op).setField 9 8 pool).setField 6 0 part

/-- SET_PART: table area and sequence count (R270). -/
def execKvsSetPart (part : Nat) (s : State) : Host.Outcome State Fault Refusal :=
  .next (s.takeCmd .kvs (kvsWord 1 0 part) kvsRun)

/-- POOL_ADD (R270). -/
def execPoolAdd (part pool : Nat) (s : State) : Host.Outcome State Fault Refusal :=
  .next (s.takeCmd .kvs (kvsWord 2 pool part) kvsRun)

/-- POOL_CLEAR (R270). -/
def execPoolClear (part pool : Nat) (s : State) : Host.Outcome State Fault Refusal :=
  .next (s.takeCmd .kvs (kvsWord 3 pool part) kvsRun)

/-- POOL_READ (R270). -/
def execPoolRead (part pool : Nat) (s : State) : Host.Outcome State Fault Refusal :=
  .next (s.takeCmd .kvs (kvsWord 4 pool part) kvsRun)

/-- RETIRE_ADD (R268, R270). -/
def execRetireAdd (s : State) : Host.Outcome State Fault Refusal := .next (s.takeCmd .kvs (kvsWord 5 0 0) kvsRun)

/-- RETIRE_READ (R270). -/
def execRetireRead (s : State) : Host.Outcome State Fault Refusal := .next (s.takeCmd .kvs (kvsWord 6 0 0) kvsRun)

end Sys2Proof.Machine
end

