-- ==== Sys2Proof/Machine/Elementary.lean ====
section
/-! DEFINITION. exp, tanh and ln of the decode attention engine (R280, R284): fixed functions of FP32 arguments, of which the spec
gives the accuracy alone. Each is a constant without a body where its value keeps the bound, and the correctly rounded value
elsewhere, so that the model allows exactly what the rule allows (assumption 40). The bounds are taken over fixed-point
numbers of 256 fraction bits, whose own error lies more than 60 bits below the spacing of FP32. -/

namespace Sys2Proof.Machine

/-- The value of FP32 bits. -/
def f32 (b : BitVec 32) : Num := decodeFlt fFp32 b.toNat

/-- A value rounded into FP32 (R221, R222, SAT = 0). -/
def toF32 (x : Num) : BitVec 32 := BitVec.ofNat 32 (encodeFlt fFp32 false x).1

/-- FP32 −infinity. -/
def f32NegInf : BitVec 32 := 0xFF800000
/-- The canonical NaN of FP32. -/
def f32NaN : BitVec 32 := 0x7FC00000

/-- 1 as a fixed-point number. -/
def fxOne : Nat := 2 ^ 256

/-- A magnitude as a fixed-point number. -/
def fxOf (m : Nat) (e : Int) : Nat := if 0 ≤ e + 256 then m * 2 ^ (e + 256).toNat else m / 2 ^ (-(e + 256)).toNat

/-- A finite FP32 value as a fixed-point number; none for infinities and NaN. -/
def fxNum (x : Num) : Option Int :=
  match x with
  | .fin n m e => some (if n then -(fxOf m e : Int) else fxOf m e)
  | .inf _ | .nan => none

/-- The unit in the last place of FP32 at a value, subnormals by their spacing. -/
def fxUlp (v : Int) : Nat := 2 ^ (max (Nat.log2 v.natAbs - 23) 107)

/-- Whether FP32 bits lie within k units in the last place of a value. -/
def f32Within (k : Nat) (v : Int) (y : BitVec 32) : Bool :=
  match fxNum (f32 y) with
  | some a => decide ((a - v).natAbs ≤ k * fxUlp v)
  | none => false

/-- A fixed-point value rounded into FP32. -/
def fxRound (v : Int) : BitVec 32 := toF32 (.fin (decide (v < 0)) v.natAbs (-256))

/-- The engine's value where it keeps the bound, else the correctly rounded one. -/
def f32Pick (k : Nat) (v : Int) (y : BitVec 32) : BitVec 32 := if f32Within k v y then y else fxRound v

/-- k terms of the series of e^−t from the i-th on. -/
def expSeries (t : Nat) (k i : Nat) (term acc : Int) : Int :=
  match k with
  | 0 => acc
  | k + 1 => expSeries t k (i + 1) (-(term * t / fxOne) / (i + 1)) (acc + term)

/-- e^−t of a fixed-point t, no less than the smallest fixed-point number: the series at t / 256, squared eight times. -/
def fxExpNeg (t : Nat) : Nat :=
  if 128 * fxOne ≤ t then 1
  else max 1 ((List.range 8).foldl (fun a _ => a * a / fxOne) (expSeries (t / 256) 64 0 fxOne 0).toNat)

/-- tanh of a fixed-point t of 0 or above. -/
def fxTanh (t : Nat) : Nat :=
  if t = 0 then 0
  else
    let e := fxExpNeg (2 * t)
    (fxOne - e) * fxOne / (fxOne + e)

/-- k terms of the series of the inverse hyperbolic tangent of z, given z² and the next odd power. -/
def atanhSeries (z2 : Nat) (k i : Nat) (pow acc : Nat) : Nat :=
  match k with
  | 0 => acc
  | k + 1 => atanhSeries z2 k (i + 2) (pow * z2 / fxOne) (acc + pow / i)

/-- ln of a fixed-point number from 1 to 2: twice the inverse hyperbolic tangent of (x − 1) / (x + 1). -/
def fxLn12 (x : Nat) : Nat :=
  let z := (x - fxOne) * fxOne / (x + fxOne)
  2 * atanhSeries (z * z / fxOne) 90 1 z 0

/-- ln of a fixed-point number of 1 or above. -/
def fxLn (x : Nat) : Nat :=
  let k := Nat.log2 (x / fxOne)
  k * fxLn12 (2 * fxOne) + fxLn12 (x / 2 ^ k)

/-- exp (R280, R284): exactly 1 at 0 and +0 at −infinity; within 2 units in the last place below 0. -/
def f32Exp (x : BitVec 32) : BitVec 32 :=
  match f32 x with
  | .nan => f32NaN
  | .inf n => if n then 0 else Config.exp32 x
  | .fin n m e => if m = 0 then 0x3F800000 else if n then f32Pick 2 (fxExpNeg (fxOf m e)) (Config.exp32 x) else Config.exp32 x

/-- tanh (R284): within 2 units in the last place; ±1 is its limit at the infinities. -/
def f32Tanh (x : BitVec 32) : BitVec 32 :=
  let at_ (n : Bool) (v : Nat) : BitVec 32 := f32Pick 2 (if n then -(v : Int) else v) (Config.tanh32 x)
  match f32 x with
  | .nan => f32NaN
  | .inf n => at_ n (fxOne - 1)
  | .fin n m e => at_ n (fxTanh (fxOf m e))

/-- The natural logarithm (R284): within 1 unit in the last place for arguments of 1 or above; the spec gives no accuracy below 1,
where the value is free. -/
def f32Ln (x : BitVec 32) : BitVec 32 :=
  match f32 x with
  | .nan => f32NaN
  | .inf n => if n then Config.ln32 x else 0x7F800000
  | .fin n m e => if !n && decide (fxOne ≤ fxOf m e) then f32Pick 1 (fxLn (fxOf m e)) (Config.ln32 x) else Config.ln32 x

end Sys2Proof.Machine
end

