-- ==== Sys2Proof/Machine/Wire.lean ====
section
/-! DEFINITION. The bytes of Millrace frames: Ethernet, IP, UDP and Millrace headers (R118, R119, R123, R124, R178), built and
parsed. -/

namespace Sys2Proof

/-! ## The Millrace header (R123, R124) -/

/-- Bytes of the extension of a packet type; none for a TYPE that is not defined (R124). -/
def mlrExtLen (typ : Nat) : Option Nat :=
  match typ with
  | 1 | 2 | 3 | 4 | 7 | 8 | 9 => some 16
  | 5 => some 0
  | 6 => some 32
  | _ => none

/-- The 32-byte header of a packet of a type. -/
def mlrHeader (typ : Nat) (p : MlrPacket) : List Byte :=
  beBytes 1 (p.ver * 16 + typ) ++
  beBytes 1 ((if p.ece then 128 else 0) + (if p.retx then 64 else 0) + (if p.areq then 32 else 0)) ++
  beBytes 3 p.dstConn ++ beBytes 1 p.path ++ beBytes 2 p.payload.length ++ beBytes 4 p.psn.toNat ++
  beBytes 4 p.ackPsn.toNat ++ beBytes 4 p.salt.toNat ++ beBytes 8 p.nonce.toNat ++ beBytes 3 p.srcConn ++ [0]

/-- n bytes at an offset of a list. -/
def slice (bs : List Byte) (off n : Nat) : List Byte := (bs.drop off).take n

/-- The big-endian number of n bytes at an offset. -/
def beAt (bs : List Byte) (off n : Nat) : Nat := beNat (slice bs off n)

/-- Read a packet from the bytes after its UDP header; the outer fields are given. -/
def mlrParse (ipSrc ipDst : BitVec 128) (v6 ce : Bool) (bs : List Byte) : Nat × MlrPacket :=
  let typ := beAt bs 0 1 % 16
  let fl := beAt bs 1 1
  let n := beAt bs 6 2
  let x := (mlrExtLen typ).getD 0
  (typ, { ipSrc := ipSrc, ipDst := ipDst, v6 := v6, ce := ce, ver := beAt bs 0 1 / 16,
          rsvClear := decide (fl % 32 = 0) && decide (beAt bs 31 1 = 0), lenOk := decide (bs.length = 48 + x + n),
          ece := fl.testBit 7, retx := fl.testBit 6, areq := fl.testBit 5, dstConn := beAt bs 2 3, path := beAt bs 5 1,
          psn := BitVec.ofNat 32 (beAt bs 8 4), ackPsn := BitVec.ofNat 32 (beAt bs 12 4),
          salt := BitVec.ofNat 32 (beAt bs 16 4), nonce := BitVec.ofNat 64 (beAt bs 20 8), srcConn := beAt bs 28 3,
          ext := slice bs 32 x, payload := slice bs (32 + x) n, tag := BitVec.ofNat 128 (beAt bs (32 + x + n) 16) })

/-! ## CRC-32C -/

/-- One bit of CRC-32C. -/
def crc32cBit (c : Nat) : Nat := if c % 2 = 1 then c / 2 ^^^ 0x82F63B78 else c / 2

/-- CRC-32C of bytes: reflected, initial value and final XOR all ones. -/
def crc32c (bs : List Byte) : BitVec 32 :=
  let step (c : Nat) (b : Byte) : Nat := (List.range 8).foldl (fun x _ => crc32cBit x) (c ^^^ b.toNat)
  BitVec.ofNat 32 (bs.foldl step (2 ^ 32 - 1) ^^^ (2 ^ 32 - 1))

/-! ## IP, UDP and Ethernet (R118, R119, R178) -/

/-- The ones' complement sum of a list of bytes taken as 16-bit numbers, a last odd byte padded with zero. -/
def onesSum (bs : List Byte) : Nat :=
  match bs with
  | a :: b :: r => (a.toNat * 256 + b.toNat) + onesSum r
  | [a] => a.toNat * 256
  | [] => 0

/-- The Internet checksum of bytes. -/
def inetSum (bs : List Byte) : Nat :=
  let s := onesSum bs
  let m := s % 65535
  65535 - (if m = 0 ∧ s ≠ 0 then 65535 else m)

/-- The traffic class byte: DSCP and ECN. -/
def tosByte (dscp : Nat) (ecn : Nat) : Nat := dscp % 64 * 4 + ecn

/-- An IPv6 header without extensions (R119). -/
def ip6Header (src dst : BitVec 128) (tos flow len next hop : Nat) : List Byte :=
  beBytes 4 (6 * 2 ^ 28 + tos * 2 ^ 20 + flow) ++ beBytes 2 len ++ beBytes 1 next ++ beBytes 1 hop ++
  beBytes 16 src.toNat ++ beBytes 16 dst.toNat

/-- An IPv4 header without options, DF set and identification 0 (R119). -/
def ip4Header (src dst : Nat) (tos len proto ttl : Nat) : List Byte :=
  let h (sum : Nat) : List Byte :=
    beBytes 1 0x45 ++ beBytes 1 tos ++ beBytes 2 (len + 20) ++ beBytes 2 0 ++ beBytes 2 0x4000 ++ beBytes 1 ttl ++
    beBytes 1 proto ++ beBytes 2 sum ++ beBytes 4 src ++ beBytes 4 dst
  h (inetSum (h 0))

/-- The pseudo header of a transport checksum over IPv6. -/
def pseudo6 (src dst : BitVec 128) (len next : Nat) : List Byte :=
  beBytes 16 src.toNat ++ beBytes 16 dst.toNat ++ beBytes 4 len ++ beBytes 4 next

/-- A UDP datagram: its checksum is computed over IPv6 and 0 over IPv4 (R119). -/
def udpBytes (v6 : Bool) (src dst : BitVec 128) (sport dport : Nat) (data : List Byte) : List Byte :=
  let h (sum : Nat) : List Byte := beBytes 2 sport ++ beBytes 2 dport ++ beBytes 2 (8 + data.length) ++ beBytes 2 sum
  if v6 then
    let c := inetSum (pseudo6 src dst (8 + data.length) 17 ++ h 0 ++ data)
    h (if c = 0 then 0xFFFF else c) ++ data
  else h 0 ++ data

/-- Payload, extension, header and tag of a packet, as the bytes after its UDP header (R118). -/
def mlrBytes (typ : Nat) (p : MlrPacket) : List Byte :=
  mlrHeader typ p ++ p.ext ++ p.payload ++ beBytes 16 p.tag.toNat

/-- The IP packet that carries a Millrace packet (R119). -/
def mlrIp (typ : Nat) (p : MlrPacket) (sport dport dscp : Nat) (ecn : Bool) : List Byte :=
  let u := udpBytes p.v6 p.ipSrc p.ipDst sport dport (mlrBytes typ p)
  let tos := tosByte dscp (if ecn then 2 else 0)
  if p.v6 then ip6Header p.ipSrc p.ipDst tos sport u.length 17 64 ++ u
  else ip4Header (p.ipSrc.toNat % 2 ^ 32) (p.ipDst.toNat % 2 ^ 32) tos u.length 17 64 ++ u

/-- The Ethernet header of a transmitted Millrace frame from the registers of its port (R178). -/
def ethHeader (gw mac tag : Word) (etype : Nat) : List Byte :=
  let n := tag.field 63 62
  beBytes 6 (gw.field 47 0) ++ beBytes 6 (mac.field 47 0) ++
  (if n = 0 then [] else beBytes 2 (if n = 1 then 0x8100 else 0x88A8) ++ beBytes 2 (tag.field 61 46)) ++
  (if n = 2 then beBytes 2 0x8100 ++ beBytes 2 (tag.field 45 30) else []) ++ beBytes 2 etype

end Sys2Proof
end

