-- ==== Sys2Proof/Machine/Attention.lean ====
section
/-! DEFINITION. The decode attention engine: request records, inboxes, chunks, scores, the fold and the merge tree, responses
(14_decode_attention.md). -/

namespace Sys2Proof.Machine

/-- The ATT page of instance 0. -/
abbrev attPage : Page := Blk.att.page

/-! ## Fields of a request header (R271) -/

/-- SEQ. -/
def aSeq (h : List Word) : Nat := wf h 0 63 32
/-- LAYER. -/
def aLayer (h : List Word) : Nat := wf h 0 31 24
/-- GROUP. -/
def aGroup (h : List Word) : Nat := wf h 0 23 20
/-- QPG. -/
def aQpg (h : List Word) : Nat := wf h 0 19 16 + 1
/-- NQ. -/
def aNq (h : List Word) : Nat := wf h 0 15 13 + 1
/-- CAUSAL. -/
def aCausal (h : List Word) : Bool := wb h 0 12
/-- WIN_EN. -/
def aWin (h : List Word) : Bool := wb h 0 11
/-- CAP_EN. -/
def aCap (h : List Word) : Bool := wb h 0 10
/-- SLOPE_EN. -/
def aSlope (h : List Word) : Bool := wb h 0 9
/-- SINK_EN. -/
def aSink (h : List Word) : Bool := wb h 0 8
/-- RESP. -/
def aResp (h : List Word) : Bool := wb h 0 7
/-- OUT_SPACE. -/
def aSpace (h : List Word) : Nat := wf h 0 6 5
/-- FIRST_TOK. -/
def aFirst (h : List Word) : Nat := wf h 1 63 32
/-- END_TOK. -/
def aEnd (h : List Word) : Nat := wf h 1 31 0
/-- Q_POS. -/
def aQpos (h : List Word) : Nat := wf h 2 63 32
/-- WINDOW. -/
def aWindow (h : List Word) : Nat := wf h 2 31 0
/-- SCALE, as FP32 bits. -/
def aScale (h : List Word) : BitVec 32 := BitVec.ofNat 32 (wf h 3 63 32)
/-- CAP, as FP32 bits. -/
def aCapVal (h : List Word) : BitVec 32 := BitVec.ofNat 32 (wf h 3 31 0)
/-- OUT_ADDR or REMOTE_OFFSET. -/
def aOut (h : List Word) : Nat := (wordAt h 4).toNat
/-- CONN. -/
def aConn (h : List Word) : Nat := wf h 5 63 40
/-- RKEY. -/
def aRkey (h : List Word) : Nat := wf h 5 31 0
/-- TAG. -/
def aTag (h : List Word) : Nat := wf h 6 63 32
/-- DONE_EN. -/
def aDoneEn (h : List Word) : Bool := wb h 6 15
/-- DONE_SYNC. -/
def aDone (h : List Word) : Nat := wf h 6 13 0

/-- A(n): n rounded up to a multiple of 64 (R272). -/
def up64 (n : Nat) : Nat := (n + 63) / 64 * 64

/-- NH: query heads of the group (R272). -/
def aHeads (h : List Word) (sh : Shape) : Nat := sh.gh * aQpg h

/-- Rows of a request. -/
def aRows (h : List Word) (sh : Shape) : Nat := aNq h * aHeads h sh

/-- Offset of the slopes in a record. -/
def slopeOff (h : List Word) (sh : Shape) : Nat := 64 + up64 (2 * aRows h sh * sh.d)

/-- Offset of the sinks in a record. -/
def sinkOff (h : List Word) (sh : Shape) : Nat := slopeOff h sh + (if aSlope h then up64 (4 * aHeads h sh) else 0)

/-- The record length (R272). -/
def recordLen (h : List Word) (sh : Shape) : Nat := sinkOff h sh + (if aSink h then up64 (4 * aHeads h sh) else 0)

/-- The length of a response with its outputs (R286). -/
def responseLen (h : List Word) (sh : Shape) : Nat := slopeOff h sh + 4 * aRows h sh

/-! ## FP32 arithmetic, each operation rounded once (R221, R222, SAT = 0) -/

/-- FP32 sum. -/
def f32Add (a b : BitVec 32) : BitVec 32 := toF32 (numAdd .even (f32 a) (f32 b)).1
/-- FP32 difference. -/
def f32Sub (a b : BitVec 32) : BitVec 32 := toF32 (numAdd .even (f32 a) (f32 b).neg).1
/-- FP32 product. -/
def f32Mul (a b : BitVec 32) : BitVec 32 := toF32 (numMul (f32 a) (f32 b)).1
/-- FP32 quotient. -/
def f32Div (a b : BitVec 32) : BitVec 32 := toF32 (numDiv (f32 a) (f32 b)).1
/-- The greater under R226: NaN if either is. -/
def f32Max (a b : BitVec 32) : BitVec 32 :=
  if f32 a = .nan ∨ f32 b = .nan then f32NaN else if (f32 a).le (f32 b) then b else a

/-! ## Checks (R276) -/

/-- CAP or SCALE is not finite. -/
def f32NotFinite (b : BitVec 32) : Bool := decide ((b.toNat / 2 ^ 23) % 256 = 255)

/-- CAP is positive and finite. -/
def capOk (b : BitVec 32) : Bool := !f32NotFinite b && decide (b.toNat < 2 ^ 31) && decide (b ≠ 0)

/-- The format checks of a header that need no shape. OUT_SPACE and OUT_ADDR are RESP 0 fields. -/
def attFormatBad (h : List Word) (inbox : Bool) : Bool :=
  reservedSet h [0xFFFFFFFFFFFFFFE0, allBits, allBits, allBits, allBits, 0xFFFFFF00FFFFFFFF, 0xFFFFFFFF0000BFFF, 0] ||
  decide (aEnd h ≤ aFirst h) || (aWin h && decide (aWindow h = 0)) || (aCap h && !capOk (aCapVal h)) ||
  f32NotFinite (aScale h) ||
  (!aResp h && (decide (aSpace h = 3) || decide (aOut h % 64 ≠ 0) || (inbox && decide (aSpace h = 1))))

/-- The format checks that need the shape: LAYER, GROUP, and the record length against its limit. -/
def attShapeBad (h : List Word) (sh : Shape) (limit : Nat) : Bool :=
  decide (sh.layers ≤ aLayer h) || decide (sh.g ≤ aGroup h) || decide (65536 < recordLen h sh) ||
  decide (limit < recordLen h sh)

/-- Where the response goes under RESP 0. -/
def outSpace (h : List Word) : Space := if aSpace h = 0 then .hbm else if aSpace h = 1 then .host else .window

/-- Whether the response target of n bytes is outside the partition's reach. -/
def State.targetAccessBad (s : State) (p : Nat) (v : Option Nat) (h : List Word) (n : Nat) : Bool :=
  if aResp h then !s.owns p tyConn (aConn h)
  else !s.mayReach p v (outSpace h) (aOut h) n || (aDoneEn h && !s.owns p tySync (aDone h))

/-- Whether RESP 1 names a connection that is not ACTIVE. -/
def State.targetStateBad (s : State) (h : List Word) : Bool := aResp h && decide ((s.conn (aConn h)).state ≠ .active)

/-- The checks of R276 on a record of partition p: inbox says that it came through one, limit is the longest record it takes,
recOk that the record lies in the partition's reach. A FREE sequence has no shape to check against and gives STATE after
the other groups (assumption 23). -/
def State.attCheck (s : State) (p : Nat) (v : Option Nat) (h : List Word) (inbox : Bool) (limit : Nat) (recOk : Bool) : Status :=
  let x := s.seq (aSeq h)
  let key := s.seqKeyCheck p (aSeq h)
  firstFail [
    (attFormatBad h inbox || decide (key = .format) ||
      (decide (key = .ok) && decide (x.state ≠ .free) && attShapeBad h x.shape limit), .format),
    (decide (key ≠ .ok) || !recOk || s.targetAccessBad p v h (responseLen h x.shape), .accessViolation),
    (decide (x.state ≠ .active) || decide (aFirst h < x.lowTok) || decide (s.tokens x (aLayer h) < aEnd h) ||
      s.targetStateBad h, .state)]

/-- The checks of R276 that concern where a response of the header alone goes (R286, R288). -/
def State.targetCheck (s : State) (p : Nat) (v : Option Nat) (h : List Word) (inbox : Bool) : Status :=
  firstFail [
    (!aResp h && (decide (aSpace h = 3) || decide (aOut h % 64 ≠ 0) || (inbox && decide (aSpace h = 1))), .format),
    (s.targetAccessBad p v h 64, .accessViolation), (s.targetStateBad h, .state)]

/-! ## Requests -/

/-- Change a request. -/
def State.updReq (s : State) (id : Nat) (f : Req → Req) : State :=
  { s with att := { s.att with reqs := s.att.reqs.map (fun r => if r.id = id then f r else r) } }

/-- A request by number. -/
def State.req (s : State) (id : Nat) : Option Req := s.att.reqs.find? (fun r => decide (r.id = id))

/-- An inbox that is open. -/
def State.inbox (s : State) (n : Nat) : Option Inbox := Tab.find s.att.inboxes n

/-- Change an inbox. -/
def State.updInbox (s : State) (n : Nat) (f : Inbox → Inbox) : State :=
  { s with att := { s.att with inboxes := Tab.upd s.att.inboxes n f } }

/-- Word 3 of a response header: the inbox request number. -/
def ReqFrom.k (o : ReqFrom) : Nat :=
  match o with
  | .attend _ _ => 0
  | .inbox _ k => k % 2 ^ 32

/-- Whether a request came through an inbox. -/
def ReqFrom.isInbox (o : ReqFrom) : Bool :=
  match o with
  | .attend _ _ => false
  | .inbox _ _ => true

/-- The response header (R286). -/
def Req.header (r : Req) : List Byte :=
  wordsBytes [((0 : Word).setField 63 56 r.status.code).setField 31 0 (aTag r.hdr),
    ((0 : Word).setField 63 32 r.detail).setField 31 0 r.nanRows,
    ((0 : Word).setField 63 32 (aFirst r.hdr)).setField 31 0 (aEnd r.hdr), Word.of r.origin.k, 0, 0, 0, 0]

/-- A failed delivery of the response of an inbox, by its number: ATT_RESP_FAILED at most once in 1,800,000 ENG cycles; later failures
count into the next, of an inbox opened anew too (R288, R292). -/
def State.respFailed (s : State) (r : Req) (n k : Nat) (st : Status) : State :=
  let x : Nat × Option Nat := Tab.get (0, none) s.att.respFails n
  let due := match x.2 with
    | some t => decide (t + 1800000 ≤ s.cyc 10)
    | none => true
  let set (y : Nat × Option Nat) : State := { s with att := { s.att with respFails := Tab.set (0, none) s.att.respFails n y } }
  if due then
    ((set (0, some (s.cyc 10))).setIntBit attPage 8).event r.part 0x0160
      .ok n (((0 : Word).setField 39 32 st.code).setField 31 0 k) (Word.of (aTag r.hdr))
      (((0 : Word).setField 63 32 (x.1 + 1)).setField 23 0 (if aResp r.hdr then aConn r.hdr else 0))
  else set (x.1 + 1, x.2)

/-- A request leaves the engine: its sequence is no longer in use, its ATTEND ends, or the failed delivery of its inbox is
reported (R287, R288, R290). -/
def State.reqEnd (s : State) (r : Req) (delivery : Status) : State :=
  let s1 : State := { s with att := { s.att with reqs := s.att.reqs.filter (fun x => x.id ≠ r.id) } }
  let s2 := match r.use with
    | some n => s1.unuseSeq (aSeq r.hdr) n
    | none => s1
  let s3 := s2.count1 .att (if delivery = .ok then 5 else 6)
  match r.origin with
  | .attend ring idx =>
    if delivery ≠ .ok then s3.workFail ring idx delivery
    else if r.status ≠ .ok then s3.workDone ring idx r.status r.detail 0 0
    else
      s3.workDone ring idx .ok 0
        (((0 : Word).setField 63 32 r.nanRows).setField 31 0 (aEnd r.hdr - aFirst r.hdr)) 0
  | .inbox n k => if delivery = .ok then s3 else s3.respFailed r n (k % 2 ^ 32) delivery

/-- Whether the target of a RESP 0 response fails its writes: a downstream port that is not READY, or a frozen host link. -/
def State.outFails (s : State) (h : List Word) : Bool :=
  match outSpace h with
  | .hbm => false
  | .host => s.frozen
  | .window =>
    match windowPort (aOut h) with
    | some n => !s.dportUp n
    | none => true

/-- Whether a RESP 0 response waits for its memory: the host link issues nothing, and is not frozen (R76, R77). -/
def State.outWaits (s : State) (r : Req) : Bool :=
  !aResp r.hdr && !s.outFails r.hdr && !s.spaceUp (outSpace r.hdr) r.vi (aOut r.hdr)

/-- Deliver a response: the outputs and the header to memory, then DONE_SYNC; or the whole as one Millrace WRITE, after which
the request waits for its acknowledgement (R287). A port or link that takes no write fails the delivery with TIMEOUT and
sets ERR_STAT bit 2. -/
def State.deliver (s : State) (r : Req) (outputs : List Byte) : State :=
  let h := r.hdr
  match s.targetCheck r.part r.vi h r.origin.isInbox with
  | .ok =>
    if aResp h then
      let x := s.conn (aConn h)
      (s.updReq r.id (fun y => { y with chunks := [], status := r.status, detail := r.detail, nanRows := r.nanRows,
                                        sending := true })).connEnqueue (aConn h)
        (writeAll (mtuBytes x.mtu) true (aRkey h) (aTag h) (aOut h) (.response r.id) (r.header ++ outputs))
    else if !s.outFails h then
      let s1 := (s.put (outSpace h) r.vi (aOut h + 64) outputs).put (outSpace h) r.vi (aOut h) r.header
      (if aDoneEn h then s1.syncAdd (aDone h) 1 else s1).reqEnd r .ok
    else (s.errFor .att 2 r.part).reqEnd r .timeout
  | st => s.reqEnd r st

/-- A request ends early with a status: its response is the header alone (R286). One that waits for its memory stands without
chunks, and ATTEND delivers it once it may. -/
def State.reqFail (s : State) (r : Req) (st : Status) (detail : Nat) : State :=
  let x : Req := { r with status := st, detail := detail, nanRows := 0, chunks := [] }
  if s.outWaits x then s.updReq r.id (fun _ => x) else s.deliver x []

/-- The packets of a response have all been acknowledged, or one has been refused (R287, R288). -/
def State.responseAcked (s : State) (id : Nat) (st : Status) : State :=
  match s.req id with
  | some r =>
    if r.sending then
      if st ≠ .ok then
        (s.updConn (aConn r.hdr) (fun x => x.dropQueued (.response id))).reqEnd r st
      else if (s.conn (aConn r.hdr)).owes (.response id) then s
      else s.reqEnd r .ok
    else s
  | none => s

/-- The addresses of the blocks of a request's span, from the block of FIRST_TOK on. -/
def State.spanBlocks (s : State) (h : List Word) (x : Seq) : List Nat :=
  (List.range ((aEnd h - 1) / 16 + 1 - aFirst h / 16)).map (fun i =>
    (s.blockAt (aSeq h) x (aLayer h) (aGroup h) (aFirst h / 16 + i)).getD 0)

/-- The first poisoned block of a request's span, if one is (R267). -/
def State.spanPoisoned (s : State) (h : List Word) (x : Seq) : Option Nat :=
  ((List.range ((aEnd h - 1) / 16 + 1 - aFirst h / 16)).map (fun i => aFirst h / 16 + i)).find?
    (fun b => s.blockPoisoned (aSeq h) x (aLayer h) (aGroup h) b)

/-- Number of chunks of a span (R280). -/
def chunkCount (h : List Word) : Nat := (aEnd h - 1) / 1024 + 1 - aFirst h / 1024

/-- Take a request (R276, R289, R290): a record that fails a check is answered at once. -/
def State.takeReq (s : State) (p : Nat) (origin : ReqFrom) (vi : Option Nat) (limit : Nat) (recOk : Bool)
    (record : List Byte) : State :=
  let h := bytesWords 8 record
  let id := s.att.nextReq
  let st := s.attCheck p vi h origin.isInbox limit recOk
  let s1 := ({ s with att := { s.att with nextReq := id + 1 } }).count1 .att 1
  let lim := (s.reg attPage 0x100).field 5 0
  let base : Req :=
    { id := id, part := p, origin := origin, vi := vi, hdr := h, body := record, tokens := 0, lowTok := 0,
      limit := if lim = 0 then 32 else lim, use := none, blocks := [], chunks := [], status := .ok, detail := 0,
      nanRows := 0, sending := false }
  let add (t : State) (r : Req) : State := { t with att := { t.att with reqs := t.att.reqs ++ [r] } }
  if st ≠ .ok then (add (s1.count1 .att 2) base).reqFail base st 0
  else
    let x := s1.seq (aSeq h)
    let u := (s1.count1 .kvs 6).useSeq (aSeq h)
    let r : Req := { base with tokens := s1.tokens x (aLayer h), lowTok := x.lowTok, use := some u.1,
                               blocks := s1.spanBlocks h x, chunks := List.replicate (chunkCount h) .waiting }
    match s1.spanPoisoned h x with
    | some b => (add u.2 r).reqFail r .poisoned (b * 16)
    | none => add u.2 r

/-! ## Inboxes (R273 to R275, R291) -/

/-- Run INBOX_OPEN; the inbox of a draining partition closes in the cycle in which it opens (R275). -/
def State.inboxOpen (s : State) (w : Work) : State :=
  let base := (wordAt w.words 2).toNat
  let n := wf w.words 3 63 54
  let ls := wf w.words 3 53 50
  let sl := wf w.words 3 49 45
  let o := wf w.words 3 13 0
  match firstFail [
      (decide (base % 4096 ≠ 0) || decide (ls < 4) || decide (12 < ls) || decide (sl < 12) || decide (16 < sl), .format),
      (!s.ownsHbm w.part base (2 ^ (ls + sl)) || !s.owns w.part tySync o, .accessViolation),
      ((s.inbox n).isSome, .state)] with
  | .ok =>
    let x : Inbox := { part := w.part, base := base, logSlots := ls, slotLog := sl, prodSync := o, baseVal := s.syncVal o,
                       taken := 0, released := false, closer := none }
    if (s.part w.part).state = .draining then s.workDone w.ring w.idx .ok 0 0 0
    else ({ s with att := { s.att with inboxes := Tab.insert s.att.inboxes n x } }).workDone w.ring w.idx .ok 0 0 0
  | st => s.workFail w.ring w.idx st

/-- INBOX_OPEN: binds an inbox to the partition and records BASE_VAL (R273). -/
def execInboxOpen (ring idx : Nat) (s : State) : Host.Outcome State Fault Refusal :=
  .next (s.runDesc ring idx 0x05 0x02 (fun w => s.inboxOpen w))

/-- Run INBOX_CLOSE; an inbox that is closing already is no longer open to it. -/
def State.inboxClose (s : State) (w : Work) : State :=
  let n := wf w.words 2 9 0
  match s.inbox n with
  | none => s.workFail w.ring w.idx .state
  | some x =>
    if x.part ≠ w.part then s.workFail w.ring w.idx .accessViolation
    else if x.closer.isSome then s.workFail w.ring w.idx .state
    else
      (s.updInbox n (fun y => { y with closer := some (w.ring, w.idx) })).updWork w.ring w.idx
        (fun v => { v with phase := .running })

/-- INBOX_CLOSE: stops an inbox taking requests (R275). -/
def execInboxClose (ring idx : Nat) (s : State) : Host.Outcome State Fault Refusal :=
  .next (s.runDesc ring idx 0x05 0x03 (fun w => s.inboxClose w))

/-- Whether a request that an inbox took is in progress. -/
def State.inboxBusy (s : State) (n : Nat) : Bool :=
  s.att.reqs.any (fun r => match r.origin with
    | .inbox m _ => decide (m = n)
    | .attend _ _ => false)

/-- A closing inbox with no request in progress closes, and its INBOX_CLOSE completes (R275). -/
def State.inboxClosed (s : State) (n : Nat) : State :=
  match s.inbox n with
  | some x =>
    match x.closer with
    | some d =>
      if s.inboxBusy n then s
      else ({ s with att := { s.att with inboxes := Tab.erase s.att.inboxes n } }).workDone d.1 d.2 .ok 0 0 0
    | none => s
  | none => s

/-- INBOX_CLOSED (R275). -/
def execInboxClosed (inbox : Nat) (s : State) : Host.Outcome State Fault Refusal := .next (s.inboxClosed inbox)

/-- Run INBOX_QUERY. -/
def State.inboxQuery (s : State) (w : Work) : State :=
  match s.inbox (wf w.words 2 9 0) with
  | some x =>
    if x.part ≠ w.part then s.workFail w.ring w.idx .accessViolation
    else
      s.workDone w.ring w.idx .ok 0 (((0 : Word).setBit 63 true).setField 31 0 x.taken) (x.baseVal + Word.of (x.taken + 1))
  | none => s.workDone w.ring w.idx .ok 0 0 0

/-- INBOX_QUERY: returns an inbox's state and the value at which it takes its next request (R291). -/
def execInboxQuery (ring idx : Nat) (s : State) : Host.Outcome State Fault Refusal :=
  .next (s.runDesc ring idx 0x05 0x04 (fun w => s.inboxQuery w))

/-- An inbox takes its next request once PROD_SYNC has counted it, and registers its wait for the one after (R115, R273). -/
def State.inboxTake (s : State) (n : Nat) : State :=
  match s.inbox n with
  | some x =>
    if x.closer.isNone && x.released && !s.flt.safe && !s.dataHeld then
      let a := x.base + x.taken % 2 ^ x.logSlots * 2 ^ x.slotLog
      let h := bytesWords 8 (s.bytes a 64)
      let len := max 64 (min (recordLen h (s.seq (aSeq h)).shape) (2 ^ x.slotLog))
      let y : Inbox := { x with taken := x.taken + 1 }
      (s.updInbox n (fun _ => { y with released := y.meets (s.syncVal x.prodSync) })).takeReq x.part (.inbox n x.taken) none (2 ^ x.slotLog) true
        (s.bytes a len)
    else s
  | none => s

/-- INBOX_TAKE (R273). -/
def execInboxTake (inbox : Nat) (s : State) : Host.Outcome State Fault Refusal := .next (s.inboxTake inbox)

/-- The inboxes of a draining partition close, with the INBOX_CLOSE that waits for one, and
its requests end without a response (R275). -/
def State.attDrain (s : State) (p : Nat) : State :=
  let gone := s.att.reqs.filter (fun r => r.part = p)
  let s1 : State := { s with att := { s.att with reqs := s.att.reqs.filter (fun r => r.part ≠ p) } }
  let s2 := gone.foldl (fun t r =>
    let t1 := match r.use with
      | some n => t.unuseSeq (aSeq r.hdr) n
      | none => t
    let t2 := if r.sending then t1.updConn (aConn r.hdr) (fun x => x.dropQueued (.response r.id)) else t1
    match r.origin with
    | .attend ring idx => t2.workFail ring idx .abortedByReset
    | .inbox _ _ => t2) s1
  let closed := s2.att.inboxes.filter (fun e => e.2.part = p)
  closed.foldl (fun t e => match e.2.closer with
    | some d => t.workDone d.1 d.2 .ok 0 0 0
    | none => t) { s2 with att := { s2.att with inboxes := s2.att.inboxes.filter (fun e => e.2.part ≠ p) } }

/-! ## Chunks (R280, R289) -/

/-- Units that a request uses now. -/
def Req.units (r : Req) : Nat :=
  (r.chunks.filter (fun c => match c with
    | .running _ => true
    | .waiting | .done _ => false)).length

/-- Whether a request may start a chunk. -/
def Req.ready (r : Req) : Bool := r.chunks.contains .waiting && decide (r.units < r.limit)

/-- Whether a request runs a chunk on a unit, and which. -/
def Req.chunkOn (r : Req) (u : Nat) : Option Nat :=
  let i := r.chunks.findIdx (fun c => decide (c = .running u))
  if i < r.chunks.length then some i else none

/-- The next partition in round robin after the last one, among those with a chunk that may start. -/
def State.nextAttPart (s : State) : Option Nat :=
  ((List.range 128).map (fun i => (s.att.lastPart + 1 + i) % 128)).find?
    (fun p => s.att.reqs.any (fun r => decide (r.part = p) && r.ready))

/-- A free unit takes the next chunk: one per partition in turn, then by the order of taking, then by index (R289). -/
def State.chunkStart (s : State) (u : Nat) : State :=
  if decide (32 ≤ u) || s.att.reqs.any (fun r => (r.chunkOn u).isSome) || s.flt.safe || s.dataHeld ||
     s.clusterStopped (10 + u / 16) then s
  else
    match s.nextAttPart with
    | some p =>
      match s.att.reqs.find? (fun r => decide (r.part = p) && r.ready) with
      | some r =>
        let i := r.chunks.findIdx (fun c => decide (c = .waiting))
        let s1 := s.updReq r.id (fun y => { y with chunks := y.chunks.set i (.running u) })
        { s1 with att := { s1.att with lastPart := p } }
      | none => s
    | none => s

/-- CHUNK_START (R289). -/
def execChunkStart (unit : Nat) (s : State) : Host.Outcome State Fault Refusal := .next (s.chunkStart unit)

/-- Whether token t is unmasked for query token q (R277). -/
def unmasked (h : List Word) (q t : Nat) : Bool :=
  let p : Int := aQpos h + q
  (!aCausal h || decide ((t : Int) ≤ p)) && (!aWin h || decide ((t : Int) > p - aWindow h))

/-- The exact values of the key or value elements of one head of one token of a request's span. -/
def State.kvRow (s : State) (r : Req) (sh : Shape) (kv head t : Nat) : List Num :=
  let a := r.blocks.getD (t / 16 - aFirst r.hdr / 16) 0
  let at_ := sh.rowAt kv head (t % 16)
  (rowValues (kvElem sh.fmt) sh.d (s.bytes (a + at_.1) (sh.d * kvBits sh.fmt / 8))
    (if sh.fmt = 9 then s.bytes (a + at_.2) (sh.d / 32) else [])).map (fun x => x.scale (sh.sexp kv))

/-- The query of row (q, qh). -/
def Req.query (r : Req) (sh : Shape) (q qh : Nat) : List Num :=
  let i := (q * aHeads r.hdr sh + qh) * sh.d
  (List.range sh.d).map (fun d => decodeFlt fBf16 (leNat (slice r.body (64 + 2 * (i + d)) 2)))

/-- An FP32 value of a record's array. -/
def Req.f32At (r : Req) (off i : Nat) : BitVec 32 := BitVec.ofNat 32 (leNat (slice r.body (off + 4 * i) 4))

/-- The exact dot product of two rows. -/
def dotNum (xs ys : List Num) : Num :=
  (xs.zip ys).foldl (fun a e => (numAdd .even a (numMul e.1 e.2).1).1) (.fin false 0 0)

/-- The score of row (q, qh) for token t (R278). -/
def State.score (s : State) (r : Req) (sh : Shape) (q qh t : Nat) : BitVec 32 :=
  let h := r.hdr
  let s0 := toF32 (dotNum (r.query sh q qh) (s.kvRow r sh 0 (qh / aQpg h) t))
  let s1 := f32Mul s0 (aScale h)
  let s2 := if aCap h then f32Mul (aCapVal h) (f32Tanh (f32Div s1 (aCapVal h))) else s1
  if aSlope h then
    f32Add s2 (f32Mul (r.f32At (slopeOff h sh) qh) (toF32 (numOfInt ((t : Int) - (aQpos h + q)))))
  else s2

/-- The value elements of a token in FP32 (R279). -/
def State.valueRow (s : State) (r : Req) (sh : Shape) (head t : Nat) : List (BitVec 32) := (s.kvRow r sh 1 head t).map toF32

/-- A partial that no token has entered. -/
def Partial.zero (d : Nat) : Partial := { m := f32NegInf, l := 0, a := List.replicate d 0, nanRow := false }

/-- A score that makes its row a NaN row: NaN or +infinity (R283). -/
def scoreNan (x : BitVec 32) : Bool := decide (f32 x = .nan) || decide (f32 x = .inf false)

/-- Add one token to a partial whose maximum is already mn (R280). -/
def Partial.token (x : Partial) (mn sc : BitVec 32) (v : List (BitVec 32)) : Partial :=
  let w := f32Exp (f32Sub sc mn)
  { x with l := f32Add x.l w, a := (x.a.zip v).map (fun e => f32Add e.1 (f32Mul w e.2)),
           nanRow := x.nanRow || v.any f32NotFinite }

/-- Fold one block's unmasked tokens, given with their scores and values, into a partial (R280). -/
def Partial.block (x : Partial) (ts : List (BitVec 32 × List (BitVec 32))) : Partial :=
  match ts with
  | [] => x
  | t0 :: rest =>
    let mb := rest.foldl (fun m t => f32Max m t.1) t0.1
    let mn := f32Max x.m mb
    let c := f32Exp (f32Sub x.m mn)
    let y : Partial := { x with l := f32Mul x.l c, a := x.a.map (fun e => f32Mul e c) }
    { (ts.foldl (fun z t => z.token mn t.1 t.2) y) with m := mn }

/-- The tokens of a chunk of a request. -/
def chunkTokens (h : List Word) (c : Nat) : Nat × Nat :=
  let lo := (aFirst h / 1024 + c) * 1024
  (max lo (aFirst h), min (lo + 1024) (aEnd h))

/-- Fold one row of a chunk (R280, R283). -/
def State.foldRow (s : State) (r : Req) (sh : Shape) (c q qh : Nat) : Partial :=
  let tk := chunkTokens r.hdr c
  (List.range ((tk.2 - 1) / 16 + 1 - tk.1 / 16)).foldl (fun x i =>
    let b := tk.1 / 16 + i
    let ts := ((List.range 16).map (fun j => b * 16 + j)).filter
      (fun t => decide (tk.1 ≤ t) && decide (t < tk.2) && unmasked r.hdr q t)
    let scored := ts.map (fun t => (t, s.score r sh q qh t))
    let bad := scored.any (fun e => scoreNan e.2)
    let live := (scored.filter (fun e => e.2 ≠ f32NegInf)).map (fun e => (e.2, s.valueRow r sh (qh / aQpg r.hdr) e.1))
    { (x.block live) with nanRow := (x.block live).nanRow || bad }) (Partial.zero sh.d)

/-- Every row of a chunk, in order of q and qh. -/
def State.foldChunk (s : State) (r : Req) (sh : Shape) (c : Nat) : List Partial :=
  (List.range (aNq r.hdr)).flatMap (fun q => (List.range (aHeads r.hdr sh)).map (fun qh => s.foldRow r sh c q qh))

/-- merge of R281. -/
def Partial.merge (x y : Partial) : Partial :=
  let nan := x.nanRow || y.nanRow
  if x.m = f32NegInf then { y with nanRow := nan }
  else if y.m = f32NegInf then { x with nanRow := nan }
  else
    let mn := f32Max x.m y.m
    let cx := f32Exp (f32Sub x.m mn)
    let cy := f32Exp (f32Sub y.m mn)
    { m := mn, l := f32Add (f32Mul x.l cx) (f32Mul y.l cy),
      a := (x.a.zip y.a).map (fun e => f32Add (f32Mul e.1 cx) (f32Mul e.2 cy)), nanRow := nan }

/-- One level of the merge tree. -/
def mergeLevel (ps : List Partial) : List Partial :=
  match ps with
  | x :: y :: r => x.merge y :: mergeLevel r
  | [x] => [x]
  | [] => []

/-- The merge tree (R281); k bounds its depth. -/
def mergeTree (k d : Nat) (ps : List Partial) : Partial :=
  match k with
  | 0 => ps.headD (Partial.zero d)
  | k + 1 =>
    match ps with
    | [] => Partial.zero d
    | [x] => x
    | x :: y :: r => mergeTree k d (mergeLevel (x :: y :: r))

/-- The outputs of a row: D BF16 elements, and the log-sum-exp (R282, R283). -/
def Partial.outputs (x : Partial) : List Byte × BitVec 32 :=
  if x.nanRow then (x.a.flatMap (fun _ => leBytes 2 0x7FC0), 0x7FC00000)
  else if x.m = f32NegInf then (x.a.flatMap (fun _ => leBytes 2 0), f32NegInf)
  else
    (x.a.flatMap (fun e => leBytes 2 (encodeFlt fBf16 true (numDiv (f32 e) (f32 x.l)).1).1),
     f32Add x.m (f32Ln x.l))

/-- The partial of a row's sink (R282). -/
def Req.sink (r : Req) (sh : Shape) (qh : Nat) : Partial :=
  { m := r.f32At (sinkOff r.hdr sh) qh, l := 0x3F800000, a := List.replicate sh.d 0, nanRow := false }

/-- The final partial of row i of a request whose chunks are all done. -/
def Req.row (r : Req) (sh : Shape) (i : Nat) : Partial :=
  let ps := r.chunks.filterMap (fun c => match c with
    | .done rows => some (rows.getD i (Partial.zero sh.d))
    | .waiting | .running _ => none)
  let t := mergeTree ps.length sh.d ps
  if aSink r.hdr then t.merge (r.sink sh (i % aHeads r.hdr sh)) else t

/-- Merge the chunks of a finished request and deliver its response, once its memory takes writes (R76, R281, R282, R286, R287). -/
def State.reqFinish (s : State) (r : Req) : State :=
  let sh := (s.seq (aSeq r.hdr)).shape
  let rows := (List.range (aRows r.hdr sh)).map (r.row sh)
  let nan := (rows.filter (fun x => x.nanRow)).length
  let outs := rows.map Partial.outputs
  let data := outs.flatMap Prod.fst
  let lse := outs.flatMap (fun o => leBytes 4 o.2.toNat)
  let s1 := if nan = 0 then s else s.count attPage 7 nan
  if s.outWaits r then s
  else if r.status ≠ .ok then s.deliver r []
  else s1.deliver { r with nanRows := nan, status := .ok, detail := 0 }
    (data ++ List.replicate (slopeOff r.hdr sh - 64 - data.length) 0 ++ lse)

/-- Whether every chunk of a request is done. -/
def Req.complete (r : Req) : Bool :=
  r.chunks.all (fun c => match c with
    | .done _ => true
    | .waiting | .running _ => false)

/-- The first block of a chunk of a request that is poisoned, if one is (R267). -/
def State.chunkPoisoned (s : State) (r : Req) (c : Nat) : Option Nat :=
  let tk := chunkTokens r.hdr c
  let pool := s.pool (seqPool (aSeq r.hdr) (s.seq (aSeq r.hdr)))
  ((List.range ((tk.2 - 1) / 16 + 1 - tk.1 / 16)).map (fun i => tk.1 / 16 + i)).find? (fun b =>
    let a := r.blocks.getD (b - aFirst r.hdr / 16) 0
    match pool with
    | some p => p.poison.any (fun n => decide (p.slotAddr n = a))
    | none => false)

/-- A unit finishes its chunk; a block of it that has been poisoned ends the request (R267, R276); the last chunk of a request merges and delivers it (R280, R281, R287). -/
def State.chunkDone (s : State) (u : Nat) : State :=
  match s.att.reqs.find? (fun r => (r.chunkOn u).isSome) with
  | some r =>
    match r.chunkOn u with
    | some c =>
      let sh := (s.seq (aSeq r.hdr)).shape
      let tk := chunkTokens r.hdr c
      match s.chunkPoisoned r c with
      | some b => s.reqFail r .poisoned (b * 16)
      | none =>
      let r' : Req := { r with chunks := r.chunks.set c (.done (s.foldChunk r sh c)) }
      let s1 := ((s.count ⟨.att, u / 16⟩ 3 1).count ⟨.att, u / 16⟩ 4 (tk.2 - tk.1)).updReq r.id (fun _ => r')
      if r'.complete then s1.reqFinish r' else s1
    | none => s
  | none => s

/-- CHUNK_DONE (R280). -/
def execChunkDone (unit : Nat) (s : State) : Host.Outcome State Fault Refusal := .next (s.chunkDone unit)

/-! ## ATTEND (R273, R291) -/

/-- Run ATTEND: its record is read, header first, and then taken; a request whose response waits for host memory is delivered
when ATTEND is run again (R76). -/
def State.attend (s : State) (w : Work) : State :=
  let a := (wordAt w.words 2).toNat
  let sp := spaceOf (wb w.words 3 63) a
  let go (t : State) (recOk : Bool) (record : List Byte) : State :=
    let h := bytesWords 8 record
    (t.updWork w.ring w.idx (fun v => { v with phase := if !aResp h && decide (aSpace h = 1) then .fetching else .running })
      ).takeReq w.part (.attend w.ring w.idx) w.vi 65536 recOk record
  match s.att.reqs.find? (fun r => decide (r.origin = .attend w.ring w.idx)) with
  | some r => if r.complete && !r.sending then s.reqFinish r else s
  | none =>
  if a % 64 ≠ 0 then s.workFail w.ring w.idx .format
  else if !s.mayReach w.part w.vi sp a 64 then s.workFail w.ring w.idx .accessViolation
  else
    match s.fetch w sp a 64 with
    | .wait s1 => s1
    | .got hd =>
      let h := bytesWords 8 hd
      let n := recordLen h (s.seq (aSeq h)).shape
      let ok := s.mayReach w.part w.vi sp a n
      if s.attCheck w.part w.vi h false 65536 ok ≠ .ok then go s ok hd
      else
        match s.fetch w sp a n with
        | .wait s1 => s1
        | .got d => go s ok d

/-- ATTEND: reads a request record and takes it (R291). -/
def execAttend (ring idx : Nat) (s : State) : Host.Outcome State Fault Refusal :=
  .next (s.runDesc ring idx 0x05 0x01 (fun w => s.attend w))

/-! ## Block read faults (R266) -/

/-- The block of a request's span that holds an address, read by a chunk that runs now. -/
def State.reqBlockAt (s : State) (r : Req) (a : Nat) : Option Nat :=
  let sh := (s.seq (aSeq r.hdr)).shape
  ((List.range r.blocks.length).map (fun i => aFirst r.hdr / 16 + i)).find? (fun b =>
    let base := r.blocks.getD (b - aFirst r.hdr / 16) 0
    decide (base ≤ a) && decide (a < base + sh.blockBytes) &&
    (r.chunks.getD (b / 64 - aFirst r.hdr / 1024) .waiting != .waiting))

/-- The attention request that met a lasting fault ends with POISONED. -/
def State.reqPoisoned (s : State) (r : Req) (a : Nat) : State :=
  (s.latch ⟨.att, if stack (granule a) < 4 then 0 else 1⟩ 0 3 r.part true).reqFail r .poisoned
    (((s.reqBlockAt r a).getD (aFirst r.hdr / 16)) * 16)

/-- The first token of the block of a LOOKUP that holds an address. -/
def State.lookupBlockAt (s : State) (w : Work) (a : Nat) : Nat :=
  let x := s.seq (kSeq w.words)
  let bs := (List.range ((kFirst w.words + kNtok w.words) / 16 + 1 - kFirst w.words / 16)).map (fun i => kFirst w.words / 16 + i)
  ((bs.find? (fun b => (List.range x.shape.g).any (fun g =>
    match s.blockAt (kSeq w.words) x (kLayer w.words) g b with
    | some base => decide (base ≤ a) && decide (a < base + x.shape.blockBytes)
    | none => false))).getD (kFirst w.words / 16)) * 16

/-- An uncorrectable error on a block read at an address, met by the descriptor of a ring and index, or by the first request
that reads the block: the second read succeeds, or the page is retired and the request ends with POISONED (R266). -/
def State.blockReadError (s : State) (a : Nat) (again : Bool) (ring idx : Nat) : State :=
  if !again then s.count (kvsPageOf a) 8 1
  else
    let s1 := ((s.markBad a).retirePage a).latch (kvsPageOf a) 0 1
      ((s.ownerOf tyGranule (granule a)).getD 0x7F) true
    match s1.att.reqs.find? (fun r => decide (r.origin = .attend ring idx) && !r.sending) with
    | some r => s1.reqPoisoned r a
    | none =>
      match s1.workAt ring idx with
      | some w =>
        if dEngine w.words = 4 ∧ dOpcode w.words = 3 ∧ w.phase ≠ .done then
          s1.workDone ring idx .poisoned (s1.lookupBlockAt w a) 0 0
        else s1
      | none =>
        match s1.att.reqs.find? (fun r => r.origin.isInbox && !r.sending && (s1.reqBlockAt r a).isSome) with
        | some r => s1.reqPoisoned r a
        | none => s1

end Sys2Proof.Machine
end

