-- ==== Sys2Proof/Machine/Kiln.lean ====
section
/-! DEFINITION. Kiln's checkpoint steps: region lists, copies and narrowing, drain and commit, abandonment, staging areas
(15_kiln_checkpoint.md R293 to R306, R311 to R314). -/

namespace Sys2Proof.Machine

/-- The CKP page of instance 0. -/
abbrev ckpPage : Page := Blk.ckp.page

/-! ## Region lists (R294, R295) -/

/-- The element kind of a region; FP32 for a code that is none. -/
def rgElem (e : List Word) : Elem := (elemOf (rgType e)).getD (.flt fFp32)

/-- Elements of a region with dimensions. -/
def rgElems (e : List Word) : Nat := (List.range (rgNdim e)).foldl (fun a i => a * rgExtent e i) 1

/-- The data length of a region. -/
def rgLen (e : List Word) : Nat :=
  if rgNdim e = 0 then (wordAt e 3).toNat else rgElems e * (rgElem e).bits / 8

/-- The space of a region. -/
def rgSp (e : List Word) : Space := if rgSpace e = 0 then .hbm else if rgSpace e = 1 then .host else .window

/-- The checks of one entry (R295); a restore needs FENCE, URGENCY and NARROW 0 and an alignment of 64 bytes. -/
def rgBad (restore : Bool) (e : List Word) : Bool :=
  let n := rgNdim e
  reservedSet (e.drop 1) [if restore then 0xFCF0000000000000 else 0xFFFFF00000003FFF, 0xFFFFFFFF, allBits, 0, 0, 0, 0] ||
  (List.range 24).any (fun i => decide (3 * n ≤ i) && decide (wordAt e (8 + i) ≠ 0)) ||
  decide (rgAddr e % (if restore then 64 else 65536) ≠ 0) || decide (rgSpace e = 3) ||
  !([0, 1, 2, 3, 4, 0xA, 0xB].contains (rgType e)) || decide (rgNarrow e = 3) || decide (8 < n) ||
  (decide (n ≠ 0) && decide (wordAt e 3 ≠ 0)) ||
  (List.range n).any (fun i => decide (rgExtent e i = 0) || decide (rgShape e i < rgStart e i + rgExtent e i)) ||
  decide (rgLen e = 0) || decide (2 ^ 40 < rgLen e) || (decide (rgNarrow e ≠ 0) && decide (rgType e ≠ 0))

/-- Two regions of one list that share a byte, or one TENSOR_ID with different NDIM or SHAPE (R295). -/
def rgClash (a b : List Word) : Bool :=
  (decide (rgSpace a = rgSpace b) && shares true (rgAddr a) (rgLen a) true (rgAddr b) (rgLen b)) ||
  (decide (rgTensor a = rgTensor b) &&
    (decide (rgNdim a ≠ rgNdim b) || (List.range (rgNdim a)).any (fun i => decide (rgShape a i ≠ rgShape b i))))

/-- Whether a list of entries breaks a limit of R295. -/
def rgListBad (restore : Bool) (es : List (List Word)) : Bool :=
  match es with
  | [] => false
  | e :: r => rgBad restore e || r.any (rgClash e) || rgListBad restore r

/-- Whether p reaches every region of a list. -/
def State.rgReach (s : State) (p : Nat) (v : Option Nat) (es : List (List Word)) : Bool :=
  es.all (fun e => s.mayReach p v (rgSp e) (rgAddr e) (rgLen e))

/-- Number of entries that a region list's header gives. -/
def rgCount (hd : List Word) : Nat := wf hd 1 11 0 + 1

/-- Whether a list's header sets a reserved bit; mask is what word 1 may set. -/
def listHeadBad (hd : List Word) (mask : Word) : Bool := reservedSet hd [allBits, mask, 0, 0, 0, 0, 0, 0]

/-- The entries of a region list. -/
def State.rgEntries (s : State) (a n : Nat) : List (List Word) :=
  (List.range n).map (fun i => s.words (a + 64 + 256 * i) 32)

/-! ## STEP_OPEN (R293, R311, R312) -/

/-- STEP. -/
def kStep (ws : List Word) : Word := wordAt ws 2
/-- LIST. -/
def kList (ws : List Word) : Nat := (wordAt ws 3).toNat
/-- KIND: a remote target. -/
def kRemote (ws : List Word) : Bool := wb ws 4 63
/-- NSID or RKEY. -/
def kTarget (ws : List Word) : Nat := wf ws 4 31 0
/-- CONN. -/
def kConn (ws : List Word) : Nat := wf ws 5 63 40
/-- BASE. -/
def kBase (ws : List Word) : Nat := (wordAt ws 6).toNat
/-- SIZE. -/
def kSize (ws : List Word) : Nat := (wordAt ws 7).toNat

/-- The steps of a partition that are open: neither committed nor abandoned. -/
def State.openSteps (s : State) (p : Nat) : List Step :=
  s.ckp.steps.filter (fun x => decide (x.part = p) && x.abandoned.isNone)

/-- Whether the target range of a step shares a byte with one: the same namespace, or the same region key and connection. -/
def Step.overlaps (x : Step) (remote : Bool) (target conn base size : Nat) : Bool :=
  decide (x.remote = remote) && decide (x.target = target) && (!remote || decide (x.conn = conn)) &&
  (if remote then shares true x.base x.size true base size
   else shares true (x.base * 4096) x.size true (base * 4096) size)

/-- The regions of a step from its entries: shards in list order from offset 4,096 (R302). -/
def shardLayout (off : Nat) (es : List (List Word)) : List Region :=
  match es with
  | [] => []
  | e :: r =>
    let n := stagedLen (rgNarrow e) (rgLen e)
    { entry := e, pages := [], off := off, stored := n, crc := 0, copied := false, issued := false, acked := false } ::
      shardLayout (off + up4k n) r

/-- Give each region its staging pages. -/
def givePages (rs : List Region) (pages : List Nat) : List Region :=
  match rs with
  | [] => []
  | r :: rest =>
    let n := (r.stored + 65535) / 65536
    { r with pages := pages.take n } :: givePages rest (pages.drop n)

/-- Whether a namespace target takes a container: READY, LBAs of 4,096 bytes. -/
def State.nsTargetOk (s : State) (n : Nat) : Bool := decide ((s.ns n).state = .ready) && (s.ns n).lba4k

/-- The checks of STEP_OPEN after its list has been read. A range beyond the namespace's end gives FORMAT, as an LBA out of
range does (R335). -/
def State.stepCheck (s : State) (p : Nat) (v : Option Nat) (ws hd : List Word) (es : List (List Word)) (n : Option Nat) : Status :=
  let remote := kRemote ws
  let target := if remote then kTarget ws else n.getD 0
  let mine := s.openSteps p
  firstFail [
    (listHeadBad hd 0xFFF || rgListBad false es || decide (kSize ws % 4096 ≠ 0) || (remote && decide (kBase ws % 4096 ≠ 0)) ||
      (match n with
       | some k => !remote && decide ((s.ns k).bytes < kBase ws * 4096 + kSize ws)
       | none => false), .format),
    (!s.rgReach p v es || !(es.all (fun e => s.owns p tySync (rgFence e))) ||
      (if remote then !s.owns p tyConn (kConn ws) else n.isNone), .accessViolation),
    (decide (2 ≤ mine.length) || mine.any (fun x => decide (x.step = kStep ws)) ||
      s.ckp.steps.any (fun x => x.abandoned.isNone && x.overlaps remote target (kConn ws) (kBase ws) (kSize ws)) ||
      decide ((s.part p).stage = []) ||
      (if remote then decide ((s.conn (kConn ws)).state ≠ .active) else !s.nsTargetOk target), .state),
    (decide (256 ≤ s.ckp.steps.length), .resource)]

/-- Open a step: its pages are taken and the commit block is written as zeros (R300, R304). -/
def State.stepStart (s : State) (w : Work) (hd : List Word) (es : List (List Word)) (target : Nat) : State :=
  let ws := w.words
  let rs := shardLayout 4096 es
  let used := 4096 + (rs.map (fun r => up4k r.stored)).sum + up4k (64 + 256 * rs.length)
  if kSize ws < used then s.workFail w.ring w.idx .resource
  else
    match s.stageTake w.part ((rs.map (fun r => (r.stored + 65535) / 65536)).sum) with
    | none => s.workFail w.ring w.idx .resource
    | some t =>
      let sid := s.ckp.nextSid
      let x : Step :=
        { sid := sid, part := w.part, step := kStep ws, ring := w.ring, idx := w.idx, runId := wordAt hd 0,
          remote := kRemote ws, target := target, conn := kConn ws, base := kBase ws, size := kSize ws,
          regions := givePages rs t.1, order := [], phase := 1, phaseAcked := false, sat := 0, flushed := 0, nan := 0,
          numCfg := s.reg Blk.num.page 0x100, drainTo := (s.regFor ckpPage w.gen 0x100).field 63 32,
          openedAt := s.cyc 12, abandoned := none, commitRetry := none }
      let s1 : State := { t.2 with ckp := { t.2.ckp with nextSid := sid + 1, steps := t.2.ckp.steps ++ [x] } }
      (s1.updWork w.ring w.idx (fun v => { v with phase := .running })).stepIssue x (phaseShard 1) 0 (List.replicate 4096 0)

/-- The region entries of a step that are not copied, most urgent first, list order within one urgency (R298). -/
def Step.uncopied (x : Step) : List (Nat × Region) :=
  let l := (x.regions.zipIdx.map (fun e => (e.2, e.1))).filter (fun e => !e.2.copied)
  (List.range 256).flatMap (fun u => l.filter (fun e => decide (rgUrgency e.2.entry = u)))

/-- Ask for the bytes of a step's regions in host and partner memory, in the order of R298. The descriptor has host transfers to
make while a host region is not copied (R70). -/
def State.stepAsk (s : State) (sid : Nat) : State :=
  match s.stepOf sid with
  | some x =>
    match s.workAt x.ring x.idx with
    | some w =>
      let s1 := x.uncopied.foldl (fun t e =>
        let a := rgAddr e.2.entry
        match rgSp e.2.entry with
        | .hbm => t
        | .host => t.askPieces w 0 (t.readPieces 0 a (rgLen e.2.entry))
        | .window => match windowPort a with
          | some n => t.askPieces w (n + 1) (t.readPieces (n + 1) a (rgLen e.2.entry))
          | none => t) s
      let host := x.uncopied.any (fun e => decide (rgSp e.2.entry = .host))
      s1.updWork x.ring x.idx (fun v => { v with phase := if host then .fetching else .running })
    | none => s
  | none => s

/-- Run STEP_OPEN: once its step is open, the row asks again for what could not be asked for. -/
def State.stepOpen (s : State) (w : Work) : State :=
  let a := kList w.words
  match s.ckp.steps.find? (fun x => decide (x.ring = w.ring) && decide (x.idx = w.idx) && x.abandoned.isNone) with
  | some x => s.stepAsk x.sid
  | none =>
    if a % 256 ≠ 0 then s.workFail w.ring w.idx .format
    else if !s.ownsHbm w.part a 64 then s.workFail w.ring w.idx .accessViolation
    else
      let hd := s.words a 8
      if !s.ownsHbm w.part a (64 + 256 * rgCount hd) then
        s.workFail w.ring w.idx (if listHeadBad hd 0xFFF then .format else .accessViolation)
      else if (s.firstBad a (64 + 256 * rgCount hd)).isSome then s.workFail w.ring w.idx .poisoned
      else
        let es := s.rgEntries a (rgCount hd)
        let n := s.nsOf w.part (kTarget w.words)
        match s.stepCheck w.part w.vi w.words hd es n with
        | .ok =>
          let sid := s.ckp.nextSid
          (s.stepStart w hd es (if kRemote w.words then kTarget w.words else n.getD 0)).stepAsk sid
        | st => s.workFail w.ring w.idx st

/-- STEP_OPEN: reads a region list, allocates staging, invalidates the commit block and starts copying (R293). -/
def execStepOpen (ring idx : Nat) (s : State) : Host.Outcome State Fault Refusal :=
  .next (s.runDesc ring idx 0x06 0x01 (fun w => s.stepOpen w))

/-! ## Abandonment (R305, R306) -/

/-- Abandon a step and end its STEP_OPEN. -/
def State.stepAbandon (s : State) (sid : Nat) (st : Status) (unknown : Bool) : State :=
  match s.stepOf sid with
  | some x =>
    if x.abandoned.isSome then s
    else (s.stepMark sid st unknown).workDone x.ring x.idx st (if unknown then 2 ^ 31 else 0) 0 0
  | none => s

/-- The open step of a partition and a step number. -/
def State.stepNamed (s : State) (p step : Nat) : Option Step :=
  (s.openSteps p).find? (fun x => decide (x.step.toNat = step))

/-- A write of a step's container fails (R305, R306): a failed commit record is followed by one more zeroed commit block. -/
def State.stepWriteFailed (s : State) (sid : Nat) (st : Status) : State :=
  match s.stepOf sid with
  | some x =>
    if x.abandoned.isSome then s.stepSettle sid
    else if x.phase = 4 then
      match x.commitRetry with
      | none => (s.updStep sid (fun y => { y with commitRetry := some st })).stepIssue x (phaseShard 4) 0 (List.replicate 4096 0)
      | some st0 => s.stepAbandon sid st0 true
    else s.stepAbandon sid st false
  | none => s

/-- A step's connection has left ACTIVE or its namespace is gone: its writes fail with a status, the second one as well. -/
def State.stepTargetLost (s : State) (sid : Nat) (st : Status) : State :=
  match s.stepOf sid with
  | some x =>
    if x.abandoned.isSome then s.stepSettle sid
    else if x.phase = 4 then s.stepAbandon sid (x.commitRetry.getD st) true
    else s.stepAbandon sid st false
  | none => s

/-! ## Copy and narrowing (R296 to R299) -/

/-- Groups of m consecutive items, k of them; the last may be shorter. -/
def groupsOf {α : Type} (m k : Nat) (l : List α) : List (List α) :=
  match k with
  | 0 => []
  | k + 1 => l.take m :: groupsOf m k (l.drop m)

/-- The staged form of a region's data: bytes, elements saturated and flushed, NaN groups, of which NARROW 1 has
none (R299). -/
def narrowData (cfg : Word) (narrow : Nat) (data : List Byte) : List Byte × Nat × Nat × Nat :=
  if narrow = 0 then (data, 0, 0, 0)
  else
    let n := data.length / 4
    let xs := (List.range n).map (fun i => decodeFlt fFp32 (packedElem 32 data i))
    if narrow = 1 then
      let r := xs.map (encodeFlt fBf16 true)
      (packElems 16 (r.map Prod.fst), rowCount .saturated r, rowCount .flushed r, 0)
    else
      let bs := (groupsOf 256 ((n + 255) / 256) xs).map (fun g => encodeMx fE4M3 8 (mxAdj cfg) g)
      let es := bs.flatMap (fun b => b.2.1)
      (packElems 8 (es.map Prod.fst) ++ bs.map (fun b => BitVec.ofNat 8 b.1), rowCount .saturated es, rowCount .flushed es,
       (bs.filter (fun b => b.2.2)).length)

/-- Write bytes to staging pages, 64 KiB each. -/
def State.stageWrite (s : State) (pages : List Nat) (data : List Byte) : State :=
  match pages with
  | [] => s
  | a :: r => (s.setBytes a (data.take 65536)).stageWrite r (data.drop 65536)

/-- Whether a more urgent region of HBM is not yet copied: its reads come first (R298). -/
def Step.hbmBefore (x : Step) (i : Nat) : Bool :=
  (x.uncopied.takeWhile (fun e => e.1 ≠ i)).any (fun e => decide (rgSp e.2.entry = .hbm))

/-- Stage a region whose data have been read: its fence is released and its shard may drain (R296, R299, R304). -/
def State.regionStage (s : State) (x : Step) (i : Nat) (r : Region) (data : List Byte) : State :=
  let n := narrowData x.numCfg (rgNarrow r.entry) data
  let s1 := (s.stageWrite r.pages n.1).updStep x.sid (fun y =>
    { y with regions := y.regions.modify i (fun z => { z with copied := true, crc := crc64 n.1 }),
             order := y.order ++ [i], sat := y.sat + n.2.1, flushed := y.flushed + n.2.2.1, nan := y.nan + n.2.2.2 })
  let s2 := (s1.syncAdd (rgFence r.entry) 1).count1 .ckp 1
  ((if n.2.1 = 0 then s2 else s2.count ckpPage 7 n.2.1).stepAsk x.sid).stepAdvance x.sid

/-- A region's copy ends: with an error the step is abandoned with it; else its data must have been read. -/
def State.regionCopy (s : State) (p step i : Nat) (err : Option Status) : State :=
  match s.stepNamed p step with
  | some x =>
    match x.regions[i]? with
    | some r =>
      if r.copied then s
      else
        match err with
        | some st => s.stepAbandon x.sid st false
        | none =>
          let a := rgAddr r.entry
          let n := rgLen r.entry
          match rgSp r.entry with
          | .hbm =>
            if x.hbmBefore i then s
            else if (s.firstBad a n).isSome then s.stepAbandon x.sid .poisoned false
            else s.regionStage x i r (s.bytes a n)
          | .host | .window =>
            match s.workAt x.ring x.idx with
            | some w => if bufHas w.buf a n then s.regionStage x i r (bufBytes w.buf a n) else s.stepAsk x.sid
            | none => s
    | none => s
  | none => s

/-- REGION_COPY_COMPLETE (R296). -/
def execRegionCopyComplete (part step region : Nat) (err : Option Status) (s : State) : Host.Outcome State Fault Refusal :=
  .next (s.regionCopy part step region err)

/-! ## Drain and commit (R304) -/

/-- A step whose commit record is acknowledged commits (R304). -/
def State.stepCommit (s : State) (x : Step) : State :=
  let s1 := (s.freePages x.pages).count1 .ckp 3
  let s2 : State := { s1 with ckp := { s1.ckp with steps := s1.ckp.steps.filter (fun y => y.sid ≠ x.sid) } }
  (s2.workDone x.ring x.idx .ok 0 (((0 : Word).setField 63 32 x.sat).setField 31 0 x.flushed)
    ((0 : Word).setField 63 32 x.nan)).stepsAdvance x.part

/-- A write of an open step's container that has ended is acknowledged. -/
def State.stepAck (s : State) (x : Step) (shard : Nat) (st : Status) : State :=
  if x.phase = 2 then
    match x.regions[shard]? with
    | some r =>
      if r.issued && !r.acked && !s.stepWrite x shard then
        if st ≠ .ok then s.stepWriteFailed x.sid st
        else
          (((s.freePages r.pages).updStep x.sid (fun y =>
            { y with regions := y.regions.modify shard (fun z => { z with acked := true }) })).count1 .ckp 2).stepAdvance x.sid
      else s
    | none => s
  else if s.stepWrite x (phaseShard x.phase) || x.phaseAcked then s
  else if st ≠ .ok then s.stepWriteFailed x.sid st
  else
    match x.phase with
    | 1 => (s.updStep x.sid (fun y => { y with phase := 2 })).stepAdvance x.sid
    | 3 => (s.updStep x.sid (fun y => { y with phaseAcked := true })).stepAdvance x.sid
    | _ =>
      match x.commitRetry with
      | some st0 => s.stepAbandon x.sid st0 false
      | none => s.stepCommit x

/-- CONTAINER_WRITE_ACK: a container write of a step is acknowledged, or ends with another status (R304, R305); shard is the
region of a shard's write and is not looked at for the other phases. -/
def execContainerWriteAck (part step shard : Nat) (st : Status) (s : State) : Host.Outcome State Fault Refusal :=
  .next (match s.stepNamed part step with
    | some x => s.stepAck x shard st
    | none => s.stepsSettle)

/-- DRAIN_TIMEOUT: no commit within DRAIN_TO × 65,536 ENG cycles of STEP_OPEN (R305). -/
def execDrainTimeout (part step : Nat) (s : State) : Host.Outcome State Fault Refusal :=
  .next (match s.stepNamed part step with
    | some x =>
      if x.drainTo ≠ 0 ∧ x.openedAt + x.drainTo * 65536 ≤ s.cyc 12 then s.stepAbandon x.sid .timeout false else s
    | none => s)

/-- Run STEP_ABANDON (R306, R311). -/
def State.stepAbandonDesc (s : State) (w : Work) : State :=
  match s.stepNamed w.part (wordAt w.words 2).toNat with
  | some x =>
    if x.phase = 4 then s.workFail w.ring w.idx .notAborted
    else (s.stepAbandon x.sid .abortedByReset false).workDone w.ring w.idx .ok 0 0 0
  | none => s.workFail w.ring w.idx .state

/-- STEP_ABANDON (R306). -/
def execStepAbandon (ring idx : Nat) (s : State) : Host.Outcome State Fault Refusal :=
  .next (s.runDesc ring idx 0x06 0x02 (fun w => s.stepAbandonDesc w))

/-- The state code of a step (R311). -/
def Step.code (x : Step) : Nat := if 4 ≤ x.phase then 3 else if x.regions.all (fun r => r.copied) then 2 else 1

/-- Run QUERY (R311): a step that is not open gives state 0. -/
def State.ckpQuery (s : State) (w : Work) : State :=
  match s.stepNamed w.part (wordAt w.words 2).toNat with
  | some x =>
    s.workDone w.ring w.idx .ok 0
      (((0 : Word).setField 63 62 x.code).setField 31 0 (x.regions.filter (fun r => r.copied)).length)
      (Word.of (x.regions.filter (fun r => r.acked)).length)
  | none => s.workDone w.ring w.idx .ok 0 0 0

/-- CKP_QUERY: returns a step's state and progress (R311). -/
def execCkpQuery (ring idx : Nat) (s : State) : Host.Outcome State Fault Refusal :=
  .next (s.runDesc ring idx 0x06 0x04 (fun w => s.ckpQuery w))

/-- A lasting fault on a staging page that a step holds (R301): the page is retired and the step abandoned. -/
def State.stagingFault (s : State) (a : Nat) : State :=
  match s.ckp.steps.find? (fun x => x.abandoned.isNone && x.pages.contains (a / 65536 * 65536)) with
  | some x =>
    (((s.markBad a).retirePage a).latch ⟨.ckp, if stack (granule a) < 4 then 0 else 1⟩ 0 1 x.part true).stepAbandon x.sid .poisoned false
  | none => s

/-! ## CKP commands (R314) -/

/-- SET_STAGE. -/
def State.setStage (s : State) (p : Nat) (a0 : Word) : Status × State :=
  let gs := (List.range (a0.field 47 32)).map (fun i => a0.field 63 48 + i)
  let st := (s.part p).state
  match firstFail [
      (decide (gs = []), .format), (!(gs.all (fun g => s.owns p tyGranule g)), .accessViolation),
      ((decide (st ≠ .building) && decide (st ≠ .active)) || decide (s.openSteps p ≠ []) || gs.any (s.granInUse p), .state)] with
  | .ok => (.ok, s.setPart p { s.part p with stage := (s.part p).stage ++ gs })
  | e => (e, s)

/-- STAGE_CLEAR: the area goes, with the cached pages that lie in it. -/
def State.stageClear (s : State) (p : Nat) : Status × State :=
  if s.openSteps p ≠ [] then (.state, s)
  else
    let pages := s.stagePages p
    let s1 : State := { s with sto := { s.sto with cache := s.sto.cache.filter (fun c => !pages.contains c.staging) } }
    (.ok, ((s1.freePages pages).setPart p { s.part p with stage := [] }))

/-- STAGE_READ. -/
def State.stageRead (s : State) (p : Nat) : Status × State :=
  if (s.part p).stage = [] then (.state, s)
  else
    let total := (s.part p).stage.length * 4096
    let good := s.stagePages p
    (.ok, (s.setReg ckpPage 0x160 (((0 : Word).setField 63 32 total).setField 31 0 (s.stageFree p).length)).setReg ckpPage 0x168
      ((0 : Word).setField 31 0 (total - good.length)))

/-- Run a CKP command word (R314). -/
def ckpRun (val : Word) (s : State) : State :=
  let op := val.field 31 24
  let p := val.field 6 0
  let r : Status × State := match op with
    | 1 => s.setStage p (s.reg ckpPage 0x140)
    | 2 => s.stageClear p
    | 3 => s.stageRead p
    | _ => (.format, s)
  r.2.cmdEnd .ckp op p r.1

/-- The word of a CKP command. -/
def ckpWord (op part : Nat) : Word := ((0 : Word).setField 31 24 op).setField 6 0 part

/-- SET_STAGE (R314). -/
def execSetStage (part : Nat) (s : State) : Host.Outcome State Fault Refusal := .next (s.takeCmd .ckp (ckpWord 1 part) ckpRun)

/-- STAGE_CLEAR (R314). -/
def execStageClear (part : Nat) (s : State) : Host.Outcome State Fault Refusal := .next (s.takeCmd .ckp (ckpWord 2 part) ckpRun)

/-- STAGE_READ (R314). -/
def execStageRead (part : Nat) (s : State) : Host.Outcome State Fault Refusal := .next (s.takeCmd .ckp (ckpWord 3 part) ckpRun)

end Sys2Proof.Machine
end

