-- ==== Sys2Proof/Machine/Sluice.lean ====
section
/-! DEFINITION. Sluice: admission, deficit round robin with floors and ceilings, meters, and the SCH commands
(10_sluice_scheduler.md). -/

namespace Sys2Proof.Machine

/-- The SCH page. -/
abbrev schPage : Page := Blk.sch.page

/-- The EPT page of a port. -/
abbrev eptPage (n : Nat) : Page := ⟨.ept, n⟩

/-! ## Ports (R174, R208) -/

/-- The mode of the group of an EPT number (R174): EPT.CFG.MODE of the group's first page. -/
def State.eptMode (s : State) (n : Nat) : Nat := (s.reg ⟨.ept, n / 4 * 4⟩ 0x100).field 62 61

/-- EPT.STAT.PRESENT: the group's mode uses the page (R174). -/
def State.eptPresent (s : State) (n : Nat) : Bool :=
  match s.eptMode n with
  | 0 => decide (n % 4 = 0)
  | 1 => decide (n % 2 = 0)
  | _ => true

/-- Line rate of a port in Mb/s. -/
def State.lineRate (s : State) (n : Nat) : Nat :=
  match s.eptMode n with
  | 0 => 1600000
  | 1 => 800000
  | _ => 400000

/-- The port rate: the line rate, or RATE when shaping lowers it. -/
def State.portRate (s : State) (n : Nat) : Nat :=
  let w := s.reg schPage (0x100 + 8 * n)
  if w.bit 63 then min (w.field 47 24) (s.lineRate n) else s.lineRate n

/-- An Ethernet port outside its page. -/
def State.ept (s : State) (n : Nat) : EptPort := Tab.get EptPort.reset s.epts n

/-- Change an Ethernet port. -/
def State.updEpt (s : State) (n : Nat) (f : EptPort → EptPort) : State :=
  { s with epts := Tab.insert s.epts n (f (s.ept n)) }

/-- EPT.STAMP of a port (R179): PKT cycles since its origin, in 48 bits. -/
def State.stamp (s : State) (n : Nat) : Nat := (s.clk.pkt - (s.ept n).stampBase) % 2 ^ 48

/-! ## The tree (R201) -/

/-- Key of the partition node of a port and a partition. -/
def nodeKey (port p : Nat) : Nat := port * 128 + p

/-- A leaf. -/
def State.leaf (s : State) (l : Nat) : Leaf := Tab.get Leaf.reset s.sch.leaves l

/-- Change a leaf. -/
def State.setLeaf (s : State) (l : Nat) (x : Leaf) : State :=
  { s with sch := { s.sch with leaves := Tab.set Leaf.reset s.sch.leaves l x } }

/-- A partition node, where there is one. -/
def State.pnode (s : State) (k : Nat) : Option PNode := Tab.find s.sch.pnodes k

/-- Change a partition node where there is one. -/
def State.updPnode (s : State) (k : Nat) (f : PNode → PNode) : State :=
  { s with sch := { s.sch with pnodes := Tab.upd s.sch.pnodes k f } }

/-- A port node. -/
def State.portNode (s : State) (n : Nat) : PortNode := Tab.get PortNode.reset s.sch.ports n

/-- Change a port node. -/
def State.updPort (s : State) (n : Nat) (f : PortNode → PortNode) : State :=
  { s with sch := { s.sch with ports := Tab.insert s.sch.ports n (f (s.portNode n)) } }

/-- Bytes queued in a leaf. -/
def Leaf.depth (l : Leaf) : Nat := (l.q.map (fun f => f.len)).sum

/-- The leaves under the partition node of a port and partition, in order of number. -/
def State.leavesOf (s : State) (port p : Nat) : List Nat :=
  (s.sch.leaves.filter (fun e => decide (e.2.port = some port) && s.owns p tyLeaf e.1)).map Prod.fst

/-- Bytes that a partition node holds of the egress buffer. -/
def State.nodeOcc (s : State) (port p : Nat) : Nat := ((s.leavesOf port p).map (fun l => (s.leaf l).depth)).sum

/-! ## Eligibility and the active lists (R205 to R207) -/

/-- Whether a leaf is eligible: it holds a frame and its class is not paused (R205, R211). -/
def State.leafEligible (s : State) (port l : Nat) : Bool :=
  decide ((s.leaf l).q ≠ []) && (Tab.find (s.ept port).paused (s.leaf l).cls).isNone

/-- An active list and where its node stands in it (R205, R206). -/
structure RoundRobin where
  active : List Nat
  ptr : Nat
  atTurn : Bool
  mid : Bool
  round : Nat

/-- A list after the children that ceased to be eligible have left and those that became eligible have been appended (R207). A
pointer that passes the tail begins a new round (R206). -/
def RoundRobin.refresh (r : RoundRobin) (elig : List Nat) : RoundRobin :=
  let kept := r.active.filter elig.contains
  let ptr := ((r.active.take r.ptr).filter elig.contains).length
  let turn := match r.active[r.ptr]? with
    | some c => r.atTurn && elig.contains c
    | none => false
  let act := kept ++ elig.filter (fun c => !r.active.contains c)
  if kept.length ≤ ptr then
    { active := act, ptr := 0, atTurn := false, mid := false,
      round := if kept = [] then r.round else (r.round + 1) % 2 ^ 32 }
  else { active := act, ptr := ptr, atTurn := turn, mid := r.mid, round := r.round }

/-- The turn of the child at the pointer ends; from the tail the pointer moves back to the head, and the round ends (R205, R206). -/
def RoundRobin.next (r : RoundRobin) : RoundRobin :=
  if r.active.length ≤ r.ptr + 1 then { r with ptr := 0, atTurn := false, mid := false, round := (r.round + 1) % 2 ^ 32 }
  else { r with ptr := r.ptr + 1, atTurn := false, mid := true }

/-- Whether a node stands at a round boundary (R206, R216): no turn of its round has begun. -/
def RoundRobin.atBoundary (r : RoundRobin) : Bool := decide (r.active = []) || !r.mid

/-- The round of a partition node. -/
def PNode.rr (x : PNode) : RoundRobin := { active := x.active, ptr := x.ptr, atTurn := x.atTurn, mid := x.mid, round := x.round }
/-- A partition node with another round. -/
def PNode.setRr (x : PNode) (r : RoundRobin) : PNode :=
  { x with active := r.active, ptr := r.ptr, atTurn := r.atTurn, mid := r.mid, round := r.round }
/-- The round of a port node. -/
def PortNode.rr (x : PortNode) : RoundRobin := { active := x.active, ptr := x.ptr, atTurn := x.atTurn, mid := x.mid, round := x.round }
/-- A port node of a round. -/
def PortNode.ofRr (r : RoundRobin) : PortNode := { active := r.active, ptr := r.ptr, atTurn := r.atTurn, mid := r.mid, round := r.round }

/-- The children that leave or enter a list. -/
def listChanges (act elig : List Nat) : List Nat :=
  act.filter (fun c => !elig.contains c) ++ elig.filter (fun c => !act.contains c)

/-- Refresh the list of a partition node; the deficits of leaves that left or entered become 0 (R207). -/
def State.refreshNode (s : State) (port p : Nat) : State :=
  let k := nodeKey port p
  match s.pnode k with
  | none => s
  | some x =>
    let elig := (s.leavesOf port p).filter (s.leafEligible port)
    let s1 := s.updPnode k (fun y => y.setRr (y.rr.refresh elig))
    let s2 := (listChanges x.active elig).foldl (fun t l => t.setLeaf l { t.leaf l with deficit := 0 }) s1
    let fresh := (elig.filter (fun c => !x.active.contains c)).length
    if fresh = 0 then s2 else s2.count schPage 5 fresh

/-- The partitions with a node under a port. -/
def State.nodesOf (s : State) (port : Nat) : List Nat := (List.range 128).filter (fun p => (s.pnode (nodeKey port p)).isSome)

/-- Refresh a port node and the partition nodes under it. -/
def State.refreshPort (s : State) (port : Nat) : State :=
  let ps := s.nodesOf port
  let s1 := ps.foldl (fun t p => t.refreshNode port p) s
  let elig := ps.filter (fun p => match s1.pnode (nodeKey port p) with
    | some x => decide (x.active ≠ [])
    | none => false)
  let x := s1.portNode port
  let s2 := s1.updPort port (fun y => .ofRr (y.rr.refresh elig))
  let s3 := (listChanges x.active elig).foldl (fun t p => t.updPnode (nodeKey port p) (fun y => { y with deficit := 0 })) s2
  let fresh := (elig.filter (fun c => !x.active.contains c)).length
  if fresh = 0 then s3 else s3.count schPage 5 fresh

/-! ## Admission (R202, R204, R211) -/

/-- Whether a frame of n bytes is admitted to a leaf now (R204); a leaf without a port or whose partition drains admits
none (R202, R211). -/
def State.admits (s : State) (l n : Nat) : Bool :=
  match (s.leaf l).port, s.ownerOf tyLeaf l with
  | some port, some p =>
    match s.pnode (nodeKey port p) with
    | some k =>
      decide ((s.leaf l).depth + n ≤ (s.leaf l).depthMax * 4096) && decide (s.nodeOcc port p + n ≤ k.buf * 4096) &&
      decide ((s.part p).state ≠ .draining)
    | none => false
  | _, _ => false

/-- Put an admitted frame into its leaf; desc names the SPATE_SEND descriptor that it is a packet of. -/
def State.enqueue (s : State) (l n : Nat) (body : Out) (desc : Option (Nat × Nat)) : State :=
  let x := s.leaf l
  let q := x.q ++ [{ len := n, stamp := s.clk.pkt, body := body, desc := desc, gen := s.applied Blk.mlr.page }]
  let s1 := (s.setLeaf l { x with q := q, depthHwm := max x.depthHwm ((q.map (fun f => f.len)).sum) }).count1 .sch 1
  match x.port with
  | some port => s1.refreshPort port
  | none => s1

/-- A frame for a leaf that may not wait is dropped and counted when it is not admitted (R204). -/
def State.offer (s : State) (l n : Nat) (body : Out) : State :=
  if s.admits l n then s.enqueue l n body none
  else (s.setLeaf l { s.leaf l with drops := (s.leaf l).drops + 1 }).count1 .sch 2

/-- What waits at a leaf for room joins those that wait there, once. -/
def State.waitAt (s : State) (l : Nat) (x : LeafWait) : State :=
  if (s.leaf l).waiting.contains x then s else s.setLeaf l { s.leaf l with waiting := (s.leaf l).waiting ++ [x] }

/-- The first that waits at a leaf leaves the others. -/
def State.leafPop (s : State) (l : Nat) : State := s.setLeaf l { s.leaf l with waiting := (s.leaf l).waiting.tail }

/-- A packet of the storage front end is queued, or waits in order (R204). -/
def State.submit (s : State) (l n : Nat) (body : Out) : State :=
  if s.admits l n && decide ((s.leaf l).waiting = []) then s.enqueue l n body none
  else s.setLeaf l { s.leaf l with waiting := (s.leaf l).waiting ++ [.packet n body] }

/-- An INJECT frame of n bytes at an HBM address is built and queued, or waits unbuilt (R193, R202, R204). -/
def State.injectAt (s : State) (l a n : Nat) : State :=
  if s.admits l (n + 4) then s.enqueue l (n + 4) (.frame 0 (s.bytes a n)) none else s.waitAt l (.inject a n)

/-- A SPATE_SEND descriptor ends with OK once its last packet has left its leaf (R145). -/
def State.spateSettle (s : State) (ring idx : Nat) : State :=
  match s.workAt ring idx with
  | some w =>
    match w.ctx with
    | .send i _ _ =>
      if decide (dEngine w.words = 1) && decide (dOpcode w.words = 1) && decide (w.phase ≠ .done) &&
         decide (rLen w.words ≤ i * mtuBytes (wf w.words 5 23 22)) &&
         !((s.leaf (wf w.words 5 21 5)).q.any (fun f => decide (f.desc = some (ring, idx)))) then s.workDone ring idx .ok 0 0 0
      else s
    | .none | .read _ _ _ _ | .probe _ _ _ | .ingest _ _ _ _ _ | .contribute _ | .cipher _ _ _ | .restore _ _ _ _ _ => s
  | none => s

/-- The descriptors of frames that have left their leaf may end (R145). -/
def State.framesGone (s : State) (fs : List TxFrame) : State :=
  fs.foldl (fun t f => match f.desc with
    | some d => t.spateSettle d.1 d.2
    | none => t) s

/-! ## Transmission (R205 to R208) -/

/-- The sum of FLOOR over the partition nodes of a port. -/
def State.floorSum (s : State) (port : Nat) : Nat :=
  ((s.sch.pnodes.filter (fun e => e.1 / 128 = port)).map (fun e => e.2.floor)).sum

/-- Refill the buckets of a partition node to now (R208); a floor that exceeds the port rate is scaled (R209). -/
def State.refill (s : State) (port p : Nat) : State :=
  let sum := s.floorSum port
  let rate := s.portRate port
  s.updPnode (nodeKey port p) (fun y =>
    let dt := s.clk.pkt - y.at_
    let fl := if sum ≤ rate then y.floor * dt else y.floor * rate * dt / sum
    { y with floorB := min (y.floorB + fl) (y.floorBurst * 12800), ceilB := min (y.ceilB + y.ceil * dt) (y.ceilBurst * 12800),
             at_ := s.clk.pkt })

/-- Refill every bucket of a port to now, at the rates that have held (R208, R209). -/
def State.refillPort (s : State) (port : Nat) : State := (s.nodesOf port).foldl (fun t p => t.refill port p) s

/-- Refill the buckets of every port. -/
def State.refillAll (s : State) : State := (List.range 16).foldl (fun t n => t.refillPort n) s

/-- Whether a LEAF_SET waits for the round boundary of a partition node (R216). -/
def State.leafChange (s : State) (key : Nat) : Bool :=
  match s.sch.change with
  | some (.leaf port l _) => decide ((s.ownerOf tyLeaf l).map (nodeKey port) = some key)
  | some (.pnode _ _ _ _ _) | none => false

/-- Whether a port node stops at its round boundary: a PNODE_SET waits for it (R216), or a swap of the page (SCH page, unit of
work). -/
def State.portStops (s : State) (port : Nat) : Bool :=
  s.swapPending schPage || (match s.sch.change with
    | some (.pnode n _ _ _ _) => decide (n = port)
    | some (.leaf _ _ _) | none => false)

/-- What a round robin comes to: the partition and the leaf whose head frame is sent next; or none, where a round ends for which
a change waits, or no child may send. -/
inductive Pick where
  | send (p l : Nat) (s : State)
  | halt (s : State)

/-- Run the leaves' round robin of partition p's node until a leaf may send its head frame (R205). k bounds the moves. -/
def State.pickLeaf (s : State) (port p k : Nat) : Pick :=
  match k with
  | 0 => .halt s
  | k + 1 =>
    let key := nodeKey port p
    match s.pnode key with
    | none => .halt s
    | some x =>
      match x.active[x.ptr]? with
      | none => .halt s
      | some l =>
        let lf := s.leaf l
        let d := if x.atTurn then lf.deficit else lf.deficit + lf.quantum * 64
        let s1 := (s.setLeaf l { lf with deficit := d }).updPnode key (fun y => { y with atTurn := true, mid := true })
        match lf.q with
        | [] => .halt s
        | f :: _ =>
          if f.len ≤ d then .send p l s1
          else
            let r := x.rr.next
            let s2 := s1.updPnode key (fun y => y.setRr r)
            if r.atBoundary && s.leafChange key then .halt s2 else s2.pickLeaf port p k

/-- Moves that suffice for a partition node: every round adds at least 64 bytes to each deficit, and no frame is longer than
9,600 bytes and its tags. -/
def pickFuel (n : Nat) : Nat := n * 160 + 1

/-- Moves that suffice for the leaves of a partition node. -/
def State.leafFuel (s : State) (port p : Nat) : Nat :=
  pickFuel (((s.pnode (nodeKey port p)).map (fun y => y.active.length)).getD 0)

/-- The length of the frame that the round robin of a partition node sends next. -/
def State.headLen (s : State) (port p : Nat) : Option Nat :=
  match s.pickLeaf port p (s.leafFuel port p) with
  | .send _ l t => ((t.leaf l).q.head?).map (fun f => f.len)
  | .halt _ => none

/-- Whether a partition node is below its ceiling bucket (R208 step 1). -/
def State.ceilBlocked (s : State) (port p : Nat) : Bool :=
  match s.pnode (nodeKey port p) with
  | some x => decide (x.ceil ≠ 0) && decide (x.ceilB < 0)
  | none => true

/-- What a queued frame is on the wire of a port, without its FCS: a Millrace packet takes its Ethernet header there (R178),
other frames are padded to 64 bytes with the FCS (R176). -/
def State.onWire (s : State) (port : Nat) (o : Out) : Out :=
  match o with
  | .millrace typ p sport dport dscp ecn =>
    let r (off : Nat) : Word := s.reg ⟨.ept, port⟩ off
    .frame port (ethHeader (r 0x110) (r 0x108) (r 0x118) (if p.v6 then 0x86DD else 0x0800) ++
      mlrIp typ p sport dport dscp ecn)
  | .frame _ d => .frame port (d ++ List.replicate (60 - d.length) 0)
  | o => o

/-- The turn of the leaf at a partition node's pointer ends where its head frame is longer than its DEFICIT (R205). -/
def State.turnLeaf (s : State) (port p : Nat) : State :=
  match s.pnode (nodeKey port p) with
  | some x =>
    match x.active[x.ptr]? with
    | some l =>
      if x.atTurn && (s.leaf l).q.head?.any (fun f => decide ((s.leaf l).deficit < f.len)) then
        s.updPnode (nodeKey port p) (fun y => y.setRr y.rr.next)
      else s
    | none => s
  | none => s

/-- The turn of the partition node at a port's pointer ends likewise. -/
def State.turnNode (s : State) (port : Nat) : State :=
  let x := s.portNode port
  match x.active[x.ptr]? with
  | some p =>
    let d := ((s.pnode (nodeKey port p)).map (fun y => y.deficit)).getD 0
    if x.atTurn && (s.headLen port p).any (fun n => decide (d < n)) then s.updPort port (fun y => .ofRr y.rr.next) else s
  | none => s

/-- Send the head frame of a leaf of a partition node: buckets, marks, deficit, and the frame itself (R205, R208, R215); the MAC
drops and counts one longer than FRAME_MAX (R176). The pointers move where the frame ends a turn. -/
def State.sendHead (s : State) (port p l : Nat) : State :=
  match (s.leaf l).q with
  | [] => s
  | f :: rest =>
    let x := s.leaf l
    let soj := min (s.clk.pkt - f.stamp) 0xFFFFFFFF
    let cost : Int := (f.len + 20) * 12800
    let s1 := s.setLeaf l { x with q := rest, deficit := x.deficit - f.len, sojHwm := max x.sojHwm soj }
    let s2 := s1.updPnode (nodeKey port p) (fun y => { y with floorB := y.floorB - cost, ceilB := y.ceilB - cost })
    let s3 := if (s.reg ⟨.ept, port⟩ 0x100).field 13 0 < f.len then s2.count ⟨.ept, port⟩ 0xB 1
      else (s2.count ⟨.ept, port⟩ 2 1).emit (s.onWire port f.body)
    (((s3.refreshPort port).turnLeaf port p).turnNode port).framesGone [f]

/-- The partition that the port's round robin gives the turn, and the leaf that sends (R205, R208 step 3); partition nodes at
their ceiling are passed over and keep their deficits. k bounds the moves. -/
def State.pickNode (s : State) (port k : Nat) : Pick :=
  match k with
  | 0 => .halt s
  | k + 1 =>
    let x := s.portNode port
    match x.active[x.ptr]? with
    | none => .halt s
    | some p =>
      let r := x.rr.next
      let stop := r.atBoundary && s.portStops port
      let move (t : State) : State := t.updPort port (fun y => .ofRr y.rr.next)
      if s.ceilBlocked port p then
        let s1 := (move s).count1 .sch 4
        if stop then .halt s1 else s1.pickNode port k
      else
        match s.pnode (nodeKey port p) with
        | none => .halt s
        | some nd =>
          let d := if x.atTurn then nd.deficit else nd.deficit + nd.quantum * 64
          let s1 := (s.updPnode (nodeKey port p) (fun y => { y with deficit := d })).updPort port
            (fun y => { y with atTurn := true, mid := true })
          match s1.pickLeaf port p (s1.leafFuel port p) with
          | .halt s2 => .halt s2
          | .send _ l s2 =>
            match (s2.leaf l).q with
            | [] => .halt s2
            | f :: _ =>
              if f.len ≤ d then .send p l s2
              else if stop then .halt (move s1)
              else (move s1).pickNode port k

/-- A floor pick (R208 step 2): the pointer moves to the node, and one frame of it is sent, which changes neither its DEFICIT nor its
ROUND. -/
def State.floorPick (s : State) (port p : Nat) : State :=
  let x := s.portNode port
  let i := x.active.findIdx (fun c => c = p)
  let s1 := s.updPort port (fun y => { y with ptr := i, atTurn := y.atTurn && decide (i = x.ptr) })
  match s1.pickLeaf port p (s1.leafFuel port p) with
  | .send _ l s2 =>
    let old := ((s.pnode (nodeKey port p)).map (fun y => y.round)).getD 0
    ((s2.count1 .sch 3).sendHead port p l).updPnode (nodeKey port p) (fun y => { y with round := old })
  | .halt s2 => s2

/-- The node that step 2 of R208 picks: from the pointer on, the first eligible one not at its ceiling whose floor bucket is at or
above 0. -/
def State.floorFirst (s : State) (port : Nat) : Option Nat :=
  let x := s.portNode port
  if (s.reg schPage (0x100 + 8 * port)).bit 62 then
    (x.active.drop x.ptr ++ x.active.take x.ptr).find? (fun p => !s.ceilBlocked port p &&
      (match s.pnode (nodeKey port p) with
       | some y => decide (0 ≤ y.floorB)
       | none => false))
  else none

/-- Whether the port may send a frame now: it is up, its cluster runs, it has an eligible node that is not at its ceiling, and it
does not stand at a round boundary for which a swap waits. -/
def State.portSends (s : State) (port : Nat) : Bool :=
  let x := s.portNode port
  (s.ept port).up && !s.dataHeld && !s.flt.safe && !s.clusterStopped 23 &&
  x.active.any (fun p => !s.ceilBlocked port p) && !(s.swapPending schPage && x.rr.atBoundary)

/-- A port node picks the next frame and transmits it (R208). -/
def State.portPick (s : State) (port : Nat) : State :=
  match s.floorFirst port with
  | some p => s.floorPick port p
  | none =>
    match s.pickNode port (pickFuel (s.portNode port).active.length) with
    | .send p l s2 =>
      match (s2.leaf l).q with
      | f :: _ => (s2.updPnode (nodeKey port p) (fun y => { y with deficit := y.deficit - f.len })).sendHead port p l
      | [] => s2
    | .halt s2 => s2

/-- The frames queued in the leaves of a port that goes down are dropped and counted (R211); a SPATE_SEND whose last packets are
among them ends as if they had left (DESIGN CHOICE, assumption 126: R145 states no end for it). -/
def State.dropPort (s : State) (port : Nat) : State :=
  let ls := (s.sch.leaves.filter (fun e => e.2.port = some port)).map Prod.fst
  let n := (ls.map (fun l => (s.leaf l).q.length)).sum
  let s1 := ls.foldl (fun t l =>
    let x := t.leaf l
    t.setLeaf l { x with q := [], drops := x.drops + x.q.length }) s
  ((if n = 0 then s1 else s1.count schPage 9 n).refreshPort port).framesGone (ls.flatMap (fun l => (s.leaf l).q))

/-! ## A new set of an EPT page (R38, R174, R177, R179, R209) -/

/-- Send a PFC frame (R177). -/
def State.pfcSend (s : State) (n cls quanta : Nat) : State := (s.count (eptPage n) 9 1).emit (.pfc n cls quanta)

/-- A class's pause as PFC_EN, XOFF and XON now have it (R177): sent where the ingress bytes exceed XOFF, ended where they are at
XON or below; a class without PFC sends nothing. -/
def State.pfcClass (s : State) (n cls : Nat) : State :=
  let e := s.ept n
  let v := Tab.get 0 e.ingress cls
  let off (t : State) : State := t.updEpt n (fun x => { x with pausing := x.pausing.filter (fun c => c ≠ cls), pauseAt := Tab.erase x.pauseAt cls })
  if !(s.reg (eptPage n) 0x100).bit (40 + cls) then off s
  else if e.pausing.contains cls then
    if v ≤ (s.reg (eptPage n) 0x120).field 31 0 then (off s).pfcSend n cls 0 else s
  else if e.up ∧ (s.reg (eptPage n) 0x120).field 63 32 < v then
    (s.updEpt n (fun x => { x with pausing := x.pausing ++ [cls], pauseAt := Tab.insert x.pauseAt cls s.clk.pkt })).pfcSend n cls 0xFFFF
  else s

/-- A port's link goes down: its queued frames are dropped and counted, its pauses end (R174, R211). -/
def State.eptDown (s : State) (n : Nat) : State :=
  if (s.ept n).up then
    ((s.updEpt n (fun e => { e with up := false, pausing := [], pauseAt := [], paused := [] })).dropPort n).setIntBit (eptPage n) 9
  else s

/-- The checks of an EPT page at the swap: MODE counts only on a group's first page, and a page that the group's mode does not use
refuses nothing (R174, R176). -/
def State.eptChecks (s : State) (n : Nat) : List (Nat × Bool) :=
  let sh (off : Nat) : Word := s.shade (eptPage n) off
  if s.eptPresent n then
    [(0x100, (decide (n % 4 = 0) && decide ((sh 0x100).field 62 61 = 3)) || decide ((sh 0x100).field 13 0 < 1518) ||
        decide (9600 < (sh 0x100).field 13 0)),
     (0x118, decide ((sh 0x118).field 63 62 = 3)),
     (0x120, decide ((sh 0x120).field 63 32 ≤ (sh 0x120).field 31 0))]
  else []

/-- What a new set of an EPT page brings about: the ports that a new CFG takes down (R174), pauses that come due (R177), and the
origin of STAMP (R179). -/
def State.swapEpt (s old : State) (n : Nat) : State :=
  let a := old.reg (eptPage n) 0x100
  let b := s.reg (eptPage n) 0x100
  let g := n / 4 * 4
  let s1 := if (decide (n = g) && decide (a.field 62 61 ≠ b.field 62 61)) || a.bit 60 != b.bit 60 then
      (List.range 4).foldl (fun t i => t.eptDown (g + i)) s
    else s
  let s2 := if b.bit 63 then s1 else s1.eptDown n
  let s3 := (List.range 8).foldl (fun t c => t.pfcClass n c) s2
  if b.bit 63 && !a.bit 63 then s3.updEpt n (fun e => { e with stampBase := s.clk.pkt }) else s3

/-- INT_STAT.FLOOR_OVER where a port's floors exceed its rate and did not before (R209). -/
def State.floorsOver (s old : State) : State :=
  if (List.range 16).any (fun n => decide (s.portRate n < s.floorSum n) && !decide (old.portRate n < old.floorSum n)) then
    s.setIntBit schPage 9
  else s

/-- A frame reaches a MAC: it is taken after the swap, where one is armed on the port's page (R38). -/
def State.eptTake (s : State) (n : Nat) : State :=
  if s.swapDue (eptPage n) then
    let s0 := s.refillAll
    match swapFail (s.eptChecks n) with
    | some off => s0.swapReject (eptPage n) off
    | none => ((s0.swapLive (eptPage n)).swapEpt s n).floorsOver s
  else s

/-! ## Meters (R212 to R214) -/

/-- A meter. -/
def State.meter (s : State) (m : Nat) : Meter := Tab.get Meter.reset s.sch.meters m

/-- Change a meter. -/
def State.setMeter (s : State) (m : Nat) (x : Meter) : State :=
  { s with sch := { s.sch with meters := Tab.set Meter.reset s.sch.meters m x } }

/-- The colours of RFC 2698 and RFC 4115. -/
inductive Colour where
  | green
  | yellow
  | red
  deriving DecidableEq, Repr

/-- 2^-16 bytes that a rate in Mb/s brings in dt PKT cycles, whole units. -/
def rateUnits (rate dt : Nat) : Nat := rate * dt * 65536 / 12800

/-- Bring a meter's buckets up to date (R212). -/
def Meter.refill (m : Meter) (now : Nat) : Meter :=
  let dt := now - m.at_
  { m with cB := min (m.cB + rateUnits m.cir dt) (m.cbs * 65536), pB := min (m.pB + rateUnits m.pir dt) (m.pbs * 65536),
           at_ := now }

/-- Meter n bytes of a frame that arrives yellow or green: RFC 2698 with MODE 0, RFC 4115 with MODE 1 (R212). -/
def Meter.colour (m : Meter) (yellowIn : Bool) (n now : Nat) : Colour × Meter :=
  let x := m.refill now
  let b := n * 65536
  let y := yellowIn && m.aware
  let res : Colour × Meter :=
    if !m.mode then
      if x.pB < b then (.red, x)
      else if y || decide (x.cB < b) then (.yellow, { x with pB := x.pB - b })
      else (.green, { x with pB := x.pB - b, cB := x.cB - b })
    else
      if !y && decide (b ≤ x.cB) then (.green, { x with cB := x.cB - b })
      else if b ≤ x.pB then (.yellow, { x with pB := x.pB - b })
      else (.red, x)
  match res.1 with
  | .green => res
  | .yellow => (.yellow, { res.2 with nYellow := (res.2.nYellow + 1) % 2 ^ 32 })
  | .red => (.red, { res.2 with nRed := (res.2.nRed + 1) % 2 ^ 32 })

/-! ## SCH commands (R216) -/

/-- The arguments CMD_ARG0 to CMD_ARG2. -/
def State.schArg (s : State) (m : Nat) : Word := s.reg schPage (0x180 + 8 * m)

/-- Set RD0 to RD2. -/
def State.schRd (s : State) (r0 r1 r2 : Word) : State :=
  ((s.setReg schPage 0x1B0 r0).setReg schPage 0x1B8 r1).setReg schPage 0x1C0 r2

/-- A signed number in a field of bits. -/
def signedField (bits : Nat) (v : Int) : Nat := (v % (2 ^ bits : Nat)).toNat

/-- The sum of BUF over every partition node but one. -/
def State.bufSum (s : State) (but : Nat) : Nat :=
  ((s.sch.pnodes.filter (fun e => e.1 ≠ but)).map (fun e => e.2.buf)).sum

/-- The checks of PNODE_SET (R209, R216). -/
def State.pnodeCheck (s : State) (port p : Nat) (a0 a1 a2 : Word) : Status :=
  let floor := a0.field 63 40
  let ceil := a0.field 39 16
  let old := ((s.pnode (nodeKey port p)).map (fun x => x.floor)).getD 0
  firstFail
    [(decide (a0.field 15 0 = 0) || decide (a2.field 15 0 < 3) || decide (a1.field 63 32 < 64) || decide (a1.field 31 0 < 64) ||
      (decide (ceil ≠ 0) && decide (ceil < floor)) || !s.eptPresent port, .format),
     (decide ((s.part p).state = .free) || decide (s.portRate port < s.floorSum port - old + floor), .state),
     (decide (8192 < s.bufSum (nodeKey port p) + a2.field 15 0), .resource)]

/-- Apply a PNODE_SET: a new node starts with full buckets (assumption 13), an old one keeps its place and its buckets. -/
def State.pnodeApply (s : State) (port p : Nat) (a0 a1 a2 : Word) : State :=
  let k := nodeKey port p
  let s := s.refillPort port
  let base : PNode := match s.pnode k with
    | some x => x
    | none => { floor := 0, ceil := 0, quantum := 0, floorBurst := 0, ceilBurst := 0, buf := 0,
                floorB := a1.field 63 32 * 12800, ceilB := a1.field 31 0 * 12800, at_ := s.clk.pkt, deficit := 0, active := [],
                ptr := 0, atTurn := false, mid := false, round := 0 }
  let x := { base with floor := a0.field 63 40, ceil := a0.field 39 16, quantum := a0.field 15 0,
                       floorBurst := a1.field 63 32, ceilBurst := a1.field 31 0, buf := a2.field 15 0 }
  ({ s with sch := { s.sch with pnodes := Tab.insert s.sch.pnodes k x } }).refreshPort port

/-- The checks of LEAF_SET (R216). -/
def State.leafCheck (s : State) (port l : Nat) (a0 : Word) : Status :=
  let own := s.ownerOf tyLeaf l
  firstFail
    [(decide (a0.field 15 0 = 0) || decide (a0.field 47 32 < 3), .format),
     ((match own with
        | none => true
        | some p => (s.pnode (nodeKey port p)).isNone) ||
      (decide ((s.leaf l).port ≠ some port) && decide ((s.leaf l).q ≠ [])), .state)]

/-- Apply a LEAF_SET. -/
def State.leafApply (s : State) (port l : Nat) (a0 : Word) : State :=
  let old := (s.leaf l).port
  let s1 := s.setLeaf l { s.leaf l with port := some port, depthMax := a0.field 47 32, cls := a0.field 18 16,
                                        quantum := a0.field 15 0 }
  let s2 := match old with
    | some q => s1.refreshPort q
    | none => s1
  s2.refreshPort port

/-- Whether the node that a change waits for is at a round boundary (R216). -/
def State.changeDue (s : State) (c : SchChange) : Bool :=
  match c with
  | .pnode port _ _ _ _ =>
    (s.portNode port).rr.atBoundary
  | .leaf port l _ =>
    match s.ownerOf tyLeaf l with
    | some p =>
      match s.pnode (nodeKey port p) with
      | some x => x.rr.atBoundary
      | none => true
    | none => true

/-- Apply a change whose boundary has come; its command completes (R216). -/
def State.changeApply (s : State) (c : SchChange) : State :=
  match c with
  | .pnode port p a0 a1 a2 => (s.pnodeApply port p a0 a1 a2).cmdEnd .sch 1 0 .ok
  | .leaf port l a0 => (s.leafApply port l a0).cmdEnd .sch 4 0 .ok

/-- A change waits for its boundary with the command running, or applies at once (R216). -/
def State.changeStart (s : State) (c : SchChange) : State :=
  if s.changeDue c then s.changeApply c
  else { (s.setBusy .sch true) with sch := { s.sch with change := some c } }

/-- A waiting change whose boundary has come is applied. -/
def State.changeTake (s : State) : State :=
  match s.sch.change with
  | some c => if s.changeDue c then ({ s with sch := { s.sch with change := none } }).changeApply c else s
  | none => s

/-- SCH_CHANGE_APPLY: a waiting PNODE_SET or LEAF_SET takes effect at its node's round boundary (R216). -/
def execSchChangeApply (s : State) : Host.Outcome State Fault Refusal := .next s.changeTake

/-- A port transmits: a change that waited for a boundary is applied there first (R216), the buckets are refilled, and the port
node picks (R208). -/
def State.portTransmit (s : State) (port : Nat) : State :=
  let s0 := s.eptTake port
  let s1 := s0.changeTake.refillPort port
  if s1.portSends port then s1.portPick port else s0

/-- PORT_TRANSMIT: a port node picks the next frame by ceiling, floor and round robin, and transmits it (R208). -/
def execPortTransmit (ept : Nat) (s : State) : Host.Outcome State Fault Refusal := .next (s.portTransmit ept)

/-- PNODE_CLEAR: refused while a leaf names the node. -/
def State.pnodeClear (s : State) (port p : Nat) : Status × State :=
  if s.leavesOf port p ≠ [] then (.state, s)
  else
    let s1 := s.refillPort port
    (.ok, ({ s1 with sch := { s1.sch with pnodes := Tab.erase s1.sch.pnodes (nodeKey port p) } }).refreshPort port)

/-- PNODE_READ: buckets in bytes, occupancy, ROUND. -/
def State.pnodeRead (s : State) (port p : Nat) : Status × State :=
  let s1 := s.refill port p
  match s1.pnode (nodeKey port p) with
  | none => (.state, s)
  | some x =>
    (.ok, s1.schRd (((0 : Word).setField 63 32 (signedField 32 (x.floorB / 12800))).setField 31 0 (signedField 32 (x.ceilB / 12800)))
      (((0 : Word).setField 63 32 (s.nodeOcc port p)).setField 31 0 x.round) (s.reg schPage 0x1C0))

/-- The ROUND of the partition node above a leaf. -/
def State.parentRound (s : State) (l : Nat) : Nat :=
  match (s.leaf l).port, s.ownerOf tyLeaf l with
  | some port, some p => ((s.pnode (nodeKey port p)).map (fun x => x.round)).getD 0
  | _, _ => 0

/-- LEAF_READ: depth, marks, drops, deficit and the parent's ROUND; CLR restarts the marks (R215). -/
def State.leafRead (s : State) (l : Nat) (clr : Bool) : State :=
  let x := s.leaf l
  let s1 := s.schRd (((0 : Word).setField 63 32 x.depth).setField 31 0 x.depthHwm)
    (((0 : Word).setField 63 32 x.sojHwm).setField 31 0 x.drops) (((0 : Word).setField 63 32 x.deficit).setField 31 0 (s.parentRound l))
  if clr then s1.setLeaf l { x with depthHwm := x.depth, sojHwm := 0 } else s1

/-- METER_SET: unowned gives STATE; both buckets are filled (R212). -/
def State.meterSet (s : State) (m : Nat) (a0 a1 a2 : Word) : Status × State :=
  let st := firstFail
    [((!a0.bit 0 && decide (a0.field 39 16 < a0.field 63 40)) || decide (a1.field 63 32 < 64) || decide (a1.field 31 0 < 64), .format),
     ((s.ownerOf tyMeter m).isNone, .state)]
  if st = .ok then
    (.ok, s.setMeter m { mode := a0.bit 0, aware := a0.bit 1, cir := a0.field 63 40, pir := a0.field 39 16, cbs := a1.field 63 32,
                         pbs := a1.field 31 0, dscp := a2.field 13 8, yellow := a2.field 3 2, red := a2.field 1 0,
                         cB := a1.field 63 32 * 65536, pB := a1.field 31 0 * 65536, at_ := s.clk.pkt, nYellow := 0, nRed := 0 })
  else (st, s)

/-- METER_READ: buckets in bytes and colour counts. -/
def State.meterRead (s : State) (m : Nat) : State :=
  let x := (s.meter m).refill s.clk.pkt
  (s.setMeter m x).schRd (((0 : Word).setField 63 32 (x.cB / 65536)).setField 31 0 (x.pB / 65536))
    (((0 : Word).setField 63 32 x.nYellow).setField 31 0 x.nRed) (s.reg schPage 0x1C0)

/-- Run the command in a word written to SCH.CMD (R216). -/
def schRun (val : Word) (s : State) : State :=
  let op := val.field 63 56
  let port := val.field 51 48
  let p := val.field 46 40
  let obj := val.field 16 0
  let a0 := s.schArg 0
  let done (x : Status × State) : State := x.2.cmdEnd .sch op 0 x.1
  match op with
  | 0x01 =>
    let st := s.pnodeCheck port p a0 (s.schArg 1) (s.schArg 2)
    if st = .ok then s.changeStart (.pnode port p a0 (s.schArg 1) (s.schArg 2)) else done (st, s)
  | 0x02 => done (s.pnodeClear port p)
  | 0x03 => done (s.pnodeRead port p)
  | 0x04 =>
    let st := s.leafCheck port obj a0
    if st = .ok then s.changeStart (.leaf port obj a0) else done (st, s)
  | 0x05 => done (.ok, s.leafRead obj (a0.bit 0))
  | 0x06 => if obj < 32768 then done (s.meterSet obj a0 (s.schArg 1) (s.schArg 2)) else done (.format, s)
  | 0x07 => if obj < 32768 then done (.ok, s.meterRead obj) else done (.format, s)
  | _ => done (.format, s)

/-- The word that writes OP, PORT, PART and OBJ to SCH.CMD. -/
def schCmdWord (op port p obj : Nat) : Word :=
  ((((0 : Word).setField 63 56 op).setField 51 48 port).setField 46 40 p).setField 16 0 obj

/-- PNODE_SET (R216). -/
def execPnodeSet (port part : Nat) (s : State) : Host.Outcome State Fault Refusal :=
  .next (s.takeCmd .sch (schCmdWord 1 port part 0) schRun)
/-- PNODE_CLEAR (R216). -/
def execPnodeClear (port part : Nat) (s : State) : Host.Outcome State Fault Refusal :=
  .next (s.takeCmd .sch (schCmdWord 2 port part 0) schRun)
/-- PNODE_READ (R216). -/
def execPnodeRead (port part : Nat) (s : State) : Host.Outcome State Fault Refusal :=
  .next (s.takeCmd .sch (schCmdWord 3 port part 0) schRun)
/-- LEAF_SET (R216). -/
def execLeafSet (port leaf : Nat) (s : State) : Host.Outcome State Fault Refusal :=
  .next (s.takeCmd .sch (schCmdWord 4 port 0 leaf) schRun)
/-- LEAF_READ (R215, R216). -/
def execLeafRead (leaf : Nat) (s : State) : Host.Outcome State Fault Refusal :=
  .next (s.takeCmd .sch (schCmdWord 5 0 0 leaf) schRun)
/-- METER_SET (R212, R216). -/
def execMeterSet (meter : Nat) (s : State) : Host.Outcome State Fault Refusal :=
  .next (s.takeCmd .sch (schCmdWord 6 0 0 meter) schRun)
/-- METER_READ (R216). -/
def execMeterRead (meter : Nat) (s : State) : Host.Outcome State Fault Refusal :=
  .next (s.takeCmd .sch (schCmdWord 7 0 0 meter) schRun)

end Sys2Proof.Machine
end

