-- ==== Sys2Proof/Machine/Tcp.lean ====
section
/-! DEFINITION. The terminated TCP connections of the storage front end and the NVMe/TCP PDUs that it sends (16_storage_front_end.md
R315, R323): sequence numbers, acknowledgement, congestion control with NewReno recovery, retransmission. The byte
layouts of TCP and of NVMe/TCP come from the standards that R315 and R323 name (PRESUMED, assumption 25). -/

namespace Sys2Proof.Machine

/-- The STO page. -/
abbrev stoPage : Page := Blk.sto.page

/-! ## Connections -/

/-- A connection. -/
def State.tcp (s : State) (t : Nat) : Option Tcp := Tab.find s.sto.tcps t

/-- Change a connection. -/
def State.updTcp (s : State) (t : Nat) (f : Tcp → Tcp) : State := { s with sto := { s.sto with tcps := Tab.upd s.sto.tcps t f } }

/-- Whether an address is IPv4-mapped. -/
def isV4 (a : BitVec 128) : Bool := decide (a.toNat / 2 ^ 32 = 0xFFFF)

/-- The partition whose listener is enabled at an address (R322). -/
def State.listenPart (s : State) (dst : BitVec 128) : Option Nat :=
  (s.parts.find? (fun e => e.2.listener.isSome && (match e.2.mlr with
    | some m => if isV4 dst then m.v4En && decide (dst.toNat % 2 ^ 32 = m.ip4) else decide (m.ip6 = dst) && decide (dst ≠ 0)
    | none => false))).map Prod.fst

/-- The leaf of a partition's listener. -/
def State.listenLeaf (s : State) (p : Nat) : Nat :=
  match (s.part p).listener with
  | some l => l.leaf
  | none => 0

/-- The MSS that the front end advertises (R323). -/
def State.tcpMss (s : State) (p : Nat) (v4 : Bool) : Nat :=
  let port := ((s.leaf (s.listenLeaf p)).port).getD 0
  (s.reg ⟨.ept, port⟩ 0x100).field 13 0 - (if v4 then 58 else 78) - 4 * (s.reg ⟨.ept, port⟩ 0x118).field 63 62

/-- Send one segment through the listener's leaf (R323). -/
def State.tcpOut (s : State) (x : Tcp) (syn fin rst : Bool) (seq : BitVec 32) (mss : Nat) (data : List Byte) : State :=
  let leaf := s.listenLeaf x.part
  let port := ((s.leaf leaf).port).getD 0
  let n := 14 + 4 * (s.reg ⟨.ept, port⟩ 0x118).field 63 62 + (if isV4 x.src then 20 else 40) + 20 + data.length + 4
  s.submit leaf (max 64 n) (.tcp x.dst x.src ((s.reg stoPage 0x100).field 63 48) x.sport syn true fin rst seq x.rcvNxt mss data)

/-- Acknowledge what has been received. -/
def State.tcpAckNow (s : State) (t : Nat) : State :=
  match s.tcp t with
  | some x => s.tcpOut x false false false x.sndNxt 0 []
  | none => s

/-- Whether sequence number a is before b. -/
def seqBefore (a b : BitVec 32) : Bool := decide (1 ≤ (b - a).toNat) && decide ((b - a).toNat < 2 ^ 31)

/-- Bytes in flight. -/
def Tcp.flight (x : Tcp) : Nat := (x.sndNxt - x.sndUna).toNat

/-- Send as much of the buffer as the congestion and receive windows allow, MSS by MSS; k bounds the segments. -/
def State.tcpPushN (s : State) (t k : Nat) : State :=
  match k with
  | 0 => s
  | k + 1 =>
    match s.tcp t with
    | some x =>
      let d := x.sndBuf.take x.mss
      if x.estab && decide (d ≠ []) && decide (x.flight + d.length ≤ min x.cwnd x.wnd) then
        let s1 := s.tcpOut x false false false x.sndNxt 0 d
        (s1.updTcp t (fun y => { y with
          sndBuf := y.sndBuf.drop x.mss, sndNxt := y.sndNxt + BitVec.ofNat 32 d.length,
          sent := y.sent ++ [{ seq := x.sndNxt, data := d, fin := false, retx := false, sacked := false, at_ := s.clk.noc }],
          sentAt := if y.sent = [] then s.clk.noc else y.sentAt })).tcpPushN t k
      else s
    | none => s

/-- Send what may be sent. -/
def State.tcpPush (s : State) (t : Nat) : State :=
  match s.tcp t with
  | some x => s.tcpPushN t (x.sndBuf.length + 1)
  | none => s

/-- Put bytes on a connection. -/
def State.tcpSend (s : State) (t : Nat) (data : List Byte) : State :=
  (s.updTcp t (fun x => { x with sndBuf := x.sndBuf ++ data })).tcpPush t

/-! ## Acknowledgements and congestion control (RFC 5681, 6582, 6298) -/

/-- The retransmission timer after a round-trip sample. -/
def Tcp.sample (x : Tcp) (r : Nat) : Tcp :=
  let srtt := if x.srtt = 0 then r else (7 * x.srtt + r) / 8
  let var := if x.srtt = 0 then r / 2 else (3 * x.rttvar + (if x.srtt < r then r - x.srtt else x.srtt - r)) / 4
  { x with srtt := srtt, rttvar := var, rto := max 2000000 (srtt + max 1 (4 * var)) }

/-- The window after an acknowledgement of n new bytes. -/
def Tcp.grow (x : Tcp) (n : Nat) (ack : BitVec 32) : Tcp :=
  match x.recover with
  | some r =>
    if seqBefore ack r then { x with cwnd := x.cwnd - n + (if x.mss ≤ n then x.mss else 0) }
    else { x with recover := none, cwnd := min x.ssthresh (max x.flight x.mss + x.mss) }
  | none =>
    if x.cwnd < x.ssthresh then { x with cwnd := x.cwnd + min n x.mss }
    else { x with cwnd := x.cwnd + max 1 (x.mss * x.mss / max 1 x.cwnd) }

/-- Retransmit the first segment that no SACK covers. -/
def State.tcpResend (s : State) (t : Nat) : State :=
  match s.tcp t with
  | some x =>
    match x.sent.find? (fun e => !e.sacked) with
    | some e =>
      (s.tcpOut x false e.fin false e.seq 0 e.data).updTcp t (fun y => { y with
        sent := y.sent.map (fun z => if z.seq = e.seq then { z with retx := true, at_ := s.clk.noc } else z) })
    | none => s
  | none => s

/-- Mark the segments that SACK blocks cover. -/
def Tcp.sacks (x : Tcp) (bs : List (BitVec 32 × BitVec 32)) : Tcp :=
  { x with sent := x.sent.map (fun e => { e with sacked := e.sacked || bs.any (fun b =>
      decide ((e.seq - b.1).toNat + e.data.length ≤ (b.2 - b.1).toNat)) }) }

/-- An acknowledgement arrives. -/
def State.tcpAcked (s : State) (t : Nat) (ack : BitVec 32) (wnd : Nat) (bare : Bool) (sack : List (BitVec 32 × BitVec 32)) :
    State :=
  match s.tcp t with
  | some x =>
    let n := (ack - x.sndUna).toNat
    if seqBefore x.sndUna ack && decide (n ≤ x.flight) then
      let gone := x.sent.filter (fun e => !seqBefore ack (e.seq + BitVec.ofNat 32 (e.data.length + (if e.fin then 1 else 0))))
      let y : Tcp := { x with sndUna := ack, wnd := wnd, dupAcks := 0, sent := x.sent.drop gone.length, sentAt := s.clk.noc }
      let y1 := match (gone.filter (fun e => !e.retx)).getLast? with
        | some e => y.sample (s.clk.noc - e.at_)
        | none => y
      let y2 := (y1.grow n ack).sacks sack
      let s1 := s.updTcp t (fun _ => y2)
      (if y2.recover.isSome then s1.tcpResend t else s1).tcpPush t
    else if ack = x.sndUna ∧ bare = true ∧ x.sent ≠ [] ∧ wnd = x.wnd then
      let y : Tcp := { x.sacks sack with dupAcks := x.dupAcks + 1 }
      if y.dupAcks = 3 ∧ y.recover = none then
        let th := max (y.flight / 2) (2 * y.mss)
        (s.updTcp t (fun _ => { y with ssthresh := th, cwnd := th + 3 * y.mss, recover := some y.sndNxt })).tcpResend t
      else if 3 < y.dupAcks then (s.updTcp t (fun _ => { y with cwnd := y.cwnd + y.mss })).tcpPush t
      else s.updTcp t (fun _ => y)
    else (s.updTcp t (fun z => { z with wnd := wnd })).tcpPush t
  | none => s

/-- The next sequence number expected once the runs received out of order have been joined; k bounds the runs. -/
def joinRuns (k : Nat) (nxt : BitVec 32) (runs : List (BitVec 32 × Nat)) : BitVec 32 × List (BitVec 32 × Nat) :=
  match k with
  | 0 => (nxt, runs)
  | k + 1 =>
    match runs.find? (fun r => decide ((nxt - r.1).toNat ≤ r.2) && decide ((nxt - r.1).toNat < 2 ^ 31)) with
    | some r => joinRuns k (r.1 + BitVec.ofNat 32 r.2) (runs.filter (fun x => x ≠ r))
    | none => (nxt, runs)

/-- Data arrive at a sequence number. -/
def Tcp.receive (x : Tcp) (seq : BitVec 32) (n : Nat) : Tcp :=
  if n = 0 then x
  else
    let r := joinRuns (x.ooo.length + 1) x.rcvNxt (x.ooo ++ [(seq, n)])
    { x with rcvNxt := r.1, ooo := r.2.filter (fun e => seqBefore r.1 e.1) }

/-- A retransmission timer that has run out resends the first segment and shrinks the window to one (RFC 6298, 5681). -/
def State.tcpTimeout (s : State) (t : Nat) : State :=
  match s.tcp t with
  | some x =>
    if x.sent ≠ [] ∧ x.sentAt + x.rto ≤ s.clk.noc then
      (s.updTcp t (fun y => { y with ssthresh := max (y.flight / 2) (2 * y.mss), cwnd := y.mss, rto := 2 * y.rto,
                                     recover := none, dupAcks := 0, sentAt := s.clk.noc,
                                     sent := y.sent.map (fun e => { e with sacked := false }) })).tcpResend t
    else s
  | none => s

/-- TCP_RTO: a storage TCP retransmission timer expires (R323). -/
def execTcpRto (tcp : Nat) (s : State) : Host.Outcome State Fault Refusal := .next (s.tcpTimeout tcp)

/-! ## PDUs (R315) -/

/-- A PDU: type, flags, the fields after the common header, and data at the alignment that the host asked for; header and data
digests where they are on. -/
def pduBytes (x : Tcp) (typ flags : Nat) (fields data : List Byte) : List Byte :=
  let hl := 8 + fields.length
  let hd := if x.hdgst then 4 else 0
  let al := (x.hpda + 1) * 4
  let pdo := if data = [] then 0 else (hl + hd + al - 1) / al * al
  let dd := if x.ddgst && decide (data ≠ []) then 4 else 0
  let plen := if data = [] then hl + hd else pdo + data.length + dd
  let fl := flags + (if x.hdgst then 1 else 0) + (if dd ≠ 0 then 2 else 0)
  let h := leBytes 1 typ ++ leBytes 1 fl ++ leBytes 1 hl ++ leBytes 1 pdo ++ leBytes 4 plen ++ fields
  h ++ (if x.hdgst then leBytes 4 (crc32c h).toNat else []) ++
  (if data = [] then [] else List.replicate (pdo - hl - hd) 0 ++ data ++ (if dd ≠ 0 then leBytes 4 (crc32c data).toNat else []))

/-- Send a PDU on a connection. -/
def State.pduSend (s : State) (t typ flags : Nat) (fields data : List Byte) : State :=
  match s.tcp t with
  | some x => s.tcpSend t (pduBytes x typ flags fields data)
  | none => s

/-- CapsuleResp with its completion queue entry: dwords 0 and 1, the queue's head, its QID, CID and status field. -/
def State.sendResp (s : State) (t : Nat) (dw0 dw1 head qid cid sc : Nat) : State :=
  s.pduSend t 0x05 0 (leBytes 4 dw0 ++ leBytes 4 dw1 ++ leBytes 2 head ++ leBytes 2 qid ++ leBytes 2 cid ++ leBytes 2 (2 * sc)) []

/-- C2HData PDUs of at most 131,072 bytes with the data of a command; k bounds their number. -/
def State.sendData (s : State) (t cid off k : Nat) (data : List Byte) : State :=
  match k with
  | 0 => s
  | k + 1 =>
    if data = [] then s
    else
      let d := data.take 131072
      let last := decide (data.length ≤ 131072)
      ((s.pduSend t 0x07 (if last then 4 else 0)
        (leBytes 2 cid ++ leBytes 2 0 ++ leBytes 4 off ++ leBytes 4 d.length ++ leBytes 4 0) d)).sendData t cid
        (off + d.length) k (data.drop 131072)

/-- An XRDY PDU for n bytes at an offset of a command (R327). -/
def State.sendXrdy (s : State) (t cid off n : Nat) : State :=
  (s.pduSend t 0x09 0 (leBytes 2 cid ++ leBytes 2 cid ++ leBytes 4 off ++ leBytes 4 n ++ leBytes 4 0) []).count1 .sto 3

end Sys2Proof.Machine
end

