-- ==== Sys2Proof/Machine/Storage.lean ====
section
/-! DEFINITION. The storage front end: commands of NVMe queues and capsule rings, the cache, drive completions, namespaces,
controllers, STO commands, power states (16_storage_front_end.md). Opcodes, status codes and data structures of NVMe come
from the standards that R315 names (PRESUMED, assumption 25). -/

namespace Sys2Proof.Machine

/-! ## Status codes (R335) -/

/-- Invalid Command Opcode. -/
def scOpcode : Nat := 0x001
/-- Invalid Field in Command. -/
def scField : Nat := 0x002
/-- Data Transfer Error. -/
def scTransfer : Nat := 0x004
/-- Invalid Namespace or Format. -/
def scNs : Nat := 0x00B
/-- Command Sequence Error. -/
def scSequence : Nat := 0x00C
/-- Transient Transport Error. -/
def scTransport : Nat := 0x022
/-- LBA Out of Range. -/
def scRange : Nat := 0x080
/-- Namespace Not Ready. -/
def scNotReady : Nat := 0x082
/-- Feature Not Changeable. -/
def scFeature : Nat := 0x10E
/-- Unrecovered Read Error. -/
def scRead : Nat := 0x281

/-- The device status of an NVMe status (R335). -/
def nvmeStatus (sc : Nat) (failed : Option Status) : Status :=
  if sc = 0 then .ok
  else if sc = scOpcode ∨ sc = scField ∨ sc = scRange then .format
  else if sc = scNs then .accessViolation
  else if sc = scSequence ∨ sc = scNotReady ∨ sc = scFeature then .state
  else if sc = 0x008 then .abortedByReset
  else if sc = scTransfer then failed.getD .accessViolation
  else if sc = scTransport then .integrity
  else if sc = scRead then .poisoned
  else .format

/-! ## Queues and commands -/

/-- Key of the capsule queue of a ring. -/
def capsuleQ (ring : Nat) : Nat := 2 ^ 20 + ring

/-- A queue. -/
def State.squeue (s : State) (q : Nat) : Option SQueue := Tab.find s.sto.queues q

/-- Change a queue. -/
def State.updQueue (s : State) (q : Nat) (f : SQueue → SQueue) : State :=
  { s with sto := { s.sto with queues := Tab.upd s.sto.queues q f } }

/-- A command in progress. -/
def State.cmdOf (s : State) (q cid : Nat) : Option Cmd := s.sto.cmds.find? (fun c => decide (c.q = q) && decide (c.cid = cid))

/-- Change a command. -/
def State.updCmd (s : State) (q cid : Nat) (f : Cmd → Cmd) : State :=
  { s with sto := { s.sto with cmds := s.sto.cmds.map (fun c => if c.q = q ∧ c.cid = cid then f c else c) } }

/-- A controller. -/
def State.ctrl (s : State) (c : Nat) : Option Ctrl := Tab.find s.sto.ctrls c

/-- Change a controller. -/
def State.updCtrl (s : State) (c : Nat) (f : Ctrl → Ctrl) : State :=
  { s with sto := { s.sto with ctrls := Tab.upd s.sto.ctrls c f } }

/-- The front end's power state (STO.STAT.PSTATE). -/
def State.pstate (s : State) : Nat := (s.reg stoPage 0x178).field 63 61

/-- Set the power state. -/
def State.setPstate (s : State) (n : Nat) : State := s.setReg stoPage 0x178 ((s.reg stoPage 0x178).setField 63 61 n)

/-- Whether the volatile write cache is enabled for a queue (R315, R320). -/
def State.cacheOn (s : State) (q : Nat) : Bool :=
  match s.squeue q with
  | some x =>
    match x.ctrl with
    | some c => match s.ctrl c with
      | some y => y.wce
      | none => true
    | none => x.wce
  | none => true

/-- Record a failed command in the error log of its controller: the newest of at most 64 entries first. -/
def State.logError (s : State) (c : Cmd) (sc : Nat) : State :=
  match s.squeue c.q with
  | some x =>
    match x.ctrl with
    | some k =>
      let l := Tab.get [] s.sto.errors k
      let e := ((((0 : Word).setField 63 48 (2 * sc)).setField 47 32 c.cid).setField 31 16 x.qid)
      { s with sto := { s.sto with errors := Tab.set [] s.sto.errors k ((e :: l).take 64) } }
    | none => s
  | none => s

/-- A closing queue with no command left goes, and its queue pair is free again (R333). -/
def State.queueSettle (s : State) (q : Nat) : State :=
  match s.squeue q with
  | some x =>
    if x.closing && !(s.sto.cmds.any (fun c => decide (c.q = q))) then
      { s with sto := { s.sto with queues := Tab.erase s.sto.queues q } }
    else s
  | none => s

/-- Tell a command's sender its outcome: a completion queue entry, or the end of its descriptor (R326, R333, R335). -/
def State.cmdAnswer (s : State) (c : Cmd) (sc dw0 dw1 : Nat) (st : Status) : State :=
  match c.desc with
  | some d =>
    match s.workAt d.1 d.2 with
    | some w =>
      if w.phase = .done then s
      else
        s.workDone d.1 d.2 st 0 (((0 : Word).setField 31 0 dw0).setField 63 32 dw1)
          (((0 : Word).setField 7 0 sc).setField 10 8 (sc / 256))
    | none => s
  | none =>
    match s.squeue c.q with
    | some x => if x.closing then s else s.sendResp c.q dw0 dw1 x.head x.qid c.cid sc
    | none => s

/-- A command completes with an NVMe status and dwords 0 and 1. -/
def State.cmdComplete (s : State) (c : Cmd) (sc dw0 dw1 : Nat) : State :=
  let s1 : State := { s with sto := { s.sto with
    cmds := s.sto.cmds.filter (fun x => !(decide (x.q = c.q) && decide (x.cid = c.cid))), idleSince := s.clk.noc } }
  let s2 := if sc = 0 then s1 else (s1.logError c sc).count1 .sto 2
  let st := if c.admin = true ∧ c.sqe.opc = 0x08 ∧ sc = 0 then Status.notAborted else nvmeStatus sc c.failed
  (s2.cmdAnswer c sc dw0 dw1 st).queueSettle c.q

/-! ## Taking a command (R330, R334, R337) -/

/-- A command arrives: PS1 and PS2 are left at once, PS3 and PS4 begin their exit (R337). -/
def State.wakeFront (s : State) : State :=
  if s.pstate = 0 then s
  else if s.pstate ≤ 2 then { (s.setPstate 0) with sto := { s.sto with exiting := true } }
  else { s with sto := { s.sto with exiting := true } }

/-- First LBA of an I/O command. -/
def sqSlba (e : NvmeSqe) : Nat := e.cdw10.toNat + e.cdw11.toNat * 2 ^ 32
/-- Number of LBAs of an I/O command. -/
def sqNlb (e : NvmeSqe) : Nat := e.cdw12.toNat % 2 ^ 16 + 1
/-- FUA of a Write or Read. -/
def sqFua (e : NvmeSqe) : Bool := e.cdw12.toNat.testBit 30

/-- Whether an opcode names an LBA range. -/
def opRange (opc : Nat) : Bool := decide (opc = 1) || decide (opc = 2) || decide (opc = 8)

/-- The checks of an I/O command (R334): opcode and fields, LBA range, namespace, its state. -/
def State.ioCheck (s : State) (p : Nat) (e : NvmeSqe) (dataLen : Option Nat) : Nat :=
  if !([0, 1, 2, 8, 9].contains e.opc) then scOpcode
  else
    match s.nsOf p e.nsid with
    | none => scNs
    | some n =>
      let x := s.ns n
      if opRange e.opc && (decide (1048576 < sqNlb e * x.lba) && decide (e.opc ≠ 8)) then scField
      else if (decide (e.opc = 1) || decide (e.opc = 2)) && (match dataLen with
          | some l => decide (l ≠ sqNlb e * x.lba)
          | none => false) then scField
      else if opRange e.opc && decide (x.lbas < sqSlba e + sqNlb e) then scRange
      else if x.state ≠ .ready then scNotReady
      else 0

/-- A command as it is taken. -/
def State.newCmd (s : State) (q p : Nat) (e : NvmeSqe) : Cmd :=
  { q := q, cid := e.cid, sqe := e, desc := none, addr := 0, len := 0, hbm := false, vi := none, part := p, admin := false, started := false,
    ns := 0, slba := 0, nlb := 0, data := [], want := 0, held := false, xrdy := 0, issued := false, waits := [],
    failed := none, order := s.sto.nextOrder }

/-- Put a command among those in progress. -/
def State.addCmd (s : State) (c : Cmd) : State :=
  (({ s with sto := { s.sto with cmds := s.sto.cmds ++ [c], nextOrder := s.sto.nextOrder + 1 } }).wakeFront).count1 .sto 1

/-- An I/O command is taken: one that fails a check completes at once. -/
def State.takeIo (s : State) (c : Cmd) (dataLen : Option Nat) : State :=
  let sc := s.ioCheck c.part c.sqe dataLen
  let s1 := s.addCmd c
  if sc ≠ 0 then s1.cmdComplete c sc 0 0
  else
    let n := (s.nsOf c.part c.sqe.nsid).getD 0
    let rng := opRange c.sqe.opc
    s1.updCmd c.q c.cid (fun y => { y with
      ns := n, slba := if rng then sqSlba c.sqe else 0, nlb := if rng then sqNlb c.sqe else 0,
      want := if c.sqe.opc = 1 then sqNlb c.sqe * (s.ns n).lba else 0 })

/-- The admin opcodes that the front end knows (R315). -/
def adminOp (opc : Nat) : Bool := [0x02, 0x06, 0x08, 0x09, 0x0A, 0x0C, 0x18].contains opc

/-- An admin command is taken; it waits for its own step, or fails as an opcode that the front end does not have. -/
def State.takeAdmin (s : State) (c : Cmd) : State :=
  let s1 := s.addCmd { c with admin := true }
  if adminOp c.sqe.opc then s1 else s1.cmdComplete { c with admin := true } scOpcode 0 0

/-! ## Starting (R330) -/

/-- Whether two commands overlap: LBAs of one namespace in common, or a Flush and a write of its namespace. -/
def Cmd.overlaps (a b : Cmd) : Bool :=
  let wr (c : Cmd) : Bool := decide (c.sqe.opc = 1) || decide (c.sqe.opc = 8)
  decide (a.ns = b.ns) &&
  ((decide (a.nlb ≠ 0) && decide (b.nlb ≠ 0) && decide (a.slba < b.slba + b.nlb) && decide (b.slba < a.slba + a.nlb)) ||
   (decide (a.sqe.opc = 0) && wr b) || (wr a && decide (b.sqe.opc = 0)))

/-- Whether a command is an I/O command. -/
def Cmd.isIo (c : Cmd) : Bool := !c.admin

/-- NVME_CMD_START: a command whose earlier overlapping commands of its queue have completed starts; in PS3 and PS4 it waits
for the exit (R330, R337). -/
def State.cmdStart (s : State) (q cid : Nat) : State :=
  match s.cmdOf q cid with
  | some c =>
    if c.started || decide (3 ≤ s.pstate) || !c.isIo || s.clusterStopped 24 then s
    else
      let earlier := s.sto.cmds.takeWhile (fun x => !(decide (x.q = q) && decide (x.cid = cid)))
      if earlier.any (fun x => decide (x.q = q) && x.overlaps c) then s.count1 .sto 6
      else s.updCmd q cid (fun y => { y with started := true })
  | none => s

/-- NVME_CMD_START (R330). -/
def execNvmeCmdStart (q cid : Nat) (s : State) : Host.Outcome State Fault Refusal := .next (s.cmdStart q cid)

/-! ## Data of a Write (R327, R329) -/

/-- Bytes of a command that have arrived. -/
def Cmd.got (c : Cmd) : Nat := c.data.length

/-- The first key of a command's data: a capsule's buffer address, else 0. -/
def Cmd.base (c : Cmd) : Nat := if c.desc.isSome then c.addr else 0

/-- Whether every byte of a Write has arrived. -/
def Cmd.whole (c : Cmd) : Bool := decide (c.want ≤ c.got)

/-- Hold cache pages for a whole command, all or none (R320, R327). -/
def State.holdPages (s : State) (c : Cmd) : State :=
  let x := s.ns c.ns
  let new := (x.pagesOf c.slba c.nlb).filter (fun p => (s.cachePage c.ns p).isNone)
  match (s.updCmd c.q c.cid (fun y => { y with held := true })).stageTake x.part new.length with
  | some t =>
    { t.2 with sto := { t.2.sto with cache := t.2.sto.cache ++ (new.zip t.1).map (fun e =>
        { ns := c.ns, page := e.1, staging := e.2, valid := [], dirty := [], writing := [], dirtySeq := 0, writeSeq := 0 }) } }
  | none => s

/-- Ask for a Write's data over NVMe/TCP: XRDY PDUs in rising order, at most MAXR2T + 1 and four outstanding. -/
def State.askXrdy (s : State) (q cid k : Nat) : State :=
  match k with
  | 0 => s
  | k + 1 =>
    match s.cmdOf q cid, s.tcp q with
    | some c, some t =>
      if c.xrdy < c.want ∧ c.xrdy < c.got + 131072 * min 4 (t.maxr2t + 1) then
        let n := min 131072 (c.want - c.xrdy)
        ((s.sendXrdy q cid c.xrdy n).updCmd q cid (fun y => { y with xrdy := y.xrdy + n })).askXrdy q cid k
      else s
    | _, _ => s

/-- Read a capsule's data: HBM at once, where a read that fails twice fails the command with POISONED (R335, R469); host and
partner memory by reads. A use of one command has one page asked for at a time (R61). -/
def State.askCapsule (s : State) (c : Cmd) : State :=
  let go (port : Nat) : State := (s.readPieces port c.addr c.want).foldl (fun t p =>
    let asked := t.reads.any (fun r => decide (r.use = .nvme c.q c.cid) && decide (r.addr = p.1)) ||
      t.hlk.pageReqs.any (fun r => r.waiters.contains (.nvme c.q c.cid))
    let failed := match t.cmdOf c.q c.cid with
      | some y => y.failed.isSome
      | none => true
    if bufHas c.data p.1 p.2 || asked || failed then t
    else (t.issueRead port c.vi c.part (.nvme c.q c.cid) p.1 p.2).2) s
  match spaceOf c.hbm c.addr with
  | .hbm => match s.firstBad c.addr c.want with
    | some _ => s.failOperand (.nvme c.q c.cid) 0 .poisoned false
    | none => s.updCmd c.q c.cid (fun y => { y with data := bufPut y.data c.addr (s.bytes c.addr c.want) })
  | .host => go 0
  | .window => match windowPort c.addr with
    | some n => go (n + 1)
    | none => s

/-- Write a whole Write's data: into the cache, and with FUA or without the write cache to the drives as well (R320). -/
def State.writeApply (s : State) (c : Cmd) : State :=
  let x := s.ns c.ns
  let data := bufBytes c.data c.base (c.nlb * x.lba)
  let through := sqFua c.sqe || !s.cacheOn c.q
  let s1 := (List.range c.nlb).foldl (fun t i =>
    t.cacheWrite c.ns (c.slba + i) ((data.drop (i * x.lba)).take x.lba) (!through)) s
  if through then
    let r := s1.driveIo c.ns true true c.slba c.nlb (.cmd c.q c.cid) data
    r.2.updCmd c.q c.cid (fun y => { y with issued := true, waits := r.1 })
  else s1.cmdComplete c 0 0 0

/-- Run a Write or Write Zeroes: hold pages, get the data, and once started and whole apply it. -/
def State.writeRun (s : State) (q cid : Nat) : State :=
  match s.cmdOf q cid with
  | some c =>
    if c.failed.isSome then s.cmdComplete c scTransfer 0 0
    else if c.issued then s
    else
      let s1 := if c.held then s else s.holdPages c
      match s1.cmdOf q cid with
      | some c1 =>
        if !c1.held then s1
        else
          let s2 := if c1.whole then s1 else if c1.desc.isSome then s1.askCapsule c1 else s1.askXrdy q cid 5
          match s2.cmdOf q cid with
          | some c2 => if c2.started && c2.whole then s2.writeApply c2 else s2
          | none => s2
      | none => s1
  | none => s

/-- Run an operation of an I/O command of an opcode. -/
def State.runIo (s : State) (q cid opc : Nat) (f : State) : State :=
  match s.cmdOf q cid with
  | some c => if c.sqe.opc = opc ∧ c.isIo = true ∧ s.flt.safe = false ∧ s.dataHeld = false then f else s
  | none => s

/-- NVME_WRITE (R327). -/
def execNvmeWrite (q cid : Nat) (s : State) : Host.Outcome State Fault Refusal := .next (s.runIo q cid 1 (s.writeRun q cid))

/-- WRITE_ZEROES (R315): a Write of zeros that needs no data. -/
def execWriteZeroes (q cid : Nat) (s : State) : Host.Outcome State Fault Refusal := .next (s.runIo q cid 8 (s.writeRun q cid))

/-! ## Writing back (R320) -/

/-- Runs of consecutive numbers in a rising list. -/
def runsOf (l : List Nat) : List (Nat × Nat) :=
  match l with
  | [] => []
  | a :: r =>
    match runsOf r with
    | (b, n) :: rest => if b = a + 1 then (a, n + 1) :: rest else (a, 1) :: (b, n) :: rest
    | [] => [(a, 1)]

/-- Write a page's dirty LBAs to the drives with FUA. -/
def State.pageWrite (s : State) (n page : Nat) : State :=
  match s.cachePage n page with
  | some c =>
    if decide (c.dirty = []) || decide (c.writing ≠ []) then s
    else
      let x := s.ns n
      let idx := (List.range x.perPage).filter (fun i => c.dirty.contains i)
      let s1 := s.updCache n page (fun y => { y with dirty := [], writing := idx, writeSeq := y.dirtySeq })
      ((runsOf idx).foldl (fun t r =>
        (t.driveIo n true true (page * x.perPage + r.1) r.2 (.page n page)
          (s.bytes (c.staging + r.1 * x.lba) (r.2 * x.lba))).2) s1).count1 .sto 5
  | none => s

/-- The oldest dirty page of a namespace that may be written now. -/
def State.oldestDirty (s : State) (n : Nat) : Option CachePage :=
  (s.sto.cache.filter (fun c => decide (c.ns = n) && decide (c.dirty ≠ []) && decide (c.writing = []))).foldl (fun a c =>
    match a with
    | some b => if c.dirtySeq < b.dirtySeq then some c else a
    | none => some c) none

/-- DIRTY_WRITEBACK: the oldest dirty page goes to the drives (R320). -/
def execDirtyWriteback (ns : Nat) (s : State) : Host.Outcome State Fault Refusal :=
  .next (match s.oldestDirty ns with
    | some c => if (s.ns ns).state = .failed ∨ (s.ns ns).state = .empty then s else s.pageWrite ns c.page
    | none => s)

/-- Run a Flush: every page with data of writes completed before it is written, and it completes once all are. -/
def State.flushRun (s : State) (q cid : Nat) : State :=
  match s.cmdOf q cid with
  | some c =>
    if !c.started then s
    else
      let mine (p : CachePage) : Bool := decide (p.ns = c.ns) &&
        ((decide (p.dirty ≠ []) && decide (p.dirtySeq < c.order)) || (decide (p.writing ≠ []) && decide (p.writeSeq < c.order)))
      let due := s.sto.cache.filter mine
      if due = [] then s.cmdComplete c 0 0 0 else due.foldl (fun t p => t.pageWrite c.ns p.page) s
  | none => s

/-- FLUSH (R320). -/
def execFlush (q cid : Nat) (s : State) : Host.Outcome State Fault Refusal := .next (s.runIo q cid 0 (s.flushRun q cid))

/-! ## Read (R320, R328) -/

/-- Hand a command's data to its sender and complete it (R328); memory that takes no writes now is waited for, and the row of
the command then runs again. -/
def State.cmdReturn (s : State) (c : Cmd) (data : List Byte) (dw0 : Nat) : State :=
  match c.desc with
  | some _ => s.whenUp (spaceOf c.hbm c.addr) c.vi c.addr
      ((s.put (spaceOf c.hbm c.addr) c.vi c.addr (data.take c.len)).cmdComplete c 0 dw0 0)
  | none => (match s.squeue c.q with
      | some x => if x.closing then s else s.sendData c.q c.cid 0 (data.length / 131072 + 1) data
      | none => s).cmdComplete c 0 dw0 0

/-- Run a Read: from the cache where it holds the LBA, else from the drives; with FUA from the drives, after any dirty copy of
its range has been written. -/
def State.readRun (s : State) (q cid : Nat) : State :=
  match s.cmdOf q cid with
  | some c =>
    let x := s.ns c.ns
    if !c.started then s
    else if c.issued then
      if c.waits = [] then s.cmdReturn c (bufBytes c.data 0 (c.nlb * x.lba)) 0 else s
    else
      let fua := sqFua c.sqe
      let lbas := (List.range c.nlb).map (fun i => c.slba + i)
      let unsent (l : Nat) : Bool := match s.cachePage c.ns (l / x.perPage) with
        | some p => p.dirty.contains (l % x.perPage) || p.writing.contains (l % x.perPage)
        | none => false
      if fua && lbas.any unsent then
        ((x.pagesOf c.slba c.nlb).foldl (fun t p => t.pageWrite c.ns p) s)
      else
        let hits := if fua then [] else lbas.filter (fun l => (s.cacheRead c.ns l).isSome)
        let s1 := hits.foldl (fun t l => t.updCmd q cid (fun y =>
          { y with data := bufPut y.data ((l - c.slba) * x.lba) ((s.cacheRead c.ns l).getD []) })) s
        let s2 := if hits = [] then s1 else s1.count1 .sto 4
        let r := (runsOf (lbas.filter (fun l => !hits.contains l))).foldl (fun a run =>
          let t := a.2.driveIo c.ns false fua run.1 run.2 (.cmd q cid) []
          (a.1 ++ t.1, t.2)) (([], s2) : List Nat × State)
        let s3 := r.2.updCmd q cid (fun y => { y with issued := true, waits := r.1 })
        match r.1, s3.cmdOf q cid with
        | [], some c1 => s3.cmdReturn c1 (bufBytes c1.data 0 (c.nlb * x.lba)) 0
        | _, _ => s3
  | none => s

/-- NVME_READ (R328). -/
def execNvmeRead (q cid : Nat) (s : State) : Host.Outcome State Fault Refusal := .next (s.runIo q cid 2 (s.readRun q cid))

/-- DATASET_MANAGEMENT: completes and changes no data (R316). -/
def execDatasetManagement (q cid : Nat) (s : State) : Host.Outcome State Fault Refusal :=
  .next (s.runIo q cid 9 (match s.cmdOf q cid with
    | some c => if c.started then s.cmdComplete c 0 0 0 else s
    | none => s))

/-! ## Changes of a namespace's state (R321, R338) -/

/-- The code of a namespace's state (R321). -/
def NsState.code : NsState → Nat
  | .empty => 0 | .ready => 1 | .closing => 2 | .failed => 3

/-- A Namespace Attribute Changed notice goes to a controller: it completes a waiting Asynchronous Event Request, or waits for
one. -/
def State.notice (s : State) (k : Nat) : State :=
  match s.ctrl k with
  | some x =>
    match x.aerWait with
    | cid :: rest =>
      match s.cmdOf x.admin cid with
      | some c => (s.updCtrl k (fun y => { y with aerWait := rest })).cmdComplete c 0 0x040002 0
      | none => s.updCtrl k (fun y => { y with aerWait := rest })
    | [] => s.updCtrl k (fun y => { y with notices := y.notices + 1 })
  | none => s

/-- A namespace changes its state: STO_NS_STATE to the partition, a notice to its controllers (R321, R338). -/
def State.nsChange (s : State) (n : Nat) (st : NsState) (cause drive : Nat) : State :=
  let x := s.ns n
  let s1 := (s.setNs n { x with state := st }).event x.part 0x0180 .ok n
    (((0 : Word).setField 63 62 st.code).setField 31 0 x.nsid) (Word.of cause) (Word.of drive)
  ((s1.sto.ctrls.filter (fun e => e.2.part = x.part)).map Prod.fst).foldl (fun t k => t.notice k) s1

/-- A namespace's cached pages go, dirty or not. -/
def State.nsDropCache (s : State) (n : Nat) : State :=
  let gone := s.sto.cache.filter (fun c => c.ns = n)
  ({ s with sto := { s.sto with cache := s.sto.cache.filter (fun c => c.ns ≠ n) } }).freePages (gone.map CachePage.staging)

/-- Steps whose target is a namespace are abandoned (R305). -/
def State.nsSteps (s : State) (n : Nat) : State :=
  (s.ckp.steps.filter (fun x => !x.remote && decide (x.target = n))).foldl (fun t x => t.stepTargetLost x.sid .state) s

/-- A READY or CLOSING namespace fails: its dirty pages are discarded, and the commands that wait on its writes complete with
Namespace Not Ready (R318, R321, R335). -/
def State.nsFail (s : State) (n cause drive : Nat) : State :=
  if (s.ns n).state = .ready ∨ (s.ns n).state = .closing then
    let s1 := ((s.nsChange n .failed cause drive).setIntBit stoPage 9).nsDropCache n
    let waiting := s1.sto.cmds.filter (fun c => decide (c.ns = n) && c.isIo && c.started &&
      ((c.issued && decide (c.sqe.opc ≠ 2)) || decide (c.sqe.opc = 0) || (!c.issued && decide (c.sqe.opc = 2) && sqFua c.sqe)))
    (waiting.foldl (fun t c => t.cmdComplete c scNotReady 0 0) s1).nsSteps n
  else s

/-- The drives behind a port are lost (R318): every namespace with an extent there fails, and their commands end. -/
def State.drivesLost (s : State) (port : Nat) : State :=
  let hit (i : Nat) : Bool := match s.driveList[i]? with
    | some e => decide (e.1 = port)
    | none => false
  let s1 := (s.sto.nss.filter (fun e => e.2.extents.any (fun x => hit x.drive))).foldl (fun t e => t.nsFail e.1 2 0) s
  let gone := s1.sto.drives.filter (fun d => hit d.drive)
  let s2 : State := { s1 with sto := { s1.sto with drives := s1.sto.drives.filter (fun d => !hit d.drive) } }
  (gone.foldl (fun t d => match d.use with
    | .cmd q cid => match t.cmdOf q cid with
      | some c => t.cmdComplete c (if d.write then scNotReady else scRead) 0 0
      | none => t
    | .restore ring idx src _ => t.updWork ring idx (fun w => match w.ctx with
      | .restore fails rd psn got at_ => { w with ctx := .restore (fails ++ [(src, .poisoned)]) rd psn got at_ }
      | .none | .send _ _ _ | .read _ _ _ _ | .probe _ _ _ | .ingest _ _ _ _ _ | .contribute _ | .cipher _ _ _ => w)
    | .page _ _ | .kiln _ _ => t) s2).stepsSettle

/-! ## Drive completions (R320, R335) -/

/-- Commands of a namespace that wait for a write-back go on: Flush, and Read with FUA. -/
def State.nsProgress (s : State) (n : Nat) : State :=
  (s.sto.cmds.filter (fun c => decide (c.ns = n) && c.started && c.isIo)).foldl (fun t c =>
    if c.sqe.opc = 0 then t.flushRun c.q c.cid
    else if c.sqe.opc = 2 ∧ c.issued = false then t.readRun c.q c.cid
    else t) s

/-- A drive command of a queue's command has completed. -/
def State.cmdDrive (s : State) (d : DriveCmd) (q cid : Nat) (ok : Bool) (data : List Byte) : State :=
  match s.cmdOf q cid with
  | some c =>
    if !ok then (if d.write then (s.nsFail d.ns 3 d.drive) else s.cmdComplete c scRead 0 0)
    else
      let x := s.ns d.ns
      let plain := if d.write then [] else xtsUnits false (s.nsKey x) x.lba d.lba (data.take (d.count * x.lba))
      let s1 := s.updCmd q cid (fun y => { y with
        waits := y.waits.filter (fun i => i ≠ d.did),
        data := if d.write then y.data else bufPut y.data ((d.lba - y.slba) * x.lba) plain })
      match s1.cmdOf q cid with
      | some c1 =>
        if c1.waits ≠ [] then s1
        else if d.write then s1.cmdComplete c1 0 0 0
        else s1.readRun q cid
      | none => s1
  | none => if !ok && d.write then s.nsFail d.ns 3 d.drive else s

/-- A write-back has completed: the page is clean once no part of it is on its way. -/
def State.pageDrive (s : State) (d : DriveCmd) (n page : Nat) (ok : Bool) : State :=
  if !ok then s.nsFail n 3 d.drive
  else if s.sto.drives.any (fun x => decide (x.use = .page n page)) then s
  else (s.updCache n page (fun c => { c with writing := [] })).nsProgress n

/-- A command outstanding at a drive completes. -/
def State.driveDone (s : State) (did : Nat) (ok : Bool) (data : List Byte) : State :=
  match s.sto.drives.find? (fun d => decide (d.did = did)) with
  | some d =>
    let s0 : State := { s with sto := { s.sto with drives := s.sto.drives.filter (fun x => x.did ≠ did) } }
    let s1 := if ok then s0 else s0.errFor .sto 1 (s.ns d.ns).part
    match d.use with
    | .cmd q cid => s1.cmdDrive d q cid ok data
    | .page n page => s1.pageDrive d n page ok
    | .kiln sid _ => if ok then s1.stepSettle sid else (s1.nsFail d.ns 3 d.drive).stepWriteFailed sid .state
    | .restore ring idx src off =>
      let x := s1.ns d.ns
      let plain := xtsUnits false (s1.nsKey x) x.lba d.lba (data.take (d.count * x.lba))
      s1.updWork ring idx (fun w => match w.ctx with
        | .restore fails rd psn got at_ =>
          if ok then { w with buf := bufPut w.buf (src * 2 ^ 64 + (d.lba - off) * x.lba) plain }
          else { w with ctx := .restore (fails ++ [(src, .poisoned)]) rd psn got at_ }
        | .none | .send _ _ _ | .read _ _ _ _ | .probe _ _ _ | .ingest _ _ _ _ _ | .contribute _ | .cipher _ _ _ => w)
  | none => s

/-- DRIVE_COMPLETION (R335). -/
def execDriveCompletion (did : Nat) (ok : Bool) (data : List Byte) (s : State) : Host.Outcome State Fault Refusal :=
  .next (s.driveDone did ok data)

/-- Whether nothing of a namespace is in progress. -/
def State.nsIdle (s : State) (n : Nat) : Bool :=
  !(s.sto.cmds.any (fun c => decide (c.ns = n) && c.isIo)) && !(s.sto.drives.any (fun d => decide (d.ns = n)))

/-- NS_EMPTY: a CLOSING namespace with nothing in progress and nothing dirty, or a FAILED one that is to be deleted, becomes
EMPTY (R321). -/
def State.nsEmpty (s : State) (n : Nat) : State :=
  let x := s.ns n
  let clean := !(s.sto.cache.any (fun c => decide (c.ns = n) && (decide (c.dirty ≠ []) || decide (c.writing ≠ []))))
  if s.nsIdle n && ((decide (x.state = .closing) && clean) || (decide (x.state = .failed) && x.deleting)) then
    ((s.nsDropCache n).nsChange n .empty 1 0).setNs n Ns.empty
  else s

/-- NS_EMPTY (R321). -/
def execNsEmpty (ns : Nat) (s : State) : Host.Outcome State Fault Refusal := .next (s.nsEmpty ns)

/-! ## Controllers and connections (R323 to R325, R333) -/

/-- A queue is reset (R333). -/
def State.queueReset (s : State) (q : Nat) : State :=
  match s.squeue q with
  | some _ =>
    let gone := s.sto.cmds.filter (fun c => decide (c.q = q) && (!c.started || c.admin))
    let s1 := (s.updQueue q (fun x => { x with closing := true })).count1 .sto 8
    (gone.foldl (fun t c =>
      let u := t.cmdComplete c 0x008 0 0
      match c.desc with
      | some d => u.updWork d.1 d.2 (fun w => { w with noSignal := true })
      | none => u) s1).queueSettle q
  | none => s

/-- Forget a TCP connection, with a FIN or a reset to the host. -/
def State.tcpGone (s : State) (t : Nat) (fin rst : Bool) : State :=
  match s.tcp t with
  | some x =>
    let s1 := if fin || rst then s.tcpOut x false fin rst x.sndNxt 0 [] else s
    { s1 with sto := { s1.sto with tcps := Tab.erase s1.sto.tcps t } }
  | none => s

/-- A controller ends (R325): every queue of it is reset and its connections close. -/
def State.ctrlEnd (s : State) (k : Nat) : State :=
  let qs := (s.sto.queues.filter (fun e => e.2.ctrl = some k)).map Prod.fst
  let s1 := qs.foldl (fun t q => (t.queueReset q).tcpGone q true false) s
  { s1 with sto := { s1.sto with ctrls := Tab.erase s1.sto.ctrls k, errors := Tab.erase s1.sto.errors k } }

/-- A connection closes: an I/O queue alone is reset; the controller of an admin connection ends (R325). -/
def State.tcpClose (s : State) (t : Nat) (fin rst : Bool) : State :=
  match s.squeue t with
  | some x =>
    match x.ctrl, x.qp with
    | some k, none => (s.ctrlEnd k).tcpGone t fin rst
    | _, _ => (s.queueReset t).tcpGone t fin rst
  | none => s.tcpGone t fin rst

/-- A fatal transport error (R325): C2HTermReq, then the controller ends and the connection closes. -/
def State.transportFatal (s : State) (t : Nat) : State :=
  let s1 := (s.pduSend t 0x03 0 (leBytes 2 1 ++ List.replicate 14 0) []).err .sto 3
  match s1.squeue t with
  | some x => match x.ctrl with
    | some k => (s1.ctrlEnd k).tcpGone t true false
    | none => s1.tcpClose t true false
  | none => s1.tcpGone t true false

/-- A connection request (R323, R324): accepted from an address in the listener's host list, else reset. -/
def State.tcpSyn (s : State) (g : TcpSeg) : State :=
  match s.listenPart g.dst with
  | none => s
  | some p =>
    let isn := Config.freeWord s.free
    let known := match (s.part p).listener with
      | some l => l.hosts.any (fun h => h.2 = g.src)
      | none => false
    let mss := min (s.tcpMss p (isV4 g.src)) (if g.mss = 0 then (if isV4 g.src then 536 else 1220) else g.mss)
    let x : Tcp :=
      { part := p, src := g.src, dst := g.dst, sport := g.sport, estab := false, closing := false, rcvNxt := g.seq + 1, ooo := [],
        sndUna := isn.setWidth 32, sndNxt := isn.setWidth 32 + 1, sent := [], sndBuf := [],
        cwnd := if mss > 2190 then 2 * mss else if mss > 1095 then 3 * mss else 4 * mss, ssthresh := 2 ^ 30, wnd := g.window,
        wscale := 0, mss := mss, dupAcks := 0, recover := none, srtt := 0, rttvar := 0, rto := 2000000000, sentAt := s.clk.noc,
        icDone := false, hdgst := false, ddgst := false, maxr2t := 0, hpda := 0 }
    if known && decide (s.sto.tcps.length < 4352) then
      let t := s.sto.nextTcp
      let s1 := s.tcpOut x true false false (isn.setWidth 32) (s.tcpMss p (isV4 g.src)) []
      { s1 with free := s1.free + 1, sto := { s1.sto with nextTcp := t + 1, tcps := Tab.insert s1.sto.tcps t x } }
    else s.tcpOut x false false true 0 0 []

/-- The connection of a segment. -/
def State.tcpFind (s : State) (g : TcpSeg) : Option Nat :=
  (s.sto.tcps.find? (fun e => decide (e.2.src = g.src) && decide (e.2.dst = g.dst) && decide (e.2.sport = g.sport))).map Prod.fst

/-- A segment of a connection: acknowledgement, data, FIN and reset (R323). What the received bytes say arrives as the PDU rows. -/
def State.tcpSegment (s : State) (g : TcpSeg) : State :=
  match s.tcpFind g with
  | none => if g.syn && !g.ack then s.tcpSyn g else s
  | some t =>
    match s.tcp t with
    | none => s
    | some x =>
      if g.rst then s.tcpClose t false false
      else if g.syn then s.tcpOut x true false false x.sndUna x.mss []
      else
        let s1 := if !x.estab && g.ack && decide (g.ackNo = x.sndUna + 1) then
            s.updTcp t (fun y => { y with estab := true, sndUna := g.ackNo, wnd := g.window })
          else if g.ack then s.tcpAcked t g.ackNo g.window (decide (g.payload = []) && !g.fin) g.sack
          else s
        let s2 := s1.updTcp t (fun y => y.receive g.seq g.payload.length)
        let s3 := if g.payload = [] then s2 else s2.tcpAckNow t
        match s3.tcp t with
        | some y =>
          if g.fin && decide (g.seq + BitVec.ofNat 32 g.payload.length = y.rcvNxt) then
            (s3.updTcp t (fun z => { z with rcvNxt := z.rcvNxt + 1 })).tcpClose t true false
          else s3
        | none => s3

/-- TCP_SEGMENT (R323). -/
def execTcpSegment (seg : TcpSeg) (s : State) : Host.Outcome State Fault Refusal := .next (s.tcpSegment seg)

/-- ICReq opens NVMe/TCP on an established connection and is answered with ICResp; a second one is an error of the transport. -/
def State.icReq (s : State) (t hpda : Nat) (hdgst ddgst : Bool) (maxr2t : Nat) : State :=
  match s.tcp t with
  | some x =>
    if !x.estab then s
    else if x.icDone || decide (31 < hpda) then s.transportFatal t
    else
      let y : Tcp := { x with icDone := true, maxr2t := maxr2t, hpda := hpda }
      let resp := leBytes 1 1 ++ leBytes 1 0 ++ leBytes 1 128 ++ leBytes 1 0 ++ leBytes 4 128 ++ leBytes 2 0 ++ leBytes 1 0 ++
        leBytes 1 ((if hdgst then 1 else 0) + (if ddgst then 2 else 0)) ++ leBytes 4 131072 ++ List.replicate 112 0
      ((s.updTcp t (fun _ => y)).tcpSend t resp).updTcp t (fun z => { z with hdgst := hdgst, ddgst := ddgst })
  | none => s

/-- ICREQ (R315). -/
def execIcreq (tcp hpda : Nat) (hdgst ddgst : Bool) (maxr2t : Nat) (s : State) : Host.Outcome State Fault Refusal :=
  .next (s.icReq tcp hpda hdgst ddgst maxr2t)

/-- STO.CFG that a queue's controller recorded. -/
def State.stoCfg (s : State) (x : SQueue) : Word :=
  match x.ctrl with
  | some k => match s.ctrl k with
    | some c => c.cfg
    | none => s.reg stoPage 0x100
  | none => s.reg stoPage 0x100

/-- CapsuleCmd delivers one command (R315): before a Connect it is out of sequence; in-capsule data beyond the limit, or not the
data of a whole Write, is an invalid field. -/
def State.capsuleCmd (s : State) (t : Nat) (e : NvmeSqe) (data : List Byte) : State :=
  match s.tcp t with
  | some y =>
    if !y.icDone then s.transportFatal t
    else
      match s.squeue t with
      | none => s.sendResp t 0 0 0 0 e.cid scSequence
      | some x =>
        if x.closing then s
        else
          let s1 := s.updQueue t (fun z => { z with head := (z.head + 1) % max 1 z.size })
          let c := s1.newCmd t x.part e
          let bad := decide ((s.stoCfg x).field 47 44 * 1024 < data.length)
          match x.qp with
          | none => s1.takeAdmin c
          | some _ =>
            if bad then (s1.addCmd c).cmdComplete c scField 0 0
            else
              let c1 : Cmd := { c with data := if e.opc = 1 then bufPut [] 0 data else [] }
              s1.takeIo c1 (if e.opc = 1 ∧ data ≠ [] then some data.length else none)
  | none => s

/-- CAPSULECMD (R315). -/
def execCapsulecmd (tcp : Nat) (sqe : NvmeSqe) (data : List Byte) (s : State) : Host.Outcome State Fault Refusal :=
  .next (s.capsuleCmd tcp sqe data)

/-- H2CData delivers data that an XRDY PDU asked for: a digest failure completes the command with nothing applied (R329); data
that were not asked for are an error of the transport. -/
def State.h2cData (s : State) (t cid off : Nat) (data : List Byte) (dgstOk : Bool) : State :=
  match s.cmdOf t cid with
  | some c =>
    if !dgstOk then s.cmdComplete c scTransport 0 0
    else if c.xrdy < off + data.length then s.transportFatal t
    else
      let s1 := s.updCmd t cid (fun y => { y with data := bufPut y.data off data })
      s1.askXrdy t cid 5
  | none => s.transportFatal t

/-- H2CDATA (R327, R329). -/
def execH2cdata (tcp cid off : Nat) (data : List Byte) (ddgstOk : Bool) (s : State) : Host.Outcome State Fault Refusal :=
  .next (if (s.tcp tcp).isSome then s.h2cData tcp cid off data ddgstOk else s)

/-- H2CTERMREQ: the host ends the transport (R325). -/
def execH2ctermreq (tcp : Nat) (s : State) : Host.Outcome State Fault Refusal :=
  .next (if (s.tcp tcp).isSome then s.tcpClose tcp true false else s)

/-! ## Connect and properties (R315, R324, R325) -/

/-- The free queue pairs of a partition, lowest first. -/
def State.freeQps (s : State) (p : Nat) : List Nat :=
  (List.range 4096).filter (fun n => s.owns p tyQp n && !(s.sto.queues.any (fun e => decide (e.2.qp = some n))))

/-- The lowest free controller number. -/
def State.freeCtrl (s : State) : Option Nat :=
  ((List.range 256).map (fun i => i + 1)).find? (fun k => (s.ctrl k).isNone)

/-- A Connect that fails is answered, and its connection closes (R324). -/
def State.connectFail (s : State) (t cid qid sc : Nat) : State := (s.sendResp t 0 0 0 qid cid sc).tcpClose t true false

/-- Connect for an admin queue. -/
def State.connectAdmin (s : State) (t cid : Nat) (x : Tcp) (host : List Byte) (kato : Nat) : State :=
  match s.freeCtrl with
  | none => s.connectFail t cid 0 0x181
  | some k =>
    let c : Ctrl := { part := x.part, hostNqn := host, admin := t, cc := 0, shst := 0, kato := kato, kaAt := s.clk.noc,
                      arb := 0, aec := 0, aerWait := [], notices := 0, cfg := s.reg stoPage 0x100, wce := true }
    let q : SQueue := { part := x.part, ctrl := some k, ring := none, qp := none, qid := 0, size := 32, head := 1, wce := true,
                        closing := false }
    ({ s with sto := { s.sto with ctrls := Tab.insert s.sto.ctrls k c, queues := Tab.insert s.sto.queues t q } }).sendResp t k 0
      1 0 cid 0

/-- Connect for an I/O queue: the lowest free queue pair of the partition. -/
def State.connectIo (s : State) (t cid qid size : Nat) (x : Tcp) (host : List Byte) (k : Nat) : State :=
  match s.ctrl k, s.freeQps x.part with
  | some c, n :: _ =>
    if c.part ≠ x.part ∨ c.hostNqn ≠ host ∨ c.cc % 2 = 0 ∨ size < 2 ∨ 1024 < size ∨
        (s.sto.queues.any (fun e => decide (e.2.ctrl = some k) && decide (e.2.qid = qid))) = true then
      s.connectFail t cid qid 0x182
    else
      let q : SQueue := { part := x.part, ctrl := some k, ring := none, qp := some n, qid := qid, size := size, head := 1,
                          wce := true, closing := false }
      ({ s with sto := { s.sto with queues := Tab.insert s.sto.queues t q } }).sendResp t k 0 1 qid cid 0
  | _, _ => s.connectFail t cid qid 0x182

/-- Fabrics Connect (R324): the host NQN must be listed with the connection's source address. -/
def State.connect (s : State) (t cid qid size : Nat) (host : List Byte) (k kato : Nat) : State :=
  match s.tcp t with
  | some x =>
    if !x.icDone then s.transportFatal t
    else if (s.squeue t).isSome then s.sendResp t 0 0 0 qid cid scSequence
    else
      let s1 := s.wakeFront.count1 .sto 1
      let listed := match (s.part x.part).listener with
        | some l => l.hosts.any (fun h => decide (h.1 = host) && decide (h.2 = x.src))
        | none => false
      if !listed then s1.connectFail t cid qid 0x184
      else if qid = 0 then s1.connectAdmin t cid x host kato
      else s1.connectIo t cid qid size x host k
  | none => s

/-- CONNECT (R324). -/
def execConnect (tcp cid qid sqsize : Nat) (hostNqn : List Byte) (cntlid kato : Nat) (s : State) :
    Host.Outcome State Fault Refusal :=
  .next (s.connect tcp cid qid sqsize hostNqn cntlid kato)

/-- Answer a Fabrics command of an admin queue. -/
def State.fabricsResp (s : State) (t cid dw0 dw1 sc : Nat) : State :=
  let s1 := (if sc = 0 then s else s.count1 .sto 2).updQueue t (fun x => { x with head := (x.head + 1) % max 1 x.size })
  match s1.squeue t with
  | some x => s1.sendResp t dw0 dw1 x.head x.qid cid sc
  | none => s1

/-- The controller whose admin connection this is. -/
def State.adminCtrl (s : State) (t : Nat) : Option (Nat × Ctrl) :=
  match s.squeue t with
  | some x =>
    match x.ctrl, x.qp with
    | some k, none => match s.ctrl k with
      | some c => some (k, c)
      | none => none
    | _, _ => none
  | none => none

/-- CAP of a controller: MQES 1,023, contiguous queues, the NVM command set. -/
def nvmeCap : Nat := 1023 + 2 ^ 16 + Config.nvmeTimeout.toNat * 2 ^ 24 + 2 ^ 37

/-- PROPERTY_GET: CAP, VS, CC and CSTS (R315). -/
def State.propertyGet (s : State) (t cid ofst : Nat) : State :=
  match s.adminCtrl t with
  | some e =>
    let s1 := s.wakeFront.count1 .sto 1
    match ofst with
    | 0x00 => s1.fabricsResp t cid (nvmeCap % 2 ^ 32) (nvmeCap / 2 ^ 32) 0
    | 0x08 => s1.fabricsResp t cid Config.nvmeVersion.toNat 0 0
    | 0x14 => s1.fabricsResp t cid e.2.cc 0 0
    | 0x1C => s1.fabricsResp t cid (e.2.cc % 2 + 4 * e.2.shst) 0 0
    | _ => s1.fabricsResp t cid 0 0 scField
  | none => s

/-- PROPERTY_GET (R315). -/
def execPropertyGet (tcp cid ofst : Nat) (s : State) : Host.Outcome State Fault Refusal := .next (s.propertyGet tcp cid ofst)

/-- PROPERTY_SET: CC is the property that hosts write; clearing CC.EN ends the controller (R325). -/
def State.propertySet (s : State) (t cid ofst : Nat) (v : BitVec 64) : State :=
  match s.adminCtrl t with
  | some e =>
    let s1 := s.wakeFront.count1 .sto 1
    if ofst ≠ 0x14 then s1.fabricsResp t cid 0 0 scField
    else
      let cc := v.toNat % 2 ^ 32
      let s2 := (s1.fabricsResp t cid 0 0 0).updCtrl e.1 (fun c => { c with cc := cc, shst := if (cc / 2 ^ 14) % 4 ≠ 0 then 2 else 0 })
      if e.2.cc % 2 = 1 ∧ cc % 2 = 0 then s2.ctrlEnd e.1 else s2
  | none => s

/-- PROPERTY_SET (R325). -/
def execPropertySet (tcp cid ofst : Nat) (val : BitVec 64) (s : State) : Host.Outcome State Fault Refusal :=
  .next (s.propertySet tcp cid ofst val)

/-! ## Admin commands (R315, R332, R334, R336) -/

/-- The admin command that a row names: delivered and not yet carried out. -/
def State.adminCmd (s : State) (q opc : Nat) (e : NvmeSqe) : Option Cmd :=
  s.sto.cmds.find? (fun c => decide (c.q = q) && decide (c.cid = e.cid) && decide (c.sqe = e) && decide (e.opc = opc) &&
    c.admin)

/-- Carry an admin command out once the front end runs (R337). -/
def State.runAdmin (s : State) (q opc : Nat) (e : NvmeSqe) (f : Cmd → State) : State :=
  match s.adminCmd q opc e with
  | some c => if s.pstate < 3 ∧ s.flt.safe = false ∧ s.dataHeld = false then f c else s
  | none => s

/-- Bytes written at an offset of a structure of zeros. -/
def fields (n : Nat) (fs : List (Nat × List Byte)) : List Byte :=
  bufBytes (fs.foldl (fun b f => bufPut b f.1 f.2) []) 0 n

/-- A power state descriptor (R336): MP in units of 0.01 W, latencies in µs, non-operational. -/
def psd (mp en ex : Nat) (nop : Bool) : List Byte :=
  leBytes 2 mp ++ [0, if nop then 2 else 0] ++ leBytes 4 en ++ leBytes 4 ex

/-- The queue's controller number, 0 on a capsule ring. -/
def State.cntlid (s : State) (q : Nat) : Nat :=
  match s.squeue q with
  | some x => x.ctrl.getD 0
  | none => 0

/-- Identify Controller: what R315, R316, R332 and R336 give, at the standard's places; VID is the vendor id of PF0 (R2). -/
def State.identifyCtrl (s : State) (q p : Nat) (cfg : Word) : List Byte :=
  fields 4096 [(0, leBytes 2 0xD0E2), (2, (List.range 2).map (fun i => Config.nvmeText (2 + i))), (4, (List.range 68).map (fun i => Config.nvmeText (4 + i))),
    (77, leBytes 1 8), (78, leBytes 2 (s.cntlid q)), (80, leBytes 4 Config.nvmeVersion.toNat), (92, leBytes 4 0x100),
    (111, leBytes 1 1), (258, leBytes 1 3), (263, leBytes 1 4), (512, leBytes 1 0x66), (513, leBytes 1 0x44),
    (516, leBytes 4 1024), (520, leBytes 2 0x0C), (525, leBytes 1 1),
    (768, match (s.part p).listener with
      | some l => l.subNqn.take 256
      | none => []),
    (1792, leBytes 4 ((64 + cfg.field 47 44 * 1024) / 16)), (1796, leBytes 4 1),
    (2048, psd 1500 0 0 false), (2080, psd 1100 1 1 false), (2112, psd 600 10 10 false), (2144, psd 200 100 100 true),
    (2176, psd 50 1000 1000 true)]

/-- Identify Namespace. -/
def identifyNs (x : Ns) : List Byte :=
  fields 4096 [(0, leBytes 8 x.lbas), (8, leBytes 8 x.lbas), (16, leBytes 8 x.lbas), (25, leBytes 1 1),
    (26, leBytes 1 (if x.lba4k then 1 else 0)), (128, leBytes 4 (9 * 65536)), (132, leBytes 4 (12 * 65536))]

/-- IDENTIFY: CNS 0x00 to 0x03 (R315). -/
def State.identify (s : State) (q : Nat) (c : Cmd) : State :=
  let cfg := match s.squeue q with
    | some x => s.stoCfg x
    | none => s.reg stoPage 0x100
  match c.sqe.cdw10.toNat % 256 with
  | 0x00 =>
    match s.nsOf c.part c.sqe.nsid with
    | some n => s.cmdReturn c (identifyNs (s.ns n)) 0
    | none => s.cmdComplete c scNs 0 0
  | 0x01 => s.cmdReturn c (s.identifyCtrl q c.part cfg) 0
  | 0x02 =>
    let l := ((List.range 1024).map (fun i => i + 1)).filter (fun i => decide (c.sqe.nsid < i) && (s.nsOf c.part i).isSome)
    s.cmdReturn c (fields 4096 [(0, l.flatMap (leBytes 4))]) 0
  | 0x03 =>
    match s.nsOf c.part c.sqe.nsid with
    | some _ => s.cmdReturn c (List.replicate 4096 0) 0
    | none => s.cmdComplete c scNs 0 0
  | _ => s.cmdComplete c scField 0 0

/-- IDENTIFY (R315). -/
def execIdentify (q : Nat) (sqe : NvmeSqe) (s : State) : Host.Outcome State Fault Refusal :=
  .next (s.runAdmin q 0x06 sqe (fun c => s.identify q c))

/-- GET_LOG_PAGE: Error and SMART (R315); the SMART values are free (R315 gives none). -/
def State.getLog (s : State) (q : Nat) (c : Cmd) : State :=
  let n := ((c.sqe.cdw10.toNat / 65536 + c.sqe.cdw11.toNat % 65536 * 65536) + 1) * 4
  let off := c.sqe.cdw12.toNat + c.sqe.cdw13.toNat * 2 ^ 32
  match c.sqe.cdw10.toNat % 256 with
  | 0x01 =>
    let l := Tab.get [] s.sto.errors (s.cntlid q)
    let page := l.zipIdx.flatMap (fun e => leBytes 8 (l.length - e.2) ++ e.1.bytes ++ List.replicate 48 0)
    s.cmdReturn c (slice (page ++ List.replicate (4096 - page.length) 0) off n) 0
  | 0x02 =>
    ({ s with free := s.free + 1 }).cmdReturn c (slice ((List.range 512).map (Config.smartByte s.free)) off n) 0
  | _ => s.cmdComplete c scField 0 0

/-- GET_LOG_PAGE (R315). -/
def execGetLogPage (q : Nat) (sqe : NvmeSqe) (s : State) : Host.Outcome State Fault Refusal :=
  .next (s.runAdmin q 0x02 sqe (fun c => s.getLog q c))

/-- Set the write cache of a queue's controller, or of a capsule ring. -/
def State.setCache (s : State) (q : Nat) (on : Bool) : State :=
  match s.squeue q with
  | some x => match x.ctrl with
    | some k => s.updCtrl k (fun c => { c with wce := on })
    | none => s.updQueue q (fun y => { y with wce := on })
  | none => s

/-- Number of Queues as dword 0: at most the partition's free queue pairs (R324). -/
def State.queueCount (s : State) (p asked : Nat) : Nat :=
  let n := min (asked % 65536) ((s.freeQps p).length - 1)
  n + n * 65536

/-- SET_FEATURES (R315, R334): 0x02 and 0x0B of a tenant's controller are not changeable. -/
def State.setFeature (s : State) (q : Nat) (c : Cmd) : State :=
  let v := c.sqe.cdw11.toNat
  match c.sqe.cdw10.toNat % 256 with
  | 0x02 =>
    if c.part ≠ 0 then s.cmdComplete c scFeature 0 0
    else if 4 < v % 32 then s.cmdComplete c scField 0 0
    else (s.cmdComplete c 0 0 0).setPstate (v % 32)
  | 0x06 => (s.setCache q (v % 2 = 1)).cmdComplete c 0 0 0
  | 0x07 => s.cmdComplete c 0 (s.queueCount c.part v) 0
  | 0x0B =>
    if c.part ≠ 0 then s.cmdComplete c scFeature 0 0
    else (s.updCtrl (s.cntlid q) (fun y => { y with aec := v })).cmdComplete c 0 0 0
  | 0x0F => (s.updCtrl (s.cntlid q) (fun y => { y with kato := v, kaAt := s.clk.noc })).cmdComplete c 0 0 0
  | _ => s.cmdComplete c scField 0 0

/-- SET_FEATURES (R334). -/
def execSetFeatures (q : Nat) (sqe : NvmeSqe) (s : State) : Host.Outcome State Fault Refusal :=
  .next (s.runAdmin q 0x09 sqe (fun c => s.setFeature q c))

/-- GET_FEATURES (R315). -/
def State.getFeature (s : State) (q : Nat) (c : Cmd) : State :=
  let k := s.ctrl (s.cntlid q)
  match c.sqe.cdw10.toNat % 256 with
  | 0x02 => s.cmdComplete c 0 s.pstate 0
  | 0x06 => s.cmdComplete c 0 (if s.cacheOn q then 1 else 0) 0
  | 0x07 => s.cmdComplete c 0 (s.queueCount c.part 0xFFFF) 0
  | 0x0B => s.cmdComplete c 0 (match k with
    | some y => y.aec
    | none => 0) 0
  | 0x0F => s.cmdComplete c 0 (match k with
    | some y => y.kato
    | none => 0) 0
  | _ => s.cmdComplete c scField 0 0

/-- GET_FEATURES (R315). -/
def execGetFeatures (q : Nat) (sqe : NvmeSqe) (s : State) : Host.Outcome State Fault Refusal :=
  .next (s.runAdmin q 0x0A sqe (fun c => s.getFeature q c))

/-- ASYNCHRONOUS_EVENT_REQUEST: a notice that waits is answered at once, else the request waits (R315). -/
def execAsynchronousEventRequest (q : Nat) (sqe : NvmeSqe) (s : State) : Host.Outcome State Fault Refusal :=
  .next (s.runAdmin q 0x0C sqe (fun c =>
    match s.ctrl (s.cntlid q) with
    | some k =>
      if k.aerWait.contains c.cid then s
      else if 0 < k.notices then
        (s.updCtrl (s.cntlid q) (fun y => { y with notices := y.notices - 1 })).cmdComplete c 0 0x040002 0
      else
        (s.updCtrl (s.cntlid q) (fun y => { y with aerWait := y.aerWait ++ [c.cid] })).updCmd q c.cid
          (fun y => { y with started := true })
    | none => s.cmdComplete c scOpcode 0 0))

/-- ABORT: completes at once with "not aborted" and affects no command (R332). -/
def execAbort (q : Nat) (sqe : NvmeSqe) (s : State) : Host.Outcome State Fault Refusal :=
  .next (s.runAdmin q 0x08 sqe (fun c => (s.count1 .sto 7).cmdComplete c 0 1 0))

/-- KEEP_ALIVE: restarts the controller's Keep Alive Timer (R325). -/
def execKeepAlive (q : Nat) (sqe : NvmeSqe) (s : State) : Host.Outcome State Fault Refusal :=
  .next (s.runAdmin q 0x18 sqe (fun c =>
    (s.updCtrl (s.cntlid q) (fun y => { y with kaAt := s.clk.noc })).cmdComplete c 0 0 0))

/-- KEEP_ALIVE_EXPIRE: a Keep Alive Timer of KATO milliseconds runs out and the controller ends (R325). -/
def execKeepAliveExpire (ctrl : Nat) (s : State) : Host.Outcome State Fault Refusal :=
  .next (match s.ctrl ctrl with
    | some c => if c.kato ≠ 0 ∧ c.kaAt + c.kato * 2000000 ≤ s.clk.noc then s.ctrlEnd ctrl else s
    | none => s)

/-! ## Capsule rings (R326) -/

/-- The NVMe entry of a capsule descriptor; its CID is the descriptor's index. -/
def capsuleSqe (idx : Nat) (ws : List Word) : NvmeSqe :=
  let dw (i : Nat) (hi : Bool) : BitVec 32 := BitVec.ofNat 32 (if hi then wf ws i 63 32 else wf ws i 31 0)
  { opc := wf ws 2 63 56, cid := idx, nsid := wf ws 2 31 0, cdw10 := dw 5 false, cdw11 := dw 5 true, cdw12 := dw 6 false,
    cdw13 := dw 6 true, cdw14 := dw 7 false, cdw15 := dw 7 true }

/-- The command of a capsule descriptor. -/
def State.capsuleCmdOf (s : State) (w : Work) : Cmd :=
  { s.newCmd (capsuleQ w.ring) w.part (capsuleSqe w.idx w.words) with
    desc := some (w.ring, w.idx), addr := (wordAt w.words 3).toNat, len := wf w.words 4 63 32, hbm := wb w.words 4 31, vi := w.vi }

/-- Run IO: one command of the capsule queue, whose data buffer the partition must reach. -/
def State.capsuleIo (s : State) (w : Work) : State :=
  match s.squeue (capsuleQ w.ring) with
  | none => s.workFail w.ring w.idx .state
  | some x =>
    if x.closing then s.workFail w.ring w.idx .state
    else if (s.cmdOf (capsuleQ w.ring) w.idx).isSome then s
    else
      let c := s.capsuleCmdOf w
      let host := decide (spaceOf c.hbm c.addr = .host) && decide (c.len ≠ 0)
      if 1048576 < c.len then s.workFail w.ring w.idx .format
      else if c.len ≠ 0 ∧ s.mayReach w.part w.vi (spaceOf c.hbm c.addr) c.addr c.len = false then
        s.workFail w.ring w.idx .accessViolation
      else
        (s.updWork w.ring w.idx (fun v => { v with phase := if host then .fetching else .running })).takeIo c (some c.len)

/-- CAPSULE_IO (R326). -/
def execCapsuleIo (ring idx : Nat) (s : State) : Host.Outcome State Fault Refusal :=
  .next (s.runDesc ring idx 0x07 0x01 (fun w => s.capsuleIo w))

/-- Run ADMIN: Identify, Get Log Page, Get Features, Set Features 0x06 and Abort; any other opcode gives FORMAT. -/
def State.capsuleAdmin (s : State) (w : Work) : State :=
  let c := s.capsuleCmdOf w
  let ok := [0x02, 0x06, 0x08, 0x0A].contains c.sqe.opc ||
    (decide (c.sqe.opc = 0x09) && decide (c.sqe.cdw10.toNat % 256 = 0x06))
  if !ok || decide (1048576 < c.len) then s.workFail w.ring w.idx .format
  else if c.len ≠ 0 ∧ s.mayReach w.part w.vi (spaceOf c.hbm c.addr) c.addr c.len = false then
    s.workFail w.ring w.idx .accessViolation
  else
    match s.squeue (capsuleQ w.ring) with
    | none => s.workFail w.ring w.idx .state
    | some x =>
      if x.closing then s.workFail w.ring w.idx .state
      else if (s.cmdOf (capsuleQ w.ring) w.idx).isSome then s
      else (s.updWork w.ring w.idx (fun v => { v with phase := .running })).takeAdmin c

/-- CAPSULE_ADMIN (R326). -/
def execCapsuleAdmin (ring idx : Nat) (s : State) : Host.Outcome State Fault Refusal :=
  .next (s.runDesc ring idx 0x07 0x02 (fun w => s.capsuleAdmin w))

/-! ## Power states (R337) -/

/-- IDLEn of STO.PWR. -/
def State.stoIdle (s : State) (n : Nat) : Nat := (s.reg stoPage 0x108).field (79 - 16 * n) (64 - 16 * n)

/-- PS_IDLE_EXPIRE: the front end moves down once no command has been in progress for IDLEn (R337). -/
def execPsIdleExpire (n : Nat) (s : State) : Host.Outcome State Fault Refusal :=
  let dirty := s.sto.cache.any (fun c => decide (c.dirty ≠ []) || decide (c.writing ≠ []))
  .next (if 1 ≤ n ∧ n ≤ 4 ∧ s.pstate < n ∧ s.sto.exiting = false ∧ s.stoIdle n ≠ 0 ∧ s.sto.cmds = [] ∧ s.sto.drives = [] ∧
      (n < 3 ∨ dirty = false) ∧ s.sto.idleSince + s.stoIdle n * 65536 ≤ s.clk.noc then s.setPstate n else s)

/-- PS_EXIT_DONE: an exit ends and the front end runs at full rate in PS0 (R337). -/
def execPsExitDone (s : State) : Host.Outcome State Fault Refusal :=
  .next (if s.sto.exiting then ({ (s.setPstate 0) with sto := { s.sto with exiting := false } }).count1 .sto 10 else s)

/-! ## STO commands (R339) -/

/-- An extent list entry; none where a reserved bit is set. -/
def State.readExtent (s : State) (a : Nat) : Option Extent :=
  let w0 := s.word a
  let w1 := s.word (a + 8)
  if w0.field 58 32 ≠ 0 ∨ w1.field 31 0 = 0 then none
  else some { drive := w0.field 63 59, bnsid := w0.field 31 0, firstMib := w1.field 63 32, mibs := w1.field 31 0 }

/-- Whether two extents share a MiB. -/
def Extent.overlaps (a b : Extent) : Bool :=
  decide (a.drive = b.drive) && decide (a.bnsid = b.bnsid) && decide (a.firstMib < b.firstMib + b.mibs) &&
  decide (b.firstMib < a.firstMib + a.mibs)

/-- Whether some extent of a list overlaps a later one. -/
def selfOverlap (es : List Extent) : Bool :=
  match es with
  | [] => false
  | e :: r => r.any e.overlaps || selfOverlap r

/-- Whether an extent lies beyond its drive namespace, or on one of larger LBAs; a drive that is absent is judged by STATE. -/
def State.extentBad (s : State) (lba : Nat) (e : Extent) : Bool :=
  s.driveOk e.drive && (match s.driveNs e.drive e.bnsid with
    | some d => decide (d.1 < e.firstMib + e.mibs) || decide (lba < d.2)
    | none => true)

/-- NS_CREATE. -/
def State.nsCreate (s : State) (p : Nat) (a0 a1 : Word) : Status × State :=
  let n := a1.field 63 54
  let lba4k := a1.bit 53
  let key := a1.field 51 32
  let nsid := a1.field 31 16
  let cnt := a1.field 4 0 + 1
  let list := a0.toNat
  let reach := s.inP0 list (16 * cnt)
  let raw := (List.range cnt).map (fun i => s.readExtent (list + 16 * i))
  let es := raw.filterMap id
  let k := Tab.get Key.empty s.cph.keys key
  match firstFail [
      (decide (list % 64 ≠ 0) || decide (nsid = 0) || decide (1024 < nsid) ||
        (reach && (raw.contains none || es.any (s.extentBad (if lba4k then 4096 else 512)))) ||
        (s.owns p tyKey key && (decide (k.state ≠ .ready) || decide (k.use ≠ 2))), .format),
      (!reach || !s.owns p tyKey key, .accessViolation),
      (!s.owns p tyNs n || decide ((s.ns n).state ≠ .empty) || (s.nsOf p nsid).isSome || decide ((s.part p).stage = []) ||
        !(es.all (fun e => s.driveOk e.drive)) || selfOverlap es ||
        s.sto.nss.any (fun x => decide (x.2.state ≠ .empty) && x.2.extents.any (fun e => es.any e.overlaps)), .state)] with
  | .ok =>
    (.ok, (s.setNs n { state := .empty, part := p, nsid := nsid, lba4k := lba4k, key := key, extents := es,
                       deleting := false }).nsChange n .ready 1 0)
  | st => (st, s)

/-- NS_DELETE. -/
def State.nsDelete (s : State) (p : Nat) (a1 : Word) : Status × State :=
  let n := a1.field 63 54
  match firstFail [(!s.owns p tyNs n, .accessViolation),
      (decide ((s.ns n).state ≠ .ready) && decide ((s.ns n).state ≠ .failed), .state)] with
  | .ok =>
    if (s.ns n).state = .ready then (.ok, (s.nsChange n .closing 1 0).nsSteps n)
    else (.ok, s.setNs n { s.ns n with deleting := true })
  | st => (st, s)

/-- LISTEN. -/
def State.listen (s : State) (p : Nat) (a0 a1 a2 : Word) : Status × State :=
  let leaf := a2.field 63 47
  let cnt := a2.field 46 36
  let en := a2.bit 0
  match firstFail [
      (decide (1024 < cnt), .format),
      (en && (!s.inP0 a0.toNat 256 || !s.inP0 a1.toNat (272 * cnt) || !s.owns p tyLeaf leaf), .accessViolation),
      (decide ((s.part p).state ≠ .active) || (!en && s.sto.ctrls.any (fun e => decide (e.2.part = p))), .state)] with
  | .ok =>
    let l : Listener :=
      { subNqn := s.bytes a0.toNat 256, leaf := leaf,
        hosts := (List.range cnt).map (fun i =>
          (s.bytes (a1.toNat + 272 * i) 256, BitVec.ofNat 128 (beNat (s.bytes (a1.toNat + 272 * i + 256) 16)))) }
    (.ok, s.setPart p { s.part p with listener := if en then some l else none })
  | st => (st, s)

/-- QP_RING. -/
def State.qpRing (s : State) (p : Nat) (a0 : Word) : Status × State :=
  let qp := a0.field 63 52
  let ring := a0.field 51 35
  let q := capsuleQ ring
  match firstFail [
      (!s.owns p tyQp qp || !s.owns p tyRing ring, .accessViolation),
      (s.sto.queues.any (fun e => decide (e.2.qp = some qp) && decide (e.1 ≠ q)) ||
        decide ((s.ring ring).type ≠ .submission) || !(s.ring ring).setUp || decide ((s.ring ring).state ≠ .disabled) ||
        (match s.squeue q with
         | some x => decide (x.qp ≠ some qp)
         | none => !a0.bit 0), .state)] with
  | .ok =>
    if a0.bit 0 then
      let x : SQueue := { part := p, ctrl := none, ring := some ring, qp := some qp, qid := 0, size := 0, head := 0, wce := true,
                          closing := false }
      (.ok, { s with sto := { s.sto with queues := Tab.insert s.sto.queues q x } })
    else (.ok, { s with sto := { s.sto with queues := Tab.erase s.sto.queues q } })
  | st => (st, s)

/-- NS_READ. -/
def State.nsRead (s : State) (a1 : Word) : Status × State :=
  let x := s.ns (a1.field 63 54)
  (.ok, (s.setReg stoPage 0x168 (((0 : Word).setField 63 62 x.state.code).setField 31 0 x.nsid)).setReg stoPage 0x170
    (Word.of x.lbas))

/-- Run an STO command word (R339). -/
def stoRun (val : Word) (s : State) : State :=
  let op := val.field 31 24
  let p := val.field 6 0
  let a (i : Nat) : Word := s.reg stoPage (0x140 + 8 * i)
  let r : Status × State := match op with
    | 1 => s.nsCreate p (a 0) (a 1)
    | 2 => s.nsDelete p (a 1)
    | 3 => s.listen p (a 0) (a 1) (a 2)
    | 4 => s.qpRing p (a 0)
    | 5 => s.nsRead (a 1)
    | _ => (.format, s)
  r.2.cmdEnd .sto op p r.1

/-- The word of an STO command. -/
def stoWord (op part : Nat) : Word := ((0 : Word).setField 31 24 op).setField 6 0 part

/-- NS_CREATE (R339). -/
def execNsCreate (part : Nat) (s : State) : Host.Outcome State Fault Refusal := .next (s.takeCmd .sto (stoWord 1 part) stoRun)

/-- NS_DELETE (R339). -/
def execNsDelete (part : Nat) (s : State) : Host.Outcome State Fault Refusal := .next (s.takeCmd .sto (stoWord 2 part) stoRun)

/-- LISTEN (R339). -/
def execListen (part : Nat) (s : State) : Host.Outcome State Fault Refusal := .next (s.takeCmd .sto (stoWord 3 part) stoRun)

/-- QP_RING (R339). -/
def execQpRing (part : Nat) (s : State) : Host.Outcome State Fault Refusal := .next (s.takeCmd .sto (stoWord 4 part) stoRun)

/-- NS_READ (R339). -/
def execNsRead (part : Nat) (s : State) : Host.Outcome State Fault Refusal := .next (s.takeCmd .sto (stoWord 5 part) stoRun)

/-! ## Release and faults -/

/-- The queues of a draining partition are reset and its controllers end (step 4 of R50, R333). -/
def State.stoDrain (s : State) (p : Nat) : State :=
  let s1 := ((s.sto.ctrls.filter (fun e => e.2.part = p)).map Prod.fst).foldl (fun t k => t.ctrlEnd k) s
  ((s1.sto.queues.filter (fun e => e.2.part = p)).map Prod.fst).foldl (fun t q => t.queueReset q) s1

/-- A lasting fault on a staging page (R301, and STO ERR_STAT bit 2): a cached page's namespace fails; a step is abandoned. -/
def State.stagingLost (s : State) (a : Nat) : State :=
  match s.sto.cache.find? (fun c => decide (c.staging = a / 65536 * 65536)) with
  | some c => (((s.markBad a).retirePage a).errFor .sto 2 (s.ns c.ns).part).nsFail c.ns 1 0
  | none => s.stagingFault a

/-- BLOCK_READ_ERROR: an uncorrectable error on a read of a KV block or of a staging page; again says that the second read
failed too (R266, R301). -/
def execBlockReadError (addr : Nat) (again : Bool) (ring idx : Nat) (s : State) : Host.Outcome State Fault Refusal :=
  .next (if addr < hbmSize then
    (if s.ckp.used.contains (addr / 65536 * 65536) then (if again then s.stagingLost addr else s.count (kvsPageOf addr) 8 1)
     else s.blockReadError addr again ring idx)
  else s)

end Sys2Proof.Machine
end

