-- ==== Sys2Proof/Machine/Downstream.lean ====
section
/-! DEFINITION. The downstream root ports: states, enumeration, announcement, inbound requests, freeze
(05_downstream_links.md). -/

namespace Sys2Proof.Machine

/-- The DLK page of a port. -/
abbrev dlkPage (n : Nat) : Page := ⟨.dlk, n⟩

/-! ## States (R83 to R85) -/

/-- DPERST_N of a port in a state: high or low (R83). -/
def DState.perstHigh (st : DState) : Bool :=
  match st with
  | .empty | .training | .enumerating | .ready => true
  | .off | .reset | .frozen | .held => false

/-- Whether the link of a port in a state is DL_Active. -/
def DState.linkUp (st : DState) : Bool :=
  match st with
  | .enumerating | .ready => true
  | .off | .empty | .reset | .training | .frozen | .held => false

/-- Drive ball DPERST_N[n]. -/
def State.setDperst (s : State) (n : Nat) (x : Bool) : State :=
  { s with balls := { s.balls with dperst :=
    if x then s.balls.dperst ||| BitVec.ofNat 6 (2 ^ n) else s.balls.dperst &&& ~~~(BitVec.ofNat 6 (2 ^ n)) } }

/-- The number of drives behind D0, at which the indices of D1's drives start (R318). -/
def State.firstD1 (s : State) : Nat := ((s.dport 4).enabled.filter (fun f => f.isNvme)).length

/-- Drive indices are counted again (R318): namespaces and drive commands keep the drives of D1 that they name. -/
def State.drivesRecount (s : State) (old : Nat) : State :=
  let new := s.firstD1
  let at_ (i : Nat) : Nat := if old ≤ i then i - old + new else i
  if old = new then s
  else { s with sto := { s.sto with
    nss := s.sto.nss.map (fun e => (e.1, { e.2 with extents := e.2.extents.map (fun x => { x with drive := at_ x.drive }) })),
    drives := s.sto.drives.map (fun d => { d with drive := at_ d.drive }) } }

/-- Enable other functions behind a port, and count the drives again. -/
def State.setEnabled (s : State) (n : Nat) (fs : List CfgFunc) : State :=
  (s.updDport n (fun d => { d with enabled := fs })).drivesRecount s.firstD1

/-- What leaving READY does (R89, R318): PARTNER_DOWN, and the namespaces and drives behind the port are lost. -/
def State.leaveReady (s : State) (n : Nat) : State :=
  if (s.dport n).state = .ready then ((s.drivesLost n).setEnabled n []).setIntBit (dlkPage n) 9 else s

/-- A port enters a state: DPERST_N and the link status follow, and FREEZE.FROZEN falls with FROZEN (R83). -/
def State.portGo (s : State) (n : Nat) (st : DState) : State :=
  let s1 := s.leaveReady n
  let s2 := s1.updDport n (fun d =>
    let keep := st.linkUp
    { d with state := st, since := s.clk.noc, up := keep, flit := keep && d.flit, speed := if keep then d.speed else 0,
             width := if keep then d.width else 0, inq := if keep then d.inq else [] })
  let s3 := s2.setDperst n st.perstHigh
  if st = .frozen then s3 else s3.setReg (dlkPage n) 0x110 ((s3.reg (dlkPage n) 0x110).setBit 63 false)

/-- Whether a port is in a state and its ports' clocks run: no step of a port is taken in the safe state (R477). -/
def State.portIn (s : State) (n : Nat) (st : DState) : Bool :=
  decide ((s.dport n).state = st) && !(s.dport n).goingDown && !s.flt.safe

/-- DETECT: an EMPTY port runs Detect every 2,000,000 NOC cycles; a receiver moves it to RESET (R84). -/
def execDetect (port : Nat) (receiver : Bool) (s : State) : Host.Outcome State Fault Refusal :=
  .next (if s.portIn port .empty && decide ((s.dport port).since + 2000000 ≤ s.clk.noc) then
      let s1 := s.count (dlkPage port) 6 1
      if receiver then s1.portGo port .reset else s1.updDport port (fun d => { d with since := s.clk.noc })
    else s)

/-- PERST_HOLD_END: PERST_HOLD × 65,536 NOC cycles of RESET have passed; DPERST_N goes high (R84). -/
def execPerstHoldEnd (port : Nat) (s : State) : Host.Outcome State Fault Refusal :=
  .next (if s.portIn port .reset &&
      decide ((s.dport port).since + (s.reg (dlkPage port) 0x100).field 59 52 * 65536 ≤ s.clk.noc) then
      (s.portGo port .training).updDport port (fun d => { d with perstHighAt := s.clk.noc })
    else s)

/-- Lanes of a port (R82). -/
def portWidth (n : Nat) : Nat := if n < 4 then 16 else 8

/-- The speed that a link trains to: what both ends support, at most SPEED_MAX, and at most 32 GT/s (code 5) without flit mode (R58,
R82, R85). -/
def State.trainSpeed (s : State) (port speed : Nat) (flit : Bool) : Nat :=
  min (min speed ((s.reg (dlkPage port) 0x100).field 62 60)) (if flit then 7 else 5)

/-- DL_ACTIVE: a TRAINING port's link reaches DL_Active, at no more than the port's own width (R85). Tags are of 14 bits in flit mode,
else of 8 bits until enumeration has found that all functions complete requests with 10-bit tags (R58, R82; DESIGN CHOICE,
assumption 128). -/
def execDlActive (port speed width : Nat) (flit : Bool) (s : State) : Host.Outcome State Fault Refusal :=
  .next (if s.portIn port .training && decide (s.clk.noc ≤ (s.dport port).perstHighAt + 200000000) then
      (s.portGo port .enumerating).updDport port (fun d =>
        { d with dlActiveAt := s.clk.noc, up := true, flit := flit, tagMode := if flit then 2 else 0,
                 speed := s.trainSpeed port speed flit, width := min width (portWidth port),
                 enumStarted := false, enumOk := false, funcs := [] })
    else s)

/-- TRAIN_TIMEOUT: a training attempt of 100 ms fails; the third consecutive one holds the port (R85). RETRY out of HELD leaves
TRAIN_FAILS as it is, so that the next timeout holds the port again, and the count stops at 255 (DESIGN CHOICE, assumption 129). -/
def execTrainTimeout (port : Nat) (s : State) : Host.Outcome State Fault Refusal :=
  .next (if s.portIn port .training && decide ((s.dport port).perstHighAt + 200000000 ≤ s.clk.noc) then
      let n := min ((s.dport port).trainFails + 1) 255
      let s1 := (s.updDport port (fun d => { d with trainFails := n })).latch (dlkPage port) 0 6 0x7F true
      s1.portGo port (if 3 ≤ n then .held else .empty)
    else s)

/-- NO_RECEIVER_IN_DETECT: a TRAINING port finds no receiver and returns to EMPTY (R83). -/
def execNoReceiverInDetect (port : Nat) (s : State) : Host.Outcome State Fault Refusal :=
  .next (if s.portIn port .training then s.portGo port .empty else s)

/-! ## Enumeration (R86, R87) -/

/-- A configuration request goes out. -/
def State.cfgRead (s : State) (n : Nat) : State := (s.count (dlkPage n) 1 1).emit (.cfgRead n)

/-- ENUM_START: the first configuration request, 100 ms after DL_Active (R86). -/
def execEnumStart (port : Nat) (s : State) : Host.Outcome State Fault Refusal :=
  .next (if s.portIn port .enumerating && !(s.dport port).enumStarted &&
      decide ((s.dport port).dlActiveAt + 200000000 ≤ s.clk.noc) && s.dataHeld = false then
      (s.updDport port (fun d => { d with enumStarted := true })).cfgRead port
    else s)

/-- The bridges found, in order; the k-th, counted from 0, has secondary bus k + 2: bus 1 is the root port's, and buses are given
depth-first (R86). -/
def bridges (fs : List CfgFunc) : List CfgFunc := fs.filter (fun f => f.isSwitch)

/-- The buses from a bus up to the root port's; k bounds the way. -/
def busPath (fs : List CfgFunc) (b k : Nat) : List Nat :=
  match k with
  | 0 => [b]
  | k + 1 =>
    if b ≤ 1 then [b]
    else match (bridges fs)[b - 2]? with
      | some f => b :: busPath fs f.bus k
      | none => [b]

/-- Device and function number, as one key. -/
def funcKey (f : CfgFunc) : Nat := f.dev * 8 + f.fn

/-- Whether a function is one that the walk may find next: in order of device and function number on its bus, below the bridge just
found, or on the way back up; buses above 31 are not given (R86). -/
def walkOk (fs : List CfgFunc) (f : CfgFunc) : Bool :=
  decide (f.dev < 32) && decide (f.fn < 8) && decide (f.bus ≤ 31) &&
  fs.all (fun g => decide (g.bus ≠ f.bus) || decide (funcKey g < funcKey f)) &&
  (match fs.getLast? with
   | none => decide (f.bus = 1)
   | some l => (l.isSwitch && decide (f.bus = (bridges fs).length + 1)) || (busPath fs l.bus 32).contains f.bus)

/-- ENUM_CONFIG_CPL: Retry Status is retried; a successful completion adds the function that the walk finds, and the walk goes on
(R86). -/
def execEnumConfigCpl (port : Nat) (cpl : CfgCpl) (s : State) : Host.Outcome State Fault Refusal :=
  .next (if s.portIn port .enumerating && (s.dport port).enumStarted then
      match cpl with
      | .retry => s.cfgRead port
      | .found f =>
        if walkOk (s.dport port).funcs f then (s.updDport port (fun d => { d with enumOk := true, funcs := d.funcs ++ [f] })).cfgRead port
        else s
    else s)

/-- ENUM_NORESP: no successful configuration completion within 1 s of DPERST_N going high (R86). -/
def execEnumNoresp (port : Nat) (s : State) : Host.Outcome State Fault Refusal :=
  .next (if s.portIn port .enumerating && !(s.dport port).enumOk &&
      decide ((s.dport port).perstHighAt + 2000000000 ≤ s.clk.noc) then
      ((s.updDport port (fun d => { d with result := 2 })).latch (dlkPage port) 0 7 0x7F true).portGo port .held
    else s)

/-- A switch below which nothing is enabled: any switch on an accelerator port, a second level of switch on a drive port, which lies
below bus 2 (R82, R86). -/
def refusedSwitch (port : Nat) (f : CfgFunc) : Bool := f.isSwitch && (decide (port < 4) || decide (3 ≤ f.bus))

/-- The secondary bus of each bridge. -/
def secondaries (fs : List CfgFunc) : List (CfgFunc × Nat) := (bridges fs).zipIdx.map (fun e => (e.1, e.2 + 2))

/-- Whether a function lies below a refused switch (R86, TYPE). -/
def belowRefused (port : Nat) (fs : List CfgFunc) (f : CfgFunc) : Bool :=
  (secondaries fs).any (fun e => refusedSwitch port e.1 && (busPath fs f.bus 32).contains e.2)

/-- A BAR to be placed: the position of its function, its number there, its bytes. -/
abbrev BarSize := Nat × Nat × Nat

/-- Put a BAR in its place among BARs that fall in size. -/
def insertBar (b : BarSize) (l : List BarSize) : List BarSize :=
  match l with
  | [] => [b]
  | x :: r => if x.2.2 < b.2.2 then b :: x :: r else x :: insertBar b r

/-- The BARs of functions, largest first (R86 step 3). -/
def barsBySize (fs : List CfgFunc) : List BarSize :=
  (fs.zipIdx.flatMap (fun f => f.1.bars.zipIdx.map (fun b => (f.2, b.2, b.1)))).foldl (fun l b => insertBar b l) []

/-- The first naturally aligned address for a size from an address on. -/
def alignUp (a size : Nat) : Nat := if size = 0 then a else (a + size - 1) / size * size

/-- Take an aligned place for a size out of a list of extents (address, bytes): the place, and what is left. -/
def takePlace (size : Nat) (exts : List (Nat × Nat)) : Option Nat × List (Nat × Nat) :=
  match exts with
  | [] => (none, [])
  | e :: r =>
    let a := alignUp e.1 size
    if a + size ≤ e.1 + e.2 then (some a, (a + size, e.1 + e.2 - (a + size)) :: r)
    else
      let t := takePlace size r
      (t.1, e :: t.2)

/-- Place BARs, in order, in extents: the function, the BAR and its address, none for one that does not fit. -/
def placeBars (exts : List (Nat × Nat)) (bs : List BarSize) : List (Nat × Nat × Option Nat) :=
  match bs with
  | [] => []
  | b :: r =>
    let t := takePlace b.2.2 exts
    (b.1, b.2.1, t.1) :: placeBars t.2 r

/-- The addresses given to the BARs of the function at a position. -/
def barAddrs (ps : List (Nat × Nat × Option Nat)) (i n : Nat) : List (Option Nat) :=
  (List.range n).map (fun k => ((ps.find? (fun p => decide (p.1 = i) && decide (p.2.1 = k))).map (fun p => p.2.2)).getD none)

/-- What enumeration gives functions whose BARs are placed in extents: their sites, and those that fit (R86). -/
def giveSites (fs : List CfgFunc) (sec : CfgFunc → Nat) (exts : List (Nat × Nat)) : List (FuncSite × CfgFunc) :=
  let ps := placeBars exts (barsBySize fs)
  fs.zipIdx.map (fun e =>
    ({ bus := e.1.bus, dev := e.1.dev, fn := e.1.fn, secondary := sec e.1, bars := barAddrs ps e.2 e.1.bars.length }, e.1))

/-- Whether every BAR of a site has its address. -/
def FuncSite.fits (x : FuncSite) : Bool := x.bars.all (fun b => b.isSome)

/-- The first so many NVMe endpoints of a list stay, with every function that is none (R87). -/
def nvmeUpTo (k : Nat) (fs : List CfgFunc) : List CfgFunc :=
  match fs with
  | [] => []
  | f :: r => if f.isNvme then (match k with
      | 0 => nvmeUpTo 0 r
      | k + 1 => f :: nvmeUpTo k r) else f :: nvmeUpTo k r

/-- NVMe endpoints enabled on the other drive port. -/
def State.otherDrives (s : State) (port : Nat) : Nat :=
  if port = 4 ∨ port = 5 then ((s.dport (9 - port)).enabled.filter (fun f => f.isNvme)).length else 0

/-- How many more NVMe endpoints a port may enable (R87). -/
def State.driveRoom (s : State) (port : Nat) : Nat := if port < 4 then 1000 else 32 - s.otherDrives port

/-- What an enumeration comes to: the sites of its functions, the functions enabled, ENUM_RESULT, and how many endpoints are beyond
the count of R87. -/
structure Enumerated where
  sites : List FuncSite
  on : List CfgFunc
  result : Nat
  limited : Nat

/-- Enable functions that lie in given extents: refused switches and what lies below them, BARs that do not fit and drives beyond the
count stay disabled (R86, R87); buses says that more buses were needed than there are. -/
def enableIn (port room : Nat) (buses : Bool) (all fs : List CfgFunc) (exts : List (Nat × Nat)) : Enumerated :=
  let sec (f : CfgFunc) : Nat := (((secondaries all).find? (fun e => decide (e.1 = f))).map (fun e => e.2)).getD 0
  let usable := fs.filter (fun f => !refusedSwitch port f && !belowRefused port all f)
  let xs := giveSites usable sec exts
  let fit := (xs.filter (fun x => x.1.fits)).map (fun x => x.2)
  let on := nvmeUpTo room fit
  { sites := xs.map (fun x => x.1), on := on, limited := fit.length - on.length,
    result := if fs.any (refusedSwitch port) then 6
      else if buses then 4
      else if fit.length < usable.length then 3
      else if on.length < fit.length then 5
      else 1 }

/-- Enumerate the functions found behind a port in its window (R86, R87). -/
def State.enumerate (s : State) (port : Nat) (fs : List CfgFunc) : Enumerated :=
  enableIn port (s.driveRoom port) (decide (31 < (bridges fs).length + 1)) fs fs [(windowBase port, 0x10000000000)]

/-- Max_Payload_Size: the smallest value that all functions and the port support, at most 512 (R58, R86). -/
def payloadOf (fs : List CfgFunc) : Nat := fs.foldl (fun a f => min a f.maxPayload) 512

/-- The tag mode of a port whose functions are known (R58, R82). -/
def DPort.tagsWith (d : DPort) (fs : List CfgFunc) : Nat :=
  if d.flit then 2 else if fs.all (fun f => f.tag10) then 1 else 0

/-- The window space of each bus (R88): the places of the BARs on it. -/
def busSpace (xs : List FuncSite) (fs : List CfgFunc) (bus : Nat) : List (Nat × Nat) :=
  (xs.filter (fun x => decide (x.bus = bus))).flatMap (fun x =>
    match fs.find? (fun f => decide (f.bus = x.bus) && decide (f.dev = x.dev) && decide (f.fn = x.fn)) with
    | some f => (x.bars.zip f.bars).filterMap (fun b => b.1.map (fun a => (a, b.2)))
    | none => [])

/-- Enabled endpoints. -/
def endpoints (fs : List CfgFunc) : Nat := (fs.filter (fun f => !f.isSwitch)).length

/-- DLK.PARTNER: the identity of bus 1, device 0, function 0. -/
def partnerWord (fs : List CfgFunc) : Word :=
  match fs.find? (fun f => decide (f.bus = 1) && decide (f.dev = 0) && decide (f.fn = 0)) with
  | some f => (((0 : Word).setField 63 48 f.vendor).setField 47 32 f.device).setField 31 8 f.cls
  | none => 0

/-- Increment ANNOUNCE.SEQ and write SLOT and ENDPOINTS (R89). -/
def State.announce (s : State) (n slot eps : Nat) : State :=
  let w := s.reg (dlkPage n) 0x128
  s.setReg (dlkPage n) 0x128 (((w.setField 63 32 (w.field 63 32 + 1)).setField 31 24 slot).setField 23 16 eps)

/-- The errors of an enumeration that ended (ERR_STAT bits 7 and 8). -/
def State.enumErrs (s : State) (n result limited : Nat) : State :=
  let s1 := if result = 1 then s else s.latch (dlkPage n) 0 7 0x7F true
  if limited = 0 then s1 else s1.latch (dlkPage n) 0 8 0x7F true

/-- ENUM_END: the port enters READY and announces its partner (R86, R87, R89). -/
def State.enumEnd (s : State) (n : Nat) : State :=
  let fs := (s.dport n).funcs
  let e := s.enumerate n fs
  let s1 := (s.portGo n .ready).setEnabled n e.on
  let s2 := s1.updDport n (fun d => { d with
    result := e.result, trainFails := 0, sites := e.sites, maxPayload := payloadOf fs, tagMode := d.tagsWith fs,
    slots := (List.range 31).map (fun b => (b + 1, busSpace e.sites fs (b + 1))) })
  let s3 := s2.enumErrs n e.result e.limited
  ((((s3.setReg (dlkPage n) 0x120 (partnerWord fs)).announce n 0 (endpoints e.on)).setIntBit (dlkPage n) 8)).wake 3

/-- ENUM_END: enumeration with at least one successful completion ends. -/
def execEnumEnd (port : Nat) (s : State) : Host.Outcome State Fault Refusal :=
  .next (if s.portIn port .enumerating && (s.dport port).enumOk then s.enumEnd port else s)

/-- A switch slot changes (R88, R318): its functions go, and those of a new device are enabled where they fit in the bus and the window
space that the slot held before and the count of drives allows it. ENUM_RESULT is then the slot's own result (DESIGN CHOICE,
assumption 130: R88 does not say whether it replaces the whole port's). -/
def State.slotChange (s : State) (n bus : Nat) (devs : List CfgFunc) : State :=
  let others (d : DPort) : List CfgFunc := d.enabled.filter (fun f => f.bus ≠ bus)
  let s1 := s.drivesLost n
  let rest := others (s1.dport n)
  let s2 := s1.setEnabled n rest
  let room := s2.driveRoom n - (rest.filter (fun f => f.isNvme)).length
  let fs := devs.map (fun f => { f with bus := bus })
  let e := enableIn n room false (fs.filter (fun f => f.isSwitch)) fs (Tab.get [] (s2.dport n).slots bus)
  let s3 := (s2.setEnabled n (rest.filter (fun f => decide (f.bus < bus)) ++ e.on ++ rest.filter (fun f => decide (bus < f.bus)))).updDport n
    (fun d => { d with result := e.result, sites := d.sites.filter (fun x => x.bus ≠ bus) ++ e.sites,
                       maxPayload := min d.maxPayload (payloadOf fs) })
  let s4 := s3.enumErrs n e.result e.limited
  let s5 := ((s4.announce n bus (endpoints (s4.dport n).enabled)).setIntBit (dlkPage n) 9).setIntBit (dlkPage n) 12
  if devs = [] then s5 else s5.wake 3

/-- SLOT_CHANGE: a hot-plug change of one switch slot of a READY drive port (R88); the slot now holds no device, or one of up to eight
functions. -/
def execSlotChange (port bus : Nat) (devs : List CfgFunc) (s : State) : Host.Outcome State Fault Refusal :=
  .next (if s.portIn port .ready && decide (4 ≤ port) && decide (1 ≤ bus) && decide (bus ≤ 31) &&
      (s.dport port).funcs.any (fun f => f.isSwitch) then s.slotChange port bus devs
    else s)

/-! ## DOWN, RETRY, freeze (R83, R90, R94 to R96) -/

/-- DOWN starts: the port issues no new request and takes none (R90). Inbound requests that it holds at its entry are discarded with
those that it no longer takes (DESIGN CHOICE, assumption 131). -/
def State.portDown (s : State) (n : Nat) (off : Bool) : State :=
  s.updDport n (fun d => { d with goingDown := true, thenOff := d.thenOff || off, inq := [] })

/-- DOWN ends once no read of the port is outstanding (R90): PARTNER_DOWN, then HELD, or OFF after a swap with EN = 0. A
port that has been enabled again meanwhile goes on to EMPTY (R83). -/
def State.portDownDone (s : State) (n : Nat) : State :=
  let d := s.dport n
  if d.goingDown && decide (s.outstanding (n + 1) = 0) && !s.flt.safe then
    let s1 := (s.leaveReady n).setIntBit (dlkPage n) 9
    let st : DState := if d.thenOff then (if (s.reg (dlkPage n) 0x100).bit 63 then .empty else .off) else .held
    (s1.portGo n st).updDport n (fun d => { d with goingDown := false, thenOff := false })
  else s

/-- DOWN_DONE (R90). -/
def execDownDone (port : Nat) (s : State) : Host.Outcome State Fault Refusal := .next (s.portDownDone port)

/-- Run a word written to DLK.CMD of a port: RETRY in HELD, DOWN in READY and ENUMERATING; anything else is refused (R39,
R83, R90). -/
def State.dlkRun (s : State) (n : Nat) (val : Word) : State :=
  let op := val.field 7 0
  if op = 1 ∧ s.portIn n .held = true then s.portGo n .reset
  else if op = 2 ∧ (s.portIn n .ready || s.portIn n .enumerating) = true then s.portDown n false
  else s.refuse (dlkPage n) 0x130

/-- A write to DLK.CMD: held at the port's entry while its swap is armed or the data plane is contained (R38, R476). -/
def State.dlkCmd (s : State) (n : Nat) (val : Word) : State :=
  if s.flt.safe then s
  else if s.entryHeld (dlkPage n) then { s with entry := s.entry ++ [(dlkPage n, val)] }
  else s.dlkRun n val

/-- DLK_RETRY (R83). -/
def execDlkRetry (port : Nat) (s : State) : Host.Outcome State Fault Refusal := .next (s.dlkCmd port 1)

/-- DLK_DOWN (R90). -/
def execDlkDown (port : Nat) (s : State) : Host.Outcome State Fault Refusal := .next (s.dlkCmd port 2)

/-- Whether a freeze cause is a bit of AER Uncorrectable Error Status: ERR_FATAL from the hierarchy is none (R94, R95). -/
def aerCause (c : Nat) : Bool := decide (1 ≤ c) && decide (c ≤ 6)

/-- A freeze cause of a port whose link is up, or a further one while it is FROZEN (R94). A port that is going down is FROZEN too, and
goes on down once its reads have ended: DOWN_DONE then takes it to HELD or OFF (DESIGN CHOICE, assumption 132). -/
def State.dportFreeze (s : State) (n cause : Nat) : State :=
  let w := s.reg (dlkPage n) 0x110
  let w1 := w.setField 47 32 (w.field 47 32 + 1)
  let s1 := if aerCause cause then s.updDport n (fun d => { d with aer := aerAdd d.aer cause }) else s
  let s2 := s1.latch (dlkPage n) 0 (if cause = 1 then 0 else 1) 0x7F true
  if (s.dport n).state = .frozen then s2.setReg (dlkPage n) 0x110 w1
  else
    let mine := s.reads.filter (fun r => r.port = n + 1)
    let s3 := mine.foldl (fun t r => t.failRead r .timeout false) (s2.endReads (fun r => decide (r.port = n + 1)) false)
    ((s3.setReg (dlkPage n) 0x110 ((w1.setBit 63 true).setField 7 0 cause)).setIntBit (dlkPage n) 10).portGo n .frozen

/-- DPORT_FREEZE (R94). A port whose link is down meets no cause, and other codes are none. -/
def execDportFreeze (port cause : Nat) (s : State) : Host.Outcome State Fault Refusal :=
  let st := (s.dport port).state
  .next (if !s.flt.safe && decide (1 ≤ cause) && decide (cause ≤ 7) && (st.linkUp || decide (st = .frozen)) then
      s.dportFreeze port cause
    else s)

/-- A write of FREEZE.RELEASE = 1 at an offset of the page: to RESET, or refused with STATE while AER holds the recorded cause (R39,
R95). -/
def State.dportRelease (s : State) (n off : Nat) : State :=
  if (s.dport n).aer.contains ((s.reg (dlkPage n) 0x110).field 7 0) then s.refuse (dlkPage n) off
  else if s.portIn n .frozen then (s.portGo n .reset).setIntBit (dlkPage n) 11
  else s

/-- DPORT_FREEZE_RELEASE (R95). -/
def execDportFreezeRelease (port : Nat) (s : State) : Host.Outcome State Fault Refusal :=
  .next (if s.flt.safe then s else s.dportRelease port 0x110)

/-- Words of a port's page at their reset values: the live registers, their shadows and previous copies. -/
def State.regsToReset (s : State) (pg : Page) (offs : List Nat) : State :=
  offs.foldl (fun t o => ((t.setReg pg o (pg.resetAt o)).setReg pg (o + 0x700) (pg.resetAt o)).setReg pg (o + 0x8000) (pg.resetAt o)) s

/-- The scrub of a port begins: its DOWN sequence runs (R96). -/
def State.portScrub (s : State) (n : Nat) : State := if (s.dport n).state = .off then s else s.portDown n false

/-- Whether the DOWN sequence of a port's scrub has ended (R90, R96). -/
def State.portScrubDone (s : State) (n : Nat) : Bool := !(s.dport n).goingDown

/-- The scrub of a port ends (R96): its inbound windows and P2P take their reset values, and it enters RESET; an OFF port stays
OFF. -/
def State.portScrubbed (s : State) (n : Nat) : State :=
  let s1 := s.regsToReset (dlkPage n) (0x108 :: (List.range 32).map (fun i => 0x200 + 8 * i))
  if (s1.dport n).state = .off then s1 else s1.portGo n .reset

/-! ## Inbound requests (R91, R92) -/

/-- The enabled inbound window of a port that holds a request. -/
def State.windowOf (s : State) (n addr len : Nat) : Option Nat :=
  (List.range 16).find? (fun i =>
    let ctl := s.reg (dlkPage n) (0x208 + 16 * i)
    let base := (s.reg (dlkPage n) (0x200 + 16 * i)).field 63 16 * 65536
    ctl.bit 63 && decide (base ≤ addr) && decide (addr + len ≤ base + 2 ^ ctl.field 57 52))

/-- A read that is refused completes with Unsupported Request; a posted request is dropped (R92). -/
def State.refuseRead (s : State) (n : Nat) (write : Bool) (addr len : Nat) : State :=
  if write then s else s.emit (.unsupported (some n) addr len)

/-- A request to HBM (R91). -/
def State.inboundHbm (s : State) (n p : Nat) (write : Bool) (addr len t : Nat) (data : List Byte) : State :=
  if s.ownsHbm p t len then
    let s1 := s.count (dlkPage n) 2 1
    if write then s1.setBytes t (data.take len) else s1.emit (.readReplyBytes n addr (s1.bytes t len))
  else (s.inboundFailed n p addr).refuseRead n write addr len

/-- The sync objects that an access of the aperture touches. -/
def syncObjs (t len : Nat) : List Nat := (List.range ((t % 8 + len + 7) / 8)).map (fun i => (t / 8 + i) / 2)

/-- A request to the sync-object aperture (R91, R116): a write acts on each aligned word in order of address. -/
def State.inboundSync (s : State) (n p : Nat) (write : Bool) (addr len t : Nat) (data : List Byte) : State :=
  if !((syncObjs t len).all (fun o => s.owns p tySync o)) then
    ((s.count1 .syn 5).inboundFailed n p addr).refuseRead n write addr len
  else if t % 8 = 0 ∧ len % 8 = 0 ∧ len ≠ 0 ∧ (write = true ∨ len = 8) then
    (List.range (len / 8)).foldl (fun u i =>
      u.syncAct ((t + 8 * i) / 16) (syncActAt (t + 8 * i) write (Word.of (leNat ((data.drop (8 * i)).take 8)))) (some n) addr)
      (s.count (dlkPage n) 2 1)
  else ((s.count (dlkPage n) 3 1).syncBad).refuseRead n write addr len

/-- A request to the window of a peer port (R91, R92). -/
def State.inboundPeer (s : State) (n p q : Nat) (write : Bool) (addr len t : Nat) (data : List Byte) : State :=
  let open_ := decide (q < 6) && (s.reg (dlkPage n) 0x108).bit q && (s.reg (dlkPage q) 0x108).bit (8 + n) &&
    decide (t + len ≤ 0x10000000000)
  if !open_ then (s.inboundFailed n p addr).refuseRead n write addr len
  else if s.dportUp q then
    (((s.count (dlkPage n) 2 1).count (dlkPage n) 4 1).count (dlkPage q) 1 1).emit
      (.partnerAccess q write (windowBase q + t) len (data.take len))
  else (((s.count (dlkPage n) 3 1).latch (dlkPage n) 0 5 p true)).refuseRead n write addr len

/-- A memory request of a partner of a READY port: decoded by the inbound windows, checked, routed or refused. -/
def State.inboundRun (s : State) (n : Nat) (write : Bool) (addr len : Nat) (data : List Byte) : State :=
  match s.ownerOf tyPort n, s.windowOf n addr len with
  | some p, some i =>
    let ctl := s.reg (dlkPage n) (0x208 + 16 * i)
    let t := ctl.field 51 16 * 65536 + (addr - (s.reg (dlkPage n) (0x200 + 16 * i)).field 63 16 * 65536)
    if ctl.field 62 61 = 0 then s.inboundHbm n p write addr len t data
    else if ctl.field 62 61 = 1 then s.inboundSync n p write addr len t data
    else s.inboundPeer n p (ctl.field 60 58) write addr len t data
  | _, _ => (s.inboundUnmatched n).refuseRead n write addr len

/-- An inbound request: a port that takes none drops it (R90, R94), one whose entry holds its work keeps it (R38, R476). -/
def State.inbound (s : State) (n : Nat) (write : Bool) (addr len : Nat) (data : List Byte) : State :=
  if s.flt.safe then s
  else if !s.portIn n .ready then s.count (dlkPage n) 3 1
  else if s.entryHeld (dlkPage n) then s.updDport n (fun d => { d with inq := d.inq ++ [(write, addr, len, data)] })
  else s.inboundRun n write addr len data

/-- Requests held at a port's entry are taken in order of arrival (R38). -/
def State.inboundTake (s : State) (n : Nat) : State :=
  (s.dport n).inq.foldl (fun t r => t.inboundRun n r.1 r.2.1 r.2.2.1 r.2.2.2) (s.updDport n (fun d => { d with inq := [] }))

/-- INBOUND_REQUEST (R91). -/
def execInboundRequest (port : Nat) (write : Bool) (addr len : Nat) (data : List Byte) (s : State) :
    Host.Outcome State Fault Refusal :=
  .next (s.inbound port write addr len data)

/-! ## The rows of the sync-object aperture (R116) -/

/-- The partner address that an inbound window of TARGET 1 maps to an extent of the aperture. -/
def State.apertureAddr (s : State) (n off len : Nat) : Option Nat :=
  ((List.range 16).find? (fun i =>
    let ctl := s.reg (dlkPage n) (0x208 + 16 * i)
    let t := ctl.field 51 16 * 65536
    ctl.bit 63 && decide (ctl.field 62 61 = 1) && decide (t ≤ off) && decide (off + len ≤ t + 2 ^ ctl.field 57 52))).map (fun i =>
      (s.reg (dlkPage n) (0x200 + 16 * i)).field 63 16 * 65536 + (off - (s.reg (dlkPage n) (0x208 + 16 * i)).field 51 16 * 65536))

/-- A partner's access of the aperture is a request at the partner address of a window; without one it matches no window (R92). -/
def State.aperturePort (s : State) (n : Nat) (write : Bool) (off len : Nat) (data : List Byte) : State :=
  match s.apertureAddr n off len with
  | some a => s.inbound n write a len data
  | none =>
    if s.flt.safe then s
    else if s.portIn n .ready then (s.inboundUnmatched n).refuseRead n write off len
    else s.count (dlkPage n) 3 1

/-- SYNC_APERTURE_ADD: an aligned 64-bit write at 16 × n. -/
def execSyncApertureAdd (src : AptSrc) (obj : Nat) (val : Word) (s : State) : Host.Outcome State Fault Refusal :=
  .next (match src with
    | .p0 => s.syncP0 obj (16 * obj) (.add val)
    | .port n => s.aperturePort n true (16 * obj) 8 val.bytes)

/-- SYNC_APERTURE_SET: an aligned 64-bit write at 16 × n + 8. -/
def execSyncApertureSet (src : AptSrc) (obj : Nat) (val : Word) (s : State) : Host.Outcome State Fault Refusal :=
  .next (match src with
    | .p0 => s.syncP0 obj (16 * obj + 8) (.set val)
    | .port n => s.aperturePort n true (16 * obj + 8) 8 val.bytes)

/-- SYNC_APERTURE_READ: an aligned 64-bit read. -/
def execSyncApertureRead (src : AptSrc) (obj : Nat) (s : State) : Host.Outcome State Fault Refusal :=
  .next (match src with
    | .p0 => s.syncP0 obj (16 * obj) .read
    | .port n => s.aperturePort n false (16 * obj) 8 [])

/-- Whether R116 gives an access of the aperture an effect. -/
def apertureFits (write : Bool) (off len : Nat) : Bool :=
  decide (off % 8 = 0) && decide (len % 8 = 0) && decide (len ≠ 0) && (write || decide (len = 8))

/-- SYNC_APERTURE_BAD: an access of another size or alignment. -/
def execSyncApertureBad (src : AptSrc) (write : Bool) (off len : Nat) (s : State) : Host.Outcome State Fault Refusal :=
  .next (if apertureFits write off len then s
    else match src with
    | .p0 => s.apertureBad write off len
    | .port n => s.aperturePort n write off len [])

end Sys2Proof.Machine
end

