-- ==== Sys2Proof/Machine/Cipher.lean ====
section
/-! DEFINITION. The cipher engine: key contexts, nonces, messages, XTS, wrapping and saved contexts, SET_DOMAIN
(17_cipher_engine.md). -/

namespace Sys2Proof.Machine

/-! ## Key contexts (R341 to R345) -/

/-- The CPH page. -/
abbrev cphPage : Page := Blk.cph.page

/-- A key context by number. -/
def State.key (s : State) (k : Nat) : Key := Tab.get Key.empty s.cph.keys k

/-- Change a key context. -/
def State.setKey (s : State) (k : Nat) (x : Key) : State :=
  { s with cph := { s.cph with keys := Tab.set Key.empty s.cph.keys k x } }

/-- The limit that is meant: a stored 0 stands for the largest value (R344). -/
def limitMeant (l : Nat) : Nat := if l = 0 then 0xFFFFFFFFFFFFFFFF else l

/-- Remaining uses of a SEAL context (R344). -/
def Key.remaining (k : Key) : Nat := if k.state = .exhausted then 0 else limitMeant k.limit + 1 - k.counter

/-- CPH_KEY_LOW, when the remaining uses of a SEAL context first reach the threshold (R344, R355). -/
def State.keyLow (s : State) (k low : Nat) : State :=
  let x := s.key k
  if x.use = 0 ∧ x.lowSent = false ∧ x.remaining ≤ low then
    let s1 := s.setKey k { x with lowSent := true }
    match s.ownerOf tyKey k with
    | some p => s1.event p 0x0190 .ok k (Word.of (min x.remaining 0xFFFFFFFF)) (Word.of x.counter) (Word.of (limitMeant x.limit))
    | none => s1
  else s

/-- A context becomes EXHAUSTED (R344, R355, R356). -/
def State.keyExhausted (s : State) (k : Nat) : State :=
  let x := s.key k
  let s1 := (s.setKey k { x with state := .exhausted }).setIntBit cphPage 9
  match s.ownerOf tyKey k with
  | some p => s1.event p 0x0191 .ok k 0 (Word.of (limitMeant x.limit)) 0
  | none => s1

/-- A SEAL use of a READY context takes its counter value (R343, R344): the value, and the state after it. -/
def State.takeNonce (s : State) (k low : Nat) : Word × State :=
  let x := s.key k
  let s1 := s.count1 .cph 1
  if x.counter = limitMeant x.limit then
    (Word.of x.counter, ((s1.setKey k { x with state := .exhausted }).keyLow k low).keyExhausted k)
  else (Word.of x.counter, (s1.setKey k { x with counter := x.counter + 1 }).keyLow k low)

/-- Whether a use may go on: the context is resident, or is being fetched, or its fetch was poisoned (R342). -/
inductive KeyUse where
  | ready
  | wait
  | poisoned
  deriving DecidableEq, Repr

/-- Look a context up for a use: a miss starts its fetch (R342). -/
def State.keyUse (s : State) (k : Nat) : KeyUse × State :=
  if s.cph.resident.contains k then (.ready, s)
  else if s.cph.poisoned.contains k then
    (.poisoned, { s with cph := { s.cph with poisoned := s.cph.poisoned.filter (fun x => x ≠ k) } })
  else if s.cph.fetching.contains k then (.wait, s)
  else (.wait, ({ s with cph := { s.cph with fetching := s.cph.fetching ++ [k] } }).count1 .cph 5)

/-- A context is resident; the oldest of more than 65,536 makes room (DESIGN CHOICE, assumption 20). -/
def State.keyIn (s : State) (k : Nat) : State :=
  let l := s.cph.resident.filter (fun x => x ≠ k) ++ [k]
  { s with cph := { s.cph with resident := l.drop (l.length - 65536), fetching := s.cph.fetching.filter (fun x => x ≠ k),
                               poisoned := s.cph.poisoned.filter (fun x => x ≠ k) } }

/-- Random bytes from the host-side generator, one request (R361): n words of fresh values. -/
def State.draw (s : State) (n : Nat) : List Byte × State :=
  (wordsBytes ((List.range n).map (fun i => Config.freeWord (s.free + i))),
   { s with free := s.free + n, cph := { s.cph with rngServed := s.cph.rngServed + 1 } })

/-! ## Fields of descriptors of engine 8 (R354) -/

/-- KEY. -/
def cKey (ws : List Word) : Nat := wf ws 6 63 44
/-- FIRST. -/
def cFirst (ws : List Word) : Bool := wb ws 6 43
/-- LAST. -/
def cLast (ws : List Word) : Bool := wb ws 6 42
/-- LEN. -/
def cLen (ws : List Word) : Nat := wf ws 5 63 32
/-- AAD_LEN. -/
def cAad (ws : List Word) : Nat := wf ws 5 31 16
/-- Source address and its space. -/
def cSrc (ws : List Word) : Space × Nat := (spaceOf (wb ws 6 41) (wordAt ws 2).toNat, (wordAt ws 2).toNat)
/-- Destination address of SEAL, OPEN and XTS, and its space. -/
def cDst (ws : List Word) : Space × Nat := (spaceOf (wb ws 6 40) (wordAt ws 3).toNat, (wordAt ws 3).toNat)
/-- Associated data address and its space. -/
def cAadAt (ws : List Word) : Space × Nat := (spaceOf (wb ws 6 39) (wordAt ws 4).toNat, (wordAt ws 4).toNat)
/-- FIRST and LAST: a single use, which runs beside a message in progress (R346). -/
def cSingle (ws : List Word) : Bool := cFirst ws && cLast ws

/-- Whether p reaches an extent of a space; an empty extent is reached. -/
def State.reaches (s : State) (p : Nat) (v : Option Nat) (x : Space × Nat) (n : Nat) : Bool :=
  decide (n = 0) || s.mayReach p v x.1 x.2 n

/-- LOW_USES of the live set a descriptor runs under. -/
def State.lowUses (s : State) (w : Work) : Nat := (s.regFor cphPage w.gen 0x100).field 31 0

/-! ## SEAL and OPEN (R346, R347) -/

/-- Bytes that a segment reads at its source: OPEN's last segment reads the tag as well. -/
def segIn (enc : Bool) (ws : List Word) : Nat := cLen ws + (if !enc && cLast ws then 16 else 0)

/-- Bytes that a segment may write at its destination: SEAL's last segment writes the tag as well. -/
def segOut (enc : Bool) (ws : List Word) : Nat := cLen ws + (if enc && cLast ws then 16 else 0)

/-- The format checks of a segment (R346, R354). -/
def segFormatBad (enc : Bool) (ws : List Word) : Bool :=
  (!cFirst ws && decide (cAad ws ≠ 0)) || (!cLast ws && decide (cLen ws % 64 ≠ 0)) ||
  (!enc && !cFirst ws && (decide (wf ws 6 31 0 ≠ 0) || decide (wordAt ws 7 ≠ 0))) ||
  (decide ((wordAt ws 2) ≠ (wordAt ws 3)) &&
   shares (wb ws 6 41) (wordAt ws 2).toNat (segIn enc ws) (wb ws 6 40) (wordAt ws 3).toNat (segOut enc ws))

/-- The ownership checks of a segment. -/
def State.segAccessBad (s : State) (p : Nat) (v : Option Nat) (enc : Bool) (ws : List Word) : Bool :=
  !s.owns p tyKey (cKey ws) || !s.reaches p v (cSrc ws) (segIn enc ws) || !s.reaches p v (cDst ws) (segOut enc ws) ||
  !s.reaches p v (cAadAt ws) (cAad ws)

/-- Whether an earlier segment of the same context still runs: this one waits for it (R346). -/
def State.segWaits (s : State) (w : Work) : Bool :=
  !cSingle w.words &&
  ((s.work.takeWhile (fun x => !(decide (x.ring = w.ring) && decide (x.idx = w.idx)))).any (fun x =>
    decide (x.phase ≠ .done) && decide (dEngine x.words = 8) &&
    (decide (dOpcode x.words = 1) || decide (dOpcode x.words = 2)) && !cSingle x.words &&
    decide (cKey x.words = cKey w.words)))

/-- The state checks of a segment on its context (R344, R346, R354). -/
def segStateBad (enc : Bool) (ws : List Word) (x : Key) : Bool :=
  decide (x.state = .empty) || decide (x.use ≠ (if enc then 0 else 1)) ||
  (enc && cFirst ws && decide (x.state = .exhausted)) ||
  (!cSingle ws && (if cFirst ws then x.msg.isSome else x.msg.isNone))

/-- The message of a first segment before any data. -/
def freshMsg (nonce : Word) (salt : BitVec 32) : Msg := { nonce := nonce, salt := salt, aadLen := 0, done := 0, acc := 0 }

/-- Start a segment whose checks have passed on context x: the first takes the nonce (R343). -/
def State.segStart (s : State) (w : Work) (enc : Bool) (x : Key) : Msg × State :=
  let k := cKey w.words
  if cFirst w.words then
    let m := if enc then s.takeNonce k (s.lowUses w) else (wordAt w.words 7, s)
    let msg := freshMsg m.1 (if enc then x.salt else BitVec.ofNat 32 (wf w.words 6 31 0))
    (msg, if cSingle w.words then m.2 else m.2.setKey k { m.2.key k with msg := some msg })
  else (x.msg.getD (freshMsg 0 0), s)

/-- What a segment makes of its data: output bytes, the message after it, and whether a tag that it verified was good. -/
def segData (enc : Bool) (ws : List Word) (alg : Nat) (key : List Byte) (m : Msg) (aad data : List Byte) :
    List Byte × Msg × Bool :=
  let nonce := nonce96 m.salt m.nonce
  let payload := data.take (cLen ws)
  let acc0 := if cFirst ws then aeadAbsorb alg key nonce 0 aad else m.acc
  let out := aeadStream alg key nonce m.done payload
  let acc1 := aeadAbsorb alg key nonce acc0 (if enc then out else payload)
  let m1 : Msg := { m with aadLen := if cFirst ws then aad.length else m.aadLen, done := m.done + payload.length, acc := acc1 }
  if cLast ws then
    let tag := aeadTag alg key nonce acc1 m1.aadLen m1.done
    if enc then (out ++ tag, m1, true)
    else if tag = data.drop (cLen ws) then (out, m1, true) else (zeros (cLen ws), m1, false)
  else (out, m1, true)

/-- Deliver a segment's output and end it. -/
def State.segEnd (s : State) (w : Work) (enc : Bool) (m : Msg) (r : List Byte × Msg × Bool) : State :=
  let k := cKey w.words
  let d := cDst w.words
  let s1 := s.put d.1 w.vi d.2 r.1
  let s2 := if cSingle w.words then s1
    else if ((s1.key k).msg.map Msg.nonce) = some m.nonce then
      s1.setKey k { s1.key k with msg := if cLast w.words then none else some r.2.1 }
    else s1
  let s3 := if !enc && cLast w.words then s2.count1 .cph (if r.2.2 then 2 else 3) else s2
  if r.2.2 then
    s3.workDone w.ring w.idx .ok 0 (if enc then m.nonce else 0) (if enc then Word.of m.salt.toNat else 0)
  else s3.workFail w.ring w.idx .integrity

/-- Read a segment's data under the message it belongs to, and process it once it has arrived. -/
def State.segRun (s : State) (w : Work) (enc : Bool) (alg : Nat) (key : List Byte) (m : Msg) : State :=
  let aad := if cFirst w.words then [((cAadAt w.words).1, (cAadAt w.words).2, cAad w.words)] else []
  match s.fetchAll w (((cSrc w.words).1, (cSrc w.words).2, segIn enc w.words) :: aad) with
  | (some ds, s1) =>
    s1.whenUp (cDst w.words).1 w.vi (cDst w.words).2
      (s1.segEnd w enc m (segData enc w.words alg key m (ds.getD 1 []) (ds.getD 0 [])))
  | (none, s1) => s1

/-- The checks of a segment in the order of R39, and its start. -/
def State.segCheck (s : State) (w : Work) (enc : Bool) : State :=
  if segFormatBad enc w.words then s.workFail w.ring w.idx .format
  else if s.segAccessBad w.part w.vi enc w.words then s.workFail w.ring w.idx .accessViolation
  else if s.segWaits w then s
  else
    match s.keyUse (cKey w.words) with
    | (.wait, s1) => s1
    | (.poisoned, s1) => s1.workFail w.ring w.idx .poisoned
    | (.ready, s1) =>
      let x := s1.key (cKey w.words)
      if segStateBad enc w.words x then
        (if enc ∧ x.state = .exhausted then s1.count1 .cph 6 else s1).workFail w.ring w.idx .state
      else if 2 ^ 36 - 32 < (x.msg.map Msg.done).getD 0 + cLen w.words ∧ cFirst w.words = false then
        s1.workFail w.ring w.idx .format
      else
        let m := s1.segStart w enc x
        (m.2.updWork w.ring w.idx (fun y => { y with ctx := .cipher x.alg x.key m.1 })).segRun w enc x.alg x.key m.1

/-- Run a segment: its checks when it starts, and its data when they have arrived. -/
def State.segment (s : State) (w : Work) (enc : Bool) : State :=
  match w.ctx with
  | .cipher alg key m => s.segRun w enc alg key m
  | .none | .send _ _ _ | .read _ _ _ _ | .probe _ _ _ | .ingest _ _ _ _ _ | .contribute _ | .restore _ _ _ _ _ => s.segCheck w enc

/-- SEAL: encrypts and authenticates one segment (R346). -/
def execSeal (ring idx : Nat) (s : State) : Host.Outcome State Fault Refusal :=
  .next (s.runDesc ring idx 0x08 0x01 (fun w => s.segment w true))

/-- OPEN: decrypts one segment and verifies the tag on the last (R346, R347). -/
def execCphOpen (ring idx : Nat) (s : State) : Host.Outcome State Fault Refusal :=
  .next (s.runDesc ring idx 0x08 0x02 (fun w => s.segment w false))

/-! ## XTS (R348) -/

/-- The size of a data unit. -/
def xtsDu (ws : List Word) : Nat := if wb ws 5 31 then 4096 else 512

/-- The checks of an XTS operation but for its context (R354). -/
def State.xtsCheck (s : State) (p : Nat) (v : Option Nat) (ws : List Word) : Status :=
  firstFail [
    (decide (cLen ws = 0) || decide (cLen ws % xtsDu ws ≠ 0) ||
      (decide (wordAt ws 2 ≠ wordAt ws 3) &&
       shares (wb ws 6 41) (wordAt ws 2).toNat (cLen ws) (wb ws 6 40) (wordAt ws 3).toNat (cLen ws)), .format),
    (!s.owns p tyKey (cKey ws) || !s.reaches p v (cSrc ws) (cLen ws) || !s.reaches p v (cDst ws) (cLen ws), .accessViolation)]

/-- Process the data units of an XTS operation under a key. -/
def State.xtsRun (s : State) (w : Work) (enc : Bool) (key : List Byte) : State :=
  match s.fetchAll w [((cSrc w.words).1, (cSrc w.words).2, cLen w.words)] with
  | (some ds, s1) =>
    let out := xtsUnits enc key (xtsDu w.words) (wordAt w.words 4).toNat (ds.getD 0 [])
    s1.whenUp (cDst w.words).1 w.vi (cDst w.words).2
      (((s1.put (cDst w.words).1 w.vi (cDst w.words).2 out).count cphPage 4 (cLen w.words / xtsDu w.words)).workDone
        w.ring w.idx .ok 0 0 0)
  | (none, s1) => s1

/-- Run an XTS operation. -/
def State.xts (s : State) (w : Work) (enc : Bool) : State :=
  match w.ctx with
  | .cipher _ key _ => s.xtsRun w enc key
  | .none | .send _ _ _ | .read _ _ _ _ | .probe _ _ _ | .ingest _ _ _ _ _ | .contribute _ | .restore _ _ _ _ _ =>
    match s.xtsCheck w.part w.vi w.words with
    | .ok =>
      match s.keyUse (cKey w.words) with
      | (.wait, s1) => s1
      | (.poisoned, s1) => s1.workFail w.ring w.idx .poisoned
      | (.ready, s1) =>
        let x := s1.key (cKey w.words)
        if x.state ≠ .ready ∨ x.use ≠ 2 then s1.workFail w.ring w.idx .state
        else (s1.updWork w.ring w.idx (fun y => { y with ctx := .cipher x.alg x.key (freshMsg 0 0) })).xtsRun w enc x.key
    | st => s.workFail w.ring w.idx st

/-- XTS_ENC (R348). -/
def execXtsEnc (ring idx : Nat) (s : State) : Host.Outcome State Fault Refusal :=
  .next (s.runDesc ring idx 0x08 0x03 (fun w => s.xts w true))

/-- XTS_DEC (R348). -/
def execXtsDec (ring idx : Nat) (s : State) : Host.Outcome State Fault Refusal :=
  .next (s.runDesc ring idx 0x08 0x04 (fun w => s.xts w false))

/-! ## Loading and clearing keys (R340, R344, R354) -/

/-- Whether an ALG allows a USE (R340). -/
def useAllowed (alg use : Nat) : Bool :=
  (decide (alg < 3) && decide (use < 2)) || (decide (alg = 3) && decide (use = 2))

/-- Whether 64 key bytes break the rules of R354: bytes beyond the key length, or equal halves of an XTS key. -/
def keyBad (alg : Nat) (key : List Byte) : Bool :=
  decide (key.drop (keyBytes alg) ≠ zeros (64 - keyBytes alg)) || (decide (alg = 3) && decide (key.take 32 = key.drop 32))

/-- Load 64 key bytes into an EMPTY context (R344). -/
def State.keyPut (s : State) (w : Work) (key : List Byte) : State :=
  let k := cKey w.words
  if keyBad (wf w.words 3 31 28) key then s.workFail w.ring w.idx .format
  else if (s.key k).state ≠ .empty then s.workFail w.ring w.idx .state
  else
    ((((s.setKey k { Key.empty with
      state := .ready, alg := wf w.words 3 31 28, use := wf w.words 3 27 26, key := key,
      salt := BitVec.ofNat 32 (wf w.words 3 63 32), limit := (wordAt w.words 4).toNat }).keyIn k).keyLow k
        (s.lowUses w))).workDone w.ring w.idx .ok 0 0 0

/-- Run KEY_LOAD. -/
def State.keyLoad (s : State) (w : Work) : State :=
  let ws := w.words
  match firstFail [(!useAllowed (wf ws 3 31 28) (wf ws 3 27 26), .format),
      (!s.owns w.part tyKey (cKey ws) || !s.reaches w.part w.vi (cSrc ws) 64, .accessViolation)] with
  | .ok =>
    match s.fetch w (cSrc ws).1 (cSrc ws).2 64 with
    | .got key => s.keyPut w key
    | .wait s1 => s1
  | st => s.workFail w.ring w.idx st

/-- KEY_LOAD: loads a key, salt, algorithm, use and limit into an EMPTY context (R344, R354). -/
def execKeyLoad (ring idx : Nat) (s : State) : Host.Outcome State Fault Refusal :=
  .next (s.runDesc ring idx 0x08 0x05 (fun w => s.keyLoad w))

/-- Run KEY_GEN. -/
def State.keyGen (s : State) (w : Work) : State :=
  let ws := w.words
  match firstFail [(!useAllowed (wf ws 3 31 28) (wf ws 3 27 26), .format),
      (!s.owns w.part tyKey (cKey ws), .accessViolation)] with
  | .ok =>
    let d := s.draw (keyBytes (wf ws 3 31 28) / 8)
    d.2.keyPut w (d.1 ++ zeros (64 - d.1.length))
  | st => s.workFail w.ring w.idx st

/-- KEY_GEN: generates a key by the device random bit generator (R344, R354). -/
def execKeyGen (ring idx : Nat) (s : State) : Host.Outcome State Fault Refusal :=
  .next (s.runDesc ring idx 0x08 0x06 (fun w => s.keyGen w))

/-- Whether a namespace that is not EMPTY names a context (R321, R354). -/
def State.nsNames (s : State) (k : Nat) : Bool :=
  s.sto.nss.any (fun e => decide (e.2.state ≠ .empty) && decide (e.2.key = k))

/-- Run KEY_CLEAR: a context that is EMPTY stays as it is. -/
def State.keyClear (s : State) (w : Work) : State :=
  let k := cKey w.words
  match firstFail [(!s.owns w.part tyKey k, .accessViolation), (s.nsNames k, .state)] with
  | .ok => (s.setKey k Key.empty).workDone w.ring w.idx .ok 0 0 0
  | st => s.workFail w.ring w.idx st

/-- KEY_CLEAR (R354). -/
def execKeyClear (ring idx : Nat) (s : State) : Host.Outcome State Fault Refusal :=
  .next (s.runDesc ring idx 0x08 0x07 (fun w => s.keyClear w))

/-- The code of a key context's state (R341). -/
def KeyState.code : KeyState → Nat
  | .empty => 0 | .ready => 1 | .exhausted => 2

/-- KEY_QUERY: returns a context's state, algorithm, use, message flag, salt and counter (R354). -/
def execKeyQuery (ring idx : Nat) (s : State) : Host.Outcome State Fault Refusal :=
  .next (s.runDesc ring idx 0x08 0x0A (fun w =>
    if s.owns w.part tyKey (cKey w.words) then
      let x := s.key (cKey w.words)
      let r0 := (((((0 : Word).setField 63 62 x.state.code).setField 61 58 x.alg).setField 57 56 x.use).setBit 55
        x.msg.isSome).setField 31 0 x.salt.toNat
      s.workDone ring idx .ok 0 r0 (Word.of x.counter)
    else s.workFail ring idx .accessViolation))

/-! ## Saved contexts (R351 to R353) -/

/-- Whether debug is unlocked (TRS.DEBUG.LOCKED = 0). -/
def State.debugOpen (s : State) : Bool := !(s.reg Blk.trs.page 0x110).bit 63

/-- The wrapping key of a partition (R351), where the device wrapping key is installed. -/
def State.wrapKey (s : State) (p : Nat) : Option (List Byte) :=
  s.cph.dwk.map (fun d => ((Config.wrapKey d p (s.part p).wrapDomain s.debugOpen) ++ zeros 32).take 32)

/-- Words 15 to 17 of a record: the authentication accumulator (R352). GCM's is a number whose first bit is its most
significant; its 16 bytes lie in the block's own order. -/
def accWords (alg acc : Nat) : List Word :=
  if algChacha alg then bytesWords 3 (leBytes 24 acc) else bytesWords 3 (beBytes 16 acc ++ zeros 8)

/-- The accumulator that words 15 to 17 hold. -/
def accOf (alg : Nat) (ws : List Word) : Nat :=
  if algChacha alg then leNat (wordsBytes ws) else beNat ((wordsBytes ws).take 16)

/-- The salt a record carries: that of the message in progress, of which an OPEN context's own salt is no part (DEDUCED,
assumption 21). -/
def Key.savedSalt (x : Key) : BitVec 32 := (x.msg.map Msg.salt).getD x.salt

/-- The 192 bytes of a blob record (R352). -/
def recordPlain (p : Nat) (x : Key) : List Byte :=
  let w0 := ((((((((0 : Word).setField 63 32 0x43504B31).setField 31 24 1).setField 23 20 x.alg).setField 19 18 x.use).setBit 17
    x.msg.isSome).setField 16 10 p).setBit 9 (decide (x.state = .exhausted)))
  let m := match x.msg with
    | some m => [m.nonce, Word.of m.aadLen, Word.of m.done] ++ accWords x.alg m.acc
    | none => [0, 0, 0, 0, 0, 0]
  wordsBytes ([w0, Word.of x.counter, Word.of x.limit, (0 : Word).setField 63 32 x.savedSalt.toNat] ++
    bytesWords 8 x.key ++ m ++ [0, 0, 0, 0, 0, 0])

/-- Run SAVE. -/
def State.saveKey (s : State) (w : Work) : State :=
  let ws := w.words
  let k := cKey ws
  let clear := wb ws 3 0
  let at_ : Space × Nat := (spaceOf (wb ws 6 40) (wordAt ws 2).toNat, (wordAt ws 2).toNat)
  match firstFail [
      (decide (at_.2 % 64 ≠ 0), .format),
      (!s.owns w.part tyKey k || !s.reaches w.part w.vi at_ 256 || (clear && decide (w.part ≠ 0)), .accessViolation),
      (decide ((s.key k).state = .empty) || s.nsNames k, .state)] with
  | .ok =>
    let plain := recordPlain w.part (s.key k)
    if clear then
      s.whenUp at_.1 w.vi at_.2
        (((s.put at_.1 w.vi at_.2 (plain ++ zeros 64)).setKey k Key.empty).workDone w.ring w.idx .ok 0 0 0)
    else
      match s.wrapKey w.part with
      | some key =>
        s.whenUp at_.1 w.vi at_.2
          (((s.put at_.1 w.vi at_.2 (kwWrap key 24 plain ++ zeros 56)).setKey k Key.empty).workDone w.ring w.idx .ok 0 0 0)
      | none => s.workFail w.ring w.idx .state
  | st => s.workFail w.ring w.idx st

/-- SAVE: writes a context's blob record, wrapped or clear, and makes it EMPTY (R353). -/
def execSave (ring idx : Nat) (s : State) : Host.Outcome State Fault Refusal :=
  .next (s.runDesc ring idx 0x08 0x08 (fun w => s.saveKey w))

/-- Whether a record's words break R352 and R353: magic, algorithm, use, a bit that must be 0, or EXH against COUNTER and
LIMIT. -/
def recordBad (ws : List Word) (tail : List Byte) : Bool :=
  let alg := wf ws 0 23 20
  let use := wf ws 0 19 18
  let exh := wb ws 0 9
  let lim := limitMeant (wordAt ws 2).toNat
  decide (wf ws 0 63 32 ≠ 0x43504B31) || !useAllowed alg use || decide (wf ws 0 8 0 ≠ 0) || decide (wf ws 3 31 0 ≠ 0) ||
  (ws.drop 18).any (fun x => x ≠ 0) || decide (tail ≠ zeros tail.length) || keyBad alg ((wordsBytes (ws.drop 4)).take 64) ||
  decide (wf ws 17 63 (if algChacha alg then 2 else 0) ≠ 0) ||
  (!wb ws 0 17 && ((ws.drop 12).take 6).any (fun x => x ≠ 0)) ||
  (exh && (decide (use ≠ 0) || decide ((wordAt ws 1).toNat ≠ lim))) || (!exh && decide (lim < (wordAt ws 1).toNat))

/-- The context that a record holds (R352, R353). -/
def keyOfRecord (ws : List Word) : Key :=
  let alg := wf ws 0 23 20
  let salt := BitVec.ofNat 32 (wf ws 3 63 32)
  { state := if wb ws 0 9 then .exhausted else .ready, alg := alg, use := wf ws 0 19 18,
    key := (wordsBytes (ws.drop 4)).take 64, salt := salt, counter := (wordAt ws 1).toNat, limit := (wordAt ws 2).toNat,
    lowSent := wb ws 0 9,
    msg := if wb ws 0 17 then
        some { nonce := wordAt ws 12, salt := salt, aadLen := (wordAt ws 13).toNat, done := (wordAt ws 14).toNat,
               acc := accOf alg ((ws.drop 15).take 3) }
      else none }

/-- Take a record that has been read and unwrapped into an EMPTY context (R353). -/
def State.restoreRecord (s : State) (w : Work) (ws : List Word) (tail : List Byte) : State :=
  let k := cKey w.words
  match firstFail [(recordBad ws tail, .format), (decide (wf ws 0 31 24 ≠ 1), .version),
      (decide (wf ws 0 16 10 ≠ w.part), .accessViolation), (decide ((s.key k).state ≠ .empty), .state)] with
  | .ok => (((s.setKey k (keyOfRecord ws)).keyIn k).keyLow k (s.lowUses w)).workDone w.ring w.idx .ok 0 0 0
  | st => s.workFail w.ring w.idx st

/-- Run RESTORE. -/
def State.restoreKey (s : State) (w : Work) : State :=
  let ws := w.words
  let clear := wb ws 3 0
  match firstFail [
      (decide ((cSrc ws).2 % 64 ≠ 0), .format),
      (!s.owns w.part tyKey (cKey ws) || !s.reaches w.part w.vi (cSrc ws) 256 || (clear && decide (w.part ≠ 0)), .accessViolation)] with
  | .ok =>
    match s.fetch w (cSrc ws).1 (cSrc ws).2 256 with
    | .wait s1 => s1
    | .got bs =>
      if clear then s.restoreRecord w (bytesWords 24 bs) (bs.drop 192)
      else
        match s.wrapKey w.part with
        | some key =>
          match kwUnwrap key 24 (bs.take 200) with
          | some plain => s.restoreRecord w (bytesWords 24 plain) (bs.drop 200)
          | none => s.workFail w.ring w.idx .integrity
        | none => s.workFail w.ring w.idx .state
  | st => s.workFail w.ring w.idx st

/-- RESTORE: reads a blob record into an EMPTY context (R353). -/
def execCphRestore (ring idx : Nat) (s : State) : Host.Outcome State Fault Refusal :=
  .next (s.runDesc ring idx 0x08 0x09 (fun w => s.restoreKey w))

/-! ## SET_DOMAIN (R351, R356) -/

/-- Run a CPH command word. -/
def cphRun (val : Word) (s : State) : State :=
  let op := val.field 31 24
  let p := val.field 6 0
  if op ≠ 1 then s.cmdEnd .cph op p .format
  else if (s.part p).state ≠ .building then s.cmdEnd .cph op p .state
  else (s.setPart p { s.part p with wrapDomain := s.reg cphPage 0x140 }).cmdEnd .cph op p .ok

/-- SET_DOMAIN: sets the WRAP_DOMAIN of a BUILDING partition (R356). -/
def execSetDomain (part : Nat) (s : State) : Host.Outcome State Fault Refusal :=
  .next (s.takeCmd .cph (((0 : Word).setField 31 24 1).setField 6 0 part) cphRun)

end Sys2Proof.Machine
end

