-- ==== Sys2Proof/Machine/MlrLink.lean ====
section
/-! DEFINITION. Millrace: paths, congestion, selective repeat, acknowledgements, resident contexts, the states of a connection,
spate channels and the commands of the MLR page (07_millrace_transport.md). What arriving packets do to memory lies in
Rma.lean. -/

namespace Sys2Proof.Machine

/-! ## Settings (MLR page) -/

/-- The MLR page. -/
abbrev mlrPage : Page := Blk.mlr.page
/-- A staged register of the page as the packet in hand sees it (R38). -/
def State.mlrSet (s : State) (off : Nat) : Word := s.regFor mlrPage (s.mlr.rxGen.getD (s.applied mlrPage)) off
/-- Do f under the set of a generation. -/
def State.underGen (s : State) (gen : Nat) (f : State → State) : State :=
  let t := f { s with mlr := { s.mlr with rxGen := some gen } }
  { t with mlr := { t.mlr with rxGen := s.mlr.rxGen } }
/-- The generation under which the packet in hand started. -/
def State.rxGenNow (s : State) : Nat := s.mlr.rxGen.getD (s.applied mlrPage)
/-- ACKCFG.ACK_EVERY. -/
def State.ackEvery (s : State) : Nat := (s.mlrSet 0x108).field 63 48
/-- ACKCFG.ACK_DELAY. -/
def State.ackDelay (s : State) : Nat := (s.mlrSet 0x108).field 47 32
/-- ACKCFG.REORDER_WIN. -/
def State.reorderWin (s : State) : Nat := (s.mlrSet 0x108).field 31 0
/-- RTO.RTO_MIN. -/
def State.rtoMin (s : State) : Nat := (s.mlrSet 0x110).field 63 32
/-- RTO.RTO_MAX. -/
def State.rtoMax (s : State) : Nat := (s.mlrSet 0x110).field 31 0
/-- CC.RETRY_MAX. -/
def State.retryMax (s : State) : Nat := (s.mlrSet 0x118).field 23 16
/-- CC_TIME.PATH_HOLD. -/
def State.pathHold (s : State) : Nat := (s.mlrSet 0x120).field 63 32
/-- CC_TIME.CUT_GAP. -/
def State.cutGap (s : State) : Nat := (s.mlrSet 0x120).field 31 0
/-- PORT_CFG.DPORT. -/
def State.dport16 (s : State) : Nat := (s.reg mlrPage 0x100).field 15 0

/-- Whether a connection is in a state in which it sends and receives. -/
def Conn.live (x : Conn) : Bool := decide (x.state = .active) || decide (x.state = .closing)

/-! ## Paths (R136, R137) -/

/-- Whether a path is held at a PKT cycle. -/
def Conn.held (x : Conn) (now p : Nat) : Bool :=
  match Tab.find x.pathHeld p with
  | some e => decide (now < e)
  | none => false

/-- The path of earliest end of hold among all paths. -/
def Conn.firstFree (x : Conn) (k : Nat) : Nat :=
  match k with
  | 0 => 0
  | k + 1 =>
    let b := x.firstFree k
    if (Tab.find x.pathHeld (k + 1)).getD 0 < (Tab.find x.pathHeld b).getD 0 then k + 1 else b

/-- The path of the next packet: the next in rotation that is not held; where all are, the one whose hold ends first. -/
def Conn.nextPath (x : Conn) (now : Nat) : Nat :=
  let n := x.pathsM1 + 1
  (((List.range n).map (fun i => (x.lastPath + 1 + i) % n)).find? (fun p => !x.held now p)).getD (x.firstFree x.pathsM1)

/-- A path is held for PATH_HOLD from now (R137). -/
def State.holdPath (s : State) (c p : Nat) : State :=
  s.updConn c (fun x => { x with pathHeld := Tab.insert x.pathHeld p (s.clk.pkt + s.pathHold) })

/-! ## Congestion (R139) -/

/-- The lower bound L of CWND. -/
def State.cwndLow (s : State) (x : Conn) : Nat := min ((s.mlrSet 0x118).field 47 32) x.window

/-- Cut CWND, unless the previous cut lies within CUT_GAP. -/
def State.cwndCut (s : State) (c : Nat) : State :=
  s.updConn c (fun x =>
    let free := match x.lastCut with
      | some t => decide (t + s.cutGap ≤ s.clk.pkt)
      | none => true
    if free then
      { x with cwnd := max (s.cwndLow x) (x.cwnd - x.cwnd / 2 ^ (s.mlrSet 0x118).field 31 28), lastCut := some s.clk.pkt }
    else x)

/-- One packet newly acknowledged: the credit grows, and with it CWND. -/
def Conn.credited (x : Conn) : Conn :=
  if x.cwnd ≤ x.credit + 1 then { x with credit := x.credit + 1 - x.cwnd, cwnd := min (x.cwnd + 1) x.window }
  else { x with credit := x.credit + 1 }

/-! ## Building packets (R118, R119, R121, R343, R349) -/

/-- What an attempt to transmit comes to: the packet has left; it waits for its key context or for room in its leaf, and is not
built (R202, R204, R342); or the context refuses. -/
inductive Sent where
  | sent
  | wait
  | refused
  deriving DecidableEq, Repr

/-- Seal a packet under a transmit key context: the packet with salt, nonce counter, ciphertext and tag. A context that is not a
READY one of USE SEAL refuses (R349); a poisoned fetch fails the use (R342). -/
def State.sealPkt (s : State) (k typ : Nat) (p : MlrPacket) : Sent × MlrPacket × State :=
  match s.keyUse k with
  | (.wait, s1) => (.wait, p, s1)
  | (.poisoned, s1) => (.refused, p, s1)
  | (.ready, s1) =>
    let x := s1.key k
    if x.state = .ready ∧ x.use = 0 ∧ x.alg ≠ 3 then
      let t := s1.takeNonce k ((s1.reg cphPage 0x100).field 31 0)
      let q := { p with salt := x.salt, nonce := t.1 }
      let r := aeadSeal x.alg x.key (nonce96 x.salt t.1) (mlrHeader typ q ++ q.ext) q.payload
      (.sent, { q with payload := r.1, tag := BitVec.ofNat 128 (beNat r.2) }, t.2)
    else (.refused, p, s1)

/-- Bytes of a Millrace packet from its header to its tag (R142). -/
def mlrSize (p : MlrPacket) : Nat := 48 + p.ext.length + p.payload.length

/-- The length of the frame of a Millrace packet on the port of a leaf, with its FCS; sealing does not change it. -/
def State.mlrFrame (s : State) (leaf : Nat) (p : MlrPacket) : Nat :=
  let port := ((s.leaf leaf).port).getD 0
  14 + 4 * (s.reg ⟨.ept, port⟩ 0x118).field 63 62 + (if p.v6 then 40 else 20) + 8 + mlrSize p + 4

/-- Hand a sealed packet to a leaf that admits it. -/
def State.mlrSubmit (s : State) (leaf typ seed dscp : Nat) (ecn : Bool) (path : Nat) (p : MlrPacket) (desc : Option (Nat × Nat)) :
    State :=
  s.enqueue leaf (s.mlrFrame leaf p) (.millrace typ p (0xC000 + (seed + path) % 0x4000) s.dport16 dscp ecn) desc

/-- The source address of a partition's packets (R119). -/
def Part.mlrSrc (p : Part) (v4 : Bool) : BitVec 128 :=
  match p.mlr with
  | some m => if v4 then m.ip4.setWidth 128 else m.ip6
  | none => 0

/-- Build and transmit one packet of a connection on a path; echo names the path that an ACK or SACK echoes (R138). -/
def State.connOut (s : State) (c path typ : Nat) (psn : BitVec 32) (retx areq : Bool) (echo : Option Nat) (ext payload : List Byte) :
    Sent × State :=
  let x := s.conn c
  let p : MlrPacket :=
    { ipSrc := (s.part x.part).mlrSrc x.v4, ipDst := x.peer, v6 := !x.v4, ce := false, ver := 1, rsvClear := true, lenOk := true,
      ece := echo.isSome, retx := retx, areq := areq, dstConn := x.peerConn, path := echo.getD path, psn := psn,
      ackPsn := x.rxNext, salt := 0, nonce := 0, srcConn := c, ext := ext, payload := payload, tag := 0 }
  if !s.admits x.leaf (s.mlrFrame x.leaf p) then (.wait, s.waitAt x.leaf (.conn c))
  else
    match s.sealPkt x.txKey typ p with
    | (.sent, q, s1) => (.sent, s1.mlrSubmit x.leaf typ x.sportSeed x.dscp x.ecnEn path q none)
    | (r, _, s1) => (r, s1)

/-- Transmit one packet on the next path in rotation. -/
def State.connNext (s : State) (c typ : Nat) (psn : BitVec 32) (retx areq : Bool) (echo : Option Nat) (ext payload : List Byte) :
    Sent × State :=
  let path := (s.conn c).nextPath s.clk.pkt
  match s.connOut c path typ psn retx areq echo ext payload with
  | (.sent, s1) => (.sent, s1.updConn c (fun x => { x with lastPath := path }))
  | (r, s1) => (r, s1)

/-! ## The end of a connection (R128, R149, R158) -/

/-- Whether a descriptor in progress runs on a connection: PROBE, WRITE, READ. -/
def Work.onConn (w : Work) (c : Nat) : Bool :=
  decide (w.phase ≠ .done) && decide (w.ctx ≠ .none) &&
  ((decide (dEngine w.words = 1) && decide (dOpcode w.words = 4) && decide (wf w.words 2 23 0 = c)) ||
   (decide (dEngine w.words = 2) && (decide (dOpcode w.words = 1) || decide (dOpcode w.words = 2)) && decide (rConn w.words = c)))

/-- The owners of a connection's packets, sent or not. -/
def Conn.owners (x : Conn) : List PktOwner := x.tx.map (fun p => p.owner) ++ x.outq.map (fun p => p.owner)

/-- The end of an owner's packet with a status that is not OK: a WRITE records the failure of packet i, a READ ends, a reduction
group fails (R246), an attention response is not delivered, a step's write fails (R305). -/
def State.ownerFailed (s : State) (o : PktOwner) (st : Status) : State :=
  match o with
  | .work ring idx i =>
    match s.workAt ring idx with
    | some w =>
      match w.ctx with
      | .send next stopAt fails =>
        (s.updWork ring idx (fun v => { v with ctx := .send next stopAt (fails ++ [(i, st)]) })).writeSettle ring idx
      | .read _ _ _ _ => s.workFail ring idx st
      | .restore _ _ _ _ _ => s.restoreFail ring idx st
      | .none | .probe _ _ _ | .ingest _ _ _ _ _ | .contribute _ | .cipher _ _ _ => s
    | none => s
  | .serve _ => s
  | .emit key _ _ => s.failGroup key st
  | .response id => s.responseAcked id st
  | .step sid _ => s.stepWriteFailed sid st

/-- What leaving ACTIVE does to those that send on a connection (R246, R305). -/
def State.connLeft (s : State) (c : Nat) (st : Status) : State :=
  let s1 := (s.xrd.groups.filter (fun g => g.2.state ≠ .failed && g.2.emits.any (fun e => e.conn = c))).foldl
    (fun t g => t.failGroup g.1 .state) s
  (s1.ckp.steps.filter (fun x => x.remote && x.conn = c)).foldl (fun t x => t.stepTargetLost x.sid st) s1

/-- Forget what a connection holds and is still sending. -/
def Conn.drained (x : Conn) (st : ConnState) : Conn :=
  { x with state := st, tx := [], outq := [], rxPkts := [], serves := [], rxBits := [], stalls := [], ackDue := none,
           ecePaths := [] }

/-- A context that is no longer open leaves the resident slots, with its fetch and its held packets. -/
def State.connOutOf (s : State) (c : Nat) : State :=
  { s with mlr := { s.mlr with
      resident := s.mlr.resident.filter (fun x => x ≠ c), fetching := s.mlr.fetching.filter (fun x => x ≠ c),
      missWait := s.mlr.missWait.filter (fun x => x ≠ c), held := s.mlr.held.filter (fun h => h.conn ≠ c ∨ h.typ = 9) } }

/-- A connection ends without grace: its held packets and its packets in flight are discarded, descriptors on it end with a
status, and so do the groups, responses, steps and container reads that send on it. A CLOSED one is no longer resident. -/
def State.connDrop (s : State) (c : Nat) (dest : ConnState) (st : Status) : State :=
  let x := s.conn c
  let s1 : State := { s with mlr := { s.mlr with held := s.mlr.held.filter (fun h => h.conn ≠ c ∨ h.typ = 9) } }
  let s2 := s1.setConn c (x.drained dest)
  let s3 := (s2.work.filter (fun w => w.onConn c)).foldl (fun t w => t.workFail w.ring w.idx st) s2
  let s4 := (s3.work.filter (fun w => w.restoresOn c)).foldl (fun t w => t.restoreFail w.ring w.idx st) s3
  let s5 := x.owners.foldl (fun t o => match o with
    | .response id => t.responseAcked id st
    | .work _ _ _ | .serve _ | .emit _ _ _ | .step _ _ => t) s4
  let s6 := s5.connLeft c st
  match dest with
  | .closed => s6.connOutOf c
  | .active | .error | .closing => s6

/-- A connection enters ERROR for a cause (R128, R149). -/
def State.connError (s : State) (c cause : Nat) (st : Status) : State :=
  let s1 := (s.updConn c (fun x => { x with cause := cause })).connDrop c .error st
  (s1.setIntBit mlrPage 9).event (s.conn c).part 0x0110 .ok c (Word.of cause) 0 0

/-- A packet exceeds RETRY_MAX (R128, R134). -/
def State.connRetries (s : State) (c : Nat) : State :=
  if (s.conn c).state = .closing then s.connDrop c .closed .timeout else s.connError c 1 .timeout

/-- Carry on after an attempt to transmit: a refusal is cause 2. -/
def State.connTried (s : State) (c : Nat) (r : Sent) : State :=
  match r with
  | .sent | .wait => s
  | .refused => s.connError c 2 .state

/-! ## Control packets (R124, R131, R135, R138) -/

/-- Send a control packet now; one that waits for its key context keeps its place before data packets. -/
def State.sendCtrl (s : State) (c typ : Nat) (ext : List Byte) : State :=
  match s.connNext c typ (s.conn c).txNext false false none ext [] with
  | (.wait, s1) => s1.updConn c (fun x => { x with outq := { typ := typ, ext := ext, payload := [], owner := .serve 0 } :: x.outq })
  | (r, s1) => s1.connTried c r

/-- Refuse a packet with a NAK. -/
def State.sendNak (s : State) (c : Nat) (psn : BitVec 32) (code : Status) (hint : Nat) : State :=
  s.sendCtrl c 7 (beBytes 4 psn.toNat ++ beBytes 1 code.code ++ [0, 0, 0] ++ beBytes 4 hint ++ [0, 0, 0, 0])

/-- Whether the receiver holds a gap: a PSN received beyond one that has not been (R131). -/
def Conn.gap (x : Conn) : Bool := x.rxBits.any (fun b => !x.rxBits.contains (b - 1) && decide (b ≠ x.rxNext))

/-- MAP (R125): bit k for ACK_PSN + 1 + k, most significant bit of each byte first. -/
def Conn.map (x : Conn) : List Byte :=
  (List.range 32).map (fun i => BitVec.ofNat 8 ((List.range 8).foldl (fun a j =>
    2 * a + (if x.rxBits.contains (x.rxNext + BitVec.ofNat 32 (1 + 8 * i + j)) then 1 else 0)) 0))

/-- Send an ACK, or a SACK where there is a gap, with the echo of one path: the path named, else one that waits for it (R138). -/
def State.sendAck (s : State) (c : Nat) (path : Option Nat) : State :=
  let x := s.conn c
  let echo := path.or x.ecePaths.head?
  let gap := x.gap
  match s.connNext c (if gap then 6 else 5) x.txNext false false echo (if gap then x.map else []) [] with
  | (.sent, s1) => s1.updConn c (fun y => { y with
      ackCount := 0, ackDue := none, sackSent := gap, ecePaths := y.ecePaths.filter (fun p => some p ≠ echo),
      eceSent := match echo with
        | some p => Tab.insert y.eceSent p s.clk.pkt
        | none => y.eceSent })
  | (.wait, s1) => s1.updConn c (fun y => { y with ackDue := some s.clk.pkt })
  | (.refused, s1) => s1.connTried c .refused

/-! ## The receive side (R130, R131, R138, R157) -/

/-- Whether a held WRITE_LAST keeps RX_NEXT from passing a PSN (R157). -/
def Conn.lastHeld (x : Conn) (psn : BitVec 32) : Bool := x.rxPkts.any (fun p => decide (p.psn = psn) && decide (p.typ = 2))

/-- Advance RX_NEXT past every PSN whose bit is set; k bounds the advance. -/
def Conn.advance (x : Conn) (k : Nat) : Conn :=
  match k with
  | 0 => x
  | k + 1 =>
    if x.rxBits.contains x.rxNext && !x.lastHeld x.rxNext then
      { x with rxNext := x.rxNext + 1, rxBits := x.rxBits.filter (fun b => b ≠ x.rxNext) }.advance k
    else x

/-- Whether an echo of a path has been sent within the last ACK_DELAY. -/
def State.echoed (s : State) (x : Conn) (path : Nat) : Bool :=
  match Tab.find x.eceSent path with
  | some t => decide (s.clk.pkt < t + s.ackDelay)
  | none => false

/-- A connection after the bit of a PSN has been set. -/
def Conn.mark (x : Conn) (psn : BitVec 32) : Conn :=
  { x with rxBits := if x.rxBits.contains psn then x.rxBits else x.rxBits ++ [psn] }.advance (x.rxBits.length + 1)

/-- The bit of a PSN is set, and what acknowledgement that causes: at once on AREQ, on the opening of a gap, on an advance past a
reported gap, on a CE mark of a path not echoed lately, or at ACK_EVERY; otherwise after ACK_DELAY (R131, R138). -/
def State.rxSet (s : State) (c : Nat) (psn : BitVec 32) (now ce : Bool) (path : Nat) : State :=
  let x := s.conn c
  let y := x.mark psn
  let fresh := ce && !s.echoed x path
  let s1 := s.setConn c { y with
    ackCount := y.ackCount + 1, ackDue := some (y.ackDue.getD (s.clk.pkt + s.ackDelay)),
    ecePaths := if ce && !x.ecePaths.contains path then y.ecePaths ++ [path] else y.ecePaths }
  if now || (y.gap && !x.gap) || (x.sackSent && decide (y.rxNext ≠ x.rxNext)) || fresh || decide (s.ackEvery ≤ y.ackCount + 1) then
    s1.sendAck c (if fresh then some path else none)
  else s1

/-- A WRITE_LAST has been placed: its bit is set, unless it was when the packet was held, RX_NEXT passes it, and an ACK or SACK
goes at once (R157, R159). -/
def State.rxLast (s : State) (c : Nat) (psn : BitVec 32) (ce : Bool) (path : Nat) : State :=
  if (s.conn c).rxBits.contains psn then (s.setConn c ((s.conn c).mark psn)).sendAck c none
  else s.rxSet c psn true ce path

/-! ## The send side (R132 to R135) -/

/-- The packets that an acknowledgement covers: before ACK_PSN, or in MAP. -/
def ackCovers (ackPsn : BitVec 32) (map : List (BitVec 32)) (psn : BitVec 32) : Bool := psnBefore psn ackPsn || map.contains psn

/-- The PSNs whose bits a MAP sets (R125). -/
def mapPsns (ackPsn : BitVec 32) (ext : List Byte) : List (BitVec 32) :=
  ((List.range 256).filter (fun k => ((ext.getD (k / 8) 0).toNat).testBit (7 - k % 8))).map
    (fun k => ackPsn + 1 + BitVec.ofNat 32 k)

/-- What follows when a packet of an owner is acknowledged. -/
def State.ownerAcked (s : State) (o : PktOwner) : State :=
  match o with
  | .work ring idx _ => s.writeSettle ring idx
  | .serve _ | .emit _ _ _ => s
  | .response id => s.responseAcked id .ok
  | .step sid _ => s.stepSettle sid

/-- Take sent packets off a connection as acknowledged: CWND grows, TX_UNA advances, and their owners are told (R132, R139). -/
def State.connAcked (s : State) (c : Nat) (covers : BitVec 32 → Bool) : State :=
  let x := s.conn c
  let done := x.tx.filter (fun p => covers p.psn)
  let rest := x.tx.filter (fun p => !covers p.psn)
  let y := done.foldl (fun (z : Conn) _ => z.credited) x
  let s1 := s.setConn c { y with
    tx := rest, txUna := match rest with
      | p :: _ => p.psn
      | [] => y.txNext,
    ackedOrder := done.foldl (fun m p => max m (p.order + 1)) y.ackedOrder }
  done.foldl (fun t p => t.ownerAcked p.owner) s1

/-- An arriving ACK_PSN with the PSNs of a MAP. -/
def State.connAck (s : State) (c : Nat) (ackPsn : BitVec 32) (map : List (BitVec 32)) : State :=
  s.connAcked c (fun p => ackCovers ackPsn map p)

/-- An echo that arrives: counted, the path held, CWND cut (R137, R139). -/
def State.eceIn (s : State) (c path : Nat) : State := ((s.count1 .mlr 0x0D).holdPath c path).cwndCut c

/-- Packets sent, not acknowledged and not declared lost. -/
def Conn.inFlight (x : Conn) : Nat := (x.tx.filter (fun p => !p.lost)).length

/-- Whether a new data packet may be sent (R132). -/
def Conn.mayNew (x : Conn) : Bool := decide ((x.txNext - x.txUna).toNat < x.window) && decide (x.inFlight < x.cwnd)

/-- Transmit a new data packet: it takes TX_NEXT and its timers start. -/
def State.sendNew (s : State) (c : Nat) (it : TxItem) : Sent × State :=
  let x := s.conn c
  let path := x.nextPath s.clk.pkt
  match s.connNext c it.typ x.txNext false (decide (it.typ = 2)) none it.ext it.payload with
  | (.sent, s1) =>
    (.sent, (s1.count1 .mlr 1).updConn c (fun y => { y with
      txNext := y.txNext + 1, sendOrder := y.sendOrder + 1,
      tx := y.tx ++ [{ psn := x.txNext, typ := it.typ, ext := it.ext, payload := it.payload, owner := it.owner,
                       order := y.sendOrder, path := path, tries := 0, lost := false, rtoAt := s.clk.pkt + s.rtoMin,
                       reorderAt := s.clk.pkt + s.reorderWin, nakAt := none }] }))
  | (r, s1) => (r, s1.connTried c r)

/-- Change a sent packet. -/
def Conn.updTx (x : Conn) (psn : BitVec 32) (f : TxPkt → TxPkt) : Conn :=
  { x with tx := x.tx.map (fun p => if p.psn = psn then f p else p) }

/-- Send a packet again under a new nonce, with RETX = 1 (R133, R135). counted is false for a re-send after
PAGE_NOT_READY. -/
def State.resend (s : State) (c : Nat) (p : TxPkt) (counted : Bool) : State :=
  let path := (s.conn c).nextPath s.clk.pkt
  match s.connNext c p.typ p.psn true (decide (p.typ = 2)) none p.ext p.payload with
  | (.sent, s1) =>
    let n := if counted then p.tries + 1 else p.tries
    (s1.count1 .mlr 2).updConn c (fun y => { y.updTx p.psn (fun q => { q with
      order := y.sendOrder, path := path, tries := n, lost := false, rtoAt := s.clk.pkt + min s.rtoMax (s.rtoMin * 2 ^ n),
      reorderAt := s.clk.pkt + s.reorderWin, nakAt := none }) with sendOrder := y.sendOrder + 1 })
  | (r, s1) => s1.connTried c r

/-- A sent packet by PSN. -/
def Conn.txOf (x : Conn) (psn : BitVec 32) : Option TxPkt := x.tx.find? (fun p => decide (p.psn = psn))

/-- A packet is declared lost: its path is held, and it is sent again, or the connection ends past RETRY_MAX (R133, R134). -/
def State.packetLost (s : State) (c : Nat) (p : TxPkt) : State :=
  if s.retryMax ≤ p.tries then s.connRetries c
  else ((s.updConn c (fun x => x.updTx p.psn (fun q => { q with lost := true }))).holdPath c p.path).resend c p true

/-- A NAK that arrives: PAGE_NOT_READY schedules the re-send; any other code ends the packet's operation with it and acknowledges
the PSN (R135). -/
def State.nakIn (s : State) (c : Nat) (psn : BitVec 32) (code : Nat) (hint : Nat) : State :=
  match (s.conn c).txOf psn with
  | some p =>
    match Status.ofCode code with
    | some .pageNotReady => s.updConn c (fun x => x.updTx psn (fun q => { q with nakAt := some (s.clk.pkt + hint) }))
    | some st => (s.ownerFailed p.owner st).connAcked c (fun q => decide (q = psn))
    | none => s.connAcked c (fun q => decide (q = psn))
  | none => s

/-! ## Resident contexts and the miss holding buffer (R140 to R143, R158) -/

/-- Bytes in the miss holding buffer: held packets, held WRITE_LASTs, and READ_REQs that wait to be served. -/
def State.missOcc (s : State) : Nat :=
  (s.mlr.held.map (fun h => mlrSize h.pkt)).sum +
  (s.mlr.conns.map (fun e =>
    ((e.2.rxPkts.filter (fun p => decide (p.typ = 2) && e.2.rxBits.contains p.psn)).map (fun p => mlrSize p.pkt)).sum +
    64 * (e.2.serves.filter (fun v => !v.started)).length)).sum

/-- The buffer's highest occupancy is kept. -/
def State.missNote (s : State) : State := { s with mlr := { s.mlr with heldHwm := max s.mlr.heldHwm s.missOcc } }

/-- Whether the buffer has room for a packet. -/
def State.missRoom (s : State) (p : MlrPacket) : Bool := decide (s.missOcc + mlrSize p ≤ 4194304)

/-- A packet is dropped for want of room. -/
def State.missFull (s : State) : State := (s.count1 .mlr 0x0B).setIntBit mlrPage 10

/-- Hold a packet, or drop it where the buffer has no room. -/
def State.missHold (s : State) (c : Nat) (why : HoldWhy) (typ : Nat) (p : MlrPacket) : State :=
  if s.missRoom p then
    let h : HeldPkt := { hid := s.mlr.nextHid, conn := c, why := why, typ := typ, pkt := p, at_ := s.clk.pkt,
                         gen := s.rxGenNow }
    ({ s with mlr := { s.mlr with held := s.mlr.held ++ [h], nextHid := s.mlr.nextHid + 1 } } : State).missNote
  else s.missFull

/-- Whether a resident context may not be evicted (R140): a packet not acknowledged, a started descriptor (a RESTORE that reads on
it too), a receive bitmap that is not empty, or a held WRITE_LAST. -/
def State.pinned (s : State) (c : Nat) : Bool :=
  let x := s.conn c
  decide (x.tx ≠ []) || s.work.any (fun w => w.onConn c || w.restoresOn c) || decide (x.rxBits ≠ []) || decide (x.rxPkts ≠ [])

/-- The HBM address of a connection's backing entry (R140). -/
def State.backing (s : State) (c : Nat) : Option Nat :=
  match (s.part (s.conn c).part).mlr with
  | some m => some (m.base + 256 * (c - m.first))
  | none => none

/-- Write a context to its backing entry, whose layout is the device's own: free bytes. -/
def State.writeBack (s : State) (c : Nat) : State :=
  match s.backing c with
  | some a =>
    let s1 := s.setBytes a (wordsBytes ((List.range 32).map (fun i => Config.freeWord (s.free + i))))
    { s1 with free := s.free + 32 }
  | none => s

/-- Make room for one context beside those resident and those being fetched: evict the least recently used one that is not
pinned; none while all are pinned (R140, R141). -/
def State.connRoom (s : State) : Option State :=
  if s.mlr.resident.length + s.mlr.fetching.length < 65536 then some s
  else
    match s.mlr.resident.find? (fun c => !s.pinned c) with
    | some c =>
      let s1 := (s.writeBack c).count1 .mlr 0x0C
      some { s1 with mlr := { s1.mlr with resident := s1.mlr.resident.filter (fun x => x ≠ c),
                                          writingBack := s1.mlr.writingBack ++ [c] } }
    | none => none

/-- Start the fetch of a context that is not resident, unless it is being fetched or written back; it waits while every context
is pinned (R141, R143). -/
def State.connMiss (s : State) (c : Nat) : State :=
  if s.mlr.fetching.contains c || s.mlr.writingBack.contains c then s
  else
    match s.connRoom with
    | some s1 =>
      ({ s1 with mlr := { s1.mlr with fetching := s1.mlr.fetching ++ [c], missWait := s1.mlr.missWait.filter (fun x => x ≠ c) } }
        : State).count1 .mlr 9
    | none => if s.mlr.missWait.contains c then s else { s with mlr := { s.mlr with missWait := s.mlr.missWait ++ [c] } }

/-- Fetches that waited for a context to stop being pinned start, in order (R141). -/
def State.missStart (s : State) : State := s.mlr.missWait.foldl (fun t c => t.connMiss c) s

/-- Whether a context is resident, and the state in which it is the most recently used, or its fetch has started. -/
def State.connUse (s : State) (c : Nat) : Bool × State :=
  if s.mlr.resident.contains c then
    (true, { s with mlr := { s.mlr with resident := s.mlr.resident.filter (fun x => x ≠ c) ++ [c] } })
  else (false, s.connMiss c)

/-- A context that OPEN has written is resident, where there is room; else it goes to its backing entry. -/
def State.connIn (s : State) (c : Nat) : State :=
  match s.connRoom with
  | some s1 => { s1 with mlr := { s1.mlr with resident := s1.mlr.resident.filter (fun x => x ≠ c) ++ [c] } }
  | none => s.writeBack c

/-- CONTEXT_WRITEBACK_DONE: the write-back ends, and a miss that waits for it starts its fetch (R143). -/
def execContextWritebackDone (conn : Nat) (s : State) : Host.Outcome State Fault Refusal :=
  .next (if s.mlr.writingBack.contains conn then
    let s1 : State := { s with mlr := { s.mlr with writingBack := s.mlr.writingBack.filter (fun x => x ≠ conn) } }
    if s1.mlr.held.any (fun h => decide (h.conn = conn) && decide (h.why = .context)) then s1.connMiss conn else s1
  else s)

/-- Whether a held packet is the one whose page a stall of its connection waits for (R161). -/
def State.stalls (s : State) (h : HeldPkt) : Bool :=
  decide (h.why = .stall) && decide (h.typ ≠ 9) && (s.conn h.conn).stalls.any (fun t => decide (t.2.1 = h.pkt.psn))

/-- MISS_HOLD_TIMEOUT: a packet held for 102,400 PKT cycles is dropped (R142, R153, R161); the packet that stalls a connection and one
beyond a window have their own limits. -/
def execMissHoldTimeout (hid : Nat) (s : State) : Host.Outcome State Fault Refusal :=
  .next (if s.mlr.held.any (fun h => decide (h.hid = hid) && decide (h.why ≠ .window) && !s.stalls h &&
      decide (h.at_ + 102400 ≤ s.clk.pkt)) then
    ({ s with mlr := { s.mlr with held := s.mlr.held.filter (fun h => h.hid ≠ hid) } } : State).count1 .mlr 0x0A
  else s)

/-! ## Timers (R131, R133, R135, R137) -/

/-- Whether a connection sends and receives now. -/
def State.connRuns (s : State) (c : Nat) : Bool := (s.conn c).live && !s.flt.safe && !s.dataHeld && !s.clusterStopped 20

/-- ACK_DELAY_EXPIRE: ACK_DELAY after the first data packet accepted since the last acknowledgement, one is sent. -/
def execAckDelayExpire (conn : Nat) (s : State) : Host.Outcome State Fault Refusal :=
  .next (match (s.conn conn).ackDue with
    | some t => if s.connRuns conn && decide (t ≤ s.clk.pkt) then s.sendAck conn none else s
    | none => s)

/-- REORDER_LOSS: a packet sent later has been acknowledged and REORDER_WIN has passed: the packet is lost, CWND is cut. -/
def execReorderLoss (conn psn : Nat) (s : State) : Host.Outcome State Fault Refusal :=
  .next (match (s.conn conn).txOf (BitVec.ofNat 32 psn) with
    | some p =>
      if s.connRuns conn && !p.lost && decide (p.order + 1 < (s.conn conn).ackedOrder) &&
         decide (p.reorderAt ≤ s.clk.pkt) then (s.cwndCut conn).packetLost conn p
      else s
    | none => s)

/-- RTO_EXPIRE: a packet is not acknowledged RTO after its last transmission: it is lost, CWND falls to L. -/
def execRtoExpire (conn psn : Nat) (s : State) : Host.Outcome State Fault Refusal :=
  .next (match (s.conn conn).txOf (BitVec.ofNat 32 psn) with
    | some p =>
      if s.connRuns conn && !p.lost && decide (p.rtoAt ≤ s.clk.pkt) then
        ((s.count1 .mlr 0x0E).updConn conn (fun x => { x with cwnd := s.cwndLow x })).packetLost conn p
      else s
    | none => s)

/-- NAK_RESEND: HINT PKT cycles after PAGE_NOT_READY the refused PSN is sent again. -/
def execNakResend (conn psn : Nat) (s : State) : Host.Outcome State Fault Refusal :=
  .next (match (s.conn conn).txOf (BitVec.ofNat 32 psn) with
    | some p =>
      match p.nakAt with
      | some t => if s.connRuns conn && decide (t ≤ s.clk.pkt) then s.resend conn p false else s
      | none => s
    | none => s)

/-- PATH_HOLD_END: the hold of a path ends. -/
def execPathHoldEnd (conn path : Nat) (s : State) : Host.Outcome State Fault Refusal :=
  .next (match Tab.find (s.conn conn).pathHeld path with
    | some e => if e ≤ s.clk.pkt then s.updConn conn (fun x => { x with pathHeld := Tab.erase x.pathHeld path }) else s
    | none => s)

/-! ## CLOSE, QUERY and the states (R128, R148) -/

/-- CLOSE of a connection: legal in every state. -/
def State.connClose (s : State) (c : Nat) : State :=
  match (s.conn c).state with
  | .active => (s.updConn c (fun x => { x with state := .closing })).connLeft c .state
  | .error => (s.updConn c (fun x => { x with state := .closed })).connOutOf c
  | .closed | .closing => s

/-- CONN_CLOSED: a CLOSING connection whose descriptors have ended, whose READ_REQs are served and whose packets are acknowledged is
CLOSED; its held packets are discarded. -/
def execConnClosed (conn : Nat) (s : State) : Host.Outcome State Fault Refusal :=
  .next (let x := s.conn conn
    if decide (x.state = .closing) && !(s.work.any (fun w => w.onConn conn || w.restoresOn conn)) && decide (x.serves = []) && decide (x.txUna = x.txNext) &&
       decide (x.outq = []) then (s.setConn conn (x.drained .closed)).connOutOf conn
    else s)

/-- The code of a state (R128). -/
def ConnState.code : ConnState → Nat
  | .closed => 0 | .active => 1 | .error => 2 | .closing => 3

/-- CONN_STAT of a connection. -/
def State.connStat (s : State) (c : Nat) : Word :=
  let x := s.conn c
  (((((0 : Word).setField 63 61 x.state.code).setField 60 56 x.cause).setBit 55 (s.mlr.resident.contains c)).setField 47 32
    x.cwnd).setField 31 0 x.txUna.toNat

/-- CONN_STAT1 of a connection. -/
def State.connStat1 (s : State) (c : Nat) : Word :=
  ((0 : Word).setField 63 32 (s.conn c).txNext.toNat).setField 31 0 (s.conn c).rxNext.toNat

/-- CLOSE of engine 1 (R148). -/
def execMlrClose (ring idx : Nat) (s : State) : Host.Outcome State Fault Refusal :=
  .next (s.runDesc ring idx 1 2 (fun w =>
    let c := wf w.words 2 23 0
    if s.owns w.part tyConn c then (s.connClose c).workDone ring idx .ok 0 0 0 else s.workFail ring idx .accessViolation))

/-- QUERY of engine 1 (R148). -/
def execMlrQuery (ring idx : Nat) (s : State) : Host.Outcome State Fault Refusal :=
  .next (s.runDesc ring idx 1 3 (fun w =>
    let c := wf w.words 2 23 0
    if s.owns w.part tyConn c then s.workDone ring idx .ok 0 (s.connStat c) (s.connStat1 c)
    else s.workFail ring idx .accessViolation))

/-! ## PROBE (R148) -/

/-- The extension of a probe. -/
def probeExt (echo : Bool) (id ts : Nat) : List Byte :=
  [if echo then 0x80 else 0, 0, 0, 0] ++ beBytes 4 id ++ beBytes 8 ts

/-- Run PROBE: the request travels on the named path and does not move the rotation. -/
def State.probe (s : State) (w : Work) : State :=
  let c := wf w.words 2 23 0
  let path := wf w.words 2 31 24
  match firstFail [(!s.owns w.part tyConn c, .accessViolation), (decide ((s.conn c).pathsM1 < path), .format),
      (decide ((s.conn c).state ≠ .active), .state)] with
  | .ok =>
    match s.connUse c with
    | (false, s1) => s1
    | (true, s1) =>
      match s1.connOut c path 8 (s.conn c).txNext false false none (probeExt false (w.idx % 2 ^ 32) s.clk.pkt) [] with
      | (.sent, s2) => s2.updWork w.ring w.idx (fun v => { v with phase := .running, ctx := .probe path s.clk.pkt s.rtoMax })
      | (.wait, s2) => s2
      | (.refused, s2) => (s2.workFail w.ring w.idx .state).connTried c .refused
  | st => s.workFail w.ring w.idx st

/-- PROBE_SEND: PROBE of engine 1. -/
def execProbeSend (ring idx : Nat) (s : State) : Host.Outcome State Fault Refusal :=
  .next (s.runDesc ring idx 1 4 (fun w => s.probe w))

/-- PROBE_TIMEOUT: no echo within RTO_MAX, as it stood when the request left (07, MLR page: a timer runs with its generation's value). -/
def execProbeTimeout (ring idx : Nat) (s : State) : Host.Outcome State Fault Refusal :=
  .next (match s.workAt ring idx with
    | some w =>
      match w.ctx with
      | .probe _ ts limit => if ts + limit ≤ s.clk.pkt then s.workFail ring idx .timeout else s
      | .none | .send _ _ _ | .read _ _ _ _ | .ingest _ _ _ _ _ | .contribute _ | .cipher _ _ _ | .restore _ _ _ _ _ => s
    | none => s)

/-- An echo ends its PROBE with the round trip. -/
def State.probeEcho (s : State) (c id ts : Nat) : State :=
  match s.work.find? (fun w => decide (w.phase = .running) && decide (dEngine w.words = 1) && decide (dOpcode w.words = 4) &&
      decide (wf w.words 2 23 0 = c) && decide (w.idx % 2 ^ 32 = id) && (match w.ctx with
        | .probe _ t _ => decide (t = ts)
        | .none | .send _ _ _ | .read _ _ _ _ | .ingest _ _ _ _ _ | .contribute _ | .cipher _ _ _ | .restore _ _ _ _ _ => false)) with
  | some w => s.workDone w.ring w.idx .ok 0 (Word.of (s.clk.pkt - ts)) 0
  | none => s

/-! ## SPATE_SEND (R145, R148) -/

/-- The checks of SPATE_SEND. -/
def State.spateCheck (s : State) (p : Nat) (v : Option Nat) (ws : List Word) : Status :=
  let v4 := wb ws 5 25
  firstFail [
    (decide (rLen ws = 0) || (v4 && decide (wordAt ws 6 ≠ 0 ∨ wf ws 7 63 32 ≠ 0)), .format),
    (!s.owns p tyKey (wf ws 5 53 34) || !s.owns p tyLeaf (wf ws 5 21 5) ||
      !s.mayReach p v (spaceOf (wb ws 5 24) (wordAt ws 2).toNat) (wordAt ws 2).toNat (rLen ws), .accessViolation),
    (!(s.part p).hasAddr v4, .state)]

/-- Packet i of a SPATE_SEND. -/
def State.spatePkt (s : State) (w : Work) (i : Nat) (data : List Byte) : MlrPacket :=
  let ws := w.words
  let v4 := wb ws 5 25
  { ipSrc := (s.part w.part).mlrSrc v4, ipDst := BitVec.ofNat 128 ((wordAt ws 6).toNat * 2 ^ 64 + (wordAt ws 7).toNat), v6 := !v4,
    ce := false, ver := 1, rsvClear := true, lenOk := true, ece := false, retx := false, areq := false, dstConn := wf ws 5 63 54,
    path := i % (wf ws 5 33 26 + 1), psn := BitVec.ofNat 32 i, ackPsn := 0, salt := 0, nonce := 0, srcConn := 0,
    ext := placeExt (wf ws 3 31 0) 0 ((wordAt ws 4).toNat + i * mtuBytes (wf ws 5 23 22)), payload := data, tag := 0 }

/-- Send the packets of a SPATE_SEND from packet i on; k is how many are left. A packet is built once its frame fits its leaf (R202,
R204), and the descriptor ends when the last one has been transmitted (R145). -/
def State.spateRun (s : State) (w : Work) (i k : Nat) : State :=
  match k with
  | 0 => s.spateSettle w.ring w.idx
  | k + 1 =>
    let ws := w.words
    let mtu := mtuBytes (wf ws 5 23 22)
    let a := (wordAt ws 2).toNat + i * mtu
    let leaf := wf ws 5 21 5
    match s.fetch w (spaceOf (wb ws 5 24) a) a (min mtu (rLen ws - i * mtu)) with
    | .wait s1 => s1
    | .got data =>
      let p := s.spatePkt w i data
      if !s.admits leaf (s.mlrFrame leaf p) then s.waitAt leaf (.spate w.ring w.idx)
      else
        match s.sealPkt (wf ws 5 53 34) 9 p with
        | (.sent, q, s1) =>
          let s2 := s1.mlrSubmit leaf 9 (wf ws 5 63 54) 0 false q.path q (some (w.ring, w.idx))
          (s2.updWork w.ring w.idx (fun v => { v with ctx := .send (i + 1) none [] })).spateRun w (i + 1) k
        | (.wait, _, s1) => s1
        | (.refused, _, s1) => s1.workDone w.ring w.idx .state i 0 0

/-- Send, or go on sending, the packets of a SPATE_SEND. -/
def State.spateSend (s : State) (w : Work) : State :=
  let mtu := mtuBytes (wf w.words 5 23 22)
  let n := (rLen w.words + mtu - 1) / mtu
  match w.ctx with
  | .send i _ _ => s.spateRun w i (n - i)
  | .none | .read _ _ _ _ | .probe _ _ _ | .ingest _ _ _ _ _ | .contribute _ | .cipher _ _ _ | .restore _ _ _ _ _ =>
    match s.spateCheck w.part w.vi w.words with
    | .ok => (s.updWork w.ring w.idx (fun v => { v with ctx := .send 0 none [] })).spateRun w 0 n
    | st => s.workFail w.ring w.idx st

/-- SPATE_SEND: sends LENGTH bytes as SPATE_WRITE packets; PORT_TRANSMIT of the last one ends it with OK (R145). -/
def execSpateSend (ring idx : Nat) (s : State) : Host.Outcome State Fault Refusal :=
  .next (s.runDesc ring idx 1 1 (fun w => s.spateSend w))

/-- A SPATE_SEND that has waited for room in its leaf goes on. -/
def State.spateAgain (s : State) (ring idx : Nat) : State := s.runDesc ring idx 1 1 (fun w => s.spateSend w)

/-! ## Commands of the MLR page (R127, R128, R140, R144) -/

/-- An argument register of the page. -/
def State.mlrArg (s : State) (off : Nat) : Word := s.reg mlrPage off

/-- CONN of the arguments. -/
def State.argConn (s : State) : Nat := (s.mlrArg 0x140).field 63 40

/-- The connection that OPEN writes from the argument registers; attachment and the counts behind limited events stay. -/
def State.openConn (s : State) (p : Nat) : Conn :=
  let a := s.mlrArg 0x140
  let b := s.mlrArg 0x148
  let k := s.mlrArg 0x150
  let n := s.mlrArg 0x168
  let w := a.field 15 2
  let low := min ((s.mlrSet 0x118).field 47 32) w
  let old := s.conn s.argConn
  { Conn.reset with
    attached := old.attached, authFails := old.authFails, authAt := old.authAt, refusals := old.refusals,
    refuseAt := old.refuseAt, xrdRefusals := old.xrdRefusals, xrdRefuseAt := old.xrdRefuseAt,
    state := .active, part := p, peerConn := a.field 39 16, window := w, v4 := a.bit 1, pathsM1 := b.field 63 56,
    sportSeed := b.field 55 42, mtu := b.field 41 40, ecnEn := b.bit 39, dscp := b.field 38 33, leaf := b.field 32 16,
    txKey := k.field 63 44, rxKey := k.field 43 24,
    peer := if a.bit 1 then BitVec.ofNat 128 ((s.mlrArg 0x160).field 31 0)
      else BitVec.ofNat 128 ((s.mlrArg 0x158).toNat * 2 ^ 64 + (s.mlrArg 0x160).toNat),
    txNext := BitVec.ofNat 32 (n.field 63 32), txUna := BitVec.ofNat 32 (n.field 63 32),
    rxNext := BitVec.ofNat 32 (n.field 31 0), cwnd := max low (min ((s.mlrSet 0x118).field 63 48) w),
    lastPath := b.field 63 56 }

/-- OPEN. -/
def State.connOpen (s : State) : Status × State :=
  let c := s.argConn
  let w := (s.mlrArg 0x140).field 15 2
  if w = 0 ∨ 8192 < w then (.format, s)
  else
    match s.ownerOf tyConn c with
    | none => (.state, s)
    | some p =>
      let x := s.openConn p
      let inRange := match (s.part p).mlr with
        | some m => decide (m.first ≤ c) && decide (c < m.first + m.count)
        | none => false
      match firstFail [
          (!s.owns p tyKey x.txKey || !s.owns p tyKey x.rxKey || !s.owns p tyLeaf x.leaf, .accessViolation),
          (decide ((s.conn c).state ≠ .closed) || !inRange || !(s.part p).hasAddr x.v4, .state)] with
      | .ok => (.ok, (s.setConn c x).connIn c)
      | st => (st, s)

/-- The settings that SET_PART takes from the argument registers. -/
def State.argPart (s : State) : MlrPart :=
  { ip6 := BitVec.ofNat 128 ((s.mlrArg 0x1A0).toNat * 2 ^ 64 + (s.mlrArg 0x1A8).toNat), v4En := (s.mlrArg 0x1B0).bit 32,
    ip4 := BitVec.ofNat 32 ((s.mlrArg 0x1B0).field 31 0), base := (s.mlrArg 0x190).field 63 12 * 4096, first := (s.mlrArg 0x198).field 63 40,
    count := (s.mlrArg 0x198).field 39 15 }

/-- Whether another partition holds an address of these settings. -/
def State.addrTaken (s : State) (p : Nat) (m : MlrPart) : Bool :=
  s.parts.any (fun e => decide (e.1 ≠ p) && (match e.2.mlr with
    | some n => (decide (m.ip6 ≠ 0) && decide (n.ip6 = m.ip6)) || (m.v4En && n.v4En && decide (n.ip4 = m.ip4))
    | none => false))

/-- Whether a partition has a connection that is not CLOSED. -/
def State.connsOpen (s : State) (p : Nat) : Bool :=
  s.mlr.conns.any (fun e => decide (e.2.state ≠ .closed) && decide (e.2.part = p))

/-- SET_PART; a range beyond connection 16,777,215 gives FORMAT (R9). -/
def State.mlrSetPart (s : State) (p : Nat) : Status × State :=
  let m := s.argPart
  match firstFail [
      (decide (2 ^ 24 < m.first + m.count), .format),
      (decide (m.count ≠ 0) && !s.ownsHbm p m.base (256 * m.count), .accessViolation),
      (!(decide ((s.part p).state = .building) || (decide ((s.part p).state = .active) && !s.connsOpen p)) || s.addrTaken p m, .state)]
      with
  | .ok => (.ok, s.setPart p { s.part p with mlr := some m })
  | st => (st, s)

/-- An open spate channel. -/
def State.spate (s : State) (n : Nat) : Option Spate := (Tab.find s.mlr.spates n).filter (fun x => x.isOpen)

/-- Change a spate channel. -/
def State.updSpate (s : State) (n : Nat) (f : Spate → Spate) : State :=
  { s with mlr := { s.mlr with spates := Tab.upd s.mlr.spates n f } }

/-- SPATE_OPEN. What limits the channel's events carries on (R149, R155). -/
def State.spateOpen (s : State) (p : Nat) : Status × State :=
  let n := s.argConn
  let k := s.mlrArg 0x150
  match firstFail [
      (decide (1023 < n), .format),
      (!s.owns p tyKey (k.field 43 24) || !s.owns p tySync (k.field 13 0), .accessViolation),
      ((s.spate n).isSome, .state)] with
  | .ok =>
    let old := (Tab.find s.mlr.spates n).getD
      { isOpen := false, part := p, rxKey := 0, sync := 0, authFails := 0, authAt := none, refusals := 0, refuseAt := none }
    let x : Spate := { old with isOpen := true, part := p, rxKey := k.field 43 24, sync := k.field 13 0 }
    (.ok, { s with mlr := { s.mlr with spates := Tab.insert s.mlr.spates n x } })
  | st => (st, s)

/-- Close a spate channel; its held packets will fail R126. -/
def State.spateShut (s : State) (n : Nat) : State := s.updSpate n (fun x => { x with isOpen := false })

/-- SPATE_CLOSE. -/
def State.spateClose (s : State) : Status × State :=
  let n := s.argConn
  match firstFail [(decide (1023 < n), .format), ((s.spate n).isNone, .state)] with
  | .ok => (.ok, s.spateShut n)
  | st => (st, s)

/-- QUERY: the state of CONN goes to CONN_STAT and CONN_STAT1. -/
def State.mlrQuery (s : State) : State :=
  (s.setReg mlrPage 0x180 (s.connStat s.argConn)).setReg mlrPage 0x188 (s.connStat1 s.argConn)

/-- Run a command of the page. -/
def mlrRun (val : Word) (s : State) : State :=
  let op := val.field 31 24
  let p := val.field 6 0
  let r : Status × State :=
    match op with
    | 1 => s.connOpen
    | 2 => (.ok, s.connClose s.argConn)
    | 3 => (.ok, s.mlrQuery)
    | 4 => s.mlrSetPart p
    | 5 => s.spateOpen p
    | 6 => s.spateClose
    | _ => (.format, s)
  r.2.cmdEnd .mlr op s.argConn r.1

/-- The CMD word of an operation and partition. -/
def mlrCmdWord (op p : Nat) : Word := ((0 : Word).setField 31 24 op).setField 6 0 p

/-- CONN_OPEN: the MLR command OPEN. -/
def execConnOpen (part : Nat) (s : State) : Host.Outcome State Fault Refusal := .next (s.takeCmd .mlr (mlrCmdWord 1 part) mlrRun)

/-- MLR_CMD_CLOSE: the MLR command CLOSE. -/
def execMlrCmdClose (part : Nat) (s : State) : Host.Outcome State Fault Refusal := .next (s.takeCmd .mlr (mlrCmdWord 2 part) mlrRun)

/-- MLR_CMD_QUERY: the MLR command QUERY. -/
def execMlrCmdQuery (part : Nat) (s : State) : Host.Outcome State Fault Refusal := .next (s.takeCmd .mlr (mlrCmdWord 3 part) mlrRun)

/-- MLR_SET_PART: the MLR command SET_PART. -/
def execMlrSetPart (part : Nat) (s : State) : Host.Outcome State Fault Refusal := .next (s.takeCmd .mlr (mlrCmdWord 4 part) mlrRun)

/-- SPATE_OPEN. -/
def execSpateOpen (part : Nat) (s : State) : Host.Outcome State Fault Refusal := .next (s.takeCmd .mlr (mlrCmdWord 5 part) mlrRun)

/-- SPATE_CLOSE. -/
def execSpateClose (part : Nat) (s : State) : Host.Outcome State Fault Refusal := .next (s.takeCmd .mlr (mlrCmdWord 6 part) mlrRun)

end Sys2Proof.Machine
end

