-- ==== Sys2Proof/Machine/Numbers.lean ====
section
/-! DEFINITION. Conversion and summation descriptors, engine 0x09 (11_number_formats.md, R232 to R235). -/

namespace Sys2Proof.Machine

/-! ## Operands and checks -/

/-- COUNT of a descriptor of engine 9. -/
def nCount (ws : List Word) : Nat := wf ws 4 63 32
/-- SRC_HBM. -/
def nSrcHbm (ws : List Word) : Bool := wb ws 4 22
/-- DST_HBM. -/
def nDstHbm (ws : List Word) : Bool := wb ws 4 21
/-- SRC_ADDR. -/
def nSrc (ws : List Word) : Nat := (wordAt ws 2).toNat
/-- DST_ADDR. -/
def nDst (ws : List Word) : Nat := (wordAt ws 3).toNat
/-- SSCALE_ADDR. -/
def nSScale (ws : List Word) : Nat := (wordAt ws 5).toNat
/-- DSCALE_ADDR. -/
def nDScale (ws : List Word) : Nat := (wordAt ws 6).toNat

/-- The source ranges of a descriptor: elements, and scales of an MX source. -/
def srcRanges (ws : List Word) (src : Elem) : List (Nat × Nat) :=
  (nSrc ws, src.bytes (nCount ws)) :: (if src.isMx then [(nSScale ws, nCount ws / 32)] else [])

/-- The destination ranges of a CONVERT. -/
def dstRanges (ws : List Word) (dst : Elem) : List (Nat × Nat) :=
  (nDst ws, dst.bytes (nCount ws)) :: (if dst.isMx then [(nDScale ws, nCount ws / 32)] else [])

/-- Whether a source range and a destination range share a byte. -/
def rangesShare (ws : List Word) (a b : List (Nat × Nat)) : Bool :=
  a.any (fun x => b.any (fun y => shares (nSrcHbm ws) x.1 x.2 (nDstHbm ws) y.1 y.2))

/-- Whether a partition reaches every range, with the PASID of the ring's VI (R234). -/
def State.reachAll (s : State) (p : Nat) (v : Option Nat) (hbm : Bool) (rs : List (Nat × Nat)) : Bool :=
  rs.all (fun r => decide (r.2 = 0) || s.mayReach p v (spaceOf hbm r.1) r.1 r.2)

/-- The address and count checks that both opcodes share (R234). -/
def numFormatBad (ws : List Word) (src dst : Elem) (dr : List (Nat × Nat)) : Bool :=
  decide (nCount ws = 0) || ((src.isMx || dst.isMx) && decide (nCount ws % 32 ≠ 0)) ||
  decide (nSrc ws % 64 ≠ 0) || decide (nDst ws % 64 ≠ 0) || rangesShare ws (srcRanges ws src) dr

/-- The checks of CONVERT for a partition (R234): its formats, or the status that ends it. -/
def State.convertCheck (s : State) (p : Nat) (v : Option Nat) (ws : List Word) : Except Status (Elem × Elem) :=
  match elemOf (wf ws 4 31 28), elemOf (wf ws 4 27 24) with
  | some src, some dst =>
    if src = .xacc ∨ dst = .xacc ∨ wb ws 4 20 = true ∨ wb ws 4 19 = true ∨ numFormatBad ws src dst (dstRanges ws dst) = true then
      .error .format
    else if s.reachAll p v (nSrcHbm ws) (srcRanges ws src) && s.reachAll p v (nDstHbm ws) (dstRanges ws dst) then .ok (src, dst)
    else .error .accessViolation
  | _, _ => .error .format

/-- The image that a SUM writes (XOUT). -/
def imageRange (ws : List Word) : List (Nat × Nat) := if wb ws 4 19 then [(nDst ws, 64)] else []

/-- The checks of SUM for a partition (R232, R234). -/
def State.sumCheck (s : State) (p : Nat) (v : Option Nat) (ws : List Word) : Except Status (Elem × Elem) :=
  match elemOf (wf ws 4 31 28), elemOf (wf ws 4 27 24) with
  | some src, some dst =>
    if src.isMx ∨ dst.isMx ∨ (wb ws 4 20 = true ∧ wb ws 4 19 = false) ∨ numFormatBad ws src dst (imageRange ws) = true then
      .error .format
    else if s.reachAll p v (nSrcHbm ws) (srcRanges ws src) && s.reachAll p v (nDstHbm ws) (imageRange ws) then .ok (src, dst)
    else .error .accessViolation
  | _, _ => .error .format

/-! ## CONVERT (R221 to R225, R233) -/

/-- The bits and scale byte of each of n source elements. -/
def sourceBits (el : Elem) (n : Nat) (data scales : List Byte) : List (Nat × Nat) :=
  (List.range n).map (fun i => (packedElem el.bits data i, (scales.getD (i / 32) 0).toNat))

/-- What a conversion delivers: element bytes, scale bytes, and the counts of R233. -/
structure Converted where
  data : List Byte
  scales : List Byte
  sat : Nat
  flushed : Nat
  nan : Nat
  deriving DecidableEq, Repr

/-- How many of the conversions are of one kind. -/
def convCount (c : Conv) (l : List (Nat × Conv)) : Nat := (l.filter (fun x => x.2 = c)).length

/-- What converted elements deliver. -/
def deliver (dst : Elem) (l : List (Nat × Conv)) (scales : List Byte) (nanBlocks : Nat) : Converted :=
  { data := packElems dst.bits (l.map Prod.fst), scales := scales, sat := convCount .saturated l,
    flushed := convCount .flushed l, nan := convCount .nanOut l + nanBlocks }

/-- Lists of 32 consecutive items. -/
def blocks32 {α : Type} (k : Nat) (l : List α) : List (List α) :=
  match k with
  | 0 => []
  | k + 1 => l.take 32 :: blocks32 k (l.drop 32)

/-- Convert source elements to a target format; equal format codes copy element and scale bits (R222), each NaN
among them a NaN output (R233). -/
def convertAll (src dst : Elem) (sat : Bool) (adj : Int) (n : Nat) (data scales : List Byte) : Converted :=
  let bits := sourceBits src n data scales
  match dst with
  | .mx f =>
    if src = dst then { data := data, scales := scales, sat := 0, flushed := 0,
                        nan := (bits.filter (fun x => decide (decodeElem src x.1 x.2 = .nan))).length }
    else
      let bs := (blocks32 (n / 32) bits).map (fun b => encodeMx f (mxExp f) adj (b.map (fun x => decodeElem src x.1 x.2)))
      deliver dst (bs.flatMap (fun b => b.2.1)) (bs.map (fun b => BitVec.ofNat 8 b.1))
        (bs.filter (fun b => b.2.2)).length
  | .flt _ | .int _ | .xacc => deliver dst (bits.map (fun x => convertElem src dst sat x.1 x.2)) [] 0

/-- Count several occurrences of a NUM event, where there are any. -/
def State.countNum (s : State) (code n : Nat) : State := if n = 0 then s else s.count Blk.num.page code n

/-- The counter events of a conversion. -/
def State.countConv (s : State) (n sat flushed nan : Nat) : State :=
  ((((s.countNum 1 1).countNum 2 n).countNum 3 sat).countNum 4 flushed).countNum 5 nan

/-- Write a conversion's results, and its result words. -/
def State.converted (s : State) (w : Work) (dst : Elem) (c : Converted) : State :=
  let s1 := s.put (spaceOf (nDstHbm w.words) (nDst w.words)) w.vi (nDst w.words) c.data
  let s2 := if dst.isMx then s1.put (spaceOf (nDstHbm w.words) (nDScale w.words)) w.vi (nDScale w.words) c.scales else s1
  (s2.countConv (nCount w.words) c.sat c.flushed c.nan).workDone w.ring w.idx .ok 0
    (((0 : Word).setField 63 32 c.sat).setField 31 0 c.flushed) ((0 : Word).setField 63 32 c.nan)

/-- Do what writes a descriptor's results once the memory at each of the addresses takes writes. -/
def State.numOut (s : State) (w : Work) (l : List Nat) (act : State) : State :=
  if l.all (fun a => s.spaceUp (spaceOf (nDstHbm w.words) a) w.vi a) then act else s

/-- The extents of a descriptor's ranges, to be read. -/
def toRead (hbm : Bool) (rs : List (Nat × Nat)) : List (Space × Nat × Nat) := rs.map (fun r => (spaceOf hbm r.1, r.1, r.2))

/-- Run CONVERT. -/
def State.convert (s : State) (w : Work) : State :=
  match s.convertCheck w.part w.vi w.words with
  | .error st => s.workFail w.ring w.idx st
  | .ok (src, dst) =>
    match s.fetchAll w (toRead (nSrcHbm w.words) (srcRanges w.words src)) with
    | (some ds, s1) =>
      s1.numOut w (nDst w.words :: (if dst.isMx then [nDScale w.words] else []))
        (s1.converted w dst (convertAll src dst (wb w.words 4 23) (mxAdj (s.regFor Blk.num.page w.gen 0x100)) (nCount w.words)
          (ds.getD 0 []) (ds.getD 1 [])))
    | (none, s1) => s1

/-- CONVERT: converts COUNT elements from one format to another (R233). -/
def execConvert (ring idx : Nat) (s : State) : Host.Outcome State Fault Refusal :=
  .next (s.runDesc ring idx 0x09 0x01 (fun w => s.convert w))

/-! ## SUM (R227 to R233) -/

/-- The images that consecutive 64-byte pieces hold. -/
def images (k : Nat) (data : List Byte) : List (List Byte) :=
  match k with
  | 0 => []
  | k + 1 => data.take 64 :: images k (data.drop 64)

/-- Add n terms to an accumulator; none where a source image sets a reserved bit (R231). -/
def sumAll (src : Elem) (x : Xacc) (n : Nat) (data : List Byte) : Option Xacc :=
  match src with
  | .xacc =>
    let ims := images n data
    if ims.any imageBad then none else some (ims.foldl (fun a b => a.merge (Xacc.ofImage b)) x)
  | .flt _ | .mx _ | .int _ => some ((sourceBits src n data []).foldl (fun a e => a.add (decodeElem src e.1 0)) x)

/-- RESULT word 1 of a SUM: OVF, NAN, NINF, PINF. -/
def Xacc.flagWord (x : Xacc) : Word :=
  ((((0 : Word).setBit 3 x.ovf).setBit 2 x.nan).setBit 1 x.ninf).setBit 0 x.pinf

/-- Deliver a sum: the image under XOUT, the rounded value and the flags. -/
def State.summed (s : State) (w : Work) (src dst : Elem) (x0 x : Xacc) : State :=
  let s1 := if wb w.words 4 19 then s.put (spaceOf (nDstHbm w.words) (nDst w.words)) w.vi (nDst w.words) x.image else s
  let s2 := (s1.countNum 1 1).countNum (if src = .xacc then 7 else 6) (nCount w.words)
  let s3 := if x.ovf && !x0.ovf then s2.countNum 8 1 else s2
  s3.workDone w.ring w.idx .ok 0 (Word.of (x.round dst (wb w.words 4 23))) x.flagWord

/-- Run SUM. -/
def State.sum (s : State) (w : Work) : State :=
  match s.sumCheck w.part w.vi w.words with
  | .error st => s.workFail w.ring w.idx st
  | .ok (src, dst) =>
    let accIn := wb w.words 4 20
    match s.fetchAll w (toRead (nSrcHbm w.words) (srcRanges w.words src) ++
        (if accIn then toRead (nDstHbm w.words) [(nDst w.words, 64)] else [])) with
    | (some ds, s1) =>
      if accIn && imageBad (ds.getD 1 []) then s1.workDone w.ring w.idx .format 0xFFFFFFFF 0 0
      else
        let x0 := if accIn then Xacc.ofImage (ds.getD 1 []) else .zero
        match sumAll src x0 (nCount w.words) (ds.getD 0 []) with
        | some x => s1.numOut w (if wb w.words 4 19 then [nDst w.words] else []) (s1.summed w src dst x0 x)
        | none => s1.workFail w.ring w.idx .format
    | (none, s1) => s1

/-- SUM: adds COUNT terms to an exact accumulator and rounds it once (R233). -/
def execSum (ring idx : Nat) (s : State) : Host.Outcome State Fault Refusal :=
  .next (s.runDesc ring idx 0x09 0x02 (fun w => s.sum w))

end Sys2Proof.Machine
end

