-- ==== Sys2Proof/Machine/Confluence.lean ====
section
/-! DEFINITION. Confluence: reduction groups, reduction packets, emission and the descriptors of engine 0x03
(12_confluence_reduction.md). -/

namespace Sys2Proof.Machine

/-- The XRD page. -/
abbrev xrdPage : Page := Blk.xrd.page
/-- CFG0.SLOT_WAIT of the set that a group recorded. -/
def State.slotWait (s : State) (g : Group) : Nat := (s.regFor xrdPage g.gen 0x100).field 63 48
/-- CFG0.HINT_SLOT of a generation. -/
def State.hintSlot (s : State) (gen : Nat) : Nat := (s.regFor xrdPage gen 0x100).field 31 0

/-! ## Slots and segments (R236, R237, R241, R243) -/

/-- Segment blocks of a group. -/
def Group.w (g : Group) : Nat := g.slots / g.segElems
/-- Segments of a group. -/
def Group.nSegs (g : Group) : Nat := (g.total + g.segElems - 1) / g.segElems
/-- Elements of a segment. -/
def Group.segLen (g : Group) (k : Nat) : Nat := min g.segElems (g.total - k * g.segElems)
/-- First slot of the block of a segment. -/
def Group.block (g : Group) (key k : Nat) : Nat := key % 2 ^ 20 + k % g.w * g.segElems
/-- The source element kind. -/
def Group.src (g : Group) : Elem := (elemOf g.srcFmt).getD .xacc
/-- The target element kind. -/
def Group.dst (g : Group) : Elem := (elemOf g.dstFmt).getD .xacc
/-- The block of a segment, once it has taken a term. -/
def Group.seg (g : Group) (k : Nat) : Option Seg := g.segs.find? (fun x => decide (x.seg = k))
/-- Whether a segment has been emitted. -/
def Group.emittedSeg (g : Group) (k : Nat) : Bool :=
  decide (k < g.low) || (match g.seg k with
    | some x => x.emitted
    | none => false)

/-- An element as an extreme: a NaN becomes the canonical one of its format, so that the order of terms does not show (R226,
R241). -/
def canonBits (src : Elem) (bits : Nat) : Nat :=
  match src with
  | .flt f => if decodeElem src bits 0 = .nan then f.nan else bits
  | .mx _ | .int _ | .xacc => bits

/-- One term of a MIN or MAX (R226): the encoding of the running extreme. -/
def extremeBits (src : Elem) (mx : Bool) (old : Option Nat) (bits : Nat) : Nat :=
  match old with
  | none => canonBits src bits
  | some b => canonBits src (if (decodeElem src b 0).pick mx (decodeElem src bits 0) = decodeElem src b 0 then b else bits)

/-- Add one source element to a slot. -/
def Group.term (g : Group) (x : XSlot) (bs : List Byte) : XSlot :=
  if g.op = 0 then
    match g.src with
    | .xacc => { x with acc := x.acc.merge (Xacc.ofImage bs) }
    | .flt _ | .mx _ | .int _ => { x with acc := x.acc.add (decodeElem g.src (leNat bs) 0) }
  else { x with ext := some (extremeBits g.src (decide (g.op = 2)) x.ext (leNat bs)) }

/-- Bytes of one source element. -/
def Group.srcBytes (g : Group) : Nat := g.src.bits / 8

/-- Add consecutive elements to consecutive slots; n of them. -/
def Group.addTo (g : Group) (t : Tab XSlot) (slot n : Nat) (bs : List Byte) : Tab XSlot :=
  match n with
  | 0 => t
  | n + 1 =>
    g.addTo (Tab.set .zero t slot (g.term (Tab.get .zero t slot) (bs.take g.srcBytes))) (slot + 1) n (bs.drop g.srcBytes)

/-- Whether source images among the elements set a reserved bit (R231). -/
def Group.badImage (g : Group) (n : Nat) (bs : List Byte) : Bool :=
  decide (g.src = .xacc) && (images n bs).any imageBad

/-! ## Emission (R244) -/

/-- The bits of one emitted element: a sum is rounded under R229, an extreme under R221 and R222, or R223; a NaN is the target's
canonical one (R226, R244). -/
def Group.emitElem (g : Group) (x : XSlot) : Nat :=
  if g.op = 0 then x.acc.round g.dst g.sat
  else
    match g.dst with
    | .flt f => (encodeFlt f g.sat (decodeElem g.src (x.ext.getD 0) 0)).1
    | .int b => (encodeInt b (decodeElem g.src (x.ext.getD 0) 0)).1
    | .mx _ | .xacc => 0

/-- The bytes of an emitted segment. -/
def State.segData (s : State) (g : Group) (key k : Nat) : List Byte :=
  let xs := (List.range (g.segLen k)).map (fun i => Tab.get XSlot.zero s.xrd.slots (g.block key k + i))
  match g.dst with
  | .xacc => xs.flatMap (fun x => x.acc.image)
  | .flt _ | .mx _ | .int _ => packElems g.dst.bits (xs.map g.emitElem)

/-- Build the packets of a segment for entry i of the emit table; last marks the group's last segment to be emitted. -/
def State.emitTo (s : State) (g : Group) (key k i : Nat) (last : Bool) (data : List Byte) : State :=
  match g.emits[i]? with
  | some e =>
    s.connEnqueue e.conn (writeAll (mtuBytes (s.conn e.conn).mtu) last e.rkey e.imm (e.off + k * g.segElems * g.dst.bits / 8)
      (.emit key i k) data)
  | none => s

/-- Where a segment's local write goes. -/
def Group.segAddr (g : Group) (k : Nat) : Nat := g.dstAddr + k * g.segElems * g.dst.bits / 8

/-- The VI of the ring that holds a group's OPEN. -/
def State.groupVi (s : State) (g : Group) : Option Nat := (s.workAt g.ring g.idx).bind (fun w => w.vi)

/-- The local write of an emitted segment is placed, once its memory takes writes (R244 step 2). -/
def State.segPlace (s : State) (key k : Nat) : State :=
  match s.group key with
  | some g =>
    let a := g.segAddr k
    let mark (t : State) : State := t.updGroup key (fun x => { x with
      segs := x.segs.map (fun y => if y.seg = k then { y with placed := true } else y) })
    if !g.dstEn then mark s
    else s.whenUp (spaceOf g.dstHbm a) (s.groupVi g) a (mark (s.put (spaceOf g.dstHbm a) (s.groupVi g) a (s.segData g key k)))
  | none => s

/-- A complete segment is rounded, written locally and sent (R244 steps 1 to 3); the last one makes the group EMITTED (R245). -/
def State.emitSeg (s : State) (key k : Nat) : State :=
  match s.group key with
  | some g =>
    let last := decide (g.emittedN + 1 = g.nSegs)
    let s1 := (List.range g.emits.length).foldl (fun t i => t.emitTo g key k i last (s.segData g key k)) (s.segPlace key k)
    (s1.updGroup key (fun x => { x with
      emittedN := x.emittedN + 1, since := s.clk.pkt, state := if last then .emitted else x.state,
      segs := x.segs.map (fun y => if y.seg = k then { y with emitted := true } else y) })).count1 .xrd 3
  | none => s

/-! ## Taking terms (R237, R239 to R243) -/

/-- Give a segment its block, cleared, where it has taken no term yet. -/
def State.openSeg (s : State) (g : Group) (key k : Nat) : State :=
  match g.seg k with
  | some _ => s
  | none =>
    (s.clearSlots (g.block key k) g.segElems).updGroup key (fun x =>
      { x with segs := x.segs ++ [{ seg := k, count := 0, emitted := false, placed := false, built := false }] })

/-- Add n elements from element e on, all of one segment in the window; a segment that reaches its expected count is
emitted. -/
def State.addTerms (s : State) (key e n : Nat) (bs : List Byte) : State :=
  match s.group key with
  | some g =>
    let k := e / g.segElems
    let s1 := s.openSeg g key k
    let s2 : State := { s1 with xrd := { s1.xrd with slots := g.addTo s1.xrd.slots (g.block key k + e % g.segElems) n bs } }
    let c := (match g.seg k with
      | some x => x.count
      | none => 0) + n
    let s3 := (s2.updGroup key (fun x => { x with
      terms := termSat (x.terms + n), since := s.clk.pkt,
      segs := x.segs.map (fun y => if y.seg = k then { y with count := c } else y) })).count xrdPage 1 n
    if c = g.contrib * g.segLen k then s3.emitSeg key k else s3
  | none => s

/-- Whether n more terms would exceed the expected count of a segment, or it has been emitted (R239 step 6). -/
def Group.exceeds (g : Group) (k n : Nat) : Bool :=
  g.emittedSeg k || decide (g.contrib * g.segLen k < (match g.seg k with
    | some x => x.count
    | none => 0) + n)

/-- The outcomes of R239. -/
inductive XOut where
  | pnr
  | refused (st : Status) (reason : Nat)
  | fails
  | hold
  | add
  deriving DecidableEq, Repr

/-- RKEY of a placement extension. -/
def extKey (ext : List Byte) : Nat := beAt ext 0 4
/-- OFFSET of a placement extension. -/
def extOff (ext : List Byte) : Nat := beAt ext 8 8

/-- Validate a reduction packet for partition q (R239); steps 1 to 8 in order. A source image with a reserved bit set is refused as
at step 5 (R231). -/
def State.xrdCheck (s : State) (q : Nat) (p : MlrPacket) : XOut :=
  let key := extKey p.ext
  if key / 2 ^ 25 ≠ q ∨ key / 2 ^ 20 % 32 ≠ 0 then .refused .accessViolation 1
  else
    match s.group key with
    | none => if s.owns q tySlot (key % 2 ^ 20) then .pnr else .refused .accessViolation 2
    | some g =>
      let b := g.srcBytes
      let e := extOff p.ext / b
      let n := p.payload.length / b
      if g.state ≠ .active then .refused .state 3
      else if extOff p.ext % b ≠ 0 ∨ p.payload.length % b ≠ 0 ∨ n = 0 ∨ e / g.segElems ≠ (e + n - 1) / g.segElems ∨ g.total < e + n ∨
          g.badImage n p.payload = true then .refused .format 4
      else if g.exceeds (e / g.segElems) n then .fails
      else if g.low + g.w ≤ e / g.segElems then .hold
      else .add

/-- XRD_REFUSED, at most one per connection in 1,600,000 PKT cycles (R155, R239, R249). -/
def State.xrdRefused (s : State) (c : Nat) (p : MlrPacket) (reason : Nat) : State :=
  let x := s.conn c
  let s1 := s.count1 .xrd 6
  let due := match x.xrdRefuseAt with
    | some t => decide (t + 1600000 ≤ s.clk.pkt)
    | none => true
  if due then
    (s1.updConn c (fun y => { y with xrdRefusals := 0, xrdRefuseAt := some s.clk.pkt })).event x.part 0x0140 .ok (extKey p.ext)
      (Word.of c) (Word.of (extOff p.ext)) (((0 : Word).setField 63 32 (x.xrdRefusals + 1)).setField 7 0 reason)
  else s1.updConn c (fun y => { y with xrdRefusals := y.xrdRefusals + 1 })

/-- A refusal sets the PSN's bit, sends the NAK and writes the event. -/
def State.xrdRefuse (s : State) (c : Nat) (p : MlrPacket) (st : Status) (reason : Nat) : State :=
  (((s.sendNak c p.psn st 0).rxSet c p.psn p.areq p.ce p.path)).xrdRefused c p reason

/-- NAK PAGE_NOT_READY with HINT_SLOT; the bit stays clear. -/
def State.xrdPnr (s : State) (c : Nat) (p : MlrPacket) (gen : Nat) : State :=
  (s.sendNak c p.psn .pageNotReady (s.hintSlot gen)).count1 .xrd 5

/-- Act on a reduction packet of a connection that has passed R126 and is no duplicate (R238 to R241). -/
def State.reduce (s : State) (c : Nat) (p : MlrPacket) : State :=
  let key := extKey p.ext
  let gen := match s.group key with
    | some g => g.gen
    | none => s.applied xrdPage
  match s.xrdCheck (s.conn c).part p with
  | .pnr => s.xrdPnr c p gen
  | .refused st reason => s.xrdRefuse c p st reason
  | .fails => (s.xrdRefuse c p .format 5).failGroup key .format
  | .hold =>
    if s.missRoom p then (s.missHold c .window 1 p).count1 .xrd 4 else s.xrdPnr c p gen
  | .add =>
    match s.group key with
    | some g =>
      ((s.addTerms key (extOff p.ext / g.srcBytes) (p.payload.length / g.srcBytes) p.payload).count1 .xrd 2).rxSet c p.psn p.areq
        p.ce p.path
    | none => s

/-- Take a packet out of the miss holding buffer. -/
def State.unhold (s : State) (hid : Nat) : State :=
  { s with mlr := { s.mlr with held := s.mlr.held.filter (fun h => h.hid ≠ hid) } }

/-- Take a packet out of the buffer and act on it under the set it arrived under (R38). -/
def State.heldTake (s : State) (h : HeldPkt) (f : State → State) : State := (s.unhold h.hid).underGen h.gen f

/-- SLOT_WAIT_EXPIRE: a packet still beyond the window SLOT_WAIT after its arrival is refused with PAGE_NOT_READY (R240). -/
def execSlotWaitExpire (conn psn : Nat) (s : State) : Host.Outcome State Fault Refusal :=
  .next (match s.mlr.held.find? (fun h => decide (h.conn = conn) && decide (h.why = .window) &&
      decide (h.pkt.psn = BitVec.ofNat 32 psn)) with
    | some h =>
      match s.group (extKey h.pkt.ext) with
      | some g => if h.at_ + s.slotWait g ≤ s.clk.pkt then s.heldTake h (fun t => t.xrdPnr conn h.pkt g.gen) else s
      | none => s
    | none => s)

/-! ## Release of segments and the end of a group (R237, R244 to R246) -/

/-- Whether packets of an emission wait to be built. -/
def State.emitWaits (s : State) (g : Group) (key k : Nat) : Bool :=
  g.emits.any (fun e => (s.conn e.conn).outq.any (fun p => match p.owner with
    | .emit a _ b => decide (a = key) && decide (b = k)
    | .work _ _ _ | .serve _ | .response _ | .step _ _ => false))

/-- LOW advances past each run of segments whose blocks are released; n bounds the run. -/
def Group.lowAdvance (g : Group) (n : Nat) : Group :=
  match n with
  | 0 => g
  | n + 1 =>
    match g.seg g.low with
    | some x => if x.built then { g with low := g.low + 1, segs := g.segs.filter (fun y => y.seg ≠ g.low) }.lowAdvance n else g
    | none => g

/-- Held packets whose segment has entered the window are acted on, in order of arrival. -/
def State.windowIn (s : State) (key : Nat) : State :=
  match s.group key with
  | some g =>
    (s.mlr.held.filter (fun h => h.ofGroup key && decide (extOff h.pkt.ext / g.srcBytes / g.segElems < g.low + g.w))).foldl
      (fun t h => if t.mlr.held.any (fun x => x.hid = h.hid) then t.heldTake h (fun u => u.reduce h.conn h.pkt) else t) s
  | none => s

/-- Whether the local write of a segment is placed. -/
def Group.segPlaced (g : Group) (k : Nat) : Bool := g.segs.any (fun x => decide (x.seg = k) && x.placed)

/-- An emitted segment whose local write is placed and whose packets are all built gives up its block, LOW advances, and held packets
enter the window (R244 step 4). -/
def State.segRelease (s : State) (key seg : Nat) : State :=
  match s.group key with
  | some g =>
    if g.segPlaced seg && !s.emitWaits g key seg then
      let free (y : Group) : Group :=
        { y with segs := y.segs.map (fun (z : Seg) => if z.seg = seg then { z with built := true } else z) }
      ((s.clearSlots (g.block key seg) g.segElems).updGroup key (fun y => (free y).lowAdvance (y.segs.length + 1))).windowIn key
    else s
  | none => s

/-- SEGMENT_RELEASE (R244): a local write that its memory did not take is tried again first. -/
def execSegmentRelease (key seg : Nat) (s : State) : Host.Outcome State Fault Refusal :=
  .next (match s.group key with
    | some g =>
      match g.seg seg with
      | some x => if x.emitted && !x.built then (if x.placed then s else s.segPlace key seg).segRelease key seg else s
      | none => s
    | none => s)

/-- GROUP_IDLE_TIMEOUT: no term and no emission for IDLE_TO × 65,536 PKT cycles (R246). -/
def execGroupIdleTimeout (key : Nat) (s : State) : Host.Outcome State Fault Refusal :=
  .next (match s.group key with
    | some g =>
      let t := (s.regFor xrdPage g.gen 0x108).field 31 0
      if g.state = .active ∧ t ≠ 0 ∧ g.since + t * 65536 ≤ s.clk.pkt then s.failGroup key .timeout else s
    | none => s)

/-- Free a group's context and its slots. -/
def State.freeGroup (s : State) (key : Nat) : State :=
  match s.group key with
  | some g =>
    let s1 := s.clearSlots (key % 2 ^ 20) g.slots
    { s1 with xrd := { s1.xrd with groups := Tab.erase s1.xrd.groups key } }
  | none => s

/-- GROUP_DONE: an EMITTED group whose local writes are placed and whose packets are all acknowledged frees its context, and its OPEN ends with OK (R245). -/
def execGroupDone (key : Nat) (s : State) : Host.Outcome State Fault Refusal :=
  .next (match s.group key with
    | some g =>
      let owes := g.emits.any (fun e => (s.conn e.conn).owners.any (fun o => match o with
        | .emit a _ _ => decide (a = key)
        | .work _ _ _ | .serve _ | .response _ | .step _ _ => false))
      if g.state = .emitted ∧ owes = false ∧ g.segs.all (fun x => x.placed) = true then (s.freeGroup key).workDone g.ring g.idx .ok 0 0 0 else s
    | none => s)

/-- REDUCTION_PACKET: a WRITE on an attached connection, once it has passed R126 and the window rule of R130. -/
def State.reductionPacket (s : State) (p : MlrPacket) : State :=
  if (s.conn p.dstConn).attached then s.reduce p.dstConn p else s

/-! ## Descriptors of engine 3 (R247, R248) -/

/-- The emit table entries at an address. -/
def State.emitTable (s : State) (a n : Nat) : List Emit :=
  (List.range n).map (fun i =>
    let ws := s.words (a + 32 * i) 4
    { conn := wf ws 0 63 40, imm := wf ws 0 31 0, rkey := wf ws 1 31 0, off := (wordAt ws 2).toNat })

/-- The group that an OPEN asks for. -/
def State.groupOf (s : State) (w : Work) : Group :=
  let ws := w.words
  { state := .active, part := w.part, ring := w.ring, idx := w.idx, dstAddr := (wordAt ws 2).toNat, total := wf ws 3 63 32,
    segElems := wf ws 3 31 11, slots := wf ws 4 43 23, op := wf ws 4 22 20, srcFmt := wf ws 4 19 16, dstFmt := wf ws 4 15 12,
    sat := wb ws 4 11, dstEn := wb ws 4 10, dstHbm := wb ws 4 9, contrib := wf ws 5 63 51,
    emits := s.emitTable (wordAt ws 6).toNat (wf ws 5 50 44), low := 0, segs := [], emittedN := 0, terms := 0,
    since := s.clk.pkt, gen := w.gen }

/-- Whether a format code is defined and not MX. -/
def xrdFmtOk (code : Nat) : Bool :=
  match elemOf code with
  | some e => !e.isMx
  | none => false

/-- The FORMAT checks of OPEN (R248). -/
def openFormatBad (ws : List Word) (g : Group) : Bool :=
  decide (2 < g.op) || !xrdFmtOk g.srcFmt || !xrdFmtOk g.dstFmt ||
  ((decide (g.srcFmt = 0xC) || decide (g.dstFmt = 0xC)) && decide (g.op ≠ 0)) || decide (g.total = 0) || decide (g.segElems = 0) ||
  decide (1048576 < g.segElems) || decide (g.contrib = 0) || decide (4096 < g.contrib) || decide (g.slots = 0) ||
  decide (g.slots % g.segElems ≠ 0) || decide (1048576 < wf ws 4 63 44 + g.slots) || decide (64 < wf ws 5 50 44) ||
  (!g.dstEn && decide (wf ws 5 50 44 = 0)) || decide (g.dstAddr % 64 ≠ 0) || decide ((wordAt ws 6).toNat % 64 ≠ 0)

/-- Whether a slot range touches another group's. -/
def State.slotsTaken (s : State) (first n : Nat) : Bool :=
  s.xrd.groups.any (fun e => decide (first < e.1 % 2 ^ 20 + e.2.slots) && decide (e.1 % 2 ^ 20 < first + n))

/-- The checks of OPEN (R248); an emit table whose read fails twice ends it with POISONED (R469). -/
def State.xrdOpenCheck (s : State) (w : Work) (g : Group) : Status :=
  let ws := w.words
  let first := wf ws 4 63 44
  if openFormatBad ws g then .format
  else
    firstFail [
      (!((List.range g.slots).all (fun i => s.owns w.part tySlot (first + i))) ||
        (g.dstEn && !s.mayReach w.part w.vi (spaceOf g.dstHbm g.dstAddr) g.dstAddr (g.total * g.dst.bits / 8)) ||
        (decide (g.emits ≠ []) && !s.ownsHbm w.part (wordAt ws 6).toNat (32 * g.emits.length)), .accessViolation),
      ((s.firstBad (wordAt ws 6).toNat (32 * g.emits.length)).isSome, .poisoned),
      (g.emits.any (fun e => !s.owns w.part tyConn e.conn), .accessViolation),
      (s.slotsTaken first g.slots || g.emits.any (fun e => decide ((s.conn e.conn).state ≠ .active)), .state),
      (decide (16384 ≤ s.xrd.groups.length), .resource)]

/-- XRD_OPEN: OPEN of engine 3. -/
def execXrdOpen (ring idx : Nat) (s : State) : Host.Outcome State Fault Refusal :=
  .next (s.runDesc ring idx 3 1 (fun w =>
    let g := s.groupOf w
    match s.xrdOpenCheck w g with
    | .ok =>
      let s1 : State := { s with xrd := { s.xrd with groups := Tab.insert s.xrd.groups (groupKey w.part (wf w.words 4 63 44)) g } }
      let s2 : State := { s1 with xrd := { s1.xrd with hwm := max s1.xrd.hwm s1.xrd.groups.length } }
      s2.updWork ring idx (fun v => { v with phase := .running })
    | st => s.workFail ring idx st))

/-- SRC_ADDR, COUNT and FIRST_ELEM of a CONTRIBUTE against its group (R248). -/
def State.contribCheck (s : State) (w : Work) : Status :=
  let ws := w.words
  let n := wf ws 3 63 32
  let slot := wf ws 4 63 44
  let a := (wordAt ws 2).toNat
  match s.group (groupKey w.part slot) with
  | some g =>
    firstFail [
      (decide (n = 0) || decide (g.total < wf ws 3 31 0 + n) || decide (a % g.srcBytes ≠ 0), .format),
      (!s.owns w.part tySlot slot || !s.mayReach w.part w.vi (spaceOf (wb ws 4 43) a) a (n * g.srcBytes), .accessViolation),
      (decide (g.state ≠ .active), .state)]
  | none => firstFail [(decide (n = 0), .format), (!s.owns w.part tySlot slot, .accessViolation), (true, .state)]

/-- Add a CONTRIBUTE's terms from its element i on, segment by segment, as far as the window and the source's bytes allow; k bounds
the segments. -/
def State.contribRun (s : State) (w : Work) (i k : Nat) : State :=
  let ws := w.words
  let n := wf ws 3 63 32
  let key := groupKey w.part (wf ws 4 63 44)
  if n ≤ i then s.workDone w.ring w.idx .ok 0 0 0
  else
    match k with
    | 0 => s
    | k + 1 =>
      match s.group key with
      | none => s
      | some g =>
        let e := wf ws 3 31 0 + i
        let m := min (n - i) (g.segElems - e % g.segElems)
        let a := (wordAt ws 2).toNat + i * g.srcBytes
        let s1 := s.updWork w.ring w.idx (fun v => { v with phase := .ready, ctx := .contribute i })
        if g.exceeds (e / g.segElems) m then s1.failGroup key .format
        else if g.low + g.w ≤ e / g.segElems then s1
        else
          match s1.fetch w (spaceOf (wb ws 4 43) a) a (m * g.srcBytes) with
          | .wait s2 => s2
          | .got data =>
            if g.badImage m data then s1.workFail w.ring w.idx .format
            else
              ((s1.addTerms key e m data).updWork w.ring w.idx (fun v => { v with ctx := .contribute (i + m) })).contribRun w (i + m) k

/-- CONTRIBUTE: adds local terms, waiting for segments beyond the window (R247, R248). -/
def execContribute (ring idx : Nat) (s : State) : Host.Outcome State Fault Refusal :=
  .next (s.runDesc ring idx 3 2 (fun w =>
    let n := wf w.words 3 63 32
    match w.ctx with
    | .contribute i => s.contribRun w i (n + 1)
    | .none | .send _ _ _ | .read _ _ _ _ | .probe _ _ _ | .ingest _ _ _ _ _ | .cipher _ _ _ | .restore _ _ _ _ _ =>
      match s.contribCheck w with
      | .ok => s.contribRun w 0 (n + 1)
      | st => s.workFail ring idx st))

/-- ATTACH: a connection's WRITE packets become reduction packets, or cease to be (R238, R248). -/
def execAttach (ring idx : Nat) (s : State) : Host.Outcome State Fault Refusal :=
  .next (s.runDesc ring idx 3 3 (fun w =>
    let c := wf w.words 2 23 0
    if s.owns w.part tyConn c then
      (s.updConn c (fun x => { x with attached := wb w.words 2 24 })).workDone ring idx .ok 0 0 0
    else s.workFail ring idx .accessViolation))

/-- The code of a group's state (R247). -/
def GroupState.code : GroupState → Nat
  | .active => 1 | .emitted => 2 | .failed => 3

/-- XRD_QUERY: QUERY of engine 3. -/
def execXrdQuery (ring idx : Nat) (s : State) : Host.Outcome State Fault Refusal :=
  .next (s.runDesc ring idx 3 4 (fun w =>
    let slot := wf w.words 2 19 0
    match s.group (groupKey w.part slot) with
    | some g =>
      s.workDone ring idx .ok 0 (((0 : Word).setField 63 62 g.state.code).setField 31 0 g.low) (Word.of g.terms)
    | none => s.workFail ring idx (if s.owns w.part tySlot slot then .state else .accessViolation)))

/-- XRD_CLOSE: CLOSE of a FAILED group frees its context (R245, R248). -/
def execXrdClose (ring idx : Nat) (s : State) : Host.Outcome State Fault Refusal :=
  .next (s.runDesc ring idx 3 5 (fun w =>
    let slot := wf w.words 2 19 0
    match s.group (groupKey w.part slot) with
    | some g =>
      if g.state = .failed then (s.freeGroup (groupKey w.part slot)).workDone ring idx .ok 0 0 0 else s.workFail ring idx .state
    | none => s.workFail ring idx (if s.owns w.part tySlot slot then .state else .accessViolation)))

end Sys2Proof.Machine
end

