-- ==== Sys2Proof/Machine/Rma.lean ====
section
/-! DEFINITION. What arriving Millrace packets do, and remote memory: regions, validation, placement, paging on demand, remote
reads, revocation and the descriptors of engine 0x02 (07_millrace_transport.md R120, R126, R130, R142, R146;
08_remote_memory.md). -/

namespace Sys2Proof.Machine

/-- The RMA page. -/
abbrev rmaPage : Page := Blk.rma.page

/-! ## Regions (R150, R151) -/

/-- The HBM address of the entry of a region key, where its partition's table has that index. -/
def State.regionAt (s : State) (key : Nat) : Option Nat :=
  match (s.part (key / 2 ^ 25)).rmaTable with
  | some t => if key % 2 ^ 25 < t.2 then some (t.1 + 64 * (key % 2 ^ 25)) else none
  | none => none

/-- The first four words of a region entry. -/
def State.region (s : State) (key : Nat) : List Word :=
  match s.regionAt key with
  | some a => s.words a 4
  | none => []

/-- STATE of a region. -/
def gState (e : List Word) : Nat := wf e 0 63 62
/-- MODE of a region. -/
def gMode (e : List Word) : Nat := wf e 0 61 60
/-- VI of a region. -/
def gVi (e : List Word) : Nat := wf e 0 52 41
/-- BASE of a region. -/
def gBase (e : List Word) : Nat := (wordAt e 1).toNat
/-- LENGTH of a region. -/
def gLen (e : List Word) : Nat := (wordAt e 2).toNat
/-- NOTIFY_RING of a region. -/
def gRing (e : List Word) : Nat := wf e 0 40 24
/-- NOTIFY_SYNC of a region. -/
def gSync (e : List Word) : Nat := wf e 0 13 0
/-- CONN_BIND of a region. -/
def gBind (e : List Word) : Nat := wf e 3 63 40

/-- Write STATE of a region. -/
def State.setRegionState (s : State) (key st : Nat) : State :=
  match s.regionAt key with
  | some a => s.setWord a ((s.word a).setField 63 62 st)
  | none => s

/-- Packets validated against a region and in flight (R168): writes not placed, READ_REQs not served, and stalled packets. -/
def State.regionInFlight (s : State) (key : Nat) : Nat :=
  (s.mlr.conns.map (fun e =>
    (e.2.rxPkts.filter (fun p => p.key = key)).length + (e.2.serves.filter (fun v => v.key = key)).length +
    (s.mlr.held.filter (fun h => h.conn = e.1 && s.stalls h && decide (extKey h.pkt.ext = key))).length)).sum

/-! ## Refusals (R154, R155, R160) -/

/-- The NAK code of a REASON. -/
def reasonCode (reason : Nat) : Status :=
  if reason = 9 then .timeout else if reason = 11 then .poisoned else .accessViolation

/-- The event status of a REASON. -/
def reasonStatus (reason : Nat) : Status :=
  if reason = 9 ∨ reason = 10 then .pageNotReady else if reason = 11 then .poisoned else .peerViolation

/-- Whether an event limited to one in 1,600,000 PKT cycles is due. -/
def State.limitDue (s : State) (t : Option Nat) : Bool :=
  match t with
  | some t => decide (t + 1600000 ≤ s.clk.pkt)
  | none => true

/-- An RMA_VIOLATION event that counts refusals. -/
def State.violation (s : State) (q obj w1 off n reason : Nat) : State :=
  s.event q 0x0120 (reasonStatus reason) obj (Word.of w1) (Word.of off) (((0 : Word).setField 63 32 n).setField 7 0 reason)

/-- Report a refusal on a connection. -/
def State.connViolation (s : State) (c : Nat) (p : MlrPacket) (reason : Nat) : State :=
  let x := s.conn c
  if s.limitDue x.refuseAt then
    (s.updConn c (fun y => { y with refusals := 0, refuseAt := some s.clk.pkt })).violation x.part (extKey p.ext) c (extOff p.ext)
      (x.refusals + 1) reason
  else s.updConn c (fun y => { y with refusals := y.refusals + 1 })

/-- Report a refusal on a spate channel. -/
def State.spateViolation (s : State) (n : Nat) (p : MlrPacket) (reason : Nat) : State :=
  let s1 := (s.count1 .rma 4).count1 .rma 0x0A
  match s.spate n with
  | some x =>
    let upd (r : Nat) (a : Option Nat) : State := s1.updSpate n (fun y => { y with refusals := r, refuseAt := a })
    if s.limitDue x.refuseAt then
      (upd 0 (some s.clk.pkt)).violation x.part (extKey p.ext) (0x01000000 + n) (extOff p.ext) (x.refusals + 1) reason
    else upd (x.refusals + 1) x.refuseAt
  | none => s1

/-- Refuse a connected packet with a NAK of a code: its bit is set as if it had been accepted. -/
def State.nakSet (s : State) (c : Nat) (p : MlrPacket) (st : Status) : State :=
  (s.sendNak c p.psn st 0).rxSet c p.psn p.areq p.ce p.path

/-- Refuse a connected packet for a REASON (R154). -/
def State.rmaRefuse (s : State) (c : Nat) (p : MlrPacket) (reason : Nat) : State :=
  (((s.count1 .rma 4).nakSet c p (reasonCode reason))).connViolation c p reason

/-- NAK PAGE_NOT_READY with the hint of a mode; the bit stays clear. -/
def State.rmaPnr (s : State) (c : Nat) (p : MlrPacket) (mode : Nat) : State :=
  let w := s.reg rmaPage 0x108
  (s.sendNak c p.psn .pageNotReady (if mode = 1 then w.field 63 32 else w.field 31 0)).count1 .rma 5

/-! ## Validation (R153) -/

/-- Bytes that an access covers: LEN, or RLEN of a READ_REQ. -/
def accLen (typ : Nat) (p : MlrPacket) : Nat := if typ = 3 then beAt p.ext 4 4 else p.payload.length

/-- Steps 1 and 2: the REASON of a key that names no entry of partition q's table. -/
def State.keyReason (s : State) (q key : Nat) : Option Nat :=
  if key / 2 ^ 25 ≠ q then some 1 else if (s.regionAt key).isNone then some 2 else none

/-- Steps 3 to 7: the REASON for an access through a connection (none for a spate channel). -/
def regionReason (e : List Word) (typ : Nat) (conn : Option Nat) (off len : Nat) : Option Nat :=
  if gState e = 0 then some 3
  else if gState e = 2 then some 4
  else if !wb e 0 (if typ = 9 then 58 else if typ = 3 then 57 else 56) then some 5
  else if gLen e < off + len then some 6
  else if wb e 3 39 && decide (conn ≠ some (gBind e)) then some 7
  else none

/-- The status that R160 gives a MODE 2 access while the VI or the link may not issue. -/
def State.hostRefusal (s : State) (e : List Word) : Option Status :=
  if gMode e ≠ 2 then none
  else if (s.vi (gVi e)).state ≠ .enabled then some .abortedByReset
  else if !s.hostUp then some .state
  else none

/-! ## Translation and pages (R151, R161, R430) -/

/-- What a page of a region's address space is: at an address, absent, or never to be present. -/
inductive PageAt where
  | at_ (a : Nat)
  | absent
  | invalid
  deriving DecidableEq, Repr

/-- Look up a device virtual address in a partition's page table (R430). -/
def State.dptLookup (s : State) (q va : Nat) : PageAt :=
  match (s.part q).dptRoot with
  | some root =>
    if 2 ^ 48 ≤ va then .absent
    else
      let r := s.word (root + 8 * (va / 2 ^ 32))
      if r.bit 63 then
        let l := s.word (r.field 47 16 * 65536 + 8 * (va / 65536 % 65536))
        if l.bit 62 then .invalid
        else if l.bit 63 then .at_ (l.field 47 16 * 65536 + va % 65536)
        else .absent
      else .absent
  | none => .absent

/-- The page that a fault is about: mode, partition, VI, page number. -/
structure PageId where
  mode : Nat
  part : Nat
  vi : Nat
  page : Nat
  deriving DecidableEq, Repr

/-- Where the bytes of an access lie: pieces of HBM or host memory, or the page that stops it. -/
inductive Trans where
  | at_ (segs : List (Nat × Nat))
  | absent (id : PageId)
  | invalid (id : PageId)
  deriving DecidableEq, Repr

/-- The pieces of an extent, split at multiples of a page size. -/
def pagePieces (size a len : Nat) : List (Nat × Nat) :=
  if len = 0 then []
  else (List.range ((a + (len - 1)) / size - a / size + 1)).map (fun i =>
    let lo := max a ((a / size + i) * size)
    (lo, min (a + len) ((a / size + i + 1) * size) - lo))

/-- The page of one piece. -/
def State.pieceAt (s : State) (q : Nat) (e : List Word) (x : Nat × Nat) : Trans :=
  if gMode e = 1 then
    let id : PageId := { mode := 1, part := q, vi := 0, page := x.1 / 65536 }
    match s.dptLookup q x.1 with
    | .at_ a => .at_ [(a, x.2)]
    | .absent => .absent id
    | .invalid => .invalid id
  else if gMode e = 2 ∧ wb e 0 55 = true ∧ s.hostPage (some (gVi e)) (x.1 / 4096) = false then
    .absent { mode := 2, part := q, vi := gVi e, page := x.1 / 4096 }
  else .at_ [x]

/-- Join the translations of pieces in rising order: the first page that stops the access decides. -/
def joinTrans (l : List Trans) : Trans :=
  match l with
  | [] => .at_ []
  | .at_ a :: r =>
    match joinTrans r with
    | .at_ b => .at_ (a ++ b)
    | t => t
  | t :: _ => t

/-- Translate an access of partition q to a region. -/
def State.translate (s : State) (q : Nat) (e : List Word) (off len : Nat) : Trans :=
  joinTrans ((pagePieces (if gMode e = 1 then 65536 else 4096) (gBase e + off) len).map (s.pieceAt q e))

/-- The host pages of an access to a region with on-demand paging are translated by ATS, where the cache lacks them (R151, R161). -/
def State.atsRange (s : State) (e : List Word) (off len : Nat) : State :=
  if gMode e = 2 ∧ wb e 0 55 = true then
    (pagePieces 4096 (gBase e + off) len).foldl (fun t x => t.atsPage (some (gVi e)) (x.1 / 4096)) s
  else s

/-- Write bytes at the pieces of an access. -/
def State.putSegs (s : State) (host : Option Nat) (segs : List (Nat × Nat)) (data : List Byte) : State :=
  match segs with
  | [] => s
  | x :: r =>
    (match host with
      | some v => s.hostWrite (some v) x.1 (data.take x.2)
      | none => s.setBytes x.1 (data.take x.2)).putSegs host r (data.drop x.2)

/-- The VI of a MODE 2 region. -/
def gHost (e : List Word) : Option Nat := if gMode e = 2 then some (gVi e) else none

/-! ## The fault table and stalls (R161 to R164) -/

/-- The fault entry of a page. -/
def State.faultOf (s : State) (id : PageId) : Option FaultEntry :=
  s.mlr.faults.find? (fun f => decide (f.mode = id.mode) && decide (f.part = id.part) && decide (f.vi = id.vi) && decide (f.page = id.page))

/-- Ask for a page: an event for firmware, or a page request, which is not sent while PRI is stopped (R61, R161, R430). -/
def State.pageAsk (s : State) (id : PageId) : State :=
  if id.mode = 1 then s.event 0 0x01A0 .ok id.part 0 (Word.of (id.page * 65536)) 0 else s.priAsk (some id.vi) id.page none

/-- Open a fault entry and ask for its page. -/
def State.faultOpen (s : State) (id : PageId) : State :=
  let f : FaultEntry := { id := s.mlr.nextFault, mode := id.mode, part := id.part, vi := id.vi, page := id.page, at_ := s.clk.pkt,
                          limited := false, told := false }
  ({ s with mlr := { s.mlr with faults := s.mlr.faults ++ [f], nextFault := s.mlr.nextFault + 1,
                                faultHwm := max s.mlr.faultHwm (s.mlr.faults.length + 1) } } : State).pageAsk id

/-- What meeting an absent page comes to: a stall under a fault entry; refusal past the limit; or no room in the table. -/
inductive Miss where
  | stall (fid : Nat)
  | limit
  | full
  deriving DecidableEq, Repr

/-- The page of an open entry is asked for again, where no request for a host page is outstanding: one that was opened while PRI was
stopped has sent none (R162). -/
def State.pageAgain (s : State) (id : PageId) : State := if id.mode = 1 then s else s.pageAsk id

/-- Meet an absent page. -/
def State.faultMeet (s : State) (id : PageId) : Miss × State :=
  match s.faultOf id with
  | some f =>
    let s1 := s.pageAgain id
    if f.limited then
      (.limit, if f.told then s1 else
        ({ s1 with mlr := { s1.mlr with faults := s1.mlr.faults.map (fun g => if g.id = f.id then { g with told := true } else g) } }
          : State).setIntBit rmaPage 10)
    else (.stall f.id, s1)
  | none => if 4096 ≤ s.mlr.faults.length then (.full, s.setIntBit rmaPage 9) else (.stall s.mlr.nextFault, s.faultOpen id)

/-- CFG0.STALL. -/
def State.stallLimit (s : State) : Nat := (s.reg rmaPage 0x100).field 63 48

/-- A stall of a connection starts: for a fault entry, by the packet or READ_REQ of a PSN (R161, R165). -/
def State.stallStart (s : State) (c fid : Nat) (psn : BitVec 32) : State :=
  (s.updConn c (fun x => { x with stalls := x.stalls ++ [(fid, psn, s.clk.pkt + s.stallLimit)] })).count1 .rma 6

/-- Whether a connection is stalled (R161). -/
def Conn.stalled (x : Conn) : Bool := decide (x.stalls ≠ [])

/-- A packet meets an absent page: it stalls its connection, or is refused. ended names a page whose stall has just ended. -/
def State.packetStall (s : State) (c typ : Nat) (p : MlrPacket) (id : PageId) (ended : Option PageId) : State :=
  match s.faultMeet id with
  | (.limit, s1) => s1.rmaRefuse c p 9
  | (.full, s1) => s1.rmaPnr c p id.mode
  | (.stall fid, s1) =>
    if ended = some id then s1.rmaPnr c p id.mode
    else if s1.missRoom p then (s1.missHold c .stall typ p).stallStart c fid p.psn
    else s1.missFull

/-! ## Writes and READ_REQs (R153 to R160, R165) -/

/-- Whether a READ_REQ or WRITE_LAST has earlier PSNs outstanding and must be held (R157). -/
def Conn.mustHold (x : Conn) (psn : BitVec 32) : Bool := decide (x.rxNext ≠ psn)

/-- A validated write whose pages are present: in flight until WRITE_PLACED or WRITE_LAST_PLACE. A WRITE_LAST with earlier PSNs
missing is held and its bit set, where the buffer has room (R158). -/
def State.writeIn (s : State) (c typ : Nat) (p : MlrPacket) (e : List Word) (segs : List (Nat × Nat)) : State :=
  let x := s.conn c
  let r : RxPkt := { psn := p.psn, typ := typ, pkt := p, key := extKey p.ext, host := gHost e,
                     gen := s.rxGenNow, segs := segs }
  if typ = 2 ∧ x.mustHold p.psn = true then
    if s.missRoom p then
      ((((s.updConn c (fun y => { y with rxPkts := y.rxPkts ++ [r] })).rxSet c p.psn p.areq p.ce p.path).count1 .rma 7)).missNote
    else s.missFull
  else s.updConn c (fun y => { y with rxPkts := y.rxPkts ++ [r] })

/-- A validated READ_REQ: its bit is set, and its service waits for the earlier writes. -/
def State.readIn (s : State) (c : Nat) (p : MlrPacket) : State :=
  if (s.conn c).mustHold p.psn && !s.missRoom p then s.missFull
  else
    let v : Serve := { psn := p.psn, key := extKey p.ext, off := extOff p.ext, len := accLen 3 p, sent := 0, started := false, buf := [] }
    ((s.updConn c (fun y => { y with serves := y.serves ++ [v] })).rxSet c p.psn p.areq p.ce p.path).missNote

/-- Act on a packet validated against its region: R160, then its pages. A READ_REQ looks at the pages of its first READ_RESP. -/
def State.rmaTake (s : State) (c typ : Nat) (p : MlrPacket) (ended : Option PageId) : State :=
  let x := s.conn c
  let e := s.region (extKey p.ext)
  let n := if typ = 3 then min (accLen 3 p) (mtuBytes x.mtu) else p.payload.length
  match s.hostRefusal e with
  | some st => (s.count1 .rma 4).nakSet c p st
  | none =>
    let s1 := s.atsRange e (extOff p.ext) n
    match s1.translate x.part e (extOff p.ext) n with
    | .at_ segs => if typ = 3 then s1.readIn c p else s1.writeIn c typ p e segs
    | .absent id => s1.packetStall c typ p id ended
    | .invalid _ => s1.rmaRefuse c p 8

/-- The most recently used region entry goes last; the cache holds 32,768 (R150). -/
def State.regionTouch (s : State) (key : Nat) : State :=
  let l := s.mlr.regionCache.filter (fun k => k ≠ key) ++ [key]
  { s with mlr := { s.mlr with regionCache := l.drop (l.length - 32768) } }

/-- Start the fetch of a region entry. -/
def State.regionMiss (s : State) (key : Nat) : State :=
  if s.mlr.regionFetch.contains key then s
  else ({ s with mlr := { s.mlr with regionFetch := s.mlr.regionFetch ++ [key] } } : State).count1 .rma 9

/-- The checks of RMA at the swap (08, RMA page). -/
def State.rmaChecks (s : State) : List (Nat × Bool) :=
  [(0x100, decide (12800 < (s.shade rmaPage 0x100).field 63 48) || decide ((s.shade rmaPage 0x100).field 31 0 = 0))]

/-- A validation by the RMA block: after the swap of its page, where one is armed (R38). -/
def State.rmaSwap (s : State) : State := s.swapFirst rmaPage s.rmaChecks

/-- Validate a WRITE, WRITE_LAST or READ_REQ (R153): its entry may first have to be fetched. -/
def State.rmaIn (s : State) (c typ : Nat) (p : MlrPacket) (ended : Option PageId) : State :=
  let s0 := s.rmaSwap
  let key := extKey p.ext
  match s0.keyReason (s0.conn c).part key with
  | some r => s0.rmaRefuse c p r
  | none =>
    if s0.mlr.regionCache.contains key then
      match regionReason (s0.region key) typ (some c) (extOff p.ext) (accLen typ p) with
      | some r => (s0.regionTouch key).rmaRefuse c p r
      | none => (s0.regionTouch key).rmaTake c typ p ended
    else (s0.missHold c .region typ p).regionMiss key

/-! ## Spate (R146, R164) -/

/-- A SPATE_WRITE validated against its region: placed, or dropped with its report; a MODE 2 access that R160 refuses is dropped
without one. -/
def State.spateTake (s : State) (n : Nat) (x : Spate) (p : MlrPacket) : State :=
  let e := s.region (extKey p.ext)
  match s.hostRefusal e with
  | some _ => (s.count1 .rma 4).count1 .rma 0x0A
  | none =>
    let s1 := s.atsRange e (extOff p.ext) p.payload.length
    match s1.translate x.part e (extOff p.ext) p.payload.length with
    | .at_ segs =>
      (((s1.putSegs (gHost e) segs p.payload).count1 .mlr 0x0F).count1 .rma 1).syncAdd x.sync (Word.of p.payload.length)
    | .absent id =>
      match s1.faultMeet id with
      | (.limit, s2) => s2.spateViolation n p 9
      | (.stall _, s2) | (.full, s2) => s2.spateViolation n p 10
    | .invalid _ => s1.spateViolation n p 8

/-- Validate a SPATE_WRITE (R146, R153, R164). -/
def State.spateIn (s : State) (n : Nat) (p : MlrPacket) : State :=
  let s0 := s.rmaSwap
  match s0.spate n with
  | none => s0
  | some x =>
    let key := extKey p.ext
    match s0.keyReason x.part key with
    | some r => s0.spateViolation n p r
    | none =>
      if s0.mlr.regionCache.contains key then
        match regionReason (s0.region key) 9 none (extOff p.ext) p.payload.length with
        | some r => (s0.regionTouch key).spateViolation n p r
        | none => (s0.regionTouch key).spateTake n x p
      else (s0.missHold n .region 9 p).regionMiss key

/-! ## READ_RESP at the requester (R166, R167) -/

/-- The descriptor whose latest READ_REQ on a connection has this PSN. -/
def State.readOf (s : State) (c : Nat) (psn : BitVec 32) : Option Work :=
  s.work.find? (fun w => match w.ctx with
    | .read rq _ _ _ => decide (rConn w.words = c) && decide (rq = some psn) && decide (w.phase ≠ .done)
    | .restore _ _ rq _ _ => w.restoresOn c && decide (rq = some psn)
    | .none | .send _ _ _ | .probe _ _ _ | .ingest _ _ _ _ _ | .contribute _ | .cipher _ _ _ => false)

/-- Bytes of [0, len) that a list of ranges covers. -/
def covered (rs : List (Nat × Nat)) (len : Nat) : Bool :=
  let step (m : Nat) : Nat := rs.foldl (fun a r => if r.1 ≤ a ∧ a < r.1 + r.2 then r.1 + r.2 else a) m
  decide (len ≤ (List.range (rs.length + 1)).foldl (fun a _ => step a) 0)

/-- CFG2.RD_WAIT. -/
def State.rdWait (s : State) : Nat := (s.reg rmaPage 0x110).field 31 0

/-- A READ takes a READ_RESP: payload placed, a wait before a new request, or the end of the descriptor. -/
def State.readTake (s : State) (w : Work) (pos : Nat) (rq : Option (BitVec 32)) (placed : List (Nat × Nat)) (resume : Option (Nat × Nat))
    (st roff : Nat) (data : List Byte) : State :=
  match Status.ofCode st with
  | some .ok =>
    let at_ := pos + roff
    let d := data.take (rLen w.words - at_)
    let a := (wordAt w.words 2).toNat + at_
    let s1 := (s.put (spaceOf (wb w.words 5 38) a) w.vi a d).count1 .rma 3
    let all := if d = [] then placed else placed ++ [(at_, d.length)]
    if covered all (rLen w.words) then s1.workDone w.ring w.idx .ok 0 0 0
    else s1.updWork w.ring w.idx (fun v => { v with ctx := .read rq pos all resume })
  | some .pageNotReady =>
    s.updWork w.ring w.idx (fun v => { v with ctx := .read rq pos placed (some (s.clk.pkt + s.rdWait, pos + roff)) })
  | some x => s.workFail w.ring w.idx x
  | none => s.workFail w.ring w.idx .integrity

/-- A RESTORE takes a READ_RESP: container bytes go to its buffer, keyed by source and offset; the failure of a source is
recorded. -/
def State.restoreTake (s : State) (w : Work) (fails : List (Nat × Status)) (rd : Nat × Nat × Nat) (rq : Option (BitVec 32)) (pos : Nat)
    (resume : Option (Nat × Nat)) (st roff : Nat) (data : List Byte) : State :=
  let base := rd.1 * 2 ^ 64 + rd.2.1
  match Status.ofCode st with
  | some .ok =>
    let b := bufPut w.buf (base + pos + roff) (data.take (rd.2.2 - (pos + roff)))
    let fin := bufHas b base rd.2.2
    s.updWork w.ring w.idx (fun v => { v with
      buf := b, ctx := if fin then .restore fails none none 0 none else .restore fails (some rd) rq pos resume })
  | some .pageNotReady =>
    s.updWork w.ring w.idx (fun v => { v with ctx := .restore fails (some rd) rq pos (some (s.clk.pkt + s.rdWait, pos + roff)) })
  | some x => s.updWork w.ring w.idx (fun v => { v with ctx := .restore (fails ++ [(rd.1, x)]) none none 0 none })
  | none => s.updWork w.ring w.idx (fun v => { v with ctx := .restore (fails ++ [(rd.1, .integrity)]) none none 0 none })

/-- Whether the payload of a READ_RESP must wait for memory that takes no writes now (R76, R77). -/
def State.respWaits (s : State) (c : Nat) (p : MlrPacket) : Bool :=
  match s.readOf c (BitVec.ofNat 32 (beAt p.ext 0 4)) with
  | some w =>
    match w.ctx with
    | .read _ pos _ _ =>
      let a := (wordAt w.words 2).toNat + pos + beAt p.ext 8 8
      decide (beAt p.ext 4 1 = 0) && !s.spaceUp (spaceOf (wb w.words 5 38) a) w.vi a
    | .restore _ _ _ _ _ | .none | .send _ _ _ | .probe _ _ _ | .ingest _ _ _ _ _ | .contribute _ | .cipher _ _ _ => false
  | none => false

/-- A READ_RESP is handled (R166, R167): its bit is set whether or not a read waits for it. -/
def State.respDone (s : State) (c : Nat) (p : MlrPacket) : State :=
  let psn := BitVec.ofNat 32 (beAt p.ext 0 4)
  let st := beAt p.ext 4 1
  let roff := beAt p.ext 8 8
  (match s.readOf c psn with
    | some w =>
      match w.ctx with
      | .read rq pos placed resume => s.readTake w pos rq placed resume st roff p.payload
      | .restore fails (some rd) rq pos resume => s.restoreTake w fails rd rq pos resume st roff p.payload
      | .restore _ none _ _ _ | .none | .send _ _ _ | .probe _ _ _ | .ingest _ _ _ _ _ | .contribute _ | .cipher _ _ _ => s
    | none => (s.count1 .rma 8).errFor .rma 2 (s.conn c).part).rxSet c p.psn p.areq p.ce p.path

/-- The key under which a READ_RESP in flight names no region. -/
def noRegion : Nat := 2 ^ 32

/-- A READ_RESP arrives. One whose memory takes no writes now stays in flight until WRITE_PLACED places it (R166; DESIGN CHOICE,
assumption 127). -/
def State.readResp (s : State) (c : Nat) (p : MlrPacket) : State :=
  if s.respWaits c p then
    let r : RxPkt := { psn := p.psn, typ := 4, pkt := p, key := noRegion, host := none, segs := [], gen := s.rxGenNow }
    s.updConn c (fun y => { y with rxPkts := y.rxPkts ++ [r] })
  else s.respDone c p

/-! ## Arrival (R120, R126, R130, R142) -/

/-- Act on a data packet that has passed R126, is no duplicate and is not behind a stall. -/
def State.dataIn (s : State) (c typ : Nat) (p : MlrPacket) (ended : Option PageId) : State :=
  if typ = 4 then s.readResp c p
  else if decide (typ ≠ 3) && (s.conn c).attached then s.reduce c p
  else s.rmaIn c typ p ended

/-- Whether a data packet is a duplicate (R130): its PSN lies before RX_NEXT, its bit is set, or an earlier copy is being acted
on. -/
def State.duplicate (s : State) (c : Nat) (psn : BitVec 32) : Bool :=
  let x := s.conn c
  psnBefore psn x.rxNext || x.rxBits.contains psn || x.rxPkts.any (fun p => p.psn = psn) ||
  s.mlr.held.any (fun h => decide (h.conn = c) && decide (h.typ ≠ 9) && decide (h.why ≠ .context) && decide (h.pkt.psn = psn))

/-- Whether the bit of a PSN is set or RX_NEXT has passed it. -/
def Conn.accepted (x : Conn) (psn : BitVec 32) : Bool := psnBefore psn x.rxNext || x.rxBits.contains psn

/-- AREQ of a data packet asks for an ACK or SACK at once, also where its bit is not set yet (R131). -/
def State.areqAck (s : State) (c : Nat) (p : MlrPacket) : State :=
  if p.areq && !(s.conn c).accepted p.psn && (s.conn c).live then s.sendAck c none else s

/-- A data packet that has passed R126. -/
def State.dataArrive (s : State) (c typ : Nat) (p : MlrPacket) : State :=
  if s.duplicate c p.psn then (s.count1 .mlr 8).sendAck c none
  else
    let s1 := (s.count1 .mlr 3).connAck c p.ackPsn []
    (if (s1.conn c).stalled then s1.missHold c .stall typ p else s1.dataIn c typ p none).areqAck c p

/-- What a control packet does by its type, once its ACK_PSN and MAP have acted (R135, R137, R148). -/
def State.ctrlAct (s : State) (c typ : Nat) (p : MlrPacket) : State :=
  match typ with
  | 7 => s.nakIn c (BitVec.ofNat 32 (beAt p.ext 0 4)) (beAt p.ext 4 1) (beAt p.ext 8 4)
  | 8 =>
    if ((p.ext.getD 0 0).toNat).testBit 7 then s.probeEcho c (beAt p.ext 4 4) (beAt p.ext 8 8)
    else s.sendCtrl c 8 (probeExt true (beAt p.ext 4 4) (beAt p.ext 8 8))
  | _ => if p.ece then s.eceIn c p.path else s

/-- A control packet that has passed R126 (R131, R132, R135, R138, R148). -/
def State.ctrlArrive (s : State) (c typ : Nat) (p : MlrPacket) : State :=
  let s1 := ((s.count1 .mlr 3).connAck c p.ackPsn (if typ = 6 then mapPsns p.ackPsn p.ext else [])).ctrlAct c typ p
  if p.areq && (s1.conn c).live then s1.sendAck c none else s1

/-- Whether a reserved bit of an extension is set (R124). -/
def extRsvBad (typ : Nat) (ext : List Byte) : Bool :=
  match typ with
  | 4 => decide (beAt ext 5 3 ≠ 0)
  | 7 => decide (beAt ext 5 3 ≠ 0) || decide (beAt ext 12 4 ≠ 0)
  | 8 => decide (beAt ext 0 4 % 2 ^ 31 ≠ 0)
  | _ => false

/-- R126 step 1. -/
def mlrFormBad (typ : Nat) (p : MlrPacket) : Bool :=
  decide (p.ver ≠ 1) || !p.rsvClear || !p.lenOk || decide (some p.ext.length ≠ mlrExtLen typ) || extRsvBad typ p.ext

/-- Whether some partition has the IP destination of a packet (R120). -/
def State.addrKnown (s : State) (p : MlrPacket) : Bool :=
  s.parts.any (fun e => match e.2.mlr with
    | some m => if p.v6 then decide (m.ip6 = p.ipDst) && decide (m.ip6 ≠ 0) else m.v4En && decide (m.ip4 = p.ipDst.setWidth 32)
    | none => false)

/-- Whether a packet comes from a connection's peer (R126 step 2). -/
def Conn.fromPeer (x : Conn) (p : MlrPacket) : Bool :=
  decide (p.srcConn = x.peerConn) && decide (p.v6 = !x.v4) &&
  (if x.v4 then decide (p.ipSrc.setWidth 32 = x.peer.setWidth 32) else decide (p.ipSrc = x.peer))

/-- What opening a packet's tag comes to. -/
inductive Opened where
  | ok (plain : List Byte)
  | bad
  | wait

/-- Verify and decrypt a packet under a receive key context (R121, R342, R349). -/
def State.openPkt (s : State) (k typ : Nat) (p : MlrPacket) : Opened × State :=
  match s.keyUse k with
  | (.wait, s1) => (.wait, s1)
  | (.poisoned, s1) => (.bad, s1)
  | (.ready, s1) =>
    let x := s1.key k
    if x.state ≠ .empty ∧ x.use = 1 ∧ x.alg ≠ 3 then
      match aeadOpen x.alg x.key (nonce96 p.salt p.nonce) (mlrHeader typ p ++ p.ext) p.payload (beBytes 16 p.tag.toNat) with
      | some d => (.ok d, s1)
      | none => (.bad, s1)
    else (.bad, s1)

/-- A tag that does not verify on a connection: MLR_AUTH_FAIL, at most one in 1,600,000 PKT cycles (R126, R149). -/
def State.connAuthFail (s : State) (c : Nat) : State :=
  let x := s.conn c
  let s1 := s.count1 .mlr 6
  if s.limitDue x.authAt then
    (s1.updConn c (fun y => { y with authFails := 0, authAt := some s.clk.pkt })).event x.part 0x0111 .ok c (Word.of (x.authFails + 1)) 0 0
  else s1.updConn c (fun y => { y with authFails := y.authFails + 1 })

/-- The same on a spate channel. -/
def State.spateAuthFail (s : State) (n : Nat) : State :=
  let s1 := s.count1 .mlr 6
  match s.spate n with
  | some x =>
    let upd (k : Nat) (a : Option Nat) : State := s1.updSpate n (fun y => { y with authFails := k, authAt := a })
    if s.limitDue x.authAt then
      (upd 0 (some s.clk.pkt)).event x.part 0x0111 .ok (0x01000000 + n) (Word.of (x.authFails + 1)) 0 0
    else upd (x.authFails + 1) x.authAt
  | none => s1

/-- A packet of a spate channel (R126, R144, R146). -/
def State.spateArrive (s : State) (p : MlrPacket) : State :=
  match s.spate p.dstConn with
  | none => s.count1 .mlr 5
  | some x =>
    if s.flt.parts.contains x.part then s.count1 .mlr 5
    else
      match s.openPkt x.rxKey 9 p with
      | (.wait, s1) => s1.missHold p.dstConn .context 9 p
      | (.bad, s1) => s1.spateAuthFail p.dstConn
      | (.ok d, s1) => (s1.count1 .mlr 3).spateIn p.dstConn { p with payload := d }

/-- A packet of a connection whose context is resident: peer, tag and window, then its type (R126). -/
def State.connArrive (s : State) (typ : Nat) (p : MlrPacket) : State :=
  let c := p.dstConn
  let x := s.conn c
  if !x.fromPeer p then s.count1 .mlr 5
  else
    match s.openPkt x.rxKey typ p with
    | (.wait, s1) => s1.missHold c .context typ p
    | (.bad, s1) => s1.connAuthFail c
    | (.ok d, s1) =>
      let q := { p with payload := d }
      if 5 ≤ typ then s1.ctrlArrive c typ q
      else if !psnBefore p.psn x.rxNext && decide (x.window ≤ (p.psn - x.rxNext).toNat) then s1.count1 .mlr 7
      else s1.dataArrive c typ q

/-- A Millrace packet arrives: the checks of R120 and R126 in order; a context that is not resident holds it (R142), as does
the entry of a cluster whose gate is closed (R10, R444). -/
def State.mlrReceive (s : State) (typ : Nat) (p : MlrPacket) : State :=
  if s.flt.safe || s.dataHeld then s
  else if s.clusterStopped 20 then { s with mlr := { s.mlr with gated := s.mlr.gated ++ [(typ, p)] } }
  else if !s.addrKnown p || mlrFormBad typ p then s.count1 .mlr 4
  else if typ = 9 then s.spateArrive p
  else
    let x := s.conn p.dstConn
    if !x.live || s.flt.parts.contains x.part then s.count1 .mlr 5
    else
      match s.connUse p.dstConn with
      | (true, s1) => s1.connArrive typ p
      | (false, s1) => s1.missHold p.dstConn .context typ p

/-- Process packets taken out of the buffer as arrivals, in order, each under the set it arrived under (R38). -/
def State.reprocess (s : State) (which : HeldPkt → Bool) : State :=
  (s.mlr.held.filter which).foldl (fun t h => if t.mlr.held.any (fun x => x.hid = h.hid) then
    t.heldTake h (fun u => u.mlrReceive h.typ h.pkt) else t) s

/-- CONTEXT_FETCHED: a context arrives and its held packets are processed; or the fetch fails, and the connection enters ERROR
with cause 4 (R128, R142). -/
def execContextFetched (conn : Nat) (ok : Bool) (s : State) : Host.Outcome State Fault Refusal :=
  .next (if s.mlr.fetching.contains conn then
    let s1 : State := { s with mlr := { s.mlr with fetching := s.mlr.fetching.filter (fun x => x ≠ conn) } }
    if ok then
      ({ s1 with mlr := { s1.mlr with resident := s1.mlr.resident ++ [conn] } } : State).reprocess
        (fun h => decide (h.conn = conn) && decide (h.typ ≠ 9) && decide (h.why = .context))
    else if (s.conn conn).state ≠ .closed then (s1.errFor .mlr 1 (s.conn conn).part).connError conn 4 .state
    else s1.errFor .mlr 1 (s.conn conn).part
  else s)

/-- KEY_CONTEXT_FETCHED: the fetch of a key context ends. The packets that wait for it are processed, or dropped where it is
poisoned, and other uses that wait fail (R342). -/
def execKeyContextFetched (key : Nat) (ok : Bool) (s : State) : Host.Outcome State Fault Refusal :=
  .next (if s.cph.fetching.contains key then
    let mine (h : HeldPkt) : Bool := decide (h.why = .context) &&
      (if h.typ = 9 then (match s.spate h.conn with
          | some x => decide (x.rxKey = key)
          | none => false)
       else decide ((s.conn h.conn).rxKey = key) && s.mlr.resident.contains h.conn)
    if ok then (s.keyIn key).reprocess mine
    else
      let gone := (s.mlr.held.filter mine).length
      let s1 : State := { s with
        cph := { s.cph with fetching := s.cph.fetching.filter (fun x => x ≠ key), poisoned := s.cph.poisoned ++ [key] },
        mlr := { s.mlr with held := s.mlr.held.filter (fun h => !mine h) } }
      (if gone = 0 then s1 else s1.count mlrPage 6 gone).latch cphPage 0 0 ((s.ownerOf tyKey key).getD 0x7F) true
  else s)

/-- REGION_ENTRY_FETCHED: an entry arrives and the packets that wait for it are validated, as reduction packets where their connection
has been attached meanwhile (R238); or its fetch fails, and they are
refused with REASON 11 (R153). -/
def execRegionEntryFetched (key : Nat) (ok : Bool) (s : State) : Host.Outcome State Fault Refusal :=
  .next (if s.mlr.regionFetch.contains key then
    let s1 : State := { s with mlr := { s.mlr with regionFetch := s.mlr.regionFetch.filter (fun k => k ≠ key) } }
    let mine := s.mlr.held.filter (fun h => decide (h.why = .region) && decide (extKey h.pkt.ext = key))
    if ok then
      mine.foldl (fun t h => t.heldTake h (fun u =>
        if h.typ = 9 then u.spateIn h.conn h.pkt
        else if (u.conn h.conn).stalled then u.missHold h.conn .stall h.typ h.pkt
        else u.dataIn h.conn h.typ h.pkt none)) (s1.regionTouch key)
    else
      mine.foldl (fun t h => t.heldTake h (fun u =>
        if h.typ = 9 then u.spateViolation h.conn h.pkt 11 else u.rmaRefuse h.conn h.pkt 11)) (s1.errFor .rma 1 (key / 2 ^ 25))
  else s)

/-! ## Placement (R156, R157, R159) -/

/-- A packet in flight on a connection. -/
def Conn.rxOf (x : Conn) (psn : BitVec 32) (typ : Nat) : Option RxPkt :=
  x.rxPkts.find? (fun r => decide (r.psn = psn) && decide (r.typ = typ))

/-- A packet is no longer in flight. -/
def State.rxGone (s : State) (c : Nat) (psn : BitVec 32) : State :=
  s.updConn c (fun x => { x with rxPkts := x.rxPkts.filter (fun r => r.psn ≠ psn) })

/-- The status that ends a write in flight whose VI has been stopped. -/
def State.rxRefusal (s : State) (r : RxPkt) : Option Status :=
  match r.host with
  | some v => if (s.vi v).state ≠ .enabled then some .abortedByReset else none
  | none => none

/-- Whether a write in flight waits for the host link (R76, R77). -/
def State.rxWaits (s : State) (r : RxPkt) : Bool :=
  match r.host with
  | some v => !s.hostReady (some v)
  | none => false

/-- WRITE_PLACED: the bytes of a write become visible, or are issued to the host, and its bit is set; or those of a READ_RESP that
waited for its memory. -/
def execWritePlaced (conn psn : Nat) (s : State) : Host.Outcome State Fault Refusal :=
  .next (match (s.conn conn).rxOf (BitVec.ofNat 32 psn) 1, (s.conn conn).rxOf (BitVec.ofNat 32 psn) 4 with
    | some r, _ =>
      let s1 := s.rxGone conn r.psn
      match s.rxRefusal r with
      | some st => (s1.count1 .rma 4).nakSet conn r.pkt st
      | none =>
        if s.rxWaits r then s
        else ((s1.putSegs r.host r.segs r.pkt.payload).count1 .rma 1).underGen r.gen
          (fun t => t.rxSet conn r.psn false r.pkt.ce r.pkt.path)
    | none, some r => if s.respWaits conn r.pkt then s else (s.rxGone conn r.psn).underGen r.gen (fun t => t.respDone conn r.pkt)
    | none, none => s)

/-- The notices of a placed WRITE_LAST, in order: the event, then the addition (R159, R172). -/
def State.lastNotices (s : State) (c : Nat) (r : RxPkt) : State :=
  let e := s.region r.key
  let s1 := if wb e 0 54 then
      let t := s.eventRing (gRing e) 0x0121 .ok r.key (((0 : Word).setField 55 32 c).setField 31 0 (beAt r.pkt.ext 4 4))
        (Word.of (extOff r.pkt.ext)) (Word.of r.pkt.payload.length)
      if (s.ring (gRing e)).hbm then t else t.wake 1
    else s
  if wb e 0 53 then s1.syncAdd (gSync e) 1 else s1

/-- WRITE_LAST_PLACE: a WRITE_LAST whose earlier writes are placed is placed, notified and acknowledged at once. -/
def execWriteLastPlace (conn psn : Nat) (s : State) : Host.Outcome State Fault Refusal :=
  .next (match (s.conn conn).rxOf (BitVec.ofNat 32 psn) 2 with
    | some r =>
      if (s.conn conn).rxNext = r.psn then
        let s1 := s.rxGone conn r.psn
        match s.rxRefusal r with
        | some st => ((s1.count1 .rma 4).sendNak conn r.psn st 0).underGen r.gen (fun t => t.rxLast conn r.psn r.pkt.ce r.pkt.path)
        | none =>
          if s.rxWaits r then s
          else (((s1.putSegs r.host r.segs r.pkt.payload).count1 .rma 1).lastNotices conn r).underGen r.gen
            (fun t => t.rxLast conn r.psn r.pkt.ce r.pkt.path)
      else s
    | none => s)

/-- READ_SERVE_START: a READ_REQ whose earlier writes are placed begins to be served (R157). -/
def execReadServeStart (conn psn : Nat) (s : State) : Host.Outcome State Fault Refusal :=
  .next (match (s.conn conn).serveOf (BitVec.ofNat 32 psn) with
    | some v =>
      if !v.started && psnBefore v.psn (s.conn conn).rxNext then s.updServe conn v.psn (fun x => { x with started := true }) else s
    | none => s)

/-! ## The end of stalls (R161, R162) -/

/-- Packets held behind stalls that have all ended are processed in order, until one of them stalls the connection again. -/
def State.stallDrain (s : State) (c : Nat) (ended : Option PageId) : State :=
  (s.mlr.held.filter (fun h => decide (h.conn = c) && decide (h.why = .stall) && decide (h.typ ≠ 9))).foldl
    (fun t h => if (t.conn c).stalled then t else t.heldTake h (fun u => u.dataIn c h.typ h.pkt ended)) s

/-- The packet that stalled a connection. -/
def State.stalledPkt (s : State) (c : Nat) (psn : BitVec 32) : Option HeldPkt :=
  s.mlr.held.find? (fun h => decide (h.conn = c) && decide (h.why = .stall) && decide (h.pkt.psn = psn) && decide (h.typ ≠ 9))

/-- A READ_REQ being served is refused for a page: its read ends with the NAK code of the REASON, and the event is written. -/
def State.serveRefuse (s : State) (c : Nat) (v : Serve) (reason : Nat) : State :=
  let x := s.conn c
  let s1 := (s.serveEnd c v.psn (reasonCode reason)).count1 .rma 4
  if s1.limitDue x.refuseAt then
    (s1.updConn c (fun y => { y with refusals := 0, refuseAt := some s.clk.pkt })).violation x.part v.key c v.off (x.refusals + 1) reason
  else s1.updConn c (fun y => { y with refusals := y.refusals + 1 })

/-- The stall of a PSN is over. -/
def State.stallOff (s : State) (c : Nat) (psn : BitVec 32) : State :=
  s.updConn c (fun x => { x with stalls := x.stalls.filter (fun t => t.2.1 ≠ psn) })

/-- A stall ends because its page is present, or has been declared invalid. -/
def State.stallEnd (s : State) (c : Nat) (psn : BitVec 32) (invalid : Bool) : State :=
  let s1 := s.stallOff c psn
  (match s1.stalledPkt c psn with
    | some h => s1.heldTake h (fun t => if invalid then t.rmaRefuse c h.pkt 8 else t.rmaTake c h.typ h.pkt none)
    | none =>
      match (s1.conn c).serveOf psn with
      | some v => if invalid then s1.serveRefuse c v 8 else s1
      | none => s1).stallDrain c none

/-- The stalls of connections that wait for a fault entry. -/
def State.stallsOn (s : State) (fid : Nat) : List (Nat × BitVec 32) :=
  s.mlr.conns.flatMap (fun e => (e.2.stalls.filter (fun t => decide (t.1 = fid))).map (fun t => (e.1, t.2.1)))

/-- Close a fault entry: its page is present or declared invalid. -/
def State.faultClose (s : State) (f : FaultEntry) (invalid : Bool) : State :=
  (s.stallsOn f.id).foldl (fun t c => t.stallEnd c.1 c.2 invalid)
    { s with mlr := { s.mlr with faults := s.mlr.faults.filter (fun g => g.id ≠ f.id) } }

/-- The fault entries of host pages that ATS has found present close (R162). -/
def State.faultsPresent (s : State) : State :=
  (s.mlr.faults.filter (fun f => decide (f.mode = 2) && s.hostPage (some f.vi) f.page)).foldl (fun t f => t.faultClose f false) s

/-- Close the fault entries of a partition whose device page table now answers (R161, R430). -/
def State.dptChanged (s : State) (q : Nat) : State :=
  (s.mlr.faults.filter (fun f => decide (f.mode = 1) && decide (f.part = q))).foldl (fun t f =>
    match t.dptLookup q (f.page * 65536) with
    | .at_ _ => t.faultClose f false
    | .invalid => t.faultClose f true
    | .absent => t) s

/-- The page is still absent at the end of a stall: the packet is refused with PAGE_NOT_READY, or the read ends with it (R161,
R165). -/
def State.stallFail (s : State) (c : Nat) (psn : BitVec 32) (f : FaultEntry) : State :=
  let id : PageId := { mode := f.mode, part := f.part, vi := f.vi, page := f.page }
  let s1 := s.stallOff c psn
  (match s1.stalledPkt c psn with
    | some h => s1.heldTake h (fun t => t.rmaPnr c h.pkt f.mode)
    | none => s1.serveEnd c psn .pageNotReady).stallDrain c (some id)

/-- STALL_EXPIRE: a stall of a connection has lasted STALL PKT cycles. -/
def execStallExpire (conn : Nat) (s : State) : Host.Outcome State Fault Refusal :=
  .next (match (s.conn conn).stalls.find? (fun t => decide (t.2.2 ≤ s.clk.pkt)) with
    | some t =>
      match s.mlr.faults.find? (fun f => decide (f.id = t.1)) with
      | some f => s.stallFail conn t.2.1 f
      | none => s.stallEnd conn t.2.1 false
    | none => s)

/-! ## The rows of arriving packets -/

/-- The packets that waited at the entry of the transport cluster are taken once its gate is open (R443, R444). -/
def State.gatedTake (s : State) : State :=
  if s.clusterStopped 20 then s
  else s.mlr.gated.foldl (fun t p => t.mlrReceive p.1 p.2) { s with mlr := { s.mlr with gated := [] } }

/-- A packet arrives, after those that waited at a closed gate; entries of pages that it found present close, and fetches of contexts
that waited may start (R141, R162). -/
def State.mlrArrive (s : State) (typ : Nat) (p : MlrPacket) : State :=
  ((s.gatedTake.mlrReceive typ p).faultsPresent).missStart

/-- WRITE: an arriving WRITE. -/
def execWrite (pkt : MlrPacket) (s : State) : Host.Outcome State Fault Refusal := .next (s.mlrArrive 1 pkt)
/-- WRITE_LAST: an arriving WRITE_LAST. -/
def execWriteLast (pkt : MlrPacket) (s : State) : Host.Outcome State Fault Refusal := .next (s.mlrArrive 2 pkt)
/-- READ_REQ: an arriving READ_REQ. -/
def execReadReq (pkt : MlrPacket) (s : State) : Host.Outcome State Fault Refusal := .next (s.mlrArrive 3 pkt)
/-- READ_RESP: an arriving READ_RESP. -/
def execReadResp (pkt : MlrPacket) (s : State) : Host.Outcome State Fault Refusal := .next (s.mlrArrive 4 pkt)
/-- ACK: an arriving ACK. -/
def execAck (pkt : MlrPacket) (s : State) : Host.Outcome State Fault Refusal := .next (s.mlrArrive 5 pkt)
/-- SACK: an arriving SACK. -/
def execSack (pkt : MlrPacket) (s : State) : Host.Outcome State Fault Refusal := .next (s.mlrArrive 6 pkt)
/-- NAK: an arriving NAK. -/
def execNak (pkt : MlrPacket) (s : State) : Host.Outcome State Fault Refusal := .next (s.mlrArrive 7 pkt)
/-- PROBE: an arriving PROBE. -/
def execProbe (pkt : MlrPacket) (s : State) : Host.Outcome State Fault Refusal := .next (s.mlrArrive 8 pkt)
/-- SPATE_WRITE: an arriving SPATE_WRITE. -/
def execSpateWrite (pkt : MlrPacket) (s : State) : Host.Outcome State Fault Refusal := .next (s.mlrArrive 9 pkt)

/-- REDUCTION_PACKET: a WRITE, with the checks of R126 behind it, on an attached connection (R238, R239). -/
def execReductionPacket (pkt : MlrPacket) (s : State) : Host.Outcome State Fault Refusal := .next ((s.reductionPacket pkt).missStart)


/-- PNR_LIMIT_EXPIRE: a fault entry has stayed open for PNR_LIMIT × 65,536 PKT cycles (R162). -/
def execPnrLimitExpire (entry : Nat) (s : State) : Host.Outcome State Fault Refusal :=
  .next { s with mlr := { s.mlr with faults := s.mlr.faults.map (fun f =>
    if f.id = entry ∧ f.at_ + (s.reg rmaPage 0x110).field 63 32 * 65536 ≤ s.clk.pkt then { f with limited := true } else f) } }

/-- What waits for a page request ends with a status (R61). -/
def State.waiterFail (s : State) (st : Status) (u : ReadUse) : State :=
  match u with
  | .operand _ _ _ | .nvme _ _ => s.failOperand u 0 st false
  | .desc n _ => if (s.ring n).state = .enabled then s.fetchFailed n (s.ring n).cons st else s
  | .serve c psn _ => s.serveEnd c psn st
  | .gone => s

/-- The open fault entries that a page request answers. -/
def State.reqFaults (s : State) (r : PageReq) : List FaultEntry :=
  s.mlr.faults.filter (fun f => decide (f.mode = 2) && decide (some f.vi = r.vi) && decide (f.page = r.page))

/-- A page request is answered (R61, R161): the page is present, is never to be, or page requests stop. -/
def State.pageAnswer (s : State) (r : PageReq) (code : PriCode) : State :=
  let s1 : State := { s with hlk := { s.hlk with pageReqs := s.hlk.pageReqs.filter (fun x => x.prg ≠ r.prg) } }
  match code with
  | .success => (s1.reqFaults r).foldl (fun t f => t.faultClose f false) (s1.atcPut r.vi r.page)
  | .invalidRequest =>
    (s1.reqFaults r).foldl (fun t f => t.faultClose f true) (r.waiters.foldl (fun t u => t.waiterFail .accessViolation u) s1)
  | .responseFailure =>
    let s2 := (s.hlk.pageReqs.flatMap (fun x => x.waiters)).foldl (fun t u => t.waiterFail .pageNotReady u) s1
    (({ s2 with hlk := { s2.hlk with
        respFail := true, pageReqs := s2.hlk.pageReqs.map (fun x => { x with waiters := [] }) } } : State).err .hlk 7).setIntBit
      Blk.hlk.page 11

/-- PAGE_RESPONSE: the host answers a page request (R61, R161). -/
def execPageResponse (prg : Nat) (code : PriCode) (s : State) : Host.Outcome State Fault Refusal :=
  .next (match s.hlk.pageReqs.find? (fun r => decide (r.prg = prg)) with
    | some r => s.pageAnswer r code
    | none => s)

/-! ## Sending (R132, R165, R166, R171) -/

/-- Read the bytes of a chunk of a served range: HBM at once, where a line whose second read fails too ends the read with POISONED (R165,
R469); host memory through device reads. -/
def State.serveBytes (s : State) (c : Nat) (v : Serve) (e : List Word) (segs : List (Nat × Nat)) : Fetch :=
  match gHost e with
  | none =>
    if segs.any (fun x => (s.firstBad x.1 x.2).isSome) then .wait (s.serveEnd c v.psn .poisoned)
    else .got (segs.flatMap (fun x => s.bytes x.1 x.2))
  | some n =>
    let ps := segs.flatMap (fun x => s.readPieces 0 x.1 x.2)
    if ps.all (fun x => bufHas v.buf x.1 x.2) then .got (segs.flatMap (fun x => bufBytes v.buf x.1 x.2))
    else
      .wait (ps.foldl (fun t x =>
        if bufHas v.buf x.1 x.2 || t.asked (.serve c v.psn x.1) then t
        else (t.issueRead 0 (some n) (s.conn c).part (.serve c v.psn x.1) x.1 x.2).2) s)

/-- A serving READ_REQ meets an absent page: the connection stalls, or the read ends (R165). -/
def State.serveStall (s : State) (c : Nat) (v : Serve) (id : PageId) : State :=
  match s.faultMeet id with
  | (.limit, s1) => s1.serveRefuse c v 9
  | (.full, s1) => s1.serveEnd c v.psn .pageNotReady
  | (.stall fid, s1) => s1.stallStart c fid v.psn

/-- Send the next READ_RESP of a service. -/
def State.serveSend (s : State) (c : Nat) (v : Serve) : State :=
  let x := s.conn c
  let e := s.region v.key
  let n := min (mtuBytes x.mtu) (v.len - v.sent)
  match s.hostRefusal e with
  | some st => s.serveEnd c v.psn st
  | none =>
    let s0 := s.atsRange e (v.off + v.sent) n
    match s0.translate x.part e (v.off + v.sent) n with
    | .absent id => s0.serveStall c v id
    | .invalid _ => s0.serveRefuse c v 8
    | .at_ segs =>
      match s0.serveBytes c v e segs with
      | .wait s1 => s1
      | .got data =>
        match s0.sendNew c { typ := 4, ext := readRespExt v.psn .ok v.sent, payload := data, owner := .serve v.psn } with
        | (.sent, s1) =>
          if v.sent + n < v.len then s1.updServe c v.psn (fun y => { y with sent := y.sent + n, buf := [] })
          else
            (s1.updConn c (fun y => { y with serves := y.serves.filter (fun z => z.psn ≠ v.psn) })).count1 .rma 2
        | (_, s1) => s1

/-- Whether a WRITE has a packet to send. -/
def State.writeReady (s : State) (c : Nat) (w : Work) : Bool :=
  w.onConn c && decide (dEngine w.words = 2) && decide (dOpcode w.words = 1) && (match w.ctx with
    | .send next stopAt fails =>
      let mtu := mtuBytes (s.conn c).mtu
      let n := (rLen w.words + mtu - 1) / mtu
      decide (next < n) && decide (fails = []) && (match stopAt with
        | some k => decide (next < k)
        | none => true)
    | .none | .read _ _ _ _ | .probe _ _ _ | .ingest _ _ _ _ _ | .contribute _ | .cipher _ _ _ | .restore _ _ _ _ _ => false)

/-- Send the next packet of a WRITE (R171). -/
def State.writeSend (s : State) (c : Nat) (w : Work) : State :=
  match w.ctx with
  | .send i stopAt fails =>
    let ws := w.words
    let mtu := mtuBytes (s.conn c).mtu
    let n := (rLen ws + mtu - 1) / mtu
    let a := (wordAt ws 2).toNat + i * mtu
    let fin := decide (i + 1 = n) && wb ws 5 39
    match s.fetch w (spaceOf (wb ws 5 38) a) a (min mtu (rLen ws - i * mtu)) with
    | .wait s1 => s1
    | .got data =>
      match s.sendNew c { typ := if fin then 2 else 1, payload := data, owner := .work w.ring w.idx i,
                          ext := placeExt (wf ws 3 31 0) (if fin then wf ws 5 37 6 else 0) ((wordAt ws 4).toNat + i * mtu) } with
      | (.sent, s1) => s1.updWork w.ring w.idx (fun v => { v with phase := .running, ctx := .send (i + 1) stopAt fails })
      | (_, s1) => s1
  | .none | .read _ _ _ _ | .probe _ _ _ | .ingest _ _ _ _ _ | .contribute _ | .cipher _ _ _ | .restore _ _ _ _ _ => s

/-- The PSN of a READ_REQ is recorded once it has been sent. -/
def State.reqSent (s : State) (o : PktOwner) (psn : BitVec 32) : State :=
  match o with
  | .work ring idx _ => s.updWork ring idx (fun w => match w.ctx with
    | .read _ _ placed resume =>
      { w with ctx := .read (some psn) (match resume with
        | some r => r.2
        | none => 0) placed none }
    | .restore fails rd _ _ resume =>
      { w with ctx := .restore fails rd (some psn) (match resume with
        | some r => r.2
        | none => 0) none }
    | .none | .send _ _ _ | .probe _ _ _ | .ingest _ _ _ _ _ | .contribute _ | .cipher _ _ _ => w)
  | .serve _ | .emit _ _ _ | .response _ | .step _ _ => s

/-- Send the first waiting packet of a connection. -/
def State.queueSend (s : State) (c : Nat) (it : TxItem) : State :=
  let pop (t : State) : State := t.updConn c (fun x => { x with outq := x.outq.tail })
  if 5 ≤ it.typ then
    match s.connNext c it.typ (s.conn c).txNext false false none it.ext it.payload with
    | (.sent, s1) => pop s1
    | (r, s1) => s1.connTried c r
  else
    match s.sendNew c it with
    | (.sent, s1) => if it.typ = 3 then (pop s1).reqSent it.owner (s.conn c).txNext else pop s1
    | (_, s1) => s1

/-- Transmit the next packet of a connection: a lost packet that waits to be sent again, a control packet that waits for its
key, and, as window and CWND allow, a packet of a WRITE in order of start, of a service, or of the queue. -/
def State.dataSend (s : State) (c : Nat) : State :=
  if !s.connRuns c then s
  else
    match s.connUse c with
    | (false, s1) => s1
    | (true, s1) =>
      let x := s1.conn c
      match x.tx.find? (fun p => p.lost), x.outq with
      | some p, _ => s1.resend c p true
      | none, q =>
        match q.head?, s1.work.find? (s1.writeReady c), x.serves.find? (fun v => v.started && !(x.stalls.any (fun t => decide (t.2.1 = v.psn)))) with
        | some it, w, v =>
          if 5 ≤ it.typ then s1.queueSend c it
          else if !x.mayNew then s1
          else
            match w, v with
            | some w, _ => s1.writeSend c w
            | none, some v => s1.serveSend c v
            | none, none => s1.queueSend c it
        | none, some w, _ => if x.mayNew then s1.writeSend c w else s1
        | none, none, some v => if x.mayNew then s1.serveSend c v else s1
        | none, none, none => s1

/-- DATA_SEND: the sender builds and transmits a new data packet when window and CWND allow (R132). -/
def execDataSend (conn : Nat) (s : State) : Host.Outcome State Fault Refusal := .next ((s.dataSend conn).missStart)

/-- Whether an acknowledgement of a connection is due. -/
def State.ackDueNow (s : State) (c : Nat) : Bool := (s.conn c).ackDue.any (fun t => decide (t ≤ s.clk.pkt))

/-- The first that waits at a leaf is built and queued, where it fits now (R202, R204); a packet of Millrace that does not fit waits
again. -/
def State.admitWaiting (s : State) (l : Nat) : State :=
  let t := s.leafPop l
  match (s.leaf l).waiting with
  | .packet n body :: _ => if s.admits l n then t.enqueue l n body none else s
  | .inject a n :: _ => if s.admits l (n + 4) then t.injectAt l a n else s
  | .conn c :: _ => if t.connRuns c && t.ackDueNow c then t.sendAck c none else t.dataSend c
  | .spate ring idx :: _ => t.spateAgain ring idx
  | [] => s

/-- ADMIT_WAITING (R204). -/
def execAdmitWaiting (leaf : Nat) (s : State) : Host.Outcome State Fault Refusal := .next (s.admitWaiting leaf)

/-! ## Descriptors of engine 2 (R152, R166 to R171) -/

/-- The checks of WRITE and READ (R170). -/
def State.rwCheck (s : State) (w : Work) : Status :=
  let ws := w.words
  let a := (wordAt ws 2).toNat
  firstFail [
    (decide (rLen ws = 0), .format),
    (!s.owns w.part tyConn (rConn ws) || !s.mayReach w.part w.vi (spaceOf (wb ws 5 38) a) a (rLen ws), .accessViolation),
    (decide ((s.conn (rConn ws)).state ≠ .active), .state)]

/-- RMA_WRITE: WRITE of engine 2; DATA_SEND sends its packets. -/
def execRmaWrite (ring idx : Nat) (s : State) : Host.Outcome State Fault Refusal :=
  .next (s.runDesc ring idx 2 1 (fun w =>
    if w.ctx = .none then
      match s.rwCheck w with
      | .ok => (s.updWork ring idx (fun v => { v with phase := .running, ctx := .send 0 none [] })).connUse (rConn w.words) |>.2
      | st => s.workFail ring idx st
    else s))

/-- The READ_REQ for the bytes of a range from a position on. -/
def readReqItem (rkey off len : Nat) (owner : PktOwner) : TxItem :=
  { typ := 3, ext := beBytes 4 rkey ++ beBytes 4 len ++ beBytes 8 off, payload := [], owner := owner }

/-- Queue the READ_REQ of a READ from position pos on. -/
def State.readAsk (s : State) (w : Work) (pos : Nat) : State :=
  s.connEnqueue (rConn w.words)
    [readReqItem (wf w.words 3 31 0) ((wordAt w.words 4).toNat + pos) (rLen w.words - pos) (.work w.ring w.idx 0)]

/-- Queue the READ_REQ of a RESTORE's remote read (source, container offset, length) from position pos on. -/
def State.restoreAsk (s : State) (w : Work) (rd : Nat × Nat × Nat) (pos : Nat) : State :=
  let e := w.srcEntry rd.1
  s.connEnqueue (srcConn e) [readReqItem (srcTarget e) (srcBase e + rd.2.1 + pos) (rd.2.2 - pos) (.work w.ring w.idx 0)]

/-- RMA_READ: READ of engine 2 sends a READ_REQ and keeps an outstanding read. -/
def execRmaRead (ring idx : Nat) (s : State) : Host.Outcome State Fault Refusal :=
  .next (s.runDesc ring idx 2 2 (fun w =>
    if w.ctx = .none then
      match s.rwCheck w with
      | .ok => (s.updWork ring idx (fun v => { v with phase := .running, ctx := .read none 0 [] none })).readAsk w 0
      | st => s.workFail ring idx st
    else s))

/-- READ_REISSUE: RD_WAIT after a PAGE_NOT_READY READ_RESP, a new READ_REQ is sent for the remaining bytes (R166). -/
def execReadReissue (ring idx : Nat) (s : State) : Host.Outcome State Fault Refusal :=
  .next (match s.workAt ring idx with
    | some w =>
      match w.ctx with
      | .read rq _ _ (some r) =>
        if r.1 ≤ s.clk.pkt ∧ rq.isSome = true ∧ (s.conn (rConn w.words)).owes (.work ring idx 0) = false then s.readAsk w r.2 else s
      | .restore _ (some rd) rq _ (some r) =>
        if r.1 ≤ s.clk.pkt ∧ rq.isSome = true ∧ (s.conn (srcConn (w.srcEntry rd.1))).owes (.work ring idx 0) = false then
          s.restoreAsk w rd r.2
        else s
      | .read _ _ _ none | .restore _ _ _ _ _ | .none | .send _ _ _ | .probe _ _ _ | .ingest _ _ _ _ _ | .contribute _
      | .cipher _ _ _ => s
    | none => s)

/-- READ_TIMEOUT: a READ has not completed within READ_TO × 65,536 PKT cycles of its start (R167). -/
def execReadTimeout (ring idx : Nat) (s : State) : Host.Outcome State Fault Refusal :=
  .next (match s.workAt ring idx with
    | some w =>
      match w.ctx with
      | .read _ _ _ _ =>
        if w.startPkt + (s.regFor rmaPage w.gen 0x100).field 31 0 * 65536 ≤ s.clk.pkt then
          (s.workFail ring idx .timeout).updConn (rConn w.words) (fun x => x.dropQueued (.work ring idx 0))
        else s
      | .none | .send _ _ _ | .probe _ _ _ | .ingest _ _ _ _ _ | .contribute _ | .cipher _ _ _ | .restore _ _ _ _ _ => s
    | none => s)

/-- The region key of REGISTER, REVOKE and QUERY descriptors. -/
def regKey (ws : List Word) : Nat := if dOpcode ws = 3 then wf ws 6 31 0 else wf ws 2 31 0

/-- The checks of REGISTER (R152). -/
def State.registerCheck (s : State) (p : Nat) (ws : List Word) : Status :=
  let e := (ws.drop 2).take 4
  let key := regKey ws
  let tbl := (s.part p).rmaTable
  firstFail [
    (decide (gMode e = 3) || decide (gLen e = 0) || decide (2 ^ 48 < gLen e) || (match tbl with
      | some t => decide (t.2 ≤ key % 2 ^ 25)
      | none => false), .format),
    (decide (key / 2 ^ 25 ≠ p) || (decide (gMode e = 0) && !s.ownsHbm p (gBase e) (gLen e)) ||
      (decide (gMode e = 2) && !s.owns p tyVi (gVi e)) || (wb e 0 54 && !s.owns p tyRing (gRing e)) ||
      (wb e 0 53 && !s.owns p tySync (gSync e)) || (wb e 3 39 && !s.owns p tyConn (gBind e)), .accessViolation),
    (tbl.isNone || decide (gState (s.region key) ≠ 0) || (decide (gMode e = 2) && decide ((s.vi (gVi e)).state ≠ .enabled)) ||
      (wb e 0 54 && decide ((s.ring (gRing e)).type ≠ .event)), .state)]

/-- REGISTER: writes a region entry and makes it ACTIVE. -/
def execRegister (ring idx : Nat) (s : State) : Host.Outcome State Fault Refusal :=
  .next (s.runDesc ring idx 2 3 (fun w =>
    match s.registerCheck w.part w.words, s.regionAt (regKey w.words) with
    | .ok, some a =>
      let e := (w.words.drop 2).take 4
      (s.setBytes a (wordsBytes ((wordAt e 0).setField 63 62 1 :: e.drop 1))).workDone ring idx .ok 0 0 0
    | .ok, none => s.workFail ring idx .state
    | st, _ => s.workFail ring idx st))

/-- The checks of a key that REVOKE and QUERY share. -/
def State.keyCheck (s : State) (p key : Nat) : Status :=
  firstFail [
    ((match (s.part (key / 2 ^ 25)).rmaTable with
      | some t => decide (t.2 ≤ key % 2 ^ 25)
      | none => false), .format),
    (decide (key / 2 ^ 25 ≠ p), .accessViolation),
    ((s.part p).rmaTable.isNone, .state)]

/-- REVOKE: an ACTIVE region becomes CLOSING; the descriptor ends when it is CLOSED (R168). -/
def execRevoke (ring idx : Nat) (s : State) : Host.Outcome State Fault Refusal :=
  .next (s.runDesc ring idx 2 4 (fun w =>
    match s.keyCheck w.part (regKey w.words) with
    | .ok =>
      if gState (s.region (regKey w.words)) = 1 then
        (s.setRegionState (regKey w.words) 2).updWork ring idx (fun v => { v with phase := .running })
      else s.workFail ring idx .state
    | st => s.workFail ring idx st))

/-- REGION_CLOSED: a CLOSING region with nothing in flight is CLOSED, and its REVOKE ends with OK (R168). -/
def execRegionClosed (key : Nat) (s : State) : Host.Outcome State Fault Refusal :=
  .next (if gState (s.region key) = 2 ∧ s.regionInFlight key = 0 then
    let s1 := s.setRegionState key 0
    let s2 : State := { s1 with mlr := { s1.mlr with regionCache := s1.mlr.regionCache.filter (fun k => k ≠ key) } }
    (s2.work.filter (fun w => decide (dEngine w.words = 2) && decide (dOpcode w.words = 4) && decide (w.phase = .running) &&
      decide (regKey w.words = key))).foldl (fun t w => t.workDone w.ring w.idx .ok 0 0 0) s2
  else s)

/-- The state word of a region: STATE, MODE, IN_FLIGHT. -/
def State.regionStat (s : State) (key : Nat) : Word :=
  (((0 : Word).setField 63 62 (gState (s.region key))).setField 61 60 (gMode (s.region key))).setField 31 0 (s.regionInFlight key)

/-- RMA_QUERY: QUERY of engine 2. -/
def execRmaQuery (ring idx : Nat) (s : State) : Host.Outcome State Fault Refusal :=
  .next (s.runDesc ring idx 2 5 (fun w =>
    match s.keyCheck w.part (regKey w.words) with
    | .ok => s.workDone ring idx .ok 0 (s.regionStat (regKey w.words)) 0
    | st => s.workFail ring idx st))

/-! ## Commands of the RMA page (R173) -/

/-- Whether a partition has a region that is not CLOSED. -/
def State.regionsOpen (s : State) (p : Nat) : Bool :=
  match (s.part p).rmaTable with
  | some t => s.hbm.any (fun e => decide (t.1 ≤ e.1) && decide (e.1 < t.1 + 64 * t.2) && decide ((e.1 - t.1) % 64 = 7) &&
      decide (64 ≤ e.2.toNat))
  | none => false

/-- SET_PART: a new region table, every entry CLOSED. -/
def State.rmaSetPart (s : State) (p : Nat) : Status × State :=
  let base := (s.reg rmaPage 0x140).field 63 12 * 4096
  let n := (s.reg rmaPage 0x148).field 25 0
  match firstFail [
      (decide (2 ^ 25 < n), .format),
      (decide (n ≠ 0) && !s.ownsHbm 0 base (64 * n), .accessViolation),
      (!(decide ((s.part p).state = .building) || (decide ((s.part p).state = .active) && !s.regionsOpen p)), .state)] with
  | .ok =>
    let s1 := (s.zero base (64 * n)).setPart p { s.part p with rmaTable := if n = 0 then none else some (base, n) }
    (.ok, { s1 with mlr := { s1.mlr with regionCache := s1.mlr.regionCache.filter (fun k => k / 2 ^ 25 ≠ p) } })
  | st => (st, s)

/-- QUERY: the state of REG_KEY goes to REG_STAT. -/
def State.rmaQuery (s : State) : Status × State :=
  let key := (s.reg rmaPage 0x160).field 31 0
  if (s.regionAt key).isNone then (.format, s) else (.ok, s.setReg rmaPage 0x168 (s.regionStat key))

/-- Run a command of the page. -/
def rmaRun (val : Word) (s : State) : State :=
  let op := val.field 31 24
  let p := val.field 6 0
  let r : Status × State :=
    match op with
    | 1 => s.rmaSetPart p
    | 2 => s.rmaQuery
    | _ => (.format, s)
  r.2.cmdEnd .rma op p r.1

/-- RMA_SET_PART: the RMA command SET_PART. -/
def execRmaSetPart (part : Nat) (s : State) : Host.Outcome State Fault Refusal :=
  .next (s.takeCmd .rma (((0 : Word).setField 31 24 1).setField 6 0 part) rmaRun)

/-- RMA_CMD_QUERY: the RMA command QUERY. -/
def execRmaCmdQuery (part : Nat) (s : State) : Host.Outcome State Fault Refusal :=
  .next (s.takeCmd .rma (((0 : Word).setField 31 24 2).setField 6 0 part) rmaRun)

end Sys2Proof.Machine
end

