-- ==== Sys2Proof/Machine/Packet.lean ====
section
/-! DEFINITION. The Ethernet ports and the packet pipelines: MAC, PFC, parse graph, classifier, actions, rule-set versions,
PKT commands (09_packet_pipeline.md). Numbers of the named standards (EtherTypes, IP and TCP layouts, PFC frames) come from
those standards (PRESUMED, assumption 25). -/

namespace Sys2Proof.Machine

/-- The PKT page. -/
abbrev pktPage : Page := Blk.pkt.page

/-! ## Frames (R176, R180) -/

/-- Whether a TPID is that of a tag on a port (R176). -/
def State.isTpid (s : State) (n v : Nat) : Bool :=
  decide (v = 0x8100) || decide (v = 0x88A8) || decide (v = (s.reg (eptPage n) 0x100).field 39 24)

/-- Offset of the EtherType after at most k tags, from the offset of a TPID or EtherType. -/
def State.etherAt (s : State) (n : Nat) (d : List Byte) (off k : Nat) : Nat :=
  match k with
  | 0 => off
  | k + 1 => if s.isTpid n (beAt d off 2) then s.etherAt n d (off + 4) k else off

/-- The class of a received frame: the PCP of its outermost tag, 0 without one (R177). -/
def State.frameClass (s : State) (n : Nat) (d : List Byte) : Nat := if s.isTpid n (beAt d 12 2) then beAt d 14 1 / 32 else 0

/-- The source and destination ports of TCP or UDP. -/
def portBytes (proto off : Nat) (d : List Byte) : List Byte := if proto = 6 ∨ proto = 17 then slice d off 4 else []

/-- The fields that the dispatch hash covers (R180). -/
def State.hashFields (s : State) (n : Nat) (d : List Byte) : List Byte :=
  let e := s.etherAt n d 12 2
  let t := beAt d e 2
  let h := e + 2
  if t = 0x0800 then
    let proto := beAt d (h + 9) 1
    let frag := decide (beAt d (h + 6) 2 % 0x4000 ≠ 0)
    slice d (h + 12) 8 ++ slice d (h + 9) 1 ++ (if frag then [] else portBytes proto (h + beAt d h 1 % 16 * 4) d)
  else if t = 0x86DD then
    slice d (h + 8) 32 ++ slice d (h + 6) 1 ++ portBytes (beAt d (h + 6) 1) (h + 40) d
  else slice d 0 12 ++ slice d e 2

/-- The dispatch hash H. -/
def State.frameHash (s : State) (n : Nat) (d : List Byte) : Nat := (crc32c (s.hashFields n d)).toNat

/-! ## PFC (R177, R211) -/

/-- PKT cycles of a pause of some quanta of 512 bit times at a port's line rate, rounded up. -/
def State.pauseCycles (s : State) (n quanta : Nat) : Nat := (quanta * 512 * 1600 + s.lineRate n - 1) / s.lineRate n

/-- A PFC frame for one class: the class pauses at the next frame boundary for its quanta, if PFC is on for it. -/
def State.pfcReceive (s : State) (n cls quanta : Nat) : State :=
  if (s.reg (eptPage n) 0x100).bit (40 + cls) then
    let until_ := s.clk.pkt + s.pauseCycles n quanta
    (s.updEpt n (fun e => { e with paused := if quanta = 0 then Tab.erase e.paused cls else Tab.insert e.paused cls until_ })).refreshPort n
  else s

/-- PFC_RECEIVE (R177). -/
def execPfcReceive (ept cls quanta : Nat) (s : State) : Host.Outcome State Fault Refusal :=
  let t := s.eptTake ept
  .next (if (t.ept ept).up && !t.flt.safe then (t.count (eptPage ept) 8 1).pfcReceive ept cls quanta else t)

/-- PFC_PAUSE_END: the quanta of a pause have passed; the class's leaves become eligible again (R211). -/
def execPfcPauseEnd (ept cls : Nat) (s : State) : Host.Outcome State Fault Refusal :=
  .next (match Tab.find (s.ept ept).paused cls with
    | some t => if t ≤ s.clk.pkt then (s.updEpt ept (fun e => { e with paused := Tab.erase e.paused cls })).refreshPort ept else s
    | none => s)

/-- The ingress bytes of a class become v: a pause is sent above XOFF and ended at XON or below (R177). -/
def State.ingressSet (s : State) (n cls v : Nat) : State :=
  (s.updEpt n (fun e => { e with ingress := Tab.set 0 e.ingress cls v })).pfcClass n cls

/-- PFC_REPEAT: a pause is sent again every 32,768 PKT cycles while the bytes stay above XON (R177). -/
def execPfcRepeat (ept cls : Nat) (s : State) : Host.Outcome State Fault Refusal :=
  let e := s.ept ept
  .next (if !s.flt.safe && (s.reg (eptPage ept) 0x100).bit (40 + cls) && e.pausing.contains cls && decide (Tab.get 0 e.pauseAt cls + 32768 ≤ s.clk.pkt) &&
      decide ((s.reg (eptPage ept) 0x120).field 31 0 < Tab.get 0 e.ingress cls) then
      (s.updEpt ept (fun x => { x with pauseAt := Tab.insert x.pauseAt cls s.clk.pkt })).pfcSend ept cls 0xFFFF
    else s)

/-! ## Links (R174, R211) -/

/-- LINK_UP: the link of an enabled port that its group's mode uses trains and comes up (R174, R175). -/
def execLinkUp (ept : Nat) (s : State) : Host.Outcome State Fault Refusal :=
  .next (if (s.reg (eptPage ept) 0x100).bit 63 && s.eptPresent ept && !(s.ept ept).up && !s.flt.safe then
      (List.range 8).foldl (fun t c => t.pfcClass ept c) ((s.updEpt ept (fun e => { e with up := true })).setIntBit (eptPage ept) 8)
    else s)

/-- LINK_DOWN: an Ethernet link is lost (R211). -/
def execLinkDown (ept : Nat) (s : State) : Host.Outcome State Fault Refusal := .next (s.eptDown ept)

/-! ## Receiving (R176, R179 to R181) -/

/-- A PFC frame's enabled classes and their quanta. -/
def pfcClasses (d : List Byte) : List (Nat × Nat) :=
  ((List.range 8).filter (fun c => (beAt d 16 2).testBit c)).map (fun c => (c, beAt d (18 + 2 * c) 2))

/-- A MAC control frame: PFC is honoured, any other is dropped and counted (R176, R177). -/
def State.macControl (s : State) (n : Nat) (d : List Byte) : State :=
  if beAt d 14 2 = 0x0101 then (pfcClasses d).foldl (fun t c => t.pfcReceive n c.1 c.2) (s.count (eptPage n) 8 1)
  else s.count (eptPage n) 0xA 1

/-- Whether the address filter passes a destination: promiscuous, the port's own, or a group address (R176). -/
def State.macPasses (s : State) (n : Nat) (d : List Byte) : Bool :=
  (s.reg (eptPage n) 0x100).bit 59 || decide (beAt d 0 6 = (s.reg (eptPage n) 0x108).field 47 0) || decide (beAt d 0 1 % 2 = 1)

/-- Ingress bytes of a port over all classes. -/
def State.ingressAll (s : State) (n : Nat) : Nat := ((s.ept n).ingress.map Prod.snd).sum

/-- A frame that the MAC accepts: held at ingress, stamped, and sent to its pipeline (R177, R179 to R181). -/
def State.frameAccept (s : State) (n : Nat) (d : List Byte) : State :=
  let len := d.length + 4
  let s1 := s.count (eptPage n) 1 1
  if s.dataHeld || decide (Config.ingressBytes < s.ingressAll n + len) then s1.count (eptPage n) 0xC 1
  else
    let cls := s.frameClass n d
    let h := s.frameHash n d
    let f : Frame := { ept := n, cls := cls, data := d, stamp := s.stamp n, hash := h, version := none, pass := 0, node := 0, gen := 0 }
    let s2 := s1.ingressSet n cls (Tab.get 0 (s.ept n).ingress cls + len)
    { s2 with pkt := { s2.pkt with newQ := Tab.insert s2.pkt.newQ (h % 6) (Tab.get [] s2.pkt.newQ (h % 6) ++ [f]) } }

/-- A frame at a MAC that is up: dropped and counted, honoured as MAC control, or accepted (R176). -/
def State.frameAtMac (s : State) (n : Nat) (d : List Byte) (fcsOk : Bool) : State :=
  let len := d.length + 4
  if !fcsOk then s.count (eptPage n) 3 1
  else if len < 64 ∨ (s.reg (eptPage n) 0x100).field 13 0 < len then s.count (eptPage n) 4 1
  else if beAt d 12 2 = 0x8808 then s.macControl n d
  else if !s.macPasses n d then s.count (eptPage n) 5 1
  else s.frameAccept n d

/-- A frame, given without its FCS, reaches a port (R38, R176). -/
def State.frameReceive (s : State) (n : Nat) (d : List Byte) (fcsOk : Bool) : State :=
  let t := s.eptTake n
  if !(t.ept n).up || t.flt.safe then t else t.frameAtMac n d fcsOk

/-- FRAME_RECEIVE (R176). -/
def execFrameReceive (ept : Nat) (frame : List Byte) (fcsOk : Bool) (s : State) : Host.Outcome State Fault Refusal :=
  .next (s.frameReceive ept frame fcsOk)

/-! ## The parse graph (R182 to R186) -/

/-- A node of a graph; a node not listed is all zero. -/
def Graph.node (g : Graph) (n : Nat) : List Word := g.nodes.getD n [0, 0, 0, 0]

/-- A key profile of a graph. -/
def Graph.profile (g : Graph) (n : Nat) : List Word := g.profiles.getD n [0, 0, 0, 0]

/-- Odd reasons (R184, PKT_RX). UNKNOWN has the code that the others leave (DESIGN CHOICE, assumption 32). -/
inductive Odd where
  | frag | trunc | depth | layers | unknown | malformed
  deriving DecidableEq, Repr

/-- The code of an odd reason. -/
def Odd.code : Odd → Nat
  | .frag => 1 | .trunc => 2 | .depth => 3 | .layers => 4 | .unknown => 5 | .malformed => 6

/-- How a walk ends: at an END node with its profile, odd, or with a hand-over of the datagram at an offset. -/
inductive WalkEnd where
  | profile (n : Nat)
  | odd (r : Odd)
  | udp (ip at_ : Nat)
  | tcp (ip at_ : Nat)
  deriving DecidableEq, Repr

/-- A walk: the field vector, the outer fields once a tunnel is reached, and each header's kind, offset and length. -/
structure Walk where
  fv : List Byte
  outer : Option (List Byte)
  seen : List (Nat × Nat × Nat)
  result : WalkEnd
  deriving DecidableEq, Repr

/-- One extraction of a node into the field vector. -/
def extract (d : List Byte) (pos : Nat) (w : Word) (fv : List Byte) : List Byte :=
  if w.bit 52 then
    let n := w.field 56 53 + 1
    let dst := w.field 51 46
    (fv.take dst ++ slice d (pos + w.field 63 57) n ++ fv.drop (dst + n)).take 64
  else fv

/-- Whether an extraction reads beyond the frame. -/
def extractOut (d : List Byte) (pos : Nat) (w : Word) : Bool :=
  w.bit 52 && decide (d.length < pos + w.field 63 57 + w.field 56 53 + 1)

/-- The device's own check of a header by its kind (R184); none where it passes. -/
def kindCheck (kind : Nat) (d : List Byte) (pos : Nat) : Option Odd :=
  match kind with
  | 3 =>
    let ihl := beAt d pos 1 % 16 * 4
    if d.length < pos + 20 ∨ d.length < pos + ihl then some .trunc
    else if ihl < 20 ∨ d.length < pos + beAt d (pos + 2) 2 ∨ onesSum (slice d pos ihl) % 65535 ≠ 0 ∨
      onesSum (slice d pos ihl) = 0 then some .malformed
    else if beAt d (pos + 6) 2 % 0x4000 ≠ 0 then some .frag
    else none
  | 4 => if d.length < pos + 40 then some .trunc else if d.length < pos + 40 + beAt d (pos + 4) 2 then some .malformed else none
  | 6 => some .frag
  | _ => none

/-- Whether the headers before a transport header are one Ethernet header, at most two tags and the IP header directly before
it (R186): the offset of the IP header. -/
def plainStack (seen : List (Nat × Nat × Nat)) : Option Nat :=
  match seen.map Prod.fst with
  | [1, k] | [1, 2, k] | [1, 2, 2, k] => if k = 3 ∨ k = 4 then seen.getLast?.map (fun x => x.2.1) else none
  | _ => none

/-- The next node of a node whose header lies at an offset (R183 step 5): none where the selector cannot be read, some none
where no edge and no default leads on. -/
def Graph.next (g : Graph) (nd : List Word) (d : List Byte) (pos : Nat) : Option (Option Nat) :=
  let w := wordAt nd 1
  let n := if w.bit 56 then 2 else 1
  let at_ := pos + w.field 63 57
  if d.length < at_ + n then none
  else
    let sel := beAt d at_ n &&& w.field 55 40
    let es := (g.edges.drop (w.field 39 28)).take (w.field 27 24)
    let missing := decide (es.length < w.field 27 24) && decide (sel = 0)
    match es.find? (fun e => decide (e.toNat / 65536 = sel)) with
    | some e => some (some (e.toNat / 256 % 256))
    | none => if missing then some (some 0) else some (if w.bit 15 then some (w.field 23 16) else none)

/-- Walk a frame from a node at an offset (R183 to R186); k bounds the nodes, of which a 17th is LAYERS. -/
def Graph.walk (g : Graph) (handUdp handTcp : Nat → Nat → Bool) (d : List Byte) (node pos k : Nat) (w : Walk) : Walk :=
  match k with
  | 0 => { w with result := .odd .layers }
  | k + 1 =>
    let nd := g.node node
    let w0 := wordAt nd 0
    let kind := w0.field 63 56
    let w1 : Walk := if kind = 9 ∧ w.outer = none then { w with outer := some w.fv } else w
    let lenOff := pos + w0.field 38 32
    if w0.bit 39 && decide (d.length ≤ lenOff) then { w1 with result := .odd .trunc }
    else
      let l := if w0.bit 39 then (beAt d lenOff 1 &&& w0.field 31 24) * 2 ^ w0.field 23 22 + w0.field 21 14 else w0.field 47 40
      let cut := decide (d.length < pos + l) || extractOut d pos (wordAt nd 2) || extractOut d pos (wordAt nd 3)
      let fv := extract d pos (wordAt nd 3) (extract d pos (wordAt nd 2) w.fv)
      let seen := w.seen ++ [(kind, pos, l)]
      if cut then { w1 with result := .odd .trunc }
      else if 512 < pos + l then { w1 with result := .odd .depth }
      else
        match kindCheck kind d pos with
        | some .frag => { w1 with fv := fv, result := .odd .frag, seen := seen }
        | some r => { w1 with result := .odd r }
        | none =>
          match plainStack w.seen with
          | some ip =>
            if kind = 7 ∧ handUdp ip pos = true then { w1 with fv := fv, seen := seen, result := .udp ip pos }
            else if kind = 8 ∧ handTcp ip pos = true then { w1 with fv := fv, seen := seen, result := .tcp ip pos }
            else if w0.bit 55 then { w1 with fv := fv, seen := seen, result := .profile (w0.field 54 51) }
            else
              match g.next nd d pos with
              | none => { w1 with result := .odd .trunc }
              | some none => { w1 with fv := w.fv, seen := seen, result := .odd .unknown }
              | some (some m) => g.walk handUdp handTcp d m (pos + l) k { w1 with fv := fv, seen := seen }
          | none =>
            if w0.bit 55 then { w1 with fv := fv, seen := seen, result := .profile (w0.field 54 51) }
            else
              match g.next nd d pos with
              | none => { w1 with result := .odd .trunc }
              | some none => { w1 with fv := w.fv, seen := seen, result := .odd .unknown }
              | some (some m) => g.walk handUdp handTcp d m (pos + l) k { w1 with fv := fv, seen := seen }

/-! ## Hand-over to Millrace and to storage (R120, R186, R322) -/

/-- Whether the IP header at an offset is of version 6. -/
def ipV6 (d : List Byte) (ip : Nat) : Bool := decide (beAt d ip 1 / 16 = 6)

/-- The destination port of the transport header. -/
def destPort (d : List Byte) (at_ : Nat) : Nat := beAt d (at_ + 2) 2

/-- Whether a UDP datagram is one for Millrace: its destination port is DPORT, or ALT_PORT while ALT_EN = 1 (R120). -/
def State.handUdp (s : State) (d : List Byte) (_ip at_ : Nat) : Bool :=
  let c := s.reg Blk.mlr.page 0x100
  decide (at_ + 8 ≤ d.length) &&
  (decide (destPort d at_ = c.field 15 0) || (c.bit 32 && decide (destPort d at_ = c.field 31 16)))

/-- The source and destination addresses of an IP header; IPv4 addresses as they stand. -/
def ipAddrs (d : List Byte) (ip : Nat) : BitVec 128 × BitVec 128 :=
  if ipV6 d ip then (BitVec.ofNat 128 (beAt d (ip + 8) 16), BitVec.ofNat 128 (beAt d (ip + 24) 16))
  else (BitVec.ofNat 128 (beAt d (ip + 12) 4), BitVec.ofNat 128 (beAt d (ip + 16) 4))

/-- Whether a UDP checksum that is not zero verifies (R120). -/
def udpSumOk (d : List Byte) (ip at_ : Nat) : Bool :=
  let n := beAt d (at_ + 4) 2
  let ph := if ipV6 d ip then slice d (ip + 8) 32 ++ beBytes 4 n ++ beBytes 4 17
    else slice d (ip + 12) 8 ++ beBytes 2 17 ++ beBytes 2 n
  decide (beAt d (at_ + 6) 2 = 0) || decide (onesSum (ph ++ slice d at_ n) % 65535 = 0)

/-- A datagram for Millrace (R120, R126, R186): one to no partition's address, or whose checksum does not verify, is dropped and
counted; another is handed over. -/
def State.toMillrace (s : State) (d : List Byte) (ip at_ : Nat) : State :=
  let a := ipAddrs d ip
  let v6 := ipV6 d ip
  let ecn := if v6 then beAt d ip 2 / 16 % 4 else beAt d (ip + 1) 1 % 4
  let m := mlrParse a.1 a.2 v6 (decide (ecn = 3)) (slice d (at_ + 8) (beAt d (at_ + 4) 2 - 8))
  if s.addrKnown m.2 && udpSumOk d ip at_ then (s.count1 .pkt 7).mlrArrive m.1 m.2 else s.count1 .mlr 4

/-- An address in the form in which TCP connections are kept: IPv4 addresses are IPv4-mapped. -/
def mapped (v6 : Bool) (a : BitVec 128) : BitVec 128 := if v6 then a else a + BitVec.ofNat 128 (0xFFFF * 2 ^ 32)

/-- Whether a TCP segment goes to the storage front end (R322). -/
def State.handTcp (s : State) (d : List Byte) (ip at_ : Nat) : Bool :=
  decide (at_ + 20 ≤ d.length) && decide (destPort d at_ = (s.reg stoPage 0x100).field 63 48) &&
  (s.listenPart (mapped (ipV6 d ip) (ipAddrs d ip).2)).isSome

/-- The TCP options MSS, window scale and SACK of option bytes; k bounds the options. -/
def tcpOptions (bs : List Byte) (k mss scale : Nat) (sack : List (BitVec 32 × BitVec 32)) :
    Nat × Nat × List (BitVec 32 × BitVec 32) :=
  match k with
  | 0 => (mss, scale, sack)
  | k + 1 =>
    let kind := beAt bs 0 1
    let n := beAt bs 1 1
    if bs.length = 0 ∨ kind = 0 then (mss, scale, sack)
    else if kind = 1 then tcpOptions (bs.drop 1) k mss scale sack
    else if n < 2 ∨ bs.length < n then (mss, scale, sack)
    else if kind = 2 then tcpOptions (bs.drop n) k (beAt bs 2 2) scale sack
    else if kind = 3 then tcpOptions (bs.drop n) k mss (min 14 (beAt bs 2 1)) sack
    else if kind = 5 then
      tcpOptions (bs.drop n) k mss scale (sack ++ (List.range ((n - 2) / 8)).map (fun i =>
        (BitVec.ofNat 32 (beAt bs (2 + 8 * i) 4), BitVec.ofNat 32 (beAt bs (6 + 8 * i) 4))))
    else tcpOptions (bs.drop n) k mss scale sack

/-- Hand a TCP segment to the storage front end (R322, R323). -/
def State.toStorage (s : State) (d : List Byte) (ip at_ : Nat) : State :=
  let v6 := ipV6 d ip
  let a := ipAddrs d ip
  let total := if v6 then 40 + beAt d (ip + 4) 2 else beAt d (ip + 2) 2
  let hl := beAt d (at_ + 12) 1 / 16 * 4
  let fl := beAt d (at_ + 13) 1
  let o := tcpOptions (slice d (at_ + 20) (hl - 20)) 40 0 0 []
  let g : TcpSeg :=
    { src := mapped v6 a.1, dst := mapped v6 a.2, sport := beAt d at_ 2, syn := fl.testBit 1, ack := fl.testBit 4,
      fin := fl.testBit 0, rst := fl.testBit 2, seq := BitVec.ofNat 32 (beAt d (at_ + 4) 4),
      ackNo := BitVec.ofNat 32 (beAt d (at_ + 8) 4), window := beAt d (at_ + 14) 2, mss := o.1, sack := o.2.2,
      payload := slice d (at_ + hl) (ip + total - (at_ + hl)) }
  if g.syn then
    let s1 := s.tcpSegment g
    match s1.tcpFind g with
    | some t => s1.updTcp t (fun x => { x with wscale := o.2.1 })
    | none => s1
  else
    let k := match s.tcpFind g with
      | some t => ((s.tcp t).map (fun x => x.wscale)).getD 0
      | none => 0
    s.tcpSegment { g with window := g.window * 2 ^ k }

/-! ## Versions (R194 to R198) -/

/-- The slot of a version that is not FREE. -/
def State.slotOf (s : State) (v : Nat) : Option Nat :=
  (s.pkt.slots.find? (fun e => decide (e.2.state ≠ .free) && decide (e.2.version = v))).map Prod.fst

/-- The slot in a state. -/
def State.slotIn (s : State) (st : SlotState) : Option (Nat × RuleSlot) := s.pkt.slots.find? (fun e => decide (e.2.state = st))

/-- A slot. -/
def State.slot (s : State) (n : Nat) : RuleSlot := Tab.get RuleSlot.free s.pkt.slots n

/-- Change a slot. -/
def State.setSlot (s : State) (n : Nat) (x : RuleSlot) : State :=
  { s with pkt := { s.pkt with slots := Tab.set RuleSlot.free s.pkt.slots n x } }

/-- The CURRENT version. -/
def State.curVersion (s : State) : Nat := ((s.slotIn .current).map (fun e => e.2.version)).getD 0

/-- NEWEST: the BUILDING version, else the CURRENT one (R194). -/
def State.newest (s : State) : Nat := ((s.slotIn .building).map (fun e => e.2.version)).getD s.curVersion

/-- How far version v lies behind NEWEST. -/
def State.behind (s : State) (v : Nat) : Nat := (s.newest + 65536 - v % 65536) % 65536

/-- OLDEST: the oldest version that is not FREE (R194). -/
def State.oldest (s : State) : Nat :=
  (s.pkt.slots.filter (fun e => e.2.state ≠ .free)).foldl
    (fun a e => if s.behind a < s.behind e.2.version then e.2.version else a) s.newest

/-- d(x) of R197. -/
def State.dVer (s : State) (x : Nat) : Nat := (x + 65536 - s.oldest) % 65536

/-- Whether a version lies in the live window. -/
def State.inWindow (s : State) (x : Nat) : Bool := decide (s.dVer x ≤ s.dVer s.newest)

/-- Whether an entry with a control word is visible to a version (R197). -/
def State.visible (s : State) (c : Word) (v : Nat) : Bool :=
  let vf := c.field 47 32
  let vt := c.field 31 16
  c.bit 63 && (!c.bit 62 || !s.inWindow vf || decide (s.dVer vf ≤ s.dVer v)) &&
  (!c.bit 61 || (s.inWindow vt && decide (s.dVer v < s.dVer vt)))

/-- A frame of a version leaves the count of its slot (R195). -/
def State.refDrop (s : State) (v : Option Nat) : State :=
  match v.bind s.slotOf with
  | some n => s.setSlot n { s.slot n with refs := (s.slot n).refs - 1 }
  | none => s

/-! ## Lookup (R187 to R189) -/

/-- The key of a profile over field-vector bytes (R187). -/
def lookupKey (pf : List Word) (fv : List Byte) : List Byte :=
  (List.range 8).flatMap (fun k => slice fv (4 * (wordAt pf 0).field (35 + 4 * k) (32 + 4 * k)) 4)

/-- The bucket of a key (R188): CRC-32C of KEY, PROFILE and PORT, one byte each for the last two. -/
def bucketOf (key : List Byte) (profile port : Nat) : Nat :=
  (crc32c (key ++ [BitVec.ofNat 8 profile, BitVec.ofNat 8 port])).toNat % 1048576

/-- The addresses of the four entries of a bucket. -/
def bucketAddrs (base bucket : Nat) : List Nat := (List.range 4).map (fun i => base + bucket * 256 + 64 * i)

/-- Whether the exact entry at an address has a key, profile and port. -/
def State.exactIs (s : State) (a : Nat) (key : List Byte) (profile port : Nat) : Bool :=
  let c := s.word (a + 32)
  decide (s.bytes a 32 = key) && decide (c.field 60 57 = profile) && decide (c.field 56 53 = port)

/-- The exact entry visible to a version that matches. -/
def State.exactFind (s : State) (key : List Byte) (profile port v : Nat) : Option Nat :=
  match s.pkt.exact with
  | some base => (bucketAddrs base (bucketOf key profile port)).find? (fun a =>
      s.visible (s.word (a + 32)) v && s.exactIs a key profile port)
  | none => none

/-- Whether a wildcard entry matches a key, profile and port. -/
def wildMatch (e : List Word) (key : List Byte) (profile port : Nat) : Bool :=
  let k := bytesWords 4 key
  let c := wordAt e 8
  (List.range 4).all (fun i => decide ((wordAt k i ^^^ wordAt e i) &&& wordAt e (4 + i) = 0)) &&
  decide (c.field 60 57 = profile) && (!c.bit 52 || decide (c.field 56 53 = port))

/-- The visible matching wildcard entry of the highest PRIO, the lowest index among equals (R189). -/
def State.wildFind (s : State) (key : List Byte) (profile port v : Nat) : Option (List Word) :=
  s.pkt.wild.foldl (fun a e =>
    if s.visible (wordAt e.2 8) v && wildMatch e.2 key profile port then
      match a with
      | some b => if (wordAt b 9).field 63 48 < (wordAt e.2 9).field 63 48 then some e.2 else a
      | none => some e.2
    else a) none

/-- Whether a read of a key's bucket meets poisoned memory (R189). -/
def State.bucketBad (s : State) (key : List Byte) (profile port : Nat) : Bool :=
  match s.pkt.exact with
  | some base => (s.firstBad (base + bucketOf key profile port * 256) 256).isSome
  | none => false

/-- Look a pass up: the action words, none where the bucket read is poisoned, and the state with the lookup counted (R189). -/
def State.pktLookup (s : State) (g : Graph) (profile ept v : Nat) (fv : List Byte) : Option (Word × Word) × State :=
  let pf := g.profile profile
  let key := lookupKey pf fv
  let port := if (wordAt pf 0).bit 31 then ept else 0
  let miss := (some (wordAt pf 2, wordAt pf 3), s.count1 .pkt 6)
  let wild := if (wordAt pf 0).bit 29 then
      match s.wildFind key profile port v with
      | some e => (some (wordAt e 10, wordAt e 11), s.count1 .pkt 5)
      | none => miss
    else miss
  if (wordAt pf 0).bit 30 then
    if s.bucketBad key profile port then (none, (s.count1 .pkt 8).err .pkt 2)
    else
      match s.exactFind key profile port v with
      | some a => (some (s.word (a + 40), s.word (a + 48)), s.count1 .pkt 4)
      | none => wild
  else wild

/-! ## Actions (R190 to R193, R199, R213) -/

/-- A frame in the course of an action: its bytes, where its first tag's TPID lies, and the offset and kind of its first IP
header. -/
structure Edit where
  data : List Byte
  ether : Option Nat
  tag : Option Nat
  ip : Option (Nat × Nat)
  deriving DecidableEq, Repr

/-- Replace bytes at an offset. -/
def patch (d : List Byte) (off : Nat) (bs : List Byte) : List Byte := d.take off ++ bs ++ d.drop (off + bs.length)

/-- The frame of a pass with the headers that actions touch (R191): the tag directly after the first Ethernet header, and the
first IP header. -/
def editOf (d : List Byte) (seen : List (Nat × Nat × Nat)) : Edit :=
  let i := seen.findIdx (fun x => decide (x.1 = 1))
  let eth := (seen[i]?).map (fun x => x.2.1 + x.2.2 - 2)
  let tag := match eth, seen[i + 1]? with
    | some e, some x => if x.1 = 2 then some e else none
    | _, _ => none
  { data := d, ether := eth, tag := tag, ip := (seen.find? (fun x => decide (x.1 = 3) || decide (x.1 = 4))).map (fun x => (x.1, x.2.1)) }

/-- Move an IP offset that lies behind an edit of the tags. -/
def Edit.moveIp (e : Edit) (after : Nat) (f : Nat → Nat) : Option (Nat × Nat) :=
  e.ip.map (fun x => if after < x.2 then (x.1, f x.2) else x)

/-- The tag operation of an action (R190, R191). -/
def Edit.tagOp (e : Edit) (b : Word) : Edit :=
  let tci := beBytes 2 (b.field 61 46)
  match b.field 63 62 with
  | 1 =>
    match e.ether with
    | some o => { e with data := e.data.take o ++ [0x81, 0x00] ++ tci ++ e.data.drop o, tag := some o, ip := e.moveIp o (fun x => x + 4) }
    | none => e
  | 2 =>
    match e.tag with
    | some o =>
      let d := e.data.take o ++ e.data.drop (o + 4)
      { e with data := d, tag := none, ip := e.moveIp o (fun x => x - 4) }
    | none => e
  | 3 =>
    match e.tag with
    | some o => { e with data := patch e.data (o + 2) tci }
    | none => e
  | _ => e

/-- Write the DSCP of the outermost IP header, with the IPv4 checksum (R191, R213). -/
def Edit.dscp (e : Edit) (v : Nat) : Edit :=
  match e.ip with
  | some (3, o) =>
    let d := patch e.data (o + 1) (beBytes 1 (v * 4 + beAt e.data (o + 1) 1 % 4))
    let z := patch d (o + 10) [0, 0]
    { e with data := patch z (o + 10) (beBytes 2 (inetSum (slice z o (beAt z o 1 % 16 * 4)))) }
  | some (_, o) =>
    let w := beAt e.data o 2
    { e with data := patch e.data o (beBytes 2 (w / 4096 * 4096 + v * 64 + w % 64)) }
  | none => e

/-- Set DEI of the outer tag (R213). -/
def Edit.dei (e : Edit) : Edit :=
  match e.tag with
  | some o =>
    let w := beAt e.data (o + 2) 1
    { e with data := patch e.data (o + 2) (beBytes 1 (if w.testBit 4 then w else w + 16)) }
  | none => e

/-- DEI of the outer tag. -/
def Edit.deiSet (e : Edit) : Bool :=
  match e.tag with
  | some o => (beAt e.data (o + 2) 1).testBit 4
  | none => false

/-- A meter's action on a colour (R213): the frame, or none where it is dropped. -/
def Edit.colourAct (e : Edit) (m : Meter) (act : Nat) : Option Edit :=
  match act with
  | 1 => some e.dei
  | 2 => some (e.dscp m.dscp)
  | 3 => none
  | _ => some e

/-- Apply an action's meter (R212, R213): the frame, or none where its colour drops it. -/
def State.meterApply (s : State) (a : Word) (e : Edit) : Option Edit × State :=
  if a.bit 36 then
    let n := a.field 35 21
    let m := s.meter n
    let c := m.colour (e.deiSet) (e.data.length + 4) s.clk.pkt
    let s1 := s.setMeter n c.2
    match c.1 with
    | .green => (some e, s1)
    | .yellow =>
      let s2 := s1.count1 .sch 6
      match e.colourAct m m.yellow with
      | some x => (some x, s2)
      | none => (none, s2.count1 .sch 8)
    | .red =>
      let s2 := s1.count1 .sch 7
      match e.colourAct m m.red with
      | some x => (some x, s2)
      | none => (none, s2.count1 .sch 8)
  else (some e, s)

/-- The receive target of a DELIVER (R190). -/
def deliverTarget (a : Word) (hash : Nat) : Nat := a.field 60 44 + hash % 2 ^ a.field 7 4

/-- Whether PART owns the event ring of a receive target. -/
def State.targetOwned (s : State) (p t : Nat) : Bool :=
  match Tab.find s.pkt.targets t with
  | some x => s.owns p tyRing x.ring
  | none => false

/-- The checks of R191 on an action for a frame that walked some headers. -/
def State.actionOk (s : State) (a : Word) (hash walked : Nat) : Bool :=
  let p := a.field 43 37
  (!a.bit 36 || s.owns p tyMeter (a.field 35 21)) && (!a.bit 20 || s.targetOwned p (a.field 19 8)) &&
  (match a.field 63 61 with
    | 1 => s.owns p tyLeaf (a.field 60 44)
    | 2 => s.targetOwned p (deliverTarget a hash)
    | 3 => decide (a.field 55 52 ≤ walked)
    | _ => true)

/-- Deliver bytes to a receive target (R192): an OVERFLOW entry that the ring owes goes before (R111). -/
def State.pktDeliver (s : State) (t : Nat) (f : Frame) (d : List Byte) (odd cookie : Nat) : State :=
  match Tab.find s.pkt.targets t with
  | none => s.count1 .pkt 0xA
  | some x =>
    let s0 := s.overflow x.ring
    let r := s0.ring x.ring
    let a := x.bufBase + r.prod % 2 ^ r.logSize * 2 ^ x.bufLog
    if !r.takesEvents || decide (2 ^ x.bufLog < d.length) || (x.hbm && !(s0.ownsHbm (s0.ringPart x.ring) a (2 ^ x.bufLog))) then
      s.count1 .pkt 0xA
    else
      let fits := r.room && decide (r.dropped = 0) && s0.ringReach r && (x.hbm || s0.hostReady r.viOf)
      let s1 := if fits then s0.store x.hbm r.viOf a d else s0
      s1.eventRing x.ring 0x0130 .ok (f.ept * 2 ^ 28 + odd * 2 ^ 24 + d.length)
        (((Word.of 0).setField 63 32 cookie).setField 31 16 (f.version.getD 0)) (Word.of f.stamp)
        ((0 : Word).setField 63 32 f.hash)

/-- Bytes that the first n headers of a pass take of the edited frame (R199): what a tag operation added or took among them
included. -/
def decapBytes (seen : List (Nat × Nat × Nat)) (n : Nat) (before after : Nat) (b : Word) : Nat :=
  let sum := ((seen.take n).map (fun x => x.2.2)).sum
  let i := seen.findIdx (fun x => decide (x.1 = 1))
  if b.field 63 62 = 1 then (if i < n then sum + (after - before) else sum)
  else if b.field 63 62 = 2 then (if i + 1 < n then sum - (before - after) else sum)
  else sum

/-- Apply an action to a frame after its lookup (R190 to R192, R199). -/
def State.applyAction (s : State) (f : Frame) (w : Walk) (odd : Nat) (a b : Word) (pipe : Nat) : State :=
  let out (t : State) : State := t.refDrop f.version
  if !s.actionOk a f.hash w.seen.length then out (s.count1 .pkt 9)
  else
    let cookie := b.field 31 0
    let s0 := if a.bit 20 then s.pktDeliver (a.field 19 8) f f.data odd cookie else s
    let e1 := (editOf f.data w.seen).tagOp b
    let e2 := if b.bit 45 then e1.dscp (b.field 44 39) else e1
    match s0.meterApply a e2 with
    | (none, s1) => out s1
    | (some e, s1) =>
      match a.field 63 61 with
      | 1 => out (s1.offer (a.field 60 44) (max 64 (e.data.length + 4)) (.frame 0 e.data))
      | 2 => out (s1.pktDeliver (deliverTarget a f.hash) f e.data odd cookie)
      | 3 =>
        if 4 ≤ f.pass then out (s1.count1 .pkt 0xB)
        else
          let n := decapBytes w.seen (a.field 55 52) f.data.length e2.data.length b
          let g : Frame := { f with data := e.data.drop n, pass := f.pass + 1, node := a.field 51 44 }
          { s1 with pkt := { s1.pkt with recQ := Tab.insert s1.pkt.recQ pipe (Tab.get [] s1.pkt.recQ pipe ++ [g]) } }
      | _ => out (s1.count1 .pkt 8)

/-- A frame is looked up and its action applied; one whose bucket read is poisoned is dropped, counted as a DROP verdict (R189;
DESIGN CHOICE, assumption 133: the spec names no event for it). -/
def State.classify (s : State) (g : Graph) (profile : Nat) (f : Frame) (w : Walk) (fv : List Byte) (odd pipe : Nat) : State :=
  match s.pktLookup g profile f.ept (f.version.getD 0) fv with
  | (some (a, b), t) => t.applyAction f w odd a b pipe
  | (none, t) => t.refDrop f.version

/-- One pass of a frame under its version (R183 to R193). -/
def State.runPass (s : State) (f : Frame) (pipe : Nat) : State :=
  let g := match f.version.bind s.slotOf with
    | some n => (s.slot n).graph
    | none => .reset
  let w := g.walk (s.handUdp f.data) (s.handTcp f.data) f.data f.node 0 16
    { fv := List.replicate 64 0, outer := none, seen := [], result := .odd .layers }
  let s1 := s.count1 .pkt 1
  match w.result with
  | .udp ip at_ => (s1.toMillrace f.data ip at_).refDrop f.version
  | .tcp ip at_ => (s1.toStorage f.data ip at_).refDrop f.version
  | .profile p => s1.classify g p f w w.fv 0 pipe
  | .odd r =>
    let s2 := s1.count1 .pkt 3
    if (s.regFor pktPage f.gen 0x100).bit 0 then s2.refDrop f.version
    else s2.classify g g.odd f w (w.outer.getD w.fv) r.code pipe

/-- A pipeline starts a recirculated pass (R181, R199). -/
def State.recircPass (s : State) (pipe : Nat) : State :=
  match Tab.get [] s.pkt.recQ pipe with
  | f :: rest =>
    (({ s with pkt := { s.pkt with recQ := Tab.set [] s.pkt.recQ pipe rest } } : State).count1 .pkt 2).runPass f pipe
  | [] => s

/-- A pipeline starts a pass: recirculated frames first, then new ones (R181); a new frame leaves its port's ingress buffer and
takes the CURRENT version (R195). -/
def State.passStart (s : State) (pipe : Nat) : State :=
  match Tab.get [] s.pkt.recQ pipe, Tab.get [] s.pkt.newQ pipe with
  | _ :: _, _ => s.recircPass pipe
  | [], f :: rest =>
    let s1 : State := { s with pkt := { s.pkt with newQ := Tab.set [] s.pkt.newQ pipe rest } }
    let s2 := s1.ingressSet f.ept f.cls (Tab.get 0 (s1.ept f.ept).ingress f.cls - (f.data.length + 4))
    match s2.slotIn .current with
    | some (n, x) =>
      let g : Frame := { f with version := some x.version, node := x.graph.start, gen := s.applied pktPage }
      (s2.setSlot n { x with refs := x.refs + 1 }).runPass g pipe
    | none => s2
  | [], [] => s

/-- Whether the pipelines take work: not in the safe state, not while the data plane is contained. -/
def State.pktRuns (s : State) : Bool := !s.flt.safe && !s.dataHeld

/-- PASS_START (R183). -/
def execPassStart (pipe : Nat) (s : State) : Host.Outcome State Fault Refusal :=
  .next (if s.pktRuns && !s.clusterStopped (14 + pipe) then s.passStart pipe else s)

/-- RECIRC_PASS (R199). -/
def execRecircPass (pipe : Nat) (s : State) : Host.Outcome State Fault Refusal :=
  .next (if s.pktRuns && !s.clusterStopped (14 + pipe) then s.recircPass pipe else s)

/-! ## Retirement and sweeps (R196, R198) -/

/-- A slot becomes FREE: RETIRED, and a sweep is due (R196, R198). -/
def State.slotFree (s : State) (n : Nat) : State :=
  let s1 := (s.setSlot n RuleSlot.free).setIntBit pktPage 9
  { s1 with pkt := { s1.pkt with sweeps := s1.pkt.sweeps + 1 } }

/-- SLOT_RETIRE: a DRAINING slot whose REFS is 0, with every slot of an older version FREE, becomes FREE (R196). -/
def execSlotRetire (slot : Nat) (s : State) : Host.Outcome State Fault Refusal :=
  let x := s.slot slot
  let older := s.pkt.slots.any (fun e => decide (e.2.state ≠ .free) && decide (s.behind x.version < s.behind e.2.version))
  .next (if decide (x.state = .draining) && decide (x.refs = 0) && !older then s.slotFree slot else s)

/-- The addresses of the exact entries that hold anything. -/
def State.exactAddrs (s : State) : List Nat :=
  match s.pkt.exact with
  | some base =>
    ((s.hbm.filter (fun e => decide (base ≤ e.1) && decide (e.1 < base + 0x10000000))).map (fun e => e.1 / 64 * 64)).dedup
  | none => []

/-- What a sweep makes of a control word (R198). -/
def State.sweepWord (s : State) (c : Word) : Word :=
  let seen := s.pkt.slots.any (fun e => decide (e.2.state ≠ .free) && s.visible c e.2.version)
  let c1 := if c.bit 62 && !s.inWindow (c.field 47 32) then c.setBit 62 false else c
  if seen then c1 else c1.setBit 63 false

/-- Rewrite the control words of both tables. -/
def State.mapControls (s : State) (f : Word → Word) : State :=
  let s1 := s.exactAddrs.foldl (fun t a => t.setWord (a + 32) (f (t.word (a + 32)))) s
  let w := (s1.pkt.wild.map (fun e => (e.1, e.2.set 8 (f (wordAt e.2 8))))).filter (fun e => (wordAt e.2 8).bit 63)
  { s1 with pkt := { s1.pkt with wild := w } }

/-- SWEEP_DONE: the sweeps that are due have gone through both tables (R198). -/
def execSweepDone (s : State) : Host.Outcome State Fault Refusal :=
  let s1 := s.mapControls (fun c => if c.bit 63 then s.sweepWord c else c)
  .next (if s.pkt.sweeps = 0 then s
    else ({ s1 with pkt := { s1.pkt with sweeps := 0 } } : State).setIntBit pktPage 10)

/-! ## Commands (R200) -/

/-- CMD_ADDR of the PKT page. -/
def State.pktAddr (s : State) : Nat := (s.reg pktPage 0x140).toNat
/-- CMD_ARG of the PKT page. -/
def State.pktArg (s : State) : Word := s.reg pktPage 0x148

/-- The checks of CMD_ADDR for n bytes: alignment, then P0's granules (R200), then poisoned memory (R469). -/
def State.pktAddrCheck (s : State) (n : Nat) : List (Bool × Status) :=
  [(decide (s.pktAddr % 64 ≠ 0), .format), (!s.ownsHbm 0 s.pktAddr n, .accessViolation),
    ((s.firstBad s.pktAddr n).isSome, .poisoned)]

/-- OPEN. -/
def State.pktOpen (s : State) : Status × State :=
  let st := firstFail [((s.slotIn .building).isSome || decide (s.pkt.sweeps ≠ 0), .state),
    (((List.range 8).find? (fun i => (s.slot i).state = .free)).isNone, .resource)]
  if st ≠ .ok then (st, s)
  else
    match (List.range 8).find? (fun i => (s.slot i).state = .free), s.slotIn .current with
    | some n, some (_, x) => (.ok, s.setSlot n { state := .building, version := (x.version + 1) % 65536, refs := 0, graph := x.graph })
    | _, _ => (.resource, s)

/-- Whether a graph image is invalid (R200). -/
def Graph.bad (g : Graph) : Bool :=
  g.nodes.any (fun n => decide (10 < (wordAt n 0).field 63 56) ||
    decide (4096 < (wordAt n 1).field 39 28 + (wordAt n 1).field 27 24) ||
    [wordAt n 2, wordAt n 3].any (fun w => decide (64 ≤ w.field 51 46 + w.field 56 53))) ||
  g.profiles.any (fun p => decide (3 < (wordAt p 2).field 63 61) || decide (8 < (wordAt p 2).field 7 4))

/-- The graph of the image at an address (R200). -/
def State.graphAt (s : State) (a : Nat) : Graph :=
  { nodes := (List.range 256).map (fun i => s.words (a + 32 * i) 4),
    edges := (List.range 4096).map (fun i => BitVec.ofNat 32 (leNat (s.bytes (a + 0x2000 + 4 * i) 4))),
    profiles := (List.range 16).map (fun i => s.words (a + 0x6000 + 32 * i) 4),
    start := (s.word (a + 0x6200)).field 7 0, odd := (s.word (a + 0x6200)).field 11 8 }

/-- GRAPH_LOAD. -/
def State.graphLoad (s : State) : Status × State :=
  let st := firstFail (s.pktAddrCheck 0x8000)
  if st ≠ .ok then (st, s)
  else
    let g := s.graphAt s.pktAddr
    if g.bad then (.format, s)
    else
      match s.slotIn .building with
      | some (n, x) => (.ok, s.setSlot n { x with graph := g })
      | none => (.state, s)

/-- SET_EXACT. -/
def State.setExact (s : State) : Status × State :=
  let a := s.pktAddr
  let st := firstFail [(decide (a % 0x10000000 ≠ 0), .format), (!s.ownsHbm 0 a 0x10000000, .accessViolation),
    (s.exactAddrs.any (fun e => (s.word (e + 32)).bit 63), .state)]
  if st = .ok then
    (.ok, let s1 := s.zero a 0x10000000
      { s1 with pkt := { s1.pkt with exact := some a } })
  else (st, s)

/-- Whether the action of an entry is one that insertion refuses (R190). -/
def actionBad (a : Word) : Bool := decide (3 < a.field 63 61) || decide (8 < a.field 7 4)

/-- Whether the port of an exact entry breaks R188 under the profiles of a graph. -/
def exactPortBad (g : Option Graph) (c : Word) : Bool :=
  match g with
  | some g => !(wordAt (g.profile (c.field 60 57)) 0).bit 31 && decide (c.field 56 53 ≠ 0)
  | none => false

/-- The control word of a new entry (R188, R200). -/
def newControl (c : Word) (v : Nat) : Word :=
  ((((c.setBit 63 true).setBit 62 true).setBit 61 false).setField 47 32 v).setField 31 16 0

/-- The BUILDING slot. -/
def State.building (s : State) : Option RuleSlot := (s.slotIn .building).map Prod.snd

/-- EX_INSERT. -/
def State.exInsert (s : State) : Status × State :=
  let st := firstFail (s.pktAddrCheck 64)
  if st ≠ .ok then (st, s)
  else
    let a := s.pktAddr
    let c := s.word (a + 32)
    let key := s.bytes a 32
    if actionBad (s.word (a + 40)) || exactPortBad (s.building.map (fun x => x.graph)) c then (.format, s)
    else
      match s.building, s.pkt.exact with
      | some b, some base =>
        if (s.exactFind key (c.field 60 57) (c.field 56 53) b.version).isSome then (.state, s)
        else
          match (bucketAddrs base (bucketOf key (c.field 60 57) (c.field 56 53))).find? (fun e => !(s.word (e + 32)).bit 63) with
          | some e => (.ok, (s.setBytes e (s.bytes a 64)).setWord (e + 32) (newControl c b.version))
          | none => (.resource, s)
      | _, _ => (.state, s)

/-- The control word of an entry deleted in the BUILDING version: gone, if that version inserted it (R200). -/
def deletedControl (c : Word) (v : Nat) : Word :=
  if c.bit 62 && decide (c.field 47 32 = v) then c.setBit 63 false else (c.setBit 61 true).setField 31 16 v

/-- EX_DELETE. -/
def State.exDelete (s : State) : Status × State :=
  let st := firstFail (s.pktAddrCheck 64)
  if st ≠ .ok then (st, s)
  else
    let a := s.pktAddr
    let c := s.word (a + 32)
    match s.building with
    | some b =>
      match s.exactFind (s.bytes a 32) (c.field 60 57) (c.field 56 53) b.version with
      | some e => (.ok, s.setWord (e + 32) (deletedControl (s.word (e + 32)) b.version))
      | none => (.state, s)
    | none => (.state, s)

/-- A wildcard entry. -/
def State.wild (s : State) (i : Nat) : List Word := (Tab.find s.pkt.wild i).getD []

/-- WC_WRITE. -/
def State.wcWrite (s : State) : Status × State :=
  let st := firstFail (s.pktAddrCheck 128)
  if st ≠ .ok then (st, s)
  else
    let i := s.pktArg.field 15 0
    let ws := s.words s.pktAddr 12
    if actionBad (wordAt ws 10) then (.format, s)
    else
      match s.building with
      | some b =>
        if (wordAt (s.wild i) 8).bit 63 then (.state, s)
        else (.ok, { s with pkt := { s.pkt with wild := Tab.insert s.pkt.wild i (ws.set 8 (newControl (wordAt ws 8) b.version)) } })
      | none => (.state, s)

/-- WC_DELETE. -/
def State.wcDelete (s : State) : Status × State :=
  let i := s.pktArg.field 15 0
  match s.building with
  | some b =>
    if s.visible (wordAt (s.wild i) 8) b.version then
      let c := deletedControl (wordAt (s.wild i) 8) b.version
      let w := if c.bit 63 then Tab.insert s.pkt.wild i ((s.wild i).set 8 c) else Tab.erase s.pkt.wild i
      (.ok, { s with pkt := { s.pkt with wild := w } })
    else (.state, s)
  | none => (.state, s)

/-- COMMIT (R195). -/
def State.pktCommit (s : State) : Status × State :=
  match s.slotIn .building, s.slotIn .current with
  | some (n, x), some (m, y) => (.ok, (s.setSlot m { y with state := .draining }).setSlot n { x with state := .current })
  | _, _ => (.state, s)

/-- ABANDON. -/
def State.pktAbandon (s : State) : Status × State :=
  match s.slotIn .building with
  | some (n, x) =>
    (.ok, (s.mapControls (fun c =>
      let c1 := if c.bit 62 && decide (c.field 47 32 = x.version) then c.setBit 63 false else c
      if c1.bit 61 && decide (c1.field 31 16 = x.version) then c1.setBit 61 false else c1)).slotFree n)
  | none => (.state, s)

/-- RXT_SETUP (R192). -/
def State.rxtSetup (s : State) : Status × State :=
  let i := s.pktArg.field 15 0
  let st := firstFail ((decide (4095 < i), .format) :: s.pktAddrCheck 16)
  if st ≠ .ok then (st, s)
  else
    let w := s.word s.pktAddr
    let l := w.field 11 8
    if l < 11 ∨ 14 < l then (.format, s)
    else
      let x : RxTarget := { bufBase := w.field 63 12 * 4096, bufLog := l, hbm := w.bit 0, ring := (s.word (s.pktAddr + 8)).field 16 0 }
      (.ok, { s with pkt := { s.pkt with targets := Tab.insert s.pkt.targets i x } })

/-- INJECT (R193). -/
def State.pktInject (s : State) : Status × State :=
  let n := s.pktArg.field 63 48
  let l := s.pktArg.field 47 31
  let top := match (s.leaf l).port with
    | some port => (s.reg (eptPage port) 0x100).field 13 0 - 4
    | none => 9596
  let st := firstFail ([(decide (s.pktAddr % 64 ≠ 0) || decide (n < 60), .format), (!s.owns 0 tyLeaf l, .accessViolation),
    (!s.ownsHbm 0 s.pktAddr n, .accessViolation), (decide (top < n), .format), ((s.firstBad s.pktAddr n).isSome, .poisoned)])
  if st = .ok then (.ok, (s.count1 .pkt 0xC).injectAt l s.pktAddr n) else (st, s)

/-- Run the command in a word written to PKT.CMD (R200). -/
def pktRun (val : Word) (s : State) : State :=
  let op := val.field 31 24
  let done (x : Status × State) : State := x.2.cmdEnd .pkt op 0 x.1
  match op with
  | 0x01 => done s.pktOpen
  | 0x02 => done s.graphLoad
  | 0x03 => done s.setExact
  | 0x04 => done s.exInsert
  | 0x05 => done s.exDelete
  | 0x06 => done s.wcWrite
  | 0x07 => done s.wcDelete
  | 0x08 => done s.pktCommit
  | 0x09 => done s.pktAbandon
  | 0x0A => done s.rxtSetup
  | 0x0B => done s.pktInject
  | _ => done (.format, s)

/-- The word that writes OP to PKT.CMD. -/
def pktWord (op : Nat) : Word := (0 : Word).setField 31 24 op

/-- OPEN (R200). -/
def execPktOpen (s : State) : Host.Outcome State Fault Refusal := .next (s.takeCmd .pkt (pktWord 1) pktRun)
/-- GRAPH_LOAD (R200). -/
def execGraphLoad (s : State) : Host.Outcome State Fault Refusal := .next (s.takeCmd .pkt (pktWord 2) pktRun)
/-- SET_EXACT (R200). -/
def execSetExact (s : State) : Host.Outcome State Fault Refusal := .next (s.takeCmd .pkt (pktWord 3) pktRun)
/-- EX_INSERT (R200). -/
def execExInsert (s : State) : Host.Outcome State Fault Refusal := .next (s.takeCmd .pkt (pktWord 4) pktRun)
/-- EX_DELETE (R200). -/
def execExDelete (s : State) : Host.Outcome State Fault Refusal := .next (s.takeCmd .pkt (pktWord 5) pktRun)
/-- WC_WRITE (R200). -/
def execWcWrite (s : State) : Host.Outcome State Fault Refusal := .next (s.takeCmd .pkt (pktWord 6) pktRun)
/-- WC_DELETE (R200). -/
def execWcDelete (s : State) : Host.Outcome State Fault Refusal := .next (s.takeCmd .pkt (pktWord 7) pktRun)
/-- COMMIT (R195, R200). -/
def execCommit (s : State) : Host.Outcome State Fault Refusal := .next (s.takeCmd .pkt (pktWord 8) pktRun)
/-- ABANDON (R200). -/
def execAbandon (s : State) : Host.Outcome State Fault Refusal := .next (s.takeCmd .pkt (pktWord 9) pktRun)
/-- RXT_SETUP (R192, R200). -/
def execRxtSetup (s : State) : Host.Outcome State Fault Refusal := .next (s.takeCmd .pkt (pktWord 10) pktRun)
/-- INJECT (R193, R200). -/
def execInject (s : State) : Host.Outcome State Fault Refusal := .next (s.takeCmd .pkt (pktWord 11) pktRun)

end Sys2Proof.Machine
end

