-- ==== Sys2Proof/Machine/Barrier.lean ====
section
/-! DEFINITION. The isolation barrier (R357 to R359): sending and accepting frames, acknowledgement, resending and the
barrier-link fault. The rows of the barrier's messages stand for frames that the receiver accepts. -/

namespace Sys2Proof.Machine

/-- The other side of the barrier. -/
def otherSide : Side → Side
  | .host => .field
  | .field => .host

/-- The number of a message class (R357). -/
def classCode : MsgClass → Nat
  | .fault => 0
  | .mgmt => 1

/-- Send ACK (0x19) or NAK (0x1A), naming a class and a SEQ: they take no place in the window and are not acknowledged
themselves. -/
def State.ackOut (s : State) (side : Side) (typ : Nat) (cls : MsgClass) (seq : Nat) : State :=
  (s.emit (.barrier side typ (s.chan side .mgmt).nextSeq [classCode cls, seq])).count1 .trs 1

/-- The receiver accepts the next frame of a class and acknowledges it (R359). -/
def State.barrierAccept (s : State) (rcv : Side) (cls : MsgClass) : State :=
  let b := s.chan (otherSide rcv) cls
  (s.setChan (otherSide rcv) cls { b with expect := (b.expect + 1) % 65536 }).ackOut rcv 0x19 cls b.expect

/-- The waiting messages go out as far as the window allows. -/
def State.waitingOut (s : State) (side : Side) (cls : MsgClass) (n : Nat) : State :=
  match n with
  | 0 => s
  | n + 1 =>
    let b := s.chan side cls
    match b.waiting with
    | [] => s
    | m :: r =>
      if b.unacked.length < 8 then ((s.setChan side cls { b with waiting := r }).frameOut side cls m.1 m.2).waitingOut side cls n
      else s

/-- Both sides raise their barrier-link fault source (R359). -/
def State.linkFault (s : State) : State :=
  (s.latch Blk.trs.page 0 2 0x7F true).latch Blk.trs.page 1 2 0x7F true

/-- Resend the frames of a channel from position n of its unacknowledged frames on (R359). -/
def State.resendFrom (s : State) (side : Side) (cls : MsgClass) (n : Nat) : State :=
  let b := s.chan side cls
  let again := (b.unacked.drop n).map (fun f => { f with resends := f.resends + 1, sentAt := s.clk.fld })
  let s1 := s.setChan side cls { b with unacked := b.unacked.take n ++ again }
  let s2 := again.foldl (fun t f => (t.emit (.barrier side f.typ f.seq f.payload)).count1 .trs 2) s1
  if again.any (fun f => decide (f.resends = 16)) then s2.linkFault else s2

/-- The window of a channel has room again: what waits for it goes out, and then raises that a host-side unit holds (R359,
R468). -/
def State.windowFreed (s : State) (side : Side) (cls : MsgClass) : State :=
  let t := s.waitingOut side cls 8
  if side = .host ∧ cls = .fault then t.sendRaises else t

/-- BARRIER_ACK (R359): the frames up to the named SEQ are acknowledged, and waiting ones are sent. -/
def execBarrierAck (rcv : Side) (cls : MsgClass) (seq : Nat) (s : State) : Host.Outcome State Fault Refusal :=
  let b := s.chan rcv cls
  match b.unacked.findIdx? (fun f => f.seq = seq) with
  | some i => .next ((s.setChan rcv cls { b with unacked := b.unacked.drop (i + 1) }).windowFreed rcv cls)
  | none => .next s

/-- BARRIER_NAK (R359): the frames before the named SEQ were accepted; the sender resends from it. -/
def execBarrierNak (rcv : Side) (cls : MsgClass) (seq : Nat) (s : State) : Host.Outcome State Fault Refusal :=
  let b := s.chan rcv cls
  if seq = b.nextSeq then .next ((s.setChan rcv cls { b with unacked := [] }).windowFreed rcv cls)
  else
    match b.unacked.findIdx? (fun f => f.seq = seq) with
    | some i => .next (((s.setChan rcv cls { b with unacked := b.unacked.drop i }).resendFrom rcv cls 0).windowFreed rcv cls)
    | none => .next s

/-- BARRIER_FRAME_BAD (R359): a frame whose CRC fails, or whose SEQ is not the next, is discarded and a NAK names the expected
SEQ. -/
def execBarrierFrameBad (rcv : Side) (cls : MsgClass) (seq : Nat) (crcOk : Bool) (s : State) :
    Host.Outcome State Fault Refusal :=
  let b := s.chan (otherSide rcv) cls
  if crcOk = true ∧ seq = b.expect then .next s
  else
    .next ((s.ackOut rcv 0x1A cls b.expect).latch Blk.trs.page (if rcv = .field then 0 else 1) (if crcOk then 1 else 0) 0x7F
      true)

/-- BARRIER_RESEND_TIMEOUT (R359): a frame without ACK for 64 FLD cycles is resent, with those after it. -/
def execBarrierResendTimeout (side : Side) (cls : MsgClass) (s : State) : Host.Outcome State Fault Refusal :=
  match (s.chan side cls).unacked.findIdx? (fun f => f.sentAt + 64 ≤ s.clk.fld) with
  | some i => .next (s.resendFrom side cls i)
  | none => .next s

end Sys2Proof.Machine
end

