-- ==== Sys2Proof/Machine/Clocks.lean ====
section
/-! DEFINITION. Clocks: the reference clock and its loss, PLLs, the CORE multiplexers, gates (22_clocks.md); and the loss of
the host side's state that several events bring about. -/

namespace Sys2Proof.Machine

/-! ## Loss of the host side (R448, R455, R478, R493) -/

/-- Whether a block code is of a field-die page. -/
def fieldCode (c : Nat) : Bool := decide (c = 1) || decide (22 ≤ c)

/-- The host side loses its supply and all its state; the field die, its pages, its flash and the commands that wait are
kept, and the host-side balls are at their safe levels. PERST_N is an input and keeps its level; PRT.GUARANTEE.INJ_UNUSED
returns only at device reset. -/
def State.hostLost (s : State) : State :=
  let r := State.reset
  { r with
    pending := s.pending, clk := s.clk, out := s.out, free := s.free,
    regs := s.regs.filter (fun e => fieldCode (e.1 / 2 ^ 32) || decide (e.1 = Blk.prt.page.key 0x128)),
    entry := s.entry.filter (fun e => blkField e.1.blk),
    hlk := { r.hlk with perst := s.hlk.perst },
    trs := { s.trs with dieReset := true, hostPower := false, linkReady := false, abiVersion := 0, reports := [], signed := [], attWaits := [] },
    cg := { r.cg with plls := Tab.upd r.cg.plls 0 (fun _ => Tab.get .reset s.cg.plls 0),
                      gates := s.cg.gates.map (fun e => (e.1, { Gate.reset with opens := e.2.opens })),
                      mux0 := { busy := (s.reg Blk.clk.page 0x140).bit 0, used := false },
                      mux1 := { busy := (s.reg Blk.clk.page 0x140).bit 1, used := false },
                      refinHost := s.cg.refinHost, refinField := s.cg.refinField },
    pwr := { s.pwr with railBin0 := 0, railBin1 := 0, railUp0 := false, railUp1 := false, hostOff := true },
    flt := { s.flt with elws := s.flt.elws.filter (fun e => fieldCode (e.1 / 2 ^ 32)),
                        queue := s.flt.queue.filter (fun h => h.fromField),
                        parts := [], blocks := [], planes := s.flt.planes.filter (fun p => p = 2) },
    balls := { s.balls with dperst := 0, pgood := false, idle := true } }

/-- The host side goes down: a report that P0 waits for ends with STATE, and everything of the host side is lost. -/
def State.hostDown (s : State) : State :=
  let s1 := s.hostLost
  if s.trs.reports.any (fun r => r.vi.isNone) then s1.cmdEnd .trs 3 0 .state else s1

/-! ## PLLs (R435 to R439) -/

/-- Output frequency in MHz of a PLL at a multiplier (R435). -/
def pllMHz (n mult : Nat) : Nat :=
  if pllCore n then 100 * mult
  else match n with
  | 0 => 200
  | 6 | 11 => 1800
  | 12 => 1600
  | _ => if 16 ≤ n then Config.hbmPllMhz else 2000

/-- Whether a window's count lies within E ± T, E = 4,096 f / 200 MHz and T = ⌈2 × 10^-4 E⌉ (R436). -/
def windowPass (f count : Nat) : Bool :=
  let t := (4096 * f + 999999) / 1000000
  decide (200 * count ≤ 4096 * f + 200 * t) && decide (4096 * f ≤ 200 * count + 200 * t)

/-- Whether a mux drives its domain from a PLL, or is to switch to it (R438). -/
def State.muxSelects (s : State) (n : Nat) : Bool :=
  pllCore n &&
  (decide (corePll (pllDie n) (s.mux (pllDie n)).used = n) || decide (corePll (pllDie n) (s.coreSel (pllDie n)) = n))

/-- The clusters that a stoppable PLL serves (R443). -/
def pllConsumers (n : Nat) : List Nat :=
  match n with
  | 2 | 3 => [0, 1, 2, 3]
  | 7 | 8 => [4, 5, 6, 7]
  | 6 => [10, 12]
  | 11 => [11, 13]
  | 12 => [14, 15, 16, 17, 18, 19, 20, 21, 22, 23]
  | _ => []

/-- A PLL enters FAILED: ERR_STAT bit 0 and INT_STAT.PLL_FAILED (R436, R437). -/
def State.pllFail (s : State) (n : Nat) : State :=
  ((s.setPll n { s.pll n with state := .failed, run := 0 }).err .clk 0).setIntBit Blk.clk.page 10

/-- PLL_LOCK (R436). -/
def execPllLock (pll : Nat) (s : State) : Host.Outcome State Fault Refusal :=
  .next (if (s.pll pll).state = .locking then
      s.setPll pll { s.pll pll with state := .testing, run := 0, windows := 0, fails := 0 }
    else s)

/-- PLL_WINDOW (R436, R437). -/
def execPllWindow (pll : Nat) (count : Nat) (s : State) : Host.Outcome State Fault Refusal :=
  let p := s.pll pll
  let ok := windowPass (pllMHz pll p.mult) count
  let q := { p with count := count, fails := if ok then p.fails else min (p.fails + 1) 255 }
  let t := if ok then s else s.count1 .clk 5
  .next (match p.state with
  | .testing =>
    let run := if ok then p.run + 1 else 0
    let w := { q with windows := p.windows + 1, run := run }
    if run = 4 then t.setPll pll { w with state := .stable }
    else if p.windows + 1 = 64 then (t.setPll pll w).pllFail pll
    else t.setPll pll w
  | .stable => if ok then t.setPll pll q else (t.setPll pll q).err .clk 1
  | .off | .locking | .failed => s)

/-- PLL_LOCK_LOST (R437). -/
def execPllLockLost (pll : Nat) (s : State) : Host.Outcome State Fault Refusal :=
  .next (if (s.pll pll).running then (s.pllFail pll).count1 .clk 4 else s)

/-- Whether every consumer of a PLL has been closed for n AON cycles and none is waking. -/
def State.consumersIdle (s : State) (n cycles : Nat) : Bool :=
  (pllConsumers n).all (fun c =>
    !(s.gate c).isOpen && !(s.gate c).waking && decide ((s.gate c).since + cycles ≤ s.clk.aon))

/-- Whether an Ethernet port is enabled. -/
def State.anyEpt (s : State) : Bool := (List.range 16).any (fun n => (s.reg ⟨.ept, n⟩ 0x100).bit 63)

/-- PLL_IDLE_STOP (R438): an AUTO PLL stops once its consumers have been closed for IDLE AON cycles, so that no mux selects it
for an open domain; the PKT PLL runs while an Ethernet port is enabled (R435). -/
def execPllIdleStop (pll : Nat) (s : State) : Host.Outcome State Fault Refusal :=
  .next (if pllStoppable pll && (s.pll pll).running && decide (s.pllMode pll = 0) &&
      s.consumersIdle pll ((s.pllCtl pll).field 31 0) && !(decide (pll = 12) && s.anyEpt) then s.pllStop pll
    else s)

/-- A PLL in OFF stops as soon as no mux selects it (R438). -/
def State.pllOffStop (s : State) (n : Nat) : State :=
  if pllStoppable n && (s.pll n).running && decide (s.pllMode n = 2) && !s.muxSelects n &&
    !(decide (n = 12) && s.anyEpt) then s.pllStop n
  else s

/-- Start what a mux waits for: a selected PLL in AUTO or ON that is OFF (R441). -/
def State.muxStart (s : State) (d : Nat) : State :=
  let n := corePll d (s.coreSel d)
  if (s.mux d).busy && decide ((s.pll n).state = .off) && decide (s.pllMode n ≠ 2) && s.trs.hostPower then s.pllStart n else s

/-! ## Switching a CORE domain (R440, R441) -/

/-- A mux finishes its switch; it switches again where the live bit names the other source, and a PLL in OFF that is no longer
selected stops. -/
def State.muxSwitch (s : State) (d : Nat) : State :=
  let b := !(s.mux d).used
  let s1 := (s.setMux d { used := b, busy := s.coreSel d != b }).count1 .clk 6
  (s1.pllOffStop (corePll d (!b))).muxStart d

/-- CORE_SWITCH_DONE (R440, R441): NEW is STABLE and OLD runs. -/
def execCoreSwitchDone (die : Nat) (s : State) : Host.Outcome State Fault Refusal :=
  let m := s.mux die
  .next (if decide (die < 2) && m.busy && decide ((s.pll (corePll die (!m.used))).state = .stable) &&
      (s.pll (corePll die m.used)).running then s.muxSwitch die
    else s)

/-- SWITCH_FORCE (R440): OLD has stopped, and the switch is forced. -/
def execSwitchForce (die : Nat) (s : State) : Host.Outcome State Fault Refusal :=
  let m := s.mux die
  .next (if decide (die < 2) && m.busy && decide ((s.pll (corePll die (!m.used))).state = .stable) &&
      !(s.pll (corePll die m.used)).running then
      let s1 := (s.muxSwitch die).count1 .clk 7
      ((s1.setReg Blk.clk.page 0x118 ((s1.reg Blk.clk.page 0x118).setBit 63 true)).err .clk 2).setIntBit Blk.clk.page 9
    else s)

/-! ## Time that passes with no command -/

/-- A tick, after which fault entries of pages that ATS has found present close (R162) and fetches of contexts that waited for room
start (R141). -/
def State.passes (s : State) : State := if s.cg.refinField then (s.tick.faultsPresent).missStart else s

/-! ## Gates (R442 to R447) -/

/-- Whether a core is busy for its cluster: running, not stalled in IDLE (R443). -/
def State.coreBusy (s : State) (n : Nat) : Bool :=
  let c := Tab.get Core.reset s.cores n
  !c.halted && !c.idle

/-- Whether work of an engine is in progress. -/
def State.engineBusy (s : State) (es : List Nat) : Bool :=
  s.work.any (fun w => es.contains (dEngine w.words) && decide (w.phase ≠ .done))

/-- Whether a unit of a cluster is busy (R442, R443): it has work in progress. -/
def State.clusterBusy (s : State) (c : Nat) : Bool :=
  if c < 8 then (List.range 8).any (fun i => s.coreBusy (8 * c + i))
  else if c < 10 then (List.range 8).any (fun i => s.coreBusy (8 * c + i))
  else if c < 12 then
    s.att.reqs.any (fun r => r.chunks.any (fun k => match k with
      | .running u => decide (u / 16 = c - 10)
      | .waiting | .done _ => false))
  else if c < 14 then s.engineBusy [4, 6, 9]
  else if c < 20 then
    !(Tab.get [] s.pkt.newQ (c - 14)).isEmpty || !(Tab.get [] s.pkt.recQ (c - 14)).isEmpty
  else match c with
  | 20 => s.engineBusy [1, 2] || s.mlr.conns.any (fun e => !e.2.tx.isEmpty || !e.2.outq.isEmpty || !e.2.serves.isEmpty ||
      !e.2.rxPkts.isEmpty)
  | 21 => s.engineBusy [8]
  | 22 => s.engineBusy [3]
  | 23 => s.sch.leaves.any (fun e => !e.2.q.isEmpty || !e.2.waiting.isEmpty)
  | 24 => !s.sto.cmds.isEmpty || !s.sto.drives.isEmpty
  | _ => false

/-- A change of a host-side clock that the field side has taken crosses in a message of the clock controls (R12, R358; DESIGN CHOICE:
the spec gives the type range and no payload, assumption 134). -/
def State.clockMsg (s : State) (payload : List Nat) : State := s.barrierSend .field .mgmt 0x1D payload

/-- GATE_CTL.MODE of a cluster is FORCE_ON. -/
def State.forceOn (s : State) (c : Nat) : Bool := decide ((s.reg Blk.clk.page (0x300 + 8 * c)).field 63 62 = 1)

/-- GATE_IDLE_CLOSE (R443): an AUTO cluster none of whose units is busy closes. -/
def execGateIdleClose (cluster : Nat) (s : State) : Host.Outcome State Fault Refusal :=
  .next (if decide (cluster ≤ 24) && (s.gate cluster).isOpen && !s.forceOn cluster && !s.clusterBusy cluster then
      s.gateClose cluster
    else s)

/-! ## Loss of REFIN (R433, R448, R449) -/

/-- REFIN_LOSS (R448): a detector declares REFIN absent. The host side loses all state; on the field side AON and FLD stop, and
ALIVE keeps its level. -/
def execRefinLoss (side : Side) (s : State) : Host.Outcome State Fault Refusal :=
  .next (match side with
  | .host =>
    if s.cg.refinHost then
      let s1 := s.hostDown
      { s1 with cg := { s1.cg with refinHost := false } }
    else s
  | .field =>
    if s.cg.refinField then
      let s1 := s.hostDown
      let s2 := s1.setPll 0 { s1.pll 0 with state := .off, run := 0 }
      { s2 with cg := { s2.cg with refinField := false }, trs := { s2.trs with startup := min s2.trs.startup 3 } }
    else s)

/-- REFIN_RESTORE (R449): REFIN is present again. The host-side detector alone reports it to the host side; on the field side
the FLD PLL passes its test, Weir resumes and restarts the host side from step 4. Before Weir runs, start-up goes on from
step 2. -/
def execRefinRestore (side : Side) (s : State) : Host.Outcome State Fault Refusal :=
  .next (match side with
  | .host => { s with cg := { s.cg with refinHost := true } }
  | .field =>
    if s.cg.refinField then s
    else
      let s1 : State := { s with cg := { s.cg with refinField := true },
                                 trs := { s.trs with startup := if s.trs.weirRuns then 3 else min s.trs.startup 1 } }
      let w := s1.reg Blk.clk.page 0x100
      let s2 := s1.setReg Blk.clk.page 0x100 (w.setField 15 0 (min (w.field 15 0 + 1) 0xFFFF))
      let s3 := if s2.trs.weirRuns then s2.setPll 0 { s2.pll 0 with state := .stable, run := 4 } else s2
      (s3.err .clk 3).setIntBit Blk.clk.page 11)

end Sys2Proof.Machine
end

