-- ==== Sys2Proof/Machine/Power.lean ====
section
/-! DEFINITION. Power, thermal limits, voltage bins, retention and the wear meter (23_power_and_thermal.md); supply and power
enable (R455, R493); and the field side's flash (R363). -/

namespace Sys2Proof.Machine

/-! ## Flash (R363, R446) -/

/-- What a byte of flash that nothing has written reads as: an erased byte. -/
def flashFill : Byte := 0xFF

/-- Bytes of the flash. -/
def flashSize : Nat := 0x08000000

/-- n bytes of flash; while the quad-SPI is gated it reads as zeros. -/
def State.flashBytes (s : State) (a n : Nat) : List Byte :=
  if (s.reg Blk.clk.page 0x148).bit 2 then (List.range n).map (fun i => Tab.get flashFill s.trs.flash (a + i))
  else List.replicate n 0

/-- Bytes put into a table of flash. -/
def flashPut (t : Tab Byte) (a : Nat) (bs : List Byte) : Tab Byte :=
  match bs with
  | [] => t
  | b :: r => flashPut (Tab.set flashFill t a b) (a + 1) r

/-- Write flash: bytes beyond its end, and every write while the quad-SPI is gated, are dropped. -/
def State.flashWrite (s : State) (a : Nat) (bs : List Byte) : State :=
  if (s.reg Blk.clk.page 0x148).bit 2 then
    { s with trs := { s.trs with flash := flashPut s.trs.flash a (bs.take (flashSize - a)) } }
  else s

/-! ## Reports of the controller -/

/-- Whether a step of R458 or a thermal cap is in force. -/
def State.throttled (s : State) : Bool :=
  decide (s.pwr.capMult0 < 36) || decide (s.pwr.capMult1 < 36) || decide (s.pwr.duty ≠ 0) || s.pwr.thermalCap.isSome

/-- CTRL_STAT follows the controller; INT_STAT.THROTTLE is set when THROTTLE or HARD goes from 0 to 1. New limits of the host-side
clocks cross the barrier (R12). -/
def State.ctrlStat (s : State) : State :=
  let w := s.reg Blk.pwr.page 0x148
  let w1 := (((((w.setBit 62 s.throttled).setBit 61 s.hardThrottle).setField 57 48 s.pwr.peakUsed).setField 31 24
    (s.maxMult 0)).setField 23 16 (s.maxMult 1)).setField 15 12 s.pwr.duty
  let s0 := s.setReg Blk.pwr.page 0x148 w1
  let s1 := if w.field 31 12 = w1.field 31 12 ∧ w.bit 61 = w1.bit 61 then s0
    else s0.clockMsg [3, s.maxMult 0, s.maxMult 1, s.pwr.duty, if s.hardThrottle then 1 else 0]
  if (s.throttled && !w.bit 62) || (s.hardThrottle && !w.bit 61) then s1.setIntBit Blk.pwr.page 9 else s1

/-! ## Control period (R456 to R461) -/

/-- Periods of the window (R456). -/
def windowLen : Nat := 100000

/-- The sensors' target: HBM_TARGET for sensors 7 to 14, THERM_TARGET for the others. -/
def State.tempTarget (s : State) (i : Nat) : Int :=
  let w := s.reg Blk.pwr.page 0x100
  (if 7 ≤ i then w.field 39 32 else w.field 47 40 : Nat)

/-- The thermal cap after a period of power p with these temperatures in 1/16 °C (R461). -/
def State.thermalNext (s : State) (p : Nat) (temps : List Int) : Option Nat :=
  let hot := (List.range temps.length).any (fun i => decide (16 * s.tempTarget i ≤ temps.getD i 0))
  let cool := (List.range temps.length).all (fun i => decide (temps.getD i 0 + 48 ≤ 16 * s.tempTarget i))
  if hot then (match s.pwr.thermalCap with
    | none => some (p - 10)
    | some c => some (c - 10))
  else if cool then (match s.pwr.thermalCap with
    | none => none
    | some c => if 1150 ≤ c + 10 then none else some (c + 10))
  else s.pwr.thermalCap

/-- The temperatures of a period enter THERM_STAT. -/
def State.putTemps (s : State) (i : Nat) (temps : List Int) : State :=
  match temps with
  | [] => s
  | t :: r =>
    let s1 : State := { s with pwr := { s.pwr with
      temps := Tab.set 0 s.pwr.temps i t, hwm := Tab.set 0 s.pwr.hwm i (max (Tab.get 0 s.pwr.hwm i) (t / 16)) } }
    s1.putTemps (i + 1) r

/-- The cap of a period: the lowest of the state cap, the average cap, the current limit, SOFT_CAP, firmware's cap and the
thermal cap (R457, R431); vin in units of 10 mV. -/
def State.powerCap (s : State) (vin : Nat) : Nat :=
  let st := if (s.reg Blk.pwr.page 0x148).bit 63 then 950 else 1150
  let avg := windowLen * 860 - (s.pwr.window.take (windowLen - 1)).foldl (· + ·) 0
  let base := min (min st avg) (min (vin * 3 / 10) ((s.reg Blk.pwr.page 0x100).field 31 16))
  min (min base (s.pwr.fwCap.getD 1150)) (s.pwr.thermalCap.getD 1150)

/-- One throttle step (R458): MULT limits fall by up to 4 each to 8, then the duty of clusters 10 to 13 to 2/16. Where nothing is
left to lower, the period counts towards R459. -/
def Pwr.lower (p : Pwr) : Pwr :=
  if 8 < p.capMult0 ∨ 8 < p.capMult1 then
    { p with capMult0 := max 8 (p.capMult0 - 4), capMult1 := max 8 (p.capMult1 - 4), over100 := 0 }
  else if p.duty = 0 then { p with duty := 15, over100 := 0 }
  else if 2 < p.duty then { p with duty := p.duty - 1, over100 := 0 }
  else { p with over100 := p.over100 + 1 }

/-- Undo one throttle step, in reverse order (R458); the hard throttle of R459 ends. -/
def Pwr.raise (p : Pwr) : Pwr :=
  let q := { p with hardOver := false, over100 := 0 }
  if p.duty ≠ 0 then { q with duty := if p.duty = 15 then 0 else p.duty + 1 }
  else { q with capMult0 := min 36 (p.capMult0 + 4), capMult1 := min 36 (p.capMult1 + 4) }

/-- OPEN and STEP (R457): PEAK_USED counts the periods above 950 W; at 1,000 the next period is in STEP; STEP ends with the
average at or below RESUME. -/
def State.stepState (s : State) (p avg : Nat) : State :=
  let w := s.reg Blk.pwr.page 0x148
  if w.bit 63 then
    if avg ≤ (s.reg Blk.pwr.page 0x100).field 63 48 then
      let s1 : State := { s with pwr := { s.pwr with peakUsed := 0 } }
      s1.setReg Blk.pwr.page 0x148 (w.setBit 63 false)
    else s
  else
    let u := if 950 < p then s.pwr.peakUsed + 1 else s.pwr.peakUsed
    let s1 : State := { s with pwr := { s.pwr with peakUsed := u } }
    if 1000 ≤ u then (s1.setReg Blk.pwr.page 0x148 (w.setBit 63 true)).setIntBit Blk.pwr.page 8 else s1

/-- Compare the period's power with the cap, and step (R458, R459). -/
def State.powerStep (s : State) (p cap : Nat) : State :=
  let q := if cap < p then s.pwr.lower else if p + 20 ≤ cap then s.pwr.raise else { s.pwr with over100 := 0 }
  let s1 : State := { s with pwr := q }
  if q.over100 = 100 then
    let s2 : State := { s1 with pwr := { q with hardOver := true } }
    s2.err .pwr 4
  else s1

/-- The checks of the power controller's shadow set (23_power_and_thermal.md, CFG). -/
def State.pwrChecks (s : State) : List (Nat × Bool) :=
  let w := s.shade Blk.pwr.page 0x100
  let out (v lo hi : Nat) : Bool := decide (v < lo) || decide (hi < v)
  [(0x100, out (w.field 63 48) 600 860 || out (w.field 47 40) 60 95 || out (w.field 39 32) 60 85 ||
    out (w.field 31 16) 300 860 || decide (w.field 15 0 = 0))]

/-- A period of the power controller: an armed set applies first (R38). -/
def State.controlPeriod (p : State) (power vin iin : Nat) (temps : List Int) : State :=
  let s := p.swapFirst Blk.pwr.page p.pwrChecks
  let ts := temps.take 15
  let win := (power :: s.pwr.window).take windowLen
  let avg := win.foldl (· + ·) 0 / windowLen
  let hot := (List.range ts.length).any (fun i => decide (16 * s.tempTarget i ≤ ts.getD i 0))
  let s1 : State := { s with pwr := { s.pwr with window := win, vinLast := vin, thermalCap := s.thermalNext power ts } }
  let s2 := ((s1.putTemps 0 ts).stepState power avg)
  let cap := s2.powerCap vin
  let s3 := s2.powerStep power cap
  let inStat := ((((0 : Word).setField 63 48 vin).setField 47 32 iin).setField 31 16 power).setField 15 0 avg
  let s4 := s3.setReg Blk.pwr.page 0x140 inStat
  let s5 := (s4.setReg Blk.pwr.page 0x148 ((s4.reg Blk.pwr.page 0x148).setField 47 32 cap)).ctrlStat
  let s6 := if hot then s5.setIntBit Blk.pwr.page 10 else s5
  let s7 := if s6.throttled then s6.count1 .pwr 1 else s6
  let s8 := if s7.hardThrottle then s7.count1 .pwr 2 else s7
  (if (s8.reg Blk.pwr.page 0x148).bit 63 then s8.count1 .pwr 3 else s8)

/-- CONTROL_PERIOD (R456 to R461): a period of power W ends, with VIN40 in 10 mV, the input current in 10 mA and the sensors in
1/16 °C. -/
def execControlPeriod (power vin iin : Nat) (temps : List Int) (s : State) : Host.Outcome State Fault Refusal :=
  .next (s.controlPeriod power vin iin temps)

/-- CURRENT_LIMIT (R459): the input current reaches 30 A. -/
def execCurrentLimit (s : State) : Host.Outcome State Fault Refusal :=
  let s1 : State := { s with pwr := { s.pwr with hardOver := true } }
  .next (s1.ctrlStat.err .pwr 6)

/-- THERMAL_TRIP (R462): a sensor reaches its trip value. -/
def execThermalTrip (sensor : Nat) (s : State) : Host.Outcome State Fault Refusal :=
  .next (if sensor ≤ 14 then
      let s1 : State := { s with pwr := { s.pwr with
        hardSensors := if s.pwr.hardSensors.contains sensor then s.pwr.hardSensors else s.pwr.hardSensors ++ [sensor] } }
      s1.ctrlStat.err .pwr (if sensor ≤ 6 then 2 else 3)
    else s)

/-- THERMAL_TRIP_CLEAR (R462): a tripped sensor reads 10 °C below its trip value. -/
def execThermalTripClear (sensor : Nat) (s : State) : Host.Outcome State Fault Refusal :=
  let s1 : State := { s with pwr := { s.pwr with hardSensors := s.pwr.hardSensors.filter (fun x => x ≠ sensor) } }
  .next s1.ctrlStat

/-! ## Supply and power enable (R455, R493) -/

/-- VIN_TRIP (R455): the host side loses power until VIN40 has been in range for 10 ms. -/
def execVinTrip (ovr : Bool) (s : State) : Host.Outcome State Fault Refusal :=
  let s1 := s.hostDown
  let s2 : State := { s1 with pwr := { s1.pwr with tripAt := some s.clk.fld },
                              trs := { s1.trs with startup := min s.trs.startup 3 } }
  .next (s2.err .pwr (if ovr then 1 else 0))

/-- HSEN_LOW (R493): the board withdraws its permission; a powered host side loses power. -/
def execHsenLow (s : State) : Host.Outcome State Fault Refusal :=
  .next (if s.trs.hostPower then
      let s1 := s.hostDown
      { s1 with pwr := { s1.pwr with hsenAt := some s.clk.fld }, trs := { s1.trs with startup := min s.trs.startup 3 },
                balls := { s1.balls with hsen := false } }
    else { s with balls := { s.balls with hsen := false } })

/-- Whether 2,000,000 FLD cycles have passed since a time, where there is one. -/
def State.waited (s : State) (t : Option Nat) : Bool :=
  match t with
  | none => true
  | some a => decide (a + 2000000 ≤ s.clk.fld)

/-- HOST_RESTART (R455, R493): VIN40 has been in range, and HSEN high, for 2,000,000 FLD cycles each; start-up runs on from
step 4. -/
def execHostRestart (s : State) : Host.Outcome State Fault Refusal :=
  .next (if (s.pwr.tripAt.isSome || s.pwr.hsenAt.isSome) && s.waited s.pwr.tripAt && s.waited s.pwr.hsenAt then
      { s with pwr := { s.pwr with tripAt := none, hsenAt := none }, balls := { s.balls with hsen := true } }
    else s)

/-- FIELD_SUPPLY_LOSS (R455): the whole device loses power; fuses, flash and the levels of its input balls stay. -/
def execFieldSupplyLoss (s : State) : Host.Outcome State Fault Refusal :=
  let r := State.reset
  .next { r with
    pending := s.pending, out := s.out, free := s.free, hlk := { r.hlk with perst := s.hlk.perst },
    trs := { r.trs with uds := s.trs.uds, rootHash := s.trs.rootHash, svnFloor := s.trs.svnFloor, revoke := s.trs.revoke,
                        flash := s.trs.flash },
    pwr := { r.pwr with wearOut := s.pwr.wearOut, bin3 := !s.pwr.wearOut },
    balls := { r.balls with hsen := s.balls.hsen } }

/-! ## Voltage bins (R460) -/

/-- The CORE PLLs of a die that run. -/
def State.corePlls (s : State) (d : Nat) : List Nat :=
  [corePll d false, corePll d true].filter (fun n => (s.pll n).running)

/-- A PLL moves by 1 MULT towards its target, as far as the rail allows. -/
def State.slewOne (s : State) (d n : Nat) : State :=
  let p := s.pll n
  let t := min (s.pllTarget n) (binTop (s.railBin d))
  if p.slewAt + 8 ≤ s.clk.refin then
    s.setPll n { p with mult := if p.mult < t then p.mult + 1 else if t < p.mult then p.mult - 1 else p.mult,
                        slewAt := s.clk.refin }
  else s

/-- The rail of a die follows: it begins to rise for a target in a higher bin, and falls once every PLL has reached its new
MULT in a lower bin. -/
def State.railFollow (s : State) (d : Nat) : State :=
  let ns := s.corePlls d
  let want := (ns.map (fun n => binOf (s.pllTarget n))).foldl max 0
  let now := (ns.map (fun n => binOf (s.pll n).mult)).foldl max 0
  if s.railBin d < want then s.railRaise d
  else if want < s.railBin d ∧ now < s.railBin d then
    { s with pwr := if d = 0 then { s.pwr with railBin0 := max want now } else { s.pwr with railBin1 := max want now } }
  else s

/-- MULT_SLEW (R460). -/
def execMultSlew (die : Nat) (s : State) : Host.Outcome State Fault Refusal :=
  .next (if die < 2 then ((s.corePlls die).foldl (fun t n => t.slewOne die n) s).railFollow die else s)

/-- RAIL_SETTLED (R460): a raised rail has settled at the bin of the highest target. -/
def execRailSettled (die : Nat) (s : State) : Host.Outcome State Fault Refusal :=
  let b := max (s.railBin die) (((s.corePlls die).map (fun n => binOf (s.pllTarget n))).foldl max 0)
  .next (if die = 0 ∧ s.pwr.railUp0 = true then { s with pwr := { s.pwr with railBin0 := b, railUp0 := false } }
    else if die = 1 ∧ s.pwr.railUp1 = true then { s with pwr := { s.pwr with railBin1 := b, railUp1 := false } }
    else s)

/-! ## Retention (R463) -/

/-- Whether a cluster can enter retention. -/
def retains (c : Nat) : Bool := decide (c < 8) || (decide (10 ≤ c) && decide (c < 14)) || decide (c = 21) || decide (c = 22)

/-- RETENTION_ENTER (R463): the gate has been closed for RET_IDLE AON cycles. -/
def execRetentionEnter (cluster : Nat) (s : State) : Host.Outcome State Fault Refusal :=
  let g := s.gate cluster
  .next (if retains cluster && !g.isOpen && !g.waking && !g.retained && s.trs.hostPower &&
      decide (g.since + (s.reg Blk.pwr.page 0x100).field 15 0 ≤ s.clk.aon) then
      (s.setGate cluster { g with retained := true }).count1 .pwr 4
    else s)

/-- RETENTION_WAKE (R463): the rails of a retained cluster return. -/
def execRetentionWake (cluster : Nat) (s : State) : Host.Outcome State Fault Refusal :=
  let g := s.gate cluster
  .next (if g.retained then (s.setGate cluster { g with retained := false }).count1 .pwr 5 else s)

/-! ## Wear meter (R464, R465) -/

/-- AON cycles of an hour of powered operation. -/
def hourAon : Nat := 22500000000

/-- The current bucket. -/
def State.bucket (s : State) : Nat := (s.reg Blk.pwr.page 0x160).field 7 0

/-- Hours in the 60 buckets. -/
def Pwr.wearTotal (p : Pwr) : Nat := p.buckets.foldl (· + ·) 0

/-- PWR.WEAR follows the meter. -/
def State.wearStat (s : State) : State :=
  let w := s.reg Blk.pwr.page 0x160
  s.setReg Blk.pwr.page 0x160 (((w.setBit 63 (!s.pwr.bin3)).setField 47 32 s.pwr.wearTotal).setField 31 16
    (s.pwr.buckets.getD s.bucket 0))

/-- The hours of the 60 buckets, those not listed being 0. -/
def Pwr.hours (p : Pwr) : List Nat := (List.range 60).map (fun i => p.buckets.getD i 0)

/-- Change the hours of one bucket. -/
def State.setBucket (s : State) (i n : Nat) : State :=
  { s with pwr := { s.pwr with buckets := (List.range 60).map (fun j => if j = i then n else s.pwr.buckets.getD j 0) } }

/-- The wear record without its HMAC: the current bucket, the AON cycles until the next, and the hours of each. -/
def State.wearBody (s : State) : List Byte :=
  wordsBytes (Word.of s.bucket :: Word.of (s.pwr.bucketAt - s.clk.aon) :: s.pwr.hours.map Word.of)

/-- Bin 3 is withdrawn for the life of the part (R465). -/
def State.withdraw (s : State) : State :=
  let s1 : State := { s with pwr := { s.pwr with wearOut := true, bin3 := false } }
  (s1.wearStat.ctrlStat).setIntBit Blk.pwr.page 11

/-- WEAR_CHARGE (R464, R465): a core die is to run in bin 3 and no charged hour runs: one hour is charged to the current bucket,
and 8,760 hours withdraw the bin. -/
def execWearCharge (die : Nat) (s : State) : Host.Outcome State Fault Refusal :=
  .next (if decide (die < 2) && s.pwr.bin3 && s.pwr.charging.isNone && decide (s.pwr.hourEnd ≤ s.clk.aon) &&
      (s.corePlls die).any (fun n => decide (33 ≤ s.wantMult n)) then
      let s1 := s.setBucket s.bucket (s.pwr.buckets.getD s.bucket 0 + 1)
      let s2 : State := { s1 with pwr := { s1.pwr with charging := some die } }
      let s3 := s2.wearStat.count1 .pwr 6
      if 8760 ≤ s3.pwr.wearTotal then s3.withdraw else s3
    else s)

/-- WEAR_RECORD_WRITTEN (R464): the record lies in flash, under its HMAC, and the bin is granted for the charged hour. -/
def execWearRecordWritten (s : State) : Host.Outcome State Fault Refusal :=
  .next (if s.pwr.charging.isSome && (s.reg Blk.clk.page 0x148).bit 2 then
      let s1 := s.flashWrite 0x07FF8000 (s.wearBody ++ hmac384 (s.trs.handoffWear.getD []) s.wearBody)
      { s1 with pwr := { s1.pwr with charging := none, hourEnd := if s1.pwr.bin3 then s1.clk.aon + hourAon else s1.pwr.hourEnd } }
    else s)

/-- WEAR_BUCKET_ADVANCE (R464): 730 powered hours have passed; the next bucket starts at 0. -/
def execWearBucketAdvance (s : State) : Host.Outcome State Fault Refusal :=
  .next (if s.trs.weirRuns && decide (s.pwr.bucketAt ≤ s.clk.aon) then
      let b := (s.bucket + 1) % 60
      let s1 := (s.setReg Blk.pwr.page 0x160 ((s.reg Blk.pwr.page 0x160).setField 7 0 b)).setBucket b 0
      let s2 : State := { s1 with pwr := { s1.pwr with bucketAt := s1.pwr.bucketAt + 730 * hourAon } }
      s2.wearStat
    else s)

/-! ## Requests of firmware (R431) -/

/-- POWER_CLOCK_CONTROL (R431): a limit is lowered; what lies beyond a field-side limit is clamped to it, and the answer says
so. -/
def execPowerClockControl (req : PwrReq) (s : State) : Host.Outcome State Fault Refusal :=
  let s1 := s.barrierAccept .field .mgmt
  let r : Nat × Bool × State := match req with
    | .multLimit die mult =>
      let m := max 8 (min mult (if s1.pwr.bin3 then 36 else 32))
      (m, decide (m ≠ mult),
        { s1 with pwr := if die = 0 then { s1.pwr with fwMult0 := m } else if die = 1 then { s1.pwr with fwMult1 := m } else s1.pwr })
    | .softCap watts =>
      let c := max 300 (min watts ((s1.reg Blk.pwr.page 0x100).field 31 16))
      (c, decide (c ≠ watts), { s1 with pwr := { s1.pwr with fwCap := some c } })
  let s2 : State := { r.2.2 with trs := { r.2.2.trs with pwrAnswer := some (r.1, r.2.1) } }
  .next (s2.ctrlStat.barrierSend .field .mgmt 0x1C [r.1, if r.2.1 then 1 else 0])

end Sys2Proof.Machine
end

