-- ==== Sys2Proof/Machine/Faults.lean ====
section
/-! DEFINITION. Fault collection and reaction: raises, severities, the log, containment, the safe state, heartbeats, ALIVE and
the FLT page's commands (24_faults.md). -/

namespace Sys2Proof.Machine

/-- The FLT page. -/
abbrev fltPage : Page := Blk.flt.page

/-! ## The safe state (R477, R478) -/

/-- The host side enters the safe state: every outstanding read ends under R67, DPERST_N falls and the transmitters are idle.
Nothing takes work or issues a request while flt.safe holds. -/
def State.safeEnter (s : State) : State :=
  if s.flt.safe then s
  else
    let mine := s.reads
    let s1 := mine.foldl (fun t r => t.failRead r .timeout false) (s.endReads (fun _ => true) false)
    let s2 : State := { s1 with
      flt := { s1.flt with safe := true, safeAt := s1.clk.fld, exiting := false },
      balls := { s1.balls with dperst := 0, idle := true } }
    s2.count1 .flt 7

/-- The exit from the safe state begins (R478): the host side is powered down, with the retired-page table kept, and start-up
runs on from step 4. -/
def State.exitStart (s : State) : State :=
  let s1 := s.hostDown
  { s1 with
    kvs := { s1.kvs with retired := s.kvs.retired, retiredGran := s.kvs.retiredGran },
    flt := { s1.flt with exiting := true },
    trs := { s1.trs with startup := min s1.trs.startup 3 } }

/-- RECOVERIES (R478). -/
def State.recoveries (s : State) : Nat := (s.reg fltPage 0x140).field 47 32

/-- The quiet period starts again: in the safe state, and for an exit in progress from its first step (R478). -/
def State.quietAgain (s : State) : State :=
  if s.flt.exiting then
    let s1 := s.exitStart
    { s1 with flt := { s1.flt with exiting := false, safeAt := s1.clk.fld } }
  else { s with flt := { s.flt with safeAt := s.clk.fld } }

/-- QUIET_PERIOD_END (R478): QUIET × 65,536 FLD cycles have passed and EXIT_MAX allows an automatic exit. -/
def execQuietPeriodEnd (s : State) : Host.Outcome State Fault Refusal :=
  let cfg := s.reg fltPage 0x100
  .next (if s.flt.safe && !s.flt.exiting && s.trs.weirRuns &&
      decide (s.flt.safeAt + cfg.field 63 32 * 65536 ≤ s.clk.fld) &&
      !(decide (cfg.field 31 16 ≠ 0) && decide (cfg.field 31 16 ≤ s.recoveries)) then s.exitStart
    else s)

/-! ## Severities (R470 to R473) -/

/-- The floor of a source (R471 rule 4). -/
def sevFloor (src : Nat) : Nat :=
  if src = srcOf Blk.trs.page 2 then 3
  else if src = srcOf Blk.trs.page 3 ∨ src = srcOf fltPage 0 ∨ src = srcOf fltPage 1 ∨ src = srcOf fltPage 2 then 4
  else 0

/-- The severity that the table holds for a source (R470). -/
def State.sevTable (s : State) (src : Nat) : Nat :=
  let j := 4 * (src % 16)
  (s.reg fltPage (0x1000 + 8 * (src / 16))).field (j + 2) j

/-- Whether a source's transients are handled as lasting: TRANS_MAX of them, this one among them, lie in the last TRANS_WIN
× 65,536 FLD cycles (R471 rule 1). -/
def State.transHeavy (s : State) (times : List Nat) : Bool :=
  let m := (s.reg fltPage 0x100).field 15 8
  decide (m ≠ 0) &&
  decide (m ≤ (times.filter (fun t => s.clk.fld ≤ t + (s.reg fltPage 0x108).field 31 0 * 65536)).length)

/-- Whether a raise's partition can be contained (R471 rule 3). -/
def State.containable (s : State) (p : Nat) : Bool :=
  decide ((s.part p).state = .active) || decide ((s.part p).state = .building)

/-- The severity with which a raise is handled (R471); eff says that it is lasting or handled as lasting. -/
def State.sevApplied (s : State) (src part : Nat) (eff : Bool) : Nat :=
  let t := if eff then s.sevTable src else 0
  let u := if t = 2 then
      (if part = 0x7F ∨ part = 0 then 3 else if s.containable part then 2 else 1)
    else t
  max u (sevFloor src)

/-- The plane of a source: 0 data, 1 control, 2 management (R473). -/
def planeOf (src : Nat) : Nat :=
  match Page.ofSrc (src / 64) with
  | some pg => if blkField pg.blk then 2 else if pg.blk = .pmu ∧ pg.num < 64 then 1 else 0
  | none => 0

/-! ## The log (R483) -/

/-- A fault of FLT itself that Weir latches without a raise of its own (R479). -/
def State.latchQuiet (s : State) (bit : Nat) : State :=
  let old := s.errStat fltPage
  let s1 : State := { s with flt := { s.flt with
    elws := Tab.set 0 s.flt.elws (elwKey fltPage 0) (s.elw fltPage 0 ||| Word.oneBit bit) } }
  if !old.bit bit && !(s.reg fltPage 0x48).bit bit then s1.setIntBit fltPage 3 else s1

/-- Write a log entry; overwriting an entry sets ERR_STAT bit 3 where it is not set (R483). -/
def State.logPut (s : State) (src sev part count unit : Nat) (lasting coll : Bool) (elw : Word) : State :=
  let w := s.reg fltPage 0x180
  let n := w.field 31 0
  let w1 := (((((((0 : Word).setField 44 32 src).setField 30 28 sev).setBit 27 lasting).setBit 26 coll).setField 22 16
    part).setField 15 0 (min count 0xFFFF))
  let w3 := ((0 : Word).setField 31 16 s.recoveries).setField 15 0 unit
  let s1 : State := { s with flt := { s.flt with log := Tab.insert s.flt.log (n % 1024) [Word.of s.clk.fld, w1, elw, w3] } }
  let s2 := s1.setReg fltPage 0x180 ((w.setField 31 0 (n + 1)).setField 41 32 (n + 1))
  if 1024 ≤ n ∧ (s2.errStat fltPage).bit 3 = false then s2.err .flt 3 else s2

/-! ## Taking a raise (R470 to R474) -/

/-- Remove the raise that a RAISE message carried from those held. -/
def dropHeld (q : List Held) (m : RaiseMsg) : List Held :=
  match q with
  | [] => []
  | h :: r => if h.msg.src = m.src ∧ h.msg.unit = m.unit then r else h :: dropHeld r m

/-- Count a raise of a source (SRC_READ). -/
def State.countRaise (s : State) (src : Nat) (lasting : Bool) : State :=
  let c := Tab.get (0, 0) s.flt.raises src
  let d := if lasting then (min (c.1 + 1) (2 ^ 32 - 1), c.2) else (c.1, min (c.2 + 1) (2 ^ 32 - 1))
  let s1 : State := { s with flt := { s.flt with raises := Tab.insert s.flt.raises src d } }
  let w := s1.reg fltPage 0x140
  ((s1.setReg fltPage 0x140 (w.setField 31 0 (w.field 31 0 + 1))).count1 .flt 1).count1 .flt (if lasting then 3 else 2)

/-- What severity S1 and above adds (R470, R484): FLT_FAULT to P0, the interrupt, and the wake event of R78. -/
def State.faultEvent (s : State) (m : RaiseMsg) (sev logIdx : Nat) : State :=
  let d := (((0 : Word).setField 34 32 sev).setBit 31 m.lasting).setField 6 0 m.part
  let s1 := s.setIntBit fltPage 8
  let s2 := if s1.trs.hostPower && !s1.flt.safe then
      s1.event 0 0x01B0 .ok m.src d (Word.of logIdx) (Word.of m.count)
    else s1
  s2.wake 2

/-- Send the reaction of a severity (R475 to R477); ALIVE stops with a reaction of S3 or S4 (R481). -/
def State.react (s : State) (m : RaiseMsg) (sev : Nat) : State :=
  match sev with
  | 2 => s.barrierSend .field .fault 0x02 [m.part, m.src]
  | 3 =>
    let s1 : State := { s with flt := { s.flt with aliveAt := s.clk.fld } }
    s1.barrierSend .field .fault 0x04 [planeOf m.src, m.src]
  | 4 =>
    let s1 : State := { s with flt := { s.flt with aliveAt := s.clk.fld } }
    s1.barrierSend .field .fault 0x06 [m.src]
  | _ => s

/-- The check of the collector's shadow set: QUIET is not 0. -/
def State.fltChecks (s : State) : List (Nat × Bool) := [(0x100, decide ((s.shade fltPage 0x100).field 63 32 = 0))]

/-- Weir takes a raise, after an armed set of the page has applied (R38): it counts it, finds its severity, writes the log entry and reacts (R470 to R474, R483). -/
def State.takeRaise (p : State) (m : RaiseMsg) : State :=
  let s := p.swapFirst fltPage p.fltChecks
  let times := if m.lasting then Tab.get [] s.flt.transAt m.src
    else (List.replicate (min (max m.count 1) 255) s.clk.fld ++ Tab.get [] s.flt.transAt m.src).take 255
  let eff := m.lasting || s.transHeavy times
  let sev := s.sevApplied m.src m.part eff
  let s1 : State := { s with flt := { s.flt with
    queue := dropHeld s.flt.queue m,
    transAt := if m.lasting then s.flt.transAt else Tab.insert s.flt.transAt m.src times } }
  let idx := (s1.reg fltPage 0x180).field 41 32
  let s2 := (s1.countRaise m.src m.lasting).logPut m.src sev m.part m.count m.unit m.lasting false m.elw
  let s3 := if 1 ≤ sev then s2.faultEvent m sev idx else s2
  let s4 := s3.react m sev
  if s4.flt.exiting || (s4.flt.safe && m.lasting && decide (3 ≤ sev)) then s4.quietAgain else s4

/-- RAISE (R470): a raise of a host-side page crosses the barrier; one of a field page does not. A source above 8,127 is none. -/
def execRaise (msg : RaiseMsg) (s : State) : Host.Outcome State Fault Refusal :=
  .next (if 8127 < msg.src then s
    else if planeOf msg.src = 2 then s.takeRaise msg
    else (s.barrierAccept .field .fault).takeRaise msg)

/-- CLEAR (R482): the field side takes the message of a W1C write. -/
def execClear (_src _unit : Nat) (_elw : BitVec 64) (s : State) : Host.Outcome State Fault Refusal :=
  .next (s.barrierAccept .field .fault)

/-! ## Containment (R475, R476) -/

/-- Work in progress in the given blocks of the given partitions ends with a status: reduction groups, checkpoint steps,
attention requests, storage commands, descriptors, and reads outstanding on the links. -/
def State.blockFail (s : State) (inBlk : Blk → Bool) (mine : Nat → Bool) (st : Status) : State :=
  let s1 := if inBlk .xrd then
      (s.xrd.groups.filter (fun e => mine e.2.part && decide (e.2.state ≠ .failed))).foldl (fun t e => t.failGroup e.1 st) s
    else s
  let s2 := if inBlk .ckp then
      (s1.ckp.steps.filter (fun x => mine x.part)).foldl (fun t x => t.stepAbandon x.sid st false) s1
    else s1
  let s3 := if inBlk .att then (s2.att.reqs.filter (fun r => mine r.part)).foldl (fun t r => t.reqFail r st 0) s2 else s2
  let s4 : State := if inBlk .sto then
      { s3 with sto := { s3.sto with cmds := s3.sto.cmds.map (fun c =>
          if mine c.part && c.started && c.failed.isNone then { c with failed := some st } else c) } }
    else s3
  let s5 := (s4.work.filter (fun w => mine w.part && inBlk (enginePage (dEngine w.words)).blk && decide (w.phase ≠ .done) &&
      !(s4.sto.cmds.any (fun c => c.started && decide (c.desc = some (w.ring, w.idx)))))).foldl
    (fun t w => t.workFail w.ring w.idx st) s4
  let hit := s5.reads.filter (fun r => mine r.part && inBlk (linkPage r.port).blk)
  hit.foldl (fun t r => t.failRead r st false) (s5.endReads (fun r => mine r.part && inBlk (linkPage r.port).blk) false)

/-- Whether a fault source is a parity fault that ends the work it meets with INTEGRITY: of Cellar's allocator and table areas, the
conversion datapath, slot scratch, a step's context, key contexts and cipher lanes (11_number_formats.md, R246, R270, R301,
17_cipher_engine.md). -/
def parityEnds (b : Blk) (bit : Nat) : Bool :=
  match b with
  | .kvs => decide (bit = 0) || decide (bit = 3)
  | .num => decide (bit = 0) || decide (bit = 2)
  | .xrd | .ckp => decide (bit = 0)
  | .cph => decide (bit ≤ 1)
  | .att | .dev | .prt | .vif | .hlk | .dlk | .rng | .syn | .mlr | .rma | .ept | .pkt | .pmu | .fwi | .sch | .sto | .trs | .clk | .pwr
  | .flt => false

/-- What a fault does to the unit that meets it, beyond its latch: parity ends the work it was serving, that of the partition it
names or, where it names none, all of its block's (DESIGN CHOICE, assumption 136); an attention unit's ends the requests that have a
chunk on it (R276); a decode table's marks every slot not VALID and a TLB's discards the translations (R422). -/
def State.pinActs (s : State) (pg : Page) (unit bit part : Nat) : State :=
  if parityEnds pg.blk bit then s.blockFail (fun b => decide (b = pg.blk)) (fun q => decide (part = 0x7F) || decide (q = part)) .integrity
  else if pg.blk = .att ∧ bit = 0 then
    (s.att.reqs.filter (fun r => r.chunks.contains (.running (16 * pg.num + unit)))).foldl (fun t r => t.reqFail r .integrity 0) s
  else if pg.blk = .pmu then
    { s with cores := Tab.upd s.cores pg.num (fun c =>
        if bit = 1 then { c with tlb := [] } else if bit = 2 then { c with slots := [] } else c) }
  else s

/-- An error pin of a unit fires. -/
def State.errorPin (s : State) (pg : Page) (unit bit part : Nat) (lasting : Bool) : State :=
  (s.latch pg unit bit part lasting).pinActs pg unit bit part

/-- ERROR_LATCH (R466): an error pin of a unit fires. -/
def execErrorLatch (pg : Page) (unit bit : Nat) (part : Option Nat) (lasting : Bool) (s : State) :
    Host.Outcome State Fault Refusal :=
  .next (if pg.exist && !pg.emulated && decide (bit < 64) then s.errorPin pg unit bit (part.getD 0x7F) lasting else s)

/-- Whether a fault source is of data that could not be read, so that work it meets ends with POISONED (R475). -/
def dataFault (pg : Page) (bit : Nat) : Bool :=
  match pg.blk, bit with
  | .hlk, 3 | .mlr, 2 | .pkt, 2 | .sch, 2 | .num, 1 | .kvs, 1 | .att, 3 | .ckp, 1 | .sto, 2 => true
  | _, _ => false

/-- The status with which work ends that a fault source contains (R475). -/
def faultStatus (src : Nat) : Status :=
  match Page.ofSrc (src / 64) with
  | some pg => if dataFault pg (src % 64) then .poisoned else .integrity
  | none => .integrity

/-- The host side reports that it has applied a reaction (R482). -/
def State.reactDone (s : State) (typ seq : Nat) : State := s.barrierSend .host .fault 0x09 [typ, seq]

/-- Containment of a partition takes effect (R475). -/
def State.containPart (s : State) (p src : Nat) : State :=
  let st := faultStatus src
  let k := src / 64
  let s1 : State := { s with flt := { s.flt with
    parts := if s.flt.parts.contains p then s.flt.parts else s.flt.parts ++ [p],
    blocks := Tab.insert s.flt.blocks k (p :: (Tab.get [] s.flt.blocks k).filter (fun q => q ≠ p)) } }
  let s2 := match Page.ofSrc k with
    | some pg => s1.blockFail (fun b => decide (b = pg.blk)) (fun q => decide (q = p)) st
    | none => s1
  ((s2.setIntBit fltPage 9).count1 .flt 5).event p 0x01B1 .ok p (Word.of st.code) 0 0

/-- CONTAIN_PART (R475): a partition that is neither ACTIVE nor BUILDING is contained no more. -/
def execContainPart (part src : Nat) (s : State) : Host.Outcome State Fault Refusal :=
  let seq := (s.chan .field .fault).expect
  let s1 := s.barrierAccept .host .fault
  .next ((if s1.containable part && decide (part < 128) then s1.containPart part src else s1).reactDone 0x02 seq)

/-- A partition's containment ends; its held work runs (R475). -/
def State.partFree (s : State) (p : Nat) : State :=
  { s with flt := { s.flt with
    parts := s.flt.parts.filter (fun q => q ≠ p),
    blocks := (s.flt.blocks.map (fun e => (e.1, e.2.filter (fun q => q ≠ p)))).filter (fun e => !e.2.isEmpty) } }

/-- UNCONTAIN_PART (R475). -/
def execUncontainPart (part : Nat) (s : State) : Host.Outcome State Fault Refusal :=
  .next ((s.barrierAccept .host .fault).partFree part)

/-- Containment of a plane takes effect (R476): in the data plane, work in progress ends with INTEGRITY. -/
def State.containPlane (s : State) (plane : Nat) : State :=
  let s1 := if plane = 0 then s.blockFail (fun _ => true) (fun _ => true) .integrity else s
  let s2 : State := { s1 with flt := { s1.flt with
    planes := if s1.flt.planes.contains plane then s1.flt.planes else s1.flt.planes ++ [plane], aliveAt := s1.clk.fld } }
  (s2.setIntBit fltPage 10).count1 .flt 6

/-- CONTAIN_PLANE (R476). -/
def execContainPlane (plane _src : Nat) (s : State) : Host.Outcome State Fault Refusal :=
  let seq := (s.chan .field .fault).expect
  let s1 := s.barrierAccept .host .fault
  .next ((if plane ≤ 2 then s1.containPlane plane else s1).reactDone 0x04 seq)

/-- SAFE_ENTER (R477). -/
def execSafeEnter (_src : Nat) (s : State) : Host.Outcome State Fault Refusal :=
  let seq := (s.chan .field .fault).expect
  .next ((s.barrierAccept .host .fault).safeEnter.reactDone 0x06 seq)

/-- SAFE_EXIT (R482): the host side takes the message that ends an exit. -/
def execSafeExit (_recoveries : Nat) (s : State) : Host.Outcome State Fault Refusal :=
  .next (s.barrierAccept .host .fault)

/-- REACT_DONE (R482). -/
def execReactDone (_typ _seq : Nat) (s : State) : Host.Outcome State Fault Refusal :=
  .next (s.barrierAccept .field .fault)

/-! ## Faults in the collector (R479, R480) -/

/-- A fault of the collector: FLT ERR_STAT, a log entry of severity S4 with COLLECTOR = 1, and a new quiet period. -/
def State.collector (s : State) (bit unit : Nat) (elw : Word) : State :=
  let s1 := (s.latchQuiet bit).logPut (srcOf fltPage bit) 4 0x7F 1 unit true true elw
  let s2 : State := { s1 with flt := { s1.flt with reload := true } }
  if s2.flt.safe then s2.quietAgain else s2

/-- COLLECTOR_FAULT (R479): a unit's ELW fails its parity, and the host side enters the safe state at once. -/
def execCollectorFault (_pg : Page) (unit : Nat) (elw : BitVec 64) (s : State) : Host.Outcome State Fault Refusal :=
  .next (((s.barrierAccept .field .fault).collector 1 unit elw).safeEnter)

/-- TABLE_SWEEP (R479): a parity error of the severity table makes Weir send SAFE_ENTER. -/
def execTableSweep (parityBad : Bool) (s : State) : Host.Outcome State Fault Refusal :=
  .next (if parityBad then (s.collector 0 0 (s.elw fltPage 0)).barrierSend .field .fault 0x06 [srcOf fltPage 0] else s)

/-- HEARTBEAT_SEND (R480): every 65,536 FLD cycles Weir sends HEARTBEAT, and refreshes the field watchdog. -/
def execHeartbeatSend (s : State) : Host.Outcome State Fault Refusal :=
  .next (if s.trs.weirRuns && decide (s.flt.heartbeatSent + 65536 ≤ s.clk.fld) then
      let s1 : State := { s with flt := { s.flt with heartbeatSent := s.clk.fld, watchdogAt := s.clk.fld } }
      s1.barrierSend .field .mgmt 0x2A []
    else s)

/-- HEARTBEAT (R480): the host side's timer restarts. -/
def execHeartbeat (s : State) : Host.Outcome State Fault Refusal :=
  let s1 := s.barrierAccept .host .mgmt
  .next { s1 with flt := { s1.flt with heartbeatAt := s1.clk.noc } }

/-- HEARTBEAT_TIMEOUT (R480): none for 2,621,440 NOC cycles. -/
def execHeartbeatTimeout (s : State) : Host.Outcome State Fault Refusal :=
  .next (if s.trs.hostPower && !s.trs.dieReset && decide (s.flt.heartbeatAt + 2621440 ≤ s.clk.noc) then s.safeEnter else s)

/-- FIELD_WATCHDOG_EXPIRE (R480): Weir has not refreshed the watchdog for 2,000,000 FLD cycles. It sends SAFE_ENTER and restarts
Weir from the boot ROM step. -/
def execFieldWatchdogExpire (s : State) : Host.Outcome State Fault Refusal :=
  .next (if s.trs.weirRuns && decide (s.flt.watchdogAt + 2000000 ≤ s.clk.fld) then
      let s1 : State := { s with trs := { s.trs with weirRuns := false, startup := 2 } }
      (s1.err .flt 2).barrierSend .field .fault 0x06 [0x1FFF]
    else s)

/-- Whether ALIVE toggles (R481). -/
def State.aliveRuns (s : State) : Bool :=
  decide (s.trs.startup = 8) && s.trs.weirRuns && decide (s.clk.fld < s.flt.watchdogAt + 2000000) &&
  s.flt.planes.isEmpty && !s.flt.safe && s.cg.refinField

/-- ALIVE_TOGGLE (R481): every 100,000 FLD cycles. -/
def execAliveToggle (s : State) : Host.Outcome State Fault Refusal :=
  .next (if s.aliveRuns && decide (s.flt.aliveAt + 100000 ≤ s.clk.fld) then
      { s with flt := { s.flt with alive := !s.flt.alive, aliveAt := s.clk.fld } }
    else s)

/-! ## The FLT page (R470 to R472, R485) -/

/-- A word of the severity table as it is stored: reserved bits 0, and no entry below its floor (R471). -/
def sevStored (k : Nat) (w : Word) : Word :=
  (List.range 16).foldl (fun a j => a.setField (4 * j + 3) (4 * j) (max (w.field (4 * j + 2) (4 * j)) (sevFloor (16 * k + j)))) 0

/-- Whether a table word holds one of the codes 5 to 7 (R470). -/
def sevBad (w : Word) : Bool := (List.range 16).any (fun j => decide (5 ≤ w.field (4 * j + 2) (4 * j)))

/-- A write of a severity table word (R470). -/
def State.sevWrite (s : State) (k off : Nat) (w : Word) : State :=
  if sevBad w then s.refuse fltPage off else s.setReg fltPage (0x1000 + 8 * k) (sevStored k w)

/-- A word after a write of width bytes at half h of it (R27). -/
def mergeHalf (old : Word) (width half : Nat) (val : Word) : Word :=
  if width = 8 then val
  else if half = 0 then old.setField 31 0 val.toNat else old.setField 63 32 val.toNat

/-- SEV_WRITE (R470, R472). -/
def execSevWrite (k width half : Nat) (val : BitVec 64) (s : State) : Host.Outcome State Fault Refusal :=
  .next (if k < 512 then s.sevWrite k (0x1000 + 8 * k + if width = 8 ∨ half = 0 then 0 else 4) (mergeHalf (s.reg fltPage (0x1000 + 8 * k)) width half val) else s)

/-- Run a word written to FLT.CMD (R485). -/
def fltRun (val : Word) (s : State) : State :=
  let op := val.field 31 24
  let p := val.field 6 0
  let arg := s.reg fltPage 0x188
  match op with
  | 1 =>
    if s.flt.parts.contains p then (s.barrierSend .field .fault 0x03 [p]).cmdEnd .flt op 0 .ok else s.cmdEnd .flt op 0 .state
  | 2 =>
    let pl := arg.field 1 0
    if pl = 3 then s.cmdEnd .flt op 0 .format
    else if s.flt.planes.contains pl then (s.barrierSend .field .fault 0x05 [pl]).cmdEnd .flt op 0 .ok
    else s.cmdEnd .flt op 0 .state
  | 3 => if s.flt.safe then ((if s.flt.exiting then s else s.exitStart)).cmdEnd .flt op 0 .ok else s.cmdEnd .flt op 0 .state
  | 4 =>
    let src := arg.field 12 0
    if 8127 < src then s.cmdEnd .flt op 0 .format
    else
      let c := Tab.get (0, 0) s.flt.raises src
      (s.setReg fltPage 0x1A0 (((0 : Word).setField 63 32 c.1).setField 31 0 c.2)).cmdEnd .flt op 0 .ok
  | _ => s.cmdEnd .flt op 0 .format

/-- The word of an FLT command. -/
def fltWord (op p : Nat) : Word := ((0 : Word).setField 31 24 op).setField 6 0 p

/-- FLT_UNCONTAIN_PART (R485). -/
def execFltUncontainPart (part : Nat) (s : State) : Host.Outcome State Fault Refusal :=
  .next (s.takeCmd .flt (fltWord 1 part) fltRun)

/-- FLT_UNCONTAIN_PLANE (R485). -/
def execFltUncontainPlane (s : State) : Host.Outcome State Fault Refusal := .next (s.takeCmd .flt (fltWord 2 0) fltRun)

/-- EXIT (R485). -/
def execExit (s : State) : Host.Outcome State Fault Refusal := .next (s.takeCmd .flt (fltWord 3 0) fltRun)

/-- SRC_READ (R485). -/
def execSrcRead (s : State) : Host.Outcome State Fault Refusal := .next (s.takeCmd .flt (fltWord 4 0) fltRun)

end Sys2Proof.Machine
end

