-- ==== Sys2Proof/Machine/Partitions.lean ====
section
/-! DEFINITION. Partitions, ownership, scrubbing and virtual interfaces (03_partitions.md). -/

namespace Sys2Proof.Machine

/-- The PRT page. -/
abbrev prtPage : Page := Blk.prt.page

/-- The VIF page. -/
abbrev vifPage : Page := Blk.vif.page

/-! ## Scrubbing (R48, R51) -/

/-- Whether a granule of a stack is being scrubbed. -/
def State.stackBusy (s : State) (k : Nat) : Bool :=
  s.scrubs.any (fun x => decide (x.ty = 1) && x.started && decide (stack x.id = k))

/-- The lowest granule of a stack that awaits its first scrub (R48). -/
def State.nextAwaiting (s : State) (k : Nat) : Option Nat :=
  ((List.range 192).map (fun i => 192 * k + i)).find? (fun g => decide (s.own 1 g = .awaiting))

/-- Whether an operation taken under an old owner is still in progress (R46). -/
def State.opLives (s : State) (o : OldOp) : Bool :=
  match o with
  | .desc ring idx => s.work.any (fun w => decide (w.ring = ring) && decide (w.idx = idx))
  | .packet c psn => (s.conn c).rxPkts.any (fun r => decide (r.psn = psn)) || (s.conn c).serves.any (fun v => decide (v.psn = psn))
  | .request id => s.att.reqs.any (fun r => decide (r.id = id))
  | .step sid => s.ckp.steps.any (fun x => decide (x.sid = sid))
  | .cmd n => s.sto.cmds.any (fun c => decide (c.order = n))

/-- The operations of a partition in progress: those that a scrub of what it gives up now waits for (R46). -/
def State.opsOf (s : State) (p : Nat) : List OldOp :=
  (s.work.filter (fun w => decide (w.part = p))).map (fun w => .desc w.ring w.idx) ++
  (s.mlr.conns.filter (fun e => decide (e.2.part = p))).flatMap (fun e =>
    e.2.rxPkts.map (fun r => .packet e.1 r.psn) ++ e.2.serves.map (fun v => .packet e.1 v.psn)) ++
  (s.att.reqs.filter (fun r => decide (r.part = p))).map (fun r => .request r.id) ++
  (s.ckp.steps.filter (fun x => decide (x.part = p))).map (fun x => .step x.sid) ++
  (s.sto.cmds.filter (fun c => decide (c.part = p))).map (fun c => .cmd c.order)

/-- Whether a scrub may begin: every operation taken under the old owner has completed (R46), and the DOWN sequence of a port has
ended (R96). -/
def State.scrubFree (s : State) (x : Scrub) : Bool :=
  !(x.after.any (fun o => s.opLives o)) && (decide (x.ty ≠ 13) || s.portScrubDone x.id)

/-- Start the first granule scrub that waits and may begin in a list, on a stack, reading back as PRT.CFG.SCRUB_VERIFY says now. -/
def State.startScrub (s : State) (k : Nat) (v : Bool) (l : List Scrub) : List Scrub :=
  match l with
  | [] => []
  | x :: r => if x.ty = 1 ∧ stack x.id = k ∧ s.scrubFree x = true then { x with started := true, verify := v } :: r
    else x :: s.startScrub k v r

/-- A stack whose scrubber is idle takes its next granule: one that was given up, or, once start-up has ended, one that
awaits its first scrub (R48, R51). -/
def State.scrubStack (s : State) (k : Nat) : State :=
  let v := (s.reg prtPage 0x100).bit 0
  if s.stackBusy k then s
  else if s.scrubs.any (fun x => decide (x.ty = 1) && decide (stack x.id = k) && s.scrubFree x) then
    { s with scrubs := s.startScrub k v s.scrubs }
  else if s.trs.startup = 8 then
    match s.nextAwaiting k with
    | some g => { s with scrubs := s.scrubs ++ [{ ty := 1, id := g, giver := none, started := true, verify := v, after := [] }] }
    | none => s
  else s

/-- Every stack takes its next granule. -/
def State.scrubNext (s : State) : State := (List.range 8).foldl (fun t k => t.scrubStack k) s

/-- A resource is given up: its scrub is due once what was taken under its owner has completed (R46, R50, R51); a port's DOWN
sequence starts (R96). -/
def State.giveUp (s : State) (p ty id : Nat) : State :=
  let s0 := if ty = 13 then s.portScrub id else s
  let s1 := s0.setOwn ty id (.scrubbing p)
  { s1 with scrubs := s1.scrubs ++ [{ ty := ty, id := id, giver := some p, started := decide (ty ≠ 1), verify := false,
                                      after := s.opsOf p }] }

/-- A key context as R42 leaves it: key, salt and counter 0, unusable. -/
def State.keyScrubbed (s : State) (k : Nat) : State :=
  { s with cph := { s.cph with keys := Tab.erase s.cph.keys k, resident := s.cph.resident.filter (fun c => c ≠ k),
                               fetching := s.cph.fetching.filter (fun c => c ≠ k),
                               poisoned := s.cph.poisoned.filter (fun c => c ≠ k) } }

/-- The state to which a resource is scrubbed (R42); a ring's held entries are counted (R110), and it is nobody's event ring any
more (R112). -/
def State.scrubbed (s : State) (ty id : Nat) : State :=
  match ty with
  | 1 => s.zero (id * 0x10000000) 0x10000000
  | 3 =>
    let s1 := (s.discardHeld id).setRing id .reset
    { s1 with parts := s1.parts.map (fun e => (e.1, if e.2.pevt = some id then { e.2 with pevt := none } else e.2)) }
  | 4 => s.setSync id 0
  | 5 => { s with mlr := { s.mlr with conns := Tab.erase s.mlr.conns id, resident := s.mlr.resident.filter (fun c => c ≠ id),
                                      fetching := s.mlr.fetching.filter (fun c => c ≠ id),
                                      writingBack := s.mlr.writingBack.filter (fun c => c ≠ id) } }
  | 6 => s.keyScrubbed id
  | 7 => { s with sch := { s.sch with meters := Tab.erase s.sch.meters id } }
  | 8 => { s with sch := { s.sch with leaves := Tab.erase s.sch.leaves id } }
  | 9 =>
    let s1 := s.setVi id .unbound
    { s1 with regs := s1.regs.filter (fun e => e.1 / 65536 ≠ Blk.fwi.code * 65536 + 0x1000 + id),
              fwi := { s1.fwi with groups := Tab.erase s1.fwi.groups id } }
  | 10 => { s with xrd := { s.xrd with slots := Tab.erase s.xrd.slots id } }
  | 11 => { s with sto := { s.sto with queues := s.sto.queues.filter (fun e => e.2.qp ≠ some id) } }
  | 12 =>
    let x := s.ns id
    let s1 := s.nsDropCache id
    let s2 : State := { s1 with sto := { s1.sto with nss := Tab.erase s1.sto.nss id } }
    if x.state = .empty then s2 else s2.keyScrubbed x.key
  | 13 => s.portScrubbed id
  | _ => s

/-- When the last resource of a SCRUBBING partition has returned, it becomes FREE, every setting of it is forgotten (R50), and its
partition nodes go (R211). -/
def State.maybeFree (s : State) (p : Nat) : State :=
  if (s.part p).state = .scrubbing ∧ (s.scrubs.any (fun x => decide (x.giver = some p))) = false then
    let s1 := s.setPart p .free
    let s2 : State := { s1 with
      kvs := { s1.kvs with seqs := s1.kvs.seqs.filter (fun e => seqPart e.1 ≠ p),
                           pools := s1.kvs.pools.filter (fun e => e.1 / 4 ≠ p),
                           extents := s1.kvs.extents.filter (fun e => seqPart e.1 ≠ p) },
      sch := { s1.sch with pnodes := s1.sch.pnodes.filter (fun e => decide (e.1 % 128 ≠ p)) },
      mlr := { s1.mlr with regionCache := s1.mlr.regionCache.filter (fun k => k / 2 ^ 25 ≠ p) } }
    ((List.range 16).foldl (fun t n => t.refreshPort n) s2).setIntBit prtPage 9
  else s

/-- Verification finds a byte that is not 0x00 (R51): its page is retired, PRT ERR_STAT bit 0 and INT_STAT.SCRUB_FAIL are set. -/
def State.scrubFound (s : State) (a : Nat) : State := ((s.retirePage (a / 65536 * 65536)).err .prt 0).setIntBit prtPage 11

/-- The scrub of a resource ends (R51). A granule in which bytes were found that are not 0x00, or that is marked retired, goes to P0;
anything else is free. Pages that the retired-page table holds are not verified. -/
def State.scrubDone (s : State) (x : Scrub) (bad : List Nat) : State :=
  let s1 : State := { s with scrubs := s.scrubs.filter (fun y => !(decide (y.ty = x.ty) && decide (y.id = x.id))) }
  let s2 := s1.scrubbed x.ty x.id
  let hits := if x.verify ∧ x.ty = 1 then
      bad.filter (fun a => decide (granule a = x.id) && !s.kvs.retired.contains (a / 65536 * 65536)) else []
  let s3 := hits.foldl (fun t a => t.scrubFound a) s2
  let keep := decide (x.ty = 1) && (decide (hits ≠ []) || s3.kvs.retiredGran.contains x.id)
  let s4 := s3.setOwn x.ty x.id (if keep then .owned 0 else .free)
  (match x.giver with
    | some p => s4.maybeFree p
    | none => s4).scrubNext

/-- SCRUB_DONE (R46, R51). -/
def execScrubDone (ty id : Nat) (bad : List Nat) (s : State) : Host.Outcome State Fault Refusal :=
  let t := s.scrubNext
  .next (match t.scrubs.find? (fun x => decide (x.ty = ty) && decide (x.id = id) && x.started) with
    | some x => if t.scrubFree x then t.scrubDone x bad else t
    | none => t)

/-! ## Quiescence (R495) -/

/-- Whether a region that is not CLOSED names a sync object. -/
def State.regionSync (s : State) (p o : Nat) : Bool :=
  match (s.part p).rmaTable with
  | some t => s.hbm.any (fun e => decide (t.1 ≤ e.1) && decide (e.1 < t.1 + 64 * t.2) && decide ((e.1 - t.1) % 64 = 7) &&
      decide (64 ≤ e.2.toNat) &&
      (let g := s.words (e.1 - 7) 4; wb g 0 53 && decide (gSync g = o)))
  | none => false

/-- Whether a resource is quiescent for UNASSIGN from its partition (R495). -/
def State.quiescent (s : State) (p ty id : Nat) : Bool :=
  match ty with
  | 1 => !s.granInUse p id
  | 3 =>
    decide ((s.ring id).state = .disabled) && (s.ring id).held.isEmpty &&
    !(s.rings.any (fun e => e.2.held.any (fun c => decide (c.ring = id))))
  | 4 =>
    !(s.rings.any (fun e => match e.2.fetched with
      | d :: _ => dWaitEn d.words && !d.released && decide (dWaitSync d.words = id)
      | [] => false)) &&
    !(s.mlr.spates.any (fun e => e.2.isOpen && decide (e.2.sync = id))) && !s.regionSync p id &&
    !(s.att.inboxes.any (fun e => decide (e.2.prodSync = id))) &&
    !(s.ckp.steps.any (fun x => x.abandoned.isNone && x.regions.any (fun r => decide (rgFence r.entry = id))))
  | 5 => decide ((s.conn id).state = .closed)
  | 6 =>
    !(s.mlr.conns.any (fun e => decide (e.2.state ≠ .closed) && (decide (e.2.txKey = id) || decide (e.2.rxKey = id)))) &&
    !(s.mlr.spates.any (fun e => e.2.isOpen && decide (e.2.rxKey = id))) &&
    !(s.sto.nss.any (fun e => decide (e.2.state ≠ .empty) && decide (e.2.key = id))) &&
    (Tab.get Key.empty s.cph.keys id).msg.isNone &&
    !(s.work.any (fun w => decide (dEngine w.words = 8) && decide (w.phase ≠ .done) && decide (w.ctx ≠ .none) &&
      decide (wf w.words 6 63 44 = id)))
  | 8 =>
    (s.leaf id).q.isEmpty &&
    !(s.mlr.conns.any (fun e => decide (e.2.state ≠ .closed) && decide (e.2.leaf = id))) &&
    !(s.parts.any (fun e => match e.2.listener with
      | some l => decide (l.leaf = id)
      | none => false))
  | 9 => decide ((s.vi id).state = .unbound)
  | 10 => !(s.xrd.groups.any (fun e => decide (e.1 % 2 ^ 20 ≤ id) && decide (id < e.1 % 2 ^ 20 + e.2.slots)))
  | 11 => !(s.sto.queues.any (fun e => decide (e.2.qp = some id)))
  | 12 => decide ((s.ns id).state = .empty)
  | 13 => decide (s.outstanding (id + 1) = 0) && (s.dport id).inq.isEmpty
  | _ => true

/-! ## Partition commands (R49) -/

/-- The identifiers of a command's range. -/
def rangeIds (first n : Nat) : List Nat := (List.range n).map (fun i => first + i)

/-- Whether a partition owns an identifier; cache ways are kept with the partition (R47). -/
def State.holds (s : State) (p ty id : Nat) : Bool :=
  if ty = 2 then (s.part p).ways.toNat.testBit id else s.owns p ty id

/-- Set or clear the bits of ways in a partition's assignment. -/
def State.setWays (s : State) (p first n : Nat) (x : Bool) : State :=
  let m := BitVec.ofNat 32 ((2 ^ n - 1) * 2 ^ first)
  s.setPart p { s.part p with ways := if x then (s.part p).ways ||| m else (s.part p).ways &&& ~~~m }

/-- Whether PRT.CMD_ARG0 names a range that FORMAT refuses (R42, R44, R49). -/
def rangeBad (a0 : Word) : Bool :=
  let ty := a0.field 63 60
  let n := a0.field 59 32
  let first := a0.field 31 0
  decide (tyCount ty = 0) || decide (n = 0) || decide (tyCount ty < first + n) ||
  (decide (ty = 1) && reservedGranules.any (fun g => decide (first ≤ g) && decide (g < first + n)))

/-- ASSIGN. -/
def State.prtAssign (s : State) (p : Nat) (a0 : Word) : State :=
  let ty := a0.field 63 60
  if ty = 2 then s.setWays p (a0.field 31 0) (a0.field 59 32) true
  else (rangeIds (a0.field 31 0) (a0.field 59 32)).foldl (fun t id => t.setOwn ty id (.owned p)) s

/-- UNASSIGN: cache ways are written back and invalidated at once; everything else is scrubbed. -/
def State.prtUnassign (s : State) (p : Nat) (a0 : Word) : State :=
  let ty := a0.field 63 60
  if ty = 2 then s.setWays p (a0.field 31 0) (a0.field 59 32) false
  else ((rangeIds (a0.field 31 0) (a0.field 59 32)).foldl (fun t id => t.giveUp p ty id) s).scrubNext

/-- The checks of a PRT command in the order of R39. -/
def State.prtCheck (s : State) (op p : Nat) (a0 a1 : Word) : Status :=
  let ty := a0.field 63 60
  let ids := rangeIds (a0.field 31 0) (a0.field 59 32)
  let st := (s.part p).state
  let live := decide (st = .building) || decide (st = .active)
  firstFail [
    (decide (op = 0) || decide (5 < op) || ((decide (op = 2) || decide (op = 3)) && rangeBad a0), .format),
    (a1.bit 63 && !s.owns 0 tySync (a1.field 13 0), .accessViolation),
    ((match op with
      | 1 => decide (p = 0) || decide (st ≠ .free)
      | 2 => !live || (decide (ty ≠ 2) && ids.any (fun id => decide (s.own ty id ≠ .free)))
      | 3 => !live || ids.any (fun id => !s.holds p ty id || !s.quiescent p ty id)
      | 4 => decide (p = 0) || decide (st ≠ .building)
      | _ => decide (p = 0) || !live), .state)]

/-- A PRT command ends, with the addition of CMD_ARG1 (R49). -/
def State.prtEnd (s : State) (op p : Nat) (st : Status) (sync : Option Nat) : State :=
  let s1 := s.cmdEnd .prt op p st
  match sync with
  | some o => s1.syncAdd o 1
  | none => s1

/-- The sync object of an argument register, where SYNC_EN is set and P0 owns it. -/
def State.argSync (s : State) (a : Word) : Option Nat :=
  if a.bit 63 && s.owns 0 tySync (a.field 13 0) then some (a.field 13 0) else none

/-! ## RELEASE (R50) -/

/-- A VI becomes UNBOUND; a harvest of it ends. -/
def State.viUnbind (s : State) (v : Nat) : State :=
  let s1 := s.setVi v .unbound
  if s1.harvests.any (fun h => decide (h.vi = v)) then
    ({ s1 with harvests := s1.harvests.filter (fun h => h.vi ≠ v) }).cmdEnd .vif 5 v .abortedByReset
  else s1

/-- The region keys of a partition that are not CLOSED. -/
def State.openRegions (s : State) (p : Nat) : List Nat :=
  match (s.part p).rmaTable with
  | some t => (s.hbm.filter (fun e => decide (t.1 ≤ e.1) && decide (e.1 < t.1 + 64 * t.2) && decide ((e.1 - t.1) % 64 = 7) &&
      decide (64 ≤ e.2.toNat))).map (fun e => p * 2 ^ 25 + (e.1 - t.1) / 64)
  | none => []

/-- The identifiers of a type that a partition owns. -/
def State.owned (s : State) (p ty : Nat) : List Nat :=
  if ty = 1 then (s.gran.filter (fun e => e.2 = .owned p)).map Prod.fst
  else (s.owner.filter (fun e => decide (e.2 = .owned p) && decide (e.1 / 2 ^ 32 = ty))).map (fun e => e.1 % 2 ^ 32)

/-- Step 1 of R50: the rings of the partition fetch no more; what was fetched and not started ends with ABORTED_BY_RESET. -/
def State.releaseRings (s : State) (p : Nat) : State :=
  (s.owned p tyRing).foldl (fun t n =>
    let r := t.ring n
    let t1 := r.fetched.foldl (fun u d => u.abortDesc n d true) t
    t1.setRing n { t1.ring n with fetched := [] }) s

/-- Step 2 of R50: every VI is reset and unbound. -/
def State.releaseVis (s : State) (p : Nat) : State :=
  (s.owned p tyVi).foldl (fun t v =>
    let st := (t.vi v).state
    (if st = .unbound then t else t.viReset v).viUnbind v) s

/-- Step 3 of R50: every region becomes CLOSING. -/
def State.releaseRegions (s : State) (p : Nat) : State :=
  (s.openRegions p).foldl (fun t k => t.setRegionState k 2) s

/-- What waits for room at the leaves of a partition that drains is dropped: they admit no new frame (R211). SPATE_SEND descriptors
end (DEDUCED, assumption 137: step 5 of R50 waits for them, and their leaf takes no packet). -/
def State.releaseLeaves (s : State) (p : Nat) : State :=
  let s1 := (s.owned p tyLeaf).foldl (fun t l => t.setLeaf l { t.leaf l with waiting := [] }) s
  (s1.work.filter (fun w => decide (w.part = p) && decide (w.phase ≠ .done) && decide (dEngine w.words = 1) &&
      decide (dOpcode w.words = 1))).foldl (fun t w => t.workFail w.ring w.idx .abortedByReset) s1

/-- Step 4 of R50: reduction groups end and free their contexts (R246), connections and spate channels close, checkpoint steps are
abandoned, attention requests and the commands of queue pairs end. -/
def State.releaseWork (s : State) (p : Nat) : State :=
  let s1 := ((s.xrd.groups.filter (fun e => e.2.part = p)).map Prod.fst).foldl (fun t k => t.failGroup k .abortedByReset) s
  let s2 : State := { s1 with xrd := { s1.xrd with groups := s1.xrd.groups.filter (fun e => e.2.part ≠ p) } }
  let s3 := ((s2.mlr.conns.filter (fun e => decide (e.2.part = p) && decide (e.2.state ≠ .closed))).map Prod.fst).foldl
    (fun t c => t.connDrop c .closed .abortedByReset) s2
  let s4 := ((s3.mlr.spates.filter (fun e => e.2.part = p)).map Prod.fst).foldl (fun t n => t.spateShut n) s3
  let s5 := (s4.ckp.steps.filter (fun x => x.part = p)).foldl (fun t x => t.stepAbandon x.sid .abortedByReset false) s4
  ((s5.attDrain p).stoDrain p).releaseLeaves p

/-- The descriptors of a partition that its release ends make no addition (R102). -/
def State.quiet (s : State) (p : Nat) : State :=
  { s with work := s.work.map (fun w => if w.part = p ∧ w.phase ≠ .done then { w with noSignal := true } else w) }

/-- RELEASE: the partition drains (R50); its containment ends (R475). -/
def State.release (s : State) (p : Nat) (sync : Option Nat) : State :=
  let s1 := ((s.setPart p { s.part p with state := .draining, relSync := sync }).partFree p).quiet p
  (((s1.releaseRings p).releaseVis p).releaseRegions p).releaseWork p

/-- Whether every operation taken under a partition has completed (step 5 of R50), the transmission of its queued frames (R211) and
the writes of its namespaces to the drives among them. -/
def State.drained (s : State) (p : Nat) : Bool :=
  (s.opsOf p).isEmpty && !(s.reads.any (fun r => decide (r.part = p))) && (s.openRegions p).isEmpty &&
  (s.owned p tyLeaf).all (fun l => (s.leaf l).q.isEmpty) && !(s.sto.drives.any (fun d => decide ((s.ns d.ns).part = p)))

/-- The partition enters SCRUBBING: it owns nothing, and everything it held is scrubbed (R48, R50). -/
def State.enterScrub (s : State) (p : Nat) : State :=
  let s1 := s.setPart p { s.part p with state := .scrubbing, ways := 0, relSync := none }
  ((List.range 14).foldl (fun t ty => (s.owned p ty).foldl (fun u id => u.giveUp p ty id) t) s1).scrubNext

/-- PART_DRAIN_DONE (R50): RELEASE completes as the partition enters SCRUBBING. -/
def execPartDrainDone (part : Nat) (s : State) : Host.Outcome State Fault Refusal :=
  .next (if (s.part part).state = .draining ∧ s.drained part = true then
      ((s.enterScrub part).prtEnd 5 part .ok (s.part part).relSync).maybeFree part
    else s)

/-- Run a word written to PRT.CMD (R49). -/
def prtRun (val : Word) (s : State) : State :=
  let op := val.field 15 8
  let p := val.field 6 0
  let a0 := s.reg prtPage 0x108
  let a1 := s.reg prtPage 0x110
  let sync := s.argSync a1
  match s.prtCheck op p a0 a1 with
  | .ok =>
    match op with
    | 1 => (s.setPart p { Part.free with state := .building }).prtEnd op p .ok sync
    | 2 => (s.prtAssign p a0).prtEnd op p .ok sync
    | 3 => (s.prtUnassign p a0).prtEnd op p .ok sync
    | 4 => (s.setPart p { s.part p with state := .active }).prtEnd op p .ok sync
    | _ => (s.setBusy .prt true).release p sync
  | st => s.prtEnd op p st sync

/-- The word of a PRT command. -/
def prtWord (op p : Nat) : Word := ((0 : Word).setField 15 8 op).setField 6 0 p

/-- CREATE (R49). -/
def execCreate (part : Nat) (s : State) : Host.Outcome State Fault Refusal := .next (s.takeCmd .prt (prtWord 1 part) prtRun)

/-- ASSIGN (R49). -/
def execAssign (part : Nat) (s : State) : Host.Outcome State Fault Refusal := .next (s.takeCmd .prt (prtWord 2 part) prtRun)

/-- UNASSIGN (R49). -/
def execUnassign (part : Nat) (s : State) : Host.Outcome State Fault Refusal := .next (s.takeCmd .prt (prtWord 3 part) prtRun)

/-- ACTIVATE (R49). -/
def execActivate (part : Nat) (s : State) : Host.Outcome State Fault Refusal := .next (s.takeCmd .prt (prtWord 4 part) prtRun)

/-- RELEASE (R50). -/
def execRelease (part : Nat) (s : State) : Host.Outcome State Fault Refusal := .next (s.takeCmd .prt (prtWord 5 part) prtRun)

/-! ## Virtual interfaces (R52, R53, R55) -/

/-- Whether a LOG_SIZE is legal on BIND (R55). -/
def logLegal (n : Nat) : Bool := decide (n = 0) || (decide (12 ≤ n) && decide (n ≤ 32))

/-- The checks of a VIF command in the order of R39 (R53). -/
def State.vifCheck (s : State) (op v : Nat) (addr arg : Word) : Status :=
  let x := s.vi v
  let log := arg.field 61 56
  let st := x.state
  let p := s.ownerOf tyVi v
  firstFail [
    (decide (op = 0) || decide (5 < op) || ((decide (op = 1) || decide (op = 5)) && decide (addr.field 11 0 ≠ 0)) ||
      (decide (op = 1) && !logLegal log), .format),
    ((arg.bit 63 && !s.owns 0 tySync (arg.field 13 0)) ||
      (decide (op = 1) && decide (log ≠ 0) && !s.ownsHbm 0 addr.toNat (2 ^ (log - 3))), .accessViolation),
    ((match op with
      | 1 => decide (st ≠ .unbound) || p.isNone || s.vis.any (fun e => decide (e.1 ≠ v) && decide (e.2.state ≠ .unbound) &&
          decide (e.2.pasid = arg.field 51 32) && decide (s.ownerOf tyVi e.1 ≠ p))
      | 2 => !(decide (st = .bound) || decide (st = .quiesced)) ||
          (match p with
            | some q => decide ((s.part q).state ≠ .active)
            | none => true)
      | 3 => !(decide (st = .enabled) || decide (st = .orphaned))
      | 4 => !(decide (st = .bound) || decide (st = .quiesced))
      | _ => decide (st = .unbound) || decide (x.logSize = 0)), .state)]

/-- A VIF command ends. -/
def State.vifEnd (s : State) (op v : Nat) (st : Status) (sync : Option Nat) : State :=
  let s1 := s.cmdEnd .vif op v st
  match sync with
  | some o => s1.syncAdd o 1
  | none => s1

/-- Copy n words of a VI's bitmap to the host from word i on, and clear each as it is copied; the writes carry no PASID
(R55). -/
def State.harvestWords (s : State) (v host i n : Nat) : State :=
  match n with
  | 0 => s
  | n + 1 =>
    let a := (s.vi v).logBase + 8 * i
    let w := s.word a
    (((s.setWord a 0).hostWrite none (host + 8 * i) w.bytes).count1 .vif 4).harvestWords v host (i + 1) n

/-- Words of a VI's bitmap. -/
def Vi.logWords (x : Vi) : Nat := 2 ^ (x.logSize - 6)

/-- HARVEST is taken: LOG_OVF clears; without a limit the bitmap is copied at once where the host link issues (R76), and otherwise
it waits for HARVEST_DONE. -/
def State.harvestStart (p : State) (v host : Nat) (arg : Word) (sync : Option Nat) : State :=
  let s := p.swapFirst vifPage []
  let s1 := s.setVi v { s.vi v with logOvf := false }
  if (s.reg vifPage 0x138).field 31 0 = 0 ∧ s.hostReady none = true then
    (s1.harvestWords v host 0 (s.vi v).logWords).vifEnd 5 v .ok sync
  else
    let s2 : State := { s1 with harvests := s1.harvests ++
      [{ vi := v, host := host, next := 0, syncEn := sync.isSome, sync := arg.field 13 0 }] }
    s2.setBusy .vif true

/-- HARVEST_DONE (R55): a harvest that was paced or had to wait copies its words, where the host link issues. -/
def execHarvestDone (vi : Nat) (s : State) : Host.Outcome State Fault Refusal :=
  .next (match s.harvests.find? (fun h => decide (h.vi = vi)) with
    | some h =>
      if s.hostReady none then
        let s1 : State := { s with harvests := s.harvests.filter (fun x => x.vi ≠ vi) }
        (s1.harvestWords vi h.host h.next ((s.vi vi).logWords - h.next)).vifEnd 5 vi .ok
          (if h.syncEn && s.owns 0 tySync h.sync then some h.sync else none)
      else s
    | none => s)

/-- Run a word written to VIF.CMD (R53). -/
def vifRun (val : Word) (s : State) : State :=
  let op := val.field 23 16
  let v := val.field 11 0
  let addr := s.reg vifPage 0x100
  let arg := s.reg vifPage 0x108
  let sync := s.argSync arg
  match s.vifCheck op v addr arg with
  | .ok =>
    match op with
    | 1 =>
      let x : Vi := { s.vi v with state := .bound, pasid := arg.field 51 32, logBase := addr.toNat, logSize := arg.field 61 56,
                                  logOvf := false }
      (s.setVi v x).vifEnd op v .ok sync
    | 2 => (s.setVi v { s.vi v with state := .enabled }).vifEnd op v .ok sync
    | 3 => (s.viReset v).vifEnd op v .ok sync
    | 4 => (s.viUnbind v).vifEnd op v .ok sync
    | _ => s.harvestStart v addr.toNat arg sync
  | st => s.vifEnd op v st sync

/-- The word of a VIF command. -/
def vifWord (op v : Nat) : Word := ((0 : Word).setField 23 16 op).setField 11 0 v

/-- BIND (R53). -/
def execBind (vi : Nat) (s : State) : Host.Outcome State Fault Refusal := .next (s.takeCmd .vif (vifWord 1 vi) vifRun)

/-- VIF_ENABLE (R53). -/
def execVifEnable (vi : Nat) (s : State) : Host.Outcome State Fault Refusal := .next (s.takeCmd .vif (vifWord 2 vi) vifRun)

/-- VIF_RESET (R53, R70). -/
def execVifReset (vi : Nat) (s : State) : Host.Outcome State Fault Refusal := .next (s.takeCmd .vif (vifWord 3 vi) vifRun)

/-- UNBIND (R53). -/
def execUnbind (vi : Nat) (s : State) : Host.Outcome State Fault Refusal := .next (s.takeCmd .vif (vifWord 4 vi) vifRun)

/-- HARVEST (R55). -/
def execHarvest (vi : Nat) (s : State) : Host.Outcome State Fault Refusal := .next (s.takeCmd .vif (vifWord 5 vi) vifRun)

/-- VI_QUIESCE (R52): the outstanding reads of a RESETTING VI have ended. -/
def execViQuiesce (vi : Nat) (s : State) : Host.Outcome State Fault Refusal :=
  .next (if (s.vi vi).state = .resetting ∧ (s.reads.any (fun r => decide (r.vi = some vi))) = false then
      s.setVi vi { s.vi vi with state := .quiesced }
    else s)

end Sys2Proof.Machine
end

