-- ==== Sys2Proof/Machine/Trust.lean ====
section
/-! DEFINITION. Trust and the field side: images, start-up, identity, attestation reports, debug, the TRS page's commands and
the barrier's messages to and from Weir (18_trust_and_field_side.md). -/

namespace Sys2Proof.Machine

/-- The TRS page. -/
abbrev trsPage : Page := Blk.trs.page

/-- One bit of CRC-32. -/
def crc32Bit (c : Nat) : Nat := if c % 2 = 1 then c / 2 ^^^ 0xEDB88320 else c / 2

/-- CRC-32 of IEEE 802.3. -/
def crc32 (bs : List Byte) : BitVec 32 :=
  let step (c : Nat) (b : Byte) : Nat := (List.range 8).foldl (fun x _ => crc32Bit x) (c ^^^ b.toNat)
  BitVec.ofNat 32 (bs.foldl step (2 ^ 32 - 1) ^^^ (2 ^ 32 - 1))

/-- The bytes of an ASCII label. -/
def label (cs : List Nat) : List Byte := cs.map (BitVec.ofNat 8)

/-! ## PRT.GUARANTEE (R56, R57) -/

/-- PRT.GUARANTEE as it stands: VERSION_OK follows HS_OK of the operator page (R426), DEBUG_LOCKED the debug lock (R372),
INJ_UNUSED the first accepted injection, HELD all three. -/
def State.guarantee (s : State) : Word :=
  let v := (s.reg Blk.fwi.page 0x108).bit 63
  let d := (s.reg trsPage 0x110).bit 63
  let i := (s.reg prtPage 0x128).bit 0
  ((((0 : Word).setBit 63 (v && d && i)).setBit 2 v).setBit 1 d).setBit 0 i

/-- INT_STAT.GUARANTEE_LOST is set when HELD goes from 1 to 0 between two states. -/
def State.guaranteeFrom (s old : State) : State :=
  if old.guarantee.bit 63 && !s.guarantee.bit 63 then s.setIntBit prtPage 10 else s

/-! ## Images (R363 to R365) -/

/-- Base of a bank in flash. -/
def bankBase (b : Bool) : Nat := if b then 0x04000000 else 0

/-- The bytes of the image of directory entry i of a bank: 0 KEYMAN, 1 WEIR, 2 RUNTIME, 3 MONITOR (R363). -/
def State.bankImage (s : State) (b : Bool) (i : Nat) : List Byte :=
  let d := bytesWords 2 (s.flashBytes (bankBase b + 16 * i) 16)
  s.flashBytes (bankBase b + (wordAt d 0).toNat) (min (wordAt d 1).toNat (512 + 0x1000000))

/-- The KIND of directory entry i (R364). -/
def imageKind (i : Nat) : Nat :=
  match i with
  | 0 => 4
  | n => n

/-- Most bytes of a body of a KIND. -/
def bodyMax (kind : Nat) : Nat := if kind = 1 then 0x100000 else 0x1000000

/-- Word i of an image's header. -/
def hdrWord (bs : List Byte) (i : Nat) : Word := Word.of (leNat (slice bs (8 * i) 8))

/-- Whether the header of an image, but for its first and third words, has its zero bits, its digest and its length right
(R364, R365). -/
def imageForm (bs : List Byte) (maxLen : Nat) : Bool :=
  let n := (hdrWord bs 2).toNat
  !reservedSet [hdrWord bs 1] [0xFFFFF] && decide (n ≤ maxLen) && decide (512 + n ≤ bs.length) &&
  (slice bs 0x50 0x130).all (fun b => decide (b = 0)) && (slice bs 0x1E0 0x20).all (fun b => decide (b = 0)) &&
  decide (slice bs 0x20 48 = sha384 (slice bs 512 n))

/-- Whether the signature of a header verifies under a public key (R364). -/
def imageSigned (bs pub : List Byte) : Bool := ecdsaVerify pub (bs.take 0x180) (slice bs 0x180 48) (slice bs 0x1B0 48)

/-- Entry i of a key manifest: the public key and CAP (R364). -/
def manifestKey (m : List Byte) (i : Nat) : List Byte × Byte := (slice m (128 * i) 97, m.getD (128 * i + 97) 0)

/-- The KEYMAN entry that an image names, where it has CAP.IMAGE and is not revoked (R365). -/
def State.imageKey (s : State) (manifest bs : List Byte) : Option (List Byte) :=
  let k := (hdrWord bs 1).field 19 16
  let e := manifestKey manifest k
  if k < 4 ∧ s.trs.revoke.toNat.testBit k = false ∧ e.2.toNat.testBit 0 = true then some e.1 else none

/-- An image that is accepted, with its body, measurement and SVN (R365); manifest is KEYMAN's body, none for KEYMAN
itself. -/
def State.accept (s : State) (kind floor : Nat) (manifest : Option (List Byte)) (bs : List Byte) : Option Image :=
  let w0 : Word := (((0 : Word).setField 63 32 0x5654494D).setField 15 8 kind).setField 7 0 1
  let svn := (hdrWord bs 1).field 15 0
  let pub := match manifest with
    | none => if sha384 Config.rootKey = s.trs.rootHash then some Config.rootKey else none
    | some m => s.imageKey m bs
  match pub with
  | some k =>
    if hdrWord bs 0 = w0 ∧ imageForm bs (bodyMax kind) = true ∧ s.trs.svnFloor.getD floor 0 ≤ svn ∧ imageSigned bs k = true then
      some { body := slice bs 512 (hdrWord bs 2).toNat, meas := sha384 (bs.take 0x180), svn := svn }
    else none
  | none => none

/-- The RUNTIME and MONITOR of a bank, where both are accepted under the running manifest. -/
def State.mainImages (s : State) (b : Bool) : Option (Image × Image) :=
  match s.trs.keyman with
  | some k =>
    match s.accept 2 2 (some k.body) (s.bankImage b 2), s.accept 3 2 (some k.body) (s.bankImage b 3) with
    | some r, some m => some (r, m)
    | _, _ => none
  | none => none

/-- The bank in use: TRS.BOOT.BANK. -/
def State.bank (s : State) : Bool := (s.reg trsPage 0x108).bit 63

/-! ## Start-up (R366 to R368) -/

/-- VIN40_APPLY: step 1. -/
def execVin40Apply (s : State) : Host.Outcome State Fault Refusal :=
  .next (if s.trs.startup = 0 then { s with trs := { s.trs with fieldPower := true, startup := 1 } } else s)

/-- STARTUP_REFIN: step 2. -/
def execStartupRefin (s : State) : Host.Outcome State Fault Refusal :=
  .next (if s.trs.startup = 1 ∧ s.cg.refinField = true then
      let s1 := (s.setPll 0 { Pll.reset with state := .stable, run := 4 }).count1 .clk 3
      { s1 with trs := { s1.trs with startup := 2 } }
    else s)

/-- The field die is reset and start-up runs again from the boot ROM step with the other bank; after the second bank, the boot
ROM stays in recovery (R366). -/
def State.fallback (s : State) : State :=
  let h := if s.trs.hostPower then s.hostDown else s
  if s.trs.triedBank then
    { h with trs := { h.trs with recovery := true, weirRuns := false, startup := 2 } }
  else
    let r := Trs.reset
    let h1 : State := { h with
      regs := h.regs.filter (fun e => !fieldCode (e.1 / 2 ^ 32)), entry := [],
      trs := { r with uds := h.trs.uds, rootHash := h.trs.rootHash, svnFloor := h.trs.svnFloor, revoke := h.trs.revoke,
                      flash := h.trs.flash, fieldPower := true, startup := 2, triedBank := true },
      flt := .reset, pwr := { Pwr.reset with wearOut := h.pwr.wearOut, bin3 := !h.pwr.wearOut } }
    (h1.setReg trsPage 0x108 ((h1.reg trsPage 0x108).setBit 62 true)).err .trs 4

/-- A word of the default severity table of Weir's image (R470, R471). -/
def sevDefault (k : Nat) : Word :=
  sevStored k ((List.range 16).foldl (fun a j => a.setField (4 * j + 3) (4 * j) (Config.defaultSeverity (16 * k + j) % 5)) 0)

/-- Weir loads the default table of its image. -/
def State.loadSeverities (s : State) : State :=
  (List.range 512).foldl (fun t k => t.setReg fltPage (0x1000 + 8 * k) (sevDefault k)) s

/-- Weir reads the management key record (R375). -/
def State.readMgmt (s : State) : State :=
  let r := s.flashBytes 0x07FFC000 44
  let key := if leNat (slice r 40 4) = (crc32 (r.take 40)).toNat then
      kwUnwrap (s.trs.handoffMkw.getD []) 4 (r.take 40)
    else none
  let s1 : State := { s with trs := { s.trs with mgmtKey := key } }
  if key.isSome then s1 else s1.err .trs 6

/-- Weir reads the wear record (R464, R465): a record that fails its check withdraws bin 3 until a valid one is read. -/
def State.readWear (s : State) : State :=
  let r := s.flashBytes 0x07FF8000 544
  let ws := bytesWords 62 r
  let ok := decide (slice r 496 48 = hmac384 (s.trs.handoffWear.getD []) (r.take 496))
  if ok then
    let s1 : State := { s with pwr := { s.pwr with
      buckets := ((ws.drop 2).map BitVec.toNat), bucketAt := s.clk.aon + (wordAt ws 1).toNat, bin3 := !s.pwr.wearOut } }
    (s1.setReg Blk.pwr.page 0x160 (((s1.reg Blk.pwr.page 0x160).setBit 62 false).setField 7 0 (wordAt ws 0).toNat)).wearStat
  else
    let s1 : State := { s with pwr := { s.pwr with bin3 := false, bucketAt := s.clk.aon + 730 * hourAon } }
    ((s1.setReg Blk.pwr.page 0x160 ((s1.reg Blk.pwr.page 0x160).setBit 62 true)).wearStat).err .pwr 5

/-- The secrets that the boot ROM derives from UDS before it locks it (R360, R362, R369); after a restart of Weir alone UDS is
locked and the handoff registers keep what they hold. -/
def State.derive (s : State) (w : Image) : State :=
  if s.trs.udsLocked then s
  else
    let u := s.trs.uds
    { s with trs := { s.trs with
      udsLocked := true,
      handoffCdi := some (hmac384 u (w.meas ++ leBytes 2 w.svn ++ [if s.debugOpen then 1 else 0])),
      handoffDwk := some ((hmac384 u (label [0x56, 0x54, 0x39, 0x2D, 0x44, 0x57, 0x4B])).take 32),
      handoffWear := some ((hmac384 u (label [0x56, 0x54, 0x39, 0x2D, 0x57, 0x45, 0x41, 0x52])).take 32),
      handoffMkw := some ((hmac384 u (label [0x56, 0x54, 0x39, 0x2D, 0x4D, 0x4B, 0x57])).take 32) } }

/-- The boot ROM has accepted KEYMAN and WEIR: it starts Weir, which reads its records and loads its table (R367 step 3). -/
def State.weirStart (s : State) (b : Bool) (k w : Image) : State :=
  let s1 := s.derive w
  let s2 : State := { s1 with
    trs := { s1.trs with keyman := some k, weir := some w, weirRuns := true, startup := 3 },
    flt := { s1.flt with heartbeatSent := s1.clk.fld, watchdogAt := s1.clk.fld, safeAt := s1.clk.fld } }
  let s3 := s2.setReg trsPage 0x108 (((s2.reg trsPage 0x108).setBit 63 b).setField 47 32 w.svn)
  ((s3.loadSeverities.readMgmt).readWear).ctrlStat

/-- Whether the boot-select word selects bank B first (R363). -/
def State.bootSelect (s : State) : Bool := decide (leNat (s.flashBytes 0x07FFF000 4) = 1)

/-- STARTUP_BOOT_ROM: step 3. KEYMAN and WEIR of the selected bank, or of the other one after a fallback, are verified. -/
def execStartupBootRom (s : State) : Host.Outcome State Fault Refusal :=
  let b := s.bootSelect != s.trs.triedBank
  .next (if s.trs.startup = 2 ∧ s.trs.recovery = false ∧ s.cg.refinField = true then
      match s.accept 4 0 none (s.bankImage b 0) with
      | some k =>
        match s.accept 1 1 (some k.body) (s.bankImage b 1) with
        | some w => s.weirStart b k w
        | none => s.fallback
      | none => s.fallback
    else s)

/-- STARTUP_POWER: step 4, with HSEN high and every wait of R455 and R493 over; PGOOD goes high. -/
def execStartupPower (s : State) : Host.Outcome State Fault Refusal :=
  .next (if decide (s.trs.startup = 3) && s.trs.weirRuns && s.pwr.tripAt.isNone && s.pwr.hsenAt.isNone && s.cg.refinField &&
      (!s.flt.safe || s.flt.exiting) then
      { s with trs := { s.trs with hostPower := true, startup := 4 }, pwr := { s.pwr with hostOff := false },
               balls := { s.balls with hsen := true, pgood := true } }
    else s)

/-- The host-side PLLs that start-up step 5 makes STABLE: those whose MODE is ON (R435). -/
def State.hostPlls (s : State) : List Nat := ((List.range 24).filter (fun n => pllExists n && decide (n ≠ 0) &&
  (!pllStoppable n || decide (s.pllMode n = 1))))

/-- STARTUP_PLL: step 5; the dies leave reset, and clusters forced on open. -/
def execStartupPll (s : State) : Host.Outcome State Fault Refusal :=
  .next (if s.trs.startup = 4 ∧ s.cg.refinHost = true then
      let s1 := s.hostPlls.foldl (fun t n => let u := t.pllStart n; u.setPll n { u.pll n with state := .stable, run := 4 }) s
      let s2 : State := { s1 with trs := { s1.trs with dieReset := false, startup := 5 },
                                  flt := { s1.flt with heartbeatAt := s1.clk.noc } }
      (List.range 25).foldl (fun t c => if t.forceOn c && decide ((t.pll (t.clusterPll c)).state = .stable) then t.gateUp c else t) s2
    else s)

/-- Every granule that is not reserved has been scrubbed (step 3 of R478). -/
def State.allScrubbed (s : State) : State :=
  { s with hbm := [],
           gran := (List.range 1536).map (fun g => (g, if reservedGranules.contains g then Own.owned 0 else
             if s.kvs.retiredGran.contains g then Own.owned 0 else Own.free)) }

/-- STARTUP_HBM_TRAIN: step 6. In an exit from the safe state every granule is scrubbed then (R478). -/
def execStartupHbmTrain (s : State) : Host.Outcome State Fault Refusal :=
  .next (if s.trs.startup = 5 then
      let s1 : State := { s with trs := { s.trs with startup := 6 } }
      if s1.flt.exiting then s1.allScrubbed else s1
    else s)

/-- The attestation key: derived from CDI_W and the main images; Weir then clears CDI_W (R369). After a host-side restart
CDI_W is gone, and AK stays. -/
def State.deriveAk (s : State) (r m : Image) : State :=
  match s.trs.handoffCdi with
  | some c =>
    let f (x : List Byte) : List Byte := hmac384 c (r.meas ++ m.meas ++ leBytes 2 r.svn ++ leBytes 2 m.svn ++ x)
    let cdi := f []
    let d := scalarOf f 256 0 cdi
    { s with trs := { s.trs with ak := some (beBytes 48 d), handoffCdi := none } }
  | none => s

/-- A core starts: out of reset, at M, from its reset pc (R404, R406). -/
def Core.started : Core := { Core.reset with halted := false }

/-- STARTUP_IMAGES: step 7. RUNTIME and MONITOR of the bank in use are accepted and loaded, layer 1 is derived, KEY_INSTALL and
SEED are sent, MONITOR writes the restart copy (R428), and the cores are released. A bank whose images are not accepted falls
back. -/
def execStartupImages (s : State) : Host.Outcome State Fault Refusal :=
  .next (if s.trs.startup = 6 then
      match s.mainImages s.bank with
      | some (r, m) =>
        let s1 := s.deriveAk r m
        let s2 : State := { s1 with
          trs := { s1.trs with runtime := some r, monitor := some m, startup := 7, abiVersion := (Config.abiVersion r.body).toNat },
          fwi := { s1.fwi with restartCopy := some (r, m), bank := if s1.bank then 1 else 0 },
          cores := (List.range 80).map (fun n => (n, { Core.started with wdogAt := s1.clk.ctl })) }
        let s3 := s2.setReg trsPage 0x108 (((s2.reg trsPage 0x108).setField 31 16 r.svn).setField 15 0 m.svn)
        let s4 := (s3.barrierSend .field .mgmt 0x24 []).barrierSend .field .mgmt 0x25 []
        (List.range 10).foldl (fun t c => if (t.gate c).isOpen || (t.gate c).held then t else
          if (t.pll (t.clusterPll c)).state = .stable then t.gateUp c else
          if (t.pll (t.clusterPll c)).state = .off ∧ t.pllMode (t.clusterPll c) ≠ 2 then t.pllStart (t.clusterPll c) else t) s4
      | none => s.fallback
    else s)

/-- An exit from the safe state ends (R478): RECOVERIES, SAFE_EXIT, and, after a fault in the collector, the default table. -/
def State.exitDone (s : State) : State :=
  if s.flt.exiting then
    let w := s.reg fltPage 0x140
    let s1 : State := { s with flt := { s.flt with safe := false, exiting := false, reload := false } }
    let s2 := if s.flt.reload then s1.loadSeverities else s1
    let n := min (w.field 47 32 + 1) 0xFFFF
    ((s2.setReg fltPage 0x140 (w.setField 47 32 n)).setIntBit fltPage 11).barrierSend .field .fault 0x07 [n]
  else s

/-- STARTUP_LINK_READY: step 8. The endpoint is released; DPERST_N follows each port's state (R84); the first scrub of HBM
starts (R48). -/
def execStartupLinkReady (s : State) : Host.Outcome State Fault Refusal :=
  .next (if s.trs.startup = 7 then
      let s1 : State := { s with trs := { s.trs with startup := 8, linkReady := true },
                                 flt := { s.flt with aliveAt := s.clk.fld }, balls := { s.balls with idle := false } }
      let s2 := s1.exitDone
      let s3 := (List.range 6).foldl (fun t n =>
        let on := (t.reg (dlkPage n) 0x100).bit 63
        let t1 := if on then t else t.updDport n (fun d => { d with state := .off })
        t1.setDperst n (t1.dport n).state.perstHigh) s2
      s3.scrubNext
    else s)

/-- RECOVERY_FLASH_WRITE: in recovery the UART accepts writes of the banks (R366). -/
def execRecoveryFlashWrite (addr : Nat) (data : List Byte) (s : State) : Host.Outcome State Fault Refusal :=
  .next (if s.trs.recovery && decide (addr + data.length ≤ 0x07FF0000) && (s.reg Blk.clk.page 0x148).bit 3 then
      s.flashWrite addr data
    else s)

/-! ## Image transfer (R358, R367) -/

/-- Send a body in IMG_DATA messages of 52 bytes, and IMG_END. -/
def State.imgStream (s : State) (kind k : Nat) (bs : List Byte) : State :=
  match k with
  | 0 => s.barrierSend .field .mgmt 0x22 [kind]
  | k + 1 =>
    match bs with
    | [] => s.barrierSend .field .mgmt 0x22 [kind]
    | b :: r => (s.barrierSend .field .mgmt 0x21 (kind :: (b :: r.take 51).map BitVec.toNat)).imgStream kind k (r.drop 51)

/-- IMG_REQ: Weir streams RUNTIME or MONITOR of the bank in use; with the quad-SPI gated it sends nothing but the end (R446). -/
def execImgReq (kind : Nat) (s : State) : Host.Outcome State Fault Refusal :=
  let s1 := s.barrierAccept .field .mgmt
  let bs := if kind = 2 ∨ kind = 3 then (if (s.reg Blk.clk.page 0x148).bit 2 then s1.bankImage s1.bank kind else []) else []
  .next (s1.imgStream kind bs.length bs)

/-- IMG_DATA: the host side takes part of an image. -/
def execImgData (kind : Nat) (data : List Byte) (s : State) : Host.Outcome State Fault Refusal :=
  let s1 := s.barrierAccept .host .mgmt
  .next { s1 with trs := { s1.trs with incoming := Tab.insert s1.trs.incoming kind (Tab.get [] s1.trs.incoming kind ++ data) } }

/-- IMG_END: the transfer ends, and the host side confirms it with IMG_ACK; the next transfer of the kind starts afresh. -/
def execImgEnd (kind : Nat) (s : State) : Host.Outcome State Fault Refusal :=
  let s1 := s.barrierAccept .host .mgmt
  let s2 : State := { s1 with trs := { s1.trs with incoming := Tab.erase s1.trs.incoming kind } }
  .next (s2.barrierSend .host .mgmt 0x23 [kind])

/-- IMG_ACK: Weir takes the confirmation. -/
def execImgAck (_kind : Nat) (s : State) : Host.Outcome State Fault Refusal := .next (s.barrierAccept .field .mgmt)

/-! ## Keys, seeds, mailboxes, telemetry, interrupts (R358, R361, R362) -/

/-- KEY_INSTALL: the device wrapping key enters the cipher engine (R362). -/
def execKeyInstall (s : State) : Host.Outcome State Fault Refusal :=
  let s1 := s.barrierAccept .host .mgmt
  .next (match s1.trs.handoffDwk with
    | some k => { s1 with cph := { s1.cph with dwk := some k } }
    | none => s1)

/-- SEED: the host-side random bit generator is seeded (R361). -/
def execSeed (s : State) : Host.Outcome State Fault Refusal :=
  let s1 := s.barrierAccept .host .mgmt
  .next { s1 with cph := { s1.cph with rngSeed := s1.cph.rngSeed + 1, rngServed := 0 } }

/-- RESEED_DUE: the host-side generator has served 2^20 requests since its last seed (R361). -/
def execReseedDue (s : State) : Host.Outcome State Fault Refusal :=
  .next (if s.trs.weirRuns && decide (2 ^ 20 ≤ s.cph.rngServed) then s.barrierSend .field .mgmt 0x25 [] else s)

/-- MBOX: Weir takes a message of firmware. -/
def execMbox (msg : List Byte) (s : State) : Host.Outcome State Fault Refusal :=
  let s1 := s.barrierAccept .field .mgmt
  .next { s1 with trs := { s1.trs with mbox := s1.trs.mbox ++ [msg] } }

/-- MBOX_RSP: firmware takes Weir's answer. -/
def execMboxRsp (msg : List Byte) (s : State) : Host.Outcome State Fault Refusal :=
  let s1 := s.barrierAccept .host .mgmt
  .next { s1 with trs := { s1.trs with mboxRsp := s1.trs.mboxRsp ++ [msg] } }

/-- TELEMETRY: the host side takes readings of a kind. -/
def execTelemetry (kind : Nat) (readings : List Byte) (s : State) : Host.Outcome State Fault Refusal :=
  let s1 := s.barrierAccept .host .mgmt
  .next { s1 with trs := { s1.trs with telemetry := Tab.insert s1.trs.telemetry kind readings } }

/-- INT: a field page's unit interrupt reaches the host side and becomes an MSI-X message (R80, R358). -/
def execInt (pg : Page) (s : State) : Host.Outcome State Fault Refusal :=
  let s1 := s.barrierAccept .host .mgmt
  .next (if blkField pg.blk && pg.exist && s1.pageIrq pg then s1.sendPageIrq pg else s1)

/-! ## Attestation (R369 to R371) -/

/-- The runs of consecutive numbers in a rising list, as first and count. -/
def idRuns (l : List Nat) (cur : Option (Nat × Nat)) : List (Nat × Nat) :=
  match l with
  | [] => cur.toList
  | x :: r =>
    match cur with
    | none => idRuns r (some (x, 1))
    | some (a, n) => if x = a + n then idRuns r (some (a, n + 1)) else (a, n) :: idRuns r (some (x, 1))

/-- CONFIG_DIGEST of a partition: its owner-table ranges in ascending type and identifier, and its WRAP_DOMAIN (R370). -/
def State.configDigest (s : State) (p : Nat) : List Byte :=
  let ids (ty : Nat) : List Nat :=
    if ty = 2 then (List.range 32).filter (fun i => (s.part p).ways.toNat.testBit i) else s.owned p ty
  let rows := (List.range 14).flatMap (fun ty => (idRuns (ids ty) none).flatMap (fun r => [Word.of ty, Word.of r.1, Word.of r.2]))
  sha384 (wordsBytes (rows ++ [(s.part p).wrapDomain]))

/-- An image's measurement, zeros where none runs. -/
def measOf (i : Option Image) : List Byte :=
  match i with
  | some x => x.meas
  | none => zeros 48

/-- An image's SVN. -/
def svnOf (i : Option Image) : Nat :=
  match i with
  | some x => x.svn
  | none => 0

/-- Bytes 0x000 to 0x13F of a report (R370), numbered seq. -/
def State.reportBody (s : State) (r : Report) (seq : Nat) : List Byte :=
  let w1 := ((((0 : Word).setField 47 32 ((s.reg Blk.dev.page 0x100).field 47 32)).setBit 28 r.vi.isNone).setField 27 16
    (r.vi.getD 0)).setField 6 0 r.part
  let svns := (((0 : Word).setField 15 0 (svnOf s.trs.weir)).setField 31 16 (svnOf s.trs.runtime)).setField 47 32
    (svnOf s.trs.monitor)
  let w29 := ((0 : Word).setField 63 32 s.trs.abiVersion).setBit 0 (!s.debugOpen)
  wordsBytes [((0 : Word).setField 63 32 0x41545452).setField 31 16 1, w1, s.guarantee, Word.of seq] ++
  (r.nonce ++ zeros 48).take 48 ++ measOf s.trs.weir ++ measOf s.trs.runtime ++ measOf s.trs.monitor ++
  wordsBytes [svns, w29] ++ s.configDigest r.part ++ zeros 32

/-- A number below the curve's order from n words of the field side's generator, for a signature. -/
def State.signNonce (s : State) : Nat × State :=
  (beNat (wordsBytes ((List.range 6).map (fun i => Config.freeWord (s.free + i)))) % (curveQ - 1) + 1, { s with free := s.free + 6 })

/-- The checks of a report request (R371): STATE while the VI has one in progress, for a partition that is not ACTIVE, and in
the safe state (R477); RESOURCE beyond the queue or the rate. -/
def State.reportCheck (s : State) (p : Nat) (vi : Option Nat) : Status :=
  let lim := (s.reg trsPage 0x100).field 15 0
  let recent := s.trs.signedAt.filter (fun t => s.clk.fld < t + 200000000)
  firstFail [
    ((match vi with
      | some v => s.trs.reports.any (fun r => decide (r.vi = some v)) || s.trs.signed.any (fun e => decide (e.1 = v))
      | none => false) || decide ((s.part p).state ≠ .active) || s.flt.safe, .state),
    (decide (64 ≤ s.trs.reports.length) || (decide (lim ≠ 0) && decide (lim ≤ recent.length)), .resource)]

/-- Queue a report. -/
def State.reportTake (s : State) (r : Report) : State :=
  { s with trs := { s.trs with reports := s.trs.reports ++ [r],
                               signedAt := s.clk.fld :: s.trs.signedAt.filter (fun t => s.clk.fld < t + 200000000) } }

/-- The nonce that a VI's page holds. -/
def State.viNonce (s : State) (v : Nat) : List Byte :=
  wordsBytes ((List.range 6).map (fun i => s.reg ⟨.fwi, 0x1000 + v⟩ (0x600 + 8 * i)))

/-- ATT_REQ (R370, R371): Weir queues the request, or answers with a refusal. -/
def execAttReq (vi : Nat) (s : State) : Host.Outcome State Fault Refusal :=
  let s1 := s.barrierAccept .field .mgmt
  let p := (s1.ownerOf tyVi vi).getD 0x7F
  .next (match s1.reportCheck p (some vi) with
    | .ok => s1.reportTake { part := p, vi := some vi, nonce := s1.viNonce vi, dest := (s1.reg ⟨.fwi, 0x1000 + vi⟩ 0x630).toNat }
    | st => (s1.count1 .trs 4).barrierSend .field .mgmt 0x27 [vi, st.code])

/-- REPORT_SIGNED (R371): Weir signs the oldest queued report with AK. A VI's goes to firmware in ATT_RSP; P0's is written and
its command ends. -/
def execReportSigned (s : State) : Host.Outcome State Fault Refusal :=
  .next (match s.trs.reports, s.trs.ak with
    | r :: rest, some d =>
      let n := s.signNonce
      let seq := s.trs.reportSeq + 1
      let body := s.reportBody r seq
      let sig := ecdsaSign (beNat d) body n.1
      let bytes := body ++ sig.1 ++ sig.2
      let s1 : State := { n.2 with trs := { n.2.trs with reports := rest, reportSeq := seq } }
      let s2 := s1.count1 .trs 3
      match r.vi with
      | some v =>
        ({ s2 with trs := { s2.trs with signed := s2.trs.signed ++ [(v, bytes)] } }).barrierSend .field .mgmt 0x27 [v, 0]
      | none => (s2.setBytes r.dest bytes).cmdEnd .trs 3 0 .ok
    | _, _ => s)

/-- ATT_RSP (R370, R371): firmware writes the report to the VI's address, once the host link issues, and ATT_STAT. -/
def execAttRsp (vi : Nat) (st : Status) (s : State) : Host.Outcome State Fault Refusal :=
  let s1 := s.barrierAccept .host .mgmt
  let pg : Page := ⟨.fwi, 0x1000 + vi⟩
  .next (if st = .ok then
      (if s1.hostUp then s1.attWrite vi
       else if s1.trs.signed.any (fun e => decide (e.1 = vi)) && !s1.trs.attWaits.contains vi then
         { s1 with trs := { s1.trs with attWaits := s1.trs.attWaits ++ [vi] } }
       else s1)
    else
      let busy := s1.trs.reports.any (fun r => decide (r.vi = some vi)) || s1.trs.signed.any (fun e => decide (e.1 = vi))
      (s1.setReg pg 0x640 (((0 : Word).setField 55 48 st.code).setBit 63 busy)).setVi vi { s1.vi vi with reportBusy := busy })

/-! ## TRS commands (R370 to R375) -/

/-- DEBUG_CHALLENGE: 48 fresh bytes in CHAL0 to CHAL5 (R372). -/
def State.debugChallenge (s : State) : Status × State :=
  let s1 := (List.range 6).foldl (fun t i => t.setReg trsPage (0x118 + 8 * i) (Config.freeWord (s.free + i))) s
  let s2 : State := { s1 with free := s.free + 6 }
  (.ok, s2.setReg trsPage 0x110 ((s2.reg trsPage 0x110).setBit 62 true))

/-- Whether a signature over the challenge and DEV.IDENT verifies under a KEYMAN key with CAP.DEBUG that is not revoked
(R372). -/
def State.debugSigned (s : State) (r t : List Byte) : Bool :=
  match s.trs.keyman with
  | some k =>
    let msg := wordsBytes ((List.range 6).map (fun i => s.reg trsPage (0x118 + 8 * i)) ++ [s.reg Blk.dev.page 0x100])
    (List.range 4).any (fun i => (manifestKey k.body i).2.toNat.testBit 1 && !s.trs.revoke.toNat.testBit i &&
      ecdsaVerify (manifestKey k.body i).1 msg r t)
  | none => false

/-- DEBUG_UNLOCK: the response, 48 bytes of r and 48 of s, lies at CMD_ADDR (R372). -/
def State.debugUnlock (s : State) (a : Nat) : Status × State :=
  let d := s.reg trsPage 0x110
  match firstFail [(decide (a % 64 ≠ 0), .format), (!s.ownsHbm 0 a 96, .accessViolation),
      (!d.bit 63 || !d.bit 62, .state), ((s.firstBad a 96).isSome, .poisoned), (!s.debugSigned (s.bytes a 48) (s.bytes (a + 48) 48), .integrity)] with
  | .ok =>
    let s1 := s.setReg trsPage 0x110 ((d.setBit 63 false).setBit 62 false)
    (.ok, (s1.setIntBit trsPage 9).guaranteeFrom s)
  | st => (st, s)

/-- CERTS: the certificate chain at CMD_ADDR, its length in RD0 (R371). -/
def State.certs (s : State) (a : Nat) : Status × State :=
  let c := Config.certChain
  match firstFail [(decide (a % 64 ≠ 0), .format), (decide (c.length ≠ 0) && !s.ownsHbm 0 a c.length, .accessViolation)] with
  | .ok => (.ok, (s.setBytes a c).setReg trsPage 0x168 (Word.of c.length))
  | st => (st, s)

/-- SVN_COMMIT: floors rise to the running images' SVNs, and never fall (R374). -/
def State.svnCommit (s : State) : Status × State :=
  if (s.reg trsPage 0x108).bit 62 then (.state, s)
  else
    let f := [svnOf s.trs.keyman, svnOf s.trs.weir, min (svnOf s.trs.runtime) (svnOf s.trs.monitor)]
    (.ok, { s with trs := { s.trs with svnFloor := (List.range 3).map (fun i => max (s.trs.svnFloor.getD i 0) (min 64 (f.getD i 0))) } })

/-- MGMT_KEY: the key at CMD_ADDR is wrapped into flash with its CRC, and its source becomes zeros (R375). -/
def State.mgmtKeySet (s : State) (a : Nat) : Status × State :=
  match firstFail [(decide (a % 64 ≠ 0), .format), (!s.ownsHbm 0 a 32, .accessViolation),
      ((s.firstBad a 32).isSome, .poisoned)] with
  | .ok =>
    let k := s.bytes a 32
    let w := kwWrap (s.trs.handoffMkw.getD []) 4 k
    let s1 := (s.flashWrite 0x07FFC000 (w ++ leBytes 4 (crc32 w).toNat)).setBytes a (zeros 32)
    (.ok, { s1 with trs := { s1.trs with mgmtKey := some k } })
  | st => (st, s)

/-- REPORT: the nonce at CMD_ADDR, the report to CMD_ADDR + 64; the command runs until the report is written (R370, R371). -/
def State.reportCmd (s : State) (p a : Nat) : State :=
  match firstFail [(decide (a % 64 ≠ 0), .format), (!s.ownsHbm 0 a 480, .accessViolation),
      ((s.firstBad a 48).isSome, .poisoned)] with
  | .ok =>
    match s.reportCheck p none with
    | .ok => (s.reportTake { part := p, vi := none, nonce := s.bytes a 48, dest := a + 64 }).setBusy .trs true
    | st => (s.count1 .trs 4).cmdEnd .trs 3 0 st
  | st => s.cmdEnd .trs 3 0 st

/-- Run a word written to TRS.CMD. -/
def trsRun (val : Word) (s : State) : State :=
  let op := val.field 31 24
  let a := (s.reg trsPage 0x150).toNat
  match op with
  | 1 => let r := s.debugChallenge; r.2.cmdEnd .trs op 0 r.1
  | 2 => let r := s.debugUnlock a; r.2.cmdEnd .trs op 0 r.1
  | 3 => s.reportCmd (val.field 6 0) a
  | 4 => let r := s.certs a; r.2.cmdEnd .trs op 0 r.1
  | 5 => let r := s.svnCommit; r.2.cmdEnd .trs op 0 r.1
  | 6 => (s.flashWrite 0x07FFF000 (leBytes 4 (if val.bit 7 then 1 else 0))).cmdEnd .trs op 0 .ok
  | 7 => let r := s.mgmtKeySet a; r.2.cmdEnd .trs op 0 r.1
  | _ => s.cmdEnd .trs op 0 .format

/-- The word of a TRS command. -/
def trsWord (op bank p : Nat) : Word := (((0 : Word).setField 31 24 op).setField 7 7 bank).setField 6 0 p

/-- DEBUG_CHALLENGE (R372). -/
def execDebugChallenge (s : State) : Host.Outcome State Fault Refusal := .next (s.takeCmd .trs (trsWord 1 0 0) trsRun)

/-- DEBUG_UNLOCK (R372). -/
def execDebugUnlock (s : State) : Host.Outcome State Fault Refusal := .next (s.takeCmd .trs (trsWord 2 0 0) trsRun)

/-- REPORT (R370). -/
def execReport (part : Nat) (s : State) : Host.Outcome State Fault Refusal := .next (s.takeCmd .trs (trsWord 3 0 part) trsRun)

/-- CERTS (R371). -/
def execCerts (s : State) : Host.Outcome State Fault Refusal := .next (s.takeCmd .trs (trsWord 4 0 0) trsRun)

/-- SVN_COMMIT (R374). -/
def execSvnCommit (s : State) : Host.Outcome State Fault Refusal := .next (s.takeCmd .trs (trsWord 5 0 0) trsRun)

/-- BANK_SELECT (R374). -/
def execBankSelect (bank : Nat) (s : State) : Host.Outcome State Fault Refusal :=
  .next (s.takeCmd .trs (trsWord 6 bank 0) trsRun)

/-- MGMT_KEY (R375). -/
def execMgmtKey (s : State) : Host.Outcome State Fault Refusal := .next (s.takeCmd .trs (trsWord 7 0 0) trsRun)

/-- INJ_EN_SET: TRS.TEST.INJ_EN is W1S (R373). A contained management plane refuses the write (R476). -/
def execInjEnSet (s : State) : Host.Outcome State Fault Refusal :=
  .next (if s.flt.safe then s
    else if s.flt.planes.contains 2 then s.refuse trsPage 0x148
    else s.setReg trsPage 0x148 ((s.reg trsPage 0x148).setBit 0 true))

end Sys2Proof.Machine
end

