-- ==== Sys2Proof/Machine/Firmware.lean ====
section
/-! DEFINITION. Firmware: the emulated control pages, the ABI handshake, the host beat, live update, crashes of control cores,
device page tables, and the FWI page's commands (21_firmware.md). -/

namespace Sys2Proof.Machine

/-- The FWI page's operator page. -/
abbrev fwiPage : Page := Blk.fwi.page

/-- The emulated control page of a VI. -/
def emuPage (v : Nat) : Page := ⟨.fwi, 0x1000 + v⟩

/-- What a host's write to a page does, where the port's state lets it reach the page: nothing in D3hot, under PERST_N, or in the safe
state but to FLT (R77, R477); a frozen port drops all but those to its own page (R74). -/
def State.pageGate (s : State) (pg : Page) (act : State) : State :=
  if decide (s.dstate = 3) || s.hlk.perst || (s.flt.safe && decide (pg.blk ≠ .flt)) then s
  else if s.frozen && decide (pg.blk ≠ .hlk) then s.count1 .hlk 5
  else act

/-! ## Ring groups and the cores that serve them (R423) -/

/-- A core of a number. -/
def State.core (s : State) (n : Nat) : Core := Tab.get .reset s.cores n

/-- Change a core. -/
def State.setCore (s : State) (n : Nat) (c : Core) : State := { s with cores := Tab.insert s.cores n c }

/-- Whether a control core is marked out (FWI.CORES.OUT). -/
def State.coreOut (s : State) (n : Nat) : Bool := (s.reg fwiPage 0x160).bit (48 + (n - 64))

/-- Whether firmware answers for a ring group now: its core runs and its cluster's gate is open (R447), the group does not move, no
update pauses (R423, R424, R428), and the data plane, with which control cores stop, is not contained (R476). -/
def State.fwServes (s : State) (g : Nat) : Bool :=
  !(s.core (s.ringGroup g).core).halted && !s.clusterStopped ((s.ringGroup g).core / 8) && !s.fwi.moving.contains g && decide (s.fwi.phase ≠ 3) && !s.dataHeld && !s.flt.safe

/-! ## The ABI handshake (R425, R426) -/

/-- Whether a driver's version passes against an ABI version (R425); nothing passes until RUNTIME runs. -/
def abiPasses (abi version : Nat) : Bool :=
  decide (version / 65536 = abi / 65536) && decide (version % 65536 ≤ abi % 65536)

/-- Store HS_OK and VERSION on a page; HS_LOST where HS_OK falls, and PRT.GUARANTEE follows the operator page (R426). -/
def State.setHandshake (s : State) (pg : Page) (ok : Bool) (version : Nat) : State :=
  let old := (s.reg pg 0x108).bit 63
  let s1 := s.setReg pg 0x108 (((0 : Word).setBit 63 ok).setField 31 0 version)
  let s2 := if old && !ok then s1.setIntBit fwiPage 11 else s1
  if pg = fwiPage then s2.guaranteeFrom s else s2

/-- A write of DRV_ABI.VERSION. -/
def State.handshake (s : State) (pg : Page) (version : Nat) : State :=
  s.setHandshake pg (decide (7 ≤ s.trs.startup) && abiPasses s.trs.abiVersion version) version

/-! ## Ring commands of a VI (R424) -/

/-- The checks of a ring command that precede those of R106: VERSION, FORMAT, and the right to the ring. -/
def State.ringCmdRights (s : State) (v op n : Nat) (c1 : Word) (x : Ring) : Status :=
  let r := if op = 1 then x else s.ring n
  firstFail [
    (!(s.reg (emuPage v) 0x108).bit 63, .version),
    (decide (op = 0) || decide (6 < op) || (decide (op = 1) && ringFormatBad c1 x), .format),
    ((match s.ownerOf tyVi v with
      | some p => !s.owns p tyRing n
      | none => true) || !r.viEn || decide (r.vi ≠ v), .accessViolation)]

/-- A ring command ends in RING_STAT. -/
def State.ringStatEnd (s : State) (v : Nat) (st : Status) : State :=
  let seq := (s.reg (emuPage v) 0x140).field 31 0 + 1
  s.setReg (emuPage v) 0x140 (((0 : Word).setField 55 48 st.code).setField 31 0 seq)

/-- Firmware issues a ring command through RNG.CMD with the context images of the VI's page and copies the outcome; READ copies
the context back to the images. RESUME keeps the ring's CONS. -/
def State.ringIssue (s : State) (v op n : Nat) : State :=
  let c (i : Nat) : Word := s.reg (emuPage v) (0x120 + 8 * i)
  match s.ringCmdRights v op n (c 1) (ringOfCtx (c 0) (c 1) (c 2)) with
  | .ok =>
    let s1 := if op = 1 then ((s.setReg Blk.rng.page 0x108 (c 0)).setReg Blk.rng.page 0x110 (c 1)).setReg Blk.rng.page 0x118 (c 2)
      else if op = 4 then s.setReg Blk.rng.page 0x120 ((s.reg Blk.rng.page 0x120).setField 31 0 (s.ring n).cons) else s
    let r := s1.ringCmd op n (c 0) (c 1) (c 2)
    let s2 := r.2.cmdEnd .rng op n r.1
    let s3 := if op = 5 then (List.range 3).foldl (fun t i => t.setReg (emuPage v) (0x120 + 8 * i) (t.reg Blk.rng.page (0x108 + 8 * i))) s2
      else s2
    s3.ringStatEnd v r.1
  | st => s.ringStatEnd v st

/-- The first journal entry of a group is carried out: one that has reached hardware is completed from RNG.CMD_STAT, one that was
TAKEN alone is run from its start (R423, R429). -/
def State.journalRun (s : State) (g : Nat) (again : Bool) (k : Nat) : State :=
  match k with
  | 0 => s
  | k + 1 =>
    let x := s.ringGroup g
    match x.journal with
    | [] => s
    | e :: rest =>
      if e.issued then
        let st := (Status.ofCode ((s.reg Blk.rng.page 0x138).field 55 48)).getD .ok
        ((s.setRingGroup g { x with journal := rest }).ringStatEnd g st).journalRun g again k
      else if s.cmdBusy .rng then s
      else
        let s1 := if again then s.count1 .fwi 5 else s
        ((s1.setRingGroup g { x with journal := rest }).ringIssue g e.op e.ring).journalRun g again k

/-- A write to RING_CMD is taken: its TAKEN entry is made, and it is issued once RNG.CMD is free. -/
def State.ringCmdTake (s : State) (v : Nat) (val : Word) : State :=
  let pg := emuPage v
  if (s.reg pg 0x140).bit 63 then s.refuse pg 0x138
  else
    let x := s.ringGroup v
    let s1 := s.setRingGroup v { x with journal := x.journal ++ [{ op := val.field 31 24, ring := val.field 16 0, issued := false }] }
    (s1.setReg pg 0x140 ((s1.reg pg 0x140).setBit 63 true)).journalRun v false (x.journal.length + 1)

/-! ## The other registers of an emulated page (R70, R71, R370, R427) -/

/-- Entries held for the completion rings of a VI are written (R71). -/
def State.viHeldWrite (s : State) (v : Nat) : State :=
  (s.rings.filter (fun e => e.2.setUp && e.2.viEn && decide (e.2.vi = v) && decide (e.2.held ≠ []))).foldl
    (fun t e => t.heldWrite e.1 e.2.held.length) s

/-- A clear of the emulated master-enable stops a VI that takes work (R70). -/
def State.masterClear (s : State) (v : Nat) : State :=
  let s1 := s.setVi v { s.vi v with masterEn := false }
  if (s.vi v).state = .enabled ∨ (s.vi v).state = .orphaned then s1.viStop v else s1

/-- A set of the emulated master-enable: firmware issues ENABLE, and the held entries are written (R53, R71). -/
def State.masterSet (s : State) (v : Nat) : State :=
  let s1 := s.setVi v { s.vi v with masterEn := true }
  if (s.vi v).masterEn then s1
  else
    match s1.vifCheck 2 v 0 0 with
    | .ok => (s1.setVi v { s1.vi v with state := .enabled }).viHeldWrite v
    | _ => s1

/-- The emulated function reset: the VI stops, and its rings in host memory are reset with the entries due to them (R70, R71). -/
def State.viFlr (s : State) (v : Nat) : State :=
  let s1 := s.setVi v { s.vi v with masterEn := false }
  match (s.vi v).state with
  | .enabled | .orphaned => s1.viReset v
  | .resetting | .quiesced => s1.viRingsReset v
  | .unbound | .bound => s1

/-- A write of CONTROL. -/
def State.controlWrite (s : State) (v : Nat) (val : Word) : State :=
  if val.bit 1 then s.viFlr v
  else if val.bit 2 then s.masterSet v
  else if (s.vi v).masterEn then s.masterClear v else s

/-- A write of VEC_CTL: a held message leaves once its vector is unmasked. -/
def State.vecCtlWrite (s : State) (v n : Nat) (val : Word) : State :=
  let s1 := s.setReg (emuPage v) (0x208 + 16 * n) (((0 : Word).setBit 32 (val.bit 32)).setField 31 0 (val.field 31 0))
  let x := s1.vi v
  if !val.bit 32 && x.heldVec.contains n then
    (s1.setVi v { x with heldVec := x.heldVec.filter (fun k => k ≠ n) }).viVector v n
  else s1

/-- A write of ATT_CMD.REQ: firmware passes the request to Weir in ATT_REQ (R370); an address that is not 64-byte aligned gives
FORMAT, and a request while one is in progress is refused (R371). -/
def State.attRequest (s : State) (v : Nat) : State :=
  let pg := emuPage v
  if (s.reg pg 0x640).bit 63 then s.refuse pg 0x638
  else if (s.reg pg 0x630).toNat % 64 ≠ 0 then s.setReg pg 0x640 ((0 : Word).setField 55 48 Status.format.code)
  else
    let s1 := s.setReg pg 0x640 ((s.reg pg 0x640).setBit 63 true)
    (s1.setVi v { s1.vi v with reportBusy := true }).barrierSend .host .mgmt 0x26 [v]

/-- A write of HOST_BEAT refreshes the beat (R427). -/
def State.beatWrite (s : State) (v : Nat) (count : Nat) : State :=
  (s.setReg (emuPage v) 0x110 ((0 : Word).setField 31 0 count)).setVi v { s.vi v with beatAt := s.clk.ctl }

/-- What a write of a register of a VI's emulated page does. -/
def State.emuWrite (s : State) (v off : Nat) (val : Word) : State :=
  let pg := emuPage v
  if off = 0x108 then s.handshake pg (val.field 31 0)
  else if off = 0x110 then s.beatWrite v (val.field 31 0)
  else if off = 0x118 then s.controlWrite v val
  else if off = 0x120 ∨ off = 0x128 ∨ off = 0x130 then s.setReg pg off val
  else if off = 0x138 then s.ringCmdTake v val
  else if 0x200 ≤ off ∧ off < 0x600 then
    if off % 16 = 0 then s.setReg pg off val else s.vecCtlWrite v ((off - 0x200) / 16) val
  else if 0x600 ≤ off ∧ off ≤ 0x630 then s.setReg pg off val
  else if off = 0x638 then (if val.bit 0 then s.attRequest v else s)
  else s

/-- The check of the operator page's shadow set: WDOG is at least 40,000 cycles (R429). -/
def State.fwiChecks (s : State) : List (Nat × Bool) := [(0x118, decide ((s.shade fwiPage 0x118).field 31 0 < 40000))]

/-- An access arrives at an emulated page: an armed set of the operator page applies first (R38), and the gate of the core that answers
opens (R33). -/
def State.emuMeet (s : State) (v : Nat) : State := (s.swapFirst fwiPage s.fwiChecks).pageAccess (emuPage v)

/-- A write to an emulated page: firmware answers it; while an update pauses the responder holds up to 16 of a page and drops
any further (R428); while no core serves the group it waits for one or for the responder (R424, R429). -/
def State.emuTake (s : State) (v off : Nat) (val : Word) : State :=
  let t := s.emuMeet v
  if t.fwServes v then (t.count1 .fwi 1).emuWrite v off val
  else if t.fwi.phase = 3 ∧ 16 ≤ (t.vi v).heldWrites.length then t.count1 .fwi 2
  else t.setVi v { t.vi v with heldWrites := (t.vi v).heldWrites ++ [(off, val)] }

/-- The writes that a page holds are applied, in order. -/
def State.heldApply (s : State) (v : Nat) : State :=
  let l := (s.vi v).heldWrites
  l.foldl (fun t e => (t.count1 .fwi 1).emuWrite v e.1 e.2) (s.setVi v { s.vi v with heldWrites := [] })

/-- Firmware resumes: journals are carried on and held writes applied, for every group that it now serves. -/
def State.fwResume (s : State) (again : Bool) : State :=
  let s1 := s.fwi.groups.foldl (fun t e => if t.fwServes e.1 then t.journalRun e.1 again e.2.journal.length else t) s
  (s.vis.filter (fun e => decide (e.2.heldWrites ≠ []))).foldl (fun t e => if t.fwServes e.1 then t.heldApply e.1 else t) s1

/-- A host's write to a VI's page. -/
def State.viPageWrite (s : State) (v off : Nat) (val : Word) : State :=
  s.pageGate (emuPage v) (if (emuPage v).exist then s.emuTake v off val else s)

/-- DRV_ABI_WRITE (R425): a VI's page, or the operator page. -/
def execDrvAbiWrite (vi : Option Nat) (version : Nat) (s : State) : Host.Outcome State Fault Refusal :=
  .next (match vi with
    | some v => s.viPageWrite v 0x108 (Word.of version)
    | none => s.pageGate fwiPage ((s.pageAccess fwiPage).handshake fwiPage (version % 2 ^ 32)))

/-- A write of the operator page's HOST_BEAT: fetching from host-resident P0 rings goes on after a lapse. -/
def State.opBeat (s : State) (count : Nat) : State :=
  let s1 := s.setReg fwiPage 0x110 ((0 : Word).setField 31 0 count)
  { s1 with fwi := { s1.fwi with opBeatAt := s.clk.ctl, opLapsed := false } }

/-- HOST_BEAT_WRITE (R427). -/
def execHostBeatWrite (vi : Option Nat) (count : Nat) (s : State) : Host.Outcome State Fault Refusal :=
  .next (match vi with
    | some v => s.viPageWrite v 0x110 (Word.of count)
    | none => s.pageGate fwiPage ((s.pageAccess fwiPage).opBeat count))

/-- BEAT_LAPSE (R427): the beat of an ENABLED VI, or of the operator page, has not been refreshed in time. -/
def execBeatLapse (vi : Option Nat) (s : State) : Host.Outcome State Fault Refusal :=
  .next (match vi with
    | some v =>
      let x := s.vi v
      if x.beatTo ≠ 0 ∧ x.state = .enabled ∧ x.beatAt + x.beatTo * 65536 ≤ s.clk.ctl then
        (s.setVi v { x with state := .orphaned }).count1 .fwi 3
      else s
    | none =>
      if s.fwi.opBeatTo ≠ 0 ∧ s.fwi.opLapsed = false ∧ s.fwi.opBeatAt + s.fwi.opBeatTo * 65536 ≤ s.clk.ctl then
        ({ s with fwi := { s.fwi with opLapsed := true } } : State).count1 .fwi 3
      else s)

/-- The word of CONTROL with MASTER_EN and FLR. -/
def controlWord (master flr : Bool) : Word := ((0 : Word).setBit 2 master).setBit 1 flr

/-- VI_MASTER_CLEAR (R70). -/
def execViMasterClear (vi : Nat) (s : State) : Host.Outcome State Fault Refusal :=
  .next (s.viPageWrite vi 0x118 (controlWord false false))

/-- VI_MASTER_SET (R71). -/
def execViMasterSet (vi : Nat) (s : State) : Host.Outcome State Fault Refusal :=
  .next (s.viPageWrite vi 0x118 (controlWord true false))

/-- VI_FLR (R70). -/
def execViFlr (vi : Nat) (s : State) : Host.Outcome State Fault Refusal :=
  .next (s.viPageWrite vi 0x118 (controlWord (s.vi vi).masterEn true))

/-- RING_CMD (R424). -/
def execRingCmd (vi op ring : Nat) (s : State) : Host.Outcome State Fault Refusal :=
  .next (s.viPageWrite vi 0x138 (rngCmdWord op ring))

/-- ATT_REPORT_REQUEST (R370). -/
def execAttReportRequest (vi : Nat) (s : State) : Host.Outcome State Fault Refusal :=
  .next (s.viPageWrite vi 0x638 1)

/-- EMULATED_ACCESS_TIMEOUT (R424): the hardware responder answers a read with all ones, or drops the oldest write that waits. -/
def execEmulatedAccessTimeout (vi : Nat) (write : Bool) (s : State) : Host.Outcome State Fault Refusal :=
  .next (if (emuPage vi).exist && decide (s.fwi.phase ≠ 3) then
      let s1 := s.count1 .fwi 2
      if write then s1.setVi vi { s1.vi vi with heldWrites := (s1.vi vi).heldWrites.drop 1 }
      else s1.emit (.readReply none (emuPage vi).offset (~~~0))
    else s)

/-! ## Live update (R428) -/

/-- Set UPD_STAT.PHASE. -/
def State.setUpdPhase (s : State) (n : Nat) : State :=
  let s1 : State := { s with fwi := { s.fwi with phase := n } }
  s1.setReg fwiPage 0x168 ((s1.reg fwiPage 0x168).setField 63 61 n)

/-- An update ends: its status, its phase, and the command. -/
def State.updEnd (s : State) (st : Status) : State :=
  let s1 := s.setUpdPhase 0
  let s2 : State := { s1 with fwi := { s1.fwi with newImages := none, saved := [] } }
  (s2.setReg fwiPage 0x168 ((s2.reg fwiPage 0x168).setField 55 48 st.code)).cmdEnd .fwi 1 0 st

/-- UPD_STAT.PAUSE takes the length of the pause that now ends. -/
def State.updPause (s : State) : State :=
  s.setReg fwiPage 0x168 ((s.reg fwiPage 0x168).setField 31 0 (s.clk.ctl - s.fwi.pauseAt))

/-- The control cores that are not out start again, from their reset pc. -/
def State.ctlRestart (s : State) : State :=
  (List.range 16).foldl (fun t i =>
    let n := 64 + i
    if t.coreOut n then t
    else t.setCore n { Core.started with crashes := (t.core n).crashes, crashAt := (t.core n).crashAt, wdogAt := t.clk.ctl }) s

/-- CONTROL of a VI's page, with the VI's state (R52). -/
def viControl (x : Vi) : Word :=
  ((0 : Word).setField 63 61 (match x.state with
    | .unbound => 0 | .bound => 1 | .enabled => 2 | .resetting => 3 | .quiesced => 4 | .orphaned => 5)).setBit 2 x.masterEn

/-- Every HS_OK is cleared (R428). -/
def State.handshakesLost (s : State) : State :=
  let s1 := (List.range 4096).foldl (fun t v =>
    if (t.reg (emuPage v) 0x108).bit 63 then t.setHandshake (emuPage v) false ((t.reg (emuPage v) 0x108).field 31 0) else t) s
  if (s1.reg fwiPage 0x108).bit 63 then s1.setHandshake fwiPage false ((s1.reg fwiPage 0x108).field 31 0) else s1

/-- Whether the quad-SPI peripheral is gated (R446). -/
def State.spiOff (s : State) : Bool := !(s.reg Blk.clk.page 0x148).bit 2

/-- Phase 1 ends: the images of the bank are accepted, or the update ends with INTEGRITY, or, with quad-SPI gated, STATE. -/
def State.updLoaded (s : State) : State :=
  if s.spiOff then s.updEnd .state
  else match s.mainImages (decide (s.fwi.bank = 1)) with
  | some x => ({ s with fwi := { s.fwi with newImages := some x } } : State).setUpdPhase 2
  | none => s.updEnd .integrity

/-- Phase 2 ends: fetching stops, and the responder reads what was saved. -/
def State.updSaved (s : State) : State :=
  ({ s with fwi := { s.fwi with pauseAt := s.clk.ctl, saved := s.vis.map (fun e => (e.1, viControl e.2)) } } : State).setUpdPhase 3

/-- Phase 3 ends: the new images run, and apply the writes that were held first. -/
def State.updReady (s : State) : State :=
  match s.fwi.newImages with
  | some (r, m) =>
    let s1 : State := { s with
      trs := { s.trs with runtime := some r, monitor := some m, abiVersion := (Config.abiVersion r.body).toNat },
      fwi := { s.fwi with oldAbi := s.trs.abiVersion } }
    let s2 := s1.setReg trsPage 0x108 (((s1.reg trsPage 0x108).setField 31 16 r.svn).setField 15 0 m.svn)
    ((s2.updPause.ctlRestart).setUpdPhase 4).fwResume false
  | none => s

/-- Phase 4 ends: the restart copy holds the new images, and a new MAJOR clears every HS_OK. -/
def State.updResumed (s : State) : State :=
  let s1 : State := { s with fwi := { s.fwi with restartCopy := match s.fwi.newImages with
    | some x => some x
    | none => s.fwi.restartCopy } }
  let s2 := if s.trs.abiVersion / 65536 = s.fwi.oldAbi / 65536 then s1 else s1.handshakesLost
  s2.updEnd .ok

/-- UPDATE_PHASE_END (R428). The new image's report that it cannot read the handover FORMAT leaves the old firmware running. -/
def execUpdatePhaseEnd (ev : UpdEvent) (s : State) : Host.Outcome State Fault Refusal :=
  .next (match ev with
    | .loaded => if s.fwi.phase = 1 then s.updLoaded else s
    | .saved => if s.fwi.phase = 2 then s.updSaved else s
    | .formatBad => if s.fwi.phase = 2 then s.updEnd .version else s
    | .ready => if s.fwi.phase = 3 then s.updReady else s
    | .resumed => if s.fwi.phase = 4 then s.updResumed else s)

/-- UPDATE_PAUSE_TIMEOUT (R428): the old images start again and resume from the handover area. -/
def execUpdatePauseTimeout (s : State) : Host.Outcome State Fault Refusal :=
  .next (if s.fwi.phase = 3 ∧ s.fwi.pauseAt + 4000000 ≤ s.clk.ctl then
      ((s.updPause.ctlRestart).updEnd .timeout).fwResume false
    else s)

/-! ## Images of a VI (R432); the spec leaves their format to firmware -/

/-- The rings of a VI, by number. -/
def State.viRings (s : State) (v : Nat) : List (Nat × Ring) :=
  s.rings.filter (fun e => e.2.setUp && e.2.viEn && decide (e.2.vi = v))

/-- The image of a VI: a header with the number of rings, five words a ring, the vector table, the beat. -/
def State.viImage (s : State) (v : Nat) : List Word :=
  let rs := s.viRings v
  [((0 : Word).setField 63 32 0x56494558).setField 31 0 rs.length] ++
  rs.flatMap (fun e => [Word.of e.1, e.2.ctx0, e.2.ctx1, e.2.ctx2, ((0 : Word).setField 63 32 e.2.prod).setField 31 0 e.2.cons]) ++
  (List.range 64).flatMap (fun i => [s.reg (emuPage v) (0x200 + 16 * i), s.reg (emuPage v) (0x208 + 16 * i)]) ++
  [((0 : Word).setField 63 32 (s.vi v).beatTo).setField 31 0 ((s.reg (emuPage v) 0x110).field 31 0)]

/-- The rings that an image names. -/
def imageRings (ws : List Word) : List (Nat × Ring) :=
  (List.range ((wordAt ws 0).field 31 0)).map (fun i =>
    let w (k : Nat) : Word := wordAt ws (1 + 5 * i + k)
    ((w 0).toNat, { ringOfCtx (w 1) (w 2) (w 3) with prod := (w 4).field 63 32, cons := (w 4).field 31 0 }))

/-- Whether an image's header or one of its rings is ill-formed. -/
def viImageBad (ws : List Word) : Bool :=
  decide ((wordAt ws 0).field 63 32 ≠ 0x56494558) || decide (512 < (wordAt ws 0).field 31 0) ||
  (List.range ((wordAt ws 0).field 31 0)).any (fun i =>
    decide (131072 ≤ (wordAt ws (1 + 5 * i)).toNat) ||
    ringFormatBad (wordAt ws (3 + 5 * i)) (ringOfCtx (wordAt ws (2 + 5 * i)) (wordAt ws (3 + 5 * i)) (wordAt ws (4 + 5 * i))))

/-- Words of an image with n rings. -/
def imageWords (n : Nat) : Nat := 1 + 5 * n + 128 + 1

/-- An image is applied to a BOUND VI: its rings DISABLED with their indices, its vector table, its beat. -/
def State.viApply (s : State) (v : Nat) (ws : List Word) : State :=
  let n := (wordAt ws 0).field 31 0
  let s1 := (imageRings ws).foldl (fun t e => (t.discardHeld e.1).setRing e.1 { e.2 with viEn := true, vi := v }) s
  let s2 := (List.range 64).foldl (fun t i =>
    let u := t.setReg (emuPage v) (0x200 + 16 * i) (wordAt ws (1 + 5 * n + 2 * i))
    u.setReg (emuPage v) (0x208 + 16 * i) (wordAt ws (2 + 5 * n + 2 * i) &&& 0x1FFFFFFFF)) s1
  let b := wordAt ws (1 + 5 * n + 128)
  (s2.setReg (emuPage v) 0x110 ((0 : Word).setField 31 0 (b.field 31 0))).setVi v
    { s2.vi v with beatTo := b.field 63 32, beatAt := s.clk.ctl }

/-- VI_EXPORT (R432). -/
def State.viExport (s : State) (v a : Nat) : Status × State :=
  let ws := s.viImage v
  match firstFail [(decide (a % 64 ≠ 0), .format), (!s.ownsHbm 0 a (8 * ws.length), .accessViolation),
      (decide ((s.vi v).state ≠ .quiesced), .state)] with
  | .ok => (.ok, s.setBytes a (wordsBytes ws))
  | st => (st, s)

/-- VI_IMPORT (R432): the checks of the image's content follow those of its address and of the VI's state. -/
def State.viImport (s : State) (v a : Nat) : Status × State :=
  let n := min 512 ((s.word a).field 31 0)
  let ws := s.words a (imageWords n)
  match firstFail [(decide (a % 64 ≠ 0), .format),
      (!s.ownsHbm 0 a 8 || !s.ownsHbm 0 a (8 * imageWords n), .accessViolation),
      (decide ((s.vi v).state ≠ .bound), .state), (decide (s.badIn a (8 * imageWords n) ≠ []), .poisoned), (viImageBad ws, .format),
      ((imageRings ws).any (fun e => decide (s.ownerOf tyRing e.1 = none) || decide (s.ownerOf tyRing e.1 ≠ s.ownerOf tyVi v)),
        .accessViolation),
      ((imageRings ws).any (fun e => decide ((s.ring e.1).state ≠ .disabled)), .state)] with
  | .ok => (.ok, s.viApply v ws)
  | st => (st, s)

/-! ## Device page tables (R430) -/

/-- The leaf tables that firmware gives out: 512 KiB each in the reserved granules of stacks 1 to 7 (DESIGN CHOICE, assumption 90: the
spec names only the kind of granule). -/
def leafAt (i : Nat) : Nat := (192 * (1 + i / 512)) * 0x10000000 + i % 512 * 0x80000

/-- Set the leaf entry of a device virtual address; a missing leaf is given out, zeroed. RESOURCE when none is left. -/
def State.dptPut (s : State) (q va : Nat) (e : Word) : Status × State :=
  match (s.part q).dptRoot with
  | none => (.state, s)
  | some root =>
    let ra := root + 8 * (va / 2 ^ 32)
    let r := s.word ra
    if r.bit 63 then (.ok, (s.setWord (r.field 47 16 * 65536 + 8 * (va / 65536 % 65536)) e).dptChanged q)
    else if e = 0 then (.ok, s)
    else if 3584 ≤ s.fwi.leaves then (.resource, s)
    else
      let l := leafAt s.fwi.leaves
      let s1 : State := { s with fwi := { s.fwi with leaves := s.fwi.leaves + 1 } }
      let s2 := (s1.zero l 0x80000).setWord ra (((0 : Word).setBit 63 true).setField 47 16 (l / 65536))
      (.ok, (s2.setWord (l + 8 * (va / 65536 % 65536)) e).dptChanged q)

/-- Whether a partition has an ACTIVE MODE 1 region. -/
def State.mode1Active (s : State) (q : Nat) : Bool :=
  match (s.part q).rmaTable with
  | some (base, n) => (List.range n).any (fun i =>
      let e := s.words (base + 64 * i) 8
      decide (gState e = 1) && decide (gMode e = 1))
  | none => false

/-- DPT_SET: the root of a partition's device page table. -/
def State.dptSet (s : State) (q a : Nat) : Status × State :=
  match firstFail [(decide (a % 64 ≠ 0), .format), (!s.ownsHbm 0 a 0x80000, .accessViolation), (s.mode1Active q, .state)] with
  | .ok => (.ok, (s.setPart q { s.part q with dptRoot := some a }).dptChanged q)
  | st => (st, s)

/-- MAP, UNMAP, INVALIDATE: the entry to store, after the checks of R39. -/
def State.dptCmd (s : State) (op q : Nat) (va a : Word) : Status × State :=
  let e : Word := match op with
    | 5 => ((0 : Word).setBit 63 true).setField 47 16 (a.field 47 16)
    | 6 => 0
    | _ => (0 : Word).setBit 62 true
  match firstFail [
      (decide (2 ^ 48 ≤ va.toNat) || (decide (op = 5) && decide (a.toNat % 65536 ≠ 0)), .format),
      (decide (op = 5) && !s.ownsHbm q a.toNat 65536, .accessViolation),
      ((s.part q).dptRoot.isNone, .state)] with
  | .ok => s.dptPut q va.toNat e
  | st => (st, s)

/-- SET_BEAT (R432): the beat timer of a VI or of the operator page starts with its new limit. -/
def State.setBeat (s : State) (opr : Bool) (v : Nat) (lim : Nat) : Status × State :=
  if opr then (.ok, { s with fwi := { s.fwi with opBeatTo := lim, opBeatAt := s.clk.ctl, opLapsed := false } })
  else if (s.vi v).state = .unbound then (.state, s)
  else (.ok, s.setVi v { s.vi v with beatTo := lim, beatAt := s.clk.ctl })

/-! ## FWI commands (R432) -/

/-- Run a word written to FWI.CMD. -/
def fwiRun (val : Word) (s : State) : State :=
  let op := val.field 31 24
  let p := val.field 22 16
  let v := val.field 11 0
  let a := s.reg fwiPage 0x140
  let arg := s.reg fwiPage 0x148
  match op with
  | 1 =>
    if decide (s.fwi.phase ≠ 0) || s.spiOff then s.cmdEnd .fwi op 0 .state
    else (({ s with fwi := { s.fwi with bank := arg.field 0 0 } } : State).setUpdPhase 1).setBusy .fwi true
  | 2 => let r := s.viExport v a.toNat; r.2.cmdEnd .fwi op 0 r.1
  | 3 => let r := s.viImport v a.toNat; r.2.cmdEnd .fwi op 0 r.1
  | 4 => let r := s.dptSet p a.toNat; r.2.cmdEnd .fwi op 0 r.1
  | 5 => let r := s.dptCmd op p arg a; r.2.cmdEnd .fwi op 0 r.1
  | 6 => let r := s.dptCmd op p arg a; r.2.cmdEnd .fwi op 0 r.1
  | 7 => let r := s.dptCmd op p arg a; r.2.cmdEnd .fwi op 0 r.1
  | 8 => let r := s.setBeat (val.bit 12) v (arg.field 31 0); r.2.cmdEnd .fwi op 0 r.1
  | _ => s.cmdEnd .fwi op 0 .format

/-- The word of an FWI command. -/
def fwiWord (op p v : Nat) (opr : Bool) : Word :=
  ((((0 : Word).setField 31 24 op).setField 22 16 p).setBit 12 opr).setField 11 0 v

/-- UPDATE (R428). -/
def execUpdate (s : State) : Host.Outcome State Fault Refusal := .next (s.takeCmd .fwi (fwiWord 1 0 0 false) fwiRun)

/-- VI_EXPORT (R432). -/
def execViExport (vi : Nat) (s : State) : Host.Outcome State Fault Refusal := .next (s.takeCmd .fwi (fwiWord 2 0 vi false) fwiRun)

/-- VI_IMPORT (R432). -/
def execViImport (vi : Nat) (s : State) : Host.Outcome State Fault Refusal := .next (s.takeCmd .fwi (fwiWord 3 0 vi false) fwiRun)

/-- DPT_SET (R430). -/
def execDptSet (part : Nat) (s : State) : Host.Outcome State Fault Refusal := .next (s.takeCmd .fwi (fwiWord 4 part 0 false) fwiRun)

/-- MAP (R430). -/
def execMap (part : Nat) (s : State) : Host.Outcome State Fault Refusal := .next (s.takeCmd .fwi (fwiWord 5 part 0 false) fwiRun)

/-- UNMAP (R432). -/
def execUnmap (part : Nat) (s : State) : Host.Outcome State Fault Refusal := .next (s.takeCmd .fwi (fwiWord 6 part 0 false) fwiRun)

/-- INVALIDATE (R430). -/
def execInvalidate (part : Nat) (s : State) : Host.Outcome State Fault Refusal :=
  .next (s.takeCmd .fwi (fwiWord 7 part 0 false) fwiRun)

/-- SET_BEAT (R432). -/
def execSetBeat (opr : Bool) (vi : Nat) (s : State) : Host.Outcome State Fault Refusal :=
  .next (s.takeCmd .fwi (fwiWord 8 0 vi opr) fwiRun)

/-! ## Control core crashes (R429) -/

/-- The ring groups that a core serves and that do not move already. -/
def State.groupsOn (s : State) (n : Nat) : List Nat :=
  (List.range 4097).filter (fun g => decide ((s.ringGroup g).core = n) && !s.fwi.moving.contains g)

/-- A control core crashes: it is reset, its groups are to move, and a second crash within one second of the first marks it out. -/
def State.coreCrash (s : State) (n : Nat) : State :=
  let c := s.core n
  let again := decide (c.crashes ≠ 0) && decide (s.clk.ctl < c.crashAt + 2000000000)
  let w := (s.reg fwiPage 0x160).setBit (32 + (n - 64)) true
  let s1 : State := { s with fwi := { s.fwi with
    moving := s.fwi.moving ++ s.groupsOn n, toRestart := if again then s.fwi.toRestart else s.fwi.toRestart ++ [n] } }
  let s2 := s1.setCore n { Core.reset with crashes := c.crashes + 1, crashAt := if again then c.crashAt else s.clk.ctl }
  let s3 := ((s2.setReg fwiPage 0x160 (if again then w.setBit (48 + (n - 64)) true else w)).setIntBit fwiPage 9).count1 .fwi 4
  if again then (s3.setIntBit fwiPage 10).err .fwi 2 else s3

/-- Whether a number is that of a control core that runs. -/
def State.ctlRuns (s : State) (n : Nat) : Bool := decide (64 ≤ n) && decide (n < 80) && !(s.core n).halted

/-- CTL_WATCHDOG_EXPIRE (R429): possible once WDOG cycles have passed since the core started. -/
def execCtlWatchdogExpire (core : Nat) (s : State) : Host.Outcome State Fault Refusal :=
  .next (if s.ctlRuns core && decide ((s.core core).wdogAt + (s.reg fwiPage 0x118).field 31 0 ≤ s.clk.ctl) then s.coreCrash core else s)

/-- TCM_UNCORRECTABLE (R429). -/
def execTcmUncorrectable (core : Nat) (s : State) : Host.Outcome State Fault Refusal :=
  .next (if s.ctlRuns core then s.coreCrash core else s)

/-- RING_GROUP_MOVE (R429): another running core takes a group of a crashed core, reads its journal, and serves it. -/
def execRingGroupMove (group dst : Nat) (s : State) : Host.Outcome State Fault Refusal :=
  .next (if s.fwi.moving.contains group && s.ctlRuns dst && decide ((s.ringGroup group).core ≠ dst) then
      let s1 : State := { s with fwi := { s.fwi with moving := s.fwi.moving.filter (fun g => g ≠ group) } }
      let s2 := s1.setRingGroup group { s1.ringGroup group with core := dst }
      if s2.fwServes group then
        let s3 := s2.journalRun group true (s2.ringGroup group).journal.length
        if group < 4096 ∧ (s3.vi group).heldWrites ≠ [] then s3.heldApply group else s3
      else s2
    else s)

/-- CORE_RESTART (R429): a crashed core that is not out starts once from the restart copy. -/
def execCoreRestart (core : Nat) (s : State) : Host.Outcome State Fault Refusal :=
  .next (if s.fwi.toRestart.contains core && s.fwi.restartCopy.isSome then
      let c := s.core core
      let s1 : State := { s with fwi := { s.fwi with toRestart := s.fwi.toRestart.filter (fun n => n ≠ core) } }
      s1.setCore core { Core.started with crashes := c.crashes, crashAt := c.crashAt, wdogAt := s.clk.ctl }
    else s)

/-! ## Gates that open (R443, R444, R447) -/

/-- What waits for clusters whose gates are open goes on: packets at the transport's entry, and writes that a control core serves. -/
def State.gateTaken (s : State) : State := s.gatedTake.fwResume false

/-- CLUSTER_WAKE (R443, R447): work has arrived for a closed cluster; a held cluster stays closed, and one in retention waits for
its wake. What waits for the cluster is taken once its gate is open. -/
def execClusterWake (cluster : Nat) (s : State) : Host.Outcome State Fault Refusal :=
  let g := s.gate cluster
  .next (if decide (24 < cluster) || g.held || g.retained || !s.trs.hostPower then s
    else (if g.isOpen then s else s.wakeCluster cluster).gateTaken)

/-- HOLD: refused with STATE while a unit is busy (R444). -/
def State.hold (s : State) (c : Nat) : Status × State :=
  if 24 < c then (.format, s)
  else if s.clusterBusy c then (.state, s.count1 .clk 8)
  else
    let s1 := if (s.gate c).isOpen then s.gateClose c else s
    (.ok, (s1.setGate c { s1.gate c with held := true, waking := false }).clockMsg [1, c])

/-- RELEASE: the cluster returns to its MODE, and what waited at its entry is arriving work (R444). -/
def State.clkRelease (s : State) (c : Nat) : Status × State :=
  if 24 < c then (.format, s)
  else if !(s.gate c).held then (.state, s)
  else
    let s1 := (s.setGate c { s.gate c with held := false }).clockMsg [2, c]
    let work := s1.forceOn c || (decide (c = 20) && !s1.mlr.gated.isEmpty)
    (.ok, if work && !(s1.gate c).retained && s1.trs.hostPower then (s1.wakeCluster c).gateTaken else s1)

/-- Run a word written to CLK.CMD (R452). -/
def clkRun (val : Word) (s : State) : State :=
  let c := val.field 4 0
  let op := val.field 31 24
  let r := if op = 1 then s.hold c else if op = 2 then s.clkRelease c else (.format, s)
  r.2.cmdEnd .clk op 0 r.1

/-- The word of a CLK command. -/
def clkWord (op cluster : Nat) : Word := ((0 : Word).setField 31 24 op).setField 4 0 cluster

/-- HOLD (R444). -/
def execHold (cluster : Nat) (s : State) : Host.Outcome State Fault Refusal := .next (s.takeCmd .clk (clkWord 1 cluster) clkRun)

/-- CLK_RELEASE (R444). -/
def execClkRelease (cluster : Nat) (s : State) : Host.Outcome State Fault Refusal :=
  .next (s.takeCmd .clk (clkWord 2 cluster) clkRun)

end Sys2Proof.Machine
end

