-- ==== Sys2Proof/Machine/Access.lean ====
section
/-! DEFINITION. Accesses to register pages: what a register reads as, what a write does, the shadows, and the swap request
(02_register_pages.md, R20 to R36, R39). -/

namespace Sys2Proof

/-! ## What a page's layout fixes -/

/-- PG_ID. -/
def Page.idWord (pg : Page) : Word :=
  ((((0 : Word).setField 63 48 pg.blk.code).setField 47 40 1).setField 31 16 pg.num).setField 15 0 pg.size

/-- PG_CAP. CAPTURE is 0 on a page with no swap point, instance 1 of KVS, ATT and CKP among them (DESIGN CHOICE: the spec leaves it open,
assumption 139). -/
def Page.capWord (pg : Page) : Word :=
  ((((0 : Word).setBit 63 pg.shadow).setBit 62 (pg.shadow && pg.blk.capture)).setField 55 48 pg.clock).setField 47 40 pg.ctrN

/-- Whether an offset is the shadow of a staged register of a page (R25). -/
def Page.isShadow (pg : Page) (off : Nat) : Bool :=
  decide (0x800 ≤ off) && decide (off < 0xF00) && pg.shadow &&
  (match pg.regAt (off - 0x700) with
   | some d => d.staged
   | none => false)

/-- Whether an offset is the live offset of a staged register of a page. -/
def Page.isLive (pg : Page) (off : Nat) : Bool :=
  pg.shadow && (match pg.regAt off with
   | some d => d.staged
   | none => false)

/-- The number of error sources of a page, as its chapter tables them. -/
def Page.errN (pg : Page) : Nat :=
  if pg.emulated then 0 else
  match pg.blk with
  | .dev | .vif => 0
  | .prt | .ept => 2
  | .hlk | .dlk => 9
  | .rng | .mlr | .pkt | .pmu | .fwi | .sch | .num | .xrd | .cph => 3
  | .syn | .rma | .kvs | .att | .ckp | .sto | .flt => 4
  | .clk => 5
  | .trs | .pwr => 7

/-- A register word after a write reaches it: RW bits take the written value, W1C bits that are written 1 clear, W1S bits set
(R7). -/
def RegDef.written (d : RegDef) (old v m : Word) : Word :=
  (((old &&& ~~~(m &&& d.rw)) ||| (v &&& m &&& d.rw)) &&& ~~~(v &&& m &&& d.w1c)) ||| (v &&& m &&& d.w1s)

end Sys2Proof

namespace Sys2Proof.Machine

/-! ## Work in progress (R24, R38) -/

/-- The units of work of a capture-model page in progress that record no generation: attention requests, checkpoint steps,
storage commands from their fetch on, converting descriptors. -/
def State.unitsNow (s : State) (pg : Page) : List Nat :=
  match pg.blk with
  | .att => s.att.reqs.map (fun r => r.id)
  | .ckp => s.ckp.steps.map (fun x => x.sid)
  | .sto => s.sto.cmds.map (fun c => c.order)
  | .num => (s.work.filter (fun w => decide (w.phase ≠ .done) &&
      (decide (dEngine w.words = 4) || decide (dEngine w.words = 6)))).map (fun w => w.ring * 2 ^ 32 + w.idx)
  | .dev | .prt | .vif | .hlk | .dlk | .rng | .syn | .mlr | .rma | .ept | .pkt | .pmu | .fwi | .sch | .xrd | .kvs | .cph
  | .trs | .clk | .pwr | .flt => []

/-- Whether what leaves a port is a Millrace packet. -/
def Out.isMillrace (o : Out) : Bool :=
  match o with
  | .millrace _ _ _ _ _ _ => true
  | _ => false

/-- The generations of the Millrace packets in progress: received and not placed, held for a context, region or page, or built and not
transmitted. -/
def State.mlrGens (s : State) : List Nat :=
  s.mlr.conns.flatMap (fun e => e.2.rxPkts.map (fun r => r.gen)) ++ s.mlr.held.map (fun h => h.gen) ++
  s.sch.leaves.flatMap (fun e => (e.2.q.filter (fun f => f.body.isMillrace)).map (fun f => f.gen))

/-- The generations that the units of work in progress of a capture-model page recorded when they started. -/
def State.gensNow (s : State) (pg : Page) : List Nat :=
  let started (e : Nat) : List Nat :=
    (s.work.filter (fun w => decide (w.phase ≠ .done) && decide (dEngine w.words = e))).map (fun w => w.gen)
  match pg.blk with
  | .rng => s.work.map (fun w => w.rgen) ++ s.rings.flatMap (fun e => e.2.fetched.map (fun d => d.gen))
  | .pkt => ((s.pkt.newQ ++ s.pkt.recQ).flatMap (fun e => e.2.filter (fun f => f.version.isSome))).map (fun f => f.gen)
  | .xrd => (s.xrd.groups.filter (fun e => decide (e.2.state = .active))).map (fun e => e.2.gen)
  | .mlr => s.mlrGens
  | .kvs => started 4
  | .cph => started 8
  | .num => started 9
  | .dev | .prt | .vif | .hlk | .dlk | .syn | .rma | .ept | .pmu | .fwi | .sch | .att | .ckp | .sto | .trs | .clk
  | .pwr | .flt => []

/-- SWAP_STAT.PREV_HELD (R38): work started under the previous generation is still in progress. -/
def State.prevHeld (s : State) (pg : Page) : Bool :=
  pg.blk.capture &&
  ((s.gensNow pg).any (fun g => decide (g ≠ s.applied pg)) ||
   (s.unitsNow pg).any (fun u => (Tab.get [] s.prev pg.dirIndex).contains u))

/-- Whether the unit of work of a boundary-model page is in progress across steps: a PRT command, a report of Weir's, the exit
from the safe state. The units of the other such pages begin and end within one step. -/
def State.unitOpen (s : State) (pg : Page) : Bool :=
  match pg.blk with
  | .prt => s.cmdBusy .prt && !(s.entry.any (fun e => decide (e.1 = pg)))
  | .trs => !s.trs.reports.isEmpty
  | .flt => s.flt.exiting
  | .dev | .vif | .hlk | .dlk | .rng | .syn | .mlr | .rma | .ept | .pkt | .pmu | .fwi | .sch | .num | .xrd | .kvs | .att
  | .ckp | .sto | .cph | .clk | .pwr => false

/-- PG_STAT.BUSY: the block has a unit of work in progress. -/
def State.pageBusy (s : State) (pg : Page) : Bool :=
  s.unitOpen pg || !(s.gensNow pg).isEmpty || !(s.unitsNow pg).isEmpty

/-! ## Reading the header and the directory (R20, R21, R24) -/

/-- A register of the common header. -/
def State.readHead (s : State) (pg : Page) (off : Nat) : Word :=
  match off with
  | 0x00 => pg.idWord
  | 0x08 => pg.capWord
  | 0x18 => ((s.reg pg 0x18).setBit 1 (s.pageContained pg)).setBit 0 (s.pageBusy pg)
  | 0x28 => (s.reg pg 0x28).setBit 1 (s.prevHeld pg)
  | 0x10 | 0x30 | 0x38 | 0x48 => s.reg pg off
  | 0x40 => s.errStat pg
  | _ => 0

/-- A word of the page directory (R20, R21). -/
def dirWord (off : Nat) : Word :=
  if off = 0 then ((0 : Word).setField 63 48 1).setField 31 0 dirEntries
  else if 0x40 ≤ off ∧ off < 0x40 + 8 * dirEntries then
    match Page.ofDir ((off - 0x40) / 8) with
    | some pg => (((0 : Word).setField 63 48 pg.blk.code).setField 47 32 pg.num).setField 28 0 pg.offset
    | none => 0
  else 0

/-! ## Reading the blocks' own computed registers -/

/-- PRT: GUARANTEE, PSTAT and PWAYS. -/
def State.readPrt (s : State) (off : Nat) : Word :=
  if off = 0x128 then s.guarantee
  else if 0x1000 ≤ off then
    let p := (off - 0x1000) / 16
    if off % 16 = 8 then (s.part p).ways.setWidth 64
    else
      let st := match (s.part p).state with
        | .free => 0 | .building => 1 | .active => 2 | .draining => 3 | .scrubbing => 4
      let nVi := ((List.range 4096).filter (fun v => s.owns p tyVi v)).length
      let nScr := (s.scrubs.filter (fun x => decide (x.ty = tyGranule) && decide (x.giver = some p))).length
      ((((0 : Word).setField 63 61 st).setField 47 32 nVi).setField 31 16 nScr).setField 15 0
        (s.gran.filter (fun e => decide (e.2 = .owned p))).length
  else s.reg prtPage off

/-- VIF: STATE and LOG_BASE of the VI that SEL names. -/
def State.readVif (s : State) (off : Nat) : Word :=
  let v := (s.reg vifPage 0x120).field 11 0
  let x := s.vi v
  if off = 0x128 then
    let st := match x.state with
      | .unbound => 0 | .bound => 1 | .enabled => 2 | .resetting => 3 | .quiesced => 4 | .orphaned => 5
    (((((((0 : Word).setField 63 61 st).setBit 60 (decide (x.logSize ≠ 0))).setBit 59 x.logOvf).setField 51 32 x.pasid).setField
      30 24 ((s.ownerOf tyVi v).getD 0))).setField 12 0 (s.reads.filter (fun r => decide (r.vi = some v))).length
  else if off = 0x130 then Word.of x.logBase
  else s.reg vifPage off

/-- LINK_STAT.LSTATE: L0, or in L1 the substate that is enabled and, for L1.2, entered (R77, R79). -/
def State.linkState (s : State) : Nat :=
  if !s.linkL1 then 0 else if s.hlk.l12 then 3 else if s.hlk.cfg.l11 then 2 else 1

/-- HLK: LINK_STAT with PF0_BME and LSTATE, TAGS, VEC_MAP by VEC_SEL. -/
def State.readHlk (s : State) (off : Nat) : Word :=
  if off = 0x108 then ((s.reg hlkPage 0x108).setBit 59 s.hlk.bme).setField 45 44 s.linkState
  else if off = 0x118 then
    ((0 : Word).setField 30 16 (s.quar.filter (fun q => decide (q.port = 0))).length).setField 12 0 (s.outstanding 0)
  else if off = 0x130 then Word.of (Tab.get 0 s.hlk.vecMap (s.reg hlkPage 0x128).toNat)
  else s.reg hlkPage off

/-- The code of a port's state in DLK.STAT (R83). -/
def DState.code : DState → Nat
  | .off => 0 | .empty => 1 | .reset => 2 | .training => 3 | .enumerating => 4 | .ready => 5 | .frozen => 6 | .held => 7

/-- DLK: STAT. -/
def State.readDlk (s : State) (n off : Nat) : Word :=
  if off = 0x118 then
    let d := s.dport n
    (((((((0 : Word).setField 63 61 d.state.code).setBit 60 d.up).setBit 59 d.flit).setField 58 56 d.speed).setField 55 48
      d.width).setField 47 40 d.trainFails).setField 39 32 d.result
  else s.reg (dlkPage n) off

/-- EPT: STAT and STAMP. -/
def State.readEpt (s : State) (n off : Nat) : Word :=
  if off = 0x128 then ((0 : Word).setBit 63 (s.eptPresent n)).setBit 62 (s.ept n).up
  else if off = 0x130 then Word.of (s.stamp n)
  else s.reg (eptPage n) off

/-- PKT: VER_STAT and SLOT_STAT. -/
def State.readPkt (s : State) (off : Nat) : Word :=
  if off = 0x160 then
    (((((0 : Word).setField 63 48 s.curVersion).setField 47 32 (if s.building.isSome then s.newest else 0)).setField 31 16
      s.oldest).setBit 15 s.building.isSome).setBit 14 (decide (s.pkt.sweeps ≠ 0))
  else if 0x180 ≤ off ∧ off < 0x1C0 then
    let x := s.slot ((off - 0x180) / 8)
    let st := match x.state with
      | .free => 0 | .building => 1 | .current => 2 | .draining => 3
    (((0 : Word).setField 63 62 st).setField 47 32 x.version).setField 23 0 x.refs
  else s.reg pktPage off

/-- Fixed counter i of a core (R417): CYCLES and SLOTS from the cycles that its cluster runs, and what writes gave them; RETIRED as
counted. -/
def State.fixedCtr (s : State) (n i : Nat) : Word :=
  let c := s.core n
  let cyc := s.cyc (n / 8)
  match i with
  | 0 => Word.of cyc + c.cycOff
  | 1 => Tab.get 0 c.sys 0x011
  | _ => Word.of (cyc * (if n < 64 then 4 else 2)) + c.slotOff

/-- PMU: the core's fixed counters and STATE (R421). -/
def State.readPmu (s : State) (n off : Nat) : Word :=
  if 0x100 ≤ off ∧ off ≤ 0x110 then s.fixedCtr n ((off - 0x100) / 8)
  else if off = 0x118 then
    let c := s.core n
    let l := match c.level with
      | .u => 0 | .k => 1 | .m => 2
    (((0 : Word).setField 63 62 l).setBit 61 c.idle).setBit 60 (!(s.gate (n / 8)).isOpen)
  else s.reg ⟨.pmu, n⟩ off

/-- FWI and the emulated pages: ABI, HOST_BEAT, CONTROL, IRQ_ROUTE. -/
def State.readFwi (s : State) (pg : Page) (off : Nat) : Word :=
  let v := pg.num - 0x1000
  if off = 0x100 then Word.of s.trs.abiVersion
  else if off = 0x110 then (s.reg pg 0x110).setField 63 32 (if pg.emulated then (s.vi v).beatTo else s.fwi.opBeatTo)
  else if off = 0x118 ∧ pg.emulated = true then
    if s.fwi.phase = 3 then Tab.get 0 s.fwi.saved v else viControl (s.vi v)
  else if off = 0x178 ∧ pg.emulated = false then Word.of (Tab.get 0 s.fwi.irqRoute (s.reg fwiPage 0x170).toNat)
  else s.reg pg off

/-- SCH: BUF_STAT and FLOOR_STAT. -/
def State.readSch (s : State) (off : Nat) : Word :=
  if off = 0x1C8 then
    ((0 : Word).setField 63 32 (s.sch.pnodes.map (fun e => e.2.buf)).sum).setField 31 0 (s.sch.leaves.map (fun e => e.2.depth)).sum
  else if off = 0x1D0 then
    (List.range 16).foldl (fun w n => w.setBit n (decide (s.portRate n < s.floorSum n))) 0
  else s.reg schPage off

/-- XRD: STAT. -/
def State.readXrd (s : State) (off : Nat) : Word :=
  if off = 0x140 then
    let act := s.xrd.groups.filter (fun e => decide (e.2.state = .active))
    (((0 : Word).setField 63 48 act.length).setField 47 32 s.xrd.hwm).setField 20 0
      (act.map (fun e => (e.2.segs.filter (fun g => !g.built)).length * e.2.segElems)).sum
  else s.reg xrdPage off

/-- Whether an HBM address lies on a core die's stacks. -/
def onDie (d a : Nat) : Bool := decide (stack (granule a) / 4 = d)

/-- KVS: STAT of a die. -/
def State.readKvs (s : State) (d off : Nat) : Word :=
  if off = 0x170 then
    let used := (s.kvs.pools.map (fun e => (e.2.refs.filter (fun r => onDie d r.1)).length)).sum
    ((0 : Word).setField 63 32 used).setField 12 0 (s.kvs.retired.filter (onDie d)).length
  else s.reg ⟨.kvs, d⟩ off

/-- ATT: STAT and INBOX_STAT. -/
def State.readAtt (s : State) (d off : Nat) : Word :=
  if off = 0x140 then
    let ks := s.att.reqs.flatMap (fun r => r.chunks)
    let run := ks.filter (fun k => match k with
      | .running u => decide (u / 16 = d)
      | .waiting | .done _ => false)
    let w := ((0 : Word).setField 63 48 run.length).setField 47 32 run.length
    if d = 0 then
      (w.setField 31 16 (s.att.reqs.filter (fun r => r.chunks.all (fun k => decide (k = .waiting)))).length).setField 15 0
        s.att.inboxes.length
    else w
  else if off = 0x150 then
    match Tab.find s.att.inboxes (s.reg attPage 0x148).toNat with
    | some b =>
      ((((((0 : Word).setBit 63 true).setField 62 56 b.part).setField 55 52 b.logSlots).setField 51 47 b.slotLog).setField 46 33
        b.prodSync).setField 31 0 b.taken
    | none => 0
  else s.reg ⟨.att, d⟩ off

/-- CKP: STAT of a die. -/
def State.readCkp (s : State) (d off : Nat) : Word :=
  if off = 0x170 then
    ((0 : Word).setField 63 48 (if d = 0 then s.ckp.steps.length else 0)).setField 31 0 (s.ckp.used.filter (onDie d)).length
  else s.reg ⟨.ckp, d⟩ off

/-- STO: STAT and CACHE_STAT. -/
def State.readSto (s : State) (off : Nat) : Word :=
  if off = 0x178 then ((s.reg stoPage 0x178).setField 47 32 s.sto.ctrls.length).setField 31 0
    (s.sto.cmds.filter (fun c => c.started)).length
  else if off = 0x180 then
    ((0 : Word).setField 63 32 (s.sto.cache.filter (fun c => !c.dirty.isEmpty)).length).setField 31 0 s.sto.cache.length
  else s.reg stoPage off

/-- CPH: STAT. One lane works at a started segment. -/
def State.readCph (s : State) (off : Nat) : Word :=
  if off = 0x160 then
    ((0 : Word).setField 63 56 (s.work.filter (fun w => decide (dEngine w.words = 8) && decide (w.phase = .running))).length).setField
      31 0 s.cph.resident.length
  else s.reg cphPage off

/-- The code of a PLL's state in CLK.PLL_STAT. -/
def PllState.code : PllState → Nat
  | .off => 0 | .locking => 1 | .testing => 2 | .stable => 3 | .failed => 4

/-- CLK: REFIN_STAT, PLL_STAT, SW_STAT, GATE_STAT. -/
def State.readClk (s : State) (off : Nat) : Word :=
  let pg := Blk.clk.page
  if off = 0x100 then (s.reg pg 0x100).setBit 63 s.cg.refinField
  else if off = 0x110 then
    let n := (s.reg pg 0x108).toNat
    let p := s.pll n
    if pllExists n then
      (((((((0 : Word).setField 63 61 p.state.code).setField 60 58 p.run).setBit 57
        (pllCore n && p.running && decide (p.mult < (s.pllCtl n).field 47 40))).setField 47 40 p.mult).setField 39 32
        p.fails)).setField 31 0 p.count
    else 0
  else if off = 0x118 then
    ((((s.reg pg 0x118).setBit 62 s.cg.mux1.busy).setBit 61 s.cg.mux0.busy).setBit 1 s.cg.mux1.used).setBit 0 s.cg.mux0.used
  else if off = 0x128 then
    let c := (s.reg pg 0x120).toNat
    let g := s.gate c
    if c ≤ 24 then
      ((((0 : Word).setBit 63 g.isOpen).setBit 62 g.held).setBit 61 (s.clusterBusy c)).setField 31 0 g.opens
    else 0
  else s.reg pg off

/-- PWR: THERM_STAT. -/
def State.readPwr (s : State) (off : Nat) : Word :=
  if off = 0x158 then
    let n := (s.reg Blk.pwr.page 0x150).toNat
    if n = 15 then 0
    else ((0 : Word).setField 63 48 (BitVec.ofInt 16 (Tab.get 0 s.pwr.temps n)).toNat).setField 47 40
      (BitVec.ofInt 8 (Tab.get 0 s.pwr.hwm n)).toNat
  else s.reg Blk.pwr.page off

/-- Bits [base + 63 : base] of a set of partitions. -/
def partBits (l : List Nat) (base : Nat) : Word :=
  (List.range 64).foldl (fun w i => w.setBit i (l.contains (base + i))) 0

/-- FLT: STAT, PART_CONT, LOG. -/
def State.readFlt (s : State) (off : Nat) : Word :=
  if off = 0x140 then
    ((((((s.reg fltPage 0x140).setBit 63 s.flt.safe).setBit 62 s.aliveRuns).setBit 61 (s.flt.planes.contains 0)).setBit 60
      (s.flt.planes.contains 1)).setBit 59 (s.flt.planes.contains 2))
  else if off = 0x148 then partBits s.flt.parts 0
  else if off = 0x150 then partBits s.flt.parts 64
  else if 0x160 ≤ off ∧ off < 0x180 then wordAt (Tab.get [] s.flt.log (s.reg fltPage 0x158).toNat) ((off - 0x160) / 8)
  else s.reg fltPage off

/-- A defined register outside the header. -/
def State.readOwn (s : State) (pg : Page) (off : Nat) : Word :=
  match pg.blk with
  | .prt => s.readPrt off
  | .vif => s.readVif off
  | .hlk => s.readHlk off
  | .dlk => s.readDlk pg.num off
  | .ept => s.readEpt pg.num off
  | .pkt => s.readPkt off
  | .pmu => s.readPmu pg.num off
  | .fwi => s.readFwi pg off
  | .sch => s.readSch off
  | .xrd => s.readXrd off
  | .kvs => s.readKvs pg.num off
  | .att => s.readAtt pg.num off
  | .ckp => s.readCkp pg.num off
  | .sto => s.readSto off
  | .cph => s.readCph off
  | .clk => s.readClk off
  | .pwr => s.readPwr off
  | .flt => s.readFlt off
  | .mlr => if off = 0x128 then ((0 : Word).setField 63 32 s.mlr.heldHwm).setField 31 0 s.missOcc else s.reg pg off
  | .rma => if off = 0x170 then ((0 : Word).setField 44 32 s.mlr.faultHwm).setField 12 0 s.mlr.faults.length else s.reg pg off
  | .dev | .rng | .syn | .num | .trs => s.reg pg off

/-- What the 8 bytes at an aligned offset of a page read as; what no table defines reads 0 (R26). -/
def State.readReg (s : State) (pg : Page) (off : Nat) : Word :=
  if !pg.exist then 0
  else if off < 0x58 then s.readHead pg off
  else if pg.isShadow off then s.reg pg off
  else match pg.regAt off with
    | some _ => s.readOwn pg off
    | none => 0

/-- What a read of 4 or 8 bytes of a word gives. -/
def narrowed (off width : Nat) (w : Word) : Word :=
  if width = 8 then w else if off % 8 = 4 then Word.of (w.field 63 32) else Word.of (w.field 31 0)

/-- A read of 4 or 8 bytes, its value in the low bytes. -/
def State.readWidth (s : State) (pg : Page) (off width : Nat) : Word := narrowed off width (s.readReg pg (off / 8 * 8))

/-! ## Commands of pages and work at their entries (R38, R39) -/

/-- Run a command word of a page. -/
def State.runCmd (s : State) (pg : Page) (val : Word) : State :=
  match pg.blk with
  | .prt => prtRun val s
  | .vif => vifRun val s
  | .dlk => s.dlkRun pg.num val
  | .rng => rngRun val s
  | .mlr => mlrRun val s
  | .rma => rmaRun val s
  | .pkt => pktRun val s
  | .fwi => fwiRun val s
  | .sch => schRun val s
  | .kvs => kvsRun val s
  | .ckp => ckpRun val s
  | .sto => stoRun val s
  | .cph => cphRun val s
  | .trs => trsRun val s
  | .clk => clkRun val s
  | .flt => fltRun val s
  | .dev | .hlk | .syn | .ept | .pmu | .num | .xrd | .att | .pwr => s

/-- A write of a page's CMD register, of an access at an offset. -/
def State.putCmd (s : State) (pg : Page) (off : Nat) (val : Word) : State :=
  if pg.blk = .dlk then s.dlkCmd pg.num val else s.takeCmdAt pg.blk off val (fun v t => t.runCmd pg v)

/-- The work held at the entry of a page's block is taken in order of arrival, if nothing holds it any more (R38, R476). -/
def State.entryRelease (s : State) (pg : Page) : State :=
  if s.entryHeld pg then s
  else
    let mine := s.entry.filter (fun e => decide (e.1 = pg))
    let s1 : State := { s with entry := s.entry.filter (fun e => decide (e.1 ≠ pg)) }
    let s2 := mine.foldl (fun t e => (if pg.blk = .dlk then t else t.setBusy pg.blk false).runCmd pg e.2) s1
    if pg.blk = .dlk then s2.inboundTake pg.num else s2

/-! ## Writing the header (R24, R28, R30, R36) -/

/-- PG_CTRL.SHADOW_SYNC (R36): every staged live register is copied into its shadow. -/
def State.shadowSync (s : State) (pg : Page) : State :=
  if !pg.shadow || s.swapPending pg then s.refuse pg 0x10
  else pg.staged.foldl (fun t o => t.setReg pg (o + 0x700) (t.reg pg o)) s

/-- PG_CTRL.CTR_CLEAR (R24): COUNT and OVF of every counter become 0. -/
def State.ctrClear (s : State) (pg : Page) : State :=
  (List.range pg.ctrN).foldl (fun t i => t.setReg pg (0xF00 + 8 * i) 0) s

/-- A write of PG_CTRL: CTR_FREEZE, CTR_CLEAR and SHADOW_SYNC. The first two act where the third is refused (DESIGN CHOICE: the spec
leaves it open, assumption 140). -/
def State.ctrlWritten (s : State) (pg : Page) (v : Word) : State :=
  let s1 := s.setReg pg 0x10 (v &&& 1)
  let s2 := if v.bit 1 then s1.ctrClear pg else s1
  if v.bit 2 then s2.shadowSync pg else s2

/-- SWAP_REQ written as a whole (R36): ARM or CANCEL, or both, which is refused. Work held for a cancelled swap is taken. -/
def State.swapReq (s : State) (pg : Page) (v : Word) : State :=
  if v.bit 0 && v.bit 1 then s.refuse pg 0x20
  else if v.bit 0 then
    if !pg.shadow then s.refuse pg 0x20
    else if v.field 63 32 ≠ s.applied pg then s.swapFlag pg 5
    else s.setReg pg 0x28 ((s.reg pg 0x28).setBit 0 true)
  else if v.bit 1 && s.swapPending pg then (s.setReg pg 0x28 ((s.reg pg 0x28).setBit 0 false)).entryRelease pg
  else s

/-- A further message of a page's unit interrupt: it is sent where the interrupt is non-zero after a write of INT_STAT or
INT_EN (R80). -/
def State.irqAgain (s : State) (pg : Page) : State :=
  if s.pageIrq pg then (if blkField pg.blk then s.fieldIrq pg else s.sendPageIrq pg) else s

/-- A W1C write of ERR_STAT (R466): the written bits are cleared in every ELW of the page, and a host-side page sends CLEAR for
each ELW that changes. On a downstream port AER's record of a freeze cause ends with the ERR_STAT bit it set (DESIGN CHOICE: the spec
gives that AER no command of its own, assumption 8). -/
def State.errClear (s : State) (pg : Page) (v : Word) : State :=
  let base := (pg.blk.code * 65536 + pg.num) * 65536
  let hit := s.flt.elws.filter (fun e => decide (e.1 / 65536 = base / 65536) && decide (e.2 &&& v ≠ 0))
  let s1 : State := { s with flt := { s.flt with
    elws := hit.foldl (fun t e => Tab.set 0 t e.1 (e.2 &&& ~~~v)) s.flt.elws } }
  let s2 := if blkField pg.blk then s1
    else hit.foldl (fun t e => t.barrierSend .host .fault 0x01 [pg.src, e.1 - base, (e.2 &&& ~~~v).toNat]) s1
  if pg.blk = .dlk then
    s2.updDport pg.num (fun d => { d with aer := d.aer.filter (fun c => !(v.bit (if c = 1 then 0 else 1))) })
  else s2

/-- A write of ERR_INJ (R30): refused while injection is disabled; otherwise each source is raised once, and INJ_UNUSED
falls. -/
def State.errInject (s : State) (pg : Page) (off : Nat) (v : Word) : State :=
  if v = 0 then s
  else if !(s.reg trsPage 0x148).bit 0 then s.refuse pg off
  else
    let s1 := (List.range pg.errN).foldl (fun t b => if v.bit b then t.errorPin pg 0 b 0x7F true else t) s
    (s1.setReg prtPage 0x128 ((s1.reg prtPage 0x128).setBit 0 false)).guaranteeFrom s1

/-! ## Writing the other registers -/

/-- The bits that a write of width bytes at off reaches, in the word at the aligned offset. -/
def wroteMask (off width : Nat) : Word := if width = 8 then ~~~0 else if off % 8 = 4 then Word.mask 63 32 else Word.mask 31 0

/-- The written value, in its place in the word. -/
def placed (off width : Nat) (val : Word) : Word :=
  if width = 8 then val else if off % 8 = 4 then Word.of (val.field 31 0 * 2 ^ 32) else Word.of (val.field 31 0)

/-- A write to the shadow of a staged register (R36): dropped while a swap is pending. -/
def State.shadowPut (s : State) (pg : Page) (b : Nat) (v m : Word) : State :=
  if s.swapPending pg then s.swapFlag pg 6
  else match pg.regAt (b - 0x700) with
    | some d => s.setReg pg b (d.written (s.reg pg b) v m)
    | none => s

/-- What the write of a direct register by an access at an offset does beyond its stored bits: commands, freezes, maps, handshakes, the
severity table. A 32-bit write acts on its half alone (R34): the WO fields of every CMD but SCH's lie in the lower one. -/
def State.directPut (s : State) (pg : Page) (off : Nat) (d : RegDef) (v m : Word) : State :=
  let b := off / 8 * 8
  let stored := s.setReg pg b (d.written (s.reg pg b) v m)
  let low := m.bit 0
  if b ≠ 0 ∧ b = cmdOff pg.blk then (if low || decide (pg.blk = .sch) then s.putCmd pg off v else s)
  else match pg.blk, b with
  | .hlk, 0x110 => if v.bit 62 then s.hlkRelease off else s
  | .hlk, 0x130 => if low then
      { s with hlk := { s.hlk with vecMap := Tab.set 0 s.hlk.vecMap (s.reg hlkPage 0x128).toNat (v.field 10 0) } } else s
  | .dlk, 0x110 => if v.bit 62 then s.dportRelease pg.num off else s
  | .fwi, 0x108 => if low then s.handshake fwiPage (v.field 31 0) else s
  | .fwi, 0x110 => if low then s.opBeat (v.field 31 0) else s
  | .fwi, 0x178 =>
    let k := (s.reg fwiPage 0x170).toNat
    let w := (d.written (Word.of (Tab.get 0 s.fwi.irqRoute k)) v m).toNat
    { s with fwi := { s.fwi with irqRoute := Tab.set 0 s.fwi.irqRoute k w } }
  | .flt, _ => if 0x1000 ≤ b then s.sevWrite ((b - 0x1000) / 8) off ((s.reg fltPage b &&& ~~~m) ||| (v &&& m)) else stored
  | .dev, _ | .prt, _ | .vif, _ | .hlk, _ | .dlk, _ | .rng, _ | .syn, _ | .mlr, _ | .rma, _ | .ept, _ | .pkt, _ | .pmu, _
  | .fwi, _ | .sch, _ | .num, _ | .xrd, _ | .kvs, _ | .att, _ | .ckp, _ | .sto, _ | .cph, _ | .trs, _ | .clk, _ | .pwr, _ =>
    stored

/-- A write of a register of the common header by an access at an offset. -/
def State.headPut (s : State) (pg : Page) (off width : Nat) (v m : Word) : State :=
  match off / 8 * 8 with
  | 0x10 => if m.bit 0 then s.ctrlWritten pg v else s
  | 0x18 => s.setReg pg 0x18 (s.reg pg 0x18 &&& ~~~(v &&& Word.oneBit 63))
  | 0x20 => if width = 8 then s.swapReq pg v else if v.field 1 0 ≠ 0 then s.refuse pg 0x20 else s
  | 0x28 => s.setReg pg 0x28 (s.reg pg 0x28 &&& ~~~(v &&& 0xF0))
  | 0x30 => (s.setReg pg 0x30 (s.reg pg 0x30 &&& ~~~(v &&& 0xFFFFFFFFFFFFFF0F))).irqAgain pg
  | 0x38 =>
    let k : Word := m &&& 0xFFFFFFFFFFFFFF0F
    (s.setReg pg 0x38 ((s.reg pg 0x38 &&& ~~~k) ||| (v &&& k))).irqAgain pg
  | 0x40 => s.errClear pg v
  | 0x48 => s.setReg pg 0x48 ((s.reg pg 0x48 &&& ~~~m) ||| (v &&& m))
  | 0x50 => s.errInject pg off v
  | _ => s

/-- The word that a write to an emulated page is merged with: what the page's last held write gives the register, or what it
holds (R27, R428). -/
def State.emuOld (s : State) (v b : Nat) : Word :=
  match ((s.vi v).heldWrites.filter (fun e => decide (e.1 = b))).getLast? with
  | some e => if b = 0x118 then e.2 &&& 4 else e.2
  | none => if b = 0x118 then viControl (s.vi v) &&& 4 else s.reg (emuPage v) b

/-- A write to an emulated page; the upper halves of its command and version registers hold no writable field. -/
def State.emuPut (s : State) (n b : Nat) (v m : Word) : State :=
  if m.bit 0 = false ∧ (b = 0x108 ∨ b = 0x110 ∨ b = 0x118 ∨ b = 0x138 ∨ b = 0x638) then s
  else s.emuTake n b (if b = 0x138 ∨ b = 0x638 then v else (s.emuOld n b &&& ~~~m) ||| v)

/-- A write of a register, whose checks have passed, by an access at an offset. -/
def State.wordPut (s : State) (pg : Page) (off width : Nat) (v m : Word) : State :=
  let b := off / 8 * 8
  if b < 0x58 then s.headPut pg off width v m
  else if pg.isShadow b then s.shadowPut pg b v m
  else match pg.regAt b with
    | none => s
    | some d =>
      if d.staged && pg.shadow then s.swapFlag pg 7
      else if pg.emulated then s.emuPut (pg.num - 0x1000) b v m
      else s.directPut pg off d v m

/-- A write of width bytes at an offset of a page; it opens the gate of the page's cluster (R33). Whether it comes from the host side
matters to the field pages of a contained management plane alone (R476). -/
def State.regPut (s : State) (hostSide : Bool) (pg : Page) (off width : Nat) (val : Word) : State :=
  if !pg.exist || !accessOk off width then s
  else if hostSide && blkField pg.blk && decide (pg.blk ≠ .flt) && s.flt.planes.contains 2 then s.refuse pg off
  else (s.pageAccess pg).wordPut pg off width (placed off width val) (wroteMask off width)

/-- A host-side write to a page: to a field page it crosses the barrier as PAGE_WR and takes effect there (R12, R358). -/
def State.pagePut (s : State) (pg : Page) (off width : Nat) (val : Word) : State :=
  if blkField pg.blk then
    (if pg.exist && accessOk off width then
      s.barrierSend .host .mgmt 0x12 [pg.src, off, width, val.field 31 0, val.field 63 32] else s)
  else s.regPut true pg off width val

/-- A write of the host through BAR0. -/
def State.hostPageWrite (s : State) (pg : Page) (off width : Nat) (val : Word) : State :=
  s.pageGate pg (s.pagePut pg off width val)

/-! ## The rows of chapter 02 -/

/-- REG_WRITE (R7): a write to a register acts as its access codes give. -/
def execRegWrite (pg : Page) (off width : Nat) (val : Word) (s : State) : Host.Outcome State Fault Refusal :=
  .next (s.hostPageWrite pg off width val)

/-- SHADOW_WRITE (R36): a write to the shadow of a staged register. -/
def execShadowWrite (pg : Page) (off width : Nat) (val : Word) (s : State) : Host.Outcome State Fault Refusal :=
  .next (if pg.isShadow (off / 8 * 8) then s.hostPageWrite pg off width val else s)

/-- LIVE_WRITE (R36): a write to the live offset of a staged register is ignored. -/
def execLiveWrite (pg : Page) (off width : Nat) (val : Word) (s : State) : Host.Outcome State Fault Refusal :=
  .next (if pg.isLive (off / 8 * 8) then s.hostPageWrite pg off width val else s)

/-- SWAP_ARM (R36): a write of SWAP_REQ with ARM. -/
def execSwapArm (pg : Page) (off width : Nat) (val : Word) (s : State) : Host.Outcome State Fault Refusal :=
  .next (if off / 8 * 8 = 0x20 then s.hostPageWrite pg off width val else s)

/-- SWAP_CANCEL (R36): a write of SWAP_REQ with CANCEL. -/
def execSwapCancel (pg : Page) (off width : Nat) (val : Word) (s : State) : Host.Outcome State Fault Refusal :=
  .next (if off / 8 * 8 = 0x20 then s.hostPageWrite pg off width val else s)

/-- SHADOW_SYNC (R36): a write of PG_CTRL with SHADOW_SYNC, CTR_FREEZE kept. -/
def execShadowSync (pg : Page) (s : State) : Host.Outcome State Fault Refusal :=
  .next (s.hostPageWrite pg 0x10 8 ((s.reg pg 0x10 &&& 1) ||| 4))

/-- CTR_CLEAR (R24): a write of PG_CTRL with CTR_CLEAR, CTR_FREEZE kept. -/
def execCtrClear (pg : Page) (s : State) : Host.Outcome State Fault Refusal :=
  .next (s.hostPageWrite pg 0x10 8 ((s.reg pg 0x10 &&& 1) ||| 2))

/-- ERR_INJ_WRITE (R30). -/
def execErrInjWrite (pg : Page) (val : Word) (s : State) : Host.Outcome State Fault Refusal :=
  .next (s.hostPageWrite pg 0x50 8 val)

/-- ERR_STAT_CLEAR (R466): a write of ERR_STAT. -/
def execErrStatClear (pg : Page) (off width : Nat) (val : Word) (s : State) : Host.Outcome State Fault Refusal :=
  .next (if off / 8 * 8 = 0x40 then s.hostPageWrite pg off width val else s)

/-- COUNTER_WRAP (R418): a counter that stands at its highest count and is not frozen counts once more. -/
def execCounterWrap (pg : Page) (ctr : Nat) (s : State) : Host.Outcome State Fault Refusal :=
  .next (if pg.exist && decide (ctr < pg.ctrN) && decide ((s.reg pg (0xF00 + 8 * ctr)).field 47 0 = 2 ^ 48 - 1) &&
      !(s.reg pg 0x10).bit 0 then (s.counterAdd pg ctr 1).intCross s pg
    else s)

/-! ## Accesses of cores to the image of BAR0 (R12, R27, R31, R116, 03_partitions.md) -/

/-- What a core's read of the BAR0 image comes to: a value, Unsupported Request, or a wait for the other side of the barrier. -/
inductive CoreRead where
  | value (w : Word)
  | unsupported
  | waits
  deriving DecidableEq, Repr

/-- An access of a core that R27 refuses; UR_LOG names requester 0 for it (DESIGN CHOICE, assumption 106). -/
def State.coreUr (s : State) (off width : Nat) : State := if accessOk off width then s else s.urLog 0 off width

/-- A core's read of a page: that of a field page crosses the barrier as PAGE_RD, and the core waits until PAGE_RD_RSP brings the value
(R12, R31). -/
def State.corePageRead (s : State) (n : Nat) (pg : Page) (off width : Nat) : CoreRead × State :=
  let c := s.core n
  let t := s.pageAccess pg
  if !blkField pg.blk || !pg.exist then (.value (t.readWidth pg off width), t)
  else
    match c.page with
    | some (a, some w) =>
      if a = pg.offset + off then (.value (narrowed off width w), s.setCore n { c with page := none })
      else (.waits, s.setCore n { c with page := none })
    | some (_, none) => (.waits, s)
    | none =>
      let s1 : State := (s.setCore n { c with page := some (pg.offset + off, none) })
      (.waits, ({ s1 with bar := { s1.bar with reads := s1.bar.reads ++ [(n, pg.offset + off)] } } : State).barrierSend .host .mgmt 0x10
        [pg.src, off])

/-- A core's read of the BAR0 image; a sync object's read is counted. -/
def State.bar0Read (s : State) (n off width : Nat) : CoreRead × State :=
  match bar0Decode off with
  | .aperture o =>
    if width = 8 ∧ o % 8 = 0 then
      if s.owns 0 tySync (o / 16) then (.value (s.syncRead (o / 16)).1, (s.syncRead (o / 16)).2) else (.unsupported, s.err .syn 3)
    else (.unsupported, s.syncBad.coreUr off width)
  | .page pg o => if accessOk off width then s.corePageRead n pg o width else (.unsupported, s.coreUr off width)
  | .directory o =>
    if accessOk off width then (.value (narrowed off width (dirWord (o / 8 * 8))), s) else (.unsupported, s.coreUr off width)
  | .doorbell _ | .viDoorbell _ _ | .nothing => if accessOk off width then (.value 0, s) else (.unsupported, s.coreUr off width)

/-- A core's write to the BAR0 image; a doorbell is an aligned 64-bit write (R107). -/
def State.bar0Write (s : State) (off width : Nat) (val : Word) : State :=
  match bar0Decode off with
  | .aperture o =>
    if width = 8 ∧ o % 8 = 0 then
      if s.owns 0 tySync (o / 16) then s.syncAct (o / 16) (syncActAt o true val) none off else s.err .syn 3
    else s.syncBad.coreUr off width
  | .page pg o => if accessOk off width then s.pagePut pg o width val else s.coreUr off width
  | .doorbell _ | .viDoorbell _ _ => if width = 8 then s.doorbellAt off (val.field 31 0) else s.coreUr off width
  | .directory _ | .nothing => s.coreUr off width

end Sys2Proof.Machine
end

