-- ==== Sys2Proof/Machine/Swap.lean ====
section
/-! DEFINITION. The swap point: the checks that give FORMAT at the swap, the copy of the shadow set, and what each block's new
live set brings about (02_register_pages.md, R36 to R38, and the register tables of the chapters). -/

namespace Sys2Proof.Machine

/-! ## Checks at the swap (R37) -/

/-- Whether inbound window i of a shadow set is enabled, and the addresses it covers. -/
def State.shadeWindow (s : State) (n i : Nat) : Bool × Nat × Nat :=
  let c := s.shade (dlkPage n) (0x208 + 16 * i)
  let b := (s.shade (dlkPage n) (0x200 + 16 * i)).field 63 16 * 65536
  (c.bit 63, b, b + 2 ^ c.field 57 52)

/-- Whether two enabled windows of a shadow set overlap. -/
def State.windowsMeet (s : State) (n i j : Nat) : Bool :=
  let a := s.shadeWindow n i
  let b := s.shadeWindow n j
  decide (i ≠ j) && a.1 && b.1 && decide (a.2.1 < b.2.2) && decide (b.2.1 < a.2.2)

/-- Whether the non-zero values of a list rise. -/
def rises (l : List Nat) : Bool :=
  match l.filter (fun n => n ≠ 0) with
  | [] => true
  | x :: r => (r.foldl (fun a n => (a.1 && decide (a.2 < n), n)) (true, x)).1

/-- The checks of PLL_CTL n (R438, R439). -/
def State.pllBad (s : State) (n : Nat) : Bool :=
  let w := s.shade Blk.clk.page (0x200 + 8 * n)
  let mode := w.field 63 62
  let mult := w.field 47 40
  pllExists n && (decide (mode = 3) || (decide (mode ≠ 1) && !pllStoppable n) ||
    (if pllCore n then decide (mult < 8) || decide (36 < mult) ||
        (decide (mult ≠ (s.pllCtl n).field 47 40) && (s.pll n).running && s.muxSelects n)
      else decide (mult ≠ 0)))

/-- The checks that a page's shadow set can fail: live offset and whether it fails, in rising order. -/
def State.swapChecks (s : State) (pg : Page) : List (Nat × Bool) :=
  let sh (off : Nat) : Word := s.shade pg off
  match pg.blk with
  | .hlk => s.hlkChecks
  | .dlk => (0x100, decide ((sh 0x100).field 59 52 < 4)) ::
      (List.range 16).flatMap (fun i =>
        [(0x200 + 16 * i, (List.range 16).any (fun j => s.windowsMeet pg.num i j)),
         (0x208 + 16 * i, decide ((sh (0x208 + 16 * i)).field 62 61 = 3))])
  | .rng => [(0x100, decide ((sh 0x100).field 5 0 = 0))]
  | .syn => s.synChecks
  | .mlr => [
      (0x108, decide ((sh 0x108).field 63 48 = 0) || decide (256 < (sh 0x108).field 63 48)),
      (0x110, decide ((sh 0x110).field 31 0 < (sh 0x110).field 63 32)),
      (0x118, decide ((sh 0x118).field 47 32 = 0) || decide ((sh 0x118).field 31 28 = 0) || decide (8 < (sh 0x118).field 31 28))]
  | .rma => s.rmaChecks
  | .ept => s.eptChecks pg.num
  | .sch => (List.range 16).map (fun n =>
      (0x100 + 8 * n, (sh (0x100 + 8 * n)).bit 63 && decide ((sh (0x100 + 8 * n)).field 47 24 = 0)))
  | .num => [(0x100, decide (4 ≤ (sh 0x100).field 3 0) && decide ((sh 0x100).field 3 0 < 14))]
  | .att => if pg.num = 0 then [(0x100, decide (33 ≤ (sh 0x100).field 5 0))] else []
  | .sto => [(0x100, decide (8 < (sh 0x100).field 47 44)),
      (0x108, !rises [(sh 0x108).field 63 48, (sh 0x108).field 47 32, (sh 0x108).field 31 16, (sh 0x108).field 15 0])]
  | .cph => [(0x100, decide (80 < (sh 0x100).field 63 56 + (sh 0x100).field 55 48 + (sh 0x100).field 47 40))]
  | .fwi => if pg.num = 0 then s.fwiChecks else []
  | .clk => (List.range 24).map (fun n => (0x200 + 8 * n, s.pllBad n)) ++
      (List.range 25).map (fun c =>
        (0x300 + 8 * c, decide (2 ≤ (sh (0x300 + 8 * c)).field 63 62) || decide ((sh (0x300 + 8 * c)).field 15 0 = 0)))
  | .pwr => s.pwrChecks
  | .flt => s.fltChecks
  | .dev | .prt | .vif | .pkt | .pmu | .xrd | .kvs | .ckp | .trs => []

/-! ## The swap point (R38) -/

/-- Whether a page stands at its swap point: no unit of work in progress under the boundary model, every port of Sluice between
two rounds, and under the capture model no work of the generation before. -/
def State.swapReady (s : State) (pg : Page) : Bool :=
  s.swapDue pg && !s.unitOpen pg && !s.prevHeld pg &&
  (decide (pg.blk ≠ .sch) || (List.range 16).all (fun n => (s.portNode n).rr.atBoundary))

/-- A capture-model page keeps the set before as its previous set, and which work runs under it (R38). -/
def State.swapPrev (s : State) (pg : Page) : State :=
  if pg.blk.capture then
    { (pg.staged.foldl (fun t o => t.setReg pg (o + 0x8000) (s.reg pg o)) s) with
      prev := Tab.set [] s.prev pg.dirIndex (s.unitsNow pg) }
  else s

/-- The shadow set becomes the live set (R36 step 5). -/
def State.swapCopy (s : State) (pg : Page) : State := (s.swapPrev pg).swapLive pg

/-! ## What a new live set brings about -/

/-- DLK.CFG.EN: a port that is disabled goes down and then OFF; one in OFF that is enabled goes to EMPTY (R83, R90). -/
def State.swapDlk (s old : State) (n : Nat) : State :=
  let en := (s.reg (dlkPage n) 0x100).bit 63
  if en = (old.reg (dlkPage n) 0x100).bit 63 then s
  else if en then (if s.portIn n .off then s.portGo n .empty else s)
  else s.portDown n true

/-- PLL_CTL of PLL n after a swap: a new MULT restarts a running PLL (R439); ON starts one that is OFF, or FAILED where MODE
changed; OFF stops one that no mux selects (R438). -/
def State.swapPll (s old : State) (n : Nat) : State :=
  let changed := decide (s.pllMode n ≠ old.pllMode n)
  let s1 := if pllCore n && (s.pll n).running && decide ((s.pllCtl n).field 47 40 ≠ (old.pllCtl n).field 47 40) then
      (s.pllStop n).pllStart n
    else s
  let s2 := if changed && decide ((s1.pll n).state = .failed) then s1.setPll n { s1.pll n with state := .off, run := 0 } else s1
  let s3 := if decide (s2.pllMode n = 1) && decide ((s2.pll n).state = .off) && (s2.trs.hostPower || decide (n = 0)) then s2.pllStart n
    else s2
  s3.pllOffStop n

/-- CORE_SEL of a die after a swap (R440, R441): the mux is to switch where the live bit names the other source. A switch whose
NEW source is STABLE has begun and finishes; one that still waits follows the new bit. -/
def State.swapMux (s old : State) (d : Nat) : State :=
  let m := s.mux d
  let s1 := if s.coreSel d = old.coreSel d then s
    else if m.busy && decide ((s.pll (corePll d (!m.used))).state = .stable) then s
    else s.setMux d { m with busy := s.coreSel d != m.used }
  ((s1.pllOffStop (corePll d false)).pllOffStop (corePll d true)).muxStart d

/-- GATE_CTL.MODE FORCE_ON opens a cluster that is not held (R443); one in retention, or whose PLL is not STABLE, wakes first. -/
def State.swapGate (s : State) (c : Nat) : State :=
  let g := s.gate c
  if !s.forceOn c || g.isOpen || g.held || !s.trs.hostPower then s
  else if g.retained then s.setGate c { g with waking := true }
  else s.wakeCluster c

/-- The clock block after a swap; the new settings of host-side clocks cross in a message (R12, R358). -/
def State.swapClk (s old : State) : State :=
  let s1 := (List.range 24).foldl (fun t n => if pllExists n then t.swapPll old n else t) s
  let s2 := (s1.swapMux old 0).swapMux old 1
  ((List.range 25).foldl (fun t c => t.swapGate c) (s2.clockMsg [4])).gateTaken

/-- What the new live set of a page brings about; old is the state before the copy. -/
def State.swapEffect (s old : State) (pg : Page) : State :=
  match pg.blk with
  | .syn => s.swapSyn
  | .dlk => s.swapDlk old pg.num
  | .ept => (s.swapEpt old pg.num).floorsOver old
  | .sch => s.floorsOver old
  | .clk => s.swapClk old
  | .dev | .prt | .vif | .hlk | .rng | .mlr | .rma | .pkt | .pmu | .fwi | .num | .xrd | .kvs | .att | .ckp | .sto | .cph
  | .trs | .pwr | .flt => s

/-- The swap point of a page: reject or apply, and then take the work that was held for it (R36 to R38). -/
def State.swapApply (s : State) (pg : Page) : State :=
  let t := if pg.blk = .sch ∨ pg.blk = .ept then s.refillAll else s
  match swapFail (t.swapChecks pg) with
  | some off => (t.swapReject pg off).entryRelease pg
  | none => ((t.swapCopy pg).swapEffect t pg).entryRelease pg

/-- SWAP_APPLY (R38). -/
def execSwapApply (pg : Page) (s : State) : Host.Outcome State Fault Refusal :=
  .next (if s.swapReady pg then s.swapApply pg else s)

end Sys2Proof.Machine
end

