-- ==== Sys2Proof/Machine/Messages.lean ====
section
/-! DEFINITION. Register access over the barrier, debug and management requests, and the end of a plane's containment
(18_trust_and_field_side.md, R358, R372, R375; R476). -/

namespace Sys2Proof.Machine

/-! ## PAGE_RD to HOST_WR_ACK (R31, R358) -/

/-- The two 32-bit halves of a word, as a message carries them. -/
def wordHalves (w : Word) : List Nat := [w.field 31 0, w.field 63 32]

/-- PAGE_RD (R31): the field side takes it, reads the register and answers with PAGE_RD_RSP. -/
def execPageRd (pg : Page) (off : Nat) (s : State) : Host.Outcome State Fault Refusal :=
  .next (if blkField pg.blk && pg.exist then
      (s.barrierAccept .field .mgmt).barrierSend .field .mgmt 0x11 ([pg.src, off] ++ wordHalves (s.readReg pg (off / 8 * 8)))
    else s)

/-- Take the first read that waits for an address out of a list. -/
def readTaken (l : List (Nat × Nat)) (a : Nat) : Option Nat × List (Nat × Nat) :=
  match l with
  | [] => (none, [])
  | x :: r => if x.2 = a then (some x.1, r) else ((readTaken r a).1, x :: (readTaken r a).2)

/-- The value of a field page's register reaches the host side: the core that waits for it has it, or, where none does, the host's read
completes (R12, R31). -/
def State.pageValue (s : State) (a : Nat) (val : Word) : State :=
  match readTaken s.bar.reads a with
  | (some n, rest) =>
    let s1 : State := { s with bar := { s.bar with reads := rest } }
    if (s1.core n).page = some (a, none) then s1.setCore n { s1.core n with page := some (a, some val) } else s1
  | (none, _) => s.emit (.readReply none a val)

/-- PAGE_RD_RSP (R31): the host side takes it, and the read that waits completes with the value. -/
def execPageRdRsp (pg : Page) (off : Nat) (val : Word) (s : State) : Host.Outcome State Fault Refusal :=
  .next (if blkField pg.blk && pg.exist then (s.barrierAccept .host .mgmt).pageValue (pg.offset + off) val else s)

/-- PAGE_WR (R358): the field side takes the write and answers with PAGE_WR_ACK. -/
def execPageWr (pg : Page) (off width : Nat) (val : Word) (s : State) : Host.Outcome State Fault Refusal :=
  .next (if blkField pg.blk && pg.exist then
      ((s.barrierAccept .field .mgmt).regPut true pg off width val).barrierSend .field .mgmt 0x13 [pg.src, off]
    else s)

/-- PAGE_WR_ACK (R358): the host side takes it. -/
def execPageWrAck (pg : Page) (_off : Nat) (s : State) : Host.Outcome State Fault Refusal :=
  .next (if blkField pg.blk && pg.exist then s.barrierAccept .host .mgmt else s)

/-- HOST_RD (R33, R358): the host side takes it, reads the register and answers with HOST_RD_RSP. -/
def execHostRd (pg : Page) (off : Nat) (s : State) : Host.Outcome State Fault Refusal :=
  .next (if !blkField pg.blk && pg.exist then
      let s1 := (s.barrierAccept .host .mgmt).pageAccess pg
      s1.barrierSend .host .mgmt 0x15 ([pg.src, off] ++ wordHalves (s1.readReg pg (off / 8 * 8)))
    else s)

/-- HOST_RD_RSP (R358): the field side takes it; Weir has its value. -/
def execHostRdRsp (pg : Page) (_off : Nat) (val : Word) (s : State) : Host.Outcome State Fault Refusal :=
  .next (if !blkField pg.blk && pg.exist then (s.barrierAccept .field .mgmt).emit (.fieldReply true [val]) else s)

/-- HOST_WR (R358): the host side takes the write and answers with HOST_WR_ACK. -/
def execHostWr (pg : Page) (off width : Nat) (val : Word) (s : State) : Host.Outcome State Fault Refusal :=
  .next (if !blkField pg.blk && pg.exist then
      ((s.barrierAccept .host .mgmt).regPut false pg off width val).barrierSend .host .mgmt 0x17 [pg.src, off]
    else s)

/-- HOST_WR_ACK (R358): the field side takes it. -/
def execHostWrAck (pg : Page) (_off : Nat) (s : State) : Host.Outcome State Fault Refusal :=
  .next (if !blkField pg.blk && pg.exist then s.barrierAccept .field .mgmt else s)

/-! ## Debug and management (R372, R375, R446) -/

/-- Whether Weir serves a peripheral: it runs, the management plane is not contained (R476), and the peripheral's enable is set
(R446). -/
def State.weirServes (s : State) (periph : Nat) : Bool :=
  s.trs.weirRuns && !s.flt.planes.contains 2 && (s.reg Blk.clk.page 0x148).bit periph

/-- Answer a request of a field-side port. -/
def State.answer (s : State) (ok : Bool) (data : List Word) : State := s.emit (.fieldReply ok data)

/-- Whether a page can be reached from the field side: a field page, or a host-side page while the host side is powered. -/
def State.fieldReach (s : State) (pg : Page) : Bool := pg.exist && (blkField pg.blk || s.trs.hostPower)

/-- A register access of a field-side port. -/
def State.portAccess (s : State) (acc : DbgAccess) : State :=
  match acc with
  | .readReg pg off =>
    if s.fieldReach pg then (s.pageAccess pg).answer true [(s.pageAccess pg).readReg pg (off / 8 * 8)] else s.answer false []
  | .writeReg pg off width val =>
    if s.fieldReach pg then (s.regPut false pg off width val).answer true [] else s.answer false []
  | .haltCore _ | .resumeCore _ | .readG _ _ | .flashWrite _ _ => s.answer false []

/-- Stop or continue a core at its next instruction boundary. -/
def State.setHalted (s : State) (n : Nat) (x : Bool) : State := s.setCore n { s.core n with halted := x }

/-- DEBUG_ACCESS (R372): refused while debug is locked; otherwise it reaches core debug or a page. -/
def execDebugAccess (acc : DbgAccess) (s : State) : Host.Outcome State Fault Refusal :=
  .next (if !s.weirServes 1 then s
    else if !s.debugOpen then (s.count1 .trs 5).answer false []
    else match acc with
      | .haltCore n => if n < 80 then (s.setHalted n true).answer true [] else s.answer false []
      | .resumeCore n => if n < 80 then (s.setHalted n false).answer true [] else s.answer false []
      | .readG n r => if n < 80 ∧ r < 32 then s.answer true [Tab.get 0 (s.core n).g r] else s.answer false []
      | .readReg pg off => s.portAccess (.readReg pg off)
      | .writeReg pg off width val => s.portAccess (.writeReg pg off width val)
      | .flashWrite _ _ => s.answer false [])

/-- MGMT_REQUEST (R375): served when a management key is present and the request is authenticated under it; page access and flash
update are Weir's services on that port. -/
def execMgmtRequest (auth : Bool) (acc : DbgAccess) (s : State) : Host.Outcome State Fault Refusal :=
  .next (if !s.weirServes 0 then s
    else if !auth || s.trs.mgmtKey.isNone then s.answer false []
    else match acc with
      | .flashWrite a data => (s.flashWrite a data).answer true []
      | .readReg pg off => s.portAccess (.readReg pg off)
      | .writeReg pg off width val => s.portAccess (.writeReg pg off width val)
      | .haltCore _ | .resumeCore _ | .readG _ _ => s.answer false [])

/-! ## UNCONTAIN_PLANE (R476) -/

/-- The pages of the device, in directory order. -/
def allPages : List Page := (List.range 127).filterMap Page.ofSrc

/-- The data plane takes work again: held work runs, block by block, with what waits at the ports and at firmware. -/
def State.dataResume (s : State) : State :=
  let s1 := allPages.foldl (fun t pg => t.entryRelease pg) s
  let s2 := (List.range 6).foldl (fun t n => if t.entryHeld (dlkPage n) then t else t.inboundTake n) s1
  s2.flushIrq.fwResume false

/-- UNCONTAIN_PLANE (R476): the containment of a plane ends, and held work runs. -/
def execUncontainPlane (plane : Nat) (s : State) : Host.Outcome State Fault Refusal :=
  let s1 := s.barrierAccept .host .fault
  let s2 : State := { s1 with flt := { s1.flt with planes := s1.flt.planes.filter (fun p => p ≠ plane), aliveAt := s1.clk.fld } }
  .next (if plane = 0 ∧ s.dataHeld = true then s2.dataResume else s2)

end Sys2Proof.Machine
end

