-- ==== Sys2Proof/Machine/Zarn.lean ====
section
/-! DEFINITION. Zarn cores: instruction words, registers, system registers, traps and interrupts, translation, fetch and
memory access (19_zarn_instruction_set.md, 20_cores_and_counters.md). -/

namespace Sys2Proof.Machine

/-! ## Instruction words (R376, R381, R383) -/

/-- Layout R; I, S, K and R4 are its other views. -/
def encR (op rd f4 rs1 rs2 f6 : Nat) : Nat :=
  0x8000 + op * 2 ^ 9 + rd * 2 ^ 4 + f4 + rs1 * 2 ^ 27 + rs2 * 2 ^ 22 + f6 * 2 ^ 16

/-- Layouts I and S: the 11-bit immediate in [26:16]; S has RS2 in the place of RD. -/
def encI (op rd f4 rs1 imm : Nat) : Nat := 0x8000 + op * 2 ^ 9 + rd * 2 ^ 4 + f4 + rs1 * 2 ^ 27 + imm * 2 ^ 16

/-- Layout B: COND, and IMM21 in W[4:0] and W[31:16]. -/
def encB (op cond imm : Nat) : Nat := 0x8000 + op * 2 ^ 9 + cond * 2 ^ 5 + imm / 2 ^ 16 + imm % 2 ^ 16 * 2 ^ 16

/-- Layout J: RD, and IMM20 in W[3:0] and W[31:16]. -/
def encJ (op rd imm : Nat) : Nat := 0x8000 + op * 2 ^ 9 + rd * 2 ^ 4 + imm / 2 ^ 16 + imm % 2 ^ 16 * 2 ^ 16

/-- Layout K: RD, HW, F2 and IMM16. -/
def encK (op rd hw f2 imm : Nat) : Nat := 0x8000 + op * 2 ^ 9 + rd * 2 ^ 4 + hw * 4 + f2 + imm * 2 ^ 16

/-- Layout R4: RS3 in [21:17] and P in [16]. -/
def encR4 (op rd f4 rs1 rs2 rs3 : Nat) (p : Bool) : Nat := encR op rd f4 rs1 rs2 (rs3 * 2 + (if p then 1 else 0))

/-- Layout CR of the 16-bit forms. -/
def encCR (op4 rd rs s : Nat) : Nat := op4 * 2 ^ 11 + rd * 2 ^ 6 + rs * 2 + s

/-- Major opcode of an instruction word. -/
def wOp (w : Nat) : Nat := w / 2 ^ 9 % 64
/-- RD, or RS2 of layout S. -/
def wRd (w : Nat) : Nat := w / 2 ^ 4 % 32
/-- F4. -/
def wF4 (w : Nat) : Nat := w % 16
/-- RS1. -/
def wRs1 (w : Nat) : Nat := w / 2 ^ 27 % 32
/-- RS2. -/
def wRs2 (w : Nat) : Nat := w / 2 ^ 22 % 32
/-- F6. -/
def wF6 (w : Nat) : Nat := w / 2 ^ 16 % 64
/-- IMM11. -/
def wImm (w : Nat) : Nat := w / 2 ^ 16 % 2 ^ 11

/-- A field of b bits, sign-extended. -/
def sext (b v : Nat) : Word := BitVec.ofInt 64 (toSigned b v)

/-- OP 0x0F: the function, the bits of F6 that it uses, and the fields that must be 0 (R397). -/
def fpLegal (w : Nat) : Bool :=
  let f6 := wF6 w
  let lo := f6 / 2 % 4
  let hi := f6 / 8 % 4
  decide (f6 < 32) &&
  (match wF4 w with
   | 0x0 | 0x1 | 0x2 | 0x3 | 0x5 | 0x6 => decide (lo = 0) && decide (hi = 0)
   | 0x4 | 0x9 | 0xC | 0xD | 0xE => decide (lo = 0) && decide (hi = 0) && decide (wRs2 w = 0)
   | 0x7 => decide (lo ≠ 3) && decide (hi = 0)
   | 0x8 => decide (lo = 0) && decide (hi = 0) && decide (wRd w = 0)
   | 0xA => decide (wRs2 w = 0)
   | 0xB => decide (lo = 0) && decide (wRs2 w = 0)
   | _ => false)

/-- Whether a 32-bit word is an instruction that R377 does not make ILLEGAL by its own bits: no reserved opcode or function, no
field that must be 0 and is not. -/
def insnLegal (w : Nat) : Bool :=
  let f4 := wF4 w
  let f6 := wF6 w
  match wOp w with
  | 0x00 => decide (f6 < 2) && (decide (f4 ≠ 0xE) || decide (wRs2 w = 0))
  | 0x01 => !([0x1, 0x8, 0xE, 0xF].contains f4)
  | 0x02 => decide (f6 < 2) && decide (f4 < 8) && !(decide (f6 = 1) && [1, 2, 3].contains f4)
  | 0x03 => decide (f4 < 7)
  | 0x04 => decide (f4 < 4)
  | 0x05 | 0x06 | 0x0A | 0x3F => true
  | 0x07 => decide (f4 = 0)
  | 0x08 => decide (wRd w ≠ 0)
  | 0x09 => decide (f4 % 4 ≠ 3)
  | 0x0B => decide (f4 < 10) && decide (f6 < 8)
  | 0x0C =>
    (match f4 with
     | 0 => decide (wRs1 w = 0)
     | 1 | 2 | 3 => true
     | 4 => decide (wRd w = 0) && decide (wRs1 w = 0) && decide (wImm w < 64)
     | 5 => decide (wRd w = 0) && decide (wRs1 w = 0) && decide (wImm w = 0)
     | 6 => decide (wRd w = 0) && decide (wRs1 w = 0) && decide (wImm w < 4)
     | 7 => decide (wImm w = 0)
     | _ => false)
  | 0x0D | 0x0E => decide (f4 < 2)
  | 0x0F => fpLegal w
  | 0x10 => decide (f4 < 4)
  | _ => false

/-! ## Traps (R378, R409) -/

/-- A trap that an instruction raises: its cause code and xTINFO. -/
structure Trap where
  cause : Nat
  info : Word
  deriving DecidableEq, Repr

/-- The outcome of an instruction's work on the state. -/
abbrev Res := Except Trap State

/-- ILLEGAL. -/
abbrev illegal (word : Word) : Trap := ⟨0x01, word⟩

/-- PRIV. -/
abbrev priv (word : Word) : Trap := ⟨0x02, word⟩

/-! ## Registers (R379, R400) -/

/-- General register i of a core: g0 reads 0; numbers 32 to 39 are the temporaries t0 to t7 of a custom instruction. -/
def State.gr (s : State) (n i : Nat) : Word := if i = 0 then 0 else Tab.get 0 (s.core n).g i

/-- Write a general register; a write of g0 is discarded. -/
def State.setGr (s : State) (n i : Nat) (v : Word) : State :=
  if i = 0 then s else s.setCore n { s.core n with g := Tab.set 0 (s.core n).g i v }

/-- Floating-point register i. -/
def State.fr (s : State) (n i : Nat) : Word := Tab.get 0 (s.core n).f i

/-- Write a floating-point register. -/
def State.setFr (s : State) (n i : Nat) (v : Word) : State := s.setCore n { s.core n with f := Tab.set 0 (s.core n).f i v }

/-- pc of a core. -/
def State.pc (s : State) (n : Nat) : Word := (s.core n).pc

/-- Change pc. -/
def State.setPc (s : State) (n : Nat) (v : Word) : State := s.setCore n { s.core n with pc := v }

/-- Reset value of a system register: PREV of KTSTAT and MTSTAT is 2 (R408), every other 0. -/
def sysReset (k : Nat) : Word := if k = 0x200 ∨ k = 0x400 then 0x200 else 0

/-- A stored system register. -/
def State.sysRaw (s : State) (n k : Nat) : Word := (Tab.find (s.core n).sys k).getD (sysReset k)

/-- Store a system register. -/
def State.setSysRaw (s : State) (n k : Nat) (v : Word) : State :=
  s.setCore n { s.core n with sys := Tab.set (sysReset k) (s.core n).sys k v }

/-- The number of a level (R408). -/
def Level.num : Level → Nat
  | .u => 0 | .k => 1 | .m => 2

/-- The level of a number. -/
def levelOf (i : Nat) : Level :=
  match i with
  | 0 => .u
  | 1 => .k
  | _ => .m

/-- The PMU page of a core. -/
abbrev pmuPage (n : Nat) : Page := ⟨.pmu, n⟩

/-! ## Counting (R417 to R420) -/

/-- Add k to the counters of a core that select an event at this level. -/
def State.countCore (s : State) (n : Nat) (l : Level) (code k : Nat) : State :=
  let pg := pmuPage n
  if (s.reg pg 0x10).bit 0 then s
  else (List.range 8).foldl (fun t i =>
    let sel := t.reg pg (0x700 + 8 * i)
    if sel.field 15 0 = code ∧ sel.bit (61 - l.num) = true then t.counterAdd pg i k else t) s

/-- An instruction retires at the level at which it began, having filled some slots. -/
def State.retire (s : State) (n : Nat) (l : Level) (slots : Nat) : State :=
  let s1 := s.setSysRaw n 0x011 (s.sysRaw n 0x011 + 1)
  (s1.countCore n l 0x0005 1).countCore n l 0x0001 slots

/-! ## Interrupts pending (R409, R411, R420, 21_firmware.md) -/

/-- Whether a device interrupt line routed to a core is raised (IRQ_ROUTE). -/
def State.extPending (s : State) (n : Nat) : Bool :=
  s.fwi.irqRoute.any (fun e => (Word.of e.2).bit 63 && decide ((Word.of e.2).field 6 0 = n) &&
    (match Page.ofDir e.1 with
     | some pg => s.pageIrq pg
     | none => false))

/-- Whether a counter of a core has OVF with OVF_INT (R420). -/
def State.pmuPending (s : State) (n : Nat) : Bool :=
  (List.range 8).any (fun i => (s.reg (pmuPage n) (0xF00 + 8 * i)).bit 63 && (s.reg (pmuPage n) (0x700 + 8 * i)).bit 62)

/-- Whether CYCLES has reached CYCMP (R411). -/
def State.cycmpPending (s : State) (n : Nat) : Bool := decide ((s.sysRaw n 0x20B).toNat ≤ (s.fixedCtr n 0).toNat)

/-- Whether interrupt cause c of a core is pending. -/
def State.irqPending (s : State) (n c : Nat) : Bool :=
  match c with
  | 1 => s.extPending n
  | 2 => (s.core n).soft
  | 3 => s.cycmpPending n
  | 4 => s.pmuPending n
  | _ => false

/-- Whether cause c is pending and enabled in IRQ_EN. -/
def State.irqWanted (s : State) (n c : Nat) : Bool := s.irqPending n c && (s.sysRaw n 0x208).bit c

/-- Whether a core in IDLE goes on (R410). -/
def State.idleEnds (s : State) (n : Nat) : Bool := (List.range 5).any (fun c => s.irqWanted n c)

/-! ## System registers (R406 to R408, R411, R420) -/

/-- Whether a number names a system register (R407). -/
def sysExists (k : Nat) : Bool :=
  [0x001, 0x002, 0x010, 0x011, 0x012, 0x210, 0x220].contains k || (decide (0x018 ≤ k) && decide (k ≤ 0x01F)) ||
  (decide (0x200 ≤ k) && decide (k ≤ 0x20B)) || (decide (0x218 ≤ k) && decide (k ≤ 0x21F)) ||
  (decide (0x400 ≤ k) && decide (k ≤ 0x407))

/-- A system register as it reads. -/
def State.sysVal (s : State) (n k : Nat) : Word :=
  if 0x010 ≤ k ∧ k ≤ 0x012 then s.fixedCtr n (k - 0x010)
  else if 0x018 ≤ k ∧ k ≤ 0x01F then s.reg (pmuPage n) (0xF00 + 8 * (k - 0x018))
  else if 0x218 ≤ k ∧ k ≤ 0x21F then s.reg (pmuPage n) (0x700 + 8 * (k - 0x218))
  else if k = 0x209 then
    ([1, 2, 3, 4].foldl (fun w c => w.setBit c (s.irqPending n c)) (0 : Word))
  else if k = 0x20A then 0
  else if k = 0x220 then (s.sysRaw n 0x220).setBit 0 ((s.reg (pmuPage n) 0x10).bit 0)
  else if k = 0x407 then ((0 : Word).setBit 63 (decide (64 ≤ n))).setField 6 0 n
  else s.sysRaw n k

/-- The bits of a stored system register that a write changes. -/
def sysMask (k : Nat) : Word :=
  match k with
  | 0x001 => 0x1F
  | 0x002 => 0x71F
  | 0x200 | 0x400 => 0x311
  | 0x202 | 0x402 => 0x1FF
  | 0x206 => 0xFFFFFFFFFFFFF001
  | 0x207 => 0x1
  | 0x208 => 0x1E
  | 0x210 => 0xFF07
  | 0x220 => 0x2
  | 0x406 => 0x3F7E
  | _ => ~~~0

/-- Write a system register. -/
def State.sysPut (s : State) (n k : Nat) (v : Word) : State :=
  let pg := pmuPage n
  if k = 0x010 then s.setCore n { s.core n with cycOff := (s.core n).cycOff + (v - s.fixedCtr n 0) }
  else if k = 0x012 then s.setCore n { s.core n with slotOff := (s.core n).slotOff + (v - s.fixedCtr n 2) }
  else if 0x018 ≤ k ∧ k ≤ 0x01F then
    let old := s.reg pg (0xF00 + 8 * (k - 0x018))
    s.setReg pg (0xF00 + 8 * (k - 0x018)) (((0 : Word).setField 47 0 (v.field 47 0)).setBit 63 (old.bit 63 && !v.bit 63))
  else if 0x218 ≤ k ∧ k ≤ 0x21F then s.setReg pg (0x700 + 8 * (k - 0x218)) (v &&& 0xF80000000000FFFF)
  else if k = 0x209 then (if v.bit 2 then s.setCore n { s.core n with soft := false } else s)
  else if k = 0x20A then
    let m := v.field 6 0
    if m < 80 then s.setCore m { s.core m with soft := true } else s
  else if k = 0x407 then s
  else if k = 0x200 ∨ k = 0x400 then
    let w := v &&& sysMask k
    s.setSysRaw n k (if w.field 9 8 = 3 then w.setField 9 8 2 else w)
  else
    let s1 := s.setSysRaw n k (v &&& sysMask k)
    if k = 0x220 then s1.setReg pg 0x10 ((s1.reg pg 0x10).setBit 0 (v.bit 0)) else s1

/-- The checks of an access to a system register: ILLEGAL for a number that names none, PRIV above the level, and at U for the
counters (R395, R406, R419). -/
def State.sysCheck (s : State) (n k : Nat) (write : Bool) (word : Word) : Option Trap :=
  let l := (s.core n).level
  let uen := s.sysRaw n 0x210
  if !sysExists k then some (illegal word)
  else if l.num < k / 2 ^ 9 % 4 then some (priv word)
  else if l = .u ∧ 0x010 ≤ k ∧ k ≤ 0x01F then
    if write || !(uen.bit (if k < 0x018 then k - 0x010 else k - 0x018 + 8)) then some (priv word) else none
  else none

/-! ## Taking a trap (R409, R410) -/

/-- Enter the handler of a trap at level K or M: pc, cause, information and level are saved, EN is cleared, and pc goes to the
base, or 0x80 beyond it for an interrupt. -/
def State.enter (s : State) (n : Nat) (atK irq : Bool) (cause : Nat) (info : Word) : State :=
  let c := s.core n
  let b := if atK then 0x200 else 0x400
  let st := s.sysRaw n b
  let s1 := s.countCore n c.level 0x000B 1
  let s2 := (((s1.setSysRaw n (b + 1) c.pc).setSysRaw n (b + 2) ((Word.of cause).setBit 8 irq)).setSysRaw n (b + 3) info).setSysRaw n b
    (((st.setField 9 8 c.level.num).setBit 4 (st.bit 0)).setBit 0 false)
  let base := (s.sysRaw n (b + 4)).setField 7 0 0
  s2.setCore n { s2.core n with level := if atK then .k else .m, pc := if irq then base + 0x80 else base, idle := false }

/-- An exception: to K where KROUTE says so and the core is below M, else to M. -/
def State.trapTake (s : State) (n : Nat) (t : Trap) : State :=
  s.enter n (decide ((s.core n).level ≠ .m) && (s.sysRaw n 0x406).bit t.cause) false t.cause t.info

/-- Whether interrupt cause c may be taken now: below M whenever it is enabled, at M while MTSTAT.EN is 1 (R409). -/
def State.irqTakeable (s : State) (n c : Nat) : Bool :=
  s.irqWanted n c && (decide ((s.core n).level ≠ .m) || (s.sysRaw n 0x400).bit 0)

/-- Take an interrupt: to K from U or K while KTSTAT.EN is 1, else to M. -/
def State.irqTake (s : State) (n c : Nat) : State :=
  s.enter n (decide ((s.core n).level ≠ .m) && (s.sysRaw n 0x200).bit 0) true c 0

/-! ## Translation (R412 to R415) -/

/-- The kinds of access that translation tells apart. -/
inductive Acc where
  | fetch | load | store
  deriving DecidableEq, Repr

/-- The page fault of an access. -/
def Acc.pageFault (a : Acc) (va : Word) : Trap :=
  ⟨match a with | .fetch => 0x0B | .load => 0x0C | .store => 0x0D, va⟩

/-- The access fault of an access. -/
def Acc.accessFault (a : Acc) (va : Word) : Trap :=
  ⟨match a with | .fetch => 0x08 | .load => 0x09 | .store => 0x0A, va⟩

/-- A leaf found: where its entry lies, the entry, and its level. -/
structure Leaf4 where
  addr : Nat
  entry : Word
  level : Nat
  deriving DecidableEq, Repr

/-- Bits of an address that a leaf of a level leaves alone. -/
def leafBits (lvl : Nat) : Nat := 12 + 9 * lvl

/-- Whether a leaf entry is well formed at its level (R414). -/
def leafForm (e : Word) (lvl : Nat) : Bool :=
  decide (lvl < 3) && decide (e.field 4 2 ≠ 0) && decide (e.field 47 12 % 2 ^ (9 * lvl) = 0)

/-- Walk the tables from level lvl down (R412, R414). -/
def State.walk (s : State) (a : Acc) (va : Word) (lvl table : Nat) : Except Trap Leaf4 :=
  let ea := table + 8 * (va.toNat / 2 ^ leafBits lvl % 512)
  if hbmSize < ea + 8 then .error (a.accessFault va)
  else
    let e := s.word ea
    if !e.bit 0 || decide (e.field 63 48 ≠ 0) || decide (e.field 11 9 ≠ 0) then .error (a.pageFault va)
    else if e.bit 1 then
      if leafForm e lvl then .ok ⟨ea, e, lvl⟩ else .error (a.pageFault va)
    else if e.field 8 2 ≠ 0 then .error (a.pageFault va)
    else
      match lvl with
      | 0 => .error (a.pageFault va)
      | k + 1 => s.walk a va k (e.field 47 12 * 4096)

/-- Whether a leaf permits an access at a level (R414). -/
def leafPermits (e : Word) (a : Acc) (l : Level) : Bool :=
  (match a with
   | .fetch => e.bit 4 && !(decide (l = .k) && e.bit 5)
   | .load => e.bit 2
   | .store => e.bit 3) &&
  (decide (l ≠ .u) || e.bit 5)

/-- Whether a leaf already shows what an access must set: ACC, and DRT for a store. -/
def leafUsed (e : Word) (a : Acc) : Bool := e.bit 7 && (decide (a ≠ .store) || e.bit 8)

/-- The physical address that a leaf gives. -/
def leafAddr (e : Word) (lvl : Nat) (va : Word) : Nat := e.field 47 12 * 4096 + va.toNat % 2 ^ leafBits lvl

/-- The key of a cached translation: its virtual page with the level of its leaf in bits [1:0]. -/
def tlbKey (va : Word) (lvl : Nat) : Nat := va.toNat / 2 ^ leafBits lvl * 2 ^ leafBits lvl + lvl

/-- The cached translation of a virtual address, of its address space or global. -/
def Core.tlbFind (c : Core) (asid : Nat) (va : Word) : Option (Nat × Nat × Word) :=
  c.tlb.find? (fun e => (decide (e.1 = asid) || e.2.2.bit 6) && decide (e.2.1 = tlbKey va (e.2.1 % 4)))

/-- Whether a core translates: a Skovra core at U or K with PTBR.EN (R412). -/
def State.translates (s : State) (n : Nat) : Bool :=
  decide (n < 64) && decide ((s.core n).level ≠ .m) && (s.sysRaw n 0x206).bit 0

/-- Translate by a walk: the entry's ACC and DRT are set with it, and the translation is cached (R414, R415). -/
def State.walkFor (s : State) (n : Nat) (a : Acc) (va : Word) : Except Trap (Nat × State) :=
  let c := s.core n
  let ptbr := s.sysRaw n 0x206
  match s.walk a va 3 (ptbr.field 47 12 * 4096) with
  | .error t => .error t
  | .ok f =>
    if !leafPermits f.entry a c.level then .error (a.pageFault va)
    else
      let e := (f.entry.setBit 7 true).setBit 8 (f.entry.bit 8 || decide (a = .store))
      let s1 := if e = f.entry then s else s.setWord f.addr e
      let k := tlbKey va f.level
      let asid := ptbr.field 63 48
      let s2 := s1.setCore n { s1.core n with
        tlb := (asid, k, e) :: (s1.core n).tlb.filter (fun x => !(decide (x.1 = asid) && decide (x.2.1 = k))) }
      .ok (leafAddr e f.level va, s2.countCore n c.level 0x000A 1)

/-- Translate a virtual address for an access (R412). -/
def State.vmap (s : State) (n : Nat) (a : Acc) (va : Word) : Except Trap (Nat × State) :=
  if !s.translates n then .ok (va.toNat, s)
  else if va.field 63 47 ≠ 0 ∧ va.field 63 47 ≠ 0x1FFFF then .error (a.pageFault va)
  else
    match (s.core n).tlbFind ((s.sysRaw n 0x206).field 63 48) va with
    | some e =>
      if !leafPermits e.2.2 a (s.core n).level then .error (a.pageFault va)
      else if leafUsed e.2.2 a then .ok (leafAddr e.2.2 (e.2.1 % 4) va, s)
      else s.walkFor n a va
    | none => s.walkFor n a va

/-! ## Physical memory (R405) -/

/-- What lies at a physical address for a core. -/
inductive Phys where
  | hbm (addr : Nat)
  | device (off : Nat)
  | tcm (off : Nat)
  | nothing
  deriving DecidableEq, Repr

/-- The physical address map of core n, for an access of len bytes. -/
def physOf (n pa len : Nat) : Phys :=
  let t := 0xC000000000 + (n - 64) * 0x80000
  if pa + len ≤ hbmSize then .hbm pa
  else if 0x8000000000 ≤ pa ∧ pa + len ≤ 0x8020000000 then .device (pa - 0x8000000000)
  else if 64 ≤ n ∧ t ≤ pa ∧ pa + len ≤ t + 0x80000 then .tcm (pa - t)
  else .nothing

/-- Bytes of a core's tightly coupled memory. -/
def State.tcmBytes (s : State) (n off len : Nat) : List Byte := (List.range len).map (fun i => Tab.get 0 (s.core n).tcm (off + i))

/-- Write bytes to a core's tightly coupled memory. -/
def State.setTcm (s : State) (n off : Nat) (bs : List Byte) : State :=
  match bs with
  | [] => s
  | b :: r => (s.setCore n { s.core n with tcm := Tab.set 0 (s.core n).tcm off b }).setTcm n (off + 1) r

/-- Bytes at a physical address in memory that a core may read at level M, HBM or its own tightly coupled memory. -/
def State.physBytes (s : State) (n pa len : Nat) : Option (List Byte) :=
  match physOf n pa len with
  | .hbm a => some (s.bytes a len)
  | .tcm o => some (s.tcmBytes n o len)
  | .device _ | .nothing => none

/-- Fetch one halfword for its faults and its use of the translation (R376, R405). -/
def State.fetchHalf (s : State) (n : Nat) (va : Word) : Except Trap State :=
  match s.vmap n .fetch va with
  | .error t => .error t
  | .ok (pa, s1) => if (s1.physBytes n pa 2).isSome then .ok s1 else .error (Acc.accessFault .fetch va)

/-- Fetch an instruction of 2 or 4 bytes at pc; a fault on either halfword names the first (R376). -/
def State.ifetch (s : State) (n len : Nat) : Except Trap State :=
  let pc := s.pc n
  match s.fetchHalf n pc with
  | .error t => .error t
  | .ok s1 =>
    if len = 2 then .ok s1
    else match s1.fetchHalf n (pc + 2) with
      | .error t => .error { t with info := pc }
      | .ok s2 => .ok s2

/-- Load size bytes at a virtual address (R391). The value of a device load that completes with Unsupported Request is a free
value; that of one that waits for the barrier is not used. -/
def State.dataLoad (s : State) (n : Nat) (va : Word) (size : Nat) : Except Trap (Word × State) :=
  if va.toNat % size ≠ 0 then .error ⟨0x03, va⟩
  else match s.vmap n .load va with
    | .error t => .error t
    | .ok (pa, s1) =>
      match physOf n pa size with
      | .hbm a => .ok (Word.of (leNat (s1.bytes a size)), s1)
      | .tcm o => .ok (Word.of (leNat (s1.tcmBytes n o size)), s1)
      | .device o =>
        match s1.bar0Read n o size with
        | (.value w, s2) => .ok (w, s2)
        | (.unsupported, s2) => .ok (Word.of (Config.freeWord s2.free).toNat, { s2 with free := s2.free + 1 })
        | (.waits, s2) => .ok (0, s2)
      | .nothing => .error (Acc.accessFault .load va)

/-- Store the low size bytes of a value at a virtual address (R391). -/
def State.dataStore (s : State) (n : Nat) (va : Word) (size : Nat) (v : Word) : Res :=
  if va.toNat % size ≠ 0 then .error ⟨0x03, va⟩
  else match s.vmap n .store va with
    | .error t => .error t
    | .ok (pa, s1) =>
      match physOf n pa size with
      | .hbm a => .ok (s1.setBytes a (leBytes size v.toNat))
      | .tcm o => .ok (s1.setTcm n o (leBytes size v.toNat))
      | .device o => .ok (s1.bar0Write o size (Word.of (v.toNat % 2 ^ (8 * size))))
      | .nothing => .error (Acc.accessFault .store va)

/-- One atomic read-modify-write (R392): f gives the new value of memory; the page must permit loads and stores, and a device
range raises a store fault. -/
def State.dataRmw (s : State) (n : Nat) (va : Word) (size : Nat) (f : Nat → Nat) : Except Trap (Nat × State) :=
  if va.toNat % size ≠ 0 then .error ⟨0x03, va⟩
  else match s.vmap n .store va with
    | .error t => .error t
    | .ok (pa, s1) =>
      match s1.vmap n .load va with
      | .error _ => .error (Acc.pageFault .store va)
      | .ok (_, s2) =>
        match physOf n pa size with
        | .hbm a =>
          let m := leNat (s2.bytes a size)
          .ok (m, s2.setBytes a (leBytes size (f m)))
        | .tcm o =>
          let m := leNat (s2.tcmBytes n o size)
          .ok (m, s2.setTcm n o (leBytes size (f m)))
        | .device _ | .nothing => .error (Acc.accessFault .store va)

/-! ## Running an instruction (R376 to R378, R410, R442, R476) -/

/-- Whether a core's clock reaches it: its cluster is open and its PLL runs. -/
def State.coreClocked (s : State) (n : Nat) : Bool := (s.gate (n / 8)).isOpen && (s.pll (s.clusterPll (n / 8))).running

/-- Whether an instruction of a core waits for the value of a field page (R12, R31). -/
def Core.waits (c : Core) : Bool :=
  match c.page with
  | some (_, none) => true
  | some (_, some _) | none => false

/-- Whether a core may execute now, IDLE apart: started, not in a load that waits, not stopped by the safe state or the containment of
its plane. -/
def State.coreCan (s : State) (n : Nat) : Bool :=
  !(s.core n).halted && !(s.core n).waits && !s.flt.safe && !s.flt.planes.contains (if n < 64 then 1 else 0) && s.coreClocked n

/-- A core ends an instruction, and with it any value that a field page gave for it. -/
def State.pageDrop (s : State) (n : Nat) : State := s.setCore n { s.core n with page := none }

/-- A load that waits: the core stands at it, its registers as before, and runs it again once the value is there. -/
def State.coreStall (s before : State) (n : Nat) : State :=
  s.setCore n { s.core n with g := (before.core n).g, f := (before.core n).f, pc := (before.core n).pc }

/-- Run an instruction of len bytes: fetch, the checks of its own bits, its work with pc at the next instruction, and its
retirement. A trap drops what the instruction did. -/
def State.runInsn (s : State) (n len : Nat) (word : Word) (legal : Bool) (op : State → Res) : State :=
  match s.ifetch n len with
  | .error t => (s.pageDrop n).trapTake n t
  | .ok s1 =>
    if !legal then (s1.pageDrop n).trapTake n (illegal word)
    else match op (s1.setPc n (s.pc n + Word.of len)) with
      | .error t => (s1.pageDrop n).trapTake n t
      | .ok s2 => if (s2.core n).waits then s2.coreStall s n else (s2.pageDrop n).retire n (s.core n).level 1

/-- A row of a Zarn instruction: a core that stands still, or waits in IDLE, does not execute it. -/
def State.zarn (s : State) (n : Nat) (f : State → State) : Host.Outcome State Fault Refusal :=
  if 80 ≤ n then .fault (.noSuchCore n)
  else .next (if s.coreCan n && (!(s.core n).idle || s.idleEnds n) then f (s.setCore n { s.core n with idle := false }) else s)

/-- A row of a 32-bit form. -/
def State.zarn32 (s : State) (n w : Nat) (op : State → Res) : Host.Outcome State Fault Refusal :=
  s.zarn n (fun t => t.runInsn n 4 (Word.of w) (insnLegal w) op)

/-- A row of a 16-bit form. -/
def State.zarn16 (s : State) (n w : Nat) (legal : Bool) (op : State → Res) : Host.Outcome State Fault Refusal :=
  s.zarn n (fun t => t.runInsn n 2 (Word.of w) legal op)

end Sys2Proof.Machine
end

