-- ==== Sys2Proof/Machine/ZarnOps.lean ====
section
/-! DEFINITION. What Zarn instructions compute: integer operations and flags, multiply and divide, memory, floating point, custom
instructions and the decode blob (19_zarn_instruction_set.md). -/

namespace Sys2Proof.Machine

/-! ## Integer operations (R385 to R388) -/

/-- An operand at width w, unsigned. -/
def uns (w : Nat) (a : Word) : Nat := a.toNat % 2 ^ w

/-- An operand at width w, signed. -/
def sgn (w : Nat) (a : Word) : Int := toSigned w a.toNat

/-- A result of width w as it is written: a W form's 32 bits are sign-extended (R387). -/
def wOut (w r : Nat) : Word := if w = 32 then (BitVec.ofNat 32 r).signExtend 64 else BitVec.ofNat 64 r

/-- The width of a W bit. -/
def widthOf (w32 : Bool) : Nat := if w32 then 32 else 64

/-- The result of integer function F4 at width w (R385, R388). -/
def intVal (f4 w : Nat) (a b : Word) : Nat :=
  let k := b.toNat
  (match f4 with
  | 0x0 | 0xC => uns w a + uns w b
  | 0x1 | 0xD => uns w a + 2 ^ w - uns w b
  | 0x2 | 0xF => uns w a &&& uns w b
  | 0x3 => uns w a ||| uns w b
  | 0x4 => uns w a ^^^ uns w b
  | 0x5 => if k < w then uns w a * 2 ^ k else 0
  | 0x6 => if k < w then uns w a / 2 ^ k else 0
  | 0x7 => intBits w (sgn w a / 2 ^ min k (w - 1))
  | 0x8 => uns w a * 2 ^ (k % w) + uns w a / 2 ^ (w - k % w)
  | 0x9 => uns w a / 2 ^ (k % w) + uns w a * 2 ^ (w - k % w)
  | 0xA => if sgn w a < sgn w b then 1 else 0
  | 0xB => if uns w a < uns w b then 1 else 0
  | _ => 2 ^ w - uns w a) % 2 ^ w

/-- Whether an exact signed result lies outside width w (R386). -/
def outRange (w : Nat) (v : Int) : Bool := decide (v < -(2 ^ (w - 1) : Nat)) || decide ((2 ^ (w - 1) : Nat) ≤ v)

/-- FLG with flags written; none leaves a flag. -/
def flgPut (f : Word) (n z c v dz : Option Bool) : Word :=
  let put (w : Word) (i : Nat) (x : Option Bool) : Word := match x with
    | some b => w.setBit i b
    | none => w
  put (put (put (put (put f 4 n) 3 z) 2 c) 1 v) 0 dz

/-- FLG after integer function F4 (R385, R386, R389). -/
def intFlg (f4 w : Nat) (a b f : Word) : Word :=
  let r := intVal f4 w a b
  let n := some (r.testBit (w - 1))
  let z := some (decide (r = 0))
  match f4 with
  | 0xC => flgPut f n z (some (decide (2 ^ w ≤ uns w a + uns w b))) (some (outRange w (sgn w a + sgn w b))) none
  | 0xD => flgPut f n z (some (decide (uns w b ≤ uns w a))) (some (outRange w (sgn w a - sgn w b))) none
  | 0xE => flgPut f n z none (some (outRange w (-(sgn w a)))) none
  | 0xF => flgPut f n z (some false) (some false) none
  | _ => f

/-- FLG of a core. -/
def State.flg (s : State) (n : Nat) : Word := s.sysRaw n 0x001

/-- Write FLG. -/
def State.setFlg (s : State) (n : Nat) (f : Word) : State := s.setSysRaw n 0x001 f

/-- An integer function on two operands at width w into RD; F4 0xC to 0xF write flags. -/
def State.intOp (s : State) (n f4 w rd : Nat) (a b : Word) : State :=
  let s1 := s.setGr n rd (wOut w (intVal f4 w a b))
  if f4 < 0xC then s1 else s1.setFlg n (intFlg f4 w a b (s.flg n))

/-- OP 0x00: F4 on RS1 and RS2, F6[0] the W bit. -/
def State.intReg (s : State) (n f4 rd rs1 rs2 f6 : Nat) : State :=
  s.intOp n f4 (widthOf (decide (f6 = 1))) rd (s.gr n rs1) (s.gr n rs2)

/-- The immediate of OP 0x01: unsigned for shifts and rotates, else sign-extended (R385). -/
def immOf (f4 imm : Nat) : Word := if 5 ≤ f4 ∧ f4 ≤ 9 then Word.of imm else sext 11 imm

/-- OP 0x01: F4 on RS1 and the immediate. -/
def State.intImm (s : State) (n f4 rd rs1 imm : Nat) : State := s.intOp n f4 64 rd (s.gr n rs1) (immOf f4 imm)

/-! ## Multiply and divide (R389, R390) -/

/-- The product of function F4 at width w. -/
def mulVal (f4 w : Nat) (a b : Word) : Nat :=
  match f4 with
  | 0 => uns w a * uns w b % 2 ^ w
  | 1 => intBits w (sgn w a * sgn w b / 2 ^ w)
  | 2 => uns w a * uns w b / 2 ^ w
  | _ => intBits w (sgn w a * uns w b / 2 ^ w)

/-- The quotient or remainder of function F4 at width w (R389). -/
def divVal (f4 w : Nat) (a b : Word) : Nat :=
  if uns w b = 0 then (if f4 < 6 then 0 else uns w a)
  else match f4 with
  | 4 => intBits w (Int.tdiv (sgn w a) (sgn w b))
  | 5 => uns w a / uns w b
  | 6 => intBits w (Int.tmod (sgn w a) (sgn w b))
  | _ => uns w a % uns w b

/-- V of a division: the signed overflow MIN by −1. -/
def divOver (f4 w : Nat) (a b : Word) : Bool :=
  (decide (f4 = 4) || decide (f4 = 6)) && decide (sgn w a = -(2 ^ (w - 1) : Nat)) && decide (sgn w b = -1)

/-- OP 0x02: multiply or divide; a zero divisor traps while MODE.DZTRAP is 1. -/
def State.mulDiv (s : State) (n f4 rd rs1 rs2 f6 : Nat) : Res :=
  let w := widthOf (decide (f6 = 1))
  let a := s.gr n rs1
  let b := s.gr n rs2
  if f4 < 4 then .ok (s.setGr n rd (wOut w (mulVal f4 w a b)))
  else if uns w b = 0 ∧ (s.sysRaw n 0x207).bit 0 = true then .error ⟨0x04, 0⟩
  else .ok ((s.setGr n rd (wOut w (divVal f4 w a b))).setFlg n
    (flgPut (s.flg n) none none none (some (divOver f4 w a b)) (some (decide (uns w b = 0)))))

/-! ## Loads, stores, atomics (R391, R392) -/

/-- Size in bytes of a load of OP 0x03. -/
def ldSize (f4 : Nat) : Nat :=
  match f4 with
  | 0 | 4 => 1
  | 1 | 5 => 2
  | 2 | 6 => 4
  | _ => 8

/-- OP 0x03: F4 0 to 2 sign-extend. -/
def State.load (s : State) (n f4 rd rs1 imm : Nat) : Res :=
  match s.dataLoad n (s.gr n rs1 + sext 11 imm) (ldSize f4) with
  | .error t => .error t
  | .ok (v, s1) => .ok (s1.setGr n rd (if f4 < 3 then sext (8 * ldSize f4) v.toNat else v))

/-- OP 0x04: the low 1, 2, 4 or 8 bytes of RS2. -/
def State.storeG (s : State) (n f4 rs2 rs1 imm : Nat) : Res :=
  s.dataStore n (s.gr n rs1 + sext 11 imm) (2 ^ f4) (s.gr n rs2)

/-- OP 0x0D: FL32 and FL64. -/
def State.loadF (s : State) (n f4 rd rs1 imm : Nat) : Res :=
  match s.dataLoad n (s.gr n rs1 + sext 11 imm) (if f4 = 0 then 4 else 8) with
  | .error t => .error t
  | .ok (v, s1) => .ok (s1.setFr n rd v)

/-- OP 0x0E: FS32 and FS64. -/
def State.storeF (s : State) (n f4 rs2 rs1 imm : Nat) : Res :=
  s.dataStore n (s.gr n rs1 + sext 11 imm) (if f4 = 0 then 4 else 8) (s.fr n rs2)

/-- The new value of memory of an atomic function at width w; old is RD before the instruction. -/
def rmwVal (f4 w m b old : Nat) : Nat :=
  match f4 with
  | 0x0 => b
  | 0x1 => (m + b) % 2 ^ w
  | 0x2 => m &&& b
  | 0x3 => m ||| b
  | 0x4 => m ^^^ b
  | 0x5 => if toSigned w m ≤ toSigned w b then m else b
  | 0x6 => if toSigned w m ≤ toSigned w b then b else m
  | 0x7 => min m b
  | 0x8 => max m b
  | _ => if m = old then b else m

/-- OP 0x0B: the old value of memory into RD; CMPX writes Z. -/
def State.rmw (s : State) (n f4 rd rs1 rs2 f6 : Nat) : Res :=
  let w := widthOf (decide (f6 % 2 = 1))
  let old := uns w (s.gr n rd)
  match s.dataRmw n (s.gr n rs1) (w / 8) (fun m => rmwVal f4 w m (uns w (s.gr n rs2)) old) with
  | .error t => .error t
  | .ok (m, s1) =>
    let s2 := s1.setGr n rd (wOut w m)
    .ok (if f4 = 9 then s2.setFlg n (flgPut (s2.flg n) none (some (decide (m = old))) none none none) else s2)

/-! ## Control transfer and constants (R382, R393, R394) -/

/-- Whether COND holds on FLG (R393). -/
def condHolds (cond : Nat) (f : Word) : Bool :=
  let n := f.bit 4
  let z := f.bit 3
  let c := f.bit 2
  let v := f.bit 1
  match cond with
  | 0x0 => true
  | 0x1 => z
  | 0x2 => !z
  | 0x3 => n
  | 0x4 => !n
  | 0x5 => c
  | 0x6 => !c
  | 0x7 => v
  | 0x8 => !v
  | 0x9 => c && !z
  | 0xA => !c || z
  | 0xB => n == v
  | 0xC => n != v
  | 0xD => !z && n == v
  | 0xE => z || n != v
  | _ => f.bit 0

/-- A word with bit 0 cleared, as pc takes it. -/
def evenPc (v : Word) : Word := v.setBit 0 false

/-- A branch of OP 0x05; pc is the branch's own address. -/
def State.branch (s : State) (n cond imm : Nat) (pc : Word) : State :=
  if condHolds cond (s.flg n) then s.setPc n (pc + sext 21 imm * 2) else s

/-- JMPL. -/
def State.jmpl (s : State) (n rd imm : Nat) (pc : Word) : State := (s.setGr n rd (pc + 4)).setPc n (pc + sext 20 imm * 2)

/-- JMPLR. -/
def State.jmplr (s : State) (n rd rs1 imm : Nat) (pc : Word) : State :=
  (s.setGr n rd (pc + 4)).setPc n (evenPc (s.gr n rs1 + sext 11 imm))

/-- A counter register falls by 1, and pc goes to a target while it is not 0 (R382). -/
def State.dbnz (s : State) (n r : Nat) (target : Word) : State :=
  let v := s.gr n r - 1
  let s1 := s.setGr n r v
  if v = 0 then s1 else s1.setPc n target

/-- PCOFF. -/
def State.pcoff (s : State) (n rd imm : Nat) (pc : Word) : State := s.setGr n rd (pc + sext 20 imm * 2048)

/-- PLZ, PLN, PLK by F2. -/
def State.plConst (s : State) (n rd hw f2 imm : Nat) : State :=
  let v := Word.of (imm * 2 ^ (16 * hw))
  s.setGr n rd (match f2 with
    | 0 => v
    | 1 => ~~~v
    | _ => (s.gr n rd).setField (16 * hw + 15) (16 * hw) imm)

/-! ## System instructions (R395, R402, R410, R416) -/

/-- SYSRD, SYSWR, SYSSET, SYSCLR by F4. -/
def State.sysOp (s : State) (n f4 rd rs1 k : Nat) (word : Word) : Res :=
  match s.sysCheck n k (decide (f4 ≠ 0)) word with
  | some t => .error t
  | none =>
    let t := s.sysVal n k
    let v := s.gr n rs1
    let s1 := match f4 with
      | 0 => s
      | 1 => s.sysPut n k v
      | 2 => s.sysPut n k (t ||| v)
      | _ => s.sysPut n k (t &&& ~~~v)
    .ok (s1.setGr n rd t)

/-- MBAR: the translations that IMM11 names are discarded (R416). One core's accesses are performed in program order here, so
the ordered pairs change nothing. -/
def State.mbar (s : State) (n imm : Nat) : State :=
  let keep (e : Nat × Nat × Word) : Bool := !imm.testBit 5 && (!imm.testBit 4 || e.2.2.bit 6)
  s.setCore n { s.core n with tlb := (s.core n).tlb.filter keep }

/-- IDLE: the core stalls at the next instruction unless an enabled cause is pending (R410). -/
def State.idle (s : State) (n : Nat) : State :=
  if s.idleEnds n then s else s.setCore n { s.core n with idle := true }

/-- LRET: PRIV at U; ILLEGAL on a control core whose saved level is U (R406, R410). -/
def State.lret (s : State) (n : Nat) (word : Word) : Res :=
  let l := (s.core n).level
  let b := if l = .m then 0x400 else 0x200
  let st := s.sysRaw n b
  if l = .u then .error (priv word)
  else if 64 ≤ n ∧ st.field 9 8 = 0 then .error (illegal word)
  else
    let s1 := s.setSysRaw n b (st.setBit 0 (st.bit 4))
    .ok (s1.setCore n { s1.core n with level := levelOf (st.field 9 8), pc := evenPc (s.sysRaw n (b + 1)) })

/-! ## The decode blob (R400, R402) -/

/-- Which register fields of an instruction name g registers: RD, RS1, RS2 (R400). In layout S, RS2 stands in [8:4]. -/
def gFields (w : Nat) : Bool × Bool × Bool :=
  let f4 := wF4 w
  match wOp w with
  | 0x00 => (true, true, decide (f4 ≠ 0xE))
  | 0x02 => (true, true, true)
  | 0x01 | 0x03 => (true, true, false)
  | 0x04 => (false, true, true)
  | 0x09 => (true, false, false)
  | 0x0D | 0x0E => (false, true, false)
  | 0x0F => (decide (f4 = 0xA) || decide (f4 = 0xC) || decide (f4 = 0xE), decide (f4 = 0xB) || decide (f4 = 0xD), false)
  | _ => (false, false, false)

/-- Whether an instruction's opcode may stand in a µop. -/
def uopOp (w : Nat) : Bool := decide (wOp w ≤ 4) || decide (wOp w = 9) || (decide (0x0D ≤ wOp w) && decide (wOp w ≤ 0x10))

/-- Whether a µop's instruction is a store. -/
def uopStore (u : Word) : Bool := let w := u.field 31 0; decide (wOp w = 4) || decide (wOp w = 0x0E)

/-- The RS2 field of a µop's instruction: [8:4] in layout S. -/
def uRs2 (w : Nat) : Nat := if wOp w = 4 ∨ wOp w = 0x0E then wRd w else wRs2 w

/-- Whether a µop breaks R400 or R377: a reserved bit, COND 3, an instruction that is not permitted or not legal, or a
replacement of a field that names no g register. USE and TMP on one field, and a TMP field above t7, are such (DEDUCED, assumption 112). -/
def uopBad (u : Word) : Bool :=
  let w := u.field 31 0
  let g := gFields w
  let bad (named : Bool) (use tmp : Nat) (field : Nat) : Bool :=
    ((u.bit use || u.bit tmp) && !named) || (u.bit use && u.bit tmp) || (u.bit tmp && decide (8 ≤ field))
  decide (u.field 63 40 ≠ 0) || decide (u.field 39 38 = 3) || !(w.testBit 15) || !uopOp w || !insnLegal w ||
  bad g.1 32 35 (wRd w) || bad g.2.1 33 36 (wRs1 w) || bad g.2.2 34 37 (uRs2 w)

/-- LEN of a slot entry. -/
def slotLen (e : Word) : Nat := e.field 21 16 + 1

/-- Whether µop i is the last of a valid slot, and of none an earlier one. -/
def storeAllowed (slots : List Word) (i : Nat) : Bool :=
  let holds (e : Word) : Bool := e.bit 63 && decide (e.field 11 0 ≤ i) && decide (i < e.field 11 0 + slotLen e)
  slots.any holds && slots.all (fun e => !holds e || decide (i + 1 = e.field 11 0 + slotLen e))

/-- Whether the body of a decode blob gives FORMAT. -/
def blobBad (slots uops : List Word) : Bool :=
  slots.any (fun e => reservedSet [e] [0xE0000000003F0FFF] ||
    (e.bit 63 && (decide (e.field 62 61 = 3) || decide (uops.length < e.field 11 0 + slotLen e)))) ||
  uops.any uopBad ||
  (List.range uops.length).any (fun i => uopStore (wordAt uops i) && !storeAllowed slots i)

/-- The status of a decode blob at a physical address, and its slots and µops when it is OK (R402). Its header is judged first:
MAGIC, KIND and lengths, then FORMAT's version; then its digest and signature; then its contents (DESIGN CHOICE, assumption 111:
the spec names the causes and no order among them but that of R39). -/
def State.blobCheck (s : State) (n pa : Nat) : Status × List Word × List Word :=
  match s.physBytes n pa 512 with
  | none => (.accessViolation, [], [])
  | some h =>
    let w0 := hdrWord h 0
    let nuop := (hdrWord h 3).toNat
    if w0.field 63 32 ≠ 0x5A445442 ∨ w0.field 31 8 ≠ 0 then (.format, [], [])
    else if w0.field 7 0 ≠ 1 then (.version, [], [])
    else if nuop = 0 ∨ 4096 < nuop ∨ (hdrWord h 2).toNat ≠ 512 + 8 * nuop ∨ reservedSet [hdrWord h 1] [0xFFFFF] = true ∨
        (slice h 0x50 0x130 ++ slice h 0x1E0 0x20).any (fun b => decide (b ≠ 0)) = true then (.format, [], [])
    else
      match s.physBytes n pa (1024 + 8 * nuop) with
      | none => (.accessViolation, [], [])
      | some bs =>
        let body := slice bs 512 (512 + 8 * nuop)
        let signed := match s.trs.keyman with
          | some k => (match s.imageKey k.body bs with
              | some pub => imageSigned bs pub
              | none => false)
          | none => false
        let slots := bytesWords 64 body
        let uops := bytesWords nuop (body.drop 512)
        if slice bs 0x20 48 ≠ sha384 body ∨ signed = false then (.integrity, [], [])
        else if blobBad slots uops then (.format, [], [])
        else (.ok, slots, uops)

/-- A list of words as a table. -/
def tableOf (ws : List Word) : Tab Word := (List.range ws.length).foldl (fun t i => Tab.set 0 t i (wordAt ws i)) []

/-- UDL: PRIV below M; RD takes the status, and an OK blob replaces the table. -/
def State.udl (s : State) (n rd rs1 : Nat) (word : Word) : Res :=
  if (s.core n).level ≠ .m then .error (priv word)
  else
    let r := s.blobCheck n (s.gr n rs1).toNat
    let s1 := if r.1 = .ok then s.setCore n { s.core n with slots := tableOf r.2.1, uops := tableOf r.2.2 } else s
    .ok (s1.setGr n rd (Word.of r.1.code))

/-! ## Floating point (R396 to R399) -/

/-- The format of P. -/
def fFmt (p : Bool) : FFmt := if p then fFp64 else fFp32

/-- The bits of an operand in precision P. -/
def fBits (p : Bool) (v : Word) : Nat := if p then v.toNat else v.field 31 0

/-- Whether bits spell a signalling NaN. -/
def sigNan (p : Bool) (bits : Nat) : Bool := decide (decodeFlt (fFmt p) bits = .nan) && !bits.testBit ((fFmt p).mb - 1)

/-- The rounding mode of sr.FPS.RND, none for 5 to 7. -/
def rndOf (fps : Word) : Option Round :=
  match fps.field 10 8 with
  | 0 => some .even
  | 1 => some .away
  | 2 => some .up
  | 3 => some .down
  | 4 => some .zero
  | _ => none

/-- Raise flags in sr.FPS. -/
def State.raise (s : State) (n : Nat) (f : FFlags) : State :=
  let w := s.sysRaw n 0x002
  let set (w : Word) (i : Nat) (x : Bool) : Word := if x then w.setBit i true else w
  s.setSysRaw n 0x002 (set (set (set (set (set w 0 f.nv) 1 f.dz) 2 f.ovf) 3 f.unf) 4 f.nx)

/-- Flags of an operation: those of its rounding, and invalid or division by zero. -/
def fWith (f : FFlags) (nv dz : Bool) : FFlags := { f with nv := f.nv || nv, dz := f.dz || dz }

/-- FADD, FSUB, FMUL, FDIV by F4: the exact result, invalid, division by zero. -/
def fArith (f4 : Nat) (md : Round) (x y : Num) : Num × Bool × Bool :=
  match f4 with
  | 0 => let r := numAdd md x y; (r.1, r.2, false)
  | 1 => let r := numAdd md x y.neg; (r.1, r.2, false)
  | 2 => let r := numMul x y; (r.1, r.2, false)
  | _ => numDiv x y

/-- An operation that rounds under RND: ILLEGAL where RND names no mode. -/
def State.withRnd (s : State) (n : Nat) (word : Word) (f : Round → State) : Res :=
  match rndOf (s.sysRaw n 0x002) with
  | some md => .ok (f md)
  | none => .error (illegal word)

/-- FADD to FDIV. -/
def State.fArithOp (s : State) (n f4 rd rs1 rs2 : Nat) (p : Bool) (word : Word) : Res :=
  s.withRnd n word (fun md =>
    let a := fBits p (s.fr n rs1)
    let b := fBits p (s.fr n rs2)
    let r := fArith f4 md (decodeFlt (fFmt p) a) (decodeFlt (fFmt p) b)
    let o := ieeeRound (fFmt p) md r.1
    (s.setFr n rd (Word.of o.1)).raise n (fWith o.2 (r.2.1 || sigNan p a || sigNan p b) r.2.2))

/-- FSQRT. -/
def State.fSqrtOp (s : State) (n rd rs1 : Nat) (p : Bool) (word : Word) : Res :=
  s.withRnd n word (fun md =>
    let a := fBits p (s.fr n rs1)
    let r := numSqrt (decodeFlt (fFmt p) a)
    let o := ieeeRound (fFmt p) md r.1
    (s.setFr n rd (Word.of o.1)).raise n (fWith o.2 (r.2 || sigNan p a) false))

/-- FMIN and FMAX (R398). -/
def State.fPickOp (s : State) (n rd rs1 rs2 : Nat) (p mx : Bool) : State :=
  let a := fBits p (s.fr n rs1)
  let b := fBits p (s.fr n rs2)
  let o := ieeeRound (fFmt p) .even (Num.pick mx (decodeFlt (fFmt p) a) (decodeFlt (fFmt p) b))
  (s.setFr n rd (Word.of o.1)).raise n (fWith noFlags (sigNan p a || sigNan p b) false)

/-- FSIGN: 0 COPY, 1 FLIP, 2 MIX. -/
def State.fSignOp (s : State) (n rd rs1 rs2 : Nat) (p : Bool) (kind : Nat) : State :=
  let a := fBits p (s.fr n rs1)
  let top := if p then 63 else 31
  let x := a.testBit top
  let y := (fBits p (s.fr n rs2)).testBit top
  let sg := match kind with
    | 0 => y
    | 1 => !y
    | _ => x != y
  s.setFr n rd ((Word.of a).setBit top sg)

/-- Whether a value is below another, neither NaN; zeros of both signs are equal (R398). -/
def numLt (a b : Num) : Bool :=
  match a, b with
  | .nan, _ | _, .nan => false
  | .fin _ 0 _, .fin _ 0 _ => false
  | a, b => a.le b && !(b.le a)

/-- FCMP. -/
def State.fCmpOp (s : State) (n rs1 rs2 : Nat) (p : Bool) : State :=
  let a := fBits p (s.fr n rs1)
  let b := fBits p (s.fr n rs2)
  let x := decodeFlt (fFmt p) a
  let y := decodeFlt (fFmt p) b
  let un := decide (x = .nan) || decide (y = .nan)
  let s1 := s.setFlg n (flgPut (s.flg n) (some (numLt x y)) (some (!un && !numLt x y && !numLt y x)) (some false) (some un) none)
  s1.raise n (fWith noFlags (sigNan p a || sigNan p b) false)

/-- FCNV.P: into precision P from the other; the conversion to binary64 is exact and rounds under no mode (R399). -/
def State.fCnvP (s : State) (n rd rs1 : Nat) (p : Bool) (word : Word) : Res :=
  let a := fBits (!p) (s.fr n rs1)
  let x := decodeFlt (fFmt (!p)) a
  let go (md : Round) : State :=
    let o := ieeeRound (fFmt p) md x
    (s.setFr n rd (Word.of o.1)).raise n (fWith o.2 (sigNan (!p) a) false)
  if p then .ok (go .even) else s.withRnd n word go

/-- A value converted to an integer of b bits (R399): the result, invalid, inexact. -/
def toInt (x : Num) (md : Round) (b : Nat) (unsign : Bool) : Int × Bool × Bool :=
  let lo : Int := if unsign then 0 else -(2 ^ (b - 1) : Nat)
  let hi : Int := (if unsign then (2 ^ b : Nat) else (2 ^ (b - 1) : Nat)) - 1
  match x with
  | .nan => (0, true, false)
  | .inf neg => (if neg then lo else hi, true, false)
  | .fin neg m e =>
    let v := roundInt md neg m e
    if v < lo then (lo, true, false) else if hi < v then (hi, true, false) else (v, false, !(roundTo md neg m e 0).2)

/-- FCNV.TI: RO 0 rounds under RND, 1 toward zero, 2 toward +∞, 3 toward −∞; F6[3] unsigned, F6[4] 32-bit. -/
def State.fCnvTi (s : State) (n rd rs1 f6 : Nat) (word : Word) : Res :=
  let p := decide (f6 % 2 = 1)
  let b := widthOf (f6.testBit 4)
  let go (md : Round) : State :=
    let r := toInt (decodeFlt (fFmt p) (fBits p (s.fr n rs1))) md b (f6.testBit 3)
    (s.setGr n rd (wOut b (intBits b r.1))).raise n ⟨r.2.1, false, false, false, r.2.2⟩
  match f6 / 2 % 4 with
  | 0 => s.withRnd n word go
  | 1 => .ok (go .zero)
  | 2 => .ok (go .up)
  | _ => .ok (go .down)

/-- FCNV.FI: a g register converted into precision P. -/
def State.fCnvFi (s : State) (n rd rs1 f6 : Nat) (word : Word) : Res :=
  let p := decide (f6 % 2 = 1)
  let b := widthOf (f6.testBit 4)
  let a := s.gr n rs1
  s.withRnd n word (fun md =>
    let o := ieeeRound (fFmt p) md (numOfInt (if f6.testBit 3 then (uns b a : Int) else sgn b a))
    (s.setFr n rd (Word.of o.1)).raise n o.2)

/-- FBITS.G. -/
def State.fBitsG (s : State) (n rd rs1 : Nat) (p : Bool) : State := s.setGr n rd (Word.of (fBits p (s.fr n rs1)))

/-- FBITS.F. -/
def State.fBitsF (s : State) (n rd rs1 : Nat) (p : Bool) : State := s.setFr n rd (Word.of (fBits p (s.gr n rs1)))

/-- The class of bits (FKIND). -/
def fKind (p : Bool) (bits : Nat) : Nat :=
  let f := fFmt p
  let neg := bits.testBit (if p then 63 else 31)
  let sub := decide (bits / 2 ^ f.mb % 2 ^ f.eb = 0)
  match decodeFlt f bits with
  | .nan => if sigNan p bits then 9 else 8
  | .inf _ => if neg then 7 else 6
  | .fin _ m _ => (if m = 0 then 0 else if sub then 2 else 4) + (if neg then 1 else 0)

/-- FKIND. -/
def State.fKindOp (s : State) (n rd rs1 : Nat) (p : Bool) : State :=
  s.setGr n rd (Word.oneBit (fKind p (fBits p (s.fr n rs1))))

/-- Whether a product is 0 × ∞ while the addend is a quiet NaN: IEEE 754-2019 leaves the invalid flag of that case to the
implementation. -/
def fmaQuiet (p : Bool) (x y : Num) (c : Nat) : Bool :=
  (numMul x y).2 && decide (decodeFlt (fFmt p) c = .nan) && !sigNan p c

/-- FMAC and its negations: F4[1] negates the product and F4[0] the addend; one rounding. -/
def State.fMacOp (s : State) (n f4 rd rs1 rs2 rs3 : Nat) (p : Bool) (word : Word) : Res :=
  s.withRnd n word (fun md =>
    let a := fBits p (s.fr n rs1)
    let b := fBits p (s.fr n rs2)
    let c := fBits p (s.fr n rs3)
    let x := decodeFlt (fFmt p) a
    let y := decodeFlt (fFmt p) b
    let z := decodeFlt (fFmt p) c
    let m := numMul x y
    let r := numAdd md (if f4.testBit 1 then m.1.neg else m.1) (if f4.testBit 0 then z.neg else z)
    let o := ieeeRound (fFmt p) md r.1
    let nv := (if fmaQuiet p x y c then Config.fmaInvalid else m.2) || r.2 || sigNan p a || sigNan p b || sigNan p c
    (s.setFr n rd (Word.of o.1)).raise n (fWith o.2 nv false))

/-- OP 0x0F by F4. -/
def State.fpOp (s : State) (n f4 rd rs1 rs2 f6 : Nat) (word : Word) : Res :=
  let p := decide (f6 % 2 = 1)
  match f4 with
  | 0x0 | 0x1 | 0x2 | 0x3 => s.fArithOp n f4 rd rs1 rs2 p word
  | 0x4 => s.fSqrtOp n rd rs1 p word
  | 0x5 => .ok (s.fPickOp n rd rs1 rs2 p false)
  | 0x6 => .ok (s.fPickOp n rd rs1 rs2 p true)
  | 0x7 => .ok (s.fSignOp n rd rs1 rs2 p (f6 / 2 % 4))
  | 0x8 => .ok (s.fCmpOp n rs1 rs2 p)
  | 0x9 => s.fCnvP n rd rs1 p word
  | 0xA => s.fCnvTi n rd rs1 f6 word
  | 0xB => s.fCnvFi n rd rs1 f6 word
  | 0xC => .ok (s.fBitsG n rd rs1 p)
  | 0xD => .ok (s.fBitsF n rd rs1 p)
  | _ => .ok (s.fKindOp n rd rs1 p)

/-! ## Custom instructions (R401) -/

/-- A register field of a µop: the custom instruction's register, a temporary, or the field itself. -/
def uReg (u : Word) (use tmp cust field : Nat) : Nat := if u.bit use then cust else if u.bit tmp then 32 + field % 8 else field

/-- Run one µop of a custom instruction with fields RD, RS1, RS2; word is the custom instruction's. -/
def State.uop (s : State) (n rdC rs1C rs2C : Nat) (word u : Word) : Res :=
  let w := u.field 31 0
  let f4 := wF4 w
  let rd := uReg u 32 35 rdC (wRd w)
  let rs1 := uReg u 33 36 rs1C (wRs1 w)
  let rs2 := uReg u 34 37 rs2C (uRs2 w)
  let z := (s.flg n).bit 3
  if (u.field 39 38 = 1 ∧ z = false) ∨ (u.field 39 38 = 2 ∧ z = true) then .ok s
  else match wOp w with
  | 0x00 => .ok (s.intReg n f4 rd rs1 rs2 (wF6 w))
  | 0x01 => .ok (s.intImm n f4 rd rs1 (wImm w))
  | 0x02 => s.mulDiv n f4 rd rs1 rs2 (wF6 w)
  | 0x03 => s.load n f4 rd rs1 (wImm w)
  | 0x04 => s.storeG n f4 rs2 rs1 (wImm w)
  | 0x09 => .ok (s.plConst n rd (f4 / 4) (f4 % 4) (w / 2 ^ 16))
  | 0x0D => s.loadF n f4 rd rs1 (wImm w)
  | 0x0E => s.storeF n f4 rs2 rs1 (wImm w)
  | 0x0F => s.fpOp n f4 rd rs1 rs2 (wF6 w) word
  | 0x10 => s.fMacOp n f4 rd rs1 rs2 (w / 2 ^ 17 % 32) (w.testBit 16) word
  | _ => .error (illegal word)

/-- Run µops in order. -/
def State.uopsRun (s : State) (n rdC rs1C rs2C : Nat) (word : Word) (us : List Word) : Res :=
  match us with
  | [] => .ok s
  | u :: r => match s.uop n rdC rs1C rs2C word u with
    | .error t => .error t
    | .ok s1 => s1.uopsRun n rdC rs1C rs2C word r

/-- The temporaries of a custom instruction: t0 to t6 are 0, t7 is F4; they end with it. -/
def State.temps (s : State) (n : Nat) (f4 : Option Nat) : State :=
  let g := (s.core n).g.filter (fun e => e.1 < 32)
  s.setCore n { s.core n with g := match f4 with
    | some k => Tab.set 0 g 39 (Word.of k)
    | none => g }

/-- A custom instruction (R401). -/
def State.customRun (s : State) (n rd f4 rs1 rs2 slot : Nat) (word : Word) : Res :=
  let c := s.core n
  let e := Tab.get 0 c.slots slot
  if !e.bit 63 || decide (c.level.num < e.field 62 61) then .error (illegal word)
  else
    let us := (List.range (slotLen e)).map (fun i => Tab.get 0 c.uops (e.field 11 0 + i))
    match (s.temps n (some f4)).uopsRun n rd rs1 rs2 word us with
    | .error t => .error t
    | .ok s1 => .ok (((s1.temps n none).countCore n c.level 0x000C 1).countCore n c.level 0x0001 (slotLen e - 1))

end Sys2Proof.Machine
end

