-- ==== Sys2Proof/Machine/Cores.lean ====
section
/-! DEFINITION. The rows of the Zarn instruction set, and of interrupts (19_zarn_instruction_set.md,
20_cores_and_counters.md). c is the core that executes the instruction. -/

namespace Sys2Proof.Machine

/-! ## 16-bit forms (R381) -/

/-- S.MOV (R381): the halfword 0x0000 is ILLEGAL. -/
def execSMov (c : Nat) (rd rs : BitVec 5) (s : State) : Host.Outcome State Fault Refusal :=
  s.zarn16 c (encCR 0x0 rd.toNat rs.toNat 0) (decide (rd ≠ 0) || decide (rs ≠ 0))
    (fun t => .ok (t.setGr c rd.toNat (t.gr c rs.toNat)))

/-- S.ADD (R381). -/
def execSAdd (c : Nat) (rd rs : BitVec 5) (s : State) : Host.Outcome State Fault Refusal :=
  s.zarn16 c (encCR 0 rd.toNat rs.toNat 1) true
    (fun t => .ok (t.intOp c 0 64 rd.toNat (t.gr c rd.toNat) (t.gr c rs.toNat)))

/-- S.SUB (R381). -/
def execSSub (c : Nat) (rd rs : BitVec 5) (s : State) : Host.Outcome State Fault Refusal :=
  s.zarn16 c (encCR 1 rd.toNat rs.toNat 0) true
    (fun t => .ok (t.intOp c 1 64 rd.toNat (t.gr c rd.toNat) (t.gr c rs.toNat)))

/-- S.AND (R381). -/
def execSAnd (c : Nat) (rd rs : BitVec 5) (s : State) : Host.Outcome State Fault Refusal :=
  s.zarn16 c (encCR 1 rd.toNat rs.toNat 1) true
    (fun t => .ok (t.intOp c 2 64 rd.toNat (t.gr c rd.toNat) (t.gr c rs.toNat)))

/-- S.OR (R381). -/
def execSOr (c : Nat) (rd rs : BitVec 5) (s : State) : Host.Outcome State Fault Refusal :=
  s.zarn16 c (encCR 2 rd.toNat rs.toNat 0) true
    (fun t => .ok (t.intOp c 3 64 rd.toNat (t.gr c rd.toNat) (t.gr c rs.toNat)))

/-- S.XOR (R381). -/
def execSXor (c : Nat) (rd rs : BitVec 5) (s : State) : Host.Outcome State Fault Refusal :=
  s.zarn16 c (encCR 2 rd.toNat rs.toNat 1) true
    (fun t => .ok (t.intOp c 4 64 rd.toNat (t.gr c rd.toNat) (t.gr c rs.toNat)))

/-- S.SHL (R381). -/
def execSShl (c : Nat) (rd rs : BitVec 5) (s : State) : Host.Outcome State Fault Refusal :=
  s.zarn16 c (encCR 3 rd.toNat rs.toNat 0) true
    (fun t => .ok (t.intOp c 5 64 rd.toNat (t.gr c rd.toNat) (t.gr c rs.toNat)))

/-- S.SAR (R381). -/
def execSSar (c : Nat) (rd rs : BitVec 5) (s : State) : Host.Outcome State Fault Refusal :=
  s.zarn16 c (encCR 3 rd.toNat rs.toNat 1) true
    (fun t => .ok (t.intOp c 7 64 rd.toNat (t.gr c rd.toNat) (t.gr c rs.toNat)))

/-- S.ADD.I (R381). -/
def execSAddI (c : Nat) (rd : BitVec 5) (imm : BitVec 6) (s : State) : Host.Outcome State Fault Refusal :=
  s.zarn16 c (0x4 * 2 ^ 11 + rd.toNat * 2 ^ 6 + imm.toNat) true
    (fun t => .ok (t.intOp c 0 64 rd.toNat (t.gr c rd.toNat) (sext 6 imm.toNat)))

/-- S.LDI (R381). -/
def execSLdi (c : Nat) (rd : BitVec 5) (imm : BitVec 6) (s : State) : Host.Outcome State Fault Refusal :=
  s.zarn16 c (0x5 * 2 ^ 11 + rd.toNat * 2 ^ 6 + imm.toNat) true
    (fun t => .ok (t.setGr c rd.toNat (sext 6 imm.toNat)))

/-- S.SHL.I (R381). -/
def execSShlI (c : Nat) (rd : BitVec 5) (imm : BitVec 6) (s : State) : Host.Outcome State Fault Refusal :=
  s.zarn16 c (0x6 * 2 ^ 11 + rd.toNat * 2 ^ 6 + imm.toNat) true
    (fun t => .ok (t.intOp c 5 64 rd.toNat (t.gr c rd.toNat) (Word.of imm.toNat)))

/-- S.SHR.I (R381). -/
def execSShrI (c : Nat) (rd : BitVec 5) (imm : BitVec 6) (s : State) : Host.Outcome State Fault Refusal :=
  s.zarn16 c (0x7 * 2 ^ 11 + rd.toNat * 2 ^ 6 + imm.toNat) true
    (fun t => .ok (t.intOp c 6 64 rd.toNat (t.gr c rd.toNat) (Word.of imm.toNat)))

/-- A 64-bit load at an address into a general register. -/
def State.load64 (s : State) (n rd : Nat) (va : Word) : Res :=
  match s.dataLoad n va 8 with
  | .error t => .error t
  | .ok (v, s1) => .ok (s1.setGr n rd v)

/-- S.LD64 (R381). -/
def execSLd64 (c : Nat) (rd rb : BitVec 3) (off : BitVec 5) (s : State) : Host.Outcome State Fault Refusal :=
  s.zarn16 c (0x8 * 2 ^ 11 + rd.toNat * 2 ^ 8 + rb.toNat * 2 ^ 5 + off.toNat) true
    (fun t => t.load64 c (8 + rd.toNat) (t.gr c (8 + rb.toNat) + Word.of (off.toNat * 8)))

/-- S.ST64 (R381). -/
def execSSt64 (c : Nat) (rd rb : BitVec 3) (off : BitVec 5) (s : State) : Host.Outcome State Fault Refusal :=
  s.zarn16 c (0x9 * 2 ^ 11 + rd.toNat * 2 ^ 8 + rb.toNat * 2 ^ 5 + off.toNat) true
    (fun t => t.dataStore c (t.gr c (8 + rb.toNat) + Word.of (off.toNat * 8)) 8 (t.gr c (8 + rd.toNat)))

/-- S.LDF (R381): the frame base is g2. -/
def execSLdf (c : Nat) (rd : BitVec 5) (imm : BitVec 6) (s : State) : Host.Outcome State Fault Refusal :=
  s.zarn16 c (0xA * 2 ^ 11 + rd.toNat * 2 ^ 6 + imm.toNat) true
    (fun t => t.load64 c rd.toNat (t.gr c 2 + Word.of (imm.toNat * 8)))

/-- S.STF (R381). -/
def execSStf (c : Nat) (rd : BitVec 5) (imm : BitVec 6) (s : State) : Host.Outcome State Fault Refusal :=
  s.zarn16 c (0xB * 2 ^ 11 + rd.toNat * 2 ^ 6 + imm.toNat) true
    (fun t => t.dataStore c (t.gr c 2 + Word.of (imm.toNat * 8)) 8 (t.gr c rd.toNat))

/-- S.J (R381). -/
def execSJ (c : Nat) (imm : BitVec 11) (s : State) : Host.Outcome State Fault Refusal :=
  s.zarn16 c (0xC * 2 ^ 11 + imm.toNat) true (fun t => .ok (t.setPc c (s.pc c + sext 11 imm.toNat * 2)))

/-- S.JZ (R381). -/
def execSJz (c : Nat) (rs : BitVec 3) (imm : BitVec 7) (s : State) : Host.Outcome State Fault Refusal :=
  s.zarn16 c (0xD * 2 ^ 11 + rs.toNat * 2 ^ 8 + 0 * 2 ^ 7 + imm.toNat) true
    (fun t => .ok (if t.gr c (8 + rs.toNat) = 0 then t.setPc c (s.pc c + sext 7 imm.toNat * 2) else t))

/-- S.JNZ (R381). -/
def execSJnz (c : Nat) (rs : BitVec 3) (imm : BitVec 7) (s : State) : Host.Outcome State Fault Refusal :=
  s.zarn16 c (0xD * 2 ^ 11 + rs.toNat * 2 ^ 8 + 1 * 2 ^ 7 + imm.toNat) true
    (fun t => .ok (if t.gr c (8 + rs.toNat) ≠ 0 then t.setPc c (s.pc c + sext 7 imm.toNat * 2) else t))

/-- S.JR (R381): RD must be 0, and RS = g0 is ILLEGAL. -/
def execSJr (c : Nat) (rd rs : BitVec 5) (s : State) : Host.Outcome State Fault Refusal :=
  s.zarn16 c (encCR 0xE rd.toNat rs.toNat 0) (decide (rd = 0) && decide (rs ≠ 0))
    (fun t => .ok (t.setPc c (evenPc (t.gr c rs.toNat))))

/-- S.JLR (R381): the link goes to g1. -/
def execSJlr (c : Nat) (rd rs : BitVec 5) (s : State) : Host.Outcome State Fault Refusal :=
  s.zarn16 c (encCR 0xE rd.toNat rs.toNat 1) (decide (rd = 0) && decide (rs ≠ 0))
    (fun t => .ok ((t.setGr c 1 (s.pc c + 2)).setPc c (evenPc (t.gr c rs.toNat))))

/-- S.DBNZ (R382): backward by (D + 1) × 2. -/
def execSDbnz (c : Nat) (ctr : BitVec 3) (d : BitVec 8) (s : State) : Host.Outcome State Fault Refusal :=
  s.zarn16 c (0xF * 2 ^ 11 + ctr.toNat * 2 ^ 8 + d.toNat) true
    (fun t => .ok (t.dbnz c (8 + ctr.toNat) (s.pc c - Word.of ((d.toNat + 1) * 2))))

/-- DBNZ (R382): RD = g0 is ILLEGAL. -/
def execDbnz (c : Nat) (rd : BitVec 5) (imm : BitVec 20) (s : State) : Host.Outcome State Fault Refusal :=
  s.zarn32 c (encJ 0x08 rd.toNat imm.toNat)
    (fun t => .ok (t.dbnz c rd.toNat (s.pc c + sext 20 imm.toNat * 2)))

/-! ## Integer operations (R385 to R390) -/

/-- ADD (R385). -/
def execAdd (c : Nat) (rd rs1 rs2 : BitVec 5) (f6 : BitVec 6) (s : State) : Host.Outcome State Fault Refusal :=
  s.zarn32 c (encR 0x00 rd.toNat 0x0 rs1.toNat rs2.toNat f6.toNat)
    (fun t => .ok (t.intReg c 0x0 rd.toNat rs1.toNat rs2.toNat f6.toNat))

/-- SUB (R385). -/
def execSub (c : Nat) (rd rs1 rs2 : BitVec 5) (f6 : BitVec 6) (s : State) : Host.Outcome State Fault Refusal :=
  s.zarn32 c (encR 0x00 rd.toNat 0x1 rs1.toNat rs2.toNat f6.toNat)
    (fun t => .ok (t.intReg c 0x1 rd.toNat rs1.toNat rs2.toNat f6.toNat))

/-- AND (R385). -/
def execAnd (c : Nat) (rd rs1 rs2 : BitVec 5) (f6 : BitVec 6) (s : State) : Host.Outcome State Fault Refusal :=
  s.zarn32 c (encR 0x00 rd.toNat 0x2 rs1.toNat rs2.toNat f6.toNat)
    (fun t => .ok (t.intReg c 0x2 rd.toNat rs1.toNat rs2.toNat f6.toNat))

/-- OR (R385). -/
def execOr (c : Nat) (rd rs1 rs2 : BitVec 5) (f6 : BitVec 6) (s : State) : Host.Outcome State Fault Refusal :=
  s.zarn32 c (encR 0x00 rd.toNat 0x3 rs1.toNat rs2.toNat f6.toNat)
    (fun t => .ok (t.intReg c 0x3 rd.toNat rs1.toNat rs2.toNat f6.toNat))

/-- XOR (R385). -/
def execXor (c : Nat) (rd rs1 rs2 : BitVec 5) (f6 : BitVec 6) (s : State) : Host.Outcome State Fault Refusal :=
  s.zarn32 c (encR 0x00 rd.toNat 0x4 rs1.toNat rs2.toNat f6.toNat)
    (fun t => .ok (t.intReg c 0x4 rd.toNat rs1.toNat rs2.toNat f6.toNat))

/-- SHL (R385). -/
def execShl (c : Nat) (rd rs1 rs2 : BitVec 5) (f6 : BitVec 6) (s : State) : Host.Outcome State Fault Refusal :=
  s.zarn32 c (encR 0x00 rd.toNat 0x5 rs1.toNat rs2.toNat f6.toNat)
    (fun t => .ok (t.intReg c 0x5 rd.toNat rs1.toNat rs2.toNat f6.toNat))

/-- SHR (R385). -/
def execShr (c : Nat) (rd rs1 rs2 : BitVec 5) (f6 : BitVec 6) (s : State) : Host.Outcome State Fault Refusal :=
  s.zarn32 c (encR 0x00 rd.toNat 0x6 rs1.toNat rs2.toNat f6.toNat)
    (fun t => .ok (t.intReg c 0x6 rd.toNat rs1.toNat rs2.toNat f6.toNat))

/-- SAR (R385). -/
def execSar (c : Nat) (rd rs1 rs2 : BitVec 5) (f6 : BitVec 6) (s : State) : Host.Outcome State Fault Refusal :=
  s.zarn32 c (encR 0x00 rd.toNat 0x7 rs1.toNat rs2.toNat f6.toNat)
    (fun t => .ok (t.intReg c 0x7 rd.toNat rs1.toNat rs2.toNat f6.toNat))

/-- ROTL (R385). -/
def execRotl (c : Nat) (rd rs1 rs2 : BitVec 5) (f6 : BitVec 6) (s : State) : Host.Outcome State Fault Refusal :=
  s.zarn32 c (encR 0x00 rd.toNat 0x8 rs1.toNat rs2.toNat f6.toNat)
    (fun t => .ok (t.intReg c 0x8 rd.toNat rs1.toNat rs2.toNat f6.toNat))

/-- ROTR (R385). -/
def execRotr (c : Nat) (rd rs1 rs2 : BitVec 5) (f6 : BitVec 6) (s : State) : Host.Outcome State Fault Refusal :=
  s.zarn32 c (encR 0x00 rd.toNat 0x9 rs1.toNat rs2.toNat f6.toNat)
    (fun t => .ok (t.intReg c 0x9 rd.toNat rs1.toNat rs2.toNat f6.toNat))

/-- LTS (R385). -/
def execLts (c : Nat) (rd rs1 rs2 : BitVec 5) (f6 : BitVec 6) (s : State) : Host.Outcome State Fault Refusal :=
  s.zarn32 c (encR 0x00 rd.toNat 0xA rs1.toNat rs2.toNat f6.toNat)
    (fun t => .ok (t.intReg c 0xA rd.toNat rs1.toNat rs2.toNat f6.toNat))

/-- LTU (R385). -/
def execLtu (c : Nat) (rd rs1 rs2 : BitVec 5) (f6 : BitVec 6) (s : State) : Host.Outcome State Fault Refusal :=
  s.zarn32 c (encR 0x00 rd.toNat 0xB rs1.toNat rs2.toNat f6.toNat)
    (fun t => .ok (t.intReg c 0xB rd.toNat rs1.toNat rs2.toNat f6.toNat))

/-- ADD.F (R385). -/
def execAddF (c : Nat) (rd rs1 rs2 : BitVec 5) (f6 : BitVec 6) (s : State) : Host.Outcome State Fault Refusal :=
  s.zarn32 c (encR 0x00 rd.toNat 0xC rs1.toNat rs2.toNat f6.toNat)
    (fun t => .ok (t.intReg c 0xC rd.toNat rs1.toNat rs2.toNat f6.toNat))

/-- SUB.F (R385). -/
def execSubF (c : Nat) (rd rs1 rs2 : BitVec 5) (f6 : BitVec 6) (s : State) : Host.Outcome State Fault Refusal :=
  s.zarn32 c (encR 0x00 rd.toNat 0xD rs1.toNat rs2.toNat f6.toNat)
    (fun t => .ok (t.intReg c 0xD rd.toNat rs1.toNat rs2.toNat f6.toNat))

/-- NEG (R385). -/
def execNeg (c : Nat) (rd rs1 rs2 : BitVec 5) (f6 : BitVec 6) (s : State) : Host.Outcome State Fault Refusal :=
  s.zarn32 c (encR 0x00 rd.toNat 0xE rs1.toNat rs2.toNat f6.toNat)
    (fun t => .ok (t.intReg c 0xE rd.toNat rs1.toNat rs2.toNat f6.toNat))

/-- AND.F (R385). -/
def execAndF (c : Nat) (rd rs1 rs2 : BitVec 5) (f6 : BitVec 6) (s : State) : Host.Outcome State Fault Refusal :=
  s.zarn32 c (encR 0x00 rd.toNat 0xF rs1.toNat rs2.toNat f6.toNat)
    (fun t => .ok (t.intReg c 0xF rd.toNat rs1.toNat rs2.toNat f6.toNat))

/-- ADD.I (R385). -/
def execAddI (c : Nat) (rd rs1 : BitVec 5) (imm : BitVec 11) (s : State) : Host.Outcome State Fault Refusal :=
  s.zarn32 c (encI 0x01 rd.toNat 0x0 rs1.toNat imm.toNat)
    (fun t => .ok (t.intImm c 0x0 rd.toNat rs1.toNat imm.toNat))

/-- AND.I (R385). -/
def execAndI (c : Nat) (rd rs1 : BitVec 5) (imm : BitVec 11) (s : State) : Host.Outcome State Fault Refusal :=
  s.zarn32 c (encI 0x01 rd.toNat 0x2 rs1.toNat imm.toNat)
    (fun t => .ok (t.intImm c 0x2 rd.toNat rs1.toNat imm.toNat))

/-- OR.I (R385). -/
def execOrI (c : Nat) (rd rs1 : BitVec 5) (imm : BitVec 11) (s : State) : Host.Outcome State Fault Refusal :=
  s.zarn32 c (encI 0x01 rd.toNat 0x3 rs1.toNat imm.toNat)
    (fun t => .ok (t.intImm c 0x3 rd.toNat rs1.toNat imm.toNat))

/-- XOR.I (R385). -/
def execXorI (c : Nat) (rd rs1 : BitVec 5) (imm : BitVec 11) (s : State) : Host.Outcome State Fault Refusal :=
  s.zarn32 c (encI 0x01 rd.toNat 0x4 rs1.toNat imm.toNat)
    (fun t => .ok (t.intImm c 0x4 rd.toNat rs1.toNat imm.toNat))

/-- SHL.I (R385). -/
def execShlI (c : Nat) (rd rs1 : BitVec 5) (imm : BitVec 11) (s : State) : Host.Outcome State Fault Refusal :=
  s.zarn32 c (encI 0x01 rd.toNat 0x5 rs1.toNat imm.toNat)
    (fun t => .ok (t.intImm c 0x5 rd.toNat rs1.toNat imm.toNat))

/-- SHR.I (R385). -/
def execShrI (c : Nat) (rd rs1 : BitVec 5) (imm : BitVec 11) (s : State) : Host.Outcome State Fault Refusal :=
  s.zarn32 c (encI 0x01 rd.toNat 0x6 rs1.toNat imm.toNat)
    (fun t => .ok (t.intImm c 0x6 rd.toNat rs1.toNat imm.toNat))

/-- SAR.I (R385). -/
def execSarI (c : Nat) (rd rs1 : BitVec 5) (imm : BitVec 11) (s : State) : Host.Outcome State Fault Refusal :=
  s.zarn32 c (encI 0x01 rd.toNat 0x7 rs1.toNat imm.toNat)
    (fun t => .ok (t.intImm c 0x7 rd.toNat rs1.toNat imm.toNat))

/-- ROTR.I (R385). -/
def execRotrI (c : Nat) (rd rs1 : BitVec 5) (imm : BitVec 11) (s : State) : Host.Outcome State Fault Refusal :=
  s.zarn32 c (encI 0x01 rd.toNat 0x9 rs1.toNat imm.toNat)
    (fun t => .ok (t.intImm c 0x9 rd.toNat rs1.toNat imm.toNat))

/-- LTS.I (R385). -/
def execLtsI (c : Nat) (rd rs1 : BitVec 5) (imm : BitVec 11) (s : State) : Host.Outcome State Fault Refusal :=
  s.zarn32 c (encI 0x01 rd.toNat 0xA rs1.toNat imm.toNat)
    (fun t => .ok (t.intImm c 0xA rd.toNat rs1.toNat imm.toNat))

/-- LTU.I (R385). -/
def execLtuI (c : Nat) (rd rs1 : BitVec 5) (imm : BitVec 11) (s : State) : Host.Outcome State Fault Refusal :=
  s.zarn32 c (encI 0x01 rd.toNat 0xB rs1.toNat imm.toNat)
    (fun t => .ok (t.intImm c 0xB rd.toNat rs1.toNat imm.toNat))

/-- ADD.FI (R385). -/
def execAddFi (c : Nat) (rd rs1 : BitVec 5) (imm : BitVec 11) (s : State) : Host.Outcome State Fault Refusal :=
  s.zarn32 c (encI 0x01 rd.toNat 0xC rs1.toNat imm.toNat)
    (fun t => .ok (t.intImm c 0xC rd.toNat rs1.toNat imm.toNat))

/-- SUB.FI (R385). -/
def execSubFi (c : Nat) (rd rs1 : BitVec 5) (imm : BitVec 11) (s : State) : Host.Outcome State Fault Refusal :=
  s.zarn32 c (encI 0x01 rd.toNat 0xD rs1.toNat imm.toNat)
    (fun t => .ok (t.intImm c 0xD rd.toNat rs1.toNat imm.toNat))

/-- MULLO (R390). -/
def execMullo (c : Nat) (rd rs1 rs2 : BitVec 5) (f6 : BitVec 6) (s : State) : Host.Outcome State Fault Refusal :=
  s.zarn32 c (encR 0x02 rd.toNat 0x0 rs1.toNat rs2.toNat f6.toNat)
    (fun t => t.mulDiv c 0x0 rd.toNat rs1.toNat rs2.toNat f6.toNat)

/-- MULHI.SS (R390). -/
def execMulhiSs (c : Nat) (rd rs1 rs2 : BitVec 5) (f6 : BitVec 6) (s : State) : Host.Outcome State Fault Refusal :=
  s.zarn32 c (encR 0x02 rd.toNat 0x1 rs1.toNat rs2.toNat f6.toNat)
    (fun t => t.mulDiv c 0x1 rd.toNat rs1.toNat rs2.toNat f6.toNat)

/-- MULHI.UU (R390). -/
def execMulhiUu (c : Nat) (rd rs1 rs2 : BitVec 5) (f6 : BitVec 6) (s : State) : Host.Outcome State Fault Refusal :=
  s.zarn32 c (encR 0x02 rd.toNat 0x2 rs1.toNat rs2.toNat f6.toNat)
    (fun t => t.mulDiv c 0x2 rd.toNat rs1.toNat rs2.toNat f6.toNat)

/-- MULHI.SU (R390). -/
def execMulhiSu (c : Nat) (rd rs1 rs2 : BitVec 5) (f6 : BitVec 6) (s : State) : Host.Outcome State Fault Refusal :=
  s.zarn32 c (encR 0x02 rd.toNat 0x3 rs1.toNat rs2.toNat f6.toNat)
    (fun t => t.mulDiv c 0x3 rd.toNat rs1.toNat rs2.toNat f6.toNat)

/-- DIVS (R390). -/
def execDivs (c : Nat) (rd rs1 rs2 : BitVec 5) (f6 : BitVec 6) (s : State) : Host.Outcome State Fault Refusal :=
  s.zarn32 c (encR 0x02 rd.toNat 0x4 rs1.toNat rs2.toNat f6.toNat)
    (fun t => t.mulDiv c 0x4 rd.toNat rs1.toNat rs2.toNat f6.toNat)

/-- DIVU (R390). -/
def execDivu (c : Nat) (rd rs1 rs2 : BitVec 5) (f6 : BitVec 6) (s : State) : Host.Outcome State Fault Refusal :=
  s.zarn32 c (encR 0x02 rd.toNat 0x5 rs1.toNat rs2.toNat f6.toNat)
    (fun t => t.mulDiv c 0x5 rd.toNat rs1.toNat rs2.toNat f6.toNat)

/-- RMDS (R390). -/
def execRmds (c : Nat) (rd rs1 rs2 : BitVec 5) (f6 : BitVec 6) (s : State) : Host.Outcome State Fault Refusal :=
  s.zarn32 c (encR 0x02 rd.toNat 0x6 rs1.toNat rs2.toNat f6.toNat)
    (fun t => t.mulDiv c 0x6 rd.toNat rs1.toNat rs2.toNat f6.toNat)

/-- RMDU (R390). -/
def execRmdu (c : Nat) (rd rs1 rs2 : BitVec 5) (f6 : BitVec 6) (s : State) : Host.Outcome State Fault Refusal :=
  s.zarn32 c (encR 0x02 rd.toNat 0x7 rs1.toNat rs2.toNat f6.toNat)
    (fun t => t.mulDiv c 0x7 rd.toNat rs1.toNat rs2.toNat f6.toNat)

/-! ## Memory access (R391, R392) -/

/-- LD8S (R391). -/
def execLd8s (c : Nat) (rd rs1 : BitVec 5) (imm : BitVec 11) (s : State) : Host.Outcome State Fault Refusal :=
  s.zarn32 c (encI 0x03 rd.toNat 0x0 rs1.toNat imm.toNat)
    (fun t => t.load c 0 rd.toNat rs1.toNat imm.toNat)

/-- LD16S (R391). -/
def execLd16s (c : Nat) (rd rs1 : BitVec 5) (imm : BitVec 11) (s : State) : Host.Outcome State Fault Refusal :=
  s.zarn32 c (encI 0x03 rd.toNat 0x1 rs1.toNat imm.toNat)
    (fun t => t.load c 1 rd.toNat rs1.toNat imm.toNat)

/-- LD32S (R391). -/
def execLd32s (c : Nat) (rd rs1 : BitVec 5) (imm : BitVec 11) (s : State) : Host.Outcome State Fault Refusal :=
  s.zarn32 c (encI 0x03 rd.toNat 0x2 rs1.toNat imm.toNat)
    (fun t => t.load c 2 rd.toNat rs1.toNat imm.toNat)

/-- LD64 (R391). -/
def execLd64 (c : Nat) (rd rs1 : BitVec 5) (imm : BitVec 11) (s : State) : Host.Outcome State Fault Refusal :=
  s.zarn32 c (encI 0x03 rd.toNat 0x3 rs1.toNat imm.toNat)
    (fun t => t.load c 3 rd.toNat rs1.toNat imm.toNat)

/-- LD8U (R391). -/
def execLd8u (c : Nat) (rd rs1 : BitVec 5) (imm : BitVec 11) (s : State) : Host.Outcome State Fault Refusal :=
  s.zarn32 c (encI 0x03 rd.toNat 0x4 rs1.toNat imm.toNat)
    (fun t => t.load c 4 rd.toNat rs1.toNat imm.toNat)

/-- LD16U (R391). -/
def execLd16u (c : Nat) (rd rs1 : BitVec 5) (imm : BitVec 11) (s : State) : Host.Outcome State Fault Refusal :=
  s.zarn32 c (encI 0x03 rd.toNat 0x5 rs1.toNat imm.toNat)
    (fun t => t.load c 5 rd.toNat rs1.toNat imm.toNat)

/-- LD32U (R391). -/
def execLd32u (c : Nat) (rd rs1 : BitVec 5) (imm : BitVec 11) (s : State) : Host.Outcome State Fault Refusal :=
  s.zarn32 c (encI 0x03 rd.toNat 0x6 rs1.toNat imm.toNat)
    (fun t => t.load c 6 rd.toNat rs1.toNat imm.toNat)

/-- ST8 (R391). -/
def execSt8 (c : Nat) (rs2 rs1 : BitVec 5) (imm : BitVec 11) (s : State) : Host.Outcome State Fault Refusal :=
  s.zarn32 c (encI 0x04 rs2.toNat 0x0 rs1.toNat imm.toNat)
    (fun t => t.storeG c 0 rs2.toNat rs1.toNat imm.toNat)

/-- ST16 (R391). -/
def execSt16 (c : Nat) (rs2 rs1 : BitVec 5) (imm : BitVec 11) (s : State) : Host.Outcome State Fault Refusal :=
  s.zarn32 c (encI 0x04 rs2.toNat 0x1 rs1.toNat imm.toNat)
    (fun t => t.storeG c 1 rs2.toNat rs1.toNat imm.toNat)

/-- ST32 (R391). -/
def execSt32 (c : Nat) (rs2 rs1 : BitVec 5) (imm : BitVec 11) (s : State) : Host.Outcome State Fault Refusal :=
  s.zarn32 c (encI 0x04 rs2.toNat 0x2 rs1.toNat imm.toNat)
    (fun t => t.storeG c 2 rs2.toNat rs1.toNat imm.toNat)

/-- ST64 (R391). -/
def execSt64 (c : Nat) (rs2 rs1 : BitVec 5) (imm : BitVec 11) (s : State) : Host.Outcome State Fault Refusal :=
  s.zarn32 c (encI 0x04 rs2.toNat 0x3 rs1.toNat imm.toNat)
    (fun t => t.storeG c 3 rs2.toNat rs1.toNat imm.toNat)

/-- FL32 (R391). -/
def execFl32 (c : Nat) (rd rs1 : BitVec 5) (imm : BitVec 11) (s : State) : Host.Outcome State Fault Refusal :=
  s.zarn32 c (encI 0x0D rd.toNat 0x0 rs1.toNat imm.toNat)
    (fun t => t.loadF c 0 rd.toNat rs1.toNat imm.toNat)

/-- FL64 (R391). -/
def execFl64 (c : Nat) (rd rs1 : BitVec 5) (imm : BitVec 11) (s : State) : Host.Outcome State Fault Refusal :=
  s.zarn32 c (encI 0x0D rd.toNat 0x1 rs1.toNat imm.toNat)
    (fun t => t.loadF c 1 rd.toNat rs1.toNat imm.toNat)

/-- FS32 (R391). -/
def execFs32 (c : Nat) (rs2 rs1 : BitVec 5) (imm : BitVec 11) (s : State) : Host.Outcome State Fault Refusal :=
  s.zarn32 c (encI 0x0E rs2.toNat 0x0 rs1.toNat imm.toNat)
    (fun t => t.storeF c 0 rs2.toNat rs1.toNat imm.toNat)

/-- FS64 (R391). -/
def execFs64 (c : Nat) (rs2 rs1 : BitVec 5) (imm : BitVec 11) (s : State) : Host.Outcome State Fault Refusal :=
  s.zarn32 c (encI 0x0E rs2.toNat 0x1 rs1.toNat imm.toNat)
    (fun t => t.storeF c 1 rs2.toNat rs1.toNat imm.toNat)

/-- RMW.SWAP (R392). -/
def execRmwSwap (c : Nat) (rd rs1 rs2 : BitVec 5) (f6 : BitVec 6) (s : State) : Host.Outcome State Fault Refusal :=
  s.zarn32 c (encR 0x0B rd.toNat 0x0 rs1.toNat rs2.toNat f6.toNat)
    (fun t => t.rmw c 0 rd.toNat rs1.toNat rs2.toNat f6.toNat)

/-- RMW.ADD (R392). -/
def execRmwAdd (c : Nat) (rd rs1 rs2 : BitVec 5) (f6 : BitVec 6) (s : State) : Host.Outcome State Fault Refusal :=
  s.zarn32 c (encR 0x0B rd.toNat 0x1 rs1.toNat rs2.toNat f6.toNat)
    (fun t => t.rmw c 1 rd.toNat rs1.toNat rs2.toNat f6.toNat)

/-- RMW.AND (R392). -/
def execRmwAnd (c : Nat) (rd rs1 rs2 : BitVec 5) (f6 : BitVec 6) (s : State) : Host.Outcome State Fault Refusal :=
  s.zarn32 c (encR 0x0B rd.toNat 0x2 rs1.toNat rs2.toNat f6.toNat)
    (fun t => t.rmw c 2 rd.toNat rs1.toNat rs2.toNat f6.toNat)

/-- RMW.OR (R392). -/
def execRmwOr (c : Nat) (rd rs1 rs2 : BitVec 5) (f6 : BitVec 6) (s : State) : Host.Outcome State Fault Refusal :=
  s.zarn32 c (encR 0x0B rd.toNat 0x3 rs1.toNat rs2.toNat f6.toNat)
    (fun t => t.rmw c 3 rd.toNat rs1.toNat rs2.toNat f6.toNat)

/-- RMW.XOR (R392). -/
def execRmwXor (c : Nat) (rd rs1 rs2 : BitVec 5) (f6 : BitVec 6) (s : State) : Host.Outcome State Fault Refusal :=
  s.zarn32 c (encR 0x0B rd.toNat 0x4 rs1.toNat rs2.toNat f6.toNat)
    (fun t => t.rmw c 4 rd.toNat rs1.toNat rs2.toNat f6.toNat)

/-- RMW.SMIN (R392). -/
def execRmwSmin (c : Nat) (rd rs1 rs2 : BitVec 5) (f6 : BitVec 6) (s : State) : Host.Outcome State Fault Refusal :=
  s.zarn32 c (encR 0x0B rd.toNat 0x5 rs1.toNat rs2.toNat f6.toNat)
    (fun t => t.rmw c 5 rd.toNat rs1.toNat rs2.toNat f6.toNat)

/-- RMW.SMAX (R392). -/
def execRmwSmax (c : Nat) (rd rs1 rs2 : BitVec 5) (f6 : BitVec 6) (s : State) : Host.Outcome State Fault Refusal :=
  s.zarn32 c (encR 0x0B rd.toNat 0x6 rs1.toNat rs2.toNat f6.toNat)
    (fun t => t.rmw c 6 rd.toNat rs1.toNat rs2.toNat f6.toNat)

/-- RMW.UMIN (R392). -/
def execRmwUmin (c : Nat) (rd rs1 rs2 : BitVec 5) (f6 : BitVec 6) (s : State) : Host.Outcome State Fault Refusal :=
  s.zarn32 c (encR 0x0B rd.toNat 0x7 rs1.toNat rs2.toNat f6.toNat)
    (fun t => t.rmw c 7 rd.toNat rs1.toNat rs2.toNat f6.toNat)

/-- RMW.UMAX (R392). -/
def execRmwUmax (c : Nat) (rd rs1 rs2 : BitVec 5) (f6 : BitVec 6) (s : State) : Host.Outcome State Fault Refusal :=
  s.zarn32 c (encR 0x0B rd.toNat 0x8 rs1.toNat rs2.toNat f6.toNat)
    (fun t => t.rmw c 8 rd.toNat rs1.toNat rs2.toNat f6.toNat)

/-- RMW.CMPX (R392). -/
def execRmwCmpx (c : Nat) (rd rs1 rs2 : BitVec 5) (f6 : BitVec 6) (s : State) : Host.Outcome State Fault Refusal :=
  s.zarn32 c (encR 0x0B rd.toNat 0x9 rs1.toNat rs2.toNat f6.toNat)
    (fun t => t.rmw c 9 rd.toNat rs1.toNat rs2.toNat f6.toNat)

/-! ## Control transfer and constants (R393, R394) -/

/-- A conditional branch (R393). -/
def execBranch (c : Nat) (cond : BitVec 4) (imm : BitVec 21) (s : State) : Host.Outcome State Fault Refusal :=
  s.zarn32 c (encB 0x05 cond.toNat imm.toNat) (fun t => .ok (t.branch c cond.toNat imm.toNat (s.pc c)))

/-- JMPL (R394). -/
def execJmpl (c : Nat) (rd : BitVec 5) (imm : BitVec 20) (s : State) : Host.Outcome State Fault Refusal :=
  s.zarn32 c (encJ 0x06 rd.toNat imm.toNat) (fun t => .ok (t.jmpl c rd.toNat imm.toNat (s.pc c)))

/-- JMPLR (R394). -/
def execJmplr (c : Nat) (rd : BitVec 5) (f4 : BitVec 4) (rs1 : BitVec 5) (imm : BitVec 11) (s : State) : Host.Outcome State Fault Refusal :=
  s.zarn32 c (encI 0x07 rd.toNat f4.toNat rs1.toNat imm.toNat)
    (fun t => .ok (t.jmplr c rd.toNat rs1.toNat imm.toNat (s.pc c)))

/-- PCOFF (R394). -/
def execPcoff (c : Nat) (rd : BitVec 5) (imm : BitVec 20) (s : State) : Host.Outcome State Fault Refusal :=
  s.zarn32 c (encJ 0x0A rd.toNat imm.toNat) (fun t => .ok (t.pcoff c rd.toNat imm.toNat (s.pc c)))

/-- PLZ (R394). -/
def execPlz (c : Nat) (rd : BitVec 5) (hw : BitVec 2) (imm : BitVec 16) (s : State) : Host.Outcome State Fault Refusal :=
  s.zarn32 c (encK 0x09 rd.toNat hw.toNat 0 imm.toNat)
    (fun t => .ok (t.plConst c rd.toNat hw.toNat 0 imm.toNat))

/-- PLN (R394). -/
def execPln (c : Nat) (rd : BitVec 5) (hw : BitVec 2) (imm : BitVec 16) (s : State) : Host.Outcome State Fault Refusal :=
  s.zarn32 c (encK 0x09 rd.toNat hw.toNat 1 imm.toNat)
    (fun t => .ok (t.plConst c rd.toNat hw.toNat 1 imm.toNat))

/-- PLK (R394). -/
def execPlk (c : Nat) (rd : BitVec 5) (hw : BitVec 2) (imm : BitVec 16) (s : State) : Host.Outcome State Fault Refusal :=
  s.zarn32 c (encK 0x09 rd.toNat hw.toNat 2 imm.toNat)
    (fun t => .ok (t.plConst c rd.toNat hw.toNat 2 imm.toNat))

/-! ## System instructions (R395, R402, R410, R416) -/

/-- SYSRD (R395). -/
def execSysrd (c : Nat) (rd rs1 : BitVec 5) (imm : BitVec 11) (s : State) : Host.Outcome State Fault Refusal :=
  s.zarn32 c (encI 0x0C rd.toNat 0x0 rs1.toNat imm.toNat)
    (fun t => t.sysOp c 0 rd.toNat rs1.toNat imm.toNat (Word.of (encI 0x0C rd.toNat 0x0 rs1.toNat imm.toNat)))

/-- SYSWR (R395). -/
def execSyswr (c : Nat) (rd rs1 : BitVec 5) (imm : BitVec 11) (s : State) : Host.Outcome State Fault Refusal :=
  s.zarn32 c (encI 0x0C rd.toNat 0x1 rs1.toNat imm.toNat)
    (fun t => t.sysOp c 1 rd.toNat rs1.toNat imm.toNat (Word.of (encI 0x0C rd.toNat 0x1 rs1.toNat imm.toNat)))

/-- SYSSET (R395). -/
def execSysset (c : Nat) (rd rs1 : BitVec 5) (imm : BitVec 11) (s : State) : Host.Outcome State Fault Refusal :=
  s.zarn32 c (encI 0x0C rd.toNat 0x2 rs1.toNat imm.toNat)
    (fun t => t.sysOp c 2 rd.toNat rs1.toNat imm.toNat (Word.of (encI 0x0C rd.toNat 0x2 rs1.toNat imm.toNat)))

/-- SYSCLR (R395). -/
def execSysclr (c : Nat) (rd rs1 : BitVec 5) (imm : BitVec 11) (s : State) : Host.Outcome State Fault Refusal :=
  s.zarn32 c (encI 0x0C rd.toNat 0x3 rs1.toNat imm.toNat)
    (fun t => t.sysOp c 3 rd.toNat rs1.toNat imm.toNat (Word.of (encI 0x0C rd.toNat 0x3 rs1.toNat imm.toNat)))

/-- MBAR (R416). -/
def execMbar (c : Nat) (rd rs1 : BitVec 5) (imm : BitVec 11) (s : State) : Host.Outcome State Fault Refusal :=
  s.zarn32 c (encI 0x0C rd.toNat 0x4 rs1.toNat imm.toNat) (fun t => .ok (t.mbar c imm.toNat))

/-- FBAR (R395): every earlier store is already visible to the fetches of this model. -/
def execFbar (c : Nat) (rd rs1 : BitVec 5) (imm : BitVec 11) (s : State) : Host.Outcome State Fault Refusal :=
  s.zarn32 c (encI 0x0C rd.toNat 0x5 rs1.toNat imm.toNat) (fun t => .ok t)

/-- A row of LVL: its function is IMM11; a row whose immediate names another function stands for no such instruction and is
ILLEGAL (DEDUCED, assumption 109). -/
def State.lvl (s : State) (n : Nat) (rd rs1 : BitVec 5) (imm : BitVec 11) (fn : Nat) (op : State → Res) :
    Host.Outcome State Fault Refusal :=
  let w := encI 0x0C rd.toNat 0x6 rs1.toNat imm.toNat
  s.zarn32 n w (fun t => if imm.toNat = fn then op t else .error (illegal (Word.of w)))

/-- LCALL (R410): its information is the level it came from. -/
def execLcall (c : Nat) (rd rs1 : BitVec 5) (imm : BitVec 11) (s : State) : Host.Outcome State Fault Refusal :=
  s.lvl c rd rs1 imm 0 (fun t => .error ⟨0x05, Word.of (t.core c).level.num⟩)

/-- LBRK (R410). -/
def execLbrk (c : Nat) (rd rs1 : BitVec 5) (imm : BitVec 11) (s : State) : Host.Outcome State Fault Refusal :=
  s.lvl c rd rs1 imm 1 (fun _ => .error ⟨0x06, 0⟩)

/-- IDLE (R410). -/
def execIdle (c : Nat) (rd rs1 : BitVec 5) (imm : BitVec 11) (s : State) : Host.Outcome State Fault Refusal :=
  s.lvl c rd rs1 imm 2 (fun t => .ok (t.idle c))

/-- LRET (R410). -/
def execLret (c : Nat) (rd rs1 : BitVec 5) (imm : BitVec 11) (s : State) : Host.Outcome State Fault Refusal :=
  s.lvl c rd rs1 imm 3 (fun t => t.lret c (Word.of (encI 0x0C rd.toNat 0x6 rs1.toNat imm.toNat)))

/-- UDL (R402). -/
def execUdl (c : Nat) (rd rs1 : BitVec 5) (imm : BitVec 11) (s : State) : Host.Outcome State Fault Refusal :=
  s.zarn32 c (encI 0x0C rd.toNat 0x7 rs1.toNat imm.toNat)
    (fun t => t.udl c rd.toNat rs1.toNat (Word.of (encI 0x0C rd.toNat 0x7 rs1.toNat imm.toNat)))

/-! ## Floating point (R397) -/

/-- FADD (R397). -/
def execFadd (c : Nat) (rd rs1 rs2 : BitVec 5) (f6 : BitVec 6) (s : State) : Host.Outcome State Fault Refusal :=
  s.zarn32 c (encR 0x0F rd.toNat 0x0 rs1.toNat rs2.toNat f6.toNat)
    (fun t => t.fpOp c 0x0 rd.toNat rs1.toNat rs2.toNat f6.toNat (Word.of (encR 0x0F rd.toNat 0x0 rs1.toNat rs2.toNat f6.toNat)))

/-- FSUB (R397). -/
def execFsub (c : Nat) (rd rs1 rs2 : BitVec 5) (f6 : BitVec 6) (s : State) : Host.Outcome State Fault Refusal :=
  s.zarn32 c (encR 0x0F rd.toNat 0x1 rs1.toNat rs2.toNat f6.toNat)
    (fun t => t.fpOp c 0x1 rd.toNat rs1.toNat rs2.toNat f6.toNat (Word.of (encR 0x0F rd.toNat 0x1 rs1.toNat rs2.toNat f6.toNat)))

/-- FMUL (R397). -/
def execFmul (c : Nat) (rd rs1 rs2 : BitVec 5) (f6 : BitVec 6) (s : State) : Host.Outcome State Fault Refusal :=
  s.zarn32 c (encR 0x0F rd.toNat 0x2 rs1.toNat rs2.toNat f6.toNat)
    (fun t => t.fpOp c 0x2 rd.toNat rs1.toNat rs2.toNat f6.toNat (Word.of (encR 0x0F rd.toNat 0x2 rs1.toNat rs2.toNat f6.toNat)))

/-- FDIV (R397). -/
def execFdiv (c : Nat) (rd rs1 rs2 : BitVec 5) (f6 : BitVec 6) (s : State) : Host.Outcome State Fault Refusal :=
  s.zarn32 c (encR 0x0F rd.toNat 0x3 rs1.toNat rs2.toNat f6.toNat)
    (fun t => t.fpOp c 0x3 rd.toNat rs1.toNat rs2.toNat f6.toNat (Word.of (encR 0x0F rd.toNat 0x3 rs1.toNat rs2.toNat f6.toNat)))

/-- FSQRT (R397). -/
def execFsqrt (c : Nat) (rd rs1 rs2 : BitVec 5) (f6 : BitVec 6) (s : State) : Host.Outcome State Fault Refusal :=
  s.zarn32 c (encR 0x0F rd.toNat 0x4 rs1.toNat rs2.toNat f6.toNat)
    (fun t => t.fpOp c 0x4 rd.toNat rs1.toNat rs2.toNat f6.toNat (Word.of (encR 0x0F rd.toNat 0x4 rs1.toNat rs2.toNat f6.toNat)))

/-- FMIN (R397). -/
def execFmin (c : Nat) (rd rs1 rs2 : BitVec 5) (f6 : BitVec 6) (s : State) : Host.Outcome State Fault Refusal :=
  s.zarn32 c (encR 0x0F rd.toNat 0x5 rs1.toNat rs2.toNat f6.toNat)
    (fun t => t.fpOp c 0x5 rd.toNat rs1.toNat rs2.toNat f6.toNat (Word.of (encR 0x0F rd.toNat 0x5 rs1.toNat rs2.toNat f6.toNat)))

/-- FMAX (R397). -/
def execFmax (c : Nat) (rd rs1 rs2 : BitVec 5) (f6 : BitVec 6) (s : State) : Host.Outcome State Fault Refusal :=
  s.zarn32 c (encR 0x0F rd.toNat 0x6 rs1.toNat rs2.toNat f6.toNat)
    (fun t => t.fpOp c 0x6 rd.toNat rs1.toNat rs2.toNat f6.toNat (Word.of (encR 0x0F rd.toNat 0x6 rs1.toNat rs2.toNat f6.toNat)))

/-- A row of FSIGN: its kind is F6[2:1]; a row whose F6 names another kind stands for no such instruction and is ILLEGAL
(DEDUCED, assumption 109). -/
def State.fsign (s : State) (n : Nat) (rd rs1 rs2 : BitVec 5) (f6 : BitVec 6) (kind : Nat) : Host.Outcome State Fault Refusal :=
  let w := encR 0x0F rd.toNat 0x7 rs1.toNat rs2.toNat f6.toNat
  s.zarn32 n w (fun t => if f6.toNat / 2 % 4 = kind then
      t.fpOp n 0x7 rd.toNat rs1.toNat rs2.toNat f6.toNat (Word.of w)
    else .error (illegal (Word.of w)))

/-- FSIGN COPY (R397). -/
def execFsignCopy (c : Nat) (rd rs1 rs2 : BitVec 5) (f6 : BitVec 6) (s : State) : Host.Outcome State Fault Refusal :=
  s.fsign c rd rs1 rs2 f6 0

/-- FSIGN FLIP (R397). -/
def execFsignFlip (c : Nat) (rd rs1 rs2 : BitVec 5) (f6 : BitVec 6) (s : State) : Host.Outcome State Fault Refusal :=
  s.fsign c rd rs1 rs2 f6 1

/-- FSIGN MIX (R397). -/
def execFsignMix (c : Nat) (rd rs1 rs2 : BitVec 5) (f6 : BitVec 6) (s : State) : Host.Outcome State Fault Refusal :=
  s.fsign c rd rs1 rs2 f6 2

/-- FCMP (R397). -/
def execFcmp (c : Nat) (rd rs1 rs2 : BitVec 5) (f6 : BitVec 6) (s : State) : Host.Outcome State Fault Refusal :=
  s.zarn32 c (encR 0x0F rd.toNat 0x8 rs1.toNat rs2.toNat f6.toNat)
    (fun t => t.fpOp c 0x8 rd.toNat rs1.toNat rs2.toNat f6.toNat (Word.of (encR 0x0F rd.toNat 0x8 rs1.toNat rs2.toNat f6.toNat)))

/-- FCNV.P (R397). -/
def execFcnvP (c : Nat) (rd rs1 rs2 : BitVec 5) (f6 : BitVec 6) (s : State) : Host.Outcome State Fault Refusal :=
  s.zarn32 c (encR 0x0F rd.toNat 0x9 rs1.toNat rs2.toNat f6.toNat)
    (fun t => t.fpOp c 0x9 rd.toNat rs1.toNat rs2.toNat f6.toNat (Word.of (encR 0x0F rd.toNat 0x9 rs1.toNat rs2.toNat f6.toNat)))

/-- FCNV.TI (R397). -/
def execFcnvTi (c : Nat) (rd rs1 rs2 : BitVec 5) (f6 : BitVec 6) (s : State) : Host.Outcome State Fault Refusal :=
  s.zarn32 c (encR 0x0F rd.toNat 0xA rs1.toNat rs2.toNat f6.toNat)
    (fun t => t.fpOp c 0xA rd.toNat rs1.toNat rs2.toNat f6.toNat (Word.of (encR 0x0F rd.toNat 0xA rs1.toNat rs2.toNat f6.toNat)))

/-- FCNV.FI (R397). -/
def execFcnvFi (c : Nat) (rd rs1 rs2 : BitVec 5) (f6 : BitVec 6) (s : State) : Host.Outcome State Fault Refusal :=
  s.zarn32 c (encR 0x0F rd.toNat 0xB rs1.toNat rs2.toNat f6.toNat)
    (fun t => t.fpOp c 0xB rd.toNat rs1.toNat rs2.toNat f6.toNat (Word.of (encR 0x0F rd.toNat 0xB rs1.toNat rs2.toNat f6.toNat)))

/-- FBITS.G (R397). -/
def execFbitsG (c : Nat) (rd rs1 rs2 : BitVec 5) (f6 : BitVec 6) (s : State) : Host.Outcome State Fault Refusal :=
  s.zarn32 c (encR 0x0F rd.toNat 0xC rs1.toNat rs2.toNat f6.toNat)
    (fun t => t.fpOp c 0xC rd.toNat rs1.toNat rs2.toNat f6.toNat (Word.of (encR 0x0F rd.toNat 0xC rs1.toNat rs2.toNat f6.toNat)))

/-- FBITS.F (R397). -/
def execFbitsF (c : Nat) (rd rs1 rs2 : BitVec 5) (f6 : BitVec 6) (s : State) : Host.Outcome State Fault Refusal :=
  s.zarn32 c (encR 0x0F rd.toNat 0xD rs1.toNat rs2.toNat f6.toNat)
    (fun t => t.fpOp c 0xD rd.toNat rs1.toNat rs2.toNat f6.toNat (Word.of (encR 0x0F rd.toNat 0xD rs1.toNat rs2.toNat f6.toNat)))

/-- FKIND (R397). -/
def execFkind (c : Nat) (rd rs1 rs2 : BitVec 5) (f6 : BitVec 6) (s : State) : Host.Outcome State Fault Refusal :=
  s.zarn32 c (encR 0x0F rd.toNat 0xE rs1.toNat rs2.toNat f6.toNat)
    (fun t => t.fpOp c 0xE rd.toNat rs1.toNat rs2.toNat f6.toNat (Word.of (encR 0x0F rd.toNat 0xE rs1.toNat rs2.toNat f6.toNat)))

/-- A row of FMAC, whose upper bits of F4 must be 0. -/
def State.fmacRow (s : State) (n : Nat) (rd rs1 rs2 rs3 : BitVec 5) (p : Bool) (f4 : Nat) : Host.Outcome State Fault Refusal :=
  let w := encR4 0x10 rd.toNat f4 rs1.toNat rs2.toNat rs3.toNat p
  s.zarn32 n w (fun t => t.fMacOp n f4 rd.toNat rs1.toNat rs2.toNat rs3.toNat p (Word.of w))

/-- FMAC (R397). -/
def execFmac (c : Nat) (rd rs1 rs2 rs3 : BitVec 5) (p : Bool) (f4hi : BitVec 2) (s : State) : Host.Outcome State Fault Refusal :=
  s.fmacRow c rd rs1 rs2 rs3 p (f4hi.toNat * 4 + 0)

/-- FMAC.NA (R397). -/
def execFmacNa (c : Nat) (rd rs1 rs2 rs3 : BitVec 5) (p : Bool) (f4hi : BitVec 2) (s : State) : Host.Outcome State Fault Refusal :=
  s.fmacRow c rd rs1 rs2 rs3 p (f4hi.toNat * 4 + 1)

/-- FMAC.NP (R397). -/
def execFmacNp (c : Nat) (rd rs1 rs2 rs3 : BitVec 5) (p : Bool) (f4hi : BitVec 2) (s : State) : Host.Outcome State Fault Refusal :=
  s.fmacRow c rd rs1 rs2 rs3 p (f4hi.toNat * 4 + 2)

/-- FMAC.NPA (R397). -/
def execFmacNpa (c : Nat) (rd rs1 rs2 rs3 : BitVec 5) (p : Bool) (f4hi : BitVec 2) (s : State) : Host.Outcome State Fault Refusal :=
  s.fmacRow c rd rs1 rs2 rs3 p (f4hi.toNat * 4 + 3)

/-! ## Custom instructions (R401) -/

/-- CUSTOM (R401). -/
def execCustom (c : Nat) (rd : BitVec 5) (f4 : BitVec 4) (rs1 rs2 : BitVec 5) (slot : BitVec 6) (s : State) : Host.Outcome State Fault Refusal :=
  s.zarn32 c (encR 0x3F rd.toNat f4.toNat rs1.toNat rs2.toNat slot.toNat)
    (fun t => t.customRun c rd.toNat f4.toNat rs1.toNat rs2.toNat slot.toNat (Word.of (encR 0x3F rd.toNat f4.toNat rs1.toNat rs2.toNat slot.toNat)))

/-! ## Interrupts (R409 to R411) -/

/-- INTERRUPT_TAKE (R409, R410): of the causes pending that may be taken now, the one of the lowest code is taken. -/
def execInterruptTake (core : Nat) (s : State) : Host.Outcome State Fault Refusal :=
  if 80 ≤ core then .fault (.noSuchCore core)
  else .next (if s.coreCan core then
      match [1, 2, 3, 4].find? (fun c => s.irqTakeable core c) with
      | some c => s.irqTake core c
      | none => s
    else s)

/-- CYCMP_MATCH (R411): CYCLES reaches sr.CYCMP. The cause reads as pending from then on; a core that waits for it in IDLE goes
on at its next instruction. -/
def execCycmpMatch (core : Nat) (s : State) : Host.Outcome State Fault Refusal :=
  if 80 ≤ core then .fault (.noSuchCore core)
  else .next (if s.cycmpPending core && s.irqWanted core 3 && (s.core core).idle && s.coreCan core then
      s.setCore core { s.core core with idle := false }
    else s)

end Sys2Proof.Machine
end

