-- ==== Sys2Proof/Machine/Restore.lean ====
section
/-! DEFINITION. RESTORE of engine 0x06: sources, candidates, coverage, verification and re-slicing (15_kiln_checkpoint.md R307 to
R312). The descriptor is worked out anew from what its reads have brought each time its row comes, and asks for one missing
piece at a time. -/

namespace Sys2Proof.Machine

/-! ## Reading containers -/

/-- What a step of RESTORE comes to short of an answer: a piece of a container to be read, or a source that fails. -/
inductive Halt where
  | need (src off len : Nat)
  | fails (src : Nat) (st : Status)
  deriving DecidableEq, Repr

/-- The failure recorded for a source. -/
def Work.srcFail (w : Work) (i : Nat) : Option Status :=
  match w.ctx with
  | .restore fails _ _ _ _ => (fails.find? (fun f => decide (f.1 = i))).map Prod.snd
  | .none | .send _ _ _ | .read _ _ _ _ | .probe _ _ _ | .ingest _ _ _ _ _ | .contribute _ | .cipher _ _ _ => none

/-- The pieces, of at most 1 MiB, of the blocks of 4,096 bytes that an extent touches. -/
def blockPieces (off len : Nat) : List (Nat × Nat) :=
  let a := off / 4096 * 4096
  let b := up4k (off + len)
  (List.range ((b - a + 0xFFFFF) / 0x100000)).map (fun i => (a + i * 0x100000, min 0x100000 (b - (a + i * 0x100000))))

/-- Container bytes of a source: what has been read, or the first piece that has not. A range beyond SIZE fails the source with
INTEGRITY. -/
def Work.container (w : Work) (i off len : Nat) : Except Halt (List Byte) :=
  if srcSize (w.srcEntry i) < off + len then .error (.fails i .integrity)
  else
    match (blockPieces off len).find? (fun p => !bufHas w.buf (i * 2 ^ 64 + p.1) p.2) with
    | some p => .error (.need i p.1 p.2)
    | none => .ok (bufBytes w.buf (i * 2 ^ 64 + off) len)

/-! ## Sources (R303, R308 step 1, R310) -/

/-- What is known of a source: its status, whether record and manifest made it valid, the words of its commit record that the
report gives, and its shards' manifest entries. -/
structure Source where
  status : Status
  valid : Bool
  step : Word
  runId : Word
  nshard : Nat
  shards : List (List Word)
  deriving DecidableEq, Repr

/-- A source that has no valid commit record. -/
def Source.bad (st : Status) : Source := { status := st, valid := false, step := 0, runId := 0, nshard := 0, shards := [] }

/-- The manifest of a source whose record is in order. -/
def Work.manifest (w : Work) (i : Nat) (r : List Word) : Except Halt Source := do
  let m ← w.container i (wordAt r 3).toNat (wordAt r 4).toNat
  if crc64 m ≠ wordAt r 5 then .error (.fails i .integrity)
  else
    let n := wf (bytesWords 8 m) 3 31 0
    .ok { status := .ok, valid := true, step := wordAt r 1, runId := wordAt r 2, nshard := n,
          shards := (List.range n).map (fun k => bytesWords 32 (m.drop (64 + 256 * k))) }

/-- Read a source (R308 step 1). -/
def Work.source (w : Work) (runId : Word) (maxStep i : Nat) : Except Halt Source := do
  if srcSize (w.srcEntry i) = 0 then .ok (.bad .state)
  else
    let r := bytesWords 8 (← w.container i 0 64)
    if wf r 0 63 32 ≠ 0x4B4C4E43 ∨ crc64 (wordsBytes (r.take 7)) ≠ wordAt r 7 then .ok (.bad .state)
    else
      let x : Source := { Source.bad .state with step := wordAt r 1, runId := wordAt r 2 }
      if wf r 0 31 16 ≠ 1 then .ok { x with status := .version }
      else if x.runId ≠ runId ∨ maxStep < x.step.toNat then .ok x
      else w.manifest i r

/-- A source with a recorded failure keeps what has been read of it. -/
def Work.sourceNow (w : Work) (runId : Word) (maxStep i : Nat) : Except Halt Source :=
  match w.srcFail i with
  | none => w.source runId maxStep i
  | some st =>
    match w.source runId maxStep i with
    | .ok x => .ok { x with status := st }
    | .error _ =>
      match w.container i 0 64 with
      | .ok bs =>
        let r := bytesWords 8 bs
        if wf r 0 63 32 = 0x4B4C4E43 ∧ crc64 (wordsBytes (r.take 7)) = wordAt r 7 then
          .ok { Source.bad st with step := wordAt r 1, runId := wordAt r 2 }
        else .ok (.bad st)
      | .error _ => .ok (.bad st)

/-- Sources 0 to n − 1, in order. -/
def Work.sources (w : Work) (runId : Word) (maxStep n : Nat) : Except Halt (List Source) :=
  match n with
  | 0 => .ok []
  | n + 1 => do
    let l ← w.sources runId maxStep n
    .ok (l ++ [← w.sourceNow runId maxStep n])

/-! ## Shards of a candidate (R308 step 3, R309) -/

/-- A shard by source and manifest entry. -/
structure Shard where
  src : Nat
  entry : List Word
  deriving DecidableEq, Repr

/-- The shards of a list of sources for a step, source by source from number i. -/
def shardsFrom (step : Word) (i : Nat) (l : List Source) : List Shard :=
  match l with
  | [] => []
  | x :: r =>
    (if x.valid && decide (x.status = .ok) && decide (x.step = step) then x.shards.map (fun e => { src := i, entry := e }) else []) ++
      shardsFrom step (i + 1) r

/-- The shards of a candidate in the order of R309: exact, then BF16, then FP8; then by source and manifest entry. -/
def candidateShards (step : Word) (l : List Source) : List Shard :=
  let xs := shardsFrom step 0 l
  [0, 1, 2].flatMap (fun k => xs.filter (fun x => rgNarrow x.entry = k))

/-- Whether a shard is of a destination's tensor: same TENSOR_ID, NDIM and SHAPE, or, without dimensions, same BYTES. -/
def Shard.ofTensor (x : Shard) (d : List Word) : Bool :=
  decide (rgTensor x.entry = rgTensor d) && decide (rgNdim x.entry = rgNdim d) &&
  (if rgNdim d = 0 then decide (wordAt x.entry 3 = wordAt d 3)
   else (List.range (rgNdim d)).all (fun i => decide (rgShape x.entry i = rgShape d i)))

/-- The global index in dimension i of element k of a region. -/
def coord (e : List Word) (i k : Nat) : Nat :=
  rgStart e i + k / ((List.range (rgNdim e)).foldl (fun a j => if i < j then a * rgExtent e j else a) 1) % rgExtent e i

/-- The place in a shard of element k of a destination, where the shard's box holds it. -/
def Shard.place (x : Shard) (d : List Word) (k : Nat) : Option Nat :=
  let n := rgNdim d
  if (List.range n).all (fun i => decide (rgStart x.entry i ≤ coord d i k) && decide (coord d i k < rgStart x.entry i + rgExtent x.entry i)) then
    some ((List.range n).foldl (fun a i => a * rgExtent x.entry i + (coord d i k - rgStart x.entry i)) 0)
  else none

/-- The shard and the place in it that give element k of a destination. -/
def pick (xs : List Shard) (d : List Word) (k : Nat) : Option (Shard × Nat) :=
  match xs with
  | [] => none
  | x :: r =>
    match x.place d k with
    | some j => some (x, j)
    | none => pick r d k

/-- The shards of a destination's tensor. -/
def tensorShards (xs : List Shard) (d : List Word) : List Shard := xs.filter (fun x => x.ofTensor d)

/-- Whether a candidate covers a destination. -/
def covers (xs : List Shard) (d : List Word) : Bool :=
  let ys := tensorShards xs d
  if rgNdim d = 0 then decide (ys ≠ []) else (List.range (rgElems d)).all (fun k => (pick ys d k).isSome)

/-- The shards that a destination uses. -/
def usedBy (xs : List Shard) (d : List Word) : List Shard :=
  let ys := tensorShards xs d
  if rgNdim d = 0 then ys.take 1
  else (List.range (rgElems d)).foldl (fun a k => match pick ys d k with
    | some x => if a.contains x.1 then a else a ++ [x.1]
    | none => a) []

/-- Read shards whole and verify them, in order. -/
def Work.verify (w : Work) (xs : List Shard) : Except Halt Unit :=
  match xs with
  | [] => .ok ()
  | x :: r => do
    let d ← w.container x.src (wordAt x.entry 0).toNat (wordAt x.entry 4).toNat
    if crc64 d ≠ wordAt x.entry 5 then .error (.fails x.src .integrity) else w.verify r

/-! ## Destination bytes (R309) -/

/-- The stored bytes of a verified shard. -/
def Work.shardBytes (w : Work) (x : Shard) : List Byte :=
  bufBytes w.buf (x.src * 2 ^ 64 + (wordAt x.entry 0).toNat) (wordAt x.entry 4).toNat

/-- Element j of a shard of n elements, rounded into a destination format. -/
def shardElem (x : Shard) (data : List Byte) (n j : Nat) (dst : Elem) : Nat :=
  match rgNarrow x.entry with
  | 0 => (convertElem (rgElem x.entry) dst true (packedElem (rgElem x.entry).bits data j) 0).1
  | 1 => (convertElem (.flt fBf16) dst true (packedElem 16 data j) 0).1
  | _ => (convertElem (.mx fE4M3) dst true (packedElem 8 data j) ((data.getD (n + j / 256) 0).toNat)).1

/-- The bytes of a destination. -/
def Work.destBytes (w : Work) (xs : List Shard) (d : List Word) : List Byte :=
  let ys := tensorShards xs d
  let dst := rgElem d
  if rgNdim d = 0 then
    match ys with
    | x :: _ =>
      let data := w.shardBytes x
      if rgNarrow x.entry = 0 then data
      else
        let n := rgLen d / 4
        packElems 32 ((List.range n).map (fun j => shardElem x data n j (.flt fFp32)))
    | [] => []
  else
    packElems dst.bits ((List.range (rgElems d)).map (fun k => match pick ys d k with
      | some x => shardElem x.1 (w.shardBytes x.1) (rgElems x.1.entry) x.2 dst
      | none => 0))

/-! ## Candidates (R308 steps 2 to 4) -/

/-- Put a number in its place in a falling list. -/
def insertFalling (n : Nat) (l : List Nat) : List Nat :=
  match l with
  | [] => [n]
  | x :: r => if x ≤ n then n :: x :: r else x :: insertFalling n r

/-- The distinct steps of sources that a test selects, in descending order. -/
def stepsOf (which : Source → Bool) (l : List Source) : List Nat :=
  ((l.filter which).map (fun x => x.step.toNat)).dedup.foldl (fun a n => insertFalling n a) []

/-- The first candidate that covers every destination, with its shards, once the shards that it uses are read and verified. -/
def Work.candidate (w : Work) (l : List Source) (ds : List (List Word)) (steps : List Nat) : Except Halt (Option (Nat × List Shard)) :=
  match steps with
  | [] => .ok none
  | t :: r =>
    let xs := candidateShards (Word.of t) l
    if ds.all (covers xs) then do
      w.verify ((ds.flatMap (usedBy xs)).dedup)
      .ok (some (t, xs))
    else w.candidate l ds r

/-- The destination list that a RESTORE has copied. -/
def Work.dests (w : Work) : List (List Word) :=
  let hd := bytesWords 8 (bufBytes w.buf dstListKey 64)
  (List.range (rgCount hd)).map (fun i => bytesWords 32 (bufBytes w.buf (dstListKey + 64 + 256 * i) 256))

/-- RUN_ID of the source list. -/
def Work.runId (w : Work) : Word := wordAt (bytesWords 8 (bufBytes w.buf srcListKey 64)) 0
/-- NSRC of the source list. -/
def Work.nsrc (w : Work) : Nat := wf (bytesWords 8 (bufBytes w.buf srcListKey 64)) 1 5 0 + 1

/-! ## The report and the end (R308, R310) -/

/-- The report of a RESTORE. -/
def reportBytes (step : Word) (l : List Source) (used : List Nat) : List Byte :=
  wordsBytes ([step, Word.of l.length, 0, 0, 0, 0, 0, 0] ++
    (List.range l.length).flatMap (fun i =>
      let x := l.getD i (.bad .state)
      [((0 : Word).setField 63 56 x.status.code).setBit 0 (used.contains i), x.step, x.runId, Word.of x.nshard]))

/-- Whether the memory of every destination takes writes now. -/
def State.destsUp (s : State) (w : Work) : Bool := w.dests.all (fun d => s.spaceUp (rgSp d) w.vi (rgAddr d))

/-- RESTORE ends: destinations written where a candidate was found, once their memory takes writes; report, counts, result. -/
def State.restoreEnd (s : State) (w : Work) (l : List Source) (r : Option (Nat × List Shard)) : State :=
  let tried := stepsOf (fun x => x.valid) l
  match r with
  | some (t, xs) =>
    if !s.destsUp w then s
    else
    let ds := w.dests
    let used := ((ds.flatMap (usedBy xs)).map (fun x => x.src)).dedup
    let rej := (tried.filter (fun u => t < u)).length
    let s1 := ds.foldl (fun u d => u.put (rgSp d) w.vi (rgAddr d) (w.destBytes xs d)) s
    let s2 := (s1.setBytes (wordAt w.words 4).toNat (reportBytes (Word.of t) l used)).count1 .ckp 5
    (if rej = 0 then s2 else s2.count ckpPage 6 rej).workDone w.ring w.idx .ok 0 (Word.of t)
      (((0 : Word).setField 63 32 used.length).setField 31 0 rej)
  | none =>
    let s1 := s.setBytes (wordAt w.words 4).toNat (reportBytes 0 l [])
    (if tried = [] then s1 else s1.count ckpPage 6 tried.length).workDone w.ring w.idx .state tried.length 0 0

/-! ## Reads -/

/-- Record that a source has failed; a CRC failure sets ERR_STAT bit 3. -/
def State.sourceFails (s : State) (w : Work) (fails : List (Nat × Status)) (i : Nat) (st : Status) : State :=
  (if st = .integrity then s.errFor .ckp 3 w.part else s).updWork w.ring w.idx (fun v =>
    { v with ctx := .restore (fails ++ [(i, st)]) none none 0 none })

/-- Whether a drive read of a RESTORE is outstanding. -/
def State.restoreReads (s : State) (w : Work) : Bool :=
  s.sto.drives.any (fun d => match d.use with
    | .restore r i _ _ => decide (r = w.ring) && decide (i = w.idx)
    | .cmd _ _ | .page _ _ | .kiln _ _ => false)

/-- Read container blocks of a namespace: what the cache holds from there, the rest from the drives. -/
def State.nsFetch (s : State) (w : Work) (n src base off len : Nat) : State :=
  let first := base + off / 4096
  let k := len / 4096
  if (List.range k).all (fun i => (s.cacheRead n (first + i)).isNone) then
    (s.driveIo n false false first k (.restore w.ring w.idx src base) []).2
  else
    (List.range k).foldl (fun t i => match t.cacheRead n (first + i) with
      | some d => t.updWork w.ring w.idx (fun v => { v with buf := bufPut v.buf (src * 2 ^ 64 + off + 4096 * i) d })
      | none => (t.driveIo n false false (first + i) 1 (.restore w.ring w.idx src base) []).2) s

/-- Ask for a piece of a container, unless a read of this RESTORE is still outstanding. -/
def State.restoreNeed (s : State) (w : Work) (fails : List (Nat × Status)) (rd : Option (Nat × Nat × Nat)) (src off len : Nat) : State :=
  let e := w.srcEntry src
  if rd.isSome || s.restoreReads w then s
  else if srcRemote e then
    if (s.conn (srcConn e)).state ≠ .active then s.sourceFails w fails src .state
    else
      (s.updWork w.ring w.idx (fun v => { v with ctx := .restore fails (some (src, off, len)) none 0 none })).restoreAsk w (src, off, len) 0
  else
    match s.nsOf w.part (srcTarget e) with
    | some n =>
      if !s.nsTargetOk n then s.sourceFails w fails src .state
      else if (s.ns n).lbas < srcBase e + (off + len) / 4096 then s.sourceFails w fails src .format
      else s.nsFetch w n src (srcBase e) off len
    | none => s.sourceFails w fails src .state

/-- Work a RESTORE out from what its reads have brought. -/
def State.restoreRun (s : State) (w : Work) (fails : List (Nat × Status)) (rd : Option (Nat × Nat × Nat)) : State :=
  let r : Except Halt (List Source × Option (Nat × List Shard)) := do
    let l ← w.sources w.runId (wordAt w.words 5).toNat w.nsrc
    let c ← w.candidate l w.dests (stepsOf (fun x => x.valid && decide (x.status = .ok)) l)
    .ok (l, c)
  match r with
  | .ok (l, c) => s.restoreEnd w l c
  | .error (.need src off len) => s.restoreNeed w fails rd src off len
  | .error (.fails src st) => s.sourceFails w fails src st

/-! ## The checks (R312) -/

/-- Whether a source list's entries set a reserved bit or are misaligned. -/
def srcBad (e : List Word) : Bool :=
  reservedSet e [0x80000000FFFFFFFF, 0xFFFFFF0000000000, allBits, allBits] || decide (srcSize e % 4096 ≠ 0) ||
  (srcRemote e && decide (srcBase e % 4096 ≠ 0))

/-- The checks of RESTORE once its lists can be read. -/
def State.restoreCheck (s : State) (w : Work) (sh dh : List Word) (ss ds : List (List Word)) : Status :=
  firstFail [
    (listHeadBad sh 0x3F || listHeadBad dh 0xFFF || ss.any srcBad || rgListBad true ds, .format),
    (!s.rgReach w.part w.vi ds || !s.ownsHbm w.part (wordAt w.words 4).toNat (64 + 32 * ss.length) ||
      ss.any (fun e => if srcRemote e then !s.owns w.part tyConn (srcConn e) else (s.nsOf w.part (srcTarget e)).isNone),
      .accessViolation),
    (ss.any (fun e => if srcRemote e then decide ((s.conn (srcConn e)).state ≠ .active)
      else !s.nsTargetOk ((s.nsOf w.part (srcTarget e)).getD 0)), .state)]

/-- Take RESTORE: copy its lists and check it; a list whose read fails twice ends it with POISONED (R469). -/
def State.restoreTakeUp (s : State) (w : Work) : State :=
  let a := (wordAt w.words 2).toNat
  let b := (wordAt w.words 3).toNat
  if a % 64 ≠ 0 ∨ b % 256 ≠ 0 ∨ (wordAt w.words 4).toNat % 64 ≠ 0 then s.workFail w.ring w.idx .format
  else if !s.ownsHbm w.part a 64 || !s.ownsHbm w.part b 64 then s.workFail w.ring w.idx .accessViolation
  else
    let sh := s.words a 8
    let dh := s.words b 8
    let n := wf sh 1 5 0 + 1
    if !s.ownsHbm w.part a (64 + 32 * n) || !s.ownsHbm w.part b (64 + 256 * rgCount dh) then
      s.workFail w.ring w.idx (if listHeadBad sh 0x3F || listHeadBad dh 0xFFF then .format else .accessViolation)
    else if (s.firstBad a (64 + 32 * n)).isSome || (s.firstBad b (64 + 256 * rgCount dh)).isSome then
      s.workFail w.ring w.idx .poisoned
    else
      let ss := (List.range n).map (fun i => s.words (a + 64 + 32 * i) 4)
      let ds := s.rgEntries b (rgCount dh)
      match s.restoreCheck w sh dh ss ds with
      | .ok =>
        s.updWork w.ring w.idx (fun v => { v with
          phase := if ds.any (fun d => rgSpace d = 1) then .fetching else .ready, ctx := .restore [] none none 0 none,
          buf := bufPut (bufPut v.buf srcListKey (s.bytes a (64 + 32 * n))) dstListKey (s.bytes b (64 + 256 * rgCount dh)) })
      | st => s.workFail w.ring w.idx st

/-- RESTORE: rebuilds destination tensors from the latest complete step of its sources (R307 to R310). -/
def execRestore (ring idx : Nat) (s : State) : Host.Outcome State Fault Refusal :=
  .next (s.runDesc ring idx 6 3 (fun w => match w.ctx with
    | .restore fails rd _ _ _ => s.restoreRun w fails rd
    | .none | .send _ _ _ | .read _ _ _ _ | .probe _ _ _ | .ingest _ _ _ _ _ | .contribute _ | .cipher _ _ _ => s.restoreTakeUp w))

end Sys2Proof.Machine
end

