-- ==== Sys2Proof/Machine/Dispatch.lean ====
section
/-! DEFINITION. The dispatch: one arm per command, each a call of its meaning. -/

namespace Sys2Proof.Machine

/-- The effect of a command on everything but the queue. -/
def exec (i : Instr) (s : State) : Host.Outcome State Fault Refusal :=
  match i with
  | .regWrite pg off width val => Sys2Proof.Machine.execRegWrite pg off width val s
  | .bar0BadAccess reqId off len => Sys2Proof.Machine.execBar0BadAccess reqId off len s
  | .shadowWrite pg off width val => Sys2Proof.Machine.execShadowWrite pg off width val s
  | .liveWrite pg off width val => Sys2Proof.Machine.execLiveWrite pg off width val s
  | .swapArm pg off width val => Sys2Proof.Machine.execSwapArm pg off width val s
  | .swapCancel pg off width val => Sys2Proof.Machine.execSwapCancel pg off width val s
  | .swapApply pg => Sys2Proof.Machine.execSwapApply pg s
  | .shadowSync pg => Sys2Proof.Machine.execShadowSync pg s
  | .ctrClear pg => Sys2Proof.Machine.execCtrClear pg s
  | .errInjWrite pg val => Sys2Proof.Machine.execErrInjWrite pg val s
  | .errStatClear pg off width val => Sys2Proof.Machine.execErrStatClear pg off width val s
  | .create part => Sys2Proof.Machine.execCreate part s
  | .assign part => Sys2Proof.Machine.execAssign part s
  | .unassign part => Sys2Proof.Machine.execUnassign part s
  | .activate part => Sys2Proof.Machine.execActivate part s
  | .release part => Sys2Proof.Machine.execRelease part s
  | .partDrainDone part => Sys2Proof.Machine.execPartDrainDone part s
  | .scrubDone ty id bad => Sys2Proof.Machine.execScrubDone ty id bad s
  | .bind vi => Sys2Proof.Machine.execBind vi s
  | .vifEnable vi => Sys2Proof.Machine.execVifEnable vi s
  | .vifReset vi => Sys2Proof.Machine.execVifReset vi s
  | .unbind vi => Sys2Proof.Machine.execUnbind vi s
  | .harvest vi => Sys2Proof.Machine.execHarvest vi s
  | .viQuiesce vi => Sys2Proof.Machine.execViQuiesce vi s
  | .doorbell off val => Sys2Proof.Machine.execDoorbell off val s
  | .hostCompletion port tag cs data => Sys2Proof.Machine.execHostCompletion port tag cs data s
  | .cplTimeout port tag => Sys2Proof.Machine.execCplTimeout port tag s
  | .quarantineEnd port tag => Sys2Proof.Machine.execQuarantineEnd port tag s
  | .atsInvalidate itag pasid addr len => Sys2Proof.Machine.execAtsInvalidate itag pasid addr len s
  | .atsInvComplete itag => Sys2Proof.Machine.execAtsInvComplete itag s
  | .pageResponse prg code => Sys2Proof.Machine.execPageResponse prg code s
  | .portFreeze cause => Sys2Proof.Machine.execPortFreeze cause s
  | .freezeRelease => Sys2Proof.Machine.execFreezeRelease s
  | .bmeClear => Sys2Proof.Machine.execBmeClear s
  | .functionLevelReset => Sys2Proof.Machine.execFunctionLevelReset s
  | .hotReset => Sys2Proof.Machine.execHotReset s
  | .perstAssert => Sys2Proof.Machine.execPerstAssert s
  | .perstDeassert => Sys2Proof.Machine.execPerstDeassert s
  | .d3hotEnter pmeEn => Sys2Proof.Machine.execD3hotEnter pmeEn s
  | .d0Enter => Sys2Proof.Machine.execD0Enter s
  | .detect port receiver => Sys2Proof.Machine.execDetect port receiver s
  | .perstHoldEnd port => Sys2Proof.Machine.execPerstHoldEnd port s
  | .dlActive port speed width flit => Sys2Proof.Machine.execDlActive port speed width flit s
  | .trainTimeout port => Sys2Proof.Machine.execTrainTimeout port s
  | .enumStart port => Sys2Proof.Machine.execEnumStart port s
  | .enumConfigCpl port cpl => Sys2Proof.Machine.execEnumConfigCpl port cpl s
  | .enumNoresp port => Sys2Proof.Machine.execEnumNoresp port s
  | .enumEnd port => Sys2Proof.Machine.execEnumEnd port s
  | .slotChange port bus devs => Sys2Proof.Machine.execSlotChange port bus devs s
  | .dlkRetry port => Sys2Proof.Machine.execDlkRetry port s
  | .dlkDown port => Sys2Proof.Machine.execDlkDown port s
  | .downDone port => Sys2Proof.Machine.execDownDone port s
  | .inboundRequest port write addr len data => Sys2Proof.Machine.execInboundRequest port write addr len data s
  | .dportFreeze port cause => Sys2Proof.Machine.execDportFreeze port cause s
  | .dportFreezeRelease port => Sys2Proof.Machine.execDportFreezeRelease port s
  | .descFetch ring err => Sys2Proof.Machine.execDescFetch ring err s
  | .descStart ring => Sys2Proof.Machine.execDescStart ring s
  | .waitTimeout ring => Sys2Proof.Machine.execWaitTimeout ring s
  | .descEnd ring idx => Sys2Proof.Machine.execDescEnd ring idx s
  | .heldCplWrite ring => Sys2Proof.Machine.execHeldCplWrite ring s
  | .ringSetup ring => Sys2Proof.Machine.execRingSetup ring s
  | .ringEnable ring => Sys2Proof.Machine.execRingEnable ring s
  | .ringDisable ring => Sys2Proof.Machine.execRingDisable ring s
  | .ringDisabled ring => Sys2Proof.Machine.execRingDisabled ring s
  | .ringResume ring => Sys2Proof.Machine.execRingResume ring s
  | .ringRead ring => Sys2Proof.Machine.execRingRead ring s
  | .setPevt ring => Sys2Proof.Machine.execSetPevt ring s
  | .nop ring idx => Sys2Proof.Machine.execNop ring idx s
  | .syncAdd ring idx => Sys2Proof.Machine.execSyncAdd ring idx s
  | .syncSet ring idx => Sys2Proof.Machine.execSyncSet ring idx s
  | .syncRead ring idx => Sys2Proof.Machine.execSyncRead ring idx s
  | .syncApertureAdd src obj val => Sys2Proof.Machine.execSyncApertureAdd src obj val s
  | .syncApertureSet src obj val => Sys2Proof.Machine.execSyncApertureSet src obj val s
  | .syncApertureRead src obj => Sys2Proof.Machine.execSyncApertureRead src obj s
  | .syncApertureBad src write off len => Sys2Proof.Machine.execSyncApertureBad src write off len s
  | .write pkt => Sys2Proof.Machine.execWrite pkt s
  | .writeLast pkt => Sys2Proof.Machine.execWriteLast pkt s
  | .readReq pkt => Sys2Proof.Machine.execReadReq pkt s
  | .readResp pkt => Sys2Proof.Machine.execReadResp pkt s
  | .ack pkt => Sys2Proof.Machine.execAck pkt s
  | .sack pkt => Sys2Proof.Machine.execSack pkt s
  | .nak pkt => Sys2Proof.Machine.execNak pkt s
  | .probe pkt => Sys2Proof.Machine.execProbe pkt s
  | .spateWrite pkt => Sys2Proof.Machine.execSpateWrite pkt s
  | .dataSend conn => Sys2Proof.Machine.execDataSend conn s
  | .ackDelayExpire conn => Sys2Proof.Machine.execAckDelayExpire conn s
  | .reorderLoss conn psn => Sys2Proof.Machine.execReorderLoss conn psn s
  | .rtoExpire conn psn => Sys2Proof.Machine.execRtoExpire conn psn s
  | .nakResend conn psn => Sys2Proof.Machine.execNakResend conn psn s
  | .pathHoldEnd conn path => Sys2Proof.Machine.execPathHoldEnd conn path s
  | .contextFetched conn ok => Sys2Proof.Machine.execContextFetched conn ok s
  | .contextWritebackDone conn => Sys2Proof.Machine.execContextWritebackDone conn s
  | .missHoldTimeout hid => Sys2Proof.Machine.execMissHoldTimeout hid s
  | .connClosed conn => Sys2Proof.Machine.execConnClosed conn s
  | .connOpen part => Sys2Proof.Machine.execConnOpen part s
  | .mlrCmdClose part => Sys2Proof.Machine.execMlrCmdClose part s
  | .mlrCmdQuery part => Sys2Proof.Machine.execMlrCmdQuery part s
  | .mlrSetPart part => Sys2Proof.Machine.execMlrSetPart part s
  | .spateOpen part => Sys2Proof.Machine.execSpateOpen part s
  | .spateClose part => Sys2Proof.Machine.execSpateClose part s
  | .spateSend ring idx => Sys2Proof.Machine.execSpateSend ring idx s
  | .mlrClose ring idx => Sys2Proof.Machine.execMlrClose ring idx s
  | .mlrQuery ring idx => Sys2Proof.Machine.execMlrQuery ring idx s
  | .probeSend ring idx => Sys2Proof.Machine.execProbeSend ring idx s
  | .probeTimeout ring idx => Sys2Proof.Machine.execProbeTimeout ring idx s
  | .regionEntryFetched key ok => Sys2Proof.Machine.execRegionEntryFetched key ok s
  | .writePlaced conn psn => Sys2Proof.Machine.execWritePlaced conn psn s
  | .writeLastPlace conn psn => Sys2Proof.Machine.execWriteLastPlace conn psn s
  | .readServeStart conn psn => Sys2Proof.Machine.execReadServeStart conn psn s
  | .stallExpire conn => Sys2Proof.Machine.execStallExpire conn s
  | .pnrLimitExpire entry => Sys2Proof.Machine.execPnrLimitExpire entry s
  | .readReissue ring idx => Sys2Proof.Machine.execReadReissue ring idx s
  | .readTimeout ring idx => Sys2Proof.Machine.execReadTimeout ring idx s
  | .regionClosed key => Sys2Proof.Machine.execRegionClosed key s
  | .rmaWrite ring idx => Sys2Proof.Machine.execRmaWrite ring idx s
  | .rmaRead ring idx => Sys2Proof.Machine.execRmaRead ring idx s
  | .register ring idx => Sys2Proof.Machine.execRegister ring idx s
  | .revoke ring idx => Sys2Proof.Machine.execRevoke ring idx s
  | .rmaQuery ring idx => Sys2Proof.Machine.execRmaQuery ring idx s
  | .rmaSetPart part => Sys2Proof.Machine.execRmaSetPart part s
  | .rmaCmdQuery part => Sys2Proof.Machine.execRmaCmdQuery part s
  | .frameReceive ept frame fcsOk => Sys2Proof.Machine.execFrameReceive ept frame fcsOk s
  | .passStart pipe => Sys2Proof.Machine.execPassStart pipe s
  | .recircPass pipe => Sys2Proof.Machine.execRecircPass pipe s
  | .pfcReceive ept cls quanta => Sys2Proof.Machine.execPfcReceive ept cls quanta s
  | .pfcPauseEnd ept cls => Sys2Proof.Machine.execPfcPauseEnd ept cls s
  | .pfcRepeat ept cls => Sys2Proof.Machine.execPfcRepeat ept cls s
  | .linkUp ept => Sys2Proof.Machine.execLinkUp ept s
  | .linkDown ept => Sys2Proof.Machine.execLinkDown ept s
  | .slotRetire slot => Sys2Proof.Machine.execSlotRetire slot s
  | .sweepDone => Sys2Proof.Machine.execSweepDone s
  | .pktOpen => Sys2Proof.Machine.execPktOpen s
  | .graphLoad => Sys2Proof.Machine.execGraphLoad s
  | .setExact => Sys2Proof.Machine.execSetExact s
  | .exInsert => Sys2Proof.Machine.execExInsert s
  | .exDelete => Sys2Proof.Machine.execExDelete s
  | .wcWrite => Sys2Proof.Machine.execWcWrite s
  | .wcDelete => Sys2Proof.Machine.execWcDelete s
  | .commit => Sys2Proof.Machine.execCommit s
  | .abandon => Sys2Proof.Machine.execAbandon s
  | .rxtSetup => Sys2Proof.Machine.execRxtSetup s
  | .inject => Sys2Proof.Machine.execInject s
  | .portTransmit ept => Sys2Proof.Machine.execPortTransmit ept s
  | .admitWaiting leaf => Sys2Proof.Machine.execAdmitWaiting leaf s
  | .pnodeSet port part => Sys2Proof.Machine.execPnodeSet port part s
  | .pnodeClear port part => Sys2Proof.Machine.execPnodeClear port part s
  | .pnodeRead port part => Sys2Proof.Machine.execPnodeRead port part s
  | .leafSet port leaf => Sys2Proof.Machine.execLeafSet port leaf s
  | .leafRead leaf => Sys2Proof.Machine.execLeafRead leaf s
  | .meterSet meter => Sys2Proof.Machine.execMeterSet meter s
  | .meterRead meter => Sys2Proof.Machine.execMeterRead meter s
  | .schChangeApply => Sys2Proof.Machine.execSchChangeApply s
  | .convert ring idx => Sys2Proof.Machine.execConvert ring idx s
  | .sum ring idx => Sys2Proof.Machine.execSum ring idx s
  | .xrdOpen ring idx => Sys2Proof.Machine.execXrdOpen ring idx s
  | .contribute ring idx => Sys2Proof.Machine.execContribute ring idx s
  | .attach ring idx => Sys2Proof.Machine.execAttach ring idx s
  | .xrdQuery ring idx => Sys2Proof.Machine.execXrdQuery ring idx s
  | .xrdClose ring idx => Sys2Proof.Machine.execXrdClose ring idx s
  | .reductionPacket pkt => Sys2Proof.Machine.execReductionPacket pkt s
  | .segmentRelease key seg => Sys2Proof.Machine.execSegmentRelease key seg s
  | .slotWaitExpire conn psn => Sys2Proof.Machine.execSlotWaitExpire conn psn s
  | .groupIdleTimeout key => Sys2Proof.Machine.execGroupIdleTimeout key s
  | .groupDone key => Sys2Proof.Machine.execGroupDone key s
  | .seqCreate ring idx => Sys2Proof.Machine.execSeqCreate ring idx s
  | .ingest ring idx => Sys2Proof.Machine.execIngest ring idx s
  | .ingestDone ring idx => Sys2Proof.Machine.execIngestDone ring idx s
  | .lookup ring idx => Sys2Proof.Machine.execLookup ring idx s
  | .fork ring idx => Sys2Proof.Machine.execFork ring idx s
  | .trim ring idx => Sys2Proof.Machine.execTrim ring idx s
  | .drop ring idx => Sys2Proof.Machine.execDrop ring idx s
  | .dropDone seq => Sys2Proof.Machine.execDropDone seq s
  | .kvsQuery ring idx => Sys2Proof.Machine.execKvsQuery ring idx s
  | .blockReadError addr again ring idx => Sys2Proof.Machine.execBlockReadError addr again ring idx s
  | .kvsSetPart part => Sys2Proof.Machine.execKvsSetPart part s
  | .poolAdd part pool => Sys2Proof.Machine.execPoolAdd part pool s
  | .poolClear part pool => Sys2Proof.Machine.execPoolClear part pool s
  | .poolRead part pool => Sys2Proof.Machine.execPoolRead part pool s
  | .retireAdd => Sys2Proof.Machine.execRetireAdd s
  | .retireRead => Sys2Proof.Machine.execRetireRead s
  | .attend ring idx => Sys2Proof.Machine.execAttend ring idx s
  | .inboxOpen ring idx => Sys2Proof.Machine.execInboxOpen ring idx s
  | .inboxClose ring idx => Sys2Proof.Machine.execInboxClose ring idx s
  | .inboxClosed inbox => Sys2Proof.Machine.execInboxClosed inbox s
  | .inboxQuery ring idx => Sys2Proof.Machine.execInboxQuery ring idx s
  | .inboxTake inbox => Sys2Proof.Machine.execInboxTake inbox s
  | .chunkStart unit => Sys2Proof.Machine.execChunkStart unit s
  | .chunkDone unit => Sys2Proof.Machine.execChunkDone unit s
  | .stepOpen ring idx => Sys2Proof.Machine.execStepOpen ring idx s
  | .regionCopyComplete part step region err => Sys2Proof.Machine.execRegionCopyComplete part step region err s
  | .containerWriteAck part step shard st => Sys2Proof.Machine.execContainerWriteAck part step shard st s
  | .drainTimeout part step => Sys2Proof.Machine.execDrainTimeout part step s
  | .stepAbandon ring idx => Sys2Proof.Machine.execStepAbandon ring idx s
  | .restore ring idx => Sys2Proof.Machine.execRestore ring idx s
  | .ckpQuery ring idx => Sys2Proof.Machine.execCkpQuery ring idx s
  | .setStage part => Sys2Proof.Machine.execSetStage part s
  | .stageClear part => Sys2Proof.Machine.execStageClear part s
  | .stageRead part => Sys2Proof.Machine.execStageRead part s
  | .tcpSegment seg => Sys2Proof.Machine.execTcpSegment seg s
  | .tcpRto tcp => Sys2Proof.Machine.execTcpRto tcp s
  | .icreq tcp hpda hdgst ddgst maxr2t => Sys2Proof.Machine.execIcreq tcp hpda hdgst ddgst maxr2t s
  | .capsulecmd tcp sqe data => Sys2Proof.Machine.execCapsulecmd tcp sqe data s
  | .h2cdata tcp cid off data ddgstOk => Sys2Proof.Machine.execH2cdata tcp cid off data ddgstOk s
  | .h2ctermreq tcp => Sys2Proof.Machine.execH2ctermreq tcp s
  | .connect tcp cid qid sqsize hostNqn cntlid kato => Sys2Proof.Machine.execConnect tcp cid qid sqsize hostNqn cntlid kato s
  | .propertyGet tcp cid ofst => Sys2Proof.Machine.execPropertyGet tcp cid ofst s
  | .propertySet tcp cid ofst val => Sys2Proof.Machine.execPropertySet tcp cid ofst val s
  | .identify q sqe => Sys2Proof.Machine.execIdentify q sqe s
  | .getLogPage q sqe => Sys2Proof.Machine.execGetLogPage q sqe s
  | .setFeatures q sqe => Sys2Proof.Machine.execSetFeatures q sqe s
  | .getFeatures q sqe => Sys2Proof.Machine.execGetFeatures q sqe s
  | .asynchronousEventRequest q sqe => Sys2Proof.Machine.execAsynchronousEventRequest q sqe s
  | .abort q sqe => Sys2Proof.Machine.execAbort q sqe s
  | .keepAlive q sqe => Sys2Proof.Machine.execKeepAlive q sqe s
  | .keepAliveExpire ctrl => Sys2Proof.Machine.execKeepAliveExpire ctrl s
  | .nvmeWrite q cid => Sys2Proof.Machine.execNvmeWrite q cid s
  | .nvmeRead q cid => Sys2Proof.Machine.execNvmeRead q cid s
  | .flush q cid => Sys2Proof.Machine.execFlush q cid s
  | .writeZeroes q cid => Sys2Proof.Machine.execWriteZeroes q cid s
  | .datasetManagement q cid => Sys2Proof.Machine.execDatasetManagement q cid s
  | .nvmeCmdStart q cid => Sys2Proof.Machine.execNvmeCmdStart q cid s
  | .driveCompletion did ok data => Sys2Proof.Machine.execDriveCompletion did ok data s
  | .dirtyWriteback ns => Sys2Proof.Machine.execDirtyWriteback ns s
  | .nsEmpty ns => Sys2Proof.Machine.execNsEmpty ns s
  | .psIdleExpire n => Sys2Proof.Machine.execPsIdleExpire n s
  | .psExitDone => Sys2Proof.Machine.execPsExitDone s
  | .capsuleIo ring idx => Sys2Proof.Machine.execCapsuleIo ring idx s
  | .capsuleAdmin ring idx => Sys2Proof.Machine.execCapsuleAdmin ring idx s
  | .nsCreate part => Sys2Proof.Machine.execNsCreate part s
  | .nsDelete part => Sys2Proof.Machine.execNsDelete part s
  | .listen part => Sys2Proof.Machine.execListen part s
  | .qpRing part => Sys2Proof.Machine.execQpRing part s
  | .nsRead part => Sys2Proof.Machine.execNsRead part s
  | .seal ring idx => Sys2Proof.Machine.execSeal ring idx s
  | .cphOpen ring idx => Sys2Proof.Machine.execCphOpen ring idx s
  | .xtsEnc ring idx => Sys2Proof.Machine.execXtsEnc ring idx s
  | .xtsDec ring idx => Sys2Proof.Machine.execXtsDec ring idx s
  | .keyLoad ring idx => Sys2Proof.Machine.execKeyLoad ring idx s
  | .keyGen ring idx => Sys2Proof.Machine.execKeyGen ring idx s
  | .keyClear ring idx => Sys2Proof.Machine.execKeyClear ring idx s
  | .save ring idx => Sys2Proof.Machine.execSave ring idx s
  | .cphRestore ring idx => Sys2Proof.Machine.execCphRestore ring idx s
  | .keyQuery ring idx => Sys2Proof.Machine.execKeyQuery ring idx s
  | .keyContextFetched key ok => Sys2Proof.Machine.execKeyContextFetched key ok s
  | .setDomain part => Sys2Proof.Machine.execSetDomain part s
  | .barrierResendTimeout side cls => Sys2Proof.Machine.execBarrierResendTimeout side cls s
  | .pageRd pg off => Sys2Proof.Machine.execPageRd pg off s
  | .pageRdRsp pg off val => Sys2Proof.Machine.execPageRdRsp pg off val s
  | .pageWr pg off width val => Sys2Proof.Machine.execPageWr pg off width val s
  | .pageWrAck pg off => Sys2Proof.Machine.execPageWrAck pg off s
  | .hostRd pg off => Sys2Proof.Machine.execHostRd pg off s
  | .hostRdRsp pg off val => Sys2Proof.Machine.execHostRdRsp pg off val s
  | .hostWr pg off width val => Sys2Proof.Machine.execHostWr pg off width val s
  | .hostWrAck pg off => Sys2Proof.Machine.execHostWrAck pg off s
  | .int pg => Sys2Proof.Machine.execInt pg s
  | .barrierAck rcv cls seq => Sys2Proof.Machine.execBarrierAck rcv cls seq s
  | .barrierNak rcv cls seq => Sys2Proof.Machine.execBarrierNak rcv cls seq s
  | .barrierFrameBad rcv cls seq crcOk => Sys2Proof.Machine.execBarrierFrameBad rcv cls seq crcOk s
  | .powerClockControl req => Sys2Proof.Machine.execPowerClockControl req s
  | .imgReq kind => Sys2Proof.Machine.execImgReq kind s
  | .imgData kind data => Sys2Proof.Machine.execImgData kind data s
  | .imgEnd kind => Sys2Proof.Machine.execImgEnd kind s
  | .imgAck kind => Sys2Proof.Machine.execImgAck kind s
  | .keyInstall => Sys2Proof.Machine.execKeyInstall s
  | .seed => Sys2Proof.Machine.execSeed s
  | .reseedDue => Sys2Proof.Machine.execReseedDue s
  | .attReq vi => Sys2Proof.Machine.execAttReq vi s
  | .attRsp vi st => Sys2Proof.Machine.execAttRsp vi st s
  | .mbox msg => Sys2Proof.Machine.execMbox msg s
  | .mboxRsp msg => Sys2Proof.Machine.execMboxRsp msg s
  | .heartbeat => Sys2Proof.Machine.execHeartbeat s
  | .heartbeatSend => Sys2Proof.Machine.execHeartbeatSend s
  | .telemetry kind readings => Sys2Proof.Machine.execTelemetry kind readings s
  | .vin40Apply => Sys2Proof.Machine.execVin40Apply s
  | .startupRefin => Sys2Proof.Machine.execStartupRefin s
  | .startupBootRom => Sys2Proof.Machine.execStartupBootRom s
  | .startupPower => Sys2Proof.Machine.execStartupPower s
  | .startupPll => Sys2Proof.Machine.execStartupPll s
  | .startupHbmTrain => Sys2Proof.Machine.execStartupHbmTrain s
  | .startupImages => Sys2Proof.Machine.execStartupImages s
  | .startupLinkReady => Sys2Proof.Machine.execStartupLinkReady s
  | .recoveryFlashWrite addr data => Sys2Proof.Machine.execRecoveryFlashWrite addr data s
  | .debugChallenge => Sys2Proof.Machine.execDebugChallenge s
  | .debugUnlock => Sys2Proof.Machine.execDebugUnlock s
  | .report part => Sys2Proof.Machine.execReport part s
  | .reportSigned => Sys2Proof.Machine.execReportSigned s
  | .certs => Sys2Proof.Machine.execCerts s
  | .svnCommit => Sys2Proof.Machine.execSvnCommit s
  | .bankSelect bank => Sys2Proof.Machine.execBankSelect bank s
  | .mgmtKey => Sys2Proof.Machine.execMgmtKey s
  | .injEnSet => Sys2Proof.Machine.execInjEnSet s
  | .debugAccess acc => Sys2Proof.Machine.execDebugAccess acc s
  | .mgmtRequest auth acc => Sys2Proof.Machine.execMgmtRequest auth acc s
  | .sMov c rd rs => Sys2Proof.Machine.execSMov c rd rs s
  | .sAdd c rd rs => Sys2Proof.Machine.execSAdd c rd rs s
  | .sSub c rd rs => Sys2Proof.Machine.execSSub c rd rs s
  | .sAnd c rd rs => Sys2Proof.Machine.execSAnd c rd rs s
  | .sOr c rd rs => Sys2Proof.Machine.execSOr c rd rs s
  | .sXor c rd rs => Sys2Proof.Machine.execSXor c rd rs s
  | .sShl c rd rs => Sys2Proof.Machine.execSShl c rd rs s
  | .sSar c rd rs => Sys2Proof.Machine.execSSar c rd rs s
  | .sAddI c rd imm => Sys2Proof.Machine.execSAddI c rd imm s
  | .sLdi c rd imm => Sys2Proof.Machine.execSLdi c rd imm s
  | .sShlI c rd imm => Sys2Proof.Machine.execSShlI c rd imm s
  | .sShrI c rd imm => Sys2Proof.Machine.execSShrI c rd imm s
  | .sLd64 c rd rb off => Sys2Proof.Machine.execSLd64 c rd rb off s
  | .sSt64 c rd rb off => Sys2Proof.Machine.execSSt64 c rd rb off s
  | .sLdf c rd imm => Sys2Proof.Machine.execSLdf c rd imm s
  | .sStf c rd imm => Sys2Proof.Machine.execSStf c rd imm s
  | .sJ c imm => Sys2Proof.Machine.execSJ c imm s
  | .sJz c rs imm => Sys2Proof.Machine.execSJz c rs imm s
  | .sJnz c rs imm => Sys2Proof.Machine.execSJnz c rs imm s
  | .sJr c rd rs => Sys2Proof.Machine.execSJr c rd rs s
  | .sJlr c rd rs => Sys2Proof.Machine.execSJlr c rd rs s
  | .sDbnz c ctr d => Sys2Proof.Machine.execSDbnz c ctr d s
  | .dbnz c rd imm => Sys2Proof.Machine.execDbnz c rd imm s
  | .add c rd rs1 rs2 f6 => Sys2Proof.Machine.execAdd c rd rs1 rs2 f6 s
  | .sub c rd rs1 rs2 f6 => Sys2Proof.Machine.execSub c rd rs1 rs2 f6 s
  | .and c rd rs1 rs2 f6 => Sys2Proof.Machine.execAnd c rd rs1 rs2 f6 s
  | .or c rd rs1 rs2 f6 => Sys2Proof.Machine.execOr c rd rs1 rs2 f6 s
  | .xor c rd rs1 rs2 f6 => Sys2Proof.Machine.execXor c rd rs1 rs2 f6 s
  | .shl c rd rs1 rs2 f6 => Sys2Proof.Machine.execShl c rd rs1 rs2 f6 s
  | .shr c rd rs1 rs2 f6 => Sys2Proof.Machine.execShr c rd rs1 rs2 f6 s
  | .sar c rd rs1 rs2 f6 => Sys2Proof.Machine.execSar c rd rs1 rs2 f6 s
  | .rotl c rd rs1 rs2 f6 => Sys2Proof.Machine.execRotl c rd rs1 rs2 f6 s
  | .rotr c rd rs1 rs2 f6 => Sys2Proof.Machine.execRotr c rd rs1 rs2 f6 s
  | .lts c rd rs1 rs2 f6 => Sys2Proof.Machine.execLts c rd rs1 rs2 f6 s
  | .ltu c rd rs1 rs2 f6 => Sys2Proof.Machine.execLtu c rd rs1 rs2 f6 s
  | .addF c rd rs1 rs2 f6 => Sys2Proof.Machine.execAddF c rd rs1 rs2 f6 s
  | .subF c rd rs1 rs2 f6 => Sys2Proof.Machine.execSubF c rd rs1 rs2 f6 s
  | .neg c rd rs1 rs2 f6 => Sys2Proof.Machine.execNeg c rd rs1 rs2 f6 s
  | .andF c rd rs1 rs2 f6 => Sys2Proof.Machine.execAndF c rd rs1 rs2 f6 s
  | .addI c rd rs1 imm => Sys2Proof.Machine.execAddI c rd rs1 imm s
  | .andI c rd rs1 imm => Sys2Proof.Machine.execAndI c rd rs1 imm s
  | .orI c rd rs1 imm => Sys2Proof.Machine.execOrI c rd rs1 imm s
  | .xorI c rd rs1 imm => Sys2Proof.Machine.execXorI c rd rs1 imm s
  | .shlI c rd rs1 imm => Sys2Proof.Machine.execShlI c rd rs1 imm s
  | .shrI c rd rs1 imm => Sys2Proof.Machine.execShrI c rd rs1 imm s
  | .sarI c rd rs1 imm => Sys2Proof.Machine.execSarI c rd rs1 imm s
  | .rotrI c rd rs1 imm => Sys2Proof.Machine.execRotrI c rd rs1 imm s
  | .ltsI c rd rs1 imm => Sys2Proof.Machine.execLtsI c rd rs1 imm s
  | .ltuI c rd rs1 imm => Sys2Proof.Machine.execLtuI c rd rs1 imm s
  | .addFi c rd rs1 imm => Sys2Proof.Machine.execAddFi c rd rs1 imm s
  | .subFi c rd rs1 imm => Sys2Proof.Machine.execSubFi c rd rs1 imm s
  | .mullo c rd rs1 rs2 f6 => Sys2Proof.Machine.execMullo c rd rs1 rs2 f6 s
  | .mulhiSs c rd rs1 rs2 f6 => Sys2Proof.Machine.execMulhiSs c rd rs1 rs2 f6 s
  | .mulhiUu c rd rs1 rs2 f6 => Sys2Proof.Machine.execMulhiUu c rd rs1 rs2 f6 s
  | .mulhiSu c rd rs1 rs2 f6 => Sys2Proof.Machine.execMulhiSu c rd rs1 rs2 f6 s
  | .divs c rd rs1 rs2 f6 => Sys2Proof.Machine.execDivs c rd rs1 rs2 f6 s
  | .divu c rd rs1 rs2 f6 => Sys2Proof.Machine.execDivu c rd rs1 rs2 f6 s
  | .rmds c rd rs1 rs2 f6 => Sys2Proof.Machine.execRmds c rd rs1 rs2 f6 s
  | .rmdu c rd rs1 rs2 f6 => Sys2Proof.Machine.execRmdu c rd rs1 rs2 f6 s
  | .ld8s c rd rs1 imm => Sys2Proof.Machine.execLd8s c rd rs1 imm s
  | .ld16s c rd rs1 imm => Sys2Proof.Machine.execLd16s c rd rs1 imm s
  | .ld32s c rd rs1 imm => Sys2Proof.Machine.execLd32s c rd rs1 imm s
  | .ld64 c rd rs1 imm => Sys2Proof.Machine.execLd64 c rd rs1 imm s
  | .ld8u c rd rs1 imm => Sys2Proof.Machine.execLd8u c rd rs1 imm s
  | .ld16u c rd rs1 imm => Sys2Proof.Machine.execLd16u c rd rs1 imm s
  | .ld32u c rd rs1 imm => Sys2Proof.Machine.execLd32u c rd rs1 imm s
  | .st8 c rs2 rs1 imm => Sys2Proof.Machine.execSt8 c rs2 rs1 imm s
  | .st16 c rs2 rs1 imm => Sys2Proof.Machine.execSt16 c rs2 rs1 imm s
  | .st32 c rs2 rs1 imm => Sys2Proof.Machine.execSt32 c rs2 rs1 imm s
  | .st64 c rs2 rs1 imm => Sys2Proof.Machine.execSt64 c rs2 rs1 imm s
  | .fl32 c rd rs1 imm => Sys2Proof.Machine.execFl32 c rd rs1 imm s
  | .fl64 c rd rs1 imm => Sys2Proof.Machine.execFl64 c rd rs1 imm s
  | .fs32 c rs2 rs1 imm => Sys2Proof.Machine.execFs32 c rs2 rs1 imm s
  | .fs64 c rs2 rs1 imm => Sys2Proof.Machine.execFs64 c rs2 rs1 imm s
  | .rmwSwap c rd rs1 rs2 f6 => Sys2Proof.Machine.execRmwSwap c rd rs1 rs2 f6 s
  | .rmwAdd c rd rs1 rs2 f6 => Sys2Proof.Machine.execRmwAdd c rd rs1 rs2 f6 s
  | .rmwAnd c rd rs1 rs2 f6 => Sys2Proof.Machine.execRmwAnd c rd rs1 rs2 f6 s
  | .rmwOr c rd rs1 rs2 f6 => Sys2Proof.Machine.execRmwOr c rd rs1 rs2 f6 s
  | .rmwXor c rd rs1 rs2 f6 => Sys2Proof.Machine.execRmwXor c rd rs1 rs2 f6 s
  | .rmwSmin c rd rs1 rs2 f6 => Sys2Proof.Machine.execRmwSmin c rd rs1 rs2 f6 s
  | .rmwSmax c rd rs1 rs2 f6 => Sys2Proof.Machine.execRmwSmax c rd rs1 rs2 f6 s
  | .rmwUmin c rd rs1 rs2 f6 => Sys2Proof.Machine.execRmwUmin c rd rs1 rs2 f6 s
  | .rmwUmax c rd rs1 rs2 f6 => Sys2Proof.Machine.execRmwUmax c rd rs1 rs2 f6 s
  | .rmwCmpx c rd rs1 rs2 f6 => Sys2Proof.Machine.execRmwCmpx c rd rs1 rs2 f6 s
  | .branch c cond imm => Sys2Proof.Machine.execBranch c cond imm s
  | .jmpl c rd imm => Sys2Proof.Machine.execJmpl c rd imm s
  | .jmplr c rd f4 rs1 imm => Sys2Proof.Machine.execJmplr c rd f4 rs1 imm s
  | .pcoff c rd imm => Sys2Proof.Machine.execPcoff c rd imm s
  | .plz c rd hw imm => Sys2Proof.Machine.execPlz c rd hw imm s
  | .pln c rd hw imm => Sys2Proof.Machine.execPln c rd hw imm s
  | .plk c rd hw imm => Sys2Proof.Machine.execPlk c rd hw imm s
  | .sysrd c rd rs1 imm => Sys2Proof.Machine.execSysrd c rd rs1 imm s
  | .syswr c rd rs1 imm => Sys2Proof.Machine.execSyswr c rd rs1 imm s
  | .sysset c rd rs1 imm => Sys2Proof.Machine.execSysset c rd rs1 imm s
  | .sysclr c rd rs1 imm => Sys2Proof.Machine.execSysclr c rd rs1 imm s
  | .mbar c rd rs1 imm => Sys2Proof.Machine.execMbar c rd rs1 imm s
  | .fbar c rd rs1 imm => Sys2Proof.Machine.execFbar c rd rs1 imm s
  | .lcall c rd rs1 imm => Sys2Proof.Machine.execLcall c rd rs1 imm s
  | .lbrk c rd rs1 imm => Sys2Proof.Machine.execLbrk c rd rs1 imm s
  | .idle c rd rs1 imm => Sys2Proof.Machine.execIdle c rd rs1 imm s
  | .lret c rd rs1 imm => Sys2Proof.Machine.execLret c rd rs1 imm s
  | .udl c rd rs1 imm => Sys2Proof.Machine.execUdl c rd rs1 imm s
  | .fadd c rd rs1 rs2 f6 => Sys2Proof.Machine.execFadd c rd rs1 rs2 f6 s
  | .fsub c rd rs1 rs2 f6 => Sys2Proof.Machine.execFsub c rd rs1 rs2 f6 s
  | .fmul c rd rs1 rs2 f6 => Sys2Proof.Machine.execFmul c rd rs1 rs2 f6 s
  | .fdiv c rd rs1 rs2 f6 => Sys2Proof.Machine.execFdiv c rd rs1 rs2 f6 s
  | .fsqrt c rd rs1 rs2 f6 => Sys2Proof.Machine.execFsqrt c rd rs1 rs2 f6 s
  | .fmin c rd rs1 rs2 f6 => Sys2Proof.Machine.execFmin c rd rs1 rs2 f6 s
  | .fmax c rd rs1 rs2 f6 => Sys2Proof.Machine.execFmax c rd rs1 rs2 f6 s
  | .fsignCopy c rd rs1 rs2 f6 => Sys2Proof.Machine.execFsignCopy c rd rs1 rs2 f6 s
  | .fsignFlip c rd rs1 rs2 f6 => Sys2Proof.Machine.execFsignFlip c rd rs1 rs2 f6 s
  | .fsignMix c rd rs1 rs2 f6 => Sys2Proof.Machine.execFsignMix c rd rs1 rs2 f6 s
  | .fcmp c rd rs1 rs2 f6 => Sys2Proof.Machine.execFcmp c rd rs1 rs2 f6 s
  | .fcnvP c rd rs1 rs2 f6 => Sys2Proof.Machine.execFcnvP c rd rs1 rs2 f6 s
  | .fcnvTi c rd rs1 rs2 f6 => Sys2Proof.Machine.execFcnvTi c rd rs1 rs2 f6 s
  | .fcnvFi c rd rs1 rs2 f6 => Sys2Proof.Machine.execFcnvFi c rd rs1 rs2 f6 s
  | .fbitsG c rd rs1 rs2 f6 => Sys2Proof.Machine.execFbitsG c rd rs1 rs2 f6 s
  | .fbitsF c rd rs1 rs2 f6 => Sys2Proof.Machine.execFbitsF c rd rs1 rs2 f6 s
  | .fkind c rd rs1 rs2 f6 => Sys2Proof.Machine.execFkind c rd rs1 rs2 f6 s
  | .fmac c rd rs1 rs2 rs3 p f4hi => Sys2Proof.Machine.execFmac c rd rs1 rs2 rs3 p f4hi s
  | .fmacNa c rd rs1 rs2 rs3 p f4hi => Sys2Proof.Machine.execFmacNa c rd rs1 rs2 rs3 p f4hi s
  | .fmacNp c rd rs1 rs2 rs3 p f4hi => Sys2Proof.Machine.execFmacNp c rd rs1 rs2 rs3 p f4hi s
  | .fmacNpa c rd rs1 rs2 rs3 p f4hi => Sys2Proof.Machine.execFmacNpa c rd rs1 rs2 rs3 p f4hi s
  | .custom c rd f4 rs1 rs2 slot => Sys2Proof.Machine.execCustom c rd f4 rs1 rs2 slot s
  | .interruptTake core => Sys2Proof.Machine.execInterruptTake core s
  | .cycmpMatch core => Sys2Proof.Machine.execCycmpMatch core s
  | .drvAbiWrite vi version => Sys2Proof.Machine.execDrvAbiWrite vi version s
  | .hostBeatWrite vi count => Sys2Proof.Machine.execHostBeatWrite vi count s
  | .beatLapse vi => Sys2Proof.Machine.execBeatLapse vi s
  | .viMasterClear vi => Sys2Proof.Machine.execViMasterClear vi s
  | .viMasterSet vi => Sys2Proof.Machine.execViMasterSet vi s
  | .viFlr vi => Sys2Proof.Machine.execViFlr vi s
  | .ringCmd vi op ring => Sys2Proof.Machine.execRingCmd vi op ring s
  | .attReportRequest vi => Sys2Proof.Machine.execAttReportRequest vi s
  | .emulatedAccessTimeout vi write => Sys2Proof.Machine.execEmulatedAccessTimeout vi write s
  | .update => Sys2Proof.Machine.execUpdate s
  | .updatePhaseEnd ev => Sys2Proof.Machine.execUpdatePhaseEnd ev s
  | .updatePauseTimeout => Sys2Proof.Machine.execUpdatePauseTimeout s
  | .viExport vi => Sys2Proof.Machine.execViExport vi s
  | .viImport vi => Sys2Proof.Machine.execViImport vi s
  | .dptSet part => Sys2Proof.Machine.execDptSet part s
  | .map part => Sys2Proof.Machine.execMap part s
  | .unmap part => Sys2Proof.Machine.execUnmap part s
  | .invalidate part => Sys2Proof.Machine.execInvalidate part s
  | .setBeat opr vi => Sys2Proof.Machine.execSetBeat opr vi s
  | .ctlWatchdogExpire core => Sys2Proof.Machine.execCtlWatchdogExpire core s
  | .tcmUncorrectable core => Sys2Proof.Machine.execTcmUncorrectable core s
  | .ringGroupMove group dst => Sys2Proof.Machine.execRingGroupMove group dst s
  | .coreRestart core => Sys2Proof.Machine.execCoreRestart core s
  | .refinLoss side => Sys2Proof.Machine.execRefinLoss side s
  | .refinRestore side => Sys2Proof.Machine.execRefinRestore side s
  | .pllLock pll => Sys2Proof.Machine.execPllLock pll s
  | .pllWindow pll count => Sys2Proof.Machine.execPllWindow pll count s
  | .pllLockLost pll => Sys2Proof.Machine.execPllLockLost pll s
  | .pllIdleStop pll => Sys2Proof.Machine.execPllIdleStop pll s
  | .coreSwitchDone die => Sys2Proof.Machine.execCoreSwitchDone die s
  | .switchForce die => Sys2Proof.Machine.execSwitchForce die s
  | .gateIdleClose cluster => Sys2Proof.Machine.execGateIdleClose cluster s
  | .clusterWake cluster => Sys2Proof.Machine.execClusterWake cluster s
  | .hold cluster => Sys2Proof.Machine.execHold cluster s
  | .clkRelease cluster => Sys2Proof.Machine.execClkRelease cluster s
  | .multSlew die => Sys2Proof.Machine.execMultSlew die s
  | .railSettled die => Sys2Proof.Machine.execRailSettled die s
  | .controlPeriod power vin iin temps => Sys2Proof.Machine.execControlPeriod power vin iin temps s
  | .vinTrip ovr => Sys2Proof.Machine.execVinTrip ovr s
  | .hostRestart => Sys2Proof.Machine.execHostRestart s
  | .currentLimit => Sys2Proof.Machine.execCurrentLimit s
  | .thermalTrip sensor => Sys2Proof.Machine.execThermalTrip sensor s
  | .thermalTripClear sensor => Sys2Proof.Machine.execThermalTripClear sensor s
  | .retentionEnter cluster => Sys2Proof.Machine.execRetentionEnter cluster s
  | .retentionWake cluster => Sys2Proof.Machine.execRetentionWake cluster s
  | .wearCharge die => Sys2Proof.Machine.execWearCharge die s
  | .wearRecordWritten => Sys2Proof.Machine.execWearRecordWritten s
  | .wearBucketAdvance => Sys2Proof.Machine.execWearBucketAdvance s
  | .hsenLow => Sys2Proof.Machine.execHsenLow s
  | .errorLatch pg unit bit part lasting => Sys2Proof.Machine.execErrorLatch pg unit bit part lasting s
  | .raise msg => Sys2Proof.Machine.execRaise msg s
  | .clear src unit elw => Sys2Proof.Machine.execClear src unit elw s
  | .containPart part src => Sys2Proof.Machine.execContainPart part src s
  | .uncontainPart part => Sys2Proof.Machine.execUncontainPart part s
  | .containPlane plane src => Sys2Proof.Machine.execContainPlane plane src s
  | .uncontainPlane plane => Sys2Proof.Machine.execUncontainPlane plane s
  | .safeEnter src => Sys2Proof.Machine.execSafeEnter src s
  | .safeExit recoveries => Sys2Proof.Machine.execSafeExit recoveries s
  | .collectorFault pg unit elw => Sys2Proof.Machine.execCollectorFault pg unit elw s
  | .reactDone typ seq => Sys2Proof.Machine.execReactDone typ seq s
  | .quietPeriodEnd => Sys2Proof.Machine.execQuietPeriodEnd s
  | .heartbeatTimeout => Sys2Proof.Machine.execHeartbeatTimeout s
  | .fieldWatchdogExpire => Sys2Proof.Machine.execFieldWatchdogExpire s
  | .tableSweep parityBad => Sys2Proof.Machine.execTableSweep parityBad s
  | .aliveToggle => Sys2Proof.Machine.execAliveToggle s
  | .sevWrite k width half val => Sys2Proof.Machine.execSevWrite k width half val s
  | .fltUncontainPart part => Sys2Proof.Machine.execFltUncontainPart part s
  | .fltUncontainPlane => Sys2Proof.Machine.execFltUncontainPlane s
  | .exit => Sys2Proof.Machine.execExit s
  | .srcRead => Sys2Proof.Machine.execSrcRead s
  | .fieldSupplyLoss => Sys2Proof.Machine.execFieldSupplyLoss s
  | .busMasterEnableSet cfg aerClear => Sys2Proof.Machine.execBusMasterEnableSet cfg aerClear s
  | .hostLinkDlActive speed width flit tagMode => Sys2Proof.Machine.execHostLinkDlActive speed width flit tagMode s
  | .noReceiverInDetect port => Sys2Proof.Machine.execNoReceiverInDetect port s
  | .counterWrap pg ctr => Sys2Proof.Machine.execCounterWrap pg ctr s
  | .harvestDone vi => Sys2Proof.Machine.execHarvestDone vi s

end Sys2Proof.Machine
end

