-- ==== Sys2Proof/Safety.lean ====
section
/-! DEFINITION. What counts as a sound state of the device, and what no command may undo: the terms in which the statements
about every step are written. -/

namespace Sys2Proof.Machine

/-- The memories of the device are in canonical form: HBM, and the flash of the field side. Each is a table whose keys rise and
which lists no byte that equals what an unlisted byte reads as. -/
def State.memWf (s : State) : Bool := Tab.wf hbmFill s.hbm && Tab.wf flashFill s.trs.flash

/-- The fuses of t against those of s (R361, R364, R365): the unique device secret, the hash of the root key and the revocation
bits are the same, and no security version floor is lower. -/
def FusesKept (s t : Trs) : Prop :=
  t.uds = s.uds ∧ t.rootHash = s.rootHash ∧ t.revoke = s.revoke ∧ ∀ i, i < 3 → s.svnFloor.getD i 0 ≤ t.svnFloor.getD i 0

/-- What every command leaves as it was: the commands that wait, what has left the device already, the canonical form of the
memories, and the fuses. -/
def Keeps (s t : State) : Prop :=
  t.pending = s.pending ∧ s.out <+: t.out ∧ (s.memWf = true → t.memWf = true) ∧ FusesKept s.trs t.trs

/-! ## Terms of the statements about single commands -/

/-- A command runs to a next state of which P holds. -/
def Gives (c : Instr) (s : State) (P : State → Prop) : Prop := ∃ t, exec c s = .next t ∧ P t

/-- The gate of the cluster that answers for a page, where one does, is open (R33, R443): an access changes nothing of the clocks. -/
def GateOpen (s : State) (pg : Page) : Prop := ∀ c, s.pageCluster pg = some c → (s.gate c).isOpen = true

/-- A write to the CMD register of a block is taken now: the safe state does not stop it (R477), its page's cluster runs (R33), no command
of the block runs (R39), the management plane is not contained where the page is a field page (R476), and nothing holds the block's work
at its entry (R38, R476). -/
def Taken (s : State) (b : Blk) : Prop :=
  (s.flt.safe = true → b = .flt) ∧ GateOpen s b.page ∧ s.cmdBusy b = false ∧
  (blkField b = true → b ≠ .flt → s.flt.planes.contains 2 = false) ∧ s.entryHeld b.page = false

/-- A write of the host reaches a page of the host side (R33, R74, R77, R477): the port is in D0 and not under PERST_N, the device is not in
the safe state, a frozen port takes accesses to its own page alone, the device has the page, and its cluster runs. -/
def Reached (s : State) (pg : Page) : Prop :=
  s.dstate ≠ 3 ∧ s.hlk.perst = false ∧ s.flt.safe = false ∧ (s.frozen = true → pg.blk = .hlk) ∧ pg.exist = true ∧
  blkField pg.blk = false ∧ GateOpen s pg

/-- The block whose CMD register a command writes, where it is such a write. -/
def cmdBlk (c : Instr) : Option Blk :=
  match c with
  | .kvsSetPart _ | .poolAdd _ _ | .poolClear _ _ | .poolRead _ _ | .retireAdd | .retireRead => some .kvs
  | .setDomain _ => some .cph
  | .hold _ | .clkRelease _ => some .clk
  | .fltUncontainPart _ | .fltUncontainPlane | .exit | .srcRead => some .flt
  | .update | .viExport _ | .viImport _ | .dptSet _ | .map _ | .unmap _ | .invalidate _ | .setBeat _ _ => some .fwi
  | .setStage _ | .stageClear _ | .stageRead _ => some .ckp
  | .connOpen _ | .mlrCmdClose _ | .mlrCmdQuery _ | .mlrSetPart _ | .spateOpen _ | .spateClose _ => some .mlr
  | .pktOpen | .graphLoad | .setExact | .exInsert | .exDelete | .wcWrite | .wcDelete | .commit | .abandon | .rxtSetup
  | .inject => some .pkt
  | .create _ | .assign _ | .unassign _ | .activate _ | .release _ => some .prt
  | .bind _ | .vifEnable _ | .vifReset _ | .unbind _ | .harvest _ => some .vif
  | .ringSetup _ | .ringEnable _ | .ringDisable _ | .ringResume _ | .ringRead _ | .setPevt _ => some .rng
  | .rmaSetPart _ | .rmaCmdQuery _ => some .rma
  | .pnodeSet _ _ | .pnodeClear _ _ | .pnodeRead _ _ | .leafSet _ _ | .leafRead _ | .meterSet _ | .meterRead _ => some .sch
  | .nsCreate _ | .nsDelete _ | .listen _ | .qpRing _ | .nsRead _ => some .sto
  | .debugChallenge | .debugUnlock | .report _ | .certs | .svnCommit | .bankSelect _ | .mgmtKey => some .trs
  | _ => none

/-- An argument register asks for no addition, or for one to a sync object of P0 (R49, R53). -/
def SyncOk (s : State) (a : Word) : Prop := a.bit 63 = true → s.owns 0 tySync (a.field 13 0) = true

/-- A descriptor of an engine and opcode has started and is not done, and the data plane takes work (R100, R476, R477). -/
def Started (s : State) (ring idx engine opcode : Nat) (w : Work) : Prop :=
  s.workAt ring idx = some w ∧ (w.phase = .ready ∨ w.phase = .fetching) ∧ dEngine w.words = engine ∧ dOpcode w.words = opcode ∧
  s.flt.safe = false ∧ s.dataHeld = false

/-- The command that the arrival of a Millrace packet of a type is (R124). -/
def arrivalOf (typ : Nat) (p : MlrPacket) : Option Instr :=
  match typ with
  | 1 => some (.write p) | 2 => some (.writeLast p) | 3 => some (.readReq p) | 4 => some (.readResp p) | 5 => some (.ack p)
  | 6 => some (.sack p) | 7 => some (.nak p) | 8 => some (.probe p) | 9 => some (.spateWrite p) | _ => none

/-- Nothing keeps an arriving Millrace packet of a type from the checks of R126: it is for an address of a partition and step 1 finds
no fault in it; the transport's cluster runs, and nothing waits at its gate (R443). -/
def Arriving (s : State) (typ : Nat) (p : MlrPacket) : Prop :=
  s.flt.safe = false ∧ s.dataHeld = false ∧ (s.gate 20).isOpen = true ∧ s.mlr.gated = [] ∧ s.addrKnown p = true ∧ mlrFormBad typ p = false

/-- An arriving packet of a connection has passed steps 1 to 3 of R126 against a resident context: u is the state after its tag has
been verified, d its payload. -/
def Accepted (s : State) (typ : Nat) (p : MlrPacket) (d : List Byte) (u : State) : Prop :=
  Arriving s typ p ∧ typ ≠ 9 ∧ (s.conn p.dstConn).live = true ∧ (s.conn p.dstConn).part ∉ s.flt.parts ∧
  (s.conn p.dstConn).fromPeer p = true ∧ p.dstConn ∈ s.mlr.resident ∧
  (s.connUse p.dstConn).2.openPkt (s.conn p.dstConn).rxKey typ p = (.ok d, u)

/-- Such a data packet is also inside the window (R126 step 4) and no duplicate (R130), and no stall is before it (R161): v is the
state in which it is acted on by type. -/
def Taking (s : State) (typ : Nat) (p : MlrPacket) (d : List Byte) (v : State) : Prop :=
  ∃ u, Accepted s typ p d u ∧ ((p.psn - (s.conn p.dstConn).rxNext).toNat < (s.conn p.dstConn).window) ∧
    u.duplicate p.dstConn p.psn = false ∧ v = (u.count1 .mlr 3).connAck p.dstConn p.ackPsn [] ∧
    (v.conn p.dstConn).stalled = false

/-- Nothing but registers of pages changed, and nothing but messages of interrupts went out, is held or is pending. -/
def OnlyRegs (s t : State) : Prop :=
  ({ t with regs := s.regs, out := s.out, bar := s.bar,
            hlk := { t.hlk with heldIrq := s.hlk.heldIrq, pba := s.hlk.pba } } : State) = s

/-- Every register of every page but the given offsets of one page reads as before. -/
def OtherRegs (s t : State) (pg : Page) (offs : List Nat) : Prop :=
  ∀ q off, q.num < 65536 → off < 65536 → (q ≠ pg ∨ off ∉ offs) → t.reg q off = s.reg q off

/-- The registers of a page that its counters write: the counters, CTR_FREEZE and INT_STAT. -/
def ctrRegs : List Nat := [0x10, 0x30, 0xF00, 0xF08, 0xF10, 0xF18, 0xF20, 0xF28, 0xF30, 0xF38]

/-- The same, but for what the counters of TRS write where an INT message crosses the barrier (R80, R358). -/
def OtherRegsBar (s t : State) (pg : Page) (offs : List Nat) : Prop :=
  ∀ q off, q.num < 65536 → off < 65536 → (q ≠ pg ∨ off ∉ offs) → (q ≠ Blk.trs.page ∨ off ∉ ctrRegs) → t.reg q off = s.reg q off

/-- A write of the host reaches a page of the field side (R74, R77, R477): in the safe state FLT alone, and never through a frozen port. -/
def FieldReached (s : State) (pg : Page) : Prop :=
  s.dstate ≠ 3 ∧ s.hlk.perst = false ∧ (s.flt.safe = true → pg.blk = .flt) ∧ s.frozen = false ∧ pg.exist = true ∧ blkField pg.blk = true

/-- A write of the host reaches a page that firmware serves (R74, R77, R423, R477): no frozen port takes one, nor the safe state. -/
def EmuReached (s : State) (pg : Page) : Prop :=
  s.dstate ≠ 3 ∧ s.hlk.perst = false ∧ s.flt.safe = false ∧ s.frozen = false ∧ pg.exist = true

/-! ## Terms of the statements about Zarn instructions -/

/-- Core n executes an instruction of len bytes now: it exists, may execute, does not wait in IDLE, and its halfwords are fetched; t is
the state after the fetch (R376, R405, R410, R442, R476). -/
def Fetched (s : State) (n len : Nat) (t : State) : Prop :=
  n < 80 ∧ s.coreCan n = true ∧ ((s.core n).idle = false ∨ s.idleEnds n = true) ∧
  (s.setCore n { s.core n with idle := false }).ifetch n len = .ok t

/-- What an instruction that completes leaves of its core: its level, every general, floating-point and system register but those
named, with one instruction more in INSTRET; and every other core. -/
def CoreKept (s u : State) (n : Nat) (gs fs srs : List Nat) : Prop :=
  (u.core n).level = (s.core n).level ∧ (∀ r, r ∉ gs → u.gr n r = s.gr n r) ∧ (∀ r, r ∉ fs → u.fr n r = s.fr n r) ∧
  (∀ k, k ∉ 0x011 :: srs → u.sysRaw n k = s.sysRaw n k) ∧ (0x011 ∉ srs → u.sysRaw n 0x011 = s.sysRaw n 0x011 + 1) ∧
  ∀ m, m ≠ n → u.core m = s.core m

/-- No byte of memory changes after the fetch: HBM, or the tightly coupled memory of the core. -/
def NoStore (t u : State) (n : Nat) : Prop := u.hbm = t.hbm ∧ (u.core n).tcm = (t.core n).tcm

/-- N, Z, C, V and DZ of FLG. -/
def FlagsAre (u : State) (n : Nat) (nn z c v dz : Bool) : Prop :=
  (u.flg n).bit 4 = nn ∧ (u.flg n).bit 3 = z ∧ (u.flg n).bit 2 = c ∧ (u.flg n).bit 1 = v ∧ (u.flg n).bit 0 = dz

/-- sr.FPS keeps its flags, adds those given, and keeps its other bits (R396). -/
def FpsAre (s u : State) (n : Nat) (inv dbz ovf unf inx : Bool) : Prop :=
  (u.sysRaw n 0x002).bit 0 = ((s.sysRaw n 0x002).bit 0 || inv) ∧ (u.sysRaw n 0x002).bit 1 = ((s.sysRaw n 0x002).bit 1 || dbz) ∧
  (u.sysRaw n 0x002).bit 2 = ((s.sysRaw n 0x002).bit 2 || ovf) ∧ (u.sysRaw n 0x002).bit 3 = ((s.sysRaw n 0x002).bit 3 || unf) ∧
  (u.sysRaw n 0x002).bit 4 = ((s.sysRaw n 0x002).bit 4 || inx) ∧ (u.sysRaw n 0x002).field 63 5 = (s.sysRaw n 0x002).field 63 5

end Sys2Proof.Machine
end

