-- ==== Sys2Proof/Certificates/Slice0/Obligations.lean ====
section
/-! DEFINITION. The statements for the provers. Each is a proposition over every state and every operand; where a statement
says what one command does, it gives the whole next state, or the parts of it that the rule names and what stays as it was.
A value or a behaviour that an entry of notes/assumptions names is the model's choice, and no rule of the spec; the entries that
a statement rests on stand with it in OBLIGATIONS.json. -/

open Sys2Proof Sys2Proof.Machine

/-! ## The machine as a whole -/

/-- A step with a command at the front of the queue is that command's effect on the state with the queue's rest. -/
def Obligations.StepRunsTheFrontCommand : Prop :=
  ∀ (s : State) (c : Instr) (rest : List Instr), s.pending = c :: rest → step s = exec c { s with pending := rest }

/-- With no command waiting, one period of REFIN passes while REFIN runs, and nothing passes while it does not: the model's
choice (assumption 1). Each clock advances by its ratio to REFIN while its PLL runs (R3, R435); an ENG die that no throttle slows runs
every cycle of its source. Nothing else moves where no translation fault of Millrace is open and no fetch of a context waits. -/
def Obligations.StepWithoutCommandLetsTimePass : Prop :=
  ∀ s : State, s.pending = [] →
    (s.cg.refinField = true → ∃ t, step s = .next t ∧
      t.clk.refin = s.clk.refin + 1 ∧ t.clk.aon = (s.clk.refin + 1) / 16 ∧
      t.clk.fld = s.clk.fld + (if s.pllRuns 0 then 2 else 0) ∧ t.clk.ctl = s.clk.ctl + (if s.pllRuns 4 then 20 else 0) ∧
      t.clk.noc = s.clk.noc + (if s.pllRuns 1 then 20 else 0) ∧ t.clk.pkt = s.clk.pkt + (if s.pllRuns 12 then 16 else 0) ∧
      (s.pwr.duty = 0 → s.hardThrottle = false → t.clk.eng0 = s.clk.eng0 + (if s.pllRuns 6 then 18 else 0) ∧
        t.clk.eng1 = s.clk.eng1 + (if s.pllRuns 11 then 18 else 0)) ∧
      (s.mlr.faults = [] → s.mlr.missWait = [] → t.regs = s.regs ∧ t.hbm = s.hbm ∧ t.rings = s.rings ∧ t.cores = s.cores)) ∧
    (s.cg.refinField = false → step s = .next s)

/-- The state right after device reset (R48, R52, R106, R128, R436): P0 is ACTIVE and owns granule 0 of each stack, every other
granule awaits its first scrub, every other resource is free, every other partition is FREE, no VI is bound, no ring is
enabled, no connection is open, every PLL is OFF, every stored register reads its reset value, and no command waits. What HBM reads as before anything is written is
the model's choice (assumption 3). -/
def Obligations.ResetStateOfTheDevice : Prop :=
  (State.reset.part 0).state = .active ∧
  (∀ p, p ≠ 0 → State.reset.part p = Part.free) ∧
  (∀ g, g < 1536 → State.reset.own 1 g = if g % 192 = 0 then .owned 0 else .awaiting) ∧
  (∀ ty id, ty ≠ 1 → State.reset.own ty id = .free) ∧
  (∀ v, (State.reset.vi v).state = .unbound) ∧
  (∀ r, (State.reset.ring r).state = .disabled) ∧
  (∀ c, (State.reset.conn c).state = .closed) ∧
  (∀ n, (State.reset.pll n).state = .off) ∧
  (∀ pg off, State.reset.reg pg off = pg.resetAt off) ∧
  (∀ a, State.reset.byte a = hbmFill) ∧
  State.reset.flt.safe = false ∧ State.reset.pending = []

/-- The memories of the device at reset are in canonical form. -/
def Obligations.ResetMemoryIsCanonical : Prop := State.reset.memWf = true

/-- The memories of the device keep their canonical form through every step, from any state that has it. -/
def Obligations.EveryStepKeepsTheMemoryForm : Prop :=
  ∀ s t : State, s.memWf = true → step s = .next t → t.memWf = true

/-- No command takes back what has left the device, touches the queue of the commands that wait, spoils the canonical form of the
memories, changes the device secret, the hash of the root key or the revocation bits, or lowers a security version floor. -/
def Obligations.EveryCommandKeepsQueueOutputsAndFuses : Prop :=
  ∀ (c : Instr) (s t : State), exec c s = .next t → Keeps s t

/-- Every command completes in every state; the one stop is an instruction of a core that the device does not have. -/
def Obligations.EveryCommandCompletes : Prop :=
  ∀ (c : Instr) (s : State), (∃ t, exec c s = .next t) ∨ (∃ n, 80 ≤ n ∧ exec c s = .fault (.noSuchCore n))

/-! ## Commands of pages -/

/-- The end of a page command (R39): CMD_STAT takes operation, object, status and the count of commands, BUSY falls, CMD_DONE is
set in INT_STAT, and nothing else changes but the interrupt message that this may send, which TRS counts where it crosses the
barrier. -/
def Obligations.PageCommandEndReportsOutcome : Prop :=
  ∀ (s : State) (b : Blk) (op obj : Nat) (st : Status), cmdOff b ≠ 0 →
    (s.cmdEnd b op obj st).reg b.page (cmdStatOff b) =
      cmdStatWord b op obj st ((s.reg b.page (cmdStatOff b)).field (seqBits b - 1) 0 + 1) ∧
    (s.cmdEnd b op obj st).cmdBusy b = false ∧
    ((s.cmdEnd b op obj st).reg b.page 0x30).bit (cmdDoneBit b) = true ∧
    (b ≠ .trs → (s.cmdEnd b op obj st).reg b.page 0x30 = s.reg b.page 0x30 ||| Word.oneBit (cmdDoneBit b)) ∧
    (blkField b = false → OtherRegs s (s.cmdEnd b op obj st) b.page [cmdStatOff b, 0x30]) ∧
    OtherRegsBar s (s.cmdEnd b op obj st) b.page [cmdStatOff b, 0x30] ∧ OnlyRegs s (s.cmdEnd b op obj st)

/-- A write to a CMD register that is not taken (R38, R39, R476, R477): in the safe state it is dropped on every page but FLT; while
a command runs, and on a field page of a contained management plane, it is refused in PG_STAT and leaves the status register as
it was; and where the block holds its work it waits at the entry with BUSY set. One that opens the gate of its page's cluster is then
what it is with the gate open (R33). -/
def Obligations.PageCommandsWaitOrAreRefused : Prop :=
  ∀ (c : Instr) (b : Blk) (s : State), cmdBlk c = some b →
    (s.flt.safe = true → b ≠ .flt → exec c s = .next s) ∧
    ((s.flt.safe = false ∨ b = .flt) → GateOpen s b.page → s.cmdBusy b = true → exec c s = .next (s.refuse b.page (cmdOff b))) ∧
    (s.flt.safe = false → s.cmdBusy b = false → blkField b = true → b ≠ .flt → s.flt.planes.contains 2 = true →
      exec c s = .next (s.refuse b.page (cmdOff b))) ∧
    ((s.flt.safe = false ∨ b = .flt) → GateOpen s b.page → s.cmdBusy b = false →
      (blkField b = false ∨ b = .flt ∨ s.flt.planes.contains 2 = false) → s.entryHeld b.page = true →
      ∃ val, exec c s = .next { (s.setBusy b true) with entry := s.entry ++ [(b.page, val)] }) ∧
    (s.flt.safe = false → GateOpen (s.pageAccess b.page) b.page → exec c s = exec c (s.pageAccess b.page))
/-! ## Register pages and swap points (02_register_pages.md) -/

/-- What a write does to each bit of a register (R7): an RW bit takes the written value, a W1C bit falls where 1 is written, a W1S
bit rises where 1 is written, and every other bit, and every bit that the write does not reach, stays. -/
def Obligations.AccessCodesDecideEachBit : Prop :=
  ∀ (d : RegDef) (old v m : Word) (i : Nat), i < 64 →
    (d.rw.getLsbD i = true → d.w1c.getLsbD i = false → d.w1s.getLsbD i = false →
      (d.written old v m).getLsbD i = if m.getLsbD i then v.getLsbD i else old.getLsbD i) ∧
    (d.rw.getLsbD i = false → d.w1c.getLsbD i = true → d.w1s.getLsbD i = false →
      (d.written old v m).getLsbD i = (old.getLsbD i && !(m.getLsbD i && v.getLsbD i))) ∧
    (d.rw.getLsbD i = false → d.w1c.getLsbD i = false → d.w1s.getLsbD i = true →
      (d.written old v m).getLsbD i = (old.getLsbD i || (m.getLsbD i && v.getLsbD i))) ∧
    (d.rw.getLsbD i = false → d.w1c.getLsbD i = false → d.w1s.getLsbD i = false →
      (d.written old v m).getLsbD i = old.getLsbD i)

/-- REG_WRITE, BAR0_BAD_ACCESS, SHADOW_WRITE, LIVE_WRITE, CTR_CLEAR, ERR_INJ_WRITE, ERR_STAT_CLEAR and COUNTER_WRAP (R7, R12, R24, R27,
R30, R36, R358, R418, R466). -/
def Obligations.RegisterAccesses : Prop :=
  -- a write to a page of the field side crosses the barrier as PAGE_WR
  (∀ (s : State) (pg : Page) (off width : Nat) (val : Word), FieldReached s pg → accessOk off width = true →
    exec (.regWrite pg off width val) s =
      .next (s.barrierSend .host .mgmt 0x12 [pg.src, off, width, val.field 31 0, val.field 63 32])) ∧
  -- a direct register that does nothing else but store: PRT, VIF, RNG, SYN, MLR, RMA, PKT and the like
  (∀ (s : State) (pg : Page) (off width : Nat) (val : Word) (d : RegDef), Reached s pg →
    accessOk off width = true → 0x58 ≤ off / 8 * 8 → pg.isShadow (off / 8 * 8) = false → pg.regAt (off / 8 * 8) = some d →
    d.staged = false → off / 8 * 8 ≠ cmdOff pg.blk →
    pg.blk ≠ .hlk → pg.blk ≠ .dlk → pg.blk ≠ .fwi → pg.blk ≠ .flt →
    exec (.regWrite pg off width val) s = .next (s.setReg pg (off / 8 * 8)
      (d.written (s.reg pg (off / 8 * 8)) (placed off width val) (wroteMask off width)))) ∧
  -- INT_EN: the enabled bits, and a message where the unit interrupt is raised
  (∀ (s : State) (pg : Page) (val : Word), Reached s pg →
    Gives (.regWrite pg 0x38 8 val) s (fun t =>
      t.reg pg 0x38 = (s.reg pg 0x38 &&& ~~~0xFFFFFFFFFFFFFF0F) ||| (val &&& 0xFFFFFFFFFFFFFF0F) ∧
      OtherRegs s t pg [0x38] ∧ OnlyRegs s t)) ∧
  -- an access of another size or alignment completes with Unsupported Request and is recorded
  (∀ (s : State) (reqId off len : Nat), accessOk off len = false → s.flt.safe = false →
    s.hlk.perst = false → s.dstate ≠ 3 →
    exec (.bar0BadAccess reqId off len) s = .next (((s.setReg hlkPage 0x120
      ((((0 : Word).setField 63 48 reqId).setField 47 40 len).setField 28 0 off)).err .hlk 0).emit (.unsupported none off len))) ∧
  -- a shadow takes a write while PENDING is 0, and drops it with DROPPED while PENDING is 1
  (∀ (s : State) (pg : Page) (off width : Nat) (val : Word) (d : RegDef), Reached s pg →
    accessOk off width = true → pg.isShadow (off / 8 * 8) = true → pg.regAt (off / 8 * 8 - 0x700) = some d →
    (s.swapPending pg = false → exec (.shadowWrite pg off width val) s = .next (s.setReg pg (off / 8 * 8)
      (d.written (s.reg pg (off / 8 * 8)) (placed off width val) (wroteMask off width)))) ∧
    (s.swapPending pg = true → Gives (.shadowWrite pg off width val) s (fun t =>
      t.reg pg 0x28 = (s.reg pg 0x28).setBit 6 true ∧ OtherRegs s t pg [0x28, 0x30] ∧ OnlyRegs s t))) ∧
  -- the live offset of a staged register ignores a write and sets LIVE_WR
  (∀ (s : State) (pg : Page) (off width : Nat) (val : Word) (d : RegDef), Reached s pg →
    accessOk off width = true → 0x58 ≤ off / 8 * 8 → pg.isShadow (off / 8 * 8) = false → pg.shadow = true →
    pg.regAt (off / 8 * 8) = some d → d.staged = true →
    Gives (.liveWrite pg off width val) s (fun t =>
      t.reg pg 0x28 = (s.reg pg 0x28).setBit 7 true ∧ OtherRegs s t pg [0x28, 0x30] ∧ OnlyRegs s t)) ∧
  -- CTR_CLEAR: every counter of the page reads 0, and CTR_FREEZE stays
  (∀ (s : State) (pg : Page), Reached s pg →
    Gives (.ctrClear pg) s (fun t =>
      (∀ i, i < pg.ctrN → t.reg pg (0xF00 + 8 * i) = 0) ∧ (t.reg pg 0x10).bit 0 = (s.reg pg 0x10).bit 0 ∧
      OtherRegs s t pg (0x10 :: (List.range pg.ctrN).map (fun i => 0xF00 + 8 * i)) ∧ OnlyRegs s t)) ∧
  -- ERR_INJ: refused while injection is disabled; a source of the page is raised once while it is enabled
  (∀ (s : State) (pg : Page) (val : Word), Reached s pg → val ≠ 0 →
    ((s.reg trsPage 0x148).bit 0 = false → exec (.errInjWrite pg val) s = .next (s.refuse pg 0x50)) ∧
    ((s.reg trsPage 0x148).bit 0 = true → ∀ b, b < pg.errN → val = Word.oneBit b → Gives (.errInjWrite pg val) s (fun t =>
      t.elw pg 0 = s.elw pg 0 ||| Word.oneBit b ∧ (t.reg prtPage 0x128).bit 0 = false))) ∧
  -- ERR_STAT: the written bits fall in the error latch words of the page, and CLEAR crosses for each that changes
  (∀ (s : State) (pg : Page) (val : Word), Reached s pg → pg.blk ≠ .dlk →
    exec (.errStatClear pg 0x40 8 val) s = .next
      ((s.flt.elws.filter (fun e => decide (e.1 / 65536 = pg.blk.code * 65536 + pg.num) && decide (e.2 &&& val ≠ 0))).foldl
        (fun t e => t.barrierSend .host .fault 0x01
          [pg.src, e.1 - (pg.blk.code * 65536 + pg.num) * 65536, (e.2 &&& ~~~val).toNat])
        { s with flt := { s.flt with
          elws := (s.flt.elws.filter (fun e => decide (e.1 / 65536 = pg.blk.code * 65536 + pg.num) && decide (e.2 &&& val ≠ 0))).foldl
            (fun t e => Tab.set 0 t e.1 (e.2 &&& ~~~val)) s.flt.elws } })) ∧
  -- a counter at its highest count wraps to 0 with OVF
  (∀ (s : State) (pg : Page) (i : Nat), pg.exist = true → i < pg.ctrN → (s.reg pg (0xF00 + 8 * i)).field 47 0 = 2 ^ 48 - 1 →
    (s.reg pg 0x10).bit 0 = false →
    Gives (.counterWrap pg i) s (fun t => (t.reg pg (0xF00 + 8 * i)).field 47 0 = 0 ∧ (t.reg pg (0xF00 + 8 * i)).bit 63 = true ∧
      (blkField pg.blk = false → OtherRegs s t pg [0xF00 + 8 * i, 0x10, 0x30]) ∧
      (pg.blk ≠ .trs → OtherRegsBar s t pg [0xF00 + 8 * i, 0x10, 0x30]) ∧ OnlyRegs s t))

/-- SWAP_ARM, SWAP_CANCEL, SHADOW_SYNC and SWAP_APPLY (R36 to R38). -/
def Obligations.SwapOfStagedSettings : Prop :=
  -- an arm sets PENDING where EXPECT is APPLIED, and otherwise sets STALE
  (∀ (s : State) (pg : Page) (val : Word), Reached s pg → pg.shadow = true → val.bit 0 = true → val.bit 1 = false →
    (val.field 63 32 = s.applied pg →
      exec (.swapArm pg 0x20 8 val) s = .next (s.setReg pg 0x28 ((s.reg pg 0x28).setBit 0 true))) ∧
    (val.field 63 32 ≠ s.applied pg → Gives (.swapArm pg 0x20 8 val) s (fun t =>
      t.reg pg 0x28 = (s.reg pg 0x28).setBit 5 true ∧ OtherRegs s t pg [0x28, 0x30] ∧ OnlyRegs s t))) ∧
  -- ARM with CANCEL, and ARM on a page without a swap point, are refused
  (∀ (s : State) (pg : Page) (val : Word), Reached s pg → val.bit 0 = true →
    (val.bit 1 = true ∨ pg.shadow = false) → exec (.swapArm pg 0x20 8 val) s = .next (s.refuse pg 0x20)) ∧
  -- a write of half of SWAP_REQ arms nothing
  (∀ (s : State) (pg : Page) (val : Word), Reached s pg → val.bit 0 = true →
    exec (.swapArm pg 0x20 4 val) s = .next (s.refuse pg 0x20)) ∧
  -- a cancel clears PENDING; the shadows stay; work that waited for the swap is taken
  (∀ (s : State) (pg : Page) (val : Word), Reached s pg → val.bit 0 = false → val.bit 1 = true →
    (s.swapPending pg = true → exec (.swapCancel pg 0x20 8 val) s =
      .next ((s.setReg pg 0x28 ((s.reg pg 0x28).setBit 0 false)).entryRelease pg)) ∧
    (s.swapPending pg = false → exec (.swapCancel pg 0x20 8 val) s = .next s)) ∧
  -- SHADOW_SYNC copies every live register into its shadow, and is refused while PENDING is 1
  (∀ (s : State) (pg : Page), Reached s pg →
    ((pg.shadow = true → s.swapPending pg = false → Gives (.shadowSync pg) s (fun t =>
      (∀ o, o ∈ pg.staged → t.reg pg (o + 0x700) = s.reg pg o) ∧
      OtherRegs s t pg (0x10 :: pg.staged.map (fun o => o + 0x700)) ∧ OnlyRegs s t)) ∧
     (pg.shadow = true → s.swapPending pg = true → Gives (.shadowSync pg) s (fun t =>
      OtherRegs s t pg [0x10, 0x18, 0x30] ∧ OnlyRegs s t ∧ (t.reg pg 0x18).bit 63 = true)))) ∧
  -- at the swap point: a set that fails a check is rejected, and otherwise it becomes the live set; the buckets of Sluice are credited
  -- under the set before
  (∀ (s u : State) (pg : Page), s.swapReady pg = true → (u = if pg.blk = .sch ∨ pg.blk = .ept then s.refillAll else s) →
    (∀ off, swapFail (u.swapChecks pg) = some off → exec (.swapApply pg) s = .next ((u.swapReject pg off).entryRelease pg)) ∧
    (swapFail (u.swapChecks pg) = none → exec (.swapApply pg) s = .next (((u.swapCopy pg).swapEffect u pg).entryRelease pg))) ∧
  (∀ (s : State) (pg : Page), s.swapReady pg = false → exec (.swapApply pg) s = .next s) ∧
  -- what the copy and the rejection do to the registers of the page
  (∀ (s : State) (pg : Page), pg.exist = true → pg.shadow = true →
    (∀ o, o ∈ pg.staged → (s.swapCopy pg).reg pg o = s.reg pg (o + 0x700) ∧
      (s.swapCopy pg).reg pg (o + 0x700) = s.reg pg (o + 0x700)) ∧
    (s.swapCopy pg).swapPending pg = false ∧
    (s.swapCopy pg).applied pg = (s.applied pg + 1) % 2 ^ 32 ∧ ((s.swapCopy pg).reg pg 0x30).bit 0 = true) ∧
  (∀ (s : State) (pg : Page) (off : Nat), pg.exist = true → off + 0x700 < 2 ^ 28 →
    (s.swapReject pg off).swapPending pg = false ∧ (s.swapReject pg off).applied pg = s.applied pg ∧
    ((s.swapReject pg off).reg pg 0x28).bit 4 = true ∧ ((s.swapReject pg off).reg pg 0x18).field 59 32 = off + 0x700 ∧
    ((s.swapReject pg off).reg pg 0x30).bit 1 = true ∧ OtherRegsBar s (s.swapReject pg off) pg [0x18, 0x28, 0x30] ∧
    OnlyRegs s (s.swapReject pg off))
/-! ## Partitions and virtual interfaces (03_partitions.md) -/

/-- CREATE, ASSIGN, UNASSIGN, ACTIVATE, RELEASE, PART_DRAIN_DONE and SCRUB_DONE (R42, R48 to R51). -/
def Obligations.PartitionLife : Prop :=
  -- CREATE, ACTIVATE
  (∀ (s : State) (p : Nat), Taken s .prt → SyncOk s (s.reg prtPage 0x110) → p < 128 → p ≠ 0 → (s.part p).state = .free →
    exec (.create p) s = .next ((s.setPart p { Part.free with state := .building }).prtEnd 1 p .ok
      (s.argSync (s.reg prtPage 0x110)))) ∧
  (∀ (s : State) (p : Nat), Taken s .prt → SyncOk s (s.reg prtPage 0x110) → p < 128 → p ≠ 0 → (s.part p).state = .building →
    exec (.activate p) s = .next ((s.setPart p { s.part p with state := .active }).prtEnd 4 p .ok
      (s.argSync (s.reg prtPage 0x110)))) ∧
  -- ASSIGN and UNASSIGN of the range that CMD_ARG0 names
  (∀ (s : State) (p : Nat) (a : Word), Taken s .prt → SyncOk s (s.reg prtPage 0x110) → p < 128 → a = s.reg prtPage 0x108 →
    ((s.part p).state = .building ∨ (s.part p).state = .active) → rangeBad a = false →
    (a.field 63 60 ≠ 2 → ∀ id, id ∈ rangeIds (a.field 31 0) (a.field 59 32) → s.own (a.field 63 60) id = .free) →
    exec (.assign p) s = .next ((s.prtAssign p a).prtEnd 2 p .ok (s.argSync (s.reg prtPage 0x110)))) ∧
  (∀ (s : State) (p : Nat) (a : Word), a.field 63 60 ≠ 2 → rangeBad a = false →
    ∀ ty id, id < 2 ^ 32 → (s.prtAssign p a).own ty id =
      if ty = a.field 63 60 ∧ id ∈ rangeIds (a.field 31 0) (a.field 59 32) then .owned p else s.own ty id) ∧
  (∀ (s : State) (p : Nat) (a : Word), Taken s .prt → SyncOk s (s.reg prtPage 0x110) → p < 128 → a = s.reg prtPage 0x108 →
    ((s.part p).state = .building ∨ (s.part p).state = .active) → rangeBad a = false →
    (∀ id, id ∈ rangeIds (a.field 31 0) (a.field 59 32) →
      s.holds p (a.field 63 60) id = true ∧ s.quiescent p (a.field 63 60) id = true) →
    exec (.unassign p) s = .next ((s.prtUnassign p a).prtEnd 3 p .ok (s.argSync (s.reg prtPage 0x110)))) ∧
  (∀ (s : State) (p : Nat) (a : Word), a.field 63 60 ≠ 2 → rangeBad a = false →
    ∀ id, id ∈ rangeIds (a.field 31 0) (a.field 59 32) → (s.prtUnassign p a).own (a.field 63 60) id = .scrubbing p) ∧
  -- RELEASE starts the drain, PART_DRAIN_DONE the scrub
  (∀ (s : State) (p : Nat), Taken s .prt → SyncOk s (s.reg prtPage 0x110) → p < 128 → p ≠ 0 →
    ((s.part p).state = .building ∨ (s.part p).state = .active) →
    Gives (.release p) s (fun t => (t.part p).state = .draining ∧ (t.part p).relSync = s.argSync (s.reg prtPage 0x110) ∧
      t.cmdBusy .prt = true)) ∧
  (∀ (s : State) (p : Nat), (s.part p).state = .draining → s.drained p = true →
    exec (.partDrainDone p) s = .next (((s.enterScrub p).prtEnd 5 p .ok (s.part p).relSync).maybeFree p)) ∧
  (∀ (s : State) (p : Nat), ((s.enterScrub p).part p).state = .scrubbing ∧
    ∀ ty id, ty < 14 → id < 2 ^ 32 → s.own ty id = .owned p → (s.enterScrub p).own ty id = .scrubbing p) ∧
  -- the scrub of a resource ends once what was taken under its giver has completed (R46): it is free, or P0's where its granule is
  -- retired, and nothing of its contents is left; until then nothing of it changes
  (∀ (s : State) (ty id : Nat) (x : Scrub),
    s.scrubNext.scrubs.find? (fun x => decide (x.ty = ty) && decide (x.id = id) && x.started) = some x →
    s.scrubNext.scrubFree x = true →
    Gives (.scrubDone ty id []) s (fun t =>
      t.own ty id = (if ty = 1 ∧ s.kvs.retiredGran.contains id = true then .owned 0 else .free) ∧
      (ty = 1 → ∀ a, granule a = id → t.byte a = 0) ∧ (ty = 3 → t.ring id = Ring.reset) ∧ (ty = 4 → t.syncVal id = 0) ∧
      (ty = 9 → t.vi id = Vi.unbound))) ∧
  (∀ (s : State) (id a : Nat) (x : Scrub),
    s.scrubNext.scrubs.find? (fun x => decide (x.ty = 1) && decide (x.id = id) && x.started) = some x → x.verify = true →
    s.scrubNext.scrubFree x = true → granule a = id → s.kvs.retired.contains (a / 65536 * 65536) = false →
    Gives (.scrubDone 1 id [a]) s (fun t => t.own 1 id = .owned 0 ∧ (t.reg prtPage 0x30).bit 11 = true)) ∧
  (∀ (s : State) (ty id : Nat) (bad : List Nat) (x : Scrub),
    s.scrubNext.scrubs.find? (fun x => decide (x.ty = ty) && decide (x.id = id) && x.started) = some x →
    s.scrubNext.scrubFree x = false → exec (.scrubDone ty id bad) s = .next s.scrubNext) ∧
  -- a command that fails a check ends with the status of the first and changes nothing else
  (∀ (s : State) (p op : Nat) (c : Instr) (st : Status), Taken s .prt → p < 128 →
    (op, c) ∈ [(1, Instr.create p), (2, .assign p), (3, .unassign p), (4, .activate p), (5, .release p)] →
    s.prtCheck op p (s.reg prtPage 0x108) (s.reg prtPage 0x110) = st → st ≠ .ok →
    exec c s = .next (s.prtEnd op p st (s.argSync (s.reg prtPage 0x110))))

/-- BIND, VIF_ENABLE, VIF_RESET, UNBIND, HARVEST, HARVEST_DONE and VI_QUIESCE (R52, R53, R55, R70). -/
def Obligations.VirtualInterfaceLife : Prop :=
  -- BIND
  (∀ (s : State) (v p : Nat) (arg : Word), Taken s .vif → v < 4096 → arg = s.reg vifPage 0x108 → SyncOk s arg →
    (s.vi v).state = .unbound → s.ownerOf tyVi v = some p → (s.reg vifPage 0x100).field 11 0 = 0 →
    logLegal (arg.field 61 56) = true →
    (arg.field 61 56 ≠ 0 → s.ownsHbm 0 (s.reg vifPage 0x100).toNat (2 ^ (arg.field 61 56 - 3)) = true) →
    (∀ e, e ∈ s.vis → e.1 = v ∨ e.2.state = .unbound ∨ e.2.pasid ≠ arg.field 51 32 ∨ s.ownerOf tyVi e.1 = some p) →
    exec (.bind v) s = .next ((s.setVi v
      { s.vi v with state := .bound, pasid := arg.field 51 32, logBase := (s.reg vifPage 0x100).toNat,
                    logSize := arg.field 61 56, logOvf := false }).vifEnd 1 v .ok (s.argSync arg))) ∧
  -- ENABLE
  (∀ (s : State) (v p : Nat) (arg : Word), Taken s .vif → v < 4096 → arg = s.reg vifPage 0x108 → SyncOk s arg →
    ((s.vi v).state = .bound ∨ (s.vi v).state = .quiesced) → s.ownerOf tyVi v = some p → (s.part p).state = .active →
    exec (.vifEnable v) s = .next ((s.setVi v { s.vi v with state := .enabled }).vifEnd 2 v .ok (s.argSync arg))) ∧
  -- RESET, and what it leaves
  (∀ (s : State) (v : Nat) (arg : Word), Taken s .vif → v < 4096 → arg = s.reg vifPage 0x108 → SyncOk s arg →
    ((s.vi v).state = .enabled ∨ (s.vi v).state = .orphaned) →
    exec (.vifReset v) s = .next ((s.viReset v).vifEnd 3 v .ok (s.argSync arg))) ∧
  (∀ (s : State) (v : Nat), ((s.viReset v).vi v).state = .resetting ∧
    ∀ n, s.viHostRing v n = true → (s.viReset v).ring n = Ring.reset) ∧
  -- UNBIND
  (∀ (s : State) (v : Nat) (arg : Word), Taken s .vif → v < 4096 → arg = s.reg vifPage 0x108 → SyncOk s arg →
    ((s.vi v).state = .bound ∨ (s.vi v).state = .quiesced) →
    exec (.unbind v) s = .next ((s.viUnbind v).vifEnd 4 v .ok (s.argSync arg))) ∧
  (∀ (s : State) (v : Nat), (s.viUnbind v).vi v = Vi.unbound) ∧
  -- HARVEST, at once and paced
  (∀ (s : State) (v : Nat) (arg : Word), Taken s .vif → v < 4096 → arg = s.reg vifPage 0x108 → SyncOk s arg →
    (s.reg vifPage 0x100).field 11 0 = 0 → (s.vi v).state ≠ .unbound → (s.vi v).logSize ≠ 0 →
    ((s.reg vifPage 0x138).field 31 0 = 0 → exec (.harvest v) s =
      .next (((s.setVi v { s.vi v with logOvf := false }).harvestWords v (s.reg vifPage 0x100).toNat 0
        (2 ^ ((s.vi v).logSize - 6))).vifEnd 5 v .ok (s.argSync arg))) ∧
    ((s.reg vifPage 0x138).field 31 0 ≠ 0 → Gives (.harvest v) s (fun t =>
      (t.vi v).logOvf = false ∧ t.cmdBusy .vif = true ∧ 
      t.harvests = s.harvests ++ [{ vi := v, host := (s.reg vifPage 0x100).toNat, next := 0,
                                    syncEn := (s.argSync arg).isSome, sync := arg.field 13 0 }]))) ∧
  (∀ (s : State) (v host i n k : Nat), i ≤ k → k < i + n →
    (s.harvestWords v host i n).word ((s.vi v).logBase + 8 * k) = 0) ∧
  (∀ (s : State) (v : Nat) (h : Harvest), s.harvests.find? (fun h => decide (h.vi = v)) = some h →
    exec (.harvestDone v) s = .next ((({ s with harvests := s.harvests.filter (fun x => x.vi ≠ v) } : State).harvestWords v
      h.host h.next (2 ^ ((s.vi v).logSize - 6) - h.next)).vifEnd 5 v .ok
      (if h.syncEn && s.owns 0 tySync h.sync then some h.sync else none))) ∧
  -- the last outstanding read of a RESETTING VI has ended
  (∀ (s : State) (v : Nat), (s.vi v).state = .resetting → (s.reads.any (fun r => decide (r.vi = some v))) = false →
    exec (.viQuiesce v) s = .next (s.setVi v { s.vi v with state := .quiesced })) ∧
  -- a command that fails a check ends with the status of the first and changes nothing else
  (∀ (s : State) (v op : Nat) (c : Instr) (st : Status), Taken s .vif → v < 4096 →
    (op, c) ∈ [(1, Instr.bind v), (2, .vifEnable v), (3, .vifReset v), (4, .unbind v), (5, .harvest v)] →
    s.vifCheck op v (s.reg vifPage 0x100) (s.reg vifPage 0x108) = st → st ≠ .ok →
    exec c s = .next (s.vifEnd op v st (s.argSync (s.reg vifPage 0x108))))
/-! ## Host link (04_host_link.md) -/

/-- HOST_COMPLETION, CPL_TIMEOUT, QUARANTINE_END, ATS_INVALIDATE, ATS_INV_COMPLETE and PAGE_RESPONSE (R61, R62, R66 to R69, R161). -/
def Obligations.HostReadsAndTranslations : Prop :=
  -- a completion of an operand's read in time is placed by its tag; the read ends as its last byte arrives; a failed one fails the
  -- read's user at the byte that it had reached
  (∀ (s : State) (port tag ring idx off : Nat) (data : List Byte) (r : HostRead) (u : State),
    s.readAt port tag = some r → s.clk.noc < r.at_ + s.readTimeout port → r.use = .operand ring idx off →
    r.got.length ≤ r.len → u = { s with reads := s.readsBut port tag } →
    (r.len ≤ r.got.length + data.length → exec (.hostCompletion port tag .success data) s = .next (u.updWork ring idx (fun w =>
      { w with buf := bufPut w.buf (r.addr + r.got.length) (data.take (r.len - r.got.length)) }))) ∧
    (r.got.length + data.length < r.len → exec (.hostCompletion port tag .success data) s = .next
      { u.updWork ring idx (fun w => { w with buf := bufPut w.buf (r.addr + r.got.length) data }) with
        reads := u.reads ++ [{ r with got := r.got ++ data }] }) ∧
    exec (.hostCompletion port tag .unsupported data) s =
      .next (u.failOperand (.operand ring idx off) r.got.length .accessViolation false)) ∧
  -- a completion of a quarantined tag is counted and discarded; one of an unknown tag is an error
  (∀ (s : State) (tag : Nat) (cs : CplStatus) (data : List Byte) (q : Quar),
    s.readAt 0 tag = none →
    s.quar.find? (fun q => decide (q.port = 0) && decide (q.tag = tag)) = some q → q.port = 0 → q.timedOut = false →
    Gives (.hostCompletion 0 tag cs data) s (fun t => OnlyRegs s t ∧ t.reg hlkPage 0x140 =
      (s.reg hlkPage 0x140).setField 31 0 ((s.reg hlkPage 0x140).field 31 0 + 1))) ∧
  (∀ (s : State) (tag : Nat) (cs : CplStatus) (data : List Byte),
    s.readAt 0 tag = none →
    s.quar.find? (fun q => decide (q.port = 0) && decide (q.tag = tag)) = none →
    exec (.hostCompletion 0 tag cs data) s = .next
      (({ s with hlk := { s.hlk with aer := aerAdd s.hlk.aer aerUnexpected } } : State).err .hlk 4)) ∧
  -- a read of the host link times out: its tag is quarantined and its user ends with TIMEOUT
  (∀ (s : State) (tag : Nat) (r : HostRead), s.readAt 0 tag = some r →
    (r.at_ + s.readTimeout 0 ≤ s.clk.noc → exec (.cplTimeout 0 tag) s =
      .next ((((s.endReads (fun x => decide (x.port = 0) && decide (x.tag = tag)) true).errFor .hlk 1 r.part).count hlkPage 4
        1).failRead r .timeout false)) ∧
    (s.clk.noc < r.at_ + s.readTimeout 0 → exec (.cplTimeout 0 tag) s = .next s)) ∧
  -- a quarantine of twice the timeout ends
  (∀ (s : State) (port tag : Nat), Gives (.quarantineEnd port tag) s (fun t => ({ t with quar := s.quar } : State) = s ∧
    ∀ q, q ∈ t.quar ↔ q ∈ s.quar ∧ (q.port ≠ port ∨ q.tag ≠ tag ∨
      s.clk.noc < q.at_ + 2 * ((s.reg (linkPage port) 0x100).field 31 0 * 4096)))) ∧
  -- an invalidation drops the translations named, waits for the reads under them, and is then answered
  (∀ (s : State) (itag : Nat) (pasid : Option Nat) (addr len : Nat), Gives (.atsInvalidate itag pasid addr len) s (fun t =>
    (∀ e, e ∈ t.hlk.atc ↔ e ∈ s.hlk.atc ∧ ¬(e.pasid = pasid ∧ addr / 4096 ≤ e.page ∧ e.page * 4096 < addr + len)) ∧
    t.hlk.invals = s.hlk.invals ++ [⟨itag, (s.reads.filter (s.readUses pasid addr len)).map (fun r => r.tag),
      s.writesUnder pasid addr len, s.clk.noc⟩])) ∧
  (∀ (s : State) (itag : Nat) (x : Inval), s.hlk.invals.find? (fun x => decide (x.itag = itag)) = some x →
    ((∀ r, r ∈ s.reads → ¬(r.port = 0 ∧ r.tag ∈ x.tags ∧ r.at_ ≤ x.at_)) →
     (∀ w, w ∈ x.writes → ∀ p, p ∈ (s.conn w.1).rxPkts → p.psn ≠ w.2) → exec (.atsInvComplete itag) s = .next
      { s with hlk := { s.hlk with invals := s.hlk.invals.filter (fun y => y.itag ≠ itag) },
               out := s.out ++ [.invalidationCompletion itag] }) ∧
    (∀ r, r ∈ s.reads → r.port = 0 → r.tag ∈ x.tags → r.at_ ≤ x.at_ → exec (.atsInvComplete itag) s = .next s) ∧
    (∀ w p, w ∈ x.writes → p ∈ (s.conn w.1).rxPkts → p.psn = w.2 → exec (.atsInvComplete itag) s = .next s)) ∧
  -- the answers to a page request
  (∀ (s : State) (prg : Nat) (r : PageReq) (u : State), s.hlk.pageReqs.find? (fun r => decide (r.prg = prg)) = some r →
    u = { s with hlk := { s.hlk with pageReqs := s.hlk.pageReqs.filter (fun x => x.prg ≠ prg) } } →
    exec (.pageResponse prg .success) s =
      .next ((u.reqFaults r).foldl (fun t f => t.faultClose f false) (u.atcPut r.vi r.page)) ∧
    exec (.pageResponse prg .invalidRequest) s = .next ((u.reqFaults r).foldl (fun t f => t.faultClose f true)
      (r.waiters.foldl (fun t w => t.waiterFail .accessViolation w) u)) ∧
    Gives (.pageResponse prg .responseFailure) s (fun t => t.hlk.respFail = true ∧ (t.elw hlkPage 0).bit 7 = true ∧
      (t.reg hlkPage 0x30).bit 11 = true ∧ ∀ x, x ∈ t.hlk.pageReqs → x.waiters = []))

/-- PORT_FREEZE, FREEZE_RELEASE, BME_CLEAR, BUS_MASTER_ENABLE_SET, the resets of PF0, PERST_N, DL_ACTIVE and the D-states (R72 to R77). -/
def Obligations.HostLinkStates : Prop :=
  -- a freeze: the first cause stands, SEQ counts, the outstanding reads end; a later cause is counted
  (∀ (s : State) (cause : Nat), 1 ≤ cause → cause ≤ 6 →
    (s.frozen = false → Gives (.portFreeze cause) s (fun t => t.frozen = true ∧ (t.reg hlkPage 0x110).field 7 0 = cause ∧
      (t.reg hlkPage 0x110).field 47 32 = ((s.reg hlkPage 0x110).field 47 32 + 1) % 2 ^ 16 ∧
      (∀ r, r ∈ t.reads → r.port ≠ 0) ∧ t.hlk.atc = [])) ∧
    (s.frozen = true → Gives (.portFreeze cause) s (fun t => t.reads = s.reads ∧ t.reg hlkPage 0x110 =
      (s.reg hlkPage 0x110).setField 47 32 ((s.reg hlkPage 0x110).field 47 32 + 1)))) ∧
  -- a release: refused while the link is down or a cause stands
  (∀ s : State, ((s.reg hlkPage 0x108).bit 63 = false ∨ ∃ c, c ∈ s.hlk.aer ∧ 1 ≤ c ∧ c ≤ 6) →
    exec .freezeRelease s = .next (s.refuse hlkPage 0x110)) ∧
  (∀ s : State, (s.reg hlkPage 0x108).bit 63 = true → (∀ c, c ∈ s.hlk.aer → c = 0 ∨ 6 < c) → s.frozen = true →
    Gives .freezeRelease s (fun t => t.frozen = false ∧ (t.reg hlkPage 0x30).bit 9 = true)) ∧
  -- Bus Master Enable
  (∀ s : State, Gives .bmeClear s (fun t => t.hlk.bme = false ∧
    ∀ v, ((s.vi v).state = .enabled ∨ (s.vi v).state = .orphaned) → (t.vi v).state = .resetting)) ∧
  (∀ (s : State) (cfg : PfCfg) (clr : List Nat), Gives (.busMasterEnableSet cfg clr) s (fun t => t.hlk.bme = true ∧
    t.hlk.cfg = pfClip cfg ∧ t.hlk.priEn = cfg.pri ∧ t.hlk.respFail = (s.hlk.respFail && !cfg.pri) ∧
    (∀ c, c ∈ t.hlk.aer ↔ c ∈ s.hlk.aer ∧ c ∉ clr) ∧
    (({ s with hlk := { s.hlk with bme := true } } : State).hostUp = true → t.hlk.heldIrq = [] ∧ t.hlk.heldVecs = [] ∧
      ∀ v e, v ∈ s.hlk.heldIrq →
        ({ s with hlk := { s.hlk with cfg := pfClip cfg } } : State).msixMasked v = false →
        cfg.msixTable.find? (fun e => decide (e.1 = v)) = some e → Out.msix v e.2.1 e.2.2 ∈ t.out))) ∧
  -- the resets of PF0: the configuration and the page go to their reset values, FREEZE stays, every VI that takes work is
  -- stopped, and P0's rings in host memory are disabled
  (∀ (s : State) (c : Instr), (c = .functionLevelReset ∨ c = .hotReset ∨ (c = .perstDeassert ∧ s.hlk.perst = true)) →
    Gives c s (fun t =>
      t.hlk.bme = false ∧ t.hlk.pmeEn = false ∧ t.hlk.priEn = false ∧ t.hlk.vecMap = [] ∧ t.hlk.atc = [] ∧
      t.hlk.cfg = Hlk.cfgReset ∧ t.hlk.pba = [] ∧
      (∀ off, off < 65536 → off ≠ 0x108 → off ≠ 0x110 → t.reg hlkPage off = hlkPage.resetAt off) ∧
      t.reg hlkPage 0x110 = s.reg hlkPage 0x110 ∧
      (t.reg hlkPage 0x108).bit 63 = (decide (c = .functionLevelReset) && (s.reg hlkPage 0x108).bit 63) ∧
      (∀ v, ((s.vi v).state = .enabled ∨ (s.vi v).state = .orphaned) → (t.vi v).state = .resetting) ∧
      (∀ n, (s.ring n).setUp = true → (s.ring n).viEn = false → (s.ring n).hbm = false → (t.ring n).state = .disabled) ∧
      (c = .perstDeassert → t.hlk.perst = false ∧ t.hlk.wakeN = true))) ∧
  (∀ s : State, exec .functionLevelReset s = .next (s.pf0Reset false) ∧ exec .hotReset s = .next (s.pf0Reset true) ∧
    (s.hlk.perst = true → Gives .perstDeassert s (fun t => t = { s.pf0Reset true with hlk := t.hlk } ∧
      t.hlk = { (s.pf0Reset true).hlk with perst := false, wakeN := true }))) ∧
  (∀ s : State, exec .perstAssert s =
    .next (({ s with hlk := { s.hlk with perst := true, d3cold := s.hlk.d3cold || decide (s.dstate = 3) } } : State).setReg
      hlkPage 0x108 ((s.reg hlkPage 0x108).setBit 63 false))) ∧
  -- the link is up
  (∀ (s : State) (speed width tagMode : Nat) (flit : Bool), s.hlk.perst = false → s.flt.safe = false →
    Gives (.hostLinkDlActive speed width flit tagMode) s (fun t =>
      (t.reg hlkPage 0x108).bit 63 = true ∧ (t.reg hlkPage 0x108).bit 62 = flit ∧
      (t.reg hlkPage 0x108).field 58 56 = speed % 8 ∧ (t.reg hlkPage 0x108).field 55 48 = width % 256 ∧
      (t.reg hlkPage 0x108).field 61 60 = tagMode % 4)) ∧
  -- the D-states
  (∀ (s : State) (en : Bool), Gives (.d3hotEnter en) s (fun t =>
    t.dstate = 3 ∧ t.hlk.pmeEn = en ∧ OnlyRegs { s with hlk := { s.hlk with pmeEn := en } } t)) ∧
  (∀ s : State, Gives .d0Enter s (fun t => t.dstate = 0))
/-! ## Downstream links (05_downstream_links.md) -/

/-- DETECT, PERST_HOLD_END, DL_ACTIVE, TRAIN_TIMEOUT, NO_RECEIVER_IN_DETECT, DLK_RETRY, DLK_DOWN, DOWN_DONE, DPORT_FREEZE and
DPORT_FREEZE_RELEASE, and what entering a state means (R83 to R85, R90, R94, R95). -/
def Obligations.DownstreamPortStates : Prop :=
  -- a port enters a state: DPERST_N and the link follow, FROZEN falls, and no other port moves
  (∀ (s : State) (n : Nat) (st : DState), n < 6 →
    ((s.portGo n st).dport n).state = st ∧ ((s.portGo n st).dport n).up = st.linkUp ∧
    ((s.portGo n st).dport n).since = s.clk.noc ∧ (s.portGo n st).balls.dperst.getLsbD n = st.perstHigh ∧
    (st ≠ .frozen → ((s.portGo n st).reg (dlkPage n) 0x110).bit 63 = false) ∧
    ∀ m, m ≠ n → (s.portGo n st).dport m = s.dport m) ∧
  (∀ (s : State) (n : Nat), s.portIn n .empty = true → (s.dport n).since + 2000000 ≤ s.clk.noc →
    exec (.detect n true) s = .next ((s.count (dlkPage n) 6 1).portGo n .reset) ∧
    Gives (.detect n false) s (fun t => t.dport n = { s.dport n with since := s.clk.noc } ∧
      ∀ m, m ≠ n → t.dport m = s.dport m)) ∧
  (∀ (s : State) (n : Nat), s.portIn n .reset = true →
    (s.dport n).since + (s.reg (dlkPage n) 0x100).field 59 52 * 65536 ≤ s.clk.noc →
    Gives (.perstHoldEnd n) s (fun t => (t.dport n).state = .training ∧ (t.dport n).perstHighAt = s.clk.noc ∧
      (n < 6 → t.balls.dperst.getLsbD n = true))) ∧
  (∀ (s : State) (n speed width : Nat) (flit : Bool), s.portIn n .training = true →
    s.clk.noc ≤ (s.dport n).perstHighAt + 200000000 →
    Gives (.dlActive n speed width flit) s (fun t => (t.dport n).state = .enumerating ∧ (t.dport n).up = true ∧
      (t.dport n).flit = flit ∧ (t.dport n).tagMode = (if flit then 2 else 0) ∧
      (t.dport n).speed = min (min speed ((s.reg (dlkPage n) 0x100).field 62 60)) (if flit then 7 else 5) ∧
      (t.dport n).width = min width (if n < 4 then 16 else 8) ∧ (t.dport n).dlActiveAt = s.clk.noc)) ∧
  (∀ (s : State) (n : Nat), s.portIn n .training = true → (s.dport n).perstHighAt + 200000000 ≤ s.clk.noc →
    Gives (.trainTimeout n) s (fun t => (t.dport n).trainFails = min ((s.dport n).trainFails + 1) 255 ∧
      (t.dport n).state = (if 3 ≤ min ((s.dport n).trainFails + 1) 255 then .held else .empty) ∧
      (t.elw (dlkPage n) 0).bit 6 = true)) ∧
  (∀ (s : State) (n : Nat), s.portIn n .training = true → exec (.noReceiverInDetect n) s = .next (s.portGo n .empty)) ∧
  -- RETRY and DOWN, refused in other states
  (∀ (s : State) (n : Nat), s.flt.safe = false → s.entryHeld (dlkPage n) = false →
    (s.portIn n .held = true → exec (.dlkRetry n) s = .next (s.portGo n .reset)) ∧
    (s.portIn n .held = false → exec (.dlkRetry n) s = .next (s.refuse (dlkPage n) 0x130)) ∧
    ((s.portIn n .ready = true ∨ s.portIn n .enumerating = true) → exec (.dlkDown n) s =
      .next (s.updDport n (fun d => { d with goingDown := true, inq := [] }))) ∧
    (s.portIn n .ready = false → s.portIn n .enumerating = false →
      exec (.dlkDown n) s = .next (s.refuse (dlkPage n) 0x130))) ∧
  (∀ (s : State) (n : Nat), (s.dport n).goingDown = true → s.outstanding (n + 1) = 0 → s.flt.safe = false →
    Gives (.downDone n) s (fun t => (t.dport n).goingDown = false ∧ (t.reg (dlkPage n) 0x30).bit 9 = true ∧
      (t.dport n).state = if (s.dport n).thenOff then (if (s.reg (dlkPage n) 0x100).bit 63 then .empty else .off) else .held)) ∧
  -- a freeze and its release
  (∀ (s : State) (n cause : Nat), s.flt.safe = false → 1 ≤ cause → cause ≤ 7 →
    ((s.dport n).state.linkUp = true → Gives (.dportFreeze n cause) s (fun t => (t.dport n).state = .frozen ∧
      (t.reg (dlkPage n) 0x110).bit 63 = true ∧ (t.reg (dlkPage n) 0x110).field 7 0 = cause ∧
      (t.reg (dlkPage n) 0x30).bit 10 = true ∧
      ∀ r, r ∈ s.reads → r.port = n + 1 → ∃ q, q ∈ t.quar ∧ q.port = n + 1 ∧ q.tag = r.tag)) ∧
    ((s.dport n).state = .frozen → Gives (.dportFreeze n cause) s (fun t => (t.dport n).state = .frozen ∧
      t.reg (dlkPage n) 0x110 = (s.reg (dlkPage n) 0x110).setField 47 32 ((s.reg (dlkPage n) 0x110).field 47 32 + 1)))) ∧
  (∀ (s : State) (n : Nat), s.flt.safe = false →
    (((s.reg (dlkPage n) 0x110).field 7 0 ∈ (s.dport n).aer → exec (.dportFreezeRelease n) s = .next (s.refuse (dlkPage n) 0x110)) ∧
     ((s.reg (dlkPage n) 0x110).field 7 0 ∉ (s.dport n).aer → s.portIn n .frozen = true →
      Gives (.dportFreezeRelease n) s (fun t => (t.dport n).state = .reset ∧ (t.reg (dlkPage n) 0x110).bit 63 = false ∧
        (t.reg (dlkPage n) 0x30).bit 11 = true))))

/-- ENUM_START, ENUM_CONFIG_CPL, ENUM_NORESP, ENUM_END, SLOT_CHANGE and INBOUND_REQUEST (R86 to R92). -/
def Obligations.PartnersAndTheirRequests : Prop :=
  (∀ (s : State) (n : Nat), s.portIn n .enumerating = true → (s.dport n).enumStarted = false → s.dataHeld = false →
    (s.dport n).dlActiveAt + 200000000 ≤ s.clk.noc →
    Gives (.enumStart n) s (fun t => (t.dport n).enumStarted = true ∧ ∃ o, t.out = o ++ [.cfgRead n])) ∧
  (∀ (s : State) (n : Nat) (f : CfgFunc), s.portIn n .enumerating = true → (s.dport n).enumStarted = true →
    Gives (.enumConfigCpl n .retry) s (fun t => t.dports = s.dports ∧ ∃ o, t.out = o ++ [.cfgRead n]) ∧
    (walkOk (s.dport n).funcs f = true → Gives (.enumConfigCpl n (.found f)) s (fun t => (t.dport n).enumOk = true ∧
      (t.dport n).funcs = (s.dport n).funcs ++ [f] ∧ ∃ o, t.out = o ++ [.cfgRead n])) ∧
    (walkOk (s.dport n).funcs f = false → exec (.enumConfigCpl n (.found f)) s = .next s)) ∧
  (∀ (s : State) (n : Nat), s.portIn n .enumerating = true → (s.dport n).enumOk = false →
    (s.dport n).perstHighAt + 2000000000 ≤ s.clk.noc →
    Gives (.enumNoresp n) s (fun t => (t.dport n).state = .held ∧ (t.dport n).result = 2 ∧ (t.elw (dlkPage n) 0).bit 7 = true)) ∧
  (∀ (s : State) (n : Nat), s.portIn n .enumerating = true → (s.dport n).enumOk = true →
    Gives (.enumEnd n) s (fun t => (t.dport n).state = .ready ∧ (t.dport n).trainFails = 0 ∧
      (t.dport n).enabled = (s.enumerate n (s.dport n).funcs).on ∧ (t.dport n).sites = (s.enumerate n (s.dport n).funcs).sites ∧
      (t.dport n).result = (s.enumerate n (s.dport n).funcs).result ∧ (t.dport n).maxPayload = payloadOf (s.dport n).funcs ∧
      t.reg (dlkPage n) 0x120 = partnerWord (s.dport n).funcs ∧
      (t.reg (dlkPage n) 0x128).field 63 32 = ((s.reg (dlkPage n) 0x128).field 63 32 + 1) % 2 ^ 32 ∧
      (t.reg (dlkPage n) 0x30).bit 8 = true)) ∧
  (∀ (s : State) (n bus : Nat) (devs : List CfgFunc), s.portIn n .ready = true → 4 ≤ n → 1 ≤ bus → bus ≤ 31 →
    (∃ f, f ∈ (s.dport n).funcs ∧ f.isSwitch = true) →
    Gives (.slotChange n bus []) s (fun t => (∀ f, f ∈ (t.dport n).enabled ↔ f ∈ (s.dport n).enabled ∧ f.bus ≠ bus) ∧
      (t.dport n).result = 1) ∧
    Gives (.slotChange n bus devs) s (fun t => (t.dport n).state = .ready ∧
      (∀ f, f ∈ (t.dport n).enabled → f.bus = bus → ∃ g, g ∈ devs ∧ f = { g with bus := bus }) ∧
      (∀ f, f.bus ≠ bus → (f ∈ (t.dport n).enabled ↔ f ∈ (s.dport n).enabled)) ∧
      (t.reg (dlkPage n) 0x30).bit 9 = true ∧ (t.reg (dlkPage n) 0x30).bit 12 = true)) ∧
  -- a request of a partner: to HBM, to a sync object, to a peer, or to nothing
  (∀ (s : State) (n p i addr len : Nat) (data : List Byte) (ctl : Word) (a : Nat), s.flt.safe = false →
    s.portIn n .ready = true → s.entryHeld (dlkPage n) = false → s.ownerOf tyPort n = some p → s.windowOf n addr len = some i →
    ctl = s.reg (dlkPage n) (0x208 + 16 * i) →
    a = ctl.field 51 16 * 65536 + (addr - (s.reg (dlkPage n) (0x200 + 16 * i)).field 63 16 * 65536) →
    (ctl.field 62 61 = 0 → s.ownsHbm p a len = true →
      exec (.inboundRequest n true addr len data) s = .next ((s.count (dlkPage n) 2 1).setBytes a (data.take len)) ∧
      exec (.inboundRequest n false addr len data) s =
        .next ((s.count (dlkPage n) 2 1).emit (.readReplyBytes n addr (s.bytes a len)))) ∧
    (ctl.field 62 61 = 0 → s.ownsHbm p a len = false →
      exec (.inboundRequest n true addr len data) s = .next (s.inboundFailed n p addr) ∧
      exec (.inboundRequest n false addr len data) s =
        .next ((s.inboundFailed n p addr).emit (.unsupported (some n) addr len))) ∧
    (ctl.field 62 61 = 1 → s.owns p tySync (a / 16) = true → len = 8 →
      (a % 16 = 0 → exec (.inboundRequest n true addr len data) s =
        .next ((s.count (dlkPage n) 2 1).syncAdd (a / 16) (Word.of (leNat (data.take 8))))) ∧
      (a % 16 = 8 → exec (.inboundRequest n true addr len data) s =
        .next ((s.count (dlkPage n) 2 1).syncSet (a / 16) (Word.of (leNat (data.take 8))))) ∧
      (a % 8 = 0 → exec (.inboundRequest n false addr len data) s = .next (((s.count (dlkPage n) 2 1).syncRead (a / 16)).2.emit
        (.readReply (some n) addr ((s.count (dlkPage n) 2 1).syncRead (a / 16)).1)))) ∧
    (ctl.field 62 61 = 2 → ctl.field 60 58 < 6 → (s.reg (dlkPage n) 0x108).bit (ctl.field 60 58) = true →
      (s.reg (dlkPage (ctl.field 60 58)) 0x108).bit (8 + n) = true → a + len ≤ 0x10000000000 →
      s.dportUp (ctl.field 60 58) = true →
      Gives (.inboundRequest n true addr len data) s (fun t => ∃ o, t.out = o ++
        [.partnerAccess (ctl.field 60 58) true (windowBase (ctl.field 60 58) + a) len (data.take len)]))) ∧
  (∀ (s : State) (n addr len : Nat) (data : List Byte), s.flt.safe = false → s.portIn n .ready = true →
    s.entryHeld (dlkPage n) = false → s.windowOf n addr len = none →
    exec (.inboundRequest n true addr len data) s = .next (s.inboundUnmatched n) ∧
    exec (.inboundRequest n false addr len data) s = .next ((s.inboundUnmatched n).emit (.unsupported (some n) addr len)))
/-! ## Rings, doorbells and sync objects (06_rings_and_sync.md) -/

/-- RING_SETUP, RING_ENABLE, RING_DISABLE, RING_DISABLED, RING_RESUME, RING_READ and SET_PEVT (R106, R112). -/
def Obligations.RingCommands : Prop :=
  (∀ (s : State) (n p : Nat) (x : Ring), Taken s .rng → n < 131072 →
    x = ringOfCtx (s.reg Blk.rng.page 0x108) (s.reg Blk.rng.page 0x110) (s.reg Blk.rng.page 0x118) →
    ringFormatBad (s.reg Blk.rng.page 0x110) x = false → s.ownerOf tyRing n = some p →
    (x.hbm = true → s.ownsHbm p x.base (2 ^ x.logSize * x.type.entryBytes) = true) →
    (x.viEn = true → s.owns p tyVi x.vi = true) →
    (x.type = .submission → s.owns p tyRing x.cplRing = true ∧ (s.ring x.cplRing).setUp = true ∧
      (s.ring x.cplRing).type = .completion) →
    (s.ring n).state = .disabled →
    (x.viEn = true → ∀ e, e ∈ s.rings → e.1 ≠ n → e.2.setUp = true → e.2.viEn = true → e.2.vi = x.vi → e.2.dbSlot ≠ x.dbSlot) →
    exec (.ringSetup n) s = .next (((s.discardHeld n).setRing n x).cmdEnd .rng 1 n .ok)) ∧
  (∀ c0 c1 c2 : Word, (ringOfCtx c0 c1 c2).prod = 0 ∧ (ringOfCtx c0 c1 c2).cons = 0 ∧ (ringOfCtx c0 c1 c2).state = .disabled ∧
    (ringOfCtx c0 c1 c2).setUp = true ∧ (ringOfCtx c0 c1 c2).held = []) ∧
  (∀ (s : State) (n p : Nat), Taken s .rng → n < 131072 → s.ownerOf tyRing n = some p → (s.ring n).setUp = true →
    ((s.ring n).state = .disabled → ((s.ring n).viEn = true → (s.vi (s.ring n).vi).state = .enabled) →
      exec (.ringEnable n) s = .next ((s.setRing n { s.ring n with state := .enabled }).cmdEnd .rng 2 n .ok)) ∧
    (((s.ring n).state = .enabled ∨ (s.ring n).state = .stopped) →
      exec (.ringDisable n) s = .next ((s.ringDisable n).cmdEnd .rng 3 n .ok)) ∧
    ((s.ring n).state = .stopped → exec (.ringResume n) s = .next ((s.setRing n
      { s.ring n with state := .enabled, stopping := none, cons := (s.reg Blk.rng.page 0x120).field 31 0 }).cmdEnd .rng 4 n .ok)) ∧
    ((s.ring n).type = .event → exec (.setPevt n) s =
      .next ((s.setPart p { s.part p with pevt := some n }).cmdEnd .rng 6 n .ok)) ∧
    ((s.ring n).state ≠ .stopped → exec (.ringResume n) s = .next (s.cmdEnd .rng 4 n .state)) ∧
    ((s.ring n).type ≠ .event → exec (.setPevt n) s = .next (s.cmdEnd .rng 6 n .state))) ∧
  (∀ (s : State) (n : Nat), Taken s .rng → n < 131072 → s.ownerOf tyRing n = none →
    exec (.ringEnable n) s = .next (s.cmdEnd .rng 2 n .state) ∧ exec (.ringDisable n) s = .next (s.cmdEnd .rng 3 n .state)) ∧
  (∀ (s : State) (n : Nat), Taken s .rng → n < 131072 → Gives (.ringRead n) s (fun t => OnlyRegs s t ∧
    t.reg Blk.rng.page 0x108 = (s.ring n).ctx0 ∧ t.reg Blk.rng.page 0x110 = (s.ring n).ctx1 ∧
    t.reg Blk.rng.page 0x118 = (s.ring n).ctx2 ∧
    t.reg Blk.rng.page 0x120 = ((0 : Word).setField 63 32 (s.ring n).prod).setField 31 0 (s.ring n).cons ∧
    t.reg Blk.rng.page 0x128 = (((0 : Word).setField 63 62 (s.ring n).state.code).setField 47 32 (s.heldFor n)).setField 31 0
      (s.ring n).dropped)) ∧
  (∀ (s : State) (n : Nat), (s.ring n).state = .draining → (∀ w, w ∈ s.work → w.ring ≠ n) →
    exec (.ringDisabled n) s = .next ((s.setRing n { s.ring n with state := .disabled }).setIntBit Blk.rng.page 10))

/-- DESC_FETCH, DESC_START, WAIT_TIMEOUT, DESC_END and HELD_CPL_WRITE (R99 to R103, R105, R109, R110). -/
def Obligations.DescriptorLife : Prop :=
  -- a fetch from HBM takes the 64 bytes at CONS; a fetch that fails stops the ring there
  (∀ (s : State) (n : Nat), s.mayFetch n = true → (s.ring n).hbm = true →
    (s.firstBad ((s.ring n).base + 64 * ((s.ring n).cons % 2 ^ (s.ring n).logSize)) 64 = none → exec (.descFetch n none) s = .next ((s.setRing n { s.ring n with cons := ((s.ring n).cons + 1) % 2 ^ 32 }).fetched n
      (s.ring n).cons (s.words ((s.ring n).base + 64 * ((s.ring n).cons % 2 ^ (s.ring n).logSize)) 8))) ∧
    ∀ st, Gives (.descFetch n (some st)) s (fun t => (t.reg Blk.rng.page 0x30).bit 9 = true)) ∧
  (∀ (s : State) (n : Nat) (err : Option Status), s.mayFetch n = false → exec (.descFetch n err) s = .next s) ∧
  -- the descriptor at the head starts once its fence and its wait hold, and one that a check refused ends at once
  (∀ (s : State) (n : Nat) (d : Desc) (rest : List Desc), (s.ring n).fetched = d :: rest →
    ((s.ring n).state = .enabled ∨ (s.ring n).state = .stopped) → s.flt.safe = false → s.dataHeld = false →
    (d.bad = none → s.engineStopped (dEngine d.words) = false → (dFence d.words = true → ∀ w, w ∈ s.work → w.ring ≠ n) →
      (dWaitEn d.words = true → d.released = true) →
      Gives (.descStart n) s (fun t => t.work = s.work ++ [s.toWork n d .ready .ok])) ∧
    (∀ st, d.bad = some st → Gives (.descStart n) s (fun t => t.work = s.work ++ [s.toWork n d .done st]))) ∧
  -- a wait that is not met in time ends its descriptor with TIMEOUT
  (∀ (s : State) (n at0 : Nat) (d : Desc) (rest : List Desc), (s.ring n).fetched = d :: rest → d.headAt = some at0 →
    (s.ring n).waitTo ≠ 0 → dWaitEn d.words = true → d.released = false → d.bad = none →
    (at0 + (s.ring n).waitTo * 65536 ≤ s.clk.noc →
      Gives (.waitTimeout n) s (fun t => t.work = s.work ++ [s.toWork n d .done .timeout])) ∧
    (s.clk.noc < at0 + (s.ring n).waitTo * 65536 → exec (.waitTimeout n) s = .next s)) ∧
  -- a finished descriptor leaves the work in progress and its entry goes to the completion ring
  (∀ (s : State) (n idx : Nat) (w : Work), s.workAt n idx = some w → w.phase = .done → w.status = .ok →
    exec (.descEnd n idx) s = .next ((({ s with work := s.work.filter (fun x =>
      !(decide (x.ring = n) && decide (x.idx = idx))) } : State).complete w.cpl w.entry).tryStop n)) ∧
  -- the entry: suppressed, written, or held behind what the ring cannot take yet
  (∀ (s : State) (n : Nat) (c : Cpl), c.suppress = true → c.status = .ok → s.complete n c = s.signalOf c) ∧
  (∀ (s : State) (n : Nat) (c : Cpl), (c.suppress = false ∨ c.status ≠ .ok) →
    ((s.ring n).state ≠ .enabled ∨ (s.ring n).held ≠ [] ∨ (s.ring n).room = false) →
    s.complete n c = s.setRing n { s.ring n with held := (s.ring n).held ++ [c] }) ∧
  (∀ (s : State) (n : Nat) (c : Cpl), (c.suppress = false ∨ c.status ≠ .ok) → (s.ring n).state = .enabled →
    (s.ring n).held = [] → (s.ring n).room = true → (s.ring n).hbm = true → s.complete n c = s.cplWrite n c) ∧
  (∀ (s : State) (n : Nat) (c : Cpl) (a : Nat), (s.ring n).hbm = true → (s.ring n).irqEn = false → c.signal = none →
    a = (s.ring n).base + 32 * ((s.ring n).prod % 2 ^ (s.ring n).logSize) →
    ((s.cplWrite n c).ring n).prod = ((s.ring n).prod + 1) % 2 ^ 32 ∧
    ((s.cplWrite n c).word a).bit 63 = (s.ring n).phaseAt (s.ring n).prod ∧
    ((s.cplWrite n c).word a).field 55 48 = c.status.code ∧ ((s.cplWrite n c).word a).field 15 0 = c.tag % 2 ^ 16 ∧
    (s.cplWrite n c).word (a + 16) = c.r0 ∧ (s.cplWrite n c).word (a + 24) = c.r1 ∧
    ∀ b, b < a ∨ a + 32 ≤ b → (s.cplWrite n c).byte b = s.byte b) ∧
  -- entries that were held are written in order once the ring takes them
  (∀ (s : State) (n : Nat) (c : Cpl), (s.ring n).held = [c] → s.cplReady n = true →
    exec (.heldCplWrite n) s = .next ((s.setRing n { s.ring n with held := [] }).cplWrite n c)) ∧
  (∀ (s : State) (n : Nat), s.cplReady n = false → exec (.heldCplWrite n) s = .next s)

/-- DOORBELL, NOP, SYNC_ADD, SYNC_SET, SYNC_READ and the four aperture commands (R99, R107, R108, R114, R116). -/
def Obligations.DoorbellsAndSyncObjects : Prop :=
  -- a doorbell: the index of a submission ring is its producer, of another its consumer; too far ahead stops the ring
  (∀ (s : State) (n off : Nat) (val : Word), s.frozen = false → s.dstate ≠ 3 → s.flt.safe = false → n < 131072 →
    off = 0x08000000 + 8 * n → (s.ring n).viEn = false →
    ((s.ring n).state = .enabled ∨ (s.ring n).state = .stopped) → (s.part (s.ringPart n)).state = .active →
    ((s.ring n).type = .submission → (val.field 31 0 + 2 ^ 32 - (s.ring n).cons) % 2 ^ 32 ≤ 2 ^ (s.ring n).logSize →
      exec (.doorbell off val) s = .next (s.setRing n { s.ring n with prod := val.field 31 0 })) ∧
    ((s.ring n).type = .submission → 2 ^ (s.ring n).logSize < (val.field 31 0 + 2 ^ 32 - (s.ring n).cons) % 2 ^ 32 →
      (s.ring n).state = .enabled →
      exec (.doorbell off val) s = .next ((s.setRing n { s.ring n with stopping := some .ok }).tryStop n)) ∧
    ((s.ring n).type = .completion → val.field 31 0 = (s.ring n).prod →
      exec (.doorbell off val) s = .next (s.setRing n { s.ring n with cons := val.field 31 0 }))) ∧
  (∀ (s : State) (n off : Nat) (val : Word), s.frozen = false → s.dstate ≠ 3 → s.flt.safe = false → n < 131072 →
    off = 0x08000000 + 8 * n → ((s.ring n).viEn = true ∨ (s.ring n).state = .disabled ∨ (s.ring n).state = .draining) →
    exec (.doorbell off val) s = .next (s.count1 .rng 3)) ∧
  (∀ (s : State) (off : Nat) (val : Word),
    (s.frozen = true → exec (.doorbell off val) s = .next ((s.count1 .hlk 5).count1 .rng 3)) ∧
    (s.frozen = false → (s.dstate = 3 ∨ s.flt.safe = true) → exec (.doorbell off val) s = .next s)) ∧
  -- the four descriptors of the ring engine
  (∀ (s : State) (ring idx : Nat) (w : Work), Started s ring idx 0 0 w →
    exec (.nop ring idx) s = .next (s.workDone ring idx .ok 0 0 0)) ∧
  (∀ (s : State) (ring idx : Nat) (w : Work), Started s ring idx 0 1 w →
    (s.owns w.part tySync w.syncObj = true → exec (.syncAdd ring idx) s =
      .next ((s.syncAdd w.syncObj (wordAt w.words 3)).workDone ring idx .ok 0 0 0)) ∧
    (s.owns w.part tySync w.syncObj = false → exec (.syncAdd ring idx) s = .next (s.workFail ring idx .accessViolation))) ∧
  (∀ (s : State) (ring idx : Nat) (w : Work), Started s ring idx 0 2 w →
    (s.owns w.part tySync w.syncObj = true → exec (.syncSet ring idx) s =
      .next ((s.syncSet w.syncObj (wordAt w.words 3)).workDone ring idx .ok 0 0 0)) ∧
    (s.owns w.part tySync w.syncObj = false → exec (.syncSet ring idx) s = .next (s.workFail ring idx .accessViolation))) ∧
  (∀ (s : State) (ring idx : Nat) (w : Work), Started s ring idx 0 3 w → s.owns w.part tySync w.syncObj = true →
    Gives (.syncRead ring idx) s (fun t => ∃ x, t.workAt ring idx = some x ∧ x.phase = .done ∧ x.status = .ok ∧
      x.r0 = s.syncVal w.syncObj ∧ t.sync = s.sync)) ∧
  -- what the operations do to the object and to no other
  (∀ (s : State) (o : Nat) (v : Word), (s.syncAdd o v).syncVal o = s.syncVal o + v ∧ (s.syncSet o v).syncVal o = v ∧
    ∀ k, k ≠ o → (s.syncAdd o v).syncVal k = s.syncVal k ∧ (s.syncSet o v).syncVal k = s.syncVal k) ∧
  -- a wrap of an addition is an error of SYN
  (∀ (s : State) (o : Nat) (v : Word), 2 ^ 64 ≤ (s.syncVal o).toNat + v.toNat → ((s.syncAdd o v).elw Blk.syn.page 0).bit 0 = true) ∧
  -- the aperture of P0, in D0 with the port neither frozen nor under PERST_N
  (∀ (s : State) (o : Nat) (v : Word), s.flt.safe = false → s.dstate ≠ 3 → s.hlk.perst = false → s.frozen = false →
    (s.owns 0 tySync o = true → exec (.syncApertureAdd .p0 o v) s = .next (s.syncAdd o v) ∧
      exec (.syncApertureSet .p0 o v) s = .next (s.syncSet o v) ∧
      exec (.syncApertureRead .p0 o) s =
        .next ((s.syncRead o).2.emit (.readReply none (0x0C000000 + 16 * o) (s.syncVal o)))) ∧
    (s.owns 0 tySync o = false → exec (.syncApertureAdd .p0 o v) s = .next (s.err .syn 3) ∧
      exec (.syncApertureSet .p0 o v) s = .next (s.err .syn 3) ∧
      exec (.syncApertureRead .p0 o) s = .next ((s.err .syn 3).emit (.unsupported none (0x0C000000 + 16 * o) 8)))) ∧
  -- the aperture of a partner: the request that its window makes of it (R92)
  (∀ (s : State) (o n a i p : Nat) (v : Word), s.flt.safe = false → s.portIn n .ready = true → s.entryHeld (dlkPage n) = false →
    s.ownerOf tyPort n = some p → s.owns p tySync o = true → o < 16384 →
    s.windowOf n a 8 = some i → (s.reg (dlkPage n) (0x208 + 16 * i)).field 62 61 = 1 →
    (s.reg (dlkPage n) (0x208 + 16 * i)).field 51 16 * 65536 +
      (a - (s.reg (dlkPage n) (0x200 + 16 * i)).field 63 16 * 65536) = 16 * o →
    s.apertureAddr n (16 * o) 8 = some a →
    exec (.syncApertureAdd (.port n) o v) s = .next ((s.count (dlkPage n) 2 1).syncAdd o v) ∧
    exec (.syncApertureRead (.port n) o) s = .next (((s.count (dlkPage n) 2 1).syncRead o).2.emit
      (.readReply (some n) a ((s.count (dlkPage n) 2 1).syncVal o)))) ∧
  (∀ (s : State) (o n a i p : Nat) (v : Word), s.flt.safe = false → s.portIn n .ready = true → s.entryHeld (dlkPage n) = false →
    s.ownerOf tyPort n = some p → s.owns p tySync o = true → o < 16384 →
    s.windowOf n a 8 = some i → (s.reg (dlkPage n) (0x208 + 16 * i)).field 62 61 = 1 →
    (s.reg (dlkPage n) (0x208 + 16 * i)).field 51 16 * 65536 +
      (a - (s.reg (dlkPage n) (0x200 + 16 * i)).field 63 16 * 65536) = 16 * o + 8 →
    s.apertureAddr n (16 * o + 8) 8 = some a →
    exec (.syncApertureSet (.port n) o v) s = .next ((s.count (dlkPage n) 2 1).syncSet o v)) ∧
  -- an access of another size or alignment does nothing but set ERR_STAT bit 1; a partner's without a window matches none
  (∀ (s : State) (off len : Nat), apertureFits true off len = false → s.flt.safe = false → s.dstate ≠ 3 → s.hlk.perst = false →
    s.frozen = false → accessOk off len = true → exec (.syncApertureBad .p0 true off len) s = .next (s.err .syn 1)) ∧
  (∀ (s : State) (n off len : Nat), apertureFits true off len = false → apertureFits false off len = false →
    s.flt.safe = false → s.portIn n .ready = true → s.apertureAddr n off len = none →
    exec (.syncApertureBad (.port n) true off len) s = .next (s.inboundUnmatched n) ∧
    exec (.syncApertureBad (.port n) false off len) s =
      .next ((s.inboundUnmatched n).emit (.unsupported (some n) off len))) ∧
  (∀ (s : State) (src : AptSrc) (write : Bool) (off len : Nat), apertureFits write off len = true →
    exec (.syncApertureBad src write off len) s = .next s)
/-! ## Millrace transport (07_millrace_transport.md) -/

/-- ACK, SACK, NAK, PROBE and SPATE_WRITE that arrive, and the packets that the checks drop (R120, R126, R132, R135, R137 to R139,
R142, R146, R148). -/
def Obligations.ArrivingPackets : Prop :=
  -- the checks drop: a malformed packet, a connection that is not open, a data packet outside the window
  (∀ (s : State) (typ : Nat) (p : MlrPacket) (i : Instr), arrivalOf typ p = some i → s.flt.safe = false → s.dataHeld = false →
    (s.gate 20).isOpen = true → s.mlr.gated = [] → (s.addrKnown p = false ∨ mlrFormBad typ p = true) →
    exec i s = .next (s.count1 .mlr 4).faultsPresent.missStart) ∧
  -- at a cluster whose gate is closed a packet waits (R10)
  (∀ (s : State) (typ : Nat) (p : MlrPacket) (i : Instr), arrivalOf typ p = some i → s.flt.safe = false → s.dataHeld = false →
    (s.gate 20).isOpen = false → exec i s =
      .next ({ s with mlr := { s.mlr with gated := s.mlr.gated ++ [(typ, p)] } } : State).faultsPresent.missStart) ∧
  (∀ (s : State) (typ : Nat) (p : MlrPacket) (i : Instr), arrivalOf typ p = some i → Arriving s typ p → typ ≠ 9 →
    (s.conn p.dstConn).live = false → exec i s = .next (s.count1 .mlr 5).faultsPresent.missStart) ∧
  (∀ (s : State) (p : MlrPacket), Arriving s 9 p → s.spate p.dstConn = none →
    exec (.spateWrite p) s = .next (s.count1 .mlr 5).faultsPresent.missStart) ∧
  (∀ (s u : State) (typ : Nat) (p : MlrPacket) (i : Instr) (d : List Byte), arrivalOf typ p = some i → typ < 5 →
    Accepted s typ p d u → psnBefore p.psn (s.conn p.dstConn).rxNext = false →
    (s.conn p.dstConn).window ≤ (p.psn - (s.conn p.dstConn).rxNext).toNat → exec i s = .next (u.count1 .mlr 7).faultsPresent.missStart) ∧
  -- a duplicate is dropped, counted and acknowledged at once
  (∀ (s u : State) (typ : Nat) (p : MlrPacket) (i : Instr) (d : List Byte), arrivalOf typ p = some i → typ < 5 →
    Accepted s typ p d u → (p.psn - (s.conn p.dstConn).rxNext).toNat < (s.conn p.dstConn).window →
    u.duplicate p.dstConn p.psn = true →
    exec i s = .next ((u.count1 .mlr 8).sendAck p.dstConn none).faultsPresent.missStart) ∧
  -- a packet whose context is not resident is held, where there is room
  (∀ (s : State) (typ : Nat) (p : MlrPacket) (i : Instr), arrivalOf typ p = some i → Arriving s typ p → typ ≠ 9 →
    (s.conn p.dstConn).live = true → (s.conn p.dstConn).part ∉ s.flt.parts → p.dstConn ∉ s.mlr.resident →
    exec i s = .next ((s.connMiss p.dstConn).missHold p.dstConn .context typ p).faultsPresent.missStart) ∧
  -- control packets; one with AREQ = 1 is answered by an acknowledgement at once (R131)
  (∀ (s u v : State) (typ : Nat) (p : MlrPacket) (i : Instr) (d : List Byte), arrivalOf typ p = some i → 5 ≤ typ →
    Accepted s typ p d u →
    v = ((u.count1 .mlr 3).connAck p.dstConn p.ackPsn (if typ = 6 then mapPsns p.ackPsn p.ext else [])).ctrlAct p.dstConn typ p →
    exec i s = .next (if p.areq && (v.conn p.dstConn).live then v.sendAck p.dstConn none else v).faultsPresent.missStart) ∧
  (∀ (v : State) (c typ : Nat) (p : MlrPacket), (typ = 5 ∨ typ = 6) →
    v.ctrlAct c typ p = if p.ece then v.eceIn c p.path else v) ∧
  (∀ (v : State) (c : Nat) (p : MlrPacket) (x : TxPkt), (v.conn c).txOf (BitVec.ofNat 32 (beAt p.ext 0 4)) = some x →
    (Status.ofCode (beAt p.ext 4 1) = some .pageNotReady → v.ctrlAct c 7 p = v.updConn c (fun y =>
      y.updTx (BitVec.ofNat 32 (beAt p.ext 0 4)) (fun q => { q with nakAt := some (v.clk.pkt + beAt p.ext 8 4) }))) ∧
    (∀ st, st ≠ .pageNotReady → Status.ofCode (beAt p.ext 4 1) = some st → v.ctrlAct c 7 p =
      (v.ownerFailed x.owner st).connAcked c (fun q => decide (q = BitVec.ofNat 32 (beAt p.ext 0 4))))) ∧
  (∀ (v : State) (c : Nat) (p : MlrPacket),
    (((p.ext.getD 0 0).toNat).testBit 7 = false →
      v.ctrlAct c 8 p = v.sendCtrl c 8 (probeExt true (beAt p.ext 4 4) (beAt p.ext 8 8))) ∧
    (((p.ext.getD 0 0).toNat).testBit 7 = true → v.ctrlAct c 8 p = v.probeEcho c (beAt p.ext 4 4) (beAt p.ext 8 8))) ∧
  -- what an acknowledgement takes off, what MAP names, and what an echo does
  (∀ (s : State) (c : Nat) (a : BitVec 32) (m : List (BitVec 32)),
    (∀ x, x ∈ (s.conn c).tx → ∃ r, x.owner = .serve r) →
    ∀ x, x ∈ ((s.connAck c a m).conn c).tx ↔ x ∈ (s.conn c).tx ∧ psnBefore x.psn a = false ∧ x.psn ∉ m) ∧
  (∀ (a : BitVec 32) (ext : List Byte) (k : Nat), k < 256 → ((ext.getD (k / 8) 0).toNat).testBit (7 - k % 8) = true →
    a + 1 + BitVec.ofNat 32 k ∈ mapPsns a ext) ∧
  (∀ (s : State) (c path : Nat), (∀ t, (s.conn c).lastCut = some t → t + s.cutGap ≤ s.clk.pkt) →
    ((s.eceIn c path).conn c).cwnd = max (s.cwndLow (s.conn c))
      ((s.conn c).cwnd - (s.conn c).cwnd / 2 ^ (s.mlrSet 0x118).field 31 28) ∧
    Tab.find ((s.eceIn c path).conn c).pathHeld path = some (s.clk.pkt + s.pathHold)) ∧
  (∀ x : Conn, x.cwnd ≤ x.window → (x.credited.cwnd = if x.cwnd ≤ x.credit + 1 then min (x.cwnd + 1) x.window else x.cwnd) ∧
    x.credited.cwnd ≤ x.window) ∧
  -- a spate packet: placed, and its bytes added to the sync object of the channel
  (∀ (s u v w : State) (p : MlrPacket) (d : List Byte) (x : Spate) (segs : List (Nat × Nat)) (e : List Word), Arriving s 9 p →
    s.spate p.dstConn = some x → x.part ∉ s.flt.parts → s.openPkt x.rxKey 9 p = (.ok d, u) → v = (u.count1 .mlr 3).rmaSwap →
    v.spate p.dstConn = some x → v.keyReason x.part (extKey p.ext) = none → extKey p.ext ∈ v.mlr.regionCache →
    e = (v.regionTouch (extKey p.ext)).region (extKey p.ext) →
    regionReason (v.region (extKey p.ext)) 9 none (extOff p.ext) d.length = none →
    (v.regionTouch (extKey p.ext)).hostRefusal e = none →
    w = (v.regionTouch (extKey p.ext)).atsRange e (extOff p.ext) d.length →
    w.translate x.part e (extOff p.ext) d.length = .at_ segs →
    exec (.spateWrite p) s = .next ((((w.putSegs (gHost e) segs d).count1 .mlr 0x0F).count1 .rma 1).syncAdd x.sync
      (Word.of d.length)).faultsPresent.missStart)

/-- DATA_SEND, ACK_DELAY_EXPIRE, REORDER_LOSS, RTO_EXPIRE, NAK_RESEND, PATH_HOLD_END, CONTEXT_FETCHED, CONTEXT_WRITEBACK_DONE and
MISS_HOLD_TIMEOUT (R131 to R134, R137, R139 to R143). -/
def Obligations.SelectiveRepeat : Prop :=
  (∀ (s u : State) (c : Nat) (it : TxItem) (rest : List TxItem), s.connRuns c = true → (s.connUse c) = (true, u) →
    (∀ x, x ∈ (u.conn c).tx → x.lost = false) → (u.conn c).outq = it :: rest → it.typ < 5 → (u.conn c).mayNew = true →
    u.work = [] → (u.conn c).serves = [] → exec (.dataSend c) s = .next (u.queueSend c it).missStart) ∧
  (∀ (s u : State) (c : Nat) (w : Work), s.connRuns c = true → (s.connUse c) = (true, u) →
    (∀ x, x ∈ (u.conn c).tx → x.lost = false) → (u.conn c).outq = [] → u.work.find? (u.writeReady c) = some w →
    ((u.conn c).mayNew = true → exec (.dataSend c) s = .next (u.writeSend c w).missStart) ∧
    ((u.conn c).mayNew = false → exec (.dataSend c) s = .next u.missStart)) ∧
  (∀ (s u : State) (c : Nat) (p : TxPkt), s.connRuns c = true → (s.connUse c) = (true, u) →
    (u.conn c).tx.find? (fun p => p.lost) = some p → exec (.dataSend c) s = .next (u.resend c p true).missStart) ∧
  (∀ x : Conn, x.mayNew = true ↔ (x.txNext - x.txUna).toNat < x.window ∧ (x.tx.filter (fun p => !p.lost)).length < x.cwnd) ∧
  -- a new packet takes TX_NEXT and starts its timers
  (∀ (s u v : State) (c : Nat) (it : TxItem),
    s.connNext c it.typ (s.conn c).txNext false (decide (it.typ = 2)) none it.ext it.payload = (.sent, u) →
    s.sendNew c it = (.sent, v) →
    (v.conn c).txNext = (u.conn c).txNext + 1 ∧ ∃ x, x ∈ (v.conn c).tx ∧ x.psn = (s.conn c).txNext ∧ x.ext = it.ext ∧
      x.payload = it.payload ∧ x.tries = 0 ∧ x.lost = false ∧ x.rtoAt = s.clk.pkt + s.rtoMin ∧
      x.reorderAt = s.clk.pkt + s.reorderWin) ∧
  (∀ (s : State) (c t : Nat), (s.conn c).ackDue = some t → s.connRuns c = true →
    (t ≤ s.clk.pkt → exec (.ackDelayExpire c) s = .next (s.sendAck c none)) ∧
    (s.clk.pkt < t → exec (.ackDelayExpire c) s = .next s)) ∧
  (∀ (s u : State) (c : Nat), (s.conn c).gap = false → (s.conn c).ecePaths = [] →
    s.connNext c 5 (s.conn c).txNext false false none [] [] = (.sent, u) →
    ((s.sendAck c none).conn c).ackDue = none ∧ ((s.sendAck c none).conn c).ackCount = 0 ∧
    ((s.sendAck c none).conn c).sackSent = false) ∧
  -- loss
  (∀ (s : State) (c n : Nat) (p : TxPkt), (s.conn c).txOf (BitVec.ofNat 32 n) = some p → s.connRuns c = true → p.lost = false →
    (p.order + 1 < (s.conn c).ackedOrder → p.reorderAt ≤ s.clk.pkt →
      exec (.reorderLoss c n) s = .next ((s.cwndCut c).packetLost c p)) ∧
    (s.clk.pkt < p.reorderAt → exec (.reorderLoss c n) s = .next s) ∧
    (p.rtoAt ≤ s.clk.pkt → exec (.rtoExpire c n) s = .next (((s.count1 .mlr 0x0E).updConn c (fun x =>
      { x with cwnd := min ((s.mlrSet 0x118).field 47 32) x.window })).packetLost c p)) ∧
    (s.clk.pkt < p.rtoAt → exec (.rtoExpire c n) s = .next s)) ∧
  (∀ (s : State) (c : Nat) (p : TxPkt),
    (s.retryMax ≤ p.tries → (s.conn c).state ≠ .closing → s.packetLost c p = s.connError c 1 .timeout) ∧
    (s.retryMax ≤ p.tries → (s.conn c).state = .closing → s.packetLost c p = s.connDrop c .closed .timeout) ∧
    (p.tries < s.retryMax → s.packetLost c p =
      ((s.updConn c (fun x => x.updTx p.psn (fun q => { q with lost := true }))).holdPath c p.path).resend c p true)) ∧
  (∀ (s u : State) (c : Nat) (p q : TxPkt), s.connNext c p.typ p.psn true (decide (p.typ = 2)) none p.ext p.payload = (.sent, u) →
    q ∈ (u.conn c).tx → q.psn = p.psn → ∃ x, x ∈ ((s.resend c p true).conn c).tx ∧ x.psn = p.psn ∧ x.tries = p.tries + 1 ∧
      x.lost = false ∧ x.nakAt = none ∧ x.rtoAt = s.clk.pkt + min s.rtoMax (s.rtoMin * 2 ^ (p.tries + 1))) ∧
  (∀ (s : State) (c n t : Nat) (p : TxPkt), (s.conn c).txOf (BitVec.ofNat 32 n) = some p → s.connRuns c = true →
    p.nakAt = some t → (t ≤ s.clk.pkt → exec (.nakResend c n) s = .next (s.resend c p false)) ∧
    (s.clk.pkt < t → exec (.nakResend c n) s = .next s)) ∧
  (∀ (s : State) (c path e : Nat), Tab.find (s.conn c).pathHeld path = some e →
    (e ≤ s.clk.pkt → Gives (.pathHoldEnd c path) s (fun t => Tab.find (t.conn c).pathHeld path = none ∧
      ∀ q, q ≠ path → Tab.find (t.conn c).pathHeld q = Tab.find (s.conn c).pathHeld q)) ∧
    (s.clk.pkt < e → exec (.pathHoldEnd c path) s = .next s)) ∧
  -- contexts
  (∀ (s : State) (c : Nat), c ∈ s.mlr.fetching → (∀ h, h ∈ s.mlr.held → h.conn ≠ c) →
    Gives (.contextFetched c true) s (fun t => c ∈ t.mlr.resident ∧ c ∉ t.mlr.fetching)) ∧
  (∀ (s : State) (c : Nat), c ∈ s.mlr.fetching → (s.conn c).live = true →
    exec (.contextFetched c false) s = .next (({ s with mlr := { s.mlr with fetching := s.mlr.fetching.filter (fun x => x ≠ c) } } :
      State).errFor .mlr 1 (s.conn c).part |>.connError c 4 .state)) ∧
  (∀ (s : State) (c : Nat), c ∈ s.mlr.writingBack → (∀ h, h ∈ s.mlr.held → h.conn ≠ c) →
    Gives (.contextWritebackDone c) s (fun t => c ∉ t.mlr.writingBack ∧ t.mlr.fetching = s.mlr.fetching)) ∧
  (∀ (s : State) (hid : Nat) (h : HeldPkt), h ∈ s.mlr.held → h.hid = hid → h.why ≠ .window → s.stalls h = false → h.at_ + 102400 ≤ s.clk.pkt →
    Gives (.missHoldTimeout hid) s (fun t => ∀ x, x ∈ t.mlr.held ↔ x ∈ s.mlr.held ∧ x.hid ≠ hid))

/-- CONN_OPEN, MLR_CMD_CLOSE, MLR_CMD_QUERY, MLR_SET_PART, SPATE_OPEN, SPATE_CLOSE and CONN_CLOSED (R127, R128, R139, R140, R144). -/
def Obligations.ConnectionCommands : Prop :=
  (∀ (s : State) (part p : Nat) (m : MlrPart), Taken s .mlr → (s.reg mlrPage 0x140).field 15 2 ≠ 0 →
    (s.reg mlrPage 0x140).field 15 2 ≤ 8192 → s.ownerOf tyConn s.argConn = some p → (s.part p).mlr = some m →
    m.first ≤ s.argConn → s.argConn < m.first + m.count → (s.part p).hasAddr ((s.reg mlrPage 0x140).bit 1) = true →
    (s.conn s.argConn).state = .closed → s.owns p tyKey ((s.reg mlrPage 0x150).field 63 44) = true →
    s.owns p tyKey ((s.reg mlrPage 0x150).field 43 24) = true → s.owns p tyLeaf ((s.reg mlrPage 0x148).field 32 16) = true →
    exec (.connOpen part) s = .next (((s.setConn s.argConn (s.openConn p)).connIn s.argConn).cmdEnd .mlr 1 s.argConn .ok)) ∧
  (∀ (s : State) (p : Nat) (x : Conn), x = s.openConn p → x.state = .active ∧ x.part = p ∧
    x.txNext = BitVec.ofNat 32 ((s.reg mlrPage 0x168).field 63 32) ∧ x.txUna = x.txNext ∧
    x.rxNext = BitVec.ofNat 32 ((s.reg mlrPage 0x168).field 31 0) ∧ x.tx = [] ∧ x.rxBits = [] ∧
    x.window = (s.reg mlrPage 0x140).field 15 2 ∧ x.pathsM1 = (s.reg mlrPage 0x148).field 63 56 ∧
    x.txKey = (s.reg mlrPage 0x150).field 63 44 ∧ x.rxKey = (s.reg mlrPage 0x150).field 43 24 ∧
    x.cwnd = max (s.cwndLow x) (min ((s.mlrSet 0x118).field 63 48) x.window)) ∧
  (∀ (s : State) (part : Nat), Taken s .mlr → ((s.reg mlrPage 0x140).field 15 2 = 0 ∨ 8192 < (s.reg mlrPage 0x140).field 15 2) →
    exec (.connOpen part) s = .next (s.cmdEnd .mlr 1 s.argConn .format)) ∧
  (∀ (s : State) (part : Nat), Taken s .mlr →
    exec (.mlrCmdClose part) s = .next ((s.connClose s.argConn).cmdEnd .mlr 2 s.argConn .ok) ∧
    exec (.mlrCmdQuery part) s = .next (((s.setReg mlrPage 0x180 (s.connStat s.argConn)).setReg mlrPage 0x188
      (s.connStat1 s.argConn)).cmdEnd .mlr 3 s.argConn .ok)) ∧
  (∀ (s : State) (c : Nat),
    ((s.conn c).state = .active → s.connClose c = (s.updConn c (fun x => { x with state := .closing })).connLeft c .state) ∧
    ((s.conn c).state = .error → ((s.connClose c).conn c).state = .closed) ∧
    ((s.conn c).state = .closed ∨ (s.conn c).state = .closing → s.connClose c = s) ∧
    (s.connStat c).field 63 61 = (s.conn c).state.code ∧ (s.connStat c).field 31 0 = (s.conn c).txUna.toNat ∧
    (s.connStat c).bit 55 = s.mlr.resident.contains c ∧ (s.connStat1 c).field 63 32 = (s.conn c).txNext.toNat ∧
    (s.connStat1 c).field 31 0 = (s.conn c).rxNext.toNat) ∧
  (∀ (s : State) (part : Nat), Taken s .mlr → part < 128 → s.argPart.first + s.argPart.count ≤ 2 ^ 24 → (s.argPart.count ≠ 0 → s.ownsHbm part s.argPart.base (256 * s.argPart.count) = true) →
    ((s.part part).state = .building ∨ ((s.part part).state = .active ∧ s.connsOpen part = false)) → s.addrTaken part s.argPart = false →
    exec (.mlrSetPart part) s =
      .next ((s.setPart part { s.part part with mlr := some s.argPart }).cmdEnd .mlr 4 s.argConn .ok)) ∧
  (∀ (s : State) (part : Nat), Taken s .mlr → 2 ^ 24 < s.argPart.first + s.argPart.count →
    exec (.mlrSetPart part) s = .next (s.cmdEnd .mlr 4 s.argConn .format)) ∧
  (∀ (s : State) (part : Nat), Taken s .mlr → part < 128 → s.argConn < 1024 →
    (s.owns part tyKey ((s.reg mlrPage 0x150).field 43 24) = true → s.owns part tySync ((s.reg mlrPage 0x150).field 13 0) = true →
      s.spate s.argConn = none → Gives (.spateOpen part) s (fun t => ∃ x,
        t.spate s.argConn = some x ∧ x.part = part ∧ x.rxKey = (s.reg mlrPage 0x150).field 43 24 ∧
        x.sync = (s.reg mlrPage 0x150).field 13 0)) ∧
    (s.spate s.argConn = none → exec (.spateClose part) s = .next (s.cmdEnd .mlr 6 s.argConn .state)) ∧
    (s.spate s.argConn ≠ none →
      exec (.spateClose part) s = .next ((s.spateShut s.argConn).cmdEnd .mlr 6 s.argConn .ok) ∧
      ∀ n, (s.spateShut s.argConn).spate n = if n = s.argConn then none else s.spate n)) ∧
  (∀ (s : State) (c : Nat), (s.conn c).state = .closing → (∀ w, w ∈ s.work → w.onConn c = false ∧ w.restoresOn c = false) → (s.conn c).serves = [] →
    (s.conn c).txUna = (s.conn c).txNext → (s.conn c).outq = [] →
    Gives (.connClosed c) s (fun t => (t.conn c).state = .closed ∧ c ∉ t.mlr.resident ∧
      ∀ n, n ≠ c → t.conn n = s.conn n))

/-- SPATE_SEND, MLR_CLOSE, MLR_QUERY, PROBE_SEND and PROBE_TIMEOUT, the descriptors of engine 1 (R145, R148). -/
def Obligations.MillraceDescriptors : Prop :=
  (∀ (s : State) (ring idx : Nat) (w : Work), Started s ring idx 1 1 w → w.ctx = .none →
    (s.spateCheck w.part w.vi w.words = .ok → exec (.spateSend ring idx) s =
      .next ((s.updWork ring idx (fun v => { v with ctx := .send 0 none [] })).spateRun w 0
        ((rLen w.words + mtuBytes (wf w.words 5 23 22) - 1) / mtuBytes (wf w.words 5 23 22)))) ∧
    (rLen w.words = 0 → exec (.spateSend ring idx) s = .next (s.workFail ring idx .format))) ∧
  -- each packet takes the next index, place and path, once its leaf admits its frame (R202); the descriptor ends with OK when its
  -- last packet has left its leaf
  (∀ (s : State) (w : Work) (i : Nat), s.spateRun w i 0 = s.spateSettle w.ring w.idx) ∧
  (∀ (s : State) (ring idx i : Nat) (w : Work), s.workAt ring idx = some w → w.ctx = .send i none [] → dEngine w.words = 1 →
    dOpcode w.words = 1 → w.phase ≠ .done → rLen w.words ≤ i * mtuBytes (wf w.words 5 23 22) →
    ((∀ f, f ∈ (s.leaf (wf w.words 5 21 5)).q → f.desc ≠ some (ring, idx)) →
      s.spateSettle ring idx = s.workDone ring idx .ok 0 0 0) ∧
    (∀ f, f ∈ (s.leaf (wf w.words 5 21 5)).q → f.desc = some (ring, idx) → s.spateSettle ring idx = s)) ∧
  (∀ (s u : State) (w : Work) (i k : Nat) (data : List Byte) (q : MlrPacket) (a : Nat),
    a = (wordAt w.words 2).toNat + i * mtuBytes (wf w.words 5 23 22) →
    s.fetch w (spaceOf (wb w.words 5 24) a) a (min (mtuBytes (wf w.words 5 23 22))
      (rLen w.words - i * mtuBytes (wf w.words 5 23 22))) = .got data →
    (s.admits (wf w.words 5 21 5) (s.mlrFrame (wf w.words 5 21 5) (s.spatePkt w i data)) = false →
      s.spateRun w i (k + 1) = s.waitAt (wf w.words 5 21 5) (.spate w.ring w.idx)) ∧
    (s.admits (wf w.words 5 21 5) (s.mlrFrame (wf w.words 5 21 5) (s.spatePkt w i data)) = true →
      (s.sealPkt (wf w.words 5 53 34) 9 (s.spatePkt w i data) = (.sent, q, u) →
        s.spateRun w i (k + 1) = ((u.mlrSubmit (wf w.words 5 21 5) 9 (wf w.words 5 63 54) 0 false q.path q
          (some (w.ring, w.idx))).updWork w.ring w.idx
            (fun v => { v with ctx := .send (i + 1) none [] })).spateRun w (i + 1) k) ∧
      (s.sealPkt (wf w.words 5 53 34) 9 (s.spatePkt w i data) = (.refused, q, u) →
        s.spateRun w i (k + 1) = u.workDone w.ring w.idx .state i 0 0))) ∧
  (∀ (s : State) (w : Work) (i : Nat) (data : List Byte), (s.spatePkt w i data).psn = BitVec.ofNat 32 i ∧
    (s.spatePkt w i data).dstConn = wf w.words 5 63 54 ∧ (s.spatePkt w i data).path = i % (wf w.words 5 33 26 + 1) ∧
    (s.spatePkt w i data).payload = data ∧ (s.spatePkt w i data).ackPsn = 0 ∧ (s.spatePkt w i data).srcConn = 0) ∧
  (∀ (s : State) (ring idx : Nat) (w : Work), Started s ring idx 1 2 w →
    (s.owns w.part tyConn (wf w.words 2 23 0) = true →
      exec (.mlrClose ring idx) s = .next ((s.connClose (wf w.words 2 23 0)).workDone ring idx .ok 0 0 0)) ∧
    (s.owns w.part tyConn (wf w.words 2 23 0) = false →
      exec (.mlrClose ring idx) s = .next (s.workFail ring idx .accessViolation))) ∧
  (∀ (s : State) (ring idx : Nat) (w : Work), Started s ring idx 1 3 w →
    (s.owns w.part tyConn (wf w.words 2 23 0) = true → exec (.mlrQuery ring idx) s =
      .next (s.workDone ring idx .ok 0 (s.connStat (wf w.words 2 23 0)) (s.connStat1 (wf w.words 2 23 0)))) ∧
    (s.owns w.part tyConn (wf w.words 2 23 0) = false →
      exec (.mlrQuery ring idx) s = .next (s.workFail ring idx .accessViolation))) ∧
  (∀ (s u v : State) (ring idx c path : Nat) (w : Work), Started s ring idx 1 4 w → w.ring = ring → w.idx = idx →
    c = wf w.words 2 23 0 → path = wf w.words 2 31 24 → s.owns w.part tyConn c = true → path ≤ (s.conn c).pathsM1 →
    (s.conn c).state = .active → s.connUse c = (true, u) →
    u.connOut c path 8 (s.conn c).txNext false false none (probeExt false (idx % 2 ^ 32) s.clk.pkt) [] = (.sent, v) →
    exec (.probeSend ring idx) s = .next (v.updWork ring idx (fun x => { x with phase := .running, ctx := .probe path s.clk.pkt s.rtoMax }))) ∧
  (∀ (s : State) (ring idx : Nat) (w : Work), Started s ring idx 1 4 w → w.ring = ring → w.idx = idx →
    s.owns w.part tyConn (wf w.words 2 23 0) = true → wf w.words 2 31 24 ≤ (s.conn (wf w.words 2 23 0)).pathsM1 →
    (s.conn (wf w.words 2 23 0)).state ≠ .active → exec (.probeSend ring idx) s = .next (s.workFail ring idx .state)) ∧
  (∀ (s : State) (ring idx path ts limit : Nat) (w : Work), s.workAt ring idx = some w → w.ctx = .probe path ts limit →
    (ts + limit ≤ s.clk.pkt → exec (.probeTimeout ring idx) s = .next (s.workFail ring idx .timeout)) ∧
    (s.clk.pkt < ts + limit → exec (.probeTimeout ring idx) s = .next s))
/-! ## Remote write and remote read (08_remote_memory.md) -/

/-- What the region checks answer (R153, R154): the REASON of the first check that fails, in order. -/
def Obligations.RegionValidation : Prop :=
  (∀ (s : State) (q key : Nat), (key / 2 ^ 25 ≠ q → s.keyReason q key = some 1) ∧
    (key / 2 ^ 25 = q → (s.part q).rmaTable = none → s.keyReason q key = some 2) ∧
    (∀ base n, key / 2 ^ 25 = q → (s.part q).rmaTable = some (base, n) →
      (n ≤ key % 2 ^ 25 → s.keyReason q key = some 2) ∧ (key % 2 ^ 25 < n → s.keyReason q key = none ∧
        s.region key = s.words (base + 64 * (key % 2 ^ 25)) 4))) ∧
  (∀ (e : List Word) (typ c off len : Nat) (right : Bool),
    right = (wordAt e 0).bit (if typ = 9 then 58 else if typ = 3 then 57 else 56) →
    ((wordAt e 0).field 63 62 = 0 → regionReason e typ (some c) off len = some 3) ∧
    ((wordAt e 0).field 63 62 = 2 → regionReason e typ (some c) off len = some 4) ∧
    ((wordAt e 0).field 63 62 = 1 → right = false → regionReason e typ (some c) off len = some 5) ∧
    ((wordAt e 0).field 63 62 = 1 → right = true → (wordAt e 2).toNat < off + len →
      regionReason e typ (some c) off len = some 6) ∧
    ((wordAt e 0).field 63 62 = 1 → right = true → off + len ≤ (wordAt e 2).toNat → (wordAt e 3).bit 39 = true →
      c ≠ (wordAt e 3).field 63 40 → regionReason e typ (some c) off len = some 7) ∧
    ((wordAt e 0).field 63 62 = 1 → right = true → off + len ≤ (wordAt e 2).toNat →
      ((wordAt e 3).bit 39 = false ∨ c = (wordAt e 3).field 63 40) → regionReason e typ (some c) off len = none)) ∧
  (∀ r : Nat, 1 ≤ r → r ≤ 11 →
    (reasonCode r = if r = 9 then .timeout else if r = 11 then .poisoned else .accessViolation) ∧
    (reasonStatus r = if r ≤ 8 then .peerViolation else if r ≤ 10 then .pageNotReady else .poisoned)) ∧
  (∀ (s : State) (c typ r : Nat) (p : MlrPacket), s.swapDue rmaPage = false → s.keyReason (s.conn c).part (extKey p.ext) = some r →
    s.rmaIn c typ p none = s.rmaRefuse c p r) ∧
  (∀ (s : State) (c typ r : Nat) (p : MlrPacket), s.swapDue rmaPage = false → s.keyReason (s.conn c).part (extKey p.ext) = none →
    extKey p.ext ∈ s.mlr.regionCache → regionReason (s.region (extKey p.ext)) typ (some c) (extOff p.ext) (accLen typ p) = some r →
    s.rmaIn c typ p none = (s.regionTouch (extKey p.ext)).rmaRefuse c p r) ∧
  (∀ (s : State) (e : List Word), ((wordAt e 0).field 61 60 ≠ 2 → s.hostRefusal e = none) ∧
    ((wordAt e 0).field 61 60 = 2 → (s.vi ((wordAt e 0).field 52 41)).state ≠ .enabled → s.hostRefusal e = some .abortedByReset) ∧
    ((wordAt e 0).field 61 60 = 2 → (s.vi ((wordAt e 0).field 52 41)).state = .enabled → s.hostUp = false →
      s.hostRefusal e = some .state)) ∧
  -- an absent page: a new fault entry and a stall of the connection, a full table, an entry past its limit
  (∀ (s : State) (id : PageId), s.faultOf id = none → s.mlr.faults.length < 4096 →
    s.faultMeet id = (.stall s.mlr.nextFault, s.faultOpen id) ∧ (s.faultOpen id).mlr.faults = s.mlr.faults ++
      [{ id := s.mlr.nextFault, mode := id.mode, part := id.part, vi := id.vi, page := id.page, at_ := s.clk.pkt,
         limited := false, told := false }]) ∧
  (∀ (s : State) (id : PageId), s.faultOf id = none → 4096 ≤ s.mlr.faults.length →
    s.faultMeet id = (.full, s.setIntBit rmaPage 9)) ∧
  (∀ (s : State) (id : PageId) (f : FaultEntry), s.faultOf id = some f → f.limited = false →
    s.faultMeet id = (.stall f.id, s.pageAgain id)) ∧
  (∀ (s : State) (id : PageId), s.pageAgain id = if id.mode = 1 then s else s.pageAsk id) ∧
  (∀ (s : State) (c typ : Nat) (p : MlrPacket) (id : PageId) (f : FaultEntry), s.faultOf id = some f → f.limited = false →
    s.missRoom p = true → ((s.packetStall c typ p id none).conn c).stalls =
      (s.conn c).stalls ++ [(f.id, p.psn, s.clk.pkt + s.stallLimit)]) ∧
  (∀ (s : State) (c typ : Nat) (p : MlrPacket) (id : PageId) (f : FaultEntry), s.faultOf id = some f → f.limited = true →
    f.told = true → s.packetStall c typ p id none = (s.pageAgain id).rmaRefuse c p 9)

/-- WRITE, WRITE_LAST, READ_REQ and READ_RESP that arrive, REGION_ENTRY_FETCHED, WRITE_PLACED, WRITE_LAST_PLACE, READ_SERVE_START,
STALL_EXPIRE and PNR_LIMIT_EXPIRE (R153, R156 to R162, R165 to R167). -/
def Obligations.RemoteAccesses : Prop :=
  (∀ (s v : State) (p q : MlrPacket) (d : List Byte), q = { p with payload := d } →
    (Taking s 1 p d v → (v.conn p.dstConn).attached = false →
      exec (.write p) s = .next ((v.rmaIn p.dstConn 1 q none).areqAck p.dstConn q).faultsPresent.missStart) ∧
    (Taking s 2 p d v → (v.conn p.dstConn).attached = false →
      exec (.writeLast p) s = .next ((v.rmaIn p.dstConn 2 q none).areqAck p.dstConn q).faultsPresent.missStart) ∧
    (Taking s 3 p d v → exec (.readReq p) s =
      .next ((v.rmaIn p.dstConn 3 q none).areqAck p.dstConn q).faultsPresent.missStart) ∧
    (Taking s 4 p d v → exec (.readResp p) s = .next ((v.readResp p.dstConn q).areqAck p.dstConn q).faultsPresent.missStart)) ∧
  -- a validated packet is in flight, or its read waits to be served; an entry that is not cached is fetched first
  (∀ (s u w : State) (c typ n : Nat) (p : MlrPacket) (e : List Word) (segs : List (Nat × Nat)), s.swapDue rmaPage = false →
    s.keyReason (s.conn c).part (extKey p.ext) = none → extKey p.ext ∈ s.mlr.regionCache →
    regionReason (s.region (extKey p.ext)) typ (some c) (extOff p.ext) (accLen typ p) = none →
    u = s.regionTouch (extKey p.ext) → e = u.region (extKey p.ext) → u.hostRefusal e = none →
    n = (if typ = 3 then min (accLen 3 p) (mtuBytes (u.conn c).mtu) else p.payload.length) → w = u.atsRange e (extOff p.ext) n →
    w.translate (u.conn c).part e (extOff p.ext) n = .at_ segs →
    s.rmaIn c typ p none = if typ = 3 then w.readIn c p else w.writeIn c typ p e segs) ∧
  (∀ (s : State) (c typ : Nat) (p : MlrPacket), s.swapDue rmaPage = false →
    s.keyReason (s.conn c).part (extKey p.ext) = none → extKey p.ext ∉ s.mlr.regionCache →
    s.rmaIn c typ p none = (s.missHold c .region typ p).regionMiss (extKey p.ext)) ∧
  (∀ (s : State) (c : Nat) (p : MlrPacket) (e : List Word) (segs : List (Nat × Nat)),
    s.writeIn c 1 p e segs = s.updConn c (fun y => { y with rxPkts := y.rxPkts ++
      [{ psn := p.psn, typ := 1, pkt := p, key := extKey p.ext, host := gHost e, segs := segs, gen := s.rxGenNow }] })) ∧
  (∀ (s : State) (key : Nat), key ∈ s.mlr.regionFetch → (∀ h, h ∈ s.mlr.held → ¬(h.why = .region ∧ extKey h.pkt.ext = key)) →
    Gives (.regionEntryFetched key true) s (fun t => key ∈ t.mlr.regionCache ∧ key ∉ t.mlr.regionFetch) ∧
    Gives (.regionEntryFetched key false) s (fun t => key ∉ t.mlr.regionFetch ∧ (t.elw rmaPage 0).bit 1 = true)) ∧
  -- placement
  (∀ (s : State) (c n : Nat) (r : RxPkt), (s.conn c).rxOf (BitVec.ofNat 32 n) 1 = some r →
    (s.rxRefusal r = none → s.rxWaits r = false → exec (.writePlaced c n) s =
      .next ((((s.rxGone c r.psn).putSegs r.host r.segs r.pkt.payload).count1 .rma 1).underGen r.gen
        (fun t => t.rxSet c r.psn false r.pkt.ce r.pkt.path))) ∧
    (s.rxRefusal r = none → s.rxWaits r = true → exec (.writePlaced c n) s = .next s) ∧
    (∀ st, s.rxRefusal r = some st → exec (.writePlaced c n) s =
      .next (((s.rxGone c r.psn).count1 .rma 4).nakSet c r.pkt st))) ∧
  (∀ (s : State) (c n : Nat) (r : RxPkt), (s.conn c).rxOf (BitVec.ofNat 32 n) 2 = some r →
    (s.rxRefusal r = none → s.rxWaits r = false → (s.conn c).rxNext = r.psn → exec (.writeLastPlace c n) s =
      .next (((((s.rxGone c r.psn).putSegs r.host r.segs r.pkt.payload).count1 .rma 1).lastNotices c r).underGen r.gen
        (fun t => t.rxLast c r.psn r.pkt.ce r.pkt.path))) ∧
    ((s.conn c).rxNext ≠ r.psn → exec (.writeLastPlace c n) s = .next s)) ∧
  (∀ (s : State) (c path : Nat) (psn : BitVec 32) (ce : Bool), psn ∉ (s.conn c).rxBits →
    s.rxLast c psn ce path = s.rxSet c psn true ce path) ∧
  (∀ (s : State) (a n : Nat) (data : List Byte), s.putSegs none [(a, n)] data = s.setBytes a (data.take n)) ∧
  (∀ (s : State) (c : Nat) (r : RxPkt) (e : List Word), e = s.region r.key → (wordAt e 0).bit 54 = false →
    ((wordAt e 0).bit 53 = true → s.lastNotices c r = s.syncAdd ((wordAt e 0).field 13 0) 1) ∧
    ((wordAt e 0).bit 53 = false → s.lastNotices c r = s)) ∧
  (∀ (s : State) (c path : Nat) (psn : BitVec 32), (s.conn c).rxNext = psn → (s.conn c).rxBits = [] → (s.conn c).rxPkts = [] →
    (s.conn c).sackSent = false → (s.conn c).ackCount + 1 < s.ackEvery → ((s.rxSet c psn false false path).conn c).rxNext = psn + 1 ∧
    ((s.rxSet c psn false false path).conn c).rxBits = [] ∧
    ((s.rxSet c psn false false path).conn c).ackDue = some ((s.conn c).ackDue.getD (s.clk.pkt + s.ackDelay))) ∧
  (∀ (s : State) (c n : Nat) (v : Serve), (s.conn c).serveOf (BitVec.ofNat 32 n) = some v → v.started = false →
    (psnBefore v.psn (s.conn c).rxNext = true → exec (.readServeStart c n) s =
      .next (s.updServe c v.psn (fun x => { x with started := true }))) ∧
    (psnBefore v.psn (s.conn c).rxNext = false → exec (.readServeStart c n) s = .next s)) ∧
  -- the end of a stall with the page still absent, and of the limit of a fault entry
  (∀ (s : State) (c fid t : Nat) (psn : BitVec 32) (f : FaultEntry),
    (s.conn c).stalls.find? (fun x => decide (x.2.2 ≤ s.clk.pkt)) = some (fid, psn, t) →
    s.mlr.faults.find? (fun x => decide (x.id = fid)) = some f → exec (.stallExpire c) s = .next (s.stallFail c psn f)) ∧
  (∀ (s : State) (c : Nat), (∀ x, x ∈ (s.conn c).stalls → s.clk.pkt < x.2.2) → exec (.stallExpire c) s = .next s) ∧
  (∀ (s u : State) (c : Nat) (psn : BitVec 32) (f : FaultEntry) (h : HeldPkt), u = s.stallOff c psn →
    u.stalledPkt c psn = some h → s.stallFail c psn f = (u.heldTake h (fun t => t.rmaPnr c h.pkt f.mode)).stallDrain c
      (some { mode := f.mode, part := f.part, vi := f.vi, page := f.page })) ∧
  (∀ (s : State) (c mode : Nat) (p : MlrPacket), s.rmaPnr c p mode = (s.sendNak c p.psn .pageNotReady
    (if mode = 1 then (s.reg rmaPage 0x108).field 63 32 else (s.reg rmaPage 0x108).field 31 0)).count1 .rma 5) ∧
  (∀ (s : State) (entry : Nat) (f : FaultEntry), f ∈ s.mlr.faults → f.id = entry →
    f.at_ + (s.reg rmaPage 0x110).field 63 32 * 65536 ≤ s.clk.pkt →
    Gives (.pnrLimitExpire entry) s (fun t => (∃ g, g ∈ t.mlr.faults ∧ g = { f with limited := true }) ∧
      ∀ g, g.id ≠ entry → (g ∈ t.mlr.faults ↔ g ∈ s.mlr.faults))) ∧
  -- a READ_RESP that matches no read is discarded and counted, and its bit is set
  (∀ (s : State) (c : Nat) (p : MlrPacket), s.readOf c (BitVec.ofNat 32 (beAt p.ext 0 4)) = none →
    s.readResp c p = ((s.count1 .rma 8).errFor .rma 2 (s.conn c).part).rxSet c p.psn p.areq p.ce p.path) ∧
  (∀ (s : State) (w : Work) (pos st roff : Nat) (rq : Option (BitVec 32)) (pl : List (Nat × Nat)) (rs : Option (Nat × Nat))
    (data : List Byte),
    (st = Status.pageNotReady.code → s.readTake w pos rq pl rs st roff data = s.updWork w.ring w.idx (fun v =>
      { v with ctx := .read rq pos pl (some (s.clk.pkt + (s.reg rmaPage 0x110).field 31 0, pos + roff)) })) ∧
    (∀ x : Status, x ≠ .ok → x ≠ .pageNotReady → st = x.code → s.readTake w pos rq pl rs st roff data = s.workFail w.ring w.idx x))

/-- RMA_WRITE, RMA_READ, READ_REISSUE, READ_TIMEOUT, REGISTER, REVOKE, REGION_CLOSED, RMA_QUERY, RMA_SET_PART and RMA_CMD_QUERY (R152,
R166 to R168, R170, R171, R173). -/
def Obligations.RemoteMemoryDescriptors : Prop :=
  (∀ (s : State) (ring idx : Nat) (w : Work), Started s ring idx 2 1 w → w.ctx = .none →
    (s.rwCheck w = .ok → exec (.rmaWrite ring idx) s = .next ((s.updWork ring idx (fun v =>
      { v with phase := .running, ctx := .send 0 none [] })).connUse (rConn w.words)).2) ∧
    (∀ st, st ≠ .ok → s.rwCheck w = st → exec (.rmaWrite ring idx) s = .next (s.workFail ring idx st))) ∧
  (∀ (s : State) (ring idx : Nat) (w : Work), Started s ring idx 2 2 w → w.ctx = .none →
    (s.rwCheck w = .ok → exec (.rmaRead ring idx) s = .next ((s.updWork ring idx (fun v =>
      { v with phase := .running, ctx := .read none 0 [] none })).readAsk w 0)) ∧
    (∀ st, st ≠ .ok → s.rwCheck w = st → exec (.rmaRead ring idx) s = .next (s.workFail ring idx st))) ∧
  (∀ (s : State) (w : Work), ((wordAt w.words 3).field 63 32 = 0 → s.rwCheck w = .format) ∧
    ((wordAt w.words 3).field 63 32 ≠ 0 → s.owns w.part tyConn ((wordAt w.words 5).field 63 40) = false →
      s.rwCheck w = .accessViolation) ∧
    (s.rwCheck w = .ok → (s.conn ((wordAt w.words 5).field 63 40)).state = .active)) ∧
  -- the packets of a WRITE
  (∀ (s u : State) (c i n mtu a : Nat) (w : Work) (stopAt : Option Nat) (data : List Byte) (fin : Bool),
    w.ctx = .send i stopAt [] → mtu = mtuBytes (s.conn c).mtu → n = (rLen w.words + mtu - 1) / mtu →
    a = (wordAt w.words 2).toNat + i * mtu → fin = (decide (i + 1 = n) && wb w.words 5 39) →
    s.fetch w (spaceOf (wb w.words 5 38) a) a (min mtu (rLen w.words - i * mtu)) = .got data →
    s.sendNew c (TxItem.mk (if fin then 2 else 1)
      (placeExt (wf w.words 3 31 0) (if fin then wf w.words 5 37 6 else 0) ((wordAt w.words 4).toNat + i * mtu)) data
      (.work w.ring w.idx i)) = (.sent, u) →
    s.writeSend c w = u.updWork w.ring w.idx (fun v => { v with phase := .running, ctx := .send (i + 1) stopAt [] })) ∧
  (∀ (s : State) (ring idx pos t p : Nat) (psn : BitVec 32) (pl : List (Nat × Nat)) (w : Work), s.workAt ring idx = some w →
    w.ctx = .read (some psn) pos pl (some (t, p)) → (s.conn (rConn w.words)).owes (.work ring idx 0) = false →
    (t ≤ s.clk.pkt → exec (.readReissue ring idx) s = .next (s.readAsk w p)) ∧
    (s.clk.pkt < t → exec (.readReissue ring idx) s = .next s)) ∧
  (∀ (s : State) (ring idx pos : Nat) (rq : Option (BitVec 32)) (pl : List (Nat × Nat)) (rs : Option (Nat × Nat)) (w : Work),
    s.workAt ring idx = some w → w.ctx = .read rq pos pl rs →
    (w.startPkt + (s.regFor rmaPage w.gen 0x100).field 31 0 * 65536 ≤ s.clk.pkt → exec (.readTimeout ring idx) s =
      .next ((s.workFail ring idx .timeout).updConn (rConn w.words) (fun x => x.dropQueued (.work ring idx 0)))) ∧
    (s.clk.pkt < w.startPkt + (s.regFor rmaPage w.gen 0x100).field 31 0 * 65536 → exec (.readTimeout ring idx) s = .next s)) ∧
  -- regions
  (∀ (s : State) (ring idx a : Nat) (w : Work), Started s ring idx 2 3 w → 6 ≤ w.words.length → s.registerCheck w.part w.words = .ok →
    s.regionAt (regKey w.words) = some a → exec (.register ring idx) s =
      .next ((s.setBytes a (wordsBytes [(wordAt w.words 2).setField 63 62 1, wordAt w.words 3, wordAt w.words 4,
        wordAt w.words 5])).workDone ring idx .ok 0 0 0)) ∧
  (∀ (s : State) (ring idx : Nat) (w : Work) (st : Status), Started s ring idx 2 3 w → st ≠ .ok →
    s.registerCheck w.part w.words = st → exec (.register ring idx) s = .next (s.workFail ring idx st)) ∧
  (∀ (s : State) (p base n : Nat) (ws e : List Word), dOpcode ws = 3 → e = (ws.drop 2).take 4 →
    (s.part p).rmaTable = some (base, n) → ((wordAt e 0).field 61 60 = 3 ∨ (wordAt e 2).toNat = 0 ∨ 2 ^ 48 < (wordAt e 2).toNat ∨
      n ≤ (wordAt ws 6).field 31 0 % 2 ^ 25) → s.registerCheck p ws = .format) ∧
  (∀ (s : State) (ring idx : Nat) (w : Work), Started s ring idx 2 4 w → s.keyCheck w.part (regKey w.words) = .ok →
    (gState (s.region (regKey w.words)) = 1 → exec (.revoke ring idx) s = .next ((s.setRegionState (regKey w.words) 2).updWork
      ring idx (fun v => { v with phase := .running }))) ∧
    (gState (s.region (regKey w.words)) ≠ 1 → exec (.revoke ring idx) s = .next (s.workFail ring idx .state))) ∧
  (∀ (s : State) (key st : Nat) (a : Nat), s.regionAt key = some a → st < 4 →
    gState ((s.setRegionState key st).region key) = st) ∧
  (∀ (s : State) (key : Nat), gState (s.region key) = 2 → s.regionInFlight key = 0 →
    Gives (.regionClosed key) s (fun t => gState (t.region key) = 0 ∧ key ∉ t.mlr.regionCache)) ∧
  (∀ (s : State) (key : Nat), s.regionInFlight key ≠ 0 → exec (.regionClosed key) s = .next s) ∧
  (∀ (s : State) (ring idx : Nat) (w : Work), Started s ring idx 2 5 w →
    (s.keyCheck w.part (regKey w.words) = .ok → exec (.rmaQuery ring idx) s =
      .next (s.workDone ring idx .ok 0 (s.regionStat (regKey w.words)) 0)) ∧
    (∀ st, st ≠ .ok → s.keyCheck w.part (regKey w.words) = st →
      exec (.rmaQuery ring idx) s = .next (s.workFail ring idx st))) ∧
  (∀ (s : State) (key : Nat), (s.regionStat key).field 63 62 = gState (s.region key) ∧
    (s.regionStat key).field 61 60 = gMode (s.region key) ∧ (s.regionStat key).field 31 0 = s.regionInFlight key % 2 ^ 32) ∧
  -- page commands
  (∀ (s : State) (part base n : Nat), Taken s .rma → part < 128 → base = (s.reg rmaPage 0x140).field 63 12 * 4096 →
    n = (s.reg rmaPage 0x148).field 25 0 → n ≠ 0 → n ≤ 2 ^ 25 → s.ownsHbm 0 base (64 * n) = true →
    ((s.part part).state = .building ∨ ((s.part part).state = .active ∧ s.regionsOpen part = false)) →
    Gives (.rmaSetPart part) s (fun t => (t.part part).rmaTable = some (base, n) ∧
      (∀ b, base ≤ b → b < base + 64 * n → t.byte b = 0) ∧ (∀ b, b < base ∨ base + 64 * n ≤ b → t.byte b = s.byte b) ∧
      ∀ key, key ∈ t.mlr.regionCache ↔ key ∈ s.mlr.regionCache ∧ key / 2 ^ 25 ≠ part)) ∧
  (∀ (s : State) (part key a : Nat), Taken s .rma → part < 128 → key = (s.reg rmaPage 0x160).field 31 0 →
    (s.regionAt key = some a → exec (.rmaCmdQuery part) s =
      .next ((s.setReg rmaPage 0x168 (s.regionStat key)).cmdEnd .rma 2 part .ok)) ∧
    (s.regionAt key = none → exec (.rmaCmdQuery part) s = .next (s.cmdEnd .rma 2 part .format)))
/-! ## Ethernet ports and packet pipeline (09_packet_pipeline.md) -/

/-- FRAME_RECEIVE, PFC_RECEIVE, PFC_REPEAT and LINK_UP (R174, R176, R177, R179 to R181). -/
def Obligations.FramesAndPauses : Prop :=
  -- what the MAC drops
  (∀ (s : State) (n : Nat) (d : List Byte), (s.ept n).up = true → s.flt.safe = false → s.swapDue (eptPage n) = false →
    exec (.frameReceive n d false) s = .next (s.count (eptPage n) 3 1) ∧
    ((d.length + 4 < 64 ∨ (s.reg (eptPage n) 0x100).field 13 0 < d.length + 4) →
      exec (.frameReceive n d true) s = .next (s.count (eptPage n) 4 1)) ∧
    (64 ≤ d.length + 4 → d.length + 4 ≤ (s.reg (eptPage n) 0x100).field 13 0 → beAt d 12 2 = 0x8808 → beAt d 14 2 ≠ 0x0101 →
      exec (.frameReceive n d true) s = .next (s.count (eptPage n) 0xA 1)) ∧
    (64 ≤ d.length + 4 → d.length + 4 ≤ (s.reg (eptPage n) 0x100).field 13 0 → beAt d 12 2 ≠ 0x8808 →
      (s.reg (eptPage n) 0x100).bit 59 = false → beAt d 0 6 ≠ (s.reg (eptPage n) 0x108).field 47 0 → beAt d 0 1 % 2 = 0 →
      exec (.frameReceive n d true) s = .next (s.count (eptPage n) 5 1))) ∧
  -- what it accepts goes, stamped, to the pipeline that its hash names, where the ingress buffer has room (its size is free)
  (∀ (s : State) (n q : Nat) (d : List Byte), (s.ept n).up = true → s.flt.safe = false → s.swapDue (eptPage n) = false → 64 ≤ d.length + 4 →
    d.length + 4 ≤ (s.reg (eptPage n) 0x100).field 13 0 → beAt d 12 2 ≠ 0x8808 →
    ((s.reg (eptPage n) 0x100).bit 59 = true ∨ beAt d 0 6 = (s.reg (eptPage n) 0x108).field 47 0 ∨ beAt d 0 1 % 2 = 1) →
    s.dataHeld = false → q = (crc32c (s.hashFields n d)).toNat →
    Gives (.frameReceive n d true) s (fun t =>
      if s.ingressAll n + (d.length + 4) ≤ Config.ingressBytes then ∃ f : Frame,
        Tab.get [] t.pkt.newQ (q % 6) = Tab.get [] s.pkt.newQ (q % 6) ++ [f] ∧ f.ept = n ∧ f.data = d ∧ f.hash = q ∧ f.version = none ∧
        f.pass = 0 ∧ f.stamp = (s.clk.pkt - (s.ept n).stampBase) % 2 ^ 48 ∧
        ∀ k, k ≠ q % 6 → Tab.get [] t.pkt.newQ k = Tab.get [] s.pkt.newQ k
      else t = (s.count (eptPage n) 1 1).count (eptPage n) 0xC 1)) ∧
  -- PFC: honoured for a class that has it on, dropped for another
  (∀ (s : State) (n c quanta : Nat), (s.ept n).up = true → s.flt.safe = false → s.swapDue (eptPage n) = false → c < 8 →
    ((s.reg (eptPage n) 0x100).bit (40 + c) = false → exec (.pfcReceive n c quanta) s = .next (s.count (eptPage n) 8 1)) ∧
    ((s.reg (eptPage n) 0x100).bit (40 + c) = true → Gives (.pfcReceive n c quanta) s (fun t =>
      Tab.find (t.ept n).paused c = if quanta = 0 then none else some (s.clk.pkt + s.pauseCycles n quanta)))) ∧
  (∀ (s : State) (n c : Nat), s.flt.safe = false → (s.reg (eptPage n) 0x100).bit (40 + c) = true → c ∈ (s.ept n).pausing → Tab.get 0 (s.ept n).pauseAt c + 32768 ≤ s.clk.pkt →
    (s.reg (eptPage n) 0x120).field 31 0 < Tab.get 0 (s.ept n).ingress c →
    Gives (.pfcRepeat n c) s (fun t => (∃ o, t.out = o ++ [.pfc n c 0xFFFF]) ∧ Tab.get 0 (t.ept n).pauseAt c = s.clk.pkt)) ∧
  (∀ (s : State) (n c v : Nat), (s.reg (eptPage n) 0x100).bit (40 + c) = true →
    (c ∈ (s.ept n).pausing → v ≤ (s.reg (eptPage n) 0x120).field 31 0 → c ∉ ((s.ingressSet n c v).ept n).pausing ∧
      ∃ o, (s.ingressSet n c v).out = o ++ [.pfc n c 0]) ∧
    (c ∉ (s.ept n).pausing → (s.ept n).up = true → (s.reg (eptPage n) 0x120).field 63 32 < v →
      c ∈ ((s.ingressSet n c v).ept n).pausing ∧ ∃ o, (s.ingressSet n c v).out = o ++ [.pfc n c 0xFFFF])) ∧
  (∀ (s : State) (n c v : Nat), (s.reg (eptPage n) 0x100).bit (40 + c) = false →
    c ∉ ((s.ingressSet n c v).ept n).pausing ∧ (s.ingressSet n c v).out = s.out) ∧
  -- a link comes up; a class that is already above XOFF pauses its partner at once
  (∀ (s : State) (n : Nat), (s.reg (eptPage n) 0x100).bit 63 = true → s.eptPresent n = true → (s.ept n).up = false →
    s.flt.safe = false → exec (.linkUp n) s = .next ((List.range 8).foldl (fun t c => t.pfcClass n c)
      ((s.updEpt n (fun e => { e with up := true })).setIntBit (eptPage n) 8))) ∧
  (∀ (s : State) (n : Nat), s.eptPresent n = false → exec (.linkUp n) s = .next s)

/-- PASS_START, RECIRC_PASS, SLOT_RETIRE and SWEEP_DONE; the graph at reset, what a version sees, and what an action does (R183,
R189 to R199). -/
def Obligations.PassesAndVersions : Prop :=
  (∀ (s s2 : State) (pipe n : Nat) (f : Frame) (rest : List Frame) (x : RuleSlot), s.pktRuns = true →
    (s.gate (14 + pipe)).isOpen = true → Tab.get [] s.pkt.recQ pipe = [] → Tab.get [] s.pkt.newQ pipe = f :: rest →
    s2 = ({ s with pkt := { s.pkt with newQ := Tab.set [] s.pkt.newQ pipe rest } } : State).ingressSet f.ept f.cls
      (Tab.get 0 (s.ept f.ept).ingress f.cls - (f.data.length + 4)) → s2.slotIn .current = some (n, x) →
    exec (.passStart pipe) s = .next ((s2.setSlot n { x with refs := x.refs + 1 }).runPass { f with
      version := some x.version, node := x.graph.start, gen := s.applied pktPage } pipe)) ∧
  (∀ (s : State) (pipe : Nat) (f : Frame) (rest : List Frame), s.pktRuns = true → (s.gate (14 + pipe)).isOpen = true →
    Tab.get [] s.pkt.recQ pipe = f :: rest →
    exec (.recircPass pipe) s = .next ((({ s with pkt := { s.pkt with recQ := Tab.set [] s.pkt.recQ pipe rest } } :
      State).count1 .pkt 2).runPass f pipe) ∧ exec (.passStart pipe) s = exec (.recircPass pipe) s) ∧
  (∀ (s : State) (pipe : Nat), (s.pktRuns = false ∨ (s.gate (14 + pipe)).isOpen = false) → exec (.passStart pipe) s = .next s ∧ exec (.recircPass pipe) s = .next s) ∧
  -- a pass: looked up with its profile, or handed to Millrace, or odd
  (∀ (s : State) (f : Frame) (pipe n : Nat) (w : Walk), f.version.bind s.slotOf = some n →
    w = (s.slot n).graph.walk (s.handUdp f.data) (s.handTcp f.data) f.data f.node 0 16
      { fv := List.replicate 64 0, outer := none, seen := [], result := .odd .layers } →
    (∀ p, w.result = .profile p → s.runPass f pipe = (s.count1 .pkt 1).classify (s.slot n).graph p f w w.fv 0 pipe) ∧
    (∀ ip a, w.result = .udp ip a → s.runPass f pipe = ((s.count1 .pkt 1).toMillrace f.data ip a).refDrop f.version) ∧
    (∀ r, w.result = .odd r → (s.regFor pktPage f.gen 0x100).bit 0 = true → s.runPass f pipe =
      ((s.count1 .pkt 1).count1 .pkt 3).refDrop f.version)) ∧
  (∀ (hu ht : Nat → Nat → Bool) (d : List Byte) (w : Walk), w.seen = [] →
    (14 ≤ d.length → (Graph.reset.walk hu ht d 0 0 16 w).result = .profile 0) ∧
    (d.length < 14 → (Graph.reset.walk hu ht d 0 0 16 w).result = .odd .trunc)) ∧
  (∀ (g : Graph) (hu ht : Nat → Nat → Bool) (d : List Byte) (n pos : Nat) (w : Walk),
    (g.walk hu ht d n pos 0 w).result = .odd .layers) ∧
  (∀ (s t : State) (g : Graph) (p odd pipe : Nat) (f : Frame) (w : Walk) (fv : List Byte),
    (∀ a b, s.pktLookup g p f.ept (f.version.getD 0) fv = (some (a, b), t) →
      s.classify g p f w fv odd pipe = t.applyAction f w odd a b pipe) ∧
    (s.pktLookup g p f.ept (f.version.getD 0) fv = (none, t) → s.classify g p f w fv odd pipe = t.refDrop f.version)) ∧
  -- what an entry is visible to
  (∀ (s : State) (c : Word) (v : Nat), s.visible c v = true ↔ c.bit 63 = true ∧
    (c.bit 62 = true → s.inWindow (c.field 47 32) = true → s.dVer (c.field 47 32) ≤ s.dVer v) ∧
    (c.bit 61 = true → s.inWindow (c.field 31 16) = true ∧ s.dVer v < s.dVer (c.field 31 16))) ∧
  -- the lookup: an exact entry, else a wildcard entry, else the profile's MISS action
  (∀ (s : State) (g : Graph) (p ept v : Nat) (fv : List Byte) (pf : List Word), pf = g.profile p → (wordAt pf 0).bit 31 = false →
    (∀ a, (wordAt pf 0).bit 30 = true → s.bucketBad (lookupKey pf fv) p 0 = false →
      s.exactFind (lookupKey pf fv) p 0 v = some a →
      s.pktLookup g p ept v fv = (some (s.word (a + 40), s.word (a + 48)), s.count1 .pkt 4)) ∧
    ((wordAt pf 0).bit 30 = true → s.bucketBad (lookupKey pf fv) p 0 = true →
      s.pktLookup g p ept v fv = (none, (s.count1 .pkt 8).err .pkt 2)) ∧
    (∀ e, (wordAt pf 0).bit 30 = false → (wordAt pf 0).bit 29 = true → s.wildFind (lookupKey pf fv) p 0 v = some e →
      s.pktLookup g p ept v fv = (some (wordAt e 10, wordAt e 11), s.count1 .pkt 5)) ∧
    ((wordAt pf 0).bit 30 = false → (wordAt pf 0).bit 29 = false →
      s.pktLookup g p ept v fv = (some (wordAt pf 2, wordAt pf 3), s.count1 .pkt 6))) ∧
  -- the verdicts of an action without meter, mirror or rewriting
  (∀ (s : State) (f : Frame) (w : Walk) (odd pipe : Nat) (a b : Word), s.actionOk a f.hash w.seen.length = true →
    a.bit 36 = false → a.bit 20 = false → b.bit 45 = false → b.field 63 62 = 0 →
    (a.field 63 61 = 0 → s.applyAction f w odd a b pipe = (s.count1 .pkt 8).refDrop f.version) ∧
    (a.field 63 61 = 1 → s.applyAction f w odd a b pipe =
      (s.offer (a.field 60 44) (max 64 (f.data.length + 4)) (.frame 0 f.data)).refDrop f.version) ∧
    (a.field 63 61 = 2 → s.applyAction f w odd a b pipe = (s.pktDeliver (a.field 60 44 + f.hash % 2 ^ a.field 7 4) f f.data odd
      (b.field 31 0)).refDrop f.version) ∧
    (a.field 63 61 = 3 → 4 ≤ f.pass → s.applyAction f w odd a b pipe = (s.count1 .pkt 0xB).refDrop f.version) ∧
    (a.field 63 61 = 3 → f.pass < 4 → ∃ g, Tab.get [] (s.applyAction f w odd a b pipe).pkt.recQ pipe =
      Tab.get [] s.pkt.recQ pipe ++ [g] ∧ g.pass = f.pass + 1 ∧ g.node = a.field 51 44 ∧ g.version = f.version ∧
      g.stamp = f.stamp ∧ g.data = f.data.drop ((w.seen.take (a.field 55 52)).map (fun x => x.2.2)).sum)) ∧
  (∀ (s : State) (f : Frame) (w : Walk) (odd pipe : Nat) (a b : Word), s.actionOk a f.hash w.seen.length = false →
    s.applyAction f w odd a b pipe = (s.count1 .pkt 9).refDrop f.version) ∧
  -- versions retire in order, and a sweep clears what no version sees
  (∀ (s : State) (n : Nat), (s.slot n).state = .draining → (s.slot n).refs = 0 →
    (∀ e, e ∈ s.pkt.slots → e.2.state ≠ .free → s.behind e.2.version ≤ s.behind (s.slot n).version) →
    Gives (.slotRetire n) s (fun t => t.slot n = RuleSlot.free ∧ (t.reg pktPage 0x30).bit 9 = true ∧
      t.pkt.sweeps = s.pkt.sweeps + 1 ∧ ∀ m, m ≠ n → t.slot m = s.slot m)) ∧
  (∀ (s : State) (n : Nat), ((s.slot n).state ≠ .draining ∨ (s.slot n).refs ≠ 0) → exec (.slotRetire n) s = .next s) ∧
  (∀ (s : State), s.pkt.sweeps ≠ 0 → Gives .sweepDone s (fun t => t.pkt.sweeps = 0 ∧ (t.reg pktPage 0x30).bit 10 = true)) ∧
  (∀ (s : State) (c : Word), (∀ e, e ∈ s.pkt.slots → e.2.state ≠ .free → s.visible c e.2.version = false) →
    (s.sweepWord c).bit 63 = false) ∧
  (∀ (s : State) (c : Word), c.bit 62 = true → s.inWindow (c.field 47 32) = false → (s.sweepWord c).bit 62 = false)

/-- The eleven commands of the PKT page (R192, R193, R195, R200). -/
def Obligations.RuleSetCommands : Prop :=
  (∀ (s : State) (n m : Nat) (x : RuleSlot), Taken s .pkt → s.slotIn .building = none → s.pkt.sweeps = 0 →
    (List.range 8).find? (fun i => (s.slot i).state = .free) = some n → s.slotIn .current = some (m, x) →
    exec .pktOpen s = .next ((s.setSlot n { state := .building, version := (x.version + 1) % 65536, refs := 0,
                                            graph := x.graph }).cmdEnd .pkt 1 0 .ok)) ∧
  (∀ (s : State), Taken s .pkt → (s.slotIn .building ≠ none ∨ s.pkt.sweeps ≠ 0) →
    exec .pktOpen s = .next (s.cmdEnd .pkt 1 0 .state)) ∧
  (∀ (s : State) (n : Nat) (x : RuleSlot), Taken s .pkt → s.pktAddr % 64 = 0 → s.ownsHbm 0 s.pktAddr 0x8000 = true →
    ((s.graphAt s.pktAddr).bad = false → s.slotIn .building = some (n, x) → exec .graphLoad s =
      .next ((s.setSlot n { x with graph := s.graphAt s.pktAddr }).cmdEnd .pkt 2 0 .ok)) ∧
    ((s.graphAt s.pktAddr).bad = true → exec .graphLoad s = .next (s.cmdEnd .pkt 2 0 .format)) ∧
    ((s.graphAt s.pktAddr).bad = false → s.slotIn .building = none → exec .graphLoad s = .next (s.cmdEnd .pkt 2 0 .state))) ∧
  (∀ (s : State), Taken s .pkt → s.pktAddr % 0x10000000 = 0 → s.ownsHbm 0 s.pktAddr 0x10000000 = true →
    (∀ a, a ∈ s.exactAddrs → (s.word (a + 32)).bit 63 = false) →
    Gives .setExact s (fun t => t.pkt.exact = some s.pktAddr ∧
      (∀ b, s.pktAddr ≤ b → b < s.pktAddr + 0x10000000 → t.byte b = 0) ∧
      ∀ b, b < s.pktAddr ∨ s.pktAddr + 0x10000000 ≤ b → t.byte b = s.byte b)) ∧
  -- exact entries
  (∀ (s : State) (b : RuleSlot) (base e : Nat) (c : Word) (key : List Byte), Taken s .pkt → s.pktAddr % 64 = 0 →
    s.ownsHbm 0 s.pktAddr 64 = true → c = s.word (s.pktAddr + 32) → key = s.bytes s.pktAddr 32 →
    (s.word (s.pktAddr + 40)).field 63 61 ≤ 3 → (s.word (s.pktAddr + 40)).field 7 4 ≤ 8 → s.building = some b →
    ((wordAt (b.graph.profile (c.field 60 57)) 0).bit 31 = true ∨ c.field 56 53 = 0) → s.pkt.exact = some base →
    s.exactFind key (c.field 60 57) (c.field 56 53) b.version = none →
    (bucketAddrs base (bucketOf key (c.field 60 57) (c.field 56 53))).find? (fun e => !(s.word (e + 32)).bit 63) = some e →
    exec .exInsert s = .next (((s.setBytes e (s.bytes s.pktAddr 64)).setWord (e + 32) (newControl c b.version)).cmdEnd .pkt 4 0
      .ok)) ∧
  (∀ (c : Word) (v : Nat), v < 65536 → (newControl c v).bit 63 = true ∧ (newControl c v).bit 62 = true ∧
    (newControl c v).bit 61 = false ∧ (newControl c v).field 47 32 = v ∧ (newControl c v).field 60 57 = c.field 60 57) ∧
  (∀ (s : State) (b : RuleSlot) (e : Nat) (c : Word), Taken s .pkt → s.pktAddr % 64 = 0 → s.ownsHbm 0 s.pktAddr 64 = true →
    c = s.word (s.pktAddr + 32) → s.building = some b →
    (s.exactFind (s.bytes s.pktAddr 32) (c.field 60 57) (c.field 56 53) b.version = some e → exec .exDelete s =
      .next ((s.setWord (e + 32) (deletedControl (s.word (e + 32)) b.version)).cmdEnd .pkt 5 0 .ok)) ∧
    (s.exactFind (s.bytes s.pktAddr 32) (c.field 60 57) (c.field 56 53) b.version = none →
      exec .exDelete s = .next (s.cmdEnd .pkt 5 0 .state))) ∧
  (∀ (c : Word) (v : Nat), v < 65536 →
    (c.bit 62 = true → c.field 47 32 = v → (deletedControl c v).bit 63 = false) ∧
    (c.field 47 32 ≠ v → (deletedControl c v).bit 61 = true ∧ (deletedControl c v).field 31 16 = v)) ∧
  -- wildcard entries
  (∀ (s : State) (b : RuleSlot) (i : Nat) (ws : List Word), Taken s .pkt → s.pktAddr % 64 = 0 → s.ownsHbm 0 s.pktAddr 128 = true →
    i = s.pktArg.field 15 0 → ws = s.words s.pktAddr 12 → (wordAt ws 10).field 63 61 ≤ 3 → (wordAt ws 10).field 7 4 ≤ 8 →
    s.building = some b →
    ((wordAt (s.wild i) 8).bit 63 = false → exec .wcWrite s = .next (({ s with pkt := { s.pkt with
        wild := Tab.insert s.pkt.wild i (ws.set 8 (newControl (wordAt ws 8) b.version)) } } : State).cmdEnd .pkt 6 0 .ok)) ∧
    ((wordAt (s.wild i) 8).bit 63 = true → exec .wcWrite s = .next (s.cmdEnd .pkt 6 0 .state))) ∧
  (∀ (s : State) (b : RuleSlot) (i : Nat), Taken s .pkt → i = s.pktArg.field 15 0 → s.building = some b →
    (s.visible (wordAt (s.wild i) 8) b.version = true → Gives .wcDelete s (fun t =>
      (wordAt (s.wild i) 8).field 47 32 ≠ b.version → t.wild i = (s.wild i).set 8 (deletedControl (wordAt (s.wild i) 8) b.version))) ∧
    (s.visible (wordAt (s.wild i) 8) b.version = false → exec .wcDelete s = .next (s.cmdEnd .pkt 7 0 .state))) ∧
  -- COMMIT and ABANDON
  (∀ (s : State) (n m : Nat) (x y : RuleSlot), Taken s .pkt → s.slotIn .building = some (n, x) → s.slotIn .current = some (m, y) →
    exec .commit s = .next (((s.setSlot m { y with state := .draining }).setSlot n { x with state := .current }).cmdEnd .pkt 8 0
      .ok) ∧
    (n ≠ m → Gives .commit s (fun t => (t.slot n).state = .current ∧ (t.slot m).state = .draining ∧ (t.slot m).refs = y.refs ∧
      ∀ k, k ≠ n → k ≠ m → t.slot k = s.slot k)) ∧
    Gives .abandon s (fun t => t.slot n = RuleSlot.free ∧ t.pkt.sweeps = s.pkt.sweeps + 1)) ∧
  (∀ (s : State), Taken s .pkt → s.slotIn .building = none → exec .commit s = .next (s.cmdEnd .pkt 8 0 .state) ∧
    exec .abandon s = .next (s.cmdEnd .pkt 9 0 .state)) ∧
  -- RXT_SETUP and INJECT
  (∀ (s : State) (i : Nat) (w : Word), Taken s .pkt → i = s.pktArg.field 15 0 → i ≤ 4095 → s.pktAddr % 64 = 0 →
    s.ownsHbm 0 s.pktAddr 16 = true → w = s.word s.pktAddr →
    (11 ≤ w.field 11 8 → w.field 11 8 ≤ 14 → Gives .rxtSetup s (fun t => ∃ x : RxTarget, Tab.find t.pkt.targets i = some x ∧
      x.bufBase = w.field 63 12 * 4096 ∧ x.bufLog = w.field 11 8 ∧ x.hbm = w.bit 0 ∧
      x.ring = (s.word (s.pktAddr + 8)).field 16 0)) ∧
    ((w.field 11 8 < 11 ∨ 14 < w.field 11 8) → exec .rxtSetup s = .next (s.cmdEnd .pkt 10 0 .format))) ∧
  (∀ (s : State) (n l port : Nat), Taken s .pkt → n = s.pktArg.field 63 48 → l = s.pktArg.field 47 31 → s.pktAddr % 64 = 0 → 60 ≤ n →
    s.owns 0 tyLeaf l = true → s.ownsHbm 0 s.pktAddr n = true → (s.leaf l).port = some port →
    n ≤ (s.reg (eptPage port) 0x100).field 13 0 - 4 → s.firstBad s.pktAddr n = none →
    exec .inject s = .next (((s.count1 .pkt 0xC).injectAt l s.pktAddr n).cmdEnd .pkt 11 0 .ok)) ∧
  (∀ (s : State) (l a n : Nat), s.injectAt l a n = if s.admits l (n + 4)
    then s.enqueue l (n + 4) (.frame 0 (s.bytes a n)) none else s.waitAt l (.inject a n))
/-! ## Sluice scheduler and meters (10_sluice_scheduler.md) -/

/-- ADMIT_WAITING, PORT_TRANSMIT, PFC_PAUSE_END, LINK_DOWN and SCH_CHANGE_APPLY, with admission, deficit round robin, buckets and
meters (R202, R204 to R208, R211 to R213, R216). -/
def Obligations.QueuesAndTransmission : Prop :=
  (∀ (s : State) (l n port p : Nat) (k : PNode), (s.leaf l).port = some port → s.ownerOf tyLeaf l = some p →
    s.pnode (nodeKey port p) = some k → (s.admits l n = true ↔ (s.leaf l).depth + n ≤ (s.leaf l).depthMax * 4096 ∧
      s.nodeOcc port p + n ≤ k.buf * 4096 ∧ (s.part p).state ≠ .draining)) ∧
  (∀ (s : State) (l n : Nat), (s.leaf l).port = none → s.admits l n = false) ∧
  (∀ (s : State) (l n : Nat) (o : Out),
    (s.admits l n = true → s.offer l n o = s.enqueue l n o none) ∧
    (s.admits l n = false → s.offer l n o = (s.setLeaf l { s.leaf l with drops := (s.leaf l).drops + 1 }).count1 .sch 2) ∧
    (s.admits l n = true → (s.leaf l).waiting = [] → s.submit l n o = s.enqueue l n o none) ∧
    ((s.admits l n = false ∨ (s.leaf l).waiting ≠ []) → s.submit l n o = s.setLeaf l { s.leaf l with
      waiting := (s.leaf l).waiting ++ [.packet n o] }) ∧
    ∀ desc : Option (Nat × Nat), ((s.enqueue l n o desc).leaf l).q = (s.leaf l).q ++
      [{ len := n, stamp := s.clk.pkt, body := o, desc := desc, gen := s.applied Blk.mlr.page }]) ∧
  -- what waits at a leaf is built and queued in order as its frame fits (R202, R204)
  (∀ (s : State) (l n : Nat) (o : Out) (rest : List LeafWait), (s.leaf l).waiting = .packet n o :: rest →
    (s.admits l n = true → exec (.admitWaiting l) s = .next ((s.setLeaf l { s.leaf l with waiting := rest }).enqueue l n o none)) ∧
    (s.admits l n = false → exec (.admitWaiting l) s = .next s)) ∧
  (∀ (s : State) (l a n : Nat) (rest : List LeafWait), (s.leaf l).waiting = .inject a n :: rest →
    (s.admits l (n + 4) = true → exec (.admitWaiting l) s =
      .next ((s.setLeaf l { s.leaf l with waiting := rest }).injectAt l a n)) ∧
    (s.admits l (n + 4) = false → exec (.admitWaiting l) s = .next s)) ∧
  (∀ (s t : State) (l c : Nat) (rest : List LeafWait), (s.leaf l).waiting = .conn c :: rest →
    t = s.setLeaf l { s.leaf l with waiting := rest } →
    ((t.connRuns c = false ∨ t.ackDueNow c = false) → exec (.admitWaiting l) s = .next (t.dataSend c)) ∧
    (t.connRuns c = true → t.ackDueNow c = true → exec (.admitWaiting l) s = .next (t.sendAck c none))) ∧
  (∀ (s : State) (l ring idx : Nat) (rest : List LeafWait), (s.leaf l).waiting = .spate ring idx :: rest →
    exec (.admitWaiting l) s = .next ((s.setLeaf l { s.leaf l with waiting := rest }).spateAgain ring idx)) ∧
  -- transmission: a change that is due is applied, the buckets are filled, and a port that may send picks by the floors first
  (∀ (s : State) (port : Nat), s.portSends port = true ↔ (s.ept port).up = true ∧ s.dataHeld = false ∧ s.flt.safe = false ∧
    (s.gate 23).isOpen = true ∧ (∃ p, p ∈ (s.portNode port).active ∧ s.ceilBlocked port p = false) ∧
    (s.swapPending schPage = true → (s.portNode port).rr.atBoundary = false)) ∧
  (∀ (s u : State) (port : Nat), s.swapDue (eptPage port) = false → u = s.changeTake.refillPort port →
    (u.portSends port = false → exec (.portTransmit port) s = .next s) ∧
    (∀ p, u.portSends port = true → u.floorFirst port = some p → exec (.portTransmit port) s = .next (u.floorPick port p)) ∧
    (∀ p l v f rest, u.portSends port = true → u.floorFirst port = none →
      u.pickNode port (pickFuel (u.portNode port).active.length) = .send p l v → (v.leaf l).q = f :: rest →
      exec (.portTransmit port) s =
        .next ((v.updPnode (nodeKey port p) (fun y => { y with deficit := y.deficit - f.len })).sendHead port p l)) ∧
    (∀ v, u.portSends port = true → u.floorFirst port = none →
      u.pickNode port (pickFuel (u.portNode port).active.length) = .halt v → exec (.portTransmit port) s = .next v)) ∧
  (∀ (s : State) (port p : Nat), ((s.reg schPage (0x100 + 8 * port)).bit 62 = false → s.floorFirst port = none) ∧
    (s.floorFirst port = some p → p ∈ (s.portNode port).active ∧ s.ceilBlocked port p = false ∧
      ∃ y, s.pnode (nodeKey port p) = some y ∧ 0 ≤ y.floorB)) ∧
  (∀ (s u v : State) (port p q l i : Nat) (x : PNode), s.pnode (nodeKey port p) = some x →
    i = (s.portNode port).active.findIdx (fun c => c = p) →
    u = s.updPort port (fun y => { y with ptr := i, atTurn := y.atTurn && decide (i = (s.portNode port).ptr) }) →
    u.pickLeaf port p (u.leafFuel port p) = .send q l v →
    s.floorPick port p = ((v.count1 .sch 3).sendHead port p l).updPnode (nodeKey port p) (fun y => { y with round := x.round })) ∧
  -- a leaf's turn brings QUANTUM × 64 and serves its head frame
  (∀ (s : State) (port p k l : Nat) (x : PNode) (f : TxFrame) (rest : List TxFrame), s.pnode (nodeKey port p) = some x →
    x.active[x.ptr]? = some l →
    (s.leaf l).q = f :: rest →
    (x.atTurn = false → f.len ≤ (s.leaf l).deficit + (s.leaf l).quantum * 64 → s.pickLeaf port p (k + 1) = .send p l
      ((s.setLeaf l { s.leaf l with deficit := (s.leaf l).deficit + (s.leaf l).quantum * 64 }).updPnode (nodeKey port p)
        (fun y => { y with atTurn := true, mid := true }))) ∧
    (x.atTurn = true → f.len ≤ (s.leaf l).deficit → s.pickLeaf port p (k + 1) = .send p l
      ((s.setLeaf l { s.leaf l with deficit := (s.leaf l).deficit }).updPnode (nodeKey port p)
        (fun y => { y with atTurn := true, mid := true })))) ∧
  (∀ (s : State) (port p : Nat) (x : PNode), s.pnode (nodeKey port p) = some x →
    (s.ceilBlocked port p = true ↔ x.ceil ≠ 0 ∧ x.ceilB < 0)) ∧
  (∀ (s : State) (port p l : Nat) (f : TxFrame) (rest : List TxFrame) (x : PNode), (s.leaf l).q = f :: rest →
    s.pnode (nodeKey port p) = some x → p < 128 →
    ((s.sendHead port p l).leaf l).q = rest ∧ (f.len ≤ (s.reg ⟨.ept, port⟩ 0x100).field 13 0 →
      s.onWire port f.body ∈ (s.sendHead port p l).out) ∧
    ∃ y, (s.sendHead port p l).pnode (nodeKey port p) = some y ∧ y.floorB = x.floorB - (f.len + 20) * 12800 ∧
      y.ceilB = x.ceilB - (f.len + 20) * 12800) ∧
  -- the active list: those that ceased to be eligible leave, those that became eligible come last
  (∀ (r : RoundRobin) (elig : List Nat), (r.refresh elig).active =
    r.active.filter (fun c => elig.contains c) ++ elig.filter (fun c => !r.active.contains c)) ∧
  -- from the tail the pointer moves back to the head and ROUND counts (R206)
  (∀ r : RoundRobin, (r.active.length ≤ r.ptr + 1 → r.next.ptr = 0 ∧ r.next.round = (r.round + 1) % 2 ^ 32) ∧
    (r.ptr + 1 < r.active.length → r.next.ptr = r.ptr + 1 ∧ r.next.round = r.round) ∧ r.next.active = r.active ∧
    r.next.atTurn = false) ∧
  -- pauses and links
  (∀ (s : State) (n c t : Nat), Tab.find (s.ept n).paused c = some t →
    (t ≤ s.clk.pkt → exec (.pfcPauseEnd n c) s =
      .next ((s.updEpt n (fun e => { e with paused := Tab.erase e.paused c })).refreshPort n)) ∧
    (s.clk.pkt < t → exec (.pfcPauseEnd n c) s = .next s)) ∧
  (∀ (s : State) (n : Nat), (s.ept n).up = true → Gives (.linkDown n) s (fun t => (t.ept n).up = false ∧
    (t.ept n).paused = [] ∧ (t.reg (eptPage n) 0x30).bit 9 = true ∧ ∀ l, (s.leaf l).port = some n → (t.leaf l).q = [])) ∧
  (∀ (s : State) (n : Nat), (s.ept n).up = false → exec (.linkDown n) s = .next s) ∧
  (∀ (s : State) (c : SchChange), s.sch.change = some c →
    (s.changeDue c = true → exec .schChangeApply s = .next (({ s with sch := { s.sch with change := none } } :
      State).changeApply c)) ∧ (s.changeDue c = false → exec .schChangeApply s = .next s)) ∧
  -- meters
  (∀ (m x : Meter) (y : Bool) (n now : Nat), x = m.refill now → m.mode = false →
    (x.pB < n * 65536 → (m.colour y n now).1 = .red) ∧
    (n * 65536 ≤ x.pB → x.cB < n * 65536 → (m.colour y n now).1 = .yellow ∧ (m.colour y n now).2.pB = x.pB - n * 65536) ∧
    (n * 65536 ≤ x.pB → y = true → m.aware = true → (m.colour y n now).1 = .yellow) ∧
    (n * 65536 ≤ x.pB → n * 65536 ≤ x.cB → (y = false ∨ m.aware = false) → (m.colour y n now).1 = .green ∧
      (m.colour y n now).2.pB = x.pB - n * 65536 ∧ (m.colour y n now).2.cB = x.cB - n * 65536)) ∧
  (∀ (m x : Meter) (y : Bool) (n now : Nat), x = m.refill now → m.mode = true →
    ((y = false ∨ m.aware = false) → n * 65536 ≤ x.cB → (m.colour y n now).1 = .green ∧ (m.colour y n now).2.cB = x.cB - n * 65536) ∧
    (x.cB < n * 65536 → n * 65536 ≤ x.pB → (m.colour y n now).1 = .yellow) ∧
    (x.cB < n * 65536 → x.pB < n * 65536 → (m.colour y n now).1 = .red)) ∧
  (∀ (e : Edit) (m : Meter), e.colourAct m 0 = some e ∧ e.colourAct m 1 = some e.dei ∧ e.colourAct m 2 = some (e.dscp m.dscp) ∧
    e.colourAct m 3 = none)

/-- PNODE_SET, PNODE_CLEAR, PNODE_READ, LEAF_SET, LEAF_READ, METER_SET and METER_READ (R209, R212, R215, R216). -/
def Obligations.SluiceCommands : Prop :=
  (∀ (s : State) (port p : Nat) (a0 a1 a2 : Word), Taken s .sch → port < 16 → p < 128 → a0 = s.schArg 0 → a1 = s.schArg 1 →
    a2 = s.schArg 2 → s.pnodeCheck port p a0 a1 a2 = .ok →
    (s.changeDue (.pnode port p a0 a1 a2) = true → exec (.pnodeSet port p) s =
      .next ((s.pnodeApply port p a0 a1 a2).cmdEnd .sch 1 0 .ok)) ∧
    (s.changeDue (.pnode port p a0 a1 a2) = false → Gives (.pnodeSet port p) s (fun t =>
      t.sch.change = some (.pnode port p a0 a1 a2) ∧ t.sch.pnodes = s.sch.pnodes ∧ t.cmdBusy .sch = true))) ∧
  (∀ (s : State) (port p : Nat) (a0 a1 a2 : Word), Taken s .sch → port < 16 → p < 128 → a0 = s.schArg 0 → a1 = s.schArg 1 →
    a2 = s.schArg 2 → s.pnodeCheck port p a0 a1 a2 ≠ .ok →
    exec (.pnodeSet port p) s = .next (s.cmdEnd .sch 1 0 (s.pnodeCheck port p a0 a1 a2))) ∧
  (∀ (s : State) (port p : Nat) (a0 a1 a2 : Word),
    ((a0.field 15 0 = 0 ∨ a2.field 15 0 < 3 ∨ a1.field 63 32 < 64 ∨ a1.field 31 0 < 64 ∨
      (a0.field 39 16 ≠ 0 ∧ a0.field 39 16 < a0.field 63 40) ∨ s.eptPresent port = false) →
      s.pnodeCheck port p a0 a1 a2 = .format) ∧
    (s.pnodeCheck port p a0 a1 a2 = .ok → (s.part p).state ≠ .free ∧ s.bufSum (nodeKey port p) + a2.field 15 0 ≤ 8192 ∧
      s.floorSum port - ((s.pnode (nodeKey port p)).map (fun x => x.floor)).getD 0 + a0.field 63 40 ≤ s.portRate port)) ∧
  (∀ (s : State) (port p : Nat) (a0 a1 a2 : Word), p < 128 → ∃ x, (s.pnodeApply port p a0 a1 a2).pnode (nodeKey port p) = some x ∧
    x.floor = a0.field 63 40 ∧ x.ceil = a0.field 39 16 ∧ x.quantum = a0.field 15 0 ∧ x.floorBurst = a1.field 63 32 ∧
    x.ceilBurst = a1.field 31 0 ∧ x.buf = a2.field 15 0) ∧
  (∀ (s : State) (port p : Nat), Taken s .sch → port < 16 → p < 128 →
    (s.leavesOf port p ≠ [] → exec (.pnodeClear port p) s = .next (s.cmdEnd .sch 2 0 .state)) ∧
    (∀ u, s.leavesOf port p = [] → u = s.refillPort port → exec (.pnodeClear port p) s = .next ((({ u with sch := { u.sch with
      pnodes := Tab.erase u.sch.pnodes (nodeKey port p) } } : State).refreshPort port).cmdEnd .sch 2 0 .ok)) ∧
    (s.pnode (nodeKey port p) = none → exec (.pnodeRead port p) s = .next (s.cmdEnd .sch 3 0 .state)) ∧
    (∀ x y, s.pnode (nodeKey port p) = some x → (s.refill port p).pnode (nodeKey port p) = some y →
      Gives (.pnodeRead port p) s (fun t => t.pnode (nodeKey port p) = some y ∧
        (t.reg schPage 0x1B8).field 31 0 = y.round % 2 ^ 32 ∧ (t.reg schPage 0x1B8).field 63 32 = s.nodeOcc port p % 2 ^ 32))) ∧
  (∀ (s : State) (port p : Nat) (x : PNode), s.pnode (nodeKey port p) = some x → s.floorSum port ≤ s.portRate port →
    ∃ y, (s.refill port p).pnode (nodeKey port p) = some y ∧ y.at_ = s.clk.pkt ∧
      y.floorB = min (x.floorB + (x.floor * (s.clk.pkt - x.at_) : Nat)) (x.floorBurst * 12800 : Nat) ∧
      y.ceilB = min (x.ceilB + (x.ceil * (s.clk.pkt - x.at_) : Nat)) (x.ceilBurst * 12800 : Nat)) ∧
  (∀ (s : State) (port l : Nat), Taken s .sch → port < 16 → l < 131072 →
    (s.leafCheck port l (s.schArg 0) ≠ .ok →
      exec (.leafSet port l) s = .next (s.cmdEnd .sch 4 0 (s.leafCheck port l (s.schArg 0)))) ∧
    (s.leafCheck port l (s.schArg 0) = .ok → s.changeDue (.leaf port l (s.schArg 0)) = true →
      exec (.leafSet port l) s = .next ((s.leafApply port l (s.schArg 0)).cmdEnd .sch 4 0 .ok)) ∧
    (s.leafCheck port l (s.schArg 0) = .ok → s.changeDue (.leaf port l (s.schArg 0)) = false →
      Gives (.leafSet port l) s (fun t => t.sch.change = some (.leaf port l (s.schArg 0)) ∧ t.sch.leaves = s.sch.leaves)) ∧
    Gives (.leafRead l) s (fun t => (t.reg schPage 0x1B0).field 63 32 = (s.leaf l).depth % 2 ^ 32 ∧
      (t.reg schPage 0x1B0).field 31 0 = (s.leaf l).depthHwm % 2 ^ 32 ∧ (t.reg schPage 0x1B8).field 63 32 = (s.leaf l).sojHwm % 2 ^ 32 ∧
      (t.reg schPage 0x1B8).field 31 0 = (s.leaf l).drops % 2 ^ 32 ∧ (t.reg schPage 0x1C0).field 63 32 = (s.leaf l).deficit % 2 ^ 32 ∧
      ((s.schArg 0).bit 0 = true → (t.leaf l).depthHwm = (s.leaf l).depth ∧ (t.leaf l).sojHwm = 0))) ∧
  (∀ (s : State) (port l : Nat) (a0 : Word), ((s.leafApply port l a0).leaf l).port = some port ∧
    ((s.leafApply port l a0).leaf l).depthMax = a0.field 47 32 ∧ ((s.leafApply port l a0).leaf l).cls = a0.field 18 16 ∧
    ((s.leafApply port l a0).leaf l).quantum = a0.field 15 0 ∧ ((s.leafApply port l a0).leaf l).q = (s.leaf l).q) ∧
  (∀ (s : State) (m : Nat) (a0 a1 : Word), Taken s .sch → m < 32768 → a0 = s.schArg 0 → a1 = s.schArg 1 →
    (a0.bit 0 = true ∨ a0.field 63 40 ≤ a0.field 39 16) → 64 ≤ a1.field 63 32 → 64 ≤ a1.field 31 0 →
    (s.ownerOf tyMeter m = none → exec (.meterSet m) s = .next (s.cmdEnd .sch 6 0 .state)) ∧
    (s.ownerOf tyMeter m ≠ none → Gives (.meterSet m) s (fun t => (t.meter m).cir = a0.field 63 40 ∧
      (t.meter m).pir = a0.field 39 16 ∧ (t.meter m).cB = a1.field 63 32 * 65536 ∧ (t.meter m).pB = a1.field 31 0 * 65536 ∧
      (t.meter m).red = (s.schArg 2).field 1 0 ∧ (t.meter m).yellow = (s.schArg 2).field 3 2 ∧ (t.meter m).mode = a0.bit 0 ∧
      ∀ k, k ≠ m → t.meter k = s.meter k))) ∧
  (∀ (s : State) (m : Nat), Taken s .sch → m < 32768 → Gives (.meterRead m) s (fun t =>
    (t.reg schPage 0x1B0).field 63 32 = ((s.meter m).refill s.clk.pkt).cB / 65536 % 2 ^ 32 ∧
    (t.reg schPage 0x1B0).field 31 0 = ((s.meter m).refill s.clk.pkt).pB / 65536 % 2 ^ 32 ∧
    (t.reg schPage 0x1B8).field 63 32 = (s.meter m).nYellow % 2 ^ 32 ∧ (t.reg schPage 0x1B8).field 31 0 = (s.meter m).nRed % 2 ^ 32))
/-! ## Number formats (11_number_formats.md) -/

/-- CONVERT and SUM (R217, R232 to R234). -/
def Obligations.NumberDescriptors : Prop :=
  (∀ (s u : State) (ring idx : Nat) (w : Work) (src dst : Elem) (ds : List (List Byte)), Started s ring idx 9 1 w →
    s.convertCheck w.part w.vi w.words = .ok (src, dst) →
    s.fetchAll w (toRead (nSrcHbm w.words) (srcRanges w.words src)) = (some ds, u) →
    u.spaceUp (spaceOf (nDstHbm w.words) (nDst w.words)) w.vi (nDst w.words) = true →
    (dst.isMx = true → u.spaceUp (spaceOf (nDstHbm w.words) (nDScale w.words)) w.vi (nDScale w.words) = true) →
    exec (.convert ring idx) s = .next (u.converted w dst (convertAll src dst (wb w.words 4 23)
      (mxAdj (s.regFor Blk.num.page w.gen 0x100)) (nCount w.words) (ds.getD 0 []) (ds.getD 1 [])))) ∧
  (∀ (s : State) (ring idx : Nat) (w : Work) (st : Status), Started s ring idx 9 1 w →
    s.convertCheck w.part w.vi w.words = .error st → exec (.convert ring idx) s = .next (s.workFail w.ring w.idx st)) ∧
  (∀ (s u : State) (ring idx : Nat) (w : Work) (src dst : Elem) (d : List Byte) (x : Xacc), Started s ring idx 9 2 w →
    s.sumCheck w.part w.vi w.words = .ok (src, dst) → wb w.words 4 20 = false →
    s.fetchAll w (toRead (nSrcHbm w.words) (srcRanges w.words src)) = (some [d], u) →
    sumAll src .zero (nCount w.words) d = some x →
    (wb w.words 4 19 = true → u.spaceUp (spaceOf (nDstHbm w.words) (nDst w.words)) w.vi (nDst w.words) = true) →
    exec (.sum ring idx) s = .next (u.summed w src dst .zero x)) ∧
  (∀ (s u : State) (ring idx : Nat) (w : Work) (src dst : Elem) (d m : List Byte) (x : Xacc), Started s ring idx 9 2 w →
    s.sumCheck w.part w.vi w.words = .ok (src, dst) → wb w.words 4 20 = true →
    s.fetchAll w (toRead (nSrcHbm w.words) (srcRanges w.words src) ++ toRead (nDstHbm w.words) [(nDst w.words, 64)]) =
      (some [d, m], u) →
    (imageBad m = true → exec (.sum ring idx) s = .next (u.workDone w.ring w.idx .format 0xFFFFFFFF 0 0)) ∧
    (imageBad m = false → sumAll src (Xacc.ofImage m) (nCount w.words) d = some x →
      u.spaceUp (spaceOf (nDstHbm w.words) (nDst w.words)) w.vi (nDst w.words) = true →
      exec (.sum ring idx) s = .next (u.summed w src dst (Xacc.ofImage m) x))) ∧
  (∀ (s : State) (ring idx : Nat) (w : Work) (st : Status), Started s ring idx 9 2 w →
    s.sumCheck w.part w.vi w.words = .error st → exec (.sum ring idx) s = .next (s.workFail w.ring w.idx st)) ∧
  -- the checks
  (∀ (s : State) (p : Nat) (v : Option Nat) (ws : List Word),
    ((0xD ≤ wf ws 4 31 28 ∨ 0xD ≤ wf ws 4 27 24 ∨ wf ws 4 63 32 = 0 ∨ (wordAt ws 2).toNat % 64 ≠ 0 ∨
      (wordAt ws 3).toNat % 64 ≠ 0) → s.convertCheck p v ws = .error .format ∧ s.sumCheck p v ws = .error .format) ∧
    ((wf ws 4 31 28 = 0xC ∨ wf ws 4 27 24 = 0xC ∨ wb ws 4 20 = true ∨ wb ws 4 19 = true) →
      s.convertCheck p v ws = .error .format) ∧
    ((5 ≤ wf ws 4 31 28 ∧ wf ws 4 31 28 ≤ 9) ∨ (wb ws 4 20 = true ∧ wb ws 4 19 = false) → s.sumCheck p v ws = .error .format)) ∧
  -- what a SUM delivers, and a conversion between equal MX formats
  (∀ (s : State) (w : Work) (src dst : Elem) (x0 x : Xacc), s.workAt w.ring w.idx = some w → wb w.words 4 19 = false →
    ∃ v, (s.summed w src dst x0 x).workAt w.ring w.idx = some v ∧ v.phase = .done ∧ v.status = .ok ∧
      v.r0 = Word.of (x.round dst (wb w.words 4 23)) ∧ v.r1.bit 3 = x.ovf ∧ v.r1.bit 2 = x.nan ∧ v.r1.bit 1 = x.ninf ∧
      v.r1.bit 0 = x.pinf) ∧
  (∀ (f : FFmt) (sat : Bool) (adj : Int) (n : Nat) (d sc : List Byte),
    (convertAll (.mx f) (.mx f) sat adj n d sc).data = d ∧ (convertAll (.mx f) (.mx f) sat adj n d sc).scales = sc ∧
    (convertAll (.mx f) (.mx f) sat adj n d sc).sat = 0 ∧ (convertAll (.mx f) (.mx f) sat adj n d sc).flushed = 0)

/-- The exact accumulator (R230, R231): its sum depends on the terms alone, not on their order or grouping, and its image gives it
back. -/
def Obligations.ExactAccumulator : Prop :=
  (∀ (x : Xacc) (l m : List Sys2Proof.Num), l.Perm m → x.v.natAbs + (l.map (fun t => match t with
      | .fin neg k e => (roundTo .zero neg k e (-149)).1
      | .inf _ => 0
      | .nan => 0)).sum < 2 ^ 415 → l.foldl Xacc.add x = m.foldl Xacc.add x) ∧
  (∀ (x : Xacc) (l m : List Sys2Proof.Num), x.terms < 2 ^ 64 → x.v.natAbs + ((l ++ m).map (fun t => match t with
      | .fin neg k e => (roundTo .zero neg k e (-149)).1
      | .inf _ => 0
      | .nan => 0)).sum < 2 ^ 415 →
    (l ++ m).foldl Xacc.add x = (l.foldl Xacc.add x).merge (m.foldl Xacc.add .zero)) ∧
  (∀ x : Xacc, -(2 ^ 415 : Int) ≤ x.v → x.v < 2 ^ 415 → x.terms < 2 ^ 64 → Xacc.ofImage x.image = x ∧ x.image.length = 64 ∧
    imageBad x.image = false) ∧
  (∀ x : Xacc, (x.nan = true ∨ x.ovf = true ∨ (x.pinf = true ∧ x.ninf = true) → x.value = .nan) ∧
    (x.nan = false → x.ovf = false → x.pinf = true → x.ninf = false → x.value = .inf false) ∧
    (x.nan = false → x.ovf = false → x.pinf = false → x.ninf = true → x.value = .inf true)) ∧
  (∀ (x : Xacc) (f : FFmt) (b : Nat) (sat : Bool), x.v = 0 → x.nan = false → x.ovf = false → x.pinf = false → x.ninf = false →
    x.round (.flt f) sat = 0 ∧ x.round (.int b) sat = 0)
/-! ## Confluence reduction (12_confluence_reduction.md) -/

/-- XRD_OPEN, CONTRIBUTE, ATTACH, XRD_QUERY and XRD_CLOSE (R238, R245, R247, R248). -/
def Obligations.ReductionDescriptors : Prop :=
  (∀ (s : State) (ring idx : Nat) (w : Work), Started s ring idx 3 1 w →
    (s.xrdOpenCheck w (s.groupOf w) = .ok → Gives (.xrdOpen ring idx) s (fun t =>
      t.group (groupKey w.part (wf w.words 4 63 44)) = some (s.groupOf w) ∧
      (∀ k, k ≠ groupKey w.part (wf w.words 4 63 44) → t.group k = s.group k) ∧ t.xrd.slots = s.xrd.slots ∧
      ∃ v, t.workAt ring idx = some v ∧ v.phase = .running ∧ v.words = w.words)) ∧
    (∀ st, st ≠ .ok → s.xrdOpenCheck w (s.groupOf w) = st → exec (.xrdOpen ring idx) s = .next (s.workFail ring idx st))) ∧
  (∀ (s : State) (w : Work), (s.groupOf w).state = .active ∧ (s.groupOf w).low = 0 ∧ (s.groupOf w).segs = [] ∧
    (s.groupOf w).terms = 0 ∧ (s.groupOf w).total = wf w.words 3 63 32 ∧ (s.groupOf w).segElems = wf w.words 3 31 11 ∧
    (s.groupOf w).slots = wf w.words 4 43 23 ∧ (s.groupOf w).contrib = wf w.words 5 63 51 ∧ (s.groupOf w).op = wf w.words 4 22 20) ∧
  (∀ (s : State) (w : Work),
    ((2 < wf w.words 4 22 20 ∨ wf w.words 3 63 32 = 0 ∨ wf w.words 3 31 11 = 0 ∨ wf w.words 5 63 51 = 0 ∨ 4096 < wf w.words 5 63 51 ∨
      wf w.words 4 43 23 % wf w.words 3 31 11 ≠ 0 ∨ 1048576 < wf w.words 4 63 44 + wf w.words 4 43 23 ∨ 64 < wf w.words 5 50 44 ∨
      (wb w.words 4 10 = false ∧ wf w.words 5 50 44 = 0) ∨ (wordAt w.words 2).toNat % 64 ≠ 0) →
      s.xrdOpenCheck w (s.groupOf w) = .format) ∧
    (s.xrdOpenCheck w (s.groupOf w) = .ok →
      (∀ i, i < wf w.words 4 43 23 → s.owns w.part tySlot (wf w.words 4 63 44 + i) = true) ∧
      s.slotsTaken (wf w.words 4 63 44) (wf w.words 4 43 23) = false ∧ s.xrd.groups.length < 16384)) ∧
  -- CONTRIBUTE: checked once, then segment by segment
  (∀ (s : State) (ring idx : Nat) (w : Work), Started s ring idx 3 2 w → w.ctx = .none →
    (s.contribCheck w = .ok → exec (.contribute ring idx) s = .next (s.contribRun w 0 (wf w.words 3 63 32 + 1))) ∧
    (∀ st, st ≠ .ok → s.contribCheck w = st → exec (.contribute ring idx) s = .next (s.workFail ring idx st))) ∧
  (∀ (s : State) (ring idx i : Nat) (w : Work), Started s ring idx 3 2 w → w.ctx = .contribute i →
    exec (.contribute ring idx) s = .next (s.contribRun w i (wf w.words 3 63 32 + 1))) ∧
  (∀ (s : State) (w : Work) (k i : Nat), wf w.words 3 63 32 ≤ i → s.contribRun w i k = s.workDone w.ring w.idx .ok 0 0 0) ∧
  (∀ (s s1 : State) (w : Work) (i k key e m a : Nat) (g : Group) (d : List Byte), i < wf w.words 3 63 32 →
    key = groupKey w.part (wf w.words 4 63 44) → s.group key = some g → e = wf w.words 3 31 0 + i →
    m = min (wf w.words 3 63 32 - i) (g.segElems - e % g.segElems) → a = (wordAt w.words 2).toNat + i * g.srcBytes →
    s1 = s.updWork w.ring w.idx (fun v => { v with phase := .ready, ctx := .contribute i }) →
    (g.exceeds (e / g.segElems) m = true → s.contribRun w i (k + 1) = s1.failGroup key .format) ∧
    (g.exceeds (e / g.segElems) m = false → g.low + g.w ≤ e / g.segElems → s.contribRun w i (k + 1) = s1) ∧
    (g.exceeds (e / g.segElems) m = false → e / g.segElems < g.low + g.w →
      s1.fetch w (spaceOf (wb w.words 4 43) a) a (m * g.srcBytes) = .got d → g.badImage m d = false →
      s.contribRun w i (k + 1) = ((s1.addTerms key e m d).updWork w.ring w.idx (fun v =>
        { v with ctx := .contribute (i + m) })).contribRun w (i + m) k)) ∧
  (∀ (s : State) (ring idx c : Nat) (w : Work), Started s ring idx 3 3 w → c = wf w.words 2 23 0 →
    (s.owns w.part tyConn c = true → Gives (.attach ring idx) s (fun t => (t.conn c).attached = wb w.words 2 24 ∧
      (∀ n, n ≠ c → t.conn n = s.conn n) ∧ ∃ v, t.workAt ring idx = some v ∧ v.phase = .done ∧ v.status = .ok)) ∧
    (s.owns w.part tyConn c = false → exec (.attach ring idx) s = .next (s.workFail ring idx .accessViolation))) ∧
  (∀ (s : State) (ring idx : Nat) (w : Work) (g : Group), Started s ring idx 3 4 w →
    (s.group (groupKey w.part (wf w.words 2 19 0)) = some g → exec (.xrdQuery ring idx) s = .next (s.workDone ring idx .ok 0
      (((0 : Word).setField 63 62 g.state.code).setField 31 0 g.low) (Word.of g.terms))) ∧
    (s.group (groupKey w.part (wf w.words 2 19 0)) = none → s.owns w.part tySlot (wf w.words 2 19 0) = true →
      exec (.xrdQuery ring idx) s = .next (s.workFail ring idx .state))) ∧
  (∀ (s : State) (ring idx : Nat) (w : Work) (g : Group), Started s ring idx 3 5 w →
    s.group (groupKey w.part (wf w.words 2 19 0)) = some g →
    (g.state = .failed → Gives (.xrdClose ring idx) s (fun t => t.group (groupKey w.part (wf w.words 2 19 0)) = none ∧
      ∃ v, t.workAt ring idx = some v ∧ v.phase = .done ∧ v.status = .ok)) ∧
    (g.state ≠ .failed → exec (.xrdClose ring idx) s = .next (s.workFail ring idx .state)))

/-- REDUCTION_PACKET, SEGMENT_RELEASE, SLOT_WAIT_EXPIRE, GROUP_IDLE_TIMEOUT and GROUP_DONE (R237 to R246). -/
def Obligations.ReductionOfTerms : Prop :=
  -- what each outcome of the checks does
  (∀ (s : State) (p : MlrPacket) (c key : Nat) (g : Group), c = p.dstConn → key = extKey p.ext → (s.conn c).attached = true →
    s.group key = some g →
    (s.xrdCheck (s.conn c).part p = .add → exec (.reductionPacket p) s = .next ((((s.addTerms key (extOff p.ext / g.srcBytes)
      (p.payload.length / g.srcBytes) p.payload).count1 .xrd 2).rxSet c p.psn p.areq p.ce p.path).missStart)) ∧
    (s.xrdCheck (s.conn c).part p = .hold → s.missRoom p = true →
      exec (.reductionPacket p) s = .next (((s.missHold c .window 1 p).count1 .xrd 4).missStart)) ∧
    (s.xrdCheck (s.conn c).part p = .hold → s.missRoom p = false →
      exec (.reductionPacket p) s = .next ((s.xrdPnr c p g.gen).missStart)) ∧
    (s.xrdCheck (s.conn c).part p = .fails → exec (.reductionPacket p) s =
      .next (((s.xrdRefuse c p .format 5).failGroup key .format).missStart)) ∧
    (∀ st r, s.xrdCheck (s.conn c).part p = .refused st r → exec (.reductionPacket p) s =
      .next ((s.xrdRefuse c p st r).missStart))) ∧
  -- the checks, in order
  (∀ (s : State) (q key : Nat) (p : MlrPacket), key = extKey p.ext →
    ((key / 2 ^ 25 ≠ q ∨ key / 2 ^ 20 % 32 ≠ 0) → s.xrdCheck q p = .refused .accessViolation 1) ∧
    (key / 2 ^ 25 = q → key / 2 ^ 20 % 32 = 0 → s.group key = none → s.owns q tySlot (key % 2 ^ 20) = true → s.xrdCheck q p = .pnr) ∧
    (key / 2 ^ 25 = q → key / 2 ^ 20 % 32 = 0 → s.group key = none → s.owns q tySlot (key % 2 ^ 20) = false →
      s.xrdCheck q p = .refused .accessViolation 2)) ∧
  (∀ (s : State) (q key b e n : Nat) (p : MlrPacket) (g : Group), key = extKey p.ext → key / 2 ^ 25 = q → key / 2 ^ 20 % 32 = 0 →
    s.group key = some g → b = g.srcBytes → e = extOff p.ext / b → n = p.payload.length / b →
    (g.state ≠ .active → s.xrdCheck q p = .refused .state 3) ∧
    (g.state = .active → (extOff p.ext % b ≠ 0 ∨ p.payload.length % b ≠ 0 ∨ n = 0 ∨ g.total < e + n) →
      s.xrdCheck q p = .refused .format 4) ∧
    (g.state = .active → extOff p.ext % b = 0 → p.payload.length % b = 0 → n ≠ 0 → e / g.segElems = (e + n - 1) / g.segElems →
      e + n ≤ g.total → g.badImage n p.payload = false →
      (g.exceeds (e / g.segElems) n = true → s.xrdCheck q p = .fails) ∧
      (g.exceeds (e / g.segElems) n = false → g.low + g.w ≤ e / g.segElems → s.xrdCheck q p = .hold) ∧
      (g.exceeds (e / g.segElems) n = false → e / g.segElems < g.low + g.w → s.xrdCheck q p = .add))) ∧
  -- terms go to the slots of the segment's block, and a complete segment is emitted
  (∀ (s : State) (key e n : Nat) (g : Group) (y : Seg) (bs : List Byte), s.group key = some g → g.seg (e / g.segElems) = some y →
    y.count + n < g.contrib * g.segLen (e / g.segElems) →
    (s.addTerms key e n bs).xrd.slots = g.addTo s.xrd.slots (g.block key (e / g.segElems) + e % g.segElems) n bs ∧
    ∃ h, (s.addTerms key e n bs).group key = some h ∧ h.terms = termSat (g.terms + n) ∧ h.since = s.clk.pkt ∧
      ∃ z, h.seg (e / g.segElems) = some z ∧ z.count = y.count + n ∧ z.emitted = y.emitted ∧ z.placed = y.placed) ∧
  (∀ (g : Group) (t : Tab XSlot) (slot : Nat) (b : List Byte), b.length = g.srcBytes →
    Tab.get .zero (g.addTo t slot 1 b) slot = g.term (Tab.get .zero t slot) b ∧
    ∀ k, k ≠ slot → Tab.get .zero (g.addTo t slot 1 b) k = Tab.get .zero t k) ∧
  (∀ (g : Group) (x : XSlot) (f : FFmt) (bs : List Byte), g.op = 0 → g.src = .flt f →
    g.term x bs = { x with acc := x.acc.add (decodeElem (.flt f) (leNat bs) 0) }) ∧
  (∀ (s : State) (key k : Nat) (g : Group), s.group key = some g → g.emittedN + 1 = g.nSegs → g.dstEn = false → g.emits = [] →
    ∃ h, (s.emitSeg key k).group key = some h ∧ h.state = .emitted ∧ h.emittedN = g.nSegs) ∧
  (∀ (s : State) (key k : Nat) (g : Group), s.group key = some g → g.dstEn = true → g.dstHbm = true → g.emits = [] →
    (s.emitSeg key k).hbm = (s.put .hbm none (g.dstAddr + k * g.segElems * g.dst.bits / 8) (s.segData g key k)).hbm) ∧
  (∀ (s : State) (key k a : Nat) (g : Group) (x : Seg), s.group key = some g → g.segs = [x] → x.seg = k → a = g.segAddr k →
    ((g.dstEn = false ∨ s.spaceUp (spaceOf g.dstHbm a) (s.groupVi g) a = true) →
      ∃ h, (s.segPlace key k).group key = some h ∧ h.segs = [{ x with placed := true }]) ∧
    (g.dstEn = true → s.spaceUp (spaceOf g.dstHbm a) (s.groupVi g) a = false → s.segPlace key k = s)) ∧
  -- release, waits and the end
  (∀ (s : State) (key seg : Nat) (g : Group) (x : Seg), s.group key = some g → g.seg seg = some x → x.emitted = true →
    x.built = false →
    (x.placed = true → s.emitWaits g key seg = false → exec (.segmentRelease key seg) s =
      .next (((s.clearSlots (g.block key seg) g.segElems).updGroup key (fun y => ({ y with
        segs := y.segs.map (fun (z : Seg) => if z.seg = seg then { z with built := true } else z) } : Group).lowAdvance
          (y.segs.length + 1))).windowIn key)) ∧
    (x.placed = true → s.emitWaits g key seg = true → exec (.segmentRelease key seg) s = .next s) ∧
    (x.placed = false → g.segs = [x] → exec (.segmentRelease key seg) s = .next ((s.segPlace key seg).segRelease key seg))) ∧
  (∀ (g : Group) (x : Seg) (n : Nat), g.seg g.low = some x →
    (x.built = true → (g.lowAdvance (n + 1)) =
      ({ g with low := g.low + 1, segs := g.segs.filter (fun y => y.seg ≠ g.low) } : Group).lowAdvance n) ∧
    (x.built = false → g.lowAdvance (n + 1) = g)) ∧
  (∀ (s : State) (c n : Nat) (h : HeldPkt) (g : Group), s.mlr.held.find? (fun h => decide (h.conn = c) && decide (h.why = .window) &&
      decide (h.pkt.psn = BitVec.ofNat 32 n)) = some h → s.group (extKey h.pkt.ext) = some g →
    (h.at_ + s.slotWait g ≤ s.clk.pkt → exec (.slotWaitExpire c n) s =
      .next ((s.unhold h.hid).underGen h.gen (fun t => t.xrdPnr c h.pkt g.gen))) ∧
    (s.clk.pkt < h.at_ + s.slotWait g → exec (.slotWaitExpire c n) s = .next s)) ∧
  (∀ (s : State) (key t : Nat) (g : Group), s.group key = some g → t = (s.regFor xrdPage g.gen 0x108).field 31 0 → g.state = .active →
    t ≠ 0 → (g.since + t * 65536 ≤ s.clk.pkt → exec (.groupIdleTimeout key) s = .next (s.failGroup key .timeout)) ∧
    (s.clk.pkt < g.since + t * 65536 → exec (.groupIdleTimeout key) s = .next s)) ∧
  (∀ (s : State) (key : Nat) (g : Group), s.group key = some g → g.state = .emitted →
    (∀ e, e ∈ g.emits → ∀ o, o ∈ (s.conn e.conn).owners → ∀ i k, o ≠ .emit key i k) →
    (∀ x, x ∈ g.segs → x.placed = true) → exec (.groupDone key) s = .next ((s.freeGroup key).workDone g.ring g.idx .ok 0 0 0)) ∧
  (∀ (s : State) (key : Nat) (g : Group), s.group key = some g → (s.freeGroup key).group key = none ∧
    ∀ k, k ≠ key → (s.freeGroup key).group k = s.group k)
/-! ## Cellar key/value store (13_cellar_kv_store.md) -/

/-- SEQ_CREATE, FORK, TRIM, DROP, DROP_DONE and KVS_QUERY (R250, R251, R253, R256, R261 to R265). -/
def Obligations.SequenceLife : Prop :=
  (∀ (s : State) (p q base size n : Nat), (s.part p).kvs = some (base, size, n) →
    (n ≤ q % 2 ^ 25 → s.seqKeyCheck p q = .format) ∧
    (q % 2 ^ 25 < n → q / 2 ^ 25 ≠ p → s.seqKeyCheck p q = .accessViolation) ∧
    (q % 2 ^ 25 < n → q / 2 ^ 25 = p → s.seqKeyCheck p q = .ok)) ∧
  (∀ (s : State) (p q : Nat), (s.part p).kvs = none → s.seqKeyCheck p q = .format) ∧
  -- SEQ_CREATE
  (∀ (s : State) (ring idx q : Nat) (w : Work) (h : Shape) (x : Pool), Started s ring idx 4 1 w → w.ring = ring → w.idx = idx →
    q = wf w.words 2 31 0 → h = shapeOf w.words → shapeBad w.words h = false → s.seqKeyCheck w.part q = .ok →
    s.pool (poolKey w.part h.pool) = some x →
    (∀ a, (s.seq q).state = .free → h.blockBytes ≤ x.slot → s.findExtent w.part h.extentBytes = some a →
      exec (.seqCreate ring idx) s = .next ((s.seqMake q a 0 h).workDone ring idx .ok 0 0 0)) ∧
    ((s.seq q).state = .free → h.blockBytes ≤ x.slot → s.findExtent w.part h.extentBytes = none →
      exec (.seqCreate ring idx) s = .next (s.workFail ring idx .resource)) ∧
    (((s.seq q).state ≠ .free ∨ x.slot < h.blockBytes) → exec (.seqCreate ring idx) s = .next (s.workFail ring idx .state))) ∧
  (∀ (s : State) (q a low : Nat) (h : Shape), ((s.seqMake q a low h).seq q).state = .active ∧
    ((s.seqMake q a low h).seq q).shape = h ∧ ((s.seqMake q a low h).seq q).extent = a ∧ ((s.seqMake q a low h).seq q).lowTok = low ∧
    (∀ b, a ≤ b → b < a + h.extentBytes → (s.seqMake q a low h).byte b = 0) ∧
    (∀ k, k ≠ q → (s.seqMake q a low h).seq k = s.seq k)) ∧
  (∀ h : Shape, (h.fmt = 1 → h.blockBytes = 64 * h.gh * h.d) ∧ (h.fmt = 3 → h.blockBytes = 32 * h.gh * h.d) ∧
    (h.fmt = 9 → h.blockBytes = 17 * h.gh * h.d)) ∧
  -- FORK
  (∀ (s : State) (ring idx src new n : Nat) (w : Work), Started s ring idx 4 4 w → w.ring = ring → w.idx = idx →
    src = wf w.words 2 63 32 → new = wf w.words 2 31 0 → n = wf w.words 3 31 0 → s.seqKeyCheck w.part src = .ok →
    s.seqKeyCheck w.part new = .ok →
    (n % 16 ≠ 0 → exec (.fork ring idx) s = .next (s.workFail ring idx .format)) ∧
    (n % 16 = 0 → ((s.seq src).state ≠ .active ∨ (s.seq new).state ≠ .free ∨ s.minTokens (s.seq src) < n ∨ n < (s.seq src).lowTok) →
      exec (.fork ring idx) s = .next (s.workFail ring idx .state)) ∧
    (∀ a, n % 16 = 0 → (s.seq src).state = .active → (s.seq new).state = .free → n ≤ s.minTokens (s.seq src) → (s.seq src).lowTok ≤ n →
      (∀ k, k ∈ s.slotsIn (s.seq src) 0 (n / 16) → s.slotRefs (seqPool src (s.seq src)) k < 65535) →
      s.findExtent w.part (s.seq src).shape.extentBytes = some a →
      exec (.fork ring idx) s = .next ((s.forkInto src new a n).workDone ring idx .ok 0 0 0))) ∧
  (∀ (s : State) (src new a n : Nat), new ≠ src → ((s.forkInto src new a n).seq new).state = .active ∧
    ((s.forkInto src new a n).seq new).shape = (s.seq src).shape ∧ ((s.forkInto src new a n).seq new).lowTok = (s.seq src).lowTok ∧
    (s.forkInto src new a n).seq src = s.seq src) ∧
  -- TRIM
  (∀ (s : State) (ring idx q n : Nat) (w : Work), Started s ring idx 4 5 w → w.ring = ring → w.idx = idx →
    q = wf w.words 2 31 0 → n = wf w.words 3 31 0 → s.seqKeyCheck w.part q = .ok → n % 16 = 0 →
    ((s.seq q).state = .active → (s.seq q).lowTok ≤ n → n ≤ s.minTokens (s.seq q) →
      exec (.trim ring idx) s = .next ((s.trimTo q n).workDone ring idx .ok 0 0 0)) ∧
    (((s.seq q).state ≠ .active ∨ n < (s.seq q).lowTok ∨ s.minTokens (s.seq q) < n) →
      exec (.trim ring idx) s = .next (s.workFail ring idx .state))) ∧
  (∀ (s : State) (q n : Nat), ((s.trimTo q n).seq q).lowTok = n ∧ ((s.trimTo q n).seq q).state = (s.seq q).state) ∧
  -- DROP waits until nothing holds the sequence
  (∀ (s : State) (ring idx q : Nat) (w : Work), Started s ring idx 4 6 w → w.ring = ring → w.idx = idx → q = wf w.words 2 31 0 →
    s.seqKeyCheck w.part q = .ok →
    ((s.seq q).state = .active → exec (.drop ring idx) s = .next ((s.setSeq q { s.seq q with
        state := .closing, dropper := some (ring, idx) }).updWork ring idx (fun v => { v with phase := .running }))) ∧
    ((s.seq q).state ≠ .active → exec (.drop ring idx) s = .next (s.workFail ring idx .state))) ∧
  (∀ (s : State) (q ring idx : Nat) (w : Work), (s.seq q).state = .closing → s.seqIdle q = true → (s.seq q).dropper = some (ring, idx) →
    s.workAt ring idx = some w →
    Gives (.dropDone q) s (fun t => t.seq q = Seq.free ∧ (∀ e, e ∈ t.kvs.extents → e.1 ≠ q) ∧
      ∃ v, t.workAt ring idx = some v ∧ v.phase = .done ∧ v.status = .ok)) ∧
  (∀ (s : State) (q : Nat), s.seqIdle q = false → exec (.dropDone q) s = .next s) ∧
  (∀ (s : State) (ring idx q : Nat) (w : Work), Started s ring idx 4 7 w → w.ring = ring → w.idx = idx → q = wf w.words 2 31 0 →
    s.seqKeyCheck w.part q = .ok → exec (.kvsQuery ring idx) s = .next (s.workDone ring idx .ok 0
      (((0 : Word).setField 63 62 (s.seq q).state.code).setField 31 0
        (if (s.seq q).state = .free then 0 else s.minTokens (s.seq q)))
      (((0 : Word).setField 63 32 (s.seq q).lowTok).setField 31 0 (s.slotsIn (s.seq q) 0 (s.seq q).shape.maxBlk).length)))

/-- INGEST, INGEST_DONE, LOOKUP and BLOCK_READ_ERROR, and the allocator (R252, R254, R257 to R260, R266, R267). -/
def Obligations.TokensOfASequence : Prop :=
  (∀ (s : State) (ring idx : Nat) (w : Work) (x : Seq) (pl : Pool), Started s ring idx 4 2 w → w.ctx = .none → w.ring = ring →
    w.idx = idx → s.dataCheck w false = .ok → x = s.seq (kSeq w.words) → s.pool (seqPool (kSeq w.words) x) = some pl →
    ((kFirst w.words ≠ s.tokens x (kLayer w.words) ∨ s.layerBusy w = true) →
      exec (.ingest ring idx) s = .next (s.workFail ring idx .state)) ∧
    (kFirst w.words = s.tokens x (kLayer w.words) → s.layerBusy w = false → pl.free < (s.ingestNeeds x w.words).length →
      exec (.ingest ring idx) s = .next ((s.count1 .kvs 4).workFail ring idx .resource)) ∧
    (kFirst w.words = s.tokens x (kLayer w.words) → s.layerBusy w = false → (s.ingestNeeds x w.words).length ≤ pl.free →
      s.appendPoisoned x w.words = true →
      exec (.ingest ring idx) s = .next (s.workDone ring idx .poisoned (kFirst w.words) 0 0)) ∧
    (kFirst w.words = s.tokens x (kLayer w.words) → s.layerBusy w = false → (s.ingestNeeds x w.words).length ≤ pl.free →
      s.appendPoisoned x w.words = false → exec (.ingest ring idx) s =
        .next (((s.ingestAlloc x w.words (s.ingestNeeds x w.words)).2.updWork ring idx (fun v => { v with
          ctx := .ingest (s.reg Blk.num.page 0x100) (s.ingestAlloc x w.words (s.ingestNeeds x w.words)).1 0 0 0 })).ingestData w
            (s.reg Blk.num.page 0x100) (s.ingestAlloc x w.words (s.ingestNeeds x w.words)).1))) ∧
  (∀ (s : State) (ring idx : Nat) (w : Work) (st : Status), Started s ring idx 4 2 w → w.ctx = .none → w.ring = ring → w.idx = idx →
    st ≠ .ok → s.dataCheck w false = st → exec (.ingest ring idx) s = .next (s.workFail ring idx st)) ∧
  (∀ (s : State) (w : Work), (kNtok w.words = 0 ∨ kAddr w.words % 64 ≠ 0) →
    s.dataCheck w false = .format ∧ s.dataCheck w true = .format) ∧
  (∀ (s : State) (w : Work) (lk : Bool), s.dataCheck w lk = .ok → (s.seq (kSeq w.words)).state = .active ∧
    kLayer w.words < (s.seq (kSeq w.words)).shape.layers ∧
    kFirst w.words + kNtok w.words ≤ (s.seq (kSeq w.words)).shape.maxBlk * 16) ∧
  -- the allocator takes the lowest free slot of the granule in turn
  (∀ (x : Pool) (k n : Nat), x.lowest (x.rot * x.perGran) x.perGran = some n → ∃ y, x.take (k + 1) = some (n, y) ∧
    y.rot = (x.rot + 1) % x.grans.length ∧ Tab.find y.refs n = some 1) ∧
  (∀ (x : Pool) (a k n : Nat), x.lowest a k = some n → a ≤ n ∧ n < a + k ∧ x.isFree n = true ∧
    ∀ m, a ≤ m → m < n → x.isFree m = false) ∧
  (∀ (s : State) (k n c : Nat) (x : Pool), s.pool k = some x → Tab.find x.refs n = some c → 1 < c →
    ∃ y, (s.releaseSlot k n).pool k = some y ∧ Tab.find y.refs n = some (c - 1)) ∧
  -- the tokens become present when every byte is visible
  (∀ (s : State) (ring idx sat fl nan : Nat) (w : Work) (x : Seq) (cfg : Word) (al : List Nat), s.workAt ring idx = some w →
    w.phase = .running → w.ctx = .ingest cfg al sat fl nan → x = s.seq (kSeq w.words) →
    Gives (.ingestDone ring idx) s (fun t => t.seq (kSeq w.words) = x ∧
      t.tokens x (kLayer w.words) = (kFirst w.words + kNtok w.words) % 2 ^ 32 ∧
      (∀ a, a < x.entry (kLayer w.words) ∨ x.entry (kLayer w.words) + 4 ≤ a → t.byte a = s.byte a) ∧
      ∃ v, t.workAt ring idx = some v ∧ v.phase = .done ∧ v.status = .ok ∧ v.r0.field 63 32 = sat % 2 ^ 32 ∧
        v.r0.field 31 0 = fl % 2 ^ 32 ∧ v.r1.field 63 32 = nan % 2 ^ 32)) ∧
  -- LOOKUP
  (∀ (s : State) (ring idx last : Nat) (w : Work) (x : Seq), Started s ring idx 4 3 w → w.ring = ring → w.idx = idx →
    s.dataCheck w true = .ok → x = s.seq (kSeq w.words) → last = kFirst w.words + kNtok w.words →
    ((s.tokens x (kLayer w.words) < last ∨ kFirst w.words < x.lowTok) →
      exec (.lookup ring idx) s = .next (s.workFail ring idx .state)) ∧
    (last ≤ s.tokens x (kLayer w.words) → x.lowTok ≤ kFirst w.words →
      (∀ b, (s.count1 .kvs 5).firstPoisoned (kSeq w.words) x (kLayer w.words) (kFirst w.words) (last - 1) = some b →
        exec (.lookup ring idx) s = .next ((s.count1 .kvs 5).workDone ring idx .poisoned (b * 16) 0 0)) ∧
      ((s.count1 .kvs 5).firstPoisoned (kSeq w.words) x (kLayer w.words) (kFirst w.words) (last - 1) = none →
        exec (.lookup ring idx) s =
          .next (((s.count1 .kvs 5).lookupPut w x (kNtok w.words)).workDone ring idx .ok 0 0 0)))) ∧
  -- a row of the stored format with no scale is copied bit for bit
  (∀ (el : Elem) (adj : Int) (n : Nat) (d sc : List Byte), (convertRow el el 0 adj n d sc).data = d ∧
    (convertRow el el 0 adj n d sc).scales = sc ∧ (convertRow el el 0 adj n d sc).sat = 0) ∧
  -- a read error: once is transient, twice retires the page and ends the request
  (∀ (s : State) (addr ring idx : Nat), addr < hbmSize → addr / 65536 * 65536 ∉ s.ckp.used →
    (exec (.blockReadError addr false ring idx) s = .next (s.blockReadError addr false ring idx)) ∧
    Gives (.blockReadError addr true ring idx) s (fun t => t = s.blockReadError addr true ring idx)) ∧
  (∀ (s : State) (addr : Nat), s.pageRetired addr = false → s.kvs.retired.length < 4096 →
    addr / 65536 * 65536 ∈ (s.retirePage addr).kvs.retired)

/-- KVS_SET_PART, POOL_ADD, POOL_CLEAR, POOL_READ, RETIRE_ADD and RETIRE_READ (R253, R255, R267, R268, R270). -/
def Obligations.CellarCommands : Prop :=
  (∀ (s : State) (p base size n : Nat), Taken s .kvs → p < 128 → base = (s.reg kvsPage 0x140).field 63 12 * 4096 →
    size = (s.reg kvsPage 0x148).field 63 40 * 4096 → n = (s.reg kvsPage 0x148).field 25 0 →
    (n ≤ 2 ^ 25 → 64 * n ≤ size → s.inP0 base size = true →
      ((s.part p).state = .building ∨ ((s.part p).state = .active ∧
        ∀ e, e ∈ s.kvs.seqs → e.1 / 2 ^ 25 = p → e.2.state = .free)) →
      exec (.kvsSetPart p) s = .next ((s.setPart p { s.part p with kvs := some (base, size, n) }).cmdEnd .kvs 1 p .ok)) ∧
    ((2 ^ 25 < n ∨ size < 64 * n) → exec (.kvsSetPart p) s = .next (s.cmdEnd .kvs 1 p .format)) ∧
    (n ≤ 2 ^ 25 → 64 * n ≤ size → s.inP0 base size = false → exec (.kvsSetPart p) s = .next (s.cmdEnd .kvs 1 p .accessViolation))) ∧
  (∀ (s : State) (p n slot : Nat) (gs : List Nat) (x y : Pool), Taken s .kvs → p < 128 → n < 4 → s.pool (poolKey p n) = some x →
    slot = (s.reg kvsPage 0x140).field 31 0 → x.slot = slot → slot % 64 = 0 → 1024 ≤ slot → slot ≤ 262144 →
    gs = (List.range ((s.reg kvsPage 0x140).field 47 32)).map (fun i => (s.reg kvsPage 0x140).field 63 48 + i) → gs ≠ [] →
    (s.reg kvsPage 0x140).field 63 48 + gs.length ≤ 1536 → (∀ g, g ∈ gs → s.owns p tyGranule g = true) → (s.part p).kvs ≠ none →
    (∀ g, g ∈ gs → s.granInUse p g = false) → y = { x with grans := x.grans ++ gs, lowWater := (s.reg kvsPage 0x148).field 31 0 } →
    ((s.kvs.extents.filter (fun e => seqPart e.1 = p)).map (fun e => e.2.1 + e.2.2)).foldl max (s.extentRange p).1 +
      4 * (y.slots - x.slots) ≤ (s.extentRange p).2 →
    Gives (.poolAdd p n) s (fun t => ∃ z, t.pool (poolKey p n) = some z ∧ z.grans = x.grans ++ gs ∧ z.slot = slot ∧
      z.refs = x.refs ∧ z.lowWater = (s.reg kvsPage 0x148).field 31 0 ∧
      ∀ k, k ∈ s.excluded y gs → k ∈ z.poison)) ∧
  (∀ (s : State) (p n : Nat) (x : Pool), Taken s .kvs → p < 128 → n < 4 → s.pool (poolKey p n) = some x →
    (x.refs = [] → Gives (.poolClear p n) s (fun t => t.pool (poolKey p n) = none ∧
      ∀ k, k ≠ poolKey p n → t.pool k = s.pool k)) ∧
    (x.refs ≠ [] → exec (.poolClear p n) s = .next (s.cmdEnd .kvs 3 p .state)) ∧
    Gives (.poolRead p n) s (fun t => OnlyRegs s t ∧ (t.reg kvsPage 0x160).field 63 32 = x.slots % 2 ^ 32 ∧
      (t.reg kvsPage 0x160).field 31 0 = x.free % 2 ^ 32 ∧ (t.reg kvsPage 0x168).field 31 0 = x.slot % 2 ^ 32)) ∧
  (∀ (s : State) (p n : Nat), Taken s .kvs → p < 128 → n < 4 → s.pool (poolKey p n) = none →
    exec (.poolRead p n) s = .next (s.cmdEnd .kvs 4 p .state) ∧ exec (.poolClear p n) s = .next (s.cmdEnd .kvs 3 p .ok)) ∧
  (∀ (s : State) (a : Nat), Taken s .kvs → a = (s.reg kvsPage 0x140).toNat →
    (a % 65536 = 0 → a ≤ 0x5FFFFFFFFF → a ∉ s.kvs.retired → s.kvs.retired.length < 4096 → Gives .retireAdd s (fun t =>
      t.kvs.retired = s.kvs.retired ++ [a])) ∧
    (a ∈ s.kvs.retired → a % 65536 = 0 → a ≤ 0x5FFFFFFFFF → exec .retireAdd s = .next (s.cmdEnd .kvs 5 0 .ok)) ∧
    ((a % 65536 ≠ 0 ∨ 0x5FFFFFFFFF < a) → exec .retireAdd s = .next (s.cmdEnd .kvs 5 0 .format)) ∧
    exec .retireRead s = .next ((s.setReg kvsPage 0x160 (Word.of (s.kvs.retired.getD ((s.reg kvsPage 0x140).field 11 0) 0))).cmdEnd
      .kvs 6 0 .ok))
/-! ## Decode attention engine (14_decode_attention.md) -/

/-- ATTEND, INBOX_OPEN, INBOX_CLOSE, INBOX_CLOSED, INBOX_QUERY and INBOX_TAKE, and the checks of a request
(R273, R275 to R277, R290, R291). -/
def Obligations.AttentionRequests : Prop :=
  -- ATTEND reads its record, header first, and the request is taken
  (∀ (s : State) (ring idx a n : Nat) (w : Work) (h : List Word), Started s ring idx 5 1 w → w.ring = ring → w.idx = idx →
    (∀ r, r ∈ s.att.reqs → r.origin ≠ .attend ring idx) → a = (wordAt w.words 2).toNat → wb w.words 3 63 = true →
    h = bytesWords 8 (s.bytes a 64) → n = recordLen h (s.seq (aSeq h)).shape →
    (a % 64 ≠ 0 → exec (.attend ring idx) s = .next (s.workFail ring idx .format)) ∧
    (a % 64 = 0 → s.mayReach w.part w.vi .hbm a 64 = false → exec (.attend ring idx) s = .next (s.workFail ring idx .accessViolation)) ∧
    (a % 64 = 0 → s.mayReach w.part w.vi .hbm a 64 = true → s.firstBad a 64 = none → s.mayReach w.part w.vi .hbm a n = true →
      s.firstBad a n = none → s.attCheck w.part w.vi h false 65536 true = .ok → exec (.attend ring idx) s =
        .next ((s.updWork ring idx (fun v => { v with phase := if !aResp h && decide (aSpace h = 1) then .fetching else .running })).takeReq
          w.part (.attend ring idx) w.vi 65536 true (s.bytes a n))) ∧
    (∀ b, a % 64 = 0 → s.mayReach w.part w.vi .hbm a 64 = true → s.firstBad a 64 = some b →
      exec (.attend ring idx) s = .next (s.operandFailed ring idx true b .poisoned)) ∧
    (∀ st, a % 64 = 0 → s.mayReach w.part w.vi .hbm a 64 = true → s.firstBad a 64 = none → st ≠ .ok →
      s.attCheck w.part w.vi h false 65536 (s.mayReach w.part w.vi .hbm a n) = st → exec (.attend ring idx) s =
        .next ((s.updWork ring idx (fun v => { v with phase := if !aResp h && decide (aSpace h = 1) then .fetching else .running })).takeReq
          w.part (.attend ring idx) w.vi 65536 (s.mayReach w.part w.vi .hbm a n) (s.bytes a 64)))) ∧
  -- the checks
  (∀ (s : State) (p limit : Nat) (v : Option Nat) (h : List Word) (inbox ok : Bool),
    ((aEnd h ≤ aFirst h ∨ (aWin h = true ∧ aWindow h = 0) ∨ f32NotFinite (aScale h) = true ∨
      (aCap h = true ∧ capOk (aCapVal h) = false) ∨ (aResp h = false ∧ (aSpace h = 3 ∨ aOut h % 64 ≠ 0 ∨
        (inbox = true ∧ aSpace h = 1)))) → s.attCheck p v h inbox limit ok = .format) ∧
    (s.attCheck p v h inbox limit ok = .ok → (s.seq (aSeq h)).state = .active ∧ aSeq h / 2 ^ 25 = p ∧
      aLayer h < (s.seq (aSeq h)).shape.layers ∧ aGroup h < (s.seq (aSeq h)).shape.g ∧ (s.seq (aSeq h)).lowTok ≤ aFirst h ∧
      aEnd h ≤ s.tokens (s.seq (aSeq h)) (aLayer h) ∧ recordLen h (s.seq (aSeq h)).shape ≤ 65536 ∧
      recordLen h (s.seq (aSeq h)).shape ≤ limit ∧ ok = true ∧ (aResp h = true → s.owns p tyConn (aConn h) = true ∧
        (s.conn (aConn h)).state = .active))) ∧
  -- a request that is taken records its counts and is cut into chunks; its sequence is in use
  (∀ (s : State) (p limit : Nat) (o : ReqFrom) (vi : Option Nat) (ok : Bool) (rec_ : List Byte) (h : List Word),
    h = bytesWords 8 rec_ → s.attCheck p vi h o.isInbox limit ok = .ok → s.spanPoisoned h (s.seq (aSeq h)) = none →
    ∃ r, (s.takeReq p o vi limit ok rec_).att.reqs = s.att.reqs ++ [r] ∧ r.id = s.att.nextReq ∧ r.part = p ∧ r.origin = o ∧
      r.hdr = h ∧ r.body = rec_ ∧ r.tokens = s.tokens (s.seq (aSeq h)) (aLayer h) ∧ r.lowTok = (s.seq (aSeq h)).lowTok ∧
      r.chunks = List.replicate (chunkCount h) .waiting ∧ r.use = some s.kvs.nextUse ∧ r.status = .ok ∧ r.sending = false ∧
      r.blocks = s.spanBlocks h (s.seq (aSeq h)) ∧
      ((s.takeReq p o vi limit ok rec_).seq (aSeq h)).users = (s.seq (aSeq h)).users ++ [s.kvs.nextUse]) ∧
  -- the inboxes
  (∀ (s : State) (ring idx n o base ls sl : Nat) (w : Work), Started s ring idx 5 2 w → w.ring = ring → w.idx = idx →
    n = wf w.words 3 63 54 → o = wf w.words 3 13 0 → base = (wordAt w.words 2).toNat → ls = wf w.words 3 53 50 →
    sl = wf w.words 3 49 45 →
    (base % 4096 = 0 → 4 ≤ ls → ls ≤ 12 → 12 ≤ sl → sl ≤ 16 → s.ownsHbm w.part base (2 ^ (ls + sl)) = true →
      s.owns w.part tySync o = true → s.inbox n = none →
      ((s.part w.part).state ≠ .draining → Gives (.inboxOpen ring idx) s (fun t =>
        t.inbox n = some ⟨w.part, base, ls, sl, o, s.syncVal o, 0, false, none⟩ ∧ (∀ k, k ≠ n → t.inbox k = s.inbox k) ∧
        t.att.reqs = s.att.reqs ∧ ∃ v, t.workAt ring idx = some v ∧ v.phase = .done ∧ v.status = .ok)) ∧
      ((s.part w.part).state = .draining → exec (.inboxOpen ring idx) s = .next (s.workDone ring idx .ok 0 0 0))) ∧
    ((base % 4096 ≠ 0 ∨ ls < 4 ∨ 12 < ls ∨ sl < 12 ∨ 16 < sl) → exec (.inboxOpen ring idx) s = .next (s.workFail ring idx .format)) ∧
    (base % 4096 = 0 → 4 ≤ ls → ls ≤ 12 → 12 ≤ sl → sl ≤ 16 → s.ownsHbm w.part base (2 ^ (ls + sl)) = true →
      s.owns w.part tySync o = true → s.inbox n ≠ none → exec (.inboxOpen ring idx) s = .next (s.workFail ring idx .state))) ∧
  (∀ (s : State) (ring idx n : Nat) (w : Work) (x : Inbox), Started s ring idx 5 3 w → w.ring = ring → w.idx = idx →
    n = wf w.words 2 9 0 →
    (s.inbox n = some x → x.part = w.part → x.closer = none → exec (.inboxClose ring idx) s =
      .next ((s.updInbox n (fun y => { y with closer := some (ring, idx) })).updWork ring idx (fun v => { v with
        phase := .running }))) ∧
    (s.inbox n = some x → x.part ≠ w.part → exec (.inboxClose ring idx) s = .next (s.workFail ring idx .accessViolation)) ∧
    (s.inbox n = none → exec (.inboxClose ring idx) s = .next (s.workFail ring idx .state))) ∧
  (∀ (s : State) (n ring idx : Nat) (x : Inbox) (w : Work), s.inbox n = some x → x.closer = some (ring, idx) →
    s.workAt ring idx = some w →
    (s.inboxBusy n = false → Gives (.inboxClosed n) s (fun t => t.inbox n = none ∧
      ∃ v, t.workAt ring idx = some v ∧ v.phase = .done ∧ v.status = .ok)) ∧
    (s.inboxBusy n = true → exec (.inboxClosed n) s = .next s)) ∧
  (∀ (s : State) (ring idx : Nat) (w : Work) (x : Inbox), Started s ring idx 5 4 w → w.ring = ring → w.idx = idx →
    s.inbox (wf w.words 2 9 0) = some x → x.part = w.part → exec (.inboxQuery ring idx) s = .next (s.workDone ring idx .ok 0
      (((0 : Word).setBit 63 true).setField 31 0 x.taken) (x.baseVal + Word.of (x.taken + 1)))) ∧
  (∀ (s : State) (n a : Nat) (x : Inbox), s.inbox n = some x → a = x.base + x.taken % 2 ^ x.logSlots * 2 ^ x.slotLog →
    (x.closer = none → x.released = true → s.flt.safe = false → s.dataHeld = false →
      exec (.inboxTake n) s = .next ((s.updInbox n (fun y => { y with
        taken := y.taken + 1, released := decide (y.taken + 1 + 1 ≤ (s.syncVal x.prodSync - x.baseVal).toNat) })).takeReq x.part
        (.inbox n x.taken) none (2 ^ x.slotLog) true (s.bytes a (max 64 (min (recordLen (bytesWords 8 (s.bytes a 64))
          (s.seq (aSeq (bytesWords 8 (s.bytes a 64)))).shape) (2 ^ x.slotLog)))))) ∧
    ((x.closer ≠ none ∨ x.released = false) → exec (.inboxTake n) s = .next s)) ∧
  -- a wait once met stays met, whatever the object is set to afterwards
  (∀ (s : State) (n o : Nat) (x : Inbox), s.inbox n = some x → (s.syncSettle o).inbox n = some { x with
    released := x.released || (decide (x.prodSync = o) && decide (x.taken + 1 ≤ (s.syncVal o - x.baseVal).toNat)) })

/-- CHUNK_START and CHUNK_DONE, and what a chunk, the merge and the response are (R280 to R283, R285 to R289). -/
def Obligations.AttentionResults : Prop :=
  -- a free unit takes the first chunk that waits of the next partition in turn
  (∀ (s : State) (u p i : Nat) (r : Req), u < 32 → (∀ x, x ∈ s.att.reqs → x.chunkOn u = none) → s.flt.safe = false →
    s.dataHeld = false → (s.gate (10 + u / 16)).isOpen = true → s.nextAttPart = some p →
    s.att.reqs.find? (fun r => decide (r.part = p) && r.ready) = some r →
    i = r.chunks.findIdx (fun c => decide (c = .waiting)) → Gives (.chunkStart u) s (fun t =>
      t.att.reqs = s.att.reqs.map (fun y => if y.id = r.id then { y with chunks := y.chunks.set i (.running u) } else y) ∧
      t.att.lastPart = p ∧ t.att.inboxes = s.att.inboxes ∧ ({ t with att := s.att } : State) = s)) ∧
  (∀ (s : State) (p : Nat), s.nextAttPart = some p → ∃ j, j < 128 ∧ p = (s.att.lastPart + 1 + j) % 128 ∧
    (∃ r, r ∈ s.att.reqs ∧ r.part = p ∧ r.ready = true) ∧
    ∀ i, i < j → ∀ r, r ∈ s.att.reqs → r.part = (s.att.lastPart + 1 + i) % 128 → r.ready = false) ∧
  -- a unit finishes its chunk; the last chunk of a request brings its response
  (∀ (s : State) (u c : Nat) (r x : Req), s.att.reqs.find? (fun r => (r.chunkOn u).isSome) = some r → r.chunkOn u = some c →
    x = { r with chunks := r.chunks.set c (.done (s.foldChunk r (s.seq (aSeq r.hdr)).shape c)) } →
    (∀ b, s.chunkPoisoned r c = some b → exec (.chunkDone u) s = .next (s.reqFail r .poisoned (b * 16))) ∧
    (s.chunkPoisoned r c = none → x.complete = false → exec (.chunkDone u) s = .next (((s.count ⟨.att, u / 16⟩ 3 1).count ⟨.att, u / 16⟩ 4
      ((chunkTokens r.hdr c).2 - (chunkTokens r.hdr c).1)).updReq r.id (fun _ => x))) ∧
    (s.chunkPoisoned r c = none → x.complete = true → exec (.chunkDone u) s = .next ((((s.count ⟨.att, u / 16⟩ 3 1).count ⟨.att, u / 16⟩ 4
      ((chunkTokens r.hdr c).2 - (chunkTokens r.hdr c).1)).updReq r.id (fun _ => x)).reqFinish x))) ∧
  -- chunk c of the span holds the tokens from 1,024 c on, cut by token number alone
  (∀ (h : List Word) (c t : Nat), aFirst h < aEnd h → c < chunkCount h →
    ((chunkTokens h c).1 ≤ t ∧ t < (chunkTokens h c).2 ↔
      aFirst h ≤ t ∧ t < aEnd h ∧ t / 1024 = aFirst h / 1024 + c)) ∧
  (∀ (h : List Word) (q t : Nat), unmasked h q t = true ↔ (aCausal h = false ∨ (t : Int) ≤ aQpos h + q) ∧
    (aWin h = false ∨ (t : Int) > aQpos h + q - aWindow h)) ∧
  -- a result rests on the record and the stored bytes alone
  (∀ (s t : State) (r : Req) (sh : Shape) (c : Nat), s.hbm = t.hbm → s.foldChunk r sh c = t.foldChunk r sh c) ∧
  (∀ (s : State) (r x : Req) (sh : Shape) (c : Nat), x.hdr = r.hdr → x.body = r.body → x.blocks = r.blocks →
    s.foldChunk x sh c = s.foldChunk r sh c) ∧
  (∀ (s : State) (r : Req) (sh : Shape) (c : Nat), (s.foldChunk r sh c).length = aRows r.hdr sh) ∧
  -- exp, the fold of a block and the merge
  (f32Exp 0 = 0x3F800000 ∧ f32Exp f32NegInf = 0) ∧
  (∀ (x : Partial), x.block [] = x) ∧
  (∀ (x : Partial) (sc : BitVec 32) (v : List (BitVec 32)), (x.block [(sc, v)]).m = f32Max x.m sc ∧
    (x.block [(sc, v)]).l = f32Add (f32Mul x.l (f32Exp (f32Sub x.m (f32Max x.m sc)))) (f32Exp (f32Sub sc (f32Max x.m sc))) ∧
    (x.block [(sc, v)]).a = ((x.a.map (fun e => f32Mul e (f32Exp (f32Sub x.m (f32Max x.m sc))))).zip v).map (fun e =>
      f32Add e.1 (f32Mul (f32Exp (f32Sub sc (f32Max x.m sc))) e.2))) ∧
  (∀ x y : Partial, (x.m = f32NegInf → x.merge y = { y with nanRow := x.nanRow || y.nanRow }) ∧
    (y.m = f32NegInf → x.m ≠ f32NegInf → x.merge y = { x with nanRow := x.nanRow || y.nanRow }) ∧
    (x.m ≠ f32NegInf → y.m ≠ f32NegInf → (x.merge y).m = f32Max x.m y.m ∧
      (x.merge y).l = f32Add (f32Mul x.l (f32Exp (f32Sub x.m (f32Max x.m y.m)))) (f32Mul y.l (f32Exp (f32Sub y.m (f32Max x.m y.m)))) ∧
      (x.merge y).nanRow = (x.nanRow || y.nanRow))) ∧
  -- the tree: neighbours in pairs, an odd last one carried
  (∀ (d : Nat) (a b c e f : Partial), mergeTree 5 d [a, b, c, e, f] = ((a.merge b).merge (c.merge e)).merge f) ∧
  (∀ (d k : Nat) (ps : List Partial), ps ≠ [] → ps.length ≤ k → mergeTree (k + 1) d ps = mergeTree k d ps) ∧
  (∀ ps : List Partial, (mergeLevel ps).length = (ps.length + 1) / 2) ∧
  -- the outputs of a row
  (∀ x : Partial, (x.nanRow = true → x.outputs = (x.a.flatMap (fun _ => leBytes 2 0x7FC0), 0x7FC00000)) ∧
    (x.nanRow = false → x.m = f32NegInf → x.outputs = (x.a.flatMap (fun _ => [0, 0]), f32NegInf)) ∧
    (x.nanRow = false → x.m ≠ f32NegInf → x.outputs.2 = f32Add x.m (f32Ln x.l))) ∧
  -- the response in HBM: the outputs, then the header, then DONE_SYNC
  (∀ (s : State) (r : Req) (outputs : List Byte), s.targetCheck r.part r.vi r.hdr r.origin.isInbox = .ok → aResp r.hdr = false →
    aSpace r.hdr = 0 → (aDoneEn r.hdr = false → s.deliver r outputs =
        ((s.setBytes (aOut r.hdr + 64) outputs).setBytes (aOut r.hdr) r.header).reqEnd r .ok) ∧
      (aDoneEn r.hdr = true → s.deliver r outputs = (((s.setBytes (aOut r.hdr + 64) outputs).setBytes (aOut r.hdr)
        r.header).syncAdd (aDone r.hdr) 1).reqEnd r .ok)) ∧
  (∀ (s : State) (r : Req) (st : Status) (outputs : List Byte), st ≠ .ok →
    s.targetCheck r.part r.vi r.hdr r.origin.isInbox = st → s.deliver r outputs = s.reqEnd r st) ∧
  (∀ r : Req, r.header.length = 64 ∧ leNat (r.header.take 4) = aTag r.hdr ∧ r.header.getD 7 0 = BitVec.ofNat 8 r.status.code) ∧
  -- a failed delivery of an inbox is reported once in 1,800,000 ENG cycles
  (∀ (s : State) (r : Req) (n k f t : Nat) (st : Status), Tab.get (0, none) s.att.respFails n = (f, some t) →
    s.cyc 10 < t + 1800000 → s.respFailed r n k st =
      { s with att := { s.att with respFails := Tab.set (0, none) s.att.respFails n (f + 1, some t) } })
/-! ## Kiln checkpoint and restore (15_kiln_checkpoint.md) -/

/-- STEP_OPEN, REGION_COPY_COMPLETE, CONTAINER_WRITE_ACK, DRAIN_TIMEOUT, STEP_ABANDON and CKP_QUERY (R293, R296, R299, R300,
R302 to R306, R311, R312). -/
def Obligations.CheckpointSteps : Prop :=
  -- STEP_OPEN reads its list and is checked
  (∀ (s : State) (ring idx a : Nat) (w : Work) (hd : List Word) (es : List (List Word)) (n : Option Nat),
    Started s ring idx 6 1 w → w.ring = ring → w.idx = idx → (∀ x, x ∈ s.ckp.steps → x.ring = ring → x.idx = idx → x.abandoned ≠ none) →
    a = kList w.words → hd = s.words a 8 → es = s.rgEntries a (rgCount hd) → n = s.nsOf w.part (kTarget w.words) →
    (a % 256 ≠ 0 → exec (.stepOpen ring idx) s = .next (s.workFail ring idx .format)) ∧
    (a % 256 = 0 → s.ownsHbm w.part a 64 = true → s.ownsHbm w.part a (64 + 256 * rgCount hd) = true →
      (s.firstBad a (64 + 256 * rgCount hd) ≠ none → exec (.stepOpen ring idx) s = .next (s.workFail ring idx .poisoned)) ∧
      (s.firstBad a (64 + 256 * rgCount hd) = none → s.stepCheck w.part w.vi w.words hd es n = .ok → exec (.stepOpen ring idx) s = .next ((s.stepStart w hd es
        (if kRemote w.words then kTarget w.words else n.getD 0)).stepAsk s.ckp.nextSid)) ∧
      (∀ st, st ≠ .ok → s.firstBad a (64 + 256 * rgCount hd) = none → s.stepCheck w.part w.vi w.words hd es n = st →
        exec (.stepOpen ring idx) s = .next (s.workFail ring idx st)))) ∧
  (∀ (s : State) (p : Nat) (v : Option Nat) (ws hd : List Word) (es : List (List Word)) (n : Option Nat),
    ((rgListBad false es = true ∨ kSize ws % 4096 ≠ 0 ∨ (kRemote ws = true ∧ kBase ws % 4096 ≠ 0)) →
      s.stepCheck p v ws hd es n = .format) ∧
    (s.stepCheck p v ws hd es n = .ok → (s.openSteps p).length < 2 ∧ (∀ x, x ∈ s.openSteps p → x.step ≠ kStep ws) ∧
      (∀ e, e ∈ es → s.owns p tySync (rgFence e) = true ∧ s.mayReach p v (rgSp e) (rgAddr e) (rgLen e) = true ∧ 1 ≤ rgLen e ∧
        rgLen e ≤ 2 ^ 40 ∧ rgAddr e % 65536 = 0 ∧ ∀ i, i < rgNdim e → 1 ≤ rgExtent e i ∧ rgStart e i + rgExtent e i ≤ rgShape e i) ∧
      s.ckp.steps.length < 256 ∧ (s.part p).stage ≠ [] ∧ (kRemote ws = true → (s.conn (kConn ws)).state = .active))) ∧
  -- a step that opens holds its regions as shards in list order, and invalidates the commit block
  (∀ (s : State) (w : Work) (hd : List Word) (es : List (List Word)) (target : Nat) (pages : List Nat) (u : State),
    4096 + ((shardLayout 4096 es).map (fun r => up4k r.stored)).sum + up4k (64 + 256 * es.length) ≤ kSize w.words →
    s.stageTake w.part (((shardLayout 4096 es).map (fun r => (r.stored + 65535) / 65536)).sum) = some (pages, u) →
    ∃ x, (s.stepStart w hd es target).ckp.steps = s.ckp.steps ++ [x] ∧ x.sid = s.ckp.nextSid ∧ x.part = w.part ∧
      x.step = kStep w.words ∧ x.runId = wordAt hd 0 ∧ x.regions = givePages (shardLayout 4096 es) pages ∧ x.phase = 1 ∧
      x.abandoned = none ∧ x.openedAt = s.cyc 12 ∧
      (kRemote w.words = true → ((s.stepStart w hd es target).conn (kConn w.words)).outq = (s.conn (kConn w.words)).outq ++
        writeAll (mtuBytes (s.conn (kConn w.words)).mtu) true target 0 (kBase w.words) (.step s.ckp.nextSid (phaseShard 1))
          (List.replicate 4096 0))) ∧
  (∀ (s : State) (w : Work) (hd : List Word) (es : List (List Word)) (target : Nat),
    kSize w.words < 4096 + ((shardLayout 4096 es).map (fun r => up4k r.stored)).sum + up4k (64 + 256 * es.length) →
    s.stepStart w hd es target = s.workFail w.ring w.idx .resource) ∧
  (∀ (off i : Nat) (es : List (List Word)) (r : Region), (shardLayout off es)[i]? = some r →
    r.off = off + (((shardLayout off es).take i).map (fun r => up4k r.stored)).sum ∧ es[i]? = some r.entry ∧
    r.stored = stagedLen (rgNarrow r.entry) (rgLen r.entry)) ∧
  -- narrowing
  (∀ (cfg : Word) (d : List Byte), narrowData cfg 0 d = (d, 0, 0, 0)) ∧
  (∀ (cfg : Word) (k : Nat) (d : List Byte), k < 3 → d.length % 4 = 0 → (narrowData cfg k d).1.length = stagedLen k d.length) ∧
  -- a region's copy: its fence is released once, when its staged form is whole; an error abandons the step
  (∀ (s : State) (p step i : Nat) (x : Step) (r : Region), s.stepNamed p step = some x → x.regions[i]? = some r →
    r.copied = false → (rgSp r.entry = .hbm → x.hbmBefore i = false → s.firstBad (rgAddr r.entry) (rgLen r.entry) ≠ none →
      exec (.regionCopyComplete p step i none) s = .next (s.stepAbandon x.sid .poisoned false)) ∧
    (rgSp r.entry = .hbm → x.hbmBefore i = false → s.firstBad (rgAddr r.entry) (rgLen r.entry) = none → exec (.regionCopyComplete p step i none) s =
      .next (s.regionStage x i r (s.bytes (rgAddr r.entry) (rgLen r.entry)))) ∧
    (∀ st, exec (.regionCopyComplete p step i (some st)) s = .next (s.stepAbandon x.sid st false))) ∧
  (∀ (s : State) (p step i : Nat) (x : Step) (r : Region) (err : Option Status), s.stepNamed p step = some x →
    x.regions[i]? = some r → r.copied = true → exec (.regionCopyComplete p step i err) s = .next s) ∧
  (∀ (s : State) (x : Step) (i : Nat) (r : Region) (data : List Byte), s.stepOf x.sid = some x → x.regions[i]? = some r →
    (s.regionStage x i r data).syncVal (rgFence r.entry) = s.syncVal (rgFence r.entry) + 1 ∧
    (∀ o, o ≠ rgFence r.entry → (s.regionStage x i r data).syncVal o = s.syncVal o) ∧
    ∃ y, (s.regionStage x i r data).stepOf x.sid = some y ∧ ∃ z, y.regions[i]? = some z ∧ z.copied = true ∧
      z.crc = crc64 (narrowData x.numCfg (rgNarrow r.entry) data).1 ∧ z.pages = r.pages ∧ z.off = r.off) ∧
  -- the phases: shards after the invalidation, the manifest after every shard, the record after the manifest
  (∀ (s : State) (p step shard : Nat) (x : Step), s.stepNamed p step = some x →
    (x.phase = 1 → x.phaseAcked = false → s.stepWrite x (phaseShard 1) = false → exec (.containerWriteAck p step shard .ok) s =
      .next ((s.updStep x.sid (fun y => { y with phase := 2 })).stepAdvance x.sid)) ∧
    (∀ r, x.phase = 2 → x.regions[shard]? = some r → r.issued = true → r.acked = false → s.stepWrite x shard = false →
      exec (.containerWriteAck p step shard .ok) s = .next ((((s.freePages r.pages).updStep x.sid (fun y => { y with
        regions := y.regions.modify shard (fun z => { z with acked := true }) })).count1 .ckp 2).stepAdvance x.sid) ∧
      ∀ st, st ≠ .ok → exec (.containerWriteAck p step shard st) s = .next (s.stepWriteFailed x.sid st)) ∧
    (x.phase = 3 → x.phaseAcked = false → s.stepWrite x (phaseShard 3) = false → exec (.containerWriteAck p step shard .ok) s =
      .next ((s.updStep x.sid (fun y => { y with phaseAcked := true })).stepAdvance x.sid)) ∧
    (x.phase = 4 → x.phaseAcked = false → s.stepWrite x (phaseShard 4) = false → x.commitRetry = none →
      exec (.containerWriteAck p step shard .ok) s = .next (s.stepCommit x)) ∧
    (∀ ph, ph = 1 ∨ ph = 3 ∨ ph = 4 → x.phase = ph → s.stepWrite x (phaseShard ph) = true →
      exec (.containerWriteAck p step shard .ok) s = .next s)) ∧
  (∀ (s : State) (sid : Nat) (x : Step), s.stepOf sid = some x → x.abandoned = none →
    (x.phase = 1 → s.stepAdvance sid = s) ∧
    (x.phase = 2 → (∀ r, r ∈ x.regions → r.acked = true) → s.stepAdvance sid = (s.updStep sid (fun y => { y with
      phase := 3, phaseAcked := false })).stepIssue x (phaseShard 3) x.manifestOff (pad4k x.manifest)) ∧
    (x.phase = 3 → (x.phaseAcked = false ∨ s.earlierOpen x = true) → s.stepAdvance sid = s) ∧
    (x.phase = 3 → x.phaseAcked = true → s.earlierOpen x = false → s.stepAdvance sid = (s.updStep sid (fun y => { y with
      phase := 4, phaseAcked := false })).stepIssue x (phaseShard 4) 0 x.commit)) ∧
  (∀ x : Step, x.commit.length = 4096 ∧ leNat ((x.commit.drop 4).take 4) = 0x4B4C4E43 ∧
    leNat ((x.commit.drop 56).take 8) = (crc64 (x.commit.take 56)).toNat ∧
    leNat ((x.commit.drop 40).take 8) = (crc64 x.manifest).toNat ∧ leNat ((x.commit.drop 8).take 8) = x.step.toNat ∧
    ((∀ r, r ∈ x.regions → r.entry.length = 32) → x.manifest.length = 64 + 256 * x.regions.length)) ∧
  (∀ (s : State) (x : Step) (w : Work), s.workAt x.ring x.idx = some w →
    (∀ y, y ∈ (s.stepCommit x).ckp.steps → y.sid ≠ x.sid) ∧ ∃ v, (s.stepCommit x).workAt x.ring x.idx = some v ∧
      v.phase = .done ∧ v.status = .ok ∧ v.r0.field 63 32 = x.sat % 2 ^ 32 ∧ v.r0.field 31 0 = x.flushed % 2 ^ 32) ∧
  -- abandonment: the fences not released yet are released, once each
  (∀ (s : State) (x : Step) (w : Work) (st : Status) (unknown : Bool), s.stepOf x.sid = some x → x.abandoned = none →
    s.workAt x.ring x.idx = some w → (∀ y, y ∈ s.ckp.steps → y.ring = x.ring → y.idx = x.idx → y.sid = x.sid) →
    (∀ o, (s.stepAbandon x.sid st unknown).syncVal o = s.syncVal o +
      Word.of (x.regions.filter (fun r => !r.copied && decide (rgFence r.entry = o))).length) ∧
    ((s.stepAbandon x.sid st unknown).reg ckpPage 0x30).bit 9 = true ∧
    ∃ v, (s.stepAbandon x.sid st unknown).workAt x.ring x.idx = some v ∧ v.phase = .done ∧ v.status = st ∧
      v.detail = BitVec.ofNat 32 (if unknown then 2 ^ 31 else 0)) ∧
  (∀ (s : State) (p step : Nat) (x : Step), s.stepNamed p step = some x →
    (x.drainTo ≠ 0 → x.openedAt + x.drainTo * 65536 ≤ s.cyc 12 →
      exec (.drainTimeout p step) s = .next (s.stepAbandon x.sid .timeout false)) ∧
    ((x.drainTo = 0 ∨ s.cyc 12 < x.openedAt + x.drainTo * 65536) → exec (.drainTimeout p step) s = .next s)) ∧
  (∀ (s : State) (ring idx : Nat) (w : Work), Started s ring idx 6 2 w → w.ring = ring → w.idx = idx →
    (∀ x, s.stepNamed w.part (wordAt w.words 2).toNat = some x →
      (x.phase ≠ 4 → exec (.stepAbandon ring idx) s =
        .next ((s.stepAbandon x.sid .abortedByReset false).workDone ring idx .ok 0 0 0)) ∧
      (x.phase = 4 → exec (.stepAbandon ring idx) s = .next (s.workFail ring idx .notAborted))) ∧
    (s.stepNamed w.part (wordAt w.words 2).toNat = none → exec (.stepAbandon ring idx) s = .next (s.workFail ring idx .state))) ∧
  (∀ (s : State) (ring idx : Nat) (w : Work) (x : Step), Started s ring idx 6 4 w → w.ring = ring → w.idx = idx →
    s.stepNamed w.part (wordAt w.words 2).toNat = some x → exec (.ckpQuery ring idx) s = .next (s.workDone ring idx .ok 0
      (((0 : Word).setField 63 62 (if 4 ≤ x.phase then 3 else if x.regions.all (fun r => r.copied) then 2 else 1)).setField 31 0
        (x.regions.filter (fun r => r.copied)).length) (Word.of (x.regions.filter (fun r => r.acked)).length)))

/-- RESTORE, SET_STAGE, STAGE_CLEAR and STAGE_READ (R300, R307 to R310, R312, R314). -/
def Obligations.RestoreAndStaging : Prop :=
  -- RESTORE is taken with its lists, then worked out from what it has read
  (∀ (s : State) (ring idx a b n : Nat) (w : Work) (sh dh : List Word), Started s ring idx 6 3 w → w.ring = ring → w.idx = idx →
    w.ctx = .none → a = (wordAt w.words 2).toNat → b = (wordAt w.words 3).toNat → sh = s.words a 8 → dh = s.words b 8 →
    n = wf sh 1 5 0 + 1 →
    ((a % 64 ≠ 0 ∨ b % 256 ≠ 0 ∨ (wordAt w.words 4).toNat % 64 ≠ 0) →
      exec (.restore ring idx) s = .next (s.workFail ring idx .format)) ∧
    (a % 64 = 0 → b % 256 = 0 → (wordAt w.words 4).toNat % 64 = 0 → s.ownsHbm w.part a 64 = true → s.ownsHbm w.part b 64 = true →
      s.ownsHbm w.part a (64 + 32 * n) = true → s.ownsHbm w.part b (64 + 256 * rgCount dh) = true →
      ((s.firstBad a (64 + 32 * n) ≠ none ∨ s.firstBad b (64 + 256 * rgCount dh) ≠ none) →
        exec (.restore ring idx) s = .next (s.workFail ring idx .poisoned)) ∧
      (s.firstBad a (64 + 32 * n) = none → s.firstBad b (64 + 256 * rgCount dh) = none → s.restoreCheck w sh dh ((List.range n).map (fun i => s.words (a + 64 + 32 * i) 4)) (s.rgEntries b (rgCount dh)) = .ok →
        Gives (.restore ring idx) s (fun t => ({ t with work := s.work } : State) = s ∧ ∃ v, t.workAt ring idx = some v ∧
          v.ctx = .restore [] none none 0 none ∧ bufBytes v.buf srcListKey (64 + 32 * n) = s.bytes a (64 + 32 * n) ∧
          bufBytes v.buf dstListKey (64 + 256 * rgCount dh) = s.bytes b (64 + 256 * rgCount dh))) ∧
      (∀ st, st ≠ .ok → s.firstBad a (64 + 32 * n) = none → s.firstBad b (64 + 256 * rgCount dh) = none → s.restoreCheck w sh dh ((List.range n).map (fun i => s.words (a + 64 + 32 * i) 4))
          (s.rgEntries b (rgCount dh)) = st → exec (.restore ring idx) s = .next (s.workFail ring idx st)))) ∧
  (∀ (s : State) (ring idx : Nat) (w : Work) (fails : List (Nat × Status)) (rd : Option (Nat × Nat × Nat)) (at_ : Option (BitVec 32)) (k : Nat)
      (m : Option (Nat × Nat)) (l : List Source), Started s ring idx 6 3 w → w.ring = ring → w.idx = idx →
    w.ctx = .restore fails rd at_ k m → w.sources w.runId (wordAt w.words 5).toNat w.nsrc = .ok l →
    (∀ c, w.candidate l w.dests (stepsOf (fun x => x.valid && decide (x.status = .ok)) l) = .ok c →
      exec (.restore ring idx) s = .next (s.restoreEnd w l c)) ∧
    (∀ src st, w.candidate l w.dests (stepsOf (fun x => x.valid && decide (x.status = .ok)) l) = .error (.fails src st) →
      exec (.restore ring idx) s = .next (s.sourceFails w fails src st))) ∧
  -- the end: STATE with the candidates tried, or OK with the step restored
  (∀ (s : State) (w v : Work) (l : List Source), s.workAt w.ring w.idx = some v → ∃ x,
    (s.restoreEnd w l none).workAt w.ring w.idx = some x ∧ x.phase = .done ∧ x.status = .state ∧
    x.detail = BitVec.ofNat 32 (stepsOf (fun x => x.valid) l).length) ∧
  (∀ (s : State) (w : Work) (l : List Source) (t : Nat) (xs : List Shard), s.destsUp w = false →
    s.restoreEnd w l (some (t, xs)) = s) ∧
  (∀ (s : State) (w v : Work) (l : List Source) (t : Nat) (xs : List Shard), s.workAt w.ring w.idx = some v → s.destsUp w = true → ∃ x,
    (s.restoreEnd w l (some (t, xs))).workAt w.ring w.idx = some x ∧ x.phase = .done ∧ x.status = .ok ∧ x.r0 = Word.of t ∧
    x.r1.field 31 0 = ((stepsOf (fun x => x.valid) l).filter (fun u => t < u)).length % 2 ^ 32) ∧
  -- the candidates: the distinct steps, newest first; the first that covers every destination and verifies
  (∀ (f : Source → Bool) (l : List Source), (stepsOf f l).Pairwise (fun a b => b < a) ∧
    ∀ n, n ∈ stepsOf f l ↔ ∃ x, x ∈ l ∧ f x = true ∧ x.step.toNat = n) ∧
  (∀ (w : Work) (l : List Source) (ds : List (List Word)) (steps : List Nat) (t : Nat) (xs : List Shard),
    w.candidate l ds steps = .ok (some (t, xs)) → t ∈ steps ∧ xs = candidateShards (Word.of t) l ∧
    (∀ d, d ∈ ds → covers xs d = true) ∧ ∀ d x, d ∈ ds → x ∈ usedBy xs d →
      ∃ data, w.container x.src (wordAt x.entry 0).toNat (wordAt x.entry 4).toNat = .ok data ∧ crc64 data = wordAt x.entry 5) ∧
  (∀ (w : Work) (l : List Source) (ds : List (List Word)) (steps : List Nat), w.candidate l ds steps = .ok none →
    ∀ t, t ∈ steps → ∃ d, d ∈ ds ∧ covers (candidateShards (Word.of t) l) d = false) ∧
  (∀ (step : Word) (l : List Source) (x : Shard), x ∈ candidateShards step l ↔ ∃ y, l[x.src]? = some y ∧ y.valid = true ∧
    y.status = .ok ∧ y.step = step ∧ x.entry ∈ y.shards ∧ rgNarrow x.entry < 3) ∧
  -- an element comes from the first shard that holds it; exact before BF16 before FP8
  (∀ (d : List Word) (k : Nat) (x : Shard) (xs : List Shard) (j : Nat), x.place d k = some j → pick (x :: xs) d k = some (x, j)) ∧
  (∀ (d : List Word) (k : Nat) (x : Shard) (xs : List Shard), x.place d k = none → pick (x :: xs) d k = pick xs d k) ∧
  (∀ (step : Word) (l : List Source), ((candidateShards step l).map (fun x => rgNarrow x.entry)).Pairwise (fun a b => a ≤ b)) ∧
  -- the staging area
  (∀ (s : State) (p : Nat) (gs : List Nat), Taken s .ckp → p < 128 →
    gs = (List.range ((s.reg ckpPage 0x140).field 47 32)).map (fun i => (s.reg ckpPage 0x140).field 63 48 + i) →
    (gs ≠ [] → (∀ g, g ∈ gs → s.owns p tyGranule g = true ∧ s.granInUse p g = false) → s.openSteps p = [] →
      ((s.part p).state = .building ∨ (s.part p).state = .active) →
      exec (.setStage p) s = .next ((s.setPart p { s.part p with stage := (s.part p).stage ++ gs }).cmdEnd .ckp 1 p .ok)) ∧
    (gs = [] → exec (.setStage p) s = .next (s.cmdEnd .ckp 1 p .format)) ∧
    ((∃ g, g ∈ gs ∧ s.owns p tyGranule g = false) → exec (.setStage p) s = .next (s.cmdEnd .ckp 1 p .accessViolation))) ∧
  (∀ (s : State) (p : Nat), Taken s .ckp → p < 128 →
    (s.openSteps p ≠ [] → exec (.stageClear p) s = .next (s.cmdEnd .ckp 2 p .state)) ∧
    (s.openSteps p = [] → Gives (.stageClear p) s (fun t => (t.part p).stage = [] ∧ (∀ q, q ≠ p → t.part q = s.part q) ∧
      ∀ a, a ∈ t.ckp.used ↔ a ∈ s.ckp.used ∧ a ∉ s.stagePages p))) ∧
  (∀ (s : State) (p : Nat), Taken s .ckp → p < 128 →
    ((s.part p).stage = [] → exec (.stageRead p) s = .next (s.cmdEnd .ckp 3 p .state)) ∧
    ((s.part p).stage ≠ [] → Gives (.stageRead p) s (fun t => OnlyRegs s t ∧
      (t.reg ckpPage 0x160).field 63 32 = (s.part p).stage.length * 4096 % 2 ^ 32 ∧
      (t.reg ckpPage 0x160).field 31 0 = (s.stageFree p).length % 2 ^ 32)))
/-! ## Storage front end (16_storage_front_end.md) -/

/-- CAPSULE_IO, CAPSULE_ADMIN, NVME_CMD_START, NVME_WRITE, WRITE_ZEROES, NVME_READ, FLUSH, DATASET_MANAGEMENT, DIRTY_WRITEBACK,
DRIVE_COMPLETION, NS_EMPTY, PS_IDLE_EXPIRE and PS_EXIT_DONE (R316, R320, R321, R326 to R328, R330, R334, R335, R337). -/
def Obligations.StorageCommands : Prop :=
  -- a capsule gives one command to the queue that its ring is bound to
  (∀ (s : State) (ring idx : Nat) (w : Work) (c : Cmd), Started s ring idx 7 1 w → w.ring = ring → w.idx = idx →
    c = s.capsuleCmdOf w → (s.squeue (capsuleQ ring) = none → exec (.capsuleIo ring idx) s = .next (s.workFail ring idx .state)) ∧
    (∀ x, s.squeue (capsuleQ ring) = some x → x.closing = false → s.cmdOf (capsuleQ ring) idx = none →
      (1048576 < c.len → exec (.capsuleIo ring idx) s = .next (s.workFail ring idx .format)) ∧
      (c.len ≤ 1048576 → (c.len = 0 ∨ s.mayReach w.part w.vi (spaceOf c.hbm c.addr) c.addr c.len = true) →
        exec (.capsuleIo ring idx) s = .next ((s.updWork ring idx (fun v => { v with
          phase := if spaceOf c.hbm c.addr = .host ∧ c.len ≠ 0 then .fetching else .running })).takeIo c (some c.len))))) ∧
  (∀ (s : State) (ring idx : Nat) (w : Work) (c : Cmd) (x : SQueue), Started s ring idx 7 2 w → w.ring = ring → w.idx = idx →
    c = s.capsuleCmdOf w → s.squeue (capsuleQ ring) = some x → x.closing = false → s.cmdOf (capsuleQ ring) idx = none →
    c.len ≤ 1048576 → (c.len = 0 ∨ s.mayReach w.part w.vi (spaceOf c.hbm c.addr) c.addr c.len = true) →
    ((c.sqe.opc = 2 ∨ c.sqe.opc = 6 ∨ c.sqe.opc = 8 ∨ c.sqe.opc = 10 ∨ (c.sqe.opc = 9 ∧ c.sqe.cdw10.toNat % 256 = 6)) →
      exec (.capsuleAdmin ring idx) s = .next ((s.updWork ring idx (fun v => { v with phase := .running })).takeAdmin c)) ∧
    (c.sqe.opc ≠ 2 → c.sqe.opc ≠ 6 → c.sqe.opc ≠ 8 → c.sqe.opc ≠ 9 → c.sqe.opc ≠ 10 →
      exec (.capsuleAdmin ring idx) s = .next (s.workFail ring idx .format))) ∧
  -- the checks of an I/O command, and a command that fails one
  (∀ (s : State) (p : Nat) (e : NvmeSqe) (n : Nat) (l : Option Nat),
    (e.opc ≠ 0 → e.opc ≠ 1 → e.opc ≠ 2 → e.opc ≠ 8 → e.opc ≠ 9 → s.ioCheck p e l = scOpcode) ∧
    ((e.opc ≤ 2 ∨ e.opc = 8 ∨ e.opc = 9) → s.nsOf p e.nsid = none → s.ioCheck p e l = scNs) ∧
    (s.nsOf p e.nsid = some n → s.ioCheck p e l = 0 → (s.ns n).state = .ready ∧
      (opRange e.opc = true → sqSlba e + sqNlb e ≤ (s.ns n).lbas) ∧
      ((e.opc = 1 ∨ e.opc = 2) → sqNlb e * (s.ns n).lba ≤ 1048576 ∧ ∀ k, l = some k → k = sqNlb e * (s.ns n).lba))) ∧
  (∀ (s : State) (c : Cmd) (l : Option Nat), (s.ioCheck c.part c.sqe l ≠ 0 →
    s.takeIo c l = (s.addCmd c).cmdComplete c (s.ioCheck c.part c.sqe l) 0 0)) ∧
  (∀ (s : State) (c : Cmd) (sc dw0 dw1 ring idx : Nat) (w : Work), c.desc = some (ring, idx) → s.workAt ring idx = some w →
    w.phase ≠ .done → (c.admin = false ∨ c.sqe.opc ≠ 8) →
    (∀ y, y ∈ (s.cmdComplete c sc dw0 dw1).sto.cmds → y.q ≠ c.q ∨ y.cid ≠ c.cid) ∧
    ∃ v, (s.cmdComplete c sc dw0 dw1).workAt ring idx = some v ∧ v.phase = .done ∧ v.status = nvmeStatus sc c.failed ∧
      v.r0.field 31 0 = dw0 % 2 ^ 32 ∧ v.r1.field 7 0 = sc % 2 ^ 8 ∧ v.r1.field 10 8 = sc / 256 % 2 ^ 3) ∧
  -- a command starts once the earlier commands of its queue that it overlaps have completed
  (∀ (s : State) (q cid : Nat) (c : Cmd), s.cmdOf q cid = some c → c.started = false → s.pstate < 3 → c.admin = false →
    (s.gate 24).isOpen = true →
    ((∀ x, x ∈ s.sto.cmds.takeWhile (fun x => !(decide (x.q = q) && decide (x.cid = cid))) → x.q = q → x.overlaps c = false) →
      exec (.nvmeCmdStart q cid) s = .next (s.updCmd q cid (fun y => { y with started := true }))) ∧
    ((∃ x, x ∈ s.sto.cmds.takeWhile (fun x => !(decide (x.q = q) && decide (x.cid = cid))) ∧ x.q = q ∧ x.overlaps c = true) →
      exec (.nvmeCmdStart q cid) s = .next (s.count1 .sto 6))) ∧
  (∀ (s : State) (q cid : Nat) (c : Cmd), s.cmdOf q cid = some c → 3 ≤ s.pstate → exec (.nvmeCmdStart q cid) s = .next s) ∧
  (∀ a b : Cmd, a.overlaps b = true ↔ a.ns = b.ns ∧ ((a.nlb ≠ 0 ∧ b.nlb ≠ 0 ∧ a.slba < b.slba + b.nlb ∧ b.slba < a.slba + a.nlb) ∨
    (a.sqe.opc = 0 ∧ (b.sqe.opc = 1 ∨ b.sqe.opc = 8)) ∨ ((a.sqe.opc = 1 ∨ a.sqe.opc = 8) ∧ b.sqe.opc = 0))) ∧
  -- a write: applied once started and whole; it waits for pages and is never refused for want of one
  (∀ (s : State) (q cid op : Nat) (i : Instr) (c : Cmd), s.cmdOf q cid = some c → c.sqe.opc = op → c.admin = false →
    s.flt.safe = false → s.dataHeld = false → c.failed = none → c.issued = false →
    ((op = 1 ∧ i = .nvmeWrite q cid) ∨ (op = 8 ∧ i = .writeZeroes q cid)) →
    (c.held = true → c.started = true → c.whole = true → exec i s = .next (s.writeApply c)) ∧
    (c.held = true → c.started = false → c.whole = true → exec i s = .next s) ∧
    (c.held = false → (s.updCmd c.q c.cid (fun y => { y with held := true })).stageTake (s.ns c.ns).part
        (((s.ns c.ns).pagesOf c.slba c.nlb).filter (fun p => (s.cachePage c.ns p).isNone)).length = none →
      exec i s = .next s)) ∧
  (∀ (s : State) (c : Cmd) (data : List Byte), data = bufBytes c.data c.base (c.nlb * (s.ns c.ns).lba) →
    sqFua c.sqe = false → s.cacheOn c.q = true → s.writeApply c = ((List.range c.nlb).foldl (fun t i => t.cacheWrite c.ns
      (c.slba + i) ((data.drop (i * (s.ns c.ns).lba)).take (s.ns c.ns).lba) true) s).cmdComplete c 0 0 0) ∧
  (∀ (s : State) (n lba : Nat) (data : List Byte) (dirty : Bool) (p : CachePage), s.cachePage n (lba / (s.ns n).perPage) = some p →
    data.length = (s.ns n).lba → (s.cacheWrite n lba data dirty).cacheRead n lba = some data) ∧
  -- a read: from the cache, or from the drives
  (∀ (s : State) (q cid : Nat) (c : Cmd), s.cmdOf q cid = some c → c.sqe.opc = 2 → c.admin = false → s.flt.safe = false →
    s.dataHeld = false →
    (c.started = false → exec (.nvmeRead q cid) s = .next s) ∧
    (c.started = true → c.issued = true → c.waits = [] → exec (.nvmeRead q cid) s =
      .next (s.cmdReturn c (bufBytes c.data 0 (c.nlb * (s.ns c.ns).lba)) 0)) ∧
    (c.started = true → c.issued = false → c.nlb ≠ 0 → (∀ l, c.slba ≤ l → l < c.slba + c.nlb →
        s.cachePage c.ns (l / (s.ns c.ns).perPage) = none) →
      (s.driveIo c.ns false (sqFua c.sqe) c.slba c.nlb (.cmd q cid) []).1 ≠ [] → exec (.nvmeRead q cid) s =
        .next ((s.driveIo c.ns false (sqFua c.sqe) c.slba c.nlb (.cmd q cid) []).2.updCmd q cid (fun y => { y with
          issued := true, waits := (s.driveIo c.ns false (sqFua c.sqe) c.slba c.nlb (.cmd q cid) []).1 }))) ∧
    (∀ d ring idx, c.started = true → c.issued = false → c.nlb = 1 → sqFua c.sqe = false → s.cacheRead c.ns c.slba = some d →
      c.desc = some (ring, idx) → c.hbm = true → Gives (.nvmeRead q cid) s (fun t =>
        t.hbm = (s.setBytes c.addr (d.take c.len)).hbm ∧ t.cmdOf q cid = none))) ∧
  -- Flush, Dataset Management, write-back
  (∀ (s : State) (q cid : Nat) (c : Cmd), s.cmdOf q cid = some c → c.sqe.opc = 0 → c.admin = false → s.flt.safe = false →
    s.dataHeld = false → c.started = true →
    ((∀ p, p ∈ s.sto.cache → p.ns = c.ns → (p.dirty = [] ∨ c.order ≤ p.dirtySeq) ∧ (p.writing = [] ∨ c.order ≤ p.writeSeq)) →
      exec (.flush q cid) s = .next (s.cmdComplete c 0 0 0)) ∧
    (∀ p, p ∈ s.sto.cache → p.ns = c.ns → p.dirty ≠ [] → p.dirtySeq < c.order →
      Gives (.flush q cid) s (fun t => ∃ x, x ∈ t.sto.cmds ∧ x.q = q ∧ x.cid = cid))) ∧
  (∀ (s : State) (q cid : Nat) (c : Cmd), s.cmdOf q cid = some c → c.sqe.opc = 9 → c.admin = false → s.flt.safe = false →
    s.dataHeld = false → c.started = true → exec (.datasetManagement q cid) s = .next (s.cmdComplete c 0 0 0)) ∧
  (∀ (s : State) (n : Nat), (∀ c, s.oldestDirty n = some c → ((s.ns n).state = .ready ∨ (s.ns n).state = .closing) →
      exec (.dirtyWriteback n) s = .next (s.pageWrite n c.page)) ∧
    (s.oldestDirty n = none → exec (.dirtyWriteback n) s = .next s)) ∧
  -- drive completions
  (∀ (s : State) (did : Nat) (ok : Bool) (data : List Byte) (d : DriveCmd),
    s.sto.drives.find? (fun d => decide (d.did = did)) = some d →
    (∀ q cid c, d.use = .cmd q cid → d.write = true → s.cmdOf q cid = some c → c.waits = [did] → ok = true →
      Gives (.driveCompletion did ok data) s (fun t => t.cmdOf q cid = none ∧ ∀ x, x ∈ t.sto.drives → x.did ≠ did)) ∧
    (∀ n page, d.use = .page n page → ok = false → (s.ns n).state = .ready → Gives (.driveCompletion did ok data) s (fun t =>
      (t.ns n).state = .failed ∧ (t.elw stoPage 0).bit 1 = true))) ∧
  (∀ (s : State) (did : Nat) (ok : Bool) (data : List Byte), (∀ d, d ∈ s.sto.drives → d.did ≠ did) →
    exec (.driveCompletion did ok data) s = .next s) ∧
  (∀ (s : State) (n : Nat), s.nsIdle n = true → (((s.ns n).state = .closing ∧
      ∀ c, c ∈ s.sto.cache → c.ns = n → c.dirty = [] ∧ c.writing = []) ∨ ((s.ns n).state = .failed ∧ (s.ns n).deleting = true)) →
    Gives (.nsEmpty n) s (fun t => t.ns n = Ns.empty ∧ ∀ c, c ∈ t.sto.cache → c.ns ≠ n)) ∧
  (∀ (s : State) (n : Nat), s.nsIdle n = false → exec (.nsEmpty n) s = .next s) ∧
  -- power states
  (∀ (s : State) (n : Nat), 1 ≤ n → n ≤ 4 → s.pstate < n → s.sto.exiting = false → s.stoIdle n ≠ 0 → s.sto.cmds = [] →
    s.sto.drives = [] → (3 ≤ n → ∀ c, c ∈ s.sto.cache → c.dirty = [] ∧ c.writing = []) →
    (s.sto.idleSince + s.stoIdle n * 65536 ≤ s.clk.noc → exec (.psIdleExpire n) s = .next (s.setPstate n)) ∧
    (s.clk.noc < s.sto.idleSince + s.stoIdle n * 65536 → exec (.psIdleExpire n) s = .next s)) ∧
  (∀ (s : State) (n : Nat), s.sto.cmds ≠ [] → exec (.psIdleExpire n) s = .next s) ∧
  (∀ s : State, (s.sto.exiting = true → Gives .psExitDone s (fun t => t.pstate = 0 ∧ t.sto.exiting = false)) ∧
    (s.sto.exiting = false → exec .psExitDone s = .next s))

/-- TCP_SEGMENT, TCP_RTO, ICREQ, CAPSULECMD, H2CDATA, H2CTERMREQ, CONNECT, PROPERTY_GET, PROPERTY_SET and KEEP_ALIVE_EXPIRE
(R315, R323 to R325, R327, R329). -/
def Obligations.StorageConnections : Prop :=
  -- a connection request is accepted from a listed address, else reset
  (∀ (s : State) (g : TcpSeg) (p : Nat) (l : Listener), s.tcpFind g = none → g.syn = true → g.ack = false →
    s.listenPart g.dst = some p → (s.part p).listener = some l →
    ((∃ h, h ∈ l.hosts ∧ h.2 = g.src) → s.sto.tcps.length < 4352 → Gives (.tcpSegment g) s (fun t =>
      t.sto.nextTcp = s.sto.nextTcp + 1 ∧ ∃ x, t.tcp s.sto.nextTcp = some x ∧ x.part = p ∧ x.src = g.src ∧ x.dst = g.dst ∧
        x.sport = g.sport ∧ x.rcvNxt = g.seq + 1 ∧ x.estab = false ∧ x.icDone = false)) ∧
    ((∀ h, h ∈ l.hosts → h.2 ≠ g.src) → Gives (.tcpSegment g) s (fun t => t.sto = s.sto))) ∧
  (∀ (s : State) (g : TcpSeg), s.tcpFind g = none → (g.syn = false ∨ s.listenPart g.dst = none) →
    exec (.tcpSegment g) s = .next s) ∧
  (∀ (s : State) (g : TcpSeg) (n : Nat) (x : Tcp), s.tcpFind g = some n → s.tcp n = some x →
    (g.rst = true → exec (.tcpSegment g) s = .next (s.tcpClose n false false)) ∧
    (g.rst = false → g.syn = false → g.ack = false → g.fin = false → g.payload ≠ [] → Gives (.tcpSegment g) s (fun t =>
      ∃ y, t.tcp n = some y ∧ y.rcvNxt = (x.receive g.seq g.payload.length).rcvNxt))) ∧
  (∀ (x : Tcp) (n : Nat), x.ooo = [] → 0 < n → n < 2 ^ 31 → (x.receive x.rcvNxt n).rcvNxt = x.rcvNxt + BitVec.ofNat 32 n) ∧
  (∀ (s : State) (n : Nat) (x : Tcp), s.tcp n = some x →
    (x.sent ≠ [] → x.sentAt + x.rto ≤ s.clk.noc → Gives (.tcpRto n) s (fun t => ∃ y, t.tcp n = some y ∧ y.rto = 2 * x.rto ∧
      y.cwnd = x.mss ∧ y.ssthresh = max (x.flight / 2) (2 * x.mss))) ∧
    ((x.sent = [] ∨ s.clk.noc < x.sentAt + x.rto) → exec (.tcpRto n) s = .next s)) ∧
  -- NVMe/TCP
  (∀ (s : State) (n hpda m : Nat) (h d : Bool) (x : Tcp), s.tcp n = some x → x.estab = true →
    (x.icDone = false → hpda ≤ 31 → Gives (.icreq n hpda h d m) s (fun t => ∃ y, t.tcp n = some y ∧ y.icDone = true ∧
      y.hdgst = h ∧ y.ddgst = d ∧ y.maxr2t = m ∧ y.hpda = hpda)) ∧
    ((x.icDone = true ∨ 31 < hpda) → exec (.icreq n hpda h d m) s = .next (s.transportFatal n))) ∧
  (∀ (s : State) (n : Nat) (e : NvmeSqe) (data : List Byte) (y : Tcp) (x : SQueue), s.tcp n = some y → y.icDone = true →
    s.squeue n = some x → x.closing = false →
    (x.qp = none → exec (.capsulecmd n e data) s = .next ((s.updQueue n (fun z => { z with head := (z.head + 1) % max 1 z.size
      })).takeAdmin (s.newCmd n x.part e))) ∧
    (x.qp ≠ none → data.length ≤ (s.stoCfg x).field 47 44 * 1024 → exec (.capsulecmd n e data) s =
      .next ((s.updQueue n (fun z => { z with head := (z.head + 1) % max 1 z.size })).takeIo { s.newCmd n x.part e with
        data := if e.opc = 1 then bufPut [] 0 data else [] } (if e.opc = 1 ∧ data ≠ [] then some data.length else none)))) ∧
  (∀ (s : State) (n : Nat) (e : NvmeSqe) (data : List Byte) (y : Tcp), s.tcp n = some y →
    (y.icDone = false → exec (.capsulecmd n e data) s = .next (s.transportFatal n)) ∧
    (y.icDone = true → s.squeue n = none → exec (.capsulecmd n e data) s = .next (s.sendResp n 0 0 0 0 e.cid scSequence))) ∧
  (∀ (s : State) (n cid off : Nat) (data : List Byte) (c : Cmd), (s.tcp n).isSome = true → s.cmdOf n cid = some c →
    exec (.h2cdata n cid off data false) s = .next (s.cmdComplete c scTransport 0 0) ∧
    (c.xrdy < off + data.length → exec (.h2cdata n cid off data true) s = .next (s.transportFatal n)) ∧
    (off + data.length ≤ c.xrdy → exec (.h2cdata n cid off data true) s =
      .next ((s.updCmd n cid (fun y => { y with data := bufPut y.data off data })).askXrdy n cid 5))) ∧
  (∀ (s : State) (n : Nat), (s.tcp n).isSome = true → exec (.h2ctermreq n) s = .next (s.tcpClose n true false)) ∧
  -- Connect: the host must be listed with its address; an admin queue makes a controller, an I/O queue takes the lowest pair
  (∀ (s : State) (n cid qid size k kato : Nat) (host : List Byte) (x : Tcp) (l : Listener), s.tcp n = some x → x.icDone = true →
    s.squeue n = none → (s.part x.part).listener = some l →
    ((∀ h, h ∈ l.hosts → h.1 ≠ host ∨ h.2 ≠ x.src) → exec (.connect n cid qid size host k kato) s =
      .next ((s.wakeFront.count1 .sto 1).connectFail n cid qid 0x184)) ∧
    ((∃ h, h ∈ l.hosts ∧ h.1 = host ∧ h.2 = x.src) → qid = 0 → ∀ j, s.freeCtrl = some j →
      Gives (.connect n cid qid size host k kato) s (fun t => (∃ c, t.ctrl j = some c ∧ c.part = x.part ∧ c.hostNqn = host ∧
          c.admin = n ∧ c.cc = 0 ∧ c.kato = kato ∧ c.cfg = s.reg stoPage 0x100) ∧
        t.squeue n = some ⟨x.part, some j, none, none, 0, 32, 1, true, false⟩)) ∧
    (∀ c m rest, (∃ h, h ∈ l.hosts ∧ h.1 = host ∧ h.2 = x.src) → qid ≠ 0 → s.ctrl k = some c → s.freeQps x.part = m :: rest →
      c.part = x.part → c.hostNqn = host → c.cc % 2 = 1 → 2 ≤ size → size ≤ 1024 →
      (∀ e, e ∈ s.sto.queues → e.2.ctrl = some k → e.2.qid ≠ qid) → Gives (.connect n cid qid size host k kato) s (fun t =>
        t.squeue n = some ⟨x.part, some k, none, some m, qid, size, 1, true, false⟩))) ∧
  (∀ (s : State) (j : Nat), s.freeCtrl = some j → 1 ≤ j ∧ j ≤ 256 ∧ s.ctrl j = none ∧ ∀ i, 1 ≤ i → i < j → s.ctrl i ≠ none) ∧
  (∀ (s : State) (n cid k : Nat) (c : Ctrl), s.adminCtrl n = some (k, c) →
    exec (.propertyGet n cid 0x14) s = .next ((s.wakeFront.count1 .sto 1).fabricsResp n cid c.cc 0 0) ∧
    exec (.propertyGet n cid 0x1C) s = .next ((s.wakeFront.count1 .sto 1).fabricsResp n cid (c.cc % 2 + 4 * c.shst) 0 0) ∧
    (∀ off, off ≠ 0 → off ≠ 8 → off ≠ 0x14 → off ≠ 0x1C →
      exec (.propertyGet n cid off) s = .next ((s.wakeFront.count1 .sto 1).fabricsResp n cid 0 0 scField)) ∧
    (∀ v : BitVec 64, c.cc % 2 = 0 → Gives (.propertySet n cid 0x14 v) s (fun t => ∃ d, t.ctrl k = some d ∧
      d.cc = v.toNat % 2 ^ 32)) ∧
    (∀ v : BitVec 64, c.cc % 2 = 1 → v.toNat % 2 = 0 → Gives (.propertySet n cid 0x14 v) s (fun t => t.ctrl k = none ∧
      ∀ q x, t.squeue q = some x → x.ctrl = some k → x.closing = true)) ∧
    (∀ (off : Nat) (v : BitVec 64), off ≠ 0x14 →
      exec (.propertySet n cid off v) s = .next ((s.wakeFront.count1 .sto 1).fabricsResp n cid 0 0 scField))) ∧
  -- the Keep Alive Timer
  (∀ (s : State) (k : Nat) (c : Ctrl), s.ctrl k = some c →
    (c.kato ≠ 0 → c.kaAt + c.kato * 2000000 ≤ s.clk.noc → exec (.keepAliveExpire k) s = .next (s.ctrlEnd k)) ∧
    ((c.kato = 0 ∨ s.clk.noc < c.kaAt + c.kato * 2000000) → exec (.keepAliveExpire k) s = .next s)) ∧
  (∀ (s : State) (k : Nat), (s.ctrlEnd k).ctrl k = none ∧ (∀ j, j ≠ k → ((s.ctrlEnd k).ctrl j).isSome = (s.ctrl j).isSome) ∧
    ∀ q x, (s.ctrlEnd k).squeue q = some x → x.ctrl = some k → x.closing = true)

/-- IDENTIFY, GET_LOG_PAGE, SET_FEATURES, GET_FEATURES, ASYNCHRONOUS_EVENT_REQUEST, ABORT and KEEP_ALIVE, and NS_CREATE, NS_DELETE,
LISTEN, QP_RING and NS_READ (R315, R321, R324, R332, R334, R336, R339). -/
def Obligations.StorageAdministration : Prop :=
  (∀ (s : State) (q op : Nat) (e : NvmeSqe) (c : Cmd), s.adminCmd q op e = some c → s.pstate < 3 → s.flt.safe = false →
    s.dataHeld = false →
    (op = 6 → e.cdw10.toNat % 256 = 0 → ∀ n, s.nsOf c.part e.nsid = some n →
      exec (.identify q e) s = .next (s.cmdReturn c (identifyNs (s.ns n)) 0)) ∧
    (op = 6 → e.cdw10.toNat % 256 = 0 → s.nsOf c.part e.nsid = none → exec (.identify q e) s = .next (s.cmdComplete c scNs 0 0)) ∧
    (op = 6 → 3 < e.cdw10.toNat % 256 → exec (.identify q e) s = .next (s.cmdComplete c scField 0 0)) ∧
    (op = 2 → e.cdw10.toNat % 256 ≠ 1 → e.cdw10.toNat % 256 ≠ 2 → exec (.getLogPage q e) s = .next (s.cmdComplete c scField 0 0)) ∧
    (op = 2 → e.cdw10.toNat % 256 = 2 → exec (.getLogPage q e) s = .next (({ s with free := s.free + 1 } : State).cmdReturn c
      (slice ((List.range 512).map (Config.smartByte s.free)) (e.cdw12.toNat + e.cdw13.toNat * 2 ^ 32)
        (((e.cdw10.toNat / 65536 + e.cdw11.toNat % 65536 * 65536) + 1) * 4)) 0)) ∧
    -- power management and event configuration belong to P0's controllers alone
    (op = 9 → (e.cdw10.toNat % 256 = 2 ∨ e.cdw10.toNat % 256 = 0x0B) → c.part ≠ 0 →
      exec (.setFeatures q e) s = .next (s.cmdComplete c scFeature 0 0)) ∧
    (op = 9 → e.cdw10.toNat % 256 = 2 → c.part = 0 → e.cdw11.toNat % 32 ≤ 4 →
      exec (.setFeatures q e) s = .next ((s.cmdComplete c 0 0 0).setPstate (e.cdw11.toNat % 32))) ∧
    (op = 9 → e.cdw10.toNat % 256 = 6 →
      exec (.setFeatures q e) s = .next ((s.setCache q (e.cdw11.toNat % 2 = 1)).cmdComplete c 0 0 0)) ∧
    (op = 9 → e.cdw10.toNat % 256 = 7 →
      exec (.setFeatures q e) s = .next (s.cmdComplete c 0 (s.queueCount c.part e.cdw11.toNat) 0)) ∧
    (op = 10 → e.cdw10.toNat % 256 = 2 → exec (.getFeatures q e) s = .next (s.cmdComplete c 0 s.pstate 0)) ∧
    (op = 10 → e.cdw10.toNat % 256 = 6 →
      exec (.getFeatures q e) s = .next (s.cmdComplete c 0 (if s.cacheOn q = true then 1 else 0) 0)) ∧
    (op = 12 → ∀ k, s.ctrl (s.cntlid q) = some k → c.cid ∉ k.aerWait →
      (0 < k.notices → exec (.asynchronousEventRequest q e) s = .next ((s.updCtrl (s.cntlid q) (fun y => { y with
        notices := y.notices - 1 })).cmdComplete c 0 0x040002 0)) ∧
      (k.notices = 0 → exec (.asynchronousEventRequest q e) s = .next ((s.updCtrl (s.cntlid q) (fun y => { y with
        aerWait := y.aerWait ++ [c.cid] })).updCmd q c.cid (fun y => { y with started := true })))) ∧
    (op = 8 → exec (.abort q e) s = .next ((s.count1 .sto 7).cmdComplete c 0 1 0)) ∧
    (op = 24 → exec (.keepAlive q e) s = .next ((s.updCtrl (s.cntlid q) (fun y => { y with
      kaAt := s.clk.noc })).cmdComplete c 0 0 0))) ∧
  (∀ (s : State) (q : Nat) (e : NvmeSqe), 3 ≤ s.pstate → exec (.identify q e) s = .next s ∧ exec (.abort q e) s = .next s ∧
    exec (.keepAlive q e) s = .next s) ∧
  -- an Abort aborts nothing: on a capsule ring it ends with NOT_ABORTED
  (∀ (s : State) (c : Cmd) (ring idx : Nat) (w : Work), c.admin = true → c.sqe.opc = 8 → c.desc = some (ring, idx) →
    s.workAt ring idx = some w → w.phase ≠ .done → ∃ v, (s.cmdComplete c 0 1 0).workAt ring idx = some v ∧ v.phase = .done ∧
      v.status = .notAborted ∧ v.r0.field 31 0 = 1) ∧
  (∀ x : Ns, (identifyNs x).length = 4096 ∧ leNat ((identifyNs x).take 8) = x.lbas % 2 ^ 64) ∧
  -- the STO commands
  (∀ (s : State) (p n cnt nsid key list : Nat) (es : List Extent), Taken s .sto → p < 128 → list = (s.reg stoPage 0x140).toNat →
    n = (s.reg stoPage 0x148).field 63 54 → key = (s.reg stoPage 0x148).field 51 32 → nsid = (s.reg stoPage 0x148).field 31 16 →
    cnt = (s.reg stoPage 0x148).field 4 0 + 1 → s.inP0 list (16 * cnt) = true → list % 64 = 0 →
    (List.range cnt).map (fun i => s.readExtent (list + 16 * i)) = es.map some →
    (∀ e, e ∈ es → s.driveOk e.drive = true ∧ s.extentBad (if (s.reg stoPage 0x148).bit 53 then 4096 else 512) e = false) →
    s.owns p tyKey key = true →
    ((nsid = 0 ∨ 1024 < nsid ∨ (Tab.get Key.empty s.cph.keys key).use ≠ 2) →
      exec (.nsCreate p) s = .next (s.cmdEnd .sto 1 p .format)) ∧
    (1 ≤ nsid → nsid ≤ 1024 → (Tab.get Key.empty s.cph.keys key).use = 2 → (Tab.get Key.empty s.cph.keys key).state = .ready →
      s.owns p tyNs n = true → (s.ns n).state = .empty → s.nsOf p nsid = none → (s.part p).stage ≠ [] → selfOverlap es = false →
      (∀ x, x ∈ s.sto.nss → x.2.state ≠ .empty → ∀ a b, a ∈ x.2.extents → b ∈ es → a.overlaps b = false) →
      exec (.nsCreate p) s = .next (((s.setNs n ⟨.empty, p, nsid, (s.reg stoPage 0x148).bit 53, key, es, false⟩).nsChange n .ready
        1 0).cmdEnd .sto 1 p .ok))) ∧
  (∀ (s : State) (n cause drive : Nat) (st : NsState), (s.nsChange n st cause drive).ns n = { s.ns n with state := st } ∧
    ∀ k, k ≠ n → (s.nsChange n st cause drive).ns k = s.ns k) ∧
  (∀ (s : State) (p n : Nat), Taken s .sto → p < 128 → n = (s.reg stoPage 0x148).field 63 54 →
    (s.owns p tyNs n = false → exec (.nsDelete p) s = .next (s.cmdEnd .sto 2 p .accessViolation)) ∧
    (s.owns p tyNs n = true → (s.ns n).state = .ready →
      exec (.nsDelete p) s = .next (((s.nsChange n .closing 1 0).nsSteps n).cmdEnd .sto 2 p .ok)) ∧
    (s.owns p tyNs n = true → (s.ns n).state = .failed →
      exec (.nsDelete p) s = .next ((s.setNs n { s.ns n with deleting := true }).cmdEnd .sto 2 p .ok)) ∧
    (s.owns p tyNs n = true → ((s.ns n).state = .empty ∨ (s.ns n).state = .closing) →
      exec (.nsDelete p) s = .next (s.cmdEnd .sto 2 p .state))) ∧
  (∀ (s : State) (p : Nat) (a2 : Word), Taken s .sto → p < 128 → a2 = s.reg stoPage 0x150 → a2.field 46 36 ≤ 1024 →
    (s.part p).state = .active →
    (a2.bit 0 = true → s.inP0 (s.reg stoPage 0x140).toNat 256 = true →
      s.inP0 (s.reg stoPage 0x148).toNat (272 * a2.field 46 36) = true → s.owns p tyLeaf (a2.field 63 47) = true →
      Gives (.listen p) s (fun t => ∃ l, (t.part p).listener = some l ∧ l.leaf = a2.field 63 47 ∧
        l.subNqn = s.bytes (s.reg stoPage 0x140).toNat 256 ∧ l.hosts.length = a2.field 46 36)) ∧
    (a2.bit 0 = false → (∀ e, e ∈ s.sto.ctrls → e.2.part ≠ p) → Gives (.listen p) s (fun t => (t.part p).listener = none)) ∧
    (a2.bit 0 = false → s.sto.ctrls.any (fun e => decide (e.2.part = p)) = true → exec (.listen p) s = .next (s.cmdEnd .sto 3 p .state))) ∧
  (∀ (s : State) (p qp ring : Nat), Taken s .sto → p < 128 → qp = (s.reg stoPage 0x140).field 63 52 →
    ring = (s.reg stoPage 0x140).field 51 35 →
    ((s.owns p tyQp qp = false ∨ s.owns p tyRing ring = false) →
      exec (.qpRing p) s = .next (s.cmdEnd .sto 4 p .accessViolation)) ∧
    (s.owns p tyQp qp = true → s.owns p tyRing ring = true → (s.ring ring).type = .submission → (s.ring ring).setUp = true →
      (s.ring ring).state = .disabled → (∀ e, e ∈ s.sto.queues → e.2.qp = some qp → e.1 = capsuleQ ring) →
      ((s.reg stoPage 0x140).bit 0 = true → s.squeue (capsuleQ ring) = none → Gives (.qpRing p) s (fun t =>
        t.squeue (capsuleQ ring) = some ⟨p, none, some ring, some qp, 0, 0, 0, true, false⟩)) ∧
      (∀ x, (s.reg stoPage 0x140).bit 0 = false → s.squeue (capsuleQ ring) = some x → x.qp = some qp →
        Gives (.qpRing p) s (fun t => t.squeue (capsuleQ ring) = none)))) ∧
  (∀ (s : State) (p n : Nat), Taken s .sto → p < 128 → n = (s.reg stoPage 0x148).field 63 54 → Gives (.nsRead p) s (fun t =>
    OnlyRegs s t ∧ (t.reg stoPage 0x168).field 63 62 = (s.ns n).state.code ∧
    (t.reg stoPage 0x168).field 31 0 = (s.ns n).nsid % 2 ^ 32 ∧ t.reg stoPage 0x170 = Word.of (s.ns n).lbas))
/-! ## Cipher engine (17_cipher_engine.md) -/

/-- SEAL, OPEN, XTS_ENC and XTS_DEC, and the counter of a context (R342 to R344, R346 to R348, R354). -/
def Obligations.CipherOperations : Prop :=
  -- a counter value is taken once; the last one exhausts the context, and COUNTER stays at LIMIT
  (∀ (s : State) (k low : Nat), (s.takeNonce k low).1 = Word.of (s.key k).counter ∧
    ((s.key k).counter ≠ limitMeant (s.key k).limit → ((s.takeNonce k low).2.key k).counter = (s.key k).counter + 1 ∧
      ((s.takeNonce k low).2.key k).state = (s.key k).state) ∧
    ((s.key k).counter = limitMeant (s.key k).limit → ((s.takeNonce k low).2.key k).counter = (s.key k).counter ∧
      ((s.takeNonce k low).2.key k).state = .exhausted ∧ ((s.takeNonce k low).2.reg cphPage 0x30).bit 9 = true) ∧
    (∀ j, j ≠ k → (s.takeNonce k low).2.key j = s.key j)) ∧
  (∀ l, limitMeant 0 = 2 ^ 64 - 1 ∧ (l ≠ 0 → limitMeant l = l)) ∧
  (∀ (s : State) (k low : Nat), ((s.key k).use = 0 → (s.key k).lowSent = false → (s.key k).remaining ≤ low →
      (s.keyLow k low).key k = { s.key k with lowSent := true }) ∧
    (((s.key k).use ≠ 0 ∨ (s.key k).lowSent = true ∨ low < (s.key k).remaining) → s.keyLow k low = s)) ∧
  -- a segment: its checks in order, then its start under its message and its data
  (∀ (s : State) (ring idx op : Nat) (enc : Bool) (i : Instr) (w : Work) (x : Key), Started s ring idx 8 op w → w.ring = ring →
    w.idx = idx → w.ctx = .none → ((op = 1 ∧ enc = true ∧ i = .seal ring idx) ∨ (op = 2 ∧ enc = false ∧ i = .cphOpen ring idx)) →
    x = s.key (cKey w.words) →
    (segFormatBad enc w.words = true → exec i s = .next (s.workFail ring idx .format)) ∧
    (segFormatBad enc w.words = false → s.segAccessBad w.part w.vi enc w.words = true →
      exec i s = .next (s.workFail ring idx .accessViolation)) ∧
    (segFormatBad enc w.words = false → s.segAccessBad w.part w.vi enc w.words = false →
      (s.segWaits w = true → exec i s = .next s) ∧
      (s.segWaits w = false → cKey w.words ∉ s.cph.resident → cKey w.words ∈ s.cph.poisoned →
        Gives i s (fun t => ∃ v, t.workAt ring idx = some v ∧ v.phase = .done ∧ v.status = .poisoned)) ∧
      (s.segWaits w = false → cKey w.words ∈ s.cph.resident →
        (segStateBad enc w.words x = true → exec i s = .next
          ((if enc = true ∧ x.state = .exhausted then s.count1 .cph 6 else s).workFail ring idx .state)) ∧
        (segStateBad enc w.words x = false → (cFirst w.words = true ∨ (x.msg.map Msg.done).getD 0 + cLen w.words ≤ 2 ^ 36 - 32) →
          exec i s = .next (((s.segStart w enc x).2.updWork ring idx (fun y => { y with
            ctx := .cipher x.alg x.key (s.segStart w enc x).1 })).segRun w enc x.alg x.key (s.segStart w enc x).1))))) ∧
  (∀ (s : State) (ring idx op alg : Nat) (enc : Bool) (i : Instr) (w : Work) (key : List Byte) (m : Msg), Started s ring idx 8 op w →
    ((op = 1 ∧ enc = true ∧ i = .seal ring idx) ∨ (op = 2 ∧ enc = false ∧ i = .cphOpen ring idx)) →
    w.ctx = .cipher alg key m → exec i s = .next (s.segRun w enc alg key m)) ∧
  (∀ (enc : Bool) (ws : List Word) (x : Key),
    ((x.state = .empty ∨ x.use ≠ (if enc then 0 else 1) ∨ (enc = true ∧ cFirst ws = true ∧ x.state = .exhausted) ∨
      (cFirst ws = true ∧ cLast ws = false ∧ x.msg ≠ none) ∨ (cFirst ws = false ∧ x.msg = none)) → segStateBad enc ws x = true) ∧
    (segStateBad enc ws x = true → x.state = .empty ∨ x.use ≠ (if enc then 0 else 1) ∨
      (enc = true ∧ cFirst ws = true ∧ x.state = .exhausted) ∨ (cFirst ws = true ∧ cLast ws = false ∧ x.msg ≠ none) ∨
      (cFirst ws = false ∧ x.msg = none))) ∧
  -- the first segment of SEAL takes the counter; a later one goes on with the message
  (∀ (s : State) (w : Work) (x : Key), (cFirst w.words = true → (s.segStart w true x).1 =
      freshMsg (Word.of (s.key (cKey w.words)).counter) x.salt ∧ (s.segStart w false x).1 =
        freshMsg (wordAt w.words 7) (BitVec.ofNat 32 (wf w.words 6 31 0)) ∧ ((s.segStart w false x).2.key (cKey w.words)).counter =
          (s.key (cKey w.words)).counter) ∧
    (∀ m, cFirst w.words = false → x.msg = some m → s.segStart w true x = (m, s) ∧ s.segStart w false x = (m, s))) ∧
  (∀ (s : State) (w : Work) (enc : Bool) (alg : Nat) (key : List Byte) (m : Msg), wb w.words 6 41 = true → wb w.words 6 39 = true →
    wb w.words 6 40 = true → s.firstBad (wordAt w.words 2).toNat (segIn enc w.words) = none →
    s.firstBad (wordAt w.words 4).toNat (cAad w.words) = none →
    s.segRun w enc alg key m = s.segEnd w enc m (segData enc w.words alg key m
      (if cFirst w.words then s.bytes (wordAt w.words 4).toNat (cAad w.words) else [])
      (s.bytes (wordAt w.words 2).toNat (segIn enc w.words)))) ∧
  -- a tag that does not verify: zeros in the destination, and INTEGRITY
  (∀ (ws : List Word) (alg : Nat) (key aad data : List Byte) (m : Msg), cLast ws = true →
    (segData false ws alg key m aad data).2.2 = false → (segData false ws alg key m aad data).1 = zeros (cLen ws)) ∧
  (∀ (s : State) (w v : Work) (enc : Bool) (m : Msg) (out : List Byte) (m1 : Msg), s.workAt w.ring w.idx = some v →
    wb w.words 6 40 = true → (s.segEnd w enc m (out, m1, true)).hbm = (s.setBytes (wordAt w.words 3).toNat out).hbm ∧
    (∃ u, (s.segEnd w enc m (out, m1, true)).workAt w.ring w.idx = some u ∧ u.phase = .done ∧ u.status = .ok ∧
      u.r0 = (if enc then m.nonce else 0)) ∧
    (∃ u, (s.segEnd w false m (out, m1, false)).workAt w.ring w.idx = some u ∧ u.phase = .done ∧ u.status = .integrity)) ∧
  -- XTS
  (∀ (s : State) (ring idx op : Nat) (enc : Bool) (i : Instr) (w : Work) (x : Key), Started s ring idx 8 op w → w.ring = ring →
    w.idx = idx → w.ctx = .none → ((op = 3 ∧ enc = true ∧ i = .xtsEnc ring idx) ∨ (op = 4 ∧ enc = false ∧ i = .xtsDec ring idx)) →
    x = s.key (cKey w.words) →
    ((cLen w.words = 0 ∨ cLen w.words % xtsDu w.words ≠ 0) → exec i s = .next (s.workFail ring idx .format)) ∧
    (s.xtsCheck w.part w.vi w.words = .ok → cKey w.words ∈ s.cph.resident →
      ((x.state ≠ .ready ∨ x.use ≠ 2) → exec i s = .next (s.workFail ring idx .state)) ∧
      (x.state = .ready → x.use = 2 → exec i s = .next ((s.updWork ring idx (fun y => { y with
        ctx := .cipher x.alg x.key (freshMsg 0 0) })).xtsRun w enc x.key)))) ∧
  (∀ (s : State) (w : Work) (enc : Bool) (key : List Byte), wb w.words 6 41 = true → wb w.words 6 40 = true →
    s.firstBad (wordAt w.words 2).toNat (cLen w.words) = none →
    s.xtsRun w enc key = ((s.setBytes (wordAt w.words 3).toNat (xtsUnits enc key (xtsDu w.words) (wordAt w.words 4).toNat
      (s.bytes (wordAt w.words 2).toNat (cLen w.words)))).count cphPage 4 (cLen w.words / xtsDu w.words)).workDone w.ring w.idx
        .ok 0 0 0)

/-- KEY_LOAD, KEY_GEN, KEY_CLEAR, SAVE, RESTORE, KEY_QUERY, KEY_CONTEXT_FETCHED and SET_DOMAIN (R340 to R342, R344, R351 to R354, R356). -/
def Obligations.KeyContexts : Prop :=
  (∀ alg use : Nat, useAllowed alg use = true ↔ (alg < 3 ∧ use < 2) ∨ (alg = 3 ∧ use = 2)) ∧
  (∀ (s : State) (ring idx : Nat) (w : Work), Started s ring idx 8 5 w → w.ring = ring → w.idx = idx →
    (useAllowed (wf w.words 3 31 28) (wf w.words 3 27 26) = false → exec (.keyLoad ring idx) s = .next (s.workFail ring idx .format)) ∧
    (useAllowed (wf w.words 3 31 28) (wf w.words 3 27 26) = true → s.owns w.part tyKey (cKey w.words) = false →
      exec (.keyLoad ring idx) s = .next (s.workFail ring idx .accessViolation)) ∧
    (useAllowed (wf w.words 3 31 28) (wf w.words 3 27 26) = true → s.owns w.part tyKey (cKey w.words) = true →
      s.reaches w.part w.vi (cSrc w.words) 64 = true → wb w.words 6 41 = true → s.firstBad (wordAt w.words 2).toNat 64 = none →
      exec (.keyLoad ring idx) s = .next (s.keyPut w (s.bytes (wordAt w.words 2).toNat 64)))) ∧
  (∀ (s : State) (ring idx n : Nat) (w : Work), Started s ring idx 8 6 w → w.ring = ring → w.idx = idx →
    useAllowed (wf w.words 3 31 28) (wf w.words 3 27 26) = true → s.owns w.part tyKey (cKey w.words) = true →
    n = keyBytes (wf w.words 3 31 28) / 8 →
    exec (.keyGen ring idx) s = .next ((s.draw n).2.keyPut w ((s.draw n).1 ++ zeros (64 - (s.draw n).1.length)))) ∧
  -- a key goes into an EMPTY context alone, with COUNTER 0
  (∀ (s : State) (w v : Work) (key : List Byte), s.workAt w.ring w.idx = some v →
    (keyBad (wf w.words 3 31 28) key = true → s.keyPut w key = s.workFail w.ring w.idx .format) ∧
    (keyBad (wf w.words 3 31 28) key = false → (s.key (cKey w.words)).state ≠ .empty →
      s.keyPut w key = s.workFail w.ring w.idx .state) ∧
    (keyBad (wf w.words 3 31 28) key = false → (s.key (cKey w.words)).state = .empty →
      (∃ b, (s.keyPut w key).key (cKey w.words) = ⟨.ready, wf w.words 3 31 28, wf w.words 3 27 26, key,
        BitVec.ofNat 32 (wf w.words 3 63 32), 0, (wordAt w.words 4).toNat, b, none⟩) ∧
      (∀ j, j ≠ cKey w.words → (s.keyPut w key).key j = s.key j) ∧
      ∃ u, (s.keyPut w key).workAt w.ring w.idx = some u ∧ u.phase = .done ∧ u.status = .ok)) ∧
  (∀ (key : List Byte), key.length = 64 → keyBad 3 key = decide (key.take 32 = key.drop 32)) ∧
  (∀ (s : State) (ring idx : Nat) (w : Work), Started s ring idx 8 7 w → w.ring = ring → w.idx = idx →
    (s.owns w.part tyKey (cKey w.words) = false → exec (.keyClear ring idx) s = .next (s.workFail ring idx .accessViolation)) ∧
    (s.owns w.part tyKey (cKey w.words) = true → s.nsNames (cKey w.words) = true →
      exec (.keyClear ring idx) s = .next (s.workFail ring idx .state)) ∧
    (s.owns w.part tyKey (cKey w.words) = true → s.nsNames (cKey w.words) = false →
      exec (.keyClear ring idx) s = .next ((s.setKey (cKey w.words) Key.empty).workDone ring idx .ok 0 0 0))) ∧
  (∀ (s : State) (ring idx : Nat) (w : Work) (x : Key), Started s ring idx 8 10 w → x = s.key (cKey w.words) →
    (s.owns w.part tyKey (cKey w.words) = true → exec (.keyQuery ring idx) s = .next (s.workDone ring idx .ok 0
      ((((((0 : Word).setField 63 62 x.state.code).setField 61 58 x.alg).setField 57 56 x.use).setBit 55 x.msg.isSome).setField
        31 0 x.salt.toNat) (Word.of x.counter))) ∧
    (s.owns w.part tyKey (cKey w.words) = false → exec (.keyQuery ring idx) s = .next (s.workFail ring idx .accessViolation))) ∧
  -- SAVE writes the record, clear or wrapped, and the context is EMPTY
  (∀ (s : State) (ring idx k a : Nat) (w : Work), Started s ring idx 8 8 w → w.ring = ring → w.idx = idx → k = cKey w.words →
    a = (wordAt w.words 2).toNat → a % 64 = 0 → wb w.words 6 40 = true → s.owns w.part tyKey k = true →
    s.reaches w.part w.vi (.hbm, a) 256 = true →
    (wb w.words 3 0 = true → w.part ≠ 0 → exec (.save ring idx) s = .next (s.workFail ring idx .accessViolation)) ∧
    ((w.part = 0 ∨ wb w.words 3 0 = false) → ((s.key k).state = .empty ∨ s.nsNames k = true) →
      exec (.save ring idx) s = .next (s.workFail ring idx .state)) ∧
    (w.part = 0 → wb w.words 3 0 = true → (s.key k).state ≠ .empty → s.nsNames k = false → exec (.save ring idx) s =
      .next (((s.setBytes a (recordPlain 0 (s.key k) ++ zeros 64)).setKey k Key.empty).workDone ring idx .ok 0 0 0)) ∧
    (∀ key, wb w.words 3 0 = false → (s.key k).state ≠ .empty → s.nsNames k = false → s.wrapKey w.part = some key →
      exec (.save ring idx) s = .next (((s.setBytes a (kwWrap key 24 (recordPlain w.part (s.key k)) ++ zeros 56)).setKey k
        Key.empty).workDone ring idx .ok 0 0 0)) ∧
    (wb w.words 3 0 = false → (s.key k).state ≠ .empty → s.nsNames k = false → s.wrapKey w.part = none →
      exec (.save ring idx) s = .next (s.workFail ring idx .state))) ∧
  -- RESTORE
  (∀ (s : State) (ring idx k a : Nat) (w : Work), Started s ring idx 8 9 w → w.ring = ring → w.idx = idx → k = cKey w.words →
    a = (wordAt w.words 2).toNat → a % 64 = 0 → wb w.words 6 41 = true → s.owns w.part tyKey k = true →
    s.firstBad a 256 = none → s.reaches w.part w.vi (.hbm, a) 256 = true →
    (w.part = 0 → wb w.words 3 0 = true → exec (.cphRestore ring idx) s =
      .next (s.restoreRecord w (bytesWords 24 (s.bytes a 256)) ((s.bytes a 256).drop 192))) ∧
    (w.part ≠ 0 → wb w.words 3 0 = true → exec (.cphRestore ring idx) s = .next (s.workFail ring idx .accessViolation)) ∧
    (wb w.words 3 0 = false → s.wrapKey w.part = none → exec (.cphRestore ring idx) s = .next (s.workFail ring idx .state)) ∧
    (∀ key, wb w.words 3 0 = false → s.wrapKey w.part = some key →
      (kwUnwrap key 24 ((s.bytes a 256).take 200) = none → exec (.cphRestore ring idx) s = .next (s.workFail ring idx .integrity)) ∧
      (∀ plain, kwUnwrap key 24 ((s.bytes a 256).take 200) = some plain → exec (.cphRestore ring idx) s =
        .next (s.restoreRecord w (bytesWords 24 plain) ((s.bytes a 256).drop 200))))) ∧
  (∀ (s : State) (w v : Work) (ws : List Word) (tail : List Byte), s.workAt w.ring w.idx = some v →
    (recordBad ws tail = true → s.restoreRecord w ws tail = s.workFail w.ring w.idx .format) ∧
    (recordBad ws tail = false → wf ws 0 31 24 ≠ 1 → s.restoreRecord w ws tail = s.workFail w.ring w.idx .version) ∧
    (recordBad ws tail = false → wf ws 0 31 24 = 1 → wf ws 0 16 10 ≠ w.part →
      s.restoreRecord w ws tail = s.workFail w.ring w.idx .accessViolation) ∧
    (recordBad ws tail = false → wf ws 0 31 24 = 1 → wf ws 0 16 10 = w.part → (s.key (cKey w.words)).state ≠ .empty →
      s.restoreRecord w ws tail = s.workFail w.ring w.idx .state) ∧
    (recordBad ws tail = false → wf ws 0 31 24 = 1 → wf ws 0 16 10 = w.part → (s.key (cKey w.words)).state = .empty →
      (∃ b, (s.restoreRecord w ws tail).key (cKey w.words) = { keyOfRecord ws with lowSent := b }) ∧
      ∃ u, (s.restoreRecord w ws tail).workAt w.ring w.idx = some u ∧ u.phase = .done ∧ u.status = .ok)) ∧
  -- what SAVE writes is what RESTORE reads
  (∀ (p : Nat) (x : Key), x.state ≠ .empty → x.alg < 4 → x.use < 4 → x.key.length = 64 → x.counter < 2 ^ 64 → x.limit < 2 ^ 64 →
    x.msg = none → ∃ b, keyOfRecord (bytesWords 24 (recordPlain p x)) = { x with lowSent := b }) ∧
  (∀ (p : Nat) (x : Key), x.key.length = 64 → (recordPlain p x).length = 192 ∧ wf (bytesWords 24 (recordPlain p x)) 0 63 32 = 0x43504B31 ∧
    wf (bytesWords 24 (recordPlain p x)) 0 31 24 = 1 ∧ wf (bytesWords 24 (recordPlain p x)) 0 16 10 = p % 128) ∧
  -- a fetch ends
  (∀ (s : State) (k : Nat), k ∈ s.cph.fetching → s.mlr.held = [] →
    exec (.keyContextFetched k true) s = .next (s.keyIn k) ∧
    Gives (.keyContextFetched k false) s (fun t => k ∈ t.cph.poisoned ∧ k ∉ t.cph.fetching ∧ (t.elw cphPage 0).bit 0 = true)) ∧
  (∀ (s : State) (k : Nat) (ok : Bool), k ∉ s.cph.fetching → exec (.keyContextFetched k ok) s = .next s) ∧
  -- SET_DOMAIN
  (∀ (s : State) (p : Nat), Taken s .cph → p < 128 →
    ((s.part p).state = .building → exec (.setDomain p) s =
      .next ((s.setPart p { s.part p with wrapDomain := s.reg cphPage 0x140 }).cmdEnd .cph 1 p .ok)) ∧
    ((s.part p).state ≠ .building → exec (.setDomain p) s = .next (s.cmdEnd .cph 1 p .state)))
/-! ## Trust and the field side (18_trust_and_field_side.md) -/

/-- The frames of the barrier, the register accesses and messages that they carry, heartbeats, and the requests of the field side's
ports (R31, R80, R357 to R362, R367, R372, R375, R431, R480). -/
def Obligations.BarrierMessages : Prop :=
  -- a frame is sent while fewer than 8 of its class and direction are unacknowledged; further ones wait
  (∀ (s : State) (side : Side) (cls : MsgClass) (typ : Nat) (pl : List Nat) (b : BChan), b = s.chan side cls →
    (side = .host ∨ s.trs.hostPower = true) → (side = .host → cls = .mgmt → s.flt.queue = []) →
    (b.unacked.length < 8 → b.waiting = [] → s.barrierSend side cls typ pl = s.frameOut side cls typ pl) ∧
    ((8 ≤ b.unacked.length ∨ b.waiting ≠ []) →
      s.barrierSend side cls typ pl = s.setChan side cls { b with waiting := b.waiting ++ [(typ, pl)] })) ∧
  -- a frame takes the next SEQ of its class; where it makes an interrupt of the TRS page due, INT follows
  (∀ (s : State) (side : Side) (cls : MsgClass) (typ : Nat) (pl : List Nat) (b : BChan), b = s.chan side cls →
    (s.frameRaw side cls typ pl).chan side cls = ⟨b.unacked ++ [⟨b.nextSeq, typ, pl, s.clk.fld, 0⟩], b.waiting,
        (b.nextSeq + 1) % 65536, b.expect⟩ ∧
    (s.frameRaw side cls typ pl).out = s.out ++ [.barrier side typ b.nextSeq pl] ∧
    (∀ (side' : Side) (cls' : MsgClass), (side' ≠ side ∨ cls' ≠ cls) → (s.frameRaw side cls typ pl).chan side' cls' = s.chan side' cls') ∧
    ((s.pageIrq trsPage = true ∨ (s.frameRaw side cls typ pl).pageIrq trsPage = false) →
      s.frameOut side cls typ pl = s.frameRaw side cls typ pl) ∧
    (s.pageIrq trsPage = false → (s.frameRaw side cls typ pl).pageIrq trsPage = true →
      s.frameOut side cls typ pl = (s.frameRaw side cls typ pl).fieldIrq trsPage)) ∧
  -- a fault message that its class has room for crosses before a management frame of the host side
  (∀ (s : State) (typ : Nat) (pl : List Nat) (b : BChan), b = s.sendRaises.chan .host .mgmt →
    (b.unacked.length < 8 → b.waiting = [] → s.barrierSend .host .mgmt typ pl = s.sendRaises.frameOut .host .mgmt typ pl) ∧
    (8 ≤ b.unacked.length → s.barrierSend .host .mgmt typ pl =
      s.sendRaises.setChan .host .mgmt { b with waiting := b.waiting ++ [(typ, pl)] })) ∧
  (∀ (s : State), s.trs.hostPower = true → (s.chan .host .fault).waiting = [] →
    8 ≤ (s.sendRaises.chan .host .fault).unacked.length ∨ ∀ h, h ∈ s.sendRaises.flt.queue → h.fromField = true ∨ h.sent = true) ∧
  (∀ (s : State) (cls : MsgClass) (typ : Nat) (pl : List Nat), s.trs.hostPower = false → s.barrierSend .field cls typ pl = s) ∧
  -- an accepted frame moves the SEQ that is expected, and is acknowledged
  (∀ (s : State) (rcv : Side) (cls : MsgClass) (b : BChan), b = s.chan (otherSide rcv) cls → s.reg trsPage 0x38 = 0 →
    (s.barrierAccept rcv cls).chan (otherSide rcv) cls = { b with expect := (b.expect + 1) % 65536 } ∧
    (s.barrierAccept rcv cls).out = s.out ++ [.barrier rcv 0x19 (s.chan rcv .mgmt).nextSeq [classCode cls, b.expect]] ∧
    (s.barrierAccept rcv cls).hbm = s.hbm ∧ ∀ q off, q ≠ trsPage → q.num < 65536 → off < 65536 →
      (s.barrierAccept rcv cls).reg q off = s.reg q off) ∧
  (∀ (s : State) (rcv : Side) (cls : MsgClass) (seq : Nat) (ok : Bool) (b : BChan), b = s.chan (otherSide rcv) cls →
    s.reg trsPage 0x38 = 0 → (ok = false ∨ seq ≠ b.expect) → Gives (.barrierFrameBad rcv cls seq ok) s (fun t =>
      (∃ o, t.out = (s.out ++ [.barrier rcv 0x1A (s.chan rcv .mgmt).nextSeq [classCode cls, b.expect]]) ++ o) ∧
      (t.chan (otherSide rcv) cls).expect = b.expect ∧
      (t.elw trsPage (if rcv = .field then 0 else 1)).bit (if ok = true then 1 else 0) = true)) ∧
  -- the sender takes ACK and NAK, and resends what waits too long
  (∀ (s : State) (snd : Side) (cls : MsgClass) (seq i : Nat) (b : BChan), b = s.chan snd cls →
    b.unacked.findIdx? (fun f => f.seq = seq) = some i →
    exec (.barrierAck snd cls seq) s = .next ((s.setChan snd cls { b with unacked := b.unacked.drop (i + 1) }).windowFreed snd cls) ∧
    (seq ≠ b.nextSeq → exec (.barrierNak snd cls seq) s = .next
      (((s.setChan snd cls { b with unacked := b.unacked.drop i }).resendFrom snd cls 0).windowFreed snd cls))) ∧
  (∀ (s : State) (snd : Side) (cls : MsgClass) (b : BChan), b = s.chan snd cls →
    exec (.barrierNak snd cls b.nextSeq) s = .next ((s.setChan snd cls { b with unacked := [] }).windowFreed snd cls)) ∧
  (∀ (s : State) (snd : Side) (cls : MsgClass), ((snd = .field ∨ cls = .mgmt) → s.windowFreed snd cls = s.waitingOut snd cls 8) ∧
    s.windowFreed .host .fault = (s.waitingOut .host .fault 8).sendRaises) ∧
  (∀ (s : State) (snd : Side) (cls : MsgClass) (i : Nat),
    (s.chan snd cls).unacked.findIdx? (fun f => f.sentAt + 64 ≤ s.clk.fld) = some i →
    exec (.barrierResendTimeout snd cls) s = .next (s.resendFrom snd cls i)) ∧
  (∀ (s : State) (snd : Side) (cls : MsgClass) (n : Nat) (b : BChan) (l : List BFrame), b = s.chan snd cls →
    s.reg trsPage 0x38 = 0 → l = (b.unacked.drop n).map (fun f => ⟨f.seq, f.typ, f.payload, s.clk.fld, f.resends + 1⟩) →
    ((∀ f, f ∈ l → f.resends ≠ 16) → (s.resendFrom snd cls n).chan snd cls = { b with unacked := b.unacked.take n ++ l } ∧
      (s.resendFrom snd cls n).out = s.out ++ l.map (fun f => .barrier snd f.typ f.seq f.payload)) ∧
    (∀ f, f ∈ l → f.resends = 16 → ((s.resendFrom snd cls n).elw trsPage 0).bit 2 = true ∧
      ((s.resendFrom snd cls n).elw trsPage 1).bit 2 = true)) ∧
  (∀ (s : State) (snd : Side) (cls : MsgClass) (n : Nat) (b : BChan) (m : Nat × List Nat) (r : List (Nat × List Nat)),
    b = s.chan snd cls → (b.waiting = [] → s.waitingOut snd cls n = s) ∧
    (b.waiting = m :: r → 8 ≤ b.unacked.length → s.waitingOut snd cls n = s) ∧
    (b.waiting = m :: r → b.unacked.length < 8 → s.waitingOut snd cls (n + 1) =
      ((s.setChan snd cls { b with waiting := r }).frameOut snd cls m.1 m.2).waitingOut snd cls n)) ∧
  -- register access, both ways
  (∀ (s : State) (pg : Page) (off width : Nat) (v : Word), blkField pg.blk = true → pg.exist = true →
    exec (.pageRd pg off) s = .next ((s.barrierAccept .field .mgmt).barrierSend .field .mgmt 0x11
      ([pg.src, off] ++ wordHalves (s.readReg pg (off / 8 * 8)))) ∧
    ((∀ x, x ∈ s.bar.reads → x.2 ≠ pg.offset + off) →
      exec (.pageRdRsp pg off v) s = .next ((s.barrierAccept .host .mgmt).emit (.readReply none (pg.offset + off) v))) ∧
    exec (.pageWr pg off width v) s = .next (((s.barrierAccept .field .mgmt).regPut true pg off width v).barrierSend .field .mgmt
      0x13 [pg.src, off]) ∧
    exec (.pageWrAck pg off) s = .next (s.barrierAccept .host .mgmt)) ∧
  -- a core that waits for the value of a field page is the one that gets it
  (∀ (s : State) (pg : Page) (off n a : Nat) (v : Word) (rest : List (Nat × Nat)), blkField pg.blk = true → pg.exist = true →
    a = pg.offset + off → s.bar.reads = (n, a) :: rest → (s.core n).page = some (a, none) → Gives (.pageRdRsp pg off v) s (fun t =>
      (t.core n).page = some (a, some v) ∧ t.bar.reads = rest ∧ ∀ m, m ≠ n → t.core m = s.core m)) ∧
  (∀ (s : State) (pg : Page) (off width : Nat) (v : Word), blkField pg.blk = false → pg.exist = true →
    exec (.hostRd pg off) s = .next (((s.barrierAccept .host .mgmt).pageAccess pg).barrierSend .host .mgmt 0x15
      ([pg.src, off] ++ wordHalves (((s.barrierAccept .host .mgmt).pageAccess pg).readReg pg (off / 8 * 8)))) ∧
    exec (.hostRdRsp pg off v) s = .next ((s.barrierAccept .field .mgmt).emit (.fieldReply true [v])) ∧
    exec (.hostWr pg off width v) s = .next (((s.barrierAccept .host .mgmt).regPut false pg off width v).barrierSend .host .mgmt
      0x17 [pg.src, off]) ∧
    exec (.hostWrAck pg off) s = .next (s.barrierAccept .field .mgmt)) ∧
  (∀ (s : State) (pg : Page), blkField pg.blk = true → pg.exist = true → (s.barrierAccept .host .mgmt).pageIrq pg = true →
    exec (.int pg) s = .next ((s.barrierAccept .host .mgmt).sendPageIrq pg)) ∧
  -- images, keys, seeds, mailboxes, telemetry
  (∀ (s u : State) (kind : Nat) (bs : List Byte), (kind = 2 ∨ kind = 3) → (s.reg Blk.clk.page 0x148).bit 2 = true →
    u = s.barrierAccept .field .mgmt → bs = u.bankImage u.bank kind →
    exec (.imgReq kind) s = .next (u.imgStream kind bs.length bs)) ∧
  (∀ (s : State) (kind k : Nat) (b : Byte) (bs : List Byte), s.imgStream kind k [] = s.barrierSend .field .mgmt 0x22 [kind] ∧
    s.imgStream kind (k + 1) (b :: bs) =
      (s.barrierSend .field .mgmt 0x21 (kind :: ((b :: bs).take 52).map BitVec.toNat)).imgStream kind k ((b :: bs).drop 52)) ∧
  (∀ (s u : State) (kind : Nat) (data : List Byte), u = s.barrierAccept .host .mgmt →
    Gives (.imgData kind data) s (fun t => Tab.get [] t.trs.incoming kind = Tab.get [] s.trs.incoming kind ++ data ∧
      ∀ j, j ≠ kind → Tab.get [] t.trs.incoming j = Tab.get [] s.trs.incoming j) ∧
    exec (.imgEnd kind) s = .next (({ u with trs := { u.trs with incoming := Tab.erase u.trs.incoming kind } } : State).barrierSend
      .host .mgmt 0x23 [kind]) ∧
    exec (.imgAck kind) s = .next (s.barrierAccept .field .mgmt) ∧
    Gives (.telemetry kind data) s (fun t => Tab.get [] t.trs.telemetry kind = data)) ∧
  (∀ (s : State) (key : List Byte), s.trs.handoffDwk = some key →
    Gives .keyInstall s (fun t => t.cph = { s.cph with dwk := some key })) ∧
  (∀ (s : State), Gives .seed s (fun t => t.cph = { s.cph with rngSeed := s.cph.rngSeed + 1, rngServed := 0 })) ∧
  (∀ (s : State), s.trs.weirRuns = true → 2 ^ 20 ≤ s.cph.rngServed →
    exec .reseedDue s = .next (s.barrierSend .field .mgmt 0x25 [])) ∧
  (∀ (s : State) (msg : List Byte), Gives (.mbox msg) s (fun t => t.trs.mbox = s.trs.mbox ++ [msg]) ∧
    Gives (.mboxRsp msg) s (fun t => t.trs.mboxRsp = s.trs.mboxRsp ++ [msg])) ∧
  -- heartbeats
  (∀ (s : State), Gives .heartbeat s (fun t => t.flt.heartbeatAt = s.clk.noc) ∧
    (s.trs.weirRuns = true → s.flt.heartbeatSent + 65536 ≤ s.clk.fld →
      exec .heartbeatSend s = .next (({ s with flt := { s.flt with heartbeatSent := s.clk.fld, watchdogAt := s.clk.fld } } :
        State).barrierSend .field .mgmt 0x2A []))) ∧
  -- a request of firmware is clamped to the field side's limit, and the answer says so
  (∀ (s u : State) (die mult m : Nat), u = s.barrierAccept .field .mgmt → m = max 8 (min mult (if s.pwr.bin3 then 36 else 32)) →
    (die = 0 ∨ die = 1) → exec (.powerClockControl (.multLimit die mult)) s = .next ((({ u with
      pwr := (if die = 0 then { s.pwr with fwMult0 := m } else { s.pwr with fwMult1 := m }),
      trs := { u.trs with pwrAnswer := some (m, decide (m ≠ mult)) } } : State).ctrlStat).barrierSend .field .mgmt 0x1C
        [m, if m ≠ mult then 1 else 0])) ∧
  (∀ (s u : State) (watts c : Nat), u = s.barrierAccept .field .mgmt → c = max 300 (min watts ((s.reg Blk.pwr.page 0x100).field 31 16)) →
    exec (.powerClockControl (.softCap watts)) s = .next ((({ u with pwr := { s.pwr with fwCap := some c }, trs := { u.trs with
      pwrAnswer := some (c, decide (c ≠ watts)) } } : State).ctrlStat).barrierSend .field .mgmt 0x1C [c, if c ≠ watts then 1 else 0])) ∧
  -- debug, refused while it is locked; management, refused without its key
  (∀ (s : State) (acc : DbgAccess), s.weirServes 1 = true → s.debugOpen = false →
    exec (.debugAccess acc) s = .next ((s.count1 .trs 5).emit (.fieldReply false []))) ∧
  (∀ (s : State) (n r off width : Nat) (pg : Page) (v : Word), s.weirServes 1 = true → s.debugOpen = true →
    (n < 80 → exec (.debugAccess (.haltCore n)) s = .next ((s.setCore n { s.core n with halted := true }).emit (.fieldReply true [])) ∧
      exec (.debugAccess (.resumeCore n)) s = .next ((s.setCore n { s.core n with halted := false }).emit (.fieldReply true [])) ∧
      (r < 32 → exec (.debugAccess (.readG n r)) s = .next (s.emit (.fieldReply true [Tab.get 0 (s.core n).g r])))) ∧
    (s.fieldReach pg = true →
      exec (.debugAccess (.readReg pg off)) s =
        .next ((s.pageAccess pg).emit (.fieldReply true [(s.pageAccess pg).readReg pg (off / 8 * 8)])) ∧
      exec (.debugAccess (.writeReg pg off width v)) s = .next ((s.regPut false pg off width v).emit (.fieldReply true [])))) ∧
  (∀ (s : State) (auth : Bool) (acc : DbgAccess), s.weirServes 0 = true → (auth = false ∨ s.trs.mgmtKey = none) →
    exec (.mgmtRequest auth acc) s = .next (s.emit (.fieldReply false []))) ∧
  (∀ (s : State) (a off width : Nat) (data : List Byte) (pg : Page) (v : Word), s.weirServes 0 = true → s.trs.mgmtKey ≠ none →
    exec (.mgmtRequest true (.flashWrite a data)) s = .next ((s.flashWrite a data).emit (.fieldReply true [])) ∧
    (s.fieldReach pg = true →
      exec (.mgmtRequest true (.readReg pg off)) s =
        .next ((s.pageAccess pg).emit (.fieldReply true [(s.pageAccess pg).readReg pg (off / 8 * 8)])) ∧
      exec (.mgmtRequest true (.writeReg pg off width v)) s = .next ((s.regPut false pg off width v).emit (.fieldReply true []))))

/-- VIN40_APPLY, the steps of start-up, recovery, the commands of TRS, attestation and test injection (R360 to R375, R478). -/
def Obligations.TrustAndStartup : Prop :=
  -- steps 1 to 3: power, REFIN, boot ROM
  (∀ (s : State), s.trs.startup = 0 → exec .vin40Apply s = .next { s with trs := { s.trs with fieldPower := true, startup := 1 } }) ∧
  (∀ (s u : State), s.trs.startup = 1 → s.cg.refinField = true →
    u = (s.setPll 0 { Pll.reset with state := .stable, run := 4 }).count1 .clk 3 →
    exec .startupRefin s = .next { u with trs := { s.trs with startup := 2 } }) ∧
  (∀ (s : State) (b : Bool), s.trs.startup = 2 → s.trs.recovery = false → s.cg.refinField = true →
    b = (s.bootSelect != s.trs.triedBank) → exec .startupBootRom s = .next (match s.accept 4 0 none (s.bankImage b 0) with
      | none => s.fallback
      | some k => match s.accept 1 1 (some k.body) (s.bankImage b 1) with
        | none => s.fallback
        | some w => s.weirStart b k w)) ∧
  -- an image is accepted by its form, its version and its signature alone
  (∀ (s : State) (kind floor : Nat) (m : Option (List Byte)) (bs : List Byte), s.accept kind floor m bs = none ∨
    (s.accept kind floor m bs = some ⟨slice bs 512 (hdrWord bs 2).toNat, sha384 (bs.take 0x180), (hdrWord bs 1).field 15 0⟩ ∧
     (hdrWord bs 0).field 63 32 = 0x5654494D ∧ (hdrWord bs 0).field 7 0 = 1 ∧ (hdrWord bs 0).field 31 16 = 0 ∧
     s.trs.svnFloor.getD floor 0 ≤ (hdrWord bs 1).field 15 0 ∧ slice bs 0x20 48 = sha384 (slice bs 512 (hdrWord bs 2).toNat) ∧
     (m = none → sha384 Config.rootKey = s.trs.rootHash ∧ imageSigned bs Config.rootKey = true) ∧
     (∀ body, m = some body → (hdrWord bs 1).field 19 16 < 4 ∧ s.trs.revoke.toNat.testBit ((hdrWord bs 1).field 19 16) = false ∧
       (manifestKey body ((hdrWord bs 1).field 19 16)).2.toNat.testBit 0 = true ∧
       imageSigned bs (manifestKey body ((hdrWord bs 1).field 19 16)).1 = true))) ∧
  (∀ (s : State) (b : Bool) (k w : Image), (s.weirStart b k w).trs.startup = 3 ∧ (s.weirStart b k w).trs.weirRuns = true ∧
    (s.weirStart b k w).trs.keyman = some k ∧ (s.weirStart b k w).trs.weir = some w ∧ (s.weirStart b k w).trs.udsLocked = true ∧
    (s.trs.udsLocked = false → (s.weirStart b k w).trs.handoffDwk =
      some ((hmac384 s.trs.uds (label [0x56, 0x54, 0x39, 0x2D, 0x44, 0x57, 0x4B])).take 32)) ∧
    (s.trs.udsLocked = true → (s.weirStart b k w).trs.handoffDwk = s.trs.handoffDwk)) ∧
  (∀ (s : State), FusesKept s.trs s.fallback.trs ∧ s.fallback.trs.weirRuns = false ∧ s.fallback.trs.startup = 2 ∧
    (s.trs.triedBank = true → s.fallback.trs.recovery = true) ∧
    (s.trs.triedBank = false → s.fallback.trs.recovery = false ∧ s.fallback.trs.triedBank = true ∧
      s.fallback.trs.hostPower = false ∧ (s.fallback.reg trsPage 0x108).bit 62 = true)) ∧
  -- steps 4 to 8: host power, PLLs, HBM, images, link
  (∀ (s : State), s.trs.startup = 3 → s.trs.weirRuns = true → s.pwr.tripAt = none → s.pwr.hsenAt = none → s.cg.refinField = true →
    (s.flt.safe = false ∨ s.flt.exiting = true) → exec .startupPower s = .next { s with
      trs := { s.trs with hostPower := true, startup := 4 }, pwr := { s.pwr with hostOff := false },
      balls := { s.balls with hsen := true, pgood := true } }) ∧
  (∀ (s : State), s.trs.startup = 4 → s.cg.refinHost = true → Gives .startupPll s (fun t =>
    t.trs = { s.trs with dieReset := false, startup := 5 } ∧ ∀ n, n ∈ s.hostPlls → (t.pll n).state = .stable)) ∧
  (∀ (s : State), s.trs.startup = 5 → s.flt.exiting = false →
    exec .startupHbmTrain s = .next { s with trs := { s.trs with startup := 6 } }) ∧
  (∀ (s : State), s.trs.startup = 5 → s.flt.exiting = true →
    exec .startupHbmTrain s = .next ({ s with trs := { s.trs with startup := 6 } } : State).allScrubbed) ∧
  (∀ (s : State), s.trs.startup = 6 → Gives .startupImages s (fun t =>
    (s.mainImages s.bank = none ∧ t = s.fallback) ∨ ∃ r m, s.mainImages s.bank = some (r, m) ∧ t.trs.startup = 7 ∧
      t.trs.runtime = some r ∧ t.trs.monitor = some m ∧ t.fwi.restartCopy = some (r, m) ∧ t.trs.handoffCdi = none ∧
      (∀ c, s.trs.handoffCdi = some c → t.trs.ak = some (beBytes 48 (scalarOf (fun x => hmac384 c (r.meas ++ m.meas ++
        leBytes 2 r.svn ++ leBytes 2 m.svn ++ x)) 256 0 (hmac384 c (r.meas ++ m.meas ++ leBytes 2 r.svn ++ leBytes 2 m.svn))))) ∧
      (s.trs.handoffCdi = none → t.trs.ak = s.trs.ak) ∧
      ∀ n, n < 80 → t.core n = { Core.started with wdogAt := s.clk.ctl })) ∧
  (∀ (s : State), s.trs.startup = 7 → Gives .startupLinkReady s (fun t => t.trs.startup = 8 ∧ t.trs.linkReady = true ∧
    t.flt.safe = (s.flt.safe && !s.flt.exiting) ∧ (s.flt.exiting = true → t.flt.exiting = false))) ∧
  -- in recovery the banks of the flash can be written, and a write is what the flash reads
  (∀ (s : State) (a : Nat) (data : List Byte), s.trs.recovery = true → a + data.length ≤ 0x07FF0000 →
    (s.reg Blk.clk.page 0x148).bit 3 = true → exec (.recoveryFlashWrite a data) s = .next (s.flashWrite a data)) ∧
  (∀ (s : State) (a : Nat) (data : List Byte), (s.reg Blk.clk.page 0x148).bit 2 = true → a + data.length ≤ flashSize →
    (s.flashWrite a data).flashBytes a data.length = data ∧
    ∀ j, (j < a ∨ a + data.length ≤ j) → (s.flashWrite a data).flashBytes j 1 = s.flashBytes j 1) ∧
  -- debug
  (∀ (s : State), Taken s .trs → Gives .debugChallenge s (fun t => t.debugOpen = s.debugOpen ∧
    (t.reg trsPage 0x110).bit 62 = true ∧ t.free = s.free + 6 ∧
    ∀ i, i < 6 → t.reg trsPage (0x118 + 8 * i) = Config.freeWord (s.free + i))) ∧
  (∀ (s : State) (a : Nat) (d : Word), Taken s .trs → a = (s.reg trsPage 0x150).toNat → a % 64 = 0 → s.ownsHbm 0 a 96 = true →
    s.firstBad a 96 = none → d = s.reg trsPage 0x110 →
    ((d.bit 63 = false ∨ d.bit 62 = false) → exec .debugUnlock s = .next (s.cmdEnd .trs 2 0 .state)) ∧
    (d.bit 63 = true → d.bit 62 = true → Gives .debugUnlock s (fun t =>
      if s.debugSigned (s.bytes a 48) (s.bytes (a + 48) 48) = false then t = s.cmdEnd .trs 2 0 .integrity
      else t.debugOpen = true ∧ (t.reg trsPage 0x110).bit 62 = false ∧ t.guarantee.bit 1 = false ∧
        (t.reg trsPage 0x30).bit 9 = true ∧ (s.guarantee.bit 63 = true → (t.reg prtPage 0x30).bit 10 = true)))) ∧
  -- reports
  (∀ (s : State) (p : Nat) (vi : Option Nat), s.reportCheck p vi = .ok ↔ (s.part p).state = .active ∧ s.flt.safe = false ∧
    s.trs.reports.length < 64 ∧ ((s.reg trsPage 0x100).field 15 0 = 0 ∨
      (s.trs.signedAt.filter (fun t => s.clk.fld < t + 200000000)).length < (s.reg trsPage 0x100).field 15 0) ∧
    (∀ v, vi = some v → (∀ r, r ∈ s.trs.reports → r.vi ≠ some v) ∧ ∀ e, e ∈ s.trs.signed → e.1 ≠ v)) ∧
  (∀ (s : State) (p a : Nat) (st : Status), Taken s .trs → p < 128 → a = (s.reg trsPage 0x150).toNat →
    (a % 64 ≠ 0 → exec (.report p) s = .next (s.cmdEnd .trs 3 0 .format)) ∧
    (a % 64 = 0 → s.ownsHbm 0 a 480 = true → s.firstBad a 48 = none → st = s.reportCheck p none →
      (st = .ok → exec (.report p) s = .next ((s.reportTake ⟨p, none, s.bytes a 48, a + 64⟩).setBusy .trs true)) ∧
      (st ≠ .ok → exec (.report p) s = .next ((s.count1 .trs 4).cmdEnd .trs 3 0 st)))) ∧
  (∀ (s : State) (r : Report), (s.reportTake r).trs.reports = s.trs.reports ++ [r]) ∧
  (∀ (s u : State) (v p : Nat) (st : Status), u = s.barrierAccept .field .mgmt → p = (u.ownerOf tyVi v).getD 0x7F →
    st = u.reportCheck p (some v) →
    (st = .ok → exec (.attReq v) s = .next (u.reportTake ⟨p, some v, u.viNonce v, (u.reg ⟨.fwi, 0x1000 + v⟩ 0x630).toNat⟩)) ∧
    (st ≠ .ok → exec (.attReq v) s = .next ((u.count1 .trs 4).barrierSend .field .mgmt 0x27 [v, st.code]))) ∧
  (∀ (s u : State) (r : Report) (rest : List Report) (d body bytes : List Byte) (sig : List Byte × List Byte),
    s.trs.reports = r :: rest → s.trs.ak = some d → body = s.reportBody r (s.trs.reportSeq + 1) →
    sig = ecdsaSign (beNat d) body s.signNonce.1 → bytes = body ++ sig.1 ++ sig.2 →
    u = ({ s with free := s.free + 6, trs := { s.trs with reports := rest, reportSeq := s.trs.reportSeq + 1 } } : State).count1
      .trs 3 →
    (r.vi = none → exec .reportSigned s = .next ((u.setBytes r.dest bytes).cmdEnd .trs 3 0 .ok)) ∧
    (∀ v, r.vi = some v → exec .reportSigned s = .next (({ u with trs := { u.trs with signed := u.trs.signed ++
      [(v, bytes)] } } : State).barrierSend .field .mgmt 0x27 [v, 0]))) ∧
  (∀ (s u : State) (v : Nat) (e : Nat × List Byte) (st : Status), u = s.barrierAccept .host .mgmt →
    (u.trs.signed.find? (fun e => e.1 = v) = some e → u.hostUp = true → Gives (.attRsp v .ok) s (fun t =>
      (t.reg ⟨.fwi, 0x1000 + v⟩ 0x640) = 0 ∧ (∀ x, x ∈ t.trs.signed ↔ x ∈ s.trs.signed ∧ x.1 ≠ v) ∧
      (u.viIssues (some v) = true → .hostWrite (some v) (u.reg ⟨.fwi, 0x1000 + v⟩ 0x630).toNat e.2 ∈ t.out))) ∧
    (u.trs.signed.find? (fun e => e.1 = v) = some e → u.hostUp = false → Gives (.attRsp v .ok) s (fun t =>
      v ∈ t.trs.attWaits ∧ t.trs.signed = s.trs.signed)) ∧
    (st ≠ .ok → Gives (.attRsp v st) s (fun t => (t.reg ⟨.fwi, 0x1000 + v⟩ 0x640).field 55 48 = st.code))) ∧
  -- certificates, floors, boot bank, management key, injection
  (∀ (s : State) (a : Nat), Taken s .trs → a = (s.reg trsPage 0x150).toNat → a % 64 = 0 →
    exec .certs s = .next (if Config.certChain.length = 0 ∨ s.ownsHbm 0 a Config.certChain.length = true then
      ((s.setBytes a Config.certChain).setReg trsPage 0x168 (Word.of Config.certChain.length)).cmdEnd .trs 4 0 .ok
      else s.cmdEnd .trs 4 0 .accessViolation)) ∧
  (∀ (s : State), Taken s .trs →
    ((s.reg trsPage 0x108).bit 62 = true → exec .svnCommit s = .next (s.cmdEnd .trs 5 0 .state)) ∧
    ((s.reg trsPage 0x108).bit 62 = false → exec .svnCommit s = .next (({ s with trs := { s.trs with svnFloor :=
      [max (s.trs.svnFloor.getD 0 0) (min 64 (svnOf s.trs.keyman)), max (s.trs.svnFloor.getD 1 0) (min 64 (svnOf s.trs.weir)),
       max (s.trs.svnFloor.getD 2 0) (min 64 (min (svnOf s.trs.runtime) (svnOf s.trs.monitor)))] } } : State).cmdEnd .trs 5 0 .ok))) ∧
  (∀ (s : State), Taken s .trs →
    exec (.bankSelect 0) s = .next ((s.flashWrite 0x07FFF000 [0, 0, 0, 0]).cmdEnd .trs 6 0 .ok) ∧
    exec (.bankSelect 1) s = .next ((s.flashWrite 0x07FFF000 [1, 0, 0, 0]).cmdEnd .trs 6 0 .ok)) ∧
  (∀ (s : State) (a : Nat), Taken s .trs → a = (s.reg trsPage 0x150).toNat → a % 64 = 0 → s.ownsHbm 0 a 32 = true →
    s.firstBad a 32 = none → Gives .mgmtKey s (fun t => t.trs.mgmtKey = some (s.bytes a 32) ∧ (∀ i, i < 32 → t.byte (a + i) = 0) ∧
      ((t.reg trsPage 0x160).field 55 48 = 0))) ∧
  (∀ (s : State), s.flt.safe = false → s.flt.planes.contains 2 = false →
    exec .injEnSet s = .next (s.setReg trsPage 0x148 ((s.reg trsPage 0x148).setBit 0 true)))
/-! ## Zarn instruction set (19_zarn_instruction_set.md) -/

/-- The integer instructions: results, flags, frame, and the words that are ILLEGAL (R377 to R381, R385 to R390). -/
def Obligations.ZarnIntegers : Prop :=
  -- 16-bit forms
  (∀ (s t : State) (n : Nat) (rd rs : BitVec 5) (imm : BitVec 6) (a b v : Word) (i : Instr), Fetched s n 2 t →
    a = s.gr n rd.toNat → b = s.gr n rs.toNat →
    ((i, v) ∈ [(.sAdd n rd rs, a + b), (.sSub n rd rs, a - b), (.sAnd n rd rs, a &&& b), (.sOr n rd rs, a ||| b),
      (.sXor n rd rs, a ^^^ b), (.sShl n rd rs, a <<< b.toNat), (.sSar n rd rs, a.sshiftRight b.toNat),
      (.sAddI n rd imm, a + imm.signExtend 64), (.sLdi n rd imm, imm.signExtend 64), (.sShlI n rd imm, a <<< imm.toNat),
      (.sShrI n rd imm, a >>> imm.toNat)] ∨ (i = .sMov n rd rs ∧ v = b ∧ (rd ≠ 0 ∨ rs ≠ 0))) →
    Gives i s (fun u => u.pc n = s.pc n + 2 ∧ (rd ≠ 0 → u.gr n rd.toNat = v) ∧ u.gr n 0 = 0 ∧
      CoreKept s u n [rd.toNat] [] [] ∧ NoStore t u n)) ∧
  (∀ (s t : State) (n : Nat), Fetched s n 2 t → exec (.sMov n 0 0) s = .next ((t.pageDrop n).trapTake n (illegal 0))) ∧
  -- OP 0x00 at width 64, and at width 32 with F6 = 1
  (∀ (s t : State) (n w : Nat) (rd rs1 rs2 : BitVec 5) (f6 : BitVec 6) (x y v : BitVec w) (b : Word) (i : Instr), Fetched s n 4 t →
    ((w = 64 ∧ f6 = 0) ∨ (w = 32 ∧ f6 = 1)) → x = (s.gr n rs1.toNat).setWidth w → b = s.gr n rs2.toNat → y = b.setWidth w →
    (i, v) ∈ [(.add n rd rs1 rs2 f6, x + y), (.sub n rd rs1 rs2 f6, x - y), (.and n rd rs1 rs2 f6, x &&& y),
      (.or n rd rs1 rs2 f6, x ||| y), (.xor n rd rs1 rs2 f6, x ^^^ y), (.shl n rd rs1 rs2 f6, x <<< b.toNat),
      (.shr n rd rs1 rs2 f6, x >>> b.toNat), (.sar n rd rs1 rs2 f6, x.sshiftRight b.toNat),
      (.rotl n rd rs1 rs2 f6, x.rotateLeft b.toNat), (.rotr n rd rs1 rs2 f6, x.rotateRight b.toNat),
      (.lts n rd rs1 rs2 f6, if x.toInt < y.toInt then 1 else 0), (.ltu n rd rs1 rs2 f6, if x.toNat < y.toNat then 1 else 0)] →
    Gives i s (fun u => u.pc n = s.pc n + 4 ∧ (rd ≠ 0 → u.gr n rd.toNat = v.signExtend 64) ∧
      CoreKept s u n [rd.toNat] [] [] ∧ NoStore t u n)) ∧
  -- OP 0x01
  (∀ (s t : State) (n : Nat) (rd rs1 : BitVec 5) (imm : BitVec 11) (a b v : Word) (i : Instr), Fetched s n 4 t →
    a = s.gr n rs1.toNat → b = imm.signExtend 64 →
    (i, v) ∈ [(.addI n rd rs1 imm, a + b), (.andI n rd rs1 imm, a &&& b), (.orI n rd rs1 imm, a ||| b),
      (.xorI n rd rs1 imm, a ^^^ b), (.shlI n rd rs1 imm, a <<< imm.toNat), (.shrI n rd rs1 imm, a >>> imm.toNat),
      (.sarI n rd rs1 imm, a.sshiftRight imm.toNat), (.rotrI n rd rs1 imm, a.rotateRight imm.toNat),
      (.ltsI n rd rs1 imm, if a.toInt < b.toInt then 1 else 0), (.ltuI n rd rs1 imm, if a.toNat < b.toNat then 1 else 0)] →
    Gives i s (fun u => u.pc n = s.pc n + 4 ∧ (rd ≠ 0 → u.gr n rd.toNat = v) ∧ CoreKept s u n [rd.toNat] [] [] ∧ NoStore t u n)) ∧
  -- the functions that write flags
  (∀ (s t : State) (n w : Nat) (rd rs1 rs2 : BitVec 5) (f6 : BitVec 6) (imm : BitVec 11) (x y r : BitVec w) (c v : Bool) (i : Instr),
    Fetched s n 4 t → x = (s.gr n rs1.toNat).setWidth w →
    (((w = 64 ∧ f6 = 0) ∨ (w = 32 ∧ f6 = 1)) ∧ y = (s.gr n rs2.toNat).setWidth w ∧
      ((i = .addF n rd rs1 rs2 f6 ∧ r = x + y ∧ c = decide (2 ^ w ≤ x.toNat + y.toNat) ∧ v = decide (x.toInt + y.toInt ≠ r.toInt)) ∨
       (i = .subF n rd rs1 rs2 f6 ∧ r = x - y ∧ c = decide (y.toNat ≤ x.toNat) ∧ v = decide (x.toInt - y.toInt ≠ r.toInt)) ∨
       (i = .neg n rd rs1 0 f6 ∧ r = -x ∧ c = (s.flg n).bit 2 ∧ v = decide (-x.toInt ≠ r.toInt)) ∨
       (i = .andF n rd rs1 rs2 f6 ∧ r = x &&& y ∧ c = false ∧ v = false)) ∨
     (w = 64 ∧ y = (imm.signExtend 64).setWidth w ∧
      ((i = .addFi n rd rs1 imm ∧ r = x + y ∧ c = decide (2 ^ w ≤ x.toNat + y.toNat) ∧ v = decide (x.toInt + y.toInt ≠ r.toInt)) ∨
       (i = .subFi n rd rs1 imm ∧ r = x - y ∧ c = decide (y.toNat ≤ x.toNat) ∧ v = decide (x.toInt - y.toInt ≠ r.toInt))))) →
    Gives i s (fun u => u.pc n = s.pc n + 4 ∧ (rd ≠ 0 → u.gr n rd.toNat = r.signExtend 64) ∧
      FlagsAre u n r.msb (decide (r = 0)) c v ((s.flg n).bit 0) ∧ CoreKept s u n [rd.toNat] [] [0x001] ∧ NoStore t u n)) ∧
  -- multiply
  (∀ (s t : State) (n w : Nat) (rd rs1 rs2 : BitVec 5) (f6 : BitVec 6) (x y v : BitVec w) (i : Instr), Fetched s n 4 t →
    ((w = 64 ∧ f6 = 0) ∨ (w = 32 ∧ f6 = 1)) → x = (s.gr n rs1.toNat).setWidth w → y = (s.gr n rs2.toNat).setWidth w →
    ((i = .mullo n rd rs1 rs2 f6 ∧ v = x * y) ∨ (w = 64 ∧
      ((i = .mulhiSs n rd rs1 rs2 f6 ∧ v = BitVec.ofInt w (x.toInt * y.toInt / 2 ^ w)) ∨
       (i = .mulhiUu n rd rs1 rs2 f6 ∧ v = BitVec.ofNat w (x.toNat * y.toNat / 2 ^ w)) ∨
       (i = .mulhiSu n rd rs1 rs2 f6 ∧ v = BitVec.ofInt w (x.toInt * y.toNat / 2 ^ w))))) →
    Gives i s (fun u => u.pc n = s.pc n + 4 ∧ (rd ≠ 0 → u.gr n rd.toNat = v.signExtend 64) ∧
      CoreKept s u n [rd.toNat] [] [] ∧ NoStore t u n)) ∧
  -- divide: by zero the quotient is 0 and the remainder the dividend, or DIVZERO is raised; MIN by −1 wraps and sets V
  (∀ (s t : State) (n w : Nat) (rd rs1 rs2 : BitVec 5) (f6 : BitVec 6) (x y v : BitVec w) (sg : Bool) (i : Instr), Fetched s n 4 t →
    ((w = 64 ∧ f6 = 0) ∨ (w = 32 ∧ f6 = 1)) → x = (s.gr n rs1.toNat).setWidth w → y = (s.gr n rs2.toNat).setWidth w →
    (i, v, sg) ∈ [(Instr.divs n rd rs1 rs2 f6, if y = 0 then 0 else x.sdiv y, true), (.divu n rd rs1 rs2 f6, if y = 0 then 0 else x / y,
      false), (.rmds n rd rs1 rs2 f6, if y = 0 then x else x.srem y, true), (.rmdu n rd rs1 rs2 f6, if y = 0 then x else x % y,
      false)] →
    (y = 0 → (s.sysRaw n 0x207).bit 0 = true → exec i s = .next ((t.pageDrop n).trapTake n ⟨0x04, 0⟩)) ∧
    ((y ≠ 0 ∨ (s.sysRaw n 0x207).bit 0 = false) → Gives i s (fun u => u.pc n = s.pc n + 4 ∧
      (rd ≠ 0 → u.gr n rd.toNat = v.signExtend 64) ∧ FlagsAre u n ((s.flg n).bit 4) ((s.flg n).bit 3) ((s.flg n).bit 2)
        (sg && decide (x = BitVec.intMin w) && decide (y = -1)) (decide (y = 0)) ∧
      CoreKept s u n [rd.toNat] [] [0x001] ∧ NoStore t u n))) ∧
  -- bits of F6 that must be 0, RS2 of NEG, and the multiplications that have no W form
  (∀ (s t : State) (n f4 op : Nat) (rd rs1 rs2 : BitVec 5) (f6 : BitVec 6) (i : Instr), Fetched s n 4 t →
    (i, op, f4) ∈ [(Instr.add n rd rs1 rs2 f6, 0, 0x0), (.sub n rd rs1 rs2 f6, 0, 0x1), (.and n rd rs1 rs2 f6, 0, 0x2),
      (.or n rd rs1 rs2 f6, 0, 0x3), (.xor n rd rs1 rs2 f6, 0, 0x4), (.shl n rd rs1 rs2 f6, 0, 0x5), (.shr n rd rs1 rs2 f6, 0, 0x6),
      (.sar n rd rs1 rs2 f6, 0, 0x7), (.rotl n rd rs1 rs2 f6, 0, 0x8), (.rotr n rd rs1 rs2 f6, 0, 0x9), (.lts n rd rs1 rs2 f6, 0, 0xA),
      (.ltu n rd rs1 rs2 f6, 0, 0xB), (.addF n rd rs1 rs2 f6, 0, 0xC), (.subF n rd rs1 rs2 f6, 0, 0xD), (.neg n rd rs1 rs2 f6, 0, 0xE),
      (.andF n rd rs1 rs2 f6, 0, 0xF), (.mullo n rd rs1 rs2 f6, 2, 0x0), (.mulhiSs n rd rs1 rs2 f6, 2, 0x1),
      (.mulhiUu n rd rs1 rs2 f6, 2, 0x2), (.mulhiSu n rd rs1 rs2 f6, 2, 0x3), (.divs n rd rs1 rs2 f6, 2, 0x4),
      (.divu n rd rs1 rs2 f6, 2, 0x5), (.rmds n rd rs1 rs2 f6, 2, 0x6), (.rmdu n rd rs1 rs2 f6, 2, 0x7)] →
    (2 ≤ f6.toNat ∨ (i = .neg n rd rs1 rs2 f6 ∧ rs2 ≠ 0) ∨ (f6 = 1 ∧ op = 2 ∧ (f4 = 1 ∨ f4 = 2 ∨ f4 = 3))) →
    exec i s = .next ((t.pageDrop n).trapTake n (illegal (Word.of (encR op rd.toNat f4 rs1.toNat rs2.toNat f6.toNat)))))

/-- Loads, stores and atomics of general and floating-point registers, and translation (R379, R381, R391, R392, R405, R412 to R415). -/
def Obligations.ZarnMemory : Prop :=
  -- a form that reaches memory: its size, its address, whether it stores, and, of a load, what its register takes
  (∀ (s t v : State) (n pa size len : Nat) (rd rs1 rs2 : BitVec 5) (imm : BitVec 11) (r3 b3 : BitVec 3) (o5 : BitVec 5) (o6 : BitVec 6)
    (va m x : Word) (i : Instr) (fl : Bool) (d : Nat), Fetched s n len t → (len = 2 ∨ len = 4) →
    m = Word.of (leNat (v.bytes pa size)) →
    ((i, len, va, size, d, fl, x) ∈ [
      (Instr.ld8s n rd rs1 imm, 4, s.gr n rs1.toNat + imm.signExtend 64, 1, rd.toNat, false, (m.setWidth 8).signExtend 64),
      (.ld16s n rd rs1 imm, 4, s.gr n rs1.toNat + imm.signExtend 64, 2, rd.toNat, false, (m.setWidth 16).signExtend 64),
      (.ld32s n rd rs1 imm, 4, s.gr n rs1.toNat + imm.signExtend 64, 4, rd.toNat, false, (m.setWidth 32).signExtend 64),
      (.ld64 n rd rs1 imm, 4, s.gr n rs1.toNat + imm.signExtend 64, 8, rd.toNat, false, m),
      (.ld8u n rd rs1 imm, 4, s.gr n rs1.toNat + imm.signExtend 64, 1, rd.toNat, false, m),
      (.ld16u n rd rs1 imm, 4, s.gr n rs1.toNat + imm.signExtend 64, 2, rd.toNat, false, m),
      (.ld32u n rd rs1 imm, 4, s.gr n rs1.toNat + imm.signExtend 64, 4, rd.toNat, false, m),
      (.fl32 n rd rs1 imm, 4, s.gr n rs1.toNat + imm.signExtend 64, 4, rd.toNat, true, m),
      (.fl64 n rd rs1 imm, 4, s.gr n rs1.toNat + imm.signExtend 64, 8, rd.toNat, true, m),
      (.sLd64 n r3 b3 o5, 2, s.gr n (8 + b3.toNat) + Word.of (8 * o5.toNat), 8, 8 + r3.toNat, false, m),
      (.sLdf n rd o6, 2, s.gr n 2 + Word.of (8 * o6.toNat), 8, rd.toNat, false, m)] →
      (va.toNat % size ≠ 0 → exec i s = .next ((t.pageDrop n).trapTake n ⟨0x03, va⟩)) ∧
      (∀ tr, va.toNat % size = 0 → (t.setPc n (s.pc n + Word.of len)).vmap n .load va = .error tr →
        exec i s = .next ((t.pageDrop n).trapTake n tr)) ∧
      (va.toNat % size = 0 → (t.setPc n (s.pc n + Word.of len)).vmap n .load va = .ok (pa, v) → physOf n pa size = .nothing →
        exec i s = .next ((t.pageDrop n).trapTake n ⟨0x09, va⟩)) ∧
      (va.toNat % size = 0 → (t.setPc n (s.pc n + Word.of len)).vmap n .load va = .ok (pa, v) → pa + size ≤ hbmSize →
        Gives i s (fun u => u.pc n = s.pc n + Word.of len ∧ (fl = true → u.fr n d = x ∧ CoreKept s u n [] [d] []) ∧
          (fl = false → (d ≠ 0 → u.gr n d = x) ∧ CoreKept s u n [d] [] []) ∧ NoStore v u n))) ∧
    ((i, len, va, size, x) ∈ [
      (Instr.st8 n rs2 rs1 imm, 4, s.gr n rs1.toNat + imm.signExtend 64, 1, s.gr n rs2.toNat),
      (.st16 n rs2 rs1 imm, 4, s.gr n rs1.toNat + imm.signExtend 64, 2, s.gr n rs2.toNat),
      (.st32 n rs2 rs1 imm, 4, s.gr n rs1.toNat + imm.signExtend 64, 4, s.gr n rs2.toNat),
      (.st64 n rs2 rs1 imm, 4, s.gr n rs1.toNat + imm.signExtend 64, 8, s.gr n rs2.toNat),
      (.fs32 n rs2 rs1 imm, 4, s.gr n rs1.toNat + imm.signExtend 64, 4, s.fr n rs2.toNat),
      (.fs64 n rs2 rs1 imm, 4, s.gr n rs1.toNat + imm.signExtend 64, 8, s.fr n rs2.toNat),
      (.sSt64 n r3 b3 o5, 2, s.gr n (8 + b3.toNat) + Word.of (8 * o5.toNat), 8, s.gr n (8 + r3.toNat)),
      (.sStf n rd o6, 2, s.gr n 2 + Word.of (8 * o6.toNat), 8, s.gr n rd.toNat)] →
      (va.toNat % size ≠ 0 → exec i s = .next ((t.pageDrop n).trapTake n ⟨0x03, va⟩)) ∧
      (∀ tr, va.toNat % size = 0 → (t.setPc n (s.pc n + Word.of len)).vmap n .store va = .error tr →
        exec i s = .next ((t.pageDrop n).trapTake n tr)) ∧
      (va.toNat % size = 0 → (t.setPc n (s.pc n + Word.of len)).vmap n .store va = .ok (pa, v) → physOf n pa size = .nothing →
        exec i s = .next ((t.pageDrop n).trapTake n ⟨0x0A, va⟩)) ∧
      (va.toNat % size = 0 → (t.setPc n (s.pc n + Word.of len)).vmap n .store va = .ok (pa, v) → pa + size ≤ hbmSize →
        Gives i s (fun u => u.pc n = s.pc n + Word.of len ∧ u.bytes pa size = leBytes size x.toNat ∧
          (∀ a, (a < pa ∨ pa + size ≤ a) → u.byte a = v.byte a) ∧ (u.core n).tcm = (s.core n).tcm ∧ CoreKept s u n [] [] [])))) ∧
  -- one atomic read-modify-write
  (∀ (s t v v2 : State) (n pa q w : Nat) (rd rs1 rs2 : BitVec 5) (f6 : BitVec 6) (va : Word) (m b old x : BitVec w) (i : Instr),
    Fetched s n 4 t → va = s.gr n rs1.toNat → f6.toNat < 8 → ((w = 32 ∧ f6.toNat % 2 = 1) ∨ (w = 64 ∧ f6.toNat % 2 = 0)) →
    b = (s.gr n rs2.toNat).setWidth w → old = (s.gr n rd.toNat).setWidth w →
    m = (Word.of (leNat (v2.bytes pa (w / 8)))).setWidth w →
    (i, x) ∈ [(.rmwSwap n rd rs1 rs2 f6, b), (.rmwAdd n rd rs1 rs2 f6, m + b), (.rmwAnd n rd rs1 rs2 f6, m &&& b),
      (.rmwOr n rd rs1 rs2 f6, m ||| b), (.rmwXor n rd rs1 rs2 f6, m ^^^ b),
      (.rmwSmin n rd rs1 rs2 f6, if m.toInt ≤ b.toInt then m else b), (.rmwSmax n rd rs1 rs2 f6, if m.toInt ≤ b.toInt then b else m),
      (.rmwUmin n rd rs1 rs2 f6, if m.toNat ≤ b.toNat then m else b), (.rmwUmax n rd rs1 rs2 f6, if m.toNat ≤ b.toNat then b else m),
      (.rmwCmpx n rd rs1 rs2 f6, if m = old then b else m)] →
    (va.toNat % (w / 8) ≠ 0 → exec i s = .next ((t.pageDrop n).trapTake n ⟨0x03, va⟩)) ∧
    (va.toNat % (w / 8) = 0 → (t.setPc n (s.pc n + 4)).vmap n .store va = .ok (pa, v) → v.vmap n .load va = .ok (q, v2) →
      (∀ o, physOf n pa (w / 8) = .device o → exec i s = .next ((t.pageDrop n).trapTake n ⟨0x0A, va⟩)) ∧
      (pa + w / 8 ≤ hbmSize → Gives i s (fun u => u.pc n = s.pc n + 4 ∧ (rd ≠ 0 → u.gr n rd.toNat = m.signExtend 64) ∧
        u.bytes pa (w / 8) = leBytes (w / 8) x.toNat ∧ (∀ a, (a < pa ∨ pa + w / 8 ≤ a) → u.byte a = v2.byte a) ∧
        (i ≠ .rmwCmpx n rd rs1 rs2 f6 → u.flg n = s.flg n) ∧
        (i = .rmwCmpx n rd rs1 rs2 f6 → FlagsAre u n ((s.flg n).bit 4) (decide (m = old)) ((s.flg n).bit 2) ((s.flg n).bit 1)
          ((s.flg n).bit 0)) ∧ CoreKept s u n [rd.toNat] [] [0x001])))) ∧
  -- addresses: physical at M, on control cores, and while PTBR.EN is 0; else canonical, and translated through four levels
  (∀ (s : State) (n : Nat) (a : Acc) (va : Word), (64 ≤ n ∨ (s.core n).level = .m ∨ (s.sysRaw n 0x206).bit 0 = false) →
    s.vmap n a va = .ok (va.toNat, s)) ∧
  (∀ (s : State) (n : Nat) (a : Acc) (va : Word), n < 64 → (s.core n).level ≠ .m → (s.sysRaw n 0x206).bit 0 = true →
    va ≠ (va.setWidth 48).signExtend 64 → s.vmap n a va = .error (a.pageFault va)) ∧
  (∀ (s t : State) (n pa : Nat) (a : Acc) (va : Word) (l : Leaf4), s.walkFor n a va = .ok (pa, t) →
    s.walk a va 3 ((s.sysRaw n 0x206).field 47 12 * 4096) = .ok l →
    leafPermits l.entry a (s.core n).level = true ∧ (t.word l.addr).bit 7 = true ∧ (a = .store → (t.word l.addr).bit 8 = true) ∧
    (t.word l.addr).field 6 0 = l.entry.field 6 0 ∧ (t.word l.addr).field 63 9 = l.entry.field 63 9 ∧
    pa = l.entry.field 47 12 * 4096 + va.toNat % 2 ^ (12 + 9 * l.level)) ∧
  (∀ (s : State) (a : Acc) (va : Word) (k lvl ea table : Nat) (e : Word), ea = table + 8 * (va.toNat / 2 ^ (12 + 9 * lvl) % 512) →
    (hbmSize < ea + 8 → s.walk a va lvl table = .error (a.accessFault va)) ∧
    (ea + 8 ≤ hbmSize → e = s.word ea →
      ((e.bit 0 = false ∨ e.field 63 48 ≠ 0 ∨ e.field 11 9 ≠ 0) → s.walk a va lvl table = .error (a.pageFault va)) ∧
      (e.field 63 48 = 0 → e.field 11 9 = 0 → e.bit 0 = true →
        (e.bit 1 = false → e.field 8 2 = 0 → lvl = k + 1 → s.walk a va lvl table = s.walk a va k (e.field 47 12 * 4096)) ∧
        (e.bit 1 = false → (e.field 8 2 ≠ 0 ∨ lvl = 0) → s.walk a va lvl table = .error (a.pageFault va)) ∧
        (e.bit 1 = true → lvl < 3 → e.field 4 2 ≠ 0 → e.field 47 12 % 2 ^ (9 * lvl) = 0 →
          s.walk a va lvl table = .ok ⟨ea, e, lvl⟩) ∧
        (e.bit 1 = true → (3 ≤ lvl ∨ e.field 4 2 = 0 ∨ e.field 47 12 % 2 ^ (9 * lvl) ≠ 0) →
          s.walk a va lvl table = .error (a.pageFault va))))) ∧
  (∀ (e : Word) (l : Level), (leafPermits e .load l = true ↔ e.bit 2 = true ∧ (l = .u → e.bit 5 = true)) ∧
    (leafPermits e .store l = true ↔ e.bit 3 = true ∧ (l = .u → e.bit 5 = true)) ∧
    (leafPermits e .fetch l = true ↔ e.bit 4 = true ∧ (l = .u → e.bit 5 = true) ∧ (l = .k → e.bit 5 = false)))

/-- Control transfer, constants, system instructions and traps (R378, R381, R382, R393 to R395, R402, R406 to R411, R416). -/
def Obligations.ZarnControl : Prop :=
  -- jumps and branches of the 16-bit forms; pc is the address of the instruction
  (∀ (s t : State) (n : Nat) (rs : BitVec 3) (r : BitVec 5) (i7 : BitVec 7) (i11 : BitVec 11) (p : Word) (i : Instr),
    Fetched s n 2 t → ((i, p) ∈ [(Instr.sJ n i11, s.pc n + i11.signExtend 64 * 2),
        (.sJz n rs i7, if s.gr n (8 + rs.toNat) = 0 then s.pc n + i7.signExtend 64 * 2 else s.pc n + 2),
        (.sJnz n rs i7, if s.gr n (8 + rs.toNat) = 0 then s.pc n + 2 else s.pc n + i7.signExtend 64 * 2)] ∨
      (i = .sJr n 0 r ∧ r ≠ 0 ∧ p = (s.gr n r.toNat).setBit 0 false)) →
    Gives i s (fun u => u.pc n = p ∧ CoreKept s u n [] [] [] ∧ NoStore t u n)) ∧
  (∀ (s t : State) (n : Nat) (rd rs : BitVec 5), Fetched s n 2 t →
    (rs ≠ 0 → Gives (.sJlr n 0 rs) s (fun u => u.pc n = (s.gr n rs.toNat).setBit 0 false ∧ u.gr n 1 = s.pc n + 2 ∧
      CoreKept s u n [1] [] [] ∧ NoStore t u n)) ∧
    ((rd ≠ 0 ∨ rs = 0) →
      exec (.sJr n rd rs) s = .next ((t.pageDrop n).trapTake n (illegal (Word.of (encCR 0xE rd.toNat rs.toNat 0)))) ∧
      exec (.sJlr n rd rs) s = .next ((t.pageDrop n).trapTake n (illegal (Word.of (encCR 0xE rd.toNat rs.toNat 1)))))) ∧
  -- DBNZ
  (∀ (s t : State) (n len r : Nat) (c3 : BitVec 3) (d : BitVec 8) (rd : BitVec 5) (imm : BitVec 20) (target v : Word) (i : Instr),
    Fetched s n len t → ((i = .sDbnz n c3 d ∧ len = 2 ∧ r = 8 + c3.toNat ∧ target = s.pc n - Word.of (2 * (d.toNat + 1))) ∨
      (i = .dbnz n rd imm ∧ len = 4 ∧ rd ≠ 0 ∧ r = rd.toNat ∧ target = s.pc n + imm.signExtend 64 * 2)) → v = s.gr n r - 1 →
    Gives i s (fun u => u.gr n r = v ∧ u.pc n = (if v = 0 then s.pc n + Word.of len else target) ∧ CoreKept s u n [r] [] [] ∧
      NoStore t u n)) ∧
  -- conditional branches
  (∀ (s t : State) (n : Nat) (cond : BitVec 4) (imm : BitVec 21), Fetched s n 4 t → Gives (.branch n cond imm) s (fun u =>
    u.pc n = (if condHolds cond.toNat (s.flg n) = true then s.pc n + imm.signExtend 64 * 2 else s.pc n + 4) ∧
    CoreKept s u n [] [] [] ∧ NoStore t u n)) ∧
  (∀ (f : Word) (nn z c v : Bool), nn = f.bit 4 → z = f.bit 3 → c = f.bit 2 → v = f.bit 1 →
    (List.range 16).map (fun k => condHolds k f) = [true, z, !z, nn, !nn, c, !c, v, !v, c && !z, !c || z, nn == v, nn != v,
      !z && nn == v, z || nn != v, f.bit 0]) ∧
  -- jumps with a link, and constants
  (∀ (s t : State) (n : Nat) (rd rs1 : BitVec 5) (i11 : BitVec 11) (i20 : BitVec 20) (hw : BitVec 2) (i16 : BitVec 16) (x p : Word)
    (i : Instr), Fetched s n 4 t →
    (i, x, p) ∈ [(Instr.jmpl n rd i20, s.pc n + 4, s.pc n + i20.signExtend 64 * 2),
      (.jmplr n rd 0 rs1 i11, s.pc n + 4, (s.gr n rs1.toNat + i11.signExtend 64).setBit 0 false),
      (.pcoff n rd i20, s.pc n + (i20.signExtend 64 <<< 11), s.pc n + 4),
      (.plz n rd hw i16, i16.setWidth 64 <<< (16 * hw.toNat), s.pc n + 4),
      (.pln n rd hw i16, ~~~(i16.setWidth 64 <<< (16 * hw.toNat)), s.pc n + 4),
      (.plk n rd hw i16, (s.gr n rd.toNat).setField (16 * hw.toNat + 15) (16 * hw.toNat) i16.toNat, s.pc n + 4)] →
    Gives i s (fun u => u.pc n = p ∧ (rd ≠ 0 → u.gr n rd.toNat = x) ∧ CoreKept s u n [rd.toNat] [] [] ∧ NoStore t u n)) ∧
  -- system registers: the old value into RD; ILLEGAL for no register, PRIV above the level
  (∀ (s t : State) (n k : Nat) (rd rs1 : BitVec 5) (imm : BitVec 11) (old word : Word) (i : Instr),
    Fetched s n 4 t → k = imm.toNat → old = (t.setPc n (s.pc n + 4)).sysVal n k →
    (i, word) ∈ [(Instr.syswr n rd rs1 imm, Word.of (encI 0x0C rd.toNat 1 rs1.toNat k)),
      (.sysset n rd rs1 imm, Word.of (encI 0x0C rd.toNat 2 rs1.toNat k)),
      (.sysclr n rd rs1 imm, Word.of (encI 0x0C rd.toNat 3 rs1.toNat k)),
      (.sysrd n rd 0 imm, Word.of (encI 0x0C rd.toNat 0 0 k))] →
    (sysExists k = false → exec i s = .next ((t.pageDrop n).trapTake n (illegal word))) ∧
    (sysExists k = true → (s.core n).level.num < k / 512 % 4 → exec i s = .next ((t.pageDrop n).trapTake n (priv word))) ∧
    ((s.core n).level = .u → 0x010 ≤ k → k ≤ 0x01F → sysExists k = true →
      (i ≠ .sysrd n rd 0 imm ∨ (s.sysRaw n 0x210).bit (k - 0x010) = false) → exec i s = .next ((t.pageDrop n).trapTake n (priv word))) ∧
    (sysExists k = true → k / 512 % 4 ≤ (s.core n).level.num → ((s.core n).level ≠ .u ∨ k < 0x010 ∨ 0x01F < k ∨
        (i = .sysrd n rd 0 imm ∧ (s.sysRaw n 0x210).bit (k - 0x010) = true)) →
      Gives i s (fun u => u.pc n = s.pc n + 4 ∧ (rd ≠ 0 → u.gr n rd.toNat = old) ∧ NoStore t u n ∧
        (k ∈ [0x001, 0x002, 0x201, 0x202, 0x203, 0x204, 0x205, 0x206, 0x207, 0x208, 0x20B, 0x210, 0x401, 0x402, 0x403, 0x404, 0x405,
            0x406] →
          (i = .sysrd n rd 0 imm → u.sysRaw n k = s.sysRaw n k) ∧
          (i = .syswr n rd rs1 imm → u.sysRaw n k = s.gr n rs1.toNat &&& sysMask k) ∧
          (i = .sysset n rd rs1 imm → u.sysRaw n k = (old ||| s.gr n rs1.toNat) &&& sysMask k) ∧
          (i = .sysclr n rd rs1 imm → u.sysRaw n k = (old &&& ~~~(s.gr n rs1.toNat)) &&& sysMask k)) ∧
        (k ≠ 0x20A → CoreKept s u n [rd.toNat] [] [k, 0x011])))) ∧
  (∀ (s t : State) (n m : Nat) (rd rs1 : BitVec 5), Fetched s n 4 t → (s.core n).level ≠ .u → m = (s.gr n rs1.toNat).field 6 0 →
    m < 80 → Gives (.syswr n rd rs1 0x20A) s (fun u => (u.core m).soft = true)) ∧
  -- barriers; MBAR discards the translations that it names
  (∀ (s t : State) (n : Nat) (imm : BitVec 11), Fetched s n 4 t →
    (imm.toNat < 64 → Gives (.mbar n 0 0 imm) s (fun u => u.pc n = s.pc n + 4 ∧ CoreKept s u n [] [] [] ∧ NoStore t u n ∧
      ∀ e, e ∈ (u.core n).tlb ↔ e ∈ (t.core n).tlb ∧ imm.toNat.testBit 5 = false ∧ (imm.toNat.testBit 4 = true → e.2.2.bit 6 = true))) ∧
    Gives (.fbar n 0 0 0) s (fun u => u.pc n = s.pc n + 4 ∧ CoreKept s u n [] [] [] ∧ NoStore t u n)) ∧
  -- LVL: LCALL and LBRK trap, IDLE waits unless a cause is enabled and pending, LRET returns
  (∀ (s t : State) (n : Nat), Fetched s n 4 t →
    exec (.lcall n 0 0 0) s = .next ((t.pageDrop n).trapTake n ⟨0x05, Word.of (s.core n).level.num⟩) ∧
    exec (.lbrk n 0 0 1) s = .next ((t.pageDrop n).trapTake n ⟨0x06, 0⟩) ∧
    Gives (.idle n 0 0 2) s (fun u => u.pc n = s.pc n + 4 ∧ (u.core n).idle = !((t.setPc n (s.pc n + 4)).idleEnds n) ∧
      CoreKept s u n [] [] [] ∧ NoStore t u n)) ∧
  (∀ (s t : State) (n b : Nat) (st : Word), Fetched s n 4 t → b = (if (s.core n).level = .m then 0x400 else 0x200) →
    st = s.sysRaw n b →
    ((s.core n).level = .u → exec (.lret n 0 0 3) s = .next ((t.pageDrop n).trapTake n (priv (Word.of (encI 0x0C 0 6 0 3))))) ∧
    ((s.core n).level ≠ .u → 64 ≤ n → st.field 9 8 = 0 →
      exec (.lret n 0 0 3) s = .next ((t.pageDrop n).trapTake n (illegal (Word.of (encI 0x0C 0 6 0 3))))) ∧
    ((s.core n).level ≠ .u → (n < 64 ∨ st.field 9 8 ≠ 0) → Gives (.lret n 0 0 3) s (fun u =>
      u.pc n = (s.sysRaw n (b + 1)).setBit 0 false ∧ (u.core n).level = levelOf (st.field 9 8) ∧
      u.sysRaw n b = st.setBit 0 (st.bit 4) ∧ (∀ r, u.gr n r = s.gr n r) ∧ ∀ m, m ≠ n → u.core m = s.core m))) ∧
  -- UDL replaces the whole decode table, or nothing of it
  (∀ (s t : State) (n : Nat) (rd rs1 : BitVec 5) (r : Status × List Word × List Word), Fetched s n 4 t →
    r = (t.setPc n (s.pc n + 4)).blobCheck n (s.gr n rs1.toNat).toNat →
    ((s.core n).level ≠ .m → exec (.udl n rd rs1 0) s = .next ((t.pageDrop n).trapTake n (priv (Word.of (encI 0x0C rd.toNat 7 rs1.toNat 0))))) ∧
    ((s.core n).level = .m → Gives (.udl n rd rs1 0) s (fun u => u.pc n = s.pc n + 4 ∧ (rd ≠ 0 → u.gr n rd.toNat = Word.of r.1.code) ∧
      (r.1 ≠ .ok → (u.core n).slots = (s.core n).slots ∧ (u.core n).uops = (s.core n).uops) ∧
      (r.1 = .ok → (u.core n).slots = tableOf r.2.1 ∧ (u.core n).uops = tableOf r.2.2) ∧
      CoreKept s u n [rd.toNat] [] [] ∧ NoStore t u n))) ∧
  -- a trap: to K where KROUTE says so and the core is below M, else to M; pc, cause, information and level are saved
  (∀ (s : State) (n b : Nat) (tr : Trap) (k : Bool), k = (decide ((s.core n).level ≠ .m) && (s.sysRaw n 0x406).bit tr.cause) →
    tr.cause < 256 → b = (if k = true then 0x200 else 0x400) →
    (s.trapTake n tr).sysRaw n (b + 1) = s.pc n ∧ (s.trapTake n tr).sysRaw n (b + 2) = Word.of tr.cause ∧
    (s.trapTake n tr).sysRaw n (b + 3) = tr.info ∧ ((s.trapTake n tr).sysRaw n b).field 9 8 = (s.core n).level.num ∧
    ((s.trapTake n tr).sysRaw n b).bit 4 = (s.sysRaw n b).bit 0 ∧ ((s.trapTake n tr).sysRaw n b).bit 0 = false ∧
    ((s.trapTake n tr).core n).level = (if k = true then .k else .m) ∧
    (s.trapTake n tr).pc n = (s.sysRaw n (b + 4)).setField 7 0 0 ∧ (s.trapTake n tr).hbm = s.hbm ∧
    (∀ r, (s.trapTake n tr).gr n r = s.gr n r) ∧ (∀ r, (s.trapTake n tr).fr n r = s.fr n r) ∧
    (∀ j, (j < b ∨ b + 3 < j) → (s.trapTake n tr).sysRaw n j = s.sysRaw n j) ∧ ∀ m, m ≠ n → (s.trapTake n tr).core m = s.core m)

/-- The floating-point instructions (R377, R379, R396 to R399). -/
def Obligations.ZarnFloats : Prop :=
  -- FADD, FSUB, FMUL, FDIV, FSQRT and the four FMAC: one rounding of the exact result under RND, and the flags
  (∀ (s t : State) (n f4 : Nat) (rd rs1 rs2 rs3 : BitVec 5) (f6 : BitVec 6) (p inv dbz : Bool) (md : Round) (a b c : Nat)
    (x y z r : Sys2Proof.Num) (o : Nat × FFlags) (i : Instr) (word : Word), Fetched s n 4 t → f6 = (if p then 1 else 0) →
    a = fBits p (s.fr n rs1.toNat) → b = fBits p (s.fr n rs2.toNat) → c = fBits p (s.fr n rs3.toNat) → x = decodeFlt (fFmt p) a →
    y = decodeFlt (fFmt p) b → z = decodeFlt (fFmt p) c →
    ((i, word, r, inv, dbz) ∈ [
      (.fadd n rd rs1 rs2 f6, Word.of (encR 0x0F rd.toNat 0 rs1.toNat rs2.toNat f6.toNat), (numAdd md x y).1,
        (numAdd md x y).2 || sigNan p a || sigNan p b, false),
      (.fsub n rd rs1 rs2 f6, Word.of (encR 0x0F rd.toNat 1 rs1.toNat rs2.toNat f6.toNat), (numAdd md x y.neg).1,
        (numAdd md x y.neg).2 || sigNan p a || sigNan p b, false),
      (.fmul n rd rs1 rs2 f6, Word.of (encR 0x0F rd.toNat 2 rs1.toNat rs2.toNat f6.toNat), (numMul x y).1,
        (numMul x y).2 || sigNan p a || sigNan p b, false),
      (.fdiv n rd rs1 rs2 f6, Word.of (encR 0x0F rd.toNat 3 rs1.toNat rs2.toNat f6.toNat), (numDiv x y).1,
        (numDiv x y).2.1 || sigNan p a || sigNan p b, (numDiv x y).2.2),
      (.fsqrt n rd rs1 0 f6, Word.of (encR 0x0F rd.toNat 4 rs1.toNat 0 f6.toNat), (numSqrt x).1, (numSqrt x).2 || sigNan p a, false)] ∨
     ((i, f4) ∈ [(Instr.fmac n rd rs1 rs2 rs3 p 0, 0), (.fmacNa n rd rs1 rs2 rs3 p 0, 1), (.fmacNp n rd rs1 rs2 rs3 p 0, 2),
        (.fmacNpa n rd rs1 rs2 rs3 p 0, 3)] ∧ word = Word.of (encR4 0x10 rd.toNat f4 rs1.toNat rs2.toNat rs3.toNat p) ∧
      r = (numAdd md (if f4.testBit 1 then (numMul x y).1.neg else (numMul x y).1) (if f4.testBit 0 then z.neg else z)).1 ∧
      inv = ((if fmaQuiet p x y c then Config.fmaInvalid else (numMul x y).2) || (numAdd md (if f4.testBit 1 then (numMul x y).1.neg
        else (numMul x y).1) (if f4.testBit 0 then z.neg else z)).2 || sigNan p a || sigNan p b || sigNan p c) ∧ dbz = false)) →
    (rndOf (s.sysRaw n 0x002) = none → exec i s = .next ((t.pageDrop n).trapTake n (illegal word))) ∧
    (rndOf (s.sysRaw n 0x002) = some md → o = ieeeRound (fFmt p) md r → Gives i s (fun u => u.pc n = s.pc n + 4 ∧
      u.fr n rd.toNat = Word.of o.1 ∧ FpsAre s u n (o.2.nv || inv) (o.2.dz || dbz) o.2.ovf o.2.unf o.2.nx ∧
      CoreKept s u n [] [rd.toNat] [0x002] ∧ NoStore t u n))) ∧
  -- a NaN operand gives the canonical NaN, and a value of the format rounds to itself without a flag
  (∀ (p : Bool) (md : Round) (x : Sys2Proof.Num), (numAdd md .nan x).1 = .nan ∧ (numAdd md x .nan).1 = .nan ∧ (numMul .nan x).1 = .nan ∧
    (numMul x .nan).1 = .nan ∧ (numDiv .nan x).1 = .nan ∧ (numDiv x .nan).1 = .nan ∧ (numSqrt .nan).1 = .nan ∧
    (ieeeRound (fFmt p) md .nan).1 = (if p then 0x7FF8000000000000 else 0x7FC00000)) ∧
  (∀ (p : Bool) (md : Round) (bits : Nat), bits < 2 ^ (if p then 64 else 32) → decodeFlt (fFmt p) bits ≠ .nan →
    ieeeRound (fFmt p) md (decodeFlt (fFmt p) bits) = (bits, noFlags)) ∧
  -- FMIN, FMAX, FSIGN
  (∀ (s t : State) (n a b : Nat) (rd rs1 rs2 : BitVec 5) (f6 : BitVec 6) (p : Bool) (x y : Sys2Proof.Num) (v : Word) (i : Instr),
    Fetched s n 4 t → f6 = (if p then 1 else 0) → a = fBits p (s.fr n rs1.toNat) → b = fBits p (s.fr n rs2.toNat) →
    x = decodeFlt (fFmt p) a → y = decodeFlt (fFmt p) b →
    ((i, v) ∈ [
      (.fmin n rd rs1 rs2 f6, Word.of (if x = .nan ∨ y = .nan then (if p then 0x7FF8000000000000 else 0x7FC00000) else
        if x.le y then a else b)),
      (.fmax n rd rs1 rs2 f6, Word.of (if x = .nan ∨ y = .nan then (if p then 0x7FF8000000000000 else 0x7FC00000) else
        if y.le x then a else b))] → Gives i s (fun u => u.pc n = s.pc n + 4 ∧ u.fr n rd.toNat = v ∧
      FpsAre s u n (sigNan p a || sigNan p b) false false false false ∧ CoreKept s u n [] [rd.toNat] [0x002] ∧ NoStore t u n))) ∧
  (∀ (s t : State) (n a b top : Nat) (rd rs1 rs2 : BitVec 5) (p : Bool) (v : Word) (i : Instr), Fetched s n 4 t →
    a = fBits p (s.fr n rs1.toNat) → b = fBits p (s.fr n rs2.toNat) → top = (if p then 63 else 31) →
    (i, v) ∈ [(.fsignCopy n rd rs1 rs2 (if p then 1 else 0), (Word.of a).setBit top (b.testBit top)),
      (.fsignFlip n rd rs1 rs2 (if p then 3 else 2), (Word.of a).setBit top (!b.testBit top)),
      (.fsignMix n rd rs1 rs2 (if p then 5 else 4), (Word.of a).setBit top (a.testBit top != b.testBit top))] →
    Gives i s (fun u => u.pc n = s.pc n + 4 ∧ u.fr n rd.toNat = v ∧ CoreKept s u n [] [rd.toNat] [] ∧ NoStore t u n)) ∧
  -- FCMP: less, equal, unordered, as the exact values are; zeros of both signs are equal
  (∀ (s t : State) (n a b : Nat) (rs1 rs2 : BitVec 5) (p un : Bool) (x y : Sys2Proof.Num), Fetched s n 4 t →
    a = fBits p (s.fr n rs1.toNat) → b = fBits p (s.fr n rs2.toNat) → x = decodeFlt (fFmt p) a → y = decodeFlt (fFmt p) b →
    un = (decide (x = .nan) || decide (y = .nan)) → Gives (.fcmp n 0 rs1 rs2 (if p then 1 else 0)) s (fun u => u.pc n = s.pc n + 4 ∧
      FlagsAre u n (numLt x y) (!un && !numLt x y && !numLt y x) false un ((s.flg n).bit 0) ∧
      FpsAre s u n (sigNan p a || sigNan p b) false false false false ∧ CoreKept s u n [] [] [0x001, 0x002] ∧ NoStore t u n)) ∧
  (∀ (n1 n2 : Bool) (m1 m2 : Nat) (e1 e2 : Int), numLt (.fin n1 m1 e1) (.fin n2 m2 e2) = true ↔
    (if n1 then (-1 : ℚ) else 1) * m1 * 2 ^ e1 < (if n2 then (-1 : ℚ) else 1) * m2 * 2 ^ e2) ∧
  -- conversions between precisions, to integers and from integers
  (∀ (s t : State) (n a : Nat) (rd rs1 : BitVec 5) (o : Nat × FFlags) (md : Round) (p : Bool), Fetched s n 4 t →
    a = fBits (!p) (s.fr n rs1.toNat) → o = ieeeRound (fFmt p) md (decodeFlt (fFmt (!p)) a) →
    ((p = true ∧ md = .even) ∨ (p = false ∧ rndOf (s.sysRaw n 0x002) = some md)) →
    Gives (.fcnvP n rd rs1 0 (if p then 1 else 0)) s (fun u => u.pc n = s.pc n + 4 ∧ u.fr n rd.toNat = Word.of o.1 ∧
      FpsAre s u n (o.2.nv || sigNan (!p) a) o.2.dz o.2.ovf o.2.unf o.2.nx ∧ CoreKept s u n [] [rd.toNat] [0x002] ∧ NoStore t u n)) ∧
  (∀ (s t : State) (n ro w : Nat) (rd rs1 : BitVec 5) (f6 : BitVec 6) (p us : Bool) (md : Round) (r : Int × Bool × Bool),
    Fetched s n 4 t → ro < 4 → (w = 32 ∨ w = 64) →
    f6.toNat = (if p then 1 else 0) + 2 * ro + (if us then 8 else 0) + (if w = 32 then 16 else 0) →
    ((ro = 0 ∧ rndOf (s.sysRaw n 0x002) = some md) ∨ (ro, md) ∈ [(1, .zero), (2, .up), (3, .down)]) →
    r = toInt (decodeFlt (fFmt p) (fBits p (s.fr n rs1.toNat))) md w us →
    Gives (.fcnvTi n rd rs1 0 f6) s (fun u => u.pc n = s.pc n + 4 ∧
      (rd ≠ 0 → u.gr n rd.toNat = (BitVec.ofInt w r.1).signExtend 64) ∧ FpsAre s u n r.2.1 false false false r.2.2 ∧
      CoreKept s u n [rd.toNat] [] [0x002] ∧ NoStore t u n)) ∧
  (∀ (md : Round) (neg us : Bool) (m b : Nat) (e lo hi v : Int), lo = (if us then 0 else -2 ^ (b - 1)) →
    hi = (if us then 2 ^ b - 1 else 2 ^ (b - 1) - 1) → v = roundInt md neg m e →
    toInt .nan md b us = (0, true, false) ∧ toInt (.inf false) md b us = (hi, true, false) ∧ toInt (.inf true) md b us = (lo, true, false) ∧
    (v < lo → toInt (.fin neg m e) md b us = (lo, true, false)) ∧ (lo ≤ v → hi < v → toInt (.fin neg m e) md b us = (hi, true, false)) ∧
    (lo ≤ v → v ≤ hi → toInt (.fin neg m e) md b us = (v, false, !(roundTo md neg m e 0).2))) ∧
  (∀ (s t : State) (n w : Nat) (rd rs1 : BitVec 5) (f6 : BitVec 6) (p us : Bool) (md : Round) (o : Nat × FFlags) (x : BitVec w),
    Fetched s n 4 t → (w = 32 ∨ w = 64) → f6.toNat = (if p then 1 else 0) + (if us then 8 else 0) + (if w = 32 then 16 else 0) →
    rndOf (s.sysRaw n 0x002) = some md → x = (s.gr n rs1.toNat).setWidth w →
    o = ieeeRound (fFmt p) md (numOfInt (if us then (x.toNat : Int) else x.toInt)) →
    Gives (.fcnvFi n rd rs1 0 f6) s (fun u => u.pc n = s.pc n + 4 ∧ u.fr n rd.toNat = Word.of o.1 ∧
      FpsAre s u n o.2.nv o.2.dz o.2.ovf o.2.unf o.2.nx ∧ CoreKept s u n [] [rd.toNat] [0x002] ∧ NoStore t u n)) ∧
  -- bits and classes
  (∀ (s t : State) (n a : Nat) (rd rs1 : BitVec 5) (f6 : BitVec 6) (p : Bool), Fetched s n 4 t → f6 = (if p then 1 else 0) →
    a = fBits p (s.fr n rs1.toNat) →
    Gives (.fbitsG n rd rs1 0 f6) s (fun u => u.pc n = s.pc n + 4 ∧ (rd ≠ 0 → u.gr n rd.toNat = Word.of a) ∧
      CoreKept s u n [rd.toNat] [] [] ∧ NoStore t u n) ∧
    Gives (.fbitsF n rd rs1 0 f6) s (fun u => u.pc n = s.pc n + 4 ∧ u.fr n rd.toNat = Word.of (fBits p (s.gr n rs1.toNat)) ∧
      CoreKept s u n [] [rd.toNat] [] ∧ NoStore t u n) ∧
    Gives (.fkind n rd rs1 0 f6) s (fun u => u.pc n = s.pc n + 4 ∧ (rd ≠ 0 → u.gr n rd.toNat = Word.oneBit (fKind p a)) ∧
      CoreKept s u n [rd.toNat] [] [] ∧ NoStore t u n)) ∧
  (∀ (p neg : Bool) (m a top : Nat), top = (if p then 63 else 31) → a < 2 ^ (top + 1) → neg = a.testBit top →
    (a % 2 ^ top = 0 → fKind p a = if neg then 1 else 0) ∧
    (decodeFlt (fFmt p) a = .inf neg → fKind p a = if neg then 7 else 6) ∧
    (decodeFlt (fFmt p) a = .nan → fKind p a = if sigNan p a then 9 else 8) ∧
    (m = a % 2 ^ top → 0 < m → m < 2 ^ (if p then 52 else 23) → fKind p a = if neg then 3 else 2)) ∧
  -- the functions whose F6 must be 0 above its P bit
  (∀ (s t : State) (n : Nat) (rd rs1 rs2 : BitVec 5) (f6 : BitVec 6) (f4 : Nat) (i : Instr), Fetched s n 4 t → 2 ≤ f6.toNat →
    (i, f4) ∈ [(Instr.fadd n rd rs1 rs2 f6, 0), (.fsub n rd rs1 rs2 f6, 1), (.fmul n rd rs1 rs2 f6, 2), (.fdiv n rd rs1 rs2 f6, 3),
      (.fsqrt n rd rs1 rs2 f6, 4), (.fmin n rd rs1 rs2 f6, 5), (.fmax n rd rs1 rs2 f6, 6), (.fcmp n rd rs1 rs2 f6, 8),
      (.fcnvP n rd rs1 rs2 f6, 9), (.fbitsG n rd rs1 rs2 f6, 0xC), (.fbitsF n rd rs1 rs2 f6, 0xD), (.fkind n rd rs1 rs2 f6, 0xE)] →
    exec i s = .next ((t.pageDrop n).trapTake n (illegal (Word.of (encR 0x0F rd.toNat f4 rs1.toNat rs2.toNat f6.toNat)))))
/-! ## Cores, privilege and performance counters (20_cores_and_counters.md) -/

/-- CUSTOM, INTERRUPT_TAKE, CYCMP_MATCH, and the counters of a core (R400, R401, R407, R409 to R411, R417 to R421). -/
def Obligations.CustomInterruptsAndCounters : Prop :=
  -- a custom instruction runs its µops on working copies, and is one instruction
  (∀ (s t v : State) (n k : Nat) (rd rs1 rs2 : BitVec 5) (f4 : BitVec 4) (slot : BitVec 6) (e : Word) (us : List Word) (tr : Trap),
    Fetched s n 4 t → e = Tab.get 0 (s.core n).slots slot.toNat → k = e.field 21 16 + 1 →
    us = (List.range k).map (fun i => Tab.get 0 (s.core n).uops (e.field 11 0 + i)) →
    ((e.bit 63 = false ∨ (s.core n).level.num < e.field 62 61) → exec (.custom n rd f4 rs1 rs2 slot) s = .next ((t.pageDrop n).trapTake n
      (illegal (Word.of (encR 0x3F rd.toNat f4.toNat rs1.toNat rs2.toNat slot.toNat))))) ∧
    (e.bit 63 = true → e.field 62 61 ≤ (s.core n).level.num →
      (((t.setPc n (s.pc n + 4)).temps n (some f4.toNat)).uopsRun n rd.toNat rs1.toNat rs2.toNat (Word.of (encR 0x3F rd.toNat f4.toNat
          rs1.toNat rs2.toNat slot.toNat)) us = .error tr → exec (.custom n rd f4 rs1 rs2 slot) s = .next ((t.pageDrop n).trapTake n tr)) ∧
      (((t.setPc n (s.pc n + 4)).temps n (some f4.toNat)).uopsRun n rd.toNat rs1.toNat rs2.toNat (Word.of (encR 0x3F rd.toNat f4.toNat
          rs1.toNat rs2.toNat slot.toNat)) us = .ok v → (v.core n).waits = false → Gives (.custom n rd f4 rs1 rs2 slot) s (fun u =>
        (∀ r, r < 32 → u.gr n r = v.gr n r) ∧ (∀ r, 32 ≤ r → u.gr n r = 0) ∧ (∀ r, u.fr n r = v.fr n r) ∧ u.flg n = v.flg n ∧
        u.sysRaw n 0x002 = v.sysRaw n 0x002 ∧ u.sysRaw n 0x011 = v.sysRaw n 0x011 + 1 ∧ u.pc n = v.pc n ∧ u.hbm = v.hbm)))) ∧
  -- the example of R401: slot 3 computes the average of two registers without overflow
  (∀ (s t : State) (n : Nat) (rd rs1 rs2 : BitVec 5) (f4 : BitVec 4), Fetched s n 4 t → Tab.get 0 (s.core n).slots 3 = 0x8000000000030000 →
    (List.range 4).map (fun i => Tab.get 0 (s.core n).uops i) =
      [0x0000000E00008002, 0x0000000E00008014, 0x0000001808018216, 0x0000003100408000] → Gives (.custom n rd f4 rs1 rs2 3) s (fun u =>
      u.pc n = s.pc n + 4 ∧ (rd ≠ 0 → (u.gr n rd.toNat).toNat = ((s.gr n rs1.toNat).toNat + (s.gr n rs2.toNat).toNat) / 2) ∧
      CoreKept s u n [rd.toNat, 32, 33, 34, 35, 36, 37, 38, 39] [] [] ∧ NoStore t u n)) ∧
  -- an interrupt: the pending enabled cause of the lowest code, to K from below M while KTSTAT.EN is 1, else to M
  (∀ (s : State) (n c b : Nat) (k : Bool), n < 80 → s.coreCan n = true → 1 ≤ c → c ≤ 4 → s.irqTakeable n c = true →
    (∀ d, d < c → s.irqTakeable n d = false) → k = (decide ((s.core n).level ≠ .m) && (s.sysRaw n 0x200).bit 0) →
    b = (if k = true then 0x200 else 0x400) → Gives (.interruptTake n) s (fun t =>
      t.sysRaw n (b + 1) = s.pc n ∧ t.sysRaw n (b + 2) = Word.of (0x100 + c) ∧ t.sysRaw n (b + 3) = 0 ∧
      (t.sysRaw n b).field 9 8 = (s.core n).level.num ∧ (t.sysRaw n b).bit 4 = (s.sysRaw n b).bit 0 ∧ (t.sysRaw n b).bit 0 = false ∧
      (t.core n).level = (if k = true then .k else .m) ∧ t.pc n = (s.sysRaw n (b + 4)).setField 7 0 0 + 0x80 ∧
      (t.core n).idle = false ∧ (∀ r, t.gr n r = s.gr n r) ∧ t.hbm = s.hbm ∧ ∀ m, m ≠ n → t.core m = s.core m)) ∧
  (∀ (s : State) (n c : Nat), s.irqTakeable n c = true ↔ s.irqPending n c = true ∧ (s.sysRaw n 0x208).bit c = true ∧
    ((s.core n).level = .m → (s.sysRaw n 0x400).bit 0 = true)) ∧
  (∀ (s : State) (n : Nat), (s.irqPending n 2 = true ↔ (s.core n).soft = true) ∧
    (s.irqPending n 3 = true ↔ (s.sysRaw n 0x20B).toNat ≤ (s.sysVal n 0x010).toNat) ∧
    (s.irqPending n 4 = true ↔ ∃ i, i < 8 ∧ (s.sysVal n (0x018 + i)).bit 63 = true ∧ (s.sysVal n (0x218 + i)).bit 62 = true)) ∧
  (∀ (s : State) (n : Nat), n < 80 → s.cycmpPending n = true → (s.sysRaw n 0x208).bit 3 = true → (s.core n).idle = true →
    s.coreCan n = true → exec (.cycmpMatch n) s = .next (s.setCore n { s.core n with idle := false })) ∧
  -- counters: COUNT wraps at 2^48 and sets OVF; an event counts at the levels that its selection names, unless frozen
  (∀ (s : State) (pg : Page) (i k : Nat), i < 8 → k < 2 ^ 48 →
    ((s.counterAdd pg i k).reg pg (0xF00 + 8 * i)).field 47 0 = ((s.reg pg (0xF00 + 8 * i)).field 47 0 + k) % 2 ^ 48 ∧
    ((s.counterAdd pg i k).reg pg (0xF00 + 8 * i)).bit 63 = ((s.reg pg (0xF00 + 8 * i)).bit 63 ||
      decide (2 ^ 48 ≤ (s.reg pg (0xF00 + 8 * i)).field 47 0 + k)) ∧
    (2 ^ 48 ≤ (s.reg pg (0xF00 + 8 * i)).field 47 0 + k → s.freezeOnWrap pg = true →
      ((s.counterAdd pg i k).reg pg 0x10).bit 0 = true) ∧
    (2 ^ 48 ≤ (s.reg pg (0xF00 + 8 * i)).field 47 0 + k → (s.reg pg (0x700 + 8 * i)).bit 62 = true →
      ((s.counterAdd pg i k).reg pg 0x30).bit 2 = true)) ∧
  (∀ (s : State) (n : Nat) (l : Level) (code k : Nat), n < 80 → ((s.reg (pmuPage n) 0x10).bit 0 = true → s.countCore n l code k = s) ∧
    (∀ i, i < 8 → ((s.reg (pmuPage n) (0x700 + 8 * i)).field 15 0 ≠ code ∨ (s.reg (pmuPage n) (0x700 + 8 * i)).bit (61 - l.num) = false) →
      (s.countCore n l code k).reg (pmuPage n) (0xF00 + 8 * i) = s.reg (pmuPage n) (0xF00 + 8 * i))) ∧
  -- the system registers that are storage of the PMU page, or of the core's own number and counters
  (∀ (s : State) (n i : Nat) (v : Word), i < 8 → s.sysVal n (0x018 + i) = s.reg (pmuPage n) (0xF00 + 8 * i) ∧
    s.sysVal n (0x218 + i) = s.reg (pmuPage n) (0x700 + 8 * i) ∧
    (s.sysPut n (0x218 + i) v).reg (pmuPage n) (0x700 + 8 * i) = v &&& 0xF80000000000FFFF ∧
    (s.sysPut n 0x010 v).sysVal n 0x010 = v ∧ (s.sysPut n 0x012 v).sysVal n 0x012 = v ∧ (s.sysPut n 0x011 v).sysVal n 0x011 = v ∧
    (n < 128 → (s.sysVal n 0x407).bit 63 = decide (64 ≤ n) ∧ (s.sysVal n 0x407).field 6 0 = n) ∧ s.sysPut n 0x407 v = s) ∧
  (∀ (s : State) (n : Nat), ((s.sysPut n 0x209 4).core n).soft = false ∧
    ((s.sysPut n 0x209 0).core n).soft = (s.core n).soft)
/-! ## Firmware (21_firmware.md) -/

/-- The emulated control pages, ring commands, beats, live update, crashes of control cores, images of VIs and device page tables
(R370, R371, R423 to R430, R432). -/
def Obligations.FirmwareCommands : Prop :=
  -- the ABI handshake
  (∀ (s m : State) (v ver : Nat) (ok : Bool), EmuReached s (emuPage v) → m = s.emuMeet v → m.fwServes v = true → ver < 2 ^ 32 →
    ok = (decide (7 ≤ m.trs.startup) && decide (ver / 65536 = m.trs.abiVersion / 65536) &&
      decide (ver % 65536 ≤ m.trs.abiVersion % 65536)) →
    Gives (.drvAbiWrite (some v) ver) s (fun t => (t.reg (emuPage v) 0x108).bit 63 = ok ∧ (t.reg (emuPage v) 0x108).field 31 0 = ver ∧
      ((m.reg (emuPage v) 0x108).bit 63 = true → ok = false → (t.reg fwiPage 0x30).bit 11 = true))) ∧
  (∀ (s : State) (ver : Nat) (ok : Bool), EmuReached s fwiPage → GateOpen s fwiPage → ver < 2 ^ 32 →
    ok = (decide (7 ≤ s.trs.startup) && decide (ver / 65536 = s.trs.abiVersion / 65536) &&
      decide (ver % 65536 ≤ s.trs.abiVersion % 65536)) →
    Gives (.drvAbiWrite none ver) s (fun t => (t.reg fwiPage 0x108).bit 63 = ok ∧ (t.reg fwiPage 0x108).field 31 0 = ver ∧
      t.guarantee.bit 2 = ok)) ∧
  -- beats
  (∀ (s m : State) (v count : Nat), EmuReached s (emuPage v) → m = s.emuMeet v → m.fwServes v = true → count < 2 ^ 32 →
    exec (.hostBeatWrite (some v) count) s = .next (((m.count1 .fwi 1).setReg (emuPage v) 0x110 (Word.of count)).setVi v
      { m.vi v with beatAt := m.clk.ctl })) ∧
  (∀ (s : State) (count : Nat), EmuReached s fwiPage → GateOpen s fwiPage → Gives (.hostBeatWrite none count) s (fun t =>
    t.fwi = { s.fwi with opBeatAt := s.clk.ctl, opLapsed := false })) ∧
  (∀ (s : State) (v : Nat), (s.vi v).state = .enabled → (s.vi v).beatTo ≠ 0 → (s.vi v).beatAt + (s.vi v).beatTo * 65536 ≤ s.clk.ctl →
    exec (.beatLapse (some v)) s = .next ((s.setVi v { s.vi v with state := .orphaned }).count1 .fwi 3)) ∧
  (∀ (s : State), s.fwi.opBeatTo ≠ 0 → s.fwi.opLapsed = false → s.fwi.opBeatAt + s.fwi.opBeatTo * 65536 ≤ s.clk.ctl →
    exec (.beatLapse none) s = .next (({ s with fwi := { s.fwi with opLapsed := true } } : State).count1 .fwi 3)) ∧
  -- the emulated master-enable, function reset, ring commands and report requests
  (∀ (s m u : State) (v : Nat), EmuReached s (emuPage v) → m = s.emuMeet v → m.fwServes v = true → u = m.count1 .fwi 1 →
    (exec (.viMasterClear v) s = .next (if (u.vi v).masterEn = true then u.masterClear v else u)) ∧
    exec (.viMasterSet v) s = .next (u.masterSet v) ∧ exec (.viFlr v) s = .next (u.viFlr v)) ∧
  (∀ (s : State) (v : Nat), ((s.vi v).state = .enabled ∨ (s.vi v).state = .orphaned → s.masterClear v =
      (s.setVi v { s.vi v with masterEn := false }).viStop v ∧ s.viFlr v = (s.setVi v { s.vi v with masterEn := false }).viReset v) ∧
    (∀ w, (s.vi v).masterEn = false → w = s.setVi v { s.vi v with masterEn := true } → w.vifCheck 2 v 0 0 = .ok →
      s.masterSet v = (w.setVi v { s.vi v with masterEn := true, state := .enabled }).viHeldWrite v)) ∧
  (∀ (s m u w : State) (v op n : Nat) (x : RingGroup), EmuReached s (emuPage v) → m = s.emuMeet v → m.fwServes v = true →
    u = m.count1 .fwi 1 → (u.reg (emuPage v) 0x140).bit 63 = false → x = u.ringGroup v → x.journal = [] → u.cmdBusy .rng = false →
    op < 256 → n < 131072 →
    w = (((u.setRingGroup v { x with journal := [⟨op, n, false⟩] }).setReg (emuPage v) 0x140 ((u.reg (emuPage v) 0x140).setBit 63
      true)).setRingGroup v { x with journal := [] }) →
    exec (.ringCmd v op n) s = .next (w.ringIssue v op n)) ∧
  (∀ (s : State) (v op n : Nat) (st : Status) (c : Nat → Word), c = (fun i => s.reg (emuPage v) (0x120 + 8 * i)) →
    st = s.ringCmdRights v op n (c 1) (ringOfCtx (c 0) (c 1) (c 2)) → (st ≠ .ok → s.ringIssue v op n = s.ringStatEnd v st) ∧
    (st = .ok → op ≠ 1 → op ≠ 4 → op ≠ 5 → s.ringIssue v op n = (((s.ringCmd op n (c 0) (c 1) (c 2)).2.cmdEnd .rng op n
      (s.ringCmd op n (c 0) (c 1) (c 2)).1).ringStatEnd v (s.ringCmd op n (c 0) (c 1) (c 2)).1))) ∧
  (∀ (s : State) (v op n : Nat) (c1 : Word) (x : Ring), ((s.reg (emuPage v) 0x108).bit 63 = false → s.ringCmdRights v op n c1 x = .version) ∧
    ((s.reg (emuPage v) 0x108).bit 63 = true → 2 ≤ op → op ≤ 6 →
      ((∀ p, s.ownerOf tyVi v = some p → s.owns p tyRing n = false) ∨ (s.ring n).viEn = false ∨ (s.ring n).vi ≠ v) →
      s.ringCmdRights v op n c1 x = .accessViolation)) ∧
  (∀ (s : State) (v : Nat) (st : Status), (s.ringStatEnd v st).reg (emuPage v) 0x140 = ((0 : Word).setField 55 48 st.code).setField 31 0
    ((s.reg (emuPage v) 0x140).field 31 0 + 1)) ∧
  (∀ (s m u w : State) (v : Nat), EmuReached s (emuPage v) → m = s.emuMeet v → m.fwServes v = true → u = m.count1 .fwi 1 →
    (u.reg (emuPage v) 0x640).bit 63 = false →
    ((u.reg (emuPage v) 0x630).toNat % 64 ≠ 0 → exec (.attReportRequest v) s = .next (u.setReg (emuPage v) 0x640
      ((0 : Word).setField 55 48 Status.format.code))) ∧
    ((u.reg (emuPage v) 0x630).toNat % 64 = 0 → w = u.setReg (emuPage v) 0x640 ((u.reg (emuPage v) 0x640).setBit 63 true) →
      exec (.attReportRequest v) s = .next ((w.setVi v { w.vi v with reportBusy := true }).barrierSend .host .mgmt 0x26 [v]))) ∧
  -- while firmware does not answer: writes are held, 16 of a page in an update's pause, and the responder answers or drops
  (∀ (s m : State) (v off : Nat) (val : Word), m = s.emuMeet v → m.fwServes v = false →
    (m.fwi.phase ≠ 3 ∨ (m.vi v).heldWrites.length < 16 → s.emuTake v off val = m.setVi v { m.vi v with
      heldWrites := (m.vi v).heldWrites ++ [(off, val)] }) ∧
    (m.fwi.phase = 3 → 16 ≤ (m.vi v).heldWrites.length → s.emuTake v off val = m.count1 .fwi 2)) ∧
  (∀ (s : State) (v : Nat), GateOpen s (emuPage v) → s.swapDue fwiPage = false → s.emuMeet v = s) ∧
  (∀ (s : State) (v : Nat), (emuPage v).exist = true → s.fwi.phase ≠ 3 →
    exec (.emulatedAccessTimeout v false) s = .next ((s.count1 .fwi 2).emit (.readReply none (emuPage v).offset (~~~0))) ∧
    exec (.emulatedAccessTimeout v true) s = .next ((s.count1 .fwi 2).setVi v { s.vi v with heldWrites := (s.vi v).heldWrites.drop 1 })) ∧
  -- live update
  (∀ (s : State), Taken s .fwi → (s.reg Blk.clk.page 0x148).bit 2 = true →
    (s.fwi.phase = 0 → exec .update s = .next ((({ s with fwi := { s.fwi with bank := (s.reg fwiPage 0x148).field 0 0 } } :
      State).setUpdPhase 1).setBusy .fwi true)) ∧
    (s.fwi.phase ≠ 0 → exec .update s = .next (s.cmdEnd .fwi 1 0 .state))) ∧
  (∀ (s : State), (s.fwi.phase = 1 → (s.reg Blk.clk.page 0x148).bit 2 = true →
      exec (.updatePhaseEnd .loaded) s = .next (match s.mainImages (decide (s.fwi.bank = 1)) with
        | some x => ({ s with fwi := { s.fwi with newImages := some x } } : State).setUpdPhase 2
        | none => s.updEnd .integrity)) ∧
    (s.fwi.phase = 2 → exec (.updatePhaseEnd .saved) s = .next (({ s with fwi := { s.fwi with
        pauseAt := s.clk.ctl, saved := s.vis.map (fun e => (e.1, viControl e.2)) } } : State).setUpdPhase 3) ∧
      exec (.updatePhaseEnd .formatBad) s = .next (s.updEnd .version)) ∧
    (s.fwi.phase = 3 → s.fwi.pauseAt + 4000000 ≤ s.clk.ctl →
      exec .updatePauseTimeout s = .next (((s.updPause.ctlRestart).updEnd .timeout).fwResume false)) ∧
    (s.fwi.phase = 4 → s.trs.abiVersion / 65536 = s.fwi.oldAbi / 65536 → ∀ x, s.fwi.newImages = some x →
      exec (.updatePhaseEnd .resumed) s = .next (({ s with fwi := { s.fwi with restartCopy := some x } } : State).updEnd .ok)) ∧
    (s.fwi.phase = 4 → s.trs.abiVersion / 65536 ≠ s.fwi.oldAbi / 65536 → ∀ x, s.fwi.newImages = some x →
      exec (.updatePhaseEnd .resumed) s = .next ((({ s with fwi := { s.fwi with restartCopy := some x } } :
        State).handshakesLost).updEnd .ok))) ∧
  (∀ (s u : State) (r m : Image), s.fwi.phase = 3 → s.fwi.newImages = some (r, m) → u = { s with
      trs := { s.trs with runtime := some r, monitor := some m, abiVersion := (Config.abiVersion r.body).toNat },
      fwi := { s.fwi with oldAbi := s.trs.abiVersion } } →
    exec (.updatePhaseEnd .ready) s = .next ((((u.setReg trsPage 0x108 (((u.reg trsPage 0x108).setField 31 16 r.svn).setField 15 0
      m.svn)).updPause.ctlRestart).setUpdPhase 4).fwResume false)) ∧
  (∀ (s : State) (st : Status), (s.updEnd st).fwi.phase = 0 ∧ ((s.updEnd st).reg fwiPage 0x168).field 63 61 = 0 ∧
    ((s.updEnd st).reg fwiPage 0x168).field 55 48 = st.code ∧ ((s.updEnd st).reg fwiPage 0x158).field 55 48 = st.code ∧
    (s.updEnd st).cmdBusy .fwi = false) ∧
  (∀ (s : State) (v : Nat), v < 4096 → (s.handshakesLost.reg (emuPage v) 0x108).bit 63 = false ∧
    (s.handshakesLost.reg fwiPage 0x108).bit 63 = false) ∧
  -- images of a VI
  (∀ (s : State) (v a : Nat), Taken s .fwi → v < 4096 → a = (s.reg fwiPage 0x140).toNat → a % 64 = 0 →
    (s.ownsHbm 0 a (8 * (s.viImage v).length) = true →
      ((s.vi v).state = .quiesced → exec (.viExport v) s = .next ((s.setBytes a (wordsBytes (s.viImage v))).cmdEnd .fwi 2 0 .ok)) ∧
      ((s.vi v).state ≠ .quiesced → exec (.viExport v) s = .next (s.cmdEnd .fwi 2 0 .state))) ∧
    (∀ n ws, n = min 512 ((s.word a).field 31 0) → ws = s.words a (imageWords n) → s.ownsHbm 0 a 8 = true →
      s.ownsHbm 0 a (8 * imageWords n) = true → (s.vi v).state = .bound →
      (viImageBad ws = true → exec (.viImport v) s = .next (s.cmdEnd .fwi 3 0 .format)) ∧
      (viImageBad ws = false → (∃ e, e ∈ imageRings ws ∧ s.ownerOf tyRing e.1 ≠ s.ownerOf tyVi v) →
        exec (.viImport v) s = .next (s.cmdEnd .fwi 3 0 .accessViolation)) ∧
      (viImageBad ws = false → (∀ e, e ∈ imageRings ws → s.ownerOf tyRing e.1 ≠ none ∧ s.ownerOf tyRing e.1 = s.ownerOf tyVi v ∧
        (s.ring e.1).state = .disabled) → exec (.viImport v) s = .next ((s.viApply v ws).cmdEnd .fwi 3 0 .ok)))) ∧
  -- device page tables
  (∀ (s : State) (q a : Nat), Taken s .fwi → q < 128 → a = (s.reg fwiPage 0x140).toNat → a % 64 = 0 → s.ownsHbm 0 a 0x80000 = true →
    (s.mode1Active q = true → exec (.dptSet q) s = .next (s.cmdEnd .fwi 4 0 .state)) ∧
    (s.mode1Active q = false → exec (.dptSet q) s = .next (((s.setPart q { s.part q with dptRoot := some a }).dptChanged q).cmdEnd
      .fwi 4 0 .ok))) ∧
  (∀ (s : State) (q va a root : Nat) (op : Nat) (e : Word) (i : Instr), Taken s .fwi → q < 128 → va = (s.reg fwiPage 0x148).toNat →
    va < 2 ^ 48 → a = (s.reg fwiPage 0x140).toNat → (s.part q).dptRoot = some root →
    ((i = .map q ∧ op = 5 ∧ a % 65536 = 0 ∧ s.ownsHbm q a 65536 = true ∧
        e = ((0 : Word).setBit 63 true).setField 47 16 (a / 65536 % 2 ^ 32)) ∨
     (i = .unmap q ∧ op = 6 ∧ e = 0) ∨ (i = .invalidate q ∧ op = 7 ∧ e = (0 : Word).setBit 62 true)) →
    ((s.word (root + 8 * (va / 2 ^ 32))).bit 63 = true → exec i s = .next (((s.setWord ((s.word (root + 8 * (va / 2 ^ 32))).field 47 16
      * 65536 + 8 * (va / 65536 % 65536)) e).dptChanged q).cmdEnd .fwi op 0 .ok)) ∧
    exec i s = .next ((s.dptPut q va e).2.cmdEnd .fwi op 0 (s.dptPut q va e).1)) ∧
  (∀ (s : State) (q : Nat), Taken s .fwi → q < 128 → (s.part q).dptRoot = none → (s.reg fwiPage 0x148).toNat < 2 ^ 48 →
    exec (.unmap q) s = .next (s.cmdEnd .fwi 6 0 .state) ∧ exec (.invalidate q) s = .next (s.cmdEnd .fwi 7 0 .state)) ∧
  (∀ (s : State) (v lim : Nat), Taken s .fwi → v < 4096 → lim = (s.reg fwiPage 0x148).field 31 0 →
    exec (.setBeat true v) s = .next (({ s with fwi := { s.fwi with opBeatTo := lim, opBeatAt := s.clk.ctl, opLapsed := false } } :
      State).cmdEnd .fwi 8 0 .ok) ∧
    ((s.vi v).state ≠ .unbound → exec (.setBeat false v) s = .next ((s.setVi v { s.vi v with
      beatTo := lim, beatAt := s.clk.ctl }).cmdEnd .fwi 8 0 .ok)) ∧
    ((s.vi v).state = .unbound → exec (.setBeat false v) s = .next (s.cmdEnd .fwi 8 0 .state))) ∧
  -- crashes of control cores: reset, marked, restarted once from the restart copy; a second crash in a second marks the core out
  (∀ (s : State) (n : Nat), 64 ≤ n → n < 80 → (s.core n).halted = false → exec (.tcmUncorrectable n) s = .next (s.coreCrash n) ∧
    ((s.core n).wdogAt + (s.reg fwiPage 0x118).field 31 0 ≤ s.clk.ctl → exec (.ctlWatchdogExpire n) s = .next (s.coreCrash n))) ∧
  (∀ (s : State) (n : Nat), 64 ≤ n → n < 80 → ((s.coreCrash n).core n).halted = true ∧ ((s.coreCrash n).core n).g = [] ∧
    ((s.coreCrash n).reg fwiPage 0x160).bit (32 + (n - 64)) = true ∧ ((s.coreCrash n).reg fwiPage 0x30).bit 9 = true ∧
    (∀ g, g ≤ 4096 → (s.ringGroup g).core = n → g ∈ (s.coreCrash n).fwi.moving) ∧
    ((s.core n).crashes = 0 → n ∈ (s.coreCrash n).fwi.toRestart) ∧
    ((s.core n).crashes ≠ 0 → s.clk.ctl < (s.core n).crashAt + 2000000000 → (s.coreCrash n).fwi.toRestart = s.fwi.toRestart ∧
      (s.coreCrash n).coreOut n = true ∧ ((s.coreCrash n).elw fwiPage 0).bit 2 = true)) ∧
  (∀ (s : State) (n : Nat), n ∈ s.fwi.toRestart → s.fwi.restartCopy ≠ none → exec (.coreRestart n) s =
    .next (({ s with fwi := { s.fwi with toRestart := s.fwi.toRestart.filter (fun k => k ≠ n) } } : State).setCore n
      { Core.started with crashes := (s.core n).crashes, crashAt := (s.core n).crashAt, wdogAt := s.clk.ctl })) ∧
  (∀ (s u : State) (g n : Nat), g ∈ s.fwi.moving → 64 ≤ n → n < 80 → (s.core n).halted = false → (s.ringGroup g).core ≠ n →
    u = (({ s with fwi := { s.fwi with moving := s.fwi.moving.filter (fun x => x ≠ g) } } : State).setRingGroup g
      { s.ringGroup g with core := n }) → Gives (.ringGroupMove g n) s (fun t =>
        (u.fwServes g = false → t = u) ∧ (u.fwServes g = true → (s.ringGroup g).journal = [] → (s.vi g).heldWrites = [] → t = u))) ∧
  -- an operation that has reached hardware is completed from the page's status; one only TAKEN runs again
  (∀ (s : State) (g k : Nat) (e : JEntry) (rest : List JEntry) (c : Nat), s.ringGroup g = ⟨c, e :: rest⟩ →
    (e.issued = true → s.journalRun g true (k + 1) = ((s.setRingGroup g ⟨c, rest⟩).ringStatEnd g
      ((Status.ofCode ((s.reg Blk.rng.page 0x138).field 55 48)).getD .ok)).journalRun g true k) ∧
    (e.issued = false → s.cmdBusy .rng = false → s.journalRun g true (k + 1) =
      (((s.count1 .fwi 5).setRingGroup g ⟨c, rest⟩).ringIssue g e.op e.ring).journalRun g true k))
/-! ## Clocks, gating and domain crossings (22_clocks.md) -/

/-- REFIN, the stability test and MODE of a PLL, the CORE multiplexers, and the gates of clusters (R433, R435 to R444, R447 to R449). -/
def Obligations.ClocksAndGates : Prop :=
  -- a window passes when its count lies within E ± T (R436)
  (∀ f c : Nat, windowPass f c = true ↔ |(c : ℚ) - 4096 * f / 200| ≤ ⌈(4096 * f / 200 : ℚ) * (2 / 10000)⌉) ∧
  (∀ (s : State) (n : Nat) (p : Pll), p = s.pll n → p.state = .locking → exec (.pllLock n) s =
    .next (s.setPll n { p with state := .testing, run := 0, windows := 0, fails := 0 })) ∧
  (∀ (s : State) (n count : Nat) (p q : Pll) (ok : Bool), p = s.pll n → p.state = .testing → ok = windowPass (pllMHz n p.mult) count →
    q = { p with count := count, windows := p.windows + 1, fails := (if ok then p.fails else min (p.fails + 1) 255),
                 run := (if ok then p.run + 1 else 0) } →
    (q.run = 4 → Gives (.pllWindow n count) s (fun t => t.pll n = { q with state := .stable })) ∧
    (q.run ≠ 4 → q.windows < 64 → Gives (.pllWindow n count) s (fun t => t.pll n = q)) ∧
    (q.run ≠ 4 → q.windows = 64 → Gives (.pllWindow n count) s (fun t => (t.pll n).state = .failed ∧
      (t.elw Blk.clk.page 0).bit 0 = true ∧ (t.reg Blk.clk.page 0x30).bit 10 = true))) ∧
  (∀ (s : State) (n count : Nat), (s.pll n).state = .stable → windowPass (pllMHz n (s.pll n).mult) count = false →
    Gives (.pllWindow n count) s (fun t => (t.pll n).state = .stable ∧ (t.elw Blk.clk.page 0).bit 1 = true)) ∧
  (∀ (s : State) (n : Nat), (s.pll n).running = true → Gives (.pllLockLost n) s (fun t => (t.pll n).state = .failed ∧
    (t.elw Blk.clk.page 0).bit 0 = true ∧ ∀ m, m ≠ n → t.pll m = s.pll m)) ∧
  -- an AUTO PLL stops when its consumers have been closed for IDLE AON cycles
  (∀ (s : State) (n : Nat), pllStoppable n = true → (s.pll n).running = true → s.pllMode n = 0 →
    (∀ c, c ∈ pllConsumers n → (s.gate c).isOpen = false ∧ (s.gate c).waking = false ∧
      (s.gate c).since + (s.pllCtl n).field 31 0 ≤ s.clk.aon) →
    (n = 12 → ∀ i, i < 16 → (s.reg ⟨.ept, i⟩ 0x100).bit 63 = false) →
    exec (.pllIdleStop n) s = .next ((s.setPll n { s.pll n with state := .off, run := 0, mult := 0 }).count1 .clk 4)) ∧
  -- a switch ends once NEW is STABLE and OLD runs; it is forced where OLD has stopped
  (∀ (s : State) (d : Nat) (m : Mux), d < 2 → m = s.mux d → m.busy = true → (s.pll (corePll d (!m.used))).state = .stable →
    ((s.pll (corePll d m.used)).running = true → Gives (.coreSwitchDone d) s (fun t => (t.mux d).used = !m.used ∧
      (t.mux d).busy = (s.coreSel d != !m.used))) ∧
    ((s.pll (corePll d m.used)).running = false → Gives (.switchForce d) s (fun t => (t.mux d).used = !m.used ∧
      (t.reg Blk.clk.page 0x118).bit 63 = true ∧ (t.elw Blk.clk.page 0).bit 2 = true ∧ (t.reg Blk.clk.page 0x30).bit 9 = true))) ∧
  -- gates
  (∀ (s : State) (c : Nat), c ≤ 24 → (s.gate c).isOpen = true → s.forceOn c = false → s.clusterBusy c = false →
    exec (.gateIdleClose c) s = .next (s.gateClose c)) ∧
  (∀ (s : State) (c n : Nat) (g : Gate), c ≤ 24 → g = s.gate c → n = s.clusterPll c → g.isOpen = false → g.held = false →
    g.retained = false → s.trs.hostPower = true →
    ((s.pll n).state = .stable → exec (.clusterWake c) s = .next (s.gateUp c).gateTaken) ∧
    ((s.pll n).state = .off → s.pllMode n ≠ 2 → exec (.clusterWake c) s =
      .next ((s.setGate c { g with waking := true }).pllStart n).gateTaken) ∧
    (((s.pll n).state = .locking ∨ (s.pll n).state = .testing ∨ (s.pll n).state = .failed) →
      exec (.clusterWake c) s = .next (s.setGate c { g with waking := true }).gateTaken)) ∧
  (∀ (s : State) (c : Nat), c ≤ 24 → (s.gate c).isOpen = true → (s.gate c).held = false → (s.gate c).retained = false →
    s.trs.hostPower = true → exec (.clusterWake c) s = .next s.gateTaken) ∧
  -- an access to a page of a closed cluster wakes it; where the cluster is held, it runs for the access alone
  (∀ (s : State) (pg : Page) (c : Nat), s.pageCluster pg = some c → (s.gate c).isOpen = false → s.trs.hostPower = true →
    (s.gate c).retained = false → (s.pll (s.clusterPll c)).state = .stable →
    s.pageAccess pg = (if (s.gate c).held = true then (s.gateUp c).gateClose c else s.gateUp c)) ∧
  (∀ (s : State) (c : Nat), ((s.gateClose c).gate c).isOpen = false ∧ ((s.gateUp c).gate c).isOpen = true ∧
    ((s.gateUp c).gate c).waking = false ∧ ((s.gateUp c).gate c).opens = ((s.gate c).opens + 1) % 2 ^ 32 ∧
    ∀ d, d ≠ c → (s.gateClose c).gate d = s.gate d ∧ (s.gateUp c).gate d = s.gate d) ∧
  (∀ (s : State) (c : Nat), c < 8 → (s.clusterBusy c = false ↔ ∀ i, i < 8 → (s.core (8 * c + i)).halted = true ∨
    (s.core (8 * c + i)).idle = true)) ∧
  -- HOLD and RELEASE
  (∀ (s : State) (c : Nat), Taken s .clk → c ≤ 24 →
    (s.clusterBusy c = true → exec (.hold c) s = .next ((s.count1 .clk 8).cmdEnd .clk 1 0 .state)) ∧
    (s.clusterBusy c = false → Gives (.hold c) s (fun t => (t.gate c).held = true ∧ (t.gate c).isOpen = false ∧
      (t.gate c).waking = false ∧ (t.reg Blk.clk.page 0x158).field 55 48 = 0 ∧ ∀ d, d ≠ c → t.gate d = s.gate d)) ∧
    ((s.gate c).held = false → exec (.clkRelease c) s = .next (s.cmdEnd .clk 2 0 .state)) ∧
    ((s.gate c).held = true → c ≠ 20 → s.forceOn c = false → exec (.clkRelease c) s =
      .next (((s.setGate c { s.gate c with held := false }).clockMsg [2, c]).cmdEnd .clk 2 0 .ok))) ∧
  (∀ (s : State) (c : Nat), Taken s .clk → 24 < c → c < 32 → exec (.hold c) s = .next (s.cmdEnd .clk 1 0 .format) ∧
    exec (.clkRelease c) s = .next (s.cmdEnd .clk 2 0 .format)) ∧
  -- loss of REFIN: the host side loses all state, the field die keeps its own, and start-up runs again on the return
  (∀ (s : State), (s.cg.refinHost = true → Gives (.refinLoss .host) s (fun t => t.cg.refinHost = false ∧ t.cg.refinField = s.cg.refinField ∧
      t.trs.hostPower = false ∧ t.hbm = [] ∧ t.balls.dperst = 0 ∧ t.trs.flash = s.trs.flash)) ∧
    (s.cg.refinField = true → Gives (.refinLoss .field) s (fun t => t.cg.refinField = false ∧ t.trs.hostPower = false ∧ t.hbm = [] ∧
      (t.pll 0).state = .off ∧ t.trs.flash = s.trs.flash ∧ t.trs.uds = s.trs.uds ∧ t.trs.startup = min s.trs.startup 3 ∧
      t.flt.alive = s.flt.alive))) ∧
  (∀ (s : State), exec (.refinRestore .host) s = .next { s with cg := { s.cg with refinHost := true } }) ∧
  (∀ (s : State), s.cg.refinField = false → Gives (.refinRestore .field) s (fun t => t.cg.refinField = true ∧
    t.trs.startup = (if s.trs.weirRuns = true then 3 else min s.trs.startup 1) ∧
    (t.reg Blk.clk.page 0x100).field 15 0 = min ((s.reg Blk.clk.page 0x100).field 15 0 + 1) 0xFFFF ∧
    (t.elw Blk.clk.page 0).bit 3 = true ∧ (t.reg Blk.clk.page 0x30).bit 11 = true ∧
    (s.trs.weirRuns = true → (t.pll 0).state = .stable)))
/-! ## Power, thermal and limits (23_power_and_thermal.md) -/

/-- The control period and its caps, the hard throttle, trips and restarts of the host side, voltage bins, retention and the wear meter
(R454 to R465, R493). -/
def Obligations.PowerAndWear : Prop :=
  -- a control period: its power enters the window, the cap of the next is set, and one step is made
  (∀ (s m u : State) (p vin iin avg : Nat) (temps : List Int) (win : List Nat), p < 65536 → vin < 65536 → iin < 65536 →
    m = s.swapFirst Blk.pwr.page s.pwrChecks → win = (p :: m.pwr.window).take 100000 → avg = win.sum / 100000 →
    u = (({ m with pwr := { m.pwr with window := win, vinLast := vin, thermalCap := m.thermalNext p (temps.take 15) } } :
      State).putTemps 0 (temps.take 15)).stepState p avg →
    Gives (.controlPeriod p vin iin temps) s (fun t => t.pwr = (u.powerStep p (u.powerCap vin)).pwr ∧ t.pwr.window = win ∧
      (t.reg Blk.pwr.page 0x140).field 63 48 = vin ∧ (t.reg Blk.pwr.page 0x140).field 47 32 = iin ∧
      (t.reg Blk.pwr.page 0x140).field 31 16 = p ∧ (t.reg Blk.pwr.page 0x140).field 15 0 = avg % 65536 ∧
      (t.reg Blk.pwr.page 0x148).field 47 32 = u.powerCap vin % 65536 ∧ (t.reg Blk.pwr.page 0x148).bit 63 = (u.reg Blk.pwr.page 0x148).bit 63 ∧
      (t.reg Blk.pwr.page 0x148).bit 62 = t.throttled ∧ (t.reg Blk.pwr.page 0x148).bit 61 = t.hardThrottle ∧
      (t.reg Blk.pwr.page 0x148).field 31 24 = t.maxMult 0 % 256 ∧ (t.reg Blk.pwr.page 0x148).field 23 16 = t.maxMult 1 % 256)) ∧
  -- the cap (R457): no more than any of its terms, and the window's sum stays at 860 W a period
  (∀ (s : State) (vin : Nat), s.powerCap vin ≤ 1150 ∧ ((s.reg Blk.pwr.page 0x148).bit 63 = true → s.powerCap vin ≤ 950) ∧
    10 * s.powerCap vin ≤ 3 * vin ∧ s.powerCap vin ≤ (s.reg Blk.pwr.page 0x100).field 31 16 ∧
    (∀ c, s.pwr.thermalCap = some c → s.powerCap vin ≤ c) ∧ (∀ c, s.pwr.fwCap = some c → s.powerCap vin ≤ c) ∧
    ((s.pwr.window.take 99999).sum ≤ 100000 * 860 → (s.pwr.window.take 99999).sum + s.powerCap vin ≤ 100000 * 860)) ∧
  (∀ (s : State) (p avg : Nat), ((s.reg Blk.pwr.page 0x148).bit 63 = false →
      (s.stepState p avg).pwr.peakUsed = s.pwr.peakUsed + (if 950 < p then 1 else 0) ∧
      ((s.stepState p avg).reg Blk.pwr.page 0x148).bit 63 = decide (1000 ≤ s.pwr.peakUsed + (if 950 < p then 1 else 0))) ∧
    ((s.reg Blk.pwr.page 0x148).bit 63 = true → avg ≤ (s.reg Blk.pwr.page 0x100).field 63 48 →
      (s.stepState p avg).pwr.peakUsed = 0 ∧ ((s.stepState p avg).reg Blk.pwr.page 0x148).bit 63 = false) ∧
    ((s.reg Blk.pwr.page 0x148).bit 63 = true → (s.reg Blk.pwr.page 0x100).field 63 48 < avg → s.stepState p avg = s)) ∧
  -- the steps (R458, R459): MULT limits by up to 4 to 8, then the duty to 2/16; 100 periods at the end engage the hard throttle
  (∀ (p : Pwr), ((8 < p.capMult0 ∨ 8 < p.capMult1) → p.lower.capMult0 = max 8 (p.capMult0 - 4) ∧ p.lower.capMult1 = max 8 (p.capMult1 - 4) ∧
      p.lower.duty = p.duty) ∧
    (p.capMult0 ≤ 8 → p.capMult1 ≤ 8 → (p.duty = 0 → p.lower.duty = 15) ∧ (2 < p.duty → p.lower.duty = p.duty - 1) ∧
      ((p.duty = 1 ∨ p.duty = 2) → p.lower = { p with over100 := p.over100 + 1 })) ∧
    p.raise.hardOver = false ∧ (p.duty = 15 → p.raise.duty = 0) ∧ (p.duty = 0 → p.raise.capMult0 = min 36 (p.capMult0 + 4))) ∧
  (∀ (s : State) (p cap : Nat), (cap < p → s.pwr.lower.over100 = 100 → (s.powerStep p cap).pwr.hardOver = true ∧
      ((s.powerStep p cap).elw Blk.pwr.page 0).bit 4 = true) ∧
    (cap < p → s.pwr.lower.over100 ≠ 100 → (s.powerStep p cap).pwr = s.pwr.lower) ∧
    (p + 20 ≤ cap → (s.powerStep p cap).pwr = s.pwr.raise)) ∧
  (∀ (s : State) (p : Nat) (temps : List Int), ((∃ i, i < temps.length ∧ 16 * s.tempTarget i ≤ temps.getD i 0) →
      s.thermalNext p temps = some (match s.pwr.thermalCap with
        | none => p - 10
        | some c => c - 10)) ∧
    (temps ≠ [] → (∀ i, i < temps.length → temps.getD i 0 + 48 ≤ 16 * s.tempTarget i) → ∀ c, s.pwr.thermalCap = some c →
      s.thermalNext p temps = if 1150 ≤ c + 10 then none else some (c + 10))) ∧
  -- current limit and thermal trips engage the hard throttle
  (∀ (s : State), Gives .currentLimit s (fun t => t.hardThrottle = true ∧ (t.reg Blk.pwr.page 0x148).bit 61 = true ∧
    (t.elw Blk.pwr.page 0).bit 6 = true)) ∧
  (∀ (s : State) (i : Nat), i ≤ 14 → Gives (.thermalTrip i) s (fun t => i ∈ t.pwr.hardSensors ∧ t.hardThrottle = true ∧
      (t.reg Blk.pwr.page 0x148).bit 61 = true ∧ (t.elw Blk.pwr.page 0).bit (if i ≤ 6 then 2 else 3) = true)) ∧
  (∀ (s : State) (i : Nat), exec (.thermalTripClear i) s = .next (({ s with pwr := { s.pwr with
      hardSensors := s.pwr.hardSensors.filter (fun x => x ≠ i) } } : State).ctrlStat)) ∧
  -- supply: a trip, or HSEN low, takes the host side's power; it returns after 10 ms
  (∀ (s : State) (ovr : Bool), Gives (.vinTrip ovr) s (fun t => t.trs.hostPower = false ∧ t.hbm = [] ∧ t.pwr.tripAt = some s.clk.fld ∧
    t.trs.startup = min s.trs.startup 3 ∧ t.trs.flash = s.trs.flash ∧ t.pwr.window = s.pwr.window ∧
    (t.elw Blk.pwr.page 0).bit (if ovr then 1 else 0) = true)) ∧
  (∀ (s : State), (s.trs.hostPower = true → Gives .hsenLow s (fun t => t.trs.hostPower = false ∧ t.hbm = [] ∧
      t.pwr.hsenAt = some s.clk.fld ∧ t.trs.startup = min s.trs.startup 3 ∧ t.balls.hsen = false)) ∧
    (s.trs.hostPower = false → exec .hsenLow s = .next { s with balls := { s.balls with hsen := false } })) ∧
  (∀ (s : State), (s.pwr.tripAt ≠ none ∨ s.pwr.hsenAt ≠ none) → (∀ a, s.pwr.tripAt = some a → a + 2000000 ≤ s.clk.fld) →
    (∀ a, s.pwr.hsenAt = some a → a + 2000000 ≤ s.clk.fld) → exec .hostRestart s = .next { s with
      pwr := { s.pwr with tripAt := none, hsenAt := none }, balls := { s.balls with hsen := true } }) ∧
  (∀ (s : State), Gives .fieldSupplyLoss s (fun t => FusesKept s.trs t.trs ∧ t.trs.flash = s.trs.flash ∧ t.hbm = [] ∧ t.regs =
    State.reset.regs ∧ t.trs.startup = 0 ∧ t.trs.hostPower = false ∧ t.cores = State.reset.cores ∧ t.pwr.wearOut = s.pwr.wearOut)) ∧
  -- voltage bins: a PLL moves by 1 MULT in 8 REFIN cycles towards its target, within the rail's bin
  (∀ (s : State) (d : Nat), d < 2 → exec (.multSlew d) s =
    .next (((s.corePlls d).foldl (fun t n => t.slewOne d n) s).railFollow d)) ∧
  (∀ (s : State) (d n : Nat) (p q : Pll) (g : Nat), p = s.pll n → q = (s.slewOne d n).pll n → g = min (s.pllTarget n) (binTop (s.railBin d)) →
    (s.clk.refin < p.slewAt + 8 → q = p) ∧ (p.slewAt + 8 ≤ s.clk.refin → q.state = p.state ∧ q.slewAt = s.clk.refin ∧
      (p.mult < g → q.mult = p.mult + 1) ∧ (g < p.mult → q.mult = p.mult - 1) ∧ (p.mult = g → q.mult = p.mult))) ∧
  (∀ (s : State) (d b : Nat), b = max (s.railBin d) (((s.corePlls d).map (fun n => binOf (s.pllTarget n))).foldl max 0) →
    (d = 0 → s.pwr.railUp0 = true → exec (.railSettled d) s = .next { s with pwr := { s.pwr with railBin0 := b, railUp0 := false } }) ∧
    (d = 1 → s.pwr.railUp1 = true → exec (.railSettled d) s = .next { s with pwr := { s.pwr with railBin1 := b, railUp1 := false } })) ∧
  -- retention
  (∀ (s : State) (c : Nat) (g : Gate), g = s.gate c → (c < 8 ∨ (10 ≤ c ∧ c ≤ 13) ∨ c = 21 ∨ c = 22) → s.trs.hostPower = true →
    g.isOpen = false → g.waking = false → g.retained = false → g.since + (s.reg Blk.pwr.page 0x100).field 15 0 ≤ s.clk.aon →
    exec (.retentionEnter c) s = .next ((s.setGate c { g with retained := true }).count1 .pwr 4)) ∧
  (∀ (s : State) (c : Nat) (g : Gate), g = s.gate c → g.retained = true →
    exec (.retentionWake c) s = .next ((s.setGate c { g with retained := false }).count1 .pwr 5)) ∧
  -- the wear meter: an hour is charged, written, and then granted; 8,760 hours withdraw bin 3 for the life of the part
  (∀ (s : State) (d n : Nat), d < 2 → s.pwr.bin3 = true → s.pwr.charging = none → s.pwr.hourEnd ≤ s.clk.aon → s.bucket < 60 →
    n ∈ s.corePlls d → 33 ≤ s.wantMult n → Gives (.wearCharge d) s (fun t => t.pwr.charging = some d ∧
      t.pwr.buckets.getD s.bucket 0 = s.pwr.buckets.getD s.bucket 0 + 1 ∧
      (∀ i, i < 60 → i ≠ s.bucket → t.pwr.buckets.getD i 0 = s.pwr.buckets.getD i 0) ∧
      (8760 ≤ t.pwr.buckets.sum → t.pwr.bin3 = false ∧ t.pwr.wearOut = true ∧ (t.reg Blk.pwr.page 0x160).bit 63 = true ∧
        (t.reg Blk.pwr.page 0x30).bit 11 = true ∧ t.maxMult 0 ≤ 32 ∧ t.maxMult 1 ≤ 32) ∧
      (t.pwr.buckets.sum < 8760 → t.pwr.bin3 = true))) ∧
  (∀ (s : State) (n : Nat), s.pwr.hourEnd ≤ s.clk.aon → s.pllTarget n ≤ 32) ∧
  (∀ (s u : State), s.pwr.charging ≠ none → (s.reg Blk.clk.page 0x148).bit 2 = true →
    u = s.flashWrite 0x07FF8000 (s.wearBody ++ hmac384 (s.trs.handoffWear.getD []) s.wearBody) →
    exec .wearRecordWritten s = .next { u with pwr := { u.pwr with
      charging := none, hourEnd := if u.pwr.bin3 then s.clk.aon + 22500000000 else s.pwr.hourEnd } }) ∧
  (∀ (s : State) (b : Nat), s.trs.weirRuns = true → s.pwr.bucketAt ≤ s.clk.aon → b = (s.bucket + 1) % 60 →
    Gives .wearBucketAdvance s (fun t => t.bucket = b ∧ t.pwr.buckets.getD b 0 = 0 ∧
      t.pwr.bucketAt = s.pwr.bucketAt + 730 * 22500000000 ∧
      ∀ i, i < 60 → i ≠ b → t.pwr.buckets.getD i 0 = s.pwr.buckets.getD i 0))
/-! ## Fault collection and reaction (24_faults.md) -/

/-- Error latches and raises, severities, the log, containment and its end, the safe state and its exit, the collector's own faults and
watchdogs, ALIVE, and the commands of the FLT page (R466 to R485). -/
def Obligations.FaultsAndReactions : Prop :=
  -- an error pin sets its bit alone, raises the interrupt unless masked, and holds a raise; no occurrence is lost
  (∀ (s u : State) (pg : Page) (unit bit : Nat) (part : Option Nat) (lasting : Bool), pg.exist = true → pg.emulated = false → bit < 64 →
    u = s.latch pg unit bit (part.getD 0x7F) lasting →
    exec (.errorLatch pg unit bit part lasting) s = .next (u.pinActs pg unit bit (part.getD 0x7F))) ∧
  (∀ (s : State) (pg : Page) (unit bit part : Nat),
    (parityEnds pg.blk bit = false → (pg.blk = .att → bit ≠ 0) → pg.blk ≠ .pmu → s.pinActs pg unit bit part = s) ∧
    (parityEnds pg.blk bit = true → s.pinActs pg unit bit part =
      s.blockFail (fun b => decide (b = pg.blk)) (fun q => decide (part = 0x7F) || decide (q = part)) .integrity) ∧
    (pg.blk = .pmu → (bit = 1 → ((s.pinActs pg unit bit part).core pg.num).tlb = []) ∧
      (bit = 2 → ((s.pinActs pg unit bit part).core pg.num).slots = []) ∧
      s.pinActs pg unit bit part = { s with cores := (s.pinActs pg unit bit part).cores } ∧
      ∀ n, n ≠ pg.num → (s.pinActs pg unit bit part).core n = s.core n)) ∧
  (∀ bit : Nat, bit < 64 → parityEnds .kvs bit = decide (bit = 0 ∨ bit = 3) ∧ parityEnds .xrd bit = decide (bit = 0)) ∧
  (∀ (s : State) (pg : Page) (unit bit part : Nat) (lasting : Bool) (h : Held), bit < 64 →
    h = ⟨⟨srcOf pg bit, unit, part, lasting, 1, s.elw pg unit ||| Word.oneBit bit⟩, blkField pg.blk, false⟩ →
    (∀ b, b < 64 → ((s.latch pg unit bit part lasting).elw pg unit).bit b = ((s.elw pg unit).bit b || decide (b = bit))) ∧
    ((s.errStat pg).bit bit = false → (s.reg pg 0x48).bit bit = false → ((s.latch pg unit bit part lasting).reg pg 0x30).bit 3 = true) ∧
    ((s.flt.queue.filter h.sameUnit).length < 16 → (s.latch pg unit bit part lasting).flt.queue.map (fun x => x.msg) =
      s.flt.queue.map (fun x => x.msg) ++ [h.msg]) ∧
    (16 ≤ (s.flt.queue.filter h.sameUnit).length → (s.latch pg unit bit part lasting).flt.queue.length = s.flt.queue.length ∧
      ((s.latch pg unit bit part lasting).flt.queue.map (fun x => x.msg.count)).sum = (s.flt.queue.map (fun x => x.msg.count)).sum + 1)) ∧
  -- a raise of a host-side page crosses the barrier; one of a field page does not
  (∀ (s : State) (m : RaiseMsg), m.src ≤ 8127 →
    (planeOf m.src = 2 → exec (.raise m) s = .next (s.takeRaise m)) ∧
    (planeOf m.src ≠ 2 → exec (.raise m) s = .next ((s.barrierAccept .field .fault).takeRaise m))) ∧
  -- the severity that a raise is handled with (R471): a transient in none, then the table, the partition and the floors
  (∀ (s : State) (src part t : Nat), t = (s.reg fltPage (0x1000 + 8 * (src / 16))).field (4 * (src % 16) + 2) (4 * (src % 16)) →
    s.sevApplied src part false = sevFloor src ∧
    (t ≠ 2 → s.sevApplied src part true = max t (sevFloor src)) ∧
    (t = 2 → (part = 0x7F ∨ part = 0) → s.sevApplied src part true = max 3 (sevFloor src)) ∧
    (t = 2 → part ≠ 0x7F → part ≠ 0 → ((s.part part).state = .active ∨ (s.part part).state = .building) →
      s.sevApplied src part true = max 2 (sevFloor src)) ∧
    (t = 2 → part ≠ 0x7F → part ≠ 0 → (s.part part).state ≠ .active → (s.part part).state ≠ .building →
      s.sevApplied src part true = max 1 (sevFloor src))) ∧
  (sevFloor (srcOf Blk.trs.page 2) = 3 ∧ sevFloor (srcOf Blk.trs.page 3) = 4 ∧ (∀ b, b < 3 → sevFloor (srcOf fltPage b) = 4) ∧
    (∀ src, src ≠ srcOf Blk.trs.page 2 → src ≠ srcOf Blk.trs.page 3 → (∀ b, b < 3 → src ≠ srcOf fltPage b) → sevFloor src = 0)) ∧
  -- the raise is counted, logged, reported from S1 on, and reacted to
  (∀ (p s u : State) (m : RaiseMsg) (times : List Nat) (eff : Bool) (sev : Nat), s = p.swapFirst fltPage p.fltChecks →
    times = (List.replicate (min (max m.count 1) 255) s.clk.fld ++ Tab.get [] s.flt.transAt m.src).take 255 →
    eff = (m.lasting || (decide ((s.reg fltPage 0x100).field 15 8 ≠ 0) && decide ((s.reg fltPage 0x100).field 15 8 ≤
      (times.filter (fun t => s.clk.fld ≤ t + (s.reg fltPage 0x108).field 31 0 * 65536)).length))) →
    sev = s.sevApplied m.src m.part eff →
    u = (({ s with
      flt := { s.flt with
        queue := dropHeld s.flt.queue m, transAt := if m.lasting = true then s.flt.transAt else Tab.insert s.flt.transAt m.src times } } :
      State).countRaise m.src m.lasting).logPut m.src sev m.part m.count m.unit m.lasting false m.elw →
    s.flt.exiting = false → (s.flt.safe = false ∨ sev < 3 ∨ m.lasting = false) →
    (sev = 0 → p.takeRaise m = u) ∧
    (1 ≤ sev → p.takeRaise m = (u.faultEvent m sev ((s.reg fltPage 0x180).field 41 32)).react m sev)) ∧
  (∀ (s : State) (src : Nat) (lasting : Bool) (c : Nat × Nat), c = Tab.get (0, 0) s.flt.raises src →
    Tab.get (0, 0) (s.countRaise src lasting).flt.raises src =
      (if lasting = true then (min (c.1 + 1) 0xFFFFFFFF, c.2) else (c.1, min (c.2 + 1) 0xFFFFFFFF)) ∧
    (∀ x, x ≠ src → Tab.get (0, 0) (s.countRaise src lasting).flt.raises x = Tab.get (0, 0) s.flt.raises x) ∧
    ((s.countRaise src lasting).reg fltPage 0x140).field 31 0 = ((s.reg fltPage 0x140).field 31 0 + 1) % 0x100000000) ∧
  (∀ (s t : State) (src sev part count unit n : Nat) (lasting coll : Bool) (e : Word) (l : List Word), src < 8192 → sev < 8 →
    part < 128 → unit < 65536 → n = (s.reg fltPage 0x180).field 31 0 → t = s.logPut src sev part count unit lasting coll e →
    l = Tab.get [] t.flt.log (n % 1024) →
    (l.length = 4 ∧ wordAt l 0 = Word.of s.clk.fld ∧ (wordAt l 1).field 44 32 = src ∧ (wordAt l 1).field 30 28 = sev ∧
      (wordAt l 1).bit 27 = lasting ∧ (wordAt l 1).bit 26 = coll ∧ (wordAt l 1).field 22 16 = part ∧
      (wordAt l 1).field 15 0 = min count 0xFFFF ∧ (wordAt l 1).field 63 45 = 0 ∧ (wordAt l 1).bit 31 = false ∧
      (wordAt l 1).field 25 23 = 0 ∧ wordAt l 2 = e ∧ (wordAt l 3).field 31 16 = s.recoveries ∧ (wordAt l 3).field 15 0 = unit ∧
      (wordAt l 3).field 63 32 = 0) ∧
    (∀ i, i ≠ n % 1024 → Tab.get [] t.flt.log i = Tab.get [] s.flt.log i) ∧
    (t.reg fltPage 0x180).field 31 0 = (n + 1) % 0x100000000 ∧ (t.reg fltPage 0x180).field 41 32 = (n + 1) % 1024 ∧
    (1024 ≤ n → (t.errStat fltPage).bit 3 = true)) ∧
  (∀ (s u : State) (m : RaiseMsg) (sev i : Nat) (d : Word), u = s.setIntBit fltPage 8 → sev < 8 → m.part < 128 →
    d = Word.of (sev * 2 ^ 32 + (if m.lasting = true then 2 ^ 31 else 0) + m.part) →
    (s.trs.hostPower = true → s.flt.safe = false →
      s.faultEvent m sev i = (u.event 0 0x01B0 .ok m.src d (Word.of i) (Word.of m.count)).wake 2) ∧
    ((s.trs.hostPower = false ∨ s.flt.safe = true) → s.faultEvent m sev i = u.wake 2)) ∧
  (∀ (s u : State) (m : RaiseMsg), u = { s with flt := { s.flt with aliveAt := s.clk.fld } } →
    s.react m 0 = s ∧ s.react m 1 = s ∧ s.react m 2 = s.barrierSend .field .fault 0x02 [m.part, m.src] ∧
    s.react m 3 = u.barrierSend .field .fault 0x04 [planeOf m.src, m.src] ∧ s.react m 4 = u.barrierSend .field .fault 0x06 [m.src]) ∧
  (srcOf ⟨.kvs, 0⟩ 1 = 7361 ∧ planeOf 7361 = 0 ∧ faultStatus 7361 = .poisoned ∧
    ∀ s : State, s.sevTable 7361 = (s.reg fltPage 0x1E60).field 6 4) ∧
  (∀ (pg : Page) (b : Nat), pg.exist = true → pg.emulated = false → b < 64 → planeOf (srcOf pg b) =
    if blkField pg.blk = true then 2 else if pg.blk = .pmu ∧ pg.num < 64 then 1 else 0) ∧
  -- messages that the receiver only takes
  (∀ (s : State) (src unit rec typ seq : Nat) (e : Word),
    exec (.clear src unit e) s = .next (s.barrierAccept .field .fault) ∧ exec (.safeExit rec) s = .next (s.barrierAccept .host .fault) ∧
    exec (.reactDone typ seq) s = .next (s.barrierAccept .field .fault)) ∧
  -- containment of a partition, and its end
  (∀ (s u : State) (p src : Nat), u = s.barrierAccept .host .fault → p < 128 →
    (((s.part p).state = .active ∨ (s.part p).state = .building) → exec (.containPart p src) s =
      .next ((u.containPart p src).barrierSend .host .fault 0x09 [0x02, (s.chan .field .fault).expect])) ∧
    ((s.part p).state ≠ .active → (s.part p).state ≠ .building → exec (.containPart p src) s =
      .next (u.barrierSend .host .fault 0x09 [0x02, (s.chan .field .fault).expect])) ∧
    Gives (.uncontainPart p) s (fun t => p ∉ t.flt.parts ∧ (∀ k, p ∉ Tab.get [] t.flt.blocks k) ∧
      ∀ q, q ≠ p → (q ∈ t.flt.parts ↔ q ∈ s.flt.parts))) ∧
  (∀ (s u : State) (p src : Nat) (pg : Page), Page.ofSrc (src / 64) = some pg →
    u = { s with
      flt := { s.flt with
        parts := if p ∈ s.flt.parts then s.flt.parts else s.flt.parts ++ [p],
        blocks := Tab.insert s.flt.blocks (src / 64) (p :: (Tab.get [] s.flt.blocks (src / 64)).filter (fun q => q ≠ p)) } } →
    s.containPart p src = ((((u.blockFail (fun b => decide (b = pg.blk)) (fun q => decide (q = p)) (faultStatus src)).setIntBit
      fltPage 9).count1 .flt 5).event p 0x01B1 .ok p (Word.of (faultStatus src).code) 0 0) ∧
    p ∈ u.flt.parts ∧ (∀ q, q ∈ s.flt.parts → q ∈ u.flt.parts) ∧ u.pageContained pg = true) ∧
  (∀ (s : State) (inBlk : Blk → Bool) (mine : Nat → Bool) (st : Status), (∀ e, e ∈ s.xrd.groups → mine e.2.part = false) →
    (∀ x, x ∈ s.ckp.steps → mine x.part = false) → (∀ r, r ∈ s.att.reqs → mine r.part = false) →
    (∀ c, c ∈ s.sto.cmds → mine c.part = false) → (∀ r, r ∈ s.reads → mine r.part = false) →
    ((∀ w, w ∈ s.work → mine w.part = false ∨ w.phase = .done ∨ inBlk (enginePage (dEngine w.words)).blk = false) →
      s.blockFail inBlk mine st = s)) ∧
  -- containment of a plane, and its end
  (∀ (s u : State) (pl src : Nat), u = s.barrierAccept .host .fault → pl ≤ 2 → exec (.containPlane pl src) s =
    .next ((u.containPlane pl).barrierSend .host .fault 0x09 [0x04, (s.chan .field .fault).expect])) ∧
  (∀ (s : State) (pl : Nat), (pl = 1 ∨ pl = 2) → s.containPlane pl = (({ s with
      flt := { s.flt with
        planes := if pl ∈ s.flt.planes then s.flt.planes else s.flt.planes ++ [pl], aliveAt := s.clk.fld } } :
      State).setIntBit fltPage 10).count1 .flt 6) ∧
  (∀ (s u : State), u = s.blockFail (fun _ => true) (fun _ => true) .integrity → s.containPlane 0 = (({ u with
      flt := { u.flt with
        planes := if 0 ∈ u.flt.planes then u.flt.planes else u.flt.planes ++ [0], aliveAt := u.clk.fld } } :
      State).setIntBit fltPage 10).count1 .flt 6) ∧
  (∀ (s u v : State) (pl : Nat), u = s.barrierAccept .host .fault → v = { u with
      flt := { u.flt with
        planes := u.flt.planes.filter (fun p => p ≠ pl), aliveAt := u.clk.fld } } →
    ((pl ≠ 0 ∨ 0 ∉ s.flt.planes) → exec (.uncontainPlane pl) s = .next v) ∧
    (pl = 0 → 0 ∈ s.flt.planes → exec (.uncontainPlane pl) s = .next v.dataResume)) ∧
  -- the safe state
  (∀ (s u : State) (src : Nat), u = s.barrierAccept .host .fault → exec (.safeEnter src) s =
    .next (u.safeEnter.barrierSend .host .fault 0x09 [0x06, (s.chan .field .fault).expect])) ∧
  (∀ (s : State), (s.flt.safe = true → s.safeEnter = s) ∧ (s.flt.safe = false → s.safeEnter.flt.safe = true ∧
      s.safeEnter.flt.exiting = false ∧ s.safeEnter.balls.dperst = 0 ∧ s.safeEnter.balls.idle = true) ∧
    (s.flt.safe = false → s.reads = [] → s.safeEnter = (({ s with
      flt := { s.flt with safe := true, safeAt := s.clk.fld, exiting := false },
      balls := { s.balls with dperst := 0, idle := true } } : State).count1 .flt 7))) ∧
  (∀ (s : State), s.flt.safe = true → s.flt.exiting = false → s.trs.weirRuns = true →
    (s.flt.safeAt + (s.reg fltPage 0x100).field 63 32 * 65536 ≤ s.clk.fld →
      ((s.reg fltPage 0x100).field 31 16 = 0 ∨ s.recoveries < (s.reg fltPage 0x100).field 31 16) →
      exec .quietPeriodEnd s = .next s.exitStart) ∧
    ((s.reg fltPage 0x100).field 31 16 ≠ 0 → (s.reg fltPage 0x100).field 31 16 ≤ s.recoveries → exec .quietPeriodEnd s = .next s)) ∧
  (∀ (s : State), s.exitStart.flt.exiting = true ∧ s.exitStart.flt.safe = s.flt.safe ∧ s.exitStart.trs.hostPower = false ∧
    s.exitStart.hbm = [] ∧ s.exitStart.kvs.retired = s.kvs.retired ∧ s.exitStart.trs.startup = min s.trs.startup 3 ∧
    (∀ p, s.exitStart.part p = State.reset.part p) ∧ s.exitStart.flt.log = s.flt.log ∧ s.exitStart.recoveries = s.recoveries) ∧
  (∀ (s : State) (m : RaiseMsg), s.swapDue fltPage = false → m.lasting = true → s.flt.safe = true → s.flt.exiting = false → 3 ≤ s.sevApplied m.src m.part true →
    (s.takeRaise m).flt.safeAt = s.clk.fld) ∧
  (∀ (s : State) (m : RaiseMsg), s.swapDue fltPage = false → s.flt.exiting = true → s.flt.safe = true → (s.takeRaise m).flt.exiting = false ∧ (s.takeRaise m).flt.safeAt = s.clk.fld) ∧
  -- faults of the collector, and its watchdogs
  (∀ (s u : State) (pg : Page) (unit : Nat) (e : Word), u = s.barrierAccept .field .fault →
    exec (.collectorFault pg unit e) s = .next (u.collector 1 unit e).safeEnter) ∧
  (∀ (s : State), exec (.tableSweep true) s = .next
      ((s.collector 0 0 (s.elw fltPage 0)).barrierSend .field .fault 0x06 [srcOf fltPage 0]) ∧ exec (.tableSweep false) s = .next s) ∧
  (∀ (s u : State) (bit unit : Nat) (e : Word), bit < 2 → unit < 65536 →
    u = (s.latchQuiet bit).logPut (srcOf fltPage bit) 4 0x7F 1 unit true true e →
    (s.collector bit unit e).flt.reload = true ∧ ((s.latchQuiet bit).elw fltPage 0).bit bit = true ∧
    (s.flt.safe = false → s.collector bit unit e = { u with flt := { u.flt with reload := true } }) ∧
    (s.flt.safe = true → s.flt.exiting = false → s.collector bit unit e = { u with
      flt := { u.flt with
        reload := true, safeAt := s.clk.fld } })) ∧
  (∀ (s : State), (s.trs.hostPower = true → s.trs.dieReset = false → s.flt.heartbeatAt + 2621440 ≤ s.clk.noc →
      exec .heartbeatTimeout s = .next s.safeEnter) ∧
    (s.clk.noc < s.flt.heartbeatAt + 2621440 → exec .heartbeatTimeout s = .next s)) ∧
  (∀ (s : State), s.trs.weirRuns = true → s.flt.watchdogAt + 2000000 ≤ s.clk.fld → exec .fieldWatchdogExpire s =
    .next ((({ s with trs := { s.trs with weirRuns := false, startup := 2 } } : State).err .flt 2).barrierSend .field .fault 0x06
      [0x1FFF])) ∧
  -- ALIVE
  (∀ (s : State), s.trs.startup = 8 → s.trs.weirRuns = true → s.clk.fld < s.flt.watchdogAt + 2000000 → s.flt.planes = [] →
    s.flt.safe = false → s.cg.refinField = true → s.flt.aliveAt + 100000 ≤ s.clk.fld →
    exec .aliveToggle s = .next { s with flt := { s.flt with alive := !s.flt.alive, aliveAt := s.clk.fld } }) ∧
  (∀ (s : State), (s.trs.startup ≠ 8 ∨ s.flt.watchdogAt + 2000000 ≤ s.clk.fld ∨ s.flt.planes ≠ [] ∨ s.flt.safe = true) →
    exec .aliveToggle s = .next s) ∧
  -- the severity table
  (∀ (s : State) (k : Nat) (w : Word), k < 512 →
    ((∀ j, j < 16 → w.field (4 * j + 2) (4 * j) ≤ 4) →
      exec (.sevWrite k 8 0 w) s = .next (s.setReg fltPage (0x1000 + 8 * k) (sevStored k w))) ∧
    ((∃ j, j < 16 ∧ 5 ≤ w.field (4 * j + 2) (4 * j)) → exec (.sevWrite k 8 0 w) s = .next (s.refuse fltPage (0x1000 + 8 * k))) ∧
    (∀ j, j < 16 → (sevStored k w).field (4 * j + 2) (4 * j) = max (w.field (4 * j + 2) (4 * j)) (sevFloor (16 * k + j)) ∧
      (sevStored k w).bit (4 * j + 3) = false)) ∧
  (∀ (s : State) (k h : Nat) (v w : Word), k < 512 → h < 2 → w = (if h = 0 then (s.reg fltPage (0x1000 + 8 * k)).setField 31 0 v.toNat
      else (s.reg fltPage (0x1000 + 8 * k)).setField 63 32 v.toNat) →
    ((∀ j, j < 16 → w.field (4 * j + 2) (4 * j) ≤ 4) → exec (.sevWrite k 4 h v) s = exec (.sevWrite k 8 0 w) s) ∧
    ((∃ j, j < 16 ∧ 5 ≤ w.field (4 * j + 2) (4 * j)) →
      exec (.sevWrite k 4 h v) s = .next (s.refuse fltPage (0x1000 + 8 * k + 4 * h)))) ∧
  -- the commands of the page
  (∀ (s : State) (p : Nat), Taken s .flt → p < 128 →
    (p ∈ s.flt.parts → exec (.fltUncontainPart p) s = .next ((s.barrierSend .field .fault 0x03 [p]).cmdEnd .flt 1 0 .ok)) ∧
    (p ∉ s.flt.parts → exec (.fltUncontainPart p) s = .next (s.cmdEnd .flt 1 0 .state))) ∧
  (∀ (s : State) (pl : Nat), Taken s .flt → pl = (s.reg fltPage 0x188).field 1 0 →
    (pl ≠ 3 → pl ∈ s.flt.planes → exec .fltUncontainPlane s = .next ((s.barrierSend .field .fault 0x05 [pl]).cmdEnd .flt 2 0 .ok)) ∧
    (pl ≠ 3 → pl ∉ s.flt.planes → exec .fltUncontainPlane s = .next (s.cmdEnd .flt 2 0 .state)) ∧
    (pl = 3 → exec .fltUncontainPlane s = .next (s.cmdEnd .flt 2 0 .format))) ∧
  (∀ (s : State), Taken s .flt →
    (s.flt.safe = true → s.flt.exiting = false → exec .exit s = .next (s.exitStart.cmdEnd .flt 3 0 .ok)) ∧
    (s.flt.safe = false → exec .exit s = .next (s.cmdEnd .flt 3 0 .state))) ∧
  (∀ (s : State) (src : Nat), Taken s .flt → src = (s.reg fltPage 0x188).field 12 0 →
    (src ≤ 8127 → exec .srcRead s = .next ((s.setReg fltPage 0x1A0 (((0 : Word).setField 63 32 (Tab.get (0, 0) s.flt.raises
      src).1).setField 31 0 (Tab.get (0, 0) s.flt.raises src).2)).cmdEnd .flt 4 0 .ok)) ∧
    (8127 < src → exec .srcRead s = .next (s.cmdEnd .flt 4 0 .format)))
end

