-- ==== Sys2Proof/Laws/Tab.lean ====
section
/-! SUPPORT. Laws of sparse tables: reading after a write, and the canonical form, which every table operation keeps. -/

namespace Sys2Proof.Machine

variable {α : Type}

/-! ## Reading after a write -/

theorem Tab.get_erase_ne (d : α) (t : Tab α) (k j : Nat) (h : j ≠ k) : Tab.get d (Tab.erase t k) j = Tab.get d t j := by
  induction t with
  | nil => rfl
  | cons e r ih =>
    obtain ⟨i, v⟩ := e
    by_cases hk : i = k
    · simp [Tab.erase, Tab.get, hk, Ne.symm h, ih]
    · simp [Tab.erase, Tab.get, hk, ih]

theorem Tab.get_erase_self (d : α) (t : Tab α) (k : Nat) : Tab.get d (Tab.erase t k) k = d := by
  induction t with
  | nil => rfl
  | cons e r ih =>
    obtain ⟨i, v⟩ := e
    by_cases hk : i = k
    · simp [Tab.erase, hk, ih]
    · simp [Tab.erase, Tab.get, hk, ih]

theorem Tab.get_insert_self (d : α) (t : Tab α) (k : Nat) (v : α) : Tab.get d (Tab.insert t k v) k = v := by
  induction t with
  | nil => simp [Tab.insert, Tab.get]
  | cons e r ih =>
    obtain ⟨i, w⟩ := e
    unfold Tab.insert
    by_cases h1 : k < i
    · simp [h1, Tab.get]
    · by_cases h2 : k = i
      · simp [h2, Tab.get]
      · simp [h1, h2, Tab.get, Ne.symm h2, ih]

theorem Tab.get_insert_ne (d : α) (t : Tab α) (k j : Nat) (v : α) (h : j ≠ k) :
    Tab.get d (Tab.insert t k v) j = Tab.get d t j := by
  induction t with
  | nil => simp [Tab.insert, Tab.get, Ne.symm h]
  | cons e r ih =>
    obtain ⟨i, w⟩ := e
    unfold Tab.insert
    by_cases h1 : k < i
    · simp [h1, Tab.get, Ne.symm h]
    · by_cases h2 : k = i
      · subst h2; simp [Tab.get, Ne.symm h]
      · by_cases h3 : i = j
        · subst h3; simp [h1, h2, Tab.get]
        · simp [h1, h2, h3, Tab.get, ih]

/-! ## The canonical form -/

/-- The lower bound of a canonical table may fall. -/
theorem Tab.wfFrom_mono [DecidableEq α] (d : α) (t : Tab α) (a b : Nat) (h : b ≤ a) :
    Tab.wfFrom d (some a) t = true → Tab.wfFrom d (some b) t = true := by
  cases t with
  | nil => intro _; rfl
  | cons e r =>
    obtain ⟨i, v⟩ := e
    simp only [Tab.wfFrom, Bool.and_eq_true, decide_eq_true_eq]
    rintro ⟨⟨h1, h2⟩, h3⟩
    exact ⟨⟨by omega, h2⟩, h3⟩

theorem Tab.wfFrom_none [DecidableEq α] (d : α) (t : Tab α) (lo : Option Nat) :
    Tab.wfFrom d lo t = true → Tab.wfFrom d none t = true := by
  cases t with
  | nil => intro _; rfl
  | cons e r =>
    obtain ⟨i, v⟩ := e
    simp only [Tab.wfFrom, Bool.and_eq_true, decide_eq_true_eq]
    rintro ⟨⟨_, h2⟩, h3⟩
    exact ⟨⟨trivial, h2⟩, h3⟩

/-- A table canonical above some bound is canonical above any bound that its first key passes; here, after its head is dropped. -/
theorem Tab.wfFrom_tail [DecidableEq α] (d : α) (i : Nat) (v : α) (r : Tab α) (lo : Option Nat)
    (h : Tab.wfFrom d lo ((i, v) :: r) = true) : Tab.wfFrom d lo r = true := by
  simp only [Tab.wfFrom, Bool.and_eq_true, decide_eq_true_eq] at h
  obtain ⟨⟨h1, _⟩, h3⟩ := h
  cases lo with
  | none => exact Tab.wfFrom_none d r _ h3
  | some l =>
    have hl : l < i := by simpa using h1
    exact Tab.wfFrom_mono d r i l (by omega) h3

theorem Tab.wfFrom_erase [DecidableEq α] (d : α) (t : Tab α) (k : Nat) (lo : Option Nat) :
    Tab.wfFrom d lo t = true → Tab.wfFrom d lo (Tab.erase t k) = true := by
  induction t generalizing lo with
  | nil => intro _; rfl
  | cons e r ih =>
    obtain ⟨i, v⟩ := e
    intro h
    by_cases hk : i = k
    · simpa [Tab.erase, hk] using ih lo (Tab.wfFrom_tail d i v r lo h)
    · simp only [Tab.erase, hk, if_false]
      simp only [Tab.wfFrom, Bool.and_eq_true, decide_eq_true_eq] at h ⊢
      exact ⟨h.1, ih _ h.2⟩

theorem Tab.wfFrom_insert [DecidableEq α] (d : α) (t : Tab α) (k : Nat) (v : α) (hv : v ≠ d) (lo : Option Nat)
    (hlo : ∀ l, lo = some l → l < k) : Tab.wfFrom d lo t = true → Tab.wfFrom d lo (Tab.insert t k v) = true := by
  induction t generalizing lo with
  | nil =>
    intro _
    cases lo with
    | none => simp [Tab.insert, Tab.wfFrom, hv]
    | some l => simp [Tab.insert, Tab.wfFrom, hv, hlo l rfl]
  | cons e r ih =>
    obtain ⟨i, w⟩ := e
    intro h
    simp only [Tab.wfFrom, Bool.and_eq_true, decide_eq_true_eq] at h
    obtain ⟨⟨h1, h2⟩, h3⟩ := h
    unfold Tab.insert
    by_cases hki : k < i
    · simp only [hki, if_true]
      cases lo with
      | none => simp [Tab.wfFrom, hv, hki, h2, h3]
      | some l => simp [Tab.wfFrom, hv, hki, h2, h3, hlo l rfl]
    · by_cases he : k = i
      · subst he
        simp only [Nat.lt_irrefl, if_false, if_true]
        cases lo with
        | none => simp [Tab.wfFrom, hv, h3]
        | some l => simp [Tab.wfFrom, hv, h3, hlo l rfl]
      · simp only [hki, if_false, he]
        simp only [Tab.wfFrom, Bool.and_eq_true, decide_eq_true_eq]
        exact ⟨⟨h1, h2⟩, ih (some i) (by intro l hl; cases hl; omega) h3⟩

/-- Removing keys keeps the canonical form. -/
theorem Tab.wf_erase [DecidableEq α] {d : α} {t : Tab α} (k : Nat) (h : Tab.wf d t = true) : Tab.wf d (Tab.erase t k) = true :=
  Tab.wfFrom_erase d t k none h

/-- A write keeps the canonical form. -/
theorem Tab.wf_set [DecidableEq α] {d : α} {t : Tab α} (k : Nat) (v : α) (h : Tab.wf d t = true) :
    Tab.wf d (Tab.set d t k v) = true := by
  unfold Tab.set
  by_cases hv : v = d
  · simpa [hv] using Tab.wf_erase k h
  · simp only [hv, if_false]
    exact Tab.wfFrom_insert d t k v hv none (by simp) h

theorem Tab.wfFrom_filter [DecidableEq α] (d : α) (t : Tab α) (p : Nat × α → Bool) (lo : Option Nat) :
    Tab.wfFrom d lo t = true → Tab.wfFrom d lo (t.filter p) = true := by
  induction t generalizing lo with
  | nil => intro _; rfl
  | cons e r ih =>
    obtain ⟨i, v⟩ := e
    intro h
    by_cases hp : p (i, v) = true
    · simp only [List.filter_cons, hp, if_true]
      simp only [Tab.wfFrom, Bool.and_eq_true, decide_eq_true_eq] at h ⊢
      exact ⟨h.1, ih _ h.2⟩
    · simp only [List.filter_cons, hp]
      exact ih lo (Tab.wfFrom_tail d i v r lo h)

/-- Keeping some entries keeps the canonical form. -/
theorem Tab.wf_filter [DecidableEq α] {d : α} {t : Tab α} (p : Nat × α → Bool) (h : Tab.wf d t = true) :
    Tab.wf d (t.filter p) = true := Tab.wfFrom_filter d t p none h

/-- A table reads what was written at the key written. -/
@[simp] theorem Tab.get_set_self [DecidableEq α] (d : α) (t : Tab α) (k : Nat) (v : α) :
    Tab.get d (Tab.set d t k v) k = v := by
  unfold Tab.set
  by_cases hv : v = d
  · simpa [hv] using Tab.get_erase_self d t k
  · simpa [hv] using Tab.get_insert_self d t k v

/-- A write leaves every other key. -/
theorem Tab.get_set_ne [DecidableEq α] (d : α) (t : Tab α) (k j : Nat) (v : α) (h : j ≠ k) :
    Tab.get d (Tab.set d t k v) j = Tab.get d t j := by
  unfold Tab.set
  by_cases hv : v = d
  · simpa [hv] using Tab.get_erase_ne d t k j h
  · simpa [hv] using Tab.get_insert_ne d t k j v h

/-! ## Looking up -/

/-- Looking up a key is reading it with a default. -/
theorem Tab.find_getD (d : α) (t : Tab α) (k : Nat) : (Tab.find t k).getD d = Tab.get d t k := by
  induction t with
  | nil => rfl
  | cons e r ih =>
    obtain ⟨i, v⟩ := e
    by_cases hk : i = k
    · simp [Tab.find, Tab.get, hk]
    · simp [Tab.find, Tab.get, hk, ih]

end Sys2Proof.Machine
end

