-- ==== Sys2Proof/Laws/State.lean ====
section
/-! SUPPORT. The fields of State after an update, and what is read back after a write: no later proof unfolds an update of one
field. -/

namespace Sys2Proof.Machine

/-! ## setReg writes regs alone -/

@[simp] theorem State.setReg_pending (s : State) (pg : Page) (off : Nat) (v : Word) : (s.setReg pg off v).pending = s.pending := rfl
@[simp] theorem State.setReg_clk (s : State) (pg : Page) (off : Nat) (v : Word) : (s.setReg pg off v).clk = s.clk := rfl
@[simp] theorem State.setReg_entry (s : State) (pg : Page) (off : Nat) (v : Word) : (s.setReg pg off v).entry = s.entry := rfl
@[simp] theorem State.setReg_prev (s : State) (pg : Page) (off : Nat) (v : Word) : (s.setReg pg off v).prev = s.prev := rfl
@[simp] theorem State.setReg_hbm (s : State) (pg : Page) (off : Nat) (v : Word) : (s.setReg pg off v).hbm = s.hbm := rfl
@[simp] theorem State.setReg_badLines (s : State) (pg : Page) (off : Nat) (v : Word) : (s.setReg pg off v).badLines = s.badLines := rfl
@[simp] theorem State.setReg_out (s : State) (pg : Page) (off : Nat) (v : Word) : (s.setReg pg off v).out = s.out := rfl
@[simp] theorem State.setReg_free (s : State) (pg : Page) (off : Nat) (v : Word) : (s.setReg pg off v).free = s.free := rfl
@[simp] theorem State.setReg_parts (s : State) (pg : Page) (off : Nat) (v : Word) : (s.setReg pg off v).parts = s.parts := rfl
@[simp] theorem State.setReg_owner (s : State) (pg : Page) (off : Nat) (v : Word) : (s.setReg pg off v).owner = s.owner := rfl
@[simp] theorem State.setReg_gran (s : State) (pg : Page) (off : Nat) (v : Word) : (s.setReg pg off v).gran = s.gran := rfl
@[simp] theorem State.setReg_scrubs (s : State) (pg : Page) (off : Nat) (v : Word) : (s.setReg pg off v).scrubs = s.scrubs := rfl
@[simp] theorem State.setReg_vis (s : State) (pg : Page) (off : Nat) (v : Word) : (s.setReg pg off v).vis = s.vis := rfl
@[simp] theorem State.setReg_harvests (s : State) (pg : Page) (off : Nat) (v : Word) : (s.setReg pg off v).harvests = s.harvests := rfl
@[simp] theorem State.setReg_rings (s : State) (pg : Page) (off : Nat) (v : Word) : (s.setReg pg off v).rings = s.rings := rfl
@[simp] theorem State.setReg_work (s : State) (pg : Page) (off : Nat) (v : Word) : (s.setReg pg off v).work = s.work := rfl
@[simp] theorem State.setReg_sync (s : State) (pg : Page) (off : Nat) (v : Word) : (s.setReg pg off v).sync = s.sync := rfl
@[simp] theorem State.setReg_reads (s : State) (pg : Page) (off : Nat) (v : Word) : (s.setReg pg off v).reads = s.reads := rfl
@[simp] theorem State.setReg_quar (s : State) (pg : Page) (off : Nat) (v : Word) : (s.setReg pg off v).quar = s.quar := rfl
@[simp] theorem State.setReg_hlk (s : State) (pg : Page) (off : Nat) (v : Word) : (s.setReg pg off v).hlk = s.hlk := rfl
@[simp] theorem State.setReg_dports (s : State) (pg : Page) (off : Nat) (v : Word) : (s.setReg pg off v).dports = s.dports := rfl
@[simp] theorem State.setReg_mlr (s : State) (pg : Page) (off : Nat) (v : Word) : (s.setReg pg off v).mlr = s.mlr := rfl
@[simp] theorem State.setReg_epts (s : State) (pg : Page) (off : Nat) (v : Word) : (s.setReg pg off v).epts = s.epts := rfl
@[simp] theorem State.setReg_pkt (s : State) (pg : Page) (off : Nat) (v : Word) : (s.setReg pg off v).pkt = s.pkt := rfl
@[simp] theorem State.setReg_sch (s : State) (pg : Page) (off : Nat) (v : Word) : (s.setReg pg off v).sch = s.sch := rfl
@[simp] theorem State.setReg_xrd (s : State) (pg : Page) (off : Nat) (v : Word) : (s.setReg pg off v).xrd = s.xrd := rfl
@[simp] theorem State.setReg_kvs (s : State) (pg : Page) (off : Nat) (v : Word) : (s.setReg pg off v).kvs = s.kvs := rfl
@[simp] theorem State.setReg_att (s : State) (pg : Page) (off : Nat) (v : Word) : (s.setReg pg off v).att = s.att := rfl
@[simp] theorem State.setReg_ckp (s : State) (pg : Page) (off : Nat) (v : Word) : (s.setReg pg off v).ckp = s.ckp := rfl
@[simp] theorem State.setReg_sto (s : State) (pg : Page) (off : Nat) (v : Word) : (s.setReg pg off v).sto = s.sto := rfl
@[simp] theorem State.setReg_cph (s : State) (pg : Page) (off : Nat) (v : Word) : (s.setReg pg off v).cph = s.cph := rfl
@[simp] theorem State.setReg_bar (s : State) (pg : Page) (off : Nat) (v : Word) : (s.setReg pg off v).bar = s.bar := rfl
@[simp] theorem State.setReg_trs (s : State) (pg : Page) (off : Nat) (v : Word) : (s.setReg pg off v).trs = s.trs := rfl
@[simp] theorem State.setReg_cores (s : State) (pg : Page) (off : Nat) (v : Word) : (s.setReg pg off v).cores = s.cores := rfl
@[simp] theorem State.setReg_fwi (s : State) (pg : Page) (off : Nat) (v : Word) : (s.setReg pg off v).fwi = s.fwi := rfl
@[simp] theorem State.setReg_cg (s : State) (pg : Page) (off : Nat) (v : Word) : (s.setReg pg off v).cg = s.cg := rfl
@[simp] theorem State.setReg_pwr (s : State) (pg : Page) (off : Nat) (v : Word) : (s.setReg pg off v).pwr = s.pwr := rfl
@[simp] theorem State.setReg_flt (s : State) (pg : Page) (off : Nat) (v : Word) : (s.setReg pg off v).flt = s.flt := rfl
@[simp] theorem State.setReg_balls (s : State) (pg : Page) (off : Nat) (v : Word) : (s.setReg pg off v).balls = s.balls := rfl

/-! ## setByte writes hbm alone -/

@[simp] theorem State.setByte_pending (s : State) (a : Nat) (b : Byte) : (s.setByte a b).pending = s.pending := rfl
@[simp] theorem State.setByte_clk (s : State) (a : Nat) (b : Byte) : (s.setByte a b).clk = s.clk := rfl
@[simp] theorem State.setByte_regs (s : State) (a : Nat) (b : Byte) : (s.setByte a b).regs = s.regs := rfl
@[simp] theorem State.setByte_entry (s : State) (a : Nat) (b : Byte) : (s.setByte a b).entry = s.entry := rfl
@[simp] theorem State.setByte_prev (s : State) (a : Nat) (b : Byte) : (s.setByte a b).prev = s.prev := rfl
@[simp] theorem State.setByte_badLines (s : State) (a : Nat) (b : Byte) : (s.setByte a b).badLines = s.badLines := rfl
@[simp] theorem State.setByte_out (s : State) (a : Nat) (b : Byte) : (s.setByte a b).out = s.out := rfl
@[simp] theorem State.setByte_free (s : State) (a : Nat) (b : Byte) : (s.setByte a b).free = s.free := rfl
@[simp] theorem State.setByte_parts (s : State) (a : Nat) (b : Byte) : (s.setByte a b).parts = s.parts := rfl
@[simp] theorem State.setByte_owner (s : State) (a : Nat) (b : Byte) : (s.setByte a b).owner = s.owner := rfl
@[simp] theorem State.setByte_gran (s : State) (a : Nat) (b : Byte) : (s.setByte a b).gran = s.gran := rfl
@[simp] theorem State.setByte_scrubs (s : State) (a : Nat) (b : Byte) : (s.setByte a b).scrubs = s.scrubs := rfl
@[simp] theorem State.setByte_vis (s : State) (a : Nat) (b : Byte) : (s.setByte a b).vis = s.vis := rfl
@[simp] theorem State.setByte_harvests (s : State) (a : Nat) (b : Byte) : (s.setByte a b).harvests = s.harvests := rfl
@[simp] theorem State.setByte_rings (s : State) (a : Nat) (b : Byte) : (s.setByte a b).rings = s.rings := rfl
@[simp] theorem State.setByte_work (s : State) (a : Nat) (b : Byte) : (s.setByte a b).work = s.work := rfl
@[simp] theorem State.setByte_sync (s : State) (a : Nat) (b : Byte) : (s.setByte a b).sync = s.sync := rfl
@[simp] theorem State.setByte_reads (s : State) (a : Nat) (b : Byte) : (s.setByte a b).reads = s.reads := rfl
@[simp] theorem State.setByte_quar (s : State) (a : Nat) (b : Byte) : (s.setByte a b).quar = s.quar := rfl
@[simp] theorem State.setByte_hlk (s : State) (a : Nat) (b : Byte) : (s.setByte a b).hlk = s.hlk := rfl
@[simp] theorem State.setByte_dports (s : State) (a : Nat) (b : Byte) : (s.setByte a b).dports = s.dports := rfl
@[simp] theorem State.setByte_mlr (s : State) (a : Nat) (b : Byte) : (s.setByte a b).mlr = s.mlr := rfl
@[simp] theorem State.setByte_epts (s : State) (a : Nat) (b : Byte) : (s.setByte a b).epts = s.epts := rfl
@[simp] theorem State.setByte_pkt (s : State) (a : Nat) (b : Byte) : (s.setByte a b).pkt = s.pkt := rfl
@[simp] theorem State.setByte_sch (s : State) (a : Nat) (b : Byte) : (s.setByte a b).sch = s.sch := rfl
@[simp] theorem State.setByte_xrd (s : State) (a : Nat) (b : Byte) : (s.setByte a b).xrd = s.xrd := rfl
@[simp] theorem State.setByte_kvs (s : State) (a : Nat) (b : Byte) : (s.setByte a b).kvs = s.kvs := rfl
@[simp] theorem State.setByte_att (s : State) (a : Nat) (b : Byte) : (s.setByte a b).att = s.att := rfl
@[simp] theorem State.setByte_ckp (s : State) (a : Nat) (b : Byte) : (s.setByte a b).ckp = s.ckp := rfl
@[simp] theorem State.setByte_sto (s : State) (a : Nat) (b : Byte) : (s.setByte a b).sto = s.sto := rfl
@[simp] theorem State.setByte_cph (s : State) (a : Nat) (b : Byte) : (s.setByte a b).cph = s.cph := rfl
@[simp] theorem State.setByte_bar (s : State) (a : Nat) (b : Byte) : (s.setByte a b).bar = s.bar := rfl
@[simp] theorem State.setByte_trs (s : State) (a : Nat) (b : Byte) : (s.setByte a b).trs = s.trs := rfl
@[simp] theorem State.setByte_cores (s : State) (a : Nat) (b : Byte) : (s.setByte a b).cores = s.cores := rfl
@[simp] theorem State.setByte_fwi (s : State) (a : Nat) (b : Byte) : (s.setByte a b).fwi = s.fwi := rfl
@[simp] theorem State.setByte_cg (s : State) (a : Nat) (b : Byte) : (s.setByte a b).cg = s.cg := rfl
@[simp] theorem State.setByte_pwr (s : State) (a : Nat) (b : Byte) : (s.setByte a b).pwr = s.pwr := rfl
@[simp] theorem State.setByte_flt (s : State) (a : Nat) (b : Byte) : (s.setByte a b).flt = s.flt := rfl
@[simp] theorem State.setByte_balls (s : State) (a : Nat) (b : Byte) : (s.setByte a b).balls = s.balls := rfl

/-! ## setPart writes parts alone -/

@[simp] theorem State.setPart_pending (s : State) (p : Nat) (x : Part) : (s.setPart p x).pending = s.pending := rfl
@[simp] theorem State.setPart_clk (s : State) (p : Nat) (x : Part) : (s.setPart p x).clk = s.clk := rfl
@[simp] theorem State.setPart_regs (s : State) (p : Nat) (x : Part) : (s.setPart p x).regs = s.regs := rfl
@[simp] theorem State.setPart_entry (s : State) (p : Nat) (x : Part) : (s.setPart p x).entry = s.entry := rfl
@[simp] theorem State.setPart_prev (s : State) (p : Nat) (x : Part) : (s.setPart p x).prev = s.prev := rfl
@[simp] theorem State.setPart_hbm (s : State) (p : Nat) (x : Part) : (s.setPart p x).hbm = s.hbm := rfl
@[simp] theorem State.setPart_badLines (s : State) (p : Nat) (x : Part) : (s.setPart p x).badLines = s.badLines := rfl
@[simp] theorem State.setPart_out (s : State) (p : Nat) (x : Part) : (s.setPart p x).out = s.out := rfl
@[simp] theorem State.setPart_free (s : State) (p : Nat) (x : Part) : (s.setPart p x).free = s.free := rfl
@[simp] theorem State.setPart_owner (s : State) (p : Nat) (x : Part) : (s.setPart p x).owner = s.owner := rfl
@[simp] theorem State.setPart_gran (s : State) (p : Nat) (x : Part) : (s.setPart p x).gran = s.gran := rfl
@[simp] theorem State.setPart_scrubs (s : State) (p : Nat) (x : Part) : (s.setPart p x).scrubs = s.scrubs := rfl
@[simp] theorem State.setPart_vis (s : State) (p : Nat) (x : Part) : (s.setPart p x).vis = s.vis := rfl
@[simp] theorem State.setPart_harvests (s : State) (p : Nat) (x : Part) : (s.setPart p x).harvests = s.harvests := rfl
@[simp] theorem State.setPart_rings (s : State) (p : Nat) (x : Part) : (s.setPart p x).rings = s.rings := rfl
@[simp] theorem State.setPart_work (s : State) (p : Nat) (x : Part) : (s.setPart p x).work = s.work := rfl
@[simp] theorem State.setPart_sync (s : State) (p : Nat) (x : Part) : (s.setPart p x).sync = s.sync := rfl
@[simp] theorem State.setPart_reads (s : State) (p : Nat) (x : Part) : (s.setPart p x).reads = s.reads := rfl
@[simp] theorem State.setPart_quar (s : State) (p : Nat) (x : Part) : (s.setPart p x).quar = s.quar := rfl
@[simp] theorem State.setPart_hlk (s : State) (p : Nat) (x : Part) : (s.setPart p x).hlk = s.hlk := rfl
@[simp] theorem State.setPart_dports (s : State) (p : Nat) (x : Part) : (s.setPart p x).dports = s.dports := rfl
@[simp] theorem State.setPart_mlr (s : State) (p : Nat) (x : Part) : (s.setPart p x).mlr = s.mlr := rfl
@[simp] theorem State.setPart_epts (s : State) (p : Nat) (x : Part) : (s.setPart p x).epts = s.epts := rfl
@[simp] theorem State.setPart_pkt (s : State) (p : Nat) (x : Part) : (s.setPart p x).pkt = s.pkt := rfl
@[simp] theorem State.setPart_sch (s : State) (p : Nat) (x : Part) : (s.setPart p x).sch = s.sch := rfl
@[simp] theorem State.setPart_xrd (s : State) (p : Nat) (x : Part) : (s.setPart p x).xrd = s.xrd := rfl
@[simp] theorem State.setPart_kvs (s : State) (p : Nat) (x : Part) : (s.setPart p x).kvs = s.kvs := rfl
@[simp] theorem State.setPart_att (s : State) (p : Nat) (x : Part) : (s.setPart p x).att = s.att := rfl
@[simp] theorem State.setPart_ckp (s : State) (p : Nat) (x : Part) : (s.setPart p x).ckp = s.ckp := rfl
@[simp] theorem State.setPart_sto (s : State) (p : Nat) (x : Part) : (s.setPart p x).sto = s.sto := rfl
@[simp] theorem State.setPart_cph (s : State) (p : Nat) (x : Part) : (s.setPart p x).cph = s.cph := rfl
@[simp] theorem State.setPart_bar (s : State) (p : Nat) (x : Part) : (s.setPart p x).bar = s.bar := rfl
@[simp] theorem State.setPart_trs (s : State) (p : Nat) (x : Part) : (s.setPart p x).trs = s.trs := rfl
@[simp] theorem State.setPart_cores (s : State) (p : Nat) (x : Part) : (s.setPart p x).cores = s.cores := rfl
@[simp] theorem State.setPart_fwi (s : State) (p : Nat) (x : Part) : (s.setPart p x).fwi = s.fwi := rfl
@[simp] theorem State.setPart_cg (s : State) (p : Nat) (x : Part) : (s.setPart p x).cg = s.cg := rfl
@[simp] theorem State.setPart_pwr (s : State) (p : Nat) (x : Part) : (s.setPart p x).pwr = s.pwr := rfl
@[simp] theorem State.setPart_flt (s : State) (p : Nat) (x : Part) : (s.setPart p x).flt = s.flt := rfl
@[simp] theorem State.setPart_balls (s : State) (p : Nat) (x : Part) : (s.setPart p x).balls = s.balls := rfl

/-! ## setVi writes vis alone -/

@[simp] theorem State.setVi_pending (s : State) (v : Nat) (x : Vi) : (s.setVi v x).pending = s.pending := rfl
@[simp] theorem State.setVi_clk (s : State) (v : Nat) (x : Vi) : (s.setVi v x).clk = s.clk := rfl
@[simp] theorem State.setVi_regs (s : State) (v : Nat) (x : Vi) : (s.setVi v x).regs = s.regs := rfl
@[simp] theorem State.setVi_entry (s : State) (v : Nat) (x : Vi) : (s.setVi v x).entry = s.entry := rfl
@[simp] theorem State.setVi_prev (s : State) (v : Nat) (x : Vi) : (s.setVi v x).prev = s.prev := rfl
@[simp] theorem State.setVi_hbm (s : State) (v : Nat) (x : Vi) : (s.setVi v x).hbm = s.hbm := rfl
@[simp] theorem State.setVi_badLines (s : State) (v : Nat) (x : Vi) : (s.setVi v x).badLines = s.badLines := rfl
@[simp] theorem State.setVi_out (s : State) (v : Nat) (x : Vi) : (s.setVi v x).out = s.out := rfl
@[simp] theorem State.setVi_free (s : State) (v : Nat) (x : Vi) : (s.setVi v x).free = s.free := rfl
@[simp] theorem State.setVi_parts (s : State) (v : Nat) (x : Vi) : (s.setVi v x).parts = s.parts := rfl
@[simp] theorem State.setVi_owner (s : State) (v : Nat) (x : Vi) : (s.setVi v x).owner = s.owner := rfl
@[simp] theorem State.setVi_gran (s : State) (v : Nat) (x : Vi) : (s.setVi v x).gran = s.gran := rfl
@[simp] theorem State.setVi_scrubs (s : State) (v : Nat) (x : Vi) : (s.setVi v x).scrubs = s.scrubs := rfl
@[simp] theorem State.setVi_harvests (s : State) (v : Nat) (x : Vi) : (s.setVi v x).harvests = s.harvests := rfl
@[simp] theorem State.setVi_rings (s : State) (v : Nat) (x : Vi) : (s.setVi v x).rings = s.rings := rfl
@[simp] theorem State.setVi_work (s : State) (v : Nat) (x : Vi) : (s.setVi v x).work = s.work := rfl
@[simp] theorem State.setVi_sync (s : State) (v : Nat) (x : Vi) : (s.setVi v x).sync = s.sync := rfl
@[simp] theorem State.setVi_reads (s : State) (v : Nat) (x : Vi) : (s.setVi v x).reads = s.reads := rfl
@[simp] theorem State.setVi_quar (s : State) (v : Nat) (x : Vi) : (s.setVi v x).quar = s.quar := rfl
@[simp] theorem State.setVi_hlk (s : State) (v : Nat) (x : Vi) : (s.setVi v x).hlk = s.hlk := rfl
@[simp] theorem State.setVi_dports (s : State) (v : Nat) (x : Vi) : (s.setVi v x).dports = s.dports := rfl
@[simp] theorem State.setVi_mlr (s : State) (v : Nat) (x : Vi) : (s.setVi v x).mlr = s.mlr := rfl
@[simp] theorem State.setVi_epts (s : State) (v : Nat) (x : Vi) : (s.setVi v x).epts = s.epts := rfl
@[simp] theorem State.setVi_pkt (s : State) (v : Nat) (x : Vi) : (s.setVi v x).pkt = s.pkt := rfl
@[simp] theorem State.setVi_sch (s : State) (v : Nat) (x : Vi) : (s.setVi v x).sch = s.sch := rfl
@[simp] theorem State.setVi_xrd (s : State) (v : Nat) (x : Vi) : (s.setVi v x).xrd = s.xrd := rfl
@[simp] theorem State.setVi_kvs (s : State) (v : Nat) (x : Vi) : (s.setVi v x).kvs = s.kvs := rfl
@[simp] theorem State.setVi_att (s : State) (v : Nat) (x : Vi) : (s.setVi v x).att = s.att := rfl
@[simp] theorem State.setVi_ckp (s : State) (v : Nat) (x : Vi) : (s.setVi v x).ckp = s.ckp := rfl
@[simp] theorem State.setVi_sto (s : State) (v : Nat) (x : Vi) : (s.setVi v x).sto = s.sto := rfl
@[simp] theorem State.setVi_cph (s : State) (v : Nat) (x : Vi) : (s.setVi v x).cph = s.cph := rfl
@[simp] theorem State.setVi_bar (s : State) (v : Nat) (x : Vi) : (s.setVi v x).bar = s.bar := rfl
@[simp] theorem State.setVi_trs (s : State) (v : Nat) (x : Vi) : (s.setVi v x).trs = s.trs := rfl
@[simp] theorem State.setVi_cores (s : State) (v : Nat) (x : Vi) : (s.setVi v x).cores = s.cores := rfl
@[simp] theorem State.setVi_fwi (s : State) (v : Nat) (x : Vi) : (s.setVi v x).fwi = s.fwi := rfl
@[simp] theorem State.setVi_cg (s : State) (v : Nat) (x : Vi) : (s.setVi v x).cg = s.cg := rfl
@[simp] theorem State.setVi_pwr (s : State) (v : Nat) (x : Vi) : (s.setVi v x).pwr = s.pwr := rfl
@[simp] theorem State.setVi_flt (s : State) (v : Nat) (x : Vi) : (s.setVi v x).flt = s.flt := rfl
@[simp] theorem State.setVi_balls (s : State) (v : Nat) (x : Vi) : (s.setVi v x).balls = s.balls := rfl

/-! ## setRing writes rings alone -/

@[simp] theorem State.setRing_pending (s : State) (r : Nat) (x : Ring) : (s.setRing r x).pending = s.pending := rfl
@[simp] theorem State.setRing_clk (s : State) (r : Nat) (x : Ring) : (s.setRing r x).clk = s.clk := rfl
@[simp] theorem State.setRing_regs (s : State) (r : Nat) (x : Ring) : (s.setRing r x).regs = s.regs := rfl
@[simp] theorem State.setRing_entry (s : State) (r : Nat) (x : Ring) : (s.setRing r x).entry = s.entry := rfl
@[simp] theorem State.setRing_prev (s : State) (r : Nat) (x : Ring) : (s.setRing r x).prev = s.prev := rfl
@[simp] theorem State.setRing_hbm (s : State) (r : Nat) (x : Ring) : (s.setRing r x).hbm = s.hbm := rfl
@[simp] theorem State.setRing_badLines (s : State) (r : Nat) (x : Ring) : (s.setRing r x).badLines = s.badLines := rfl
@[simp] theorem State.setRing_out (s : State) (r : Nat) (x : Ring) : (s.setRing r x).out = s.out := rfl
@[simp] theorem State.setRing_free (s : State) (r : Nat) (x : Ring) : (s.setRing r x).free = s.free := rfl
@[simp] theorem State.setRing_parts (s : State) (r : Nat) (x : Ring) : (s.setRing r x).parts = s.parts := rfl
@[simp] theorem State.setRing_owner (s : State) (r : Nat) (x : Ring) : (s.setRing r x).owner = s.owner := rfl
@[simp] theorem State.setRing_gran (s : State) (r : Nat) (x : Ring) : (s.setRing r x).gran = s.gran := rfl
@[simp] theorem State.setRing_scrubs (s : State) (r : Nat) (x : Ring) : (s.setRing r x).scrubs = s.scrubs := rfl
@[simp] theorem State.setRing_vis (s : State) (r : Nat) (x : Ring) : (s.setRing r x).vis = s.vis := rfl
@[simp] theorem State.setRing_harvests (s : State) (r : Nat) (x : Ring) : (s.setRing r x).harvests = s.harvests := rfl
@[simp] theorem State.setRing_work (s : State) (r : Nat) (x : Ring) : (s.setRing r x).work = s.work := rfl
@[simp] theorem State.setRing_sync (s : State) (r : Nat) (x : Ring) : (s.setRing r x).sync = s.sync := rfl
@[simp] theorem State.setRing_reads (s : State) (r : Nat) (x : Ring) : (s.setRing r x).reads = s.reads := rfl
@[simp] theorem State.setRing_quar (s : State) (r : Nat) (x : Ring) : (s.setRing r x).quar = s.quar := rfl
@[simp] theorem State.setRing_hlk (s : State) (r : Nat) (x : Ring) : (s.setRing r x).hlk = s.hlk := rfl
@[simp] theorem State.setRing_dports (s : State) (r : Nat) (x : Ring) : (s.setRing r x).dports = s.dports := rfl
@[simp] theorem State.setRing_mlr (s : State) (r : Nat) (x : Ring) : (s.setRing r x).mlr = s.mlr := rfl
@[simp] theorem State.setRing_epts (s : State) (r : Nat) (x : Ring) : (s.setRing r x).epts = s.epts := rfl
@[simp] theorem State.setRing_pkt (s : State) (r : Nat) (x : Ring) : (s.setRing r x).pkt = s.pkt := rfl
@[simp] theorem State.setRing_sch (s : State) (r : Nat) (x : Ring) : (s.setRing r x).sch = s.sch := rfl
@[simp] theorem State.setRing_xrd (s : State) (r : Nat) (x : Ring) : (s.setRing r x).xrd = s.xrd := rfl
@[simp] theorem State.setRing_kvs (s : State) (r : Nat) (x : Ring) : (s.setRing r x).kvs = s.kvs := rfl
@[simp] theorem State.setRing_att (s : State) (r : Nat) (x : Ring) : (s.setRing r x).att = s.att := rfl
@[simp] theorem State.setRing_ckp (s : State) (r : Nat) (x : Ring) : (s.setRing r x).ckp = s.ckp := rfl
@[simp] theorem State.setRing_sto (s : State) (r : Nat) (x : Ring) : (s.setRing r x).sto = s.sto := rfl
@[simp] theorem State.setRing_cph (s : State) (r : Nat) (x : Ring) : (s.setRing r x).cph = s.cph := rfl
@[simp] theorem State.setRing_bar (s : State) (r : Nat) (x : Ring) : (s.setRing r x).bar = s.bar := rfl
@[simp] theorem State.setRing_trs (s : State) (r : Nat) (x : Ring) : (s.setRing r x).trs = s.trs := rfl
@[simp] theorem State.setRing_cores (s : State) (r : Nat) (x : Ring) : (s.setRing r x).cores = s.cores := rfl
@[simp] theorem State.setRing_fwi (s : State) (r : Nat) (x : Ring) : (s.setRing r x).fwi = s.fwi := rfl
@[simp] theorem State.setRing_cg (s : State) (r : Nat) (x : Ring) : (s.setRing r x).cg = s.cg := rfl
@[simp] theorem State.setRing_pwr (s : State) (r : Nat) (x : Ring) : (s.setRing r x).pwr = s.pwr := rfl
@[simp] theorem State.setRing_flt (s : State) (r : Nat) (x : Ring) : (s.setRing r x).flt = s.flt := rfl
@[simp] theorem State.setRing_balls (s : State) (r : Nat) (x : Ring) : (s.setRing r x).balls = s.balls := rfl

/-! ## setSync writes sync alone -/

@[simp] theorem State.setSync_pending (s : State) (o : Nat) (v : Word) : (s.setSync o v).pending = s.pending := rfl
@[simp] theorem State.setSync_clk (s : State) (o : Nat) (v : Word) : (s.setSync o v).clk = s.clk := rfl
@[simp] theorem State.setSync_regs (s : State) (o : Nat) (v : Word) : (s.setSync o v).regs = s.regs := rfl
@[simp] theorem State.setSync_entry (s : State) (o : Nat) (v : Word) : (s.setSync o v).entry = s.entry := rfl
@[simp] theorem State.setSync_prev (s : State) (o : Nat) (v : Word) : (s.setSync o v).prev = s.prev := rfl
@[simp] theorem State.setSync_hbm (s : State) (o : Nat) (v : Word) : (s.setSync o v).hbm = s.hbm := rfl
@[simp] theorem State.setSync_badLines (s : State) (o : Nat) (v : Word) : (s.setSync o v).badLines = s.badLines := rfl
@[simp] theorem State.setSync_out (s : State) (o : Nat) (v : Word) : (s.setSync o v).out = s.out := rfl
@[simp] theorem State.setSync_free (s : State) (o : Nat) (v : Word) : (s.setSync o v).free = s.free := rfl
@[simp] theorem State.setSync_parts (s : State) (o : Nat) (v : Word) : (s.setSync o v).parts = s.parts := rfl
@[simp] theorem State.setSync_owner (s : State) (o : Nat) (v : Word) : (s.setSync o v).owner = s.owner := rfl
@[simp] theorem State.setSync_gran (s : State) (o : Nat) (v : Word) : (s.setSync o v).gran = s.gran := rfl
@[simp] theorem State.setSync_scrubs (s : State) (o : Nat) (v : Word) : (s.setSync o v).scrubs = s.scrubs := rfl
@[simp] theorem State.setSync_vis (s : State) (o : Nat) (v : Word) : (s.setSync o v).vis = s.vis := rfl
@[simp] theorem State.setSync_harvests (s : State) (o : Nat) (v : Word) : (s.setSync o v).harvests = s.harvests := rfl
@[simp] theorem State.setSync_rings (s : State) (o : Nat) (v : Word) : (s.setSync o v).rings = s.rings := rfl
@[simp] theorem State.setSync_work (s : State) (o : Nat) (v : Word) : (s.setSync o v).work = s.work := rfl
@[simp] theorem State.setSync_reads (s : State) (o : Nat) (v : Word) : (s.setSync o v).reads = s.reads := rfl
@[simp] theorem State.setSync_quar (s : State) (o : Nat) (v : Word) : (s.setSync o v).quar = s.quar := rfl
@[simp] theorem State.setSync_hlk (s : State) (o : Nat) (v : Word) : (s.setSync o v).hlk = s.hlk := rfl
@[simp] theorem State.setSync_dports (s : State) (o : Nat) (v : Word) : (s.setSync o v).dports = s.dports := rfl
@[simp] theorem State.setSync_mlr (s : State) (o : Nat) (v : Word) : (s.setSync o v).mlr = s.mlr := rfl
@[simp] theorem State.setSync_epts (s : State) (o : Nat) (v : Word) : (s.setSync o v).epts = s.epts := rfl
@[simp] theorem State.setSync_pkt (s : State) (o : Nat) (v : Word) : (s.setSync o v).pkt = s.pkt := rfl
@[simp] theorem State.setSync_sch (s : State) (o : Nat) (v : Word) : (s.setSync o v).sch = s.sch := rfl
@[simp] theorem State.setSync_xrd (s : State) (o : Nat) (v : Word) : (s.setSync o v).xrd = s.xrd := rfl
@[simp] theorem State.setSync_kvs (s : State) (o : Nat) (v : Word) : (s.setSync o v).kvs = s.kvs := rfl
@[simp] theorem State.setSync_att (s : State) (o : Nat) (v : Word) : (s.setSync o v).att = s.att := rfl
@[simp] theorem State.setSync_ckp (s : State) (o : Nat) (v : Word) : (s.setSync o v).ckp = s.ckp := rfl
@[simp] theorem State.setSync_sto (s : State) (o : Nat) (v : Word) : (s.setSync o v).sto = s.sto := rfl
@[simp] theorem State.setSync_cph (s : State) (o : Nat) (v : Word) : (s.setSync o v).cph = s.cph := rfl
@[simp] theorem State.setSync_bar (s : State) (o : Nat) (v : Word) : (s.setSync o v).bar = s.bar := rfl
@[simp] theorem State.setSync_trs (s : State) (o : Nat) (v : Word) : (s.setSync o v).trs = s.trs := rfl
@[simp] theorem State.setSync_cores (s : State) (o : Nat) (v : Word) : (s.setSync o v).cores = s.cores := rfl
@[simp] theorem State.setSync_fwi (s : State) (o : Nat) (v : Word) : (s.setSync o v).fwi = s.fwi := rfl
@[simp] theorem State.setSync_cg (s : State) (o : Nat) (v : Word) : (s.setSync o v).cg = s.cg := rfl
@[simp] theorem State.setSync_pwr (s : State) (o : Nat) (v : Word) : (s.setSync o v).pwr = s.pwr := rfl
@[simp] theorem State.setSync_flt (s : State) (o : Nat) (v : Word) : (s.setSync o v).flt = s.flt := rfl
@[simp] theorem State.setSync_balls (s : State) (o : Nat) (v : Word) : (s.setSync o v).balls = s.balls := rfl

/-! ## setCore writes cores alone -/

@[simp] theorem State.setCore_pending (s : State) (n : Nat) (c : Core) : (s.setCore n c).pending = s.pending := rfl
@[simp] theorem State.setCore_clk (s : State) (n : Nat) (c : Core) : (s.setCore n c).clk = s.clk := rfl
@[simp] theorem State.setCore_regs (s : State) (n : Nat) (c : Core) : (s.setCore n c).regs = s.regs := rfl
@[simp] theorem State.setCore_entry (s : State) (n : Nat) (c : Core) : (s.setCore n c).entry = s.entry := rfl
@[simp] theorem State.setCore_prev (s : State) (n : Nat) (c : Core) : (s.setCore n c).prev = s.prev := rfl
@[simp] theorem State.setCore_hbm (s : State) (n : Nat) (c : Core) : (s.setCore n c).hbm = s.hbm := rfl
@[simp] theorem State.setCore_badLines (s : State) (n : Nat) (c : Core) : (s.setCore n c).badLines = s.badLines := rfl
@[simp] theorem State.setCore_out (s : State) (n : Nat) (c : Core) : (s.setCore n c).out = s.out := rfl
@[simp] theorem State.setCore_free (s : State) (n : Nat) (c : Core) : (s.setCore n c).free = s.free := rfl
@[simp] theorem State.setCore_parts (s : State) (n : Nat) (c : Core) : (s.setCore n c).parts = s.parts := rfl
@[simp] theorem State.setCore_owner (s : State) (n : Nat) (c : Core) : (s.setCore n c).owner = s.owner := rfl
@[simp] theorem State.setCore_gran (s : State) (n : Nat) (c : Core) : (s.setCore n c).gran = s.gran := rfl
@[simp] theorem State.setCore_scrubs (s : State) (n : Nat) (c : Core) : (s.setCore n c).scrubs = s.scrubs := rfl
@[simp] theorem State.setCore_vis (s : State) (n : Nat) (c : Core) : (s.setCore n c).vis = s.vis := rfl
@[simp] theorem State.setCore_harvests (s : State) (n : Nat) (c : Core) : (s.setCore n c).harvests = s.harvests := rfl
@[simp] theorem State.setCore_rings (s : State) (n : Nat) (c : Core) : (s.setCore n c).rings = s.rings := rfl
@[simp] theorem State.setCore_work (s : State) (n : Nat) (c : Core) : (s.setCore n c).work = s.work := rfl
@[simp] theorem State.setCore_sync (s : State) (n : Nat) (c : Core) : (s.setCore n c).sync = s.sync := rfl
@[simp] theorem State.setCore_reads (s : State) (n : Nat) (c : Core) : (s.setCore n c).reads = s.reads := rfl
@[simp] theorem State.setCore_quar (s : State) (n : Nat) (c : Core) : (s.setCore n c).quar = s.quar := rfl
@[simp] theorem State.setCore_hlk (s : State) (n : Nat) (c : Core) : (s.setCore n c).hlk = s.hlk := rfl
@[simp] theorem State.setCore_dports (s : State) (n : Nat) (c : Core) : (s.setCore n c).dports = s.dports := rfl
@[simp] theorem State.setCore_mlr (s : State) (n : Nat) (c : Core) : (s.setCore n c).mlr = s.mlr := rfl
@[simp] theorem State.setCore_epts (s : State) (n : Nat) (c : Core) : (s.setCore n c).epts = s.epts := rfl
@[simp] theorem State.setCore_pkt (s : State) (n : Nat) (c : Core) : (s.setCore n c).pkt = s.pkt := rfl
@[simp] theorem State.setCore_sch (s : State) (n : Nat) (c : Core) : (s.setCore n c).sch = s.sch := rfl
@[simp] theorem State.setCore_xrd (s : State) (n : Nat) (c : Core) : (s.setCore n c).xrd = s.xrd := rfl
@[simp] theorem State.setCore_kvs (s : State) (n : Nat) (c : Core) : (s.setCore n c).kvs = s.kvs := rfl
@[simp] theorem State.setCore_att (s : State) (n : Nat) (c : Core) : (s.setCore n c).att = s.att := rfl
@[simp] theorem State.setCore_ckp (s : State) (n : Nat) (c : Core) : (s.setCore n c).ckp = s.ckp := rfl
@[simp] theorem State.setCore_sto (s : State) (n : Nat) (c : Core) : (s.setCore n c).sto = s.sto := rfl
@[simp] theorem State.setCore_cph (s : State) (n : Nat) (c : Core) : (s.setCore n c).cph = s.cph := rfl
@[simp] theorem State.setCore_bar (s : State) (n : Nat) (c : Core) : (s.setCore n c).bar = s.bar := rfl
@[simp] theorem State.setCore_trs (s : State) (n : Nat) (c : Core) : (s.setCore n c).trs = s.trs := rfl
@[simp] theorem State.setCore_fwi (s : State) (n : Nat) (c : Core) : (s.setCore n c).fwi = s.fwi := rfl
@[simp] theorem State.setCore_cg (s : State) (n : Nat) (c : Core) : (s.setCore n c).cg = s.cg := rfl
@[simp] theorem State.setCore_pwr (s : State) (n : Nat) (c : Core) : (s.setCore n c).pwr = s.pwr := rfl
@[simp] theorem State.setCore_flt (s : State) (n : Nat) (c : Core) : (s.setCore n c).flt = s.flt := rfl
@[simp] theorem State.setCore_balls (s : State) (n : Nat) (c : Core) : (s.setCore n c).balls = s.balls := rfl

/-! ## emit writes out alone -/

@[simp] theorem State.emit_pending (s : State) (o : Out) : (s.emit o).pending = s.pending := rfl
@[simp] theorem State.emit_clk (s : State) (o : Out) : (s.emit o).clk = s.clk := rfl
@[simp] theorem State.emit_regs (s : State) (o : Out) : (s.emit o).regs = s.regs := rfl
@[simp] theorem State.emit_entry (s : State) (o : Out) : (s.emit o).entry = s.entry := rfl
@[simp] theorem State.emit_prev (s : State) (o : Out) : (s.emit o).prev = s.prev := rfl
@[simp] theorem State.emit_hbm (s : State) (o : Out) : (s.emit o).hbm = s.hbm := rfl
@[simp] theorem State.emit_badLines (s : State) (o : Out) : (s.emit o).badLines = s.badLines := rfl
@[simp] theorem State.emit_free (s : State) (o : Out) : (s.emit o).free = s.free := rfl
@[simp] theorem State.emit_parts (s : State) (o : Out) : (s.emit o).parts = s.parts := rfl
@[simp] theorem State.emit_owner (s : State) (o : Out) : (s.emit o).owner = s.owner := rfl
@[simp] theorem State.emit_gran (s : State) (o : Out) : (s.emit o).gran = s.gran := rfl
@[simp] theorem State.emit_scrubs (s : State) (o : Out) : (s.emit o).scrubs = s.scrubs := rfl
@[simp] theorem State.emit_vis (s : State) (o : Out) : (s.emit o).vis = s.vis := rfl
@[simp] theorem State.emit_harvests (s : State) (o : Out) : (s.emit o).harvests = s.harvests := rfl
@[simp] theorem State.emit_rings (s : State) (o : Out) : (s.emit o).rings = s.rings := rfl
@[simp] theorem State.emit_work (s : State) (o : Out) : (s.emit o).work = s.work := rfl
@[simp] theorem State.emit_sync (s : State) (o : Out) : (s.emit o).sync = s.sync := rfl
@[simp] theorem State.emit_reads (s : State) (o : Out) : (s.emit o).reads = s.reads := rfl
@[simp] theorem State.emit_quar (s : State) (o : Out) : (s.emit o).quar = s.quar := rfl
@[simp] theorem State.emit_hlk (s : State) (o : Out) : (s.emit o).hlk = s.hlk := rfl
@[simp] theorem State.emit_dports (s : State) (o : Out) : (s.emit o).dports = s.dports := rfl
@[simp] theorem State.emit_mlr (s : State) (o : Out) : (s.emit o).mlr = s.mlr := rfl
@[simp] theorem State.emit_epts (s : State) (o : Out) : (s.emit o).epts = s.epts := rfl
@[simp] theorem State.emit_pkt (s : State) (o : Out) : (s.emit o).pkt = s.pkt := rfl
@[simp] theorem State.emit_sch (s : State) (o : Out) : (s.emit o).sch = s.sch := rfl
@[simp] theorem State.emit_xrd (s : State) (o : Out) : (s.emit o).xrd = s.xrd := rfl
@[simp] theorem State.emit_kvs (s : State) (o : Out) : (s.emit o).kvs = s.kvs := rfl
@[simp] theorem State.emit_att (s : State) (o : Out) : (s.emit o).att = s.att := rfl
@[simp] theorem State.emit_ckp (s : State) (o : Out) : (s.emit o).ckp = s.ckp := rfl
@[simp] theorem State.emit_sto (s : State) (o : Out) : (s.emit o).sto = s.sto := rfl
@[simp] theorem State.emit_cph (s : State) (o : Out) : (s.emit o).cph = s.cph := rfl
@[simp] theorem State.emit_bar (s : State) (o : Out) : (s.emit o).bar = s.bar := rfl
@[simp] theorem State.emit_trs (s : State) (o : Out) : (s.emit o).trs = s.trs := rfl
@[simp] theorem State.emit_cores (s : State) (o : Out) : (s.emit o).cores = s.cores := rfl
@[simp] theorem State.emit_fwi (s : State) (o : Out) : (s.emit o).fwi = s.fwi := rfl
@[simp] theorem State.emit_cg (s : State) (o : Out) : (s.emit o).cg = s.cg := rfl
@[simp] theorem State.emit_pwr (s : State) (o : Out) : (s.emit o).pwr = s.pwr := rfl
@[simp] theorem State.emit_flt (s : State) (o : Out) : (s.emit o).flt = s.flt := rfl
@[simp] theorem State.emit_balls (s : State) (o : Out) : (s.emit o).balls = s.balls := rfl

/-! ## Reading back -/

/-- The key of a register tells block, page number and offset apart. -/
theorem Blk.code_inj (a b : Blk) (h : a.code = b.code) : a = b := by
  cases a <;> cases b <;> first | rfl | (exact absurd h (by decide))

theorem Page.key_inj (p q : Page) (a b : Nat) (hp : p.num < 65536) (hq : q.num < 65536) (ha : a < 65536) (hb : b < 65536)
    (h : p.key a = q.key b) : p = q ∧ a = b := by
  unfold Page.key at h
  have h1 : a = b := by omega
  have h2 : p.num = q.num := by omega
  have h3 : p.blk.code = q.blk.code := by omega
  refine ⟨?_, h1⟩
  have h4 := Blk.code_inj _ _ h3
  cases p; cases q
  simp_all

@[simp] theorem State.reg_setReg (s : State) (pg : Page) (off : Nat) (v : Word) : (s.setReg pg off v).reg pg off = v := by
  rw [State.reg, Tab.find_getD]; exact Tab.get_set_self _ _ _ _

/-- A write of a register leaves every register of another key. -/
theorem State.reg_setReg_ne (s : State) (pg q : Page) (off o : Nat) (v : Word) (h : q.key o ≠ pg.key off) :
    (s.setReg pg off v).reg q o = s.reg q o := by
  rw [State.reg, State.reg, Tab.find_getD, Tab.find_getD]
  by_cases hv : v = pg.resetAt off
  · simp [State.setReg, Tab.set, hv, Tab.get_erase_ne _ _ _ _ h]
  · simp [State.setReg, Tab.set, hv, Tab.get_insert_ne _ _ _ _ _ h]

@[simp] theorem State.vi_setVi (s : State) (v : Nat) (x : Vi) : (s.setVi v x).vi v = x := by
  simp [State.vi, State.setVi]
theorem State.vi_setVi_ne (s : State) (v k : Nat) (x : Vi) (h : k ≠ v) : (s.setVi v x).vi k = s.vi k := by
  simp [State.vi, State.setVi, Tab.get_set_ne _ _ _ _ _ h]
@[simp] theorem State.part_setPart (s : State) (p : Nat) (x : Part) : (s.setPart p x).part p = x := by
  simp [State.part, State.setPart]
theorem State.part_setPart_ne (s : State) (p k : Nat) (x : Part) (h : k ≠ p) : (s.setPart p x).part k = s.part k := by
  simp [State.part, State.setPart, Tab.get_set_ne _ _ _ _ _ h]
@[simp] theorem State.ring_setRing (s : State) (r : Nat) (x : Ring) : (s.setRing r x).ring r = x := by
  simp [State.ring, State.setRing]
theorem State.ring_setRing_ne (s : State) (r k : Nat) (x : Ring) (h : k ≠ r) : (s.setRing r x).ring k = s.ring k := by
  simp [State.ring, State.setRing, Tab.get_set_ne _ _ _ _ _ h]
@[simp] theorem State.syncVal_setSync (s : State) (o : Nat) (x : Word) : (s.setSync o x).syncVal o = x := by
  simp [State.syncVal, State.setSync]
theorem State.syncVal_setSync_ne (s : State) (o k : Nat) (x : Word) (h : k ≠ o) : (s.setSync o x).syncVal k = s.syncVal k := by
  simp [State.syncVal, State.setSync, Tab.get_set_ne _ _ _ _ _ h]
@[simp] theorem State.byte_setByte (s : State) (a : Nat) (x : Byte) : (s.setByte a x).byte a = x := by
  simp [State.byte, State.setByte]
theorem State.byte_setByte_ne (s : State) (a k : Nat) (x : Byte) (h : k ≠ a) : (s.setByte a x).byte k = s.byte k := by
  simp [State.byte, State.setByte, Tab.get_set_ne _ _ _ _ _ h]
@[simp] theorem State.core_setCore (s : State) (n : Nat) (x : Core) : (s.setCore n x).core n = x := by
  simp [State.core, State.setCore, Tab.get_insert_self]
theorem State.core_setCore_ne (s : State) (n k : Nat) (x : Core) (h : k ≠ n) : (s.setCore n x).core k = s.core k := by
  simp [State.core, State.setCore, Tab.get_insert_ne _ _ _ _ _ h]

end Sys2Proof.Machine
end

