-- ==== Sys2Proof/Laws/Ops.lean ====
section
/-! SUPPORT. What the shared operations over page commands and interrupts do, said once: a statement about a command cites these
and does not unfold them. -/

namespace Sys2Proof.Machine

/-- An access to a page whose cluster runs changes nothing of the clocks. -/
theorem State.pageAccess_open {s : State} {pg : Page} (h : GateOpen s pg) : s.pageAccess pg = s := by
  unfold State.pageAccess
  cases hc : s.pageCluster pg with
  | none => rfl
  | some c => simp [h c hc]

/-- A command that is taken runs. -/
theorem State.takeCmdAt_taken {s : State} {b : Blk} (off : Nat) (val : Word) (run : Word → State → State) (h : Taken s b) :
    s.takeCmdAt b off val run = run val s := by
  obtain ⟨h1, hg, h2, h3, h4⟩ := h
  unfold State.takeCmdAt
  simp only [State.pageAccess_open hg]
  by_cases hb : b = .flt
  · subst hb; simp [h2, h4]
  · have hs : s.flt.safe = false := by
      cases hv : s.flt.safe
      · rfl
      · exact absurd (h1 hv) hb
    by_cases hf : blkField b = true
    · have hc : (2 : Nat) ∉ s.flt.planes := by simpa using h3 hf hb
      simp [h2, h4, hs, hc]
    · simp [h2, h4, hs, hf]

/-- The same of a 64-bit write. -/
theorem State.takeCmd_taken {s : State} {b : Blk} (val : Word) (run : Word → State → State) (h : Taken s b) :
    s.takeCmd b val run = run val s := State.takeCmdAt_taken _ val run h

/-- The operation of a started descriptor runs. -/
theorem State.runDesc_started {s : State} {ring idx engine opcode : Nat} {w : Work} (f : Work → State)
    (h : Started s ring idx engine opcode w) : s.runDesc ring idx engine opcode f = f w := by
  obtain ⟨h1, h2, h3, h4, h5, h6⟩ := h
  rcases h2 with h2 | h2 <;> simp [State.runDesc, h1, h2, h3, h4, h5, h6]

theorem onlyRegs_refl (s : State) : OnlyRegs s s := rfl

theorem onlyRegs_setReg {s t : State} (pg : Page) (off : Nat) (v : Word) (h : OnlyRegs s t) :
    OnlyRegs s (t.setReg pg off v) := h

theorem onlyRegs_emit {s t : State} (o : Out) (h : OnlyRegs s t) : OnlyRegs s (t.emit o) := h

theorem onlyRegs_setChan {s t : State} (side : Side) (cls : MsgClass) (b : BChan) (h : OnlyRegs s t) :
    OnlyRegs s (t.setChan side cls b) := by
  cases side <;> cases cls <;> exact h

theorem onlyRegs_msix {s t : State} (v : Nat) (h : OnlyRegs s t) : OnlyRegs s (t.msix v) := by
  unfold State.msix
  split
  · exact h
  · split
    · exact h
    · split
      · exact onlyRegs_emit _ h
      · exact h

theorem onlyRegs_intRaise {s t : State} (pg : Page) (bits : Word) (h : OnlyRegs s t) : OnlyRegs s (t.intRaise pg bits) := by
  simp only [State.intRaise, State.sendPageIrq]
  split
  · exact onlyRegs_msix _ (onlyRegs_setReg _ _ _ h)
  · exact onlyRegs_setReg _ _ _ h

theorem onlyRegs_counterWrapped {s t : State} (pg : Page) (i : Nat) (h : OnlyRegs s t) : OnlyRegs s (t.counterWrapped pg i) := by
  unfold State.counterWrapped
  simp only
  have h1 : OnlyRegs s (if t.freezeOnWrap pg then t.setReg pg 0x10 ((t.reg pg 0x10).setBit 0 true) else t) := by
    split
    · exact onlyRegs_setReg _ _ _ h
    · exact h
  split
  · split
    · exact onlyRegs_intRaise _ _ (onlyRegs_intRaise _ _ h1)
    · exact onlyRegs_intRaise _ _ h1
  · exact h1

theorem onlyRegs_counterAdd {s t : State} (pg : Page) (i n : Nat) (h : OnlyRegs s t) : OnlyRegs s (t.counterAdd pg i n) := by
  unfold State.counterAdd
  simp only
  split
  · exact onlyRegs_counterWrapped _ _ (onlyRegs_setReg _ _ _ h)
  · exact onlyRegs_setReg _ _ _ h

theorem onlyRegs_countHere {s t : State} (pg : Page) (code n : Nat) (h : OnlyRegs s t) : OnlyRegs s (t.countHere pg code n) := by
  unfold State.countHere
  split
  · exact h
  · rename_i hb
    clear hb
    generalize List.range pg.ctrN = l
    induction l generalizing t with
    | nil => exact h
    | cons i r ih =>
      rw [List.foldl_cons]
      apply ih
      split
      · exact onlyRegs_counterAdd _ _ _ h
      · exact h

theorem onlyRegs_frameRaw {s t : State} (side : Side) (cls : MsgClass) (typ : Nat) (p : List Nat) (h : OnlyRegs s t) :
    OnlyRegs s (t.frameRaw side cls typ p) := onlyRegs_countHere _ _ _ (onlyRegs_emit _ (onlyRegs_setChan _ _ _ h))

theorem onlyRegs_fieldIrq {s t : State} (pg : Page) (h : OnlyRegs s t) : OnlyRegs s (t.fieldIrq pg) := by
  unfold State.fieldIrq
  simp only
  split
  · exact h
  · split
    · exact onlyRegs_frameRaw _ _ _ _ h
    · exact onlyRegs_setChan _ _ _ h

theorem onlyRegs_intCross {s t : State} (old : State) (pg : Page) (h : OnlyRegs s t) : OnlyRegs s (t.intCross old pg) := by
  unfold State.intCross
  split
  · exact onlyRegs_fieldIrq _ h
  · exact h

theorem onlyRegs_setInt {s t : State} (pg : Page) (bits : Word) (h : OnlyRegs s t) : OnlyRegs s (t.setInt pg bits) :=
  onlyRegs_intCross _ _ (onlyRegs_intRaise _ _ h)

/-- Counting an event changes the counters and their interrupt alone. -/
theorem onlyRegs_count {s t : State} (pg : Page) (code n : Nat) (h : OnlyRegs s t) : OnlyRegs s (t.count pg code n) :=
  onlyRegs_intCross _ _ (onlyRegs_countHere _ _ _ h)

/-- The end of a command writes registers and may send its interrupt; nothing else changes. -/
theorem onlyRegs_cmdEnd {s t : State} (b : Blk) (op obj : Nat) (st : Status) (h : OnlyRegs s t) :
    OnlyRegs s (t.cmdEnd b op obj st) := onlyRegs_setInt _ _ (onlyRegs_setReg _ _ _ h)

@[simp] theorem State.msix_regs (s : State) (v : Nat) : (s.msix v).regs = s.regs := by
  unfold State.msix
  split
  · rfl
  · split
    · rfl
    · split <;> rfl

@[simp] theorem State.intRaise_regs (s : State) (pg : Page) (bits : Word) :
    (s.intRaise pg bits).regs = (s.setReg pg 0x30 (s.reg pg 0x30 ||| bits)).regs := by
  simp only [State.intRaise, State.sendPageIrq]
  split <;> simp

/-- The interrupt of a host-side page sends nothing over the barrier. -/
theorem State.intCross_host (s old : State) (pg : Page) (h : blkField pg.blk = false) : s.intCross old pg = s := by
  simp [State.intCross, h]

/-- INT_STAT of a host-side page takes the bits. -/
theorem State.reg_setInt (s : State) (pg : Page) (bits : Word) (h : blkField pg.blk = false) :
    (s.setInt pg bits).reg pg 0x30 = s.reg pg 0x30 ||| bits := by
  rw [State.setInt, State.intCross_host _ _ _ h, State.reg, State.intRaise_regs, ← State.reg, State.reg_setReg]

/-- Every other register reads as before. -/
theorem State.reg_setInt_ne (s : State) (pg q : Page) (bits : Word) (o : Nat) (hf : blkField pg.blk = false)
    (h : q.key o ≠ pg.key 0x30) : (s.setInt pg bits).reg q o = s.reg q o := by
  rw [State.setInt, State.intCross_host _ _ _ hf, State.reg, State.intRaise_regs, ← State.reg, State.reg_setReg_ne _ _ _ _ _ _ h]

end Sys2Proof.Machine
end

