-- ==== Sys2Proof/Laws/Words.lean ====
section
/-! SUPPORT. What is read back from a word after a field or a bit of it is written. -/

namespace Sys2Proof

theorem Word.toNat_mask (hi lo : Nat) (h : hi < 64) (hl : lo ≤ hi) : (Word.mask hi lo).toNat = (2 ^ (hi + 1 - lo) - 1) * 2 ^ lo := by
  unfold Word.mask
  rw [BitVec.toNat_ofNat, Nat.mod_eq_of_lt]
  calc (2 ^ (hi + 1 - lo) - 1) * 2 ^ lo < 2 ^ (hi + 1 - lo) * 2 ^ lo :=
        Nat.mul_lt_mul_of_pos_right (Nat.sub_lt (Nat.two_pow_pos _) Nat.one_pos) (Nat.two_pow_pos _)
    _ = 2 ^ (hi + 1) := by rw [← Nat.pow_add]; congr 1; omega
    _ ≤ 2 ^ 64 := Nat.pow_le_pow_right (by decide) (by omega)

/-- Bit i of a mask. -/
theorem Word.bit_mask (hi lo i : Nat) (h : hi < 64) (hl : lo ≤ hi) : (Word.mask hi lo).toNat.testBit i = (decide (lo ≤ i) && decide (i ≤ hi)) := by
  rw [Word.toNat_mask hi lo h hl, Nat.testBit_mul_two_pow, Nat.testBit_two_pow_sub_one]
  by_cases h1 : lo ≤ i
  · have : (i - lo < hi + 1 - lo) ↔ i ≤ hi := by omega
    simp [h1, this]
  · simp [h1]

/-- Bit i of a word after a field is written. -/
theorem Word.bit_setField (w : Word) (hi lo v i : Nat) (h : hi < 64) (hl : lo ≤ hi) :
    (w.setField hi lo v).bit i = if lo ≤ i ∧ i ≤ hi then v.testBit (i - lo) else w.bit i := by
  unfold Word.bit Word.setField
  have hv : (BitVec.ofNat 64 (v % 2 ^ (hi + 1 - lo) * 2 ^ lo)).toNat = v % 2 ^ (hi + 1 - lo) * 2 ^ lo := by
    rw [BitVec.toNat_ofNat, Nat.mod_eq_of_lt]
    calc v % 2 ^ (hi + 1 - lo) * 2 ^ lo < 2 ^ (hi + 1 - lo) * 2 ^ lo :=
          Nat.mul_lt_mul_of_pos_right (Nat.mod_lt _ (Nat.two_pow_pos _)) (Nat.two_pow_pos _)
      _ = 2 ^ (hi + 1) := by rw [← Nat.pow_add]; congr 1; omega
      _ ≤ 2 ^ 64 := Nat.pow_le_pow_right (by decide) (by omega)
  rw [BitVec.toNat_or, BitVec.toNat_and, Nat.testBit_or, Nat.testBit_and, hv, Nat.testBit_mul_two_pow, Nat.testBit_mod_two_pow]
  by_cases h64 : i < 64
  · have hm := Word.bit_mask hi lo i h hl
    have hn : (~~~(Word.mask hi lo)).toNat.testBit i = !(Word.mask hi lo).toNat.testBit i := by
      rw [BitVec.testBit_toNat, BitVec.testBit_toNat, BitVec.getLsbD_not]; simp [h64]
    rw [hn, hm]
    by_cases h1 : lo ≤ i <;> by_cases h2 : i ≤ hi
    · have : i - lo < hi + 1 - lo := by omega
      simp [h1, h2, this]
    · have : ¬ i - lo < hi + 1 - lo := by omega
      simp [h1, h2, this]
    · simp [h1, h2]
    · omega
  · have hw : w.toNat.testBit i = false :=
      Nat.testBit_lt_two_pow (Nat.lt_of_lt_of_le w.isLt (Nat.pow_le_pow_right (by decide) (by omega)))
    have h1 : ¬ i ≤ hi := by omega
    have h2 : ¬ (i - lo < hi + 1 - lo) := by omega
    simp [hw, h1, h2]

/-- The bits of a field. -/
theorem Word.testBit_field (w : Word) (hi lo j : Nat) : (w.field hi lo).testBit j = (decide (j < hi + 1 - lo) && w.bit (lo + j)) := by
  unfold Word.field Word.bit
  rw [Nat.testBit_mod_two_pow, Nat.testBit_div_two_pow, Nat.add_comm j lo]

theorem Word.field_lt (w : Word) (hi lo : Nat) : w.field hi lo < 2 ^ (hi + 1 - lo) := Nat.mod_lt _ (Nat.two_pow_pos _)

@[simp] theorem Word.field_setField (w : Word) (hi lo v : Nat) (h : hi < 64) (hl : lo ≤ hi) :
    (w.setField hi lo v).field hi lo = v % 2 ^ (hi + 1 - lo) := by
  apply Nat.eq_of_testBit_eq
  intro j
  rw [Word.testBit_field, Word.bit_setField w hi lo v _ h hl, Nat.testBit_mod_two_pow]
  by_cases hj : j < hi + 1 - lo
  · have : lo ≤ lo + j ∧ lo + j ≤ hi := by omega
    simp [hj, this]
  · simp [hj]

/-- A field within the field written. -/
theorem Word.field_setField_sub (w : Word) (hi lo v a b : Nat) (h : hi < 64) (hl : lo ≤ b) (hb : b ≤ a) (ha : a ≤ hi) :
    (w.setField hi lo v).field a b = v / 2 ^ (b - lo) % 2 ^ (a + 1 - b) := by
  apply Nat.eq_of_testBit_eq
  intro j
  rw [Word.testBit_field, Word.bit_setField w hi lo v _ h (by omega), Nat.testBit_mod_two_pow, Nat.testBit_div_two_pow]
  by_cases hj : j < a + 1 - b
  · have : lo ≤ b + j ∧ b + j ≤ hi := by omega
    have e : b + j - lo = j + (b - lo) := by omega
    simp [hj, this, e]
  · simp [hj]

@[simp] theorem Word.field_setField_ne (w : Word) (hi lo v a b : Nat) (h : hi < 64) (hl : lo ≤ hi) (hd : a < lo ∨ hi < b) :
    (w.setField hi lo v).field a b = w.field a b := by
  apply Nat.eq_of_testBit_eq
  intro j
  rw [Word.testBit_field, Word.testBit_field, Word.bit_setField w hi lo v _ h hl]
  by_cases hj : j < a + 1 - b
  · have : ¬ (lo ≤ b + j ∧ b + j ≤ hi) := by omega
    simp [this]
  · simp [hj]

@[simp] theorem Word.bit_setField_ne (w : Word) (hi lo v i : Nat) (h : hi < 64) (hl : lo ≤ hi) (hd : i < lo ∨ hi < i) :
    (w.setField hi lo v).bit i = w.bit i := by
  rw [Word.bit_setField w hi lo v i h hl, if_neg (by omega)]

@[simp] theorem Word.bit_setBit (w : Word) (i : Nat) (b : Bool) (h : i < 64) : (w.setBit i b).bit i = b := by
  rw [Word.setBit, Word.bit_setField w i i _ i h (Nat.le_refl _)]
  cases b <;> simp

@[simp] theorem Word.bit_setBit_ne (w : Word) (i j : Nat) (b : Bool) (h : i < 64) (hd : j ≠ i) : (w.setBit i b).bit j = w.bit j := by
  rw [Word.setBit, Word.bit_setField_ne w i i _ j h (Nat.le_refl _) (by omega)]

@[simp] theorem Word.field_setBit_ne (w : Word) (i a b : Nat) (x : Bool) (h : i < 64) (hd : a < i ∨ i < b) :
    (w.setBit i x).field a b = w.field a b := Word.field_setField_ne w i i _ a b h (Nat.le_refl _) hd

@[simp] theorem Word.field_zero (hi lo : Nat) : (0 : Word).field hi lo = 0 := by simp [Word.field]

@[simp] theorem Word.bit_zero (i : Nat) : (0 : Word).bit i = false := by simp [Word.bit]

@[simp] theorem Word.bit_or (a b : Word) (i : Nat) : (a ||| b).bit i = (a.bit i || b.bit i) := by
  simp [Word.bit, Nat.testBit_or]

@[simp] theorem Word.bit_oneBit (i j : Nat) (h : j < 64) : (Word.oneBit i).bit j = decide (i = j) := by
  unfold Word.bit Word.oneBit
  rw [BitVec.toNat_ofNat, Nat.testBit_mod_two_pow, Nat.testBit_two_pow]
  simp [h]

end Sys2Proof
end

