-- ==== Sys2Proof/Laws/Frames.lean ====
section
/-! SUPPORT. What the operations that nearly every command ends with leave as it was, said once: an interrupt, a count of an
event and the end of a page command change registers and what they send; an error also the latches and the raises held. -/

namespace Sys2Proof.Machine

theorem State.reg_intRaise_ne (s : State) (pg q : Page) (bits : Word) (o : Nat) (h : q.key o ≠ pg.key 0x30) :
    (s.intRaise pg bits).reg q o = s.reg q o := by
  rw [State.reg, State.intRaise_regs, ← State.reg, State.reg_setReg_ne _ _ _ _ _ _ h]

theorem State.reg_counterAdd_ne (s : State) (pg q : Page) (i n o : Nat) (hi : i < 8) (h : ∀ k, k ∈ ctrRegs → q.key o ≠ pg.key k) :
    (s.counterAdd pg i n).reg q o = s.reg q o := by
  have hk : q.key o ≠ pg.key (0xF00 + 8 * i) := h _ (by
    have : i = 0 ∨ i = 1 ∨ i = 2 ∨ i = 3 ∨ i = 4 ∨ i = 5 ∨ i = 6 ∨ i = 7 := by omega
    rcases this with e | e | e | e | e | e | e | e <;> subst e <;> decide)
  have h1 : q.key o ≠ pg.key 0x10 := h _ (by decide)
  have h3 : q.key o ≠ pg.key 0x30 := h _ (by decide)
  unfold State.counterAdd State.counterWrapped
  simp only
  repeat' split
  all_goals
    first
      | rfl
      | (simp only [State.reg_intRaise_ne _ _ _ _ _ h3, State.reg_setReg_ne _ _ _ _ _ _ h1, State.reg_setReg_ne _ _ _ _ _ _ hk])

theorem pageCtrN_le (pg : Page) : pg.ctrN ≤ 8 := by
  unfold Page.ctrN
  split <;> omega

/-- A count on a host-side page writes its counters, CTR_CTL and INT_STAT; every other register reads as before. -/
theorem State.reg_count_ne (s : State) (pg q : Page) (code n o : Nat) (hf : blkField pg.blk = false)
    (h : ∀ k, k ∈ ctrRegs → q.key o ≠ pg.key k) : (s.count pg code n).reg q o = s.reg q o := by
  rw [State.count, State.intCross_host _ _ _ hf]
  unfold State.countHere
  split
  · rfl
  · have hr : ∀ i, i ∈ List.range pg.ctrN → i < 8 := fun i hi => Nat.lt_of_lt_of_le (List.mem_range.mp hi) (pageCtrN_le pg)
    generalize List.range pg.ctrN = l at hr
    clear * - h hr
    induction l generalizing s with
    | nil => rfl
    | cons i r ih =>
      rw [List.foldl_cons, ih _ (fun j hj => hr j (List.mem_cons_of_mem _ hj))]
      split
      · exact State.reg_counterAdd_ne s pg q i n o (hr i (List.mem_cons_self ..)) h
      · rfl

/-- t with the registers, messages, latches and raises held of s. -/
abbrev latchView (s t : State) : State :=
  { t with
    regs := s.regs, out := s.out, bar := s.bar, hlk := { t.hlk with heldIrq := s.hlk.heldIrq, pba := s.hlk.pba },
    flt := { t.flt with elws := s.flt.elws, queue := s.flt.queue } }

/-- Beside what OnlyRegs allows, error latches and the raises held changed. -/
def OnlyLatch (s t : State) : Prop := latchView s t = s

theorem OnlyRegs.onlyLatch {s t u : State} (h : OnlyRegs t u) (h0 : OnlyLatch s t) : OnlyLatch s u := by
  have hu : latchView s u = latchView s t := by
    conv => rhs; rw [← (h : _ = t)]
  rw [OnlyLatch, hu]
  exact h0

theorem onlyLatch_frameOut {s t : State} (side : Side) (cls : MsgClass) (typ : Nat) (p : List Nat) (h : OnlyLatch s t) :
    OnlyLatch s (t.frameOut side cls typ p) :=
  (onlyRegs_intCross _ _ (onlyRegs_frameRaw _ _ _ _ (onlyRegs_refl t))).onlyLatch h

theorem onlyLatch_sendRaises {s t : State} (h : OnlyLatch s t) : OnlyLatch s t.sendRaises := by
  unfold State.sendRaises
  simp only
  split
  · generalize (sendHeld t.flt.queue (8 - (t.chan .host .fault).unacked.length)) = x
    have h1 : OnlyLatch s { t with flt := { t.flt with queue := x.1 } } := h
    generalize ({ t with flt := { t.flt with queue := x.1 } } : State) = v at h1
    generalize x.2 = l
    induction l generalizing v with
    | nil => exact h1
    | cons m r ih => exact ih _ (onlyLatch_frameOut _ _ _ _ h1)
  · exact h

/-! ## Fields that only registers and outputs leave alone -/

theorem onlyRegs_get {α : Type} (f : State → α) {s t : State}
    (hf : ∀ (r : Tab Word) (o : List Out) (b : Bar) (q p : List Nat),
      f { t with regs := r, out := o, bar := b, hlk := { t.hlk with heldIrq := q, pba := p } } = f t)
    (h : OnlyRegs s t) : f t = f s := by
  rw [← hf s.regs s.out s.bar s.hlk.heldIrq s.hlk.pba]
  exact congrArg f (h : _ = s)

theorem onlyLatch_get {α : Type} (f : State → α) {s t : State}
    (hf : ∀ (r : Tab Word) (o : List Out) (b : Bar) (q p : List Nat) (e : Tab Word) (l : List Held),
      f { t with regs := r, out := o, bar := b, hlk := { t.hlk with heldIrq := q, pba := p },
                 flt := { t.flt with elws := e, queue := l } } = f t)
    (h : OnlyLatch s t) : f t = f s := by
  rw [← hf s.regs s.out s.bar s.hlk.heldIrq s.hlk.pba s.flt.elws s.flt.queue]
  exact congrArg f (h : _ = s)

theorem onlyRegs_pending {s t : State} (h : OnlyRegs s t) : t.pending = s.pending := onlyRegs_get State.pending (fun _ _ _ _ _ => rfl) h
theorem onlyRegs_clk {s t : State} (h : OnlyRegs s t) : t.clk = s.clk := onlyRegs_get State.clk (fun _ _ _ _ _ => rfl) h
theorem onlyRegs_entry {s t : State} (h : OnlyRegs s t) : t.entry = s.entry := onlyRegs_get State.entry (fun _ _ _ _ _ => rfl) h
theorem onlyRegs_prev {s t : State} (h : OnlyRegs s t) : t.prev = s.prev := onlyRegs_get State.prev (fun _ _ _ _ _ => rfl) h
theorem onlyRegs_hbm {s t : State} (h : OnlyRegs s t) : t.hbm = s.hbm := onlyRegs_get State.hbm (fun _ _ _ _ _ => rfl) h
theorem onlyRegs_badLines {s t : State} (h : OnlyRegs s t) : t.badLines = s.badLines := onlyRegs_get State.badLines (fun _ _ _ _ _ => rfl) h
theorem onlyRegs_free {s t : State} (h : OnlyRegs s t) : t.free = s.free := onlyRegs_get State.free (fun _ _ _ _ _ => rfl) h
theorem onlyRegs_parts {s t : State} (h : OnlyRegs s t) : t.parts = s.parts := onlyRegs_get State.parts (fun _ _ _ _ _ => rfl) h
theorem onlyRegs_owner {s t : State} (h : OnlyRegs s t) : t.owner = s.owner := onlyRegs_get State.owner (fun _ _ _ _ _ => rfl) h
theorem onlyRegs_gran {s t : State} (h : OnlyRegs s t) : t.gran = s.gran := onlyRegs_get State.gran (fun _ _ _ _ _ => rfl) h
theorem onlyRegs_scrubs {s t : State} (h : OnlyRegs s t) : t.scrubs = s.scrubs := onlyRegs_get State.scrubs (fun _ _ _ _ _ => rfl) h
theorem onlyRegs_vis {s t : State} (h : OnlyRegs s t) : t.vis = s.vis := onlyRegs_get State.vis (fun _ _ _ _ _ => rfl) h
theorem onlyRegs_harvests {s t : State} (h : OnlyRegs s t) : t.harvests = s.harvests := onlyRegs_get State.harvests (fun _ _ _ _ _ => rfl) h
theorem onlyRegs_rings {s t : State} (h : OnlyRegs s t) : t.rings = s.rings := onlyRegs_get State.rings (fun _ _ _ _ _ => rfl) h
theorem onlyRegs_work {s t : State} (h : OnlyRegs s t) : t.work = s.work := onlyRegs_get State.work (fun _ _ _ _ _ => rfl) h
theorem onlyRegs_sync {s t : State} (h : OnlyRegs s t) : t.sync = s.sync := onlyRegs_get State.sync (fun _ _ _ _ _ => rfl) h
theorem onlyRegs_reads {s t : State} (h : OnlyRegs s t) : t.reads = s.reads := onlyRegs_get State.reads (fun _ _ _ _ _ => rfl) h
theorem onlyRegs_quar {s t : State} (h : OnlyRegs s t) : t.quar = s.quar := onlyRegs_get State.quar (fun _ _ _ _ _ => rfl) h
theorem onlyRegs_dports {s t : State} (h : OnlyRegs s t) : t.dports = s.dports := onlyRegs_get State.dports (fun _ _ _ _ _ => rfl) h
theorem onlyRegs_mlr {s t : State} (h : OnlyRegs s t) : t.mlr = s.mlr := onlyRegs_get State.mlr (fun _ _ _ _ _ => rfl) h
theorem onlyRegs_epts {s t : State} (h : OnlyRegs s t) : t.epts = s.epts := onlyRegs_get State.epts (fun _ _ _ _ _ => rfl) h
theorem onlyRegs_pkt {s t : State} (h : OnlyRegs s t) : t.pkt = s.pkt := onlyRegs_get State.pkt (fun _ _ _ _ _ => rfl) h
theorem onlyRegs_sch {s t : State} (h : OnlyRegs s t) : t.sch = s.sch := onlyRegs_get State.sch (fun _ _ _ _ _ => rfl) h
theorem onlyRegs_xrd {s t : State} (h : OnlyRegs s t) : t.xrd = s.xrd := onlyRegs_get State.xrd (fun _ _ _ _ _ => rfl) h
theorem onlyRegs_kvs {s t : State} (h : OnlyRegs s t) : t.kvs = s.kvs := onlyRegs_get State.kvs (fun _ _ _ _ _ => rfl) h
theorem onlyRegs_att {s t : State} (h : OnlyRegs s t) : t.att = s.att := onlyRegs_get State.att (fun _ _ _ _ _ => rfl) h
theorem onlyRegs_ckp {s t : State} (h : OnlyRegs s t) : t.ckp = s.ckp := onlyRegs_get State.ckp (fun _ _ _ _ _ => rfl) h
theorem onlyRegs_sto {s t : State} (h : OnlyRegs s t) : t.sto = s.sto := onlyRegs_get State.sto (fun _ _ _ _ _ => rfl) h
theorem onlyRegs_cph {s t : State} (h : OnlyRegs s t) : t.cph = s.cph := onlyRegs_get State.cph (fun _ _ _ _ _ => rfl) h
theorem onlyRegs_trs {s t : State} (h : OnlyRegs s t) : t.trs = s.trs := onlyRegs_get State.trs (fun _ _ _ _ _ => rfl) h
theorem onlyRegs_cores {s t : State} (h : OnlyRegs s t) : t.cores = s.cores := onlyRegs_get State.cores (fun _ _ _ _ _ => rfl) h
theorem onlyRegs_fwi {s t : State} (h : OnlyRegs s t) : t.fwi = s.fwi := onlyRegs_get State.fwi (fun _ _ _ _ _ => rfl) h
theorem onlyRegs_cg {s t : State} (h : OnlyRegs s t) : t.cg = s.cg := onlyRegs_get State.cg (fun _ _ _ _ _ => rfl) h
theorem onlyRegs_pwr {s t : State} (h : OnlyRegs s t) : t.pwr = s.pwr := onlyRegs_get State.pwr (fun _ _ _ _ _ => rfl) h
theorem onlyRegs_flt {s t : State} (h : OnlyRegs s t) : t.flt = s.flt := onlyRegs_get State.flt (fun _ _ _ _ _ => rfl) h
theorem onlyRegs_balls {s t : State} (h : OnlyRegs s t) : t.balls = s.balls := onlyRegs_get State.balls (fun _ _ _ _ _ => rfl) h

/-! ## setInt -/

@[simp] theorem State.setInt_pending (s : State) (pg : Page) (b : Word) : (s.setInt pg b).pending = s.pending := onlyRegs_pending (onlyRegs_setInt _ _ (onlyRegs_refl s))
@[simp] theorem State.setInt_clk (s : State) (pg : Page) (b : Word) : (s.setInt pg b).clk = s.clk := onlyRegs_clk (onlyRegs_setInt _ _ (onlyRegs_refl s))
@[simp] theorem State.setInt_entry (s : State) (pg : Page) (b : Word) : (s.setInt pg b).entry = s.entry := onlyRegs_entry (onlyRegs_setInt _ _ (onlyRegs_refl s))
@[simp] theorem State.setInt_prev (s : State) (pg : Page) (b : Word) : (s.setInt pg b).prev = s.prev := onlyRegs_prev (onlyRegs_setInt _ _ (onlyRegs_refl s))
@[simp] theorem State.setInt_hbm (s : State) (pg : Page) (b : Word) : (s.setInt pg b).hbm = s.hbm := onlyRegs_hbm (onlyRegs_setInt _ _ (onlyRegs_refl s))
@[simp] theorem State.setInt_badLines (s : State) (pg : Page) (b : Word) : (s.setInt pg b).badLines = s.badLines := onlyRegs_badLines (onlyRegs_setInt _ _ (onlyRegs_refl s))
@[simp] theorem State.setInt_free (s : State) (pg : Page) (b : Word) : (s.setInt pg b).free = s.free := onlyRegs_free (onlyRegs_setInt _ _ (onlyRegs_refl s))
@[simp] theorem State.setInt_parts (s : State) (pg : Page) (b : Word) : (s.setInt pg b).parts = s.parts := onlyRegs_parts (onlyRegs_setInt _ _ (onlyRegs_refl s))
@[simp] theorem State.setInt_owner (s : State) (pg : Page) (b : Word) : (s.setInt pg b).owner = s.owner := onlyRegs_owner (onlyRegs_setInt _ _ (onlyRegs_refl s))
@[simp] theorem State.setInt_gran (s : State) (pg : Page) (b : Word) : (s.setInt pg b).gran = s.gran := onlyRegs_gran (onlyRegs_setInt _ _ (onlyRegs_refl s))
@[simp] theorem State.setInt_scrubs (s : State) (pg : Page) (b : Word) : (s.setInt pg b).scrubs = s.scrubs := onlyRegs_scrubs (onlyRegs_setInt _ _ (onlyRegs_refl s))
@[simp] theorem State.setInt_vis (s : State) (pg : Page) (b : Word) : (s.setInt pg b).vis = s.vis := onlyRegs_vis (onlyRegs_setInt _ _ (onlyRegs_refl s))
@[simp] theorem State.setInt_harvests (s : State) (pg : Page) (b : Word) : (s.setInt pg b).harvests = s.harvests := onlyRegs_harvests (onlyRegs_setInt _ _ (onlyRegs_refl s))
@[simp] theorem State.setInt_rings (s : State) (pg : Page) (b : Word) : (s.setInt pg b).rings = s.rings := onlyRegs_rings (onlyRegs_setInt _ _ (onlyRegs_refl s))
@[simp] theorem State.setInt_work (s : State) (pg : Page) (b : Word) : (s.setInt pg b).work = s.work := onlyRegs_work (onlyRegs_setInt _ _ (onlyRegs_refl s))
@[simp] theorem State.setInt_sync (s : State) (pg : Page) (b : Word) : (s.setInt pg b).sync = s.sync := onlyRegs_sync (onlyRegs_setInt _ _ (onlyRegs_refl s))
@[simp] theorem State.setInt_reads (s : State) (pg : Page) (b : Word) : (s.setInt pg b).reads = s.reads := onlyRegs_reads (onlyRegs_setInt _ _ (onlyRegs_refl s))
@[simp] theorem State.setInt_quar (s : State) (pg : Page) (b : Word) : (s.setInt pg b).quar = s.quar := onlyRegs_quar (onlyRegs_setInt _ _ (onlyRegs_refl s))
@[simp] theorem State.setInt_dports (s : State) (pg : Page) (b : Word) : (s.setInt pg b).dports = s.dports := onlyRegs_dports (onlyRegs_setInt _ _ (onlyRegs_refl s))
@[simp] theorem State.setInt_mlr (s : State) (pg : Page) (b : Word) : (s.setInt pg b).mlr = s.mlr := onlyRegs_mlr (onlyRegs_setInt _ _ (onlyRegs_refl s))
@[simp] theorem State.setInt_epts (s : State) (pg : Page) (b : Word) : (s.setInt pg b).epts = s.epts := onlyRegs_epts (onlyRegs_setInt _ _ (onlyRegs_refl s))
@[simp] theorem State.setInt_pkt (s : State) (pg : Page) (b : Word) : (s.setInt pg b).pkt = s.pkt := onlyRegs_pkt (onlyRegs_setInt _ _ (onlyRegs_refl s))
@[simp] theorem State.setInt_sch (s : State) (pg : Page) (b : Word) : (s.setInt pg b).sch = s.sch := onlyRegs_sch (onlyRegs_setInt _ _ (onlyRegs_refl s))
@[simp] theorem State.setInt_xrd (s : State) (pg : Page) (b : Word) : (s.setInt pg b).xrd = s.xrd := onlyRegs_xrd (onlyRegs_setInt _ _ (onlyRegs_refl s))
@[simp] theorem State.setInt_kvs (s : State) (pg : Page) (b : Word) : (s.setInt pg b).kvs = s.kvs := onlyRegs_kvs (onlyRegs_setInt _ _ (onlyRegs_refl s))
@[simp] theorem State.setInt_att (s : State) (pg : Page) (b : Word) : (s.setInt pg b).att = s.att := onlyRegs_att (onlyRegs_setInt _ _ (onlyRegs_refl s))
@[simp] theorem State.setInt_ckp (s : State) (pg : Page) (b : Word) : (s.setInt pg b).ckp = s.ckp := onlyRegs_ckp (onlyRegs_setInt _ _ (onlyRegs_refl s))
@[simp] theorem State.setInt_sto (s : State) (pg : Page) (b : Word) : (s.setInt pg b).sto = s.sto := onlyRegs_sto (onlyRegs_setInt _ _ (onlyRegs_refl s))
@[simp] theorem State.setInt_cph (s : State) (pg : Page) (b : Word) : (s.setInt pg b).cph = s.cph := onlyRegs_cph (onlyRegs_setInt _ _ (onlyRegs_refl s))
@[simp] theorem State.setInt_trs (s : State) (pg : Page) (b : Word) : (s.setInt pg b).trs = s.trs := onlyRegs_trs (onlyRegs_setInt _ _ (onlyRegs_refl s))
@[simp] theorem State.setInt_cores (s : State) (pg : Page) (b : Word) : (s.setInt pg b).cores = s.cores := onlyRegs_cores (onlyRegs_setInt _ _ (onlyRegs_refl s))
@[simp] theorem State.setInt_fwi (s : State) (pg : Page) (b : Word) : (s.setInt pg b).fwi = s.fwi := onlyRegs_fwi (onlyRegs_setInt _ _ (onlyRegs_refl s))
@[simp] theorem State.setInt_cg (s : State) (pg : Page) (b : Word) : (s.setInt pg b).cg = s.cg := onlyRegs_cg (onlyRegs_setInt _ _ (onlyRegs_refl s))
@[simp] theorem State.setInt_pwr (s : State) (pg : Page) (b : Word) : (s.setInt pg b).pwr = s.pwr := onlyRegs_pwr (onlyRegs_setInt _ _ (onlyRegs_refl s))
@[simp] theorem State.setInt_flt (s : State) (pg : Page) (b : Word) : (s.setInt pg b).flt = s.flt := onlyRegs_flt (onlyRegs_setInt _ _ (onlyRegs_refl s))
@[simp] theorem State.setInt_balls (s : State) (pg : Page) (b : Word) : (s.setInt pg b).balls = s.balls := onlyRegs_balls (onlyRegs_setInt _ _ (onlyRegs_refl s))

/-! ## setIntBit -/

@[simp] theorem State.setIntBit_pending (s : State) (pg : Page) (b : Nat) : (s.setIntBit pg b).pending = s.pending := onlyRegs_pending (onlyRegs_setInt _ _ (onlyRegs_refl s))
@[simp] theorem State.setIntBit_clk (s : State) (pg : Page) (b : Nat) : (s.setIntBit pg b).clk = s.clk := onlyRegs_clk (onlyRegs_setInt _ _ (onlyRegs_refl s))
@[simp] theorem State.setIntBit_entry (s : State) (pg : Page) (b : Nat) : (s.setIntBit pg b).entry = s.entry := onlyRegs_entry (onlyRegs_setInt _ _ (onlyRegs_refl s))
@[simp] theorem State.setIntBit_prev (s : State) (pg : Page) (b : Nat) : (s.setIntBit pg b).prev = s.prev := onlyRegs_prev (onlyRegs_setInt _ _ (onlyRegs_refl s))
@[simp] theorem State.setIntBit_hbm (s : State) (pg : Page) (b : Nat) : (s.setIntBit pg b).hbm = s.hbm := onlyRegs_hbm (onlyRegs_setInt _ _ (onlyRegs_refl s))
@[simp] theorem State.setIntBit_badLines (s : State) (pg : Page) (b : Nat) : (s.setIntBit pg b).badLines = s.badLines := onlyRegs_badLines (onlyRegs_setInt _ _ (onlyRegs_refl s))
@[simp] theorem State.setIntBit_free (s : State) (pg : Page) (b : Nat) : (s.setIntBit pg b).free = s.free := onlyRegs_free (onlyRegs_setInt _ _ (onlyRegs_refl s))
@[simp] theorem State.setIntBit_parts (s : State) (pg : Page) (b : Nat) : (s.setIntBit pg b).parts = s.parts := onlyRegs_parts (onlyRegs_setInt _ _ (onlyRegs_refl s))
@[simp] theorem State.setIntBit_owner (s : State) (pg : Page) (b : Nat) : (s.setIntBit pg b).owner = s.owner := onlyRegs_owner (onlyRegs_setInt _ _ (onlyRegs_refl s))
@[simp] theorem State.setIntBit_gran (s : State) (pg : Page) (b : Nat) : (s.setIntBit pg b).gran = s.gran := onlyRegs_gran (onlyRegs_setInt _ _ (onlyRegs_refl s))
@[simp] theorem State.setIntBit_scrubs (s : State) (pg : Page) (b : Nat) : (s.setIntBit pg b).scrubs = s.scrubs := onlyRegs_scrubs (onlyRegs_setInt _ _ (onlyRegs_refl s))
@[simp] theorem State.setIntBit_vis (s : State) (pg : Page) (b : Nat) : (s.setIntBit pg b).vis = s.vis := onlyRegs_vis (onlyRegs_setInt _ _ (onlyRegs_refl s))
@[simp] theorem State.setIntBit_harvests (s : State) (pg : Page) (b : Nat) : (s.setIntBit pg b).harvests = s.harvests := onlyRegs_harvests (onlyRegs_setInt _ _ (onlyRegs_refl s))
@[simp] theorem State.setIntBit_rings (s : State) (pg : Page) (b : Nat) : (s.setIntBit pg b).rings = s.rings := onlyRegs_rings (onlyRegs_setInt _ _ (onlyRegs_refl s))
@[simp] theorem State.setIntBit_work (s : State) (pg : Page) (b : Nat) : (s.setIntBit pg b).work = s.work := onlyRegs_work (onlyRegs_setInt _ _ (onlyRegs_refl s))
@[simp] theorem State.setIntBit_sync (s : State) (pg : Page) (b : Nat) : (s.setIntBit pg b).sync = s.sync := onlyRegs_sync (onlyRegs_setInt _ _ (onlyRegs_refl s))
@[simp] theorem State.setIntBit_reads (s : State) (pg : Page) (b : Nat) : (s.setIntBit pg b).reads = s.reads := onlyRegs_reads (onlyRegs_setInt _ _ (onlyRegs_refl s))
@[simp] theorem State.setIntBit_quar (s : State) (pg : Page) (b : Nat) : (s.setIntBit pg b).quar = s.quar := onlyRegs_quar (onlyRegs_setInt _ _ (onlyRegs_refl s))
@[simp] theorem State.setIntBit_dports (s : State) (pg : Page) (b : Nat) : (s.setIntBit pg b).dports = s.dports := onlyRegs_dports (onlyRegs_setInt _ _ (onlyRegs_refl s))
@[simp] theorem State.setIntBit_mlr (s : State) (pg : Page) (b : Nat) : (s.setIntBit pg b).mlr = s.mlr := onlyRegs_mlr (onlyRegs_setInt _ _ (onlyRegs_refl s))
@[simp] theorem State.setIntBit_epts (s : State) (pg : Page) (b : Nat) : (s.setIntBit pg b).epts = s.epts := onlyRegs_epts (onlyRegs_setInt _ _ (onlyRegs_refl s))
@[simp] theorem State.setIntBit_pkt (s : State) (pg : Page) (b : Nat) : (s.setIntBit pg b).pkt = s.pkt := onlyRegs_pkt (onlyRegs_setInt _ _ (onlyRegs_refl s))
@[simp] theorem State.setIntBit_sch (s : State) (pg : Page) (b : Nat) : (s.setIntBit pg b).sch = s.sch := onlyRegs_sch (onlyRegs_setInt _ _ (onlyRegs_refl s))
@[simp] theorem State.setIntBit_xrd (s : State) (pg : Page) (b : Nat) : (s.setIntBit pg b).xrd = s.xrd := onlyRegs_xrd (onlyRegs_setInt _ _ (onlyRegs_refl s))
@[simp] theorem State.setIntBit_kvs (s : State) (pg : Page) (b : Nat) : (s.setIntBit pg b).kvs = s.kvs := onlyRegs_kvs (onlyRegs_setInt _ _ (onlyRegs_refl s))
@[simp] theorem State.setIntBit_att (s : State) (pg : Page) (b : Nat) : (s.setIntBit pg b).att = s.att := onlyRegs_att (onlyRegs_setInt _ _ (onlyRegs_refl s))
@[simp] theorem State.setIntBit_ckp (s : State) (pg : Page) (b : Nat) : (s.setIntBit pg b).ckp = s.ckp := onlyRegs_ckp (onlyRegs_setInt _ _ (onlyRegs_refl s))
@[simp] theorem State.setIntBit_sto (s : State) (pg : Page) (b : Nat) : (s.setIntBit pg b).sto = s.sto := onlyRegs_sto (onlyRegs_setInt _ _ (onlyRegs_refl s))
@[simp] theorem State.setIntBit_cph (s : State) (pg : Page) (b : Nat) : (s.setIntBit pg b).cph = s.cph := onlyRegs_cph (onlyRegs_setInt _ _ (onlyRegs_refl s))
@[simp] theorem State.setIntBit_trs (s : State) (pg : Page) (b : Nat) : (s.setIntBit pg b).trs = s.trs := onlyRegs_trs (onlyRegs_setInt _ _ (onlyRegs_refl s))
@[simp] theorem State.setIntBit_cores (s : State) (pg : Page) (b : Nat) : (s.setIntBit pg b).cores = s.cores := onlyRegs_cores (onlyRegs_setInt _ _ (onlyRegs_refl s))
@[simp] theorem State.setIntBit_fwi (s : State) (pg : Page) (b : Nat) : (s.setIntBit pg b).fwi = s.fwi := onlyRegs_fwi (onlyRegs_setInt _ _ (onlyRegs_refl s))
@[simp] theorem State.setIntBit_cg (s : State) (pg : Page) (b : Nat) : (s.setIntBit pg b).cg = s.cg := onlyRegs_cg (onlyRegs_setInt _ _ (onlyRegs_refl s))
@[simp] theorem State.setIntBit_pwr (s : State) (pg : Page) (b : Nat) : (s.setIntBit pg b).pwr = s.pwr := onlyRegs_pwr (onlyRegs_setInt _ _ (onlyRegs_refl s))
@[simp] theorem State.setIntBit_flt (s : State) (pg : Page) (b : Nat) : (s.setIntBit pg b).flt = s.flt := onlyRegs_flt (onlyRegs_setInt _ _ (onlyRegs_refl s))
@[simp] theorem State.setIntBit_balls (s : State) (pg : Page) (b : Nat) : (s.setIntBit pg b).balls = s.balls := onlyRegs_balls (onlyRegs_setInt _ _ (onlyRegs_refl s))

/-! ## count -/

@[simp] theorem State.count_pending (s : State) (pg : Page) (c n : Nat) : (s.count pg c n).pending = s.pending := onlyRegs_pending (onlyRegs_count _ _ _ (onlyRegs_refl s))
@[simp] theorem State.count_clk (s : State) (pg : Page) (c n : Nat) : (s.count pg c n).clk = s.clk := onlyRegs_clk (onlyRegs_count _ _ _ (onlyRegs_refl s))
@[simp] theorem State.count_entry (s : State) (pg : Page) (c n : Nat) : (s.count pg c n).entry = s.entry := onlyRegs_entry (onlyRegs_count _ _ _ (onlyRegs_refl s))
@[simp] theorem State.count_prev (s : State) (pg : Page) (c n : Nat) : (s.count pg c n).prev = s.prev := onlyRegs_prev (onlyRegs_count _ _ _ (onlyRegs_refl s))
@[simp] theorem State.count_hbm (s : State) (pg : Page) (c n : Nat) : (s.count pg c n).hbm = s.hbm := onlyRegs_hbm (onlyRegs_count _ _ _ (onlyRegs_refl s))
@[simp] theorem State.count_badLines (s : State) (pg : Page) (c n : Nat) : (s.count pg c n).badLines = s.badLines := onlyRegs_badLines (onlyRegs_count _ _ _ (onlyRegs_refl s))
@[simp] theorem State.count_free (s : State) (pg : Page) (c n : Nat) : (s.count pg c n).free = s.free := onlyRegs_free (onlyRegs_count _ _ _ (onlyRegs_refl s))
@[simp] theorem State.count_parts (s : State) (pg : Page) (c n : Nat) : (s.count pg c n).parts = s.parts := onlyRegs_parts (onlyRegs_count _ _ _ (onlyRegs_refl s))
@[simp] theorem State.count_owner (s : State) (pg : Page) (c n : Nat) : (s.count pg c n).owner = s.owner := onlyRegs_owner (onlyRegs_count _ _ _ (onlyRegs_refl s))
@[simp] theorem State.count_gran (s : State) (pg : Page) (c n : Nat) : (s.count pg c n).gran = s.gran := onlyRegs_gran (onlyRegs_count _ _ _ (onlyRegs_refl s))
@[simp] theorem State.count_scrubs (s : State) (pg : Page) (c n : Nat) : (s.count pg c n).scrubs = s.scrubs := onlyRegs_scrubs (onlyRegs_count _ _ _ (onlyRegs_refl s))
@[simp] theorem State.count_vis (s : State) (pg : Page) (c n : Nat) : (s.count pg c n).vis = s.vis := onlyRegs_vis (onlyRegs_count _ _ _ (onlyRegs_refl s))
@[simp] theorem State.count_harvests (s : State) (pg : Page) (c n : Nat) : (s.count pg c n).harvests = s.harvests := onlyRegs_harvests (onlyRegs_count _ _ _ (onlyRegs_refl s))
@[simp] theorem State.count_rings (s : State) (pg : Page) (c n : Nat) : (s.count pg c n).rings = s.rings := onlyRegs_rings (onlyRegs_count _ _ _ (onlyRegs_refl s))
@[simp] theorem State.count_work (s : State) (pg : Page) (c n : Nat) : (s.count pg c n).work = s.work := onlyRegs_work (onlyRegs_count _ _ _ (onlyRegs_refl s))
@[simp] theorem State.count_sync (s : State) (pg : Page) (c n : Nat) : (s.count pg c n).sync = s.sync := onlyRegs_sync (onlyRegs_count _ _ _ (onlyRegs_refl s))
@[simp] theorem State.count_reads (s : State) (pg : Page) (c n : Nat) : (s.count pg c n).reads = s.reads := onlyRegs_reads (onlyRegs_count _ _ _ (onlyRegs_refl s))
@[simp] theorem State.count_quar (s : State) (pg : Page) (c n : Nat) : (s.count pg c n).quar = s.quar := onlyRegs_quar (onlyRegs_count _ _ _ (onlyRegs_refl s))
@[simp] theorem State.count_dports (s : State) (pg : Page) (c n : Nat) : (s.count pg c n).dports = s.dports := onlyRegs_dports (onlyRegs_count _ _ _ (onlyRegs_refl s))
@[simp] theorem State.count_mlr (s : State) (pg : Page) (c n : Nat) : (s.count pg c n).mlr = s.mlr := onlyRegs_mlr (onlyRegs_count _ _ _ (onlyRegs_refl s))
@[simp] theorem State.count_epts (s : State) (pg : Page) (c n : Nat) : (s.count pg c n).epts = s.epts := onlyRegs_epts (onlyRegs_count _ _ _ (onlyRegs_refl s))
@[simp] theorem State.count_pkt (s : State) (pg : Page) (c n : Nat) : (s.count pg c n).pkt = s.pkt := onlyRegs_pkt (onlyRegs_count _ _ _ (onlyRegs_refl s))
@[simp] theorem State.count_sch (s : State) (pg : Page) (c n : Nat) : (s.count pg c n).sch = s.sch := onlyRegs_sch (onlyRegs_count _ _ _ (onlyRegs_refl s))
@[simp] theorem State.count_xrd (s : State) (pg : Page) (c n : Nat) : (s.count pg c n).xrd = s.xrd := onlyRegs_xrd (onlyRegs_count _ _ _ (onlyRegs_refl s))
@[simp] theorem State.count_kvs (s : State) (pg : Page) (c n : Nat) : (s.count pg c n).kvs = s.kvs := onlyRegs_kvs (onlyRegs_count _ _ _ (onlyRegs_refl s))
@[simp] theorem State.count_att (s : State) (pg : Page) (c n : Nat) : (s.count pg c n).att = s.att := onlyRegs_att (onlyRegs_count _ _ _ (onlyRegs_refl s))
@[simp] theorem State.count_ckp (s : State) (pg : Page) (c n : Nat) : (s.count pg c n).ckp = s.ckp := onlyRegs_ckp (onlyRegs_count _ _ _ (onlyRegs_refl s))
@[simp] theorem State.count_sto (s : State) (pg : Page) (c n : Nat) : (s.count pg c n).sto = s.sto := onlyRegs_sto (onlyRegs_count _ _ _ (onlyRegs_refl s))
@[simp] theorem State.count_cph (s : State) (pg : Page) (c n : Nat) : (s.count pg c n).cph = s.cph := onlyRegs_cph (onlyRegs_count _ _ _ (onlyRegs_refl s))
@[simp] theorem State.count_trs (s : State) (pg : Page) (c n : Nat) : (s.count pg c n).trs = s.trs := onlyRegs_trs (onlyRegs_count _ _ _ (onlyRegs_refl s))
@[simp] theorem State.count_cores (s : State) (pg : Page) (c n : Nat) : (s.count pg c n).cores = s.cores := onlyRegs_cores (onlyRegs_count _ _ _ (onlyRegs_refl s))
@[simp] theorem State.count_fwi (s : State) (pg : Page) (c n : Nat) : (s.count pg c n).fwi = s.fwi := onlyRegs_fwi (onlyRegs_count _ _ _ (onlyRegs_refl s))
@[simp] theorem State.count_cg (s : State) (pg : Page) (c n : Nat) : (s.count pg c n).cg = s.cg := onlyRegs_cg (onlyRegs_count _ _ _ (onlyRegs_refl s))
@[simp] theorem State.count_pwr (s : State) (pg : Page) (c n : Nat) : (s.count pg c n).pwr = s.pwr := onlyRegs_pwr (onlyRegs_count _ _ _ (onlyRegs_refl s))
@[simp] theorem State.count_flt (s : State) (pg : Page) (c n : Nat) : (s.count pg c n).flt = s.flt := onlyRegs_flt (onlyRegs_count _ _ _ (onlyRegs_refl s))
@[simp] theorem State.count_balls (s : State) (pg : Page) (c n : Nat) : (s.count pg c n).balls = s.balls := onlyRegs_balls (onlyRegs_count _ _ _ (onlyRegs_refl s))

/-! ## cmdEnd -/

@[simp] theorem State.cmdEnd_pending (s : State) (b : Blk) (op obj : Nat) (st : Status) : (s.cmdEnd b op obj st).pending = s.pending := onlyRegs_pending (onlyRegs_cmdEnd _ _ _ _ (onlyRegs_refl s))
@[simp] theorem State.cmdEnd_clk (s : State) (b : Blk) (op obj : Nat) (st : Status) : (s.cmdEnd b op obj st).clk = s.clk := onlyRegs_clk (onlyRegs_cmdEnd _ _ _ _ (onlyRegs_refl s))
@[simp] theorem State.cmdEnd_entry (s : State) (b : Blk) (op obj : Nat) (st : Status) : (s.cmdEnd b op obj st).entry = s.entry := onlyRegs_entry (onlyRegs_cmdEnd _ _ _ _ (onlyRegs_refl s))
@[simp] theorem State.cmdEnd_prev (s : State) (b : Blk) (op obj : Nat) (st : Status) : (s.cmdEnd b op obj st).prev = s.prev := onlyRegs_prev (onlyRegs_cmdEnd _ _ _ _ (onlyRegs_refl s))
@[simp] theorem State.cmdEnd_hbm (s : State) (b : Blk) (op obj : Nat) (st : Status) : (s.cmdEnd b op obj st).hbm = s.hbm := onlyRegs_hbm (onlyRegs_cmdEnd _ _ _ _ (onlyRegs_refl s))
@[simp] theorem State.cmdEnd_badLines (s : State) (b : Blk) (op obj : Nat) (st : Status) : (s.cmdEnd b op obj st).badLines = s.badLines := onlyRegs_badLines (onlyRegs_cmdEnd _ _ _ _ (onlyRegs_refl s))
@[simp] theorem State.cmdEnd_free (s : State) (b : Blk) (op obj : Nat) (st : Status) : (s.cmdEnd b op obj st).free = s.free := onlyRegs_free (onlyRegs_cmdEnd _ _ _ _ (onlyRegs_refl s))
@[simp] theorem State.cmdEnd_parts (s : State) (b : Blk) (op obj : Nat) (st : Status) : (s.cmdEnd b op obj st).parts = s.parts := onlyRegs_parts (onlyRegs_cmdEnd _ _ _ _ (onlyRegs_refl s))
@[simp] theorem State.cmdEnd_owner (s : State) (b : Blk) (op obj : Nat) (st : Status) : (s.cmdEnd b op obj st).owner = s.owner := onlyRegs_owner (onlyRegs_cmdEnd _ _ _ _ (onlyRegs_refl s))
@[simp] theorem State.cmdEnd_gran (s : State) (b : Blk) (op obj : Nat) (st : Status) : (s.cmdEnd b op obj st).gran = s.gran := onlyRegs_gran (onlyRegs_cmdEnd _ _ _ _ (onlyRegs_refl s))
@[simp] theorem State.cmdEnd_scrubs (s : State) (b : Blk) (op obj : Nat) (st : Status) : (s.cmdEnd b op obj st).scrubs = s.scrubs := onlyRegs_scrubs (onlyRegs_cmdEnd _ _ _ _ (onlyRegs_refl s))
@[simp] theorem State.cmdEnd_vis (s : State) (b : Blk) (op obj : Nat) (st : Status) : (s.cmdEnd b op obj st).vis = s.vis := onlyRegs_vis (onlyRegs_cmdEnd _ _ _ _ (onlyRegs_refl s))
@[simp] theorem State.cmdEnd_harvests (s : State) (b : Blk) (op obj : Nat) (st : Status) : (s.cmdEnd b op obj st).harvests = s.harvests := onlyRegs_harvests (onlyRegs_cmdEnd _ _ _ _ (onlyRegs_refl s))
@[simp] theorem State.cmdEnd_rings (s : State) (b : Blk) (op obj : Nat) (st : Status) : (s.cmdEnd b op obj st).rings = s.rings := onlyRegs_rings (onlyRegs_cmdEnd _ _ _ _ (onlyRegs_refl s))
@[simp] theorem State.cmdEnd_work (s : State) (b : Blk) (op obj : Nat) (st : Status) : (s.cmdEnd b op obj st).work = s.work := onlyRegs_work (onlyRegs_cmdEnd _ _ _ _ (onlyRegs_refl s))
@[simp] theorem State.cmdEnd_sync (s : State) (b : Blk) (op obj : Nat) (st : Status) : (s.cmdEnd b op obj st).sync = s.sync := onlyRegs_sync (onlyRegs_cmdEnd _ _ _ _ (onlyRegs_refl s))
@[simp] theorem State.cmdEnd_reads (s : State) (b : Blk) (op obj : Nat) (st : Status) : (s.cmdEnd b op obj st).reads = s.reads := onlyRegs_reads (onlyRegs_cmdEnd _ _ _ _ (onlyRegs_refl s))
@[simp] theorem State.cmdEnd_quar (s : State) (b : Blk) (op obj : Nat) (st : Status) : (s.cmdEnd b op obj st).quar = s.quar := onlyRegs_quar (onlyRegs_cmdEnd _ _ _ _ (onlyRegs_refl s))
@[simp] theorem State.cmdEnd_dports (s : State) (b : Blk) (op obj : Nat) (st : Status) : (s.cmdEnd b op obj st).dports = s.dports := onlyRegs_dports (onlyRegs_cmdEnd _ _ _ _ (onlyRegs_refl s))
@[simp] theorem State.cmdEnd_mlr (s : State) (b : Blk) (op obj : Nat) (st : Status) : (s.cmdEnd b op obj st).mlr = s.mlr := onlyRegs_mlr (onlyRegs_cmdEnd _ _ _ _ (onlyRegs_refl s))
@[simp] theorem State.cmdEnd_epts (s : State) (b : Blk) (op obj : Nat) (st : Status) : (s.cmdEnd b op obj st).epts = s.epts := onlyRegs_epts (onlyRegs_cmdEnd _ _ _ _ (onlyRegs_refl s))
@[simp] theorem State.cmdEnd_pkt (s : State) (b : Blk) (op obj : Nat) (st : Status) : (s.cmdEnd b op obj st).pkt = s.pkt := onlyRegs_pkt (onlyRegs_cmdEnd _ _ _ _ (onlyRegs_refl s))
@[simp] theorem State.cmdEnd_sch (s : State) (b : Blk) (op obj : Nat) (st : Status) : (s.cmdEnd b op obj st).sch = s.sch := onlyRegs_sch (onlyRegs_cmdEnd _ _ _ _ (onlyRegs_refl s))
@[simp] theorem State.cmdEnd_xrd (s : State) (b : Blk) (op obj : Nat) (st : Status) : (s.cmdEnd b op obj st).xrd = s.xrd := onlyRegs_xrd (onlyRegs_cmdEnd _ _ _ _ (onlyRegs_refl s))
@[simp] theorem State.cmdEnd_kvs (s : State) (b : Blk) (op obj : Nat) (st : Status) : (s.cmdEnd b op obj st).kvs = s.kvs := onlyRegs_kvs (onlyRegs_cmdEnd _ _ _ _ (onlyRegs_refl s))
@[simp] theorem State.cmdEnd_att (s : State) (b : Blk) (op obj : Nat) (st : Status) : (s.cmdEnd b op obj st).att = s.att := onlyRegs_att (onlyRegs_cmdEnd _ _ _ _ (onlyRegs_refl s))
@[simp] theorem State.cmdEnd_ckp (s : State) (b : Blk) (op obj : Nat) (st : Status) : (s.cmdEnd b op obj st).ckp = s.ckp := onlyRegs_ckp (onlyRegs_cmdEnd _ _ _ _ (onlyRegs_refl s))
@[simp] theorem State.cmdEnd_sto (s : State) (b : Blk) (op obj : Nat) (st : Status) : (s.cmdEnd b op obj st).sto = s.sto := onlyRegs_sto (onlyRegs_cmdEnd _ _ _ _ (onlyRegs_refl s))
@[simp] theorem State.cmdEnd_cph (s : State) (b : Blk) (op obj : Nat) (st : Status) : (s.cmdEnd b op obj st).cph = s.cph := onlyRegs_cph (onlyRegs_cmdEnd _ _ _ _ (onlyRegs_refl s))
@[simp] theorem State.cmdEnd_trs (s : State) (b : Blk) (op obj : Nat) (st : Status) : (s.cmdEnd b op obj st).trs = s.trs := onlyRegs_trs (onlyRegs_cmdEnd _ _ _ _ (onlyRegs_refl s))
@[simp] theorem State.cmdEnd_cores (s : State) (b : Blk) (op obj : Nat) (st : Status) : (s.cmdEnd b op obj st).cores = s.cores := onlyRegs_cores (onlyRegs_cmdEnd _ _ _ _ (onlyRegs_refl s))
@[simp] theorem State.cmdEnd_fwi (s : State) (b : Blk) (op obj : Nat) (st : Status) : (s.cmdEnd b op obj st).fwi = s.fwi := onlyRegs_fwi (onlyRegs_cmdEnd _ _ _ _ (onlyRegs_refl s))
@[simp] theorem State.cmdEnd_cg (s : State) (b : Blk) (op obj : Nat) (st : Status) : (s.cmdEnd b op obj st).cg = s.cg := onlyRegs_cg (onlyRegs_cmdEnd _ _ _ _ (onlyRegs_refl s))
@[simp] theorem State.cmdEnd_pwr (s : State) (b : Blk) (op obj : Nat) (st : Status) : (s.cmdEnd b op obj st).pwr = s.pwr := onlyRegs_pwr (onlyRegs_cmdEnd _ _ _ _ (onlyRegs_refl s))
@[simp] theorem State.cmdEnd_flt (s : State) (b : Blk) (op obj : Nat) (st : Status) : (s.cmdEnd b op obj st).flt = s.flt := onlyRegs_flt (onlyRegs_cmdEnd _ _ _ _ (onlyRegs_refl s))
@[simp] theorem State.cmdEnd_balls (s : State) (b : Blk) (op obj : Nat) (st : Status) : (s.cmdEnd b op obj st).balls = s.balls := onlyRegs_balls (onlyRegs_cmdEnd _ _ _ _ (onlyRegs_refl s))

/-! ## msix -/

@[simp] theorem State.msix_pending (s : State) (v : Nat) : (s.msix v).pending = s.pending := onlyRegs_pending (onlyRegs_msix _ (onlyRegs_refl s))
@[simp] theorem State.msix_clk (s : State) (v : Nat) : (s.msix v).clk = s.clk := onlyRegs_clk (onlyRegs_msix _ (onlyRegs_refl s))
@[simp] theorem State.msix_entry (s : State) (v : Nat) : (s.msix v).entry = s.entry := onlyRegs_entry (onlyRegs_msix _ (onlyRegs_refl s))
@[simp] theorem State.msix_prev (s : State) (v : Nat) : (s.msix v).prev = s.prev := onlyRegs_prev (onlyRegs_msix _ (onlyRegs_refl s))
@[simp] theorem State.msix_hbm (s : State) (v : Nat) : (s.msix v).hbm = s.hbm := onlyRegs_hbm (onlyRegs_msix _ (onlyRegs_refl s))
@[simp] theorem State.msix_badLines (s : State) (v : Nat) : (s.msix v).badLines = s.badLines := onlyRegs_badLines (onlyRegs_msix _ (onlyRegs_refl s))
@[simp] theorem State.msix_free (s : State) (v : Nat) : (s.msix v).free = s.free := onlyRegs_free (onlyRegs_msix _ (onlyRegs_refl s))
@[simp] theorem State.msix_parts (s : State) (v : Nat) : (s.msix v).parts = s.parts := onlyRegs_parts (onlyRegs_msix _ (onlyRegs_refl s))
@[simp] theorem State.msix_owner (s : State) (v : Nat) : (s.msix v).owner = s.owner := onlyRegs_owner (onlyRegs_msix _ (onlyRegs_refl s))
@[simp] theorem State.msix_gran (s : State) (v : Nat) : (s.msix v).gran = s.gran := onlyRegs_gran (onlyRegs_msix _ (onlyRegs_refl s))
@[simp] theorem State.msix_scrubs (s : State) (v : Nat) : (s.msix v).scrubs = s.scrubs := onlyRegs_scrubs (onlyRegs_msix _ (onlyRegs_refl s))
@[simp] theorem State.msix_vis (s : State) (v : Nat) : (s.msix v).vis = s.vis := onlyRegs_vis (onlyRegs_msix _ (onlyRegs_refl s))
@[simp] theorem State.msix_harvests (s : State) (v : Nat) : (s.msix v).harvests = s.harvests := onlyRegs_harvests (onlyRegs_msix _ (onlyRegs_refl s))
@[simp] theorem State.msix_rings (s : State) (v : Nat) : (s.msix v).rings = s.rings := onlyRegs_rings (onlyRegs_msix _ (onlyRegs_refl s))
@[simp] theorem State.msix_work (s : State) (v : Nat) : (s.msix v).work = s.work := onlyRegs_work (onlyRegs_msix _ (onlyRegs_refl s))
@[simp] theorem State.msix_sync (s : State) (v : Nat) : (s.msix v).sync = s.sync := onlyRegs_sync (onlyRegs_msix _ (onlyRegs_refl s))
@[simp] theorem State.msix_reads (s : State) (v : Nat) : (s.msix v).reads = s.reads := onlyRegs_reads (onlyRegs_msix _ (onlyRegs_refl s))
@[simp] theorem State.msix_quar (s : State) (v : Nat) : (s.msix v).quar = s.quar := onlyRegs_quar (onlyRegs_msix _ (onlyRegs_refl s))
@[simp] theorem State.msix_dports (s : State) (v : Nat) : (s.msix v).dports = s.dports := onlyRegs_dports (onlyRegs_msix _ (onlyRegs_refl s))
@[simp] theorem State.msix_mlr (s : State) (v : Nat) : (s.msix v).mlr = s.mlr := onlyRegs_mlr (onlyRegs_msix _ (onlyRegs_refl s))
@[simp] theorem State.msix_epts (s : State) (v : Nat) : (s.msix v).epts = s.epts := onlyRegs_epts (onlyRegs_msix _ (onlyRegs_refl s))
@[simp] theorem State.msix_pkt (s : State) (v : Nat) : (s.msix v).pkt = s.pkt := onlyRegs_pkt (onlyRegs_msix _ (onlyRegs_refl s))
@[simp] theorem State.msix_sch (s : State) (v : Nat) : (s.msix v).sch = s.sch := onlyRegs_sch (onlyRegs_msix _ (onlyRegs_refl s))
@[simp] theorem State.msix_xrd (s : State) (v : Nat) : (s.msix v).xrd = s.xrd := onlyRegs_xrd (onlyRegs_msix _ (onlyRegs_refl s))
@[simp] theorem State.msix_kvs (s : State) (v : Nat) : (s.msix v).kvs = s.kvs := onlyRegs_kvs (onlyRegs_msix _ (onlyRegs_refl s))
@[simp] theorem State.msix_att (s : State) (v : Nat) : (s.msix v).att = s.att := onlyRegs_att (onlyRegs_msix _ (onlyRegs_refl s))
@[simp] theorem State.msix_ckp (s : State) (v : Nat) : (s.msix v).ckp = s.ckp := onlyRegs_ckp (onlyRegs_msix _ (onlyRegs_refl s))
@[simp] theorem State.msix_sto (s : State) (v : Nat) : (s.msix v).sto = s.sto := onlyRegs_sto (onlyRegs_msix _ (onlyRegs_refl s))
@[simp] theorem State.msix_cph (s : State) (v : Nat) : (s.msix v).cph = s.cph := onlyRegs_cph (onlyRegs_msix _ (onlyRegs_refl s))
@[simp] theorem State.msix_trs (s : State) (v : Nat) : (s.msix v).trs = s.trs := onlyRegs_trs (onlyRegs_msix _ (onlyRegs_refl s))
@[simp] theorem State.msix_cores (s : State) (v : Nat) : (s.msix v).cores = s.cores := onlyRegs_cores (onlyRegs_msix _ (onlyRegs_refl s))
@[simp] theorem State.msix_fwi (s : State) (v : Nat) : (s.msix v).fwi = s.fwi := onlyRegs_fwi (onlyRegs_msix _ (onlyRegs_refl s))
@[simp] theorem State.msix_cg (s : State) (v : Nat) : (s.msix v).cg = s.cg := onlyRegs_cg (onlyRegs_msix _ (onlyRegs_refl s))
@[simp] theorem State.msix_pwr (s : State) (v : Nat) : (s.msix v).pwr = s.pwr := onlyRegs_pwr (onlyRegs_msix _ (onlyRegs_refl s))
@[simp] theorem State.msix_flt (s : State) (v : Nat) : (s.msix v).flt = s.flt := onlyRegs_flt (onlyRegs_msix _ (onlyRegs_refl s))
@[simp] theorem State.msix_balls (s : State) (v : Nat) : (s.msix v).balls = s.balls := onlyRegs_balls (onlyRegs_msix _ (onlyRegs_refl s))

/-! ## latch: an error -/

/-- What an error changes: registers, messages, the latch word of the unit and the raises held. -/
theorem onlyLatch_latch (s : State) (pg : Page) (unit bit part : Nat) (lasting : Bool) :
    OnlyLatch s (s.latch pg unit bit part lasting) := by
  unfold State.latch
  simp only
  apply onlyLatch_sendRaises
  split
  · refine OnlyRegs.onlyLatch (onlyRegs_setInt _ _ (onlyRegs_refl _)) ?_
    split
    · exact OnlyRegs.onlyLatch (onlyRegs_count _ _ _ (onlyRegs_refl _)) rfl
    · rfl
  · split
    · exact OnlyRegs.onlyLatch (onlyRegs_count _ _ _ (onlyRegs_refl _)) rfl
    · rfl

@[simp] theorem State.latch_pending (s : State) (pg : Page) (u b p : Nat) (l : Bool) : (s.latch pg u b p l).pending = s.pending :=
  onlyLatch_get State.pending (fun _ _ _ _ _ _ _ => rfl) (onlyLatch_latch s pg u b p l)
@[simp] theorem State.latch_clk (s : State) (pg : Page) (u b p : Nat) (l : Bool) : (s.latch pg u b p l).clk = s.clk :=
  onlyLatch_get State.clk (fun _ _ _ _ _ _ _ => rfl) (onlyLatch_latch s pg u b p l)
@[simp] theorem State.latch_entry (s : State) (pg : Page) (u b p : Nat) (l : Bool) : (s.latch pg u b p l).entry = s.entry :=
  onlyLatch_get State.entry (fun _ _ _ _ _ _ _ => rfl) (onlyLatch_latch s pg u b p l)
@[simp] theorem State.latch_prev (s : State) (pg : Page) (u b p : Nat) (l : Bool) : (s.latch pg u b p l).prev = s.prev :=
  onlyLatch_get State.prev (fun _ _ _ _ _ _ _ => rfl) (onlyLatch_latch s pg u b p l)
@[simp] theorem State.latch_hbm (s : State) (pg : Page) (u b p : Nat) (l : Bool) : (s.latch pg u b p l).hbm = s.hbm :=
  onlyLatch_get State.hbm (fun _ _ _ _ _ _ _ => rfl) (onlyLatch_latch s pg u b p l)
@[simp] theorem State.latch_badLines (s : State) (pg : Page) (u b p : Nat) (l : Bool) : (s.latch pg u b p l).badLines = s.badLines :=
  onlyLatch_get State.badLines (fun _ _ _ _ _ _ _ => rfl) (onlyLatch_latch s pg u b p l)
@[simp] theorem State.latch_free (s : State) (pg : Page) (u b p : Nat) (l : Bool) : (s.latch pg u b p l).free = s.free :=
  onlyLatch_get State.free (fun _ _ _ _ _ _ _ => rfl) (onlyLatch_latch s pg u b p l)
@[simp] theorem State.latch_parts (s : State) (pg : Page) (u b p : Nat) (l : Bool) : (s.latch pg u b p l).parts = s.parts :=
  onlyLatch_get State.parts (fun _ _ _ _ _ _ _ => rfl) (onlyLatch_latch s pg u b p l)
@[simp] theorem State.latch_owner (s : State) (pg : Page) (u b p : Nat) (l : Bool) : (s.latch pg u b p l).owner = s.owner :=
  onlyLatch_get State.owner (fun _ _ _ _ _ _ _ => rfl) (onlyLatch_latch s pg u b p l)
@[simp] theorem State.latch_gran (s : State) (pg : Page) (u b p : Nat) (l : Bool) : (s.latch pg u b p l).gran = s.gran :=
  onlyLatch_get State.gran (fun _ _ _ _ _ _ _ => rfl) (onlyLatch_latch s pg u b p l)
@[simp] theorem State.latch_scrubs (s : State) (pg : Page) (u b p : Nat) (l : Bool) : (s.latch pg u b p l).scrubs = s.scrubs :=
  onlyLatch_get State.scrubs (fun _ _ _ _ _ _ _ => rfl) (onlyLatch_latch s pg u b p l)
@[simp] theorem State.latch_vis (s : State) (pg : Page) (u b p : Nat) (l : Bool) : (s.latch pg u b p l).vis = s.vis :=
  onlyLatch_get State.vis (fun _ _ _ _ _ _ _ => rfl) (onlyLatch_latch s pg u b p l)
@[simp] theorem State.latch_harvests (s : State) (pg : Page) (u b p : Nat) (l : Bool) : (s.latch pg u b p l).harvests = s.harvests :=
  onlyLatch_get State.harvests (fun _ _ _ _ _ _ _ => rfl) (onlyLatch_latch s pg u b p l)
@[simp] theorem State.latch_rings (s : State) (pg : Page) (u b p : Nat) (l : Bool) : (s.latch pg u b p l).rings = s.rings :=
  onlyLatch_get State.rings (fun _ _ _ _ _ _ _ => rfl) (onlyLatch_latch s pg u b p l)
@[simp] theorem State.latch_work (s : State) (pg : Page) (u b p : Nat) (l : Bool) : (s.latch pg u b p l).work = s.work :=
  onlyLatch_get State.work (fun _ _ _ _ _ _ _ => rfl) (onlyLatch_latch s pg u b p l)
@[simp] theorem State.latch_sync (s : State) (pg : Page) (u b p : Nat) (l : Bool) : (s.latch pg u b p l).sync = s.sync :=
  onlyLatch_get State.sync (fun _ _ _ _ _ _ _ => rfl) (onlyLatch_latch s pg u b p l)
@[simp] theorem State.latch_reads (s : State) (pg : Page) (u b p : Nat) (l : Bool) : (s.latch pg u b p l).reads = s.reads :=
  onlyLatch_get State.reads (fun _ _ _ _ _ _ _ => rfl) (onlyLatch_latch s pg u b p l)
@[simp] theorem State.latch_quar (s : State) (pg : Page) (u b p : Nat) (l : Bool) : (s.latch pg u b p l).quar = s.quar :=
  onlyLatch_get State.quar (fun _ _ _ _ _ _ _ => rfl) (onlyLatch_latch s pg u b p l)
@[simp] theorem State.latch_dports (s : State) (pg : Page) (u b p : Nat) (l : Bool) : (s.latch pg u b p l).dports = s.dports :=
  onlyLatch_get State.dports (fun _ _ _ _ _ _ _ => rfl) (onlyLatch_latch s pg u b p l)
@[simp] theorem State.latch_mlr (s : State) (pg : Page) (u b p : Nat) (l : Bool) : (s.latch pg u b p l).mlr = s.mlr :=
  onlyLatch_get State.mlr (fun _ _ _ _ _ _ _ => rfl) (onlyLatch_latch s pg u b p l)
@[simp] theorem State.latch_epts (s : State) (pg : Page) (u b p : Nat) (l : Bool) : (s.latch pg u b p l).epts = s.epts :=
  onlyLatch_get State.epts (fun _ _ _ _ _ _ _ => rfl) (onlyLatch_latch s pg u b p l)
@[simp] theorem State.latch_pkt (s : State) (pg : Page) (u b p : Nat) (l : Bool) : (s.latch pg u b p l).pkt = s.pkt :=
  onlyLatch_get State.pkt (fun _ _ _ _ _ _ _ => rfl) (onlyLatch_latch s pg u b p l)
@[simp] theorem State.latch_sch (s : State) (pg : Page) (u b p : Nat) (l : Bool) : (s.latch pg u b p l).sch = s.sch :=
  onlyLatch_get State.sch (fun _ _ _ _ _ _ _ => rfl) (onlyLatch_latch s pg u b p l)
@[simp] theorem State.latch_xrd (s : State) (pg : Page) (u b p : Nat) (l : Bool) : (s.latch pg u b p l).xrd = s.xrd :=
  onlyLatch_get State.xrd (fun _ _ _ _ _ _ _ => rfl) (onlyLatch_latch s pg u b p l)
@[simp] theorem State.latch_kvs (s : State) (pg : Page) (u b p : Nat) (l : Bool) : (s.latch pg u b p l).kvs = s.kvs :=
  onlyLatch_get State.kvs (fun _ _ _ _ _ _ _ => rfl) (onlyLatch_latch s pg u b p l)
@[simp] theorem State.latch_att (s : State) (pg : Page) (u b p : Nat) (l : Bool) : (s.latch pg u b p l).att = s.att :=
  onlyLatch_get State.att (fun _ _ _ _ _ _ _ => rfl) (onlyLatch_latch s pg u b p l)
@[simp] theorem State.latch_ckp (s : State) (pg : Page) (u b p : Nat) (l : Bool) : (s.latch pg u b p l).ckp = s.ckp :=
  onlyLatch_get State.ckp (fun _ _ _ _ _ _ _ => rfl) (onlyLatch_latch s pg u b p l)
@[simp] theorem State.latch_sto (s : State) (pg : Page) (u b p : Nat) (l : Bool) : (s.latch pg u b p l).sto = s.sto :=
  onlyLatch_get State.sto (fun _ _ _ _ _ _ _ => rfl) (onlyLatch_latch s pg u b p l)
@[simp] theorem State.latch_cph (s : State) (pg : Page) (u b p : Nat) (l : Bool) : (s.latch pg u b p l).cph = s.cph :=
  onlyLatch_get State.cph (fun _ _ _ _ _ _ _ => rfl) (onlyLatch_latch s pg u b p l)
@[simp] theorem State.latch_trs (s : State) (pg : Page) (u b p : Nat) (l : Bool) : (s.latch pg u b p l).trs = s.trs :=
  onlyLatch_get State.trs (fun _ _ _ _ _ _ _ => rfl) (onlyLatch_latch s pg u b p l)
@[simp] theorem State.latch_cores (s : State) (pg : Page) (u b p : Nat) (l : Bool) : (s.latch pg u b p l).cores = s.cores :=
  onlyLatch_get State.cores (fun _ _ _ _ _ _ _ => rfl) (onlyLatch_latch s pg u b p l)
@[simp] theorem State.latch_fwi (s : State) (pg : Page) (u b p : Nat) (l : Bool) : (s.latch pg u b p l).fwi = s.fwi :=
  onlyLatch_get State.fwi (fun _ _ _ _ _ _ _ => rfl) (onlyLatch_latch s pg u b p l)
@[simp] theorem State.latch_cg (s : State) (pg : Page) (u b p : Nat) (l : Bool) : (s.latch pg u b p l).cg = s.cg :=
  onlyLatch_get State.cg (fun _ _ _ _ _ _ _ => rfl) (onlyLatch_latch s pg u b p l)
@[simp] theorem State.latch_pwr (s : State) (pg : Page) (u b p : Nat) (l : Bool) : (s.latch pg u b p l).pwr = s.pwr :=
  onlyLatch_get State.pwr (fun _ _ _ _ _ _ _ => rfl) (onlyLatch_latch s pg u b p l)
@[simp] theorem State.latch_balls (s : State) (pg : Page) (u b p : Nat) (l : Bool) : (s.latch pg u b p l).balls = s.balls :=
  onlyLatch_get State.balls (fun _ _ _ _ _ _ _ => rfl) (onlyLatch_latch s pg u b p l)
@[simp] theorem State.latch_flt_log (s : State) (pg : Page) (u b p : Nat) (l : Bool) : (s.latch pg u b p l).flt.log = s.flt.log :=
  onlyLatch_get (fun x => x.flt.log) (fun _ _ _ _ _ _ _ => rfl) (onlyLatch_latch s pg u b p l)
@[simp] theorem State.latch_flt_raises (s : State) (pg : Page) (u b p : Nat) (l : Bool) : (s.latch pg u b p l).flt.raises = s.flt.raises :=
  onlyLatch_get (fun x => x.flt.raises) (fun _ _ _ _ _ _ _ => rfl) (onlyLatch_latch s pg u b p l)
@[simp] theorem State.latch_flt_transAt (s : State) (pg : Page) (u b p : Nat) (l : Bool) : (s.latch pg u b p l).flt.transAt = s.flt.transAt :=
  onlyLatch_get (fun x => x.flt.transAt) (fun _ _ _ _ _ _ _ => rfl) (onlyLatch_latch s pg u b p l)
@[simp] theorem State.latch_flt_parts (s : State) (pg : Page) (u b p : Nat) (l : Bool) : (s.latch pg u b p l).flt.parts = s.flt.parts :=
  onlyLatch_get (fun x => x.flt.parts) (fun _ _ _ _ _ _ _ => rfl) (onlyLatch_latch s pg u b p l)
@[simp] theorem State.latch_flt_blocks (s : State) (pg : Page) (u b p : Nat) (l : Bool) : (s.latch pg u b p l).flt.blocks = s.flt.blocks :=
  onlyLatch_get (fun x => x.flt.blocks) (fun _ _ _ _ _ _ _ => rfl) (onlyLatch_latch s pg u b p l)
@[simp] theorem State.latch_flt_planes (s : State) (pg : Page) (u b p : Nat) (l : Bool) : (s.latch pg u b p l).flt.planes = s.flt.planes :=
  onlyLatch_get (fun x => x.flt.planes) (fun _ _ _ _ _ _ _ => rfl) (onlyLatch_latch s pg u b p l)
@[simp] theorem State.latch_flt_safe (s : State) (pg : Page) (u b p : Nat) (l : Bool) : (s.latch pg u b p l).flt.safe = s.flt.safe :=
  onlyLatch_get (fun x => x.flt.safe) (fun _ _ _ _ _ _ _ => rfl) (onlyLatch_latch s pg u b p l)
@[simp] theorem State.latch_flt_safeAt (s : State) (pg : Page) (u b p : Nat) (l : Bool) : (s.latch pg u b p l).flt.safeAt = s.flt.safeAt :=
  onlyLatch_get (fun x => x.flt.safeAt) (fun _ _ _ _ _ _ _ => rfl) (onlyLatch_latch s pg u b p l)
@[simp] theorem State.latch_flt_exiting (s : State) (pg : Page) (u b p : Nat) (l : Bool) : (s.latch pg u b p l).flt.exiting = s.flt.exiting :=
  onlyLatch_get (fun x => x.flt.exiting) (fun _ _ _ _ _ _ _ => rfl) (onlyLatch_latch s pg u b p l)
@[simp] theorem State.latch_flt_heartbeatAt (s : State) (pg : Page) (u b p : Nat) (l : Bool) : (s.latch pg u b p l).flt.heartbeatAt = s.flt.heartbeatAt :=
  onlyLatch_get (fun x => x.flt.heartbeatAt) (fun _ _ _ _ _ _ _ => rfl) (onlyLatch_latch s pg u b p l)
@[simp] theorem State.latch_flt_heartbeatSent (s : State) (pg : Page) (u b p : Nat) (l : Bool) : (s.latch pg u b p l).flt.heartbeatSent = s.flt.heartbeatSent :=
  onlyLatch_get (fun x => x.flt.heartbeatSent) (fun _ _ _ _ _ _ _ => rfl) (onlyLatch_latch s pg u b p l)
@[simp] theorem State.latch_flt_watchdogAt (s : State) (pg : Page) (u b p : Nat) (l : Bool) : (s.latch pg u b p l).flt.watchdogAt = s.flt.watchdogAt :=
  onlyLatch_get (fun x => x.flt.watchdogAt) (fun _ _ _ _ _ _ _ => rfl) (onlyLatch_latch s pg u b p l)
@[simp] theorem State.latch_flt_alive (s : State) (pg : Page) (u b p : Nat) (l : Bool) : (s.latch pg u b p l).flt.alive = s.flt.alive :=
  onlyLatch_get (fun x => x.flt.alive) (fun _ _ _ _ _ _ _ => rfl) (onlyLatch_latch s pg u b p l)
@[simp] theorem State.latch_flt_aliveAt (s : State) (pg : Page) (u b p : Nat) (l : Bool) : (s.latch pg u b p l).flt.aliveAt = s.flt.aliveAt :=
  onlyLatch_get (fun x => x.flt.aliveAt) (fun _ _ _ _ _ _ _ => rfl) (onlyLatch_latch s pg u b p l)
@[simp] theorem State.latch_flt_reload (s : State) (pg : Page) (u b p : Nat) (l : Bool) : (s.latch pg u b p l).flt.reload = s.flt.reload :=
  onlyLatch_get (fun x => x.flt.reload) (fun _ _ _ _ _ _ _ => rfl) (onlyLatch_latch s pg u b p l)

theorem State.frameOut_flt (s : State) (side : Side) (cls : MsgClass) (typ : Nat) (p : List Nat) :
    (s.frameOut side cls typ p).flt = s.flt :=
  onlyRegs_flt (onlyRegs_intCross _ _ (onlyRegs_frameRaw _ _ _ _ (onlyRegs_refl s)))

theorem State.sendRaises_elws (s : State) : s.sendRaises.flt.elws = s.flt.elws := by
  unfold State.sendRaises
  simp only
  split
  · generalize sendHeld s.flt.queue (8 - (s.chan .host .fault).unacked.length) = x
    have h1 : ({ s with flt := { s.flt with queue := x.1 } } : State).flt.elws = s.flt.elws := rfl
    generalize ({ s with flt := { s.flt with queue := x.1 } } : State) = v at h1
    generalize x.2 = l
    induction l generalizing v with
    | nil => exact h1
    | cons m r ih => exact ih _ (by rw [State.frameOut_flt]; exact h1)
  · rfl

/-- The latch word of the unit takes the bit. -/
@[simp] theorem State.elw_latch (s : State) (pg : Page) (u b p : Nat) (l : Bool) :
    (s.latch pg u b p l).elw pg u = s.elw pg u ||| Word.oneBit b := by
  show Tab.get 0 (s.latch pg u b p l).flt.elws (elwKey pg u) = _
  unfold State.latch
  simp only
  rw [State.sendRaises_elws]
  have e : ∀ (x : State) (c d : Bool) (k : Nat), (if c then (if d then x.count1 .flt 4 else x).setIntBit pg k
      else (if d then x.count1 .flt 4 else x)).flt = x.flt := by
    intro x c d k
    cases c <;> cases d <;> simp
  rw [e, Tab.get_set_self]

/-! ## Registers that what crosses the barrier leaves alone -/

/-- A register is none of those that the counters of a page write. -/
def FarFrom (q : Page) (o : Nat) (pg : Page) : Prop := ∀ k, k ∈ ctrRegs → q.key o ≠ pg.key k

theorem State.reg_setChan (s : State) (side : Side) (cls : MsgClass) (b : BChan) (q : Page) (o : Nat) :
    (s.setChan side cls b).reg q o = s.reg q o := by
  cases side <;> cases cls <;> rfl

theorem State.reg_countHere_ne (s : State) (pg q : Page) (code n o : Nat) (h : FarFrom q o pg) :
    (s.countHere pg code n).reg q o = s.reg q o := by
  unfold State.countHere
  split
  · rfl
  · have hr : ∀ i, i ∈ List.range pg.ctrN → i < 8 := fun i hi => Nat.lt_of_lt_of_le (List.mem_range.mp hi) (pageCtrN_le pg)
    generalize List.range pg.ctrN = l at hr
    clear * - h hr
    induction l generalizing s with
    | nil => rfl
    | cons i r ih =>
      rw [List.foldl_cons, ih _ (fun j hj => hr j (List.mem_cons_of_mem _ hj))]
      split
      · exact State.reg_counterAdd_ne s pg q i n o (hr i (List.mem_cons_self ..)) h
      · rfl

theorem State.reg_frameRaw_ne (s : State) (side : Side) (cls : MsgClass) (typ : Nat) (p : List Nat) (q : Page) (o : Nat)
    (h : FarFrom q o Blk.trs.page) : (s.frameRaw side cls typ p).reg q o = s.reg q o := by
  rw [State.frameRaw, State.reg_countHere_ne _ _ _ _ _ _ h]
  exact State.reg_setChan ..

theorem State.reg_intCross_ne (s old : State) (pg q : Page) (o : Nat) (h : FarFrom q o Blk.trs.page) :
    (s.intCross old pg).reg q o = s.reg q o := by
  unfold State.intCross State.fieldIrq
  simp only
  repeat' split
  all_goals first
    | rfl
    | exact State.reg_frameRaw_ne _ _ _ _ _ _ _ h

theorem State.reg_setInt_far (s : State) (pg q : Page) (bits : Word) (o : Nat) (h : q.key o ≠ pg.key 0x30)
    (ht : FarFrom q o Blk.trs.page) : (s.setInt pg bits).reg q o = s.reg q o := by
  rw [State.setInt, State.reg_intCross_ne _ _ _ _ _ ht, State.reg_intRaise_ne _ _ _ _ _ h]

theorem State.reg_count_far (s : State) (pg q : Page) (code n o : Nat) (h : FarFrom q o pg) (ht : FarFrom q o Blk.trs.page) :
    (s.count pg code n).reg q o = s.reg q o := by
  rw [State.count, State.reg_intCross_ne _ _ _ _ _ ht, State.reg_countHere_ne _ _ _ _ _ _ h]

theorem State.reg_sendRaises_ne (s : State) (q : Page) (o : Nat) (h : FarFrom q o Blk.trs.page) :
    s.sendRaises.reg q o = s.reg q o := by
  unfold State.sendRaises
  simp only
  split
  · generalize sendHeld s.flt.queue (8 - (s.chan .host .fault).unacked.length) = x
    have h1 : ({ s with flt := { s.flt with queue := x.1 } } : State).reg q o = s.reg q o := rfl
    generalize ({ s with flt := { s.flt with queue := x.1 } } : State) = v at h1
    generalize x.2 = l
    induction l generalizing v with
    | nil => exact h1
    | cons m r ih =>
      refine ih _ ?_
      simp only [State.frameOut]
      rw [State.reg_intCross_ne _ _ _ _ _ h, State.reg_frameRaw_ne _ _ _ _ _ _ _ h]
      exact h1
  · rfl

/-- An error writes INT_STAT of its page and the counters of FLT and TRS; every other register reads as before. -/
theorem State.reg_latch_ne (s : State) (pg q : Page) (u b p o : Nat) (l : Bool) (hp : q.key o ≠ pg.key 0x30)
    (hf : FarFrom q o Blk.flt.page) (ht : FarFrom q o Blk.trs.page) : (s.latch pg u b p l).reg q o = s.reg q o := by
  unfold State.latch State.setIntBit
  simp only
  rw [State.reg_sendRaises_ne _ _ _ ht]
  repeat' split
  all_goals first
    | rfl
    | (simp only [State.reg_setInt_far _ _ _ _ _ hp ht, State.reg_count_far _ _ _ _ _ _ hf ht]; rfl)

/-! ## The latch words after other updates -/

@[simp] theorem State.elw_setInt (s : State) (pg : Page) (b : Word) (q : Page) (u : Nat) : (s.setInt pg b).elw q u = s.elw q u := by
  simp only [State.elw, State.setInt_flt]
@[simp] theorem State.elw_setIntBit (s : State) (pg : Page) (b : Nat) (q : Page) (u : Nat) : (s.setIntBit pg b).elw q u = s.elw q u := by
  simp only [State.elw, State.setIntBit_flt]
@[simp] theorem State.elw_count (s : State) (pg : Page) (c n : Nat) (q : Page) (u : Nat) : (s.count pg c n).elw q u = s.elw q u := by
  simp only [State.elw, State.count_flt]
@[simp] theorem State.elw_cmdEnd (s : State) (b : Blk) (op obj : Nat) (st : Status) (q : Page) (u : Nat) : (s.cmdEnd b op obj st).elw q u = s.elw q u := by
  simp only [State.elw, State.cmdEnd_flt]
@[simp] theorem State.elw_msix (s : State) (v : Nat) (q : Page) (u : Nat) : (s.msix v).elw q u = s.elw q u := by
  simp only [State.elw, State.msix_flt]

/-! ## Registers -/

theorem State.reg_setIntBit (s : State) (pg : Page) (b : Nat) (hf : blkField pg.blk = false) :
    (s.setIntBit pg b).reg pg 0x30 = s.reg pg 0x30 ||| Word.oneBit b := State.reg_setInt s pg _ hf

theorem State.reg_setIntBit_ne (s : State) (pg q : Page) (b o : Nat) (hf : blkField pg.blk = false) (h : q.key o ≠ pg.key 0x30) :
    (s.setIntBit pg b).reg q o = s.reg q o := State.reg_setInt_ne s pg q _ o hf h

/-- The end of a command writes CMD_STAT and INT_STAT of its page; that of a field page sends an INT message, which TRS counts. -/
theorem State.reg_cmdEnd_ne (s : State) (b : Blk) (op obj : Nat) (st : Status) (q : Page) (o : Nat) (h : q.key o ≠ b.page.key 0x30)
    (hc : q.key o ≠ b.page.key (cmdStatOff b)) (ht : FarFrom q o Blk.trs.page) : (s.cmdEnd b op obj st).reg q o = s.reg q o := by
  rw [State.cmdEnd, State.setIntBit, State.reg_setInt_far _ _ _ _ _ h ht, State.reg_setReg_ne _ _ _ _ _ _ hc]

end Sys2Proof.Machine
end

