-- ==== Sys2Proof/Laws/Keeps.lean ====
section
/-! SUPPORT. What the shared operations leave as it was (Keeps), once for each: composition, record updates, folds, and the
operations that write memory, outputs and fuses. -/

namespace Sys2Proof.Machine

/-- Keeps, on the parts of the second state that it speaks of. -/
def KeepsOn (s : State) (pend : List Instr) (out : List Out) (hbm : Tab Byte) (uds root : List Byte) (floor : List Nat)
    (rev : BitVec 4) (flash : Tab Byte) : Prop :=
  pend = s.pending ∧ s.out <+: out ∧ (s.memWf = true → (Tab.wf hbmFill hbm && Tab.wf flashFill flash) = true) ∧
    (uds = s.trs.uds ∧ root = s.trs.rootHash ∧ rev = s.trs.revoke ∧ ∀ i, i < 3 → s.trs.svnFloor.getD i 0 ≤ floor.getD i 0)

theorem keepsOn_of {s t : State} (h : Keeps s t) :
    KeepsOn s t.pending t.out t.hbm t.trs.uds t.trs.rootHash t.trs.svnFloor t.trs.revoke t.trs.flash := h

theorem keeps_of {s t : State}
    (h : KeepsOn s t.pending t.out t.hbm t.trs.uds t.trs.rootHash t.trs.svnFloor t.trs.revoke t.trs.flash) : Keeps s t := h

theorem keeps_refl (s : State) : Keeps s s :=
  ⟨rfl, List.prefix_rfl, id, rfl, rfl, rfl, fun _ _ => Nat.le_refl _⟩

theorem keeps_trans {s t u : State} (h1 : Keeps s t) (h2 : Keeps t u) : Keeps s u := by
  obtain ⟨a1, a2, a3, a4, a5, a6, a7⟩ := h1
  obtain ⟨b1, b2, b3, b4, b5, b6, b7⟩ := h2
  exact ⟨b1.trans a1, a2.trans b2, fun h => b3 (a3 h), b4.trans a4, b5.trans a5, b6.trans a6,
    fun i hi => Nat.le_trans (a7 i hi) (b7 i hi)⟩

/-- A record update of other fields. -/
theorem keeps_same {s0 s t : State} (h1 : t.pending = s.pending) (h2 : t.out = s.out) (h3 : t.hbm = s.hbm)
    (h4 : t.trs.uds = s.trs.uds) (h5 : t.trs.rootHash = s.trs.rootHash) (h6 : t.trs.svnFloor = s.trs.svnFloor)
    (h7 : t.trs.revoke = s.trs.revoke) (h8 : t.trs.flash = s.trs.flash) (h : Keeps s0 s) : Keeps s0 t := by
  apply keeps_of
  rw [h1, h2, h3, h4, h5, h6, h7, h8]
  exact keepsOn_of h

/-- A record update of other fields, in the form that an update elaborates to. -/
theorem keeps_mk {s0 : State} {xPending : List Instr} {xClk : Clocks} {xRegs : Tab Word} {xEntry : List (Page × Word)}
    {xPrev : Tab (List Nat)} {xHbm : Tab Byte} {xBadLines : List Nat} {xOut : List Out} {xFree : Nat} {xParts : Tab
    Part} {xOwner : Tab Own} {xGran : Tab Own} {xScrubs : List Scrub} {xVis : Tab Vi} {xHarvests : List Harvest} {xRings
    : Tab Ring} {xWork : List Work} {xSync : Tab Word} {xReads : List HostRead} {xQuar : List Quar} {xHlk : Hlk}
    {xDports : Tab DPort} {xMlr : Mlr} {xEpts : Tab EptPort} {xPkt : Pkt} {xSch : Sch} {xXrd : Xrd} {xKvs : Kvs} {xAtt :
    Att} {xCkp : Ckp} {xSto : Sto} {xCph : Cph} {xBar : Bar} {xTrs : Trs} {xCores : Tab Core} {xFwi : Fwi} {xCg : Clk}
    {xPwr : Pwr} {xFlt : Flt} {xBalls : Balls} :
    Keeps s0 (State.mk xPending xClk xRegs xEntry xPrev xHbm xBadLines xOut xFree xParts xOwner xGran xScrubs xVis
    xHarvests xRings xWork xSync xReads xQuar xHlk xDports xMlr xEpts xPkt xSch xXrd xKvs xAtt xCkp xSto xCph xBar
    xTrs xCores xFwi xCg xPwr xFlt xBalls) =
      KeepsOn s0 xPending xOut xHbm xTrs.uds xTrs.rootHash xTrs.svnFloor xTrs.revoke xTrs.flash := rfl

theorem keeps_ite {s0 s t : State} {c : Prop} [Decidable c] (h1 : Keeps s0 s) (h2 : Keeps s0 t) :
    Keeps s0 (if c then s else t) := by
  split <;> assumption

/-- A fold over a list keeps what each of its steps keeps. -/
theorem keeps_foldl {α : Type} {s0 : State} {f : State → α → State} {l : List α} {s : State}
    (hf : ∀ t x, Keeps s0 t → Keeps s0 (f t x)) (h : Keeps s0 s) : Keeps s0 (l.foldl f s) := by
  induction l generalizing s with
  | nil => exact h
  | cons a r ih => exact ih (hf s a h)

/-- The same for a fold whose accumulator holds a state in some place. -/
theorem keeps_foldl_in {α β : Type} {s0 : State} (g : β → State) {f : β → α → β} {l : List α} {b : β}
    (hf : ∀ t x, Keeps s0 (g t) → Keeps s0 (g (f t x))) (h : Keeps s0 (g b)) : Keeps s0 (g (l.foldl f b)) := by
  induction l generalizing b with
  | nil => exact h
  | cons a r ih => exact ih (hf b a h)

theorem keeps_foldl_snd {α γ : Type} {s0 : State} {f : γ × State → α → γ × State} {l : List α} {b : γ × State}
    (hf : ∀ t x, Keeps s0 t.2 → Keeps s0 (f t x).2) (h : Keeps s0 b.2) : Keeps s0 (l.foldl f b).2 :=
  keeps_foldl_in (fun b : γ × State => b.2) hf h

theorem keeps_foldl_third {α γ δ : Type} {s0 : State} {f : γ × δ × State → α → γ × δ × State} {l : List α}
    {b : γ × δ × State} (hf : ∀ t x, Keeps s0 t.2.2 → Keeps s0 (f t x).2.2) (h : Keeps s0 b.2.2) :
    Keeps s0 (l.foldl f b).2.2 :=
  keeps_foldl_in (fun b : γ × δ × State => b.2.2) hf h

theorem keeps_foldl_fst {α γ : Type} {s0 : State} {f : State × γ → α → State × γ} {l : List α} {b : State × γ}
    (hf : ∀ t x, Keeps s0 t.1 → Keeps s0 (f t x).1) (h : Keeps s0 b.1) : Keeps s0 (l.foldl f b).1 :=
  keeps_foldl_in (fun b : State × γ => b.1) hf h

/-- A loss of power: HBM lists nothing, and what Keeps speaks of otherwise stays. -/
theorem keeps_cleared {s0 s t : State} (h1 : t.pending = s.pending) (h2 : t.out = s.out) (h3 : t.hbm = [])
    (h4 : t.trs.uds = s.trs.uds) (h5 : t.trs.rootHash = s.trs.rootHash) (h6 : t.trs.svnFloor = s.trs.svnFloor)
    (h7 : t.trs.revoke = s.trs.revoke) (h8 : t.trs.flash = s.trs.flash) (h : Keeps s0 s) : Keeps s0 t := by
  refine keeps_trans h ⟨h1, ?_, ?_, h4, h5, h7, fun i _ => ?_⟩
  · rw [h2]
  · intro hw
    simp only [State.memWf, Bool.and_eq_true] at hw ⊢
    rw [h3, h8]
    exact ⟨rfl, hw.2⟩
  · rw [h6]

/-- Put something on an output. -/
theorem State.emit_keeps {s0 s : State} (o : Out) (h : Keeps s0 s) : Keeps s0 (s.emit o) := by
  refine keeps_trans h ⟨rfl, ?_, id, rfl, rfl, rfl, fun _ _ => Nat.le_refl _⟩
  exact ⟨[o], rfl⟩

/-- A change of HBM that keeps its canonical form. -/
theorem keeps_hbm {s0 s : State} {m : Tab Byte} (hm : Tab.wf hbmFill s.hbm = true → Tab.wf hbmFill m = true) (h : Keeps s0 s) :
    Keeps s0 { s with hbm := m } := by
  refine keeps_trans h ⟨rfl, List.prefix_rfl, ?_, rfl, rfl, rfl, fun _ _ => Nat.le_refl _⟩
  intro hw
  simp only [State.memWf, Bool.and_eq_true] at hw ⊢
  exact ⟨hm hw.1, hw.2⟩

/-- Write one byte of HBM. -/
theorem State.setByte_keeps {s0 s : State} (a : Nat) (b : Byte) (h : Keeps s0 s) : Keeps s0 (s.setByte a b) :=
  keeps_hbm (Tab.wf_set a b) h

/-- Write bytes to HBM. -/
theorem State.setBytes_keeps {s0 s : State} (a : Nat) (bs : List Byte) (h : Keeps s0 s) : Keeps s0 (s.setBytes a bs) := by
  induction bs generalizing s a with
  | nil => exact h
  | cons b r ih => exact ih (a + 1) (State.setByte_keeps a b h)

/-- Set bytes of HBM to 0. -/
theorem State.zero_keeps {s0 s : State} (a n : Nat) (h : Keeps s0 s) : Keeps s0 (s.zero a n) :=
  keeps_hbm (Tab.wf_filter _) h

end Sys2Proof.Machine
end

