-- ==== Sys2Proof/Laws/KeepsRegs.lean ====
section
/-! SUPPORT. What the operations of Machine/Regs.lean leave as it was (Keeps). -/

set_option linter.unusedTactic false
set_option linter.unreachableTactic false
set_option linter.unusedVariables false
set_option linter.unusedSimpArgs false

namespace Sys2Proof.Machine

theorem State.setReg_keeps {s0 s : State} (pg : Page) (off : Nat) (v : Word)  (hK : Keeps s0 s) : Keeps s0 (State.setReg s pg off v) := by
  unfold State.setReg
  repeat' (first
    | with_reducible (first | assumption)
    | (simp only [keeps_mk]; with_reducible apply keepsOn_of)
    | dsimp only
    | intro _)

end Sys2Proof.Machine
end

