-- ==== Sys2Proof/Laws/KeepsBase.lean ====
section
/-! SUPPORT. What the operations of Machine/Base.lean leave as it was (Keeps). -/

set_option linter.unusedTactic false
set_option linter.unreachableTactic false
set_option linter.unusedVariables false
set_option linter.unusedSimpArgs false

namespace Sys2Proof.Machine

theorem State.setWord_keeps {s0 s : State} (a : Nat) (w : Word)  (hK : Keeps s0 s) : Keeps s0 (State.setWord s a w) := by
  unfold State.setWord
  repeat' (first
    | with_reducible (first | assumption | apply State.setBytes_keeps)
    | dsimp only
    | intro _)

theorem State.markBad_keeps {s0 s : State} (a : Nat)  (hK : Keeps s0 s) : Keeps s0 (State.markBad s a) := by
  unfold State.markBad
  repeat' (first
    | with_reducible (first | assumption)
    | (simp only [keeps_mk]; with_reducible apply keepsOn_of)
    | split
    | dsimp only
    | intro _)

theorem State.setOwn_keeps {s0 s : State} (ty : Nat) (id : Nat) (o : Own)  (hK : Keeps s0 s) : Keeps s0 (State.setOwn s ty id o) := by
  unfold State.setOwn
  repeat' (first
    | with_reducible (first | assumption)
    | (simp only [keeps_mk]; with_reducible apply keepsOn_of)
    | split
    | dsimp only
    | intro _)

theorem State.setPart_keeps {s0 s : State} (p : Nat) (x : Part)  (hK : Keeps s0 s) : Keeps s0 (State.setPart s p x) := by
  unfold State.setPart
  repeat' (first
    | with_reducible (first | assumption)
    | (simp only [keeps_mk]; with_reducible apply keepsOn_of)
    | dsimp only
    | intro _)

theorem State.setVi_keeps {s0 s : State} (v : Nat) (x : Vi)  (hK : Keeps s0 s) : Keeps s0 (State.setVi s v x) := by
  unfold State.setVi
  repeat' (first
    | with_reducible (first | assumption)
    | (simp only [keeps_mk]; with_reducible apply keepsOn_of)
    | dsimp only
    | intro _)

theorem State.setRing_keeps {s0 s : State} (r : Nat) (x : Ring)  (hK : Keeps s0 s) : Keeps s0 (State.setRing s r x) := by
  unfold State.setRing
  repeat' (first
    | with_reducible (first | assumption)
    | (simp only [keeps_mk]; with_reducible apply keepsOn_of)
    | dsimp only
    | intro _)

theorem State.setGate_keeps {s0 s : State} (c : Nat) (g : Gate)  (hK : Keeps s0 s) : Keeps s0 (State.setGate s c g) := by
  unfold State.setGate
  repeat' (first
    | with_reducible (first | assumption)
    | (simp only [keeps_mk]; with_reducible apply keepsOn_of)
    | dsimp only
    | intro _)

theorem State.msix_keeps {s0 s : State} (vec : Nat)  (hK : Keeps s0 s) : Keeps s0 (State.msix s vec) := by
  unfold State.msix
  repeat' (first
    | with_reducible (first | assumption | apply State.emit_keeps)
    | (simp only [keeps_mk]; with_reducible apply keepsOn_of)
    | split
    | dsimp only
    | intro _)

theorem State.sendPageIrq_keeps {s0 s : State} (pg : Page)  (hK : Keeps s0 s) : Keeps s0 (State.sendPageIrq s pg) := by
  unfold State.sendPageIrq
  repeat' (first
    | with_reducible (first | assumption | apply State.msix_keeps)
    | dsimp only
    | intro _)

theorem State.intRaise_keeps {s0 s : State} (pg : Page) (bits : Word)  (hK : Keeps s0 s) : Keeps s0 (State.intRaise s pg bits) := by
  unfold State.intRaise
  repeat' (first
    | with_reducible (first | assumption | apply State.setReg_keeps | apply State.sendPageIrq_keeps)
    | split
    | dsimp only
    | intro _)

theorem State.counterWrapped_keeps {s0 s : State} (pg : Page) (i : Nat)  (hK : Keeps s0 s) : Keeps s0 (State.counterWrapped s pg i) := by
  unfold State.counterWrapped
  repeat' (first
    | with_reducible (first | assumption | apply State.setReg_keeps | apply State.intRaise_keeps)
    | split
    | dsimp only
    | intro _)

theorem State.counterAdd_keeps {s0 s : State} (pg : Page) (i : Nat) (n : Nat)  (hK : Keeps s0 s) : Keeps s0 (State.counterAdd s pg i n) := by
  unfold State.counterAdd
  repeat' (first
    | with_reducible (first | assumption | apply State.setReg_keeps | apply State.counterWrapped_keeps)
    | split
    | dsimp only
    | intro _)

theorem State.countHere_keeps {s0 s : State} (pg : Page) (code : Nat) (n : Nat)  (hK : Keeps s0 s) : Keeps s0 (State.countHere s pg code n) := by
  unfold State.countHere
  repeat' (first
    | with_reducible (first | assumption | apply State.counterAdd_keeps | refine keeps_foldl (fun _ _ _ => ?_) ?_)
    | split
    | dsimp only
    | intro _)

theorem State.setChan_keeps {s0 s : State} (side : Side) (cls : MsgClass) (b : BChan)  (hK : Keeps s0 s) : Keeps s0 (State.setChan s side cls b) := by
  unfold State.setChan
  repeat' (first
    | with_reducible (first | assumption)
    | (simp only [keeps_mk]; with_reducible apply keepsOn_of)
    | split
    | dsimp only
    | intro _)

theorem State.frameRaw_keeps {s0 s : State} (side : Side) (cls : MsgClass) (typ : Nat) (payload : List Nat)  (hK : Keeps s0 s) : Keeps s0 (State.frameRaw s side cls typ payload) := by
  unfold State.frameRaw
  repeat' (first
    | with_reducible (first | assumption | apply State.setChan_keeps | apply State.emit_keeps | apply State.countHere_keeps)
    | (simp only [keeps_mk]; with_reducible apply keepsOn_of)
    | dsimp only
    | intro _)

theorem State.fieldIrq_keeps {s0 s : State} (pg : Page)  (hK : Keeps s0 s) : Keeps s0 (State.fieldIrq s pg) := by
  unfold State.fieldIrq
  repeat' (first
    | with_reducible (first | assumption | apply State.frameRaw_keeps | apply State.setChan_keeps)
    | (simp only [keeps_mk]; with_reducible apply keepsOn_of)
    | split
    | dsimp only
    | intro _)

theorem State.intCross_keeps {s0 s old : State} (pg : Page)  (hK : Keeps s0 s) (hKold : Keeps s0 old) : Keeps s0 (State.intCross s old pg) := by
  unfold State.intCross
  repeat' (first
    | with_reducible (first | assumption | apply State.fieldIrq_keeps)
    | split
    | dsimp only
    | intro _)

theorem State.frameOut_keeps {s0 s : State} (side : Side) (cls : MsgClass) (typ : Nat) (payload : List Nat)  (hK : Keeps s0 s) : Keeps s0 (State.frameOut s side cls typ payload) := by
  unfold State.frameOut
  repeat' (first
    | with_reducible (first | assumption | apply State.frameRaw_keeps | apply State.intCross_keeps)
    | dsimp only
    | intro _)

theorem State.setInt_keeps {s0 s : State} (pg : Page) (bits : Word)  (hK : Keeps s0 s) : Keeps s0 (State.setInt s pg bits) := by
  unfold State.setInt
  repeat' (first
    | with_reducible (first | assumption | apply State.intRaise_keeps | apply State.intCross_keeps)
    | dsimp only
    | intro _)

theorem State.setIntBit_keeps {s0 s : State} (pg : Page) (b : Nat)  (hK : Keeps s0 s) : Keeps s0 (State.setIntBit s pg b) := by
  unfold State.setIntBit
  repeat' (first
    | with_reducible (first | assumption | apply State.setInt_keeps)
    | dsimp only
    | intro _)

theorem State.count_keeps {s0 s : State} (pg : Page) (code : Nat) (n : Nat)  (hK : Keeps s0 s) : Keeps s0 (State.count s pg code n) := by
  unfold State.count
  repeat' (first
    | with_reducible (first | assumption | apply State.countHere_keeps | apply State.intCross_keeps)
    | dsimp only
    | intro _)

theorem State.count1_keeps {s0 s : State} (b : Blk) (code : Nat)  (hK : Keeps s0 s) : Keeps s0 (State.count1 s b code) := by
  unfold State.count1
  repeat' (first
    | with_reducible (first | assumption | apply State.count_keeps)
    | dsimp only
    | intro _)

theorem State.sendRaises_keeps {s0 s : State}   (hK : Keeps s0 s) : Keeps s0 (State.sendRaises s) := by
  unfold State.sendRaises
  repeat' (first
    | with_reducible (first | assumption | apply State.frameOut_keeps | refine keeps_foldl (fun _ _ _ => ?_) ?_)
    | (simp only [keeps_mk]; with_reducible apply keepsOn_of)
    | split
    | dsimp only
    | intro _)

theorem State.barrierSend_keeps {s0 s : State} (side : Side) (cls : MsgClass) (typ : Nat) (payload : List Nat)  (hK : Keeps s0 s) : Keeps s0 (State.barrierSend s side cls typ payload) := by
  unfold State.barrierSend
  repeat' (first
    | with_reducible (first | assumption | apply State.sendRaises_keeps | apply State.frameOut_keeps | apply State.setChan_keeps)
    | (simp only [keeps_mk]; with_reducible apply keepsOn_of)
    | split
    | dsimp only
    | intro _)

theorem State.latch_keeps {s0 s : State} (pg : Page) (unit : Nat) (bit : Nat) (part : Nat) (lasting : Bool)  (hK : Keeps s0 s) : Keeps s0 (State.latch s pg unit bit part lasting) := by
  unfold State.latch
  repeat' (first
    | with_reducible (first | assumption | apply State.count_keeps | apply State.count1_keeps | apply State.setIntBit_keeps | apply State.sendRaises_keeps)
    | (simp only [keeps_mk]; with_reducible apply keepsOn_of)
    | split
    | dsimp only
    | intro _)

theorem State.err_keeps {s0 s : State} (b : Blk) (bit : Nat)  (hK : Keeps s0 s) : Keeps s0 (State.err s b bit) := by
  unfold State.err
  repeat' (first
    | with_reducible (first | assumption | apply State.latch_keeps)
    | dsimp only
    | intro _)

theorem State.errFor_keeps {s0 s : State} (b : Blk) (bit : Nat) (p : Nat)  (hK : Keeps s0 s) : Keeps s0 (State.errFor s b bit p) := by
  unfold State.errFor
  repeat' (first
    | with_reducible (first | assumption | apply State.latch_keeps)
    | dsimp only
    | intro _)

theorem State.refuse_keeps {s0 s : State} (pg : Page) (off : Nat)  (hK : Keeps s0 s) : Keeps s0 (State.refuse s pg off) := by
  unfold State.refuse
  repeat' (first
    | with_reducible (first | assumption | apply State.setReg_keeps | apply State.setIntBit_keeps)
    | split
    | dsimp only
    | intro _)

theorem State.swapFlag_keeps {s0 s : State} (pg : Page) (b : Nat)  (hK : Keeps s0 s) : Keeps s0 (State.swapFlag s pg b) := by
  unfold State.swapFlag
  repeat' (first
    | with_reducible (first | assumption | apply State.setReg_keeps | apply State.setIntBit_keeps)
    | split
    | dsimp only
    | intro _)

theorem State.swapReject_keeps {s0 s : State} (pg : Page) (off : Nat)  (hK : Keeps s0 s) : Keeps s0 (State.swapReject s pg off) := by
  unfold State.swapReject
  repeat' (first
    | with_reducible (first | assumption | apply State.setReg_keeps | apply State.setIntBit_keeps)
    | dsimp only
    | intro _)

theorem State.swapLive_keeps {s0 s : State} (pg : Page)  (hK : Keeps s0 s) : Keeps s0 (State.swapLive s pg) := by
  unfold State.swapLive
  repeat' (first
    | with_reducible (first | assumption | apply State.setReg_keeps | apply State.setIntBit_keeps | refine keeps_foldl (fun _ _ _ => ?_) ?_)
    | dsimp only
    | intro _)

theorem State.swapFirst_keeps {s0 s : State} (pg : Page) (checks : List (Nat × Bool))  (hK : Keeps s0 s) : Keeps s0 (State.swapFirst s pg checks) := by
  unfold State.swapFirst
  repeat' (first
    | with_reducible (first | assumption | apply State.swapReject_keeps | apply State.swapLive_keeps)
    | split
    | dsimp only
    | intro _)

theorem State.setSync_keeps {s0 s : State} (o : Nat) (v : Word)  (hK : Keeps s0 s) : Keeps s0 (State.setSync s o v) := by
  unfold State.setSync
  repeat' (first
    | with_reducible (first | assumption)
    | (simp only [keeps_mk]; with_reducible apply keepsOn_of)
    | dsimp only
    | intro _)

theorem State.dirtyPage_keeps {s0 s : State} (v : Nat) (page : Nat)  (hK : Keeps s0 s) : Keeps s0 (State.dirtyPage s v page) := by
  unfold State.dirtyPage
  repeat' (first
    | with_reducible (first | assumption | apply State.setByte_keeps | apply State.count1_keeps | apply State.setVi_keeps)
    | (simp only [keeps_mk]; with_reducible apply keepsOn_of)
    | split
    | dsimp only
    | intro _)

theorem State.dirty_keeps {s0 s : State} (v : Nat) (addr : Nat) (len : Nat)  (hK : Keeps s0 s) : Keeps s0 (State.dirty s v addr len) := by
  unfold State.dirty
  repeat' (first
    | with_reducible (first | assumption | apply State.dirtyPage_keeps | refine keeps_foldl (fun _ _ _ => ?_) ?_)
    | split
    | dsimp only
    | intro _)

theorem State.hostWrite_keeps {s0 s : State} (v : Option Nat) (addr : Nat) (data : List Byte)  (hK : Keeps s0 s) : Keeps s0 (State.hostWrite s v addr data) := by
  unfold State.hostWrite
  repeat' (first
    | with_reducible (first | assumption | apply State.dirty_keeps | apply State.count1_keeps | apply State.emit_keeps | apply State.drop_keeps | refine keeps_foldl (fun _ _ _ => ?_) ?_)
    | split
    | dsimp only
    | intro _)

theorem State.store_keeps {s0 s : State} (hbm : Bool) (v : Option Nat) (addr : Nat) (data : List Byte)  (hK : Keeps s0 s) : Keeps s0 (State.store s hbm v addr data) := by
  unfold State.store
  repeat' (first
    | with_reducible (first | assumption | apply State.setBytes_keeps | apply State.hostWrite_keeps)
    | split
    | dsimp only
    | intro _)

theorem State.viVector_keeps {s0 s : State} (v : Nat) (n : Nat)  (hK : Keeps s0 s) : Keeps s0 (State.viVector s v n) := by
  unfold State.viVector
  repeat' (first
    | with_reducible (first | assumption | apply State.setVi_keeps | apply State.hostWrite_keeps)
    | (simp only [keeps_mk]; with_reducible apply keepsOn_of)
    | split
    | dsimp only
    | intro _)

theorem State.ringIrq_keeps {s0 s : State} (r : Ring)  (hK : Keeps s0 s) : Keeps s0 (State.ringIrq s r) := by
  unfold State.ringIrq
  repeat' (first
    | with_reducible (first | assumption | apply State.viVector_keeps | apply State.msix_keeps)
    | split
    | dsimp only
    | intro _)

theorem State.ringEntry_keeps {s0 s : State} (n : Nat) (w0 : Word) (w1 : Word) (w2 : Word) (w3 : Word)  (hK : Keeps s0 s) : Keeps s0 (State.ringEntry s n w0 w1 w2 w3) := by
  unfold State.ringEntry
  repeat' (first
    | with_reducible (first | assumption | apply State.store_keeps | apply State.setRing_keeps)
    | (simp only [keeps_mk]; with_reducible apply keepsOn_of)
    | dsimp only
    | intro _)

theorem State.ringPut_keeps {s0 s : State} (n : Nat) (w0 : Word) (w1 : Word) (w2 : Word) (w3 : Word)  (hK : Keeps s0 s) : Keeps s0 (State.ringPut s n w0 w1 w2 w3) := by
  unfold State.ringPut
  repeat' (first
    | with_reducible (first | assumption | apply State.ringEntry_keeps | apply State.count_keeps | apply State.ringIrq_keeps)
    | split
    | dsimp only
    | intro _)

theorem State.wake_keeps {s0 s : State} (b : Nat)  (hK : Keeps s0 s) : Keeps s0 (State.wake s b) := by
  unfold State.wake
  repeat' (first
    | with_reducible (first | assumption | apply State.emit_keeps)
    | (simp only [keeps_mk]; with_reducible apply keepsOn_of)
    | split
    | dsimp only
    | intro _)

theorem State.eventLost_keeps {s0 s : State}   (hK : Keeps s0 s) : Keeps s0 (State.eventLost s) := by
  unfold State.eventLost
  repeat' (first
    | with_reducible (first | assumption | apply State.count1_keeps | apply State.err_keeps)
    | dsimp only
    | intro _)

theorem State.eventPut_keeps {s0 s : State} (n : Nat) (w0 : Word) (w1 : Word) (w2 : Word) (w3 : Word)  (hK : Keeps s0 s) : Keeps s0 (State.eventPut s n w0 w1 w2 w3) := by
  unfold State.eventPut
  repeat' (first
    | with_reducible (first | assumption | apply State.ringPut_keeps | apply State.wake_keeps)
    | split
    | dsimp only
    | intro _)

theorem State.overflow_keeps {s0 s : State} (n : Nat)  (hK : Keeps s0 s) : Keeps s0 (State.overflow s n) := by
  unfold State.overflow
  repeat' (first
    | with_reducible (first | assumption | apply State.eventPut_keeps | apply State.setRing_keeps)
    | (simp only [keeps_mk]; with_reducible apply keepsOn_of)
    | split
    | dsimp only
    | intro _)

theorem State.eventRing_keeps {s0 s : State} (n : Nat) (typ : Nat) (st : Status) (obj : Nat) (w1 : Word) (w2 : Word) (w3 : Word)  (hK : Keeps s0 s) : Keeps s0 (State.eventRing s n typ st obj w1 w2 w3) := by
  unfold State.eventRing
  repeat' (first
    | with_reducible (first | assumption | apply State.overflow_keeps | apply State.eventLost_keeps | apply State.eventPut_keeps | apply State.setRing_keeps | apply State.count1_keeps)
    | (simp only [keeps_mk]; with_reducible apply keepsOn_of)
    | split
    | dsimp only
    | intro _)

theorem State.event_keeps {s0 s : State} (p : Nat) (typ : Nat) (st : Status) (obj : Nat) (w1 : Word) (w2 : Word) (w3 : Word)  (hK : Keeps s0 s) : Keeps s0 (State.event s p typ st obj w1 w2 w3) := by
  unfold State.event
  repeat' (first
    | with_reducible (first | assumption | apply State.eventRing_keeps | apply State.eventLost_keeps)
    | split
    | dsimp only
    | intro _)

end Sys2Proof.Machine
end

