-- ==== Sys2Proof/Laws/KeepsPools.lean ====
section
/-! SUPPORT. What the operations of Machine/Pools.lean leave as it was (Keeps). -/

set_option linter.unusedTactic false
set_option linter.unreachableTactic false
set_option linter.unusedVariables false
set_option linter.unusedSimpArgs false

namespace Sys2Proof.Machine

theorem State.updPool_keeps {s0 s : State} (k : Nat) (f : Pool → Pool)  (hK : Keeps s0 s) : Keeps s0 (State.updPool s k f) := by
  unfold State.updPool
  repeat' (first
    | with_reducible (first | assumption)
    | (simp only [keeps_mk]; with_reducible apply keepsOn_of)
    | dsimp only
    | intro _)

theorem State.poolLow_keeps {s0 s : State} (k : Nat)  (hK : Keeps s0 s) : Keeps s0 (State.poolLow s k) := by
  unfold State.poolLow
  repeat' (first
    | with_reducible (first | assumption | apply State.updPool_keeps | apply State.setIntBit_keeps | apply State.event_keeps)
    | (simp only [keeps_mk]; with_reducible apply keepsOn_of)
    | split
    | dsimp only
    | intro _)

theorem State.openBytes_keeps {s0 s : State} (a : Nat) (n : Nat)  (hK : Keeps s0 s) : Keeps s0 (State.openBytes s a n) := by
  unfold State.openBytes
  repeat' (first
    | with_reducible (first | assumption | apply State.setBytes_keeps)
    | (simp only [keeps_mk]; with_reducible apply keepsOn_of)
    | dsimp only
    | intro _)

theorem State.slotStore_keeps {s0 s : State} (k : Nat) (n : Nat)  (hK : Keeps s0 s) : Keeps s0 (State.slotStore s k n) := by
  unfold State.slotStore
  repeat' (first
    | with_reducible (first | assumption | apply State.openBytes_keeps)
    | split
    | dsimp only
    | intro _)

theorem State.allocSlots_keeps {s0 s : State} (k : Nat) (n : Nat)  (hK : Keeps s0 s) : Keeps s0 (State.allocSlots s k n).2 := by
  unfold State.allocSlots
  repeat' (first
    | with_reducible (first | assumption | apply State.count_keeps | apply State.slotStore_keeps | apply State.updPool_keeps | apply State.poolLow_keeps | refine keeps_foldl (fun _ _ _ => ?_) ?_ | refine keeps_foldl_third (fun _ _ _ => ?_) ?_ | refine keeps_foldl_snd (fun _ _ _ => ?_) ?_ | refine keeps_foldl_fst (fun _ _ _ => ?_) ?_)
    | split
    | dsimp only
    | intro _)

theorem State.allocSlots_keeps_of {s0 t s : State} {k : Nat} {n : Nat}  {y0 : List Nat} (he : (State.allocSlots s k n) = (y0, t)) (hK : Keeps s0 s) : Keeps s0 t := by
  have hk := State.allocSlots_keeps (s0 := s0) k n hK
  rw [he] at hk
  exact hk

theorem State.releaseSlot_keeps {s0 s : State} (k : Nat) (n : Nat)  (hK : Keeps s0 s) : Keeps s0 (State.releaseSlot s k n) := by
  unfold State.releaseSlot
  repeat' (first
    | with_reducible (first | assumption | apply State.updPool_keeps | apply State.slotStore_keeps | apply State.count_keeps | apply State.poolLow_keeps)
    | (simp only [keeps_mk]; with_reducible apply keepsOn_of)
    | split
    | dsimp only
    | intro _)

theorem State.setSeq_keeps {s0 s : State} (q : Nat) (x : Seq)  (hK : Keeps s0 s) : Keeps s0 (State.setSeq s q x) := by
  unfold State.setSeq
  repeat' (first
    | with_reducible (first | assumption | apply State.openBytes_keeps)
    | (simp only [keeps_mk]; with_reducible apply keepsOn_of)
    | split
    | dsimp only
    | intro _)

theorem State.setTokens_keeps {s0 s : State} (x : Seq) (l : Nat) (n : Nat)  (hK : Keeps s0 s) : Keeps s0 (State.setTokens s x l n) := by
  unfold State.setTokens
  repeat' (first
    | with_reducible (first | assumption | apply State.setBytes_keeps)
    | dsimp only
    | intro _)

theorem State.setHandle_keeps {s0 s : State} (x : Seq) (l : Nat) (g : Nat) (b : Nat) (v : Option Nat)  (hK : Keeps s0 s) : Keeps s0 (State.setHandle s x l g b v) := by
  unfold State.setHandle
  repeat' (first
    | with_reducible (first | assumption | apply State.setBytes_keeps)
    | split
    | dsimp only
    | intro _)

theorem State.useSeq_keeps {s0 s : State} (q : Nat)  (hK : Keeps s0 s) : Keeps s0 (State.useSeq s q).2 := by
  unfold State.useSeq
  repeat' (first
    | with_reducible (first | assumption | apply State.setSeq_keeps)
    | (simp only [keeps_mk]; with_reducible apply keepsOn_of)
    | dsimp only
    | intro _)

theorem State.useSeq_keeps_of {s0 t s : State} {q : Nat}  {y0 : Nat} (he : (State.useSeq s q) = (y0, t)) (hK : Keeps s0 s) : Keeps s0 t := by
  have hk := State.useSeq_keeps (s0 := s0) q hK
  rw [he] at hk
  exact hk

theorem State.settleDeferred_keeps {s0 s : State} (q : Nat)  (hK : Keeps s0 s) : Keeps s0 (State.settleDeferred s q) := by
  unfold State.settleDeferred
  repeat' (first
    | with_reducible (first | assumption | apply State.setSeq_keeps | apply State.releaseSlot_keeps | refine keeps_foldl (fun _ _ _ => ?_) ?_)
    | (simp only [keeps_mk]; with_reducible apply keepsOn_of)
    | dsimp only
    | intro _)

theorem State.unuseSeq_keeps {s0 s : State} (q : Nat) (n : Nat)  (hK : Keeps s0 s) : Keeps s0 (State.unuseSeq s q n) := by
  unfold State.unuseSeq
  repeat' (first
    | with_reducible (first | assumption | apply State.setSeq_keeps | apply State.settleDeferred_keeps)
    | (simp only [keeps_mk]; with_reducible apply keepsOn_of)
    | dsimp only
    | intro _)

theorem State.clearHandles_keeps {s0 s : State} (x : Seq) (l : Nat) (b0 : Nat) (b1 : Nat) (slots : List Nat)  (hK : Keeps s0 s) : Keeps s0 (State.clearHandles s x l b0 b1 slots) := by
  unfold State.clearHandles
  repeat' (first
    | with_reducible (first | assumption | apply State.setHandle_keeps | refine keeps_foldl (fun _ _ _ => ?_) ?_)
    | split
    | dsimp only
    | intro _)

theorem State.ingestUndo_keeps {s0 s : State} (ws : List Word) (alloc : List Nat)  (hK : Keeps s0 s) : Keeps s0 (State.ingestUndo s ws alloc) := by
  unfold State.ingestUndo
  repeat' (first
    | with_reducible (first | assumption | apply State.clearHandles_keeps | apply State.releaseSlot_keeps | refine keeps_foldl (fun _ _ _ => ?_) ?_)
    | dsimp only
    | intro _)

theorem State.poisonPool_keeps {s0 s : State} (k : Nat) (a : Nat) (len : Nat)  (hK : Keeps s0 s) : Keeps s0 (State.poisonPool s k a len) := by
  unfold State.poisonPool
  repeat' (first
    | with_reducible (first | assumption | apply State.updPool_keeps | apply State.count_keeps | apply State.slotStore_keeps | apply State.event_keeps | apply State.poolLow_keeps | refine keeps_foldl (fun _ _ _ => ?_) ?_)
    | (simp only [keeps_mk]; with_reducible apply keepsOn_of)
    | split
    | dsimp only
    | intro _)

theorem State.poisonAt_keeps {s0 s : State} (a : Nat) (len : Nat)  (hK : Keeps s0 s) : Keeps s0 (State.poisonAt s a len) := by
  unfold State.poisonAt
  repeat' (first
    | with_reducible (first | assumption | apply State.poisonPool_keeps | refine keeps_foldl (fun _ _ _ => ?_) ?_)
    | dsimp only
    | intro _)

theorem State.retirePage_keeps {s0 s : State} (addr : Nat)  (hK : Keeps s0 s) : Keeps s0 (State.retirePage s addr) := by
  unfold State.retirePage
  repeat' (first
    | with_reducible (first | assumption | apply State.setIntBit_keeps | apply State.poisonAt_keeps | apply State.latch_keeps)
    | (simp only [keeps_mk]; with_reducible apply keepsOn_of)
    | split
    | dsimp only
    | intro _)

end Sys2Proof.Machine
end

