-- ==== Sys2Proof/Laws/KeepsSync.lean ====
section
/-! SUPPORT. What the operations of Machine/Sync.lean leave as it was (Keeps). -/

set_option linter.unusedTactic false
set_option linter.unreachableTactic false
set_option linter.unusedVariables false
set_option linter.unusedSimpArgs false

namespace Sys2Proof.Machine

theorem State.watch_keeps {s0 s : State} (o : Nat) (w : Nat)  (hK : Keeps s0 s) : Keeps s0 (State.watch s o w) := by
  unfold State.watch
  repeat' (first
    | with_reducible (first | assumption | apply State.setReg_keeps | apply State.setIntBit_keeps)
    | split
    | dsimp only
    | intro _)

theorem State.syncSettle_keeps {s0 s : State} (o : Nat)  (hK : Keeps s0 s) : Keeps s0 (State.syncSettle s o) := by
  unfold State.syncSettle
  repeat' (first
    | with_reducible (first | assumption | apply State.release_keeps | apply State.count_keeps | apply State.watch_keeps | refine keeps_foldl (fun _ _ _ => ?_) ?_)
    | (simp only [keeps_mk]; with_reducible apply keepsOn_of)
    | split
    | dsimp only
    | intro _)

theorem State.swapSyn_keeps {s0 s : State}   (hK : Keeps s0 s) : Keeps s0 (State.swapSyn s) := by
  unfold State.swapSyn
  repeat' (first
    | with_reducible (first | assumption | apply State.watch_keeps | refine keeps_foldl (fun _ _ _ => ?_) ?_)
    | dsimp only
    | intro _)

theorem State.synTake_keeps {s0 s : State}   (hK : Keeps s0 s) : Keeps s0 (State.synTake s) := by
  unfold State.synTake
  repeat' (first
    | with_reducible (first | assumption | apply State.swapFirst_keeps | apply State.swapSyn_keeps)
    | split
    | dsimp only
    | intro _)

theorem State.syncAdd_keeps {s0 s : State} (o : Nat) (v : Word)  (hK : Keeps s0 s) : Keeps s0 (State.syncAdd s o v) := by
  unfold State.syncAdd
  repeat' (first
    | with_reducible (first | assumption | apply State.synTake_keeps | apply State.setSync_keeps | apply State.count1_keeps | apply State.syncSettle_keeps | apply State.err_keeps | apply State.event_keeps)
    | split
    | dsimp only
    | intro _)

theorem State.syncSet_keeps {s0 s : State} (o : Nat) (v : Word)  (hK : Keeps s0 s) : Keeps s0 (State.syncSet s o v) := by
  unfold State.syncSet
  repeat' (first
    | with_reducible (first | assumption | apply State.synTake_keeps | apply State.setSync_keeps | apply State.count1_keeps | apply State.syncSettle_keeps)
    | dsimp only
    | intro _)

theorem State.syncRead_keeps {s0 s : State} (o : Nat)  (hK : Keeps s0 s) : Keeps s0 (State.syncRead s o).2 := by
  unfold State.syncRead
  repeat' (first
    | with_reducible (first | assumption | apply State.synTake_keeps | apply State.count1_keeps)
    | dsimp only
    | intro _)

theorem State.syncRead_keeps_of {s0 t s : State} {o : Nat}  {y0 : Word} (he : (State.syncRead s o) = (y0, t)) (hK : Keeps s0 s) : Keeps s0 t := by
  have hk := State.syncRead_keeps (s0 := s0) o hK
  rw [he] at hk
  exact hk

end Sys2Proof.Machine
end

