-- ==== Sys2Proof/Laws/KeepsDrives.lean ====
section
/-! SUPPORT. What the operations of Machine/Drives.lean leave as it was (Keeps). -/

set_option linter.unusedTactic false
set_option linter.unreachableTactic false
set_option linter.unusedVariables false
set_option linter.unusedSimpArgs false

namespace Sys2Proof.Machine

theorem State.setNs_keeps {s0 s : State} (n : Nat) (x : Ns)  (hK : Keeps s0 s) : Keeps s0 (State.setNs s n x) := by
  unfold State.setNs
  repeat' (first
    | with_reducible (first | assumption)
    | (simp only [keeps_mk]; with_reducible apply keepsOn_of)
    | dsimp only
    | intro _)

theorem State.driveCmd_keeps {s0 s : State} (n : Nat) (x : Ns) (write : Bool) (fua : Bool) (use : DriveUse) (data : List Byte) (slba : Nat) (pc : Extent × Nat × Nat × Nat)  (hK : Keeps s0 s) : Keeps s0 (State.driveCmd s n x write fua use data slba pc).2 := by
  unfold State.driveCmd
  repeat' (first
    | with_reducible (first | assumption | apply State.drop_keeps | apply State.count_keeps | apply State.emit_keeps)
    | (simp only [keeps_mk]; with_reducible apply keepsOn_of)
    | split
    | dsimp only
    | intro _)

theorem State.driveCmd_keeps_of {s0 t s : State} {n : Nat} {x : Ns} {write : Bool} {fua : Bool} {use : DriveUse} {data : List Byte} {slba : Nat} {pc : Extent × Nat × Nat × Nat}  {y0 : Nat} (he : (State.driveCmd s n x write fua use data slba pc) = (y0, t)) (hK : Keeps s0 s) : Keeps s0 t := by
  have hk := State.driveCmd_keeps (s0 := s0) n x write fua use data slba pc hK
  rw [he] at hk
  exact hk

theorem State.driveIo_keeps {s0 s : State} (n : Nat) (write : Bool) (fua : Bool) (slba : Nat) (nlb : Nat) (use : DriveUse) (data : List Byte)  (hK : Keeps s0 s) : Keeps s0 (State.driveIo s n write fua slba nlb use data).2 := by
  unfold State.driveIo
  repeat' (first
    | with_reducible (first | assumption | apply State.driveCmd_keeps | refine keeps_foldl (fun _ _ _ => ?_) ?_ | refine keeps_foldl_third (fun _ _ _ => ?_) ?_ | refine keeps_foldl_snd (fun _ _ _ => ?_) ?_ | refine keeps_foldl_fst (fun _ _ _ => ?_) ?_)
    | dsimp only
    | intro _)

theorem State.driveIo_keeps_of {s0 t s : State} {n : Nat} {write : Bool} {fua : Bool} {slba : Nat} {nlb : Nat} {use : DriveUse} {data : List Byte}  {y0 : List Nat} (he : (State.driveIo s n write fua slba nlb use data) = (y0, t)) (hK : Keeps s0 s) : Keeps s0 t := by
  have hk := State.driveIo_keeps (s0 := s0) n write fua slba nlb use data hK
  rw [he] at hk
  exact hk

theorem State.usePages_keeps {s0 s : State} (l : List Nat)  (hK : Keeps s0 s) : Keeps s0 (State.usePages s l) := by
  unfold State.usePages
  repeat' (first
    | with_reducible (first | assumption)
    | (simp only [keeps_mk]; with_reducible apply keepsOn_of)
    | dsimp only
    | intro _)

theorem State.freePages_keeps {s0 s : State} (l : List Nat)  (hK : Keeps s0 s) : Keeps s0 (State.freePages s l) := by
  unfold State.freePages
  repeat' (first
    | with_reducible (first | assumption)
    | (simp only [keeps_mk]; with_reducible apply keepsOn_of)
    | dsimp only
    | intro _)

theorem State.updCache_keeps {s0 s : State} (n : Nat) (page : Nat) (f : CachePage → CachePage)  (hK : Keeps s0 s) : Keeps s0 (State.updCache s n page f) := by
  unfold State.updCache
  repeat' (first
    | with_reducible (first | assumption)
    | (simp only [keeps_mk]; with_reducible apply keepsOn_of)
    | split
    | dsimp only
    | intro _)

theorem State.stageTake_keeps {s0 t s : State} {p : Nat} {n : Nat}  {y0 : List Nat} (he : (State.stageTake s p n) = some (y0, t)) (hK : Keeps s0 s) : Keeps s0 t := by
  unfold State.stageTake at he
  try dsimp only at he
  repeat' split at he
  all_goals first | contradiction | (cases he; done) | skip
  all_goals (first | (cases he) | skip)
  all_goals (repeat' (first
    | with_reducible (first | assumption | apply State.freePages_keeps | apply State.usePages_keeps)
    | (simp only [keeps_mk]; with_reducible apply keepsOn_of)
    | split
    | dsimp only
    | intro _))

theorem State.stageTake_keeps_p {s0 s : State} {zz : List Nat × State} {p : Nat} {n : Nat}  (he : (State.stageTake s p n) = some zz) (hK : Keeps s0 s) : Keeps s0 zz.2 := by
  obtain ⟨y0, t⟩ := zz
  exact State.stageTake_keeps  he hK

theorem State.cacheWrite_keeps {s0 s : State} (n : Nat) (lba : Nat) (data : List Byte) (dirty : Bool)  (hK : Keeps s0 s) : Keeps s0 (State.cacheWrite s n lba data dirty) := by
  unfold State.cacheWrite
  repeat' (first
    | with_reducible (first | assumption | apply State.setBytes_keeps | apply State.updCache_keeps | apply State.dirty_keeps)
    | (simp only [keeps_mk]; with_reducible apply keepsOn_of)
    | split
    | dsimp only
    | intro _)

theorem State.cacheDrop_keeps {s0 s : State} (n : Nat) (slba : Nat) (nlb : Nat)  (hK : Keeps s0 s) : Keeps s0 (State.cacheDrop s n slba nlb) := by
  unfold State.cacheDrop
  repeat' (first
    | with_reducible (first | assumption | apply State.dirty_keeps)
    | (simp only [keeps_mk]; with_reducible apply keepsOn_of)
    | split
    | dsimp only
    | intro _)

end Sys2Proof.Machine
end

