-- ==== Sys2Proof/Laws/KeepsSteps.lean ====
section
/-! SUPPORT. What the operations of Machine/Steps.lean leave as it was (Keeps). -/

set_option linter.unusedTactic false
set_option linter.unreachableTactic false
set_option linter.unusedVariables false
set_option linter.unusedSimpArgs false

namespace Sys2Proof.Machine

theorem State.setConn_keeps {s0 s : State} (c : Nat) (x : Conn)  (hK : Keeps s0 s) : Keeps s0 (State.setConn s c x) := by
  unfold State.setConn
  repeat' (first
    | with_reducible (first | assumption)
    | (simp only [keeps_mk]; with_reducible apply keepsOn_of)
    | dsimp only
    | intro _)

theorem State.updConn_keeps {s0 s : State} (c : Nat) (f : Conn → Conn)  (hK : Keeps s0 s) : Keeps s0 (State.updConn s c f) := by
  unfold State.updConn
  repeat' (first
    | with_reducible (first | assumption | apply State.setConn_keeps)
    | dsimp only
    | intro _)

theorem State.connEnqueue_keeps {s0 s : State} (c : Nat) (items : List TxItem)  (hK : Keeps s0 s) : Keeps s0 (State.connEnqueue s c items) := by
  unfold State.connEnqueue
  repeat' (first
    | with_reducible (first | assumption | apply State.updConn_keeps)
    | (simp only [keeps_mk]; with_reducible apply keepsOn_of)
    | dsimp only
    | intro _)

theorem State.updStep_keeps {s0 s : State} (sid : Nat) (f : Step → Step)  (hK : Keeps s0 s) : Keeps s0 (State.updStep s sid f) := by
  unfold State.updStep
  repeat' (first
    | with_reducible (first | assumption)
    | (simp only [keeps_mk]; with_reducible apply keepsOn_of)
    | split
    | dsimp only
    | intro _)

theorem State.stepIssue_keeps {s0 s : State} (x : Step) (shard : Nat) (off : Nat) (data : List Byte)  (hK : Keeps s0 s) : Keeps s0 (State.stepIssue s x shard off data) := by
  unfold State.stepIssue
  repeat' (first
    | with_reducible (first | assumption | apply State.connEnqueue_keeps | apply State.cacheDrop_keeps | apply State.driveIo_keeps)
    | split
    | dsimp only
    | intro _)

theorem State.shardIssue_keeps {s0 s : State} (x : Step) (i : Nat)  (hK : Keeps s0 s) : Keeps s0 (State.shardIssue s x i) := by
  unfold State.shardIssue
  repeat' (first
    | with_reducible (first | assumption | apply State.updStep_keeps | apply State.stepIssue_keeps)
    | (simp only [keeps_mk]; with_reducible apply keepsOn_of)
    | split
    | dsimp only
    | intro _)

theorem State.stepAdvance_keeps {s0 s : State} (sid : Nat)  (hK : Keeps s0 s) : Keeps s0 (State.stepAdvance s sid) := by
  unfold State.stepAdvance
  repeat' (first
    | with_reducible (first | assumption | apply State.updStep_keeps | apply State.stepIssue_keeps | apply State.shardIssue_keeps | refine keeps_foldl (fun _ _ _ => ?_) ?_)
    | (simp only [keeps_mk]; with_reducible apply keepsOn_of)
    | split
    | dsimp only
    | intro _)

theorem State.stepsAdvance_keeps {s0 s : State} (p : Nat)  (hK : Keeps s0 s) : Keeps s0 (State.stepsAdvance s p) := by
  unfold State.stepsAdvance
  repeat' (first
    | with_reducible (first | assumption | apply State.stepAdvance_keeps | refine keeps_foldl (fun _ _ _ => ?_) ?_)
    | dsimp only
    | intro _)

theorem State.stepSettle_keeps {s0 s : State} (sid : Nat)  (hK : Keeps s0 s) : Keeps s0 (State.stepSettle s sid) := by
  unfold State.stepSettle
  repeat' (first
    | with_reducible (first | assumption | apply State.freePages_keeps)
    | (simp only [keeps_mk]; with_reducible apply keepsOn_of)
    | split
    | dsimp only
    | intro _)

theorem State.stepsSettle_keeps {s0 s : State}   (hK : Keeps s0 s) : Keeps s0 (State.stepsSettle s) := by
  unfold State.stepsSettle
  repeat' (first
    | with_reducible (first | assumption | apply State.stepSettle_keeps | refine keeps_foldl (fun _ _ _ => ?_) ?_)
    | dsimp only
    | intro _)

theorem State.stepMark_keeps {s0 s : State} (sid : Nat) (st : Status) (unknown : Bool)  (hK : Keeps s0 s) : Keeps s0 (State.stepMark s sid st unknown) := by
  unfold State.stepMark
  repeat' (first
    | with_reducible (first | assumption | apply State.updStep_keeps | apply State.syncAdd_keeps | apply State.updConn_keeps | apply State.count1_keeps | apply State.setIntBit_keeps | apply State.event_keeps | apply State.stepSettle_keeps | apply State.stepsAdvance_keeps | refine keeps_foldl (fun _ _ _ => ?_) ?_)
    | (simp only [keeps_mk]; with_reducible apply keepsOn_of)
    | split
    | dsimp only
    | intro _)

end Sys2Proof.Machine
end

