-- ==== Sys2Proof/Laws/KeepsGates.lean ====
section
/-! SUPPORT. What the operations of Machine/Gates.lean leave as it was (Keeps). -/

set_option linter.unusedTactic false
set_option linter.unreachableTactic false
set_option linter.unusedVariables false
set_option linter.unusedSimpArgs false

namespace Sys2Proof.Machine

theorem State.setPll_keeps {s0 s : State} (n : Nat) (x : Pll)  (hK : Keeps s0 s) : Keeps s0 (State.setPll s n x) := by
  unfold State.setPll
  repeat' (first
    | with_reducible (first | assumption)
    | (simp only [keeps_mk]; with_reducible apply keepsOn_of)
    | dsimp only
    | intro _)

theorem State.setMux_keeps {s0 s : State} (d : Nat) (m : Mux)  (hK : Keeps s0 s) : Keeps s0 (State.setMux s d m) := by
  unfold State.setMux
  repeat' (first
    | with_reducible (first | assumption)
    | (simp only [keeps_mk]; with_reducible apply keepsOn_of)
    | split
    | dsimp only
    | intro _)

theorem State.railRaise_keeps {s0 s : State} (d : Nat)  (hK : Keeps s0 s) : Keeps s0 (State.railRaise s d) := by
  unfold State.railRaise
  repeat' (first
    | with_reducible (first | assumption)
    | (simp only [keeps_mk]; with_reducible apply keepsOn_of)
    | split
    | dsimp only
    | intro _)

theorem State.pllStart_keeps {s0 s : State} (n : Nat)  (hK : Keeps s0 s) : Keeps s0 (State.pllStart s n) := by
  unfold State.pllStart
  repeat' (first
    | with_reducible (first | assumption | apply State.railRaise_keeps | apply State.setPll_keeps | apply State.count1_keeps)
    | (simp only [keeps_mk]; with_reducible apply keepsOn_of)
    | split
    | dsimp only
    | intro _)

theorem State.pllStop_keeps {s0 s : State} (n : Nat)  (hK : Keeps s0 s) : Keeps s0 (State.pllStop s n) := by
  unfold State.pllStop
  repeat' (first
    | with_reducible (first | assumption | apply State.setPll_keeps | apply State.count1_keeps)
    | (simp only [keeps_mk]; with_reducible apply keepsOn_of)
    | dsimp only
    | intro _)

theorem State.setRingGroup_keeps {s0 s : State} (g : Nat) (x : RingGroup)  (hK : Keeps s0 s) : Keeps s0 (State.setRingGroup s g x) := by
  unfold State.setRingGroup
  repeat' (first
    | with_reducible (first | assumption)
    | (simp only [keeps_mk]; with_reducible apply keepsOn_of)
    | dsimp only
    | intro _)

theorem State.gateUp_keeps {s0 s : State} (c : Nat)  (hK : Keeps s0 s) : Keeps s0 (State.gateUp s c) := by
  unfold State.gateUp
  repeat' (first
    | with_reducible (first | assumption | apply State.setGate_keeps | apply State.count1_keeps)
    | (simp only [keeps_mk]; with_reducible apply keepsOn_of)
    | split
    | dsimp only
    | intro _)

theorem State.gateClose_keeps {s0 s : State} (c : Nat)  (hK : Keeps s0 s) : Keeps s0 (State.gateClose s c) := by
  unfold State.gateClose
  repeat' (first
    | with_reducible (first | assumption | apply State.setGate_keeps | apply State.count1_keeps)
    | (simp only [keeps_mk]; with_reducible apply keepsOn_of)
    | dsimp only
    | intro _)

theorem State.wakeCluster_keeps {s0 s : State} (c : Nat)  (hK : Keeps s0 s) : Keeps s0 (State.wakeCluster s c) := by
  unfold State.wakeCluster
  repeat' (first
    | with_reducible (first | assumption | apply State.gateUp_keeps | apply State.setGate_keeps | apply State.pllStart_keeps)
    | (simp only [keeps_mk]; with_reducible apply keepsOn_of)
    | split
    | dsimp only
    | intro _)

theorem State.pageAccess_keeps {s0 s : State} (pg : Page)  (hK : Keeps s0 s) : Keeps s0 (State.pageAccess s pg) := by
  unfold State.pageAccess
  repeat' (first
    | with_reducible (first | assumption | apply State.gateUp_keeps | apply State.gateClose_keeps | apply State.setGate_keeps | apply State.wakeCluster_keeps)
    | (simp only [keeps_mk]; with_reducible apply keepsOn_of)
    | split
    | dsimp only
    | intro _)

end Sys2Proof.Machine
end

