-- ==== Sys2Proof/Laws/KeepsOps.lean ====
section
/-! SUPPORT. What the operations of Machine/Ops.lean leave as it was (Keeps). -/

set_option linter.unusedTactic false
set_option linter.unreachableTactic false
set_option linter.unusedVariables false
set_option linter.unusedSimpArgs false

namespace Sys2Proof.Machine

theorem State.signalOf_keeps {s0 s : State} (c : Cpl)  (hK : Keeps s0 s) : Keeps s0 (State.signalOf s c) := by
  unfold State.signalOf
  repeat' (first
    | with_reducible (first | assumption | apply State.syncAdd_keeps)
    | split
    | dsimp only
    | intro _)

theorem State.cplWrite_keeps {s0 s : State} (cring : Nat) (c : Cpl)  (hK : Keeps s0 s) : Keeps s0 (State.cplWrite s cring c) := by
  unfold State.cplWrite
  repeat' (first
    | with_reducible (first | assumption | apply State.ringEntry_keeps | apply State.signalOf_keeps | apply State.count_keeps | apply State.ringIrq_keeps)
    | split
    | dsimp only
    | intro _)

theorem State.complete_keeps {s0 s : State} (cring : Nat) (c : Cpl)  (hK : Keeps s0 s) : Keeps s0 (State.complete s cring c) := by
  unfold State.complete
  repeat' (first
    | with_reducible (first | assumption | apply State.signalOf_keeps | apply State.cplWrite_keeps | apply State.setRing_keeps)
    | (simp only [keeps_mk]; with_reducible apply keepsOn_of)
    | split
    | dsimp only
    | intro _)

theorem State.updWork_keeps {s0 s : State} (ring : Nat) (idx : Nat) (f : Work → Work)  (hK : Keeps s0 s) : Keeps s0 (State.updWork s ring idx f) := by
  unfold State.updWork
  repeat' (first
    | with_reducible (first | assumption)
    | (simp only [keeps_mk]; with_reducible apply keepsOn_of)
    | split
    | dsimp only
    | intro _)

theorem State.abandonMsg_keeps {s0 s : State} (ring : Nat) (idx : Nat)  (hK : Keeps s0 s) : Keeps s0 (State.abandonMsg s ring idx) := by
  unfold State.abandonMsg
  repeat' (first
    | with_reducible (first | assumption)
    | (simp only [keeps_mk]; with_reducible apply keepsOn_of)
    | split
    | dsimp only
    | intro _)

theorem State.dropAttend_keeps {s0 s : State} (ring : Nat) (idx : Nat)  (hK : Keeps s0 s) : Keeps s0 (State.dropAttend s ring idx) := by
  unfold State.dropAttend
  repeat' (first
    | with_reducible (first | assumption | apply State.attend_keeps | apply State.unuseSeq_keeps | refine keeps_foldl (fun _ _ _ => ?_) ?_)
    | (simp only [keeps_mk]; with_reducible apply keepsOn_of)
    | split
    | dsimp only
    | intro _)

theorem State.dropStep_keeps {s0 s : State} (ring : Nat) (idx : Nat) (st : Status)  (hK : Keeps s0 s) : Keeps s0 (State.dropStep s ring idx st) := by
  unfold State.dropStep
  repeat' (first
    | with_reducible (first | assumption | apply State.stepMark_keeps)
    | split
    | dsimp only
    | intro _)

theorem State.dropCmd_keeps {s0 s : State} (ring : Nat) (idx : Nat)  (hK : Keeps s0 s) : Keeps s0 (State.dropCmd s ring idx) := by
  unfold State.dropCmd
  repeat' (first
    | with_reducible (first | assumption)
    | (simp only [keeps_mk]; with_reducible apply keepsOn_of)
    | dsimp only
    | intro _)

theorem State.undoWork_keeps {s0 s : State} (ring : Nat) (idx : Nat) (st : Status)  (hK : Keeps s0 s) : Keeps s0 (State.undoWork s ring idx st) := by
  unfold State.undoWork
  repeat' (first
    | with_reducible (first | assumption | apply State.abandonMsg_keeps | apply State.dropAttend_keeps | apply State.dropStep_keeps | apply State.dropCmd_keeps | apply State.ingest_keeps | apply State.ingestUndo_keeps | apply State.probe_keeps)
    | split
    | dsimp only
    | intro _)

theorem State.workDone_keeps {s0 s : State} (ring : Nat) (idx : Nat) (st : Status) (detail : Nat) (r0 : Word) (r1 : Word)  (hK : Keeps s0 s) : Keeps s0 (State.workDone s ring idx st detail r0 r1) := by
  unfold State.workDone
  repeat' (first
    | with_reducible (first | assumption | apply State.undoWork_keeps | apply State.updWork_keeps)
    | (simp only [keeps_mk]; with_reducible apply keepsOn_of)
    | split
    | dsimp only
    | intro _)

theorem State.workFail_keeps {s0 s : State} (ring : Nat) (idx : Nat) (st : Status)  (hK : Keeps s0 s) : Keeps s0 (State.workFail s ring idx st) := by
  unfold State.workFail
  repeat' (first
    | with_reducible (first | assumption | apply State.workDone_keeps)
    | dsimp only
    | intro _)

theorem State.abortDesc_keeps {s0 s : State} (ring : Nat) (d : Desc) (noSignal : Bool)  (hK : Keeps s0 s) : Keeps s0 (State.abortDesc s ring d noSignal) := by
  unfold State.abortDesc
  repeat' (first
    | with_reducible (first | assumption)
    | (simp only [keeps_mk]; with_reducible apply keepsOn_of)
    | dsimp only
    | intro _)

theorem State.setBusy_keeps {s0 s : State} (b : Blk) (x : Bool)  (hK : Keeps s0 s) : Keeps s0 (State.setBusy s b x) := by
  unfold State.setBusy
  repeat' (first
    | with_reducible (first | assumption | apply State.setReg_keeps)
    | dsimp only
    | intro _)

theorem State.cmdEnd_keeps {s0 s : State} (b : Blk) (op : Nat) (obj : Nat) (st : Status)  (hK : Keeps s0 s) : Keeps s0 (State.cmdEnd s b op obj st) := by
  unfold State.cmdEnd
  repeat' (first
    | with_reducible (first | assumption | apply State.setReg_keeps | apply State.setIntBit_keeps)
    | dsimp only
    | intro _)

theorem State.takeCmdAt_keeps {s0 s : State} (b : Blk) (off : Nat) (val : Word) (run : Word → State → State) (hrun : ∀ a0 a1, Keeps s0 a1 → Keeps s0 (run a0 a1)) (hK : Keeps s0 s) : Keeps s0 (State.takeCmdAt s b off val run) := by
  unfold State.takeCmdAt
  repeat' (first
    | with_reducible (first | assumption | apply State.pageAccess_keeps | apply State.refuse_keeps | apply State.setBusy_keeps)
    | apply hrun
    | (simp only [keeps_mk]; with_reducible apply keepsOn_of)
    | split
    | dsimp only
    | intro _)

theorem State.takeCmd_keeps {s0 s : State} (b : Blk) (val : Word) (run : Word → State → State) (hrun : ∀ a0 a1, Keeps s0 a1 → Keeps s0 (run a0 a1)) (hK : Keeps s0 s) : Keeps s0 (State.takeCmd s b val run) := by
  unfold State.takeCmd
  repeat' (first
    | with_reducible (first | assumption | apply State.takeCmdAt_keeps)
    | apply hrun
    | dsimp only
    | intro _)

theorem State.cmdSync_keeps {s0 s : State} (arg : Word)  (hK : Keeps s0 s) : Keeps s0 (State.cmdSync s arg) := by
  unfold State.cmdSync
  repeat' (first
    | with_reducible (first | assumption | apply State.syncAdd_keeps)
    | split
    | dsimp only
    | intro _)

theorem State.linkSubstate_keeps {s0 s : State}   (hK : Keeps s0 s) : Keeps s0 (State.linkSubstate s) := by
  unfold State.linkSubstate
  repeat' (first
    | with_reducible (first | assumption | apply State.emit_keeps)
    | (simp only [keeps_mk]; with_reducible apply keepsOn_of)
    | split
    | dsimp only
    | intro _)

theorem State.tick_keeps {s0 s : State}   (hK : Keeps s0 s) : Keeps s0 (State.tick s) := by
  unfold State.tick
  repeat' (first
    | with_reducible (first | assumption | apply State.linkSubstate_keeps)
    | (simp only [keeps_mk]; with_reducible apply keepsOn_of)
    | split
    | dsimp only
    | intro _)

end Sys2Proof.Machine
end

