-- ==== Sys2Proof/Laws/KeepsConns.lean ====
section
/-! SUPPORT. What the operations of Machine/Conns.lean leave as it was (Keeps). -/

set_option linter.unusedTactic false
set_option linter.unreachableTactic false
set_option linter.unusedVariables false
set_option linter.unusedSimpArgs false

namespace Sys2Proof.Machine

theorem State.writeSettle_keeps {s0 s : State} (ring : Nat) (idx : Nat)  (hK : Keeps s0 s) : Keeps s0 (State.writeSettle s ring idx) := by
  unfold State.writeSettle
  repeat' (first
    | with_reducible (first | assumption | apply State.workDone_keeps | apply State.probe_keeps | apply State.ingest_keeps)
    | split
    | dsimp only
    | intro _)

theorem State.writeReadFailed_keeps {s0 s : State} (ring : Nat) (idx : Nat) (k : Nat) (st : Status)  (hK : Keeps s0 s) : Keeps s0 (State.writeReadFailed s ring idx k st) := by
  unfold State.writeReadFailed
  repeat' (first
    | with_reducible (first | assumption | apply State.updWork_keeps | apply State.probe_keeps | apply State.ingest_keeps | apply State.writeSettle_keeps)
    | (simp only [keeps_mk]; with_reducible apply keepsOn_of)
    | split
    | dsimp only
    | intro _)

theorem State.updServe_keeps {s0 s : State} (c : Nat) (psn : BitVec 32) (f : Serve → Serve)  (hK : Keeps s0 s) : Keeps s0 (State.updServe s c psn f) := by
  unfold State.updServe
  repeat' (first
    | with_reducible (first | assumption | apply State.updConn_keeps)
    | (simp only [keeps_mk]; with_reducible apply keepsOn_of)
    | split
    | dsimp only
    | intro _)

theorem State.serveEnd_keeps {s0 s : State} (c : Nat) (psn : BitVec 32) (st : Status)  (hK : Keeps s0 s) : Keeps s0 (State.serveEnd s c psn st) := by
  unfold State.serveEnd
  repeat' (first
    | with_reducible (first | assumption | apply State.updConn_keeps | apply State.connEnqueue_keeps)
    | (simp only [keeps_mk]; with_reducible apply keepsOn_of)
    | split
    | dsimp only
    | intro _)

theorem State.restoreFail_keeps {s0 s : State} (ring : Nat) (idx : Nat) (st : Status)  (hK : Keeps s0 s) : Keeps s0 (State.restoreFail s ring idx st) := by
  unfold State.restoreFail
  repeat' (first
    | with_reducible (first | assumption | apply State.updWork_keeps | apply State.probe_keeps | apply State.ingest_keeps)
    | (simp only [keeps_mk]; with_reducible apply keepsOn_of)
    | split
    | dsimp only
    | intro _)

theorem State.updGroup_keeps {s0 s : State} (key : Nat) (f : Group → Group)  (hK : Keeps s0 s) : Keeps s0 (State.updGroup s key f) := by
  unfold State.updGroup
  repeat' (first
    | with_reducible (first | assumption)
    | (simp only [keeps_mk]; with_reducible apply keepsOn_of)
    | dsimp only
    | intro _)

theorem State.clearSlots_keeps {s0 s : State} (first : Nat) (n : Nat)  (hK : Keeps s0 s) : Keeps s0 (State.clearSlots s first n) := by
  unfold State.clearSlots
  repeat' (first
    | with_reducible (first | assumption)
    | (simp only [keeps_mk]; with_reducible apply keepsOn_of)
    | dsimp only
    | intro _)

theorem State.failGroup_keeps {s0 s : State} (key : Nat) (st : Status)  (hK : Keeps s0 s) : Keeps s0 (State.failGroup s key st) := by
  unfold State.failGroup
  repeat' (first
    | with_reducible (first | assumption | apply State.updGroup_keeps | apply State.clearSlots_keeps | apply State.emit_keeps | apply State.workDone_keeps | apply State.workFail_keeps | apply State.count1_keeps | apply State.setIntBit_keeps | apply State.event_keeps | refine keeps_foldl (fun _ _ _ => ?_) ?_)
    | (simp only [keeps_mk]; with_reducible apply keepsOn_of)
    | split
    | dsimp only
    | intro _)

end Sys2Proof.Machine
end

