-- ==== Sys2Proof/Laws/KeepsReads.lean ====
section
/-! SUPPORT. What the operations of Machine/Reads.lean leave as it was (Keeps). -/

set_option linter.unusedTactic false
set_option linter.unreachableTactic false
set_option linter.unusedVariables false
set_option linter.unusedSimpArgs false

namespace Sys2Proof.Machine

theorem State.updDport_keeps {s0 s : State} (n : Nat) (f : DPort → DPort)  (hK : Keeps s0 s) : Keeps s0 (State.updDport s n f) := by
  unfold State.updDport
  repeat' (first
    | with_reducible (first | assumption)
    | (simp only [keeps_mk]; with_reducible apply keepsOn_of)
    | dsimp only
    | intro _)

theorem State.endReads_keeps {s0 s : State} (which : HostRead → Bool) (timedOut : Bool)  (hK : Keeps s0 s) : Keeps s0 (State.endReads s which timedOut) := by
  unfold State.endReads
  repeat' (first
    | with_reducible (first | assumption)
    | (simp only [keeps_mk]; with_reducible apply keepsOn_of)
    | dsimp only
    | intro _)

theorem State.whenUp_keeps {s0 s act : State} (sp : Space) (v : Option Nat) (a : Nat)  (hK : Keeps s0 s) (hKact : Keeps s0 act) : Keeps s0 (State.whenUp s sp v a act) := by
  unfold State.whenUp
  repeat' (first
    | with_reducible (first | assumption)
    | split
    | dsimp only
    | intro _)

theorem State.put_keeps {s0 s : State} (sp : Space) (v : Option Nat) (a : Nat) (data : List Byte)  (hK : Keeps s0 s) : Keeps s0 (State.put s sp v a data) := by
  unfold State.put
  repeat' (first
    | with_reducible (first | assumption | apply State.setBytes_keeps | apply State.hostWrite_keeps | apply State.count_keeps | apply State.emit_keeps | apply State.drop_keeps | refine keeps_foldl (fun _ _ _ => ?_) ?_)
    | split
    | dsimp only
    | intro _)

theorem State.operandFailed_keeps {s0 s : State} (ring : Nat) (idx : Nat) (hbm : Bool) (addr : Nat) (st : Status)  (hK : Keeps s0 s) : Keeps s0 (State.operandFailed s ring idx hbm addr st) := by
  unfold State.operandFailed
  repeat' (first
    | with_reducible (first | assumption | apply State.errFor_keeps | apply State.workDone_keeps | apply State.writeReadFailed_keeps | apply State.failGroup_keeps)
    | split
    | dsimp only
    | intro _)

theorem State.failOperand_keeps {s0 s : State} (u : ReadUse) (got : Nat) (st : Status) (noSignal : Bool)  (hK : Keeps s0 s) : Keeps s0 (State.failOperand s u got st noSignal) := by
  unfold State.failOperand
  repeat' (first
    | with_reducible (first | assumption | apply State.operandFailed_keeps | apply State.updWork_keeps)
    | (simp only [keeps_mk]; with_reducible apply keepsOn_of)
    | split
    | dsimp only
    | intro _)

theorem State.atcPut_keeps {s0 s : State} (v : Option Nat) (page : Nat)  (hK : Keeps s0 s) : Keeps s0 (State.atcPut s v page) := by
  unfold State.atcPut
  repeat' (first
    | with_reducible (first | assumption)
    | (simp only [keeps_mk]; with_reducible apply keepsOn_of)
    | dsimp only
    | intro _)

theorem State.atsPage_keeps {s0 s : State} (v : Option Nat) (page : Nat)  (hK : Keeps s0 s) : Keeps s0 (State.atsPage s v page) := by
  unfold State.atsPage
  repeat' (first
    | with_reducible (first | assumption | apply State.emit_keeps | apply State.atcPut_keeps)
    | (simp only [keeps_mk]; with_reducible apply keepsOn_of)
    | split
    | dsimp only
    | intro _)

theorem State.priAsk_keeps {s0 s : State} (v : Option Nat) (page : Nat) (u : Option ReadUse)  (hK : Keeps s0 s) : Keeps s0 (State.priAsk s v page u) := by
  unfold State.priAsk
  repeat' (first
    | with_reducible (first | assumption | apply State.count1_keeps | apply State.emit_keeps)
    | (simp only [keeps_mk]; with_reducible apply keepsOn_of)
    | split
    | dsimp only
    | intro _)

theorem State.hlkTake_keeps {s0 s : State}   (hK : Keeps s0 s) : Keeps s0 (State.hlkTake s) := by
  unfold State.hlkTake
  repeat' (first
    | with_reducible (first | assumption | apply State.swapFirst_keeps)
    | dsimp only
    | intro _)

theorem State.readOut_keeps {s0 s : State} (port : Nat) (tag : Nat) (v : Option Nat) (part : Nat) (use : ReadUse) (addr : Nat) (len : Nat)  (hK : Keeps s0 s) : Keeps s0 (State.readOut s port tag v part use addr len) := by
  unfold State.readOut
  repeat' (first
    | with_reducible (first | assumption | apply State.updDport_keeps | apply State.count_keeps | apply State.emit_keeps)
    | (simp only [keeps_mk]; with_reducible apply keepsOn_of)
    | split
    | dsimp only
    | intro _)

theorem State.issueRead_keeps {s0 s : State} (port : Nat) (v : Option Nat) (part : Nat) (use : ReadUse) (addr : Nat) (len : Nat)  (hK : Keeps s0 s) : Keeps s0 (State.issueRead s port v part use addr len).2 := by
  unfold State.issueRead
  repeat' (first
    | with_reducible (first | assumption | apply State.hlkTake_keeps | apply State.atsPage_keeps | apply State.readOut_keeps | apply State.failOperand_keeps | apply State.priAsk_keeps)
    | split
    | dsimp only
    | intro _)

theorem State.issueRead_keeps_of {s0 t s : State} {port : Nat} {v : Option Nat} {part : Nat} {use : ReadUse} {addr : Nat} {len : Nat}  {y0 : Bool} (he : (State.issueRead s port v part use addr len) = (y0, t)) (hK : Keeps s0 s) : Keeps s0 t := by
  have hk := State.issueRead_keeps (s0 := s0) port v part use addr len hK
  rw [he] at hk
  exact hk

theorem State.askPieces_keeps {s0 s : State} (w : Work) (port : Nat) (ps : List (Nat × Nat))  (hK : Keeps s0 s) : Keeps s0 (State.askPieces s w port ps) := by
  unfold State.askPieces
  repeat' (first
    | with_reducible (first | assumption | apply State.issueRead_keeps | refine keeps_foldl (fun _ _ _ => ?_) ?_)
    | split
    | dsimp only
    | intro _)

theorem State.fetch_keeps {s0 t s : State} {w : Work} {sp : Space} {a : Nat} {len : Nat}   (he : (State.fetch s w sp a len) = Fetch.wait t) (hK : Keeps s0 s) : Keeps s0 t := by
  unfold State.fetch at he
  try dsimp only at he
  repeat' split at he
  all_goals (first | (injection he with he; subst he) | (injection he; done) | skip)
  all_goals (repeat' (first
    | with_reducible (first | assumption | apply State.updWork_keeps | apply State.askPieces_keeps | apply State.operandFailed_keeps)
    | (simp only [keeps_mk]; with_reducible apply keepsOn_of)
    | split
    | dsimp only
    | intro _))

theorem State.fetchAll_keeps {s0 s : State} (w : Work) (xs : List (Space × Nat × Nat))  (hK : Keeps s0 s) : Keeps s0 (State.fetchAll s w xs).2 := by
  induction xs generalizing s w with
  | nil =>
    unfold State.fetchAll
    try dsimp only
    repeat' (first
      | with_reducible (first | assumption)
      | refine State.fetch_keeps (by with_reducible assumption) ?_
      | split
      | dsimp only
      | intro _)
  | cons x r ih =>
    unfold State.fetchAll
    try dsimp only
    repeat' (first
      | with_reducible (first | assumption | apply ih)
      | refine State.fetch_keeps (by with_reducible assumption) ?_
      | split
      | dsimp only
      | intro _)

theorem State.fetchAll_keeps_of {s0 t s : State} {w : Work} {xs : List (Space × Nat × Nat)}  {y0 : Option (List (List Byte))} (he : (State.fetchAll s w xs) = (y0, t)) (hK : Keeps s0 s) : Keeps s0 t := by
  have hk := State.fetchAll_keeps (s0 := s0) w xs hK
  rw [he] at hk
  exact hk

end Sys2Proof.Machine
end

