-- ==== Sys2Proof/Laws/KeepsDescs.lean ====
section
/-! SUPPORT. What the operations of Machine/Descs.lean leave as it was (Keeps). -/

set_option linter.unusedTactic false
set_option linter.unreachableTactic false
set_option linter.unusedVariables false
set_option linter.unusedSimpArgs false

namespace Sys2Proof.Machine

theorem State.runDesc_keeps {s0 s : State} (ring : Nat) (idx : Nat) (engine : Nat) (opcode : Nat) (f : Work → State) (hf : ∀ a0, Keeps s0 (f a0)) (hK : Keeps s0 s) : Keeps s0 (State.runDesc s ring idx engine opcode f) := by
  unfold State.runDesc
  repeat' (first
    | with_reducible (first | assumption)
    | apply hf
    | split
    | dsimp only
    | intro _)

end Sys2Proof.Machine
end

