-- ==== Sys2Proof/Laws/KeepsSluice.lean ====
section
/-! SUPPORT. What the operations of Machine/Sluice.lean leave as it was (Keeps). -/

set_option linter.unusedTactic false
set_option linter.unreachableTactic false
set_option linter.unusedVariables false
set_option linter.unusedSimpArgs false

namespace Sys2Proof.Machine

theorem State.updEpt_keeps {s0 s : State} (n : Nat) (f : EptPort → EptPort)  (hK : Keeps s0 s) : Keeps s0 (State.updEpt s n f) := by
  unfold State.updEpt
  repeat' (first
    | with_reducible (first | assumption)
    | (simp only [keeps_mk]; with_reducible apply keepsOn_of)
    | dsimp only
    | intro _)

theorem State.setLeaf_keeps {s0 s : State} (l : Nat) (x : Leaf)  (hK : Keeps s0 s) : Keeps s0 (State.setLeaf s l x) := by
  unfold State.setLeaf
  repeat' (first
    | with_reducible (first | assumption)
    | (simp only [keeps_mk]; with_reducible apply keepsOn_of)
    | dsimp only
    | intro _)

theorem State.updPnode_keeps {s0 s : State} (k : Nat) (f : PNode → PNode)  (hK : Keeps s0 s) : Keeps s0 (State.updPnode s k f) := by
  unfold State.updPnode
  repeat' (first
    | with_reducible (first | assumption)
    | (simp only [keeps_mk]; with_reducible apply keepsOn_of)
    | dsimp only
    | intro _)

theorem State.updPort_keeps {s0 s : State} (n : Nat) (f : PortNode → PortNode)  (hK : Keeps s0 s) : Keeps s0 (State.updPort s n f) := by
  unfold State.updPort
  repeat' (first
    | with_reducible (first | assumption)
    | (simp only [keeps_mk]; with_reducible apply keepsOn_of)
    | dsimp only
    | intro _)

theorem State.refreshNode_keeps {s0 s : State} (port : Nat) (p : Nat)  (hK : Keeps s0 s) : Keeps s0 (State.refreshNode s port p) := by
  unfold State.refreshNode
  repeat' (first
    | with_reducible (first | assumption | apply State.updPnode_keeps | apply State.setLeaf_keeps | apply State.count_keeps | refine keeps_foldl (fun _ _ _ => ?_) ?_)
    | (simp only [keeps_mk]; with_reducible apply keepsOn_of)
    | split
    | dsimp only
    | intro _)

theorem State.refreshPort_keeps {s0 s : State} (port : Nat)  (hK : Keeps s0 s) : Keeps s0 (State.refreshPort s port) := by
  unfold State.refreshPort
  repeat' (first
    | with_reducible (first | assumption | apply State.refreshNode_keeps | apply State.updPort_keeps | apply State.updPnode_keeps | apply State.count_keeps | refine keeps_foldl (fun _ _ _ => ?_) ?_)
    | (simp only [keeps_mk]; with_reducible apply keepsOn_of)
    | split
    | dsimp only
    | intro _)

theorem State.enqueue_keeps {s0 s : State} (l : Nat) (n : Nat) (body : Out) (desc : Option (Nat × Nat))  (hK : Keeps s0 s) : Keeps s0 (State.enqueue s l n body desc) := by
  unfold State.enqueue
  repeat' (first
    | with_reducible (first | assumption | apply State.setLeaf_keeps | apply State.sum_keeps | apply State.count1_keeps | apply State.refreshPort_keeps)
    | (simp only [keeps_mk]; with_reducible apply keepsOn_of)
    | split
    | dsimp only
    | intro _)

theorem State.offer_keeps {s0 s : State} (l : Nat) (n : Nat) (body : Out)  (hK : Keeps s0 s) : Keeps s0 (State.offer s l n body) := by
  unfold State.offer
  repeat' (first
    | with_reducible (first | assumption | apply State.enqueue_keeps | apply State.setLeaf_keeps | apply State.count1_keeps)
    | (simp only [keeps_mk]; with_reducible apply keepsOn_of)
    | split
    | dsimp only
    | intro _)

theorem State.waitAt_keeps {s0 s : State} (l : Nat) (x : LeafWait)  (hK : Keeps s0 s) : Keeps s0 (State.waitAt s l x) := by
  unfold State.waitAt
  repeat' (first
    | with_reducible (first | assumption | apply State.setLeaf_keeps)
    | (simp only [keeps_mk]; with_reducible apply keepsOn_of)
    | split
    | dsimp only
    | intro _)

theorem State.leafPop_keeps {s0 s : State} (l : Nat)  (hK : Keeps s0 s) : Keeps s0 (State.leafPop s l) := by
  unfold State.leafPop
  repeat' (first
    | with_reducible (first | assumption | apply State.setLeaf_keeps)
    | (simp only [keeps_mk]; with_reducible apply keepsOn_of)
    | dsimp only
    | intro _)

theorem State.submit_keeps {s0 s : State} (l : Nat) (n : Nat) (body : Out)  (hK : Keeps s0 s) : Keeps s0 (State.submit s l n body) := by
  unfold State.submit
  repeat' (first
    | with_reducible (first | assumption | apply State.enqueue_keeps | apply State.setLeaf_keeps)
    | (simp only [keeps_mk]; with_reducible apply keepsOn_of)
    | split
    | dsimp only
    | intro _)

theorem State.injectAt_keeps {s0 s : State} (l : Nat) (a : Nat) (n : Nat)  (hK : Keeps s0 s) : Keeps s0 (State.injectAt s l a n) := by
  unfold State.injectAt
  repeat' (first
    | with_reducible (first | assumption | apply State.enqueue_keeps | apply State.waitAt_keeps)
    | split
    | dsimp only
    | intro _)

theorem State.spateSettle_keeps {s0 s : State} (ring : Nat) (idx : Nat)  (hK : Keeps s0 s) : Keeps s0 (State.spateSettle s ring idx) := by
  unfold State.spateSettle
  repeat' (first
    | with_reducible (first | assumption | apply State.workDone_keeps | apply State.probe_keeps | apply State.ingest_keeps)
    | split
    | dsimp only
    | intro _)

theorem State.framesGone_keeps {s0 s : State} (fs : List TxFrame)  (hK : Keeps s0 s) : Keeps s0 (State.framesGone s fs) := by
  unfold State.framesGone
  repeat' (first
    | with_reducible (first | assumption | apply State.spateSettle_keeps | refine keeps_foldl (fun _ _ _ => ?_) ?_)
    | split
    | dsimp only
    | intro _)

theorem State.refill_keeps {s0 s : State} (port : Nat) (p : Nat)  (hK : Keeps s0 s) : Keeps s0 (State.refill s port p) := by
  unfold State.refill
  repeat' (first
    | with_reducible (first | assumption | apply State.sum_keeps | apply State.updPnode_keeps)
    | (simp only [keeps_mk]; with_reducible apply keepsOn_of)
    | split
    | dsimp only
    | intro _)

theorem State.refillPort_keeps {s0 s : State} (port : Nat)  (hK : Keeps s0 s) : Keeps s0 (State.refillPort s port) := by
  unfold State.refillPort
  repeat' (first
    | with_reducible (first | assumption | apply State.refill_keeps | refine keeps_foldl (fun _ _ _ => ?_) ?_)
    | dsimp only
    | intro _)

theorem State.refillAll_keeps {s0 s : State}   (hK : Keeps s0 s) : Keeps s0 (State.refillAll s) := by
  unfold State.refillAll
  repeat' (first
    | with_reducible (first | assumption | apply State.refillPort_keeps | refine keeps_foldl (fun _ _ _ => ?_) ?_)
    | dsimp only
    | intro _)

theorem State.turnLeaf_keeps {s0 s : State} (port : Nat) (p : Nat)  (hK : Keeps s0 s) : Keeps s0 (State.turnLeaf s port p) := by
  unfold State.turnLeaf
  repeat' (first
    | with_reducible (first | assumption | apply State.updPnode_keeps)
    | split
    | dsimp only
    | intro _)

theorem State.turnNode_keeps {s0 s : State} (port : Nat)  (hK : Keeps s0 s) : Keeps s0 (State.turnNode s port) := by
  unfold State.turnNode
  repeat' (first
    | with_reducible (first | assumption | apply State.updPort_keeps)
    | split
    | dsimp only
    | intro _)

theorem State.sendHead_keeps {s0 s : State} (port : Nat) (p : Nat) (l : Nat)  (hK : Keeps s0 s) : Keeps s0 (State.sendHead s port p l) := by
  unfold State.sendHead
  repeat' (first
    | with_reducible (first | assumption | apply State.setLeaf_keeps | apply State.updPnode_keeps | apply State.count_keeps | apply State.emit_keeps | apply State.refreshPort_keeps | apply State.turnLeaf_keeps | apply State.turnNode_keeps | apply State.framesGone_keeps)
    | (simp only [keeps_mk]; with_reducible apply keepsOn_of)
    | split
    | dsimp only
    | intro _)

/-- The state that a pick leaves keeps what every command keeps. -/
def PickKeeps (s0 : State) (x : Pick) : Prop :=
  match x with
  | .send _ _ t => Keeps s0 t
  | .halt t => Keeps s0 t

theorem State.pickLeaf_keeps {s0 s : State} (port p k : Nat) (hK : Keeps s0 s) : PickKeeps s0 (s.pickLeaf port p k) := by
  induction k generalizing s with
  | zero => exact hK
  | succ k ih =>
    unfold State.pickLeaf
    dsimp only
    repeat' (first
      | with_reducible assumption
      | apply ih
      | with_reducible apply State.updPnode_keeps
      | with_reducible apply State.setLeaf_keeps
      | with_reducible apply State.updPort_keeps
      | with_reducible apply State.count_keeps
      | split
      | (show Keeps s0 _))

theorem State.pickLeaf_halt {s0 s t : State} {port p k : Nat} (he : s.pickLeaf port p k = .halt t) (hK : Keeps s0 s) : Keeps s0 t := by
  have h := State.pickLeaf_keeps port p k hK
  rw [he] at h
  exact h

theorem State.pickLeaf_send {s0 s t : State} {port p k a b : Nat} (he : s.pickLeaf port p k = .send a b t) (hK : Keeps s0 s) :
    Keeps s0 t := by
  have h := State.pickLeaf_keeps port p k hK
  rw [he] at h
  exact h

theorem State.pickNode_keeps {s0 s : State} (port k : Nat) (hK : Keeps s0 s) : PickKeeps s0 (s.pickNode port k) := by
  induction k generalizing s with
  | zero => exact hK
  | succ k ih =>
    unfold State.pickNode
    dsimp only
    repeat' (first
      | with_reducible assumption
      | apply ih
      | with_reducible apply State.updPnode_keeps
      | with_reducible apply State.setLeaf_keeps
      | with_reducible apply State.updPort_keeps
      | with_reducible apply State.count_keeps
      | refine State.pickLeaf_halt (by with_reducible assumption) ?_
      | refine State.pickLeaf_send (by with_reducible assumption) ?_
      | split
      | (show Keeps s0 _))

theorem State.floorPick_keeps {s0 s : State} (port p : Nat) (hK : Keeps s0 s) : Keeps s0 (s.floorPick port p) := by
  unfold State.floorPick
  dsimp only
  split
  · rename_i he
    exact State.updPnode_keeps _ _ (State.sendHead_keeps _ _ _ (State.count_keeps _ _ _
      (State.pickLeaf_send he (State.updPort_keeps _ _ hK))))
  · rename_i he
    exact State.pickLeaf_halt he (State.updPort_keeps _ _ hK)

theorem State.portPick_keeps {s0 s : State} (port : Nat) (hK : Keeps s0 s) : Keeps s0 (s.portPick port) := by
  unfold State.portPick
  split
  · exact State.floorPick_keeps _ _ hK
  · split
    · rename_i he
      have h2 := State.pickNode_keeps (s0 := s0) port (pickFuel (s.portNode port).active.length) hK
      rw [he] at h2
      split
      · exact State.sendHead_keeps _ _ _ (State.updPnode_keeps _ _ h2)
      · exact h2
    · rename_i he
      have h2 := State.pickNode_keeps (s0 := s0) port (pickFuel (s.portNode port).active.length) hK
      rw [he] at h2
      exact h2

theorem State.dropPort_keeps {s0 s : State} (port : Nat)  (hK : Keeps s0 s) : Keeps s0 (State.dropPort s port) := by
  unfold State.dropPort
  repeat' (first
    | with_reducible (first | assumption | apply State.sum_keeps | apply State.setLeaf_keeps | apply State.count_keeps | apply State.refreshPort_keeps | apply State.framesGone_keeps | refine keeps_foldl (fun _ _ _ => ?_) ?_)
    | (simp only [keeps_mk]; with_reducible apply keepsOn_of)
    | split
    | dsimp only
    | intro _)

theorem State.pfcSend_keeps {s0 s : State} (n : Nat) (cls : Nat) (quanta : Nat)  (hK : Keeps s0 s) : Keeps s0 (State.pfcSend s n cls quanta) := by
  unfold State.pfcSend
  repeat' (first
    | with_reducible (first | assumption | apply State.count_keeps | apply State.emit_keeps)
    | dsimp only
    | intro _)

theorem State.pfcClass_keeps {s0 s : State} (n : Nat) (cls : Nat)  (hK : Keeps s0 s) : Keeps s0 (State.pfcClass s n cls) := by
  unfold State.pfcClass
  repeat' (first
    | with_reducible (first | assumption | apply State.updEpt_keeps | apply State.pfcSend_keeps)
    | (simp only [keeps_mk]; with_reducible apply keepsOn_of)
    | split
    | dsimp only
    | intro _)

theorem State.eptDown_keeps {s0 s : State} (n : Nat)  (hK : Keeps s0 s) : Keeps s0 (State.eptDown s n) := by
  unfold State.eptDown
  repeat' (first
    | with_reducible (first | assumption | apply State.updEpt_keeps | apply State.dropPort_keeps | apply State.setIntBit_keeps)
    | (simp only [keeps_mk]; with_reducible apply keepsOn_of)
    | split
    | dsimp only
    | intro _)

theorem State.swapEpt_keeps {s0 s old : State} (n : Nat)  (hK : Keeps s0 s) (hKold : Keeps s0 old) : Keeps s0 (State.swapEpt s old n) := by
  unfold State.swapEpt
  repeat' (first
    | with_reducible (first | assumption | apply State.eptDown_keeps | apply State.pfcClass_keeps | apply State.updEpt_keeps | refine keeps_foldl (fun _ _ _ => ?_) ?_)
    | (simp only [keeps_mk]; with_reducible apply keepsOn_of)
    | split
    | dsimp only
    | intro _)

theorem State.floorsOver_keeps {s0 s old : State}   (hK : Keeps s0 s) (hKold : Keeps s0 old) : Keeps s0 (State.floorsOver s old) := by
  unfold State.floorsOver
  repeat' (first
    | with_reducible (first | assumption | apply State.setIntBit_keeps)
    | split
    | dsimp only
    | intro _)

theorem State.eptTake_keeps {s0 s : State} (n : Nat)  (hK : Keeps s0 s) : Keeps s0 (State.eptTake s n) := by
  unfold State.eptTake
  repeat' (first
    | with_reducible (first | assumption | apply State.refillAll_keeps | apply State.swapReject_keeps | apply State.swapLive_keeps | apply State.swapEpt_keeps | apply State.floorsOver_keeps)
    | split
    | dsimp only
    | intro _)

theorem State.setMeter_keeps {s0 s : State} (m : Nat) (x : Meter)  (hK : Keeps s0 s) : Keeps s0 (State.setMeter s m x) := by
  unfold State.setMeter
  repeat' (first
    | with_reducible (first | assumption)
    | (simp only [keeps_mk]; with_reducible apply keepsOn_of)
    | dsimp only
    | intro _)

theorem State.schRd_keeps {s0 s : State} (r0 : Word) (r1 : Word) (r2 : Word)  (hK : Keeps s0 s) : Keeps s0 (State.schRd s r0 r1 r2) := by
  unfold State.schRd
  repeat' (first
    | with_reducible (first | assumption | apply State.setReg_keeps)
    | dsimp only
    | intro _)

theorem State.pnodeApply_keeps {s0 s : State} (port : Nat) (p : Nat) (a0 : Word) (a1 : Word) (a2 : Word)  (hK : Keeps s0 s) : Keeps s0 (State.pnodeApply s port p a0 a1 a2) := by
  unfold State.pnodeApply
  repeat' (first
    | with_reducible (first | assumption | apply State.refillPort_keeps | apply State.refreshPort_keeps)
    | (simp only [keeps_mk]; with_reducible apply keepsOn_of)
    | split
    | dsimp only
    | intro _)

theorem State.leafApply_keeps {s0 s : State} (port : Nat) (l : Nat) (a0 : Word)  (hK : Keeps s0 s) : Keeps s0 (State.leafApply s port l a0) := by
  unfold State.leafApply
  repeat' (first
    | with_reducible (first | assumption | apply State.setLeaf_keeps | apply State.refreshPort_keeps)
    | (simp only [keeps_mk]; with_reducible apply keepsOn_of)
    | split
    | dsimp only
    | intro _)

theorem State.changeApply_keeps {s0 s : State} (c : SchChange)  (hK : Keeps s0 s) : Keeps s0 (State.changeApply s c) := by
  unfold State.changeApply
  repeat' (first
    | with_reducible (first | assumption | apply State.pnodeApply_keeps | apply State.cmdEnd_keeps | apply State.leafApply_keeps)
    | split
    | dsimp only
    | intro _)

theorem State.changeStart_keeps {s0 s : State} (c : SchChange)  (hK : Keeps s0 s) : Keeps s0 (State.changeStart s c) := by
  unfold State.changeStart
  repeat' (first
    | with_reducible (first | assumption | apply State.changeApply_keeps | apply State.setBusy_keeps)
    | (simp only [keeps_mk]; with_reducible apply keepsOn_of)
    | split
    | dsimp only
    | intro _)

theorem State.changeTake_keeps {s0 s : State}   (hK : Keeps s0 s) : Keeps s0 (State.changeTake s) := by
  unfold State.changeTake
  repeat' (first
    | with_reducible (first | assumption | apply State.changeApply_keeps)
    | (simp only [keeps_mk]; with_reducible apply keepsOn_of)
    | split
    | dsimp only
    | intro _)

theorem State.portTransmit_keeps {s0 s : State} (port : Nat)  (hK : Keeps s0 s) : Keeps s0 (State.portTransmit s port) := by
  unfold State.portTransmit
  repeat' (first
    | with_reducible (first | assumption | apply State.eptTake_keeps | apply State.changeTake_keeps | apply State.refillPort_keeps | apply State.portPick_keeps)
    | split
    | dsimp only
    | intro _)

theorem State.pnodeClear_keeps {s0 s : State} (port : Nat) (p : Nat)  (hK : Keeps s0 s) : Keeps s0 (State.pnodeClear s port p).2 := by
  unfold State.pnodeClear
  repeat' (first
    | with_reducible (first | assumption | apply State.refillPort_keeps | apply State.refreshPort_keeps)
    | (simp only [keeps_mk]; with_reducible apply keepsOn_of)
    | split
    | dsimp only
    | intro _)

theorem State.pnodeClear_keeps_of {s0 t s : State} {port : Nat} {p : Nat}  {y0 : Status} (he : (State.pnodeClear s port p) = (y0, t)) (hK : Keeps s0 s) : Keeps s0 t := by
  have hk := State.pnodeClear_keeps (s0 := s0) port p hK
  rw [he] at hk
  exact hk

theorem State.pnodeRead_keeps {s0 s : State} (port : Nat) (p : Nat)  (hK : Keeps s0 s) : Keeps s0 (State.pnodeRead s port p).2 := by
  unfold State.pnodeRead
  repeat' (first
    | with_reducible (first | assumption | apply State.refill_keeps | apply State.schRd_keeps)
    | split
    | dsimp only
    | intro _)

theorem State.pnodeRead_keeps_of {s0 t s : State} {port : Nat} {p : Nat}  {y0 : Status} (he : (State.pnodeRead s port p) = (y0, t)) (hK : Keeps s0 s) : Keeps s0 t := by
  have hk := State.pnodeRead_keeps (s0 := s0) port p hK
  rw [he] at hk
  exact hk

theorem State.leafRead_keeps {s0 s : State} (l : Nat) (clr : Bool)  (hK : Keeps s0 s) : Keeps s0 (State.leafRead s l clr) := by
  unfold State.leafRead
  repeat' (first
    | with_reducible (first | assumption | apply State.schRd_keeps | apply State.setLeaf_keeps)
    | (simp only [keeps_mk]; with_reducible apply keepsOn_of)
    | split
    | dsimp only
    | intro _)

theorem State.meterSet_keeps {s0 s : State} (m : Nat) (a0 : Word) (a1 : Word) (a2 : Word)  (hK : Keeps s0 s) : Keeps s0 (State.meterSet s m a0 a1 a2).2 := by
  unfold State.meterSet
  repeat' (first
    | with_reducible (first | assumption | apply State.setMeter_keeps)
    | (simp only [keeps_mk]; with_reducible apply keepsOn_of)
    | split
    | dsimp only
    | intro _)

theorem State.meterSet_keeps_of {s0 t s : State} {m : Nat} {a0 : Word} {a1 : Word} {a2 : Word}  {y0 : Status} (he : (State.meterSet s m a0 a1 a2) = (y0, t)) (hK : Keeps s0 s) : Keeps s0 t := by
  have hk := State.meterSet_keeps (s0 := s0) m a0 a1 a2 hK
  rw [he] at hk
  exact hk

theorem State.meterRead_keeps {s0 s : State} (m : Nat)  (hK : Keeps s0 s) : Keeps s0 (State.meterRead s m) := by
  unfold State.meterRead
  repeat' (first
    | with_reducible (first | assumption | apply State.refill_keeps | apply State.setMeter_keeps | apply State.schRd_keeps)
    | dsimp only
    | intro _)

theorem schRun_keeps {s0 s : State} (val : Word)  (hK : Keeps s0 s) : Keeps s0 (schRun val s) := by
  unfold schRun
  repeat' (first
    | with_reducible (first | assumption | apply State.cmdEnd_keeps | apply State.changeStart_keeps | apply State.pnodeClear_keeps | apply State.pnodeRead_keeps | apply State.leafRead_keeps | apply State.meterSet_keeps | apply State.meterRead_keeps)
    | refine State.pnodeClear_keeps_of (by with_reducible assumption) ?_
    | refine State.pnodeRead_keeps_of (by with_reducible assumption) ?_
    | refine State.meterSet_keeps_of (by with_reducible assumption) ?_
    | split
    | dsimp only
    | intro _)

end Sys2Proof.Machine
end

