-- ==== Sys2Proof/Laws/KeepsTcp.lean ====
section
/-! SUPPORT. What the operations of Machine/Tcp.lean leave as it was (Keeps). -/

set_option linter.unusedTactic false
set_option linter.unreachableTactic false
set_option linter.unusedVariables false
set_option linter.unusedSimpArgs false

namespace Sys2Proof.Machine

theorem State.updTcp_keeps {s0 s : State} (t : Nat) (f : Tcp → Tcp)  (hK : Keeps s0 s) : Keeps s0 (State.updTcp s t f) := by
  unfold State.updTcp
  repeat' (first
    | with_reducible (first | assumption)
    | (simp only [keeps_mk]; with_reducible apply keepsOn_of)
    | dsimp only
    | intro _)

theorem State.tcpOut_keeps {s0 s : State} (x : Tcp) (syn : Bool) (fin : Bool) (rst : Bool) (seq : BitVec 32) (mss : Nat) (data : List Byte)  (hK : Keeps s0 s) : Keeps s0 (State.tcpOut s x syn fin rst seq mss data) := by
  unfold State.tcpOut
  repeat' (first
    | with_reducible (first | assumption | apply State.submit_keeps)
    | split
    | dsimp only
    | intro _)

theorem State.tcpAckNow_keeps {s0 s : State} (t : Nat)  (hK : Keeps s0 s) : Keeps s0 (State.tcpAckNow s t) := by
  unfold State.tcpAckNow
  repeat' (first
    | with_reducible (first | assumption | apply State.tcpOut_keeps)
    | split
    | dsimp only
    | intro _)

theorem State.tcpPushN_keeps {s0 s : State} (t : Nat) (k : Nat)  (hK : Keeps s0 s) : Keeps s0 (State.tcpPushN s t k) := by
  induction k generalizing s t with
  | zero =>
    unfold State.tcpPushN
    try dsimp only
    repeat' (first
      | with_reducible (first | assumption | apply State.tcpOut_keeps | apply State.updTcp_keeps | apply State.drop_keeps)
      | (simp only [keeps_mk]; with_reducible apply keepsOn_of)
      | split
      | dsimp only
      | intro _)
  | succ k ih =>
    unfold State.tcpPushN
    try dsimp only
    repeat' (first
      | with_reducible (first | assumption | apply ih | apply State.tcpOut_keeps | apply State.updTcp_keeps | apply State.drop_keeps)
      | (simp only [keeps_mk]; with_reducible apply keepsOn_of)
      | split
      | dsimp only
      | intro _)

theorem State.tcpPush_keeps {s0 s : State} (t : Nat)  (hK : Keeps s0 s) : Keeps s0 (State.tcpPush s t) := by
  unfold State.tcpPush
  repeat' (first
    | with_reducible (first | assumption | apply State.tcpPushN_keeps)
    | split
    | dsimp only
    | intro _)

theorem State.tcpSend_keeps {s0 s : State} (t : Nat) (data : List Byte)  (hK : Keeps s0 s) : Keeps s0 (State.tcpSend s t data) := by
  unfold State.tcpSend
  repeat' (first
    | with_reducible (first | assumption | apply State.updTcp_keeps | apply State.tcpPush_keeps)
    | (simp only [keeps_mk]; with_reducible apply keepsOn_of)
    | dsimp only
    | intro _)

theorem State.tcpResend_keeps {s0 s : State} (t : Nat)  (hK : Keeps s0 s) : Keeps s0 (State.tcpResend s t) := by
  unfold State.tcpResend
  repeat' (first
    | with_reducible (first | assumption | apply State.tcpOut_keeps | apply State.updTcp_keeps)
    | (simp only [keeps_mk]; with_reducible apply keepsOn_of)
    | split
    | dsimp only
    | intro _)

theorem State.tcpAcked_keeps {s0 s : State} (t : Nat) (ack : BitVec 32) (wnd : Nat) (bare : Bool) (sack : List (BitVec 32 × BitVec 32))  (hK : Keeps s0 s) : Keeps s0 (State.tcpAcked s t ack wnd bare sack) := by
  unfold State.tcpAcked
  repeat' (first
    | with_reducible (first | assumption | apply State.drop_keeps | apply State.updTcp_keeps | apply State.tcpResend_keeps | apply State.tcpPush_keeps)
    | (simp only [keeps_mk]; with_reducible apply keepsOn_of)
    | split
    | dsimp only
    | intro _)

theorem State.tcpTimeout_keeps {s0 s : State} (t : Nat)  (hK : Keeps s0 s) : Keeps s0 (State.tcpTimeout s t) := by
  unfold State.tcpTimeout
  repeat' (first
    | with_reducible (first | assumption | apply State.updTcp_keeps | apply State.tcpResend_keeps)
    | (simp only [keeps_mk]; with_reducible apply keepsOn_of)
    | split
    | dsimp only
    | intro _)

theorem State.pduSend_keeps {s0 s : State} (t : Nat) (typ : Nat) (flags : Nat) (fields : List Byte) (data : List Byte)  (hK : Keeps s0 s) : Keeps s0 (State.pduSend s t typ flags fields data) := by
  unfold State.pduSend
  repeat' (first
    | with_reducible (first | assumption | apply State.tcpSend_keeps)
    | split
    | dsimp only
    | intro _)

theorem State.sendResp_keeps {s0 s : State} (t : Nat) (dw0 : Nat) (dw1 : Nat) (head : Nat) (qid : Nat) (cid : Nat) (sc : Nat)  (hK : Keeps s0 s) : Keeps s0 (State.sendResp s t dw0 dw1 head qid cid sc) := by
  unfold State.sendResp
  repeat' (first
    | with_reducible (first | assumption | apply State.pduSend_keeps)
    | dsimp only
    | intro _)

theorem State.sendData_keeps {s0 s : State} (t : Nat) (cid : Nat) (off : Nat) (k : Nat) (data : List Byte)  (hK : Keeps s0 s) : Keeps s0 (State.sendData s t cid off k data) := by
  induction k generalizing s t cid off data with
  | zero =>
    unfold State.sendData
    try dsimp only
    repeat' (first
      | with_reducible (first | assumption | apply State.pduSend_keeps | apply State.drop_keeps)
      | split
      | dsimp only
      | intro _)
  | succ k ih =>
    unfold State.sendData
    try dsimp only
    repeat' (first
      | with_reducible (first | assumption | apply ih | apply State.pduSend_keeps | apply State.drop_keeps)
      | split
      | dsimp only
      | intro _)

theorem State.sendXrdy_keeps {s0 s : State} (t : Nat) (cid : Nat) (off : Nat) (n : Nat)  (hK : Keeps s0 s) : Keeps s0 (State.sendXrdy s t cid off n) := by
  unfold State.sendXrdy
  repeat' (first
    | with_reducible (first | assumption | apply State.pduSend_keeps | apply State.count1_keeps)
    | dsimp only
    | intro _)

end Sys2Proof.Machine
end

