-- ==== Sys2Proof/Laws/KeepsRings.lean ====
section
/-! SUPPORT. What the operations of Machine/Rings.lean leave as it was (Keeps). -/

set_option linter.unusedTactic false
set_option linter.unreachableTactic false
set_option linter.unusedVariables false
set_option linter.unusedSimpArgs false

namespace Sys2Proof.Machine

theorem State.settleHead_keeps {s0 s : State} (n : Nat)  (hK : Keeps s0 s) : Keeps s0 (State.settleHead s n) := by
  unfold State.settleHead
  repeat' (first
    | with_reducible (first | assumption | apply State.fetched_keeps | apply State.setRing_keeps | apply State.release_keeps)
    | (simp only [keeps_mk]; with_reducible apply keepsOn_of)
    | split
    | dsimp only
    | intro _)

theorem State.fetched_keeps {s0 s : State} (n : Nat) (idx : Nat) (ws : List Word)  (hK : Keeps s0 s) : Keeps s0 (State.fetched s n idx ws) := by
  unfold State.fetched
  repeat' (first
    | with_reducible (first | assumption | apply State.setRing_keeps | apply State.count1_keeps | apply State.settleHead_keeps)
    | (simp only [keeps_mk]; with_reducible apply keepsOn_of)
    | dsimp only
    | intro _)

theorem State.ringStopped_keeps {s0 s : State} (n : Nat) (cause : Nat) (st : Status)  (hK : Keeps s0 s) : Keeps s0 (State.ringStopped s n cause st) := by
  unfold State.ringStopped
  repeat' (first
    | with_reducible (first | assumption | apply State.setRing_keeps | apply State.setIntBit_keeps | apply State.event_keeps)
    | (simp only [keeps_mk]; with_reducible apply keepsOn_of)
    | dsimp only
    | intro _)

theorem State.tryStop_keeps {s0 s : State} (n : Nat)  (hK : Keeps s0 s) : Keeps s0 (State.tryStop s n) := by
  unfold State.tryStop
  repeat' (first
    | with_reducible (first | assumption | apply State.ringStopped_keeps)
    | split
    | dsimp only
    | intro _)

theorem State.fetchFailed_keeps {s0 s : State} (n : Nat) (idx : Nat) (st : Status)  (hK : Keeps s0 s) : Keeps s0 (State.fetchFailed s n idx st) := by
  unfold State.fetchFailed
  repeat' (first
    | with_reducible (first | assumption | apply State.setRing_keeps | apply State.ringStopped_keeps)
    | (simp only [keeps_mk]; with_reducible apply keepsOn_of)
    | dsimp only
    | intro _)

theorem State.descFetch_keeps {s0 s : State} (n : Nat) (err : Option Status)  (hK : Keeps s0 s) : Keeps s0 (State.descFetch s n err) := by
  unfold State.descFetch
  repeat' (first
    | with_reducible (first | assumption | apply State.err_keeps | apply State.markBad_keeps | apply State.fetchFailed_keeps | apply State.setRing_keeps | apply State.fetched_keeps | apply State.issueRead_keeps)
    | refine State.issueRead_keeps_of (by with_reducible assumption) ?_
    | (simp only [keeps_mk]; with_reducible apply keepsOn_of)
    | split
    | dsimp only
    | intro _)

theorem State.popHead_keeps {s0 s : State} (n : Nat) (w : Work)  (hK : Keeps s0 s) : Keeps s0 (State.popHead s n w) := by
  unfold State.popHead
  repeat' (first
    | with_reducible (first | assumption | apply State.setRing_keeps | apply State.fetched_keeps | apply State.drop_keeps | apply State.settleHead_keeps)
    | (simp only [keeps_mk]; with_reducible apply keepsOn_of)
    | dsimp only
    | intro _)

theorem State.descStart_keeps {s0 s : State} (n : Nat)  (hK : Keeps s0 s) : Keeps s0 (State.descStart s n) := by
  unfold State.descStart
  repeat' (first
    | with_reducible (first | assumption | apply State.fetched_keeps | apply State.popHead_keeps)
    | split
    | dsimp only
    | intro _)

theorem State.waitTimeout_keeps {s0 s : State} (n : Nat)  (hK : Keeps s0 s) : Keeps s0 (State.waitTimeout s n) := by
  unfold State.waitTimeout
  repeat' (first
    | with_reducible (first | assumption | apply State.fetched_keeps | apply State.popHead_keeps)
    | split
    | dsimp only
    | intro _)

theorem State.descEnd_keeps {s0 s : State} (n : Nat) (idx : Nat)  (hK : Keeps s0 s) : Keeps s0 (State.descEnd s n idx) := by
  unfold State.descEnd
  repeat' (first
    | with_reducible (first | assumption | apply State.count1_keeps | apply State.complete_keeps | apply State.tryStop_keeps)
    | (simp only [keeps_mk]; with_reducible apply keepsOn_of)
    | split
    | dsimp only
    | intro _)

theorem State.heldWrite_keeps {s0 s : State} (n : Nat) (k : Nat)  (hK : Keeps s0 s) : Keeps s0 (State.heldWrite s n k) := by
  induction k generalizing s n with
  | zero =>
    unfold State.heldWrite
    try dsimp only
    repeat' (first
      | with_reducible (first | assumption | apply State.setRing_keeps | apply State.cplWrite_keeps)
      | (simp only [keeps_mk]; with_reducible apply keepsOn_of)
      | split
      | dsimp only
      | intro _)
  | succ k ih =>
    unfold State.heldWrite
    try dsimp only
    repeat' (first
      | with_reducible (first | assumption | apply ih | apply State.setRing_keeps | apply State.cplWrite_keeps)
      | (simp only [keeps_mk]; with_reducible apply keepsOn_of)
      | split
      | dsimp only
      | intro _)

theorem State.discardHeld_keeps {s0 s : State} (n : Nat)  (hK : Keeps s0 s) : Keeps s0 (State.discardHeld s n) := by
  unfold State.discardHeld
  repeat' (first
    | with_reducible (first | assumption | apply State.setRing_keeps | apply State.count_keeps)
    | (simp only [keeps_mk]; with_reducible apply keepsOn_of)
    | split
    | dsimp only
    | intro _)

theorem State.ringSetup_keeps {s0 s : State} (n : Nat) (x : Ring)  (hK : Keeps s0 s) : Keeps s0 (State.ringSetup s n x) := by
  unfold State.ringSetup
  repeat' (first
    | with_reducible (first | assumption | apply State.discardHeld_keeps | apply State.setRing_keeps | apply State.event_keeps | apply State.setPart_keeps)
    | (simp only [keeps_mk]; with_reducible apply keepsOn_of)
    | split
    | dsimp only
    | intro _)

theorem State.capsuleClose_keeps {s0 s : State} (n : Nat)  (hK : Keeps s0 s) : Keeps s0 (State.capsuleClose s n) := by
  unfold State.capsuleClose
  repeat' (first
    | with_reducible (first | assumption | apply State.count1_keeps | apply State.workFail_keeps | apply State.updWork_keeps | refine keeps_foldl (fun _ _ _ => ?_) ?_)
    | (simp only [keeps_mk]; with_reducible apply keepsOn_of)
    | split
    | dsimp only
    | intro _)

theorem State.fetchDrop_keeps {s0 s : State} (n : Nat)  (hK : Keeps s0 s) : Keeps s0 (State.fetchDrop s n) := by
  unfold State.fetchDrop
  repeat' (first
    | with_reducible (first | assumption | apply State.drop_keeps)
    | (simp only [keeps_mk]; with_reducible apply keepsOn_of)
    | dsimp only
    | intro _)

theorem State.ringDisable_keeps {s0 s : State} (n : Nat)  (hK : Keeps s0 s) : Keeps s0 (State.ringDisable s n) := by
  unfold State.ringDisable
  repeat' (first
    | with_reducible (first | assumption | apply State.fetched_keeps | apply State.abortDesc_keeps | apply State.fetchDrop_keeps | apply State.setRing_keeps | apply State.capsuleClose_keeps | refine keeps_foldl (fun _ _ _ => ?_) ?_)
    | (simp only [keeps_mk]; with_reducible apply keepsOn_of)
    | dsimp only
    | intro _)

theorem State.ringRead_keeps {s0 s : State} (n : Nat)  (hK : Keeps s0 s) : Keeps s0 (State.ringRead s n) := by
  unfold State.ringRead
  repeat' (first
    | with_reducible (first | assumption | apply State.setReg_keeps)
    | dsimp only
    | intro _)

theorem State.ringCmdDo_keeps {s0 s : State} (op : Nat) (n : Nat) (x : Ring)  (hK : Keeps s0 s) : Keeps s0 (State.ringCmdDo s op n x) := by
  unfold State.ringCmdDo
  repeat' (first
    | with_reducible (first | assumption | apply State.ringSetup_keeps | apply State.setRing_keeps | apply State.ringDisable_keeps | apply State.ringRead_keeps | apply State.setPart_keeps)
    | (simp only [keeps_mk]; with_reducible apply keepsOn_of)
    | split
    | dsimp only
    | intro _)

theorem State.ringCmd_keeps {s0 s : State} (op : Nat) (n : Nat) (c0 : Word) (c1 : Word) (c2 : Word)  (hK : Keeps s0 s) : Keeps s0 (State.ringCmd s op n c0 c1 c2).2 := by
  unfold State.ringCmd
  repeat' (first
    | with_reducible (first | assumption | apply State.ringCmdDo_keeps)
    | split
    | dsimp only
    | intro _)

theorem State.ringCmd_keeps_of {s0 t s : State} {op : Nat} {n : Nat} {c0 : Word} {c1 : Word} {c2 : Word}  {y0 : Status} (he : (State.ringCmd s op n c0 c1 c2) = (y0, t)) (hK : Keeps s0 s) : Keeps s0 t := by
  have hk := State.ringCmd_keeps (s0 := s0) op n c0 c1 c2 hK
  rw [he] at hk
  exact hk

theorem rngRun_keeps {s0 s : State} (val : Word)  (hK : Keeps s0 s) : Keeps s0 (rngRun val s) := by
  unfold rngRun
  repeat' (first
    | with_reducible (first | assumption | apply State.ringCmd_keeps | apply State.cmdEnd_keeps)
    | dsimp only
    | intro _)

theorem State.doorbellDrop_keeps {s0 s : State}   (hK : Keeps s0 s) : Keeps s0 (State.doorbellDrop s) := by
  unfold State.doorbellDrop
  repeat' (first
    | with_reducible (first | assumption | apply State.count1_keeps)
    | dsimp only
    | intro _)

theorem State.doorbellSub_keeps {s0 s : State} (n : Nat) (idx : Nat)  (hK : Keeps s0 s) : Keeps s0 (State.doorbellSub s n idx) := by
  unfold State.doorbellSub
  repeat' (first
    | with_reducible (first | assumption | apply State.setRing_keeps | apply State.tryStop_keeps)
    | (simp only [keeps_mk]; with_reducible apply keepsOn_of)
    | split
    | dsimp only
    | intro _)

theorem State.doorbellCons_keeps {s0 s : State} (n : Nat) (idx : Nat)  (hK : Keeps s0 s) : Keeps s0 (State.doorbellCons s n idx) := by
  unfold State.doorbellCons
  repeat' (first
    | with_reducible (first | assumption | apply State.setRing_keeps | apply State.count_keeps | apply State.ringIrq_keeps | apply State.overflow_keeps | apply State.errFor_keeps)
    | (simp only [keeps_mk]; with_reducible apply keepsOn_of)
    | split
    | dsimp only
    | intro _)

theorem State.doorbellRing_keeps {s0 s : State} (n : Nat) (idx : Nat)  (hK : Keeps s0 s) : Keeps s0 (State.doorbellRing s n idx) := by
  unfold State.doorbellRing
  repeat' (first
    | with_reducible (first | assumption | apply State.doorbellDrop_keeps | apply State.doorbellSub_keeps | apply State.doorbellCons_keeps)
    | split
    | dsimp only
    | intro _)

theorem State.doorbellAt_keeps {s0 s : State} (off : Nat) (idx : Nat)  (hK : Keeps s0 s) : Keeps s0 (State.doorbellAt s off idx) := by
  unfold State.doorbellAt
  repeat' (first
    | with_reducible (first | assumption | apply State.doorbell_keeps | apply State.doorbellDrop_keeps | apply State.doorbellRing_keeps)
    | split
    | dsimp only
    | intro _)

theorem State.doorbell_keeps {s0 s : State} (off : Nat) (val : Word)  (hK : Keeps s0 s) : Keeps s0 (State.doorbell s off val) := by
  unfold State.doorbell
  repeat' (first
    | with_reducible (first | assumption | apply State.count1_keeps | apply State.doorbellDrop_keeps | apply State.doorbellAt_keeps)
    | split
    | dsimp only
    | intro _)

theorem State.inboundUnmatched_keeps {s0 s : State} (n : Nat)  (hK : Keeps s0 s) : Keeps s0 (State.inboundUnmatched s n) := by
  unfold State.inboundUnmatched
  repeat' (first
    | with_reducible (first | assumption | apply State.count_keeps | apply State.latch_keeps)
    | dsimp only
    | intro _)

theorem State.inboundFailed_keeps {s0 s : State} (n : Nat) (p : Nat) (addr : Nat)  (hK : Keeps s0 s) : Keeps s0 (State.inboundFailed s n p addr) := by
  unfold State.inboundFailed
  repeat' (first
    | with_reducible (first | assumption | apply State.count_keeps | apply State.latch_keeps | apply State.event_keeps)
    | dsimp only
    | intro _)

theorem State.syncAct_keeps {s0 s : State} (obj : Nat) (act : SyncAct) (port : Option Nat) (addr : Nat)  (hK : Keeps s0 s) : Keeps s0 (State.syncAct s obj act port addr) := by
  unfold State.syncAct
  repeat' (first
    | with_reducible (first | assumption | apply State.syncAdd_keeps | apply State.syncSet_keeps | apply State.syncRead_keeps | apply State.emit_keeps)
    | refine State.syncRead_keeps_of (by with_reducible assumption) ?_
    | split
    | dsimp only
    | intro _)

theorem State.urLog_keeps {s0 s : State} (reqId : Nat) (off : Nat) (len : Nat)  (hK : Keeps s0 s) : Keeps s0 (State.urLog s reqId off len) := by
  unfold State.urLog
  repeat' (first
    | with_reducible (first | assumption | apply State.setReg_keeps | apply State.err_keeps)
    | dsimp only
    | intro _)

theorem State.bar0Gate_keeps {s0 s act : State} (rd : Bool) (off : Nat)  (hK : Keeps s0 s) (hKact : Keeps s0 act) : Keeps s0 (State.bar0Gate s rd off act) := by
  unfold State.bar0Gate
  repeat' (first
    | with_reducible (first | assumption | apply State.emit_keeps | apply State.count1_keeps)
    | split
    | dsimp only
    | intro _)

theorem State.syncP0_keeps {s0 s : State} (obj : Nat) (off : Nat) (act : SyncAct)  (hK : Keeps s0 s) : Keeps s0 (State.syncP0 s obj off act) := by
  unfold State.syncP0
  repeat' (first
    | with_reducible (first | assumption | apply State.bar0Gate_keeps | apply State.syncAct_keeps | apply State.err_keeps | apply State.emit_keeps)
    | split
    | dsimp only
    | intro _)

theorem State.syncBad_keeps {s0 s : State}   (hK : Keeps s0 s) : Keeps s0 (State.syncBad s) := by
  unfold State.syncBad
  repeat' (first
    | with_reducible (first | assumption | apply State.err_keeps)
    | dsimp only
    | intro _)

theorem State.apertureBad_keeps {s0 s : State} (write : Bool) (off : Nat) (len : Nat)  (hK : Keeps s0 s) : Keeps s0 (State.apertureBad s write off len) := by
  unfold State.apertureBad
  repeat' (first
    | with_reducible (first | assumption | apply State.bar0Gate_keeps | apply State.syncBad_keeps | apply State.urLog_keeps | apply State.emit_keeps)
    | split
    | dsimp only
    | intro _)

end Sys2Proof.Machine
end

