-- ==== Sys2Proof/Laws/KeepsHostLink.lean ====
section
/-! SUPPORT. What the operations of Machine/HostLink.lean leave as it was (Keeps). -/

set_option linter.unusedTactic false
set_option linter.unreachableTactic false
set_option linter.unusedVariables false
set_option linter.unusedSimpArgs false

namespace Sys2Proof.Machine

theorem State.failRead_keeps {s0 s : State} (r : HostRead) (st : Status) (noSignal : Bool)  (hK : Keeps s0 s) : Keeps s0 (State.failRead s r st noSignal) := by
  unfold State.failRead
  repeat' (first
    | with_reducible (first | assumption | apply State.fetchFailed_keeps | apply State.failOperand_keeps | apply State.serveEnd_keeps)
    | split
    | dsimp only
    | intro _)

theorem State.placeRead_keeps {s0 s : State} (r : HostRead) (data : List Byte)  (hK : Keeps s0 s) : Keeps s0 (State.placeRead s r data) := by
  unfold State.placeRead
  repeat' (first
    | with_reducible (first | assumption | apply State.updWork_keeps | apply State.updServe_keeps)
    | (simp only [keeps_mk]; with_reducible apply keepsOn_of)
    | split
    | dsimp only
    | intro _)

theorem State.readWhole_keeps {s0 s : State} (r : HostRead) (all : List Byte)  (hK : Keeps s0 s) : Keeps s0 (State.readWhole s r all) := by
  unfold State.readWhole
  repeat' (first
    | with_reducible (first | assumption | apply State.fetched_keeps)
    | split
    | dsimp only
    | intro _)

theorem State.discardCpl_keeps {s0 s : State} (q : Quar)  (hK : Keeps s0 s) : Keeps s0 (State.discardCpl s q) := by
  unfold State.discardCpl
  repeat' (first
    | with_reducible (first | assumption | apply State.count_keeps | apply State.setReg_keeps | apply State.err_keeps | apply State.latch_keeps)
    | split
    | dsimp only
    | intro _)

theorem State.unexpectedCpl_keeps {s0 s : State} (port : Nat)  (hK : Keeps s0 s) : Keeps s0 (State.unexpectedCpl s port) := by
  unfold State.unexpectedCpl
  repeat' (first
    | with_reducible (first | assumption | apply State.err_keeps | apply State.count_keeps | apply State.updDport_keeps)
    | (simp only [keeps_mk]; with_reducible apply keepsOn_of)
    | split
    | dsimp only
    | intro _)

theorem State.cplTimeout_keeps {s0 s : State} (port : Nat) (tag : Nat)  (hK : Keeps s0 s) : Keeps s0 (State.cplTimeout s port tag) := by
  unfold State.cplTimeout
  repeat' (first
    | with_reducible (first | assumption | apply State.endReads_keeps | apply State.errFor_keeps | apply State.count_keeps | apply State.latch_keeps | apply State.failRead_keeps)
    | split
    | dsimp only
    | intro _)

theorem State.readCpl_keeps {s0 s : State} (r : HostRead) (cs : CplStatus) (data : List Byte)  (hK : Keeps s0 s) : Keeps s0 (State.readCpl s r cs data) := by
  unfold State.readCpl
  repeat' (first
    | with_reducible (first | assumption | apply State.placeRead_keeps | apply State.readWhole_keeps | apply State.errFor_keeps | apply State.failRead_keeps)
    | (simp only [keeps_mk]; with_reducible apply keepsOn_of)
    | split
    | dsimp only
    | intro _)

theorem State.completion_keeps {s0 s : State} (port : Nat) (tag : Nat) (cs : CplStatus) (data : List Byte)  (hK : Keeps s0 s) : Keeps s0 (State.completion s port tag cs data) := by
  unfold State.completion
  repeat' (first
    | with_reducible (first | assumption | apply State.cplTimeout_keeps | apply State.readCpl_keeps | apply State.discardCpl_keeps | apply State.unexpectedCpl_keeps)
    | split
    | dsimp only
    | intro _)

theorem State.abortWorks_keeps {s0 s : State} (which : Work → Bool)  (hK : Keeps s0 s) : Keeps s0 (State.abortWorks s which) := by
  unfold State.abortWorks
  repeat' (first
    | with_reducible (first | assumption | apply State.failGroup_keeps | apply State.workFail_keeps | apply State.updWork_keeps | refine keeps_foldl (fun _ _ _ => ?_) ?_)
    | (simp only [keeps_mk]; with_reducible apply keepsOn_of)
    | split
    | dsimp only
    | intro _)

theorem State.abortFetched_keeps {s0 s : State} (which : Ring → Bool)  (hK : Keeps s0 s) : Keeps s0 (State.abortFetched s which) := by
  unfold State.abortFetched
  repeat' (first
    | with_reducible (first | assumption | apply State.fetched_keeps | apply State.abortDesc_keeps | apply State.setRing_keeps | apply State.settleHead_keeps | refine keeps_foldl (fun _ _ _ => ?_) ?_)
    | (simp only [keeps_mk]; with_reducible apply keepsOn_of)
    | split
    | dsimp only
    | intro _)

theorem State.fetchRewind_keeps {s0 s : State} (which : HostRead → Bool)  (hK : Keeps s0 s) : Keeps s0 (State.fetchRewind s which) := by
  unfold State.fetchRewind
  repeat' (first
    | with_reducible (first | assumption | apply State.setRing_keeps | refine keeps_foldl (fun _ _ _ => ?_) ?_)
    | (simp only [keeps_mk]; with_reducible apply keepsOn_of)
    | split
    | dsimp only
    | intro _)

theorem State.hostStop_keeps {s0 s : State} (v : Option Nat)  (hK : Keeps s0 s) : Keeps s0 (State.hostStop s v) := by
  unfold State.hostStop
  repeat' (first
    | with_reducible (first | assumption | apply State.fetchRewind_keeps | apply State.endReads_keeps | apply State.abortWorks_keeps | apply State.abortFetched_keeps)
    | dsimp only
    | intro _)

theorem State.viStop_keeps {s0 s : State} (v : Nat)  (hK : Keeps s0 s) : Keeps s0 (State.viStop s v) := by
  unfold State.viStop
  repeat' (first
    | with_reducible (first | assumption | apply State.setVi_keeps | apply State.hostStop_keeps)
    | (simp only [keeps_mk]; with_reducible apply keepsOn_of)
    | dsimp only
    | intro _)

theorem State.viRingsReset_keeps {s0 s : State} (v : Nat)  (hK : Keeps s0 s) : Keeps s0 (State.viRingsReset s v) := by
  unfold State.viRingsReset
  repeat' (first
    | with_reducible (first | assumption | apply State.fetched_keeps | apply State.abortDesc_keeps | apply State.count_keeps | refine keeps_foldl (fun _ _ _ => ?_) ?_)
    | (simp only [keeps_mk]; with_reducible apply keepsOn_of)
    | split
    | dsimp only
    | intro _)

theorem State.viReset_keeps {s0 s : State} (v : Nat)  (hK : Keeps s0 s) : Keeps s0 (State.viReset s v) := by
  unfold State.viReset
  repeat' (first
    | with_reducible (first | assumption | apply State.viStop_keeps | apply State.viRingsReset_keeps)
    | dsimp only
    | intro _)

theorem State.pbaSend_keeps {s0 s : State}   (hK : Keeps s0 s) : Keeps s0 (State.pbaSend s) := by
  unfold State.pbaSend
  repeat' (first
    | with_reducible (first | assumption | apply State.msix_keeps | refine keeps_foldl (fun _ _ _ => ?_) ?_)
    | (simp only [keeps_mk]; with_reducible apply keepsOn_of)
    | dsimp only
    | intro _)

theorem State.attWrite_keeps {s0 s : State} (v : Nat)  (hK : Keeps s0 s) : Keeps s0 (State.attWrite s v) := by
  unfold State.attWrite
  repeat' (first
    | with_reducible (first | assumption | apply State.hostWrite_keeps | apply State.setReg_keeps | apply State.setVi_keeps)
    | (simp only [keeps_mk]; with_reducible apply keepsOn_of)
    | split
    | dsimp only
    | intro _)

theorem State.flushIrq_keeps {s0 s : State}   (hK : Keeps s0 s) : Keeps s0 (State.flushIrq s) := by
  unfold State.flushIrq
  repeat' (first
    | with_reducible (first | assumption | apply State.msix_keeps | apply State.viVector_keeps | apply State.attWrite_keeps | apply State.pbaSend_keeps | refine keeps_foldl (fun _ _ _ => ?_) ?_)
    | (simp only [keeps_mk]; with_reducible apply keepsOn_of)
    | split
    | dsimp only
    | intro _)

theorem State.faultsAsk_keeps {s0 s : State}   (hK : Keeps s0 s) : Keeps s0 (State.faultsAsk s) := by
  unfold State.faultsAsk
  repeat' (first
    | with_reducible (first | assumption | apply State.priAsk_keeps | refine keeps_foldl (fun _ _ _ => ?_) ?_)
    | dsimp only
    | intro _)

theorem State.hlkPageReset_keeps {s0 s : State} (linkDown : Bool)  (hK : Keeps s0 s) : Keeps s0 (State.hlkPageReset s linkDown) := by
  unfold State.hlkPageReset
  repeat' (first
    | with_reducible (first | assumption | apply State.setReg_keeps)
    | (simp only [keeps_mk]; with_reducible apply keepsOn_of)
    | split
    | dsimp only
    | intro _)

theorem State.p0HostRingsOff_keeps {s0 s : State}   (hK : Keeps s0 s) : Keeps s0 (State.p0HostRingsOff s) := by
  unfold State.p0HostRingsOff
  repeat' (first
    | with_reducible (first | assumption | apply State.fetched_keeps | apply State.abortDesc_keeps | apply State.setRing_keeps | refine keeps_foldl (fun _ _ _ => ?_) ?_)
    | (simp only [keeps_mk]; with_reducible apply keepsOn_of)
    | split
    | dsimp only
    | intro _)

theorem State.pf0Reset_keeps {s0 s : State} (linkDown : Bool)  (hK : Keeps s0 s) : Keeps s0 (State.pf0Reset s linkDown) := by
  unfold State.pf0Reset
  repeat' (first
    | with_reducible (first | assumption | apply State.viReset_keeps | apply State.hostStop_keeps | apply State.p0HostRingsOff_keeps | apply State.hlkPageReset_keeps | refine keeps_foldl (fun _ _ _ => ?_) ?_)
    | (simp only [keeps_mk]; with_reducible apply keepsOn_of)
    | dsimp only
    | intro _)

theorem State.portFreeze_keeps {s0 s : State} (cause : Nat)  (hK : Keeps s0 s) : Keeps s0 (State.portFreeze s cause) := by
  unfold State.portFreeze
  repeat' (first
    | with_reducible (first | assumption | apply State.setReg_keeps | apply State.err_keeps | apply State.setIntBit_keeps | apply State.failRead_keeps | apply State.endReads_keeps | refine keeps_foldl (fun _ _ _ => ?_) ?_)
    | (simp only [keeps_mk]; with_reducible apply keepsOn_of)
    | split
    | dsimp only
    | intro _)

theorem State.hlkRelease_keeps {s0 s : State} (off : Nat)  (hK : Keeps s0 s) : Keeps s0 (State.hlkRelease s off) := by
  unfold State.hlkRelease
  repeat' (first
    | with_reducible (first | assumption | apply State.refuse_keeps | apply State.setReg_keeps | apply State.setIntBit_keeps | apply State.flushIrq_keeps)
    | split
    | dsimp only
    | intro _)

theorem State.setDstate_keeps {s0 s : State} (d : Nat)  (hK : Keeps s0 s) : Keeps s0 (State.setDstate s d) := by
  unfold State.setDstate
  repeat' (first
    | with_reducible (first | assumption | apply State.setReg_keeps | apply State.setIntBit_keeps)
    | split
    | dsimp only
    | intro _)

end Sys2Proof.Machine
end

