-- ==== Sys2Proof/Laws/KeepsCipher.lean ====
section
/-! SUPPORT. What the operations of Machine/Cipher.lean leave as it was (Keeps). -/

set_option linter.unusedTactic false
set_option linter.unreachableTactic false
set_option linter.unusedVariables false
set_option linter.unusedSimpArgs false

namespace Sys2Proof.Machine

theorem State.setKey_keeps {s0 s : State} (k : Nat) (x : Key)  (hK : Keeps s0 s) : Keeps s0 (State.setKey s k x) := by
  unfold State.setKey
  repeat' (first
    | with_reducible (first | assumption)
    | (simp only [keeps_mk]; with_reducible apply keepsOn_of)
    | dsimp only
    | intro _)

theorem State.keyLow_keeps {s0 s : State} (k : Nat) (low : Nat)  (hK : Keeps s0 s) : Keeps s0 (State.keyLow s k low) := by
  unfold State.keyLow
  repeat' (first
    | with_reducible (first | assumption | apply State.setKey_keeps | apply State.event_keeps)
    | (simp only [keeps_mk]; with_reducible apply keepsOn_of)
    | split
    | dsimp only
    | intro _)

theorem State.keyExhausted_keeps {s0 s : State} (k : Nat)  (hK : Keeps s0 s) : Keeps s0 (State.keyExhausted s k) := by
  unfold State.keyExhausted
  repeat' (first
    | with_reducible (first | assumption | apply State.setKey_keeps | apply State.setIntBit_keeps | apply State.event_keeps)
    | (simp only [keeps_mk]; with_reducible apply keepsOn_of)
    | split
    | dsimp only
    | intro _)

theorem State.takeNonce_keeps {s0 s : State} (k : Nat) (low : Nat)  (hK : Keeps s0 s) : Keeps s0 (State.takeNonce s k low).2 := by
  unfold State.takeNonce
  repeat' (first
    | with_reducible (first | assumption | apply State.count1_keeps | apply State.setKey_keeps | apply State.keyLow_keeps | apply State.keyExhausted_keeps)
    | (simp only [keeps_mk]; with_reducible apply keepsOn_of)
    | split
    | dsimp only
    | intro _)

theorem State.takeNonce_keeps_of {s0 t s : State} {k : Nat} {low : Nat}  {y0 : Word} (he : (State.takeNonce s k low) = (y0, t)) (hK : Keeps s0 s) : Keeps s0 t := by
  have hk := State.takeNonce_keeps (s0 := s0) k low hK
  rw [he] at hk
  exact hk

theorem State.keyUse_keeps {s0 s : State} (k : Nat)  (hK : Keeps s0 s) : Keeps s0 (State.keyUse s k).2 := by
  unfold State.keyUse
  repeat' (first
    | with_reducible (first | assumption | apply State.count1_keeps)
    | (simp only [keeps_mk]; with_reducible apply keepsOn_of)
    | split
    | dsimp only
    | intro _)

theorem State.keyUse_keeps_of {s0 t s : State} {k : Nat}  {y0 : KeyUse} (he : (State.keyUse s k) = (y0, t)) (hK : Keeps s0 s) : Keeps s0 t := by
  have hk := State.keyUse_keeps (s0 := s0) k hK
  rw [he] at hk
  exact hk

theorem State.keyIn_keeps {s0 s : State} (k : Nat)  (hK : Keeps s0 s) : Keeps s0 (State.keyIn s k) := by
  unfold State.keyIn
  repeat' (first
    | with_reducible (first | assumption | apply State.drop_keeps)
    | (simp only [keeps_mk]; with_reducible apply keepsOn_of)
    | dsimp only
    | intro _)

theorem State.draw_keeps {s0 s : State} (n : Nat)  (hK : Keeps s0 s) : Keeps s0 (State.draw s n).2 := by
  unfold State.draw
  repeat' (first
    | with_reducible (first | assumption)
    | (simp only [keeps_mk]; with_reducible apply keepsOn_of)
    | dsimp only
    | intro _)

theorem State.draw_keeps_of {s0 t s : State} {n : Nat}  {y0 : List Byte} (he : (State.draw s n) = (y0, t)) (hK : Keeps s0 s) : Keeps s0 t := by
  have hk := State.draw_keeps (s0 := s0) n hK
  rw [he] at hk
  exact hk

theorem State.segStart_keeps {s0 s : State} (w : Work) (enc : Bool) (x : Key)  (hK : Keeps s0 s) : Keeps s0 (State.segStart s w enc x).2 := by
  unfold State.segStart
  repeat' (first
    | with_reducible (first | assumption | apply State.takeNonce_keeps | apply State.setKey_keeps)
    | (simp only [keeps_mk]; with_reducible apply keepsOn_of)
    | split
    | dsimp only
    | intro _)

theorem State.segStart_keeps_of {s0 t s : State} {w : Work} {enc : Bool} {x : Key}  {y0 : Msg} (he : (State.segStart s w enc x) = (y0, t)) (hK : Keeps s0 s) : Keeps s0 t := by
  have hk := State.segStart_keeps (s0 := s0) w enc x hK
  rw [he] at hk
  exact hk

theorem State.segEnd_keeps {s0 s : State} (w : Work) (enc : Bool) (m : Msg) (r : List Byte × Msg × Bool)  (hK : Keeps s0 s) : Keeps s0 (State.segEnd s w enc m r) := by
  unfold State.segEnd
  repeat' (first
    | with_reducible (first | assumption | apply State.put_keeps | apply State.setKey_keeps | apply State.count1_keeps | apply State.workDone_keeps | apply State.workFail_keeps)
    | (simp only [keeps_mk]; with_reducible apply keepsOn_of)
    | split
    | dsimp only
    | intro _)

theorem State.segRun_keeps {s0 s : State} (w : Work) (enc : Bool) (alg : Nat) (key : List Byte) (m : Msg)  (hK : Keeps s0 s) : Keeps s0 (State.segRun s w enc alg key m) := by
  unfold State.segRun
  repeat' (first
    | with_reducible (first | assumption | apply State.fetchAll_keeps | apply State.whenUp_keeps | apply State.segEnd_keeps)
    | refine State.fetchAll_keeps_of (by with_reducible assumption) ?_
    | split
    | dsimp only
    | intro _)

theorem State.segCheck_keeps {s0 s : State} (w : Work) (enc : Bool)  (hK : Keeps s0 s) : Keeps s0 (State.segCheck s w enc) := by
  unfold State.segCheck
  repeat' (first
    | with_reducible (first | assumption | apply State.workFail_keeps | apply State.keyUse_keeps | apply State.count1_keeps | apply State.segStart_keeps | apply State.updWork_keeps | apply State.segRun_keeps)
    | refine State.keyUse_keeps_of (by with_reducible assumption) ?_
    | refine State.segStart_keeps_of (by with_reducible assumption) ?_
    | (simp only [keeps_mk]; with_reducible apply keepsOn_of)
    | split
    | dsimp only
    | intro _)

theorem State.segment_keeps {s0 s : State} (w : Work) (enc : Bool)  (hK : Keeps s0 s) : Keeps s0 (State.segment s w enc) := by
  unfold State.segment
  repeat' (first
    | with_reducible (first | assumption | apply State.segRun_keeps | apply State.probe_keeps | apply State.ingest_keeps | apply State.segCheck_keeps)
    | split
    | dsimp only
    | intro _)

theorem State.xtsRun_keeps {s0 s : State} (w : Work) (enc : Bool) (key : List Byte)  (hK : Keeps s0 s) : Keeps s0 (State.xtsRun s w enc key) := by
  unfold State.xtsRun
  repeat' (first
    | with_reducible (first | assumption | apply State.fetchAll_keeps | apply State.whenUp_keeps | apply State.put_keeps | apply State.count_keeps | apply State.workDone_keeps)
    | refine State.fetchAll_keeps_of (by with_reducible assumption) ?_
    | split
    | dsimp only
    | intro _)

theorem State.xts_keeps {s0 s : State} (w : Work) (enc : Bool)  (hK : Keeps s0 s) : Keeps s0 (State.xts s w enc) := by
  unfold State.xts
  repeat' (first
    | with_reducible (first | assumption | apply State.xtsRun_keeps | apply State.probe_keeps | apply State.ingest_keeps | apply State.keyUse_keeps | apply State.workFail_keeps | apply State.updWork_keeps)
    | refine State.keyUse_keeps_of (by with_reducible assumption) ?_
    | (simp only [keeps_mk]; with_reducible apply keepsOn_of)
    | split
    | dsimp only
    | intro _)

theorem State.keyPut_keeps {s0 s : State} (w : Work) (key : List Byte)  (hK : Keeps s0 s) : Keeps s0 (State.keyPut s w key) := by
  unfold State.keyPut
  repeat' (first
    | with_reducible (first | assumption | apply State.workFail_keeps | apply State.setKey_keeps | apply State.keyIn_keeps | apply State.keyLow_keeps | apply State.workDone_keeps)
    | (simp only [keeps_mk]; with_reducible apply keepsOn_of)
    | split
    | dsimp only
    | intro _)

theorem State.keyLoad_keeps {s0 s : State} (w : Work)  (hK : Keeps s0 s) : Keeps s0 (State.keyLoad s w) := by
  unfold State.keyLoad
  repeat' (first
    | with_reducible (first | assumption | apply State.keyPut_keeps | apply State.workFail_keeps)
    | refine State.fetch_keeps (by with_reducible assumption) ?_
    | split
    | dsimp only
    | intro _)

theorem State.keyGen_keeps {s0 s : State} (w : Work)  (hK : Keeps s0 s) : Keeps s0 (State.keyGen s w) := by
  unfold State.keyGen
  repeat' (first
    | with_reducible (first | assumption | apply State.draw_keeps | apply State.keyPut_keeps | apply State.workFail_keeps)
    | refine State.draw_keeps_of (by with_reducible assumption) ?_
    | split
    | dsimp only
    | intro _)

theorem State.keyClear_keeps {s0 s : State} (w : Work)  (hK : Keeps s0 s) : Keeps s0 (State.keyClear s w) := by
  unfold State.keyClear
  repeat' (first
    | with_reducible (first | assumption | apply State.setKey_keeps | apply State.workDone_keeps | apply State.workFail_keeps)
    | split
    | dsimp only
    | intro _)

theorem State.saveKey_keeps {s0 s : State} (w : Work)  (hK : Keeps s0 s) : Keeps s0 (State.saveKey s w) := by
  unfold State.saveKey
  repeat' (first
    | with_reducible (first | assumption | apply State.whenUp_keeps | apply State.put_keeps | apply State.setKey_keeps | apply State.workDone_keeps | apply State.workFail_keeps)
    | split
    | dsimp only
    | intro _)

theorem State.restoreRecord_keeps {s0 s : State} (w : Work) (ws : List Word) (tail : List Byte)  (hK : Keeps s0 s) : Keeps s0 (State.restoreRecord s w ws tail) := by
  unfold State.restoreRecord
  repeat' (first
    | with_reducible (first | assumption | apply State.setKey_keeps | apply State.keyIn_keeps | apply State.keyLow_keeps | apply State.workDone_keeps | apply State.workFail_keeps)
    | split
    | dsimp only
    | intro _)

theorem State.restoreKey_keeps {s0 s : State} (w : Work)  (hK : Keeps s0 s) : Keeps s0 (State.restoreKey s w) := by
  unfold State.restoreKey
  repeat' (first
    | with_reducible (first | assumption | apply State.restoreRecord_keeps | apply State.drop_keeps | apply State.workFail_keeps)
    | refine State.fetch_keeps (by with_reducible assumption) ?_
    | split
    | dsimp only
    | intro _)

theorem cphRun_keeps {s0 s : State} (val : Word)  (hK : Keeps s0 s) : Keeps s0 (cphRun val s) := by
  unfold cphRun
  repeat' (first
    | with_reducible (first | assumption | apply State.cmdEnd_keeps | apply State.setPart_keeps)
    | (simp only [keeps_mk]; with_reducible apply keepsOn_of)
    | split
    | dsimp only
    | intro _)

end Sys2Proof.Machine
end

