-- ==== Sys2Proof/Laws/KeepsNumbers.lean ====
section
/-! SUPPORT. What the operations of Machine/Numbers.lean leave as it was (Keeps). -/

set_option linter.unusedTactic false
set_option linter.unreachableTactic false
set_option linter.unusedVariables false
set_option linter.unusedSimpArgs false

namespace Sys2Proof.Machine

theorem State.countNum_keeps {s0 s : State} (code : Nat) (n : Nat)  (hK : Keeps s0 s) : Keeps s0 (State.countNum s code n) := by
  unfold State.countNum
  repeat' (first
    | with_reducible (first | assumption | apply State.count_keeps)
    | split
    | dsimp only
    | intro _)

theorem State.countConv_keeps {s0 s : State} (n : Nat) (sat : Nat) (flushed : Nat) (nan : Nat)  (hK : Keeps s0 s) : Keeps s0 (State.countConv s n sat flushed nan) := by
  unfold State.countConv
  repeat' (first
    | with_reducible (first | assumption | apply State.countNum_keeps)
    | dsimp only
    | intro _)

theorem State.converted_keeps {s0 s : State} (w : Work) (dst : Elem) (c : Converted)  (hK : Keeps s0 s) : Keeps s0 (State.converted s w dst c) := by
  unfold State.converted
  repeat' (first
    | with_reducible (first | assumption | apply State.put_keeps | apply State.countConv_keeps | apply State.workDone_keeps)
    | split
    | dsimp only
    | intro _)

theorem State.numOut_keeps {s0 s act : State} (w : Work) (l : List Nat)  (hK : Keeps s0 s) (hKact : Keeps s0 act) : Keeps s0 (State.numOut s w l act) := by
  unfold State.numOut
  repeat' (first
    | with_reducible (first | assumption)
    | split
    | dsimp only
    | intro _)

theorem State.convert_keeps {s0 s : State} (w : Work)  (hK : Keeps s0 s) : Keeps s0 (State.convert s w) := by
  unfold State.convert
  repeat' (first
    | with_reducible (first | assumption | apply State.workFail_keeps | apply State.fetchAll_keeps | apply State.numOut_keeps | apply State.converted_keeps)
    | refine State.fetchAll_keeps_of (by with_reducible assumption) ?_
    | split
    | dsimp only
    | intro _)

theorem State.summed_keeps {s0 s : State} (w : Work) (src : Elem) (dst : Elem) (x0 : Xacc) (x : Xacc)  (hK : Keeps s0 s) : Keeps s0 (State.summed s w src dst x0 x) := by
  unfold State.summed
  repeat' (first
    | with_reducible (first | assumption | apply State.put_keeps | apply State.countNum_keeps | apply State.workDone_keeps)
    | split
    | dsimp only
    | intro _)

theorem State.sum_keeps {s0 s : State} (w : Work)  (hK : Keeps s0 s) : Keeps s0 (State.sum s w) := by
  unfold State.sum
  repeat' (first
    | with_reducible (first | assumption | apply State.workFail_keeps | apply State.fetchAll_keeps | apply State.workDone_keeps | apply State.zero_keeps | apply State.numOut_keeps | apply State.summed_keeps)
    | refine State.fetchAll_keeps_of (by with_reducible assumption) ?_
    | split
    | dsimp only
    | intro _)

end Sys2Proof.Machine
end

