-- ==== Sys2Proof/Laws/KeepsCellar.lean ====
section
/-! SUPPORT. What the operations of Machine/Cellar.lean leave as it was (Keeps). -/

set_option linter.unusedTactic false
set_option linter.unreachableTactic false
set_option linter.unusedVariables false
set_option linter.unusedSimpArgs false

namespace Sys2Proof.Machine

theorem State.seqMake_keeps {s0 s : State} (q : Nat) (a : Nat) (lowTok : Nat) (h : Shape)  (hK : Keeps s0 s) : Keeps s0 (State.seqMake s q a lowTok h) := by
  unfold State.seqMake
  repeat' (first
    | with_reducible (first | assumption | apply State.zero_keeps | apply State.setSeq_keeps)
    | (simp only [keeps_mk]; with_reducible apply keepsOn_of)
    | dsimp only
    | intro _)

theorem State.seqCreate_keeps {s0 s : State} (w : Work)  (hK : Keeps s0 s) : Keeps s0 (State.seqCreate s w) := by
  unfold State.seqCreate
  repeat' (first
    | with_reducible (first | assumption | apply State.workFail_keeps | apply State.seqMake_keeps | apply State.workDone_keeps)
    | split
    | dsimp only
    | intro _)

theorem State.ingestRow_keeps {s0 s : State} (x : Seq) (ws : List Word) (adj : Int) (data : List Byte) (scales : List Byte) (acc : Nat × Nat × Nat) (r : Nat × Nat × Nat)  (hK : Keeps s0 s) : Keeps s0 (State.ingestRow s x ws adj data scales acc r).1 := by
  unfold State.ingestRow
  repeat' (first
    | with_reducible (first | assumption | apply State.drop_keeps | apply State.setBytes_keeps)
    | split
    | dsimp only
    | intro _)

theorem State.ingestRows_keeps {s0 s : State} (x : Seq) (ws : List Word) (adj : Int) (data : List Byte) (scales : List Byte) (acc : Nat × Nat × Nat) (rs : List (Nat × Nat × Nat))  (hK : Keeps s0 s) : Keeps s0 (State.ingestRows s x ws adj data scales acc rs).1 := by
  induction rs generalizing s x ws adj data scales acc with
  | nil =>
    unfold State.ingestRows
    try dsimp only
    repeat' (first
      | with_reducible (first | assumption | apply State.ingestRow_keeps)
      | split
      | dsimp only
      | intro _)
  | cons x r ih =>
    unfold State.ingestRows
    try dsimp only
    repeat' (first
      | with_reducible (first | assumption | apply ih | apply State.ingestRow_keeps)
      | split
      | dsimp only
      | intro _)

theorem State.ingestData_keeps {s0 s : State} (w : Work) (cfg : Word) (alloc : List Nat)  (hK : Keeps s0 s) : Keeps s0 (State.ingestData s w cfg alloc) := by
  unfold State.ingestData
  repeat' (first
    | with_reducible (first | assumption | apply State.fetchAll_keeps | apply State.workDone_keeps | apply State.ingestRows_keeps | apply State.updWork_keeps | apply State.ingest_keeps)
    | refine State.fetchAll_keeps_of (by with_reducible assumption) ?_
    | (simp only [keeps_mk]; with_reducible apply keepsOn_of)
    | split
    | dsimp only
    | intro _)

theorem State.ingestAlloc_keeps {s0 s : State} (x : Seq) (ws : List Word) (need : List (Nat × Nat))  (hK : Keeps s0 s) : Keeps s0 (State.ingestAlloc s x ws need).2 := by
  unfold State.ingestAlloc
  repeat' (first
    | with_reducible (first | assumption | apply State.allocSlots_keeps | apply State.setHandle_keeps | refine keeps_foldl (fun _ _ _ => ?_) ?_)
    | dsimp only
    | intro _)

theorem State.ingestAlloc_keeps_of {s0 t s : State} {x : Seq} {ws : List Word} {need : List (Nat × Nat)}  {y0 : List Nat} (he : (State.ingestAlloc s x ws need) = (y0, t)) (hK : Keeps s0 s) : Keeps s0 t := by
  have hk := State.ingestAlloc_keeps (s0 := s0) x ws need hK
  rw [he] at hk
  exact hk

theorem State.ingestStart_keeps {s0 s : State} (w : Work)  (hK : Keeps s0 s) : Keeps s0 (State.ingestStart s w) := by
  unfold State.ingestStart
  repeat' (first
    | with_reducible (first | assumption | apply State.workFail_keeps | apply State.count1_keeps | apply State.workDone_keeps | apply State.ingestAlloc_keeps | apply State.updWork_keeps | apply State.ingest_keeps | apply State.ingestData_keeps)
    | refine State.ingestAlloc_keeps_of (by with_reducible assumption) ?_
    | (simp only [keeps_mk]; with_reducible apply keepsOn_of)
    | split
    | dsimp only
    | intro _)

theorem State.ingest_keeps {s0 s : State} (w : Work)  (hK : Keeps s0 s) : Keeps s0 (State.ingest s w) := by
  unfold State.ingest
  repeat' (first
    | with_reducible (first | assumption | apply State.ingestData_keeps | apply State.probe_keeps | apply State.ingestStart_keeps | apply State.workFail_keeps)
    | split
    | dsimp only
    | intro _)

theorem State.countKvs_keeps {s0 s : State} (code : Nat) (n : Nat)  (hK : Keeps s0 s) : Keeps s0 (State.countKvs s code n) := by
  unfold State.countKvs
  repeat' (first
    | with_reducible (first | assumption | apply State.count_keeps)
    | split
    | dsimp only
    | intro _)

theorem State.ingestDone_keeps {s0 s : State} (ring : Nat) (idx : Nat)  (hK : Keeps s0 s) : Keeps s0 (State.ingestDone s ring idx) := by
  unfold State.ingestDone
  repeat' (first
    | with_reducible (first | assumption | apply State.ingest_keeps | apply State.setTokens_keeps | apply State.countKvs_keeps | apply State.workDone_keeps)
    | split
    | dsimp only
    | intro _)

theorem State.lookupPut_keeps {s0 s : State} (w : Work) (x : Seq) (n : Nat)  (hK : Keeps s0 s) : Keeps s0 (State.lookupPut s w x n) := by
  unfold State.lookupPut
  repeat' (first
    | with_reducible (first | assumption | apply State.put_keeps)
    | split
    | dsimp only
    | intro _)

theorem State.lookup_keeps {s0 s : State} (w : Work)  (hK : Keeps s0 s) : Keeps s0 (State.lookup s w) := by
  unfold State.lookup
  repeat' (first
    | with_reducible (first | assumption | apply State.workFail_keeps | apply State.count1_keeps | apply State.workDone_keeps | apply State.whenUp_keeps | apply State.lookupPut_keeps)
    | split
    | dsimp only
    | intro _)

theorem State.forkInto_keeps {s0 s : State} (src : Nat) (new : Nat) (a : Nat) (n : Nat)  (hK : Keeps s0 s) : Keeps s0 (State.forkInto s src new a n) := by
  unfold State.forkInto
  repeat' (first
    | with_reducible (first | assumption | apply State.seqMake_keeps | apply State.setTokens_keeps | apply State.setHandle_keeps | apply State.updPool_keeps | apply State.slotStore_keeps | refine keeps_foldl (fun _ _ _ => ?_) ?_)
    | (simp only [keeps_mk]; with_reducible apply keepsOn_of)
    | split
    | dsimp only
    | intro _)

theorem State.fork_keeps {s0 s : State} (w : Work)  (hK : Keeps s0 s) : Keeps s0 (State.fork s w) := by
  unfold State.fork
  repeat' (first
    | with_reducible (first | assumption | apply State.forkInto_keeps | apply State.workDone_keeps | apply State.workFail_keeps)
    | split
    | dsimp only
    | intro _)

theorem State.trimTo_keeps {s0 s : State} (q : Nat) (before : Nat)  (hK : Keeps s0 s) : Keeps s0 (State.trimTo s q before) := by
  unfold State.trimTo
  repeat' (first
    | with_reducible (first | assumption | apply State.setHandle_keeps | apply State.setSeq_keeps | apply State.settleDeferred_keeps | refine keeps_foldl (fun _ _ _ => ?_) ?_)
    | (simp only [keeps_mk]; with_reducible apply keepsOn_of)
    | split
    | dsimp only
    | intro _)

theorem State.trim_keeps {s0 s : State} (w : Work)  (hK : Keeps s0 s) : Keeps s0 (State.trim s w) := by
  unfold State.trim
  repeat' (first
    | with_reducible (first | assumption | apply State.trimTo_keeps | apply State.workDone_keeps | apply State.workFail_keeps)
    | split
    | dsimp only
    | intro _)

theorem State.drop_keeps {s0 s : State} (w : Work)  (hK : Keeps s0 s) : Keeps s0 (State.drop s w) := by
  unfold State.drop
  repeat' (first
    | with_reducible (first | assumption | apply State.setSeq_keeps | apply State.updWork_keeps | apply State.workFail_keeps)
    | (simp only [keeps_mk]; with_reducible apply keepsOn_of)
    | split
    | dsimp only
    | intro _)

theorem State.dropDone_keeps {s0 s : State} (q : Nat)  (hK : Keeps s0 s) : Keeps s0 (State.dropDone s q) := by
  unfold State.dropDone
  repeat' (first
    | with_reducible (first | assumption | apply State.releaseSlot_keeps | apply State.setSeq_keeps | apply State.workDone_keeps | refine keeps_foldl (fun _ _ _ => ?_) ?_)
    | (simp only [keeps_mk]; with_reducible apply keepsOn_of)
    | split
    | dsimp only
    | intro _)

theorem State.kvsQuery_keeps {s0 s : State} (w : Work)  (hK : Keeps s0 s) : Keeps s0 (State.kvsQuery s w) := by
  unfold State.kvsQuery
  repeat' (first
    | with_reducible (first | assumption | apply State.workDone_keeps | apply State.workFail_keeps)
    | split
    | dsimp only
    | intro _)

theorem State.kvsSetPart_keeps {s0 s : State} (p : Nat) (a0 : Word) (a1 : Word)  (hK : Keeps s0 s) : Keeps s0 (State.kvsSetPart s p a0 a1).2 := by
  unfold State.kvsSetPart
  repeat' (first
    | with_reducible (first | assumption | apply State.setPart_keeps)
    | (simp only [keeps_mk]; with_reducible apply keepsOn_of)
    | split
    | dsimp only
    | intro _)

theorem State.kvsSetPart_keeps_of {s0 t s : State} {p : Nat} {a0 : Word} {a1 : Word}  {y0 : Status} (he : (State.kvsSetPart s p a0 a1) = (y0, t)) (hK : Keeps s0 s) : Keeps s0 t := by
  have hk := State.kvsSetPart_keeps (s0 := s0) p a0 a1 hK
  rw [he] at hk
  exact hk

theorem State.poolAdd_keeps {s0 s : State} (p : Nat) (n : Nat) (a0 : Word) (a1 : Word)  (hK : Keeps s0 s) : Keeps s0 (State.poolAdd s p n a0 a1).2 := by
  unfold State.poolAdd
  repeat' (first
    | with_reducible (first | assumption | apply State.poolLow_keeps | refine keeps_foldl (fun _ _ _ => ?_) ?_ | refine keeps_foldl_third (fun _ _ _ => ?_) ?_ | refine keeps_foldl_snd (fun _ _ _ => ?_) ?_ | refine keeps_foldl_fst (fun _ _ _ => ?_) ?_)
    | (simp only [keeps_mk]; with_reducible apply keepsOn_of)
    | split
    | dsimp only
    | intro _)

theorem State.poolAdd_keeps_of {s0 t s : State} {p : Nat} {n : Nat} {a0 : Word} {a1 : Word}  {y0 : Status} (he : (State.poolAdd s p n a0 a1) = (y0, t)) (hK : Keeps s0 s) : Keeps s0 t := by
  have hk := State.poolAdd_keeps (s0 := s0) p n a0 a1 hK
  rw [he] at hk
  exact hk

theorem State.poolClear_keeps {s0 s : State} (p : Nat) (n : Nat)  (hK : Keeps s0 s) : Keeps s0 (State.poolClear s p n).2 := by
  unfold State.poolClear
  repeat' (first
    | with_reducible (first | assumption)
    | (simp only [keeps_mk]; with_reducible apply keepsOn_of)
    | split
    | dsimp only
    | intro _)

theorem State.poolClear_keeps_of {s0 t s : State} {p : Nat} {n : Nat}  {y0 : Status} (he : (State.poolClear s p n) = (y0, t)) (hK : Keeps s0 s) : Keeps s0 t := by
  have hk := State.poolClear_keeps (s0 := s0) p n hK
  rw [he] at hk
  exact hk

theorem State.poolRead_keeps {s0 s : State} (p : Nat) (n : Nat)  (hK : Keeps s0 s) : Keeps s0 (State.poolRead s p n).2 := by
  unfold State.poolRead
  repeat' (first
    | with_reducible (first | assumption | apply State.setReg_keeps)
    | split
    | dsimp only
    | intro _)

theorem State.poolRead_keeps_of {s0 t s : State} {p : Nat} {n : Nat}  {y0 : Status} (he : (State.poolRead s p n) = (y0, t)) (hK : Keeps s0 s) : Keeps s0 t := by
  have hk := State.poolRead_keeps (s0 := s0) p n hK
  rw [he] at hk
  exact hk

theorem State.retireAdd_keeps {s0 s : State} (a0 : Word)  (hK : Keeps s0 s) : Keeps s0 (State.retireAdd s a0).2 := by
  unfold State.retireAdd
  repeat' (first
    | with_reducible (first | assumption | apply State.setIntBit_keeps | apply State.poisonAt_keeps)
    | (simp only [keeps_mk]; with_reducible apply keepsOn_of)
    | split
    | dsimp only
    | intro _)

theorem State.retireAdd_keeps_of {s0 t s : State} {a0 : Word}  {y0 : Status} (he : (State.retireAdd s a0) = (y0, t)) (hK : Keeps s0 s) : Keeps s0 t := by
  have hk := State.retireAdd_keeps (s0 := s0) a0 hK
  rw [he] at hk
  exact hk

theorem State.retireRead_keeps {s0 s : State} (a0 : Word)  (hK : Keeps s0 s) : Keeps s0 (State.retireRead s a0).2 := by
  unfold State.retireRead
  repeat' (first
    | with_reducible (first | assumption | apply State.setReg_keeps)
    | dsimp only
    | intro _)

theorem State.retireRead_keeps_of {s0 t s : State} {a0 : Word}  {y0 : Status} (he : (State.retireRead s a0) = (y0, t)) (hK : Keeps s0 s) : Keeps s0 t := by
  have hk := State.retireRead_keeps (s0 := s0) a0 hK
  rw [he] at hk
  exact hk

theorem kvsRun_keeps {s0 s : State} (val : Word)  (hK : Keeps s0 s) : Keeps s0 (kvsRun val s) := by
  unfold kvsRun
  repeat' (first
    | with_reducible (first | assumption | apply State.kvsSetPart_keeps | apply State.poolAdd_keeps | apply State.poolClear_keeps | apply State.poolRead_keeps | apply State.retireAdd_keeps | apply State.retireRead_keeps | apply State.cmdEnd_keeps)
    | refine State.kvsSetPart_keeps_of (by with_reducible assumption) ?_
    | refine State.poolAdd_keeps_of (by with_reducible assumption) ?_
    | refine State.poolClear_keeps_of (by with_reducible assumption) ?_
    | refine State.poolRead_keeps_of (by with_reducible assumption) ?_
    | refine State.retireAdd_keeps_of (by with_reducible assumption) ?_
    | refine State.retireRead_keeps_of (by with_reducible assumption) ?_
    | split
    | dsimp only
    | intro _)

end Sys2Proof.Machine
end

