-- ==== Sys2Proof/Laws/KeepsAttention.lean ====
section
/-! SUPPORT. What the operations of Machine/Attention.lean leave as it was (Keeps). -/

set_option linter.unusedTactic false
set_option linter.unreachableTactic false
set_option linter.unusedVariables false
set_option linter.unusedSimpArgs false

namespace Sys2Proof.Machine

theorem State.updReq_keeps {s0 s : State} (id : Nat) (f : Req → Req)  (hK : Keeps s0 s) : Keeps s0 (State.updReq s id f) := by
  unfold State.updReq
  repeat' (first
    | with_reducible (first | assumption)
    | (simp only [keeps_mk]; with_reducible apply keepsOn_of)
    | split
    | dsimp only
    | intro _)

theorem State.updInbox_keeps {s0 s : State} (n : Nat) (f : Inbox → Inbox)  (hK : Keeps s0 s) : Keeps s0 (State.updInbox s n f) := by
  unfold State.updInbox
  repeat' (first
    | with_reducible (first | assumption)
    | (simp only [keeps_mk]; with_reducible apply keepsOn_of)
    | dsimp only
    | intro _)

theorem State.respFailed_keeps {s0 s : State} (r : Req) (n : Nat) (k : Nat) (st : Status)  (hK : Keeps s0 s) : Keeps s0 (State.respFailed s r n k st) := by
  unfold State.respFailed
  repeat' (first
    | with_reducible (first | assumption | apply State.setIntBit_keeps | apply State.event_keeps)
    | (simp only [keeps_mk]; with_reducible apply keepsOn_of)
    | split
    | dsimp only
    | intro _)

theorem State.reqEnd_keeps {s0 s : State} (r : Req) (delivery : Status)  (hK : Keeps s0 s) : Keeps s0 (State.reqEnd s r delivery) := by
  unfold State.reqEnd
  repeat' (first
    | with_reducible (first | assumption | apply State.unuseSeq_keeps | apply State.count1_keeps | apply State.attend_keeps | apply State.workFail_keeps | apply State.workDone_keeps | apply State.respFailed_keeps)
    | (simp only [keeps_mk]; with_reducible apply keepsOn_of)
    | split
    | dsimp only
    | intro _)

theorem State.deliver_keeps {s0 s : State} (r : Req) (outputs : List Byte)  (hK : Keeps s0 s) : Keeps s0 (State.deliver s r outputs) := by
  unfold State.deliver
  repeat' (first
    | with_reducible (first | assumption | apply State.updReq_keeps | apply State.connEnqueue_keeps | apply State.put_keeps | apply State.syncAdd_keeps | apply State.reqEnd_keeps | apply State.errFor_keeps)
    | (simp only [keeps_mk]; with_reducible apply keepsOn_of)
    | split
    | dsimp only
    | intro _)

theorem State.reqFail_keeps {s0 s : State} (r : Req) (st : Status) (detail : Nat)  (hK : Keeps s0 s) : Keeps s0 (State.reqFail s r st detail) := by
  unfold State.reqFail
  repeat' (first
    | with_reducible (first | assumption | apply State.updReq_keeps | apply State.deliver_keeps)
    | (simp only [keeps_mk]; with_reducible apply keepsOn_of)
    | split
    | dsimp only
    | intro _)

theorem State.responseAcked_keeps {s0 s : State} (id : Nat) (st : Status)  (hK : Keeps s0 s) : Keeps s0 (State.responseAcked s id st) := by
  unfold State.responseAcked
  repeat' (first
    | with_reducible (first | assumption | apply State.updConn_keeps | apply State.reqEnd_keeps)
    | split
    | dsimp only
    | intro _)

theorem State.takeReq_keeps {s0 s : State} (p : Nat) (origin : ReqFrom) (vi : Option Nat) (limit : Nat) (recOk : Bool) (record : List Byte)  (hK : Keeps s0 s) : Keeps s0 (State.takeReq s p origin vi limit recOk record) := by
  unfold State.takeReq
  repeat' (first
    | with_reducible (first | assumption | apply State.count1_keeps | apply State.reqFail_keeps | apply State.useSeq_keeps)
    | refine State.useSeq_keeps_of (by with_reducible assumption) ?_
    | (simp only [keeps_mk]; with_reducible apply keepsOn_of)
    | split
    | dsimp only
    | intro _)

theorem State.inboxOpen_keeps {s0 s : State} (w : Work)  (hK : Keeps s0 s) : Keeps s0 (State.inboxOpen s w) := by
  unfold State.inboxOpen
  repeat' (first
    | with_reducible (first | assumption | apply State.workDone_keeps | apply State.workFail_keeps)
    | (simp only [keeps_mk]; with_reducible apply keepsOn_of)
    | split
    | dsimp only
    | intro _)

theorem State.inboxClose_keeps {s0 s : State} (w : Work)  (hK : Keeps s0 s) : Keeps s0 (State.inboxClose s w) := by
  unfold State.inboxClose
  repeat' (first
    | with_reducible (first | assumption | apply State.workFail_keeps | apply State.updInbox_keeps | apply State.updWork_keeps)
    | (simp only [keeps_mk]; with_reducible apply keepsOn_of)
    | split
    | dsimp only
    | intro _)

theorem State.inboxClosed_keeps {s0 s : State} (n : Nat)  (hK : Keeps s0 s) : Keeps s0 (State.inboxClosed s n) := by
  unfold State.inboxClosed
  repeat' (first
    | with_reducible (first | assumption | apply State.workDone_keeps)
    | (simp only [keeps_mk]; with_reducible apply keepsOn_of)
    | split
    | dsimp only
    | intro _)

theorem State.inboxQuery_keeps {s0 s : State} (w : Work)  (hK : Keeps s0 s) : Keeps s0 (State.inboxQuery s w) := by
  unfold State.inboxQuery
  repeat' (first
    | with_reducible (first | assumption | apply State.workFail_keeps | apply State.workDone_keeps)
    | split
    | dsimp only
    | intro _)

theorem State.inboxTake_keeps {s0 s : State} (n : Nat)  (hK : Keeps s0 s) : Keeps s0 (State.inboxTake s n) := by
  unfold State.inboxTake
  repeat' (first
    | with_reducible (first | assumption | apply State.updInbox_keeps | apply State.takeReq_keeps)
    | (simp only [keeps_mk]; with_reducible apply keepsOn_of)
    | split
    | dsimp only
    | intro _)

theorem State.attDrain_keeps {s0 s : State} (p : Nat)  (hK : Keeps s0 s) : Keeps s0 (State.attDrain s p) := by
  unfold State.attDrain
  repeat' (first
    | with_reducible (first | assumption | apply State.unuseSeq_keeps | apply State.updConn_keeps | apply State.attend_keeps | apply State.workFail_keeps | apply State.workDone_keeps | refine keeps_foldl (fun _ _ _ => ?_) ?_)
    | (simp only [keeps_mk]; with_reducible apply keepsOn_of)
    | split
    | dsimp only
    | intro _)

theorem State.chunkStart_keeps {s0 s : State} (u : Nat)  (hK : Keeps s0 s) : Keeps s0 (State.chunkStart s u) := by
  unfold State.chunkStart
  repeat' (first
    | with_reducible (first | assumption | apply State.updReq_keeps)
    | (simp only [keeps_mk]; with_reducible apply keepsOn_of)
    | split
    | dsimp only
    | intro _)

theorem State.reqFinish_keeps {s0 s : State} (r : Req)  (hK : Keeps s0 s) : Keeps s0 (State.reqFinish s r) := by
  unfold State.reqFinish
  repeat' (first
    | with_reducible (first | assumption | apply State.count_keeps | apply State.deliver_keeps)
    | (simp only [keeps_mk]; with_reducible apply keepsOn_of)
    | split
    | dsimp only
    | intro _)

theorem State.chunkDone_keeps {s0 s : State} (u : Nat)  (hK : Keeps s0 s) : Keeps s0 (State.chunkDone s u) := by
  unfold State.chunkDone
  repeat' (first
    | with_reducible (first | assumption | apply State.reqFail_keeps | apply State.count_keeps | apply State.updReq_keeps | apply State.complete_keeps | apply State.reqFinish_keeps)
    | (simp only [keeps_mk]; with_reducible apply keepsOn_of)
    | split
    | dsimp only
    | intro _)

theorem State.attend_keeps {s0 s : State} (w : Work)  (hK : Keeps s0 s) : Keeps s0 (State.attend s w) := by
  unfold State.attend
  repeat' (first
    | with_reducible (first | assumption | apply State.updWork_keeps | apply State.takeReq_keeps | apply State.complete_keeps | apply State.reqFinish_keeps | apply State.workFail_keeps)
    | refine State.fetch_keeps (by with_reducible assumption) ?_
    | (simp only [keeps_mk]; with_reducible apply keepsOn_of)
    | split
    | dsimp only
    | intro _)

theorem State.reqPoisoned_keeps {s0 s : State} (r : Req) (a : Nat)  (hK : Keeps s0 s) : Keeps s0 (State.reqPoisoned s r a) := by
  unfold State.reqPoisoned
  repeat' (first
    | with_reducible (first | assumption | apply State.latch_keeps | apply State.reqFail_keeps)
    | split
    | dsimp only
    | intro _)

theorem State.blockReadError_keeps {s0 s : State} (a : Nat) (again : Bool) (ring : Nat) (idx : Nat)  (hK : Keeps s0 s) : Keeps s0 (State.blockReadError s a again ring idx) := by
  unfold State.blockReadError
  repeat' (first
    | with_reducible (first | assumption | apply State.count_keeps | apply State.markBad_keeps | apply State.retirePage_keeps | apply State.latch_keeps | apply State.attend_keeps | apply State.reqPoisoned_keeps | apply State.workDone_keeps)
    | split
    | dsimp only
    | intro _)

end Sys2Proof.Machine
end

