-- ==== Sys2Proof/Laws/KeepsKiln.lean ====
section
/-! SUPPORT. What the operations of Machine/Kiln.lean leave as it was (Keeps). -/

set_option linter.unusedTactic false
set_option linter.unreachableTactic false
set_option linter.unusedVariables false
set_option linter.unusedSimpArgs false

namespace Sys2Proof.Machine

theorem State.stepStart_keeps {s0 s : State} (w : Work) (hd : List Word) (es : List (List Word)) (target : Nat)  (hK : Keeps s0 s) : Keeps s0 (State.stepStart s w hd es target) := by
  unfold State.stepStart
  repeat' (first
    | with_reducible (first | assumption | apply State.sum_keeps | apply State.workFail_keeps | apply State.updWork_keeps | apply State.stepIssue_keeps)
    | refine State.stageTake_keeps (by with_reducible assumption) ?_
    | refine State.stageTake_keeps_p (by with_reducible assumption) ?_
    | (simp only [keeps_mk]; with_reducible apply keepsOn_of)
    | split
    | dsimp only
    | intro _)

theorem State.stepAsk_keeps {s0 s : State} (sid : Nat)  (hK : Keeps s0 s) : Keeps s0 (State.stepAsk s sid) := by
  unfold State.stepAsk
  repeat' (first
    | with_reducible (first | assumption | apply State.askPieces_keeps | apply State.updWork_keeps | refine keeps_foldl (fun _ _ _ => ?_) ?_)
    | (simp only [keeps_mk]; with_reducible apply keepsOn_of)
    | split
    | dsimp only
    | intro _)

theorem State.stepOpen_keeps {s0 s : State} (w : Work)  (hK : Keeps s0 s) : Keeps s0 (State.stepOpen s w) := by
  unfold State.stepOpen
  repeat' (first
    | with_reducible (first | assumption | apply State.stepAsk_keeps | apply State.workFail_keeps | apply State.stepStart_keeps)
    | split
    | dsimp only
    | intro _)

theorem State.stepAbandon_keeps {s0 s : State} (sid : Nat) (st : Status) (unknown : Bool)  (hK : Keeps s0 s) : Keeps s0 (State.stepAbandon s sid st unknown) := by
  unfold State.stepAbandon
  repeat' (first
    | with_reducible (first | assumption | apply State.stepMark_keeps | apply State.workDone_keeps)
    | split
    | dsimp only
    | intro _)

theorem State.stepWriteFailed_keeps {s0 s : State} (sid : Nat) (st : Status)  (hK : Keeps s0 s) : Keeps s0 (State.stepWriteFailed s sid st) := by
  unfold State.stepWriteFailed
  repeat' (first
    | with_reducible (first | assumption | apply State.stepSettle_keeps | apply State.updStep_keeps | apply State.stepIssue_keeps | apply State.stepAbandon_keeps)
    | (simp only [keeps_mk]; with_reducible apply keepsOn_of)
    | split
    | dsimp only
    | intro _)

theorem State.stepTargetLost_keeps {s0 s : State} (sid : Nat) (st : Status)  (hK : Keeps s0 s) : Keeps s0 (State.stepTargetLost s sid st) := by
  unfold State.stepTargetLost
  repeat' (first
    | with_reducible (first | assumption | apply State.stepSettle_keeps | apply State.stepAbandon_keeps)
    | split
    | dsimp only
    | intro _)

theorem State.stageWrite_keeps {s0 s : State} (pages : List Nat) (data : List Byte)  (hK : Keeps s0 s) : Keeps s0 (State.stageWrite s pages data) := by
  induction pages generalizing s data with
  | nil =>
    unfold State.stageWrite
    try dsimp only
    repeat' (first
      | with_reducible (first | assumption | apply State.setBytes_keeps | apply State.drop_keeps)
      | split
      | dsimp only
      | intro _)
  | cons x r ih =>
    unfold State.stageWrite
    try dsimp only
    repeat' (first
      | with_reducible (first | assumption | apply ih | apply State.setBytes_keeps | apply State.drop_keeps)
      | split
      | dsimp only
      | intro _)

theorem State.regionStage_keeps {s0 s : State} (x : Step) (i : Nat) (r : Region) (data : List Byte)  (hK : Keeps s0 s) : Keeps s0 (State.regionStage s x i r data) := by
  unfold State.regionStage
  repeat' (first
    | with_reducible (first | assumption | apply State.stageWrite_keeps | apply State.updStep_keeps | apply State.syncAdd_keeps | apply State.count1_keeps | apply State.count_keeps | apply State.stepAsk_keeps | apply State.stepAdvance_keeps)
    | (simp only [keeps_mk]; with_reducible apply keepsOn_of)
    | split
    | dsimp only
    | intro _)

theorem State.regionCopy_keeps {s0 s : State} (p : Nat) (step : Nat) (i : Nat) (err : Option Status)  (hK : Keeps s0 s) : Keeps s0 (State.regionCopy s p step i err) := by
  unfold State.regionCopy
  repeat' (first
    | with_reducible (first | assumption | apply State.err_keeps | apply State.stepAbandon_keeps | apply State.regionStage_keeps | apply State.stepAsk_keeps)
    | split
    | dsimp only
    | intro _)

theorem State.stepCommit_keeps {s0 s : State} (x : Step)  (hK : Keeps s0 s) : Keeps s0 (State.stepCommit s x) := by
  unfold State.stepCommit
  repeat' (first
    | with_reducible (first | assumption | apply State.freePages_keeps | apply State.count1_keeps | apply State.workDone_keeps | apply State.stepsAdvance_keeps)
    | (simp only [keeps_mk]; with_reducible apply keepsOn_of)
    | dsimp only
    | intro _)

theorem State.stepAck_keeps {s0 s : State} (x : Step) (shard : Nat) (st : Status)  (hK : Keeps s0 s) : Keeps s0 (State.stepAck s x shard st) := by
  unfold State.stepAck
  repeat' (first
    | with_reducible (first | assumption | apply State.stepWriteFailed_keeps | apply State.freePages_keeps | apply State.updStep_keeps | apply State.count1_keeps | apply State.stepAdvance_keeps | apply State.stepAbandon_keeps | apply State.stepCommit_keeps)
    | (simp only [keeps_mk]; with_reducible apply keepsOn_of)
    | split
    | dsimp only
    | intro _)

theorem State.stepAbandonDesc_keeps {s0 s : State} (w : Work)  (hK : Keeps s0 s) : Keeps s0 (State.stepAbandonDesc s w) := by
  unfold State.stepAbandonDesc
  repeat' (first
    | with_reducible (first | assumption | apply State.workFail_keeps | apply State.stepAbandon_keeps | apply State.workDone_keeps)
    | split
    | dsimp only
    | intro _)

theorem State.ckpQuery_keeps {s0 s : State} (w : Work)  (hK : Keeps s0 s) : Keeps s0 (State.ckpQuery s w) := by
  unfold State.ckpQuery
  repeat' (first
    | with_reducible (first | assumption | apply State.workDone_keeps)
    | split
    | dsimp only
    | intro _)

theorem State.stagingFault_keeps {s0 s : State} (a : Nat)  (hK : Keeps s0 s) : Keeps s0 (State.stagingFault s a) := by
  unfold State.stagingFault
  repeat' (first
    | with_reducible (first | assumption | apply State.markBad_keeps | apply State.retirePage_keeps | apply State.latch_keeps | apply State.stepAbandon_keeps)
    | split
    | dsimp only
    | intro _)

theorem State.setStage_keeps {s0 s : State} (p : Nat) (a0 : Word)  (hK : Keeps s0 s) : Keeps s0 (State.setStage s p a0).2 := by
  unfold State.setStage
  repeat' (first
    | with_reducible (first | assumption | apply State.setPart_keeps)
    | (simp only [keeps_mk]; with_reducible apply keepsOn_of)
    | split
    | dsimp only
    | intro _)

theorem State.setStage_keeps_of {s0 t s : State} {p : Nat} {a0 : Word}  {y0 : Status} (he : (State.setStage s p a0) = (y0, t)) (hK : Keeps s0 s) : Keeps s0 t := by
  have hk := State.setStage_keeps (s0 := s0) p a0 hK
  rw [he] at hk
  exact hk

theorem State.stageClear_keeps {s0 s : State} (p : Nat)  (hK : Keeps s0 s) : Keeps s0 (State.stageClear s p).2 := by
  unfold State.stageClear
  repeat' (first
    | with_reducible (first | assumption | apply State.freePages_keeps | apply State.setPart_keeps)
    | (simp only [keeps_mk]; with_reducible apply keepsOn_of)
    | split
    | dsimp only
    | intro _)

theorem State.stageClear_keeps_of {s0 t s : State} {p : Nat}  {y0 : Status} (he : (State.stageClear s p) = (y0, t)) (hK : Keeps s0 s) : Keeps s0 t := by
  have hk := State.stageClear_keeps (s0 := s0) p hK
  rw [he] at hk
  exact hk

theorem State.stageRead_keeps {s0 s : State} (p : Nat)  (hK : Keeps s0 s) : Keeps s0 (State.stageRead s p).2 := by
  unfold State.stageRead
  repeat' (first
    | with_reducible (first | assumption | apply State.setReg_keeps)
    | split
    | dsimp only
    | intro _)

theorem State.stageRead_keeps_of {s0 t s : State} {p : Nat}  {y0 : Status} (he : (State.stageRead s p) = (y0, t)) (hK : Keeps s0 s) : Keeps s0 t := by
  have hk := State.stageRead_keeps (s0 := s0) p hK
  rw [he] at hk
  exact hk

theorem ckpRun_keeps {s0 s : State} (val : Word)  (hK : Keeps s0 s) : Keeps s0 (ckpRun val s) := by
  unfold ckpRun
  repeat' (first
    | with_reducible (first | assumption | apply State.setStage_keeps | apply State.stageClear_keeps | apply State.stageRead_keeps | apply State.cmdEnd_keeps)
    | refine State.setStage_keeps_of (by with_reducible assumption) ?_
    | refine State.stageClear_keeps_of (by with_reducible assumption) ?_
    | refine State.stageRead_keeps_of (by with_reducible assumption) ?_
    | split
    | dsimp only
    | intro _)

end Sys2Proof.Machine
end

