-- ==== Sys2Proof/Laws/KeepsStorage.lean ====
section
/-! SUPPORT. What the operations of Machine/Storage.lean leave as it was (Keeps). -/

set_option linter.unusedTactic false
set_option linter.unreachableTactic false
set_option linter.unusedVariables false
set_option linter.unusedSimpArgs false

namespace Sys2Proof.Machine

theorem State.updQueue_keeps {s0 s : State} (q : Nat) (f : SQueue → SQueue)  (hK : Keeps s0 s) : Keeps s0 (State.updQueue s q f) := by
  unfold State.updQueue
  repeat' (first
    | with_reducible (first | assumption)
    | (simp only [keeps_mk]; with_reducible apply keepsOn_of)
    | dsimp only
    | intro _)

theorem State.updCmd_keeps {s0 s : State} (q : Nat) (cid : Nat) (f : Cmd → Cmd)  (hK : Keeps s0 s) : Keeps s0 (State.updCmd s q cid f) := by
  unfold State.updCmd
  repeat' (first
    | with_reducible (first | assumption)
    | (simp only [keeps_mk]; with_reducible apply keepsOn_of)
    | split
    | dsimp only
    | intro _)

theorem State.updCtrl_keeps {s0 s : State} (c : Nat) (f : Ctrl → Ctrl)  (hK : Keeps s0 s) : Keeps s0 (State.updCtrl s c f) := by
  unfold State.updCtrl
  repeat' (first
    | with_reducible (first | assumption)
    | (simp only [keeps_mk]; with_reducible apply keepsOn_of)
    | dsimp only
    | intro _)

theorem State.setPstate_keeps {s0 s : State} (n : Nat)  (hK : Keeps s0 s) : Keeps s0 (State.setPstate s n) := by
  unfold State.setPstate
  repeat' (first
    | with_reducible (first | assumption | apply State.setReg_keeps)
    | dsimp only
    | intro _)

theorem State.logError_keeps {s0 s : State} (c : Cmd) (sc : Nat)  (hK : Keeps s0 s) : Keeps s0 (State.logError s c sc) := by
  unfold State.logError
  repeat' (first
    | with_reducible (first | assumption)
    | (simp only [keeps_mk]; with_reducible apply keepsOn_of)
    | split
    | dsimp only
    | intro _)

theorem State.queueSettle_keeps {s0 s : State} (q : Nat)  (hK : Keeps s0 s) : Keeps s0 (State.queueSettle s q) := by
  unfold State.queueSettle
  repeat' (first
    | with_reducible (first | assumption)
    | (simp only [keeps_mk]; with_reducible apply keepsOn_of)
    | split
    | dsimp only
    | intro _)

theorem State.cmdAnswer_keeps {s0 s : State} (c : Cmd) (sc : Nat) (dw0 : Nat) (dw1 : Nat) (st : Status)  (hK : Keeps s0 s) : Keeps s0 (State.cmdAnswer s c sc dw0 dw1 st) := by
  unfold State.cmdAnswer
  repeat' (first
    | with_reducible (first | assumption | apply State.workDone_keeps | apply State.sendResp_keeps)
    | split
    | dsimp only
    | intro _)

theorem State.cmdComplete_keeps {s0 s : State} (c : Cmd) (sc : Nat) (dw0 : Nat) (dw1 : Nat)  (hK : Keeps s0 s) : Keeps s0 (State.cmdComplete s c sc dw0 dw1) := by
  unfold State.cmdComplete
  repeat' (first
    | with_reducible (first | assumption | apply State.logError_keeps | apply State.count1_keeps | apply State.cmdAnswer_keeps | apply State.queueSettle_keeps)
    | (simp only [keeps_mk]; with_reducible apply keepsOn_of)
    | split
    | dsimp only
    | intro _)

theorem State.wakeFront_keeps {s0 s : State}   (hK : Keeps s0 s) : Keeps s0 (State.wakeFront s) := by
  unfold State.wakeFront
  repeat' (first
    | with_reducible (first | assumption | apply State.setPstate_keeps)
    | (simp only [keeps_mk]; with_reducible apply keepsOn_of)
    | split
    | dsimp only
    | intro _)

theorem State.addCmd_keeps {s0 s : State} (c : Cmd)  (hK : Keeps s0 s) : Keeps s0 (State.addCmd s c) := by
  unfold State.addCmd
  repeat' (first
    | with_reducible (first | assumption | apply State.wakeFront_keeps | apply State.count1_keeps)
    | (simp only [keeps_mk]; with_reducible apply keepsOn_of)
    | dsimp only
    | intro _)

theorem State.takeIo_keeps {s0 s : State} (c : Cmd) (dataLen : Option Nat)  (hK : Keeps s0 s) : Keeps s0 (State.takeIo s c dataLen) := by
  unfold State.takeIo
  repeat' (first
    | with_reducible (first | assumption | apply State.addCmd_keeps | apply State.cmdComplete_keeps | apply State.updCmd_keeps)
    | (simp only [keeps_mk]; with_reducible apply keepsOn_of)
    | split
    | dsimp only
    | intro _)

theorem State.takeAdmin_keeps {s0 s : State} (c : Cmd)  (hK : Keeps s0 s) : Keeps s0 (State.takeAdmin s c) := by
  unfold State.takeAdmin
  repeat' (first
    | with_reducible (first | assumption | apply State.addCmd_keeps | apply State.cmdComplete_keeps)
    | (simp only [keeps_mk]; with_reducible apply keepsOn_of)
    | split
    | dsimp only
    | intro _)

theorem State.cmdStart_keeps {s0 s : State} (q : Nat) (cid : Nat)  (hK : Keeps s0 s) : Keeps s0 (State.cmdStart s q cid) := by
  unfold State.cmdStart
  repeat' (first
    | with_reducible (first | assumption | apply State.count1_keeps | apply State.updCmd_keeps)
    | (simp only [keeps_mk]; with_reducible apply keepsOn_of)
    | split
    | dsimp only
    | intro _)

theorem State.holdPages_keeps {s0 s : State} (c : Cmd)  (hK : Keeps s0 s) : Keeps s0 (State.holdPages s c) := by
  unfold State.holdPages
  repeat' (first
    | with_reducible (first | assumption | apply State.updCmd_keeps | apply State.dirty_keeps)
    | refine State.stageTake_keeps (by with_reducible assumption) ?_
    | refine State.stageTake_keeps_p (by with_reducible assumption) ?_
    | (simp only [keeps_mk]; with_reducible apply keepsOn_of)
    | split
    | dsimp only
    | intro _)

theorem State.askXrdy_keeps {s0 s : State} (q : Nat) (cid : Nat) (k : Nat)  (hK : Keeps s0 s) : Keeps s0 (State.askXrdy s q cid k) := by
  induction k generalizing s q cid with
  | zero =>
    unfold State.askXrdy
    try dsimp only
    repeat' (first
      | with_reducible (first | assumption | apply State.sendXrdy_keeps | apply State.updCmd_keeps)
      | (simp only [keeps_mk]; with_reducible apply keepsOn_of)
      | split
      | dsimp only
      | intro _)
  | succ k ih =>
    unfold State.askXrdy
    try dsimp only
    repeat' (first
      | with_reducible (first | assumption | apply ih | apply State.sendXrdy_keeps | apply State.updCmd_keeps)
      | (simp only [keeps_mk]; with_reducible apply keepsOn_of)
      | split
      | dsimp only
      | intro _)

theorem State.askCapsule_keeps {s0 s : State} (c : Cmd)  (hK : Keeps s0 s) : Keeps s0 (State.askCapsule s c) := by
  unfold State.askCapsule
  repeat' (first
    | with_reducible (first | assumption | apply State.issueRead_keeps | apply State.failOperand_keeps | apply State.updCmd_keeps | refine keeps_foldl (fun _ _ _ => ?_) ?_)
    | refine State.issueRead_keeps_of (by with_reducible assumption) ?_
    | (simp only [keeps_mk]; with_reducible apply keepsOn_of)
    | split
    | dsimp only
    | intro _)

theorem State.writeApply_keeps {s0 s : State} (c : Cmd)  (hK : Keeps s0 s) : Keeps s0 (State.writeApply s c) := by
  unfold State.writeApply
  repeat' (first
    | with_reducible (first | assumption | apply State.cacheWrite_keeps | apply State.drop_keeps | apply State.driveIo_keeps | apply State.updCmd_keeps | apply State.cmdComplete_keeps | refine keeps_foldl (fun _ _ _ => ?_) ?_)
    | (simp only [keeps_mk]; with_reducible apply keepsOn_of)
    | split
    | dsimp only
    | intro _)

theorem State.writeRun_keeps {s0 s : State} (q : Nat) (cid : Nat)  (hK : Keeps s0 s) : Keeps s0 (State.writeRun s q cid) := by
  unfold State.writeRun
  repeat' (first
    | with_reducible (first | assumption | apply State.cmdComplete_keeps | apply State.holdPages_keeps | apply State.askCapsule_keeps | apply State.askXrdy_keeps | apply State.writeApply_keeps)
    | split
    | dsimp only
    | intro _)

theorem State.runIo_keeps {s0 s f : State} (q : Nat) (cid : Nat) (opc : Nat)  (hK : Keeps s0 s) (hKf : Keeps s0 f) : Keeps s0 (State.runIo s q cid opc f) := by
  unfold State.runIo
  repeat' (first
    | with_reducible (first | assumption)
    | split
    | dsimp only
    | intro _)

theorem State.pageWrite_keeps {s0 s : State} (n : Nat) (page : Nat)  (hK : Keeps s0 s) : Keeps s0 (State.pageWrite s n page) := by
  unfold State.pageWrite
  repeat' (first
    | with_reducible (first | assumption | apply State.dirty_keeps | apply State.updCache_keeps | apply State.driveIo_keeps | apply State.count1_keeps | refine keeps_foldl (fun _ _ _ => ?_) ?_)
    | refine State.driveIo_keeps_of (by with_reducible assumption) ?_
    | (simp only [keeps_mk]; with_reducible apply keepsOn_of)
    | split
    | dsimp only
    | intro _)

theorem State.flushRun_keeps {s0 s : State} (q : Nat) (cid : Nat)  (hK : Keeps s0 s) : Keeps s0 (State.flushRun s q cid) := by
  unfold State.flushRun
  repeat' (first
    | with_reducible (first | assumption | apply State.dirty_keeps | apply State.cmdComplete_keeps | apply State.pageWrite_keeps | refine keeps_foldl (fun _ _ _ => ?_) ?_)
    | split
    | dsimp only
    | intro _)

theorem State.cmdReturn_keeps {s0 s : State} (c : Cmd) (data : List Byte) (dw0 : Nat)  (hK : Keeps s0 s) : Keeps s0 (State.cmdReturn s c data dw0) := by
  unfold State.cmdReturn
  repeat' (first
    | with_reducible (first | assumption | apply State.whenUp_keeps | apply State.put_keeps | apply State.cmdComplete_keeps | apply State.sendData_keeps)
    | split
    | dsimp only
    | intro _)

theorem State.readRun_keeps {s0 s : State} (q : Nat) (cid : Nat)  (hK : Keeps s0 s) : Keeps s0 (State.readRun s q cid) := by
  unfold State.readRun
  repeat' (first
    | with_reducible (first | assumption | apply State.cmdReturn_keeps | apply State.dirty_keeps | apply State.pageWrite_keeps | apply State.updCmd_keeps | apply State.count1_keeps | apply State.driveIo_keeps | refine keeps_foldl (fun _ _ _ => ?_) ?_ | refine keeps_foldl_third (fun _ _ _ => ?_) ?_ | refine keeps_foldl_snd (fun _ _ _ => ?_) ?_ | refine keeps_foldl_fst (fun _ _ _ => ?_) ?_)
    | refine State.driveIo_keeps_of (by with_reducible assumption) ?_
    | (simp only [keeps_mk]; with_reducible apply keepsOn_of)
    | split
    | dsimp only
    | intro _)

theorem State.notice_keeps {s0 s : State} (k : Nat)  (hK : Keeps s0 s) : Keeps s0 (State.notice s k) := by
  unfold State.notice
  repeat' (first
    | with_reducible (first | assumption | apply State.updCtrl_keeps | apply State.cmdComplete_keeps)
    | (simp only [keeps_mk]; with_reducible apply keepsOn_of)
    | split
    | dsimp only
    | intro _)

theorem State.nsChange_keeps {s0 s : State} (n : Nat) (st : NsState) (cause : Nat) (drive : Nat)  (hK : Keeps s0 s) : Keeps s0 (State.nsChange s n st cause drive) := by
  unfold State.nsChange
  repeat' (first
    | with_reducible (first | assumption | apply State.setNs_keeps | apply State.event_keeps | apply State.notice_keeps | refine keeps_foldl (fun _ _ _ => ?_) ?_)
    | (simp only [keeps_mk]; with_reducible apply keepsOn_of)
    | dsimp only
    | intro _)

theorem State.nsDropCache_keeps {s0 s : State} (n : Nat)  (hK : Keeps s0 s) : Keeps s0 (State.nsDropCache s n) := by
  unfold State.nsDropCache
  repeat' (first
    | with_reducible (first | assumption | apply State.freePages_keeps)
    | (simp only [keeps_mk]; with_reducible apply keepsOn_of)
    | dsimp only
    | intro _)

theorem State.nsSteps_keeps {s0 s : State} (n : Nat)  (hK : Keeps s0 s) : Keeps s0 (State.nsSteps s n) := by
  unfold State.nsSteps
  repeat' (first
    | with_reducible (first | assumption | apply State.stepTargetLost_keeps | refine keeps_foldl (fun _ _ _ => ?_) ?_)
    | dsimp only
    | intro _)

theorem State.nsFail_keeps {s0 s : State} (n : Nat) (cause : Nat) (drive : Nat)  (hK : Keeps s0 s) : Keeps s0 (State.nsFail s n cause drive) := by
  unfold State.nsFail
  repeat' (first
    | with_reducible (first | assumption | apply State.nsChange_keeps | apply State.setIntBit_keeps | apply State.nsDropCache_keeps | apply State.cmdComplete_keeps | apply State.nsSteps_keeps | refine keeps_foldl (fun _ _ _ => ?_) ?_)
    | split
    | dsimp only
    | intro _)

theorem State.drivesLost_keeps {s0 s : State} (port : Nat)  (hK : Keeps s0 s) : Keeps s0 (State.drivesLost s port) := by
  unfold State.drivesLost
  repeat' (first
    | with_reducible (first | assumption | apply State.nsFail_keeps | apply State.cmdComplete_keeps | apply State.updWork_keeps | apply State.probe_keeps | apply State.ingest_keeps | apply State.stepsSettle_keeps | refine keeps_foldl (fun _ _ _ => ?_) ?_)
    | (simp only [keeps_mk]; with_reducible apply keepsOn_of)
    | split
    | dsimp only
    | intro _)

theorem State.nsProgress_keeps {s0 s : State} (n : Nat)  (hK : Keeps s0 s) : Keeps s0 (State.nsProgress s n) := by
  unfold State.nsProgress
  repeat' (first
    | with_reducible (first | assumption | apply State.flushRun_keeps | apply State.readRun_keeps | refine keeps_foldl (fun _ _ _ => ?_) ?_)
    | split
    | dsimp only
    | intro _)

theorem State.cmdDrive_keeps {s0 s : State} (d : DriveCmd) (q : Nat) (cid : Nat) (ok : Bool) (data : List Byte)  (hK : Keeps s0 s) : Keeps s0 (State.cmdDrive s d q cid ok data) := by
  unfold State.cmdDrive
  repeat' (first
    | with_reducible (first | assumption | apply State.nsFail_keeps | apply State.cmdComplete_keeps | apply State.count_keeps | apply State.updCmd_keeps | apply State.readRun_keeps)
    | (simp only [keeps_mk]; with_reducible apply keepsOn_of)
    | split
    | dsimp only
    | intro _)

theorem State.pageDrive_keeps {s0 s : State} (d : DriveCmd) (n : Nat) (page : Nat) (ok : Bool)  (hK : Keeps s0 s) : Keeps s0 (State.pageDrive s d n page ok) := by
  unfold State.pageDrive
  repeat' (first
    | with_reducible (first | assumption | apply State.nsFail_keeps | apply State.updCache_keeps | apply State.nsProgress_keeps)
    | (simp only [keeps_mk]; with_reducible apply keepsOn_of)
    | split
    | dsimp only
    | intro _)

theorem State.driveDone_keeps {s0 s : State} (did : Nat) (ok : Bool) (data : List Byte)  (hK : Keeps s0 s) : Keeps s0 (State.driveDone s did ok data) := by
  unfold State.driveDone
  repeat' (first
    | with_reducible (first | assumption | apply State.errFor_keeps | apply State.cmdDrive_keeps | apply State.pageDrive_keeps | apply State.stepSettle_keeps | apply State.nsFail_keeps | apply State.stepWriteFailed_keeps | apply State.count_keeps | apply State.updWork_keeps | apply State.probe_keeps | apply State.ingest_keeps)
    | (simp only [keeps_mk]; with_reducible apply keepsOn_of)
    | split
    | dsimp only
    | intro _)

theorem State.nsEmpty_keeps {s0 s : State} (n : Nat)  (hK : Keeps s0 s) : Keeps s0 (State.nsEmpty s n) := by
  unfold State.nsEmpty
  repeat' (first
    | with_reducible (first | assumption | apply State.dirty_keeps | apply State.nsDropCache_keeps | apply State.nsChange_keeps | apply State.setNs_keeps)
    | split
    | dsimp only
    | intro _)

theorem State.queueReset_keeps {s0 s : State} (q : Nat)  (hK : Keeps s0 s) : Keeps s0 (State.queueReset s q) := by
  unfold State.queueReset
  repeat' (first
    | with_reducible (first | assumption | apply State.updQueue_keeps | apply State.count1_keeps | apply State.cmdComplete_keeps | apply State.updWork_keeps | apply State.queueSettle_keeps | refine keeps_foldl (fun _ _ _ => ?_) ?_)
    | (simp only [keeps_mk]; with_reducible apply keepsOn_of)
    | split
    | dsimp only
    | intro _)

theorem State.tcpGone_keeps {s0 s : State} (t : Nat) (fin : Bool) (rst : Bool)  (hK : Keeps s0 s) : Keeps s0 (State.tcpGone s t fin rst) := by
  unfold State.tcpGone
  repeat' (first
    | with_reducible (first | assumption | apply State.tcpOut_keeps)
    | (simp only [keeps_mk]; with_reducible apply keepsOn_of)
    | split
    | dsimp only
    | intro _)

theorem State.ctrlEnd_keeps {s0 s : State} (k : Nat)  (hK : Keeps s0 s) : Keeps s0 (State.ctrlEnd s k) := by
  unfold State.ctrlEnd
  repeat' (first
    | with_reducible (first | assumption | apply State.queueReset_keeps | apply State.tcpGone_keeps | refine keeps_foldl (fun _ _ _ => ?_) ?_)
    | (simp only [keeps_mk]; with_reducible apply keepsOn_of)
    | dsimp only
    | intro _)

theorem State.tcpClose_keeps {s0 s : State} (t : Nat) (fin : Bool) (rst : Bool)  (hK : Keeps s0 s) : Keeps s0 (State.tcpClose s t fin rst) := by
  unfold State.tcpClose
  repeat' (first
    | with_reducible (first | assumption | apply State.ctrlEnd_keeps | apply State.tcpGone_keeps | apply State.queueReset_keeps)
    | split
    | dsimp only
    | intro _)

theorem State.transportFatal_keeps {s0 s : State} (t : Nat)  (hK : Keeps s0 s) : Keeps s0 (State.transportFatal s t) := by
  unfold State.transportFatal
  repeat' (first
    | with_reducible (first | assumption | apply State.pduSend_keeps | apply State.err_keeps | apply State.ctrlEnd_keeps | apply State.tcpGone_keeps | apply State.tcpClose_keeps)
    | split
    | dsimp only
    | intro _)

theorem State.tcpSyn_keeps {s0 s : State} (g : TcpSeg)  (hK : Keeps s0 s) : Keeps s0 (State.tcpSyn s g) := by
  unfold State.tcpSyn
  repeat' (first
    | with_reducible (first | assumption | apply State.tcpOut_keeps)
    | (simp only [keeps_mk]; with_reducible apply keepsOn_of)
    | split
    | dsimp only
    | intro _)

theorem State.tcpSegment_keeps {s0 s : State} (g : TcpSeg)  (hK : Keeps s0 s) : Keeps s0 (State.tcpSegment s g) := by
  unfold State.tcpSegment
  repeat' (first
    | with_reducible (first | assumption | apply State.tcpSyn_keeps | apply State.tcpClose_keeps | apply State.tcpOut_keeps | apply State.updTcp_keeps | apply State.tcpAcked_keeps | apply State.tcpAckNow_keeps)
    | (simp only [keeps_mk]; with_reducible apply keepsOn_of)
    | split
    | dsimp only
    | intro _)

theorem State.icReq_keeps {s0 s : State} (t : Nat) (hpda : Nat) (hdgst : Bool) (ddgst : Bool) (maxr2t : Nat)  (hK : Keeps s0 s) : Keeps s0 (State.icReq s t hpda hdgst ddgst maxr2t) := by
  unfold State.icReq
  repeat' (first
    | with_reducible (first | assumption | apply State.transportFatal_keeps | apply State.updTcp_keeps | apply State.tcpSend_keeps)
    | (simp only [keeps_mk]; with_reducible apply keepsOn_of)
    | split
    | dsimp only
    | intro _)

theorem State.capsuleCmd_keeps {s0 s : State} (t : Nat) (e : NvmeSqe) (data : List Byte)  (hK : Keeps s0 s) : Keeps s0 (State.capsuleCmd s t e data) := by
  unfold State.capsuleCmd
  repeat' (first
    | with_reducible (first | assumption | apply State.transportFatal_keeps | apply State.sendResp_keeps | apply State.updQueue_keeps | apply State.takeAdmin_keeps | apply State.addCmd_keeps | apply State.cmdComplete_keeps | apply State.takeIo_keeps)
    | (simp only [keeps_mk]; with_reducible apply keepsOn_of)
    | split
    | dsimp only
    | intro _)

theorem State.h2cData_keeps {s0 s : State} (t : Nat) (cid : Nat) (off : Nat) (data : List Byte) (dgstOk : Bool)  (hK : Keeps s0 s) : Keeps s0 (State.h2cData s t cid off data dgstOk) := by
  unfold State.h2cData
  repeat' (first
    | with_reducible (first | assumption | apply State.cmdComplete_keeps | apply State.transportFatal_keeps | apply State.updCmd_keeps | apply State.askXrdy_keeps)
    | (simp only [keeps_mk]; with_reducible apply keepsOn_of)
    | split
    | dsimp only
    | intro _)

theorem State.connectFail_keeps {s0 s : State} (t : Nat) (cid : Nat) (qid : Nat) (sc : Nat)  (hK : Keeps s0 s) : Keeps s0 (State.connectFail s t cid qid sc) := by
  unfold State.connectFail
  repeat' (first
    | with_reducible (first | assumption | apply State.sendResp_keeps | apply State.tcpClose_keeps)
    | dsimp only
    | intro _)

theorem State.connectAdmin_keeps {s0 s : State} (t : Nat) (cid : Nat) (x : Tcp) (host : List Byte) (kato : Nat)  (hK : Keeps s0 s) : Keeps s0 (State.connectAdmin s t cid x host kato) := by
  unfold State.connectAdmin
  repeat' (first
    | with_reducible (first | assumption | apply State.connectFail_keeps | apply State.sendResp_keeps)
    | (simp only [keeps_mk]; with_reducible apply keepsOn_of)
    | split
    | dsimp only
    | intro _)

theorem State.connectIo_keeps {s0 s : State} (t : Nat) (cid : Nat) (qid : Nat) (size : Nat) (x : Tcp) (host : List Byte) (k : Nat)  (hK : Keeps s0 s) : Keeps s0 (State.connectIo s t cid qid size x host k) := by
  unfold State.connectIo
  repeat' (first
    | with_reducible (first | assumption | apply State.connectFail_keeps | apply State.sendResp_keeps)
    | (simp only [keeps_mk]; with_reducible apply keepsOn_of)
    | split
    | dsimp only
    | intro _)

theorem State.connect_keeps {s0 s : State} (t : Nat) (cid : Nat) (qid : Nat) (size : Nat) (host : List Byte) (k : Nat) (kato : Nat)  (hK : Keeps s0 s) : Keeps s0 (State.connect s t cid qid size host k kato) := by
  unfold State.connect
  repeat' (first
    | with_reducible (first | assumption | apply State.transportFatal_keeps | apply State.sendResp_keeps | apply State.wakeFront_keeps | apply State.count1_keeps | apply State.connectFail_keeps | apply State.connectAdmin_keeps | apply State.connectIo_keeps)
    | split
    | dsimp only
    | intro _)

theorem State.fabricsResp_keeps {s0 s : State} (t : Nat) (cid : Nat) (dw0 : Nat) (dw1 : Nat) (sc : Nat)  (hK : Keeps s0 s) : Keeps s0 (State.fabricsResp s t cid dw0 dw1 sc) := by
  unfold State.fabricsResp
  repeat' (first
    | with_reducible (first | assumption | apply State.count1_keeps | apply State.updQueue_keeps | apply State.sendResp_keeps)
    | (simp only [keeps_mk]; with_reducible apply keepsOn_of)
    | split
    | dsimp only
    | intro _)

theorem State.propertyGet_keeps {s0 s : State} (t : Nat) (cid : Nat) (ofst : Nat)  (hK : Keeps s0 s) : Keeps s0 (State.propertyGet s t cid ofst) := by
  unfold State.propertyGet
  repeat' (first
    | with_reducible (first | assumption | apply State.wakeFront_keeps | apply State.count1_keeps | apply State.fabricsResp_keeps)
    | split
    | dsimp only
    | intro _)

theorem State.propertySet_keeps {s0 s : State} (t : Nat) (cid : Nat) (ofst : Nat) (v : BitVec 64)  (hK : Keeps s0 s) : Keeps s0 (State.propertySet s t cid ofst v) := by
  unfold State.propertySet
  repeat' (first
    | with_reducible (first | assumption | apply State.wakeFront_keeps | apply State.count1_keeps | apply State.fabricsResp_keeps | apply State.updCtrl_keeps | apply State.ctrlEnd_keeps)
    | (simp only [keeps_mk]; with_reducible apply keepsOn_of)
    | split
    | dsimp only
    | intro _)

theorem State.runAdmin_keeps {s0 s : State} (q : Nat) (opc : Nat) (e : NvmeSqe) (f : Cmd → State) (hf : ∀ a0, Keeps s0 (f a0)) (hK : Keeps s0 s) : Keeps s0 (State.runAdmin s q opc e f) := by
  unfold State.runAdmin
  repeat' (first
    | with_reducible (first | assumption)
    | apply hf
    | split
    | dsimp only
    | intro _)

theorem State.identify_keeps {s0 s : State} (q : Nat) (c : Cmd)  (hK : Keeps s0 s) : Keeps s0 (State.identify s q c) := by
  unfold State.identify
  repeat' (first
    | with_reducible (first | assumption | apply State.cmdReturn_keeps | apply State.cmdComplete_keeps)
    | split
    | dsimp only
    | intro _)

theorem State.getLog_keeps {s0 s : State} (q : Nat) (c : Cmd)  (hK : Keeps s0 s) : Keeps s0 (State.getLog s q c) := by
  unfold State.getLog
  repeat' (first
    | with_reducible (first | assumption | apply State.cmdReturn_keeps | apply State.cmdComplete_keeps)
    | (simp only [keeps_mk]; with_reducible apply keepsOn_of)
    | split
    | dsimp only
    | intro _)

theorem State.setCache_keeps {s0 s : State} (q : Nat) (on : Bool)  (hK : Keeps s0 s) : Keeps s0 (State.setCache s q on) := by
  unfold State.setCache
  repeat' (first
    | with_reducible (first | assumption | apply State.updCtrl_keeps | apply State.updQueue_keeps)
    | (simp only [keeps_mk]; with_reducible apply keepsOn_of)
    | split
    | dsimp only
    | intro _)

theorem State.setFeature_keeps {s0 s : State} (q : Nat) (c : Cmd)  (hK : Keeps s0 s) : Keeps s0 (State.setFeature s q c) := by
  unfold State.setFeature
  repeat' (first
    | with_reducible (first | assumption | apply State.cmdComplete_keeps | apply State.setPstate_keeps | apply State.setCache_keeps | apply State.updCtrl_keeps)
    | (simp only [keeps_mk]; with_reducible apply keepsOn_of)
    | split
    | dsimp only
    | intro _)

theorem State.getFeature_keeps {s0 s : State} (q : Nat) (c : Cmd)  (hK : Keeps s0 s) : Keeps s0 (State.getFeature s q c) := by
  unfold State.getFeature
  repeat' (first
    | with_reducible (first | assumption | apply State.cmdComplete_keeps)
    | split
    | dsimp only
    | intro _)

theorem State.capsuleIo_keeps {s0 s : State} (w : Work)  (hK : Keeps s0 s) : Keeps s0 (State.capsuleIo s w) := by
  unfold State.capsuleIo
  repeat' (first
    | with_reducible (first | assumption | apply State.workFail_keeps | apply State.updWork_keeps | apply State.takeIo_keeps)
    | (simp only [keeps_mk]; with_reducible apply keepsOn_of)
    | split
    | dsimp only
    | intro _)

theorem State.capsuleAdmin_keeps {s0 s : State} (w : Work)  (hK : Keeps s0 s) : Keeps s0 (State.capsuleAdmin s w) := by
  unfold State.capsuleAdmin
  repeat' (first
    | with_reducible (first | assumption | apply State.workFail_keeps | apply State.updWork_keeps | apply State.takeAdmin_keeps)
    | (simp only [keeps_mk]; with_reducible apply keepsOn_of)
    | split
    | dsimp only
    | intro _)

theorem State.nsCreate_keeps {s0 s : State} (p : Nat) (a0 : Word) (a1 : Word)  (hK : Keeps s0 s) : Keeps s0 (State.nsCreate s p a0 a1).2 := by
  unfold State.nsCreate
  repeat' (first
    | with_reducible (first | assumption | apply State.setNs_keeps | apply State.nsChange_keeps)
    | (simp only [keeps_mk]; with_reducible apply keepsOn_of)
    | split
    | dsimp only
    | intro _)

theorem State.nsCreate_keeps_of {s0 t s : State} {p : Nat} {a0 : Word} {a1 : Word}  {y0 : Status} (he : (State.nsCreate s p a0 a1) = (y0, t)) (hK : Keeps s0 s) : Keeps s0 t := by
  have hk := State.nsCreate_keeps (s0 := s0) p a0 a1 hK
  rw [he] at hk
  exact hk

theorem State.nsDelete_keeps {s0 s : State} (p : Nat) (a1 : Word)  (hK : Keeps s0 s) : Keeps s0 (State.nsDelete s p a1).2 := by
  unfold State.nsDelete
  repeat' (first
    | with_reducible (first | assumption | apply State.nsChange_keeps | apply State.nsSteps_keeps | apply State.setNs_keeps)
    | (simp only [keeps_mk]; with_reducible apply keepsOn_of)
    | split
    | dsimp only
    | intro _)

theorem State.nsDelete_keeps_of {s0 t s : State} {p : Nat} {a1 : Word}  {y0 : Status} (he : (State.nsDelete s p a1) = (y0, t)) (hK : Keeps s0 s) : Keeps s0 t := by
  have hk := State.nsDelete_keeps (s0 := s0) p a1 hK
  rw [he] at hk
  exact hk

theorem State.listen_keeps {s0 s : State} (p : Nat) (a0 : Word) (a1 : Word) (a2 : Word)  (hK : Keeps s0 s) : Keeps s0 (State.listen s p a0 a1 a2).2 := by
  unfold State.listen
  repeat' (first
    | with_reducible (first | assumption | apply State.setPart_keeps)
    | (simp only [keeps_mk]; with_reducible apply keepsOn_of)
    | split
    | dsimp only
    | intro _)

theorem State.listen_keeps_of {s0 t s : State} {p : Nat} {a0 : Word} {a1 : Word} {a2 : Word}  {y0 : Status} (he : (State.listen s p a0 a1 a2) = (y0, t)) (hK : Keeps s0 s) : Keeps s0 t := by
  have hk := State.listen_keeps (s0 := s0) p a0 a1 a2 hK
  rw [he] at hk
  exact hk

theorem State.qpRing_keeps {s0 s : State} (p : Nat) (a0 : Word)  (hK : Keeps s0 s) : Keeps s0 (State.qpRing s p a0).2 := by
  unfold State.qpRing
  repeat' (first
    | with_reducible (first | assumption)
    | (simp only [keeps_mk]; with_reducible apply keepsOn_of)
    | split
    | dsimp only
    | intro _)

theorem State.qpRing_keeps_of {s0 t s : State} {p : Nat} {a0 : Word}  {y0 : Status} (he : (State.qpRing s p a0) = (y0, t)) (hK : Keeps s0 s) : Keeps s0 t := by
  have hk := State.qpRing_keeps (s0 := s0) p a0 hK
  rw [he] at hk
  exact hk

theorem State.nsRead_keeps {s0 s : State} (a1 : Word)  (hK : Keeps s0 s) : Keeps s0 (State.nsRead s a1).2 := by
  unfold State.nsRead
  repeat' (first
    | with_reducible (first | assumption | apply State.setReg_keeps)
    | dsimp only
    | intro _)

theorem State.nsRead_keeps_of {s0 t s : State} {a1 : Word}  {y0 : Status} (he : (State.nsRead s a1) = (y0, t)) (hK : Keeps s0 s) : Keeps s0 t := by
  have hk := State.nsRead_keeps (s0 := s0) a1 hK
  rw [he] at hk
  exact hk

theorem stoRun_keeps {s0 s : State} (val : Word)  (hK : Keeps s0 s) : Keeps s0 (stoRun val s) := by
  unfold stoRun
  repeat' (first
    | with_reducible (first | assumption | apply State.nsCreate_keeps | apply State.nsDelete_keeps | apply State.listen_keeps | apply State.qpRing_keeps | apply State.nsRead_keeps | apply State.cmdEnd_keeps)
    | refine State.nsCreate_keeps_of (by with_reducible assumption) ?_
    | refine State.nsDelete_keeps_of (by with_reducible assumption) ?_
    | refine State.listen_keeps_of (by with_reducible assumption) ?_
    | refine State.qpRing_keeps_of (by with_reducible assumption) ?_
    | refine State.nsRead_keeps_of (by with_reducible assumption) ?_
    | split
    | dsimp only
    | intro _)

theorem State.stoDrain_keeps {s0 s : State} (p : Nat)  (hK : Keeps s0 s) : Keeps s0 (State.stoDrain s p) := by
  unfold State.stoDrain
  repeat' (first
    | with_reducible (first | assumption | apply State.ctrlEnd_keeps | apply State.queueReset_keeps | refine keeps_foldl (fun _ _ _ => ?_) ?_)
    | dsimp only
    | intro _)

theorem State.stagingLost_keeps {s0 s : State} (a : Nat)  (hK : Keeps s0 s) : Keeps s0 (State.stagingLost s a) := by
  unfold State.stagingLost
  repeat' (first
    | with_reducible (first | assumption | apply State.markBad_keeps | apply State.retirePage_keeps | apply State.errFor_keeps | apply State.nsFail_keeps | apply State.stagingFault_keeps)
    | split
    | dsimp only
    | intro _)

end Sys2Proof.Machine
end

