-- ==== Sys2Proof/Laws/KeepsMlrLink.lean ====
section
/-! SUPPORT. What the operations of Machine/MlrLink.lean leave as it was (Keeps). -/

set_option linter.unusedTactic false
set_option linter.unreachableTactic false
set_option linter.unusedVariables false
set_option linter.unusedSimpArgs false

namespace Sys2Proof.Machine

theorem State.underGen_keeps {s0 s : State} (gen : Nat) (f : State → State) (hf : ∀ a0, Keeps s0 a0 → Keeps s0 (f a0)) (hK : Keeps s0 s) : Keeps s0 (State.underGen s gen f) := by
  unfold State.underGen
  repeat' (first
    | with_reducible (first | assumption)
    | apply hf
    | (simp only [keeps_mk]; with_reducible apply keepsOn_of)
    | dsimp only
    | intro _)

theorem State.holdPath_keeps {s0 s : State} (c : Nat) (p : Nat)  (hK : Keeps s0 s) : Keeps s0 (State.holdPath s c p) := by
  unfold State.holdPath
  repeat' (first
    | with_reducible (first | assumption | apply State.updConn_keeps)
    | (simp only [keeps_mk]; with_reducible apply keepsOn_of)
    | dsimp only
    | intro _)

theorem State.cwndCut_keeps {s0 s : State} (c : Nat)  (hK : Keeps s0 s) : Keeps s0 (State.cwndCut s c) := by
  unfold State.cwndCut
  repeat' (first
    | with_reducible (first | assumption | apply State.updConn_keeps)
    | (simp only [keeps_mk]; with_reducible apply keepsOn_of)
    | split
    | dsimp only
    | intro _)

theorem State.sealPkt_keeps {s0 s : State} (k : Nat) (typ : Nat) (p : MlrPacket)  (hK : Keeps s0 s) : Keeps s0 (State.sealPkt s k typ p).2.2 := by
  unfold State.sealPkt
  repeat' (first
    | with_reducible (first | assumption | apply State.keyUse_keeps | apply State.takeNonce_keeps)
    | refine State.keyUse_keeps_of (by with_reducible assumption) ?_
    | refine State.takeNonce_keeps_of (by with_reducible assumption) ?_
    | (simp only [keeps_mk]; with_reducible apply keepsOn_of)
    | split
    | dsimp only
    | intro _)

theorem State.sealPkt_keeps_of {s0 t s : State} {k : Nat} {typ : Nat} {p : MlrPacket}  {y0 : Sent} {y1 : MlrPacket} (he : (State.sealPkt s k typ p) = (y0, y1, t)) (hK : Keeps s0 s) : Keeps s0 t := by
  have hk := State.sealPkt_keeps (s0 := s0) k typ p hK
  rw [he] at hk
  exact hk

theorem State.mlrSubmit_keeps {s0 s : State} (leaf : Nat) (typ : Nat) (seed : Nat) (dscp : Nat) (ecn : Bool) (path : Nat) (p : MlrPacket) (desc : Option (Nat × Nat))  (hK : Keeps s0 s) : Keeps s0 (State.mlrSubmit s leaf typ seed dscp ecn path p desc) := by
  unfold State.mlrSubmit
  repeat' (first
    | with_reducible (first | assumption | apply State.enqueue_keeps)
    | dsimp only
    | intro _)

theorem State.connOut_keeps {s0 s : State} (c : Nat) (path : Nat) (typ : Nat) (psn : BitVec 32) (retx : Bool) (areq : Bool) (echo : Option Nat) (ext : List Byte) (payload : List Byte)  (hK : Keeps s0 s) : Keeps s0 (State.connOut s c path typ psn retx areq echo ext payload).2 := by
  unfold State.connOut
  repeat' (first
    | with_reducible (first | assumption | apply State.waitAt_keeps | apply State.sealPkt_keeps | apply State.mlrSubmit_keeps)
    | refine State.sealPkt_keeps_of (by with_reducible assumption) ?_
    | (simp only [keeps_mk]; with_reducible apply keepsOn_of)
    | split
    | dsimp only
    | intro _)

theorem State.connOut_keeps_of {s0 t s : State} {c : Nat} {path : Nat} {typ : Nat} {psn : BitVec 32} {retx : Bool} {areq : Bool} {echo : Option Nat} {ext : List Byte} {payload : List Byte}  {y0 : Sent} (he : (State.connOut s c path typ psn retx areq echo ext payload) = (y0, t)) (hK : Keeps s0 s) : Keeps s0 t := by
  have hk := State.connOut_keeps (s0 := s0) c path typ psn retx areq echo ext payload hK
  rw [he] at hk
  exact hk

theorem State.connNext_keeps {s0 s : State} (c : Nat) (typ : Nat) (psn : BitVec 32) (retx : Bool) (areq : Bool) (echo : Option Nat) (ext : List Byte) (payload : List Byte)  (hK : Keeps s0 s) : Keeps s0 (State.connNext s c typ psn retx areq echo ext payload).2 := by
  unfold State.connNext
  repeat' (first
    | with_reducible (first | assumption | apply State.connOut_keeps | apply State.updConn_keeps)
    | refine State.connOut_keeps_of (by with_reducible assumption) ?_
    | (simp only [keeps_mk]; with_reducible apply keepsOn_of)
    | split
    | dsimp only
    | intro _)

theorem State.connNext_keeps_of {s0 t s : State} {c : Nat} {typ : Nat} {psn : BitVec 32} {retx : Bool} {areq : Bool} {echo : Option Nat} {ext : List Byte} {payload : List Byte}  {y0 : Sent} (he : (State.connNext s c typ psn retx areq echo ext payload) = (y0, t)) (hK : Keeps s0 s) : Keeps s0 t := by
  have hk := State.connNext_keeps (s0 := s0) c typ psn retx areq echo ext payload hK
  rw [he] at hk
  exact hk

theorem State.ownerFailed_keeps {s0 s : State} (o : PktOwner) (st : Status)  (hK : Keeps s0 s) : Keeps s0 (State.ownerFailed s o st) := by
  unfold State.ownerFailed
  repeat' (first
    | with_reducible (first | assumption | apply State.updWork_keeps | apply State.writeSettle_keeps | apply State.workFail_keeps | apply State.restoreFail_keeps | apply State.probe_keeps | apply State.ingest_keeps | apply State.emit_keeps | apply State.failGroup_keeps | apply State.responseAcked_keeps | apply State.stepWriteFailed_keeps)
    | (simp only [keeps_mk]; with_reducible apply keepsOn_of)
    | split
    | dsimp only
    | intro _)

theorem State.connLeft_keeps {s0 s : State} (c : Nat) (st : Status)  (hK : Keeps s0 s) : Keeps s0 (State.connLeft s c st) := by
  unfold State.connLeft
  repeat' (first
    | with_reducible (first | assumption | apply State.failGroup_keeps | apply State.stepTargetLost_keeps | refine keeps_foldl (fun _ _ _ => ?_) ?_)
    | dsimp only
    | intro _)

theorem State.connOutOf_keeps {s0 s : State} (c : Nat)  (hK : Keeps s0 s) : Keeps s0 (State.connOutOf s c) := by
  unfold State.connOutOf
  repeat' (first
    | with_reducible (first | assumption)
    | (simp only [keeps_mk]; with_reducible apply keepsOn_of)
    | dsimp only
    | intro _)

theorem State.connDrop_keeps {s0 s : State} (c : Nat) (dest : ConnState) (st : Status)  (hK : Keeps s0 s) : Keeps s0 (State.connDrop s c dest st) := by
  unfold State.connDrop
  repeat' (first
    | with_reducible (first | assumption | apply State.setConn_keeps | apply State.workFail_keeps | apply State.restoreFail_keeps | apply State.responseAcked_keeps | apply State.emit_keeps | apply State.connLeft_keeps | apply State.connOutOf_keeps | refine keeps_foldl (fun _ _ _ => ?_) ?_)
    | (simp only [keeps_mk]; with_reducible apply keepsOn_of)
    | split
    | dsimp only
    | intro _)

theorem State.connError_keeps {s0 s : State} (c : Nat) (cause : Nat) (st : Status)  (hK : Keeps s0 s) : Keeps s0 (State.connError s c cause st) := by
  unfold State.connError
  repeat' (first
    | with_reducible (first | assumption | apply State.updConn_keeps | apply State.connDrop_keeps | apply State.setIntBit_keeps | apply State.event_keeps)
    | (simp only [keeps_mk]; with_reducible apply keepsOn_of)
    | dsimp only
    | intro _)

theorem State.connRetries_keeps {s0 s : State} (c : Nat)  (hK : Keeps s0 s) : Keeps s0 (State.connRetries s c) := by
  unfold State.connRetries
  repeat' (first
    | with_reducible (first | assumption | apply State.connDrop_keeps | apply State.connError_keeps)
    | split
    | dsimp only
    | intro _)

theorem State.connTried_keeps {s0 s : State} (c : Nat) (r : Sent)  (hK : Keeps s0 s) : Keeps s0 (State.connTried s c r) := by
  unfold State.connTried
  repeat' (first
    | with_reducible (first | assumption | apply State.connError_keeps)
    | split
    | dsimp only
    | intro _)

theorem State.sendCtrl_keeps {s0 s : State} (c : Nat) (typ : Nat) (ext : List Byte)  (hK : Keeps s0 s) : Keeps s0 (State.sendCtrl s c typ ext) := by
  unfold State.sendCtrl
  repeat' (first
    | with_reducible (first | assumption | apply State.connNext_keeps | apply State.updConn_keeps | apply State.connTried_keeps)
    | refine State.connNext_keeps_of (by with_reducible assumption) ?_
    | (simp only [keeps_mk]; with_reducible apply keepsOn_of)
    | split
    | dsimp only
    | intro _)

theorem State.sendNak_keeps {s0 s : State} (c : Nat) (psn : BitVec 32) (code : Status) (hint : Nat)  (hK : Keeps s0 s) : Keeps s0 (State.sendNak s c psn code hint) := by
  unfold State.sendNak
  repeat' (first
    | with_reducible (first | assumption | apply State.sendCtrl_keeps)
    | dsimp only
    | intro _)

theorem State.sendAck_keeps {s0 s : State} (c : Nat) (path : Option Nat)  (hK : Keeps s0 s) : Keeps s0 (State.sendAck s c path) := by
  unfold State.sendAck
  repeat' (first
    | with_reducible (first | assumption | apply State.connNext_keeps | apply State.updConn_keeps | apply State.connTried_keeps)
    | refine State.connNext_keeps_of (by with_reducible assumption) ?_
    | (simp only [keeps_mk]; with_reducible apply keepsOn_of)
    | split
    | dsimp only
    | intro _)

theorem State.rxSet_keeps {s0 s : State} (c : Nat) (psn : BitVec 32) (now : Bool) (ce : Bool) (path : Nat)  (hK : Keeps s0 s) : Keeps s0 (State.rxSet s c psn now ce path) := by
  unfold State.rxSet
  repeat' (first
    | with_reducible (first | assumption | apply State.setConn_keeps | apply State.sendAck_keeps)
    | (simp only [keeps_mk]; with_reducible apply keepsOn_of)
    | split
    | dsimp only
    | intro _)

theorem State.rxLast_keeps {s0 s : State} (c : Nat) (psn : BitVec 32) (ce : Bool) (path : Nat)  (hK : Keeps s0 s) : Keeps s0 (State.rxLast s c psn ce path) := by
  unfold State.rxLast
  repeat' (first
    | with_reducible (first | assumption | apply State.setConn_keeps | apply State.sendAck_keeps | apply State.rxSet_keeps)
    | split
    | dsimp only
    | intro _)

theorem State.ownerAcked_keeps {s0 s : State} (o : PktOwner)  (hK : Keeps s0 s) : Keeps s0 (State.ownerAcked s o) := by
  unfold State.ownerAcked
  repeat' (first
    | with_reducible (first | assumption | apply State.writeSettle_keeps | apply State.emit_keeps | apply State.responseAcked_keeps | apply State.stepSettle_keeps)
    | split
    | dsimp only
    | intro _)

theorem State.connAcked_keeps {s0 s : State} (c : Nat) (covers : BitVec 32 → Bool)  (hK : Keeps s0 s) : Keeps s0 (State.connAcked s c covers) := by
  unfold State.connAcked
  repeat' (first
    | with_reducible (first | assumption | apply State.setConn_keeps | apply State.ownerAcked_keeps | refine keeps_foldl (fun _ _ _ => ?_) ?_)
    | (simp only [keeps_mk]; with_reducible apply keepsOn_of)
    | split
    | dsimp only
    | intro _)

theorem State.connAck_keeps {s0 s : State} (c : Nat) (ackPsn : BitVec 32) (map : List (BitVec 32))  (hK : Keeps s0 s) : Keeps s0 (State.connAck s c ackPsn map) := by
  unfold State.connAck
  repeat' (first
    | with_reducible (first | assumption | apply State.connAcked_keeps)
    | dsimp only
    | intro _)

theorem State.eceIn_keeps {s0 s : State} (c : Nat) (path : Nat)  (hK : Keeps s0 s) : Keeps s0 (State.eceIn s c path) := by
  unfold State.eceIn
  repeat' (first
    | with_reducible (first | assumption | apply State.count1_keeps | apply State.holdPath_keeps | apply State.cwndCut_keeps)
    | dsimp only
    | intro _)

theorem State.sendNew_keeps {s0 s : State} (c : Nat) (it : TxItem)  (hK : Keeps s0 s) : Keeps s0 (State.sendNew s c it).2 := by
  unfold State.sendNew
  repeat' (first
    | with_reducible (first | assumption | apply State.connNext_keeps | apply State.count1_keeps | apply State.updConn_keeps | apply State.connTried_keeps)
    | refine State.connNext_keeps_of (by with_reducible assumption) ?_
    | (simp only [keeps_mk]; with_reducible apply keepsOn_of)
    | split
    | dsimp only
    | intro _)

theorem State.sendNew_keeps_of {s0 t s : State} {c : Nat} {it : TxItem}  {y0 : Sent} (he : (State.sendNew s c it) = (y0, t)) (hK : Keeps s0 s) : Keeps s0 t := by
  have hk := State.sendNew_keeps (s0 := s0) c it hK
  rw [he] at hk
  exact hk

theorem State.resend_keeps {s0 s : State} (c : Nat) (p : TxPkt) (counted : Bool)  (hK : Keeps s0 s) : Keeps s0 (State.resend s c p counted) := by
  unfold State.resend
  repeat' (first
    | with_reducible (first | assumption | apply State.connNext_keeps | apply State.count1_keeps | apply State.updConn_keeps | apply State.connTried_keeps)
    | refine State.connNext_keeps_of (by with_reducible assumption) ?_
    | (simp only [keeps_mk]; with_reducible apply keepsOn_of)
    | split
    | dsimp only
    | intro _)

theorem State.packetLost_keeps {s0 s : State} (c : Nat) (p : TxPkt)  (hK : Keeps s0 s) : Keeps s0 (State.packetLost s c p) := by
  unfold State.packetLost
  repeat' (first
    | with_reducible (first | assumption | apply State.connRetries_keeps | apply State.updConn_keeps | apply State.holdPath_keeps | apply State.resend_keeps)
    | (simp only [keeps_mk]; with_reducible apply keepsOn_of)
    | split
    | dsimp only
    | intro _)

theorem State.nakIn_keeps {s0 s : State} (c : Nat) (psn : BitVec 32) (code : Nat) (hint : Nat)  (hK : Keeps s0 s) : Keeps s0 (State.nakIn s c psn code hint) := by
  unfold State.nakIn
  repeat' (first
    | with_reducible (first | assumption | apply State.updConn_keeps | apply State.ownerFailed_keeps | apply State.connAcked_keeps)
    | (simp only [keeps_mk]; with_reducible apply keepsOn_of)
    | split
    | dsimp only
    | intro _)

theorem State.missNote_keeps {s0 s : State}   (hK : Keeps s0 s) : Keeps s0 (State.missNote s) := by
  unfold State.missNote
  repeat' (first
    | with_reducible (first | assumption)
    | (simp only [keeps_mk]; with_reducible apply keepsOn_of)
    | dsimp only
    | intro _)

theorem State.missFull_keeps {s0 s : State}   (hK : Keeps s0 s) : Keeps s0 (State.missFull s) := by
  unfold State.missFull
  repeat' (first
    | with_reducible (first | assumption | apply State.count1_keeps | apply State.setIntBit_keeps)
    | dsimp only
    | intro _)

theorem State.missHold_keeps {s0 s : State} (c : Nat) (why : HoldWhy) (typ : Nat) (p : MlrPacket)  (hK : Keeps s0 s) : Keeps s0 (State.missHold s c why typ p) := by
  unfold State.missHold
  repeat' (first
    | with_reducible (first | assumption | apply State.missNote_keeps | apply State.missFull_keeps)
    | (simp only [keeps_mk]; with_reducible apply keepsOn_of)
    | split
    | dsimp only
    | intro _)

theorem State.writeBack_keeps {s0 s : State} (c : Nat)  (hK : Keeps s0 s) : Keeps s0 (State.writeBack s c) := by
  unfold State.writeBack
  repeat' (first
    | with_reducible (first | assumption | apply State.setBytes_keeps)
    | (simp only [keeps_mk]; with_reducible apply keepsOn_of)
    | split
    | dsimp only
    | intro _)

theorem State.connRoom_keeps {s0 t s : State}    (he : (State.connRoom s) = some t) (hK : Keeps s0 s) : Keeps s0 t := by
  unfold State.connRoom at he
  try dsimp only at he
  repeat' split at he
  all_goals (first | (injection he with he; subst he) | (injection he; done) | skip)
  all_goals (repeat' (first
    | with_reducible (first | assumption | apply State.writeBack_keeps | apply State.count1_keeps)
    | (simp only [keeps_mk]; with_reducible apply keepsOn_of)
    | split
    | dsimp only
    | intro _))

theorem State.connRoom_keeps_d {s0 s t : State}  (hK : Keeps s0 s) (hT : Keeps s0 t) : Keeps s0 (Option.getD (State.connRoom s) t) := by
  cases hh : (State.connRoom s) with
  | none => exact hT
  | some v => exact State.connRoom_keeps hh hK

theorem State.connMiss_keeps {s0 s : State} (c : Nat)  (hK : Keeps s0 s) : Keeps s0 (State.connMiss s c) := by
  unfold State.connMiss
  repeat' (first
    | with_reducible (first | assumption | apply State.connRoom_keeps_d | apply State.count1_keeps)
    | refine State.connRoom_keeps (by with_reducible assumption) ?_
    | (simp only [keeps_mk]; with_reducible apply keepsOn_of)
    | split
    | dsimp only
    | intro _)

theorem State.missStart_keeps {s0 s : State}   (hK : Keeps s0 s) : Keeps s0 (State.missStart s) := by
  unfold State.missStart
  repeat' (first
    | with_reducible (first | assumption | apply State.connMiss_keeps | refine keeps_foldl (fun _ _ _ => ?_) ?_)
    | dsimp only
    | intro _)

theorem State.connUse_keeps {s0 s : State} (c : Nat)  (hK : Keeps s0 s) : Keeps s0 (State.connUse s c).2 := by
  unfold State.connUse
  repeat' (first
    | with_reducible (first | assumption | apply State.connMiss_keeps)
    | (simp only [keeps_mk]; with_reducible apply keepsOn_of)
    | split
    | dsimp only
    | intro _)

theorem State.connUse_keeps_of {s0 t s : State} {c : Nat}  {y0 : Bool} (he : (State.connUse s c) = (y0, t)) (hK : Keeps s0 s) : Keeps s0 t := by
  have hk := State.connUse_keeps (s0 := s0) c hK
  rw [he] at hk
  exact hk

theorem State.connIn_keeps {s0 s : State} (c : Nat)  (hK : Keeps s0 s) : Keeps s0 (State.connIn s c) := by
  unfold State.connIn
  repeat' (first
    | with_reducible (first | assumption | apply State.connRoom_keeps_d | apply State.writeBack_keeps)
    | refine State.connRoom_keeps (by with_reducible assumption) ?_
    | (simp only [keeps_mk]; with_reducible apply keepsOn_of)
    | split
    | dsimp only
    | intro _)

theorem State.connClose_keeps {s0 s : State} (c : Nat)  (hK : Keeps s0 s) : Keeps s0 (State.connClose s c) := by
  unfold State.connClose
  repeat' (first
    | with_reducible (first | assumption | apply State.updConn_keeps | apply State.connLeft_keeps | apply State.connOutOf_keeps)
    | (simp only [keeps_mk]; with_reducible apply keepsOn_of)
    | split
    | dsimp only
    | intro _)

theorem State.probe_keeps {s0 s : State} (w : Work)  (hK : Keeps s0 s) : Keeps s0 (State.probe s w) := by
  unfold State.probe
  repeat' (first
    | with_reducible (first | assumption | apply State.connUse_keeps | apply State.connOut_keeps | apply State.updWork_keeps | apply State.workFail_keeps | apply State.connTried_keeps)
    | refine State.connUse_keeps_of (by with_reducible assumption) ?_
    | refine State.connOut_keeps_of (by with_reducible assumption) ?_
    | (simp only [keeps_mk]; with_reducible apply keepsOn_of)
    | split
    | dsimp only
    | intro _)

theorem State.probeEcho_keeps {s0 s : State} (c : Nat) (id : Nat) (ts : Nat)  (hK : Keeps s0 s) : Keeps s0 (State.probeEcho s c id ts) := by
  unfold State.probeEcho
  repeat' (first
    | with_reducible (first | assumption | apply State.probe_keeps | apply State.ingest_keeps | apply State.workDone_keeps)
    | split
    | dsimp only
    | intro _)

theorem State.spateRun_keeps {s0 s : State} (w : Work) (i : Nat) (k : Nat)  (hK : Keeps s0 s) : Keeps s0 (State.spateRun s w i k) := by
  induction k generalizing s w i with
  | zero =>
    unfold State.spateRun
    try dsimp only
    repeat' (first
      | with_reducible (first | assumption | apply State.spateSettle_keeps | apply State.waitAt_keeps | apply State.sealPkt_keeps | apply State.mlrSubmit_keeps | apply State.updWork_keeps | apply State.workDone_keeps)
      | refine State.fetch_keeps (by with_reducible assumption) ?_
      | refine State.sealPkt_keeps_of (by with_reducible assumption) ?_
      | (simp only [keeps_mk]; with_reducible apply keepsOn_of)
      | split
      | dsimp only
      | intro _)
  | succ k ih =>
    unfold State.spateRun
    try dsimp only
    repeat' (first
      | with_reducible (first | assumption | apply ih | apply State.spateSettle_keeps | apply State.waitAt_keeps | apply State.sealPkt_keeps | apply State.mlrSubmit_keeps | apply State.updWork_keeps | apply State.workDone_keeps)
      | refine State.fetch_keeps (by with_reducible assumption) ?_
      | refine State.sealPkt_keeps_of (by with_reducible assumption) ?_
      | (simp only [keeps_mk]; with_reducible apply keepsOn_of)
      | split
      | dsimp only
      | intro _)

theorem State.spateSend_keeps {s0 s : State} (w : Work)  (hK : Keeps s0 s) : Keeps s0 (State.spateSend s w) := by
  unfold State.spateSend
  repeat' (first
    | with_reducible (first | assumption | apply State.spateRun_keeps | apply State.probe_keeps | apply State.ingest_keeps | apply State.updWork_keeps | apply State.workFail_keeps)
    | (simp only [keeps_mk]; with_reducible apply keepsOn_of)
    | split
    | dsimp only
    | intro _)

theorem State.spateAgain_keeps {s0 s : State} (ring : Nat) (idx : Nat)  (hK : Keeps s0 s) : Keeps s0 (State.spateAgain s ring idx) := by
  unfold State.spateAgain
  repeat' (first
    | with_reducible (first | assumption | apply State.runDesc_keeps | apply State.spateSend_keeps)
    | dsimp only
    | intro _)

theorem State.connOpen_keeps {s0 s : State}   (hK : Keeps s0 s) : Keeps s0 (State.connOpen s).2 := by
  unfold State.connOpen
  repeat' (first
    | with_reducible (first | assumption | apply State.count_keeps | apply State.setConn_keeps | apply State.connIn_keeps)
    | split
    | dsimp only
    | intro _)

theorem State.connOpen_keeps_of {s0 t s : State}   {y0 : Status} (he : (State.connOpen s) = (y0, t)) (hK : Keeps s0 s) : Keeps s0 t := by
  have hk := State.connOpen_keeps (s0 := s0) hK
  rw [he] at hk
  exact hk

theorem State.mlrSetPart_keeps {s0 s : State} (p : Nat)  (hK : Keeps s0 s) : Keeps s0 (State.mlrSetPart s p).2 := by
  unfold State.mlrSetPart
  repeat' (first
    | with_reducible (first | assumption | apply State.count_keeps | apply State.setPart_keeps)
    | (simp only [keeps_mk]; with_reducible apply keepsOn_of)
    | split
    | dsimp only
    | intro _)

theorem State.mlrSetPart_keeps_of {s0 t s : State} {p : Nat}  {y0 : Status} (he : (State.mlrSetPart s p) = (y0, t)) (hK : Keeps s0 s) : Keeps s0 t := by
  have hk := State.mlrSetPart_keeps (s0 := s0) p hK
  rw [he] at hk
  exact hk

theorem State.updSpate_keeps {s0 s : State} (n : Nat) (f : Spate → Spate)  (hK : Keeps s0 s) : Keeps s0 (State.updSpate s n f) := by
  unfold State.updSpate
  repeat' (first
    | with_reducible (first | assumption)
    | (simp only [keeps_mk]; with_reducible apply keepsOn_of)
    | dsimp only
    | intro _)

theorem State.spateOpen_keeps {s0 s : State} (p : Nat)  (hK : Keeps s0 s) : Keeps s0 (State.spateOpen s p).2 := by
  unfold State.spateOpen
  repeat' (first
    | with_reducible (first | assumption)
    | (simp only [keeps_mk]; with_reducible apply keepsOn_of)
    | split
    | dsimp only
    | intro _)

theorem State.spateOpen_keeps_of {s0 t s : State} {p : Nat}  {y0 : Status} (he : (State.spateOpen s p) = (y0, t)) (hK : Keeps s0 s) : Keeps s0 t := by
  have hk := State.spateOpen_keeps (s0 := s0) p hK
  rw [he] at hk
  exact hk

theorem State.spateShut_keeps {s0 s : State} (n : Nat)  (hK : Keeps s0 s) : Keeps s0 (State.spateShut s n) := by
  unfold State.spateShut
  repeat' (first
    | with_reducible (first | assumption | apply State.updSpate_keeps)
    | (simp only [keeps_mk]; with_reducible apply keepsOn_of)
    | dsimp only
    | intro _)

theorem State.spateClose_keeps {s0 s : State}   (hK : Keeps s0 s) : Keeps s0 (State.spateClose s).2 := by
  unfold State.spateClose
  repeat' (first
    | with_reducible (first | assumption | apply State.spateShut_keeps)
    | split
    | dsimp only
    | intro _)

theorem State.spateClose_keeps_of {s0 t s : State}   {y0 : Status} (he : (State.spateClose s) = (y0, t)) (hK : Keeps s0 s) : Keeps s0 t := by
  have hk := State.spateClose_keeps (s0 := s0) hK
  rw [he] at hk
  exact hk

theorem State.mlrQuery_keeps {s0 s : State}   (hK : Keeps s0 s) : Keeps s0 (State.mlrQuery s) := by
  unfold State.mlrQuery
  repeat' (first
    | with_reducible (first | assumption | apply State.setReg_keeps)
    | dsimp only
    | intro _)

theorem mlrRun_keeps {s0 s : State} (val : Word)  (hK : Keeps s0 s) : Keeps s0 (mlrRun val s) := by
  unfold mlrRun
  repeat' (first
    | with_reducible (first | assumption | apply State.connOpen_keeps | apply State.connClose_keeps | apply State.mlrQuery_keeps | apply State.mlrSetPart_keeps | apply State.spateOpen_keeps | apply State.spateClose_keeps | apply State.cmdEnd_keeps)
    | refine State.connOpen_keeps_of (by with_reducible assumption) ?_
    | refine State.mlrSetPart_keeps_of (by with_reducible assumption) ?_
    | refine State.spateOpen_keeps_of (by with_reducible assumption) ?_
    | refine State.spateClose_keeps_of (by with_reducible assumption) ?_
    | split
    | dsimp only
    | intro _)

end Sys2Proof.Machine
end

