-- ==== Sys2Proof/Laws/KeepsConfluence.lean ====
section
/-! SUPPORT. What the operations of Machine/Confluence.lean leave as it was (Keeps). -/

set_option linter.unusedTactic false
set_option linter.unreachableTactic false
set_option linter.unusedVariables false
set_option linter.unusedSimpArgs false

namespace Sys2Proof.Machine

theorem State.emitTo_keeps {s0 s : State} (g : Group) (key : Nat) (k : Nat) (i : Nat) (last : Bool) (data : List Byte)  (hK : Keeps s0 s) : Keeps s0 (State.emitTo s g key k i last data) := by
  unfold State.emitTo
  repeat' (first
    | with_reducible (first | assumption | apply State.connEnqueue_keeps | apply State.emit_keeps)
    | split
    | dsimp only
    | intro _)

theorem State.segPlace_keeps {s0 s : State} (key : Nat) (k : Nat)  (hK : Keeps s0 s) : Keeps s0 (State.segPlace s key k) := by
  unfold State.segPlace
  repeat' (first
    | with_reducible (first | assumption | apply State.updGroup_keeps | apply State.whenUp_keeps | apply State.put_keeps)
    | (simp only [keeps_mk]; with_reducible apply keepsOn_of)
    | split
    | dsimp only
    | intro _)

theorem State.emitSeg_keeps {s0 s : State} (key : Nat) (k : Nat)  (hK : Keeps s0 s) : Keeps s0 (State.emitSeg s key k) := by
  unfold State.emitSeg
  repeat' (first
    | with_reducible (first | assumption | apply State.emitTo_keeps | apply State.segPlace_keeps | apply State.updGroup_keeps | apply State.count1_keeps | refine keeps_foldl (fun _ _ _ => ?_) ?_)
    | (simp only [keeps_mk]; with_reducible apply keepsOn_of)
    | split
    | dsimp only
    | intro _)

theorem State.openSeg_keeps {s0 s : State} (g : Group) (key : Nat) (k : Nat)  (hK : Keeps s0 s) : Keeps s0 (State.openSeg s g key k) := by
  unfold State.openSeg
  repeat' (first
    | with_reducible (first | assumption | apply State.clearSlots_keeps | apply State.updGroup_keeps | apply State.count_keeps)
    | (simp only [keeps_mk]; with_reducible apply keepsOn_of)
    | split
    | dsimp only
    | intro _)

theorem State.addTerms_keeps {s0 s : State} (key : Nat) (e : Nat) (n : Nat) (bs : List Byte)  (hK : Keeps s0 s) : Keeps s0 (State.addTerms s key e n bs) := by
  unfold State.addTerms
  repeat' (first
    | with_reducible (first | assumption | apply State.openSeg_keeps | apply State.count_keeps | apply State.updGroup_keeps | apply State.emitSeg_keeps)
    | (simp only [keeps_mk]; with_reducible apply keepsOn_of)
    | split
    | dsimp only
    | intro _)

theorem State.xrdRefused_keeps {s0 s : State} (c : Nat) (p : MlrPacket) (reason : Nat)  (hK : Keeps s0 s) : Keeps s0 (State.xrdRefused s c p reason) := by
  unfold State.xrdRefused
  repeat' (first
    | with_reducible (first | assumption | apply State.count1_keeps | apply State.updConn_keeps | apply State.event_keeps)
    | (simp only [keeps_mk]; with_reducible apply keepsOn_of)
    | split
    | dsimp only
    | intro _)

theorem State.xrdRefuse_keeps {s0 s : State} (c : Nat) (p : MlrPacket) (st : Status) (reason : Nat)  (hK : Keeps s0 s) : Keeps s0 (State.xrdRefuse s c p st reason) := by
  unfold State.xrdRefuse
  repeat' (first
    | with_reducible (first | assumption | apply State.sendNak_keeps | apply State.rxSet_keeps | apply State.xrdRefused_keeps)
    | dsimp only
    | intro _)

theorem State.xrdPnr_keeps {s0 s : State} (c : Nat) (p : MlrPacket) (gen : Nat)  (hK : Keeps s0 s) : Keeps s0 (State.xrdPnr s c p gen) := by
  unfold State.xrdPnr
  repeat' (first
    | with_reducible (first | assumption | apply State.sendNak_keeps | apply State.count1_keeps)
    | dsimp only
    | intro _)

theorem State.reduce_keeps {s0 s : State} (c : Nat) (p : MlrPacket)  (hK : Keeps s0 s) : Keeps s0 (State.reduce s c p) := by
  unfold State.reduce
  repeat' (first
    | with_reducible (first | assumption | apply State.xrdPnr_keeps | apply State.xrdRefuse_keeps | apply State.failGroup_keeps | apply State.hold_keeps | apply State.missHold_keeps | apply State.count1_keeps | apply State.addTerms_keeps | apply State.rxSet_keeps)
    | refine State.hold_keeps_of (by with_reducible assumption) ?_
    | split
    | dsimp only
    | intro _)

theorem State.unhold_keeps {s0 s : State} (hid : Nat)  (hK : Keeps s0 s) : Keeps s0 (State.unhold s hid) := by
  unfold State.unhold
  repeat' (first
    | with_reducible (first | assumption)
    | (simp only [keeps_mk]; with_reducible apply keepsOn_of)
    | dsimp only
    | intro _)

theorem State.heldTake_keeps {s0 s : State} (h : HeldPkt) (f : State → State) (hf : ∀ a0, Keeps s0 a0 → Keeps s0 (f a0)) (hK : Keeps s0 s) : Keeps s0 (State.heldTake s h f) := by
  unfold State.heldTake
  repeat' (first
    | with_reducible (first | assumption | apply State.unhold_keeps | apply State.underGen_keeps)
    | apply hf
    | dsimp only
    | intro _)

theorem State.windowIn_keeps {s0 s : State} (key : Nat)  (hK : Keeps s0 s) : Keeps s0 (State.windowIn s key) := by
  unfold State.windowIn
  repeat' (first
    | with_reducible (first | assumption | apply State.heldTake_keeps | apply State.reduce_keeps | refine keeps_foldl (fun _ _ _ => ?_) ?_)
    | split
    | dsimp only
    | intro _)

theorem State.segRelease_keeps {s0 s : State} (key : Nat) (seg : Nat)  (hK : Keeps s0 s) : Keeps s0 (State.segRelease s key seg) := by
  unfold State.segRelease
  repeat' (first
    | with_reducible (first | assumption | apply State.clearSlots_keeps | apply State.updGroup_keeps | apply State.windowIn_keeps)
    | (simp only [keeps_mk]; with_reducible apply keepsOn_of)
    | split
    | dsimp only
    | intro _)

theorem State.freeGroup_keeps {s0 s : State} (key : Nat)  (hK : Keeps s0 s) : Keeps s0 (State.freeGroup s key) := by
  unfold State.freeGroup
  repeat' (first
    | with_reducible (first | assumption | apply State.clearSlots_keeps)
    | (simp only [keeps_mk]; with_reducible apply keepsOn_of)
    | split
    | dsimp only
    | intro _)

theorem State.reductionPacket_keeps {s0 s : State} (p : MlrPacket)  (hK : Keeps s0 s) : Keeps s0 (State.reductionPacket s p) := by
  unfold State.reductionPacket
  repeat' (first
    | with_reducible (first | assumption | apply State.reduce_keeps)
    | split
    | dsimp only
    | intro _)

theorem State.contribRun_keeps {s0 s : State} (w : Work) (i : Nat) (k : Nat)  (hK : Keeps s0 s) : Keeps s0 (State.contribRun s w i k) := by
  induction k generalizing s w i with
  | zero =>
    unfold State.contribRun
    try dsimp only
    repeat' (first
      | with_reducible (first | assumption | apply State.workDone_keeps | apply State.updWork_keeps | apply State.failGroup_keeps | apply State.workFail_keeps | apply State.addTerms_keeps)
      | refine State.fetch_keeps (by with_reducible assumption) ?_
      | (simp only [keeps_mk]; with_reducible apply keepsOn_of)
      | split
      | dsimp only
      | intro _)
  | succ k ih =>
    unfold State.contribRun
    try dsimp only
    repeat' (first
      | with_reducible (first | assumption | apply ih | apply State.workDone_keeps | apply State.updWork_keeps | apply State.failGroup_keeps | apply State.workFail_keeps | apply State.addTerms_keeps)
      | refine State.fetch_keeps (by with_reducible assumption) ?_
      | (simp only [keeps_mk]; with_reducible apply keepsOn_of)
      | split
      | dsimp only
      | intro _)

end Sys2Proof.Machine
end

