-- ==== Sys2Proof/Laws/KeepsRma.lean ====
section
/-! SUPPORT. What the operations of Machine/Rma.lean leave as it was (Keeps). -/

set_option linter.unusedTactic false
set_option linter.unreachableTactic false
set_option linter.unusedVariables false
set_option linter.unusedSimpArgs false

namespace Sys2Proof.Machine

theorem State.setRegionState_keeps {s0 s : State} (key : Nat) (st : Nat)  (hK : Keeps s0 s) : Keeps s0 (State.setRegionState s key st) := by
  unfold State.setRegionState
  repeat' (first
    | with_reducible (first | assumption | apply State.setWord_keeps)
    | split
    | dsimp only
    | intro _)

theorem State.violation_keeps {s0 s : State} (q : Nat) (obj : Nat) (w1 : Nat) (off : Nat) (n : Nat) (reason : Nat)  (hK : Keeps s0 s) : Keeps s0 (State.violation s q obj w1 off n reason) := by
  unfold State.violation
  repeat' (first
    | with_reducible (first | assumption | apply State.event_keeps)
    | dsimp only
    | intro _)

theorem State.connViolation_keeps {s0 s : State} (c : Nat) (p : MlrPacket) (reason : Nat)  (hK : Keeps s0 s) : Keeps s0 (State.connViolation s c p reason) := by
  unfold State.connViolation
  repeat' (first
    | with_reducible (first | assumption | apply State.updConn_keeps | apply State.violation_keeps)
    | (simp only [keeps_mk]; with_reducible apply keepsOn_of)
    | split
    | dsimp only
    | intro _)

theorem State.spateViolation_keeps {s0 s : State} (n : Nat) (p : MlrPacket) (reason : Nat)  (hK : Keeps s0 s) : Keeps s0 (State.spateViolation s n p reason) := by
  unfold State.spateViolation
  repeat' (first
    | with_reducible (first | assumption | apply State.count1_keeps | apply State.updSpate_keeps | apply State.violation_keeps)
    | (simp only [keeps_mk]; with_reducible apply keepsOn_of)
    | split
    | dsimp only
    | intro _)

theorem State.nakSet_keeps {s0 s : State} (c : Nat) (p : MlrPacket) (st : Status)  (hK : Keeps s0 s) : Keeps s0 (State.nakSet s c p st) := by
  unfold State.nakSet
  repeat' (first
    | with_reducible (first | assumption | apply State.sendNak_keeps | apply State.rxSet_keeps)
    | dsimp only
    | intro _)

theorem State.rmaRefuse_keeps {s0 s : State} (c : Nat) (p : MlrPacket) (reason : Nat)  (hK : Keeps s0 s) : Keeps s0 (State.rmaRefuse s c p reason) := by
  unfold State.rmaRefuse
  repeat' (first
    | with_reducible (first | assumption | apply State.count1_keeps | apply State.nakSet_keeps | apply State.connViolation_keeps)
    | dsimp only
    | intro _)

theorem State.rmaPnr_keeps {s0 s : State} (c : Nat) (p : MlrPacket) (mode : Nat)  (hK : Keeps s0 s) : Keeps s0 (State.rmaPnr s c p mode) := by
  unfold State.rmaPnr
  repeat' (first
    | with_reducible (first | assumption | apply State.sendNak_keeps | apply State.count1_keeps)
    | split
    | dsimp only
    | intro _)

theorem State.atsRange_keeps {s0 s : State} (e : List Word) (off : Nat) (len : Nat)  (hK : Keeps s0 s) : Keeps s0 (State.atsRange s e off len) := by
  unfold State.atsRange
  repeat' (first
    | with_reducible (first | assumption | apply State.atsPage_keeps | refine keeps_foldl (fun _ _ _ => ?_) ?_)
    | split
    | dsimp only
    | intro _)

theorem State.putSegs_keeps {s0 s : State} (host : Option Nat) (segs : List (Nat × Nat)) (data : List Byte)  (hK : Keeps s0 s) : Keeps s0 (State.putSegs s host segs data) := by
  induction segs generalizing s host data with
  | nil =>
    unfold State.putSegs
    try dsimp only
    repeat' (first
      | with_reducible (first | assumption | apply State.hostWrite_keeps | apply State.setBytes_keeps | apply State.drop_keeps)
      | split
      | dsimp only
      | intro _)
  | cons x r ih =>
    unfold State.putSegs
    try dsimp only
    repeat' (first
      | with_reducible (first | assumption | apply ih | apply State.hostWrite_keeps | apply State.setBytes_keeps | apply State.drop_keeps)
      | split
      | dsimp only
      | intro _)

theorem State.pageAsk_keeps {s0 s : State} (id : PageId)  (hK : Keeps s0 s) : Keeps s0 (State.pageAsk s id) := by
  unfold State.pageAsk
  repeat' (first
    | with_reducible (first | assumption | apply State.event_keeps | apply State.priAsk_keeps)
    | split
    | dsimp only
    | intro _)

theorem State.faultOpen_keeps {s0 s : State} (id : PageId)  (hK : Keeps s0 s) : Keeps s0 (State.faultOpen s id) := by
  unfold State.faultOpen
  repeat' (first
    | with_reducible (first | assumption | apply State.pageAsk_keeps)
    | (simp only [keeps_mk]; with_reducible apply keepsOn_of)
    | dsimp only
    | intro _)

theorem State.pageAgain_keeps {s0 s : State} (id : PageId)  (hK : Keeps s0 s) : Keeps s0 (State.pageAgain s id) := by
  unfold State.pageAgain
  repeat' (first
    | with_reducible (first | assumption | apply State.pageAsk_keeps)
    | split
    | dsimp only
    | intro _)

theorem State.faultMeet_keeps {s0 s : State} (id : PageId)  (hK : Keeps s0 s) : Keeps s0 (State.faultMeet s id).2 := by
  unfold State.faultMeet
  repeat' (first
    | with_reducible (first | assumption | apply State.pageAgain_keeps | apply State.setIntBit_keeps | apply State.faultOpen_keeps)
    | (simp only [keeps_mk]; with_reducible apply keepsOn_of)
    | split
    | dsimp only
    | intro _)

theorem State.faultMeet_keeps_of {s0 t s : State} {id : PageId}  {y0 : Miss} (he : (State.faultMeet s id) = (y0, t)) (hK : Keeps s0 s) : Keeps s0 t := by
  have hk := State.faultMeet_keeps (s0 := s0) id hK
  rw [he] at hk
  exact hk

theorem State.stallStart_keeps {s0 s : State} (c : Nat) (fid : Nat) (psn : BitVec 32)  (hK : Keeps s0 s) : Keeps s0 (State.stallStart s c fid psn) := by
  unfold State.stallStart
  repeat' (first
    | with_reducible (first | assumption | apply State.updConn_keeps | apply State.count1_keeps)
    | (simp only [keeps_mk]; with_reducible apply keepsOn_of)
    | dsimp only
    | intro _)

theorem State.packetStall_keeps {s0 s : State} (c : Nat) (typ : Nat) (p : MlrPacket) (id : PageId) (ended : Option PageId)  (hK : Keeps s0 s) : Keeps s0 (State.packetStall s c typ p id ended) := by
  unfold State.packetStall
  repeat' (first
    | with_reducible (first | assumption | apply State.faultMeet_keeps | apply State.rmaRefuse_keeps | apply State.rmaPnr_keeps | apply State.missHold_keeps | apply State.stallStart_keeps | apply State.missFull_keeps)
    | refine State.faultMeet_keeps_of (by with_reducible assumption) ?_
    | split
    | dsimp only
    | intro _)

theorem State.writeIn_keeps {s0 s : State} (c : Nat) (typ : Nat) (p : MlrPacket) (e : List Word) (segs : List (Nat × Nat))  (hK : Keeps s0 s) : Keeps s0 (State.writeIn s c typ p e segs) := by
  unfold State.writeIn
  repeat' (first
    | with_reducible (first | assumption | apply State.updConn_keeps | apply State.rxSet_keeps | apply State.count1_keeps | apply State.missNote_keeps | apply State.missFull_keeps)
    | (simp only [keeps_mk]; with_reducible apply keepsOn_of)
    | split
    | dsimp only
    | intro _)

theorem State.readIn_keeps {s0 s : State} (c : Nat) (p : MlrPacket)  (hK : Keeps s0 s) : Keeps s0 (State.readIn s c p) := by
  unfold State.readIn
  repeat' (first
    | with_reducible (first | assumption | apply State.missFull_keeps | apply State.updConn_keeps | apply State.rxSet_keeps | apply State.missNote_keeps)
    | (simp only [keeps_mk]; with_reducible apply keepsOn_of)
    | split
    | dsimp only
    | intro _)

theorem State.rmaTake_keeps {s0 s : State} (c : Nat) (typ : Nat) (p : MlrPacket) (ended : Option PageId)  (hK : Keeps s0 s) : Keeps s0 (State.rmaTake s c typ p ended) := by
  unfold State.rmaTake
  repeat' (first
    | with_reducible (first | assumption | apply State.count1_keeps | apply State.nakSet_keeps | apply State.atsRange_keeps | apply State.readIn_keeps | apply State.writeIn_keeps | apply State.packetStall_keeps | apply State.rmaRefuse_keeps)
    | split
    | dsimp only
    | intro _)

theorem State.regionTouch_keeps {s0 s : State} (key : Nat)  (hK : Keeps s0 s) : Keeps s0 (State.regionTouch s key) := by
  unfold State.regionTouch
  repeat' (first
    | with_reducible (first | assumption | apply State.drop_keeps)
    | (simp only [keeps_mk]; with_reducible apply keepsOn_of)
    | dsimp only
    | intro _)

theorem State.regionMiss_keeps {s0 s : State} (key : Nat)  (hK : Keeps s0 s) : Keeps s0 (State.regionMiss s key) := by
  unfold State.regionMiss
  repeat' (first
    | with_reducible (first | assumption | apply State.count1_keeps)
    | (simp only [keeps_mk]; with_reducible apply keepsOn_of)
    | split
    | dsimp only
    | intro _)

theorem State.rmaSwap_keeps {s0 s : State}   (hK : Keeps s0 s) : Keeps s0 (State.rmaSwap s) := by
  unfold State.rmaSwap
  repeat' (first
    | with_reducible (first | assumption | apply State.swapFirst_keeps)
    | dsimp only
    | intro _)

theorem State.rmaIn_keeps {s0 s : State} (c : Nat) (typ : Nat) (p : MlrPacket) (ended : Option PageId)  (hK : Keeps s0 s) : Keeps s0 (State.rmaIn s c typ p ended) := by
  unfold State.rmaIn
  repeat' (first
    | with_reducible (first | assumption | apply State.rmaSwap_keeps | apply State.rmaRefuse_keeps | apply State.regionTouch_keeps | apply State.rmaTake_keeps | apply State.missHold_keeps | apply State.regionMiss_keeps)
    | split
    | dsimp only
    | intro _)

theorem State.spateTake_keeps {s0 s : State} (n : Nat) (x : Spate) (p : MlrPacket)  (hK : Keeps s0 s) : Keeps s0 (State.spateTake s n x p) := by
  unfold State.spateTake
  repeat' (first
    | with_reducible (first | assumption | apply State.count1_keeps | apply State.atsRange_keeps | apply State.putSegs_keeps | apply State.syncAdd_keeps | apply State.faultMeet_keeps | apply State.spateViolation_keeps)
    | refine State.faultMeet_keeps_of (by with_reducible assumption) ?_
    | split
    | dsimp only
    | intro _)

theorem State.spateIn_keeps {s0 s : State} (n : Nat) (p : MlrPacket)  (hK : Keeps s0 s) : Keeps s0 (State.spateIn s n p) := by
  unfold State.spateIn
  repeat' (first
    | with_reducible (first | assumption | apply State.rmaSwap_keeps | apply State.spateViolation_keeps | apply State.regionTouch_keeps | apply State.spateTake_keeps | apply State.missHold_keeps | apply State.regionMiss_keeps)
    | split
    | dsimp only
    | intro _)

theorem State.readTake_keeps {s0 s : State} (w : Work) (pos : Nat) (rq : Option (BitVec 32)) (placed : List (Nat × Nat)) (resume : Option (Nat × Nat)) (st : Nat) (roff : Nat) (data : List Byte)  (hK : Keeps s0 s) : Keeps s0 (State.readTake s w pos rq placed resume st roff data) := by
  unfold State.readTake
  repeat' (first
    | with_reducible (first | assumption | apply State.put_keeps | apply State.count1_keeps | apply State.workDone_keeps | apply State.updWork_keeps | apply State.workFail_keeps)
    | (simp only [keeps_mk]; with_reducible apply keepsOn_of)
    | split
    | dsimp only
    | intro _)

theorem State.restoreTake_keeps {s0 s : State} (w : Work) (fails : List (Nat × Status)) (rd : Nat × Nat × Nat) (rq : Option (BitVec 32)) (pos : Nat) (resume : Option (Nat × Nat)) (st : Nat) (roff : Nat) (data : List Byte)  (hK : Keeps s0 s) : Keeps s0 (State.restoreTake s w fails rd rq pos resume st roff data) := by
  unfold State.restoreTake
  repeat' (first
    | with_reducible (first | assumption | apply State.updWork_keeps)
    | (simp only [keeps_mk]; with_reducible apply keepsOn_of)
    | split
    | dsimp only
    | intro _)

theorem State.respDone_keeps {s0 s : State} (c : Nat) (p : MlrPacket)  (hK : Keeps s0 s) : Keeps s0 (State.respDone s c p) := by
  unfold State.respDone
  repeat' (first
    | with_reducible (first | assumption | apply State.readTake_keeps | apply State.restoreTake_keeps | apply State.probe_keeps | apply State.ingest_keeps | apply State.count1_keeps | apply State.errFor_keeps | apply State.rxSet_keeps)
    | split
    | dsimp only
    | intro _)

theorem State.readResp_keeps {s0 s : State} (c : Nat) (p : MlrPacket)  (hK : Keeps s0 s) : Keeps s0 (State.readResp s c p) := by
  unfold State.readResp
  repeat' (first
    | with_reducible (first | assumption | apply State.updConn_keeps | apply State.respDone_keeps)
    | (simp only [keeps_mk]; with_reducible apply keepsOn_of)
    | split
    | dsimp only
    | intro _)

theorem State.dataIn_keeps {s0 s : State} (c : Nat) (typ : Nat) (p : MlrPacket) (ended : Option PageId)  (hK : Keeps s0 s) : Keeps s0 (State.dataIn s c typ p ended) := by
  unfold State.dataIn
  repeat' (first
    | with_reducible (first | assumption | apply State.readResp_keeps | apply State.reduce_keeps | apply State.rmaIn_keeps)
    | split
    | dsimp only
    | intro _)

theorem State.areqAck_keeps {s0 s : State} (c : Nat) (p : MlrPacket)  (hK : Keeps s0 s) : Keeps s0 (State.areqAck s c p) := by
  unfold State.areqAck
  repeat' (first
    | with_reducible (first | assumption | apply State.sendAck_keeps)
    | split
    | dsimp only
    | intro _)

theorem State.dataArrive_keeps {s0 s : State} (c : Nat) (typ : Nat) (p : MlrPacket)  (hK : Keeps s0 s) : Keeps s0 (State.dataArrive s c typ p) := by
  unfold State.dataArrive
  repeat' (first
    | with_reducible (first | assumption | apply State.count1_keeps | apply State.sendAck_keeps | apply State.connAck_keeps | apply State.missHold_keeps | apply State.dataIn_keeps | apply State.areqAck_keeps)
    | split
    | dsimp only
    | intro _)

theorem State.ctrlAct_keeps {s0 s : State} (c : Nat) (typ : Nat) (p : MlrPacket)  (hK : Keeps s0 s) : Keeps s0 (State.ctrlAct s c typ p) := by
  unfold State.ctrlAct
  repeat' (first
    | with_reducible (first | assumption | apply State.nakIn_keeps | apply State.probeEcho_keeps | apply State.sendCtrl_keeps | apply State.eceIn_keeps)
    | split
    | dsimp only
    | intro _)

theorem State.ctrlArrive_keeps {s0 s : State} (c : Nat) (typ : Nat) (p : MlrPacket)  (hK : Keeps s0 s) : Keeps s0 (State.ctrlArrive s c typ p) := by
  unfold State.ctrlArrive
  repeat' (first
    | with_reducible (first | assumption | apply State.count1_keeps | apply State.connAck_keeps | apply State.ctrlAct_keeps | apply State.sendAck_keeps)
    | split
    | dsimp only
    | intro _)

theorem State.openPkt_keeps {s0 s : State} (k : Nat) (typ : Nat) (p : MlrPacket)  (hK : Keeps s0 s) : Keeps s0 (State.openPkt s k typ p).2 := by
  unfold State.openPkt
  repeat' (first
    | with_reducible (first | assumption | apply State.keyUse_keeps)
    | refine State.keyUse_keeps_of (by with_reducible assumption) ?_
    | split
    | dsimp only
    | intro _)

theorem State.openPkt_keeps_of {s0 t s : State} {k : Nat} {typ : Nat} {p : MlrPacket}  {y0 : Opened} (he : (State.openPkt s k typ p) = (y0, t)) (hK : Keeps s0 s) : Keeps s0 t := by
  have hk := State.openPkt_keeps (s0 := s0) k typ p hK
  rw [he] at hk
  exact hk

theorem State.connAuthFail_keeps {s0 s : State} (c : Nat)  (hK : Keeps s0 s) : Keeps s0 (State.connAuthFail s c) := by
  unfold State.connAuthFail
  repeat' (first
    | with_reducible (first | assumption | apply State.count1_keeps | apply State.updConn_keeps | apply State.event_keeps)
    | (simp only [keeps_mk]; with_reducible apply keepsOn_of)
    | split
    | dsimp only
    | intro _)

theorem State.spateAuthFail_keeps {s0 s : State} (n : Nat)  (hK : Keeps s0 s) : Keeps s0 (State.spateAuthFail s n) := by
  unfold State.spateAuthFail
  repeat' (first
    | with_reducible (first | assumption | apply State.count1_keeps | apply State.updSpate_keeps | apply State.event_keeps)
    | (simp only [keeps_mk]; with_reducible apply keepsOn_of)
    | split
    | dsimp only
    | intro _)

theorem State.spateArrive_keeps {s0 s : State} (p : MlrPacket)  (hK : Keeps s0 s) : Keeps s0 (State.spateArrive s p) := by
  unfold State.spateArrive
  repeat' (first
    | with_reducible (first | assumption | apply State.count1_keeps | apply State.openPkt_keeps | apply State.missHold_keeps | apply State.spateAuthFail_keeps | apply State.spateIn_keeps)
    | refine State.openPkt_keeps_of (by with_reducible assumption) ?_
    | (simp only [keeps_mk]; with_reducible apply keepsOn_of)
    | split
    | dsimp only
    | intro _)

theorem State.connArrive_keeps {s0 s : State} (typ : Nat) (p : MlrPacket)  (hK : Keeps s0 s) : Keeps s0 (State.connArrive s typ p) := by
  unfold State.connArrive
  repeat' (first
    | with_reducible (first | assumption | apply State.count1_keeps | apply State.openPkt_keeps | apply State.missHold_keeps | apply State.connAuthFail_keeps | apply State.ctrlArrive_keeps | apply State.dataArrive_keeps)
    | refine State.openPkt_keeps_of (by with_reducible assumption) ?_
    | (simp only [keeps_mk]; with_reducible apply keepsOn_of)
    | split
    | dsimp only
    | intro _)

theorem State.mlrReceive_keeps {s0 s : State} (typ : Nat) (p : MlrPacket)  (hK : Keeps s0 s) : Keeps s0 (State.mlrReceive s typ p) := by
  unfold State.mlrReceive
  repeat' (first
    | with_reducible (first | assumption | apply State.count1_keeps | apply State.spateArrive_keeps | apply State.connUse_keeps | apply State.connArrive_keeps | apply State.missHold_keeps)
    | refine State.connUse_keeps_of (by with_reducible assumption) ?_
    | (simp only [keeps_mk]; with_reducible apply keepsOn_of)
    | split
    | dsimp only
    | intro _)

theorem State.reprocess_keeps {s0 s : State} (which : HeldPkt → Bool)  (hK : Keeps s0 s) : Keeps s0 (State.reprocess s which) := by
  unfold State.reprocess
  repeat' (first
    | with_reducible (first | assumption | apply State.heldTake_keeps | apply State.mlrReceive_keeps | refine keeps_foldl (fun _ _ _ => ?_) ?_)
    | split
    | dsimp only
    | intro _)

theorem State.rxGone_keeps {s0 s : State} (c : Nat) (psn : BitVec 32)  (hK : Keeps s0 s) : Keeps s0 (State.rxGone s c psn) := by
  unfold State.rxGone
  repeat' (first
    | with_reducible (first | assumption | apply State.updConn_keeps)
    | (simp only [keeps_mk]; with_reducible apply keepsOn_of)
    | dsimp only
    | intro _)

theorem State.lastNotices_keeps {s0 s : State} (c : Nat) (r : RxPkt)  (hK : Keeps s0 s) : Keeps s0 (State.lastNotices s c r) := by
  unfold State.lastNotices
  repeat' (first
    | with_reducible (first | assumption | apply State.eventRing_keeps | apply State.wake_keeps | apply State.syncAdd_keeps)
    | split
    | dsimp only
    | intro _)

theorem State.stallDrain_keeps {s0 s : State} (c : Nat) (ended : Option PageId)  (hK : Keeps s0 s) : Keeps s0 (State.stallDrain s c ended) := by
  unfold State.stallDrain
  repeat' (first
    | with_reducible (first | assumption | apply State.heldTake_keeps | apply State.dataIn_keeps | refine keeps_foldl (fun _ _ _ => ?_) ?_)
    | split
    | dsimp only
    | intro _)

theorem State.serveRefuse_keeps {s0 s : State} (c : Nat) (v : Serve) (reason : Nat)  (hK : Keeps s0 s) : Keeps s0 (State.serveRefuse s c v reason) := by
  unfold State.serveRefuse
  repeat' (first
    | with_reducible (first | assumption | apply State.serveEnd_keeps | apply State.count1_keeps | apply State.updConn_keeps | apply State.violation_keeps)
    | (simp only [keeps_mk]; with_reducible apply keepsOn_of)
    | split
    | dsimp only
    | intro _)

theorem State.stallOff_keeps {s0 s : State} (c : Nat) (psn : BitVec 32)  (hK : Keeps s0 s) : Keeps s0 (State.stallOff s c psn) := by
  unfold State.stallOff
  repeat' (first
    | with_reducible (first | assumption | apply State.updConn_keeps)
    | (simp only [keeps_mk]; with_reducible apply keepsOn_of)
    | dsimp only
    | intro _)

theorem State.stallEnd_keeps {s0 s : State} (c : Nat) (psn : BitVec 32) (invalid : Bool)  (hK : Keeps s0 s) : Keeps s0 (State.stallEnd s c psn invalid) := by
  unfold State.stallEnd
  repeat' (first
    | with_reducible (first | assumption | apply State.stallOff_keeps | apply State.heldTake_keeps | apply State.rmaRefuse_keeps | apply State.rmaTake_keeps | apply State.serveRefuse_keeps | apply State.stallDrain_keeps)
    | split
    | dsimp only
    | intro _)

theorem State.faultClose_keeps {s0 s : State} (f : FaultEntry) (invalid : Bool)  (hK : Keeps s0 s) : Keeps s0 (State.faultClose s f invalid) := by
  unfold State.faultClose
  repeat' (first
    | with_reducible (first | assumption | apply State.stallEnd_keeps | refine keeps_foldl (fun _ _ _ => ?_) ?_)
    | (simp only [keeps_mk]; with_reducible apply keepsOn_of)
    | dsimp only
    | intro _)

theorem State.faultsPresent_keeps {s0 s : State}   (hK : Keeps s0 s) : Keeps s0 (State.faultsPresent s) := by
  unfold State.faultsPresent
  repeat' (first
    | with_reducible (first | assumption | apply State.faultClose_keeps | refine keeps_foldl (fun _ _ _ => ?_) ?_)
    | dsimp only
    | intro _)

theorem State.dptChanged_keeps {s0 s : State} (q : Nat)  (hK : Keeps s0 s) : Keeps s0 (State.dptChanged s q) := by
  unfold State.dptChanged
  repeat' (first
    | with_reducible (first | assumption | apply State.faultClose_keeps | refine keeps_foldl (fun _ _ _ => ?_) ?_)
    | split
    | dsimp only
    | intro _)

theorem State.stallFail_keeps {s0 s : State} (c : Nat) (psn : BitVec 32) (f : FaultEntry)  (hK : Keeps s0 s) : Keeps s0 (State.stallFail s c psn f) := by
  unfold State.stallFail
  repeat' (first
    | with_reducible (first | assumption | apply State.stallOff_keeps | apply State.heldTake_keeps | apply State.rmaPnr_keeps | apply State.serveEnd_keeps | apply State.stallDrain_keeps)
    | (simp only [keeps_mk]; with_reducible apply keepsOn_of)
    | split
    | dsimp only
    | intro _)

theorem State.gatedTake_keeps {s0 s : State}   (hK : Keeps s0 s) : Keeps s0 (State.gatedTake s) := by
  unfold State.gatedTake
  repeat' (first
    | with_reducible (first | assumption | apply State.mlrReceive_keeps | refine keeps_foldl (fun _ _ _ => ?_) ?_)
    | (simp only [keeps_mk]; with_reducible apply keepsOn_of)
    | split
    | dsimp only
    | intro _)

theorem State.mlrArrive_keeps {s0 s : State} (typ : Nat) (p : MlrPacket)  (hK : Keeps s0 s) : Keeps s0 (State.mlrArrive s typ p) := by
  unfold State.mlrArrive
  repeat' (first
    | with_reducible (first | assumption | apply State.gatedTake_keeps | apply State.mlrReceive_keeps | apply State.faultsPresent_keeps | apply State.missStart_keeps)
    | dsimp only
    | intro _)

theorem State.waiterFail_keeps {s0 s : State} (st : Status) (u : ReadUse)  (hK : Keeps s0 s) : Keeps s0 (State.waiterFail s st u) := by
  unfold State.waiterFail
  repeat' (first
    | with_reducible (first | assumption | apply State.failOperand_keeps | apply State.fetchFailed_keeps | apply State.serveEnd_keeps)
    | split
    | dsimp only
    | intro _)

theorem State.pageAnswer_keeps {s0 s : State} (r : PageReq) (code : PriCode)  (hK : Keeps s0 s) : Keeps s0 (State.pageAnswer s r code) := by
  unfold State.pageAnswer
  repeat' (first
    | with_reducible (first | assumption | apply State.faultClose_keeps | apply State.atcPut_keeps | apply State.waiterFail_keeps | apply State.err_keeps | apply State.setIntBit_keeps | refine keeps_foldl (fun _ _ _ => ?_) ?_ | refine keeps_foldl_third (fun _ _ _ => ?_) ?_ | refine keeps_foldl_snd (fun _ _ _ => ?_) ?_ | refine keeps_foldl_fst (fun _ _ _ => ?_) ?_)
    | (simp only [keeps_mk]; with_reducible apply keepsOn_of)
    | split
    | dsimp only
    | intro _)

theorem State.serveBytes_keeps {s0 t s : State} {c : Nat} {v : Serve} {e : List Word} {segs : List (Nat × Nat)}   (he : (State.serveBytes s c v e segs) = Fetch.wait t) (hK : Keeps s0 s) : Keeps s0 t := by
  unfold State.serveBytes at he
  try dsimp only at he
  repeat' split at he
  all_goals (first | (injection he with he; subst he) | (injection he; done) | skip)
  all_goals (repeat' (first
    | with_reducible (first | assumption | apply State.serveEnd_keeps | apply State.issueRead_keeps | refine keeps_foldl (fun _ _ _ => ?_) ?_)
    | refine State.issueRead_keeps_of (by with_reducible assumption) ?_
    | split
    | dsimp only
    | intro _))

theorem State.serveStall_keeps {s0 s : State} (c : Nat) (v : Serve) (id : PageId)  (hK : Keeps s0 s) : Keeps s0 (State.serveStall s c v id) := by
  unfold State.serveStall
  repeat' (first
    | with_reducible (first | assumption | apply State.faultMeet_keeps | apply State.serveRefuse_keeps | apply State.serveEnd_keeps | apply State.stallStart_keeps)
    | refine State.faultMeet_keeps_of (by with_reducible assumption) ?_
    | split
    | dsimp only
    | intro _)

theorem State.serveSend_keeps {s0 s : State} (c : Nat) (v : Serve)  (hK : Keeps s0 s) : Keeps s0 (State.serveSend s c v) := by
  unfold State.serveSend
  repeat' (first
    | with_reducible (first | assumption | apply State.serveEnd_keeps | apply State.atsRange_keeps | apply State.serveStall_keeps | apply State.serveRefuse_keeps | apply State.sendNew_keeps | apply State.updServe_keeps | apply State.updConn_keeps | apply State.count1_keeps)
    | refine State.serveBytes_keeps (by with_reducible assumption) ?_
    | refine State.sendNew_keeps_of (by with_reducible assumption) ?_
    | (simp only [keeps_mk]; with_reducible apply keepsOn_of)
    | split
    | dsimp only
    | intro _)

theorem State.writeSend_keeps {s0 s : State} (c : Nat) (w : Work)  (hK : Keeps s0 s) : Keeps s0 (State.writeSend s c w) := by
  unfold State.writeSend
  repeat' (first
    | with_reducible (first | assumption | apply State.sendNew_keeps | apply State.updWork_keeps | apply State.probe_keeps | apply State.ingest_keeps)
    | refine State.fetch_keeps (by with_reducible assumption) ?_
    | refine State.sendNew_keeps_of (by with_reducible assumption) ?_
    | (simp only [keeps_mk]; with_reducible apply keepsOn_of)
    | split
    | dsimp only
    | intro _)

theorem State.reqSent_keeps {s0 s : State} (o : PktOwner) (psn : BitVec 32)  (hK : Keeps s0 s) : Keeps s0 (State.reqSent s o psn) := by
  unfold State.reqSent
  repeat' (first
    | with_reducible (first | assumption | apply State.updWork_keeps | apply State.probe_keeps | apply State.ingest_keeps | apply State.emit_keeps)
    | (simp only [keeps_mk]; with_reducible apply keepsOn_of)
    | split
    | dsimp only
    | intro _)

theorem State.queueSend_keeps {s0 s : State} (c : Nat) (it : TxItem)  (hK : Keeps s0 s) : Keeps s0 (State.queueSend s c it) := by
  unfold State.queueSend
  repeat' (first
    | with_reducible (first | assumption | apply State.updConn_keeps | apply State.connNext_keeps | apply State.connTried_keeps | apply State.sendNew_keeps | apply State.reqSent_keeps)
    | refine State.connNext_keeps_of (by with_reducible assumption) ?_
    | refine State.sendNew_keeps_of (by with_reducible assumption) ?_
    | (simp only [keeps_mk]; with_reducible apply keepsOn_of)
    | split
    | dsimp only
    | intro _)

theorem State.dataSend_keeps {s0 s : State} (c : Nat)  (hK : Keeps s0 s) : Keeps s0 (State.dataSend s c) := by
  unfold State.dataSend
  repeat' (first
    | with_reducible (first | assumption | apply State.connUse_keeps | apply State.resend_keeps | apply State.queueSend_keeps | apply State.writeSend_keeps | apply State.serveSend_keeps)
    | refine State.connUse_keeps_of (by with_reducible assumption) ?_
    | split
    | dsimp only
    | intro _)

theorem State.admitWaiting_keeps {s0 s : State} (l : Nat)  (hK : Keeps s0 s) : Keeps s0 (State.admitWaiting s l) := by
  unfold State.admitWaiting
  repeat' (first
    | with_reducible (first | assumption | apply State.leafPop_keeps | apply State.enqueue_keeps | apply State.injectAt_keeps | apply State.sendAck_keeps | apply State.dataSend_keeps | apply State.spateAgain_keeps)
    | split
    | dsimp only
    | intro _)

theorem State.readAsk_keeps {s0 s : State} (w : Work) (pos : Nat)  (hK : Keeps s0 s) : Keeps s0 (State.readAsk s w pos) := by
  unfold State.readAsk
  repeat' (first
    | with_reducible (first | assumption | apply State.connEnqueue_keeps)
    | dsimp only
    | intro _)

theorem State.restoreAsk_keeps {s0 s : State} (w : Work) (rd : Nat × Nat × Nat) (pos : Nat)  (hK : Keeps s0 s) : Keeps s0 (State.restoreAsk s w rd pos) := by
  unfold State.restoreAsk
  repeat' (first
    | with_reducible (first | assumption | apply State.connEnqueue_keeps)
    | dsimp only
    | intro _)

theorem State.rmaSetPart_keeps {s0 s : State} (p : Nat)  (hK : Keeps s0 s) : Keeps s0 (State.rmaSetPart s p).2 := by
  unfold State.rmaSetPart
  repeat' (first
    | with_reducible (first | assumption | apply State.zero_keeps | apply State.setPart_keeps)
    | (simp only [keeps_mk]; with_reducible apply keepsOn_of)
    | split
    | dsimp only
    | intro _)

theorem State.rmaSetPart_keeps_of {s0 t s : State} {p : Nat}  {y0 : Status} (he : (State.rmaSetPart s p) = (y0, t)) (hK : Keeps s0 s) : Keeps s0 t := by
  have hk := State.rmaSetPart_keeps (s0 := s0) p hK
  rw [he] at hk
  exact hk

theorem State.rmaQuery_keeps {s0 s : State}   (hK : Keeps s0 s) : Keeps s0 (State.rmaQuery s).2 := by
  unfold State.rmaQuery
  repeat' (first
    | with_reducible (first | assumption | apply State.setReg_keeps)
    | split
    | dsimp only
    | intro _)

theorem State.rmaQuery_keeps_of {s0 t s : State}   {y0 : Status} (he : (State.rmaQuery s) = (y0, t)) (hK : Keeps s0 s) : Keeps s0 t := by
  have hk := State.rmaQuery_keeps (s0 := s0) hK
  rw [he] at hk
  exact hk

theorem rmaRun_keeps {s0 s : State} (val : Word)  (hK : Keeps s0 s) : Keeps s0 (rmaRun val s) := by
  unfold rmaRun
  repeat' (first
    | with_reducible (first | assumption | apply State.rmaSetPart_keeps | apply State.rmaQuery_keeps | apply State.cmdEnd_keeps)
    | refine State.rmaSetPart_keeps_of (by with_reducible assumption) ?_
    | refine State.rmaQuery_keeps_of (by with_reducible assumption) ?_
    | split
    | dsimp only
    | intro _)

end Sys2Proof.Machine
end

