-- ==== Sys2Proof/Laws/KeepsRestore.lean ====
section
/-! SUPPORT. What the operations of Machine/Restore.lean leave as it was (Keeps). -/

set_option linter.unusedTactic false
set_option linter.unreachableTactic false
set_option linter.unusedVariables false
set_option linter.unusedSimpArgs false

namespace Sys2Proof.Machine

theorem State.restoreEnd_keeps {s0 s : State} (w : Work) (l : List Source) (r : Option (Nat × List Shard))  (hK : Keeps s0 s) : Keeps s0 (State.restoreEnd s w l r) := by
  unfold State.restoreEnd
  repeat' (first
    | with_reducible (first | assumption | apply State.put_keeps | apply State.setBytes_keeps | apply State.count1_keeps | apply State.count_keeps | apply State.workDone_keeps | refine keeps_foldl (fun _ _ _ => ?_) ?_)
    | split
    | dsimp only
    | intro _)

theorem State.sourceFails_keeps {s0 s : State} (w : Work) (fails : List (Nat × Status)) (i : Nat) (st : Status)  (hK : Keeps s0 s) : Keeps s0 (State.sourceFails s w fails i st) := by
  unfold State.sourceFails
  repeat' (first
    | with_reducible (first | assumption | apply State.errFor_keeps | apply State.updWork_keeps)
    | (simp only [keeps_mk]; with_reducible apply keepsOn_of)
    | split
    | dsimp only
    | intro _)

theorem State.nsFetch_keeps {s0 s : State} (w : Work) (n : Nat) (src : Nat) (base : Nat) (off : Nat) (len : Nat)  (hK : Keeps s0 s) : Keeps s0 (State.nsFetch s w n src base off len) := by
  unfold State.nsFetch
  repeat' (first
    | with_reducible (first | assumption | apply State.driveIo_keeps | apply State.updWork_keeps | refine keeps_foldl (fun _ _ _ => ?_) ?_)
    | refine State.driveIo_keeps_of (by with_reducible assumption) ?_
    | (simp only [keeps_mk]; with_reducible apply keepsOn_of)
    | split
    | dsimp only
    | intro _)

theorem State.restoreNeed_keeps {s0 s : State} (w : Work) (fails : List (Nat × Status)) (rd : Option (Nat × Nat × Nat)) (src : Nat) (off : Nat) (len : Nat)  (hK : Keeps s0 s) : Keeps s0 (State.restoreNeed s w fails rd src off len) := by
  unfold State.restoreNeed
  repeat' (first
    | with_reducible (first | assumption | apply State.sourceFails_keeps | apply State.updWork_keeps | apply State.restoreAsk_keeps | apply State.nsFetch_keeps)
    | (simp only [keeps_mk]; with_reducible apply keepsOn_of)
    | split
    | dsimp only
    | intro _)

theorem State.restoreRun_keeps {s0 s : State} (w : Work) (fails : List (Nat × Status)) (rd : Option (Nat × Nat × Nat))  (hK : Keeps s0 s) : Keeps s0 (State.restoreRun s w fails rd) := by
  unfold State.restoreRun
  repeat' (first
    | with_reducible (first | assumption | apply State.restoreEnd_keeps | apply State.restoreNeed_keeps | apply State.sourceFails_keeps)
    | split
    | dsimp only
    | intro _)

theorem State.restoreTakeUp_keeps {s0 s : State} (w : Work)  (hK : Keeps s0 s) : Keeps s0 (State.restoreTakeUp s w) := by
  unfold State.restoreTakeUp
  repeat' (first
    | with_reducible (first | assumption | apply State.workFail_keeps | apply State.updWork_keeps)
    | (simp only [keeps_mk]; with_reducible apply keepsOn_of)
    | split
    | dsimp only
    | intro _)

end Sys2Proof.Machine
end

