-- ==== Sys2Proof/Laws/KeepsDownstream.lean ====
section
/-! SUPPORT. What the operations of Machine/Downstream.lean leave as it was (Keeps). -/

set_option linter.unusedTactic false
set_option linter.unreachableTactic false
set_option linter.unusedVariables false
set_option linter.unusedSimpArgs false

namespace Sys2Proof.Machine

theorem State.setDperst_keeps {s0 s : State} (n : Nat) (x : Bool)  (hK : Keeps s0 s) : Keeps s0 (State.setDperst s n x) := by
  unfold State.setDperst
  repeat' (first
    | with_reducible (first | assumption)
    | (simp only [keeps_mk]; with_reducible apply keepsOn_of)
    | split
    | dsimp only
    | intro _)

theorem State.drivesRecount_keeps {s0 s : State} (old : Nat)  (hK : Keeps s0 s) : Keeps s0 (State.drivesRecount s old) := by
  unfold State.drivesRecount
  repeat' (first
    | with_reducible (first | assumption)
    | (simp only [keeps_mk]; with_reducible apply keepsOn_of)
    | split
    | dsimp only
    | intro _)

theorem State.setEnabled_keeps {s0 s : State} (n : Nat) (fs : List CfgFunc)  (hK : Keeps s0 s) : Keeps s0 (State.setEnabled s n fs) := by
  unfold State.setEnabled
  repeat' (first
    | with_reducible (first | assumption | apply State.updDport_keeps | apply State.drivesRecount_keeps)
    | (simp only [keeps_mk]; with_reducible apply keepsOn_of)
    | dsimp only
    | intro _)

theorem State.leaveReady_keeps {s0 s : State} (n : Nat)  (hK : Keeps s0 s) : Keeps s0 (State.leaveReady s n) := by
  unfold State.leaveReady
  repeat' (first
    | with_reducible (first | assumption | apply State.drivesLost_keeps | apply State.setEnabled_keeps | apply State.setIntBit_keeps)
    | split
    | dsimp only
    | intro _)

theorem State.portGo_keeps {s0 s : State} (n : Nat) (st : DState)  (hK : Keeps s0 s) : Keeps s0 (State.portGo s n st) := by
  unfold State.portGo
  repeat' (first
    | with_reducible (first | assumption | apply State.leaveReady_keeps | apply State.updDport_keeps | apply State.setDperst_keeps | apply State.setReg_keeps)
    | (simp only [keeps_mk]; with_reducible apply keepsOn_of)
    | split
    | dsimp only
    | intro _)

theorem State.cfgRead_keeps {s0 s : State} (n : Nat)  (hK : Keeps s0 s) : Keeps s0 (State.cfgRead s n) := by
  unfold State.cfgRead
  repeat' (first
    | with_reducible (first | assumption | apply State.count_keeps | apply State.emit_keeps)
    | dsimp only
    | intro _)

theorem State.announce_keeps {s0 s : State} (n : Nat) (slot : Nat) (eps : Nat)  (hK : Keeps s0 s) : Keeps s0 (State.announce s n slot eps) := by
  unfold State.announce
  repeat' (first
    | with_reducible (first | assumption | apply State.setReg_keeps)
    | dsimp only
    | intro _)

theorem State.enumErrs_keeps {s0 s : State} (n : Nat) (result : Nat) (limited : Nat)  (hK : Keeps s0 s) : Keeps s0 (State.enumErrs s n result limited) := by
  unfold State.enumErrs
  repeat' (first
    | with_reducible (first | assumption | apply State.latch_keeps)
    | split
    | dsimp only
    | intro _)

theorem State.enumEnd_keeps {s0 s : State} (n : Nat)  (hK : Keeps s0 s) : Keeps s0 (State.enumEnd s n) := by
  unfold State.enumEnd
  repeat' (first
    | with_reducible (first | assumption | apply State.portGo_keeps | apply State.setEnabled_keeps | apply State.updDport_keeps | apply State.enumErrs_keeps | apply State.setReg_keeps | apply State.announce_keeps | apply State.setIntBit_keeps | apply State.wake_keeps)
    | (simp only [keeps_mk]; with_reducible apply keepsOn_of)
    | dsimp only
    | intro _)

theorem State.slotChange_keeps {s0 s : State} (n : Nat) (bus : Nat) (devs : List CfgFunc)  (hK : Keeps s0 s) : Keeps s0 (State.slotChange s n bus devs) := by
  unfold State.slotChange
  repeat' (first
    | with_reducible (first | assumption | apply State.drivesLost_keeps | apply State.setEnabled_keeps | apply State.updDport_keeps | apply State.enumErrs_keeps | apply State.announce_keeps | apply State.setIntBit_keeps | apply State.wake_keeps)
    | (simp only [keeps_mk]; with_reducible apply keepsOn_of)
    | split
    | dsimp only
    | intro _)

theorem State.portDown_keeps {s0 s : State} (n : Nat) (off : Bool)  (hK : Keeps s0 s) : Keeps s0 (State.portDown s n off) := by
  unfold State.portDown
  repeat' (first
    | with_reducible (first | assumption | apply State.updDport_keeps)
    | (simp only [keeps_mk]; with_reducible apply keepsOn_of)
    | dsimp only
    | intro _)

theorem State.portDownDone_keeps {s0 s : State} (n : Nat)  (hK : Keeps s0 s) : Keeps s0 (State.portDownDone s n) := by
  unfold State.portDownDone
  repeat' (first
    | with_reducible (first | assumption | apply State.leaveReady_keeps | apply State.setIntBit_keeps | apply State.portGo_keeps | apply State.updDport_keeps)
    | (simp only [keeps_mk]; with_reducible apply keepsOn_of)
    | split
    | dsimp only
    | intro _)

theorem State.dlkRun_keeps {s0 s : State} (n : Nat) (val : Word)  (hK : Keeps s0 s) : Keeps s0 (State.dlkRun s n val) := by
  unfold State.dlkRun
  repeat' (first
    | with_reducible (first | assumption | apply State.portGo_keeps | apply State.portDown_keeps | apply State.refuse_keeps)
    | split
    | dsimp only
    | intro _)

theorem State.dlkCmd_keeps {s0 s : State} (n : Nat) (val : Word)  (hK : Keeps s0 s) : Keeps s0 (State.dlkCmd s n val) := by
  unfold State.dlkCmd
  repeat' (first
    | with_reducible (first | assumption | apply State.dlkRun_keeps)
    | (simp only [keeps_mk]; with_reducible apply keepsOn_of)
    | split
    | dsimp only
    | intro _)

theorem State.dportFreeze_keeps {s0 s : State} (n : Nat) (cause : Nat)  (hK : Keeps s0 s) : Keeps s0 (State.dportFreeze s n cause) := by
  unfold State.dportFreeze
  repeat' (first
    | with_reducible (first | assumption | apply State.updDport_keeps | apply State.latch_keeps | apply State.setReg_keeps | apply State.failRead_keeps | apply State.endReads_keeps | apply State.setIntBit_keeps | apply State.portGo_keeps | refine keeps_foldl (fun _ _ _ => ?_) ?_)
    | (simp only [keeps_mk]; with_reducible apply keepsOn_of)
    | split
    | dsimp only
    | intro _)

theorem State.dportRelease_keeps {s0 s : State} (n : Nat) (off : Nat)  (hK : Keeps s0 s) : Keeps s0 (State.dportRelease s n off) := by
  unfold State.dportRelease
  repeat' (first
    | with_reducible (first | assumption | apply State.refuse_keeps | apply State.portGo_keeps | apply State.setIntBit_keeps)
    | split
    | dsimp only
    | intro _)

theorem State.regsToReset_keeps {s0 s : State} (pg : Page) (offs : List Nat)  (hK : Keeps s0 s) : Keeps s0 (State.regsToReset s pg offs) := by
  unfold State.regsToReset
  repeat' (first
    | with_reducible (first | assumption | apply State.setReg_keeps | refine keeps_foldl (fun _ _ _ => ?_) ?_)
    | dsimp only
    | intro _)

theorem State.portScrub_keeps {s0 s : State} (n : Nat)  (hK : Keeps s0 s) : Keeps s0 (State.portScrub s n) := by
  unfold State.portScrub
  repeat' (first
    | with_reducible (first | assumption | apply State.portDown_keeps)
    | split
    | dsimp only
    | intro _)

theorem State.portScrubbed_keeps {s0 s : State} (n : Nat)  (hK : Keeps s0 s) : Keeps s0 (State.portScrubbed s n) := by
  unfold State.portScrubbed
  repeat' (first
    | with_reducible (first | assumption | apply State.regsToReset_keeps | apply State.portGo_keeps)
    | split
    | dsimp only
    | intro _)

theorem State.refuseRead_keeps {s0 s : State} (n : Nat) (write : Bool) (addr : Nat) (len : Nat)  (hK : Keeps s0 s) : Keeps s0 (State.refuseRead s n write addr len) := by
  unfold State.refuseRead
  repeat' (first
    | with_reducible (first | assumption | apply State.emit_keeps)
    | split
    | dsimp only
    | intro _)

theorem State.inboundHbm_keeps {s0 s : State} (n : Nat) (p : Nat) (write : Bool) (addr : Nat) (len : Nat) (t : Nat) (data : List Byte)  (hK : Keeps s0 s) : Keeps s0 (State.inboundHbm s n p write addr len t data) := by
  unfold State.inboundHbm
  repeat' (first
    | with_reducible (first | assumption | apply State.count_keeps | apply State.setBytes_keeps | apply State.emit_keeps | apply State.inboundFailed_keeps | apply State.refuseRead_keeps)
    | split
    | dsimp only
    | intro _)

theorem State.inboundSync_keeps {s0 s : State} (n : Nat) (p : Nat) (write : Bool) (addr : Nat) (len : Nat) (t : Nat) (data : List Byte)  (hK : Keeps s0 s) : Keeps s0 (State.inboundSync s n p write addr len t data) := by
  unfold State.inboundSync
  repeat' (first
    | with_reducible (first | assumption | apply State.count1_keeps | apply State.inboundFailed_keeps | apply State.refuseRead_keeps | apply State.syncAct_keeps | apply State.drop_keeps | apply State.count_keeps | apply State.syncBad_keeps | refine keeps_foldl (fun _ _ _ => ?_) ?_)
    | split
    | dsimp only
    | intro _)

theorem State.inboundPeer_keeps {s0 s : State} (n : Nat) (p : Nat) (q : Nat) (write : Bool) (addr : Nat) (len : Nat) (t : Nat) (data : List Byte)  (hK : Keeps s0 s) : Keeps s0 (State.inboundPeer s n p q write addr len t data) := by
  unfold State.inboundPeer
  repeat' (first
    | with_reducible (first | assumption | apply State.inboundFailed_keeps | apply State.refuseRead_keeps | apply State.count_keeps | apply State.emit_keeps | apply State.latch_keeps)
    | split
    | dsimp only
    | intro _)

theorem State.inboundRun_keeps {s0 s : State} (n : Nat) (write : Bool) (addr : Nat) (len : Nat) (data : List Byte)  (hK : Keeps s0 s) : Keeps s0 (State.inboundRun s n write addr len data) := by
  unfold State.inboundRun
  repeat' (first
    | with_reducible (first | assumption | apply State.inboundHbm_keeps | apply State.inboundSync_keeps | apply State.inboundPeer_keeps | apply State.inboundUnmatched_keeps | apply State.refuseRead_keeps)
    | split
    | dsimp only
    | intro _)

theorem State.inbound_keeps {s0 s : State} (n : Nat) (write : Bool) (addr : Nat) (len : Nat) (data : List Byte)  (hK : Keeps s0 s) : Keeps s0 (State.inbound s n write addr len data) := by
  unfold State.inbound
  repeat' (first
    | with_reducible (first | assumption | apply State.count_keeps | apply State.updDport_keeps | apply State.inboundRun_keeps)
    | (simp only [keeps_mk]; with_reducible apply keepsOn_of)
    | split
    | dsimp only
    | intro _)

theorem State.inboundTake_keeps {s0 s : State} (n : Nat)  (hK : Keeps s0 s) : Keeps s0 (State.inboundTake s n) := by
  unfold State.inboundTake
  repeat' (first
    | with_reducible (first | assumption | apply State.inboundRun_keeps | apply State.updDport_keeps | refine keeps_foldl (fun _ _ _ => ?_) ?_)
    | (simp only [keeps_mk]; with_reducible apply keepsOn_of)
    | dsimp only
    | intro _)

theorem State.aperturePort_keeps {s0 s : State} (n : Nat) (write : Bool) (off : Nat) (len : Nat) (data : List Byte)  (hK : Keeps s0 s) : Keeps s0 (State.aperturePort s n write off len data) := by
  unfold State.aperturePort
  repeat' (first
    | with_reducible (first | assumption | apply State.inbound_keeps | apply State.inboundUnmatched_keeps | apply State.refuseRead_keeps | apply State.count_keeps)
    | split
    | dsimp only
    | intro _)

end Sys2Proof.Machine
end

