-- ==== Sys2Proof/Laws/KeepsPacket.lean ====
section
/-! SUPPORT. What the operations of Machine/Packet.lean leave as it was (Keeps). -/

set_option linter.unusedTactic false
set_option linter.unreachableTactic false
set_option linter.unusedVariables false
set_option linter.unusedSimpArgs false

namespace Sys2Proof.Machine

theorem State.pfcReceive_keeps {s0 s : State} (n : Nat) (cls : Nat) (quanta : Nat)  (hK : Keeps s0 s) : Keeps s0 (State.pfcReceive s n cls quanta) := by
  unfold State.pfcReceive
  repeat' (first
    | with_reducible (first | assumption | apply State.updEpt_keeps | apply State.refreshPort_keeps)
    | (simp only [keeps_mk]; with_reducible apply keepsOn_of)
    | split
    | dsimp only
    | intro _)

theorem State.ingressSet_keeps {s0 s : State} (n : Nat) (cls : Nat) (v : Nat)  (hK : Keeps s0 s) : Keeps s0 (State.ingressSet s n cls v) := by
  unfold State.ingressSet
  repeat' (first
    | with_reducible (first | assumption | apply State.updEpt_keeps | apply State.pfcClass_keeps)
    | (simp only [keeps_mk]; with_reducible apply keepsOn_of)
    | dsimp only
    | intro _)

theorem State.macControl_keeps {s0 s : State} (n : Nat) (d : List Byte)  (hK : Keeps s0 s) : Keeps s0 (State.macControl s n d) := by
  unfold State.macControl
  repeat' (first
    | with_reducible (first | assumption | apply State.pfcReceive_keeps | apply State.count_keeps | refine keeps_foldl (fun _ _ _ => ?_) ?_)
    | split
    | dsimp only
    | intro _)

theorem State.frameAccept_keeps {s0 s : State} (n : Nat) (d : List Byte)  (hK : Keeps s0 s) : Keeps s0 (State.frameAccept s n d) := by
  unfold State.frameAccept
  repeat' (first
    | with_reducible (first | assumption | apply State.count_keeps | apply State.ingressSet_keeps)
    | (simp only [keeps_mk]; with_reducible apply keepsOn_of)
    | split
    | dsimp only
    | intro _)

theorem State.frameAtMac_keeps {s0 s : State} (n : Nat) (d : List Byte) (fcsOk : Bool)  (hK : Keeps s0 s) : Keeps s0 (State.frameAtMac s n d fcsOk) := by
  unfold State.frameAtMac
  repeat' (first
    | with_reducible (first | assumption | apply State.count_keeps | apply State.macControl_keeps | apply State.frameAccept_keeps)
    | split
    | dsimp only
    | intro _)

theorem State.frameReceive_keeps {s0 s : State} (n : Nat) (d : List Byte) (fcsOk : Bool)  (hK : Keeps s0 s) : Keeps s0 (State.frameReceive s n d fcsOk) := by
  unfold State.frameReceive
  repeat' (first
    | with_reducible (first | assumption | apply State.eptTake_keeps | apply State.frameAtMac_keeps)
    | split
    | dsimp only
    | intro _)

theorem State.toMillrace_keeps {s0 s : State} (d : List Byte) (ip : Nat) (at_ : Nat)  (hK : Keeps s0 s) : Keeps s0 (State.toMillrace s d ip at_) := by
  unfold State.toMillrace
  repeat' (first
    | with_reducible (first | assumption | apply State.count1_keeps | apply State.mlrArrive_keeps)
    | split
    | dsimp only
    | intro _)

theorem State.toStorage_keeps {s0 s : State} (d : List Byte) (ip : Nat) (at_ : Nat)  (hK : Keeps s0 s) : Keeps s0 (State.toStorage s d ip at_) := by
  unfold State.toStorage
  repeat' (first
    | with_reducible (first | assumption | apply State.tcpSegment_keeps | apply State.updTcp_keeps)
    | (simp only [keeps_mk]; with_reducible apply keepsOn_of)
    | split
    | dsimp only
    | intro _)

theorem State.setSlot_keeps {s0 s : State} (n : Nat) (x : RuleSlot)  (hK : Keeps s0 s) : Keeps s0 (State.setSlot s n x) := by
  unfold State.setSlot
  repeat' (first
    | with_reducible (first | assumption)
    | (simp only [keeps_mk]; with_reducible apply keepsOn_of)
    | dsimp only
    | intro _)

theorem State.refDrop_keeps {s0 s : State} (v : Option Nat)  (hK : Keeps s0 s) : Keeps s0 (State.refDrop s v) := by
  unfold State.refDrop
  repeat' (first
    | with_reducible (first | assumption | apply State.setSlot_keeps)
    | (simp only [keeps_mk]; with_reducible apply keepsOn_of)
    | split
    | dsimp only
    | intro _)

theorem State.pktLookup_keeps {s0 s : State} (g : Graph) (profile : Nat) (ept : Nat) (v : Nat) (fv : List Byte)  (hK : Keeps s0 s) : Keeps s0 (State.pktLookup s g profile ept v fv).2 := by
  unfold State.pktLookup
  repeat' (first
    | with_reducible (first | assumption | apply State.count1_keeps | apply State.err_keeps)
    | split
    | dsimp only
    | intro _)

theorem State.pktLookup_keeps_of {s0 t s : State} {g : Graph} {profile : Nat} {ept : Nat} {v : Nat} {fv : List Byte}  {y0 : Option (Word × Word)} (he : (State.pktLookup s g profile ept v fv) = (y0, t)) (hK : Keeps s0 s) : Keeps s0 t := by
  have hk := State.pktLookup_keeps (s0 := s0) g profile ept v fv hK
  rw [he] at hk
  exact hk

theorem State.meterApply_keeps {s0 s : State} (a : Word) (e : Edit)  (hK : Keeps s0 s) : Keeps s0 (State.meterApply s a e).2 := by
  unfold State.meterApply
  repeat' (first
    | with_reducible (first | assumption | apply State.setMeter_keeps | apply State.count1_keeps)
    | split
    | dsimp only
    | intro _)

theorem State.meterApply_keeps_of {s0 t s : State} {a : Word} {e : Edit}  {y0 : Option Edit} (he : (State.meterApply s a e) = (y0, t)) (hK : Keeps s0 s) : Keeps s0 t := by
  have hk := State.meterApply_keeps (s0 := s0) a e hK
  rw [he] at hk
  exact hk

theorem State.pktDeliver_keeps {s0 s : State} (t : Nat) (f : Frame) (d : List Byte) (odd : Nat) (cookie : Nat)  (hK : Keeps s0 s) : Keeps s0 (State.pktDeliver s t f d odd cookie) := by
  unfold State.pktDeliver
  repeat' (first
    | with_reducible (first | assumption | apply State.count1_keeps | apply State.overflow_keeps | apply State.store_keeps | apply State.eventRing_keeps)
    | split
    | dsimp only
    | intro _)

theorem State.applyAction_keeps {s0 s : State} (f : Frame) (w : Walk) (odd : Nat) (a : Word) (b : Word) (pipe : Nat)  (hK : Keeps s0 s) : Keeps s0 (State.applyAction s f w odd a b pipe) := by
  unfold State.applyAction
  repeat' (first
    | with_reducible (first | assumption | apply State.refDrop_keeps | apply State.count1_keeps | apply State.pktDeliver_keeps | apply State.meterApply_keeps | apply State.offer_keeps | apply State.drop_keeps)
    | refine State.meterApply_keeps_of (by with_reducible assumption) ?_
    | (simp only [keeps_mk]; with_reducible apply keepsOn_of)
    | split
    | dsimp only
    | intro _)

theorem State.classify_keeps {s0 s : State} (g : Graph) (profile : Nat) (f : Frame) (w : Walk) (fv : List Byte) (odd : Nat) (pipe : Nat)  (hK : Keeps s0 s) : Keeps s0 (State.classify s g profile f w fv odd pipe) := by
  unfold State.classify
  repeat' (first
    | with_reducible (first | assumption | apply State.pktLookup_keeps | apply State.applyAction_keeps | apply State.refDrop_keeps)
    | refine State.pktLookup_keeps_of (by with_reducible assumption) ?_
    | split
    | dsimp only
    | intro _)

theorem State.runPass_keeps {s0 s : State} (f : Frame) (pipe : Nat)  (hK : Keeps s0 s) : Keeps s0 (State.runPass s f pipe) := by
  unfold State.runPass
  repeat' (first
    | with_reducible (first | assumption | apply State.count1_keeps | apply State.toMillrace_keeps | apply State.refDrop_keeps | apply State.toStorage_keeps | apply State.classify_keeps)
    | (simp only [keeps_mk]; with_reducible apply keepsOn_of)
    | split
    | dsimp only
    | intro _)

theorem State.recircPass_keeps {s0 s : State} (pipe : Nat)  (hK : Keeps s0 s) : Keeps s0 (State.recircPass s pipe) := by
  unfold State.recircPass
  repeat' (first
    | with_reducible (first | assumption | apply State.count1_keeps | apply State.runPass_keeps)
    | (simp only [keeps_mk]; with_reducible apply keepsOn_of)
    | split
    | dsimp only
    | intro _)

theorem State.passStart_keeps {s0 s : State} (pipe : Nat)  (hK : Keeps s0 s) : Keeps s0 (State.passStart s pipe) := by
  unfold State.passStart
  repeat' (first
    | with_reducible (first | assumption | apply State.recircPass_keeps | apply State.ingressSet_keeps | apply State.setSlot_keeps | apply State.runPass_keeps)
    | (simp only [keeps_mk]; with_reducible apply keepsOn_of)
    | split
    | dsimp only
    | intro _)

theorem State.slotFree_keeps {s0 s : State} (n : Nat)  (hK : Keeps s0 s) : Keeps s0 (State.slotFree s n) := by
  unfold State.slotFree
  repeat' (first
    | with_reducible (first | assumption | apply State.setSlot_keeps | apply State.setIntBit_keeps)
    | (simp only [keeps_mk]; with_reducible apply keepsOn_of)
    | dsimp only
    | intro _)

theorem State.mapControls_keeps {s0 s : State} (f : Word → Word)  (hK : Keeps s0 s) : Keeps s0 (State.mapControls s f) := by
  unfold State.mapControls
  repeat' (first
    | with_reducible (first | assumption | apply State.setWord_keeps | refine keeps_foldl (fun _ _ _ => ?_) ?_)
    | (simp only [keeps_mk]; with_reducible apply keepsOn_of)
    | dsimp only
    | intro _)

theorem State.pktOpen_keeps {s0 s : State}   (hK : Keeps s0 s) : Keeps s0 (State.pktOpen s).2 := by
  unfold State.pktOpen
  repeat' (first
    | with_reducible (first | assumption | apply State.setSlot_keeps)
    | (simp only [keeps_mk]; with_reducible apply keepsOn_of)
    | split
    | dsimp only
    | intro _)

theorem State.pktOpen_keeps_of {s0 t s : State}   {y0 : Status} (he : (State.pktOpen s) = (y0, t)) (hK : Keeps s0 s) : Keeps s0 t := by
  have hk := State.pktOpen_keeps (s0 := s0) hK
  rw [he] at hk
  exact hk

theorem State.graphLoad_keeps {s0 s : State}   (hK : Keeps s0 s) : Keeps s0 (State.graphLoad s).2 := by
  unfold State.graphLoad
  repeat' (first
    | with_reducible (first | assumption | apply State.setSlot_keeps)
    | (simp only [keeps_mk]; with_reducible apply keepsOn_of)
    | split
    | dsimp only
    | intro _)

theorem State.graphLoad_keeps_of {s0 t s : State}   {y0 : Status} (he : (State.graphLoad s) = (y0, t)) (hK : Keeps s0 s) : Keeps s0 t := by
  have hk := State.graphLoad_keeps (s0 := s0) hK
  rw [he] at hk
  exact hk

theorem State.setExact_keeps {s0 s : State}   (hK : Keeps s0 s) : Keeps s0 (State.setExact s).2 := by
  unfold State.setExact
  repeat' (first
    | with_reducible (first | assumption | apply State.zero_keeps)
    | (simp only [keeps_mk]; with_reducible apply keepsOn_of)
    | split
    | dsimp only
    | intro _)

theorem State.setExact_keeps_of {s0 t s : State}   {y0 : Status} (he : (State.setExact s) = (y0, t)) (hK : Keeps s0 s) : Keeps s0 t := by
  have hk := State.setExact_keeps (s0 := s0) hK
  rw [he] at hk
  exact hk

theorem State.exInsert_keeps {s0 s : State}   (hK : Keeps s0 s) : Keeps s0 (State.exInsert s).2 := by
  unfold State.exInsert
  repeat' (first
    | with_reducible (first | assumption | apply State.setBytes_keeps | apply State.setWord_keeps)
    | split
    | dsimp only
    | intro _)

theorem State.exInsert_keeps_of {s0 t s : State}   {y0 : Status} (he : (State.exInsert s) = (y0, t)) (hK : Keeps s0 s) : Keeps s0 t := by
  have hk := State.exInsert_keeps (s0 := s0) hK
  rw [he] at hk
  exact hk

theorem State.exDelete_keeps {s0 s : State}   (hK : Keeps s0 s) : Keeps s0 (State.exDelete s).2 := by
  unfold State.exDelete
  repeat' (first
    | with_reducible (first | assumption | apply State.setWord_keeps)
    | split
    | dsimp only
    | intro _)

theorem State.exDelete_keeps_of {s0 t s : State}   {y0 : Status} (he : (State.exDelete s) = (y0, t)) (hK : Keeps s0 s) : Keeps s0 t := by
  have hk := State.exDelete_keeps (s0 := s0) hK
  rw [he] at hk
  exact hk

theorem State.wcWrite_keeps {s0 s : State}   (hK : Keeps s0 s) : Keeps s0 (State.wcWrite s).2 := by
  unfold State.wcWrite
  repeat' (first
    | with_reducible (first | assumption)
    | (simp only [keeps_mk]; with_reducible apply keepsOn_of)
    | split
    | dsimp only
    | intro _)

theorem State.wcWrite_keeps_of {s0 t s : State}   {y0 : Status} (he : (State.wcWrite s) = (y0, t)) (hK : Keeps s0 s) : Keeps s0 t := by
  have hk := State.wcWrite_keeps (s0 := s0) hK
  rw [he] at hk
  exact hk

theorem State.wcDelete_keeps {s0 s : State}   (hK : Keeps s0 s) : Keeps s0 (State.wcDelete s).2 := by
  unfold State.wcDelete
  repeat' (first
    | with_reducible (first | assumption)
    | (simp only [keeps_mk]; with_reducible apply keepsOn_of)
    | split
    | dsimp only
    | intro _)

theorem State.wcDelete_keeps_of {s0 t s : State}   {y0 : Status} (he : (State.wcDelete s) = (y0, t)) (hK : Keeps s0 s) : Keeps s0 t := by
  have hk := State.wcDelete_keeps (s0 := s0) hK
  rw [he] at hk
  exact hk

theorem State.pktCommit_keeps {s0 s : State}   (hK : Keeps s0 s) : Keeps s0 (State.pktCommit s).2 := by
  unfold State.pktCommit
  repeat' (first
    | with_reducible (first | assumption | apply State.setSlot_keeps)
    | (simp only [keeps_mk]; with_reducible apply keepsOn_of)
    | split
    | dsimp only
    | intro _)

theorem State.pktCommit_keeps_of {s0 t s : State}   {y0 : Status} (he : (State.pktCommit s) = (y0, t)) (hK : Keeps s0 s) : Keeps s0 t := by
  have hk := State.pktCommit_keeps (s0 := s0) hK
  rw [he] at hk
  exact hk

theorem State.pktAbandon_keeps {s0 s : State}   (hK : Keeps s0 s) : Keeps s0 (State.pktAbandon s).2 := by
  unfold State.pktAbandon
  repeat' (first
    | with_reducible (first | assumption | apply State.mapControls_keeps | apply State.slotFree_keeps)
    | split
    | dsimp only
    | intro _)

theorem State.pktAbandon_keeps_of {s0 t s : State}   {y0 : Status} (he : (State.pktAbandon s) = (y0, t)) (hK : Keeps s0 s) : Keeps s0 t := by
  have hk := State.pktAbandon_keeps (s0 := s0) hK
  rw [he] at hk
  exact hk

theorem State.rxtSetup_keeps {s0 s : State}   (hK : Keeps s0 s) : Keeps s0 (State.rxtSetup s).2 := by
  unfold State.rxtSetup
  repeat' (first
    | with_reducible (first | assumption)
    | (simp only [keeps_mk]; with_reducible apply keepsOn_of)
    | split
    | dsimp only
    | intro _)

theorem State.rxtSetup_keeps_of {s0 t s : State}   {y0 : Status} (he : (State.rxtSetup s) = (y0, t)) (hK : Keeps s0 s) : Keeps s0 t := by
  have hk := State.rxtSetup_keeps (s0 := s0) hK
  rw [he] at hk
  exact hk

theorem State.pktInject_keeps {s0 s : State}   (hK : Keeps s0 s) : Keeps s0 (State.pktInject s).2 := by
  unfold State.pktInject
  repeat' (first
    | with_reducible (first | assumption | apply State.count1_keeps | apply State.injectAt_keeps)
    | split
    | dsimp only
    | intro _)

theorem State.pktInject_keeps_of {s0 t s : State}   {y0 : Status} (he : (State.pktInject s) = (y0, t)) (hK : Keeps s0 s) : Keeps s0 t := by
  have hk := State.pktInject_keeps (s0 := s0) hK
  rw [he] at hk
  exact hk

theorem pktRun_keeps {s0 s : State} (val : Word)  (hK : Keeps s0 s) : Keeps s0 (pktRun val s) := by
  unfold pktRun
  repeat' (first
    | with_reducible (first | assumption | apply State.cmdEnd_keeps | apply State.pktOpen_keeps | apply State.graphLoad_keeps | apply State.setExact_keeps | apply State.exInsert_keeps | apply State.exDelete_keeps | apply State.wcWrite_keeps | apply State.wcDelete_keeps | apply State.pktCommit_keeps | apply State.pktAbandon_keeps | apply State.rxtSetup_keeps | apply State.pktInject_keeps)
    | refine State.pktOpen_keeps_of (by with_reducible assumption) ?_
    | refine State.graphLoad_keeps_of (by with_reducible assumption) ?_
    | refine State.setExact_keeps_of (by with_reducible assumption) ?_
    | refine State.exInsert_keeps_of (by with_reducible assumption) ?_
    | refine State.exDelete_keeps_of (by with_reducible assumption) ?_
    | refine State.wcWrite_keeps_of (by with_reducible assumption) ?_
    | refine State.wcDelete_keeps_of (by with_reducible assumption) ?_
    | refine State.pktCommit_keeps_of (by with_reducible assumption) ?_
    | refine State.pktAbandon_keeps_of (by with_reducible assumption) ?_
    | refine State.rxtSetup_keeps_of (by with_reducible assumption) ?_
    | refine State.pktInject_keeps_of (by with_reducible assumption) ?_
    | split
    | dsimp only
    | intro _)

end Sys2Proof.Machine
end

