-- ==== Sys2Proof/Laws/KeepsBarrier.lean ====
section
/-! SUPPORT. What the operations of Machine/Barrier.lean leave as it was (Keeps). -/

set_option linter.unusedTactic false
set_option linter.unreachableTactic false
set_option linter.unusedVariables false
set_option linter.unusedSimpArgs false

namespace Sys2Proof.Machine

theorem State.ackOut_keeps {s0 s : State} (side : Side) (typ : Nat) (cls : MsgClass) (seq : Nat)  (hK : Keeps s0 s) : Keeps s0 (State.ackOut s side typ cls seq) := by
  unfold State.ackOut
  repeat' (first
    | with_reducible (first | assumption | apply State.emit_keeps | apply State.count1_keeps)
    | dsimp only
    | intro _)

theorem State.barrierAccept_keeps {s0 s : State} (rcv : Side) (cls : MsgClass)  (hK : Keeps s0 s) : Keeps s0 (State.barrierAccept s rcv cls) := by
  unfold State.barrierAccept
  repeat' (first
    | with_reducible (first | assumption | apply State.setChan_keeps | apply State.ackOut_keeps)
    | (simp only [keeps_mk]; with_reducible apply keepsOn_of)
    | dsimp only
    | intro _)

theorem State.waitingOut_keeps {s0 s : State} (side : Side) (cls : MsgClass) (n : Nat)  (hK : Keeps s0 s) : Keeps s0 (State.waitingOut s side cls n) := by
  induction n generalizing s side cls with
  | zero =>
    unfold State.waitingOut
    try dsimp only
    repeat' (first
      | with_reducible (first | assumption | apply State.setChan_keeps | apply State.frameOut_keeps)
      | (simp only [keeps_mk]; with_reducible apply keepsOn_of)
      | split
      | dsimp only
      | intro _)
  | succ k ih =>
    unfold State.waitingOut
    try dsimp only
    repeat' (first
      | with_reducible (first | assumption | apply ih | apply State.setChan_keeps | apply State.frameOut_keeps)
      | (simp only [keeps_mk]; with_reducible apply keepsOn_of)
      | split
      | dsimp only
      | intro _)

theorem State.linkFault_keeps {s0 s : State}   (hK : Keeps s0 s) : Keeps s0 (State.linkFault s) := by
  unfold State.linkFault
  repeat' (first
    | with_reducible (first | assumption | apply State.latch_keeps)
    | dsimp only
    | intro _)

theorem State.resendFrom_keeps {s0 s : State} (side : Side) (cls : MsgClass) (n : Nat)  (hK : Keeps s0 s) : Keeps s0 (State.resendFrom s side cls n) := by
  unfold State.resendFrom
  repeat' (first
    | with_reducible (first | assumption | apply State.drop_keeps | apply State.setChan_keeps | apply State.emit_keeps | apply State.count1_keeps | apply State.linkFault_keeps | refine keeps_foldl (fun _ _ _ => ?_) ?_)
    | (simp only [keeps_mk]; with_reducible apply keepsOn_of)
    | split
    | dsimp only
    | intro _)

theorem State.windowFreed_keeps {s0 s : State} (side : Side) (cls : MsgClass)  (hK : Keeps s0 s) : Keeps s0 (State.windowFreed s side cls) := by
  unfold State.windowFreed
  repeat' (first
    | with_reducible (first | assumption | apply State.waitingOut_keeps | apply State.sendRaises_keeps)
    | split
    | dsimp only
    | intro _)

end Sys2Proof.Machine
end

