-- ==== Sys2Proof/Laws/KeepsClocks.lean ====
section
/-! SUPPORT. What the operations of Machine/Clocks.lean leave as it was (Keeps). -/

set_option linter.unusedTactic false
set_option linter.unreachableTactic false
set_option linter.unusedVariables false
set_option linter.unusedSimpArgs false

namespace Sys2Proof.Machine

theorem State.hostLost_keeps {s0 s : State} (hK : Keeps s0 s) : Keeps s0 (State.hostLost s) :=
  keeps_cleared (s := s) rfl rfl rfl rfl rfl rfl rfl rfl hK

theorem State.hostDown_keeps {s0 s : State}   (hK : Keeps s0 s) : Keeps s0 (State.hostDown s) := by
  unfold State.hostDown
  repeat' (first
    | with_reducible (first | assumption | apply State.hostLost_keeps | apply State.cmdEnd_keeps)
    | split
    | dsimp only
    | intro _)

theorem State.pllFail_keeps {s0 s : State} (n : Nat)  (hK : Keeps s0 s) : Keeps s0 (State.pllFail s n) := by
  unfold State.pllFail
  repeat' (first
    | with_reducible (first | assumption | apply State.setPll_keeps | apply State.err_keeps | apply State.setIntBit_keeps)
    | (simp only [keeps_mk]; with_reducible apply keepsOn_of)
    | dsimp only
    | intro _)

theorem State.pllOffStop_keeps {s0 s : State} (n : Nat)  (hK : Keeps s0 s) : Keeps s0 (State.pllOffStop s n) := by
  unfold State.pllOffStop
  repeat' (first
    | with_reducible (first | assumption | apply State.pllStop_keeps)
    | split
    | dsimp only
    | intro _)

theorem State.muxStart_keeps {s0 s : State} (d : Nat)  (hK : Keeps s0 s) : Keeps s0 (State.muxStart s d) := by
  unfold State.muxStart
  repeat' (first
    | with_reducible (first | assumption | apply State.pllStart_keeps)
    | split
    | dsimp only
    | intro _)

theorem State.muxSwitch_keeps {s0 s : State} (d : Nat)  (hK : Keeps s0 s) : Keeps s0 (State.muxSwitch s d) := by
  unfold State.muxSwitch
  repeat' (first
    | with_reducible (first | assumption | apply State.setMux_keeps | apply State.count1_keeps | apply State.pllOffStop_keeps | apply State.muxStart_keeps)
    | (simp only [keeps_mk]; with_reducible apply keepsOn_of)
    | dsimp only
    | intro _)

theorem State.passes_keeps {s0 s : State}   (hK : Keeps s0 s) : Keeps s0 (State.passes s) := by
  unfold State.passes
  repeat' (first
    | with_reducible (first | assumption | apply State.tick_keeps | apply State.faultsPresent_keeps | apply State.missStart_keeps)
    | split
    | dsimp only
    | intro _)

theorem State.clockMsg_keeps {s0 s : State} (payload : List Nat)  (hK : Keeps s0 s) : Keeps s0 (State.clockMsg s payload) := by
  unfold State.clockMsg
  repeat' (first
    | with_reducible (first | assumption | apply State.barrierSend_keeps)
    | dsimp only
    | intro _)

end Sys2Proof.Machine
end

