-- ==== Sys2Proof/Laws/KeepsPower.lean ====
section
/-! SUPPORT. What the operations of Machine/Power.lean leave as it was (Keeps). -/

set_option linter.unusedTactic false
set_option linter.unreachableTactic false
set_option linter.unusedVariables false
set_option linter.unusedSimpArgs false

namespace Sys2Proof.Machine

theorem flashPut_wf (t : Tab Byte) (a : Nat) (bs : List Byte) (h : Tab.wf flashFill t = true) :
    Tab.wf flashFill (flashPut t a bs) = true := by
  induction bs generalizing t a with
  | nil => exact h
  | cons b r ih => exact ih _ _ (Tab.wf_set a b h)

theorem State.flashWrite_keeps {s0 s : State} (a : Nat) (bs : List Byte) (hK : Keeps s0 s) :
    Keeps s0 (State.flashWrite s a bs) := by
  unfold State.flashWrite
  split
  · refine keeps_trans hK ⟨rfl, List.prefix_rfl, ?_, rfl, rfl, rfl, fun _ _ => Nat.le_refl _⟩
    intro hw
    simp only [State.memWf, Bool.and_eq_true] at hw ⊢
    exact ⟨hw.1, flashPut_wf _ _ _ hw.2⟩
  · exact hK

theorem State.ctrlStat_keeps {s0 s : State}   (hK : Keeps s0 s) : Keeps s0 (State.ctrlStat s) := by
  unfold State.ctrlStat
  repeat' (first
    | with_reducible (first | assumption | apply State.setReg_keeps | apply State.clockMsg_keeps | apply State.setIntBit_keeps)
    | split
    | dsimp only
    | intro _)

theorem State.putTemps_keeps {s0 s : State} (i : Nat) (temps : List Int)  (hK : Keeps s0 s) : Keeps s0 (State.putTemps s i temps) := by
  induction temps generalizing s i with
  | nil =>
    unfold State.putTemps
    try dsimp only
    repeat' (first
      | with_reducible (first | assumption | apply State.temps_keeps)
      | (simp only [keeps_mk]; with_reducible apply keepsOn_of)
      | split
      | dsimp only
      | intro _)
  | cons x r ih =>
    unfold State.putTemps
    try dsimp only
    repeat' (first
      | with_reducible (first | assumption | apply ih | apply State.temps_keeps)
      | (simp only [keeps_mk]; with_reducible apply keepsOn_of)
      | split
      | dsimp only
      | intro _)

theorem State.stepState_keeps {s0 s : State} (p : Nat) (avg : Nat)  (hK : Keeps s0 s) : Keeps s0 (State.stepState s p avg) := by
  unfold State.stepState
  repeat' (first
    | with_reducible (first | assumption | apply State.setReg_keeps | apply State.setIntBit_keeps)
    | (simp only [keeps_mk]; with_reducible apply keepsOn_of)
    | split
    | dsimp only
    | intro _)

theorem State.powerStep_keeps {s0 s : State} (p : Nat) (cap : Nat)  (hK : Keeps s0 s) : Keeps s0 (State.powerStep s p cap) := by
  unfold State.powerStep
  repeat' (first
    | with_reducible (first | assumption | apply State.raise_keeps | apply State.err_keeps)
    | (simp only [keeps_mk]; with_reducible apply keepsOn_of)
    | split
    | dsimp only
    | intro _)

theorem State.controlPeriod_keeps {s0 p : State} (power : Nat) (vin : Nat) (iin : Nat) (temps : List Int)  (hKp : Keeps s0 p) : Keeps s0 (State.controlPeriod p power vin iin temps) := by
  unfold State.controlPeriod
  repeat' (first
    | with_reducible (first | assumption | apply State.swapFirst_keeps | apply State.temps_keeps | apply State.putTemps_keeps | apply State.stepState_keeps | apply State.powerStep_keeps | apply State.setReg_keeps | apply State.ctrlStat_keeps | apply State.setIntBit_keeps | apply State.count1_keeps | refine keeps_foldl (fun _ _ _ => ?_) ?_)
    | (simp only [keeps_mk]; with_reducible apply keepsOn_of)
    | split
    | dsimp only
    | intro _)

theorem State.slewOne_keeps {s0 s : State} (d : Nat) (n : Nat)  (hK : Keeps s0 s) : Keeps s0 (State.slewOne s d n) := by
  unfold State.slewOne
  repeat' (first
    | with_reducible (first | assumption | apply State.setPll_keeps)
    | (simp only [keeps_mk]; with_reducible apply keepsOn_of)
    | split
    | dsimp only
    | intro _)

theorem State.railFollow_keeps {s0 s : State} (d : Nat)  (hK : Keeps s0 s) : Keeps s0 (State.railFollow s d) := by
  unfold State.railFollow
  repeat' (first
    | with_reducible (first | assumption | apply State.railRaise_keeps | refine keeps_foldl (fun _ _ _ => ?_) ?_)
    | (simp only [keeps_mk]; with_reducible apply keepsOn_of)
    | split
    | dsimp only
    | intro _)

theorem State.wearStat_keeps {s0 s : State}   (hK : Keeps s0 s) : Keeps s0 (State.wearStat s) := by
  unfold State.wearStat
  repeat' (first
    | with_reducible (first | assumption | apply State.setReg_keeps)
    | dsimp only
    | intro _)

theorem State.setBucket_keeps {s0 s : State} (i : Nat) (n : Nat)  (hK : Keeps s0 s) : Keeps s0 (State.setBucket s i n) := by
  unfold State.setBucket
  repeat' (first
    | with_reducible (first | assumption)
    | (simp only [keeps_mk]; with_reducible apply keepsOn_of)
    | split
    | dsimp only
    | intro _)

theorem State.withdraw_keeps {s0 s : State}   (hK : Keeps s0 s) : Keeps s0 (State.withdraw s) := by
  unfold State.withdraw
  repeat' (first
    | with_reducible (first | assumption | apply State.wearStat_keeps | apply State.ctrlStat_keeps | apply State.setIntBit_keeps)
    | (simp only [keeps_mk]; with_reducible apply keepsOn_of)
    | dsimp only
    | intro _)

end Sys2Proof.Machine
end

