-- ==== Sys2Proof/Laws/KeepsFaults.lean ====
section
/-! SUPPORT. What the operations of Machine/Faults.lean leave as it was (Keeps). -/

set_option linter.unusedTactic false
set_option linter.unreachableTactic false
set_option linter.unusedVariables false
set_option linter.unusedSimpArgs false

namespace Sys2Proof.Machine

theorem State.safeEnter_keeps {s0 s : State}   (hK : Keeps s0 s) : Keeps s0 (State.safeEnter s) := by
  unfold State.safeEnter
  repeat' (first
    | with_reducible (first | assumption | apply State.failRead_keeps | apply State.endReads_keeps | apply State.idle_keeps | apply State.count1_keeps | refine keeps_foldl (fun _ _ _ => ?_) ?_)
    | (simp only [keeps_mk]; with_reducible apply keepsOn_of)
    | split
    | dsimp only
    | intro _)

theorem State.exitStart_keeps {s0 s : State}   (hK : Keeps s0 s) : Keeps s0 (State.exitStart s) := by
  unfold State.exitStart
  repeat' (first
    | with_reducible (first | assumption | apply State.hostDown_keeps)
    | (simp only [keeps_mk]; with_reducible apply keepsOn_of)
    | dsimp only
    | intro _)

theorem State.quietAgain_keeps {s0 s : State}   (hK : Keeps s0 s) : Keeps s0 (State.quietAgain s) := by
  unfold State.quietAgain
  repeat' (first
    | with_reducible (first | assumption | apply State.exitStart_keeps)
    | (simp only [keeps_mk]; with_reducible apply keepsOn_of)
    | split
    | dsimp only
    | intro _)

theorem State.latchQuiet_keeps {s0 s : State} (bit : Nat)  (hK : Keeps s0 s) : Keeps s0 (State.latchQuiet s bit) := by
  unfold State.latchQuiet
  repeat' (first
    | with_reducible (first | assumption | apply State.setIntBit_keeps)
    | (simp only [keeps_mk]; with_reducible apply keepsOn_of)
    | split
    | dsimp only
    | intro _)

theorem State.logPut_keeps {s0 s : State} (src : Nat) (sev : Nat) (part : Nat) (count : Nat) (unit : Nat) (lasting : Bool) (coll : Bool) (elw : Word)  (hK : Keeps s0 s) : Keeps s0 (State.logPut s src sev part count unit lasting coll elw) := by
  unfold State.logPut
  repeat' (first
    | with_reducible (first | assumption | apply State.count_keeps | apply State.setReg_keeps | apply State.err_keeps)
    | (simp only [keeps_mk]; with_reducible apply keepsOn_of)
    | split
    | dsimp only
    | intro _)

theorem State.countRaise_keeps {s0 s : State} (src : Nat) (lasting : Bool)  (hK : Keeps s0 s) : Keeps s0 (State.countRaise s src lasting) := by
  unfold State.countRaise
  repeat' (first
    | with_reducible (first | assumption | apply State.setReg_keeps | apply State.count1_keeps)
    | (simp only [keeps_mk]; with_reducible apply keepsOn_of)
    | split
    | dsimp only
    | intro _)

theorem State.faultEvent_keeps {s0 s : State} (m : RaiseMsg) (sev : Nat) (logIdx : Nat)  (hK : Keeps s0 s) : Keeps s0 (State.faultEvent s m sev logIdx) := by
  unfold State.faultEvent
  repeat' (first
    | with_reducible (first | assumption | apply State.setIntBit_keeps | apply State.event_keeps | apply State.count_keeps | apply State.wake_keeps)
    | split
    | dsimp only
    | intro _)

theorem State.react_keeps {s0 s : State} (m : RaiseMsg) (sev : Nat)  (hK : Keeps s0 s) : Keeps s0 (State.react s m sev) := by
  unfold State.react
  repeat' (first
    | with_reducible (first | assumption | apply State.barrierSend_keeps)
    | (simp only [keeps_mk]; with_reducible apply keepsOn_of)
    | split
    | dsimp only
    | intro _)

theorem State.takeRaise_keeps {s0 p : State} (m : RaiseMsg)  (hKp : Keeps s0 p) : Keeps s0 (State.takeRaise p m) := by
  unfold State.takeRaise
  repeat' (first
    | with_reducible (first | assumption | apply State.swapFirst_keeps | apply State.count_keeps | apply State.countRaise_keeps | apply State.logPut_keeps | apply State.faultEvent_keeps | apply State.react_keeps | apply State.quietAgain_keeps)
    | (simp only [keeps_mk]; with_reducible apply keepsOn_of)
    | split
    | dsimp only
    | intro _)

theorem State.blockFail_keeps {s0 s : State} (inBlk : Blk → Bool) (mine : Nat → Bool) (st : Status)  (hK : Keeps s0 s) : Keeps s0 (State.blockFail s inBlk mine st) := by
  unfold State.blockFail
  repeat' (first
    | with_reducible (first | assumption | apply State.failGroup_keeps | apply State.stepAbandon_keeps | apply State.reqFail_keeps | apply State.workFail_keeps | apply State.failRead_keeps | apply State.endReads_keeps | refine keeps_foldl (fun _ _ _ => ?_) ?_)
    | (simp only [keeps_mk]; with_reducible apply keepsOn_of)
    | split
    | dsimp only
    | intro _)

theorem State.pinActs_keeps {s0 s : State} (pg : Page) (unit : Nat) (bit : Nat) (part : Nat)  (hK : Keeps s0 s) : Keeps s0 (State.pinActs s pg unit bit part) := by
  unfold State.pinActs
  repeat' (first
    | with_reducible (first | assumption | apply State.blockFail_keeps | apply State.reqFail_keeps | refine keeps_foldl (fun _ _ _ => ?_) ?_)
    | (simp only [keeps_mk]; with_reducible apply keepsOn_of)
    | split
    | dsimp only
    | intro _)

theorem State.errorPin_keeps {s0 s : State} (pg : Page) (unit : Nat) (bit : Nat) (part : Nat) (lasting : Bool)  (hK : Keeps s0 s) : Keeps s0 (State.errorPin s pg unit bit part lasting) := by
  unfold State.errorPin
  repeat' (first
    | with_reducible (first | assumption | apply State.latch_keeps | apply State.pinActs_keeps)
    | dsimp only
    | intro _)

theorem State.reactDone_keeps {s0 s : State} (typ : Nat) (seq : Nat)  (hK : Keeps s0 s) : Keeps s0 (State.reactDone s typ seq) := by
  unfold State.reactDone
  repeat' (first
    | with_reducible (first | assumption | apply State.barrierSend_keeps)
    | dsimp only
    | intro _)

theorem State.containPart_keeps {s0 s : State} (p : Nat) (src : Nat)  (hK : Keeps s0 s) : Keeps s0 (State.containPart s p src) := by
  unfold State.containPart
  repeat' (first
    | with_reducible (first | assumption | apply State.blockFail_keeps | apply State.setIntBit_keeps | apply State.count1_keeps | apply State.event_keeps)
    | (simp only [keeps_mk]; with_reducible apply keepsOn_of)
    | split
    | dsimp only
    | intro _)

theorem State.partFree_keeps {s0 s : State} (p : Nat)  (hK : Keeps s0 s) : Keeps s0 (State.partFree s p) := by
  unfold State.partFree
  repeat' (first
    | with_reducible (first | assumption)
    | (simp only [keeps_mk]; with_reducible apply keepsOn_of)
    | dsimp only
    | intro _)

theorem State.containPlane_keeps {s0 s : State} (plane : Nat)  (hK : Keeps s0 s) : Keeps s0 (State.containPlane s plane) := by
  unfold State.containPlane
  repeat' (first
    | with_reducible (first | assumption | apply State.blockFail_keeps | apply State.setIntBit_keeps | apply State.count1_keeps)
    | (simp only [keeps_mk]; with_reducible apply keepsOn_of)
    | split
    | dsimp only
    | intro _)

theorem State.collector_keeps {s0 s : State} (bit : Nat) (unit : Nat) (elw : Word)  (hK : Keeps s0 s) : Keeps s0 (State.collector s bit unit elw) := by
  unfold State.collector
  repeat' (first
    | with_reducible (first | assumption | apply State.latchQuiet_keeps | apply State.logPut_keeps | apply State.quietAgain_keeps)
    | (simp only [keeps_mk]; with_reducible apply keepsOn_of)
    | split
    | dsimp only
    | intro _)

theorem State.sevWrite_keeps {s0 s : State} (k : Nat) (off : Nat) (w : Word)  (hK : Keeps s0 s) : Keeps s0 (State.sevWrite s k off w) := by
  unfold State.sevWrite
  repeat' (first
    | with_reducible (first | assumption | apply State.refuse_keeps | apply State.setReg_keeps)
    | split
    | dsimp only
    | intro _)

theorem fltRun_keeps {s0 s : State} (val : Word)  (hK : Keeps s0 s) : Keeps s0 (fltRun val s) := by
  unfold fltRun
  repeat' (first
    | with_reducible (first | assumption | apply State.barrierSend_keeps | apply State.cmdEnd_keeps | apply State.exitStart_keeps | apply State.setReg_keeps)
    | split
    | dsimp only
    | intro _)

end Sys2Proof.Machine
end

