-- ==== Sys2Proof/Laws/KeepsPartitions.lean ====
section
/-! SUPPORT. What the operations of Machine/Partitions.lean leave as it was (Keeps). -/

set_option linter.unusedTactic false
set_option linter.unreachableTactic false
set_option linter.unusedVariables false
set_option linter.unusedSimpArgs false

namespace Sys2Proof.Machine

theorem State.scrubStack_keeps {s0 s : State} (k : Nat)  (hK : Keeps s0 s) : Keeps s0 (State.scrubStack s k) := by
  unfold State.scrubStack
  repeat' (first
    | with_reducible (first | assumption)
    | (simp only [keeps_mk]; with_reducible apply keepsOn_of)
    | split
    | dsimp only
    | intro _)

theorem State.scrubNext_keeps {s0 s : State}   (hK : Keeps s0 s) : Keeps s0 (State.scrubNext s) := by
  unfold State.scrubNext
  repeat' (first
    | with_reducible (first | assumption | apply State.scrubStack_keeps | refine keeps_foldl (fun _ _ _ => ?_) ?_)
    | dsimp only
    | intro _)

theorem State.giveUp_keeps {s0 s : State} (p : Nat) (ty : Nat) (id : Nat)  (hK : Keeps s0 s) : Keeps s0 (State.giveUp s p ty id) := by
  unfold State.giveUp
  repeat' (first
    | with_reducible (first | assumption | apply State.portScrub_keeps | apply State.setOwn_keeps)
    | (simp only [keeps_mk]; with_reducible apply keepsOn_of)
    | split
    | dsimp only
    | intro _)

theorem State.keyScrubbed_keeps {s0 s : State} (k : Nat)  (hK : Keeps s0 s) : Keeps s0 (State.keyScrubbed s k) := by
  unfold State.keyScrubbed
  repeat' (first
    | with_reducible (first | assumption)
    | (simp only [keeps_mk]; with_reducible apply keepsOn_of)
    | dsimp only
    | intro _)

theorem State.scrubbed_keeps {s0 s : State} (ty : Nat) (id : Nat)  (hK : Keeps s0 s) : Keeps s0 (State.scrubbed s ty id) := by
  unfold State.scrubbed
  repeat' (first
    | with_reducible (first | assumption | apply State.zero_keeps | apply State.discardHeld_keeps | apply State.setRing_keeps | apply State.setSync_keeps | apply State.keyScrubbed_keeps | apply State.setVi_keeps | apply State.nsDropCache_keeps | apply State.portScrubbed_keeps)
    | (simp only [keeps_mk]; with_reducible apply keepsOn_of)
    | split
    | dsimp only
    | intro _)

theorem State.maybeFree_keeps {s0 s : State} (p : Nat)  (hK : Keeps s0 s) : Keeps s0 (State.maybeFree s p) := by
  unfold State.maybeFree
  repeat' (first
    | with_reducible (first | assumption | apply State.setPart_keeps | apply State.refreshPort_keeps | apply State.setIntBit_keeps | refine keeps_foldl (fun _ _ _ => ?_) ?_)
    | (simp only [keeps_mk]; with_reducible apply keepsOn_of)
    | split
    | dsimp only
    | intro _)

theorem State.scrubFound_keeps {s0 s : State} (a : Nat)  (hK : Keeps s0 s) : Keeps s0 (State.scrubFound s a) := by
  unfold State.scrubFound
  repeat' (first
    | with_reducible (first | assumption | apply State.retirePage_keeps | apply State.err_keeps | apply State.setIntBit_keeps)
    | dsimp only
    | intro _)

theorem State.scrubDone_keeps {s0 s : State} (x : Scrub) (bad : List Nat)  (hK : Keeps s0 s) : Keeps s0 (State.scrubDone s x bad) := by
  unfold State.scrubDone
  repeat' (first
    | with_reducible (first | assumption | apply State.scrubbed_keeps | apply State.scrubFound_keeps | apply State.setOwn_keeps | apply State.maybeFree_keeps | apply State.scrubNext_keeps | refine keeps_foldl (fun _ _ _ => ?_) ?_)
    | (simp only [keeps_mk]; with_reducible apply keepsOn_of)
    | split
    | dsimp only
    | intro _)

theorem State.setWays_keeps {s0 s : State} (p : Nat) (first : Nat) (n : Nat) (x : Bool)  (hK : Keeps s0 s) : Keeps s0 (State.setWays s p first n x) := by
  unfold State.setWays
  repeat' (first
    | with_reducible (first | assumption | apply State.setPart_keeps)
    | (simp only [keeps_mk]; with_reducible apply keepsOn_of)
    | split
    | dsimp only
    | intro _)

theorem State.prtAssign_keeps {s0 s : State} (p : Nat) (a0 : Word)  (hK : Keeps s0 s) : Keeps s0 (State.prtAssign s p a0) := by
  unfold State.prtAssign
  repeat' (first
    | with_reducible (first | assumption | apply State.setWays_keeps | apply State.setOwn_keeps | refine keeps_foldl (fun _ _ _ => ?_) ?_)
    | split
    | dsimp only
    | intro _)

theorem State.prtUnassign_keeps {s0 s : State} (p : Nat) (a0 : Word)  (hK : Keeps s0 s) : Keeps s0 (State.prtUnassign s p a0) := by
  unfold State.prtUnassign
  repeat' (first
    | with_reducible (first | assumption | apply State.setWays_keeps | apply State.giveUp_keeps | apply State.scrubNext_keeps | refine keeps_foldl (fun _ _ _ => ?_) ?_)
    | split
    | dsimp only
    | intro _)

theorem State.prtEnd_keeps {s0 s : State} (op : Nat) (p : Nat) (st : Status) (sync : Option Nat)  (hK : Keeps s0 s) : Keeps s0 (State.prtEnd s op p st sync) := by
  unfold State.prtEnd
  repeat' (first
    | with_reducible (first | assumption | apply State.cmdEnd_keeps | apply State.syncAdd_keeps)
    | split
    | dsimp only
    | intro _)

theorem State.viUnbind_keeps {s0 s : State} (v : Nat)  (hK : Keeps s0 s) : Keeps s0 (State.viUnbind s v) := by
  unfold State.viUnbind
  repeat' (first
    | with_reducible (first | assumption | apply State.setVi_keeps | apply State.cmdEnd_keeps)
    | (simp only [keeps_mk]; with_reducible apply keepsOn_of)
    | split
    | dsimp only
    | intro _)

theorem State.releaseRings_keeps {s0 s : State} (p : Nat)  (hK : Keeps s0 s) : Keeps s0 (State.releaseRings s p) := by
  unfold State.releaseRings
  repeat' (first
    | with_reducible (first | assumption | apply State.fetched_keeps | apply State.abortDesc_keeps | apply State.setRing_keeps | refine keeps_foldl (fun _ _ _ => ?_) ?_)
    | (simp only [keeps_mk]; with_reducible apply keepsOn_of)
    | dsimp only
    | intro _)

theorem State.releaseVis_keeps {s0 s : State} (p : Nat)  (hK : Keeps s0 s) : Keeps s0 (State.releaseVis s p) := by
  unfold State.releaseVis
  repeat' (first
    | with_reducible (first | assumption | apply State.viReset_keeps | apply State.viUnbind_keeps | refine keeps_foldl (fun _ _ _ => ?_) ?_)
    | split
    | dsimp only
    | intro _)

theorem State.releaseRegions_keeps {s0 s : State} (p : Nat)  (hK : Keeps s0 s) : Keeps s0 (State.releaseRegions s p) := by
  unfold State.releaseRegions
  repeat' (first
    | with_reducible (first | assumption | apply State.setRegionState_keeps | refine keeps_foldl (fun _ _ _ => ?_) ?_)
    | dsimp only
    | intro _)

theorem State.releaseLeaves_keeps {s0 s : State} (p : Nat)  (hK : Keeps s0 s) : Keeps s0 (State.releaseLeaves s p) := by
  unfold State.releaseLeaves
  repeat' (first
    | with_reducible (first | assumption | apply State.setLeaf_keeps | apply State.workFail_keeps | refine keeps_foldl (fun _ _ _ => ?_) ?_)
    | (simp only [keeps_mk]; with_reducible apply keepsOn_of)
    | dsimp only
    | intro _)

theorem State.releaseWork_keeps {s0 s : State} (p : Nat)  (hK : Keeps s0 s) : Keeps s0 (State.releaseWork s p) := by
  unfold State.releaseWork
  repeat' (first
    | with_reducible (first | assumption | apply State.failGroup_keeps | apply State.connDrop_keeps | apply State.spateShut_keeps | apply State.stepAbandon_keeps | apply State.attDrain_keeps | apply State.stoDrain_keeps | apply State.releaseLeaves_keeps | refine keeps_foldl (fun _ _ _ => ?_) ?_)
    | (simp only [keeps_mk]; with_reducible apply keepsOn_of)
    | dsimp only
    | intro _)

theorem State.quiet_keeps {s0 s : State} (p : Nat)  (hK : Keeps s0 s) : Keeps s0 (State.quiet s p) := by
  unfold State.quiet
  repeat' (first
    | with_reducible (first | assumption)
    | (simp only [keeps_mk]; with_reducible apply keepsOn_of)
    | split
    | dsimp only
    | intro _)

theorem State.release_keeps {s0 s : State} (p : Nat) (sync : Option Nat)  (hK : Keeps s0 s) : Keeps s0 (State.release s p sync) := by
  unfold State.release
  repeat' (first
    | with_reducible (first | assumption | apply State.setPart_keeps | apply State.partFree_keeps | apply State.quiet_keeps | apply State.releaseRings_keeps | apply State.releaseVis_keeps | apply State.releaseRegions_keeps | apply State.releaseWork_keeps)
    | (simp only [keeps_mk]; with_reducible apply keepsOn_of)
    | dsimp only
    | intro _)

theorem State.enterScrub_keeps {s0 s : State} (p : Nat)  (hK : Keeps s0 s) : Keeps s0 (State.enterScrub s p) := by
  unfold State.enterScrub
  repeat' (first
    | with_reducible (first | assumption | apply State.setPart_keeps | apply State.giveUp_keeps | apply State.scrubNext_keeps | refine keeps_foldl (fun _ _ _ => ?_) ?_)
    | (simp only [keeps_mk]; with_reducible apply keepsOn_of)
    | dsimp only
    | intro _)

theorem prtRun_keeps {s0 s : State} (val : Word)  (hK : Keeps s0 s) : Keeps s0 (prtRun val s) := by
  unfold prtRun
  repeat' (first
    | with_reducible (first | assumption | apply State.setPart_keeps | apply State.prtEnd_keeps | apply State.prtAssign_keeps | apply State.prtUnassign_keeps | apply State.setBusy_keeps | apply State.release_keeps)
    | (simp only [keeps_mk]; with_reducible apply keepsOn_of)
    | split
    | dsimp only
    | intro _)

theorem State.vifEnd_keeps {s0 s : State} (op : Nat) (v : Nat) (st : Status) (sync : Option Nat)  (hK : Keeps s0 s) : Keeps s0 (State.vifEnd s op v st sync) := by
  unfold State.vifEnd
  repeat' (first
    | with_reducible (first | assumption | apply State.cmdEnd_keeps | apply State.syncAdd_keeps)
    | split
    | dsimp only
    | intro _)

theorem State.harvestWords_keeps {s0 s : State} (v : Nat) (host : Nat) (i : Nat) (n : Nat)  (hK : Keeps s0 s) : Keeps s0 (State.harvestWords s v host i n) := by
  induction n generalizing s v host i with
  | zero =>
    unfold State.harvestWords
    try dsimp only
    repeat' (first
      | with_reducible (first | assumption | apply State.setWord_keeps | apply State.hostWrite_keeps | apply State.count1_keeps)
      | split
      | dsimp only
      | intro _)
  | succ k ih =>
    unfold State.harvestWords
    try dsimp only
    repeat' (first
      | with_reducible (first | assumption | apply ih | apply State.setWord_keeps | apply State.hostWrite_keeps | apply State.count1_keeps)
      | split
      | dsimp only
      | intro _)

theorem State.harvestStart_keeps {s0 p : State} (v : Nat) (host : Nat) (arg : Word) (sync : Option Nat)  (hKp : Keeps s0 p) : Keeps s0 (State.harvestStart p v host arg sync) := by
  unfold State.harvestStart
  repeat' (first
    | with_reducible (first | assumption | apply State.swapFirst_keeps | apply State.setVi_keeps | apply State.harvestWords_keeps | apply State.vifEnd_keeps | apply State.setBusy_keeps)
    | (simp only [keeps_mk]; with_reducible apply keepsOn_of)
    | split
    | dsimp only
    | intro _)

theorem vifRun_keeps {s0 s : State} (val : Word)  (hK : Keeps s0 s) : Keeps s0 (vifRun val s) := by
  unfold vifRun
  repeat' (first
    | with_reducible (first | assumption | apply State.setVi_keeps | apply State.vifEnd_keeps | apply State.viReset_keeps | apply State.viUnbind_keeps | apply State.harvestStart_keeps)
    | (simp only [keeps_mk]; with_reducible apply keepsOn_of)
    | split
    | dsimp only
    | intro _)

end Sys2Proof.Machine
end

