-- ==== Sys2Proof/Laws/KeepsTrust.lean ====
section
/-! SUPPORT. What the operations of Machine/Trust.lean leave as it was (Keeps). -/

set_option linter.unusedTactic false
set_option linter.unreachableTactic false
set_option linter.unusedVariables false
set_option linter.unusedSimpArgs false

namespace Sys2Proof.Machine

theorem State.guaranteeFrom_keeps {s0 s old : State}   (hK : Keeps s0 s) (hKold : Keeps s0 old) : Keeps s0 (State.guaranteeFrom s old) := by
  unfold State.guaranteeFrom
  repeat' (first
    | with_reducible (first | assumption | apply State.setIntBit_keeps)
    | split
    | dsimp only
    | intro _)

theorem State.fallback_keeps {s0 s : State}   (hK : Keeps s0 s) : Keeps s0 (State.fallback s) := by
  unfold State.fallback
  repeat' (first
    | with_reducible (first | assumption | apply State.hostDown_keeps | apply State.setReg_keeps | apply State.err_keeps)
    | (simp only [keeps_mk]; with_reducible apply keepsOn_of)
    | split
    | dsimp only
    | intro _)

theorem State.loadSeverities_keeps {s0 s : State}   (hK : Keeps s0 s) : Keeps s0 (State.loadSeverities s) := by
  unfold State.loadSeverities
  repeat' (first
    | with_reducible (first | assumption | apply State.setReg_keeps | refine keeps_foldl (fun _ _ _ => ?_) ?_)
    | dsimp only
    | intro _)

theorem State.readMgmt_keeps {s0 s : State}   (hK : Keeps s0 s) : Keeps s0 (State.readMgmt s) := by
  unfold State.readMgmt
  repeat' (first
    | with_reducible (first | assumption | apply State.err_keeps)
    | (simp only [keeps_mk]; with_reducible apply keepsOn_of)
    | split
    | dsimp only
    | intro _)

theorem State.readWear_keeps {s0 s : State}   (hK : Keeps s0 s) : Keeps s0 (State.readWear s) := by
  unfold State.readWear
  repeat' (first
    | with_reducible (first | assumption | apply State.drop_keeps | apply State.setReg_keeps | apply State.wearStat_keeps | apply State.err_keeps)
    | (simp only [keeps_mk]; with_reducible apply keepsOn_of)
    | split
    | dsimp only
    | intro _)

theorem State.derive_keeps {s0 s : State} (w : Image)  (hK : Keeps s0 s) : Keeps s0 (State.derive s w) := by
  unfold State.derive
  repeat' (first
    | with_reducible (first | assumption)
    | (simp only [keeps_mk]; with_reducible apply keepsOn_of)
    | split
    | dsimp only
    | intro _)

theorem State.weirStart_keeps {s0 s : State} (b : Bool) (k : Image) (w : Image)  (hK : Keeps s0 s) : Keeps s0 (State.weirStart s b k w) := by
  unfold State.weirStart
  repeat' (first
    | with_reducible (first | assumption | apply State.derive_keeps | apply State.setReg_keeps | apply State.loadSeverities_keeps | apply State.readMgmt_keeps | apply State.readWear_keeps | apply State.ctrlStat_keeps)
    | (simp only [keeps_mk]; with_reducible apply keepsOn_of)
    | dsimp only
    | intro _)

theorem State.allScrubbed_keeps {s0 s : State} (hK : Keeps s0 s) : Keeps s0 (State.allScrubbed s) :=
  keeps_cleared (s := s) rfl rfl rfl rfl rfl rfl rfl rfl hK

theorem State.deriveAk_keeps {s0 s : State} (r : Image) (m : Image)  (hK : Keeps s0 s) : Keeps s0 (State.deriveAk s r m) := by
  unfold State.deriveAk
  repeat' (first
    | with_reducible (first | assumption)
    | (simp only [keeps_mk]; with_reducible apply keepsOn_of)
    | split
    | dsimp only
    | intro _)

theorem State.exitDone_keeps {s0 s : State}   (hK : Keeps s0 s) : Keeps s0 (State.exitDone s) := by
  unfold State.exitDone
  repeat' (first
    | with_reducible (first | assumption | apply State.loadSeverities_keeps | apply State.setReg_keeps | apply State.setIntBit_keeps | apply State.barrierSend_keeps)
    | (simp only [keeps_mk]; with_reducible apply keepsOn_of)
    | split
    | dsimp only
    | intro _)

theorem State.imgStream_keeps {s0 s : State} (kind : Nat) (k : Nat) (bs : List Byte)  (hK : Keeps s0 s) : Keeps s0 (State.imgStream s kind k bs) := by
  induction k generalizing s kind bs with
  | zero =>
    unfold State.imgStream
    try dsimp only
    repeat' (first
      | with_reducible (first | assumption | apply State.barrierSend_keeps | apply State.drop_keeps)
      | split
      | dsimp only
      | intro _)
  | succ k ih =>
    unfold State.imgStream
    try dsimp only
    repeat' (first
      | with_reducible (first | assumption | apply ih | apply State.barrierSend_keeps | apply State.drop_keeps)
      | split
      | dsimp only
      | intro _)

theorem State.signNonce_keeps {s0 s : State}   (hK : Keeps s0 s) : Keeps s0 (State.signNonce s).2 := by
  unfold State.signNonce
  repeat' (first
    | with_reducible (first | assumption)
    | (simp only [keeps_mk]; with_reducible apply keepsOn_of)
    | dsimp only
    | intro _)

theorem State.signNonce_keeps_of {s0 t s : State}   {y0 : Nat} (he : (State.signNonce s) = (y0, t)) (hK : Keeps s0 s) : Keeps s0 t := by
  have hk := State.signNonce_keeps (s0 := s0) hK
  rw [he] at hk
  exact hk

theorem State.reportTake_keeps {s0 s : State} (r : Report)  (hK : Keeps s0 s) : Keeps s0 (State.reportTake s r) := by
  unfold State.reportTake
  repeat' (first
    | with_reducible (first | assumption)
    | (simp only [keeps_mk]; with_reducible apply keepsOn_of)
    | dsimp only
    | intro _)

theorem State.debugChallenge_keeps {s0 s : State}   (hK : Keeps s0 s) : Keeps s0 (State.debugChallenge s).2 := by
  unfold State.debugChallenge
  repeat' (first
    | with_reducible (first | assumption | apply State.setReg_keeps | refine keeps_foldl (fun _ _ _ => ?_) ?_)
    | (simp only [keeps_mk]; with_reducible apply keepsOn_of)
    | dsimp only
    | intro _)

theorem State.debugChallenge_keeps_of {s0 t s : State}   {y0 : Status} (he : (State.debugChallenge s) = (y0, t)) (hK : Keeps s0 s) : Keeps s0 t := by
  have hk := State.debugChallenge_keeps (s0 := s0) hK
  rw [he] at hk
  exact hk

theorem State.debugUnlock_keeps {s0 s : State} (a : Nat)  (hK : Keeps s0 s) : Keeps s0 (State.debugUnlock s a).2 := by
  unfold State.debugUnlock
  repeat' (first
    | with_reducible (first | assumption | apply State.setReg_keeps | apply State.setIntBit_keeps | apply State.guaranteeFrom_keeps)
    | split
    | dsimp only
    | intro _)

theorem State.debugUnlock_keeps_of {s0 t s : State} {a : Nat}  {y0 : Status} (he : (State.debugUnlock s a) = (y0, t)) (hK : Keeps s0 s) : Keeps s0 t := by
  have hk := State.debugUnlock_keeps (s0 := s0) a hK
  rw [he] at hk
  exact hk

theorem State.certs_keeps {s0 s : State} (a : Nat)  (hK : Keeps s0 s) : Keeps s0 (State.certs s a).2 := by
  unfold State.certs
  repeat' (first
    | with_reducible (first | assumption | apply State.setBytes_keeps | apply State.setReg_keeps)
    | split
    | dsimp only
    | intro _)

theorem State.certs_keeps_of {s0 t s : State} {a : Nat}  {y0 : Status} (he : (State.certs s a) = (y0, t)) (hK : Keeps s0 s) : Keeps s0 t := by
  have hk := State.certs_keeps (s0 := s0) a hK
  rw [he] at hk
  exact hk

theorem State.svnCommit_keeps {s0 s : State} (hK : Keeps s0 s) : Keeps s0 (State.svnCommit s).2 := by
  unfold State.svnCommit
  split
  · exact hK
  · refine keeps_trans hK ⟨rfl, List.prefix_rfl, id, rfl, rfl, rfl, fun i hi => ?_⟩
    have h3 : i = 0 ∨ i = 1 ∨ i = 2 := by omega
    rcases h3 with h | h | h <;> subst h <;> exact Nat.le_max_left _ _

theorem State.svnCommit_keeps_of {s0 t s : State} {y0 : Status} (he : State.svnCommit s = (y0, t)) (hK : Keeps s0 s) :
    Keeps s0 t := by
  have hk := State.svnCommit_keeps (s0 := s0) hK
  rw [he] at hk
  exact hk

theorem State.mgmtKeySet_keeps {s0 s : State} (a : Nat)  (hK : Keeps s0 s) : Keeps s0 (State.mgmtKeySet s a).2 := by
  unfold State.mgmtKeySet
  repeat' (first
    | with_reducible (first | assumption | apply State.flashWrite_keeps | apply State.setBytes_keeps)
    | (simp only [keeps_mk]; with_reducible apply keepsOn_of)
    | split
    | dsimp only
    | intro _)

theorem State.mgmtKeySet_keeps_of {s0 t s : State} {a : Nat}  {y0 : Status} (he : (State.mgmtKeySet s a) = (y0, t)) (hK : Keeps s0 s) : Keeps s0 t := by
  have hk := State.mgmtKeySet_keeps (s0 := s0) a hK
  rw [he] at hk
  exact hk

theorem State.reportCmd_keeps {s0 s : State} (p : Nat) (a : Nat)  (hK : Keeps s0 s) : Keeps s0 (State.reportCmd s p a) := by
  unfold State.reportCmd
  repeat' (first
    | with_reducible (first | assumption | apply State.reportTake_keeps | apply State.setBusy_keeps | apply State.count1_keeps | apply State.cmdEnd_keeps)
    | (simp only [keeps_mk]; with_reducible apply keepsOn_of)
    | split
    | dsimp only
    | intro _)

theorem trsRun_keeps {s0 s : State} (val : Word)  (hK : Keeps s0 s) : Keeps s0 (trsRun val s) := by
  unfold trsRun
  repeat' (first
    | with_reducible (first | assumption | apply State.debugChallenge_keeps | apply State.cmdEnd_keeps | apply State.debugUnlock_keeps | apply State.reportCmd_keeps | apply State.certs_keeps | apply State.svnCommit_keeps | apply State.flashWrite_keeps | apply State.mgmtKeySet_keeps)
    | refine State.debugChallenge_keeps_of (by with_reducible assumption) ?_
    | refine State.debugUnlock_keeps_of (by with_reducible assumption) ?_
    | refine State.certs_keeps_of (by with_reducible assumption) ?_
    | refine State.svnCommit_keeps_of (by with_reducible assumption) ?_
    | refine State.mgmtKeySet_keeps_of (by with_reducible assumption) ?_
    | split
    | dsimp only
    | intro _)

end Sys2Proof.Machine
end

