-- ==== Sys2Proof/Laws/KeepsFirmware.lean ====
section
/-! SUPPORT. What the operations of Machine/Firmware.lean leave as it was (Keeps). -/

set_option linter.unusedTactic false
set_option linter.unreachableTactic false
set_option linter.unusedVariables false
set_option linter.unusedSimpArgs false

namespace Sys2Proof.Machine

theorem State.pageGate_keeps {s0 s act : State} (pg : Page)  (hK : Keeps s0 s) (hKact : Keeps s0 act) : Keeps s0 (State.pageGate s pg act) := by
  unfold State.pageGate
  repeat' (first
    | with_reducible (first | assumption | apply State.count1_keeps)
    | split
    | dsimp only
    | intro _)

theorem State.setCore_keeps {s0 s : State} (n : Nat) (c : Core)  (hK : Keeps s0 s) : Keeps s0 (State.setCore s n c) := by
  unfold State.setCore
  repeat' (first
    | with_reducible (first | assumption)
    | (simp only [keeps_mk]; with_reducible apply keepsOn_of)
    | dsimp only
    | intro _)

theorem State.setHandshake_keeps {s0 s : State} (pg : Page) (ok : Bool) (version : Nat)  (hK : Keeps s0 s) : Keeps s0 (State.setHandshake s pg ok version) := by
  unfold State.setHandshake
  repeat' (first
    | with_reducible (first | assumption | apply State.setReg_keeps | apply State.setIntBit_keeps | apply State.guaranteeFrom_keeps)
    | split
    | dsimp only
    | intro _)

theorem State.handshake_keeps {s0 s : State} (pg : Page) (version : Nat)  (hK : Keeps s0 s) : Keeps s0 (State.handshake s pg version) := by
  unfold State.handshake
  repeat' (first
    | with_reducible (first | assumption | apply State.setHandshake_keeps)
    | dsimp only
    | intro _)

theorem State.ringStatEnd_keeps {s0 s : State} (v : Nat) (st : Status)  (hK : Keeps s0 s) : Keeps s0 (State.ringStatEnd s v st) := by
  unfold State.ringStatEnd
  repeat' (first
    | with_reducible (first | assumption | apply State.setReg_keeps)
    | dsimp only
    | intro _)

theorem State.ringIssue_keeps {s0 s : State} (v : Nat) (op : Nat) (n : Nat)  (hK : Keeps s0 s) : Keeps s0 (State.ringIssue s v op n) := by
  unfold State.ringIssue
  repeat' (first
    | with_reducible (first | assumption | apply State.setReg_keeps | apply State.ringCmd_keeps | apply State.cmdEnd_keeps | apply State.ringStatEnd_keeps | refine keeps_foldl (fun _ _ _ => ?_) ?_)
    | refine State.ringCmd_keeps_of (by with_reducible assumption) ?_
    | split
    | dsimp only
    | intro _)

theorem State.journalRun_keeps {s0 s : State} (g : Nat) (again : Bool) (k : Nat)  (hK : Keeps s0 s) : Keeps s0 (State.journalRun s g again k) := by
  induction k generalizing s g again with
  | zero =>
    unfold State.journalRun
    try dsimp only
    repeat' (first
      | with_reducible (first | assumption | apply State.setRingGroup_keeps | apply State.ringStatEnd_keeps | apply State.count1_keeps | apply State.ringIssue_keeps)
      | (simp only [keeps_mk]; with_reducible apply keepsOn_of)
      | split
      | dsimp only
      | intro _)
  | succ k ih =>
    unfold State.journalRun
    try dsimp only
    repeat' (first
      | with_reducible (first | assumption | apply ih | apply State.setRingGroup_keeps | apply State.ringStatEnd_keeps | apply State.count1_keeps | apply State.ringIssue_keeps)
      | (simp only [keeps_mk]; with_reducible apply keepsOn_of)
      | split
      | dsimp only
      | intro _)

theorem State.ringCmdTake_keeps {s0 s : State} (v : Nat) (val : Word)  (hK : Keeps s0 s) : Keeps s0 (State.ringCmdTake s v val) := by
  unfold State.ringCmdTake
  repeat' (first
    | with_reducible (first | assumption | apply State.refuse_keeps | apply State.setRingGroup_keeps | apply State.setReg_keeps | apply State.journalRun_keeps)
    | (simp only [keeps_mk]; with_reducible apply keepsOn_of)
    | split
    | dsimp only
    | intro _)

theorem State.viHeldWrite_keeps {s0 s : State} (v : Nat)  (hK : Keeps s0 s) : Keeps s0 (State.viHeldWrite s v) := by
  unfold State.viHeldWrite
  repeat' (first
    | with_reducible (first | assumption | apply State.heldWrite_keeps | refine keeps_foldl (fun _ _ _ => ?_) ?_)
    | dsimp only
    | intro _)

theorem State.masterClear_keeps {s0 s : State} (v : Nat)  (hK : Keeps s0 s) : Keeps s0 (State.masterClear s v) := by
  unfold State.masterClear
  repeat' (first
    | with_reducible (first | assumption | apply State.setVi_keeps | apply State.viStop_keeps)
    | (simp only [keeps_mk]; with_reducible apply keepsOn_of)
    | split
    | dsimp only
    | intro _)

theorem State.masterSet_keeps {s0 s : State} (v : Nat)  (hK : Keeps s0 s) : Keeps s0 (State.masterSet s v) := by
  unfold State.masterSet
  repeat' (first
    | with_reducible (first | assumption | apply State.setVi_keeps | apply State.viHeldWrite_keeps)
    | (simp only [keeps_mk]; with_reducible apply keepsOn_of)
    | split
    | dsimp only
    | intro _)

theorem State.viFlr_keeps {s0 s : State} (v : Nat)  (hK : Keeps s0 s) : Keeps s0 (State.viFlr s v) := by
  unfold State.viFlr
  repeat' (first
    | with_reducible (first | assumption | apply State.setVi_keeps | apply State.viReset_keeps | apply State.viRingsReset_keeps)
    | (simp only [keeps_mk]; with_reducible apply keepsOn_of)
    | split
    | dsimp only
    | intro _)

theorem State.controlWrite_keeps {s0 s : State} (v : Nat) (val : Word)  (hK : Keeps s0 s) : Keeps s0 (State.controlWrite s v val) := by
  unfold State.controlWrite
  repeat' (first
    | with_reducible (first | assumption | apply State.viFlr_keeps | apply State.masterSet_keeps | apply State.masterClear_keeps)
    | split
    | dsimp only
    | intro _)

theorem State.vecCtlWrite_keeps {s0 s : State} (v : Nat) (n : Nat) (val : Word)  (hK : Keeps s0 s) : Keeps s0 (State.vecCtlWrite s v n val) := by
  unfold State.vecCtlWrite
  repeat' (first
    | with_reducible (first | assumption | apply State.setReg_keeps | apply State.setVi_keeps | apply State.viVector_keeps)
    | (simp only [keeps_mk]; with_reducible apply keepsOn_of)
    | split
    | dsimp only
    | intro _)

theorem State.attRequest_keeps {s0 s : State} (v : Nat)  (hK : Keeps s0 s) : Keeps s0 (State.attRequest s v) := by
  unfold State.attRequest
  repeat' (first
    | with_reducible (first | assumption | apply State.refuse_keeps | apply State.setReg_keeps | apply State.setVi_keeps | apply State.barrierSend_keeps)
    | (simp only [keeps_mk]; with_reducible apply keepsOn_of)
    | split
    | dsimp only
    | intro _)

theorem State.beatWrite_keeps {s0 s : State} (v : Nat) (count : Nat)  (hK : Keeps s0 s) : Keeps s0 (State.beatWrite s v count) := by
  unfold State.beatWrite
  repeat' (first
    | with_reducible (first | assumption | apply State.setReg_keeps | apply State.count_keeps | apply State.setVi_keeps)
    | (simp only [keeps_mk]; with_reducible apply keepsOn_of)
    | dsimp only
    | intro _)

theorem State.emuWrite_keeps {s0 s : State} (v : Nat) (off : Nat) (val : Word)  (hK : Keeps s0 s) : Keeps s0 (State.emuWrite s v off val) := by
  unfold State.emuWrite
  repeat' (first
    | with_reducible (first | assumption | apply State.handshake_keeps | apply State.beatWrite_keeps | apply State.controlWrite_keeps | apply State.setReg_keeps | apply State.ringCmdTake_keeps | apply State.vecCtlWrite_keeps | apply State.attRequest_keeps)
    | split
    | dsimp only
    | intro _)

theorem State.emuMeet_keeps {s0 s : State} (v : Nat)  (hK : Keeps s0 s) : Keeps s0 (State.emuMeet s v) := by
  unfold State.emuMeet
  repeat' (first
    | with_reducible (first | assumption | apply State.swapFirst_keeps | apply State.pageAccess_keeps)
    | dsimp only
    | intro _)

theorem State.emuTake_keeps {s0 s : State} (v : Nat) (off : Nat) (val : Word)  (hK : Keeps s0 s) : Keeps s0 (State.emuTake s v off val) := by
  unfold State.emuTake
  repeat' (first
    | with_reducible (first | assumption | apply State.emuMeet_keeps | apply State.count1_keeps | apply State.emuWrite_keeps | apply State.setVi_keeps)
    | (simp only [keeps_mk]; with_reducible apply keepsOn_of)
    | split
    | dsimp only
    | intro _)

theorem State.heldApply_keeps {s0 s : State} (v : Nat)  (hK : Keeps s0 s) : Keeps s0 (State.heldApply s v) := by
  unfold State.heldApply
  repeat' (first
    | with_reducible (first | assumption | apply State.count1_keeps | apply State.emuWrite_keeps | apply State.setVi_keeps | refine keeps_foldl (fun _ _ _ => ?_) ?_)
    | (simp only [keeps_mk]; with_reducible apply keepsOn_of)
    | dsimp only
    | intro _)

theorem State.fwResume_keeps {s0 s : State} (again : Bool)  (hK : Keeps s0 s) : Keeps s0 (State.fwResume s again) := by
  unfold State.fwResume
  repeat' (first
    | with_reducible (first | assumption | apply State.journalRun_keeps | apply State.heldApply_keeps | refine keeps_foldl (fun _ _ _ => ?_) ?_)
    | split
    | dsimp only
    | intro _)

theorem State.viPageWrite_keeps {s0 s : State} (v : Nat) (off : Nat) (val : Word)  (hK : Keeps s0 s) : Keeps s0 (State.viPageWrite s v off val) := by
  unfold State.viPageWrite
  repeat' (first
    | with_reducible (first | assumption | apply State.pageGate_keeps | apply State.emuTake_keeps)
    | split
    | dsimp only
    | intro _)

theorem State.opBeat_keeps {s0 s : State} (count : Nat)  (hK : Keeps s0 s) : Keeps s0 (State.opBeat s count) := by
  unfold State.opBeat
  repeat' (first
    | with_reducible (first | assumption | apply State.setReg_keeps | apply State.count_keeps)
    | (simp only [keeps_mk]; with_reducible apply keepsOn_of)
    | dsimp only
    | intro _)

theorem State.setUpdPhase_keeps {s0 s : State} (n : Nat)  (hK : Keeps s0 s) : Keeps s0 (State.setUpdPhase s n) := by
  unfold State.setUpdPhase
  repeat' (first
    | with_reducible (first | assumption | apply State.setReg_keeps)
    | (simp only [keeps_mk]; with_reducible apply keepsOn_of)
    | dsimp only
    | intro _)

theorem State.updEnd_keeps {s0 s : State} (st : Status)  (hK : Keeps s0 s) : Keeps s0 (State.updEnd s st) := by
  unfold State.updEnd
  repeat' (first
    | with_reducible (first | assumption | apply State.setUpdPhase_keeps | apply State.setReg_keeps | apply State.cmdEnd_keeps)
    | (simp only [keeps_mk]; with_reducible apply keepsOn_of)
    | dsimp only
    | intro _)

theorem State.updPause_keeps {s0 s : State}   (hK : Keeps s0 s) : Keeps s0 (State.updPause s) := by
  unfold State.updPause
  repeat' (first
    | with_reducible (first | assumption | apply State.setReg_keeps)
    | dsimp only
    | intro _)

theorem State.ctlRestart_keeps {s0 s : State}   (hK : Keeps s0 s) : Keeps s0 (State.ctlRestart s) := by
  unfold State.ctlRestart
  repeat' (first
    | with_reducible (first | assumption | apply State.setCore_keeps | refine keeps_foldl (fun _ _ _ => ?_) ?_)
    | (simp only [keeps_mk]; with_reducible apply keepsOn_of)
    | split
    | dsimp only
    | intro _)

theorem State.handshakesLost_keeps {s0 s : State}   (hK : Keeps s0 s) : Keeps s0 (State.handshakesLost s) := by
  unfold State.handshakesLost
  repeat' (first
    | with_reducible (first | assumption | apply State.setHandshake_keeps | refine keeps_foldl (fun _ _ _ => ?_) ?_)
    | split
    | dsimp only
    | intro _)

theorem State.updLoaded_keeps {s0 s : State}   (hK : Keeps s0 s) : Keeps s0 (State.updLoaded s) := by
  unfold State.updLoaded
  repeat' (first
    | with_reducible (first | assumption | apply State.updEnd_keeps | apply State.setUpdPhase_keeps)
    | (simp only [keeps_mk]; with_reducible apply keepsOn_of)
    | split
    | dsimp only
    | intro _)

theorem State.updSaved_keeps {s0 s : State}   (hK : Keeps s0 s) : Keeps s0 (State.updSaved s) := by
  unfold State.updSaved
  repeat' (first
    | with_reducible (first | assumption | apply State.setUpdPhase_keeps)
    | (simp only [keeps_mk]; with_reducible apply keepsOn_of)
    | dsimp only
    | intro _)

theorem State.updReady_keeps {s0 s : State}   (hK : Keeps s0 s) : Keeps s0 (State.updReady s) := by
  unfold State.updReady
  repeat' (first
    | with_reducible (first | assumption | apply State.setReg_keeps | apply State.updPause_keeps | apply State.ctlRestart_keeps | apply State.setUpdPhase_keeps | apply State.fwResume_keeps)
    | (simp only [keeps_mk]; with_reducible apply keepsOn_of)
    | split
    | dsimp only
    | intro _)

theorem State.updResumed_keeps {s0 s : State}   (hK : Keeps s0 s) : Keeps s0 (State.updResumed s) := by
  unfold State.updResumed
  repeat' (first
    | with_reducible (first | assumption | apply State.handshakesLost_keeps | apply State.updEnd_keeps)
    | (simp only [keeps_mk]; with_reducible apply keepsOn_of)
    | split
    | dsimp only
    | intro _)

theorem State.viApply_keeps {s0 s : State} (v : Nat) (ws : List Word)  (hK : Keeps s0 s) : Keeps s0 (State.viApply s v ws) := by
  unfold State.viApply
  repeat' (first
    | with_reducible (first | assumption | apply State.discardHeld_keeps | apply State.setRing_keeps | apply State.setReg_keeps | apply State.setVi_keeps | refine keeps_foldl (fun _ _ _ => ?_) ?_)
    | (simp only [keeps_mk]; with_reducible apply keepsOn_of)
    | dsimp only
    | intro _)

theorem State.viExport_keeps {s0 s : State} (v : Nat) (a : Nat)  (hK : Keeps s0 s) : Keeps s0 (State.viExport s v a).2 := by
  unfold State.viExport
  repeat' (first
    | with_reducible (first | assumption | apply State.setBytes_keeps)
    | split
    | dsimp only
    | intro _)

theorem State.viExport_keeps_of {s0 t s : State} {v : Nat} {a : Nat}  {y0 : Status} (he : (State.viExport s v a) = (y0, t)) (hK : Keeps s0 s) : Keeps s0 t := by
  have hk := State.viExport_keeps (s0 := s0) v a hK
  rw [he] at hk
  exact hk

theorem State.viImport_keeps {s0 s : State} (v : Nat) (a : Nat)  (hK : Keeps s0 s) : Keeps s0 (State.viImport s v a).2 := by
  unfold State.viImport
  repeat' (first
    | with_reducible (first | assumption | apply State.viApply_keeps)
    | split
    | dsimp only
    | intro _)

theorem State.viImport_keeps_of {s0 t s : State} {v : Nat} {a : Nat}  {y0 : Status} (he : (State.viImport s v a) = (y0, t)) (hK : Keeps s0 s) : Keeps s0 t := by
  have hk := State.viImport_keeps (s0 := s0) v a hK
  rw [he] at hk
  exact hk

theorem State.dptPut_keeps {s0 s : State} (q : Nat) (va : Nat) (e : Word)  (hK : Keeps s0 s) : Keeps s0 (State.dptPut s q va e).2 := by
  unfold State.dptPut
  repeat' (first
    | with_reducible (first | assumption | apply State.setWord_keeps | apply State.dptChanged_keeps | apply State.zero_keeps)
    | (simp only [keeps_mk]; with_reducible apply keepsOn_of)
    | split
    | dsimp only
    | intro _)

theorem State.dptPut_keeps_of {s0 t s : State} {q : Nat} {va : Nat} {e : Word}  {y0 : Status} (he : (State.dptPut s q va e) = (y0, t)) (hK : Keeps s0 s) : Keeps s0 t := by
  have hk := State.dptPut_keeps (s0 := s0) q va e hK
  rw [he] at hk
  exact hk

theorem State.dptSet_keeps {s0 s : State} (q : Nat) (a : Nat)  (hK : Keeps s0 s) : Keeps s0 (State.dptSet s q a).2 := by
  unfold State.dptSet
  repeat' (first
    | with_reducible (first | assumption | apply State.setPart_keeps | apply State.dptChanged_keeps)
    | (simp only [keeps_mk]; with_reducible apply keepsOn_of)
    | split
    | dsimp only
    | intro _)

theorem State.dptSet_keeps_of {s0 t s : State} {q : Nat} {a : Nat}  {y0 : Status} (he : (State.dptSet s q a) = (y0, t)) (hK : Keeps s0 s) : Keeps s0 t := by
  have hk := State.dptSet_keeps (s0 := s0) q a hK
  rw [he] at hk
  exact hk

theorem State.dptCmd_keeps {s0 s : State} (op : Nat) (q : Nat) (va : Word) (a : Word)  (hK : Keeps s0 s) : Keeps s0 (State.dptCmd s op q va a).2 := by
  unfold State.dptCmd
  repeat' (first
    | with_reducible (first | assumption | apply State.dptPut_keeps)
    | refine State.dptPut_keeps_of (by with_reducible assumption) ?_
    | split
    | dsimp only
    | intro _)

theorem State.dptCmd_keeps_of {s0 t s : State} {op : Nat} {q : Nat} {va : Word} {a : Word}  {y0 : Status} (he : (State.dptCmd s op q va a) = (y0, t)) (hK : Keeps s0 s) : Keeps s0 t := by
  have hk := State.dptCmd_keeps (s0 := s0) op q va a hK
  rw [he] at hk
  exact hk

theorem State.setBeat_keeps {s0 s : State} (opr : Bool) (v : Nat) (lim : Nat)  (hK : Keeps s0 s) : Keeps s0 (State.setBeat s opr v lim).2 := by
  unfold State.setBeat
  repeat' (first
    | with_reducible (first | assumption | apply State.setVi_keeps)
    | (simp only [keeps_mk]; with_reducible apply keepsOn_of)
    | split
    | dsimp only
    | intro _)

theorem State.setBeat_keeps_of {s0 t s : State} {opr : Bool} {v : Nat} {lim : Nat}  {y0 : Status} (he : (State.setBeat s opr v lim) = (y0, t)) (hK : Keeps s0 s) : Keeps s0 t := by
  have hk := State.setBeat_keeps (s0 := s0) opr v lim hK
  rw [he] at hk
  exact hk

theorem fwiRun_keeps {s0 s : State} (val : Word)  (hK : Keeps s0 s) : Keeps s0 (fwiRun val s) := by
  unfold fwiRun
  repeat' (first
    | with_reducible (first | assumption | apply State.cmdEnd_keeps | apply State.setUpdPhase_keeps | apply State.setBusy_keeps | apply State.viExport_keeps | apply State.viImport_keeps | apply State.dptSet_keeps | apply State.dptCmd_keeps | apply State.setBeat_keeps)
    | refine State.viExport_keeps_of (by with_reducible assumption) ?_
    | refine State.viImport_keeps_of (by with_reducible assumption) ?_
    | refine State.dptSet_keeps_of (by with_reducible assumption) ?_
    | refine State.dptCmd_keeps_of (by with_reducible assumption) ?_
    | refine State.setBeat_keeps_of (by with_reducible assumption) ?_
    | (simp only [keeps_mk]; with_reducible apply keepsOn_of)
    | split
    | dsimp only
    | intro _)

theorem State.coreCrash_keeps {s0 s : State} (n : Nat)  (hK : Keeps s0 s) : Keeps s0 (State.coreCrash s n) := by
  unfold State.coreCrash
  repeat' (first
    | with_reducible (first | assumption | apply State.setCore_keeps | apply State.setReg_keeps | apply State.setIntBit_keeps | apply State.count1_keeps | apply State.err_keeps)
    | (simp only [keeps_mk]; with_reducible apply keepsOn_of)
    | split
    | dsimp only
    | intro _)

theorem State.gateTaken_keeps {s0 s : State}   (hK : Keeps s0 s) : Keeps s0 (State.gateTaken s) := by
  unfold State.gateTaken
  repeat' (first
    | with_reducible (first | assumption | apply State.gatedTake_keeps | apply State.fwResume_keeps)
    | dsimp only
    | intro _)

theorem State.hold_keeps {s0 s : State} (c : Nat)  (hK : Keeps s0 s) : Keeps s0 (State.hold s c).2 := by
  unfold State.hold
  repeat' (first
    | with_reducible (first | assumption | apply State.count1_keeps | apply State.gateClose_keeps | apply State.setGate_keeps | apply State.clockMsg_keeps)
    | (simp only [keeps_mk]; with_reducible apply keepsOn_of)
    | split
    | dsimp only
    | intro _)

theorem State.hold_keeps_of {s0 t s : State} {c : Nat}  {y0 : Status} (he : (State.hold s c) = (y0, t)) (hK : Keeps s0 s) : Keeps s0 t := by
  have hk := State.hold_keeps (s0 := s0) c hK
  rw [he] at hk
  exact hk

theorem State.clkRelease_keeps {s0 s : State} (c : Nat)  (hK : Keeps s0 s) : Keeps s0 (State.clkRelease s c).2 := by
  unfold State.clkRelease
  repeat' (first
    | with_reducible (first | assumption | apply State.setGate_keeps | apply State.clockMsg_keeps | apply State.wakeCluster_keeps | apply State.gateTaken_keeps)
    | (simp only [keeps_mk]; with_reducible apply keepsOn_of)
    | split
    | dsimp only
    | intro _)

theorem State.clkRelease_keeps_of {s0 t s : State} {c : Nat}  {y0 : Status} (he : (State.clkRelease s c) = (y0, t)) (hK : Keeps s0 s) : Keeps s0 t := by
  have hk := State.clkRelease_keeps (s0 := s0) c hK
  rw [he] at hk
  exact hk

theorem clkRun_keeps {s0 s : State} (val : Word)  (hK : Keeps s0 s) : Keeps s0 (clkRun val s) := by
  unfold clkRun
  repeat' (first
    | with_reducible (first | assumption | apply State.hold_keeps | apply State.clkRelease_keeps | apply State.cmdEnd_keeps)
    | split
    | dsimp only
    | intro _)

end Sys2Proof.Machine
end

