-- ==== Sys2Proof/Laws/KeepsAccess.lean ====
section
/-! SUPPORT. What the operations of Machine/Access.lean leave as it was (Keeps). -/

set_option linter.unusedTactic false
set_option linter.unreachableTactic false
set_option linter.unusedVariables false
set_option linter.unusedSimpArgs false

namespace Sys2Proof.Machine

theorem State.runCmd_keeps {s0 s : State} (pg : Page) (val : Word)  (hK : Keeps s0 s) : Keeps s0 (State.runCmd s pg val) := by
  unfold State.runCmd
  repeat' (first
    | with_reducible (first | assumption | apply prtRun_keeps | apply vifRun_keeps | apply State.dlkRun_keeps | apply rngRun_keeps | apply mlrRun_keeps | apply rmaRun_keeps | apply pktRun_keeps | apply fwiRun_keeps | apply schRun_keeps | apply kvsRun_keeps | apply ckpRun_keeps | apply stoRun_keeps | apply cphRun_keeps | apply trsRun_keeps | apply clkRun_keeps | apply fltRun_keeps)
    | split
    | dsimp only
    | intro _)

theorem State.putCmd_keeps {s0 s : State} (pg : Page) (off : Nat) (val : Word)  (hK : Keeps s0 s) : Keeps s0 (State.putCmd s pg off val) := by
  unfold State.putCmd
  repeat' (first
    | with_reducible (first | assumption | apply State.dlkCmd_keeps | apply State.takeCmdAt_keeps | apply State.runCmd_keeps)
    | split
    | dsimp only
    | intro _)

theorem State.entryRelease_keeps {s0 s : State} (pg : Page)  (hK : Keeps s0 s) : Keeps s0 (State.entryRelease s pg) := by
  unfold State.entryRelease
  repeat' (first
    | with_reducible (first | assumption | apply State.setBusy_keeps | apply State.runCmd_keeps | apply State.inboundTake_keeps | refine keeps_foldl (fun _ _ _ => ?_) ?_)
    | (simp only [keeps_mk]; with_reducible apply keepsOn_of)
    | split
    | dsimp only
    | intro _)

theorem State.shadowSync_keeps {s0 s : State} (pg : Page)  (hK : Keeps s0 s) : Keeps s0 (State.shadowSync s pg) := by
  unfold State.shadowSync
  repeat' (first
    | with_reducible (first | assumption | apply State.refuse_keeps | apply State.setReg_keeps | refine keeps_foldl (fun _ _ _ => ?_) ?_)
    | split
    | dsimp only
    | intro _)

theorem State.ctrClear_keeps {s0 s : State} (pg : Page)  (hK : Keeps s0 s) : Keeps s0 (State.ctrClear s pg) := by
  unfold State.ctrClear
  repeat' (first
    | with_reducible (first | assumption | apply State.setReg_keeps | refine keeps_foldl (fun _ _ _ => ?_) ?_)
    | dsimp only
    | intro _)

theorem State.ctrlWritten_keeps {s0 s : State} (pg : Page) (v : Word)  (hK : Keeps s0 s) : Keeps s0 (State.ctrlWritten s pg v) := by
  unfold State.ctrlWritten
  repeat' (first
    | with_reducible (first | assumption | apply State.setReg_keeps | apply State.ctrClear_keeps | apply State.shadowSync_keeps)
    | split
    | dsimp only
    | intro _)

theorem State.swapReq_keeps {s0 s : State} (pg : Page) (v : Word)  (hK : Keeps s0 s) : Keeps s0 (State.swapReq s pg v) := by
  unfold State.swapReq
  repeat' (first
    | with_reducible (first | assumption | apply State.refuse_keeps | apply State.swapFlag_keeps | apply State.setReg_keeps | apply State.entryRelease_keeps)
    | split
    | dsimp only
    | intro _)

theorem State.irqAgain_keeps {s0 s : State} (pg : Page)  (hK : Keeps s0 s) : Keeps s0 (State.irqAgain s pg) := by
  unfold State.irqAgain
  repeat' (first
    | with_reducible (first | assumption | apply State.fieldIrq_keeps | apply State.sendPageIrq_keeps)
    | split
    | dsimp only
    | intro _)

theorem State.errClear_keeps {s0 s : State} (pg : Page) (v : Word)  (hK : Keeps s0 s) : Keeps s0 (State.errClear s pg v) := by
  unfold State.errClear
  repeat' (first
    | with_reducible (first | assumption | apply State.barrierSend_keeps | apply State.updDport_keeps | refine keeps_foldl (fun _ _ _ => ?_) ?_)
    | (simp only [keeps_mk]; with_reducible apply keepsOn_of)
    | split
    | dsimp only
    | intro _)

theorem State.errInject_keeps {s0 s : State} (pg : Page) (off : Nat) (v : Word)  (hK : Keeps s0 s) : Keeps s0 (State.errInject s pg off v) := by
  unfold State.errInject
  repeat' (first
    | with_reducible (first | assumption | apply State.refuse_keeps | apply State.errorPin_keeps | apply State.setReg_keeps | apply State.guaranteeFrom_keeps | refine keeps_foldl (fun _ _ _ => ?_) ?_)
    | split
    | dsimp only
    | intro _)

theorem State.shadowPut_keeps {s0 s : State} (pg : Page) (b : Nat) (v : Word) (m : Word)  (hK : Keeps s0 s) : Keeps s0 (State.shadowPut s pg b v m) := by
  unfold State.shadowPut
  repeat' (first
    | with_reducible (first | assumption | apply State.swapFlag_keeps | apply State.setReg_keeps)
    | split
    | dsimp only
    | intro _)

theorem State.directPut_keeps {s0 s : State} (pg : Page) (off : Nat) (d : RegDef) (v : Word) (m : Word)  (hK : Keeps s0 s) : Keeps s0 (State.directPut s pg off d v m) := by
  unfold State.directPut
  repeat' (first
    | with_reducible (first | assumption | apply State.setReg_keeps | apply State.putCmd_keeps | apply State.hlkRelease_keeps | apply State.dportRelease_keeps | apply State.handshake_keeps | apply State.opBeat_keeps | apply State.sevWrite_keeps)
    | (simp only [keeps_mk]; with_reducible apply keepsOn_of)
    | split
    | dsimp only
    | intro _)

theorem State.headPut_keeps {s0 s : State} (pg : Page) (off : Nat) (width : Nat) (v : Word) (m : Word)  (hK : Keeps s0 s) : Keeps s0 (State.headPut s pg off width v m) := by
  unfold State.headPut
  repeat' (first
    | with_reducible (first | assumption | apply State.ctrlWritten_keeps | apply State.setReg_keeps | apply State.swapReq_keeps | apply State.refuse_keeps | apply State.irqAgain_keeps | apply State.errClear_keeps | apply State.errInject_keeps)
    | split
    | dsimp only
    | intro _)

theorem State.emuPut_keeps {s0 s : State} (n : Nat) (b : Nat) (v : Word) (m : Word)  (hK : Keeps s0 s) : Keeps s0 (State.emuPut s n b v m) := by
  unfold State.emuPut
  repeat' (first
    | with_reducible (first | assumption | apply State.emuTake_keeps)
    | split
    | dsimp only
    | intro _)

theorem State.wordPut_keeps {s0 s : State} (pg : Page) (off : Nat) (width : Nat) (v : Word) (m : Word)  (hK : Keeps s0 s) : Keeps s0 (State.wordPut s pg off width v m) := by
  unfold State.wordPut
  repeat' (first
    | with_reducible (first | assumption | apply State.headPut_keeps | apply State.shadowPut_keeps | apply State.swapFlag_keeps | apply State.emuPut_keeps | apply State.directPut_keeps)
    | split
    | dsimp only
    | intro _)

theorem State.regPut_keeps {s0 s : State} (hostSide : Bool) (pg : Page) (off : Nat) (width : Nat) (val : Word)  (hK : Keeps s0 s) : Keeps s0 (State.regPut s hostSide pg off width val) := by
  unfold State.regPut
  repeat' (first
    | with_reducible (first | assumption | apply State.refuse_keeps | apply State.pageAccess_keeps | apply State.wordPut_keeps)
    | split
    | dsimp only
    | intro _)

theorem State.pagePut_keeps {s0 s : State} (pg : Page) (off : Nat) (width : Nat) (val : Word)  (hK : Keeps s0 s) : Keeps s0 (State.pagePut s pg off width val) := by
  unfold State.pagePut
  repeat' (first
    | with_reducible (first | assumption | apply State.barrierSend_keeps | apply State.regPut_keeps)
    | split
    | dsimp only
    | intro _)

theorem State.hostPageWrite_keeps {s0 s : State} (pg : Page) (off : Nat) (width : Nat) (val : Word)  (hK : Keeps s0 s) : Keeps s0 (State.hostPageWrite s pg off width val) := by
  unfold State.hostPageWrite
  repeat' (first
    | with_reducible (first | assumption | apply State.pageGate_keeps | apply State.pagePut_keeps)
    | dsimp only
    | intro _)

theorem State.coreUr_keeps {s0 s : State} (off : Nat) (width : Nat)  (hK : Keeps s0 s) : Keeps s0 (State.coreUr s off width) := by
  unfold State.coreUr
  repeat' (first
    | with_reducible (first | assumption | apply State.urLog_keeps)
    | split
    | dsimp only
    | intro _)

theorem State.corePageRead_keeps {s0 s : State} (n : Nat) (pg : Page) (off : Nat) (width : Nat)  (hK : Keeps s0 s) : Keeps s0 (State.corePageRead s n pg off width).2 := by
  unfold State.corePageRead
  repeat' (first
    | with_reducible (first | assumption | apply State.pageAccess_keeps | apply State.setCore_keeps | apply State.barrierSend_keeps)
    | (simp only [keeps_mk]; with_reducible apply keepsOn_of)
    | split
    | dsimp only
    | intro _)

theorem State.corePageRead_keeps_of {s0 t s : State} {n : Nat} {pg : Page} {off : Nat} {width : Nat}  {y0 : CoreRead} (he : (State.corePageRead s n pg off width) = (y0, t)) (hK : Keeps s0 s) : Keeps s0 t := by
  have hk := State.corePageRead_keeps (s0 := s0) n pg off width hK
  rw [he] at hk
  exact hk

theorem State.bar0Read_keeps {s0 s : State} (n : Nat) (off : Nat) (width : Nat)  (hK : Keeps s0 s) : Keeps s0 (State.bar0Read s n off width).2 := by
  unfold State.bar0Read
  repeat' (first
    | with_reducible (first | assumption | apply State.syncRead_keeps | apply State.err_keeps | apply State.syncBad_keeps | apply State.coreUr_keeps | apply State.corePageRead_keeps | apply State.doorbell_keeps)
    | refine State.syncRead_keeps_of (by with_reducible assumption) ?_
    | refine State.corePageRead_keeps_of (by with_reducible assumption) ?_
    | split
    | dsimp only
    | intro _)

theorem State.bar0Read_keeps_of {s0 t s : State} {n : Nat} {off : Nat} {width : Nat}  {y0 : CoreRead} (he : (State.bar0Read s n off width) = (y0, t)) (hK : Keeps s0 s) : Keeps s0 t := by
  have hk := State.bar0Read_keeps (s0 := s0) n off width hK
  rw [he] at hk
  exact hk

theorem State.bar0Write_keeps {s0 s : State} (off : Nat) (width : Nat) (val : Word)  (hK : Keeps s0 s) : Keeps s0 (State.bar0Write s off width val) := by
  unfold State.bar0Write
  repeat' (first
    | with_reducible (first | assumption | apply State.syncAct_keeps | apply State.err_keeps | apply State.syncBad_keeps | apply State.coreUr_keeps | apply State.pagePut_keeps | apply State.doorbell_keeps | apply State.doorbellAt_keeps)
    | split
    | dsimp only
    | intro _)

end Sys2Proof.Machine
end

