-- ==== Sys2Proof/Laws/KeepsSwap.lean ====
section
/-! SUPPORT. What the operations of Machine/Swap.lean leave as it was (Keeps). -/

set_option linter.unusedTactic false
set_option linter.unreachableTactic false
set_option linter.unusedVariables false
set_option linter.unusedSimpArgs false

namespace Sys2Proof.Machine

theorem State.swapPrev_keeps {s0 s : State} (pg : Page)  (hK : Keeps s0 s) : Keeps s0 (State.swapPrev s pg) := by
  unfold State.swapPrev
  repeat' (first
    | with_reducible (first | assumption | apply State.setReg_keeps | refine keeps_foldl (fun _ _ _ => ?_) ?_)
    | (simp only [keeps_mk]; with_reducible apply keepsOn_of)
    | split
    | dsimp only
    | intro _)

theorem State.swapCopy_keeps {s0 s : State} (pg : Page)  (hK : Keeps s0 s) : Keeps s0 (State.swapCopy s pg) := by
  unfold State.swapCopy
  repeat' (first
    | with_reducible (first | assumption | apply State.swapPrev_keeps | apply State.swapLive_keeps)
    | dsimp only
    | intro _)

theorem State.swapDlk_keeps {s0 s old : State} (n : Nat)  (hK : Keeps s0 s) (hKold : Keeps s0 old) : Keeps s0 (State.swapDlk s old n) := by
  unfold State.swapDlk
  repeat' (first
    | with_reducible (first | assumption | apply State.portGo_keeps | apply State.portDown_keeps)
    | split
    | dsimp only
    | intro _)

theorem State.swapPll_keeps {s0 s old : State} (n : Nat)  (hK : Keeps s0 s) (hKold : Keeps s0 old) : Keeps s0 (State.swapPll s old n) := by
  unfold State.swapPll
  repeat' (first
    | with_reducible (first | assumption | apply State.pllStop_keeps | apply State.pllStart_keeps | apply State.setPll_keeps | apply State.pllOffStop_keeps)
    | (simp only [keeps_mk]; with_reducible apply keepsOn_of)
    | split
    | dsimp only
    | intro _)

theorem State.swapMux_keeps {s0 s old : State} (d : Nat)  (hK : Keeps s0 s) (hKold : Keeps s0 old) : Keeps s0 (State.swapMux s old d) := by
  unfold State.swapMux
  repeat' (first
    | with_reducible (first | assumption | apply State.setMux_keeps | apply State.pllOffStop_keeps | apply State.muxStart_keeps)
    | (simp only [keeps_mk]; with_reducible apply keepsOn_of)
    | split
    | dsimp only
    | intro _)

theorem State.swapGate_keeps {s0 s : State} (c : Nat)  (hK : Keeps s0 s) : Keeps s0 (State.swapGate s c) := by
  unfold State.swapGate
  repeat' (first
    | with_reducible (first | assumption | apply State.setGate_keeps | apply State.wakeCluster_keeps)
    | (simp only [keeps_mk]; with_reducible apply keepsOn_of)
    | split
    | dsimp only
    | intro _)

theorem State.swapClk_keeps {s0 s old : State}   (hK : Keeps s0 s) (hKold : Keeps s0 old) : Keeps s0 (State.swapClk s old) := by
  unfold State.swapClk
  repeat' (first
    | with_reducible (first | assumption | apply State.swapPll_keeps | apply State.swapMux_keeps | apply State.swapGate_keeps | apply State.clockMsg_keeps | apply State.gateTaken_keeps | refine keeps_foldl (fun _ _ _ => ?_) ?_)
    | split
    | dsimp only
    | intro _)

theorem State.swapEffect_keeps {s0 s old : State} (pg : Page)  (hK : Keeps s0 s) (hKold : Keeps s0 old) : Keeps s0 (State.swapEffect s old pg) := by
  unfold State.swapEffect
  repeat' (first
    | with_reducible (first | assumption | apply State.swapSyn_keeps | apply State.swapDlk_keeps | apply State.swapEpt_keeps | apply State.floorsOver_keeps | apply State.swapClk_keeps)
    | split
    | dsimp only
    | intro _)

theorem State.swapApply_keeps {s0 s : State} (pg : Page)  (hK : Keeps s0 s) : Keeps s0 (State.swapApply s pg) := by
  unfold State.swapApply
  repeat' (first
    | with_reducible (first | assumption | apply State.refillAll_keeps | apply State.swapReject_keeps | apply State.entryRelease_keeps | apply State.swapCopy_keeps | apply State.swapEffect_keeps)
    | split
    | dsimp only
    | intro _)

end Sys2Proof.Machine
end

