-- ==== Sys2Proof/Laws/KeepsMessages.lean ====
section
/-! SUPPORT. What the operations of Machine/Messages.lean leave as it was (Keeps). -/

set_option linter.unusedTactic false
set_option linter.unreachableTactic false
set_option linter.unusedVariables false
set_option linter.unusedSimpArgs false

namespace Sys2Proof.Machine

theorem State.pageValue_keeps {s0 s : State} (a : Nat) (val : Word)  (hK : Keeps s0 s) : Keeps s0 (State.pageValue s a val) := by
  unfold State.pageValue
  repeat' (first
    | with_reducible (first | assumption | apply State.setCore_keeps | apply State.emit_keeps)
    | (simp only [keeps_mk]; with_reducible apply keepsOn_of)
    | split
    | dsimp only
    | intro _)

theorem State.answer_keeps {s0 s : State} (ok : Bool) (data : List Word)  (hK : Keeps s0 s) : Keeps s0 (State.answer s ok data) := by
  unfold State.answer
  repeat' (first
    | with_reducible (first | assumption | apply State.emit_keeps)
    | dsimp only
    | intro _)

theorem State.portAccess_keeps {s0 s : State} (acc : DbgAccess)  (hK : Keeps s0 s) : Keeps s0 (State.portAccess s acc) := by
  unfold State.portAccess
  repeat' (first
    | with_reducible (first | assumption | apply State.pageAccess_keeps | apply State.answer_keeps | apply State.regPut_keeps | apply State.flashWrite_keeps)
    | split
    | dsimp only
    | intro _)

theorem State.setHalted_keeps {s0 s : State} (n : Nat) (x : Bool)  (hK : Keeps s0 s) : Keeps s0 (State.setHalted s n x) := by
  unfold State.setHalted
  repeat' (first
    | with_reducible (first | assumption | apply State.setCore_keeps)
    | (simp only [keeps_mk]; with_reducible apply keepsOn_of)
    | dsimp only
    | intro _)

theorem State.dataResume_keeps {s0 s : State}   (hK : Keeps s0 s) : Keeps s0 (State.dataResume s) := by
  unfold State.dataResume
  repeat' (first
    | with_reducible (first | assumption | apply State.entryRelease_keeps | apply State.inboundTake_keeps | apply State.flushIrq_keeps | apply State.fwResume_keeps | refine keeps_foldl (fun _ _ _ => ?_) ?_)
    | split
    | dsimp only
    | intro _)

end Sys2Proof.Machine
end

