-- ==== Sys2Proof/Laws/KeepsZarn.lean ====
section
/-! SUPPORT. What the operations of Machine/Zarn.lean leave as it was (Keeps). -/

set_option linter.unusedTactic false
set_option linter.unreachableTactic false
set_option linter.unusedVariables false
set_option linter.unusedSimpArgs false

namespace Sys2Proof.Machine

theorem State.setGr_keeps {s0 s : State} (n : Nat) (i : Nat) (v : Word)  (hK : Keeps s0 s) : Keeps s0 (State.setGr s n i v) := by
  unfold State.setGr
  repeat' (first
    | with_reducible (first | assumption | apply State.setCore_keeps)
    | (simp only [keeps_mk]; with_reducible apply keepsOn_of)
    | split
    | dsimp only
    | intro _)

theorem State.setFr_keeps {s0 s : State} (n : Nat) (i : Nat) (v : Word)  (hK : Keeps s0 s) : Keeps s0 (State.setFr s n i v) := by
  unfold State.setFr
  repeat' (first
    | with_reducible (first | assumption | apply State.setCore_keeps)
    | (simp only [keeps_mk]; with_reducible apply keepsOn_of)
    | dsimp only
    | intro _)

theorem State.setPc_keeps {s0 s : State} (n : Nat) (v : Word)  (hK : Keeps s0 s) : Keeps s0 (State.setPc s n v) := by
  unfold State.setPc
  repeat' (first
    | with_reducible (first | assumption | apply State.setCore_keeps)
    | (simp only [keeps_mk]; with_reducible apply keepsOn_of)
    | dsimp only
    | intro _)

theorem State.setSysRaw_keeps {s0 s : State} (n : Nat) (k : Nat) (v : Word)  (hK : Keeps s0 s) : Keeps s0 (State.setSysRaw s n k v) := by
  unfold State.setSysRaw
  repeat' (first
    | with_reducible (first | assumption | apply State.setCore_keeps)
    | (simp only [keeps_mk]; with_reducible apply keepsOn_of)
    | dsimp only
    | intro _)

theorem State.countCore_keeps {s0 s : State} (n : Nat) (l : Level) (code : Nat) (k : Nat)  (hK : Keeps s0 s) : Keeps s0 (State.countCore s n l code k) := by
  unfold State.countCore
  repeat' (first
    | with_reducible (first | assumption | apply State.counterAdd_keeps | refine keeps_foldl (fun _ _ _ => ?_) ?_)
    | split
    | dsimp only
    | intro _)

theorem State.retire_keeps {s0 s : State} (n : Nat) (l : Level) (slots : Nat)  (hK : Keeps s0 s) : Keeps s0 (State.retire s n l slots) := by
  unfold State.retire
  repeat' (first
    | with_reducible (first | assumption | apply State.setSysRaw_keeps | apply State.countCore_keeps)
    | dsimp only
    | intro _)

theorem State.sysPut_keeps {s0 s : State} (n : Nat) (k : Nat) (v : Word)  (hK : Keeps s0 s) : Keeps s0 (State.sysPut s n k v) := by
  unfold State.sysPut
  repeat' (first
    | with_reducible (first | assumption | apply State.setCore_keeps | apply State.setReg_keeps | apply State.setSysRaw_keeps)
    | (simp only [keeps_mk]; with_reducible apply keepsOn_of)
    | split
    | dsimp only
    | intro _)

theorem State.enter_keeps {s0 s : State} (n : Nat) (atK : Bool) (irq : Bool) (cause : Nat) (info : Word)  (hK : Keeps s0 s) : Keeps s0 (State.enter s n atK irq cause info) := by
  unfold State.enter
  repeat' (first
    | with_reducible (first | assumption | apply State.countCore_keeps | apply State.setSysRaw_keeps | apply State.setCore_keeps | apply State.idle_keeps)
    | (simp only [keeps_mk]; with_reducible apply keepsOn_of)
    | split
    | dsimp only
    | intro _)

theorem State.trapTake_keeps {s0 s : State} (n : Nat) (t : Trap)  (hK : Keeps s0 s) : Keeps s0 (State.trapTake s n t) := by
  unfold State.trapTake
  repeat' (first
    | with_reducible (first | assumption | apply State.enter_keeps)
    | dsimp only
    | intro _)

theorem State.irqTake_keeps {s0 s : State} (n : Nat) (c : Nat)  (hK : Keeps s0 s) : Keeps s0 (State.irqTake s n c) := by
  unfold State.irqTake
  repeat' (first
    | with_reducible (first | assumption | apply State.enter_keeps)
    | dsimp only
    | intro _)

theorem State.walkFor_keeps {s0 t s : State} {n : Nat} {a : Acc} {va : Word}  {y0 : Nat} (he : (State.walkFor s n a va) = .ok (y0, t)) (hK : Keeps s0 s) : Keeps s0 t := by
  unfold State.walkFor at he
  try dsimp only at he
  repeat' split at he
  all_goals first | contradiction | (cases he; done) | skip
  all_goals (first | (cases he) | skip)
  all_goals (repeat' (first
    | with_reducible (first | assumption | apply State.store_keeps | apply State.setWord_keeps | apply State.setCore_keeps | apply State.countCore_keeps)
    | (simp only [keeps_mk]; with_reducible apply keepsOn_of)
    | split
    | dsimp only
    | intro _))

theorem State.walkFor_keeps_p {s0 s : State} {zz : Nat × State} {n : Nat} {a : Acc} {va : Word}  (he : (State.walkFor s n a va) = .ok zz) (hK : Keeps s0 s) : Keeps s0 zz.2 := by
  obtain ⟨y0, t⟩ := zz
  exact State.walkFor_keeps  he hK

theorem State.vmap_keeps {s0 t s : State} {n : Nat} {a : Acc} {va : Word}  {y0 : Nat} (he : (State.vmap s n a va) = .ok (y0, t)) (hK : Keeps s0 s) : Keeps s0 t := by
  unfold State.vmap at he
  try dsimp only at he
  repeat' split at he
  all_goals first | contradiction | (cases he; done) | skip
  all_goals (first | (cases he) | skip)
  all_goals (repeat' (first
    | with_reducible (first | assumption)
    | refine State.walkFor_keeps (by with_reducible assumption) ?_
    | refine State.walkFor_keeps_p (by with_reducible assumption) ?_
    | split
    | dsimp only
    | intro _))

theorem State.vmap_keeps_p {s0 s : State} {zz : Nat × State} {n : Nat} {a : Acc} {va : Word}  (he : (State.vmap s n a va) = .ok zz) (hK : Keeps s0 s) : Keeps s0 zz.2 := by
  obtain ⟨y0, t⟩ := zz
  exact State.vmap_keeps  he hK

theorem State.setTcm_keeps {s0 s : State} (n : Nat) (off : Nat) (bs : List Byte)  (hK : Keeps s0 s) : Keeps s0 (State.setTcm s n off bs) := by
  induction bs generalizing s n off with
  | nil =>
    unfold State.setTcm
    try dsimp only
    repeat' (first
      | with_reducible (first | assumption | apply State.setCore_keeps)
      | (simp only [keeps_mk]; with_reducible apply keepsOn_of)
      | split
      | dsimp only
      | intro _)
  | cons x r ih =>
    unfold State.setTcm
    try dsimp only
    repeat' (first
      | with_reducible (first | assumption | apply ih | apply State.setCore_keeps)
      | (simp only [keeps_mk]; with_reducible apply keepsOn_of)
      | split
      | dsimp only
      | intro _)

theorem State.fetchHalf_keeps {s0 t s : State} {n : Nat} {va : Word}   (he : (State.fetchHalf s n va) = .ok t) (hK : Keeps s0 s) : Keeps s0 t := by
  unfold State.fetchHalf at he
  try dsimp only at he
  repeat' split at he
  all_goals (first | (injection he with he; subst he) | (injection he; done) | skip)
  all_goals (repeat' (first
    | with_reducible (first | assumption)
    | refine State.vmap_keeps (by with_reducible assumption) ?_
    | refine State.vmap_keeps_p (by with_reducible assumption) ?_
    | refine State.fetch_keeps (by with_reducible assumption) ?_
    | split
    | dsimp only
    | intro _))

theorem State.ifetch_keeps {s0 t s : State} {n : Nat} {len : Nat}   (he : (State.ifetch s n len) = .ok t) (hK : Keeps s0 s) : Keeps s0 t := by
  unfold State.ifetch at he
  try dsimp only at he
  repeat' split at he
  all_goals (first | (injection he with he; subst he) | (injection he; done) | skip)
  all_goals (repeat' (first
    | with_reducible (first | assumption)
    | refine State.fetchHalf_keeps (by with_reducible assumption) ?_
    | (simp only [keeps_mk]; with_reducible apply keepsOn_of)
    | split
    | dsimp only
    | intro _))

theorem State.dataLoad_keeps {s0 t s : State} {n : Nat} {va : Word} {size : Nat}  {y0 : Word} (he : (State.dataLoad s n va size) = .ok (y0, t)) (hK : Keeps s0 s) : Keeps s0 t := by
  unfold State.dataLoad at he
  try dsimp only at he
  repeat' split at he
  all_goals first | contradiction | (cases he; done) | skip
  all_goals (first | (cases he) | skip)
  all_goals (repeat' (first
    | with_reducible (first | assumption | apply State.bar0Read_keeps)
    | refine State.vmap_keeps (by with_reducible assumption) ?_
    | refine State.vmap_keeps_p (by with_reducible assumption) ?_
    | refine State.load_keeps (by with_reducible assumption) ?_
    | refine State.bar0Read_keeps_of (by with_reducible assumption) ?_
    | (simp only [keeps_mk]; with_reducible apply keepsOn_of)
    | split
    | dsimp only
    | intro _))

theorem State.dataLoad_keeps_p {s0 s : State} {zz : Word × State} {n : Nat} {va : Word} {size : Nat}  (he : (State.dataLoad s n va size) = .ok zz) (hK : Keeps s0 s) : Keeps s0 zz.2 := by
  obtain ⟨y0, t⟩ := zz
  exact State.dataLoad_keeps  he hK

theorem State.dataStore_keeps {s0 t s : State} {n : Nat} {va : Word} {size : Nat} {v : Word}   (he : (State.dataStore s n va size v) = .ok t) (hK : Keeps s0 s) : Keeps s0 t := by
  unfold State.dataStore at he
  try dsimp only at he
  repeat' split at he
  all_goals (first | (injection he with he; subst he) | (injection he; done) | skip)
  all_goals (repeat' (first
    | with_reducible (first | assumption | apply State.store_keeps | apply State.setBytes_keeps | apply State.setTcm_keeps | apply State.bar0Write_keeps)
    | refine State.vmap_keeps (by with_reducible assumption) ?_
    | refine State.vmap_keeps_p (by with_reducible assumption) ?_
    | split
    | dsimp only
    | intro _))

theorem State.dataRmw_keeps {s0 t s : State} {n : Nat} {va : Word} {size : Nat} {f : Nat → Nat}  {y0 : Nat} (he : (State.dataRmw s n va size f) = .ok (y0, t)) (hK : Keeps s0 s) : Keeps s0 t := by
  unfold State.dataRmw at he
  try dsimp only at he
  repeat' split at he
  all_goals first | contradiction | (cases he; done) | skip
  all_goals (first | (cases he) | skip)
  all_goals (repeat' (first
    | with_reducible (first | assumption | apply State.store_keeps | apply State.setBytes_keeps | apply State.setTcm_keeps)
    | refine State.vmap_keeps (by with_reducible assumption) ?_
    | refine State.vmap_keeps_p (by with_reducible assumption) ?_
    | refine State.load_keeps (by with_reducible assumption) ?_
    | split
    | dsimp only
    | intro _))

theorem State.dataRmw_keeps_p {s0 s : State} {zz : Nat × State} {n : Nat} {va : Word} {size : Nat} {f : Nat → Nat}  (he : (State.dataRmw s n va size f) = .ok zz) (hK : Keeps s0 s) : Keeps s0 zz.2 := by
  obtain ⟨y0, t⟩ := zz
  exact State.dataRmw_keeps  he hK

theorem State.pageDrop_keeps {s0 s : State} (n : Nat)  (hK : Keeps s0 s) : Keeps s0 (State.pageDrop s n) := by
  unfold State.pageDrop
  repeat' (first
    | with_reducible (first | assumption | apply State.setCore_keeps)
    | (simp only [keeps_mk]; with_reducible apply keepsOn_of)
    | dsimp only
    | intro _)

theorem State.coreStall_keeps {s0 s before : State} (n : Nat)  (hK : Keeps s0 s) (hKbefore : Keeps s0 before) : Keeps s0 (State.coreStall s before n) := by
  unfold State.coreStall
  repeat' (first
    | with_reducible (first | assumption | apply State.setCore_keeps)
    | (simp only [keeps_mk]; with_reducible apply keepsOn_of)
    | dsimp only
    | intro _)

theorem State.runInsn_keeps {s0 s : State} (n : Nat) (len : Nat) (word : Word) (legal : Bool) (op : State → Res) (hop : ∀ a0 u, Keeps s0 a0 → op a0 = .ok u → Keeps s0 u) (hK : Keeps s0 s) : Keeps s0 (State.runInsn s n len word legal op) := by
  unfold State.runInsn
  repeat' (first
    | with_reducible (first | assumption | apply State.pageDrop_keeps | apply State.trapTake_keeps | apply State.setPc_keeps | apply State.coreStall_keeps | apply State.retire_keeps)
    | refine hop _ _ ?_ (by with_reducible assumption)
    | refine State.ifetch_keeps (by with_reducible assumption) ?_
    | split
    | dsimp only
    | intro _)

theorem State.zarn_keeps {s0 t s : State} {n : Nat} {f : State → State} (hf : ∀ a0, Keeps s0 a0 → Keeps s0 (f a0)) (he : (State.zarn s n f) = .next t) (hK : Keeps s0 s) : Keeps s0 t := by
  unfold State.zarn at he
  try dsimp only at he
  (repeat' split at he)
  all_goals (try (cases he))
  all_goals (repeat' (first
    | with_reducible (first | assumption | apply State.idle_keeps | apply State.setCore_keeps)
    | apply hf
    | (simp only [keeps_mk]; with_reducible apply keepsOn_of)
    | split
    | dsimp only
    | intro _))

theorem State.zarn32_keeps {s0 t s : State} {n : Nat} {w : Nat} {op : State → Res} (hop : ∀ a0 u, Keeps s0 a0 → op a0 = .ok u → Keeps s0 u) (he : (State.zarn32 s n w op) = .next t) (hK : Keeps s0 s) : Keeps s0 t := by
  unfold State.zarn32 at he
  refine State.zarn_keeps ?_ he ?_
  all_goals (try dsimp only)
  all_goals (try intros)
  all_goals (try (rename_i hx; (repeat' split at hx) <;> first | contradiction | (injection hx with hx; subst hx)))
  all_goals (repeat' (first
    | with_reducible (first | assumption | apply State.runInsn_keeps)
    | refine hop _ _ ?_ (by with_reducible assumption)
    | dsimp only
    | intro _))

theorem State.zarn16_keeps {s0 t s : State} {n : Nat} {w : Nat} {legal : Bool} {op : State → Res} (hop : ∀ a0 u, Keeps s0 a0 → op a0 = .ok u → Keeps s0 u) (he : (State.zarn16 s n w legal op) = .next t) (hK : Keeps s0 s) : Keeps s0 t := by
  unfold State.zarn16 at he
  refine State.zarn_keeps ?_ he ?_
  all_goals (try dsimp only)
  all_goals (try intros)
  all_goals (try (rename_i hx; (repeat' split at hx) <;> first | contradiction | (injection hx with hx; subst hx)))
  all_goals (repeat' (first
    | with_reducible (first | assumption | apply State.runInsn_keeps)
    | refine hop _ _ ?_ (by with_reducible assumption)
    | dsimp only
    | intro _))

end Sys2Proof.Machine
end

