-- ==== Sys2Proof/Laws/KeepsZarnOps.lean ====
section
/-! SUPPORT. What the operations of Machine/ZarnOps.lean leave as it was (Keeps). -/

set_option linter.unusedTactic false
set_option linter.unreachableTactic false
set_option linter.unusedVariables false
set_option linter.unusedSimpArgs false

namespace Sys2Proof.Machine

theorem State.setFlg_keeps {s0 s : State} (n : Nat) (f : Word)  (hK : Keeps s0 s) : Keeps s0 (State.setFlg s n f) := by
  unfold State.setFlg
  repeat' (first
    | with_reducible (first | assumption | apply State.setSysRaw_keeps)
    | dsimp only
    | intro _)

theorem State.intOp_keeps {s0 s : State} (n : Nat) (f4 : Nat) (w : Nat) (rd : Nat) (a : Word) (b : Word)  (hK : Keeps s0 s) : Keeps s0 (State.intOp s n f4 w rd a b) := by
  unfold State.intOp
  repeat' (first
    | with_reducible (first | assumption | apply State.setGr_keeps | apply State.setFlg_keeps)
    | split
    | dsimp only
    | intro _)

theorem State.intReg_keeps {s0 s : State} (n : Nat) (f4 : Nat) (rd : Nat) (rs1 : Nat) (rs2 : Nat) (f6 : Nat)  (hK : Keeps s0 s) : Keeps s0 (State.intReg s n f4 rd rs1 rs2 f6) := by
  unfold State.intReg
  repeat' (first
    | with_reducible (first | assumption | apply State.intOp_keeps)
    | dsimp only
    | intro _)

theorem State.intImm_keeps {s0 s : State} (n : Nat) (f4 : Nat) (rd : Nat) (rs1 : Nat) (imm : Nat)  (hK : Keeps s0 s) : Keeps s0 (State.intImm s n f4 rd rs1 imm) := by
  unfold State.intImm
  repeat' (first
    | with_reducible (first | assumption | apply State.intOp_keeps)
    | dsimp only
    | intro _)

theorem State.mulDiv_keeps {s0 t s : State} {n : Nat} {f4 : Nat} {rd : Nat} {rs1 : Nat} {rs2 : Nat} {f6 : Nat}   (he : (State.mulDiv s n f4 rd rs1 rs2 f6) = .ok t) (hK : Keeps s0 s) : Keeps s0 t := by
  unfold State.mulDiv at he
  try dsimp only at he
  repeat' split at he
  all_goals (first | (injection he with he; subst he) | (injection he; done) | skip)
  all_goals (repeat' (first
    | with_reducible (first | assumption | apply State.setGr_keeps | apply State.setFlg_keeps)
    | split
    | dsimp only
    | intro _))

theorem State.load_keeps {s0 t s : State} {n : Nat} {f4 : Nat} {rd : Nat} {rs1 : Nat} {imm : Nat}   (he : (State.load s n f4 rd rs1 imm) = .ok t) (hK : Keeps s0 s) : Keeps s0 t := by
  unfold State.load at he
  try dsimp only at he
  repeat' split at he
  all_goals (first | (injection he with he; subst he) | (injection he; done) | skip)
  all_goals (repeat' (first
    | with_reducible (first | assumption | apply State.setGr_keeps)
    | refine State.dataLoad_keeps (by with_reducible assumption) ?_
    | refine State.dataLoad_keeps_p (by with_reducible assumption) ?_
    | split
    | dsimp only
    | intro _))

theorem State.storeG_keeps {s0 t s : State} {n : Nat} {f4 : Nat} {rs2 : Nat} {rs1 : Nat} {imm : Nat}   (he : (State.storeG s n f4 rs2 rs1 imm) = .ok t) (hK : Keeps s0 s) : Keeps s0 t := by
  unfold State.storeG at he
  try dsimp only at he
  repeat' split at he
  all_goals (first | (injection he with he; subst he) | (injection he; done) | skip)
  all_goals (repeat' (first
    | with_reducible (first | assumption)
    | refine State.dataStore_keeps (by with_reducible assumption) ?_
    | dsimp only
    | intro _))

theorem State.loadF_keeps {s0 t s : State} {n : Nat} {f4 : Nat} {rd : Nat} {rs1 : Nat} {imm : Nat}   (he : (State.loadF s n f4 rd rs1 imm) = .ok t) (hK : Keeps s0 s) : Keeps s0 t := by
  unfold State.loadF at he
  try dsimp only at he
  repeat' split at he
  all_goals (first | (injection he with he; subst he) | (injection he; done) | skip)
  all_goals (repeat' (first
    | with_reducible (first | assumption | apply State.setFr_keeps)
    | refine State.dataLoad_keeps (by with_reducible assumption) ?_
    | refine State.dataLoad_keeps_p (by with_reducible assumption) ?_
    | split
    | dsimp only
    | intro _))

theorem State.storeF_keeps {s0 t s : State} {n : Nat} {f4 : Nat} {rs2 : Nat} {rs1 : Nat} {imm : Nat}   (he : (State.storeF s n f4 rs2 rs1 imm) = .ok t) (hK : Keeps s0 s) : Keeps s0 t := by
  unfold State.storeF at he
  try dsimp only at he
  repeat' split at he
  all_goals (first | (injection he with he; subst he) | (injection he; done) | skip)
  all_goals (repeat' (first
    | with_reducible (first | assumption)
    | refine State.dataStore_keeps (by with_reducible assumption) ?_
    | split
    | dsimp only
    | intro _))

theorem State.rmw_keeps {s0 t s : State} {n : Nat} {f4 : Nat} {rd : Nat} {rs1 : Nat} {rs2 : Nat} {f6 : Nat}   (he : (State.rmw s n f4 rd rs1 rs2 f6) = .ok t) (hK : Keeps s0 s) : Keeps s0 t := by
  unfold State.rmw at he
  try dsimp only at he
  repeat' split at he
  all_goals (first | (injection he with he; subst he) | (injection he; done) | skip)
  all_goals (repeat' (first
    | with_reducible (first | assumption | apply State.setGr_keeps | apply State.setFlg_keeps)
    | refine State.dataRmw_keeps (by with_reducible assumption) ?_
    | refine State.dataRmw_keeps_p (by with_reducible assumption) ?_
    | split
    | dsimp only
    | intro _))

theorem State.branch_keeps {s0 s : State} (n : Nat) (cond : Nat) (imm : Nat) (pc : Word)  (hK : Keeps s0 s) : Keeps s0 (State.branch s n cond imm pc) := by
  unfold State.branch
  repeat' (first
    | with_reducible (first | assumption | apply State.setPc_keeps)
    | split
    | dsimp only
    | intro _)

theorem State.jmpl_keeps {s0 s : State} (n : Nat) (rd : Nat) (imm : Nat) (pc : Word)  (hK : Keeps s0 s) : Keeps s0 (State.jmpl s n rd imm pc) := by
  unfold State.jmpl
  repeat' (first
    | with_reducible (first | assumption | apply State.setGr_keeps | apply State.setPc_keeps)
    | dsimp only
    | intro _)

theorem State.jmplr_keeps {s0 s : State} (n : Nat) (rd : Nat) (rs1 : Nat) (imm : Nat) (pc : Word)  (hK : Keeps s0 s) : Keeps s0 (State.jmplr s n rd rs1 imm pc) := by
  unfold State.jmplr
  repeat' (first
    | with_reducible (first | assumption | apply State.setGr_keeps | apply State.setPc_keeps)
    | dsimp only
    | intro _)

theorem State.dbnz_keeps {s0 s : State} (n : Nat) (r : Nat) (target : Word)  (hK : Keeps s0 s) : Keeps s0 (State.dbnz s n r target) := by
  unfold State.dbnz
  repeat' (first
    | with_reducible (first | assumption | apply State.setGr_keeps | apply State.setPc_keeps)
    | split
    | dsimp only
    | intro _)

theorem State.pcoff_keeps {s0 s : State} (n : Nat) (rd : Nat) (imm : Nat) (pc : Word)  (hK : Keeps s0 s) : Keeps s0 (State.pcoff s n rd imm pc) := by
  unfold State.pcoff
  repeat' (first
    | with_reducible (first | assumption | apply State.setGr_keeps)
    | dsimp only
    | intro _)

theorem State.plConst_keeps {s0 s : State} (n : Nat) (rd : Nat) (hw : Nat) (f2 : Nat) (imm : Nat)  (hK : Keeps s0 s) : Keeps s0 (State.plConst s n rd hw f2 imm) := by
  unfold State.plConst
  repeat' (first
    | with_reducible (first | assumption | apply State.setGr_keeps)
    | split
    | dsimp only
    | intro _)

theorem State.sysOp_keeps {s0 t s : State} {n : Nat} {f4 : Nat} {rd : Nat} {rs1 : Nat} {k : Nat} {word : Word}   (he : (State.sysOp s n f4 rd rs1 k word) = .ok t) (hK : Keeps s0 s) : Keeps s0 t := by
  unfold State.sysOp at he
  try dsimp only at he
  repeat' split at he
  all_goals (first | (injection he with he; subst he) | (injection he; done) | skip)
  all_goals (repeat' (first
    | with_reducible (first | assumption | apply State.sysPut_keeps | apply State.setGr_keeps)
    | split
    | dsimp only
    | intro _))

theorem State.mbar_keeps {s0 s : State} (n : Nat) (imm : Nat)  (hK : Keeps s0 s) : Keeps s0 (State.mbar s n imm) := by
  unfold State.mbar
  repeat' (first
    | with_reducible (first | assumption | apply State.setCore_keeps)
    | (simp only [keeps_mk]; with_reducible apply keepsOn_of)
    | dsimp only
    | intro _)

theorem State.idle_keeps {s0 s : State} (n : Nat)  (hK : Keeps s0 s) : Keeps s0 (State.idle s n) := by
  unfold State.idle
  repeat' (first
    | with_reducible (first | assumption | apply State.setCore_keeps)
    | (simp only [keeps_mk]; with_reducible apply keepsOn_of)
    | split
    | dsimp only
    | intro _)

theorem State.lret_keeps {s0 t s : State} {n : Nat} {word : Word}   (he : (State.lret s n word) = .ok t) (hK : Keeps s0 s) : Keeps s0 t := by
  unfold State.lret at he
  try dsimp only at he
  repeat' split at he
  all_goals (first | (injection he with he; subst he) | (injection he; done) | skip)
  all_goals (repeat' (first
    | with_reducible (first | assumption | apply State.setSysRaw_keeps | apply State.setCore_keeps)
    | (simp only [keeps_mk]; with_reducible apply keepsOn_of)
    | split
    | dsimp only
    | intro _))

theorem State.udl_keeps {s0 t s : State} {n : Nat} {rd : Nat} {rs1 : Nat} {word : Word}   (he : (State.udl s n rd rs1 word) = .ok t) (hK : Keeps s0 s) : Keeps s0 t := by
  unfold State.udl at he
  try dsimp only at he
  repeat' split at he
  all_goals (first | (injection he with he; subst he) | (injection he; done) | skip)
  all_goals (repeat' (first
    | with_reducible (first | assumption | apply State.setCore_keeps | apply State.setGr_keeps)
    | (simp only [keeps_mk]; with_reducible apply keepsOn_of)
    | split
    | dsimp only
    | intro _))

theorem State.raise_keeps {s0 s : State} (n : Nat) (f : FFlags)  (hK : Keeps s0 s) : Keeps s0 (State.raise s n f) := by
  unfold State.raise
  repeat' (first
    | with_reducible (first | assumption | apply State.setSysRaw_keeps)
    | split
    | dsimp only
    | intro _)

theorem State.withRnd_keeps {s0 t s : State} {n : Nat} {word : Word} {f : Round → State} (hf : ∀ a0, Keeps s0 (f a0))  (he : (State.withRnd s n word f) = .ok t) (hK : Keeps s0 s) : Keeps s0 t := by
  unfold State.withRnd at he
  try dsimp only at he
  repeat' split at he
  all_goals (first | (injection he with he; subst he) | (injection he; done) | skip)
  all_goals (repeat' (first
    | with_reducible (first | assumption)
    | apply hf
    | split
    | dsimp only
    | intro _))

theorem State.fArithOp_keeps {s0 t s : State} {n : Nat} {f4 : Nat} {rd : Nat} {rs1 : Nat} {rs2 : Nat} {p : Bool} {word : Word}   (he : (State.fArithOp s n f4 rd rs1 rs2 p word) = .ok t) (hK : Keeps s0 s) : Keeps s0 t := by
  unfold State.fArithOp at he
  try dsimp only at he
  repeat' split at he
  all_goals (first | (injection he with he; subst he) | (injection he; done) | skip)
  all_goals (repeat' (first
    | with_reducible (first | assumption | apply State.setFr_keeps | apply State.raise_keeps)
    | refine State.withRnd_keeps ?_ (by with_reducible assumption) ?_
    | dsimp only
    | intro _))

theorem State.fSqrtOp_keeps {s0 t s : State} {n : Nat} {rd : Nat} {rs1 : Nat} {p : Bool} {word : Word}   (he : (State.fSqrtOp s n rd rs1 p word) = .ok t) (hK : Keeps s0 s) : Keeps s0 t := by
  unfold State.fSqrtOp at he
  try dsimp only at he
  repeat' split at he
  all_goals (first | (injection he with he; subst he) | (injection he; done) | skip)
  all_goals (repeat' (first
    | with_reducible (first | assumption | apply State.setFr_keeps | apply State.raise_keeps)
    | refine State.withRnd_keeps ?_ (by with_reducible assumption) ?_
    | dsimp only
    | intro _))

theorem State.fPickOp_keeps {s0 s : State} (n : Nat) (rd : Nat) (rs1 : Nat) (rs2 : Nat) (p : Bool) (mx : Bool)  (hK : Keeps s0 s) : Keeps s0 (State.fPickOp s n rd rs1 rs2 p mx) := by
  unfold State.fPickOp
  repeat' (first
    | with_reducible (first | assumption | apply State.setFr_keeps | apply State.raise_keeps)
    | dsimp only
    | intro _)

theorem State.fSignOp_keeps {s0 s : State} (n : Nat) (rd : Nat) (rs1 : Nat) (rs2 : Nat) (p : Bool) (kind : Nat)  (hK : Keeps s0 s) : Keeps s0 (State.fSignOp s n rd rs1 rs2 p kind) := by
  unfold State.fSignOp
  repeat' (first
    | with_reducible (first | assumption | apply State.setFr_keeps)
    | split
    | dsimp only
    | intro _)

theorem State.fCmpOp_keeps {s0 s : State} (n : Nat) (rs1 : Nat) (rs2 : Nat) (p : Bool)  (hK : Keeps s0 s) : Keeps s0 (State.fCmpOp s n rs1 rs2 p) := by
  unfold State.fCmpOp
  repeat' (first
    | with_reducible (first | assumption | apply State.setFlg_keeps | apply State.raise_keeps)
    | dsimp only
    | intro _)

theorem State.fCnvP_keeps {s0 t s : State} {n : Nat} {rd : Nat} {rs1 : Nat} {p : Bool} {word : Word}   (he : (State.fCnvP s n rd rs1 p word) = .ok t) (hK : Keeps s0 s) : Keeps s0 t := by
  unfold State.fCnvP at he
  try dsimp only at he
  repeat' split at he
  all_goals (first | (injection he with he; subst he) | (injection he; done) | skip)
  all_goals (repeat' (first
    | with_reducible (first | assumption | apply State.setFr_keeps | apply State.raise_keeps)
    | refine State.withRnd_keeps ?_ (by with_reducible assumption) ?_
    | split
    | dsimp only
    | intro _))

theorem State.fCnvTi_keeps {s0 t s : State} {n : Nat} {rd : Nat} {rs1 : Nat} {f6 : Nat} {word : Word}   (he : (State.fCnvTi s n rd rs1 f6 word) = .ok t) (hK : Keeps s0 s) : Keeps s0 t := by
  unfold State.fCnvTi at he
  try dsimp only at he
  repeat' split at he
  all_goals (first | (injection he with he; subst he) | (injection he; done) | skip)
  all_goals (repeat' (first
    | with_reducible (first | assumption | apply State.setGr_keeps | apply State.raise_keeps | apply State.zero_keeps)
    | refine State.withRnd_keeps ?_ (by with_reducible assumption) ?_
    | split
    | dsimp only
    | intro _))

theorem State.fCnvFi_keeps {s0 t s : State} {n : Nat} {rd : Nat} {rs1 : Nat} {f6 : Nat} {word : Word}   (he : (State.fCnvFi s n rd rs1 f6 word) = .ok t) (hK : Keeps s0 s) : Keeps s0 t := by
  unfold State.fCnvFi at he
  try dsimp only at he
  repeat' split at he
  all_goals (first | (injection he with he; subst he) | (injection he; done) | skip)
  all_goals (repeat' (first
    | with_reducible (first | assumption | apply State.setFr_keeps | apply State.raise_keeps)
    | refine State.withRnd_keeps ?_ (by with_reducible assumption) ?_
    | split
    | dsimp only
    | intro _))

theorem State.fBitsG_keeps {s0 s : State} (n : Nat) (rd : Nat) (rs1 : Nat) (p : Bool)  (hK : Keeps s0 s) : Keeps s0 (State.fBitsG s n rd rs1 p) := by
  unfold State.fBitsG
  repeat' (first
    | with_reducible (first | assumption | apply State.setGr_keeps)
    | dsimp only
    | intro _)

theorem State.fBitsF_keeps {s0 s : State} (n : Nat) (rd : Nat) (rs1 : Nat) (p : Bool)  (hK : Keeps s0 s) : Keeps s0 (State.fBitsF s n rd rs1 p) := by
  unfold State.fBitsF
  repeat' (first
    | with_reducible (first | assumption | apply State.setFr_keeps)
    | dsimp only
    | intro _)

theorem State.fKindOp_keeps {s0 s : State} (n : Nat) (rd : Nat) (rs1 : Nat) (p : Bool)  (hK : Keeps s0 s) : Keeps s0 (State.fKindOp s n rd rs1 p) := by
  unfold State.fKindOp
  repeat' (first
    | with_reducible (first | assumption | apply State.setGr_keeps)
    | dsimp only
    | intro _)

theorem State.fMacOp_keeps {s0 t s : State} {n : Nat} {f4 : Nat} {rd : Nat} {rs1 : Nat} {rs2 : Nat} {rs3 : Nat} {p : Bool} {word : Word}   (he : (State.fMacOp s n f4 rd rs1 rs2 rs3 p word) = .ok t) (hK : Keeps s0 s) : Keeps s0 t := by
  unfold State.fMacOp at he
  try dsimp only at he
  repeat' split at he
  all_goals (first | (injection he with he; subst he) | (injection he; done) | skip)
  all_goals (repeat' (first
    | with_reducible (first | assumption | apply State.setFr_keeps | apply State.raise_keeps)
    | refine State.withRnd_keeps ?_ (by with_reducible assumption) ?_
    | split
    | dsimp only
    | intro _))

theorem State.fpOp_keeps {s0 t s : State} {n : Nat} {f4 : Nat} {rd : Nat} {rs1 : Nat} {rs2 : Nat} {f6 : Nat} {word : Word}   (he : (State.fpOp s n f4 rd rs1 rs2 f6 word) = .ok t) (hK : Keeps s0 s) : Keeps s0 t := by
  unfold State.fpOp at he
  try dsimp only at he
  repeat' split at he
  all_goals (first | (injection he with he; subst he) | (injection he; done) | skip)
  all_goals (repeat' (first
    | with_reducible (first | assumption | apply State.fPickOp_keeps | apply State.fSignOp_keeps | apply State.fCmpOp_keeps | apply State.fBitsG_keeps | apply State.fBitsF_keeps | apply State.fKindOp_keeps)
    | refine State.fArithOp_keeps (by with_reducible assumption) ?_
    | refine State.fSqrtOp_keeps (by with_reducible assumption) ?_
    | refine State.fCnvP_keeps (by with_reducible assumption) ?_
    | refine State.fCnvTi_keeps (by with_reducible assumption) ?_
    | refine State.fCnvFi_keeps (by with_reducible assumption) ?_
    | split
    | dsimp only
    | intro _))

theorem State.uop_keeps {s0 t s : State} {n : Nat} {rdC : Nat} {rs1C : Nat} {rs2C : Nat} {word : Word} {u : Word}   (he : (State.uop s n rdC rs1C rs2C word u) = .ok t) (hK : Keeps s0 s) : Keeps s0 t := by
  unfold State.uop at he
  try dsimp only at he
  repeat' split at he
  all_goals (first | (injection he with he; subst he) | (injection he; done) | skip)
  all_goals (repeat' (first
    | with_reducible (first | assumption | apply State.intReg_keeps | apply State.intImm_keeps | apply State.plConst_keeps)
    | refine State.mulDiv_keeps (by with_reducible assumption) ?_
    | refine State.load_keeps (by with_reducible assumption) ?_
    | refine State.storeG_keeps (by with_reducible assumption) ?_
    | refine State.loadF_keeps (by with_reducible assumption) ?_
    | refine State.storeF_keeps (by with_reducible assumption) ?_
    | refine State.fpOp_keeps (by with_reducible assumption) ?_
    | refine State.fMacOp_keeps (by with_reducible assumption) ?_
    | split
    | dsimp only
    | intro _))

theorem State.uopsRun_keeps {s0 t s : State} {n : Nat} {rdC : Nat} {rs1C : Nat} {rs2C : Nat} {word : Word} {us : List Word}   (he : (State.uopsRun s n rdC rs1C rs2C word us) = .ok t) (hK : Keeps s0 s) : Keeps s0 t := by
  induction us generalizing t s n rdC rs1C rs2C word  with
  | nil =>
    unfold State.uopsRun at he
    try dsimp only at he
    repeat' split at he
    all_goals first | contradiction | (cases he; done) | skip
    all_goals (first | (cases he) | skip)
    all_goals (repeat' (first
      | with_reducible (first | assumption)
      | refine State.uop_keeps (by with_reducible assumption) ?_
      | split
      | dsimp only
      | intro _))
  | cons x r ih =>
    unfold State.uopsRun at he
    try dsimp only at he
    repeat' split at he
    all_goals first | contradiction | (cases he; done) | skip
    all_goals (first | (cases he) | skip)
    all_goals (repeat' (first
      | (with_reducible apply ih; with_reducible assumption)
      | with_reducible (first | assumption)
      | refine State.uop_keeps (by with_reducible assumption) ?_
      | split
      | dsimp only
      | intro _))

theorem State.temps_keeps {s0 s : State} (n : Nat) (f4 : Option Nat)  (hK : Keeps s0 s) : Keeps s0 (State.temps s n f4) := by
  unfold State.temps
  repeat' (first
    | with_reducible (first | assumption | apply State.setCore_keeps)
    | (simp only [keeps_mk]; with_reducible apply keepsOn_of)
    | split
    | dsimp only
    | intro _)

theorem State.customRun_keeps {s0 t s : State} {n : Nat} {rd : Nat} {f4 : Nat} {rs1 : Nat} {rs2 : Nat} {slot : Nat} {word : Word}   (he : (State.customRun s n rd f4 rs1 rs2 slot word) = .ok t) (hK : Keeps s0 s) : Keeps s0 t := by
  unfold State.customRun at he
  try dsimp only at he
  repeat' split at he
  all_goals (first | (injection he with he; subst he) | (injection he; done) | skip)
  all_goals (repeat' (first
    | with_reducible (first | assumption | apply State.temps_keeps | apply State.countCore_keeps)
    | refine State.uopsRun_keeps (by with_reducible assumption) ?_
    | split
    | dsimp only
    | intro _))

end Sys2Proof.Machine
end

