-- ==== Sys2Proof/Laws/KeepsCores.lean ====
section
/-! SUPPORT. What the operations of Machine/Cores.lean leave as it was (Keeps). -/

set_option linter.unusedTactic false
set_option linter.unreachableTactic false
set_option linter.unusedVariables false
set_option linter.unusedSimpArgs false

namespace Sys2Proof.Machine

theorem State.load64_keeps {s0 t s : State} {n : Nat} {rd : Nat} {va : Word}   (he : (State.load64 s n rd va) = .ok t) (hK : Keeps s0 s) : Keeps s0 t := by
  unfold State.load64 at he
  try dsimp only at he
  repeat' split at he
  all_goals (first | (injection he with he; subst he) | (injection he; done) | skip)
  all_goals (repeat' (first
    | with_reducible (first | assumption | apply State.setGr_keeps)
    | refine State.dataLoad_keeps (by with_reducible assumption) ?_
    | refine State.dataLoad_keeps_p (by with_reducible assumption) ?_
    | split
    | dsimp only
    | intro _))

theorem State.lvl_keeps {s0 t s : State} {n : Nat} {rd rs1 : BitVec 5} {imm : BitVec 11} {fn : Nat} {op : State → Res}
    (hop : ∀ a u, Keeps s0 a → op a = .ok u → Keeps s0 u) (he : State.lvl s n rd rs1 imm fn op = .next t) (hK : Keeps s0 s) :
    Keeps s0 t := by
  unfold State.lvl at he
  refine State.zarn32_keeps ?_ he hK
  intro a u ha hx
  split at hx
  · exact hop _ _ ha hx
  · injection hx

theorem State.fsign_keeps {s0 t s : State} {n : Nat} {rd rs1 rs2 : BitVec 5} {f6 : BitVec 6} {kind : Nat}
    (he : State.fsign s n rd rs1 rs2 f6 kind = .next t) (hK : Keeps s0 s) : Keeps s0 t := by
  unfold State.fsign at he
  refine State.zarn32_keeps ?_ he hK
  intro a u ha hx
  try dsimp only at hx
  split at hx
  · exact State.fpOp_keeps hx ha
  · injection hx

theorem State.fmacRow_keeps {s0 t s : State} {n : Nat} {rd : BitVec 5} {rs1 : BitVec 5} {rs2 : BitVec 5} {rs3 : BitVec 5} {p : Bool} {f4 : Nat}  (he : (State.fmacRow s n rd rs1 rs2 rs3 p f4) = .next t) (hK : Keeps s0 s) : Keeps s0 t := by
  unfold State.fmacRow at he
  refine State.zarn32_keeps ?_ he ?_
  all_goals (try dsimp only)
  all_goals (try intros)
  all_goals (try (rename_i hx; (repeat' split at hx) <;> first | contradiction | (injection hx with hx; subst hx)))
  all_goals (repeat' (first
    | with_reducible (first | assumption)
    | refine State.fMacOp_keeps (by with_reducible assumption) ?_
    | dsimp only
    | intro _))

end Sys2Proof.Machine
end

