-- ==== Sys2Proof/WellFormed.lean ====
section
/-! DEFINITION. Well-formedness of a command: every identifier it names lies in the range of its kind (R9, R42 and the
chapters), and every register access is 32 or 64 bits wide. A command that a field of fixed width carries cannot break
these; the model's own operands could. -/

namespace Sys2Proof

/-- Whether a configuration of PF0 lies within R58: payloads of 128 to 512 bytes and read requests of 128 to 4,096, each a
power of two, and vectors below 2,048. -/
def PfCfg.wf (c : PfCfg) : Bool :=
  [128, 256, 512].contains c.maxPayload && [128, 256, 512, 1024, 2048, 4096].contains c.maxRead && decide (c.ctoLo ≤ c.ctoHi) &&
  c.msixTable.all (fun e => decide (e.1 < 2048))

/-- Whether every operand of a command lies in its range. -/
def Instr.wf (i : Instr) : Bool :=
  match i with
  | .regWrite pg _ width _ => pg.exist && decide (width = 4 ∨ width = 8)
  | .bar0BadAccess _ _ _ => true
  | .shadowWrite pg _ width _ => pg.exist && decide (width = 4 ∨ width = 8)
  | .liveWrite pg _ width _ => pg.exist && decide (width = 4 ∨ width = 8)
  | .swapArm pg _ width _ => pg.exist && decide (width = 4 ∨ width = 8)
  | .swapCancel pg _ width _ => pg.exist && decide (width = 4 ∨ width = 8)
  | .swapApply pg => pg.exist
  | .shadowSync pg => pg.exist
  | .ctrClear pg => pg.exist
  | .errInjWrite pg _ => pg.exist
  | .errStatClear pg _ width _ => pg.exist && decide (width = 4 ∨ width = 8)
  | .create part => decide (part < 128)
  | .assign part => decide (part < 128)
  | .unassign part => decide (part < 128)
  | .activate part => decide (part < 128)
  | .release part => decide (part < 128)
  | .partDrainDone part => decide (part < 128)
  | .scrubDone _ _ _ => true
  | .bind vi => decide (vi < 4096)
  | .vifEnable vi => decide (vi < 4096)
  | .vifReset vi => decide (vi < 4096)
  | .unbind vi => decide (vi < 4096)
  | .harvest vi => decide (vi < 4096)
  | .viQuiesce vi => decide (vi < 4096)
  | .doorbell _ _ => true
  | .hostCompletion port _ _ _ => decide (port < 7)
  | .cplTimeout port _ => decide (port < 7)
  | .quarantineEnd port _ => decide (port < 7)
  | .atsInvalidate itag pasid _ _ => decide (itag < 32) && (pasid.all (fun p => decide (p < 2 ^ 20)))
  | .atsInvComplete itag => decide (itag < 32)
  | .pageResponse _ _ => true
  | .portFreeze _ => true
  | .freezeRelease => true
  | .bmeClear => true
  | .functionLevelReset => true
  | .hotReset => true
  | .perstAssert => true
  | .perstDeassert => true
  | .d3hotEnter _ => true
  | .d0Enter => true
  | .detect port _ => decide (port < 6)
  | .perstHoldEnd port => decide (port < 6)
  | .dlActive port _ _ _ => decide (port < 6)
  | .trainTimeout port => decide (port < 6)
  | .enumStart port => decide (port < 6)
  | .enumConfigCpl port _ => decide (port < 6)
  | .enumNoresp port => decide (port < 6)
  | .enumEnd port => decide (port < 6)
  | .slotChange port _ _ => decide (port < 6)
  | .dlkRetry port => decide (port < 6)
  | .dlkDown port => decide (port < 6)
  | .downDone port => decide (port < 6)
  | .inboundRequest port _ _ _ _ => decide (port < 6)
  | .dportFreeze port _ => decide (port < 6)
  | .dportFreezeRelease port => decide (port < 6)
  | .descFetch ring _ => decide (ring < 131072)
  | .descStart ring => decide (ring < 131072)
  | .waitTimeout ring => decide (ring < 131072)
  | .descEnd ring idx => decide (ring < 131072) && decide (idx < 4294967296)
  | .heldCplWrite ring => decide (ring < 131072)
  | .ringSetup ring => decide (ring < 131072)
  | .ringEnable ring => decide (ring < 131072)
  | .ringDisable ring => decide (ring < 131072)
  | .ringDisabled ring => decide (ring < 131072)
  | .ringResume ring => decide (ring < 131072)
  | .ringRead ring => decide (ring < 131072)
  | .setPevt ring => decide (ring < 131072)
  | .nop ring idx => decide (ring < 131072) && decide (idx < 4294967296)
  | .syncAdd ring idx => decide (ring < 131072) && decide (idx < 4294967296)
  | .syncSet ring idx => decide (ring < 131072) && decide (idx < 4294967296)
  | .syncRead ring idx => decide (ring < 131072) && decide (idx < 4294967296)
  | .syncApertureAdd src obj _ => (match src with | .p0 => true | .port n => decide (n < 6)) && decide (obj < 16384)
  | .syncApertureSet src obj _ => (match src with | .p0 => true | .port n => decide (n < 6)) && decide (obj < 16384)
  | .syncApertureRead src obj => (match src with | .p0 => true | .port n => decide (n < 6)) && decide (obj < 16384)
  | .syncApertureBad src _ _ _ => (match src with | .p0 => true | .port n => decide (n < 6))
  | .write _ => true
  | .writeLast _ => true
  | .readReq _ => true
  | .readResp _ => true
  | .ack _ => true
  | .sack _ => true
  | .nak _ => true
  | .probe _ => true
  | .spateWrite _ => true
  | .dataSend conn => decide (conn < 16777216)
  | .ackDelayExpire conn => decide (conn < 16777216)
  | .reorderLoss conn psn => decide (conn < 16777216) && decide (psn < 4294967296)
  | .rtoExpire conn psn => decide (conn < 16777216) && decide (psn < 4294967296)
  | .nakResend conn psn => decide (conn < 16777216) && decide (psn < 4294967296)
  | .pathHoldEnd conn path => decide (conn < 16777216) && decide (path < 256)
  | .contextFetched conn _ => decide (conn < 16777216)
  | .contextWritebackDone conn => decide (conn < 16777216)
  | .missHoldTimeout _ => true
  | .connClosed conn => decide (conn < 16777216)
  | .connOpen part => decide (part < 128)
  | .mlrCmdClose part => decide (part < 128)
  | .mlrCmdQuery part => decide (part < 128)
  | .mlrSetPart part => decide (part < 128)
  | .spateOpen part => decide (part < 128)
  | .spateClose part => decide (part < 128)
  | .spateSend ring idx => decide (ring < 131072) && decide (idx < 4294967296)
  | .mlrClose ring idx => decide (ring < 131072) && decide (idx < 4294967296)
  | .mlrQuery ring idx => decide (ring < 131072) && decide (idx < 4294967296)
  | .probeSend ring idx => decide (ring < 131072) && decide (idx < 4294967296)
  | .probeTimeout ring idx => decide (ring < 131072) && decide (idx < 4294967296)
  | .regionEntryFetched key _ => decide (key < 2 ^ 32)
  | .writePlaced conn psn => decide (conn < 16777216) && decide (psn < 4294967296)
  | .writeLastPlace conn psn => decide (conn < 16777216) && decide (psn < 4294967296)
  | .readServeStart conn psn => decide (conn < 16777216) && decide (psn < 4294967296)
  | .stallExpire conn => decide (conn < 16777216)
  | .pnrLimitExpire _ => true
  | .readReissue ring idx => decide (ring < 131072) && decide (idx < 4294967296)
  | .readTimeout ring idx => decide (ring < 131072) && decide (idx < 4294967296)
  | .regionClosed key => decide (key < 2 ^ 32)
  | .rmaWrite ring idx => decide (ring < 131072) && decide (idx < 4294967296)
  | .rmaRead ring idx => decide (ring < 131072) && decide (idx < 4294967296)
  | .register ring idx => decide (ring < 131072) && decide (idx < 4294967296)
  | .revoke ring idx => decide (ring < 131072) && decide (idx < 4294967296)
  | .rmaQuery ring idx => decide (ring < 131072) && decide (idx < 4294967296)
  | .rmaSetPart part => decide (part < 128)
  | .rmaCmdQuery part => decide (part < 128)
  | .frameReceive ept _ _ => decide (ept < 16)
  | .passStart pipe => decide (pipe < 6)
  | .recircPass pipe => decide (pipe < 6)
  | .pfcReceive ept cls _ => decide (ept < 16) && decide (cls < 8)
  | .pfcPauseEnd ept cls => decide (ept < 16) && decide (cls < 8)
  | .pfcRepeat ept cls => decide (ept < 16) && decide (cls < 8)
  | .linkUp ept => decide (ept < 16)
  | .linkDown ept => decide (ept < 16)
  | .slotRetire slot => decide (slot < 8)
  | .sweepDone => true
  | .pktOpen => true
  | .graphLoad => true
  | .setExact => true
  | .exInsert => true
  | .exDelete => true
  | .wcWrite => true
  | .wcDelete => true
  | .commit => true
  | .abandon => true
  | .rxtSetup => true
  | .inject => true
  | .portTransmit ept => decide (ept < 16)
  | .admitWaiting leaf => decide (leaf < 131072)
  | .pnodeSet port part => decide (port < 16) && decide (part < 128)
  | .pnodeClear port part => decide (port < 16) && decide (part < 128)
  | .pnodeRead port part => decide (port < 16) && decide (part < 128)
  | .leafSet port leaf => decide (port < 16) && decide (leaf < 131072)
  | .leafRead leaf => decide (leaf < 131072)
  | .meterSet meter => decide (meter < 32768)
  | .meterRead meter => decide (meter < 32768)
  | .schChangeApply => true
  | .convert ring idx => decide (ring < 131072) && decide (idx < 4294967296)
  | .sum ring idx => decide (ring < 131072) && decide (idx < 4294967296)
  | .xrdOpen ring idx => decide (ring < 131072) && decide (idx < 4294967296)
  | .contribute ring idx => decide (ring < 131072) && decide (idx < 4294967296)
  | .attach ring idx => decide (ring < 131072) && decide (idx < 4294967296)
  | .xrdQuery ring idx => decide (ring < 131072) && decide (idx < 4294967296)
  | .xrdClose ring idx => decide (ring < 131072) && decide (idx < 4294967296)
  | .reductionPacket _ => true
  | .segmentRelease key _ => decide (key < 2 ^ 32)
  | .slotWaitExpire conn psn => decide (conn < 16777216) && decide (psn < 4294967296)
  | .groupIdleTimeout key => decide (key < 2 ^ 32)
  | .groupDone key => decide (key < 2 ^ 32)
  | .seqCreate ring idx => decide (ring < 131072) && decide (idx < 4294967296)
  | .ingest ring idx => decide (ring < 131072) && decide (idx < 4294967296)
  | .ingestDone ring idx => decide (ring < 131072) && decide (idx < 4294967296)
  | .lookup ring idx => decide (ring < 131072) && decide (idx < 4294967296)
  | .fork ring idx => decide (ring < 131072) && decide (idx < 4294967296)
  | .trim ring idx => decide (ring < 131072) && decide (idx < 4294967296)
  | .drop ring idx => decide (ring < 131072) && decide (idx < 4294967296)
  | .dropDone _ => true
  | .kvsQuery ring idx => decide (ring < 131072) && decide (idx < 4294967296)
  | .blockReadError _ _ ring idx => decide (ring < 131072) && decide (idx < 4294967296)
  | .kvsSetPart part => decide (part < 128)
  | .poolAdd part pool => decide (part < 128) && decide (pool < 4)
  | .poolClear part pool => decide (part < 128) && decide (pool < 4)
  | .poolRead part pool => decide (part < 128) && decide (pool < 4)
  | .retireAdd => true
  | .retireRead => true
  | .attend ring idx => decide (ring < 131072) && decide (idx < 4294967296)
  | .inboxOpen ring idx => decide (ring < 131072) && decide (idx < 4294967296)
  | .inboxClose ring idx => decide (ring < 131072) && decide (idx < 4294967296)
  | .inboxClosed inbox => decide (inbox < 1024)
  | .inboxQuery ring idx => decide (ring < 131072) && decide (idx < 4294967296)
  | .inboxTake inbox => decide (inbox < 1024)
  | .chunkStart unit => decide (unit < 32)
  | .chunkDone unit => decide (unit < 32)
  | .stepOpen ring idx => decide (ring < 131072) && decide (idx < 4294967296)
  | .regionCopyComplete part _ _ _ => decide (part < 128)
  | .containerWriteAck part _ _ _ => decide (part < 128)
  | .drainTimeout part _ => decide (part < 128)
  | .stepAbandon ring idx => decide (ring < 131072) && decide (idx < 4294967296)
  | .restore ring idx => decide (ring < 131072) && decide (idx < 4294967296)
  | .ckpQuery ring idx => decide (ring < 131072) && decide (idx < 4294967296)
  | .setStage part => decide (part < 128)
  | .stageClear part => decide (part < 128)
  | .stageRead part => decide (part < 128)
  | .tcpSegment _ => true
  | .tcpRto _ => true
  | .icreq _ _ _ _ _ => true
  | .capsulecmd _ _ _ => true
  | .h2cdata _ _ _ _ _ => true
  | .h2ctermreq _ => true
  | .connect _ _ _ _ _ _ _ => true
  | .propertyGet _ _ _ => true
  | .propertySet _ _ _ _ => true
  | .identify _ _ => true
  | .getLogPage _ _ => true
  | .setFeatures _ _ => true
  | .getFeatures _ _ => true
  | .asynchronousEventRequest _ _ => true
  | .abort _ _ => true
  | .keepAlive _ _ => true
  | .keepAliveExpire _ => true
  | .nvmeWrite _ _ => true
  | .nvmeRead _ _ => true
  | .flush _ _ => true
  | .writeZeroes _ _ => true
  | .datasetManagement _ _ => true
  | .nvmeCmdStart _ _ => true
  | .driveCompletion _ _ _ => true
  | .dirtyWriteback ns => decide (ns < 1024)
  | .nsEmpty ns => decide (ns < 1024)
  | .psIdleExpire _ => true
  | .psExitDone => true
  | .capsuleIo ring idx => decide (ring < 131072) && decide (idx < 4294967296)
  | .capsuleAdmin ring idx => decide (ring < 131072) && decide (idx < 4294967296)
  | .nsCreate part => decide (part < 128)
  | .nsDelete part => decide (part < 128)
  | .listen part => decide (part < 128)
  | .qpRing part => decide (part < 128)
  | .nsRead part => decide (part < 128)
  | .seal ring idx => decide (ring < 131072) && decide (idx < 4294967296)
  | .cphOpen ring idx => decide (ring < 131072) && decide (idx < 4294967296)
  | .xtsEnc ring idx => decide (ring < 131072) && decide (idx < 4294967296)
  | .xtsDec ring idx => decide (ring < 131072) && decide (idx < 4294967296)
  | .keyLoad ring idx => decide (ring < 131072) && decide (idx < 4294967296)
  | .keyGen ring idx => decide (ring < 131072) && decide (idx < 4294967296)
  | .keyClear ring idx => decide (ring < 131072) && decide (idx < 4294967296)
  | .save ring idx => decide (ring < 131072) && decide (idx < 4294967296)
  | .cphRestore ring idx => decide (ring < 131072) && decide (idx < 4294967296)
  | .keyQuery ring idx => decide (ring < 131072) && decide (idx < 4294967296)
  | .keyContextFetched key _ => decide (key < 1048576)
  | .setDomain part => decide (part < 128)
  | .barrierResendTimeout _ _ => true
  | .pageRd pg _ => pg.exist
  | .pageRdRsp pg _ _ => pg.exist
  | .pageWr pg _ width _ => pg.exist && decide (width = 4 ∨ width = 8)
  | .pageWrAck pg _ => pg.exist
  | .hostRd pg _ => pg.exist
  | .hostRdRsp pg _ _ => pg.exist
  | .hostWr pg _ width _ => pg.exist && decide (width = 4 ∨ width = 8)
  | .hostWrAck pg _ => pg.exist
  | .int pg => pg.exist
  | .barrierAck _ _ _ => true
  | .barrierNak _ _ _ => true
  | .barrierFrameBad _ _ _ _ => true
  | .powerClockControl _ => true
  | .imgReq kind => decide (kind < 4)
  | .imgData kind _ => decide (kind < 4)
  | .imgEnd kind => decide (kind < 4)
  | .imgAck kind => decide (kind < 4)
  | .keyInstall => true
  | .seed => true
  | .reseedDue => true
  | .attReq vi => decide (vi < 4096)
  | .attRsp vi _ => decide (vi < 4096)
  | .mbox _ => true
  | .mboxRsp _ => true
  | .heartbeat => true
  | .heartbeatSend => true
  | .telemetry kind _ => decide (kind < 4)
  | .vin40Apply => true
  | .startupRefin => true
  | .startupBootRom => true
  | .startupPower => true
  | .startupPll => true
  | .startupHbmTrain => true
  | .startupImages => true
  | .startupLinkReady => true
  | .recoveryFlashWrite _ _ => true
  | .debugChallenge => true
  | .debugUnlock => true
  | .report part => decide (part < 128)
  | .reportSigned => true
  | .certs => true
  | .svnCommit => true
  | .bankSelect bank => decide (bank < 2)
  | .mgmtKey => true
  | .injEnSet => true
  | .debugAccess _ => true
  | .mgmtRequest _ _ => true
  | .sMov c _ _ => decide (c < 80)
  | .sAdd c _ _ => decide (c < 80)
  | .sSub c _ _ => decide (c < 80)
  | .sAnd c _ _ => decide (c < 80)
  | .sOr c _ _ => decide (c < 80)
  | .sXor c _ _ => decide (c < 80)
  | .sShl c _ _ => decide (c < 80)
  | .sSar c _ _ => decide (c < 80)
  | .sAddI c _ _ => decide (c < 80)
  | .sLdi c _ _ => decide (c < 80)
  | .sShlI c _ _ => decide (c < 80)
  | .sShrI c _ _ => decide (c < 80)
  | .sLd64 c _ _ _ => decide (c < 80)
  | .sSt64 c _ _ _ => decide (c < 80)
  | .sLdf c _ _ => decide (c < 80)
  | .sStf c _ _ => decide (c < 80)
  | .sJ c _ => decide (c < 80)
  | .sJz c _ _ => decide (c < 80)
  | .sJnz c _ _ => decide (c < 80)
  | .sJr c _ _ => decide (c < 80)
  | .sJlr c _ _ => decide (c < 80)
  | .sDbnz c _ _ => decide (c < 80)
  | .dbnz c _ _ => decide (c < 80)
  | .add c _ _ _ _ => decide (c < 80)
  | .sub c _ _ _ _ => decide (c < 80)
  | .and c _ _ _ _ => decide (c < 80)
  | .or c _ _ _ _ => decide (c < 80)
  | .xor c _ _ _ _ => decide (c < 80)
  | .shl c _ _ _ _ => decide (c < 80)
  | .shr c _ _ _ _ => decide (c < 80)
  | .sar c _ _ _ _ => decide (c < 80)
  | .rotl c _ _ _ _ => decide (c < 80)
  | .rotr c _ _ _ _ => decide (c < 80)
  | .lts c _ _ _ _ => decide (c < 80)
  | .ltu c _ _ _ _ => decide (c < 80)
  | .addF c _ _ _ _ => decide (c < 80)
  | .subF c _ _ _ _ => decide (c < 80)
  | .neg c _ _ _ _ => decide (c < 80)
  | .andF c _ _ _ _ => decide (c < 80)
  | .addI c _ _ _ => decide (c < 80)
  | .andI c _ _ _ => decide (c < 80)
  | .orI c _ _ _ => decide (c < 80)
  | .xorI c _ _ _ => decide (c < 80)
  | .shlI c _ _ _ => decide (c < 80)
  | .shrI c _ _ _ => decide (c < 80)
  | .sarI c _ _ _ => decide (c < 80)
  | .rotrI c _ _ _ => decide (c < 80)
  | .ltsI c _ _ _ => decide (c < 80)
  | .ltuI c _ _ _ => decide (c < 80)
  | .addFi c _ _ _ => decide (c < 80)
  | .subFi c _ _ _ => decide (c < 80)
  | .mullo c _ _ _ _ => decide (c < 80)
  | .mulhiSs c _ _ _ _ => decide (c < 80)
  | .mulhiUu c _ _ _ _ => decide (c < 80)
  | .mulhiSu c _ _ _ _ => decide (c < 80)
  | .divs c _ _ _ _ => decide (c < 80)
  | .divu c _ _ _ _ => decide (c < 80)
  | .rmds c _ _ _ _ => decide (c < 80)
  | .rmdu c _ _ _ _ => decide (c < 80)
  | .ld8s c _ _ _ => decide (c < 80)
  | .ld16s c _ _ _ => decide (c < 80)
  | .ld32s c _ _ _ => decide (c < 80)
  | .ld64 c _ _ _ => decide (c < 80)
  | .ld8u c _ _ _ => decide (c < 80)
  | .ld16u c _ _ _ => decide (c < 80)
  | .ld32u c _ _ _ => decide (c < 80)
  | .st8 c _ _ _ => decide (c < 80)
  | .st16 c _ _ _ => decide (c < 80)
  | .st32 c _ _ _ => decide (c < 80)
  | .st64 c _ _ _ => decide (c < 80)
  | .fl32 c _ _ _ => decide (c < 80)
  | .fl64 c _ _ _ => decide (c < 80)
  | .fs32 c _ _ _ => decide (c < 80)
  | .fs64 c _ _ _ => decide (c < 80)
  | .rmwSwap c _ _ _ _ => decide (c < 80)
  | .rmwAdd c _ _ _ _ => decide (c < 80)
  | .rmwAnd c _ _ _ _ => decide (c < 80)
  | .rmwOr c _ _ _ _ => decide (c < 80)
  | .rmwXor c _ _ _ _ => decide (c < 80)
  | .rmwSmin c _ _ _ _ => decide (c < 80)
  | .rmwSmax c _ _ _ _ => decide (c < 80)
  | .rmwUmin c _ _ _ _ => decide (c < 80)
  | .rmwUmax c _ _ _ _ => decide (c < 80)
  | .rmwCmpx c _ _ _ _ => decide (c < 80)
  | .branch c _ _ => decide (c < 80)
  | .jmpl c _ _ => decide (c < 80)
  | .jmplr c _ _ _ _ => decide (c < 80)
  | .pcoff c _ _ => decide (c < 80)
  | .plz c _ _ _ => decide (c < 80)
  | .pln c _ _ _ => decide (c < 80)
  | .plk c _ _ _ => decide (c < 80)
  | .sysrd c _ _ _ => decide (c < 80)
  | .syswr c _ _ _ => decide (c < 80)
  | .sysset c _ _ _ => decide (c < 80)
  | .sysclr c _ _ _ => decide (c < 80)
  | .mbar c _ _ _ => decide (c < 80)
  | .fbar c _ _ _ => decide (c < 80)
  | .lcall c _ _ _ => decide (c < 80)
  | .lbrk c _ _ _ => decide (c < 80)
  | .idle c _ _ _ => decide (c < 80)
  | .lret c _ _ _ => decide (c < 80)
  | .udl c _ _ _ => decide (c < 80)
  | .fadd c _ _ _ _ => decide (c < 80)
  | .fsub c _ _ _ _ => decide (c < 80)
  | .fmul c _ _ _ _ => decide (c < 80)
  | .fdiv c _ _ _ _ => decide (c < 80)
  | .fsqrt c _ _ _ _ => decide (c < 80)
  | .fmin c _ _ _ _ => decide (c < 80)
  | .fmax c _ _ _ _ => decide (c < 80)
  | .fsignCopy c _ _ _ _ => decide (c < 80)
  | .fsignFlip c _ _ _ _ => decide (c < 80)
  | .fsignMix c _ _ _ _ => decide (c < 80)
  | .fcmp c _ _ _ _ => decide (c < 80)
  | .fcnvP c _ _ _ _ => decide (c < 80)
  | .fcnvTi c _ _ _ _ => decide (c < 80)
  | .fcnvFi c _ _ _ _ => decide (c < 80)
  | .fbitsG c _ _ _ _ => decide (c < 80)
  | .fbitsF c _ _ _ _ => decide (c < 80)
  | .fkind c _ _ _ _ => decide (c < 80)
  | .fmac c _ _ _ _ _ _ => decide (c < 80)
  | .fmacNa c _ _ _ _ _ _ => decide (c < 80)
  | .fmacNp c _ _ _ _ _ _ => decide (c < 80)
  | .fmacNpa c _ _ _ _ _ _ => decide (c < 80)
  | .custom c _ _ _ _ _ => decide (c < 80)
  | .interruptTake core => decide (core < 80)
  | .cycmpMatch core => decide (core < 80)
  | .drvAbiWrite vi _ => (vi.all (fun v => decide (v < 4096)))
  | .hostBeatWrite vi _ => (vi.all (fun v => decide (v < 4096)))
  | .beatLapse vi => (vi.all (fun v => decide (v < 4096)))
  | .viMasterClear vi => decide (vi < 4096)
  | .viMasterSet vi => decide (vi < 4096)
  | .viFlr vi => decide (vi < 4096)
  | .ringCmd vi _ ring => decide (vi < 4096) && decide (ring < 131072)
  | .attReportRequest vi => decide (vi < 4096)
  | .emulatedAccessTimeout vi _ => decide (vi < 4096)
  | .update => true
  | .updatePhaseEnd _ => true
  | .updatePauseTimeout => true
  | .viExport vi => decide (vi < 4096)
  | .viImport vi => decide (vi < 4096)
  | .dptSet part => decide (part < 128)
  | .map part => decide (part < 128)
  | .unmap part => decide (part < 128)
  | .invalidate part => decide (part < 128)
  | .setBeat _ vi => decide (vi < 4096)
  | .ctlWatchdogExpire core => decide (core < 80)
  | .tcmUncorrectable core => decide (core < 80)
  | .ringGroupMove group dst => decide (group < 4097) && decide (dst < 80)
  | .coreRestart core => decide (core < 80)
  | .refinLoss _ => true
  | .refinRestore _ => true
  | .pllLock pll => decide (pll < 24)
  | .pllWindow pll _ => decide (pll < 24)
  | .pllLockLost pll => decide (pll < 24)
  | .pllIdleStop pll => decide (pll < 24)
  | .coreSwitchDone die => decide (die < 2)
  | .switchForce die => decide (die < 2)
  | .gateIdleClose cluster => decide (cluster < 25)
  | .clusterWake cluster => decide (cluster < 25)
  | .hold cluster => decide (cluster < 25)
  | .clkRelease cluster => decide (cluster < 25)
  | .multSlew die => decide (die < 2)
  | .railSettled die => decide (die < 2)
  | .controlPeriod _ _ _ _ => true
  | .vinTrip _ => true
  | .hostRestart => true
  | .currentLimit => true
  | .thermalTrip sensor => decide (sensor < 15)
  | .thermalTripClear sensor => decide (sensor < 15)
  | .retentionEnter cluster => decide (cluster < 25)
  | .retentionWake cluster => decide (cluster < 25)
  | .wearCharge die => decide (die < 2)
  | .wearRecordWritten => true
  | .wearBucketAdvance => true
  | .hsenLow => true
  | .errorLatch pg _ bit part _ => pg.exist && decide (bit < 64) && (part.all (fun p => decide (p < 128)))
  | .raise msg => decide (msg.src < 8192) && decide (msg.part < 128)
  | .clear _ _ _ => true
  | .containPart part _ => decide (part < 128)
  | .uncontainPart part => decide (part < 128)
  | .containPlane plane _ => decide (plane < 3)
  | .uncontainPlane plane => decide (plane < 3)
  | .safeEnter _ => true
  | .safeExit _ => true
  | .collectorFault pg _ _ => pg.exist
  | .reactDone _ _ => true
  | .quietPeriodEnd => true
  | .heartbeatTimeout => true
  | .fieldWatchdogExpire => true
  | .tableSweep _ => true
  | .aliveToggle => true
  | .sevWrite k width half _ => decide (k < 512) && decide (width = 4 ∨ width = 8) && decide (half < 2)
  | .fltUncontainPart part => decide (part < 128)
  | .fltUncontainPlane => true
  | .exit => true
  | .srcRead => true
  | .fieldSupplyLoss => true
  | .busMasterEnableSet cfg _ => cfg.wf
  | .hostLinkDlActive _ _ _ tagMode => decide (tagMode < 3)
  | .noReceiverInDetect port => decide (port < 6)
  | .counterWrap pg ctr => pg.exist && decide (ctr < pg.ctrN)
  | .harvestDone vi => decide (vi < 4096)

end Sys2Proof
end

section
/-! SUPPORT. The clocks are written by the passing of time alone. A period of REFIN with no command closes fault entries of
pages found present (R162) and starts fetches of contexts that waited (R141); every operation that these reach leaves the
clocks, said once for each, in the order of the model's files. -/

namespace Sys2Proof.Machine

/-! ## Branches, folds and pairs -/

@[simp] theorem State.clk_ite (c : Prop) [Decidable c] (s t : State) :
    (if c then s else t).clk = if c then s.clk else t.clk := apply_ite State.clk c s t

/-- A fold leaves the clocks where each of its steps does. -/
@[simp] theorem State.clk_foldl {α : Type} {f : State → α → State} (h : ∀ t x, (f t x).clk = t.clk) (l : List α)
    (s : State) : (l.foldl f s).clk = s.clk := by
  induction l generalizing s with
  | nil => rfl
  | cons x r ih => rw [List.foldl_cons, ih, h]

/-- The clocks of the state that an operation gives beside a result. -/
theorem State.clk_of_pair {α : Type} {r : α × State} {a : α} {s t : State} (h : r = (a, t)) (hr : r.2.clk = s.clk) :
    t.clk = s.clk := by
  rw [← hr, h]

/-! ## Memory, interrupts, rings and events -/

@[simp] theorem State.setBytes_clk (s : State) (a : Nat) (bs : List Byte) :
    (s.setBytes a bs).clk = s.clk := by
  induction bs generalizing s a with
  | nil => rfl
  | cons b r ih => exact ih (s.setByte a b) (a + 1)

@[simp] theorem State.swapReject_clk (s : State) (pg : Page) (off : Nat) :
    (s.swapReject pg off).clk = s.clk := by simp [State.swapReject]

@[simp] theorem State.swapLive_clk (s : State) (pg : Page) :
    (s.swapLive pg).clk = s.clk := by
  simp [State.swapLive, State.clk_foldl (fun _ _ => State.setReg_clk ..)]

@[simp] theorem State.swapFirst_clk (s : State) (pg : Page) (checks : List (Nat × Bool)) :
    (s.swapFirst pg checks).clk = s.clk := by
  unfold State.swapFirst
  split
  · split <;> simp
  · rfl

@[simp] theorem State.dirtyPage_clk (s : State) (v page : Nat) :
    (s.dirtyPage v page).clk = s.clk := by simp [State.dirtyPage]
@[simp] theorem State.dirty_clk (s : State) (v addr len : Nat) :
    (s.dirty v addr len).clk = s.clk := by simp [State.dirty]

@[simp] theorem State.hostWrite_clk (s : State) (v : Option Nat) (addr : Nat) (data : List Byte) :
    (s.hostWrite v addr data).clk = s.clk := by
  cases v <;> simp [State.hostWrite]

@[simp] theorem State.store_clk (s : State) (hbm : Bool) (v : Option Nat) (addr : Nat) (data : List Byte) :
    (s.store hbm v addr data).clk = s.clk := by simp [State.store]
@[simp] theorem State.viVector_clk (s : State) (v n : Nat) :
    (s.viVector v n).clk = s.clk := by simp [State.viVector]
@[simp] theorem State.ringIrq_clk (s : State) (r : Ring) :
    (s.ringIrq r).clk = s.clk := by simp [State.ringIrq]
@[simp] theorem State.ringEntry_clk (s : State) (n : Nat) (w0 w1 w2 w3 : Word) :
    (s.ringEntry n w0 w1 w2 w3).clk = s.clk := by simp [State.ringEntry]
@[simp] theorem State.ringPut_clk (s : State) (n : Nat) (w0 w1 w2 w3 : Word) :
    (s.ringPut n w0 w1 w2 w3).clk = s.clk := by simp [State.ringPut]
@[simp] theorem State.wake_clk (s : State) (b : Nat) :
    (s.wake b).clk = s.clk := by simp [State.wake]
@[simp] theorem State.eventLost_clk (s : State) :
    s.eventLost.clk = s.clk := by simp [State.eventLost]
@[simp] theorem State.eventPut_clk (s : State) (n : Nat) (w0 w1 w2 w3 : Word) :
    (s.eventPut n w0 w1 w2 w3).clk = s.clk := by simp [State.eventPut]
@[simp] theorem State.overflow_clk (s : State) (n : Nat) :
    (s.overflow n).clk = s.clk := by simp [State.overflow]
@[simp] theorem State.eventRing_clk (s : State) (n typ : Nat) (st : Status) (obj : Nat) (w1 w2 w3 : Word) :
    (s.eventRing n typ st obj w1 w2 w3).clk = s.clk := by simp [State.eventRing]

@[simp] theorem State.event_clk (s : State) (p typ : Nat) (st : Status) (obj : Nat) (w1 w2 w3 : Word) :
    (s.event p typ st obj w1 w2 w3).clk = s.clk := by
  unfold State.event
  split <;> simp

/-! ## Pools, sequences and block tables -/

@[simp] theorem State.updPool_clk (s : State) (k : Nat) (f : Pool → Pool) : (s.updPool k f).clk = s.clk := rfl

@[simp] theorem State.poolLow_clk (s : State) (k : Nat) :
    (s.poolLow k).clk = s.clk := by
  unfold State.poolLow
  split <;> simp

@[simp] theorem State.openBytes_clk (s : State) (a n : Nat) :
    (s.openBytes a n).clk = s.clk := by simp [State.openBytes]

@[simp] theorem State.slotStore_clk (s : State) (k n : Nat) :
    (s.slotStore k n).clk = s.clk := by
  unfold State.slotStore
  split <;> simp

@[simp] theorem State.releaseSlot_clk (s : State) (k n : Nat) :
    (s.releaseSlot k n).clk = s.clk := by
  unfold State.releaseSlot
  split
  · split <;> simp
  · rfl

@[simp] theorem State.setSeq_clk (s : State) (q : Nat) (x : Seq) :
    (s.setSeq q x).clk = s.clk := by
  unfold State.setSeq
  split
  · rfl
  · split <;> simp

@[simp] theorem State.setHandle_clk (s : State) (x : Seq) (l g b : Nat) (v : Option Nat) :
    (s.setHandle x l g b v).clk = s.clk := rfl
@[simp] theorem State.settleDeferred_clk (s : State) (q : Nat) :
    (s.settleDeferred q).clk = s.clk := by simp [State.settleDeferred]
@[simp] theorem State.unuseSeq_clk (s : State) (q n : Nat) :
    (s.unuseSeq q n).clk = s.clk := by simp [State.unuseSeq]

@[simp] theorem State.clearHandles_clk (s : State) (x : Seq) (l b0 b1 : Nat) (slots : List Nat) :
    (s.clearHandles x l b0 b1 slots).clk = s.clk := by
  refine State.clk_foldl (fun t g => State.clk_foldl (fun t i => ?_) _ _) _ _
  split <;> simp

@[simp] theorem State.ingestUndo_clk (s : State) (ws : List Word) (alloc : List Nat) :
    (s.ingestUndo ws alloc).clk = s.clk := by simp [State.ingestUndo]

/-! ## Sync objects -/

@[simp] theorem State.watch_clk (s : State) (o w : Nat) :
    (s.watch o w).clk = s.clk := by simp [State.watch]
@[simp] theorem State.syncSettle_clk (s : State) (o : Nat) :
    (s.syncSettle o).clk = s.clk := by simp [State.syncSettle]
@[simp] theorem State.swapSyn_clk (s : State) :
    s.swapSyn.clk = s.clk := by simp [State.swapSyn]
@[simp] theorem State.synTake_clk (s : State) :
    s.synTake.clk = s.clk := by simp [State.synTake]

@[simp] theorem State.syncAdd_clk (s : State) (o : Nat) (v : Word) :
    (s.syncAdd o v).clk = s.clk := by
  unfold State.syncAdd
  split <;> simp

/-! ## Drives and the cache -/

@[simp] theorem State.driveCmd_clk (s : State) (n : Nat) (x : Ns) (write fua : Bool) (use : DriveUse) (data : List Byte)
    (slba : Nat) (pc : Extent × Nat × Nat × Nat) :
    (s.driveCmd n x write fua use data slba pc).2.clk = s.clk := by simp [State.driveCmd]

@[simp] theorem State.driveIo_clk (s : State) (n : Nat) (write fua : Bool) (slba nlb : Nat) (use : DriveUse)
    (data : List Byte) :
    (s.driveIo n write fua slba nlb use data).2.clk = s.clk := by
  have hf (l : List (Extent × Nat × Nat × Nat)) (a : List Nat × State) : (l.foldl (fun a pc =>
      (a.1 ++ [(a.2.driveCmd n (s.ns n) write fua use data slba pc).1],
        (a.2.driveCmd n (s.ns n) write fua use data slba pc).2)) a).2.clk = a.2.clk := by
    induction l generalizing a with
    | nil => rfl
    | cons pc r ih => rw [List.foldl_cons, ih, State.driveCmd_clk]
  exact hf _ _

@[simp] theorem State.freePages_clk (s : State) (l : List Nat) : (s.freePages l).clk = s.clk := rfl
@[simp] theorem State.cacheDrop_clk (s : State) (n slba nlb : Nat) : (s.cacheDrop n slba nlb).clk = s.clk := rfl

/-! ## Connections and checkpoint steps -/

@[simp] theorem State.setConn_clk (s : State) (c : Nat) (x : Conn) : (s.setConn c x).clk = s.clk := rfl
@[simp] theorem State.updConn_clk (s : State) (c : Nat) (f : Conn → Conn) : (s.updConn c f).clk = s.clk := rfl
@[simp] theorem State.connEnqueue_clk (s : State) (c : Nat) (items : List TxItem) : (s.connEnqueue c items).clk = s.clk := rfl
@[simp] theorem State.updStep_clk (s : State) (sid : Nat) (f : Step → Step) : (s.updStep sid f).clk = s.clk := rfl
@[simp] theorem State.stepIssue_clk (s : State) (x : Step) (shard off : Nat) (data : List Byte) :
    (s.stepIssue x shard off data).clk = s.clk := by simp [State.stepIssue]

@[simp] theorem State.shardIssue_clk (s : State) (x : Step) (i : Nat) :
    (s.shardIssue x i).clk = s.clk := by
  unfold State.shardIssue
  split <;> simp

@[simp] theorem State.stepAdvance_clk (s : State) (sid : Nat) :
    (s.stepAdvance sid).clk = s.clk := by
  unfold State.stepAdvance
  split <;> simp

@[simp] theorem State.stepsAdvance_clk (s : State) (p : Nat) :
    (s.stepsAdvance p).clk = s.clk := by simp [State.stepsAdvance]

@[simp] theorem State.stepSettle_clk (s : State) (sid : Nat) :
    (s.stepSettle sid).clk = s.clk := by
  unfold State.stepSettle
  split <;> simp

@[simp] theorem State.stepMark_clk (s : State) (sid : Nat) (st : Status) (unknown : Bool) :
    (s.stepMark sid st unknown).clk = s.clk := by
  unfold State.stepMark
  split <;> simp

/-! ## Work in progress -/

@[simp] theorem State.updWork_clk (s : State) (ring idx : Nat) (f : Work → Work) : (s.updWork ring idx f).clk = s.clk := rfl

@[simp] theorem State.abandonMsg_clk (s : State) (ring idx : Nat) :
    (s.abandonMsg ring idx).clk = s.clk := by
  unfold State.abandonMsg
  split <;> simp

@[simp] theorem State.dropAttend_clk (s : State) (ring idx : Nat) :
    (s.dropAttend ring idx).clk = s.clk := by
  refine (State.clk_foldl (fun t r => ?_) _ _).trans rfl
  split <;> simp

@[simp] theorem State.dropStep_clk (s : State) (ring idx : Nat) (st : Status) :
    (s.dropStep ring idx st).clk = s.clk := by
  unfold State.dropStep
  split <;> simp

@[simp] theorem State.dropCmd_clk (s : State) (ring idx : Nat) : (s.dropCmd ring idx).clk = s.clk := rfl

@[simp] theorem State.undoWork_clk (s : State) (ring idx : Nat) (st : Status) :
    (s.undoWork ring idx st).clk = s.clk := by
  unfold State.undoWork
  dsimp only
  split
  · split <;> simp
  · simp

@[simp] theorem State.workDone_clk (s : State) (ring idx : Nat) (st : Status) (detail : Nat) (r0 r1 : Word) :
    (s.workDone ring idx st detail r0 r1).clk = s.clk := by simp [State.workDone]
@[simp] theorem State.workFail_clk (s : State) (ring idx : Nat) (st : Status) :
    (s.workFail ring idx st).clk = s.clk := by simp [State.workFail]

/-! ## Reads being served and reduction groups -/

@[simp] theorem State.serveEnd_clk (s : State) (c : Nat) (psn : BitVec 32) (st : Status) :
    (s.serveEnd c psn st).clk = s.clk := by
  unfold State.serveEnd
  split <;> simp

@[simp] theorem State.restoreFail_clk (s : State) (ring idx : Nat) (st : Status) :
    (s.restoreFail ring idx st).clk = s.clk := rfl
@[simp] theorem State.updGroup_clk (s : State) (key : Nat) (f : Group → Group) : (s.updGroup key f).clk = s.clk := rfl
@[simp] theorem State.clearSlots_clk (s : State) (first n : Nat) : (s.clearSlots first n).clk = s.clk := rfl

@[simp] theorem State.failGroup_clk (s : State) (key : Nat) (st : Status) :
    (s.failGroup key st).clk = s.clk := by
  unfold State.failGroup
  split <;> simp

/-! ## Reads and translation -/

@[simp] theorem State.whenUp_clk (s : State) (sp : Space) (v : Option Nat) (a : Nat) (act : State) (h : act.clk = s.clk) :
    (s.whenUp sp v a act).clk = s.clk := by
  simp [State.whenUp, h]

@[simp] theorem State.put_clk (s : State) (sp : Space) (v : Option Nat) (a : Nat) (data : List Byte) :
    (s.put sp v a data).clk = s.clk := by
  fun_cases State.put s sp v a data <;> simp

@[simp] theorem State.atcPut_clk (s : State) (v : Option Nat) (page : Nat) : (s.atcPut v page).clk = s.clk := rfl
@[simp] theorem State.atsPage_clk (s : State) (v : Option Nat) (page : Nat) :
    (s.atsPage v page).clk = s.clk := by simp [State.atsPage]
@[simp] theorem State.priAsk_clk (s : State) (v : Option Nat) (page : Nat) (u : Option ReadUse) :
    (s.priAsk v page u).clk = s.clk := by simp [State.priAsk]

/-! ## Attention requests -/

@[simp] theorem State.respFailed_clk (s : State) (r : Req) (n k : Nat) (st : Status) :
    (s.respFailed r n k st).clk = s.clk := by simp [State.respFailed]

@[simp] theorem State.reqEnd_clk (s : State) (r : Req) (delivery : Status) :
    (s.reqEnd r delivery).clk = s.clk := by
  unfold State.reqEnd
  dsimp only
  cases r.use <;> cases r.origin <;> simp

@[simp] theorem State.responseAcked_clk (s : State) (id : Nat) (st : Status) :
    (s.responseAcked id st).clk = s.clk := by
  unfold State.responseAcked
  split <;> simp

/-! ## Abandonment of steps -/

@[simp] theorem State.stepAbandon_clk (s : State) (sid : Nat) (st : Status) (unknown : Bool) :
    (s.stepAbandon sid st unknown).clk = s.clk := by
  unfold State.stepAbandon
  split <;> simp

@[simp] theorem State.stepTargetLost_clk (s : State) (sid : Nat) (st : Status) :
    (s.stepTargetLost sid st).clk = s.clk := by
  unfold State.stepTargetLost
  split <;> simp

/-! ## Sluice -/

@[simp] theorem State.setLeaf_clk (s : State) (l : Nat) (x : Leaf) : (s.setLeaf l x).clk = s.clk := rfl
@[simp] theorem State.updPnode_clk (s : State) (k : Nat) (f : PNode → PNode) : (s.updPnode k f).clk = s.clk := rfl
@[simp] theorem State.updPort_clk (s : State) (n : Nat) (f : PortNode → PortNode) : (s.updPort n f).clk = s.clk := rfl

@[simp] theorem State.refreshNode_clk (s : State) (port p : Nat) :
    (s.refreshNode port p).clk = s.clk := by
  unfold State.refreshNode
  dsimp only
  split
  · rfl
  · simp [State.clk_foldl (fun _ _ => State.setLeaf_clk ..)]

@[simp] theorem State.refreshPort_clk (s : State) (port : Nat) :
    (s.refreshPort port).clk = s.clk := by
  simp [State.refreshPort, State.clk_foldl (fun _ _ => State.updPnode_clk ..)]

@[simp] theorem State.enqueue_clk (s : State) (l n : Nat) (body : Out) (desc : Option (Nat × Nat)) :
    (s.enqueue l n body desc).clk = s.clk := by
  unfold State.enqueue
  dsimp only
  split <;> simp

@[simp] theorem State.waitAt_clk (s : State) (l : Nat) (x : LeafWait) :
    (s.waitAt l x).clk = s.clk := by simp [State.waitAt]

/-! ## Key contexts -/

@[simp] theorem State.setKey_clk (s : State) (k : Nat) (x : Key) : (s.setKey k x).clk = s.clk := rfl

@[simp] theorem State.keyLow_clk (s : State) (k low : Nat) :
    (s.keyLow k low).clk = s.clk := by
  unfold State.keyLow
  split <;> simp

@[simp] theorem State.keyExhausted_clk (s : State) (k : Nat) :
    (s.keyExhausted k).clk = s.clk := by
  unfold State.keyExhausted
  split <;> simp

@[simp] theorem State.takeNonce_clk (s : State) (k low : Nat) :
    (s.takeNonce k low).2.clk = s.clk := by
  unfold State.takeNonce
  dsimp only
  split <;> simp

@[simp] theorem State.keyUse_clk (s : State) (k : Nat) :
    (s.keyUse k).2.clk = s.clk := by
  fun_cases State.keyUse s k <;> simp

/-! ## Millrace -/

@[simp] theorem State.underGen_clk (s : State) (gen : Nat) (f : State → State) (hf : ∀ t, (f t).clk = t.clk) :
    (s.underGen gen f).clk = s.clk := by
  rw [State.underGen, hf]

@[simp] theorem State.sealPkt_clk (s : State) (k typ : Nat) (p : MlrPacket) :
    (s.sealPkt k typ p).2.2.clk = s.clk := by
  unfold State.sealPkt
  split <;> rename_i h
  · exact State.clk_of_pair h (State.keyUse_clk ..)
  · exact State.clk_of_pair h (State.keyUse_clk ..)
  · have hu := State.clk_of_pair h (State.keyUse_clk ..)
    dsimp only
    split <;> simp [hu]

@[simp] theorem State.mlrSubmit_clk (s : State) (leaf typ seed dscp : Nat) (ecn : Bool) (path : Nat) (p : MlrPacket)
    (desc : Option (Nat × Nat)) :
    (s.mlrSubmit leaf typ seed dscp ecn path p desc).clk = s.clk := by simp [State.mlrSubmit]

@[simp] theorem State.connOut_clk (s : State) (c path typ : Nat) (psn : BitVec 32) (retx areq : Bool) (echo : Option Nat)
    (ext payload : List Byte) :
    (s.connOut c path typ psn retx areq echo ext payload).2.clk = s.clk := by
  unfold State.connOut
  dsimp only
  split
  · simp
  · split <;> rename_i h <;> simpa using congrArg (fun r => r.2.2.clk) h.symm

@[simp] theorem State.connNext_clk (s : State) (c typ : Nat) (psn : BitVec 32) (retx areq : Bool) (echo : Option Nat)
    (ext payload : List Byte) :
    (s.connNext c typ psn retx areq echo ext payload).2.clk = s.clk := by
  unfold State.connNext
  dsimp only
  split <;> rename_i h <;> simpa using State.clk_of_pair h (State.connOut_clk ..)

@[simp] theorem State.connLeft_clk (s : State) (c : Nat) (st : Status) :
    (s.connLeft c st).clk = s.clk := by simp [State.connLeft]
@[simp] theorem State.connOutOf_clk (s : State) (c : Nat) : (s.connOutOf c).clk = s.clk := rfl

@[simp] theorem State.connDrop_clk (s : State) (c : Nat) (dest : ConnState) (st : Status) :
    (s.connDrop c dest st).clk = s.clk := by
  unfold State.connDrop
  extract_lets x m s1 s2 s3 s4 s5 s6
  have h4 : s4.clk = s.clk := by
    simp [s4, s3, s2, s1, State.clk_foldl (fun _ _ => State.restoreFail_clk ..)]
  have h5 : s5.clk = s4.clk := State.clk_foldl (fun t o => by cases o <;> simp) _ _
  have h6 : s6.clk = s.clk := by simp [s6, h5, h4]
  cases dest <;> simp [h6]

@[simp] theorem State.connError_clk (s : State) (c cause : Nat) (st : Status) :
    (s.connError c cause st).clk = s.clk := by simp [State.connError]

@[simp] theorem State.connTried_clk (s : State) (c : Nat) (r : Sent) :
    (s.connTried c r).clk = s.clk := by
  unfold State.connTried
  split <;> simp

@[simp] theorem State.sendCtrl_clk (s : State) (c typ : Nat) (ext : List Byte) :
    (s.sendCtrl c typ ext).clk = s.clk := by
  unfold State.sendCtrl
  split <;> rename_i h <;> simpa using State.clk_of_pair h (State.connNext_clk ..)

@[simp] theorem State.sendNak_clk (s : State) (c : Nat) (psn : BitVec 32) (code : Status) (hint : Nat) :
    (s.sendNak c psn code hint).clk = s.clk := by simp [State.sendNak]

@[simp] theorem State.sendAck_clk (s : State) (c : Nat) (path : Option Nat) :
    (s.sendAck c path).clk = s.clk := by
  unfold State.sendAck
  dsimp only
  split <;> rename_i h <;> simpa using State.clk_of_pair h (State.connNext_clk ..)

@[simp] theorem State.rxSet_clk (s : State) (c : Nat) (psn : BitVec 32) (now ce : Bool) (path : Nat) :
    (s.rxSet c psn now ce path).clk = s.clk := by simp [State.rxSet]
@[simp] theorem State.missNote_clk (s : State) : s.missNote.clk = s.clk := rfl
@[simp] theorem State.missFull_clk (s : State) :
    s.missFull.clk = s.clk := by simp [State.missFull]
@[simp] theorem State.missHold_clk (s : State) (c : Nat) (why : HoldWhy) (typ : Nat) (p : MlrPacket) :
    (s.missHold c why typ p).clk = s.clk := by simp [State.missHold]

@[simp] theorem State.writeBack_clk (s : State) (c : Nat) :
    (s.writeBack c).clk = s.clk := by
  unfold State.writeBack
  split <;> simp

theorem State.clk_of_connRoom {s t : State} (h : s.connRoom = some t) : t.clk = s.clk := by
  unfold State.connRoom at h
  split at h
  · cases h
    rfl
  · split at h <;> cases h
    simp

@[simp] theorem State.connMiss_clk (s : State) (c : Nat) :
    (s.connMiss c).clk = s.clk := by
  unfold State.connMiss
  split
  · rfl
  · split
    next h => simp [State.clk_of_connRoom h]
    next => simp

@[simp] theorem State.missStart_clk (s : State) : s.missStart.clk = s.clk := by simp [State.missStart]

/-! ## Confluence -/

@[simp] theorem State.emitTo_clk (s : State) (g : Group) (key k i : Nat) (last : Bool) (data : List Byte) :
    (s.emitTo g key k i last data).clk = s.clk := by
  unfold State.emitTo
  split <;> simp

@[simp] theorem State.segPlace_clk (s : State) (key k : Nat) :
    (s.segPlace key k).clk = s.clk := by
  unfold State.segPlace
  split <;> simp

@[simp] theorem State.emitSeg_clk (s : State) (key k : Nat) :
    (s.emitSeg key k).clk = s.clk := by
  unfold State.emitSeg
  split <;> simp

@[simp] theorem State.openSeg_clk (s : State) (g : Group) (key k : Nat) :
    (s.openSeg g key k).clk = s.clk := by
  unfold State.openSeg
  split <;> simp

@[simp] theorem State.addTerms_clk (s : State) (key e n : Nat) (bs : List Byte) :
    (s.addTerms key e n bs).clk = s.clk := by
  unfold State.addTerms
  split <;> simp

@[simp] theorem State.xrdRefused_clk (s : State) (c : Nat) (p : MlrPacket) (reason : Nat) :
    (s.xrdRefused c p reason).clk = s.clk := by simp [State.xrdRefused]
@[simp] theorem State.xrdRefuse_clk (s : State) (c : Nat) (p : MlrPacket) (st : Status) (reason : Nat) :
    (s.xrdRefuse c p st reason).clk = s.clk := by simp [State.xrdRefuse]
@[simp] theorem State.xrdPnr_clk (s : State) (c : Nat) (p : MlrPacket) (gen : Nat) :
    (s.xrdPnr c p gen).clk = s.clk := by simp [State.xrdPnr]

@[simp] theorem State.reduce_clk (s : State) (c : Nat) (p : MlrPacket) :
    (s.reduce c p).clk = s.clk := by
  fun_cases State.reduce s c p <;> simp

@[simp] theorem State.unhold_clk (s : State) (hid : Nat) : (s.unhold hid).clk = s.clk := rfl

@[simp] theorem State.heldTake_clk (s : State) (h : HeldPkt) (f : State → State) (hf : ∀ t, (f t).clk = t.clk) :
    (s.heldTake h f).clk = s.clk := by
  simp [State.heldTake, hf]

/-! ## Remote memory -/

@[simp] theorem State.violation_clk (s : State) (q obj w1 off n reason : Nat) :
    (s.violation q obj w1 off n reason).clk = s.clk := by simp [State.violation]
@[simp] theorem State.connViolation_clk (s : State) (c : Nat) (p : MlrPacket) (reason : Nat) :
    (s.connViolation c p reason).clk = s.clk := by simp [State.connViolation]
@[simp] theorem State.nakSet_clk (s : State) (c : Nat) (p : MlrPacket) (st : Status) :
    (s.nakSet c p st).clk = s.clk := by simp [State.nakSet]
@[simp] theorem State.rmaRefuse_clk (s : State) (c : Nat) (p : MlrPacket) (reason : Nat) :
    (s.rmaRefuse c p reason).clk = s.clk := by simp [State.rmaRefuse]
@[simp] theorem State.rmaPnr_clk (s : State) (c : Nat) (p : MlrPacket) (mode : Nat) :
    (s.rmaPnr c p mode).clk = s.clk := by simp [State.rmaPnr]
@[simp] theorem State.atsRange_clk (s : State) (e : List Word) (off len : Nat) :
    (s.atsRange e off len).clk = s.clk := by simp [State.atsRange]
@[simp] theorem State.pageAsk_clk (s : State) (id : PageId) :
    (s.pageAsk id).clk = s.clk := by simp [State.pageAsk]
@[simp] theorem State.faultOpen_clk (s : State) (id : PageId) :
    (s.faultOpen id).clk = s.clk := by simp [State.faultOpen]
@[simp] theorem State.pageAgain_clk (s : State) (id : PageId) :
    (s.pageAgain id).clk = s.clk := by simp [State.pageAgain]

@[simp] theorem State.faultMeet_clk (s : State) (id : PageId) :
    (s.faultMeet id).2.clk = s.clk := by
  unfold State.faultMeet
  split
  · split <;> simp
  · split <;> simp

@[simp] theorem State.stallStart_clk (s : State) (c fid : Nat) (psn : BitVec 32) :
    (s.stallStart c fid psn).clk = s.clk := by simp [State.stallStart]

@[simp] theorem State.packetStall_clk (s : State) (c typ : Nat) (p : MlrPacket) (id : PageId) (ended : Option PageId) :
    (s.packetStall c typ p id ended).clk = s.clk := by
  unfold State.packetStall
  split <;> rename_i h <;> simpa using State.clk_of_pair h (State.faultMeet_clk ..)

@[simp] theorem State.writeIn_clk (s : State) (c typ : Nat) (p : MlrPacket) (e : List Word) (segs : List (Nat × Nat)) :
    (s.writeIn c typ p e segs).clk = s.clk := by simp [State.writeIn]
@[simp] theorem State.readIn_clk (s : State) (c : Nat) (p : MlrPacket) :
    (s.readIn c p).clk = s.clk := by simp [State.readIn]

@[simp] theorem State.rmaTake_clk (s : State) (c typ : Nat) (p : MlrPacket) (ended : Option PageId) :
    (s.rmaTake c typ p ended).clk = s.clk := by
  unfold State.rmaTake
  dsimp only
  split
  · simp
  · split <;> simp

@[simp] theorem State.regionTouch_clk (s : State) (key : Nat) :
    (s.regionTouch key).clk = s.clk := by simp [State.regionTouch]
@[simp] theorem State.regionMiss_clk (s : State) (key : Nat) :
    (s.regionMiss key).clk = s.clk := by simp [State.regionMiss]
@[simp] theorem State.rmaSwap_clk (s : State) :
    s.rmaSwap.clk = s.clk := by simp [State.rmaSwap]

@[simp] theorem State.rmaIn_clk (s : State) (c typ : Nat) (p : MlrPacket) (ended : Option PageId) :
    (s.rmaIn c typ p ended).clk = s.clk := by
  unfold State.rmaIn
  dsimp only
  split
  · simp
  · split
    · split <;> simp
    · simp

@[simp] theorem State.readTake_clk (s : State) (w : Work) (pos : Nat) (rq : Option (BitVec 32)) (placed : List (Nat × Nat))
    (resume : Option (Nat × Nat)) (st roff : Nat) (data : List Byte) :
    (s.readTake w pos rq placed resume st roff data).clk = s.clk := by
  unfold State.readTake
  split <;> simp

@[simp] theorem State.restoreTake_clk (s : State) (w : Work) (fails : List (Nat × Status)) (rd : Nat × Nat × Nat)
    (rq : Option (BitVec 32)) (pos : Nat) (resume : Option (Nat × Nat)) (st roff : Nat) (data : List Byte) :
    (s.restoreTake w fails rd rq pos resume st roff data).clk = s.clk := by
  unfold State.restoreTake
  split <;> simp

@[simp] theorem State.respDone_clk (s : State) (c : Nat) (p : MlrPacket) :
    (s.respDone c p).clk = s.clk := by
  unfold State.respDone
  dsimp only
  split
  · split <;> simp
  · simp

@[simp] theorem State.readResp_clk (s : State) (c : Nat) (p : MlrPacket) :
    (s.readResp c p).clk = s.clk := by simp [State.readResp]
@[simp] theorem State.dataIn_clk (s : State) (c typ : Nat) (p : MlrPacket) (ended : Option PageId) :
    (s.dataIn c typ p ended).clk = s.clk := by simp [State.dataIn]
@[simp] theorem State.stallDrain_clk (s : State) (c : Nat) (ended : Option PageId) :
    (s.stallDrain c ended).clk = s.clk := by simp [State.stallDrain]
@[simp] theorem State.serveRefuse_clk (s : State) (c : Nat) (v : Serve) (reason : Nat) :
    (s.serveRefuse c v reason).clk = s.clk := by simp [State.serveRefuse]
@[simp] theorem State.stallOff_clk (s : State) (c : Nat) (psn : BitVec 32) : (s.stallOff c psn).clk = s.clk := rfl

@[simp] theorem State.stallEnd_clk (s : State) (c : Nat) (psn : BitVec 32) (invalid : Bool) :
    (s.stallEnd c psn invalid).clk = s.clk := by
  unfold State.stallEnd
  dsimp only
  split
  · simp
  · split <;> simp

@[simp] theorem State.faultClose_clk (s : State) (f : FaultEntry) (invalid : Bool) :
    (s.faultClose f invalid).clk = s.clk := by simp [State.faultClose]

@[simp] theorem State.faultsPresent_clk (s : State) : s.faultsPresent.clk = s.clk := by simp [State.faultsPresent]

end Sys2Proof.Machine
end

section
/-! SUPPORT. What passes while no command waits (R3, R4, R435), the bits of a written register (R7), and a counter that wraps
(R418). -/

namespace Sys2Proof

/-- Bit i of a register after a write: each access code's own rule, laid over what the write reaches (R7). -/
theorem RegDef.getLsbD_written (d : RegDef) (old v m : Word) {i : Nat} (hi : i < 64) :
    (d.written old v m).getLsbD i =
      (((old.getLsbD i && !(m.getLsbD i && d.rw.getLsbD i) || v.getLsbD i && m.getLsbD i && d.rw.getLsbD i) &&
        !(v.getLsbD i && m.getLsbD i && d.w1c.getLsbD i)) || v.getLsbD i && m.getLsbD i && d.w1s.getLsbD i) := by
  simp [RegDef.written, hi]

end Sys2Proof

namespace Sys2Proof.Machine

/-! ## One period of REFIN -/

/-- The link's power substate moves in hlk, and at most an LTR message goes out (R79). -/
theorem State.linkSubstate_eq (s : State) : ∃ h o, s.linkSubstate = { s with hlk := h, out := o } := by
  unfold State.linkSubstate
  dsimp only
  split
  · split <;> exact ⟨_, _, rfl⟩
  · split
    · split <;> exact ⟨_, _, rfl⟩
    · exact ⟨_, _, rfl⟩

theorem State.tick_eq {s : State} (h : s.cg.refinField = true) :
    ∃ l o, s.tick = { s with clk := s.ticked, hlk := l, out := o } := by
  rw [State.tick, if_pos h]
  exact State.linkSubstate_eq _

theorem State.passes_clk {s : State} (h : s.cg.refinField = true) : s.passes.clk = s.ticked := by
  obtain ⟨l, o, ht⟩ := State.tick_eq h
  rw [State.passes, if_pos h, State.missStart_clk, State.faultsPresent_clk, ht]

/-- With no fault entry open and no fetch of a context waiting, a period is a tick. -/
theorem State.passes_eq_tick {s : State} (h : s.cg.refinField = true) (hf : s.mlr.faults = []) (hw : s.mlr.missWait = []) :
    s.passes = s.tick := by
  obtain ⟨l, o, ht⟩ := State.tick_eq h
  rw [State.passes, if_pos h, ht]
  simp [State.faultsPresent, State.missStart, hf, hw]

theorem State.passes_stopped {s : State} (h : s.cg.refinField = false) : s.passes = s := by
  simp [State.passes, h]

theorem step_of_empty {s : State} (h : s.pending = []) : step s = .next s.passes := by
  rw [step, h]

/-- An ENG source that no throttle slows runs every cycle (R458, R459). -/
theorem State.engCycles_unthrottled {s : State} (hd : s.pwr.duty = 0) (hh : s.hardThrottle = false) (a n : Nat) :
    s.engCycles a n = n := by
  have hr (i : Nat) : (a + i) % 16 < 16 := Nat.mod_lt _ (by decide)
  simp [State.engCycles, hd, hh, hr]

/-! ## A counter at its highest count -/

theorem exec_counterWrap_full {s : State} {pg : Page} {i : Nat} (he : pg.exist = true) (hi : i < pg.ctrN)
    (hc : (s.reg pg (0xF00 + 8 * i)).field 47 0 = 2 ^ 48 - 1) (hf : (s.reg pg 0x10).bit 0 = false) :
    exec (.counterWrap pg i) s = .next ((s.counterAdd pg i 1).intCross s pg) := by
  show execCounterWrap pg i s = _
  simp [execCounterWrap, he, hi, hc, hf]

/-- A powered device whose TRS counter 0 counts barrier frames sent (event 1), stands at its highest count, and interrupts at a
wrap (OVF_INT of CTR_SEL0, CTR_OVF of INT_EN). -/
def frameCounterFull : State :=
  ((({ State.reset with trs := { State.reset.trs with hostPower := true } } : State).setReg trsPage 0x38 0x4).setReg
    trsPage 0x700 0x4000000000000001).setReg trsPage 0xF00 0xFFFFFFFFFFFF

theorem frameCounterFull_count : (frameCounterFull.reg trsPage (0xF00 + 8 * 0)).field 47 0 = 2 ^ 48 - 1 := by decide

/-- The wrap's interrupt crosses the barrier as an INT message (R80, R358), and the counter, back at 0, counts that frame. -/
theorem frameCounterFull_counts_own_message :
    (((frameCounterFull.counterAdd trsPage 0 1).intCross frameCounterFull trsPage).reg trsPage 0xF00).field 47 0 = 1 := by
  decide

end Sys2Proof.Machine

/-! ## The obligations -/

open Sys2Proof Sys2Proof.Machine

/-- Settles O2: the clocks after a step are those of ticked, which the end of faults and the start of fetches leave. -/
theorem stepWithoutCommandLetsTimePass : Obligations.StepWithoutCommandLetsTimePass := by
  unfold Obligations.StepWithoutCommandLetsTimePass
  intro s hp
  rw [step_of_empty hp]
  refine ⟨fun hr => ⟨s.passes, rfl, ?_⟩, fun hr => by rw [State.passes_stopped hr]⟩
  rw [State.passes_clk hr]
  refine ⟨rfl, rfl, rfl, rfl, rfl, rfl, fun hd hh => ?_, fun hf hw => ?_⟩
  · simp only [State.ticked, State.engCycles_unthrottled hd hh]
    exact ⟨rfl, rfl⟩
  · obtain ⟨l, o, ht⟩ := State.tick_eq hr
    rw [State.passes_eq_tick hr hf hw, ht]
    exact ⟨rfl, rfl, rfl, rfl⟩

/-- Settles O10, bit by bit: in each case one of the three masks alone holds the bit, or none does. -/
theorem accessCodesDecideEachBit : Obligations.AccessCodesDecideEachBit := by
  unfold Obligations.AccessCodesDecideEachBit
  intro d old v m i hi
  rw [RegDef.getLsbD_written d old v m hi]
  refine ⟨?rw, ?w1c, ?w1s, ?kept⟩ <;> intro hrw hc hs <;> rw [hrw, hc, hs]
  case rw => cases m.getLsbD i <;> simp
  case w1c => simp [Bool.and_comm]
  case w1s => simp [Bool.and_comm]
  case kept => simp

/-- Refutes O11: its last part fails on the TRS page, where the wrap of a counter that counts barrier frames interrupts, and the
INT message is a frame that the counter counts: it reads 1, not 0. -/
theorem not_registerAccesses : ¬ Obligations.RegisterAccesses := by
  unfold Obligations.RegisterAccesses
  rintro ⟨-, -, -, -, -, -, -, -, -, hwrap⟩
  obtain ⟨t, ht, hzero, -⟩ :=
    hwrap frameCounterFull trsPage 0 (by decide) (by decide) frameCounterFull_count (by decide)
  rw [exec_counterWrap_full (by decide) (by decide) frameCounterFull_count (by decide)] at ht
  cases ht
  exact absurd (frameCounterFull_counts_own_message.symm.trans hzero) (by decide)

end

section
/-! SUPPORT. The end of a page command and the writes of CMD registers that are not taken: registers at other keys than those
written, INT_STAT, which no operation here clears a bit of, CMD_STAT, and the order in which a write to a CMD register is dropped,
refused, held or run. -/

namespace Sys2Proof.Machine

/-! ## Registers of other pages and offsets -/

/-- Registers at different pages or offsets have different keys. -/
theorem Page.key_ne {q pg : Page} {o k : Nat} (hq : q.num < 65536) (hp : pg.num < 65536) (ho : o < 65536) (hk : k < 65536)
    (h : q ≠ pg ∨ o ≠ k) : q.key o ≠ pg.key k := by
  intro e
  obtain ⟨h1, h2⟩ := Page.key_inj q pg o k hq hp ho hk e
  rcases h with h | h
  · exact h h1
  · exact h h2

theorem Page.key_ne_same (pg : Page) {o k : Nat} (h : o ≠ k) : pg.key o ≠ pg.key k := by
  unfold Page.key; omega

theorem ctrRegs_lt {k : Nat} (h : k ∈ ctrRegs) : k < 65536 :=
  (by decide : ∀ k ∈ ctrRegs, k < 65536) k h

/-- What lies on another page than TRS, or at none of the offsets that counters write, is far from the counters of TRS. -/
theorem farFrom_trs {q : Page} {o : Nat} (hq : q.num < 65536) (ho : o < 65536) (h : q ≠ Blk.trs.page ∨ o ∉ ctrRegs) :
    FarFrom q o Blk.trs.page := by
  intro k hk
  refine Page.key_ne hq (by decide) ho (ctrRegs_lt hk) (h.imp_right fun hn e => ?_)
  exact hn (e ▸ hk)

/-! ## INT_STAT -/

/-- INT_STAT of a page has lost no bit. -/
def IntKept (pg : Page) (s t : State) : Prop := ∀ i, (s.reg pg 0x30).bit i = true → (t.reg pg 0x30).bit i = true

theorem IntKept.refl (pg : Page) (s : State) : IntKept pg s s := fun _ h => h

theorem IntKept.trans {pg : Page} {s t u : State} (h1 : IntKept pg s t) (h2 : IntKept pg t u) : IntKept pg s u :=
  fun i h => h2 i (h1 i h)

theorem IntKept.of_eq {pg : Page} {s t : State} (h : t.reg pg 0x30 = s.reg pg 0x30) : IntKept pg s t := by
  intro i hi; rwa [h]

theorem State.reg_intRaise (s : State) (pg : Page) (bits : Word) :
    (s.intRaise pg bits).reg pg 0x30 = s.reg pg 0x30 ||| bits := by
  rw [State.reg, State.intRaise_regs, ← State.reg, State.reg_setReg]

theorem intKept_intRaise (s : State) (pg : Page) (bits : Word) : IntKept pg s (s.intRaise pg bits) := by
  intro i hi
  simp [State.reg_intRaise, hi]

theorem intKept_setReg (s : State) (pg : Page) {o : Nat} (v : Word) (h : o ≠ 0x30) : IntKept pg s (s.setReg pg o v) :=
  .of_eq (State.reg_setReg_ne _ _ _ _ _ _ (Page.key_ne_same pg h.symm))

theorem intKept_counterWrapped (s : State) (pg : Page) (i : Nat) : IntKept pg s (s.counterWrapped pg i) := by
  unfold State.counterWrapped
  have h1 : IntKept pg s (if s.freezeOnWrap pg then s.setReg pg 0x10 ((s.reg pg 0x10).setBit 0 true) else s) := by
    split
    · exact intKept_setReg _ _ _ (by decide)
    · exact .refl _ _
  dsimp only
  split
  · split
    · exact (h1.trans (intKept_intRaise _ _ _)).trans (intKept_intRaise _ _ _)
    · exact h1.trans (intKept_intRaise _ _ _)
  · exact h1

theorem intKept_counterAdd (s : State) (pg : Page) (i n : Nat) : IntKept pg s (s.counterAdd pg i n) := by
  unfold State.counterAdd
  dsimp only
  have h1 (v : Word) : IntKept pg s (s.setReg pg (0xF00 + 8 * i) v) := intKept_setReg _ _ _ (by omega)
  split
  · exact (h1 _).trans (intKept_counterWrapped _ _ _)
  · exact h1 _

theorem intKept_countHere (s : State) (pg : Page) (code n : Nat) : IntKept pg s (s.countHere pg code n) := by
  unfold State.countHere
  split
  · exact .refl _ _
  · clear * -
    generalize List.range pg.ctrN = l
    induction l generalizing s with
    | nil => exact .refl _ _
    | cons i r ih =>
      rw [List.foldl_cons]
      refine IntKept.trans ?_ (ih _)
      split
      · exact intKept_counterAdd _ _ _ _
      · exact .refl _ _

theorem intKept_frameRaw (s : State) (side : Side) (cls : MsgClass) (typ : Nat) (p : List Nat) :
    IntKept Blk.trs.page s (s.frameRaw side cls typ p) := by
  unfold State.frameRaw
  dsimp only
  refine IntKept.trans (.of_eq ?_) (intKept_countHere _ _ _ _)
  exact State.reg_setChan s side cls _ _ _

theorem intKept_fieldIrq (s : State) (pg : Page) : IntKept Blk.trs.page s (s.fieldIrq pg) := by
  unfold State.fieldIrq
  dsimp only
  split
  · exact .refl _ _
  · split
    · exact intKept_frameRaw _ _ _ _ _
    · exact .of_eq (State.reg_setChan ..)

/-- The interrupt of a field page that crosses the barrier clears no bit of INT_STAT, not even on TRS, whose counters count it. -/
theorem intKept_intCross (s old : State) (pg q : Page) (hq : q.num < 65536) : IntKept q s (s.intCross old pg) := by
  by_cases h : q = Blk.trs.page
  · subst h
    unfold State.intCross
    split
    · exact intKept_fieldIrq _ _
    · exact .refl _ _
  · exact .of_eq (State.reg_intCross_ne _ _ _ _ _ (farFrom_trs hq (by decide) (.inl h)))

/-- INT_STAT holds every bit that is set in it. -/
theorem State.bit_setInt (s : State) (pg : Page) (bits : Word) {i : Nat} (hp : pg.num < 65536) (hi : bits.bit i = true) :
    ((s.setInt pg bits).reg pg 0x30).bit i = true := by
  refine intKept_intCross _ _ _ _ hp i ?_
  simp [State.reg_intRaise, hi]

theorem State.bit_setIntBit (s : State) (pg : Page) {b : Nat} (hp : pg.num < 65536) (hb : b < 64) :
    ((s.setIntBit pg b).reg pg 0x30).bit b = true := State.bit_setInt s pg _ hp (by simp [hb])

/-- On every page but TRS, which counts its own message, INT_STAT takes the bits and no others. -/
theorem State.reg_setInt_of_ne_trs (s : State) (pg : Page) (bits : Word) (hp : pg.num < 65536) (h : pg ≠ Blk.trs.page) :
    (s.setInt pg bits).reg pg 0x30 = s.reg pg 0x30 ||| bits := by
  rw [State.setInt, State.reg_intCross_ne _ _ _ _ _ (farFrom_trs hp (by decide) (.inl h)), State.reg_intRaise]

/-! ## CMD_STAT -/

/-- CMD_STAT lies apart from INT_STAT and from what counters write. -/
theorem cmdStatOff_range (b : Blk) : cmdStatOff b < 65536 ∧ cmdStatOff b ≠ 0x30 ∧ cmdStatOff b ∉ ctrRegs := by
  cases b <;> decide

theorem cmdStatWord_not_busy (b : Blk) (op obj : Nat) (st : Status) (seq : Nat) : (cmdStatWord b op obj st seq).bit 63 = false := by
  have h0 : Word.bit 0#64 63 = false := rfl
  cases b <;> simp [cmdStatWord, seqBits, h0]

theorem cmdDoneBit_lt (b : Blk) : cmdDoneBit b < 64 := by
  unfold cmdDoneBit; split <;> decide

theorem State.reg_cmdEnd_stat (s : State) (b : Blk) (op obj : Nat) (st : Status) :
    (s.cmdEnd b op obj st).reg b.page (cmdStatOff b) =
      cmdStatWord b op obj st ((s.reg b.page (cmdStatOff b)).field (seqBits b - 1) 0 + 1) := by
  obtain ⟨hlt, h30, hctr⟩ := cmdStatOff_range b
  rw [State.cmdEnd, State.setIntBit,
    State.reg_setInt_far _ _ _ _ _ (Page.key_ne_same _ h30) (farFrom_trs (by decide : (0 : Nat) < 65536) hlt (.inr hctr)), State.reg_setReg]

theorem State.reg_cmdEnd_intStat (s : State) (b : Blk) (op obj : Nat) (st : Status) (h : b ≠ .trs) :
    (s.cmdEnd b op obj st).reg b.page 0x30 = s.reg b.page 0x30 ||| Word.oneBit (cmdDoneBit b) := by
  obtain ⟨-, h30, -⟩ := cmdStatOff_range b
  rw [State.cmdEnd, State.setIntBit, State.reg_setInt_of_ne_trs _ _ _ (by decide : (0 : Nat) < 65536) (fun e => h (congrArg Page.blk e)),
    State.reg_setReg_ne _ _ _ _ _ _ (Page.key_ne_same _ h30.symm)]

/-- Every command that writes a CMD register is that write, with a word and a meaning of its own. -/
theorem exec_of_cmdBlk {c : Instr} {b : Blk} (h : cmdBlk c = some b) :
    ∃ (val : Word) (run : Word → State → State), ∀ s, exec c s = .next (s.takeCmd b val run) := by
  unfold cmdBlk at h
  split at h <;> cases h <;> exact ⟨_, _, fun _ => rfl⟩

/-! ## The gates of the clusters -/

/-- No gate stands before a page of the field side. -/
theorem State.pageAccess_field (s : State) {pg : Page} (h : blkField pg.blk = true) : s.pageAccess pg = s := by
  have hc : s.pageCluster pg = none := by
    unfold State.pageCluster
    cases hb : pg.blk <;> simp_all [blkField]
  simp [State.pageAccess, hc]

@[simp] theorem State.gateUp_flt (s : State) (c : Nat) : (s.gateUp c).flt = s.flt := by simp [State.gateUp, State.setGate]

@[simp] theorem State.gateClose_flt (s : State) (c : Nat) : (s.gateClose c).flt = s.flt := by simp [State.gateClose, State.setGate]

@[simp] theorem State.pllStart_flt (s : State) (n : Nat) : (s.pllStart n).flt = s.flt := by
  simp [State.pllStart, State.setPll, State.railRaise, apply_ite State.flt]

/-- An access that opens a gate changes nothing of the faults and the safe state. -/
@[simp] theorem State.pageAccess_flt (s : State) (pg : Page) : (s.pageAccess pg).flt = s.flt := by
  unfold State.pageAccess State.wakeCluster
  dsimp only
  repeat' split
  all_goals simp [State.setGate]

/-! ## A write to a CMD register that is not taken -/

section
variable {s : State} {b : Blk} (val : Word) (run : Word → State → State)

theorem State.takeCmd_safe (hs : s.flt.safe = true) (hb : b ≠ .flt) : s.takeCmd b val run = s := by
  simp [State.takeCmdAt, hs, hb]

/-- Past the safe state, a write to a CMD register goes by the state with the page's gate open. -/
theorem State.takeCmd_not_safe (hs : s.flt.safe = false ∨ b = .flt) :
    s.takeCmd b val run =
      (let t := s.pageAccess b.page
       if t.cmdBusy b then t.refuse b.page (cmdOff b)
       else if blkField b && decide (b ≠ .flt) && t.flt.planes.contains 2 then t.refuse b.page (cmdOff b)
       else if t.entryHeld b.page then { (t.setBusy b true) with entry := t.entry ++ [(b.page, val)] }
       else run val t) := by
  have h : (s.flt.safe && decide (b ≠ .flt)) = false := by rcases hs with hs | hs <;> simp [hs]
  simp only [State.takeCmd, State.takeCmdAt, h, Bool.false_eq_true, if_false]

theorem State.takeCmd_busy (hs : s.flt.safe = false ∨ b = .flt) (hg : GateOpen s b.page) (hc : s.cmdBusy b = true) :
    s.takeCmd b val run = s.refuse b.page (cmdOff b) := by
  rw [State.takeCmd_not_safe val run hs, State.pageAccess_open hg]
  simp [hc]

theorem State.takeCmd_contained (hs : s.flt.safe = false) (hc : s.cmdBusy b = false) (hf : blkField b = true) (hb : b ≠ .flt)
    (hp : s.flt.planes.contains 2 = true) : s.takeCmd b val run = s.refuse b.page (cmdOff b) := by
  have h : (blkField b && decide (b ≠ .flt) && s.flt.planes.contains 2) = true := by
    simp only [hf, hp, ne_eq, hb, not_false_eq_true, decide_true, Bool.and_true]
  rw [State.takeCmd_not_safe val run (.inl hs), State.pageAccess_field s hf]
  simp only [hc, h, Bool.false_eq_true, if_false, if_true]

theorem State.takeCmd_held (hs : s.flt.safe = false ∨ b = .flt) (hg : GateOpen s b.page) (hc : s.cmdBusy b = false)
    (hp : blkField b = false ∨ b = .flt ∨ s.flt.planes.contains 2 = false) (he : s.entryHeld b.page = true) :
    s.takeCmd b val run = { (s.setBusy b true) with entry := s.entry ++ [(b.page, val)] } := by
  have h : (blkField b && decide (b ≠ .flt) && s.flt.planes.contains 2) = false := by
    rcases hp with hp | hp | hp <;> simp only [hp, Bool.false_and, Bool.and_false, ne_eq, not_true, decide_false]
  rw [State.takeCmd_not_safe val run hs, State.pageAccess_open hg]
  simp only [hc, h, he, Bool.false_eq_true, if_false, if_true]

end

/-- A write to a CMD register is what it is with the gate of the page's cluster open, where the access opens it (R33). -/
theorem State.takeCmd_pageAccess {s : State} {b : Blk} (val : Word) (run : Word → State → State) (hs : s.flt.safe = false)
    (hg : GateOpen (s.pageAccess b.page) b.page) : s.takeCmd b val run = (s.pageAccess b.page).takeCmd b val run := by
  rw [State.takeCmd_not_safe val run (.inl hs), State.takeCmd_not_safe val run (.inl (by rw [State.pageAccess_flt, hs])),
    State.pageAccess_open hg]

end Sys2Proof.Machine
end

section
/-! SUPPORT. Shadow sets and swap points: where staged registers lie, what writing one register after another reads as, and what a
write of the host to the common header of a page comes to where it reaches the page. -/

namespace Sys2Proof.Machine

/-! ## Writing registers one after another -/

/-- A fold of writes leaves every register whose key none of them has. -/
theorem State.reg_foldl_setReg_ne (s : State) (pg q : Page) (off : Nat → Nat) (val : Nat → Word) (l : List Nat) {o : Nat}
    (h : ∀ i ∈ l, q.key o ≠ pg.key (off i)) : (l.foldl (fun t i => t.setReg pg (off i) (val i)) s).reg q o = s.reg q o := by
  induction l generalizing s with
  | nil => rfl
  | cons i r ih =>
    rw [List.foldl_cons, ih _ (fun j hj => h j (List.mem_cons_of_mem _ hj)), State.reg_setReg_ne _ _ _ _ _ _ (h i List.mem_cons_self)]

/-- A register of a fold of writes to different offsets reads what is written to it. -/
theorem State.reg_foldl_setReg (s : State) (pg : Page) (off : Nat → Nat) (hoff : ∀ i j, off i = off j → i = j) (val : Nat → Word)
    {l : List Nat} {i : Nat} (hi : i ∈ l) : (l.foldl (fun t i => t.setReg pg (off i) (val i)) s).reg pg (off i) = val i := by
  induction l generalizing s with
  | nil => cases hi
  | cons j r ih =>
    by_cases hr : i ∈ r
    · exact ih _ hr
    · have hij : i = j := (List.mem_cons.mp hi).resolve_right hr
      have hne : ∀ k ∈ r, pg.key (off i) ≠ pg.key (off k) := fun k hk => Page.key_ne_same pg fun e => hr (by rwa [hoff _ _ e])
      rw [List.foldl_cons, State.reg_foldl_setReg_ne _ _ _ _ _ _ hne, hij, State.reg_setReg]

theorem onlyRegs_foldl {α : Type} {s t : State} {f : State → α → State} (hf : ∀ u x, OnlyRegs s u → OnlyRegs s (f u x))
    (l : List α) (h : OnlyRegs s t) : OnlyRegs s (l.foldl f t) := by
  induction l generalizing t with
  | nil => exact h
  | cons x r ih => exact ih (hf _ _ h)

end Sys2Proof.Machine

namespace Sys2Proof

/-! ## Bits of words -/

theorem Word.bit_of {n i : Nat} (hi : i < 64) : (Word.of n).bit i = n.testBit i := by
  rw [Word.bit, Word.of, BitVec.toNat_ofNat, Nat.testBit_mod_two_pow, decide_eq_true hi, Bool.true_and]

theorem Word.bit_and (a b : Word) (i : Nat) : (a &&& b).bit i = (a.bit i && b.bit i) := by
  simp [Word.bit]

/-! ## Where staged registers lie (R25) -/

/-- Every word of a staged register lies from 0x100 to 0x7FF, so that its shadow lies from 0x800 to 0xEFF. -/
def RegDef.stagedInBounds (d : RegDef) : Bool := !d.staged || (decide (0x100 ≤ d.off) && decide (d.off + d.n * d.stride < 0x800))

theorem ownRegs_stagedInBounds (pg : Page) : ∀ d ∈ pg.ownRegs, d.stagedInBounds = true := by
  have hvip : ∀ d ∈ vipRegs, d.stagedInBounds = true := by decide
  have hfwi : ∀ d ∈ fwiRegs, d.stagedInBounds = true := by decide
  have hkvs : ∀ d ∈ kvsRegs, d.stagedInBounds = true := by decide
  have hatt : ∀ d ∈ attRegs, d.stagedInBounds = true := by decide
  have hckp : ∀ d ∈ ckpRegs, d.stagedInBounds = true := by decide
  obtain ⟨b, n⟩ := pg
  cases b
  case fwi => simp only [Page.ownRegs]; split <;> assumption
  case kvs => simp only [Page.ownRegs]; split; exacts [hkvs, fun d hd => hkvs d (List.mem_of_mem_filter hd)]
  case att => simp only [Page.ownRegs]; split; exacts [hatt, fun d hd => hatt d (List.mem_of_mem_filter hd)]
  case ckp => simp only [Page.ownRegs]; split; exacts [hckp, fun d hd => hckp d (List.mem_of_mem_filter hd)]
  all_goals simp only [Page.ownRegs]; decide

theorem regs_stagedInBounds (pg : Page) : ∀ d ∈ pg.regs, d.stagedInBounds = true := by
  intro d hd
  simp only [Page.regs, List.mem_append] at hd
  rcases hd with (hd | hd) | hd
  · exact (by decide : ∀ d ∈ headRegs, d.stagedInBounds = true) d hd
  · exact ownRegs_stagedInBounds pg d hd
  · have h8 := Machine.pageCtrN_le pg
    have hsel : 0x700 + pg.ctrN * 8 < 0x800 := by omega
    split at hd
    · cases hd
    · rcases List.mem_cons.mp hd with hd | hd
      · simp [hd, Page.ctrSel, RegDef.stagedInBounds, hsel]
      · simp [List.mem_singleton.mp hd, RegDef.stagedInBounds]

theorem staged_bounds {pg : Page} {o : Nat} (h : o ∈ pg.staged) : 0x100 ≤ o ∧ o < 0x800 := by
  unfold Page.staged at h
  split at h
  · obtain ⟨d, hd, ho⟩ := List.mem_flatMap.mp h
    obtain ⟨hd, hs⟩ := List.mem_filter.mp hd
    obtain ⟨i, hi, rfl⟩ := List.mem_map.mp ho
    have hb := regs_stagedInBounds pg d hd
    have hle : i * d.stride ≤ d.n * d.stride := Nat.mul_le_mul_right _ (List.mem_range.mp hi).le
    simp only [RegDef.stagedInBounds, hs, Bool.not_true, Bool.false_or, Bool.and_eq_true, decide_eq_true_eq] at hb
    omega
  · cases h

end Sys2Proof

namespace Sys2Proof.Machine

/-! ## Registers of one page after its own updates -/

/-- The number of a page that the device has fits its field in PG_ID. -/
theorem pageNum_lt {pg : Page} (h : pg.exist = true) : pg.num < 65536 := by
  have hp : pg.blk.pages ≤ 80 := by cases pg.blk <;> decide
  simp only [Page.exist, Bool.or_eq_true, Bool.and_eq_true, decide_eq_true_eq] at h
  omega

/-- A bit of INT_STAT leaves every register that no counter writes. -/
theorem State.reg_setIntBit_same (s : State) {pg : Page} (b : Nat) {o : Nat} (hp : pg.num < 65536) (ho : o < 65536)
    (h : o ∉ ctrRegs) : (s.setIntBit pg b).reg pg o = s.reg pg o :=
  State.reg_setInt_far _ _ _ _ _ (Page.key_ne_same _ fun e => h (by rw [e]; decide)) (farFrom_trs hp ho (.inr h))

section
variable {s t : State} {pg : Page} {offs : List Nat} (hp : pg.num < 65536)

theorem otherRegs_refl (s : State) (pg : Page) (offs : List Nat) : OtherRegs s s pg offs := fun _ _ _ _ _ => rfl

/-- None of the offsets named is the key of another register. -/
theorem key_ne_of_other {q : Page} {o k : Nat} (hp : pg.num < 65536) (hq : q.num < 65536) (ho : o < 65536) (hk : k < 65536)
    (hko : k ∈ offs) (h : q ≠ pg ∨ o ∉ offs) : q.key o ≠ pg.key k :=
  Page.key_ne hq hp ho hk (h.imp_right fun hn e => hn (e ▸ hko))

include hp

theorem otherRegs_setReg {k : Nat} (v : Word) (hk : k < 65536) (hko : k ∈ offs) (h : OtherRegs s t pg offs) :
    OtherRegs s (t.setReg pg k v) pg offs := fun q o hq ho hn => by
  rw [State.reg_setReg_ne _ _ _ _ _ _ (key_ne_of_other hp hq ho hk hko hn), h q o hq ho hn]

theorem otherRegs_setIntBit (b : Nat) (hf : blkField pg.blk = false) (h30 : 0x30 ∈ offs) (h : OtherRegs s t pg offs) :
    OtherRegs s (t.setIntBit pg b) pg offs := fun q o hq ho hn => by
  rw [State.reg_setIntBit_ne _ _ _ _ _ hf (key_ne_of_other hp hq ho (by decide) h30 hn), h q o hq ho hn]

/-- The same on any page, but for what TRS counts where the interrupt crosses the barrier. -/
theorem otherRegsBar_setReg {k : Nat} (v : Word) (hk : k < 65536) (hko : k ∈ offs) (h : OtherRegsBar s t pg offs) :
    OtherRegsBar s (t.setReg pg k v) pg offs := fun q o hq ho hn ht => by
  rw [State.reg_setReg_ne _ _ _ _ _ _ (key_ne_of_other hp hq ho hk hko hn), h q o hq ho hn ht]

theorem otherRegsBar_setIntBit (b : Nat) (h30 : 0x30 ∈ offs) (h : OtherRegsBar s t pg offs) :
    OtherRegsBar s (t.setIntBit pg b) pg offs := fun q o hq ho hn ht => by
  rw [State.setIntBit, State.reg_setInt_far _ _ _ _ _ (key_ne_of_other hp hq ho (by decide) h30 hn) (farFrom_trs hq ho ht),
    h q o hq ho hn ht]

end

/-! ## A refusal (R39) -/

theorem onlyRegs_refuse {s t : State} (pg : Page) (off : Nat) (h : OnlyRegs s t) : OnlyRegs s (t.refuse pg off) := by
  unfold State.refuse
  dsimp only
  split
  · exact onlyRegs_setReg _ _ _ h
  · exact onlyRegs_setInt _ _ (onlyRegs_setReg _ _ _ h)

theorem otherRegs_refuse {s t : State} {pg : Page} {offs : List Nat} (off : Nat) (hp : pg.num < 65536) (hf : blkField pg.blk = false)
    (h18 : 0x18 ∈ offs) (h30 : 0x30 ∈ offs) (h : OtherRegs s t pg offs) : OtherRegs s (t.refuse pg off) pg offs := by
  unfold State.refuse
  dsimp only
  split
  · exact otherRegs_setReg hp _ (by decide) h18 h
  · exact otherRegs_setIntBit hp _ hf h30 (otherRegs_setReg hp _ (by decide) h18 h)

theorem State.refused_refuse (s : State) {pg : Page} (off : Nat) (hp : pg.num < 65536) : ((s.refuse pg off).reg pg 0x18).bit 63 = true := by
  unfold State.refuse
  dsimp only
  split
  · simp
  · rw [State.reg_setIntBit_same _ _ hp (by decide) (by decide)]
    simp

/-! ## SWAP_STAT (R36, R37) -/

theorem onlyRegs_swapFlag {s t : State} (pg : Page) (b : Nat) (h : OnlyRegs s t) : OnlyRegs s (t.swapFlag pg b) := by
  unfold State.swapFlag
  dsimp only
  split
  · exact onlyRegs_setReg _ _ _ h
  · exact onlyRegs_setInt _ _ (onlyRegs_setReg _ _ _ h)

theorem State.reg_swapFlag (s : State) {pg : Page} (b : Nat) (hp : pg.num < 65536) :
    (s.swapFlag pg b).reg pg 0x28 = (s.reg pg 0x28).setBit b true := by
  unfold State.swapFlag
  dsimp only
  split
  · simp
  · rw [State.reg_setIntBit_same _ _ hp (by decide) (by decide), State.reg_setReg]

theorem otherRegs_swapFlag (s : State) {pg : Page} (b : Nat) (hp : pg.num < 65536) (hf : blkField pg.blk = false) :
    OtherRegs s (s.swapFlag pg b) pg [0x28, 0x30] := by
  have h := otherRegs_setReg (k := 0x28) hp ((s.reg pg 0x28).setBit b true) (by decide) (by decide) (otherRegs_refl s pg [0x28, 0x30])
  unfold State.swapFlag
  dsimp only
  split
  · exact h
  · exact otherRegs_setIntBit hp _ hf (by decide) h

section
variable (s : State) {pg : Page} (off : Nat) (hp : pg.num < 65536)

theorem onlyRegs_swapReject (pg : Page) : OnlyRegs s (s.swapReject pg off) :=
  onlyRegs_setInt _ _ (onlyRegs_setReg _ _ _ (onlyRegs_setReg _ _ _ (onlyRegs_refl s)))

include hp

theorem otherRegsBar_swapReject : OtherRegsBar s (s.swapReject pg off) pg [0x18, 0x28, 0x30] :=
  otherRegsBar_setIntBit hp _ (by decide) (otherRegsBar_setReg hp _ (by decide) (by decide)
    (otherRegsBar_setReg hp _ (by decide) (by decide) fun _ _ _ _ _ _ => rfl))

/-- A rejection clears PENDING and sets FAILED. -/
theorem State.reg_swapReject_swapStat :
    (s.swapReject pg off).reg pg 0x28 = ((s.reg pg 0x28).setBit 0 false).setBit 4 true := by
  unfold State.swapReject
  dsimp only
  rw [State.reg_setIntBit_same _ _ hp (by decide) (by decide), State.reg_setReg_ne _ _ _ _ _ _ (Page.key_ne_same _ (by decide)),
    State.reg_setReg]

/-- REFUSED_OFF names the shadow that failed. -/
theorem State.reg_swapReject_pgStat :
    (s.swapReject pg off).reg pg 0x18 = (s.reg pg 0x18).setField 59 32 (off + 0x700) := by
  unfold State.swapReject
  dsimp only
  rw [State.reg_setIntBit_same _ _ hp (by decide) (by decide), State.reg_setReg,
    State.reg_setReg_ne _ _ _ _ _ _ (Page.key_ne_same _ (by decide))]

end

/-! ## The copy of the shadow set (R36 step 5, R38) -/

theorem staged_not_ctr {pg : Page} {o : Nat} (h : o ∈ pg.staged) : o ∉ ctrRegs ∧ o + 0x700 ∉ ctrRegs := by
  have hb := staged_bounds h
  have hc : ∀ k ∈ ctrRegs, k < 0x100 ∨ 0xF00 ≤ k := by decide
  exact ⟨fun hk => by have := hc _ hk; omega, fun hk => by have := hc _ hk; omega⟩

section
variable (s : State) {pg : Page} {o : Nat}

/-- Keeping the set before leaves every offset below that of its copies. -/
theorem State.reg_swapPrev (pg : Page) (h : o < 0x8000) : (s.swapPrev pg).reg pg o = s.reg pg o := by
  unfold State.swapPrev
  split
  · exact State.reg_foldl_setReg_ne s pg pg (fun i => i + 0x8000) (fun i => s.reg pg i) _ fun i _ => Page.key_ne_same _ (by omega)
  · rfl

variable (hp : pg.num < 65536)
include hp

/-- The new SWAP_STAT: PENDING falls and APPLIED counts one more generation. -/
theorem State.reg_swapLive_swapStat :
    (s.swapLive pg).reg pg 0x28 = ((s.reg pg 0x28).setBit 0 false).setField 63 32 ((s.reg pg 0x28).field 63 32 + 1) := by
  unfold State.swapLive
  dsimp only
  rw [State.reg_setIntBit_same _ _ hp (by decide) (by decide), State.reg_setReg]

theorem State.reg_swapLive_live (h : o ∈ pg.staged) : (s.swapLive pg).reg pg o = s.reg pg (o + 0x700) := by
  have hb := staged_bounds h
  unfold State.swapLive
  dsimp only
  rw [State.reg_setIntBit_same _ _ hp (by omega) (staged_not_ctr h).1, State.reg_setReg_ne _ _ _ _ _ _ (Page.key_ne_same _ (by omega))]
  exact State.reg_foldl_setReg s pg id (fun _ _ e => e) (fun i => s.reg pg (i + 0x700)) h

theorem State.reg_swapLive_shadow (h : o ∈ pg.staged) : (s.swapLive pg).reg pg (o + 0x700) = s.reg pg (o + 0x700) := by
  have hb := staged_bounds h
  unfold State.swapLive
  dsimp only
  rw [State.reg_setIntBit_same _ _ hp (by omega) (staged_not_ctr h).2, State.reg_setReg_ne _ _ _ _ _ _ (Page.key_ne_same _ (by omega))]
  exact State.reg_foldl_setReg_ne s pg pg id (fun i => s.reg pg (i + 0x700)) _ fun i hi =>
    Page.key_ne_same _ (by have := staged_bounds hi; simp only [id]; omega)

theorem State.bit_swapLive_done : ((s.swapLive pg).reg pg 0x30).bit 0 = true := State.bit_setIntBit _ _ hp (by decide)

end

/-! ## SHADOW_SYNC (R36) -/

/-- Copying live registers into their shadows one after another reads each as it was before. -/
theorem State.shadowSync_fold (s : State) (pg : Page) {l : List Nat} (hl : ∀ o ∈ l, o < 0x800) (h100 : ∀ o ∈ l, 0x100 ≤ o) :
    l.foldl (fun t o => t.setReg pg (o + 0x700) (t.reg pg o)) s = l.foldl (fun t o => t.setReg pg (o + 0x700) (s.reg pg o)) s := by
  refine List.foldl_rel (r := fun t u => t = u ∧ ∀ o ∈ l, t.reg pg o = s.reg pg o) ⟨rfl, fun _ _ => rfl⟩ ?_ |>.1
  rintro o ho t u ⟨rfl, ht⟩
  refine ⟨by rw [ht o ho], fun k hk => ?_⟩
  have := hl k hk
  have := h100 o ho
  rw [State.reg_setReg_ne _ _ _ _ _ _ (Page.key_ne_same _ (by omega)), ht k hk]

theorem State.swapPending_setReg_ctrl (s : State) (pg : Page) (w : Word) :
    (s.setReg pg 0x10 w).swapPending pg = s.swapPending pg := by
  rw [State.swapPending, State.reg_setReg_ne _ _ _ _ _ _ (Page.key_ne_same _ (by decide)), State.swapPending]

/-- With no swap pending every shadow takes its live register. -/
theorem State.shadowSync_copies {s : State} {pg : Page} (hs : pg.shadow = true) (hn : s.swapPending pg = false) :
    s.shadowSync pg = pg.staged.foldl (fun t o => t.setReg pg (o + 0x700) (s.reg pg o)) s := by
  rw [State.shadowSync, hs, hn, ← State.shadowSync_fold s pg (fun _ h => (staged_bounds h).2) (fun _ h => (staged_bounds h).1)]
  rfl

theorem State.shadowSync_pending {s : State} {pg : Page} (hn : s.swapPending pg = true) : s.shadowSync pg = s.refuse pg 0x10 := by
  simp [State.shadowSync, hn]

/-! ## A write of the host that reaches its page (R33, R74, R77, R477) -/

section
variable {s : State} {pg : Page}

theorem Reached.hostPageWrite (h : Reached s pg) {off width : Nat} (val : Word) (hok : accessOk off width = true) :
    s.hostPageWrite pg off width val = s.wordPut pg off width (placed off width val) (wroteMask off width) := by
  obtain ⟨hd, hp, hs, hf, he, hb, hg⟩ := h
  have hfrozen : (s.frozen && decide (pg.blk ≠ .hlk)) = false := by
    cases hv : s.frozen
    · rfl
    · simp [hf hv]
  rw [State.hostPageWrite, State.pageGate, hfrozen]
  simp [State.pagePut, State.regPut, hd, hp, hs, he, hb, hok, State.pageAccess_open hg]

theorem Reached.num_lt (h : Reached s pg) : pg.num < 65536 := by
  obtain ⟨-, -, -, -, he, -, -⟩ := h
  exact pageNum_lt he

theorem Reached.host (h : Reached s pg) : blkField pg.blk = false := by
  obtain ⟨-, -, -, -, -, hb, -⟩ := h
  exact hb

/-- A write of all of SWAP_REQ. -/
theorem Reached.swapReq (h : Reached s pg) (val : Word) :
    exec (.swapArm pg 0x20 8 val) s = .next (s.swapReq pg val) ∧ exec (.swapCancel pg 0x20 8 val) s = .next (s.swapReq pg val) := by
  have hw : s.hostPageWrite pg 0x20 8 val = s.swapReq pg val := by
    rw [h.hostPageWrite val (by decide)]
    simp [State.wordPut, State.headPut, placed]
  exact ⟨congrArg _ hw, congrArg _ hw⟩

/-- A write of the lower half of SWAP_REQ with ARM is refused. -/
theorem Reached.swapReq_half (h : Reached s pg) {val : Word} (h0 : val.bit 0 = true) :
    exec (.swapArm pg 0x20 4 val) s = .next (s.refuse pg 0x20) := by
  have hp : placed 0x20 4 val = Word.of (val.field 31 0) := rfl
  have hne : (placed 0x20 4 val).field 1 0 ≠ 0 := fun e => by
    have h1 : ((placed 0x20 4 val).field 1 0).testBit 0 = true := by
      rw [hp, Word.testBit_field, Word.bit_of (by decide), Word.testBit_field, h0]
      rfl
    simp [e] at h1
  have hw : s.hostPageWrite pg 0x20 4 val = s.refuse pg 0x20 := by
    rw [h.hostPageWrite val (by decide)]
    simp [State.wordPut, State.headPut, hne]
  exact congrArg _ hw

/-- SHADOW_SYNC writes PG_CTRL and then syncs. -/
theorem Reached.shadowSync (h : Reached s pg) :
    ∃ w, exec (.shadowSync pg) s = .next ((s.setReg pg 0x10 w).shadowSync pg) := by
  refine ⟨((s.reg pg 0x10 &&& 1) ||| 4) &&& 1, ?_⟩
  have h1 : ((s.reg pg 0x10 &&& 1) ||| 4).bit 1 = false := by
    rw [Word.bit_or, Word.bit_and, (by decide : (1 : Word).bit 1 = false), (by decide : (4 : Word).bit 1 = false), Bool.and_false,
      Bool.or_false]
  have h2 : ((s.reg pg 0x10 &&& 1) ||| 4).bit 2 = true := by
    rw [Word.bit_or, (by decide : (4 : Word).bit 2 = true), Bool.or_true]
  have hm : (wroteMask 0x10 8).bit 0 = true := by decide
  have hw : s.hostPageWrite pg 0x10 8 ((s.reg pg 0x10 &&& 1) ||| 4) =
      (s.setReg pg 0x10 (((s.reg pg 0x10 &&& 1) ||| 4) &&& 1)).shadowSync pg := by
    rw [h.hostPageWrite _ (by decide)]
    show (if (wroteMask 0x10 8).bit 0 then s.ctrlWritten pg ((s.reg pg 0x10 &&& 1) ||| 4) else s) = _
    simp only [hm, if_true, State.ctrlWritten, h1, h2, Bool.false_eq_true, if_false]
  exact congrArg _ hw

end
end Sys2Proof.Machine
end

section
/-! SUPPORT. The isolation barrier (R357 to R359): its four channels, what a count on a page of the field side writes, the frames that a
message becomes, and the raises that go before it. -/

namespace Sys2Proof.Machine

/-! ## Channels -/

@[simp] theorem State.chan_setChan (s : State) (side : Side) (cls : MsgClass) (b : BChan) : (s.setChan side cls b).chan side cls = b := by
  cases side <;> cases cls <;> rfl

theorem State.chan_setChan_ne (s : State) {side side' : Side} {cls cls' : MsgClass} (b : BChan) (h : side' ≠ side ∨ cls' ≠ cls) :
    (s.setChan side cls b).chan side' cls' = s.chan side' cls' := by
  cases side <;> cases side' <;> cases cls <;> cases cls' <;> simp_all [State.chan, State.setChan]

@[simp] theorem State.setChan_out (s : State) (side : Side) (cls : MsgClass) (b : BChan) : (s.setChan side cls b).out = s.out := by
  cases side <;> cases cls <;> rfl

@[simp] theorem State.setChan_bar_reads (s : State) (side : Side) (cls : MsgClass) (b : BChan) :
    (s.setChan side cls b).bar.reads = s.bar.reads := by
  cases side <;> cases cls <;> rfl

@[simp] theorem State.chan_emit (s : State) (o : Out) (side : Side) (cls : MsgClass) : (s.emit o).chan side cls = s.chan side cls := by
  cases side <;> cases cls <;> rfl

@[simp] theorem State.emit_out (s : State) (o : Out) : (s.emit o).out = s.out ++ [o] := rfl

@[simp] theorem otherSide_ne (side : Side) : side ≠ otherSide side := by cases side <;> decide

/-! ## Counts on a page of the field side write registers alone -/

/-- The registers of t are all that differs from s. -/
def RegsAlone (s t : State) : Prop := { t with regs := s.regs } = s

section
variable {s t : State} {pg : Page}

theorem RegsAlone.get {α : Type} (f : State → α) (h : RegsAlone s t) (hf : ∀ r, f { t with regs := r } = f t := by intros; rfl) :
    f t = f s := by
  rw [← hf s.regs]
  exact congrArg f (h : _ = s)

theorem RegsAlone.chan (h : RegsAlone s t) (side : Side) (cls : MsgClass) : t.chan side cls = s.chan side cls :=
  h.get (fun u => u.chan side cls) (by intros; cases side <;> cases cls <;> rfl)

theorem regsAlone_setReg (q : Page) (o : Nat) (v : Word) (h : RegsAlone s t) : RegsAlone s (t.setReg q o v) := h

theorem regsAlone_foldl {α : Type} {f : State → α → State} (hf : ∀ u x, RegsAlone s u → RegsAlone s (f u x)) (l : List α)
    (h : RegsAlone s t) : RegsAlone s (l.foldl f t) := by
  induction l generalizing t with
  | nil => exact h
  | cons x r ih => exact ih (hf _ _ h)

variable (hf : blkField pg.blk = true)
include hf

theorem regsAlone_intRaise (bits : Word) (h : RegsAlone s t) : RegsAlone s (t.intRaise pg bits) := by
  simp only [State.intRaise, hf, Bool.not_true, Bool.and_false, Bool.false_eq_true, if_false]
  exact regsAlone_setReg _ _ _ h

theorem regsAlone_counterWrapped (i : Nat) (h : RegsAlone s t) : RegsAlone s (t.counterWrapped pg i) := by
  unfold State.counterWrapped
  dsimp only
  have h1 : RegsAlone s (if t.freezeOnWrap pg then t.setReg pg 0x10 ((t.reg pg 0x10).setBit 0 true) else t) := by
    split
    · exact regsAlone_setReg _ _ _ h
    · exact h
  split
  · split
    · exact regsAlone_intRaise hf _ (regsAlone_intRaise hf _ h1)
    · exact regsAlone_intRaise hf _ h1
  · exact h1

theorem regsAlone_counterAdd (i n : Nat) (h : RegsAlone s t) : RegsAlone s (t.counterAdd pg i n) := by
  unfold State.counterAdd
  dsimp only
  split
  · exact regsAlone_counterWrapped hf _ (regsAlone_setReg _ _ _ h)
  · exact regsAlone_setReg _ _ _ h

theorem regsAlone_countHere (code n : Nat) (h : RegsAlone s t) : RegsAlone s (t.countHere pg code n) := by
  unfold State.countHere
  split
  · exact h
  · refine regsAlone_foldl (fun u i hu => ?_) _ h
    split
    · exact regsAlone_counterAdd hf _ _ hu
    · exact hu

end

/-! ## Frames (R357, R359) -/

section
variable (s : State) (side : Side) (cls : MsgClass) (typ : Nat) (pl : List Nat)

/-- The state in which a frame is on the barrier and kept until it is acknowledged, before TRS counts it. -/
def State.framed : State :=
  (s.setChan side cls { s.chan side cls with
      unacked := (s.chan side cls).unacked ++ [⟨(s.chan side cls).nextSeq, typ, pl, s.clk.fld, 0⟩],
      nextSeq := ((s.chan side cls).nextSeq + 1) % 65536 }).emit
    (.barrier side typ (s.chan side cls).nextSeq pl)

theorem regsAlone_frameRaw : RegsAlone (s.framed side cls typ pl) (s.frameRaw side cls typ pl) :=
  regsAlone_countHere rfl _ _ rfl

theorem State.frameRaw_chan : (s.frameRaw side cls typ pl).chan side cls =
    ⟨(s.chan side cls).unacked ++ [⟨(s.chan side cls).nextSeq, typ, pl, s.clk.fld, 0⟩], (s.chan side cls).waiting,
      ((s.chan side cls).nextSeq + 1) % 65536, (s.chan side cls).expect⟩ := by
  rw [(regsAlone_frameRaw s side cls typ pl).chan, State.framed, State.chan_emit, State.chan_setChan]

theorem State.frameRaw_chan_ne {side' : Side} {cls' : MsgClass} (h : side' ≠ side ∨ cls' ≠ cls) :
    (s.frameRaw side cls typ pl).chan side' cls' = s.chan side' cls' := by
  rw [(regsAlone_frameRaw s side cls typ pl).chan, State.framed, State.chan_emit, State.chan_setChan_ne _ _ h]

theorem State.frameRaw_out : (s.frameRaw side cls typ pl).out = s.out ++ [.barrier side typ (s.chan side cls).nextSeq pl] := by
  rw [(regsAlone_frameRaw s side cls typ pl).get State.out, State.framed, State.emit_out, State.setChan_out]

end

/-! ## What crossing interrupts and raises leave of the other channels -/

theorem State.fieldIrq_chan_ne (s : State) (pg : Page) {side : Side} {cls : MsgClass} (h : side ≠ .field ∨ cls ≠ .mgmt) :
    (s.fieldIrq pg).chan side cls = s.chan side cls := by
  unfold State.fieldIrq
  dsimp only
  split
  · rfl
  · split
    · exact State.frameRaw_chan_ne _ _ _ _ _ h
    · exact State.chan_setChan_ne _ _ h

theorem State.intCross_chan_ne (s old : State) (pg : Page) {side : Side} {cls : MsgClass} (h : side ≠ .field ∨ cls ≠ .mgmt) :
    (s.intCross old pg).chan side cls = s.chan side cls := by
  unfold State.intCross
  split
  · exact State.fieldIrq_chan_ne _ _ h
  · rfl

/-- An interrupt that was due, or is not due, sends nothing. -/
theorem State.intCross_none {s old : State} {pg : Page} (h : old.pageIrq pg = true ∨ s.pageIrq pg = false) : s.intCross old pg = s := by
  rcases h with h | h <;> simp [State.intCross, h]

theorem State.intCross_due {s old : State} {pg : Page} (hf : blkField pg.blk = true) (h0 : old.pageIrq pg = false)
    (h1 : s.pageIrq pg = true) : s.intCross old pg = s.fieldIrq pg := by
  simp [State.intCross, hf, h0, h1]

/-! ## Raises that go first (R14, R359, R468) -/

theorem sendHeld_no_room (q : List Held) : sendHeld q 0 = (q, []) := by
  induction q with
  | nil => rfl
  | cons x r ih => simp [sendHeld, ih]

/-- Either the raises that go out fill the room, or no raise of a host-side page is left. -/
theorem sendHeld_full_or_done (q : List Held) (room : Nat) :
    (sendHeld q room).2.length = room ∨ ∀ h ∈ (sendHeld q room).1, h.fromField = true ∨ h.sent = true := by
  induction q generalizing room with
  | nil => right; intro h hh; cases hh
  | cons x r ih =>
    by_cases hr : room = 0
    · left; rw [hr, sendHeld_no_room]; rfl
    unfold sendHeld
    split
    next hx =>
      refine (ih room).imp id fun h => List.forall_mem_cons.mpr ⟨?_, h⟩
      simpa [hr] using hx
    next hx =>
      refine (ih (room - 1)).imp (fun h => ?_) fun h => List.forall_mem_cons.mpr ⟨.inr rfl, h⟩
      simp only [List.length_cons, h]
      omega

/-- Raises that go out one after another: each is one frame more of the fault class. -/
theorem State.frameOut_foldl_unacked (s : State) (l : List RaiseMsg) :
    ((l.foldl (fun u m => u.frameOut .host .fault 0x00 (raisePayload m)) s).chan .host .fault).unacked.length =
      (s.chan .host .fault).unacked.length + l.length := by
  induction l generalizing s with
  | nil => rfl
  | cons m r ih =>
    rw [List.foldl_cons, ih, State.frameOut, State.intCross_chan_ne _ _ _ (.inl (by decide)), State.frameRaw_chan]
    simp only [List.length_append, List.length_cons, List.length_nil]
    omega

theorem State.frameOut_foldl_flt (s : State) (l : List RaiseMsg) :
    (l.foldl (fun u m => u.frameOut .host .fault 0x00 (raisePayload m)) s).flt = s.flt := by
  induction l generalizing s with
  | nil => rfl
  | cons m r ih => rw [List.foldl_cons, ih, State.frameOut_flt]

/-- After raises were sent, the window of the fault class is full or no raise of a host-side page is left to send. -/
theorem State.sendRaises_full_or_done {s : State} (hp : s.trs.hostPower = true) (hw : (s.chan .host .fault).waiting = []) :
    8 ≤ (s.sendRaises.chan .host .fault).unacked.length ∨
      ∀ h, h ∈ s.sendRaises.flt.queue → h.fromField = true ∨ h.sent = true := by
  have hc : (s.trs.hostPower && (s.chan .host .fault).waiting.isEmpty) = true := by simp [hp, hw]
  simp only [State.sendRaises, hc, if_true]
  rw [State.frameOut_foldl_unacked, State.frameOut_foldl_flt]
  refine (sendHeld_full_or_done s.flt.queue _).imp (fun h => ?_) id
  rw [h]
  show 8 ≤ (s.chan .host .fault).unacked.length + (8 - (s.chan .host .fault).unacked.length)
  omega

theorem State.sendRaises_none {s : State} (h : s.flt.queue = []) : s.sendRaises = s := by
  have hq : ({ s with flt := { s.flt with queue := [] } } : State) = s := by rw [← h]
  unfold State.sendRaises
  dsimp only
  split
  · rw [h]; exact hq
  · rfl

/-! ## Sending (R14, R359) -/

section
variable {s : State} {cls : MsgClass} {side : Side} (typ : Nat) (pl : List Nat)

/-- To a host side without power nothing is sent. -/
theorem State.barrierSend_unpowered (h : s.trs.hostPower = false) : s.barrierSend .field cls typ pl = s := by
  simp [State.barrierSend, h]

/-- Where no raise goes first, a message is a frame as long as its window has room, and waits otherwise. -/
theorem State.barrierSend_eq (hp : side = .host ∨ s.trs.hostPower = true) (hq : side = .host → cls = .mgmt → s.flt.queue = []) :
    s.barrierSend side cls typ pl =
      if (s.chan side cls).unacked.length < 8 ∧ (s.chan side cls).waiting = [] then s.frameOut side cls typ pl
      else s.setChan side cls { s.chan side cls with waiting := (s.chan side cls).waiting ++ [(typ, pl)] } := by
  have h0 : ¬ (side = .field ∧ s.trs.hostPower = false) := by
    rintro ⟨rfl, h⟩
    simp [h] at hp
  have h1 : (if side = .host ∧ cls = .mgmt then s.sendRaises else s) = s := by
    split
    next h => exact State.sendRaises_none (hq h.1 h.2)
    next => rfl
  simp only [State.barrierSend, if_neg h0, h1]

/-- A management message of the host side follows the raises that are ready. -/
theorem State.barrierSend_hostMgmt :
    s.barrierSend .host .mgmt typ pl =
      if (s.sendRaises.chan .host .mgmt).unacked.length < 8 ∧ (s.sendRaises.chan .host .mgmt).waiting = [] then
        s.sendRaises.frameOut .host .mgmt typ pl
      else s.sendRaises.setChan .host .mgmt
        { s.sendRaises.chan .host .mgmt with waiting := (s.sendRaises.chan .host .mgmt).waiting ++ [(typ, pl)] } := by
  simp [State.barrierSend]

end

/-! ## A count on TRS while its interrupts are disabled -/

theorem State.pageIrq_disabled {s : State} {pg : Page} (h : s.reg pg 0x38 = 0) : s.pageIrq pg = false := by
  simp [State.pageIrq, h]

/-- INT_EN of TRS is written by no counter. -/
theorem farFrom_intEn : FarFrom Blk.trs.page 0x38 Blk.trs.page := farFrom_trs (by decide) (by decide) (.inr (by decide))

/-- With INT_EN 0 no message follows a count: it writes registers alone, and INT_EN stays. -/
theorem State.count1_trs_disabled {s : State} (code : Nat) (h : s.reg Blk.trs.page 0x38 = 0) :
    RegsAlone s (s.count1 .trs code) ∧ (s.count1 .trs code).reg Blk.trs.page 0x38 = 0 := by
  have h1 : (s.countHere Blk.trs.page code 1).reg Blk.trs.page 0x38 = 0 := by rw [State.reg_countHere_ne _ _ _ _ _ _ farFrom_intEn, h]
  rw [State.count1, State.count, State.intCross_none (.inr (State.pageIrq_disabled h1))]
  exact ⟨regsAlone_countHere rfl _ _ rfl, h1⟩

/-! ## Accepting frames -/

theorem onlyRegs_barrierAccept {s t : State} (rcv : Side) (cls : MsgClass) (h : OnlyRegs s t) : OnlyRegs s (t.barrierAccept rcv cls) :=
  onlyRegs_count _ _ _ (onlyRegs_emit _ (onlyRegs_setChan _ _ _ h))

section
variable (s : State) (rcv : Side) (cls : MsgClass)

/-- A register that TRS does not count in reads as before. -/
theorem State.reg_barrierAccept {q : Page} {o : Nat} (h : FarFrom q o Blk.trs.page) : (s.barrierAccept rcv cls).reg q o = s.reg q o := by
  rw [State.barrierAccept, State.ackOut, State.reg_count_far _ _ _ _ _ _ h h]
  exact State.reg_setChan ..

variable {s rcv cls} (h : s.reg Blk.trs.page 0x38 = 0)
include h

/-- With the interrupts of TRS disabled, acknowledging a frame writes registers beside the frame itself. -/
theorem State.ackOut_disabled (side : Side) (typ seq : Nat) :
    RegsAlone (s.emit (.barrier side typ (s.chan side .mgmt).nextSeq [classCode cls, seq])) (s.ackOut side typ cls seq) :=
  (State.count1_trs_disabled (s := s.emit _) 1 h).1

/-- An accepted frame moves the SEQ that is expected and is acknowledged. -/
theorem State.barrierAccept_disabled :
    (s.barrierAccept rcv cls).chan (otherSide rcv) cls =
        { s.chan (otherSide rcv) cls with expect := ((s.chan (otherSide rcv) cls).expect + 1) % 65536 } ∧
      (s.barrierAccept rcv cls).out =
        s.out ++ [.barrier rcv 0x19 (s.chan rcv .mgmt).nextSeq [classCode cls, (s.chan (otherSide rcv) cls).expect]] := by
  have h' (b : BChan) : (s.setChan (otherSide rcv) cls b).reg Blk.trs.page 0x38 = 0 := by rw [State.reg_setChan, h]
  rw [State.barrierAccept]
  have hr := State.ackOut_disabled (cls := cls) (h' { s.chan (otherSide rcv) cls with
    expect := ((s.chan (otherSide rcv) cls).expect + 1) % 65536 }) rcv 0x19 (s.chan (otherSide rcv) cls).expect
  refine ⟨?_, ?_⟩
  · rw [hr.chan, State.chan_emit, State.chan_setChan]
  · rw [hr.get State.out, State.emit_out, State.setChan_out, State.chan_setChan_ne _ _ (.inl (otherSide_ne rcv))]

end

/-! ## What sending leaves of the barrier: the SEQ expected and the reads that wait -/

/-- No channel of t expects another SEQ than that of s, and the reads of field pages wait as they did. -/
def BarKept (s t : State) : Prop :=
  t.bar.reads = s.bar.reads ∧ ∀ side cls, (t.chan side cls).expect = (s.chan side cls).expect

theorem BarKept.refl (s : State) : BarKept s s := ⟨rfl, fun _ _ => rfl⟩

theorem BarKept.trans {s t u : State} (h1 : BarKept s t) (h2 : BarKept t u) : BarKept s u :=
  ⟨h2.1.trans h1.1, fun side cls => (h2.2 side cls).trans (h1.2 side cls)⟩

theorem BarKept.of_bar {s t : State} (h : t.bar = s.bar) : BarKept s t := by
  refine ⟨by rw [h], fun side cls => ?_⟩
  cases side <;> cases cls <;> simp only [State.chan, h]

theorem RegsAlone.barKept {s t : State} (h : RegsAlone s t) : BarKept s t := .of_bar (h.get State.bar)

section
variable (s : State)

theorem barKept_setChan (side : Side) (cls : MsgClass) {b : BChan} (h : b.expect = (s.chan side cls).expect) :
    BarKept s (s.setChan side cls b) := by
  refine ⟨State.setChan_bar_reads .., fun side' cls' => ?_⟩
  by_cases hne : side' ≠ side ∨ cls' ≠ cls
  · rw [State.chan_setChan_ne _ _ hne]
  · obtain ⟨rfl, rfl⟩ := not_or.mp hne |>.imp not_not.mp not_not.mp
    rw [State.chan_setChan, h]

theorem barKept_emit (o : Out) : BarKept s (s.emit o) := .of_bar rfl

theorem barKept_frameRaw (side : Side) (cls : MsgClass) (typ : Nat) (pl : List Nat) : BarKept s (s.frameRaw side cls typ pl) := by
  refine BarKept.trans ?_ (regsAlone_frameRaw s side cls typ pl).barKept
  unfold State.framed
  refine BarKept.trans ?_ (barKept_emit _ _)
  exact barKept_setChan s side cls rfl

theorem barKept_fieldIrq (pg : Page) : BarKept s (s.fieldIrq pg) := by
  unfold State.fieldIrq
  dsimp only
  split
  · exact .refl s
  · split
    · exact barKept_frameRaw ..
    · exact barKept_setChan s _ _ rfl

theorem barKept_intCross (old : State) (pg : Page) : BarKept s (s.intCross old pg) := by
  unfold State.intCross
  split
  · exact barKept_fieldIrq ..
  · exact .refl s

theorem barKept_frameOut (side : Side) (cls : MsgClass) (typ : Nat) (pl : List Nat) : BarKept s (s.frameOut side cls typ pl) :=
  (barKept_frameRaw s side cls typ pl).trans (barKept_intCross ..)

theorem barKept_count {pg : Page} (hf : blkField pg.blk = true) (code n : Nat) : BarKept s (s.count pg code n) :=
  (RegsAlone.barKept (regsAlone_countHere hf code n (s := s) rfl)).trans (barKept_intCross ..)

theorem State.msix_bar (v : Nat) : (s.msix v).bar = s.bar := by
  unfold State.msix
  split
  · rfl
  · split
    · rfl
    · split <;> rfl

theorem barKept_setInt (pg : Page) (bits : Word) : BarKept s (s.setInt pg bits) := by
  refine BarKept.trans (.of_bar ?_) (barKept_intCross (s.intRaise pg bits) s pg)
  unfold State.intRaise
  dsimp only
  split
  · rw [State.sendPageIrq, State.msix_bar, State.setReg_bar]
  · rfl

theorem barKept_foldl {α : Type} {f : State → α → State} (hf : ∀ u x, BarKept u (f u x)) (l : List α) : BarKept s (l.foldl f s) := by
  induction l generalizing s with
  | nil => exact .refl s
  | cons x r ih => exact (hf s x).trans (ih _)

theorem barKept_sendRaises : BarKept s s.sendRaises := by
  unfold State.sendRaises
  dsimp only
  split
  · exact BarKept.trans (.of_bar rfl) (barKept_foldl _ (fun u m => barKept_frameOut u _ _ _ _) _)
  · exact .refl s

theorem barKept_latch (pg : Page) (unit bit part : Nat) (lasting : Bool) : BarKept s (s.latch pg unit bit part lasting) := by
  unfold State.latch
  dsimp only
  refine BarKept.trans ?_ (barKept_sendRaises _)
  have h0 (u : Flt) : BarKept s { s with flt := u } := .of_bar rfl
  have h1 (u : Flt) (c : Prop) [Decidable c] :
      BarKept s (if c then ({ s with flt := u } : State).count1 .flt 4 else { s with flt := u }) := by
    split
    · exact (h0 u).trans (barKept_count _ rfl _ _)
    · exact h0 u
  split
  · exact (h1 _ _).trans (barKept_setInt ..)
  · exact h1 _ _

theorem State.barrierAccept_bar_reads (rcv : Side) (cls : MsgClass) : (s.barrierAccept rcv cls).bar.reads = s.bar.reads := by
  rw [State.barrierAccept, State.ackOut, State.count1, (barKept_count _ rfl _ _).1, (barKept_emit _ _).1, State.setChan_bar_reads]

end

/-! ## Resending (R359) -/

/-- An error of one unit leaves the latch words of the others. -/
theorem State.elw_latch_ne (s : State) {pg q : Page} {u v : Nat} (b p : Nat) (l : Bool) (h : elwKey q v ≠ elwKey pg u) :
    (s.latch pg u b p l).elw q v = s.elw q v := by
  have e (x : State) (c d : Prop) [Decidable c] [Decidable d] (k : Nat) : (if c then (if d then x.count1 .flt 4 else x).setIntBit pg k
      else (if d then x.count1 .flt 4 else x)).flt = x.flt := by
    split <;> split <;> simp
  unfold State.elw State.latch
  dsimp only
  rw [State.sendRaises_elws, e, Tab.get_set_ne _ _ _ _ _ h]

/-- A link fault is latched on both sides of the barrier. -/
theorem State.elw_linkFault (s : State) :
    (s.linkFault.elw Blk.trs.page 0).bit 2 = true ∧ (s.linkFault.elw Blk.trs.page 1).bit 2 = true := by
  rw [State.linkFault, State.elw_latch_ne _ _ _ _ (by decide), State.elw_latch, State.elw_latch]
  simp

theorem RegsAlone.trans {s t u : State} (h1 : RegsAlone s t) (h2 : RegsAlone t u) : RegsAlone s u := by
  have e := congrArg (fun x : State => ({ x with regs := s.regs } : State)) (h2 : ({ u with regs := t.regs } : State) = t)
  exact e.trans (h1 : ({ t with regs := s.regs } : State) = s)

theorem RegsAlone.out {s t : State} (h : RegsAlone s t) (o : List Out) : RegsAlone { s with out := o } { t with out := o } := by
  have e := congrArg (fun x : State => ({ x with out := o } : State)) (h : ({ t with regs := s.regs } : State) = s)
  exact e

/-- Frames sent again one after another while the interrupts of TRS are disabled. -/
theorem State.resend_foldl {s : State} (h : s.reg Blk.trs.page 0x38 = 0) (side : Side) (l : List BFrame) :
    RegsAlone { s with out := s.out ++ l.map (fun f => .barrier side f.typ f.seq f.payload) }
      (l.foldl (fun t f => (t.emit (.barrier side f.typ f.seq f.payload)).count1 .trs 2) s) := by
  induction l generalizing s with
  | nil => simp [RegsAlone]
  | cons f r ih =>
    have ⟨hc, hi⟩ := State.count1_trs_disabled (s := s.emit (.barrier side f.typ f.seq f.payload)) 2 h
    have ho := hc.get State.out
    refine RegsAlone.trans ?_ (ih hi)
    rw [ho, State.emit_out, List.append_assoc]
    exact hc.out _

section
variable {s : State} {side : Side} {cls : MsgClass} {n : Nat} {l : List BFrame}
  (h : s.reg Blk.trs.page 0x38 = 0)
  (hl : l = ((s.chan side cls).unacked.drop n).map (fun f => ⟨f.seq, f.typ, f.payload, s.clk.fld, f.resends + 1⟩))
include h hl

/-- Where no frame is resent for the sixteenth time, each goes out again with a new time and one more resend. -/
theorem State.resendFrom_frames (hr : ∀ f, f ∈ l → f.resends ≠ 16) :
    (s.resendFrom side cls n).chan side cls = { s.chan side cls with unacked := (s.chan side cls).unacked.take n ++ l } ∧
      (s.resendFrom side cls n).out = s.out ++ l.map (fun f => .barrier side f.typ f.seq f.payload) := by
  have hany : l.any (fun f => decide (f.resends = 16)) = false := by simpa using hr
  have hf := State.resend_foldl (s := s.setChan side cls { s.chan side cls with unacked := (s.chan side cls).unacked.take n ++ l })
    (by rw [State.reg_setChan, h]) side l
  unfold State.resendFrom
  simp only [← hl, hany, Bool.false_eq_true, if_false]
  refine ⟨?_, ?_⟩
  · rw [hf.chan]
    exact State.chan_setChan ..
  · rw [hf.get State.out, State.setChan_out]

omit h in
/-- A frame that has been resent sixteen times raises the barrier-link fault of both sides. -/
theorem State.resendFrom_fault {f : BFrame} (hf : f ∈ l) (hr : f.resends = 16) :
    ((s.resendFrom side cls n).elw Blk.trs.page 0).bit 2 = true ∧ ((s.resendFrom side cls n).elw Blk.trs.page 1).bit 2 = true := by
  have hany : l.any (fun f => decide (f.resends = 16)) = true := List.any_eq_true.mpr ⟨f, hf, by simpa using hr⟩
  unfold State.resendFrom
  simp only [← hl, hany, if_true]
  exact State.elw_linkFault _

end

/-! ## Frames that are not accepted (R359) -/

theorem keeps_out {s t : State} (h : Keeps s t) : s.out <+: t.out := by
  obtain ⟨-, ho, -⟩ := h
  exact ho

theorem State.exec_barrierFrameBad {s : State} {rcv : Side} {cls : MsgClass} {seq : Nat} {ok : Bool}
    (h : s.reg Blk.trs.page 0x38 = 0) (hb : ok = false ∨ seq ≠ (s.chan (otherSide rcv) cls).expect) :
    Gives (.barrierFrameBad rcv cls seq ok) s (fun t =>
      (∃ o, t.out = (s.out ++ [.barrier rcv 0x1A (s.chan rcv .mgmt).nextSeq [classCode cls, (s.chan (otherSide rcv) cls).expect]]) ++ o) ∧
      (t.chan (otherSide rcv) cls).expect = (s.chan (otherSide rcv) cls).expect ∧
      (t.elw Blk.trs.page (if rcv = .field then 0 else 1)).bit (if ok = true then 1 else 0) = true) := by
  have hn : ¬ (ok = true ∧ seq = (s.chan (otherSide rcv) cls).expect) := by
    rintro ⟨h1, h2⟩
    rcases hb with hb | hb
    · exact absurd (hb.symm.trans h1) (by decide)
    · exact hb h2
  have hack := State.ackOut_disabled (cls := cls) h rcv 0x1A (s.chan (otherSide rcv) cls).expect
  refine ⟨_, if_neg hn, ?_, ?_, ?_⟩
  · obtain ⟨o, ho⟩ := keeps_out (State.latch_keeps Blk.trs.page (if rcv = .field then 0 else 1) (if ok = true then 1 else 0) 0x7F true
      (keeps_refl (s.ackOut rcv 0x1A cls (s.chan (otherSide rcv) cls).expect)))
    refine ⟨o, ?_⟩
    rw [← State.emit_out, ← hack.get State.out]
    exact ho.symm
  · rw [(barKept_latch ..).2, hack.chan, State.chan_emit]
  · rw [State.elw_latch]
    cases ok <;> simp

/-! ## Register accesses that cross (R31, R358) -/

theorem readTaken_none {l : List (Nat × Nat)} {a : Nat} (h : ∀ x, x ∈ l → x.2 ≠ a) : readTaken l a = (none, l) := by
  induction l with
  | nil => rfl
  | cons x r ih =>
    rw [readTaken, if_neg (h x List.mem_cons_self), ih fun y hy => h y (List.mem_cons_of_mem _ hy)]

/-- A value that no core waits for completes the host's read. -/
theorem State.pageValue_host {s : State} {a : Nat} (val : Word) (h : ∀ x, x ∈ s.bar.reads → x.2 ≠ a) :
    s.pageValue a val = s.emit (.readReply none a val) := by
  simp only [State.pageValue, readTaken_none h]

/-- The core at the front of the reads that wait for an address gets the value. -/
theorem State.pageValue_core {s : State} {n a : Nat} {rest : List (Nat × Nat)} (val : Word) (h : s.bar.reads = (n, a) :: rest)
    (hn : (s.core n).page = some (a, none)) :
    s.pageValue a val =
      ({ s with bar := { s.bar with reads := rest } } : State).setCore n { s.core n with page := some (a, some val) } := by
  have hc (b : Bar) : ({ s with bar := b } : State).core n = s.core n := rfl
  simp only [State.pageValue, h, readTaken, if_true, hc, hn]

theorem State.core_of_cores {s t : State} (h : t.cores = s.cores) (n : Nat) : t.core n = s.core n := by
  simp only [State.core, h]

section
variable (s : State) (rcv : Side) (cls : MsgClass)

@[simp] theorem State.barrierAccept_trs : (s.barrierAccept rcv cls).trs = s.trs := onlyRegs_trs (onlyRegs_barrierAccept _ _ (onlyRegs_refl s))
@[simp] theorem State.barrierAccept_cph : (s.barrierAccept rcv cls).cph = s.cph := onlyRegs_cph (onlyRegs_barrierAccept _ _ (onlyRegs_refl s))
@[simp] theorem State.barrierAccept_clk : (s.barrierAccept rcv cls).clk = s.clk := onlyRegs_clk (onlyRegs_barrierAccept _ _ (onlyRegs_refl s))
@[simp] theorem State.barrierAccept_hbm : (s.barrierAccept rcv cls).hbm = s.hbm := onlyRegs_hbm (onlyRegs_barrierAccept _ _ (onlyRegs_refl s))
@[simp] theorem State.barrierAccept_pwr : (s.barrierAccept rcv cls).pwr = s.pwr := onlyRegs_pwr (onlyRegs_barrierAccept _ _ (onlyRegs_refl s))
@[simp] theorem State.barrierAccept_cores : (s.barrierAccept rcv cls).cores = s.cores :=
  onlyRegs_cores (onlyRegs_barrierAccept _ _ (onlyRegs_refl s))

end

/-! ### Messages between the sides, each by its meaning -/

section
variable {s : State} {pg : Page} (off width : Nat) (v : Word) (he : pg.exist = true)

section
variable (hf : blkField pg.blk = true)
include hf he

theorem exec_pageRd : exec (.pageRd pg off) s = .next ((s.barrierAccept .field .mgmt).barrierSend .field .mgmt 0x11
    ([pg.src, off] ++ wordHalves (s.readReg pg (off / 8 * 8)))) := by
  show execPageRd pg off s = _
  simp [execPageRd, hf, he]

theorem exec_pageRdRsp : exec (.pageRdRsp pg off v) s = .next ((s.barrierAccept .host .mgmt).pageValue (pg.offset + off) v) := by
  show execPageRdRsp pg off v s = _
  simp [execPageRdRsp, hf, he]

theorem exec_pageWr : exec (.pageWr pg off width v) s =
    .next (((s.barrierAccept .field .mgmt).regPut true pg off width v).barrierSend .field .mgmt 0x13 [pg.src, off]) := by
  show execPageWr pg off width v s = _
  simp [execPageWr, hf, he]

theorem exec_pageWrAck : exec (.pageWrAck pg off) s = .next (s.barrierAccept .host .mgmt) := by
  show execPageWrAck pg off s = _
  simp [execPageWrAck, hf, he]

end

section
variable (hf : blkField pg.blk = false)
include hf he

theorem exec_hostRd : exec (.hostRd pg off) s =
    .next (((s.barrierAccept .host .mgmt).pageAccess pg).barrierSend .host .mgmt 0x15
      ([pg.src, off] ++ wordHalves (((s.barrierAccept .host .mgmt).pageAccess pg).readReg pg (off / 8 * 8)))) := by
  show execHostRd pg off s = _
  simp [execHostRd, hf, he]

theorem exec_hostRdRsp : exec (.hostRdRsp pg off v) s = .next ((s.barrierAccept .field .mgmt).emit (.fieldReply true [v])) := by
  show execHostRdRsp pg off v s = _
  simp [execHostRdRsp, hf, he]

theorem exec_hostWr : exec (.hostWr pg off width v) s =
    .next (((s.barrierAccept .host .mgmt).regPut false pg off width v).barrierSend .host .mgmt 0x17 [pg.src, off]) := by
  show execHostWr pg off width v s = _
  simp [execHostWr, hf, he]

theorem exec_hostWrAck : exec (.hostWrAck pg off) s = .next (s.barrierAccept .field .mgmt) := by
  show execHostWrAck pg off s = _
  simp [execHostWrAck, hf, he]

end

end

/-- The core that waits for the value of a field page has it, and no other core is touched. -/
theorem exec_pageRdRsp_core {s : State} {pg : Page} {off n : Nat} {rest : List (Nat × Nat)} (v : Word)
    (hf : blkField pg.blk = true) (he : pg.exist = true) (h : s.bar.reads = (n, pg.offset + off) :: rest)
    (hn : (s.core n).page = some (pg.offset + off, none)) : Gives (.pageRdRsp pg off v) s (fun t =>
      (t.core n).page = some (pg.offset + off, some v) ∧ t.bar.reads = rest ∧ ∀ m, m ≠ n → t.core m = s.core m) := by
  have hc (m : Nat) : (s.barrierAccept .host .mgmt).core m = s.core m := State.core_of_cores (State.barrierAccept_cores ..) m
  have hx := exec_pageRdRsp (s := s) off v he hf
  rw [State.pageValue_core v ((State.barrierAccept_bar_reads ..).trans h) (by rw [hc, hn])] at hx
  refine ⟨_, hx, ?_, by rw [State.setCore_bar], fun m hm => ?_⟩
  · rw [State.core_setCore]
  · rw [State.core_setCore_ne _ _ _ _ hm]
    exact hc m

/-! ## Images (R358, R367) -/

/-- A body goes out 52 bytes at a time, and then its end. -/
theorem State.imgStream_eq (s : State) (kind k : Nat) (b : Byte) (bs : List Byte) :
    s.imgStream kind k [] = s.barrierSend .field .mgmt 0x22 [kind] ∧
      s.imgStream kind (k + 1) (b :: bs) =
        (s.barrierSend .field .mgmt 0x21 (kind :: ((b :: bs).take 52).map BitVec.toNat)).imgStream kind k ((b :: bs).drop 52) :=
  ⟨by cases k <;> rfl, rfl⟩

end Sys2Proof.Machine
end

section
/-! ## The obligations of register pages and of the barrier -/

open Sys2Proof Sys2Proof.Machine

/-- Settles O8: CMD_STAT and INT_STAT are what the end of a command writes; beyond them it writes what TRS counts alone. -/
theorem pageCommandEndReportsOutcome : Obligations.PageCommandEndReportsOutcome := by
  unfold Obligations.PageCommandEndReportsOutcome
  intro s b op obj st _
  obtain ⟨hlt, -, -⟩ := cmdStatOff_range b
  have hkey {q : Page} {off : Nat} (hq : q.num < 65536) (ho : off < 65536) (h : q ≠ b.page ∨ off ∉ [cmdStatOff b, 0x30]) :
      q.key off ≠ b.page.key 0x30 ∧ q.key off ≠ b.page.key (cmdStatOff b) :=
    ⟨Page.key_ne hq (by decide : (0 : Nat) < 65536) ho (by decide) (h.imp_right (by simp_all)),
     Page.key_ne hq (by decide : (0 : Nat) < 65536) ho hlt (h.imp_right (by simp_all))⟩
  refine ⟨State.reg_cmdEnd_stat s b op obj st, ?busy, ?done, State.reg_cmdEnd_intStat s b op obj st, ?host, ?field,
    onlyRegs_cmdEnd _ _ _ _ (onlyRegs_refl s)⟩
  case busy => rw [State.cmdBusy, State.reg_cmdEnd_stat, cmdStatWord_not_busy]
  case done => exact State.bit_setIntBit _ _ (by decide : (0 : Nat) < 65536) (cmdDoneBit_lt b)
  case host =>
    intro hb q off hq ho h
    obtain ⟨h30, hstat⟩ := hkey hq ho h
    rw [State.cmdEnd, State.reg_setIntBit_ne _ _ _ _ _ hb h30, State.reg_setReg_ne _ _ _ _ _ _ hstat]
  case field =>
    intro q off hq ho h ht
    obtain ⟨h30, hstat⟩ := hkey hq ho h
    exact State.reg_cmdEnd_ne s b op obj st q off h30 hstat (farFrom_trs hq ho ht)

/-- Settles O9: every such command is a write to a CMD register, which the safe state, a command that runs, a contained plane and
held work stop in this order. -/
theorem pageCommandsWaitOrAreRefused : Obligations.PageCommandsWaitOrAreRefused := by
  unfold Obligations.PageCommandsWaitOrAreRefused
  intro c b s hc
  obtain ⟨val, run, hx⟩ := exec_of_cmdBlk hc
  simp only [hx]
  exact ⟨fun hs hb => by rw [State.takeCmd_safe val run hs hb],
    fun hs hg hy => by rw [State.takeCmd_busy val run hs hg hy],
    fun hs hy hf hb hp => by rw [State.takeCmd_contained val run hs hy hf hb hp],
    fun hs hg hy hp he => ⟨val, by rw [State.takeCmd_held val run hs hg hy hp he]⟩,
    fun hs hg => by rw [State.takeCmd_pageAccess val run hs hg]⟩

/-- Settles O12: each write of SWAP_REQ and PG_CTRL is read off, and the copy and the rejection register by register. -/
theorem swapOfStagedSettings : Obligations.SwapOfStagedSettings := by
  unfold Obligations.SwapOfStagedSettings
  refine ⟨?arm, ?refused, fun s pg val hr h0 => hr.swapReq_half h0, ?cancel, ?sync, ?swapPoint, ?notReady, ?copy, ?reject⟩
  case arm =>
    intro s pg val hr hs h0 h1
    have hx : exec (.swapArm pg 0x20 8 val) s = .next (if val.field 63 32 ≠ s.applied pg then s.swapFlag pg 5 else
        s.setReg pg 0x28 ((s.reg pg 0x28).setBit 0 true)) := by
      rw [(hr.swapReq val).1]
      simp [State.swapReq, h0, h1, hs]
    refine ⟨fun he => by rw [hx, if_neg (not_not.mpr he)], fun he => ⟨s.swapFlag pg 5, by rw [hx, if_pos he], ?_⟩⟩
    exact ⟨State.reg_swapFlag s 5 hr.num_lt, otherRegs_swapFlag s 5 hr.num_lt hr.host, onlyRegs_swapFlag _ _ (onlyRegs_refl s)⟩
  case refused =>
    intro s pg val hr h0 h
    rw [(hr.swapReq val).1]
    rcases h with h | h <;> simp [State.swapReq, h0, h]
  case cancel =>
    intro s pg val hr h0 h1
    rw [(hr.swapReq val).2]
    exact ⟨fun hp => by simp [State.swapReq, h0, h1, hp], fun hp => by simp [State.swapReq, h0, hp]⟩
  case sync =>
    intro s pg hr
    have hp := hr.num_lt
    obtain ⟨w, hx⟩ := hr.shadowSync
    have hw (offs : List Nat) : OtherRegs s (s.setReg pg 0x10 w) pg (0x10 :: offs) :=
      otherRegs_setReg hp _ (by decide) List.mem_cons_self (otherRegs_refl s pg _)
    refine ⟨fun hs hn => ⟨_, hx, ?copied⟩, fun hs hn => ⟨_, hx, ?refusedPending⟩⟩
    case copied =>
      rw [State.shadowSync_copies hs (by rw [State.swapPending_setReg_ctrl, hn])]
      refine ⟨fun o ho => ?_, fun q o hq ho hn => ?_, onlyRegs_foldl (fun _ _ h => onlyRegs_setReg _ _ _ h) _ rfl⟩
      · rw [State.reg_foldl_setReg _ pg (· + 0x700) (fun _ _ e => Nat.add_right_cancel e) _ ho]
        exact State.reg_setReg_ne _ _ _ _ _ _ (Page.key_ne_same _ (by have := staged_bounds ho; omega))
      · have hne : ∀ i ∈ pg.staged, q.key o ≠ pg.key (i + 0x700) := fun i hi =>
          key_ne_of_other hp hq ho (by have := staged_bounds hi; omega) (List.mem_cons_of_mem _ (List.mem_map.mpr ⟨i, hi, rfl⟩)) hn
        rw [State.reg_foldl_setReg_ne _ _ _ (· + 0x700) _ _ hne]
        exact hw _ q o hq ho hn
    case refusedPending =>
      rw [State.shadowSync_pending (by rw [State.swapPending_setReg_ctrl, hn])]
      exact ⟨otherRegs_refuse _ hp hr.host (by decide) (by decide) (hw _), onlyRegs_refuse _ _ rfl, State.refused_refuse _ _ hp⟩
  case swapPoint =>
    rintro s u pg hr rfl
    have hx : exec (.swapApply pg) s = .next (s.swapApply pg) := by
      show execSwapApply pg s = _
      rw [execSwapApply, if_pos hr]
    exact ⟨fun off hf => by rw [hx]; simp only [State.swapApply, hf], fun hf => by rw [hx]; simp only [State.swapApply, hf]⟩
  case notReady =>
    intro s pg hr
    show execSwapApply pg s = _
    simp [execSwapApply, hr]
  case copy =>
    intro s pg he _
    have hp := pageNum_lt he
    have hstat : (s.swapCopy pg).reg pg 0x28 = ((s.reg pg 0x28).setBit 0 false).setField 63 32 (s.applied pg + 1) := by
      rw [State.swapCopy, State.reg_swapLive_swapStat _ hp, State.reg_swapPrev _ _ (by decide), State.applied]
    refine ⟨fun o ho => ?_, ?_, ?_, State.bit_swapLive_done _ hp⟩
    · have hb := staged_bounds ho
      rw [State.swapCopy, State.reg_swapLive_live _ hp ho, State.reg_swapLive_shadow _ hp ho, State.reg_swapPrev _ _ (by omega)]
      exact ⟨rfl, rfl⟩
    · rw [State.swapPending, hstat]
      simp
    · rw [State.applied, hstat]
      simp
  case reject =>
    intro s pg off he hoff
    have hp := pageNum_lt he
    refine ⟨?_, ?_, ?_, ?_, State.bit_setIntBit _ _ hp (by decide), otherRegsBar_swapReject s off hp, onlyRegs_swapReject s off pg⟩
    · rw [State.swapPending, State.reg_swapReject_swapStat s off hp]
      simp
    · rw [State.applied, State.reg_swapReject_swapStat s off hp]
      simp [State.applied]
    · rw [State.reg_swapReject_swapStat s off hp]
      simp
    · rw [State.reg_swapReject_pgStat s off hp]
      exact (Word.field_setField _ _ _ _ (by decide) (by decide)).trans (Nat.mod_eq_of_lt hoff)

/-- Settles O50: what crosses is read off channel by channel, since a count on TRS writes registers alone and an INT message adds to
the field side's management channel alone. -/
theorem barrierMessages : Obligations.BarrierMessages := by
  unfold Obligations.BarrierMessages
  refine ⟨?send, ?frame, ?raises, fun s hp hw => State.sendRaises_full_or_done hp hw,
    fun s cls typ pl hp => State.barrierSend_unpowered typ pl hp, ?accept, ?bad, ?ack, ?nakAll, ?freed, ?timeout, ?resend, ?waiting,
    ?fieldAccess, ?core, ?hostAccess, ?int, ?imgReq, fun s kind k b bs => State.imgStream_eq s kind k b bs, ?img, ?key, ?seed, ?reseed,
    ?mbox, ?heartbeat, ?mult, ?cap, ?locked, ?debug, ?unauth, ?mgmt⟩
  case send =>
    rintro s side cls typ pl b rfl hp hq
    rw [State.barrierSend_eq typ pl hp hq]
    refine ⟨fun h8 hw => if_pos ⟨h8, hw⟩, fun h => if_neg fun h' => ?_⟩
    rcases h with h | h
    · exact absurd h'.1 (by omega)
    · exact h h'.2
  case frame =>
    rintro s side cls typ pl b rfl
    exact ⟨State.frameRaw_chan s side cls typ pl, State.frameRaw_out s side cls typ pl,
      fun side' cls' h => State.frameRaw_chan_ne s side cls typ pl h, fun h => State.intCross_none h,
      fun h0 h1 => State.intCross_due rfl h0 h1⟩
  case raises =>
    rintro s typ pl b rfl
    rw [State.barrierSend_hostMgmt]
    exact ⟨fun h8 hw => if_pos ⟨h8, hw⟩, fun h8 => if_neg fun h => absurd h.1 (by omega)⟩
  case accept =>
    rintro s rcv cls b rfl h
    obtain ⟨hc, ho⟩ := State.barrierAccept_disabled (rcv := rcv) (cls := cls) h
    exact ⟨hc, ho, State.barrierAccept_hbm .., fun q off hq hn hoff => State.reg_barrierAccept s rcv cls (farFrom_trs hn hoff (.inl hq))⟩
  case bad =>
    rintro s rcv cls seq ok b rfl h hb
    exact State.exec_barrierFrameBad h hb
  case ack =>
    rintro s snd cls seq i b rfl hi
    refine ⟨?_, fun hne => ?_⟩
    · show execBarrierAck snd cls seq s = _
      simp only [execBarrierAck, hi]
    · show execBarrierNak snd cls seq s = _
      simp only [execBarrierNak, if_neg hne, hi]
  case nakAll =>
    rintro s snd cls b rfl
    exact if_pos rfl
  case freed =>
    intro s snd cls
    have hn (h : snd = .field ∨ cls = .mgmt) : ¬ (snd = .host ∧ cls = .fault) := by
      rintro ⟨rfl, rfl⟩
      simp at h
    exact ⟨fun h => by simp only [State.windowFreed, if_neg (hn h)], by simp only [State.windowFreed, and_self, if_true]⟩
  case timeout =>
    intro s snd cls i hi
    show execBarrierResendTimeout snd cls s = _
    simp only [execBarrierResendTimeout, hi]
  case resend =>
    rintro s snd cls n b l rfl h hl
    exact ⟨fun hr => State.resendFrom_frames h hl hr, fun f hf hr => State.resendFrom_fault hl hf hr⟩
  case waiting =>
    rintro s snd cls n b m r rfl
    refine ⟨fun h => ?_, fun h h8 => ?_, fun h h8 => ?_⟩
    · cases n <;> simp [State.waitingOut, h]
    · cases n <;> simp [State.waitingOut, h, Nat.not_lt.mpr h8]
    · simp [State.waitingOut, h, h8]
  case fieldAccess =>
    intro s pg off width v hf he
    refine ⟨exec_pageRd off he hf, fun hn => ?_, exec_pageWr off width v he hf, exec_pageWrAck off he hf⟩
    rw [exec_pageRdRsp off v he hf, State.pageValue_host v (by rwa [State.barrierAccept_bar_reads])]
  case core =>
    rintro s pg off n a v rest hf he rfl h hn
    exact exec_pageRdRsp_core v hf he h hn
  case hostAccess =>
    intro s pg off width v hf he
    exact ⟨exec_hostRd off he hf, exec_hostRdRsp off v he hf, exec_hostWr off width v he hf, exec_hostWrAck off he hf⟩
  case int =>
    intro s pg hf he hi
    show execInt pg s = _
    simp [execInt, hf, he, hi]
  case imgReq =>
    rintro s u kind bs hk hq rfl rfl
    show execImgReq kind s = _
    simp only [execImgReq, if_pos hk, if_pos hq]
  case img =>
    rintro s u kind data rfl
    refine ⟨⟨_, rfl, ?_, fun j hj => ?_⟩, rfl, rfl, ⟨_, rfl, Tab.get_insert_self ..⟩⟩
    · rw [State.barrierAccept_trs]; exact Tab.get_insert_self ..
    · rw [State.barrierAccept_trs]; exact Tab.get_insert_ne _ _ _ _ _ hj
  case key =>
    intro s key hk
    refine ⟨_, rfl, ?_⟩
    rw [State.barrierAccept_trs, hk]
    simp
  case seed => exact fun s => ⟨_, rfl, by rw [State.barrierAccept_cph]⟩
  case reseed =>
    intro s hw hn
    show execReseedDue s = _
    rw [execReseedDue, hw, decide_eq_true hn]
    rfl
  case mbox => exact fun s msg => ⟨⟨_, rfl, by rw [State.barrierAccept_trs]⟩, ⟨_, rfl, by rw [State.barrierAccept_trs]⟩⟩
  case heartbeat =>
    intro s
    refine ⟨⟨_, rfl, congrArg Clocks.noc (State.barrierAccept_clk ..)⟩, fun hw hd => ?_⟩
    show execHeartbeatSend s = _
    simp [execHeartbeatSend, hw, hd]
  case mult =>
    rintro s u die mult m rfl hm hd
    show execPowerClockControl (.multLimit die mult) s = _
    simp only [execPowerClockControl, State.barrierAccept_pwr, ← hm, decide_eq_true_eq]
    rcases hd with rfl | rfl <;> rfl
  case cap =>
    rintro s u watts c rfl hc
    show execPowerClockControl (.softCap watts) s = _
    have hr : (s.barrierAccept .field .mgmt).reg Blk.pwr.page 0x100 = s.reg Blk.pwr.page 0x100 :=
      State.reg_barrierAccept s _ _ (farFrom_trs (by decide) (by decide) (.inl (by decide)))
    simp only [execPowerClockControl, State.barrierAccept_pwr, hr, ← hc, decide_eq_true_eq]
  case locked =>
    intro s acc hw hd
    show execDebugAccess acc s = _
    simp [execDebugAccess, hw, hd, State.answer]
  case debug =>
    intro s n r off width pg v hw hd
    have hx (acc : DbgAccess) : exec (.debugAccess acc) s = execDebugAccess acc s := rfl
    simp only [hx, execDebugAccess, hw, hd, Bool.not_true, Bool.false_eq_true, if_false]
    refine ⟨fun hn => ⟨by rw [if_pos hn]; rfl, by rw [if_pos hn]; rfl, fun hr => by rw [if_pos ⟨hn, hr⟩]; rfl⟩, fun hp => ?_⟩
    simp only [State.portAccess, hp, if_true]
    exact ⟨rfl, rfl⟩
  case unauth =>
    intro s auth acc hw ha
    show execMgmtRequest auth acc s = _
    rcases ha with ha | ha <;> simp [execMgmtRequest, hw, ha, State.answer]
  case mgmt =>
    intro s a off width data pg v hw hk
    have hx (acc : DbgAccess) : exec (.mgmtRequest true acc) s = execMgmtRequest true acc s := rfl
    have hn : s.trs.mgmtKey.isNone = false := by simpa [Option.isSome_iff_ne_none] using hk
    simp only [hx, execMgmtRequest, hw, hn, Bool.not_true, Bool.or_false, Bool.false_eq_true, if_false]
    refine ⟨rfl, fun hp => ?_⟩
    simp only [State.portAccess, hp, if_true]
    exact ⟨rfl, rfl⟩

end

section
/-! SUPPORT. Partitions and the CMD_STAT registers of pages are written by commands of pages alone. What the release of a partition
sets in motion (R50) ends descriptors, reads, groups, connections, steps, requests and storage commands; each operation that it
reaches leaves both, said once for each, in the order of the model's files. -/

namespace Sys2Proof.Machine

/-! ## CMD_STAT among the registers -/

/-- The CMD_STAT register of each block, among the registers given. -/
def cmdStats (r : Tab Word) (b : Blk) : Word := (Tab.find r (b.page.key (cmdStatOff b))).getD (b.page.resetAt (cmdStatOff b))

/-- No partition and no CMD_STAT register has changed. -/
@[simp] abbrev CmdsKept (s t : State) : Prop := t.parts = s.parts ∧ cmdStats t.regs = cmdStats s.regs

theorem cmdStats_eq {s t : State} (h : ∀ b : Blk, t.reg b.page (cmdStatOff b) = s.reg b.page (cmdStatOff b)) :
    cmdStats t.regs = cmdStats s.regs := funext h

/-- CMD_STAT lies at an offset of its own, so that no page's register of another offset is in its place. -/
theorem cmdStat_key_ne (b : Blk) (pg : Page) {o : Nat} (ho : o < 65536) (h : o ≠ cmdStatOff b) :
    b.page.key (cmdStatOff b) ≠ pg.key o := by
  have hb := (cmdStatOff_range b).1
  unfold Page.key
  omega

theorem cmdStat_key_ne_intStat (b : Blk) (pg : Page) : b.page.key (cmdStatOff b) ≠ pg.key 0x30 :=
  cmdStat_key_ne b pg (by decide) (cmdStatOff_range b).2.1.symm

theorem farFrom_cmdStat (b : Blk) (pg : Page) : FarFrom b.page (cmdStatOff b) pg := fun _ hk =>
  cmdStat_key_ne b pg (ctrRegs_lt hk) fun e => (cmdStatOff_range b).2.2 (e ▸ hk)

/-- SYN has no CMD register: only its own offset 8 would stand in the place of one. -/
theorem cmdStat_key_ne_syn (b : Blk) {o : Nat} (ho : o < 65536) (h : o ≠ 8) :
    b.page.key (cmdStatOff b) ≠ Blk.syn.page.key o := by
  refine Page.key_ne (by decide : (0 : Nat) < 65536) (by decide : (0 : Nat) < 65536) (cmdStatOff_range b).1 ho ?_
  by_cases hb : b = .syn
  · subst hb
    exact .inr h.symm
  · exact .inl fun e => hb (congrArg Page.blk e)

theorem State.setReg_cmdStats (s : State) {pg : Page} {o : Nat} (v : Word)
    (h : ∀ b : Blk, b.page.key (cmdStatOff b) ≠ pg.key o) : cmdStats (s.setReg pg o v).regs = cmdStats s.regs :=
  cmdStats_eq fun b => State.reg_setReg_ne _ _ _ _ _ _ (h b)

@[simp] theorem State.count_cmdStats (s : State) (pg : Page) (code n : Nat) :
    cmdStats (s.count pg code n).regs = cmdStats s.regs :=
  cmdStats_eq fun b => State.reg_count_far _ _ _ _ _ _ (farFrom_cmdStat b _) (farFrom_cmdStat b _)

@[simp] theorem State.setIntBit_cmdStats (s : State) (pg : Page) (i : Nat) :
    cmdStats (s.setIntBit pg i).regs = cmdStats s.regs :=
  cmdStats_eq fun b => State.reg_setInt_far _ _ _ _ _ (cmdStat_key_ne_intStat b pg) (farFrom_cmdStat b _)

@[simp] theorem State.latch_cmdStats (s : State) (pg : Page) (u i p : Nat) (l : Bool) :
    cmdStats (s.latch pg u i p l).regs = cmdStats s.regs :=
  cmdStats_eq fun b =>
    State.reg_latch_ne _ _ _ _ _ _ _ _ (cmdStat_key_ne_intStat b pg) (farFrom_cmdStat b _) (farFrom_cmdStat b _)

/-! ## Branches and folds -/

@[simp] theorem State.parts_ite (c : Prop) [Decidable c] (s t : State) :
    (if c then s else t).parts = if c then s.parts else t.parts := apply_ite State.parts c s t

@[simp] theorem cmdStats_ite (c : Prop) [Decidable c] (s t : State) :
    cmdStats (if c then s else t).regs = if c then cmdStats s.regs else cmdStats t.regs :=
  apply_ite (fun u : State => cmdStats u.regs) c s t

theorem cmdsKept_trans {s t u : State} (h1 : CmdsKept s t) (h2 : CmdsKept t u) : CmdsKept s u :=
  ⟨h2.1.trans h1.1, h2.2.trans h1.2⟩

/-- A fold leaves them where each of its steps over the elements does. -/
theorem cmdsKept_foldl_mem {α : Type} {f : State → α → State} (l : List α) (s : State)
    (hf : ∀ t, ∀ x ∈ l, CmdsKept t (f t x)) : CmdsKept s (l.foldl f s) := by
  induction l generalizing s with
  | nil => exact ⟨rfl, rfl⟩
  | cons a r ih => exact cmdsKept_trans (hf s a List.mem_cons_self) (ih _ fun t x hx => hf t x (List.mem_cons_of_mem _ hx))

@[simp] theorem cmdsKept_foldl {α : Type} {f : State → α → State} (hf : ∀ t x, CmdsKept t (f t x)) (l : List α)
    (s : State) : CmdsKept s (l.foldl f s) := cmdsKept_foldl_mem l s fun t x _ => hf t x

/-! ## Memory, interrupts, rings and events -/

@[simp] theorem State.setBytes_cmds (s : State) (a : Nat) (bs : List Byte) : CmdsKept s (s.setBytes a bs) := by
  induction bs generalizing s a with
  | nil => exact ⟨rfl, rfl⟩
  | cons b r ih => exact ih (s.setByte a b) (a + 1)

@[simp] theorem State.setWord_cmds (s : State) (a : Nat) (w : Word) : CmdsKept s (s.setWord a w) := s.setBytes_cmds ..

@[simp] theorem State.dirtyPage_cmds (s : State) (v page : Nat) : CmdsKept s (s.dirtyPage v page) := by
  simp [State.dirtyPage]

@[simp] theorem State.dirty_cmds (s : State) (v addr len : Nat) : CmdsKept s (s.dirty v addr len) := by
  simp [State.dirty]

@[simp] theorem State.hostWrite_cmds (s : State) (v : Option Nat) (addr : Nat) (data : List Byte) :
    CmdsKept s (s.hostWrite v addr data) := by
  cases v <;> simp [State.hostWrite]

@[simp] theorem State.store_cmds (s : State) (hbm : Bool) (v : Option Nat) (addr : Nat) (data : List Byte) :
    CmdsKept s (s.store hbm v addr data) := by simp [State.store]

@[simp] theorem State.viVector_cmds (s : State) (v n : Nat) : CmdsKept s (s.viVector v n) := by simp [State.viVector]

@[simp] theorem State.ringIrq_cmds (s : State) (r : Ring) : CmdsKept s (s.ringIrq r) := by simp [State.ringIrq]

@[simp] theorem State.ringEntry_cmds (s : State) (n : Nat) (w0 w1 w2 w3 : Word) : CmdsKept s (s.ringEntry n w0 w1 w2 w3) := by
  simp [State.ringEntry]

@[simp] theorem State.ringPut_cmds (s : State) (n : Nat) (w0 w1 w2 w3 : Word) : CmdsKept s (s.ringPut n w0 w1 w2 w3) := by
  simp [State.ringPut]

@[simp] theorem State.wake_cmds (s : State) (b : Nat) : CmdsKept s (s.wake b) := by simp [State.wake]

@[simp] theorem State.eventLost_cmds (s : State) : CmdsKept s s.eventLost := by simp [State.eventLost]

@[simp] theorem State.eventPut_cmds (s : State) (n : Nat) (w0 w1 w2 w3 : Word) : CmdsKept s (s.eventPut n w0 w1 w2 w3) := by
  simp [State.eventPut]

@[simp] theorem State.overflow_cmds (s : State) (n : Nat) : CmdsKept s (s.overflow n) := by simp [State.overflow]

@[simp] theorem State.eventRing_cmds (s : State) (n typ : Nat) (st : Status) (obj : Nat) (w1 w2 w3 : Word) :
    CmdsKept s (s.eventRing n typ st obj w1 w2 w3) := by simp [State.eventRing]

@[simp] theorem State.event_cmds (s : State) (p typ : Nat) (st : Status) (obj : Nat) (w1 w2 w3 : Word) :
    CmdsKept s (s.event p typ st obj w1 w2 w3) := by
  unfold State.event
  split <;> simp

/-! ## Sync objects: watches and the swap point of SYN -/

/-- A register of SYN that is no counter, count or interrupt: the table of watches, the hits, the staged settings. -/
theorem State.setReg_syn_cmds (s : State) {o : Nat} (v : Word) (h0 : 8 < o) (h1 : o < 65536) :
    CmdsKept s (s.setReg Blk.syn.page o v) :=
  ⟨rfl, s.setReg_cmdStats v fun b => cmdStat_key_ne_syn b h1 (by omega)⟩

theorem State.watch_cmds (s : State) (o : Nat) {w : Nat} (hw : w < 64) : CmdsKept s (s.watch o w) := by
  have hctl (t : State) (x : Word) := (t.setReg_syn_cmds (o := 0x100 + 16 * w) x (by omega) (by omega)).2
  have hhit (t : State) (x : Word) := (t.setReg_syn_cmds (o := 0x500) x (by decide) (by decide)).2
  simp [State.watch, hctl, hhit]

/-- All watches in turn, of whatever objects. -/
theorem watches_cmds (s : State) (o : State → Nat → Nat) :
    CmdsKept s ((List.range 64).foldl (fun t w => t.watch (o t w) w) s) :=
  cmdsKept_foldl_mem _ _ fun t _ hw => t.watch_cmds _ (List.mem_range.1 hw)

@[simp] theorem State.syncSettle_cmds (s : State) (o : Nat) : CmdsKept s (s.syncSettle o) := by
  unfold State.syncSettle
  refine cmdsKept_trans ?_ (watches_cmds _ fun _ _ => o)
  simp

@[simp] theorem State.swapSyn_cmds (s : State) : CmdsKept s s.swapSyn := watches_cmds s _

@[simp] theorem State.swapReject_syn_cmds (s : State) (off : Nat) : CmdsKept s (s.swapReject Blk.syn.page off) := by
  have hset (t : State) (x : Word) := (t.setReg_syn_cmds (o := 0x28) x (by decide) (by decide)).2
  have hpg (t : State) (x : Word) := (t.setReg_syn_cmds (o := 0x18) x (by decide) (by decide)).2
  simp [State.swapReject, hset, hpg]

@[simp] theorem State.swapLive_syn_cmds (s : State) : CmdsKept s (s.swapLive Blk.syn.page) := by
  have hcopy := cmdsKept_foldl_mem (f := fun t o => t.setReg Blk.syn.page o (s.reg Blk.syn.page (o + 0x700)))
    Blk.syn.page.staged s fun t o ho => by
      obtain ⟨h1, h2⟩ := staged_bounds ho
      exact t.setReg_syn_cmds _ (by omega) (by omega)
  have hset (t : State) (x : Word) := (t.setReg_syn_cmds (o := 0x28) x (by decide) (by decide)).2
  simp [State.swapLive, hset, hcopy.1, hcopy.2]

@[simp] theorem State.synTake_cmds (s : State) : CmdsKept s s.synTake := by
  have hfirst : CmdsKept s (s.swapFirst Blk.syn.page s.synChecks) := by
    unfold State.swapFirst
    split
    · split <;> simp
    · exact ⟨rfl, rfl⟩
  simp [State.synTake, hfirst.1, hfirst.2]

@[simp] theorem State.syncAdd_cmds (s : State) (o : Nat) (v : Word) : CmdsKept s (s.syncAdd o v) := by
  unfold State.syncAdd
  split <;> simp

/-! ## Pools, sequences and block tables -/

@[simp] theorem State.updPool_cmds (s : State) (k : Nat) (f : Pool → Pool) : CmdsKept s (s.updPool k f) := ⟨rfl, rfl⟩

@[simp] theorem State.poolLow_cmds (s : State) (k : Nat) : CmdsKept s (s.poolLow k) := by
  unfold State.poolLow
  split <;> simp

@[simp] theorem State.openBytes_cmds (s : State) (a n : Nat) : CmdsKept s (s.openBytes a n) := by simp [State.openBytes]

@[simp] theorem State.slotStore_cmds (s : State) (k n : Nat) : CmdsKept s (s.slotStore k n) := by
  unfold State.slotStore
  split <;> simp

@[simp] theorem State.releaseSlot_cmds (s : State) (k n : Nat) : CmdsKept s (s.releaseSlot k n) := by
  unfold State.releaseSlot
  split
  · split <;> simp
  · exact ⟨rfl, rfl⟩

@[simp] theorem State.setSeq_cmds (s : State) (q : Nat) (x : Seq) : CmdsKept s (s.setSeq q x) := by
  unfold State.setSeq
  split
  · exact ⟨rfl, rfl⟩
  · split <;> simp

@[simp] theorem State.setHandle_cmds (s : State) (x : Seq) (l g b : Nat) (v : Option Nat) :
    CmdsKept s (s.setHandle x l g b v) := s.setBytes_cmds ..

@[simp] theorem State.settleDeferred_cmds (s : State) (q : Nat) : CmdsKept s (s.settleDeferred q) := by
  simp [State.settleDeferred]

@[simp] theorem State.unuseSeq_cmds (s : State) (q n : Nat) : CmdsKept s (s.unuseSeq q n) := by simp [State.unuseSeq]

@[simp] theorem State.clearHandles_cmds (s : State) (x : Seq) (l b0 b1 : Nat) (slots : List Nat) :
    CmdsKept s (s.clearHandles x l b0 b1 slots) := by
  refine cmdsKept_foldl (fun t g => cmdsKept_foldl (fun t i => ?_) _ _) _ _
  split <;> simp

@[simp] theorem State.ingestUndo_cmds (s : State) (ws : List Word) (alloc : List Nat) : CmdsKept s (s.ingestUndo ws alloc) := by
  simp [State.ingestUndo]

/-! ## Drives, the cache, connections and checkpoint steps -/

@[simp] theorem State.driveCmd_cmds (s : State) (n : Nat) (x : Ns) (write fua : Bool) (use : DriveUse) (data : List Byte)
    (slba : Nat) (pc : Extent × Nat × Nat × Nat) : CmdsKept s (s.driveCmd n x write fua use data slba pc).2 := by
  simp [State.driveCmd]

@[simp] theorem State.driveIo_cmds (s : State) (n : Nat) (write fua : Bool) (slba nlb : Nat) (use : DriveUse)
    (data : List Byte) : CmdsKept s (s.driveIo n write fua slba nlb use data).2 := by
  have hf (l : List (Extent × Nat × Nat × Nat)) (a : List Nat × State) : CmdsKept a.2 (l.foldl (fun a pc =>
      (a.1 ++ [(a.2.driveCmd n (s.ns n) write fua use data slba pc).1],
        (a.2.driveCmd n (s.ns n) write fua use data slba pc).2)) a).2 := by
    induction l generalizing a with
    | nil => exact ⟨rfl, rfl⟩
    | cons pc r ih => exact cmdsKept_trans (State.driveCmd_cmds ..) (ih _)
  exact hf _ _

@[simp] theorem State.freePages_cmds (s : State) (l : List Nat) : CmdsKept s (s.freePages l) := ⟨rfl, rfl⟩
@[simp] theorem State.cacheDrop_cmds (s : State) (n slba nlb : Nat) : CmdsKept s (s.cacheDrop n slba nlb) := ⟨rfl, rfl⟩
@[simp] theorem State.setConn_cmds (s : State) (c : Nat) (x : Conn) : CmdsKept s (s.setConn c x) := ⟨rfl, rfl⟩
@[simp] theorem State.updConn_cmds (s : State) (c : Nat) (f : Conn → Conn) : CmdsKept s (s.updConn c f) := ⟨rfl, rfl⟩
@[simp] theorem State.connEnqueue_cmds (s : State) (c : Nat) (items : List TxItem) : CmdsKept s (s.connEnqueue c items) :=
  ⟨rfl, rfl⟩
@[simp] theorem State.updStep_cmds (s : State) (sid : Nat) (f : Step → Step) : CmdsKept s (s.updStep sid f) := ⟨rfl, rfl⟩

@[simp] theorem State.stepIssue_cmds (s : State) (x : Step) (shard off : Nat) (data : List Byte) :
    CmdsKept s (s.stepIssue x shard off data) := by simp [State.stepIssue]

@[simp] theorem State.shardIssue_cmds (s : State) (x : Step) (i : Nat) : CmdsKept s (s.shardIssue x i) := by
  unfold State.shardIssue
  split <;> simp

@[simp] theorem State.stepAdvance_cmds (s : State) (sid : Nat) : CmdsKept s (s.stepAdvance sid) := by
  unfold State.stepAdvance
  split <;> simp

@[simp] theorem State.stepsAdvance_cmds (s : State) (p : Nat) : CmdsKept s (s.stepsAdvance p) := by simp [State.stepsAdvance]

@[simp] theorem State.stepSettle_cmds (s : State) (sid : Nat) : CmdsKept s (s.stepSettle sid) := by
  unfold State.stepSettle
  split <;> simp

@[simp] theorem State.stepMark_cmds (s : State) (sid : Nat) (st : Status) (unknown : Bool) :
    CmdsKept s (s.stepMark sid st unknown) := by
  unfold State.stepMark
  split <;> simp

/-! ## Work in progress and reduction groups -/

@[simp] theorem State.updWork_cmds (s : State) (ring idx : Nat) (f : Work → Work) : CmdsKept s (s.updWork ring idx f) :=
  ⟨rfl, rfl⟩

@[simp] theorem State.abandonMsg_cmds (s : State) (ring idx : Nat) : CmdsKept s (s.abandonMsg ring idx) := by
  unfold State.abandonMsg
  split <;> simp

@[simp] theorem State.dropAttend_cmds (s : State) (ring idx : Nat) : CmdsKept s (s.dropAttend ring idx) := by
  refine cmdsKept_trans ?_ (cmdsKept_foldl (fun t r => ?_) _ _)
  · exact ⟨rfl, rfl⟩
  · split <;> simp

@[simp] theorem State.dropStep_cmds (s : State) (ring idx : Nat) (st : Status) : CmdsKept s (s.dropStep ring idx st) := by
  unfold State.dropStep
  split <;> simp

@[simp] theorem State.dropCmd_cmds (s : State) (ring idx : Nat) : CmdsKept s (s.dropCmd ring idx) := ⟨rfl, rfl⟩

@[simp] theorem State.undoWork_cmds (s : State) (ring idx : Nat) (st : Status) : CmdsKept s (s.undoWork ring idx st) := by
  unfold State.undoWork
  dsimp only
  split
  · split <;> simp
  · simp

@[simp] theorem State.workDone_cmds (s : State) (ring idx : Nat) (st : Status) (detail : Nat) (r0 r1 : Word) :
    CmdsKept s (s.workDone ring idx st detail r0 r1) := by simp [State.workDone]

@[simp] theorem State.abortDesc_cmds (s : State) (ring : Nat) (d : Desc) (noSignal : Bool) :
    CmdsKept s (s.abortDesc ring d noSignal) := ⟨rfl, rfl⟩

@[simp] theorem State.restoreFail_cmds (s : State) (ring idx : Nat) (st : Status) : CmdsKept s (s.restoreFail ring idx st) :=
  ⟨rfl, rfl⟩
@[simp] theorem State.updGroup_cmds (s : State) (key : Nat) (f : Group → Group) : CmdsKept s (s.updGroup key f) := ⟨rfl, rfl⟩
@[simp] theorem State.clearSlots_cmds (s : State) (first n : Nat) : CmdsKept s (s.clearSlots first n) := ⟨rfl, rfl⟩

@[simp] theorem State.failGroup_cmds (s : State) (key : Nat) (st : Status) : CmdsKept s (s.failGroup key st) := by
  unfold State.failGroup
  split <;> simp

/-! ## The host's side of a VI -/

@[simp] theorem State.endReads_cmds (s : State) (which : HostRead → Bool) (timedOut : Bool) :
    CmdsKept s (s.endReads which timedOut) := ⟨rfl, rfl⟩

@[simp] theorem State.settleHead_cmds (s : State) (n : Nat) : CmdsKept s (s.settleHead n) := by
  unfold State.settleHead
  dsimp only
  split <;> simp

@[simp] theorem State.abortWorks_cmds (s : State) (which : Work → Bool) : CmdsKept s (s.abortWorks which) := by
  simp [State.abortWorks]

@[simp] theorem State.abortFetched_cmds (s : State) (which : Ring → Bool) : CmdsKept s (s.abortFetched which) := by
  simp [State.abortFetched]

@[simp] theorem State.fetchRewind_cmds (s : State) (which : HostRead → Bool) : CmdsKept s (s.fetchRewind which) := by
  refine cmdsKept_foldl (fun t r => ?_) _ _
  split <;> simp

@[simp] theorem State.hostStop_cmds (s : State) (v : Option Nat) : CmdsKept s (s.hostStop v) := by simp [State.hostStop]

@[simp] theorem State.viStop_cmds (s : State) (v : Nat) : CmdsKept s (s.viStop v) := by simp [State.viStop]

@[simp] theorem State.viRingsReset_cmds (s : State) (v : Nat) : CmdsKept s (s.viRingsReset v) := by
  simp [State.viRingsReset]

@[simp] theorem State.viReset_cmds (s : State) (v : Nat) : CmdsKept s (s.viReset v) := by simp [State.viReset]

/-! ## Attention requests and the abandonment of steps -/

@[simp] theorem State.respFailed_cmds (s : State) (r : Req) (n k : Nat) (st : Status) : CmdsKept s (s.respFailed r n k st) := by
  simp [State.respFailed]

@[simp] theorem State.reqEnd_cmds (s : State) (r : Req) (delivery : Status) : CmdsKept s (s.reqEnd r delivery) := by
  unfold State.reqEnd
  dsimp only
  cases r.use <;> cases r.origin <;> simp

@[simp] theorem State.responseAcked_cmds (s : State) (id : Nat) (st : Status) : CmdsKept s (s.responseAcked id st) := by
  unfold State.responseAcked
  split <;> simp

/-- A request of the partition ends where it was waited for, and then each of its inboxes closes. -/
@[simp] theorem State.attDrain_cmds (s : State) (p : Nat) : CmdsKept s (s.attDrain p) := by
  unfold State.attDrain
  extract_lets gone att s1 s2 closed
  have h2 : CmdsKept s1 s2 := by
    refine cmdsKept_foldl (fun t r => ?_) _ _
    cases r.use <;> cases r.origin <;> simp
  refine cmdsKept_trans h2 (cmdsKept_trans ?_ (cmdsKept_foldl (fun t e => ?_) _ _))
  · exact ⟨rfl, rfl⟩
  · split <;> simp

@[simp] theorem State.stepAbandon_cmds (s : State) (sid : Nat) (st : Status) (unknown : Bool) :
    CmdsKept s (s.stepAbandon sid st unknown) := by
  unfold State.stepAbandon
  split <;> simp

@[simp] theorem State.stepTargetLost_cmds (s : State) (sid : Nat) (st : Status) : CmdsKept s (s.stepTargetLost sid st) := by
  unfold State.stepTargetLost
  split <;> simp

/-! ## Sluice -/

@[simp] theorem State.setLeaf_cmds (s : State) (l : Nat) (x : Leaf) : CmdsKept s (s.setLeaf l x) := ⟨rfl, rfl⟩
@[simp] theorem State.updPnode_cmds (s : State) (k : Nat) (f : PNode → PNode) : CmdsKept s (s.updPnode k f) := ⟨rfl, rfl⟩
@[simp] theorem State.updPort_cmds (s : State) (n : Nat) (f : PortNode → PortNode) : CmdsKept s (s.updPort n f) := ⟨rfl, rfl⟩

@[simp] theorem State.refreshNode_cmds (s : State) (port p : Nat) : CmdsKept s (s.refreshNode port p) := by
  unfold State.refreshNode
  dsimp only
  split <;> simp

@[simp] theorem State.refreshPort_cmds (s : State) (port : Nat) : CmdsKept s (s.refreshPort port) := by
  simp [State.refreshPort]

@[simp] theorem State.enqueue_cmds (s : State) (l n : Nat) (body : Out) (desc : Option (Nat × Nat)) :
    CmdsKept s (s.enqueue l n body desc) := by
  unfold State.enqueue
  dsimp only
  split <;> simp

@[simp] theorem State.submit_cmds (s : State) (l n : Nat) (body : Out) : CmdsKept s (s.submit l n body) := by
  simp [State.submit]

/-! ## Storage commands and their controllers -/

@[simp] theorem State.updTcp_cmds (s : State) (t : Nat) (f : Tcp → Tcp) : CmdsKept s (s.updTcp t f) := ⟨rfl, rfl⟩

@[simp] theorem State.tcpOut_cmds (s : State) (x : Tcp) (syn fin rst : Bool) (seq : BitVec 32) (mss : Nat) (data : List Byte) :
    CmdsKept s (s.tcpOut x syn fin rst seq mss data) := by simp [State.tcpOut]

@[simp] theorem State.tcpPushN_cmds (s : State) (t k : Nat) : CmdsKept s (s.tcpPushN t k) := by
  induction k generalizing s with
  | zero => exact ⟨rfl, rfl⟩
  | succ k ih =>
    unfold State.tcpPushN
    split
    · simp [ih]
    · exact ⟨rfl, rfl⟩

@[simp] theorem State.tcpPush_cmds (s : State) (t : Nat) : CmdsKept s (s.tcpPush t) := by
  unfold State.tcpPush
  split <;> simp

@[simp] theorem State.tcpSend_cmds (s : State) (t : Nat) (data : List Byte) : CmdsKept s (s.tcpSend t data) := by
  simp [State.tcpSend]

@[simp] theorem State.pduSend_cmds (s : State) (t typ flags : Nat) (fields data : List Byte) :
    CmdsKept s (s.pduSend t typ flags fields data) := by
  unfold State.pduSend
  split <;> simp

@[simp] theorem State.sendResp_cmds (s : State) (t dw0 dw1 head qid cid sc : Nat) :
    CmdsKept s (s.sendResp t dw0 dw1 head qid cid sc) := s.pduSend_cmds ..

@[simp] theorem State.updQueue_cmds (s : State) (q : Nat) (f : SQueue → SQueue) : CmdsKept s (s.updQueue q f) := ⟨rfl, rfl⟩

@[simp] theorem State.logError_cmds (s : State) (c : Cmd) (sc : Nat) : CmdsKept s (s.logError c sc) := by
  unfold State.logError
  split
  · split <;> simp
  · exact ⟨rfl, rfl⟩

@[simp] theorem State.queueSettle_cmds (s : State) (q : Nat) : CmdsKept s (s.queueSettle q) := by
  unfold State.queueSettle
  split <;> simp

@[simp] theorem State.cmdAnswer_cmds (s : State) (c : Cmd) (sc dw0 dw1 : Nat) (st : Status) :
    CmdsKept s (s.cmdAnswer c sc dw0 dw1 st) := by
  unfold State.cmdAnswer
  split <;> split <;> simp

@[simp] theorem State.cmdComplete_cmds (s : State) (c : Cmd) (sc dw0 dw1 : Nat) : CmdsKept s (s.cmdComplete c sc dw0 dw1) := by
  simp [State.cmdComplete]

@[simp] theorem State.queueReset_cmds (s : State) (q : Nat) : CmdsKept s (s.queueReset q) := by
  unfold State.queueReset
  split
  · refine cmdsKept_trans (cmdsKept_trans ?_ (cmdsKept_foldl (fun t c => ?_) _ _)) (State.queueSettle_cmds ..)
    · simp
    · dsimp only
      split <;> simp
  · exact ⟨rfl, rfl⟩

@[simp] theorem State.tcpGone_cmds (s : State) (t : Nat) (fin rst : Bool) : CmdsKept s (s.tcpGone t fin rst) := by
  unfold State.tcpGone
  split <;> simp

@[simp] theorem State.ctrlEnd_cmds (s : State) (k : Nat) : CmdsKept s (s.ctrlEnd k) := by simp [State.ctrlEnd]

@[simp] theorem State.stoDrain_cmds (s : State) (p : Nat) : CmdsKept s (s.stoDrain p) := by simp [State.stoDrain]

/-! ## Millrace -/

@[simp] theorem State.connLeft_cmds (s : State) (c : Nat) (st : Status) : CmdsKept s (s.connLeft c st) := by
  simp [State.connLeft]

@[simp] theorem State.connOutOf_cmds (s : State) (c : Nat) : CmdsKept s (s.connOutOf c) := ⟨rfl, rfl⟩

@[simp] theorem State.connDrop_cmds (s : State) (c : Nat) (dest : ConnState) (st : Status) :
    CmdsKept s (s.connDrop c dest st) := by
  unfold State.connDrop
  extract_lets x m s1 s2 s3 s4 s5 s6
  have h4 : CmdsKept s s4 := by simp [s4, s3, s2, s1]
  have h5 : CmdsKept s4 s5 := cmdsKept_foldl (fun t o => by cases o <;> simp) _ _
  have h6 : CmdsKept s s6 := cmdsKept_trans (cmdsKept_trans h4 h5) (State.connLeft_cmds ..)
  cases dest <;> simp [h6.1, h6.2]

@[simp] theorem State.spateShut_cmds (s : State) (n : Nat) : CmdsKept s (s.spateShut n) := ⟨rfl, rfl⟩

@[simp] theorem State.setRegionState_cmds (s : State) (key st : Nat) : CmdsKept s (s.setRegionState key st) := by
  unfold State.setRegionState
  split <;> simp

/-! ## The steps of a release (R50) -/

@[simp] theorem State.partFree_cmds (s : State) (p : Nat) : CmdsKept s (s.partFree p) := ⟨rfl, rfl⟩
@[simp] theorem State.quiet_cmds (s : State) (p : Nat) : CmdsKept s (s.quiet p) := ⟨rfl, rfl⟩

@[simp] theorem State.releaseRings_cmds (s : State) (p : Nat) : CmdsKept s (s.releaseRings p) := by simp [State.releaseRings]

@[simp] theorem State.releaseRegions_cmds (s : State) (p : Nat) : CmdsKept s (s.releaseRegions p) := by
  simp [State.releaseRegions]

@[simp] theorem State.releaseLeaves_cmds (s : State) (p : Nat) : CmdsKept s (s.releaseLeaves p) := by
  simp [State.releaseLeaves]

@[simp] theorem State.releaseWork_cmds (s : State) (p : Nat) : CmdsKept s (s.releaseWork p) := by
  unfold State.releaseWork
  extract_lets s1 xrd s2 s3 s4 s5
  have h2 : CmdsKept s s2 := by simp [s2, s1]
  have h3 : CmdsKept s2 s3 := cmdsKept_foldl (fun _ _ => State.connDrop_cmds ..) _ _
  have h4 : CmdsKept s3 s4 := cmdsKept_foldl (fun _ _ => State.spateShut_cmds ..) _ _
  have h5 : CmdsKept s4 s5 := cmdsKept_foldl (fun _ _ => State.stepAbandon_cmds ..) _ _
  refine cmdsKept_trans (cmdsKept_trans (cmdsKept_trans (cmdsKept_trans h2 h3) h4) h5) ?_
  simp

end Sys2Proof.Machine
end

section
/-! SUPPORT. Ownership, scrubs and the contents of resources: what the commands of partitions and the end of a scrub (R42 to R51)
leave and change. -/

namespace Sys2Proof.Machine

/-! ## Tables and folds -/

/-- What a key reads as is listed, unless it is the default. -/
theorem Tab.mem_of_get {α : Type} {d v : α} {t : Tab α} {k : Nat} (h : Tab.get d t k = v) (hv : v ≠ d) : (k, v) ∈ t := by
  induction t with
  | nil => exact absurd h.symm hv
  | cons e r ih =>
    obtain ⟨i, w⟩ := e
    unfold Tab.get at h
    split at h
    next hi => subst hi h; exact List.mem_cons_self
    next => exact List.mem_cons_of_mem _ (ih h)

/-- A key that no listed entry has reads as the default. -/
theorem Tab.get_of_not_mem {α : Type} {d : α} {t : Tab α} {k : Nat} (h : ∀ e ∈ t, e.1 ≠ k) : Tab.get d t k = d := by
  induction t with
  | nil => rfl
  | cons e r ih =>
    rw [Tab.get, if_neg (h e List.mem_cons_self), ih fun x hx => h x (List.mem_cons_of_mem _ hx)]

/-- What one element of a list brings about, and no element undoes, holds after the fold. -/
theorem foldl_reaches {α β : Type} {P : β → Prop} {f : β → α → β} {l : List α} {a : α} (ha : a ∈ l) (hset : ∀ b, P (f b a))
    (hkeep : ∀ b, ∀ x ∈ l, P b → P (f b x)) (b : β) : P (l.foldl f b) := by
  have hstays (l' : List α) (hl : ∀ x ∈ l', x ∈ l) (b : β) (hb : P b) : P (l'.foldl f b) :=
    List.foldlRecOn l' f hb fun b hb x hx => hkeep b x (hl x hx) hb
  obtain ⟨l1, l2, rfl⟩ := List.append_of_mem ha
  rw [List.foldl_append, List.foldl_cons]
  exact hstays l2 (fun x hx => by simp [hx]) _ (hset _)

/-! ## Owners -/

@[simp] theorem State.own_setOwn (s : State) (ty id : Nat) (o : Own) : (s.setOwn ty id o).own ty id = o := by
  unfold State.own State.setOwn
  split <;> exact Tab.get_set_self ..

theorem State.own_setOwn_ne (s : State) {ty id ty' id' : Nat} (o : Own) (hi : id < 2 ^ 32) (hi' : id' < 2 ^ 32)
    (h : ty' ≠ ty ∨ id' ≠ id) : (s.setOwn ty id o).own ty' id' = s.own ty' id' := by
  have hk : ownKey ty' id' ≠ ownKey ty id := by
    unfold ownKey
    omega
  unfold State.own State.setOwn
  by_cases h1 : ty = 1 <;> by_cases h2 : ty' = 1
  · have : id' ≠ id := h.resolve_left (by simp [h1, h2])
    simp [h1, h2, Tab.get_set_ne _ _ _ _ _ this]
  · simp [h1, h2]
  · simp [h1, h2]
  · simp [h1, h2, Tab.get_set_ne _ _ _ _ _ hk]

/-- An owner written anew where it stood already, or elsewhere, stays. -/
theorem State.own_setOwn_of_eq {s : State} {ty' id' : Nat} {o : Own} (h : s.own ty' id' = o) (ty id : Nat) :
    (s.setOwn ty id o).own ty' id' = o := by
  unfold State.own at h
  unfold State.own State.setOwn
  by_cases h1 : ty = 1 <;> by_cases h2 : ty' = 1 <;> simp only [h1, h2, if_true, if_false] at h ⊢
  · by_cases hk : id' = id
    · rw [hk, Tab.get_set_self]
    · rw [Tab.get_set_ne _ _ _ _ _ hk, h]
  · exact h
  · exact h
  · by_cases hk : ownKey ty' id' = ownKey ty id
    · rw [hk, Tab.get_set_self]
    · rw [Tab.get_set_ne _ _ _ _ _ hk, h]

/-- A fold of writes over identifiers of one type. -/
theorem State.own_foldl_setOwn {ty : Nat} {o : Own} {l : List Nat} (hl : ∀ i ∈ l, i < 2 ^ 32) (s : State) (ty' : Nat) {id : Nat}
    (hid : id < 2 ^ 32) :
    (l.foldl (fun t i => t.setOwn ty i o) s).own ty' id = if ty' = ty ∧ id ∈ l then o else s.own ty' id := by
  induction l generalizing s with
  | nil => simp
  | cons i r ih =>
    rw [List.foldl_cons, ih fun j hj => hl j (List.mem_cons_of_mem _ hj)]
    by_cases hr : ty' = ty ∧ id ∈ r
    · rw [if_pos hr, if_pos ⟨hr.1, List.mem_cons_of_mem _ hr.2⟩]
    · rw [if_neg hr]
      by_cases he : ty' = ty ∧ id = i
      · obtain ⟨rfl, rfl⟩ := he
        rw [State.own_setOwn, if_pos ⟨rfl, List.mem_cons_self⟩]
      · rw [State.own_setOwn_ne _ _ (hl i List.mem_cons_self) hid (by tauto), if_neg]
        simp only [List.mem_cons]
        tauto

/-- What a partition owns is listed among its resources (R42). -/
theorem State.mem_owned {s : State} {p ty id : Nat} (hid : id < 2 ^ 32) (h : s.own ty id = .owned p) : id ∈ s.owned p ty := by
  unfold State.own at h
  unfold State.owned
  split at h <;> have hm := Tab.mem_of_get h (by simp)
  next hty => simp [hty, hm]
  next hty =>
    have h1 : ownKey ty id / 2 ^ 32 = ty := by unfold ownKey; omega
    have h2 : ownKey ty id % 2 ^ 32 = id := by unfold ownKey; omega
    rw [if_neg hty]
    exact List.mem_map.2 ⟨_, List.mem_filter.2 ⟨hm, by simpa using h1⟩, h2⟩

/-! ## Giving up (R46, R50, R51, R96) -/

@[simp] theorem State.portScrub_own (s : State) (n ty id : Nat) : (s.portScrub n).own ty id = s.own ty id := by
  unfold State.portScrub
  split <;> rfl

@[simp] theorem State.portScrub_parts (s : State) (n : Nat) : (s.portScrub n).parts = s.parts := by
  unfold State.portScrub
  split <;> rfl

@[simp] theorem State.setOwn_parts (s : State) (ty id : Nat) (o : Own) : (s.setOwn ty id o).parts = s.parts := by
  unfold State.setOwn
  split <;> rfl

/-- A resource that a partition has given up, and that is not scrubbed yet. -/
def GivenUp (p ty id : Nat) (s : State) : Prop := s.own ty id = .scrubbing p

theorem givenUp_giveUp (s : State) (p ty id : Nat) : GivenUp p ty id (s.giveUp p ty id) := State.own_setOwn ..

theorem GivenUp.giveUp {s : State} {p ty' id' : Nat} (h : GivenUp p ty' id' s) (ty id : Nat) :
    GivenUp p ty' id' (s.giveUp p ty id) := by
  refine State.own_setOwn_of_eq ?_ ty id
  split
  · exact (State.portScrub_own ..).trans h
  · exact h

theorem GivenUp.foldl {s : State} {p ty' id' : Nat} (h : GivenUp p ty' id' s) (ty : Nat) (l : List Nat) :
    GivenUp p ty' id' (l.foldl (fun t i => t.giveUp p ty i) s) :=
  List.foldlRecOn (motive := GivenUp p ty' id') _ _ h fun _ ht i _ => ht.giveUp ty i

theorem givenUp_foldl {p ty id : Nat} {l : List Nat} (hid : id ∈ l) (s : State) :
    GivenUp p ty id (l.foldl (fun t i => t.giveUp p ty i) s) :=
  foldl_reaches hid (fun t => givenUp_giveUp t p ty id) (fun _ i _ h => h.giveUp ty i) s

@[simp] theorem State.giveUp_parts (s : State) (p ty id : Nat) : (s.giveUp p ty id).parts = s.parts := by
  unfold State.giveUp
  split <;> simp

/-! ## The next granules to scrub change the list of scrubs alone -/

theorem State.scrubStack_eq (s : State) (k : Nat) : ∃ l, s.scrubStack k = { s with scrubs := l } := by
  unfold State.scrubStack
  dsimp only
  split
  · exact ⟨s.scrubs, rfl⟩
  · split
    · exact ⟨_, rfl⟩
    · split
      · split
        · exact ⟨_, rfl⟩
        · exact ⟨s.scrubs, rfl⟩
      · exact ⟨s.scrubs, rfl⟩

theorem State.scrubNext_eq (s : State) : ∃ l, s.scrubNext = { s with scrubs := l } := by
  refine List.foldlRecOn (motive := fun t : State => ∃ l, t = { s with scrubs := l }) _ _ ⟨s.scrubs, rfl⟩ fun t ht k _ => ?_
  obtain ⟨l, rfl⟩ := ht
  exact State.scrubStack_eq { s with scrubs := l } k

@[simp] theorem State.scrubNext_own (s : State) (ty id : Nat) : s.scrubNext.own ty id = s.own ty id := by
  obtain ⟨l, h⟩ := s.scrubNext_eq
  rw [h]
  rfl

@[simp] theorem State.scrubNext_part (s : State) (p : Nat) : s.scrubNext.part p = s.part p := by
  obtain ⟨l, h⟩ := s.scrubNext_eq
  rw [h]
  rfl

@[simp] theorem State.scrubNext_kvs (s : State) : s.scrubNext.kvs = s.kvs := by
  obtain ⟨l, h⟩ := s.scrubNext_eq
  rw [h]

/-! ## UNASSIGN and the entry into SCRUBBING -/

theorem State.own_prtUnassign (s : State) (p : Nat) {a : Word} (hty : a.field 63 60 ≠ 2) {id : Nat}
    (hid : id ∈ rangeIds (a.field 31 0) (a.field 59 32)) : (s.prtUnassign p a).own (a.field 63 60) id = .scrubbing p := by
  unfold State.prtUnassign
  rw [if_neg hty, State.scrubNext_own]
  exact givenUp_foldl hid s

/-- One type after another is given up. -/
def State.giveUpAll (s t : State) (p : Nat) : State :=
  (List.range 14).foldl (fun t ty => (s.owned p ty).foldl (fun u id => u.giveUp p ty id) t) t

theorem State.enterScrub_eq (s : State) (p : Nat) : s.enterScrub p =
    (s.giveUpAll (s.setPart p { s.part p with state := .scrubbing, ways := 0, relSync := none }) p).scrubNext := rfl

theorem givenUp_giveUpAll (s t : State) {p ty id : Nat} (hty : ty < 14) (hid : id ∈ s.owned p ty) :
    GivenUp p ty id (s.giveUpAll t p) :=
  foldl_reaches (List.mem_range.2 hty) (fun u => givenUp_foldl hid u) (fun _ ty' _ h => h.foldl ty' _) t

theorem State.giveUpAll_parts (s t : State) (p : Nat) : (s.giveUpAll t p).parts = t.parts :=
  List.foldlRecOn (motive := fun u : State => u.parts = t.parts) _ _ rfl fun _ hu ty _ =>
    List.foldlRecOn (motive := fun u : State => u.parts = t.parts) _ _ hu fun u hu id _ => (u.giveUp_parts p ty id).trans hu

theorem State.part_enterScrub (s : State) (p : Nat) :
    (s.enterScrub p).part p = { s.part p with state := .scrubbing, ways := 0, relSync := none } := by
  rw [State.enterScrub_eq, State.scrubNext_part, State.part, State.giveUpAll_parts]
  exact State.part_setPart ..

theorem State.own_enterScrub {s : State} {p ty id : Nat} (hty : ty < 14) (hid : id < 2 ^ 32) (h : s.own ty id = .owned p) :
    (s.enterScrub p).own ty id = .scrubbing p := by
  rw [State.enterScrub_eq, State.scrubNext_own]
  exact givenUp_giveUpAll s _ hty (State.mem_owned hid h)

/-! ## ASSIGN -/

theorem rangeIds_lt {a : Word} (h : rangeBad a = false) {id : Nat} (hid : id ∈ rangeIds (a.field 31 0) (a.field 59 32)) :
    id < 2 ^ 32 := by
  have hcount : a.field 31 0 + a.field 59 32 ≤ tyCount (a.field 63 60) := by
    simp only [rangeBad, Bool.or_eq_false_iff, decide_eq_false_iff_not] at h
    omega
  have hmax : tyCount (a.field 63 60) ≤ 2 ^ 32 := by
    unfold tyCount
    split <;> decide
  obtain ⟨i, hi, rfl⟩ := List.mem_map.1 hid
  have := List.mem_range.1 hi
  omega

theorem State.own_prtAssign (s : State) (p : Nat) {a : Word} (hty : a.field 63 60 ≠ 2) (hr : rangeBad a = false) (ty : Nat)
    {id : Nat} (hid : id < 2 ^ 32) : (s.prtAssign p a).own ty id =
      if ty = a.field 63 60 ∧ id ∈ rangeIds (a.field 31 0) (a.field 59 32) then .owned p else s.own ty id := by
  unfold State.prtAssign
  rw [if_neg hty]
  exact State.own_foldl_setOwn (fun _ hi => rangeIds_lt hr hi) s ty hid

end Sys2Proof.Machine
end

section
/-! SUPPORT. The end of a scrub (R51): what the return of a partition's last resource and the refresh of the ports leave of it. -/

namespace Sys2Proof.Machine

/-! ## What the refresh of a port changes (R211) -/

/-- t with Sluice, the registers and the messages of interrupts of s. -/
abbrev sluiceView (s t : State) : State :=
  { t with
    sch := s.sch, regs := s.regs, out := s.out, bar := s.bar,
    hlk := { t.hlk with heldIrq := s.hlk.heldIrq, pba := s.hlk.pba } }

/-- Sluice, registers and messages of interrupts alone have changed. -/
def OnlySluice (s t : State) : Prop := sluiceView s t = s

theorem OnlyRegs.onlySluice {s t u : State} (h : OnlyRegs t u) (h0 : OnlySluice s t) : OnlySluice s u := by
  have hu : sluiceView s u = sluiceView s t := by
    conv => rhs; rw [← (h : _ = t)]
  exact hu.trans h0

theorem onlySluice_refl (s : State) : OnlySluice s s := rfl

theorem onlySluice_foldl {α : Type} {s t : State} {f : State → α → State} (hf : ∀ u x, OnlySluice s u → OnlySluice s (f u x))
    (l : List α) (h : OnlySluice s t) : OnlySluice s (l.foldl f t) :=
  List.foldlRecOn (motive := OnlySluice s) l f h fun u hu x _ => hf u x hu

theorem onlySluice_countIf {s t : State} (n : Nat) (h : OnlySluice s t) :
    OnlySluice s (if n = 0 then t else t.count schPage 5 n) := by
  split
  · exact h
  · exact (onlyRegs_count _ _ _ (onlyRegs_refl t)).onlySluice h

theorem onlySluice_refreshNode {s t : State} (port p : Nat) (h : OnlySluice s t) : OnlySluice s (t.refreshNode port p) := by
  unfold State.refreshNode
  dsimp only
  split
  · exact h
  · refine onlySluice_countIf _ (onlySluice_foldl ?_ _ ?_)
    · exact fun _ _ hu => hu
    · exact h

theorem onlySluice_refreshPort {s t : State} (port : Nat) (h : OnlySluice s t) : OnlySluice s (t.refreshPort port) := by
  have h1 := onlySluice_foldl (fun u p hu => onlySluice_refreshNode port p hu) (t.nodesOf port) h
  refine onlySluice_countIf _ (onlySluice_foldl ?_ _ ?_)
  · exact fun _ _ hu => hu
  · exact h1

/-- INT_STAT of PRT is no register that the counters of another page write. -/
theorem farFrom_prtIntStat {pg : Page} (hp : pg.num < 65536) (h : prtPage ≠ pg) : FarFrom prtPage 0x30 pg := fun _ hk =>
  Page.key_ne (by decide : (0 : Nat) < 65536) hp (by decide) (ctrRegs_lt hk) (.inl h)

theorem State.intStat_countIf (s : State) (n : Nat) :
    (if n = 0 then s else s.count schPage 5 n).reg prtPage 0x30 = s.reg prtPage 0x30 := by
  have h0 : (0 : Nat) < 65536 := by decide
  split
  · rfl
  · exact State.reg_count_far _ _ _ _ _ _ (farFrom_prtIntStat h0 (by decide)) (farFrom_prtIntStat h0 (by decide))

theorem State.intStat_refreshNode (s : State) (port p : Nat) : (s.refreshNode port p).reg prtPage 0x30 = s.reg prtPage 0x30 := by
  unfold State.refreshNode
  dsimp only
  split
  · rfl
  · rw [State.intStat_countIf]
    exact List.foldlRecOn (motive := fun t : State => t.reg prtPage 0x30 = s.reg prtPage 0x30) _ _ rfl fun _ ht _ _ => ht

theorem State.intStat_refreshPort (s : State) (port : Nat) : (s.refreshPort port).reg prtPage 0x30 = s.reg prtPage 0x30 := by
  have h1 : ((s.nodesOf port).foldl (fun t p => t.refreshNode port p) s).reg prtPage 0x30 = s.reg prtPage 0x30 :=
    List.foldlRecOn (motive := fun t : State => t.reg prtPage 0x30 = s.reg prtPage 0x30) _ _ rfl fun t ht p _ =>
      (t.intStat_refreshNode port p).trans ht
  refine (State.intStat_countIf _ _).trans ?_
  exact List.foldlRecOn (motive := fun t : State => t.reg prtPage 0x30 = s.reg prtPage 0x30) _ _ h1 fun _ ht _ _ => ht

/-! ## What the end of a scrub leaves once the resource has its new owner -/

/-- Owners and the contents of HBM, rings, sync objects and VIs are as before, and INT_STAT of PRT has lost no bit. -/
structure ResourcesKept (s t : State) : Prop where
  owner : t.owner = s.owner
  gran : t.gran = s.gran
  hbm : t.hbm = s.hbm
  rings : t.rings = s.rings
  sync : t.sync = s.sync
  vis : t.vis = s.vis
  intStat : IntKept prtPage s t

theorem ResourcesKept.refl (s : State) : ResourcesKept s s := ⟨rfl, rfl, rfl, rfl, rfl, rfl, .refl _ _⟩

theorem ResourcesKept.trans {s t u : State} (h1 : ResourcesKept s t) (h2 : ResourcesKept t u) : ResourcesKept s u :=
  ⟨h2.owner.trans h1.owner, h2.gran.trans h1.gran, h2.hbm.trans h1.hbm, h2.rings.trans h1.rings, h2.sync.trans h1.sync,
    h2.vis.trans h1.vis, h1.intStat.trans h2.intStat⟩

theorem OnlySluice.resourcesKept {s t : State} (h : OnlySluice s t) (hi : IntKept prtPage s t) : ResourcesKept s t :=
  have e : sluiceView s t = s := h
  ⟨(congrArg State.owner e :), (congrArg State.gran e :), (congrArg State.hbm e :), (congrArg State.rings e :),
    (congrArg State.sync e :), (congrArg State.vis e :), hi⟩

theorem resourcesKept_refreshPort (s : State) (port : Nat) : ResourcesKept s (s.refreshPort port) :=
  (onlySluice_refreshPort port (onlySluice_refl s)).resourcesKept (.of_eq (s.intStat_refreshPort port))

theorem intKept_setInt (s : State) (pg : Page) (bits : Word) (hp : pg.num < 65536) : IntKept pg s (s.setInt pg bits) :=
  (intKept_intRaise s pg bits).trans (intKept_intCross _ _ _ _ hp)

theorem resourcesKept_setIntBit (s : State) (b : Nat) : ResourcesKept s (s.setIntBit prtPage b) :=
  ⟨State.setIntBit_owner .., State.setIntBit_gran .., State.setIntBit_hbm .., State.setIntBit_rings .., State.setIntBit_sync ..,
    State.setIntBit_vis .., intKept_setInt _ _ _ (by decide : (0 : Nat) < 65536)⟩

theorem resourcesKept_maybeFree (s : State) (p : Nat) : ResourcesKept s (s.maybeFree p) := by
  unfold State.maybeFree
  split
  · refine .trans (List.foldlRecOn (motive := ResourcesKept s) _ _ ?_ fun t ht n _ => ht.trans (resourcesKept_refreshPort t n))
      (resourcesKept_setIntBit _ 9)
    exact ⟨rfl, rfl, rfl, rfl, rfl, rfl, .refl _ _⟩
  · exact .refl s

theorem resourcesKept_scrubNext (s : State) : ResourcesKept s s.scrubNext := by
  obtain ⟨l, h⟩ := s.scrubNext_eq
  rw [h]
  exact ⟨rfl, rfl, rfl, rfl, rfl, rfl, .refl _ _⟩

namespace ResourcesKept

variable {s t : State} (h : ResourcesKept s t)
include h

theorem own (ty id : Nat) : t.own ty id = s.own ty id := by rw [State.own, h.gran, h.owner, State.own]
theorem byte (a : Nat) : t.byte a = s.byte a := by rw [State.byte, h.hbm, State.byte]
theorem ring (n : Nat) : t.ring n = s.ring n := by rw [State.ring, h.rings, State.ring]
theorem syncVal (o : Nat) : t.syncVal o = s.syncVal o := by rw [State.syncVal, h.sync, State.syncVal]
theorem vi (v : Nat) : t.vi v = s.vi v := by rw [State.vi, h.vis, State.vi]

end ResourcesKept

/-! ## The end of a scrub (R51) -/

/-- The resource of a scrub in the state it is scrubbed to (R42). -/
def State.scrubWiped (s : State) (x : Scrub) : State :=
  ({ s with scrubs := s.scrubs.filter (fun y => !(decide (y.ty = x.ty) && decide (y.id = x.id))) } : State).scrubbed x.ty x.id

/-- The bytes for which verification fails: in the granule, and in no page that is retired. -/
def State.scrubHits (s : State) (x : Scrub) (bad : List Nat) : List Nat :=
  if x.verify ∧ x.ty = 1 then
    bad.filter (fun a => decide (granule a = x.id) && !s.kvs.retired.contains (a / 65536 * 65536)) else []

/-- The resource with its new owner, before its giver's last resource may have returned. -/
def State.scrubReturned (s : State) (x : Scrub) (bad : List Nat) : State :=
  let t := (s.scrubHits x bad).foldl (fun t a => t.scrubFound a) (s.scrubWiped x)
  t.setOwn x.ty x.id
    (if decide (x.ty = 1) && (decide (s.scrubHits x bad ≠ []) || t.kvs.retiredGran.contains x.id) then .owned 0 else .free)

theorem resourcesKept_scrubDone (s : State) (x : Scrub) (bad : List Nat) :
    ResourcesKept (s.scrubReturned x bad) (s.scrubDone x bad) := by
  have hscrub : s.scrubDone x bad = (match x.giver with
    | some p => (s.scrubReturned x bad).maybeFree p
    | none => s.scrubReturned x bad).scrubNext := rfl
  rw [hscrub]
  refine .trans ?_ (resourcesKept_scrubNext _)
  cases x.giver with
  | some p => exact resourcesKept_maybeFree _ p
  | none => exact .refl _

theorem State.scrubHits_nil (s : State) (x : Scrub) : s.scrubHits x [] = [] := by simp [State.scrubHits]

theorem State.scrubReturned_nil (s : State) (x : Scrub) : s.scrubReturned x [] =
    (s.scrubWiped x).setOwn x.ty x.id
      (if decide (x.ty = 1) && (s.scrubWiped x).kvs.retiredGran.contains x.id then .owned 0 else .free) := by
  simp [State.scrubReturned, State.scrubHits_nil]

theorem State.scrubWiped_kvs {s : State} {x : Scrub} (h : x.ty = 1) : (s.scrubWiped x).kvs = s.kvs := by
  rw [State.scrubWiped, h]
  rfl

/-- A granule is free, or P0's where it is retired; every other resource is free. -/
theorem State.own_scrubReturned_nil (s : State) (x : Scrub) : (s.scrubReturned x []).own x.ty x.id =
    if x.ty = 1 ∧ s.kvs.retiredGran.contains x.id = true then .owned 0 else .free := by
  rw [State.scrubReturned_nil, State.own_setOwn]
  by_cases h : x.ty = 1
  · simp [h, State.scrubWiped_kvs h]
  · simp [h]

@[simp] theorem State.setOwn_byte (s : State) (ty id : Nat) (o : Own) (a : Nat) : (s.setOwn ty id o).byte a = s.byte a := by
  unfold State.setOwn
  split <;> rfl

@[simp] theorem State.setOwn_ring (s : State) (ty id : Nat) (o : Own) (n : Nat) : (s.setOwn ty id o).ring n = s.ring n := by
  unfold State.setOwn
  split <;> rfl

@[simp] theorem State.setOwn_syncVal (s : State) (ty id : Nat) (o : Own) (n : Nat) :
    (s.setOwn ty id o).syncVal n = s.syncVal n := by
  unfold State.setOwn
  split <;> rfl

@[simp] theorem State.setOwn_vi (s : State) (ty id : Nat) (o : Own) (v : Nat) : (s.setOwn ty id o).vi v = s.vi v := by
  unfold State.setOwn
  split <;> rfl

@[simp] theorem State.setOwn_reg (s : State) (ty id : Nat) (o : Own) (pg : Page) (off : Nat) :
    (s.setOwn ty id o).reg pg off = s.reg pg off := by
  unfold State.setOwn
  split <;> rfl

/-- A range set to 0 reads as 0 throughout. -/
theorem State.byte_zero (s : State) {a n k : Nat} (h1 : a ≤ k) (h2 : k < a + n) : (s.zero a n).byte k = 0 := by
  refine Tab.get_of_not_mem fun e he hk => ?_
  have := (List.mem_filter.1 he).2
  simp only [decide_eq_true_eq] at this
  omega

/-! What is left of the contents of a granule, a ring, a sync object and a VI. -/

section Contents
variable {s : State} {x : Scrub}

theorem State.byte_scrubWiped (h : x.ty = 1) {a : Nat} (ha : granule a = x.id) : (s.scrubWiped x).byte a = 0 := by
  rw [State.scrubWiped, h]
  unfold granule at ha
  exact State.byte_zero _ (by omega) (by omega)

theorem State.ring_scrubWiped (h : x.ty = 3) : (s.scrubWiped x).ring x.id = Ring.reset := by
  rw [State.scrubWiped, h]
  exact Tab.get_set_self Ring.reset _ x.id Ring.reset

theorem State.syncVal_scrubWiped (h : x.ty = 4) : (s.scrubWiped x).syncVal x.id = 0 := by
  rw [State.scrubWiped, h]
  exact State.syncVal_setSync ..

theorem State.vi_scrubWiped (h : x.ty = 9) : (s.scrubWiped x).vi x.id = Vi.unbound := by
  rw [State.scrubWiped, h]
  exact Tab.get_set_self Vi.unbound s.vis x.id Vi.unbound

/-- A byte that verification found sends its granule to P0, with SCRUB_FAIL. -/
theorem State.scrubReturned_found (hty : x.ty = 1) (hv : x.verify = true) {a : Nat} (ha : granule a = x.id)
    (hr : s.kvs.retired.contains (a / 65536 * 65536) = false) :
    s.scrubReturned x [a] = ((s.scrubWiped x).scrubFound a).setOwn x.ty x.id (.owned 0) := by
  have hh : s.scrubHits x [a] = [a] := by simpa [State.scrubHits, hty, hv, ha] using hr
  simp [State.scrubReturned, hh, hty]

theorem State.intStat_scrubFound (t : State) (a : Nat) : ((t.scrubFound a).reg prtPage 0x30).bit 11 = true :=
  State.bit_setIntBit _ _ (by decide : (0 : Nat) < 65536) (by decide)

end Contents

/-! ## SCRUB_DONE -/

section ScrubDone
variable {s : State} {ty id : Nat} {x : Scrub}
  (hx : s.scrubNext.scrubs.find? (fun x => decide (x.ty = ty) && decide (x.id = id) && x.started) = some x)
include hx

theorem scrub_found : x.ty = ty ∧ x.id = id := by
  have := List.find?_some hx
  simp only [Bool.and_eq_true, decide_eq_true_eq] at this
  exact this.1

theorem exec_scrubDone_free (hf : s.scrubNext.scrubFree x = true) (bad : List Nat) :
    exec (.scrubDone ty id bad) s = .next (s.scrubNext.scrubDone x bad) := by
  show execScrubDone ty id bad s = _
  simp only [execScrubDone, hx, hf, if_true]

theorem exec_scrubDone_waits (hf : s.scrubNext.scrubFree x = false) (bad : List Nat) :
    exec (.scrubDone ty id bad) s = .next s.scrubNext := by
  show execScrubDone ty id bad s = _
  simp only [execScrubDone, hx, hf]
  rfl

end ScrubDone

/-! ## The commands of PRT (R49) -/

theorem prtWord_op {op : Nat} (h : op < 256) (p : Nat) : (prtWord op p).field 15 8 = op := by
  simp [prtWord, Nat.mod_eq_of_lt h]

theorem prtWord_part (op : Nat) {p : Nat} (h : p < 128) : (prtWord op p).field 6 0 = p := by
  simp [prtWord, Nat.mod_eq_of_lt h]

/-- The commands of PRT with their operations. -/
def prtCmds (p : Nat) : List (Nat × Instr) := [(1, .create p), (2, .assign p), (3, .unassign p), (4, .activate p), (5, .release p)]

theorem exec_prtCmd {s : State} {op p : Nat} {c : Instr} (h : (op, c) ∈ prtCmds p) (ht : Taken s .prt) :
    op < 256 ∧ exec c s = .next (prtRun (prtWord op p) s) := by
  have hrun (w : Word) := State.takeCmd_taken w prtRun ht
  simp only [prtCmds, List.mem_cons, Prod.mk.injEq, List.not_mem_nil, or_false] at h
  rcases h with ⟨rfl, rfl⟩ | ⟨rfl, rfl⟩ | ⟨rfl, rfl⟩ | ⟨rfl, rfl⟩ | ⟨rfl, rfl⟩ <;>
    exact ⟨by decide, congrArg Host.Outcome.next (hrun _)⟩

/-- What a command of PRT that passes its checks does. -/
def State.prtDo (s : State) (op p : Nat) : State :=
  let sync := s.argSync (s.reg prtPage 0x110)
  match op with
  | 1 => (s.setPart p { Part.free with state := .building }).prtEnd op p .ok sync
  | 2 => (s.prtAssign p (s.reg prtPage 0x108)).prtEnd op p .ok sync
  | 3 => (s.prtUnassign p (s.reg prtPage 0x108)).prtEnd op p .ok sync
  | 4 => (s.setPart p { s.part p with state := .active }).prtEnd op p .ok sync
  | _ => (s.setBusy .prt true).release p sync

section PrtCmd
variable {s : State} {op p : Nat} {c : Instr} (hc : (op, c) ∈ prtCmds p) (ht : Taken s .prt) (hp : p < 128)
include hc ht hp

theorem exec_prtCmd_refused {st : Status} (h : s.prtCheck op p (s.reg prtPage 0x108) (s.reg prtPage 0x110) = st)
    (hst : st ≠ .ok) : exec c s = .next (s.prtEnd op p st (s.argSync (s.reg prtPage 0x110))) := by
  obtain ⟨hop, he⟩ := exec_prtCmd hc ht
  simp only [he, prtRun, prtWord_op hop, prtWord_part op hp, h]

theorem exec_prtCmd_ok (h : s.prtCheck op p (s.reg prtPage 0x108) (s.reg prtPage 0x110) = .ok) :
    exec c s = .next (s.prtDo op p) := by
  obtain ⟨hop, he⟩ := exec_prtCmd hc ht
  simp only [he, prtRun, prtWord_op hop, prtWord_part op hp, h]
  rfl

end PrtCmd

end Sys2Proof.Machine
end

section
/-! SUPPORT. The checks of PRT's commands where they pass, what a release leaves, and a harvest that waits. -/

namespace Sys2Proof.Machine

/-! ## Checks that pass (R39, R49) -/

theorem syncOk_refuses {s : State} {a : Word} (h : SyncOk s a) : (a.bit 63 && !s.owns 0 tySync (a.field 13 0)) = false := by
  cases hb : a.bit 63
  · rfl
  · simp [h hb]

section Checks
variable {s : State} {p : Nat} {a0 a1 : Word} (hs : SyncOk s a1)
include hs

theorem prtCheck_create (hp : p ≠ 0) (hst : (s.part p).state = .free) : s.prtCheck 1 p a0 a1 = .ok := by
  simp [State.prtCheck, firstFail, syncOk_refuses hs, hp, hst]

theorem prtCheck_activate (hp : p ≠ 0) (hst : (s.part p).state = .building) : s.prtCheck 4 p a0 a1 = .ok := by
  simp [State.prtCheck, firstFail, syncOk_refuses hs, hp, hst]

theorem prtCheck_release (hp : p ≠ 0) (hst : (s.part p).state = .building ∨ (s.part p).state = .active) :
    s.prtCheck 5 p a0 a1 = .ok := by
  rcases hst with hst | hst <;> simp [State.prtCheck, firstFail, syncOk_refuses hs, hp, hst]

/-- ASSIGN: everything of the range is free; cache ways are not looked up (R47). -/
theorem prtCheck_assign (hst : (s.part p).state = .building ∨ (s.part p).state = .active) (hr : rangeBad a0 = false)
    (hfree : a0.field 63 60 ≠ 2 → ∀ id, id ∈ rangeIds (a0.field 31 0) (a0.field 59 32) → s.own (a0.field 63 60) id = .free) :
    s.prtCheck 2 p a0 a1 = .ok := by
  rcases hst with hst | hst <;> simpa [State.prtCheck, firstFail, syncOk_refuses hs, hst, hr] using hfree

/-- UNASSIGN: the partition holds all of the range, and all of it is quiescent (R495). -/
theorem prtCheck_unassign (hst : (s.part p).state = .building ∨ (s.part p).state = .active) (hr : rangeBad a0 = false)
    (hq : ∀ id, id ∈ rangeIds (a0.field 31 0) (a0.field 59 32) →
      s.holds p (a0.field 63 60) id = true ∧ s.quiescent p (a0.field 63 60) id = true) : s.prtCheck 3 p a0 a1 = .ok := by
  rcases hst with hst | hst <;> simpa [State.prtCheck, firstFail, syncOk_refuses hs, hst, hr] using hq

end Checks

/-! ## RELEASE (R50) -/

/-- The end of a command writes CMD_STAT of its own page alone. -/
theorem State.cmdStats_cmdEnd_ne (s : State) {b b' : Blk} (op obj : Nat) (st : Status) (h : b' ≠ b) :
    cmdStats (s.cmdEnd b op obj st).regs b' = cmdStats s.regs b' := by
  refine State.reg_cmdEnd_ne _ _ _ _ _ _ _ (cmdStat_key_ne_intStat b' _) ?_ (farFrom_cmdStat b' _)
  exact Page.key_ne (by decide : (0 : Nat) < 65536) (by decide : (0 : Nat) < 65536) (cmdStatOff_range b').1 (cmdStatOff_range b).1
    (.inl fun e => h (congrArg Page.blk e))

/-- No partition and not PRT's CMD_STAT has changed. -/
def PrtKept (s t : State) : Prop := t.parts = s.parts ∧ cmdStats t.regs .prt = cmdStats s.regs .prt

theorem PrtKept.trans {s t u : State} (h1 : PrtKept s t) (h2 : PrtKept t u) : PrtKept s u :=
  ⟨h2.1.trans h1.1, h2.2.trans h1.2⟩

theorem prtKept_of {s t : State} (h : CmdsKept s t) : PrtKept s t := ⟨h.1, congrFun h.2 _⟩

/-- The end of a VI's harvest is a command of VIF. -/
theorem prtKept_viUnbind (s : State) (v : Nat) : PrtKept s (s.viUnbind v) := by
  unfold State.viUnbind
  dsimp only
  split
  · exact ⟨State.cmdEnd_parts .., State.cmdStats_cmdEnd_ne _ _ _ _ (by decide)⟩
  · exact ⟨rfl, rfl⟩

theorem prtKept_releaseVis (s : State) (p : Nat) : PrtKept s (s.releaseVis p) := by
  refine List.foldlRecOn (motive := PrtKept s) _ _ ⟨rfl, rfl⟩ fun t ht v _ => ht.trans ?_
  dsimp only
  split
  · exact prtKept_viUnbind t v
  · exact (prtKept_of (t.viReset_cmds v)).trans (prtKept_viUnbind _ v)

theorem prtKept_release (s : State) (p : Nat) (sync : Option Nat) :
    PrtKept (s.setPart p { s.part p with state := .draining, relSync := sync }) (s.release p sync) := by
  have h1 (t : State) : PrtKept t (((t.partFree p).quiet p).releaseRings p) := prtKept_of (State.releaseRings_cmds ..)
  have h3 (t : State) : PrtKept t (t.releaseRegions p) := prtKept_of (t.releaseRegions_cmds p)
  have h4 (t : State) : PrtKept t (t.releaseWork p) := prtKept_of (t.releaseWork_cmds p)
  exact (((h1 _).trans (prtKept_releaseVis _ p)).trans (h3 _)).trans (h4 _)

theorem State.prtDo_release (s : State) (p : Nat) :
    s.prtDo 5 p = (s.setBusy .prt true).release p (s.argSync (s.reg prtPage 0x110)) := rfl

theorem State.part_release (s : State) (p : Nat) (sync : Option Nat) :
    (s.release p sync).part p = { s.part p with state := .draining, relSync := sync } := by
  rw [State.part, (prtKept_release s p sync).1]
  exact State.part_setPart ..

theorem State.cmdBusy_release (s : State) (p : Nat) (sync : Option Nat) : (s.release p sync).cmdBusy .prt = s.cmdBusy .prt :=
  congrArg (fun w : Word => w.bit 63) (prtKept_release s p sync).2

theorem State.cmdBusy_setBusy (s : State) (b : Blk) (x : Bool) : (s.setBusy b x).cmdBusy b = x := by
  rw [State.cmdBusy, State.setBusy, State.reg_setReg]
  exact Word.bit_setBit _ _ _ (by decide)

/-! ## HARVEST_DONE while the host link does not issue (R55, R76) -/

theorem exec_harvestDone_waits {s : State} {v : Nat} {h : Harvest} (hh : s.harvests.find? (fun h => decide (h.vi = v)) = some h)
    (hr : s.hostReady none = false) : exec (.harvestDone v) s = .next s := by
  show execHarvestDone v s = _
  simp only [execHarvestDone, hh, hr]
  rfl

theorem State.setBytes_harvests (s : State) (a : Nat) (bs : List Byte) : (s.setBytes a bs).harvests = s.harvests := by
  induction bs generalizing s a with
  | nil => rfl
  | cons b r ih => exact ih (s.setByte a b) (a + 1)

theorem State.hostWrite_harvests (s : State) (addr : Nat) (data : List Byte) :
    (s.hostWrite none addr data).harvests = s.harvests := by
  unfold State.hostWrite
  split
  · refine List.foldlRecOn (motive := fun t : State => t.harvests = s.harvests) _ _ rfl fun t ht p _ => ?_
    rw [State.emit_harvests, State.count_harvests, ht]
  · rfl

/-- Copying words of a bitmap ends no harvest. -/
theorem State.harvestWords_harvests (s : State) (v host i n : Nat) : (s.harvestWords v host i n).harvests = s.harvests := by
  induction n generalizing s i with
  | zero => rfl
  | succ n ih =>
    unfold State.harvestWords
    rw [ih, State.count_harvests, State.hostWrite_harvests]
    exact State.setBytes_harvests ..

theorem State.vifEnd_none (s : State) (op v : Nat) (st : Status) : s.vifEnd op v st none = s.cmdEnd .vif op v st := rfl

/-- A harvest of VI 0 of which no word has been copied yet. -/
def waitingHarvest : Harvest := { vi := 0, host := 0, next := 0, syncEn := false, sync := 0 }

/-- The device after reset, with that harvest under way in a log of 64 words: the host link, which is down, issues nothing. -/
def harvestUnderWay : State :=
  { State.reset with
    vis := [(0, { Vi.unbound with state := .enabled, logSize := 12 })],
    harvests := [waitingHarvest] }

theorem harvestUnderWay_harvests : harvestUnderWay.harvests = [waitingHarvest] := rfl

theorem harvestUnderWay_hostReady : harvestUnderWay.hostReady none = false := by
  have hbme : harvestUnderWay.hlk.bme = false := rfl
  simp [State.hostReady, State.hostUp, hbme]

/-! ## The state after device reset -/

/-- A table that holds nothing but the default reads as it everywhere. -/
theorem Tab.get_of_all {α : Type} {d : α} {t : Tab α} (h : ∀ e ∈ t, e.2 = d) (k : Nat) : Tab.get d t k = d := by
  by_contra hk
  exact hk (h _ (Tab.mem_of_get rfl hk))

theorem mem_reservedGranules {g : Nat} (h : g < 1536) : g ∈ reservedGranules ↔ g % 192 = 0 := by
  constructor
  · exact fun hg => (by decide : ∀ g ∈ reservedGranules, g % 192 = 0) g hg
  · intro hg
    have hk : g / 192 < 8 := by omega
    have he : g = 192 * (g / 192) := by omega
    rw [he]
    exact (by decide : ∀ k < 8, 192 * k ∈ reservedGranules) _ hk

theorem reset_own_granule {g : Nat} (h : g < 1536) : State.reset.own 1 g = if g % 192 = 0 then .owned 0 else .awaiting := by
  split
  next hg => exact (by decide : ∀ g ∈ reservedGranules, State.reset.own 1 g = .owned 0) g ((mem_reservedGranules h).2 hg)
  next hg =>
    refine Tab.get_of_not_mem fun e he hk => hg ?_
    obtain ⟨g', hg', rfl⟩ := List.mem_map.1 he
    exact (mem_reservedGranules h).1 (hk ▸ hg')

end Sys2Proof.Machine

/-! ## The obligations of the reset state, of partitions and of virtual interfaces -/

open Sys2Proof Sys2Proof.Machine

/-- Settles O3: the tables of the reset state list P0, the granules of R44 and PLLs that are OFF, and nothing else that is asked
about. -/
theorem resetStateOfTheDevice : Obligations.ResetStateOfTheDevice := by
  unfold Obligations.ResetStateOfTheDevice
  refine ⟨rfl, fun p hp => ?_, fun g hg => reset_own_granule hg, fun ty id hty => if_neg hty, fun _ => rfl, fun _ => rfl,
    fun _ => rfl, fun n => ?_, fun _ _ => rfl, fun _ => rfl, rfl, rfl⟩
  · exact if_neg hp.symm
  · have hoff : State.reset.pll n = Pll.reset := Tab.get_of_all (fun e he => by
      obtain ⟨k, -, rfl⟩ := List.mem_map.1 he
      rfl) n
    rw [hoff]
    rfl

/-- Settles O13: each command is its checks in the order of R39 and its effect; a release changes its own partition alone among the
partitions, and leaves BUSY set; and the end of a scrub gives the wiped resource its new owner, which what follows leaves. -/
theorem partitionLife : Obligations.PartitionLife := by
  unfold Obligations.PartitionLife
  refine ⟨?create, ?activate, ?assign, ?assigned, ?unassign, ?unassigned, ?release, ?drained, ?scrubbing, ?scrubDone, ?scrubFail,
    ?scrubWaits, ?refused⟩
  case create =>
    intro s p ht hs hp h0 hst
    exact exec_prtCmd_ok (by simp [prtCmds]) ht hp (prtCheck_create hs h0 hst)
  case activate =>
    intro s p ht hs hp h0 hst
    exact exec_prtCmd_ok (by simp [prtCmds]) ht hp (prtCheck_activate hs h0 hst)
  case assign =>
    rintro s p _ ht hs hp rfl hst hr hfree
    exact exec_prtCmd_ok (by simp [prtCmds]) ht hp (prtCheck_assign hs hst hr hfree)
  case assigned => exact fun s p a hty hr ty id hid => s.own_prtAssign p hty hr ty hid
  case unassign =>
    rintro s p _ ht hs hp rfl hst hr hq
    exact exec_prtCmd_ok (by simp [prtCmds]) ht hp (prtCheck_unassign hs hst hr hq)
  case unassigned => exact fun s p a hty _ id hid => s.own_prtUnassign p hty hid
  case release =>
    intro s p ht hs hp h0 hst
    refine ⟨_, exec_prtCmd_ok (by simp [prtCmds]) ht hp (prtCheck_release hs h0 hst), ?_⟩
    rw [State.prtDo_release]
    dsimp only
    rw [State.part_release, State.cmdBusy_release, State.cmdBusy_setBusy]
    exact ⟨rfl, rfl, rfl⟩
  case drained =>
    intro s p hst hd
    show execPartDrainDone p s = _
    rw [execPartDrainDone, if_pos ⟨hst, hd⟩]
  case scrubbing =>
    exact fun s p => ⟨congrArg Part.state (s.part_enterScrub p), fun ty id hty hid h => State.own_enterScrub hty hid h⟩
  case scrubDone =>
    intro s ty id x hx hf
    obtain ⟨rfl, rfl⟩ := scrub_found hx
    have hk := resourcesKept_scrubDone s.scrubNext x []
    refine ⟨_, exec_scrubDone_free hx hf [], ?_, fun h a ha => ?_, fun h => ?_, fun h => ?_, fun h => ?_⟩
    · rw [hk.own, State.own_scrubReturned_nil, State.scrubNext_kvs]
    · rw [hk.byte, State.scrubReturned_nil, State.setOwn_byte, State.byte_scrubWiped h ha]
    · rw [hk.ring, State.scrubReturned_nil, State.setOwn_ring, State.ring_scrubWiped h]
    · rw [hk.syncVal, State.scrubReturned_nil, State.setOwn_syncVal, State.syncVal_scrubWiped h]
    · rw [hk.vi, State.scrubReturned_nil, State.setOwn_vi, State.vi_scrubWiped h]
  case scrubFail =>
    intro s id a x hx hv hf ha hr
    obtain ⟨hty, rfl⟩ := scrub_found hx
    have hk := resourcesKept_scrubDone s.scrubNext x [a]
    rw [State.scrubReturned_found hty hv ha (by rw [State.scrubNext_kvs, hr]), hty] at hk
    refine ⟨_, exec_scrubDone_free hx hf [a], ?_, hk.intStat 11 ?_⟩
    · rw [hk.own, State.own_setOwn]
    · rw [State.setOwn_reg, State.intStat_scrubFound]
  case scrubWaits => exact fun s ty id bad x hx hf => exec_scrubDone_waits hx hf bad
  case refused => exact fun s p op c st ht hp hc h hst => exec_prtCmd_refused hc ht hp h hst

/-- Refutes O14: HARVEST_DONE copies nothing while the host link does not issue, and the harvest stays (R55, R76); the statement
says that the harvest ends in every state. -/
theorem not_virtualInterfaceLife : ¬ Obligations.VirtualInterfaceLife := by
  unfold Obligations.VirtualInterfaceLife
  rintro ⟨-, -, -, -, -, -, -, -, hdone, -, -⟩
  have hend := hdone harvestUnderWay 0 waitingHarvest rfl
  rw [exec_harvestDone_waits (h := waitingHarvest) rfl harvestUnderWay_hostReady] at hend
  injection hend with hend
  have hleft : [waitingHarvest] = [] := by
    conv_lhs => rw [← harvestUnderWay_harvests, hend]
    rw [if_neg (by simp [waitingHarvest]), State.vifEnd_none, State.cmdEnd_harvests, State.harvestWords_harvests]
    rfl
  exact absurd hleft (by simp)

end

section
/-! SUPPORT. What failed reads, failed groups and stopped rings leave of the host link: LINK_STAT and FREEZE, what PF0 is set to, the
states of VIs, the outstanding reads, and which rings there are. Each operation that they reach leaves all of it, said once for each, in
the order of the model's files. -/

namespace Sys2Proof.Machine

/-! ## What is left alone -/

/-- A register of the HLK page, among the registers given. -/
def hlkReg (r : Tab Word) (off : Nat) : Word := (Tab.find r (hlkPage.key off)).getD (hlkPage.resetAt off)

/-- LINK_STAT and FREEZE, among the registers given. -/
def linkRegs (r : Tab Word) : Word × Word := (hlkReg r 0x108, hlkReg r 0x110)

/-- The host link but for WAKE_N, the messages that it holds, and its page requests. -/
def hlkRest (h : Hlk) : Hlk :=
  { h with heldIrq := [], heldVecs := [], pba := [], wakeN := true, pageReqs := [], nextPrg := 0 }

/-- The state of each VI. -/
def viStates (t : Tab Vi) (v : Nat) : ViState := (Tab.get Vi.unbound t v).state

/-- Whether a ring is set up, is a VI's, and lies in HBM; and its state. -/
def Ring.shape (r : Ring) : Bool × Bool × Bool × RingState := (r.setUp, r.viEn, r.hbm, r.state)

/-- The shape of each ring. -/
def ringShapes (t : Tab Ring) (n : Nat) : Bool × Bool × Bool × RingState := (Tab.get Ring.reset t n).shape

/-- LINK_STAT, FREEZE, the settings of PF0 and the states of VIs have not changed. -/
@[simp] abbrev LinkKept (s t : State) : Prop :=
  linkRegs t.regs = linkRegs s.regs ∧ hlkRest t.hlk = hlkRest s.hlk ∧ viStates t.vis = viStates s.vis

/-- Nor have the outstanding reads, nor the shapes of rings. -/
@[simp] abbrev HostKept (s t : State) : Prop :=
  LinkKept s t ∧ t.reads = s.reads ∧ ringShapes t.rings = ringShapes s.rings

/-! ## Registers -/

theorem linkRegs_eq {s t : State} (h : ∀ o, o = 0x108 ∨ o = 0x110 → t.reg hlkPage o = s.reg hlkPage o) :
    linkRegs t.regs = linkRegs s.regs := Prod.ext (h 0x108 (.inl rfl)) (h 0x110 (.inr rfl))

/-- No register of another offset is in the place of LINK_STAT or FREEZE. -/
theorem linkRegs_key_ne {o k : Nat} (ho : o = 0x108 ∨ o = 0x110) (pg : Page) (hk : k < 65536) (h1 : k ≠ 0x108) (h2 : k ≠ 0x110) :
    hlkPage.key o ≠ pg.key k := by
  unfold Page.key
  omega

theorem farFrom_linkRegs {o : Nat} (ho : o = 0x108 ∨ o = 0x110) (pg : Page) : FarFrom hlkPage o pg := fun k hk =>
  linkRegs_key_ne ho pg (ctrRegs_lt hk) (fun e => absurd (e ▸ hk) (by decide)) (fun e => absurd (e ▸ hk) (by decide))

theorem linkRegs_key_ne_intStat {o : Nat} (ho : o = 0x108 ∨ o = 0x110) (pg : Page) : hlkPage.key o ≠ pg.key 0x30 :=
  linkRegs_key_ne ho pg (by decide) (by decide) (by decide)

/-- A register at another offset of any page is neither. -/
theorem State.setReg_linkRegs (s : State) (pg : Page) {k : Nat} (v : Word) (hk : k < 65536) (h1 : k ≠ 0x108) (h2 : k ≠ 0x110) :
    linkRegs (s.setReg pg k v).regs = linkRegs s.regs :=
  linkRegs_eq fun _ ho => State.reg_setReg_ne _ _ _ _ _ _ (linkRegs_key_ne ho pg hk h1 h2)

/-- Nor is any register of a page whose block's code lies above 4, that of HLK. -/
theorem State.setReg_linkRegs_above (s : State) {pg : Page} (k : Nat) (v : Word) (h : 4 < pg.blk.code) :
    linkRegs (s.setReg pg k v).regs = linkRegs s.regs := by
  refine linkRegs_eq fun o ho => State.reg_setReg_ne _ _ _ _ _ _ ?_
  have hk : hlkPage.key o = 4 * 65536 * 65536 + o := rfl
  rw [hk, Page.key]
  omega

@[simp] theorem State.setReg_syn_linkRegs (s : State) (k : Nat) (v : Word) :
    linkRegs (s.setReg Blk.syn.page k v).regs = linkRegs s.regs := s.setReg_linkRegs_above k v (by decide)

@[simp] theorem State.count_linkRegs (s : State) (pg : Page) (code n : Nat) : linkRegs (s.count pg code n).regs = linkRegs s.regs :=
  linkRegs_eq fun _ ho => State.reg_count_far _ _ _ _ _ _ (farFrom_linkRegs ho _) (farFrom_linkRegs ho _)

@[simp] theorem State.setIntBit_linkRegs (s : State) (pg : Page) (b : Nat) : linkRegs (s.setIntBit pg b).regs = linkRegs s.regs :=
  linkRegs_eq fun _ ho => State.reg_setInt_far _ _ _ _ _ (linkRegs_key_ne_intStat ho pg) (farFrom_linkRegs ho _)

@[simp] theorem State.latch_linkRegs (s : State) (pg : Page) (u b p : Nat) (l : Bool) :
    linkRegs (s.latch pg u b p l).regs = linkRegs s.regs :=
  linkRegs_eq fun _ ho =>
    State.reg_latch_ne _ _ _ _ _ _ _ _ (linkRegs_key_ne_intStat ho pg) (farFrom_linkRegs ho _) (farFrom_linkRegs ho _)

/-! ## The host link, VIs and rings -/

section
variable (h : Hlk) (l : List Nat)

@[simp] theorem hlkRest_heldIrq : hlkRest { h with heldIrq := l } = hlkRest h := rfl
@[simp] theorem hlkRest_pba : hlkRest { h with pba := l } = hlkRest h := rfl
@[simp] theorem hlkRest_heldVecs (l : List (Nat × Nat)) : hlkRest { h with heldVecs := l } = hlkRest h := rfl
@[simp] theorem hlkRest_wakeN (b : Bool) : hlkRest { h with wakeN := b } = hlkRest h := rfl
@[simp] theorem hlkRest_pageReqs_nextPrg (l : List PageReq) (n : Nat) :
    hlkRest { h with pageReqs := l, nextPrg := n } = hlkRest h := rfl

end

/-- What the rest of the host link determines is the same where the rest is. -/
theorem hlkRest_get {α : Type} (f : Hlk → α) {g h : Hlk} (e : hlkRest g = hlkRest h)
    (hf : ∀ x, f (hlkRest x) = f x := by intro; rfl) : f g = f h := by
  rw [← hf g, e, hf h]

theorem onlyRegs_hlkRest {s t : State} (h : OnlyRegs s t) : hlkRest t.hlk = hlkRest s.hlk :=
  onlyRegs_get (fun u => hlkRest u.hlk) (fun _ _ _ _ _ => rfl) h

@[simp] theorem State.msix_hlkRest (s : State) (v : Nat) : hlkRest (s.msix v).hlk = hlkRest s.hlk :=
  onlyRegs_hlkRest (onlyRegs_msix _ (onlyRegs_refl s))

@[simp] theorem State.count_hlkRest (s : State) (pg : Page) (c n : Nat) : hlkRest (s.count pg c n).hlk = hlkRest s.hlk :=
  onlyRegs_hlkRest (onlyRegs_count _ _ _ (onlyRegs_refl s))

@[simp] theorem State.setIntBit_hlkRest (s : State) (pg : Page) (b : Nat) : hlkRest (s.setIntBit pg b).hlk = hlkRest s.hlk :=
  onlyRegs_hlkRest (onlyRegs_setInt _ _ (onlyRegs_refl s))

@[simp] theorem State.latch_hlkRest (s : State) (pg : Page) (u b p : Nat) (l : Bool) :
    hlkRest (s.latch pg u b p l).hlk = hlkRest s.hlk :=
  onlyLatch_get (fun u => hlkRest u.hlk) (fun _ _ _ _ _ _ _ => rfl) (onlyLatch_latch s pg u b p l)

theorem State.viStates_vis (s : State) (v : Nat) : viStates s.vis v = (s.vi v).state := rfl

@[simp] theorem State.setVi_viStates (s : State) (v : Nat) (x : Vi) (h : x.state = (s.vi v).state) :
    viStates (s.setVi v x).vis = viStates s.vis := by
  funext k
  simp only [State.viStates_vis]
  by_cases hk : k = v
  · subst hk; simpa using h
  · rw [State.vi_setVi_ne _ _ _ _ hk]

theorem State.ringShapes_rings (s : State) (n : Nat) : ringShapes s.rings n = (s.ring n).shape := rfl

/-- A ring that keeps what its shape is made of keeps its shape. -/
@[simp] theorem State.setRing_ringShapes (s : State) (n : Nat) (x : Ring) (h1 : x.setUp = (s.ring n).setUp)
    (h2 : x.viEn = (s.ring n).viEn) (h3 : x.hbm = (s.ring n).hbm) (h4 : x.state = (s.ring n).state) :
    ringShapes (s.setRing n x).rings = ringShapes s.rings := by
  funext k
  simp only [State.ringShapes_rings]
  by_cases hk : k = n
  · subst hk; simp [Ring.shape, h1, h2, h3, h4]
  · rw [State.ring_setRing_ne _ _ _ _ hk]

theorem Ring.release_eq (r : Ring) (o : Nat) (v : Word) : ∃ l, r.release o v = { r with fetched := l } := by
  unfold Ring.release
  split
  · split
    · exact ⟨_, rfl⟩
    · exact ⟨r.fetched, rfl⟩
  · exact ⟨r.fetched, rfl⟩

section
variable (r : Ring) (o : Nat) (v : Word)

@[simp] theorem Ring.release_setUp : (r.release o v).setUp = r.setUp := by
  obtain ⟨l, h⟩ := r.release_eq o v
  rw [h]
@[simp] theorem Ring.release_viEn : (r.release o v).viEn = r.viEn := by
  obtain ⟨l, h⟩ := r.release_eq o v
  rw [h]
@[simp] theorem Ring.release_hbm : (r.release o v).hbm = r.hbm := by
  obtain ⟨l, h⟩ := r.release_eq o v
  rw [h]
@[simp] theorem Ring.release_state : (r.release o v).state = r.state := by
  obtain ⟨l, h⟩ := r.release_eq o v
  rw [h]
@[simp] theorem Ring.release_shape : (r.release o v).shape = r.shape := by simp [Ring.shape]

end

@[simp] theorem ringShapes_release (t : Tab Ring) (o : Nat) (v : Word) :
    ringShapes (t.map fun e => (e.1, e.2.release o v)) = ringShapes t := by
  funext n
  induction t with
  | nil => rfl
  | cons e r ih =>
    by_cases h : e.1 = n
    · simp [ringShapes, Tab.get, h]
    · simpa [ringShapes, Tab.get, h] using ih

/-! ## Branches and folds -/

section
variable (c : Prop) [Decidable c] (s t : State)

@[simp] theorem linkRegs_ite : linkRegs (if c then s else t).regs = if c then linkRegs s.regs else linkRegs t.regs :=
  apply_ite (fun u : State => linkRegs u.regs) c s t
@[simp] theorem hlkRest_ite : hlkRest (if c then s else t).hlk = if c then hlkRest s.hlk else hlkRest t.hlk :=
  apply_ite (fun u : State => hlkRest u.hlk) c s t
@[simp] theorem viStates_ite : viStates (if c then s else t).vis = if c then viStates s.vis else viStates t.vis :=
  apply_ite (fun u : State => viStates u.vis) c s t
@[simp] theorem State.reads_ite : (if c then s else t).reads = if c then s.reads else t.reads := apply_ite State.reads c s t
@[simp] theorem ringShapes_ite : ringShapes (if c then s else t).rings = if c then ringShapes s.rings else ringShapes t.rings :=
  apply_ite (fun u : State => ringShapes u.rings) c s t

end

theorem hostKept_refl (s : State) : HostKept s s := by simp

theorem linkKept_trans {s t u : State} (h1 : LinkKept s t) (h2 : LinkKept t u) : LinkKept s u :=
  ⟨h2.1.trans h1.1, h2.2.1.trans h1.2.1, h2.2.2.trans h1.2.2⟩

theorem hostKept_trans {s t u : State} (h1 : HostKept s t) (h2 : HostKept t u) : HostKept s u :=
  ⟨linkKept_trans h1.1 h2.1, h2.2.1.trans h1.2.1, h2.2.2.trans h1.2.2⟩

/-- A fold leaves it where each of its steps over the elements does. -/
theorem hostKept_foldl_mem {α : Type} {f : State → α → State} (l : List α) (s : State)
    (hf : ∀ t, ∀ x ∈ l, HostKept t (f t x)) : HostKept s (l.foldl f s) := by
  induction l generalizing s with
  | nil => exact hostKept_refl s
  | cons a r ih => exact hostKept_trans (hf s a List.mem_cons_self) (ih _ fun t x hx => hf t x (List.mem_cons_of_mem _ hx))

@[simp] theorem hostKept_foldl {α : Type} {f : State → α → State} (hf : ∀ t x, HostKept t (f t x)) (l : List α)
    (s : State) : HostKept s (l.foldl f s) := hostKept_foldl_mem l s fun t x _ => hf t x

/-! ## Memory, interrupts, rings and events -/

@[simp] theorem State.setBytes_host (s : State) (a : Nat) (bs : List Byte) : HostKept s (s.setBytes a bs) := by
  induction bs generalizing s a with
  | nil => exact hostKept_refl _
  | cons b r ih => exact ih (s.setByte a b) (a + 1)

@[simp] theorem State.dirtyPage_host (s : State) (v page : Nat) : HostKept s (s.dirtyPage v page) := by
  simp [State.dirtyPage]

@[simp] theorem State.dirty_host (s : State) (v addr len : Nat) : HostKept s (s.dirty v addr len) := by
  simp [State.dirty]

@[simp] theorem State.hostWrite_host (s : State) (v : Option Nat) (addr : Nat) (data : List Byte) :
    HostKept s (s.hostWrite v addr data) := by
  cases v <;> simp [State.hostWrite]

@[simp] theorem State.store_host (s : State) (hbm : Bool) (v : Option Nat) (addr : Nat) (data : List Byte) :
    HostKept s (s.store hbm v addr data) := by simp [State.store]

@[simp] theorem State.viVector_host (s : State) (v n : Nat) : HostKept s (s.viVector v n) := by simp [State.viVector]

@[simp] theorem State.ringIrq_host (s : State) (r : Ring) : HostKept s (s.ringIrq r) := by simp [State.ringIrq]

@[simp] theorem State.ringEntry_host (s : State) (n : Nat) (w0 w1 w2 w3 : Word) : HostKept s (s.ringEntry n w0 w1 w2 w3) := by
  simp [State.ringEntry]

@[simp] theorem State.ringPut_host (s : State) (n : Nat) (w0 w1 w2 w3 : Word) : HostKept s (s.ringPut n w0 w1 w2 w3) := by
  simp [State.ringPut]

@[simp] theorem State.wake_host (s : State) (b : Nat) : HostKept s (s.wake b) := by simp [State.wake]

@[simp] theorem State.eventLost_host (s : State) : HostKept s s.eventLost := by simp [State.eventLost]

@[simp] theorem State.eventPut_host (s : State) (n : Nat) (w0 w1 w2 w3 : Word) : HostKept s (s.eventPut n w0 w1 w2 w3) := by
  simp [State.eventPut]

@[simp] theorem State.overflow_host (s : State) (n : Nat) : HostKept s (s.overflow n) := by simp [State.overflow]

@[simp] theorem State.eventRing_host (s : State) (n typ : Nat) (st : Status) (obj : Nat) (w1 w2 w3 : Word) :
    HostKept s (s.eventRing n typ st obj w1 w2 w3) := by simp [State.eventRing]

@[simp] theorem State.event_host (s : State) (p typ : Nat) (st : Status) (obj : Nat) (w1 w2 w3 : Word) :
    HostKept s (s.event p typ st obj w1 w2 w3) := by
  unfold State.event
  split <;> simp

/-! ## Sync objects: watches and the swap point of SYN -/

@[simp] theorem State.watch_host (s : State) (o w : Nat) : HostKept s (s.watch o w) := by simp [State.watch]

@[simp] theorem State.syncSettle_host (s : State) (o : Nat) : HostKept s (s.syncSettle o) := by simp [State.syncSettle]

@[simp] theorem State.swapSyn_host (s : State) : HostKept s s.swapSyn := by simp [State.swapSyn]

@[simp] theorem State.swapReject_syn_host (s : State) (off : Nat) : HostKept s (s.swapReject Blk.syn.page off) := by
  simp [State.swapReject]

@[simp] theorem State.swapLive_syn_host (s : State) : HostKept s (s.swapLive Blk.syn.page) := by simp [State.swapLive]

@[simp] theorem State.swapFirst_syn_host (s : State) (checks : List (Nat × Bool)) :
    HostKept s (s.swapFirst Blk.syn.page checks) := by
  unfold State.swapFirst
  split
  · split <;> simp
  · exact hostKept_refl _

@[simp] theorem State.synTake_host (s : State) : HostKept s s.synTake := by simp [State.synTake]

@[simp] theorem State.syncAdd_host (s : State) (o : Nat) (v : Word) : HostKept s (s.syncAdd o v) := by
  unfold State.syncAdd
  split <;> simp

/-! ## Pools, sequences and block tables -/

@[simp] theorem State.updPool_host (s : State) (k : Nat) (f : Pool → Pool) : HostKept s (s.updPool k f) := hostKept_refl _

@[simp] theorem State.poolLow_host (s : State) (k : Nat) : HostKept s (s.poolLow k) := by
  unfold State.poolLow
  split <;> simp

@[simp] theorem State.openBytes_host (s : State) (a n : Nat) : HostKept s (s.openBytes a n) := by simp [State.openBytes]

@[simp] theorem State.slotStore_host (s : State) (k n : Nat) : HostKept s (s.slotStore k n) := by
  unfold State.slotStore
  split <;> simp

@[simp] theorem State.releaseSlot_host (s : State) (k n : Nat) : HostKept s (s.releaseSlot k n) := by
  unfold State.releaseSlot
  split
  · split <;> simp
  · exact hostKept_refl _

@[simp] theorem State.setSeq_host (s : State) (q : Nat) (x : Seq) : HostKept s (s.setSeq q x) := by
  unfold State.setSeq
  split
  · exact hostKept_refl _
  · split <;> simp

@[simp] theorem State.setHandle_host (s : State) (x : Seq) (l g b : Nat) (v : Option Nat) :
    HostKept s (s.setHandle x l g b v) := s.setBytes_host ..

@[simp] theorem State.settleDeferred_host (s : State) (q : Nat) : HostKept s (s.settleDeferred q) := by
  simp [State.settleDeferred]

@[simp] theorem State.unuseSeq_host (s : State) (q n : Nat) : HostKept s (s.unuseSeq q n) := by simp [State.unuseSeq]

@[simp] theorem State.clearHandles_host (s : State) (x : Seq) (l b0 b1 : Nat) (slots : List Nat) :
    HostKept s (s.clearHandles x l b0 b1 slots) := by
  refine hostKept_foldl (fun t g => hostKept_foldl (fun t i => ?_) _ _) _ _
  split <;> simp

@[simp] theorem State.ingestUndo_host (s : State) (ws : List Word) (alloc : List Nat) : HostKept s (s.ingestUndo ws alloc) := by
  simp [State.ingestUndo]

/-! ## Drives, the cache, connections and checkpoint steps -/

@[simp] theorem State.driveCmd_host (s : State) (n : Nat) (x : Ns) (write fua : Bool) (use : DriveUse) (data : List Byte)
    (slba : Nat) (pc : Extent × Nat × Nat × Nat) : HostKept s (s.driveCmd n x write fua use data slba pc).2 := by
  simp [State.driveCmd]

@[simp] theorem State.driveIo_host (s : State) (n : Nat) (write fua : Bool) (slba nlb : Nat) (use : DriveUse)
    (data : List Byte) : HostKept s (s.driveIo n write fua slba nlb use data).2 := by
  have hf (l : List (Extent × Nat × Nat × Nat)) (a : List Nat × State) : HostKept a.2 (l.foldl (fun a pc =>
      (a.1 ++ [(a.2.driveCmd n (s.ns n) write fua use data slba pc).1],
        (a.2.driveCmd n (s.ns n) write fua use data slba pc).2)) a).2 := by
    induction l generalizing a with
    | nil => exact hostKept_refl _
    | cons pc r ih => exact hostKept_trans (State.driveCmd_host ..) (ih _)
  exact hf _ _

@[simp] theorem State.freePages_host (s : State) (l : List Nat) : HostKept s (s.freePages l) := hostKept_refl _
@[simp] theorem State.cacheDrop_host (s : State) (n slba nlb : Nat) : HostKept s (s.cacheDrop n slba nlb) := hostKept_refl _
@[simp] theorem State.updConn_host (s : State) (c : Nat) (f : Conn → Conn) : HostKept s (s.updConn c f) := hostKept_refl _
@[simp] theorem State.connEnqueue_host (s : State) (c : Nat) (items : List TxItem) : HostKept s (s.connEnqueue c items) :=
  hostKept_refl _
@[simp] theorem State.updStep_host (s : State) (sid : Nat) (f : Step → Step) : HostKept s (s.updStep sid f) := hostKept_refl _

@[simp] theorem State.stepIssue_host (s : State) (x : Step) (shard off : Nat) (data : List Byte) :
    HostKept s (s.stepIssue x shard off data) := by simp [State.stepIssue]

@[simp] theorem State.shardIssue_host (s : State) (x : Step) (i : Nat) : HostKept s (s.shardIssue x i) := by
  unfold State.shardIssue
  split <;> simp

@[simp] theorem State.stepAdvance_host (s : State) (sid : Nat) : HostKept s (s.stepAdvance sid) := by
  unfold State.stepAdvance
  split <;> simp

@[simp] theorem State.stepsAdvance_host (s : State) (p : Nat) : HostKept s (s.stepsAdvance p) := by simp [State.stepsAdvance]

@[simp] theorem State.stepSettle_host (s : State) (sid : Nat) : HostKept s (s.stepSettle sid) := by
  unfold State.stepSettle
  split <;> simp

@[simp] theorem State.stepMark_host (s : State) (sid : Nat) (st : Status) (unknown : Bool) :
    HostKept s (s.stepMark sid st unknown) := by
  unfold State.stepMark
  split <;> simp

/-! ## Work in progress and reduction groups -/

@[simp] theorem State.updWork_host (s : State) (ring idx : Nat) (f : Work → Work) : HostKept s (s.updWork ring idx f) :=
  hostKept_refl _

@[simp] theorem State.abandonMsg_host (s : State) (ring idx : Nat) : HostKept s (s.abandonMsg ring idx) := by
  unfold State.abandonMsg
  split <;> simp

@[simp] theorem State.dropAttend_host (s : State) (ring idx : Nat) : HostKept s (s.dropAttend ring idx) := by
  refine hostKept_trans ?_ (hostKept_foldl (fun t r => ?_) _ _)
  · exact hostKept_refl _
  · split <;> simp

@[simp] theorem State.dropStep_host (s : State) (ring idx : Nat) (st : Status) : HostKept s (s.dropStep ring idx st) := by
  unfold State.dropStep
  split <;> simp

@[simp] theorem State.dropCmd_host (s : State) (ring idx : Nat) : HostKept s (s.dropCmd ring idx) := hostKept_refl _

@[simp] theorem State.undoWork_host (s : State) (ring idx : Nat) (st : Status) : HostKept s (s.undoWork ring idx st) := by
  unfold State.undoWork
  dsimp only
  split
  · split <;> simp
  · simp

@[simp] theorem State.workDone_host (s : State) (ring idx : Nat) (st : Status) (detail : Nat) (r0 r1 : Word) :
    HostKept s (s.workDone ring idx st detail r0 r1) := by simp [State.workDone]

@[simp] theorem State.abortDesc_host (s : State) (ring : Nat) (d : Desc) (noSignal : Bool) :
    HostKept s (s.abortDesc ring d noSignal) := hostKept_refl _

@[simp] theorem State.updGroup_host (s : State) (key : Nat) (f : Group → Group) : HostKept s (s.updGroup key f) := hostKept_refl _
@[simp] theorem State.clearSlots_host (s : State) (first n : Nat) : HostKept s (s.clearSlots first n) := hostKept_refl _

@[simp] theorem State.failGroup_host (s : State) (key : Nat) (st : Status) : HostKept s (s.failGroup key st) := by
  unfold State.failGroup
  split <;> simp

/-! ## The ends of failed reads -/

theorem State.writeSettle_host (s : State) (ring idx : Nat) : HostKept s (s.writeSettle ring idx) := by
  unfold State.writeSettle
  split
  · split
    · extract_lets x n stop
      split
      · split <;> simp
      · exact hostKept_refl _
    all_goals exact hostKept_refl _
  · exact hostKept_refl _

@[simp] theorem State.writeReadFailed_host (s : State) (ring idx k : Nat) (st : Status) :
    HostKept s (s.writeReadFailed ring idx k st) := State.writeSettle_host ..

@[simp] theorem State.operandFailed_host (s : State) (ring idx : Nat) (hbm : Bool) (addr : Nat) (st : Status) :
    HostKept s (s.operandFailed ring idx hbm addr st) := by
  unfold State.operandFailed
  split
  · split
    · exact hostKept_refl _
    · extract_lets s1
      have h1 : HostKept s s1 := by
        simp only [s1]
        split <;> simp
      refine hostKept_trans h1 ?_
      split <;> simp
  · exact hostKept_refl _

@[simp] theorem State.failOperand_host (s : State) (u : ReadUse) (got : Nat) (st : Status) (noSignal : Bool) :
    HostKept s (s.failOperand u got st noSignal) := by
  unfold State.failOperand
  split <;> simp

@[simp] theorem State.serveEnd_host (s : State) (c : Nat) (psn : BitVec 32) (st : Status) : HostKept s (s.serveEnd c psn st) := by
  unfold State.serveEnd
  split <;> simp

/-- A ring that stops has another state; nothing else of the host link changes. -/
@[simp] theorem State.ringStopped_link (s : State) (n cause : Nat) (st : Status) :
    LinkKept s (s.ringStopped n cause st) ∧ (s.ringStopped n cause st).reads = s.reads := by simp [State.ringStopped]

@[simp] theorem State.fetchFailed_link (s : State) (n idx : Nat) (st : Status) :
    LinkKept s (s.fetchFailed n idx st) ∧ (s.fetchFailed n idx st).reads = s.reads := by simp [State.fetchFailed]

@[simp] theorem State.failRead_link (s : State) (r : HostRead) (st : Status) (noSignal : Bool) :
    LinkKept s (s.failRead r st noSignal) ∧ (s.failRead r st noSignal).reads = s.reads := by
  unfold State.failRead
  split <;> simp

/-! ## Stopping a VI (R70 to R72) -/

/-- Of the host link, the end of reads changes the outstanding reads alone. -/
@[simp] theorem State.endReads_link (s : State) (which : HostRead → Bool) (timedOut : Bool) :
    LinkKept s (s.endReads which timedOut) ∧ ringShapes (s.endReads which timedOut).rings = ringShapes s.rings := by
  simp [State.endReads]

@[simp] theorem State.settleHead_host (s : State) (n : Nat) : HostKept s (s.settleHead n) := by
  unfold State.settleHead
  dsimp only
  split <;> simp

@[simp] theorem State.abortWorks_host (s : State) (which : Work → Bool) : HostKept s (s.abortWorks which) := by
  simp [State.abortWorks]

@[simp] theorem State.abortFetched_host (s : State) (which : Ring → Bool) : HostKept s (s.abortFetched which) := by
  simp [State.abortFetched]

@[simp] theorem State.fetchRewind_host (s : State) (which : HostRead → Bool) : HostKept s (s.fetchRewind which) := by
  refine hostKept_foldl (fun t r => ?_) _ _
  split <;> simp

@[simp] theorem State.hostStop_link (s : State) (v : Option Nat) :
    LinkKept s (s.hostStop v) ∧ ringShapes (s.hostStop v).rings = ringShapes s.rings := by simp [State.hostStop]

end Sys2Proof.Machine
end

section
/-! SUPPORT. What stopped VIs and the resets of PF0 leave: LINK_STAT, FREEZE, the settings of PF0, the states of VIs and of P0's rings. -/

namespace Sys2Proof.Machine

/-! ## Tables without some of their keys -/

/-- A table without the keys for which p fails reads as before at the others, and as the default there. -/
theorem Tab.get_filter_key {α : Type} (d : α) (t : Tab α) (p : Nat → Bool) (k : Nat) :
    Tab.get d (t.filter fun e => p e.1) k = if p k then Tab.get d t k else d := by
  induction t with
  | nil => simp [Tab.get]
  | cons e r ih =>
    obtain ⟨i, v⟩ := e
    by_cases hi : i = k
    · subst hi
      by_cases hp : p i = true
      · simp [hp, Tab.get]
      · simpa [hp] using ih
    · by_cases hp : p i = true
      · simpa [hp, Tab.get, hi] using ih
      · simpa [hp, Tab.get, hi] using ih

/-! ## VIs that are stopped, and the resets of PF0 -/

/-- LINK_STAT, FREEZE and the settings of PF0 have not changed. -/
@[simp] abbrev PortKept (s t : State) : Prop := linkRegs t.regs = linkRegs s.regs ∧ hlkRest t.hlk = hlkRest s.hlk

theorem portKept_foldl {α : Type} {f : State → α → State} (hf : ∀ t x, PortKept t (f t x)) (l : List α) (s : State) :
    PortKept s (l.foldl f s) :=
  List.foldlRecOn l f ⟨rfl, rfl⟩ fun b hb a _ => ⟨(hf b a).1.trans hb.1, (hf b a).2.trans hb.2⟩

theorem State.viStop_port (s : State) (v : Nat) : PortKept s (s.viStop v) := by simp [State.viStop]

/-- A VI that is stopped is RESETTING, and the others stay as they are. -/
theorem State.viStop_state (s : State) (v k : Nat) :
    ((s.viStop v).vi k).state = if k = v then .resetting else (s.vi k).state := by
  have h := congrFun (State.hostStop_link (s.setVi v { s.vi v with state := .resetting }) (some v)).1.2.2 k
  simp only [State.viStates_vis] at h
  rw [State.viStop, h]
  split
  next hk => subst hk; simp
  next hk => rw [State.vi_setVi_ne _ _ _ _ hk]

theorem State.viStop_ringShapes (s : State) (v : Nat) : ringShapes (s.viStop v).rings = ringShapes s.rings := by
  simp [State.viStop]

theorem State.viRingsReset_link (s : State) (v : Nat) : LinkKept s (s.viRingsReset v) := by simp [State.viRingsReset]

theorem State.abortDesc_foldl_rings (l : List Desc) (n : Nat) (noSignal : Bool) (s : State) :
    (l.foldl (fun t d => t.abortDesc n d noSignal) s).rings = s.rings :=
  List.foldlRecOn (motive := fun t : State => t.rings = s.rings) l _ rfl fun _ hb _ _ => hb

/-- The rings of a VI that lose their contexts are DISABLED; no ring's state changes beside them. -/
theorem State.viRingsReset_disabled {s : State} {n : Nat} (v : Nat) (h : (s.ring n).state = .disabled) :
    ((s.viRingsReset v).ring n).state = .disabled := by
  unfold State.viRingsReset
  extract_lets gone lost s1 s2
  have h1 : s1.rings = s.rings := List.foldlRecOn (motive := fun t : State => t.rings = s.rings) s.rings _ rfl fun t ht e _ => by
    split
    · rw [State.abortDesc_foldl_rings, ht]
    · exact ht
  have h2 : (s2.ring n).state = .disabled := by
    show (Tab.get Ring.reset (s1.rings.filter _) n).state = _
    rw [h1, Tab.get_filter_key Ring.reset s.rings (fun k => !s.viHostRing v k)]
    split
    · exact h
    · rfl
  split
  · exact h2
  · rwa [State.ring, State.count_rings]

theorem State.viReset_port (s : State) (v : Nat) : PortKept s (s.viReset v) := by
  have h := (s.viStop v).viRingsReset_link v
  exact ⟨h.1.trans (s.viStop_port v).1, h.2.1.trans (s.viStop_port v).2⟩

theorem State.viReset_state (s : State) (v k : Nat) :
    ((s.viReset v).vi k).state = if k = v then .resetting else (s.vi k).state :=
  (congrFun ((s.viStop v).viRingsReset_link v).2.2 k).trans (s.viStop_state v k)

theorem State.viReset_disabled {s : State} {n : Nat} (v : Nat) (h : (s.ring n).state = .disabled) :
    ((s.viReset v).ring n).state = .disabled :=
  State.viRingsReset_disabled v
    ((congrArg (fun x : Bool × Bool × Bool × RingState => x.2.2.2) (congrFun (s.viStop_ringShapes v) n)).trans h)

/-- A VI that takes work is among those that a stop of all takes. -/
theorem State.mem_liveVis {s : State} {v : Nat} (h : (s.vi v).state = .enabled ∨ (s.vi v).state = .orphaned) : v ∈ s.liveVis := by
  have hv : s.vi v ≠ Vi.unbound := fun e => by rw [e] at h; simp [Vi.unbound] at h
  refine List.mem_map.2 ⟨(v, s.vi v), List.mem_filter.2 ⟨Tab.mem_of_get rfl hv, ?_⟩, rfl⟩
  simpa using h

/-- Each of the VIs that take work is RESETTING once each has been stopped. -/
theorem State.liveVis_resetting {s : State} {f : State → Nat → State}
    (hf : ∀ t v k, ((f t v).vi k).state = if k = v then .resetting else (t.vi k).state) {v : Nat}
    (h : (s.vi v).state = .enabled ∨ (s.vi v).state = .orphaned) (t : State) :
    ((s.liveVis.foldl f t).vi v).state = .resetting :=
  foldl_reaches (P := fun t => (t.vi v).state = .resetting) (State.mem_liveVis h) (fun t => by rw [hf, if_pos rfl])
    (fun t k _ ht => by rw [hf]; split <;> [rfl; exact ht]) t

@[simp] theorem State.p0HostRingsOff_link (s : State) : LinkKept s s.p0HostRingsOff :=
  List.foldlRecOn s.rings _ ⟨rfl, rfl, rfl⟩ fun t ht e _ => by
    refine linkKept_trans ht ?_
    split <;> simp

/-- P0's rings in host memory are DISABLED (R72). -/
theorem State.p0HostRingsOff_disabled {s : State} {n : Nat} (h1 : (s.ring n).setUp = true) (h2 : (s.ring n).viEn = false)
    (h3 : (s.ring n).hbm = false) : (s.p0HostRingsOff.ring n).state = .disabled := by
  have hn : s.ring n ≠ Ring.reset := fun e => by rw [e] at h1; simp [Ring.reset] at h1
  have hmem : (n, s.ring n) ∈ s.rings := Tab.mem_of_get rfl hn
  refine foldl_reaches (P := fun t => (t.ring n).state = .disabled) hmem (fun t => ?_) (fun t e _ ht => ?_) s
  · simp [h1, h2, h3]
  · split
    · by_cases he : n = e.1
      · subst he; simp
      · rw [State.ring_setRing_ne _ _ _ _ he, State.ring, State.abortDesc_foldl_rings]
        exact ht
    · exact ht

/-- The VIs stopped and the rings disabled by a reset of PF0. -/
def State.pf0Stopped (s : State) : State := s.liveVis.foldl (fun t v => t.viReset v) (s.hostStop none).p0HostRingsOff

theorem State.pf0Stopped_port (s : State) : PortKept s s.pf0Stopped := by
  have h := portKept_foldl (fun t v => State.viReset_port t v) s.liveVis (s.hostStop none).p0HostRingsOff
  have h0 : PortKept s (s.hostStop none).p0HostRingsOff := by simp
  exact ⟨h.1.trans h0.1, h.2.trans h0.2⟩

theorem State.pf0Stopped_resetting {s : State} {v : Nat} (h : (s.vi v).state = .enabled ∨ (s.vi v).state = .orphaned) :
    (s.pf0Stopped.vi v).state = .resetting := State.liveVis_resetting State.viReset_state h _

theorem State.pf0Stopped_disabled {s : State} {n : Nat} (h1 : (s.ring n).setUp = true) (h2 : (s.ring n).viEn = false)
    (h3 : (s.ring n).hbm = false) : (s.pf0Stopped.ring n).state = .disabled := by
  have hs : ((s.hostStop none).ring n).shape = (s.ring n).shape := congrFun (s.hostStop_link none).2 n
  simp only [Ring.shape, Prod.mk.injEq] at hs
  obtain ⟨e1, e2, e3, -⟩ := hs
  exact List.foldlRecOn (motive := fun t : State => (t.ring n).state = .disabled) s.liveVis _
    (State.p0HostRingsOff_disabled (e1.trans h1) (e2.trans h2) (e3.trans h3)) fun _ ht v _ => State.viReset_disabled v ht

/-! ## The HLK page at its reset values (R72, R75) -/

/-- Every register of the page but LINK_STAT and FREEZE reads as its reset value. -/
theorem State.reg_hlkPageReset (s : State) (down : Bool) {off : Nat} (h : off < 65536) (h1 : off ≠ 0x108) (h2 : off ≠ 0x110) :
    (s.hlkPageReset down).reg hlkPage off = hlkPage.resetAt off := by
  unfold State.hlkPageReset
  rw [State.reg_setReg_ne _ _ _ _ _ _ (Page.key_ne_same _ h1), State.reg_setReg_ne _ _ _ _ _ _ (Page.key_ne_same _ h2), State.reg,
    Tab.find_getD]
  refine (Tab.get_filter_key _ s.regs (fun k => !(decide (hlkPage.key 0 ≤ k) && decide (k < hlkPage.key 0 + 65536))) _).trans
    (if_neg ?_)
  have hk : hlkPage.key off = hlkPage.key 0 + off := rfl
  simp [hk, h]

theorem State.freeze_hlkPageReset (s : State) (down : Bool) : (s.hlkPageReset down).reg hlkPage 0x110 = s.reg hlkPage 0x110 := by
  unfold State.hlkPageReset
  rw [State.reg_setReg_ne _ _ _ _ _ _ (Page.key_ne_same _ (by decide)), State.reg_setReg]

/-- The link stays up through a Function Level Reset alone. -/
theorem State.up_hlkPageReset (s : State) (down : Bool) :
    ((s.hlkPageReset down).reg hlkPage 0x108).bit 63 = (!down && (s.reg hlkPage 0x108).bit 63) := by
  unfold State.hlkPageReset
  rw [State.reg_setReg]
  cases down
  · simp
  · exact Word.bit_zero 63


/-- What a reset of PF0 sets of the host link. -/
def hlkAfterReset (h : Hlk) : Hlk :=
  { h with bme := false, pmeEn := false, priEn := false, respFail := false, aer := [], vecMap := [], heldIrq := [], heldVecs := [],
           pba := [], pageReqs := [], cfg := Hlk.cfgReset, l12 := false, atc := [], d3cold := false }

theorem State.pf0Reset_eq (s : State) (down : Bool) :
    s.pf0Reset down = State.hlkPageReset { s.pf0Stopped with hlk := hlkAfterReset s.pf0Stopped.hlk } down := rfl

end Sys2Proof.Machine
end

section
/-! SUPPORT. Messages that are held go out at once where the link issues: none is held after, and each vector of PF0 that is not masked
is among what has gone out. -/

namespace Sys2Proof.Machine

/-! ## Messages that a link that issues sends at once (R74, R77, R80) -/

/-- Whether the link may issue depends on LINK_STAT, FREEZE, the settings of PF0 and the fault collector. -/
theorem State.hostUp_eq {s t : State} (h : PortKept s t) (hf : t.flt = s.flt) : t.hostUp = s.hostUp := by
  obtain ⟨hr, hh⟩ := h
  have h1 : t.reg Blk.hlk.page 0x108 = s.reg Blk.hlk.page 0x108 := congrArg Prod.fst hr
  have h2 : t.reg Blk.hlk.page 0x110 = s.reg Blk.hlk.page 0x110 := congrArg Prod.snd hr
  have h3 : t.hlk.bme = s.hlk.bme := hlkRest_get Hlk.bme hh
  have h4 : t.hlk.perst = s.hlk.perst := hlkRest_get Hlk.perst hh
  unfold State.hostUp State.frozen State.dstate State.dataHeld
  rw [h1, h2, h3, h4, hf]

/-- The vectors of PF0 that were held are sent. -/
def State.irqSent (s : State) : State := s.hlk.heldIrq.foldl (fun t v => t.msix v) { s with hlk := { s.hlk with heldIrq := [] } }

/-- The vectors of VIs that were held are sent. -/
def State.vecsSent (s : State) : State :=
  s.hlk.heldVecs.foldl (fun t e => t.viVector e.1 e.2) { s with hlk := { s.hlk with heldVecs := [] } }

theorem State.flushIrq_up {s : State} (h : s.hostUp = true) :
    s.flushIrq = s.irqSent.vecsSent.trs.attWaits.foldl (fun t v => t.attWrite v) s.irqSent.vecsSent.pbaSend := if_pos h

theorem State.flushIrq_down {s : State} (h : s.hostUp = false) : s.flushIrq = s := if_neg (by simp [h])

/-- The link issues, and holds the messages given: of PF0 and of VIs. -/
def Issuing (q : List Nat) (l : List (Nat × Nat)) (s : State) : Prop :=
  s.hostUp = true ∧ s.hlk.heldIrq = q ∧ s.hlk.heldVecs = l

namespace Issuing

variable {q : List Nat} {l : List (Nat × Nat)} {s : State}

/-- An update that the link's readiness and its held messages do not depend on. -/
theorem of_eq {t : State} (h : Issuing q l s) (hp : PortKept s t) (hf : t.flt = s.flt) (h1 : t.hlk.heldIrq = s.hlk.heldIrq)
    (h2 : t.hlk.heldVecs = s.hlk.heldVecs) : Issuing q l t :=
  ⟨(State.hostUp_eq hp hf).trans h.1, h1.trans h.2.1, h2.trans h.2.2⟩

theorem foldl {α : Type} {f : State → α → State} (h : Issuing q l s) (hf : ∀ t x, Issuing q l t → Issuing q l (f t x)) (xs : List α) :
    Issuing q l (xs.foldl f s) := List.foldlRecOn xs f h fun t ht x _ => hf t x ht

theorem msix (h : Issuing q l s) (v : Nat) : Issuing q l (s.msix v) := by
  unfold State.msix
  rw [h.1]
  split
  next hc => simp at hc
  next =>
    split
    · exact h
    · split <;> exact h

theorem setReg (h : Issuing q l s) (pg : Page) {k : Nat} (v : Word) (hk : k < 65536) (h1 : k ≠ 0x108) (h2 : k ≠ 0x110) :
    Issuing q l (s.setReg pg k v) := h.of_eq ⟨s.setReg_linkRegs pg v hk h1 h2, rfl⟩ rfl rfl rfl

theorem intRaise (h : Issuing q l s) (pg : Page) (bits : Word) : Issuing q l (s.intRaise pg bits) := by
  have h1 : Issuing q l (s.setReg pg 0x30 (s.reg pg 0x30 ||| bits)) := h.setReg pg _ (by decide) (by decide) (by decide)
  unfold State.intRaise
  dsimp only
  split
  · exact h1.msix _
  · exact h1

theorem counterAdd (h : Issuing q l s) (pg : Page) {i : Nat} (n : Nat) (hi : i < 8) : Issuing q l (s.counterAdd pg i n) := by
  have h1 (t : State) (ht : Issuing q l t) : Issuing q l (t.counterWrapped pg i) := by
    unfold State.counterWrapped
    extract_lets t1 t2
    have ht1 : Issuing q l t1 := by
      simp only [t1]
      split
      · exact ht.setReg pg _ (by decide) (by decide) (by decide)
      · exact ht
    split
    · split
      · exact (ht1.intRaise pg _).intRaise pg _
      · exact ht1.intRaise pg _
    · exact ht1
  have h2 (w : Word) : Issuing q l (s.setReg pg (0xF00 + 8 * i) w) := h.setReg pg _ (by omega) (by omega) (by omega)
  unfold State.counterAdd
  dsimp only
  split
  · exact h1 _ (h2 _)
  · exact h2 _

theorem countHere (h : Issuing q l s) (pg : Page) (code n : Nat) : Issuing q l (s.countHere pg code n) := by
  unfold State.countHere
  split
  · exact h
  · refine List.foldlRecOn (List.range pg.ctrN) _ h fun t ht i hi => ?_
    split
    · exact ht.counterAdd pg n (Nat.lt_of_lt_of_le (List.mem_range.1 hi) (pageCtrN_le pg))
    · exact ht

/-- A count on a page of the host side. -/
theorem count (h : Issuing q l s) (pg : Page) (hp : blkField pg.blk = false) (code n : Nat) : Issuing q l (s.count pg code n) := by
  rw [State.count, State.intCross_host _ _ _ hp]
  exact h.countHere pg code n

theorem emit (h : Issuing q l s) (o : Out) : Issuing q l (s.emit o) := h

theorem setByte (h : Issuing q l s) (a : Nat) (b : Byte) : Issuing q l (s.setByte a b) := h

theorem setVi (h : Issuing q l s) (v : Nat) (x : Vi) : Issuing q l (s.setVi v x) := h

theorem dirty (h : Issuing q l s) (v addr len : Nat) : Issuing q l (s.dirty v addr len) := by
  have h1 (t : State) (i : Nat) (ht : Issuing q l t) : Issuing q l (t.dirtyPage v i) := by
    unfold State.dirtyPage
    dsimp only
    split
    · exact (ht.setByte _ _).count Blk.vif.page rfl 2 1
    · exact (ht.setVi v _).count Blk.vif.page rfl 3 1
  unfold State.dirty
  split
  · exact h
  · exact h.foldl (fun t i => h1 t _) _

theorem hostWrite (h : Issuing q l s) (v : Option Nat) (addr : Nat) (data : List Byte) : Issuing q l (s.hostWrite v addr data) := by
  unfold State.hostWrite
  split
  · extract_lets s1
    have h1 : Issuing q l s1 := by
      cases v with
      | none => exact h
      | some v => exact h.dirty v addr data.length
    exact h1.foldl (fun t p ht => (ht.count Blk.hlk.page rfl 2 1).emit _) _
  · exact h

theorem viVector (h : Issuing q l s) (v n : Nat) : Issuing q l (s.viVector v n) := by
  unfold State.viVector
  rw [h.1]
  dsimp only
  split
  next hc => simp at hc
  next =>
    split
    · split <;> exact h
    · exact h.hostWrite _ _ _

theorem attWrite (h : Issuing q l s) (v : Nat) : Issuing q l (s.attWrite v) := by
  unfold State.attWrite
  extract_lets pg _ s1
  split
  next e _ =>
    extract_lets s2
    have h1 : Issuing q l s1 := h
    have h2 : Issuing q l s2 := (h1.hostWrite _ _ _).setReg pg 0 (by decide) (by decide) (by decide)
    exact h2.setVi v _
  next => exact h

theorem priAsk (h : Issuing q l s) (v : Option Nat) (page : Nat) (u : Option ReadUse) : Issuing q l (s.priAsk v page u) := by
  have hreqs (k : Nat) (rs : List PageReq) : Issuing q l { s with hlk := { s.hlk with pageReqs := rs, nextPrg := k } } := h
  unfold State.priAsk
  split
  · exact h
  · split
    · exact ((hreqs _ _).count Blk.hlk.page rfl 6 1).emit _
    · exact h

theorem faultsAsk (h : Issuing q l s) : Issuing q l s.faultsAsk := h.foldl (fun _ _ ht => ht.priAsk _ _ _) _

theorem irqSent (h : Issuing q l s) : Issuing [] l s.irqSent := by
  have h0 : Issuing [] l { s with hlk := { s.hlk with heldIrq := [] } } := ⟨h.1, rfl, h.2.2⟩
  exact h0.foldl (fun _ v ht => ht.msix v) _

theorem vecsSent (h : Issuing q l s) : Issuing q [] s.vecsSent := by
  have h0 : Issuing q [] { s with hlk := { s.hlk with heldVecs := [] } } := ⟨h.1, h.2.1, rfl⟩
  have hsend (t : State) (e : Nat × Nat) (ht : Issuing q [] t) : Issuing q [] (t.viVector e.1 e.2) := ht.viVector e.1 e.2
  exact h0.foldl hsend s.hlk.heldVecs

theorem pbaSend (h : Issuing q l s) : Issuing q l s.pbaSend := by
  have h0 : Issuing q l { s with hlk := { s.hlk with pba := [] } } := h
  exact h0.foldl (fun _ v ht => ht.msix v) _

/-- What was held has been sent. -/
theorem flushIrq (h : s.hostUp = true) : Issuing [] [] s.flushIrq := by
  have h0 : Issuing s.hlk.heldIrq s.hlk.heldVecs s := ⟨h, rfl, rfl⟩
  rw [State.flushIrq_up h]
  exact h0.irqSent.vecsSent.pbaSend.foldl (fun _ v ht => ht.attWrite v) _

end Issuing

/-- Of the vectors that are sent in turn while the link issues, each that is not masked goes out with its address and data. -/
theorem State.msix_foldl_out {s : State} {l : List Nat} {v : Nat} {e : Nat × Nat × Nat} (h : s.hostUp = true) (hv : v ∈ l)
    (hm : s.msixMasked v = false) (he : s.hlk.cfg.msixTable.find? (fun e => decide (e.1 = v)) = some e) :
    Out.msix v e.2.1 e.2.2 ∈ (l.foldl (fun t v => t.msix v) s).out := by
  induction l generalizing s with
  | nil => simp at hv
  | cons a r ih =>
    rw [List.foldl_cons]
    by_cases ha : v = a
    · subst ha
      have hsent : Out.msix v e.2.1 e.2.2 ∈ (s.msix v).out := by
        simp [State.msix, h, hm, he]
      exact (keeps_out (keeps_foldl (fun t x ht => State.msix_keeps x ht) (keeps_refl _))).subset hsent
    · have hc : (s.msix a).hlk.cfg = s.hlk.cfg := hlkRest_get Hlk.cfg (s.msix_hlkRest a)
      refine ih ((Issuing.msix ⟨h, rfl, rfl⟩ a).1) ((List.mem_cons.1 hv).resolve_left ha) ?_ ?_
      · rw [State.msixMasked, hc]; exact hm
      · rw [hc]; exact he

end Sys2Proof.Machine
end

section
/-! SUPPORT. What the messages that go out leave of the host link, and the facts about freezes, resets and D-states that the host link's
statement cites. -/

namespace Sys2Proof.Machine

/-! ## What is left alone as held messages go out -/

@[simp] theorem State.attWrite_host (s : State) (v : Nat) : HostKept s (s.attWrite v) := by
  have hreg (t : State) (w : Word) := t.setReg_linkRegs ⟨.fwi, 0x1000 + v⟩ (k := 0x640) w (by decide) (by decide) (by decide)
  unfold State.attWrite
  dsimp only
  split <;> simp [hreg]

@[simp] theorem State.irqSent_host (s : State) : HostKept s s.irqSent := by simp [State.irqSent]

@[simp] theorem State.vecsSent_host (s : State) : HostKept s s.vecsSent := by simp [State.vecsSent]

@[simp] theorem State.pbaSend_host (s : State) : HostKept s s.pbaSend := by simp [State.pbaSend]

@[simp] theorem State.flushIrq_host (s : State) : HostKept s s.flushIrq := by
  cases h : s.hostUp
  · rw [State.flushIrq_down h]
    exact hostKept_refl s
  · rw [State.flushIrq_up h]
    simp

@[simp] theorem State.priAsk_host (s : State) (v : Option Nat) (page : Nat) (u : Option ReadUse) :
    HostKept s (s.priAsk v page u) := by simp [State.priAsk]

@[simp] theorem State.faultsAsk_host (s : State) : HostKept s s.faultsAsk := by simp [State.faultsAsk]

theorem HostKept.reg {s t : State} (h : HostKept s t) {o : Nat} (ho : o = 0x108 ∨ o = 0x110) : t.reg hlkPage o = s.reg hlkPage o := by
  rcases ho with rfl | rfl
  · exact congrArg Prod.fst h.1.1
  · exact congrArg Prod.snd h.1.1

/-- A count on a page of one instance clears no bit of INT_STAT of HLK. -/
theorem intKept_hlk_count (s : State) (b : Blk) (code n : Nat) : IntKept hlkPage s (s.count b.page code n) := by
  by_cases hb : b = .hlk
  · subst hb
    exact (intKept_countHere s hlkPage code n).trans (intKept_intCross _ _ _ _ (by decide))
  · have hfar (b : Blk) (h : b ≠ .hlk) : FarFrom hlkPage 0x30 b.page := fun k hk =>
      Page.key_ne (by decide) (by decide : (0 : Nat) < 65536) (by decide) (ctrRegs_lt hk) (.inl fun e => h (congrArg Page.blk e).symm)
    exact .of_eq (State.reg_count_far _ _ _ _ _ _ (hfar b hb) (hfar .trs (by decide)))

theorem intKept_foldl {α : Type} {pg : Page} {f : State → α → State} (hf : ∀ t x, IntKept pg t (f t x)) (l : List α) (s : State) :
    IntKept pg s (l.foldl f s) :=
  List.foldlRecOn (motive := fun t => IntKept pg s t) l f (.refl pg s) fun t ht x _ => ht.trans (hf t x)

theorem intKept_msix (s : State) (pg : Page) (v : Nat) : IntKept pg s (s.msix v) := .of_eq (by
  rw [State.reg, State.msix_regs, State.reg])

theorem intKept_dirty (s : State) (v addr len : Nat) : IntKept hlkPage s (s.dirty v addr len) := by
  have hpage (t : State) (i : Nat) : IntKept hlkPage t (t.dirtyPage v i) := by
    unfold State.dirtyPage
    dsimp only
    split
    · exact intKept_hlk_count (t.setByte _ _) .vif 2 1
    · exact intKept_hlk_count (t.setVi _ _) .vif 3 1
  unfold State.dirty
  split
  · exact .refl _ _
  · exact intKept_foldl (fun t i => hpage t _) _ _

theorem intKept_hostWrite (s : State) (v : Option Nat) (addr : Nat) (data : List Byte) :
    IntKept hlkPage s (s.hostWrite v addr data) := by
  have hpiece (t : State) (o : Out) : IntKept hlkPage t ((t.count1 .hlk 2).emit o) := intKept_hlk_count t .hlk 2 1
  unfold State.hostWrite
  split
  · refine IntKept.trans ?_ (intKept_foldl (fun t p => hpiece t _) _ _)
    cases v with
    | none => exact .refl _ _
    | some v => exact intKept_dirty s v addr data.length
  · exact .refl _ _

theorem intKept_viVector (s : State) (v n : Nat) : IntKept hlkPage s (s.viVector v n) := by
  unfold State.viVector
  dsimp only
  split
  · exact .refl _ _
  · split
    · split <;> exact .refl _ _
    · exact intKept_hostWrite s _ _ _

theorem intKept_attWrite (s : State) (v : Nat) : IntKept hlkPage s (s.attWrite v) := by
  have hreg (t : State) (w : Word) : IntKept hlkPage t (t.setReg ⟨.fwi, 0x1000 + v⟩ 0x640 w) :=
    .of_eq (State.reg_setReg_ne _ _ _ _ _ _ (by unfold Page.key; omega))
  unfold State.attWrite
  extract_lets pg _ s1
  split
  next e _ =>
    have h1 : IntKept hlkPage s s1 := .refl _ _
    exact (h1.trans (intKept_hostWrite s1 _ _ _)).trans (hreg _ _)
  next => exact .refl _ _

/-- As held messages go out, no bit of INT_STAT of HLK is lost. -/
theorem intKept_flushIrq (s : State) : IntKept hlkPage s s.flushIrq := by
  cases h : s.hostUp
  · rw [State.flushIrq_down h]
    exact .refl _ _
  · rw [State.flushIrq_up h]
    have h1 : IntKept hlkPage s s.irqSent :=
      intKept_foldl (fun t v => intKept_msix t hlkPage v) s.hlk.heldIrq { s with hlk := { s.hlk with heldIrq := [] } }
    have hvec (t : State) (e : Nat × Nat) : IntKept hlkPage t (t.viVector e.1 e.2) := intKept_viVector t e.1 e.2
    have h2 (t : State) : IntKept hlkPage t t.vecsSent := intKept_foldl hvec t.hlk.heldVecs { t with hlk := { t.hlk with heldVecs := [] } }
    have h3 (t : State) : IntKept hlkPage t t.pbaSend :=
      intKept_foldl (fun u v => intKept_msix u hlkPage v) t.hlk.pba { t with hlk := { t.hlk with pba := [] } }
    exact ((h1.trans (h2 _)).trans (h3 _)).trans (intKept_foldl (fun t v => intKept_attWrite t v) _ _)

/-- What has gone out stays as the rest follows it. -/
theorem State.out_after_irqSent {s : State} (h : s.hostUp = true) : s.irqSent.out <+: s.flushIrq.faultsAsk.out := by
  refine keeps_out (s := s.irqSent) ?_
  rw [State.flushIrq_up h]
  exact State.faultsAsk_keeps (keeps_foldl (fun t v ht => State.attWrite_keeps v ht)
    (State.pbaSend_keeps (keeps_foldl (fun t e ht => State.viVector_keeps e.1 e.2 ht) (keeps_refl _))))

/-! ## A freeze (R73, R74) -/

/-- FREEZE with its count of freezes one higher. -/
def freezeCounted (w : Word) : Word := w.setField 47 32 (w.field 47 32 + 1)

/-- What every cause of a freeze sets: its AER bit, and the error; a surprise down also takes the link down. -/
def State.freezeLatched (s : State) (cause : Nat) : State :=
  let s1 : State := { s with hlk := { s.hlk with aer := aerAdd s.hlk.aer cause, atc := [] } }
  let s2 := if cause = 1 then s1.setReg hlkPage 0x108 ((s1.reg hlkPage 0x108).setBit 63 false) else s1
  s2.err .hlk (if cause = 1 then 5 else 6)

/-- The port enters the freeze. -/
def State.freezeEntered (s : State) (cause : Nat) : State :=
  ((s.freezeLatched cause).setReg hlkPage 0x110 (((freezeCounted (s.reg hlkPage 0x110)).setBit 63 true).setField 7 0 cause)).setIntBit
    hlkPage 8

theorem State.portFreeze_later {s : State} (cause : Nat) (h : s.frozen = true) :
    s.portFreeze cause = (s.freezeLatched cause).setReg hlkPage 0x110 (freezeCounted (s.reg hlkPage 0x110)) := if_pos h

theorem State.portFreeze_first {s : State} (cause : Nat) (h : s.frozen = false) :
    s.portFreeze cause = (s.reads.filter (fun r => r.port = 0)).foldl (fun t r => t.failRead r .timeout false)
      ((s.freezeEntered cause).endReads (fun r => decide (r.port = 0)) false) := if_neg (by rw [← State.frozen, h]; simp)

@[simp] theorem State.freezeLatched_reads (s : State) (cause : Nat) : (s.freezeLatched cause).reads = s.reads := by
  simp [State.freezeLatched]

theorem State.freezeLatched_atc (s : State) (cause : Nat) : (s.freezeLatched cause).hlk.atc = [] := by
  unfold State.freezeLatched
  dsimp only
  rw [hlkRest_get Hlk.atc (State.latch_hlkRest ..)]
  split <;> rfl

theorem State.freezeEntered_reads (s : State) (cause : Nat) : (s.freezeEntered cause).reads = s.reads := by
  simp [State.freezeEntered]

theorem State.freezeEntered_atc (s : State) (cause : Nat) : (s.freezeEntered cause).hlk.atc = [] :=
  (hlkRest_get Hlk.atc (State.setIntBit_hlkRest ..)).trans (s.freezeLatched_atc cause)

theorem State.freezeEntered_reg (s : State) (cause : Nat) : (s.freezeEntered cause).reg hlkPage 0x110 =
    ((freezeCounted (s.reg hlkPage 0x110)).setBit 63 true).setField 7 0 cause := by
  rw [State.freezeEntered, State.reg_setIntBit_ne _ _ _ _ _ rfl (by decide), State.reg_setReg]

/-- The reads whose users end leave the freeze as it has been entered. -/
theorem State.failReads_link (l : List HostRead) (st : Status) (s : State) :
    LinkKept s (l.foldl (fun t r => t.failRead r st false) s) ∧ (l.foldl (fun t r => t.failRead r st false) s).reads = s.reads :=
  List.foldlRecOn (motive := fun t => LinkKept s t ∧ t.reads = s.reads) l _ ⟨⟨rfl, rfl, rfl⟩, rfl⟩ fun t ht r _ =>
    ⟨linkKept_trans ht.1 (t.failRead_link r st false).1, (t.failRead_link r st false).2.trans ht.2⟩

theorem State.portFreeze_first_state {s : State} (cause : Nat) (h : s.frozen = false) :
    (s.portFreeze cause).reg hlkPage 0x110 = ((freezeCounted (s.reg hlkPage 0x110)).setBit 63 true).setField 7 0 cause ∧
    (s.portFreeze cause).reads = s.reads.filter (fun r => !decide (r.port = 0)) ∧ (s.portFreeze cause).hlk.atc = [] := by
  rw [State.portFreeze_first cause h]
  obtain ⟨⟨hr, hh, -⟩, hreads⟩ := State.failReads_link (s.reads.filter (fun r => r.port = 0)) .timeout
    ((s.freezeEntered cause).endReads (fun r => decide (r.port = 0)) false)
  refine ⟨?_, ?_, ?_⟩
  · exact (congrArg Prod.snd hr).trans (s.freezeEntered_reg cause)
  · rw [hreads, State.endReads, State.freezeEntered_reads]
  · exact (hlkRest_get Hlk.atc hh).trans (s.freezeEntered_atc cause)

/-! ## A reset of PF0 and the D-states (R72, R76, R77) -/

/-- What a reset of PF0 leaves of the HLK page, of the VIs that took work, and of P0's rings in host memory. -/
theorem State.pf0Reset_leaves (s : State) (down : Bool) :
    (∀ off, off < 65536 → off ≠ 0x108 → off ≠ 0x110 → (s.pf0Reset down).reg hlkPage off = hlkPage.resetAt off) ∧
    (s.pf0Reset down).reg hlkPage 0x110 = s.reg hlkPage 0x110 ∧
    ((s.pf0Reset down).reg hlkPage 0x108).bit 63 = (!down && (s.reg hlkPage 0x108).bit 63) ∧
    (∀ v, ((s.vi v).state = .enabled ∨ (s.vi v).state = .orphaned) → ((s.pf0Reset down).vi v).state = .resetting) ∧
    (∀ n, (s.ring n).setUp = true → (s.ring n).viEn = false → (s.ring n).hbm = false →
      ((s.pf0Reset down).ring n).state = .disabled) := by
  rw [State.pf0Reset_eq]
  refine ⟨fun off h h1 h2 => State.reg_hlkPageReset _ down h h1 h2, ?_, ?_, fun v hv => State.pf0Stopped_resetting hv,
    fun n h1 h2 h3 => State.pf0Stopped_disabled h1 h2 h3⟩
  · exact (State.freeze_hlkPageReset _ down).trans (congrArg Prod.snd s.pf0Stopped_port.1)
  · have hlink : s.pf0Stopped.reg hlkPage 0x108 = s.reg hlkPage 0x108 := congrArg Prod.fst s.pf0Stopped_port.1
    rw [State.up_hlkPageReset, ← hlink]
    rfl

theorem State.dstate_setDstate (s : State) {d : Nat} (h : d < 4) : (s.setDstate d).dstate = d := by
  unfold State.setDstate
  split
  · assumption
  · rw [State.dstate, State.reg_setIntBit_ne _ _ _ _ _ rfl (by decide), State.reg_setReg,
      Word.field_setField _ _ _ _ (by decide) (by decide)]
    omega

theorem State.onlyRegs_setDstate (s : State) (d : Nat) : OnlyRegs s (s.setDstate d) := by
  unfold State.setDstate
  split
  · exact onlyRegs_refl s
  · exact onlyRegs_setInt _ _ (onlyRegs_setReg _ _ _ (onlyRegs_refl s))

end Sys2Proof.Machine
end

section
/-! SUPPORT. Completions and timeouts of reads by their tag, the end of an invalidation, and the answers to a page request. -/

namespace Sys2Proof.Machine

/-! ## Completions and timeouts of reads (R66 to R69) -/

theorem State.readAt_some {s : State} {port tag : Nat} {r : HostRead} (h : s.readAt port tag = some r) : port = r.port ∧ tag = r.tag := by
  have := List.find?_some h
  simp at this
  exact ⟨this.1.symm, this.2.symm⟩

section
variable {s : State} {port tag : Nat}

/-- A read whose time is not up is left alone. -/
theorem State.cplTimeout_early {r : HostRead} (h : s.readAt port tag = some r) (ht : s.clk.noc < r.at_ + s.readTimeout port) :
    s.cplTimeout port tag = s := by
  simp only [State.cplTimeout, h, if_neg (Nat.not_le.2 ht)]

theorem State.cplTimeout_due {r : HostRead} (h : s.readAt 0 tag = some r) (ht : r.at_ + s.readTimeout 0 ≤ s.clk.noc) :
    s.cplTimeout 0 tag = (((s.endReads (fun x => decide (x.port = 0) && decide (x.tag = tag)) true).errFor .hlk 1 r.part).count hlkPage
      4 1).failRead r .timeout false := by
  simp only [State.cplTimeout, h, if_pos ht, if_true]

theorem State.cplTimeout_none (h : s.readAt port tag = none) : s.cplTimeout port tag = s := by
  simp only [State.cplTimeout, h]

/-- A completion in time goes to its read. -/
theorem State.completion_inTime {r : HostRead} (h : s.readAt port tag = some r) (ht : s.clk.noc < r.at_ + s.readTimeout port)
    (cs : CplStatus) (data : List Byte) : s.completion port tag cs data = s.readCpl r cs data := by
  simp only [State.completion, State.cplTimeout_early h ht, h]

theorem State.completion_quarantined {q : Quar} (h : s.readAt port tag = none)
    (hq : s.quar.find? (fun q => decide (q.port = port) && decide (q.tag = tag)) = some q) (cs : CplStatus) (data : List Byte) :
    s.completion port tag cs data = s.discardCpl q := by
  simp only [State.completion, State.cplTimeout_none h, h, hq]

theorem State.completion_unknown (h : s.readAt port tag = none)
    (hq : s.quar.find? (fun q => decide (q.port = port) && decide (q.tag = tag)) = none) (cs : CplStatus) (data : List Byte) :
    s.completion port tag cs data = s.unexpectedCpl port := by
  simp only [State.completion, State.cplTimeout_none h, h, hq]

end

section
variable {s : State} {r : HostRead} {ring idx off : Nat} {data : List Byte} (hu : r.use = .operand ring idx off)
include hu

/-- The last bytes of an operand's read: they are placed, and the read is over. -/
theorem State.readCpl_last (hg : r.got.length ≤ r.len) (h : r.len ≤ r.got.length + data.length) :
    s.readCpl r .success data = ({ s with reads := s.readsBut r.port r.tag } : State).updWork ring idx (fun w =>
      { w with buf := bufPut w.buf (r.addr + r.got.length) (data.take (r.len - r.got.length)) }) := by
  have hall : ¬ (r.got ++ data.take (r.len - r.got.length)).length < r.len := by
    rw [List.length_append, List.length_take]
    omega
  simp only [State.readCpl, State.placeRead, State.readWhole, hu, if_neg hall]

/-- Bytes of an operand's read before the last: they are placed, and the read goes on. -/
theorem State.readCpl_more (h : r.got.length + data.length < r.len) :
    s.readCpl r .success data =
      { ({ s with reads := s.readsBut r.port r.tag } : State).updWork ring idx (fun w =>
          { w with buf := bufPut w.buf (r.addr + r.got.length) data }) with
        reads := s.readsBut r.port r.tag ++ [{ r with got := r.got ++ data }] } := by
  have htake : data.take (r.len - r.got.length) = data := List.take_of_length_le (by omega)
  have hmore : (r.got ++ data).length < r.len := by rwa [List.length_append]
  simp only [State.readCpl, State.placeRead, hu, htake, if_pos hmore]
  rfl

end

/-! ## Invalidations and page requests (R61, R62) -/

/-- An invalidation is done where no read that it waits for is outstanding, and no write has still to be issued. -/
theorem State.invalDone_iff (s : State) (x : Inval) : s.invalDone x = true ↔
    (∀ r, r ∈ s.reads → ¬(r.port = 0 ∧ r.tag ∈ x.tags ∧ r.at_ ≤ x.at_)) ∧
    (∀ w, w ∈ x.writes → ∀ p, p ∈ (s.conn w.1).rxPkts → p.psn ≠ w.2) := by
  simp [State.invalDone]

section
variable {s : State} {itag : Nat} {x : Inval} (hx : s.hlk.invals.find? (fun x => decide (x.itag = itag)) = some x)
include hx

theorem exec_atsInvComplete_done (h : s.invalDone x = true) : exec (.atsInvComplete itag) s = .next
    { s with hlk := { s.hlk with invals := s.hlk.invals.filter (fun y => y.itag ≠ itag) },
             out := s.out ++ [.invalidationCompletion itag] } := by
  show execAtsInvComplete itag s = _
  simp only [execAtsInvComplete, hx, if_pos h, State.emit]

theorem exec_atsInvComplete_waits (h : ¬ s.invalDone x = true) : exec (.atsInvComplete itag) s = .next s := by
  show execAtsInvComplete itag s = _
  simp only [execAtsInvComplete, hx, if_neg h]

end

/-- A page request that is outstanding is answered. -/
theorem exec_pageResponse {s : State} {prg : Nat} {r : PageReq} (h : s.hlk.pageReqs.find? (fun r => decide (r.prg = prg)) = some r)
    (code : PriCode) : exec (.pageResponse prg code) s = .next (s.pageAnswer r code) := by
  show execPageResponse prg code s = _
  simp only [execPageResponse, h]

/-- What a Response Failure leaves of page requests: they are stopped, and nothing waits for a page (R61). -/
def State.prisEnded (s : State) : State :=
  { s with hlk := { s.hlk with respFail := true, pageReqs := s.hlk.pageReqs.map (fun x => { x with waiters := [] }) } }

theorem State.prisEnded_reported (s : State) :
    ((s.prisEnded.err .hlk 7).setIntBit Blk.hlk.page 11).hlk.respFail = true ∧
    (((s.prisEnded.err .hlk 7).setIntBit Blk.hlk.page 11).elw hlkPage 0).bit 7 = true ∧
    (((s.prisEnded.err .hlk 7).setIntBit Blk.hlk.page 11).reg hlkPage 0x30).bit 11 = true ∧
    ∀ x, x ∈ ((s.prisEnded.err .hlk 7).setIntBit Blk.hlk.page 11).hlk.pageReqs → x.waiters = [] := by
  have hhlk : hlkRest ((s.prisEnded.err .hlk 7).setIntBit Blk.hlk.page 11).hlk = hlkRest s.prisEnded.hlk :=
    (State.setIntBit_hlkRest ..).trans (State.latch_hlkRest ..)
  have hreqs : ((s.prisEnded.err .hlk 7).setIntBit Blk.hlk.page 11).hlk.pageReqs = s.prisEnded.hlk.pageReqs :=
    (onlyRegs_get (fun t => t.hlk.pageReqs) (fun _ _ _ _ _ => rfl) (onlyRegs_setInt _ _ (onlyRegs_refl _))).trans
      (onlyLatch_get (fun t => t.hlk.pageReqs) (fun _ _ _ _ _ _ _ => rfl) (onlyLatch_latch ..))
  refine ⟨hlkRest_get Hlk.respFail hhlk, ?_, State.bit_setIntBit _ _ (by decide) (by decide), fun x hx => ?_⟩
  · rw [State.elw_setIntBit, State.elw_latch]
    simp
  · rw [hreqs] at hx
    obtain ⟨y, -, rfl⟩ := List.mem_map.1 hx
    rfl

/-- After a Response Failure, page requests are stopped, it is reported, and nothing waits for a page (R61). -/
theorem State.pageAnswer_failure (s : State) (r : PageReq) :
    (s.pageAnswer r .responseFailure).hlk.respFail = true ∧ ((s.pageAnswer r .responseFailure).elw hlkPage 0).bit 7 = true ∧
    ((s.pageAnswer r .responseFailure).reg hlkPage 0x30).bit 11 = true ∧
    ∀ x, x ∈ (s.pageAnswer r .responseFailure).hlk.pageReqs → x.waiters = [] :=
  State.prisEnded_reported _

end Sys2Proof.Machine
end

section
open Sys2Proof Sys2Proof.Machine

/-- Settles O16. A freeze, a stop of every VI and a reset of PF0 set what they say and then end reads and descriptors, which leave it
alone; messages that are sent once the link issues again leave it alone too. -/
theorem hostLinkStates : Obligations.HostLinkStates := by
  unfold Obligations.HostLinkStates
  refine ⟨?freeze, ?refused, ?release, ?bmeClear, ?bmeSet, ?reset, ?resets, fun s => rfl, ?dlActive, ?d3, ?d0⟩
  case freeze =>
    intro s cause h1 h6
    have hx : exec (.portFreeze cause) s = .next (s.portFreeze cause) := congrArg Host.Outcome.next (if_pos ⟨h1, h6⟩)
    refine ⟨fun h => ⟨_, hx, ?_⟩, fun h => ⟨_, hx, ?_⟩⟩
    · obtain ⟨hr, hreads, hatc⟩ := State.portFreeze_first_state cause h
      refine ⟨?_, ?_, ?_, ?_, hatc⟩
      · show ((s.portFreeze cause).reg hlkPage 0x110).bit 63 = true
        rw [hr]
        simp
      · rw [hr, Word.field_setField _ _ _ _ (by decide) (by decide)]
        omega
      · rw [hr]
        simp [freezeCounted]
      · intro r hrd
        rw [hreads] at hrd
        simpa using (List.mem_filter.1 hrd).2
    · rw [State.portFreeze_later cause h]
      exact ⟨s.freezeLatched_reads cause, State.reg_setReg ..⟩
  case refused =>
    intro s h
    refine congrArg Host.Outcome.next (if_pos ?_)
    rcases h with h | ⟨c, hc, h1, h6⟩
    · simp [h]
    · exact Bool.or_eq_true_iff.2 (.inr (List.any_eq_true.2 ⟨c, hc, by simp [h1, h6]⟩))
  case release =>
    intro s hup haer hf
    have hnone : s.hlk.aer.any (fun c => decide (1 ≤ c) && decide (c ≤ 6)) = false := by
      rw [List.any_eq_false]
      intro c hc
      have := haer c hc
      simp
      omega
    have hx : exec .freezeRelease s = .next (s.hlkRelease 0x110) := rfl
    rw [Gives, hx, State.hlkRelease, hup, hnone, hf]
    refine ⟨_, rfl, ?_, ?_⟩
    · show (State.reg (State.flushIrq _) hlkPage 0x110).bit 63 = false
      rw [(State.flushIrq_host _).reg (.inr rfl), State.reg_setIntBit_ne _ _ _ _ _ rfl (by decide), State.reg_setReg]
      simp
    · exact intKept_flushIrq _ _ (State.bit_setIntBit _ _ (by decide) (by decide))
  case bmeClear =>
    intro s
    have hport : PortKept { s with hlk := { s.hlk with bme := false } }
        (s.liveVis.foldl (fun t v => t.viStop v) (State.hostStop { s with hlk := { s.hlk with bme := false } } none)) := by
      have h0 := (State.hostStop_link { s with hlk := { s.hlk with bme := false } } none).1
      have h1 := portKept_foldl (fun t v => State.viStop_port t v) s.liveVis
        (State.hostStop { s with hlk := { s.hlk with bme := false } } none)
      exact ⟨h1.1.trans h0.1, h1.2.trans h0.2.1⟩
    exact ⟨_, rfl, hlkRest_get Hlk.bme hport.2, fun v hv => State.liveVis_resetting State.viStop_state hv _⟩
  case bmeSet =>
    intro s cfg clr
    refine ⟨_, rfl, ?_⟩
    generalize hs1 : ({ s with hlk := { s.hlk with
      cfg := pfClip cfg, bme := true, priEn := cfg.pri, respFail := s.hlk.respFail && !cfg.pri,
      atc := if cfg.ats then s.hlk.atc else [], aer := s.hlk.aer.filter (fun c => !clr.contains c) } } : State) = s1
    have hrest : hlkRest s1.flushIrq.faultsAsk.hlk = hlkRest s1.hlk := by simp
    refine ⟨?_, ?_, ?_, ?_, ?_, ?_⟩
    · rw [hlkRest_get Hlk.bme hrest, ← hs1]
    · rw [hlkRest_get Hlk.cfg hrest, ← hs1]
    · rw [hlkRest_get Hlk.priEn hrest, ← hs1]
    · rw [hlkRest_get Hlk.respFail hrest, ← hs1]
    · rw [hlkRest_get Hlk.aer hrest, ← hs1]
      simp
    · intro hup
      have hup1 : s1.hostUp = true := by rw [← hs1]; exact hup
      obtain ⟨-, hirq, hvecs⟩ := (Issuing.flushIrq hup1).faultsAsk
      refine ⟨hirq, hvecs, fun v e hv hm he => ?_⟩
      refine (State.out_after_irqSent hup1).subset ?_
      subst hs1
      exact State.msix_foldl_out (s := { s with hlk := _ }) hup1 hv hm he
  case reset =>
    intro s c hc
    rcases hc with rfl | rfl | ⟨rfl, hp⟩
    · obtain ⟨hregs, hfrz, hup, hvi, hring⟩ := s.pf0Reset_leaves false
      exact ⟨_, rfl, rfl, rfl, rfl, rfl, rfl, rfl, rfl, hregs, hfrz, by simpa using hup, hvi, hring, by simp⟩
    · obtain ⟨hregs, hfrz, hup, hvi, hring⟩ := s.pf0Reset_leaves true
      exact ⟨_, rfl, rfl, rfl, rfl, rfl, rfl, rfl, rfl, hregs, hfrz, by simpa using hup, hvi, hring, by simp⟩
    · obtain ⟨hregs, hfrz, hup, hvi, hring⟩ := s.pf0Reset_leaves true
      exact ⟨_, congrArg Host.Outcome.next (if_pos hp), rfl, rfl, rfl, rfl, rfl, rfl, rfl, hregs, hfrz, hup.trans (by simp), hvi, hring,
        fun _ => ⟨rfl, rfl⟩⟩
  case resets => exact fun s => ⟨rfl, rfl, fun h => ⟨_, congrArg Host.Outcome.next (if_pos h), rfl, rfl⟩⟩
  case dlActive =>
    intro s speed width tagMode flit hp hs
    have hx : exec (.hostLinkDlActive speed width flit tagMode) s = .next (s.setReg hlkPage 0x108
        ((((((s.reg hlkPage 0x108).setBit 63 true).setBit 62 flit).setField 61 60 tagMode).setField 58 56 speed).setField 55 48
          width)).flushIrq := congrArg Host.Outcome.next (if_neg (by simp [hp, hs]))
    refine ⟨_, hx, ?_⟩
    dsimp only
    rw [(State.flushIrq_host _).reg (.inl rfl), State.reg_setReg]
    simp
  case d3 =>
    intro s en
    have honly := State.onlyRegs_setDstate { s with hlk := { s.hlk with pmeEn := en } } 3
    exact ⟨_, rfl, State.dstate_setDstate _ (by decide), hlkRest_get Hlk.pmeEn (onlyRegs_hlkRest honly), honly⟩
  case d0 =>
    intro s
    refine ⟨_, rfl, ?_⟩
    show ((s.setDstate 0).flushIrq.reg hlkPage 0x108).field 47 46 = 0
    rw [(State.flushIrq_host _).reg (.inl rfl)]
    exact s.dstate_setDstate (by decide)

/-- Settles O15. A completion goes where its tag leads; the ends of reads, quarantines, invalidations and page requests are each one
step of the model, and what a count or an error adds leaves what the statement names. -/
theorem hostReadsAndTranslations : Obligations.HostReadsAndTranslations := by
  unfold Obligations.HostReadsAndTranslations
  refine ⟨?operand, ?quarantined, ?unknown, ?timeout, ?quarEnd, ?invalidate, ?invComplete, ?page⟩
  case operand =>
    rintro s port tag ring idx off data r u hr ht hu hg rfl
    obtain ⟨rfl, rfl⟩ := State.readAt_some hr
    have hx (cs : CplStatus) : exec (.hostCompletion r.port r.tag cs data) s = .next (s.readCpl r cs data) :=
      congrArg Host.Outcome.next (State.completion_inTime hr ht cs data)
    simp only [hx]
    refine ⟨fun h => ?_, fun h => ?_, ?_⟩
    · exact congrArg Host.Outcome.next (State.readCpl_last hu hg h)
    · exact congrArg Host.Outcome.next (State.readCpl_more hu h)
    · simp only [State.readCpl, State.failRead, hu]
  case quarantined =>
    intro s tag cs data q hr hq hp hto
    refine ⟨_, congrArg Host.Outcome.next (State.completion_quarantined hr hq cs data), ?_⟩
    rw [State.discardCpl, if_pos hp, hto]
    exact ⟨onlyRegs_setReg _ _ _ (onlyRegs_count _ _ _ (onlyRegs_refl s)), State.reg_setReg ..⟩
  case unknown => exact fun s tag cs data hr hq => congrArg Host.Outcome.next (State.completion_unknown hr hq cs data)
  case timeout =>
    intro s tag r hr
    refine ⟨fun h => ?_, fun h => congrArg Host.Outcome.next (State.cplTimeout_early hr h)⟩
    exact congrArg Host.Outcome.next (State.cplTimeout_due hr h)
  case quarEnd =>
    intro s port tag
    refine ⟨_, rfl, rfl, fun q => ?_⟩
    rw [List.mem_filter]
    refine and_congr_right fun _ => ?_
    simp only [Bool.not_eq_true', Bool.and_eq_false_iff, decide_eq_false_iff_not, or_assoc, Nat.not_le]
  case invalidate =>
    intro s itag pasid addr len
    refine ⟨_, rfl, fun e => ?_, ?_⟩
    · simp only [List.mem_filter, hlkRest_get Hlk.atc (State.count_hlkRest s hlkPage 7 1), Bool.not_eq_true', Bool.and_eq_false_iff,
        decide_eq_false_iff_not]
      tauto
    · simp only [hlkRest_get Hlk.invals (State.count_hlkRest s hlkPage 7 1)]
  case invComplete =>
    intro s itag x hx
    have hdone := s.invalDone_iff x
    refine ⟨fun hr hw => exec_atsInvComplete_done hx (hdone.2 ⟨hr, hw⟩), fun r hr hp ht hat => ?_, fun w p hw hp hpsn => ?_⟩
    · exact exec_atsInvComplete_waits hx fun h => (hdone.1 h).1 r hr ⟨hp, ht, hat⟩
    · exact exec_atsInvComplete_waits hx fun h => (hdone.1 h).2 w hw p hp hpsn
  case page =>
    rintro s prg r u hr rfl
    have hprg : r.prg = prg := by simpa using List.find?_some hr
    subst hprg
    exact ⟨exec_pageResponse hr .success, exec_pageResponse hr .invalidRequest, _, exec_pageResponse hr .responseFailure,
      s.pageAnswer_failure r⟩

end

section
/-! SUPPORT. The downstream ports, the tags in quarantine and the registers of the DLK pages, and what leaves them alone: events, the
ends of descriptors, and the loss of the drives behind a port; of the ends of reads, that they leave the quarantine. Said once for each
operation that they reach, in the order of the model's files. -/

namespace Sys2Proof.Machine

/-! ## What is left alone -/

/-- The registers of the DLK pages, among the registers given. -/
def dlkStored (r : Tab Word) (n o : Nat) : Word :=
  if n < 65536 ∧ o < 65536 then (Tab.find r ((dlkPage n).key o)).getD ((dlkPage n).resetAt o) else 0

/-- The ports, the tags in quarantine and the registers of the DLK pages have not changed. -/
@[simp] abbrev PortsKept (s t : State) : Prop :=
  t.dports = s.dports ∧ t.quar = s.quar ∧ dlkStored t.regs = dlkStored s.regs

theorem dlkStored_eq {s t : State} (h : ∀ n o, n < 65536 → o < 65536 → t.reg (dlkPage n) o = s.reg (dlkPage n) o) :
    dlkStored t.regs = dlkStored s.regs := by
  funext n o
  unfold dlkStored
  split
  next hb => exact h n o hb.1 hb.2
  next => rfl

/-- A register of a DLK page that has not changed. -/
theorem State.reg_of_dlkStored {s t : State} (h : dlkStored t.regs = dlkStored s.regs) {n o : Nat} (hn : n < 65536) (ho : o < 65536) :
    t.reg (dlkPage n) o = s.reg (dlkPage n) o := by
  have := congrFun (congrFun h n) o
  simpa only [dlkStored, if_pos (And.intro hn ho), State.reg] using this

theorem portsKept_refl (s : State) : PortsKept s s := ⟨rfl, rfl, rfl⟩

theorem portsKept_trans {s t u : State} (h1 : PortsKept s t) (h2 : PortsKept t u) : PortsKept s u :=
  ⟨h2.1.trans h1.1, h2.2.1.trans h1.2.1, h2.2.2.trans h1.2.2⟩

/-! ## Registers of other pages -/

section
variable {n o : Nat} {b : Blk} (hb : b ≠ .dlk)
include hb

/-- No register of another block's page is in the place of one of a DLK page. -/
theorem dlk_key_ne (hn : n < 65536) (ho : o < 65536) {m k : Nat} (hm : m < 65536) (hk : k < 65536) :
    (dlkPage n).key o ≠ Page.key ⟨b, m⟩ k :=
  Page.key_ne hn hm ho hk (.inl fun e => hb (congrArg Page.blk e).symm)

theorem farFrom_dlk (hn : n < 65536) (ho : o < 65536) {m : Nat} (hm : m < 65536) : FarFrom (dlkPage n) o ⟨b, m⟩ :=
  fun _ hk => dlk_key_ne hb hn ho hm (ctrRegs_lt hk)

end

section
variable (s : State) {b : Blk} (hb : b ≠ .dlk) {m : Nat} (hm : m < 65536)
include hb hm

@[simp] theorem State.setReg_dlkStored (k : Nat) (v : Word) (hk : k < 65536) :
    dlkStored (s.setReg ⟨b, m⟩ k v).regs = dlkStored s.regs :=
  dlkStored_eq fun _ _ hn ho => State.reg_setReg_ne _ _ _ _ _ _ (dlk_key_ne hb hn ho hm hk)

@[simp] theorem State.count_dlkStored (c n : Nat) : dlkStored (s.count ⟨b, m⟩ c n).regs = dlkStored s.regs :=
  dlkStored_eq fun _ _ hn ho =>
    State.reg_count_far _ _ _ _ _ _ (farFrom_dlk hb hn ho hm) (farFrom_dlk (by decide) hn ho (by decide))

@[simp] theorem State.setIntBit_dlkStored (i : Nat) : dlkStored (s.setIntBit ⟨b, m⟩ i).regs = dlkStored s.regs :=
  dlkStored_eq fun _ _ hn ho =>
    State.reg_setInt_far _ _ _ _ _ (dlk_key_ne hb hn ho hm (by decide)) (farFrom_dlk (by decide) hn ho (by decide))

@[simp] theorem State.latch_dlkStored (u i p : Nat) (l : Bool) : dlkStored (s.latch ⟨b, m⟩ u i p l).regs = dlkStored s.regs :=
  dlkStored_eq fun _ _ hn ho => State.reg_latch_ne _ _ _ _ _ _ _ _ (dlk_key_ne hb hn ho hm (by decide))
    (farFrom_dlk (by decide) hn ho (by decide)) (farFrom_dlk (by decide) hn ho (by decide))

end

@[simp] theorem State.msix_dlkStored (s : State) (v : Nat) : dlkStored (s.msix v).regs = dlkStored s.regs := by
  unfold State.msix
  split <;> [rfl; (split <;> [rfl; (split <;> rfl)])]

/-! ## Branches and folds -/

section
variable (c : Prop) [Decidable c] (s t : State)

@[simp] theorem State.dports_ite : (if c then s else t).dports = if c then s.dports else t.dports := apply_ite State.dports c s t
@[simp] theorem State.quar_ite : (if c then s else t).quar = if c then s.quar else t.quar := apply_ite State.quar c s t
@[simp] theorem dlkStored_ite : dlkStored (if c then s else t).regs = if c then dlkStored s.regs else dlkStored t.regs :=
  apply_ite (fun u : State => dlkStored u.regs) c s t

end

/-- A fold leaves them where each of its steps over the elements does. -/
theorem portsKept_foldl_mem {α : Type} {f : State → α → State} (l : List α) (s : State)
    (hf : ∀ t, ∀ x ∈ l, PortsKept t (f t x)) : PortsKept s (l.foldl f s) := by
  induction l generalizing s with
  | nil => exact portsKept_refl s
  | cons a r ih => exact portsKept_trans (hf s a List.mem_cons_self) (ih _ fun t x hx => hf t x (List.mem_cons_of_mem _ hx))

@[simp] theorem portsKept_foldl {α : Type} {f : State → α → State} (hf : ∀ t x, PortsKept t (f t x)) (l : List α)
    (s : State) : PortsKept s (l.foldl f s) := portsKept_foldl_mem l s fun t x _ => hf t x

/-! ## Memory, interrupts, rings and events -/

@[simp] theorem State.setBytes_ports (s : State) (a : Nat) (bs : List Byte) : PortsKept s (s.setBytes a bs) := by
  induction bs generalizing s a with
  | nil => exact portsKept_refl _
  | cons b r ih => exact ih (s.setByte a b) (a + 1)

@[simp] theorem State.dirtyPage_ports (s : State) (v page : Nat) : PortsKept s (s.dirtyPage v page) := by
  simp [State.dirtyPage]

@[simp] theorem State.dirty_ports (s : State) (v addr len : Nat) : PortsKept s (s.dirty v addr len) := by
  simp [State.dirty]

@[simp] theorem State.hostWrite_ports (s : State) (v : Option Nat) (addr : Nat) (data : List Byte) :
    PortsKept s (s.hostWrite v addr data) := by
  cases v <;> simp [State.hostWrite]

@[simp] theorem State.store_ports (s : State) (hbm : Bool) (v : Option Nat) (addr : Nat) (data : List Byte) :
    PortsKept s (s.store hbm v addr data) := by simp [State.store]

@[simp] theorem State.viVector_ports (s : State) (v n : Nat) : PortsKept s (s.viVector v n) := by simp [State.viVector]

@[simp] theorem State.ringIrq_ports (s : State) (r : Ring) : PortsKept s (s.ringIrq r) := by simp [State.ringIrq]

@[simp] theorem State.ringEntry_ports (s : State) (n : Nat) (w0 w1 w2 w3 : Word) : PortsKept s (s.ringEntry n w0 w1 w2 w3) := by
  simp [State.ringEntry]

@[simp] theorem State.ringPut_ports (s : State) (n : Nat) (w0 w1 w2 w3 : Word) : PortsKept s (s.ringPut n w0 w1 w2 w3) := by
  simp [State.ringPut]

@[simp] theorem State.wake_ports (s : State) (b : Nat) : PortsKept s (s.wake b) := by simp [State.wake]

@[simp] theorem State.eventLost_ports (s : State) : PortsKept s s.eventLost := by simp [State.eventLost]

@[simp] theorem State.eventPut_ports (s : State) (n : Nat) (w0 w1 w2 w3 : Word) : PortsKept s (s.eventPut n w0 w1 w2 w3) := by
  simp [State.eventPut]

@[simp] theorem State.overflow_ports (s : State) (n : Nat) : PortsKept s (s.overflow n) := by simp [State.overflow]

@[simp] theorem State.eventRing_ports (s : State) (n typ : Nat) (st : Status) (obj : Nat) (w1 w2 w3 : Word) :
    PortsKept s (s.eventRing n typ st obj w1 w2 w3) := by simp [State.eventRing]

@[simp] theorem State.event_ports (s : State) (p typ : Nat) (st : Status) (obj : Nat) (w1 w2 w3 : Word) :
    PortsKept s (s.event p typ st obj w1 w2 w3) := by
  unfold State.event
  split <;> simp

/-! ## Sync objects: watches and the swap point of SYN -/

@[simp] theorem State.watch_ports (s : State) (o : Nat) {w : Nat} (hw : w < 64) : PortsKept s (s.watch o w) := by
  simp [State.watch, show 0x100 + 16 * w < 65536 by omega]

/-- All watches in turn, of whatever objects. -/
theorem watches_ports (s : State) (o : State → Nat → Nat) :
    PortsKept s ((List.range 64).foldl (fun t w => t.watch (o t w) w) s) :=
  portsKept_foldl_mem _ _ fun t _ hw => t.watch_ports _ (List.mem_range.1 hw)

@[simp] theorem State.syncSettle_ports (s : State) (o : Nat) : PortsKept s (s.syncSettle o) := by
  unfold State.syncSettle
  refine portsKept_trans ?_ (watches_ports _ fun _ _ => o)
  simp

@[simp] theorem State.swapSyn_ports (s : State) : PortsKept s s.swapSyn := watches_ports s _

@[simp] theorem State.swapReject_syn_ports (s : State) (off : Nat) : PortsKept s (s.swapReject Blk.syn.page off) := by
  simp [State.swapReject]

@[simp] theorem State.swapLive_syn_ports (s : State) : PortsKept s (s.swapLive Blk.syn.page) := by
  have hcopy := portsKept_foldl_mem (f := fun t o => t.setReg Blk.syn.page o (s.reg Blk.syn.page (o + 0x700)))
    Blk.syn.page.staged s fun t o ho => by
      have := staged_bounds ho
      simp [show o < 65536 by omega]
  simp [State.swapLive, hcopy.1, hcopy.2]

@[simp] theorem State.swapFirst_syn_ports (s : State) (checks : List (Nat × Bool)) :
    PortsKept s (s.swapFirst Blk.syn.page checks) := by
  unfold State.swapFirst
  split
  · split <;> simp
  · exact portsKept_refl _

@[simp] theorem State.synTake_ports (s : State) : PortsKept s s.synTake := by simp [State.synTake]

@[simp] theorem State.syncAdd_ports (s : State) (o : Nat) (v : Word) : PortsKept s (s.syncAdd o v) := by
  unfold State.syncAdd
  split <;> simp

/-! ## Pools, sequences and block tables -/

@[simp] theorem State.updPool_ports (s : State) (k : Nat) (f : Pool → Pool) : PortsKept s (s.updPool k f) := portsKept_refl _

@[simp] theorem State.poolLow_ports (s : State) (k : Nat) : PortsKept s (s.poolLow k) := by
  unfold State.poolLow
  split <;> simp

@[simp] theorem State.openBytes_ports (s : State) (a n : Nat) : PortsKept s (s.openBytes a n) := by simp [State.openBytes]

@[simp] theorem State.slotStore_ports (s : State) (k n : Nat) : PortsKept s (s.slotStore k n) := by
  unfold State.slotStore
  split <;> simp

/-- A count on the page of the instance of KVS that holds an address. -/
@[simp] theorem State.count_kvsPageOf_dlkStored (s : State) (a c n : Nat) :
    dlkStored (s.count (kvsPageOf a) c n).regs = dlkStored s.regs := by
  unfold kvsPageOf
  split <;> simp

@[simp] theorem State.releaseSlot_ports (s : State) (k n : Nat) : PortsKept s (s.releaseSlot k n) := by
  unfold State.releaseSlot
  split
  · split <;> simp
  · exact portsKept_refl _

@[simp] theorem State.setSeq_ports (s : State) (q : Nat) (x : Seq) : PortsKept s (s.setSeq q x) := by
  unfold State.setSeq
  split
  · exact portsKept_refl _
  · split <;> simp

@[simp] theorem State.setHandle_ports (s : State) (x : Seq) (l g b : Nat) (v : Option Nat) :
    PortsKept s (s.setHandle x l g b v) := s.setBytes_ports ..

@[simp] theorem State.settleDeferred_ports (s : State) (q : Nat) : PortsKept s (s.settleDeferred q) := by
  simp [State.settleDeferred]

@[simp] theorem State.unuseSeq_ports (s : State) (q n : Nat) : PortsKept s (s.unuseSeq q n) := by simp [State.unuseSeq]

@[simp] theorem State.clearHandles_ports (s : State) (x : Seq) (l b0 b1 : Nat) (slots : List Nat) :
    PortsKept s (s.clearHandles x l b0 b1 slots) := by
  refine portsKept_foldl (fun t g => portsKept_foldl (fun t i => ?_) _ _) _ _
  split <;> simp

@[simp] theorem State.ingestUndo_ports (s : State) (ws : List Word) (alloc : List Nat) : PortsKept s (s.ingestUndo ws alloc) := by
  simp [State.ingestUndo]

/-! ## Drives, connections and checkpoint steps -/

@[simp] theorem State.driveCmd_ports (s : State) (n : Nat) (x : Ns) (write fua : Bool) (use : DriveUse) (data : List Byte)
    (slba : Nat) (pc : Extent × Nat × Nat × Nat) : PortsKept s (s.driveCmd n x write fua use data slba pc).2 := by
  simp [State.driveCmd]

@[simp] theorem State.driveIo_ports (s : State) (n : Nat) (write fua : Bool) (slba nlb : Nat) (use : DriveUse)
    (data : List Byte) : PortsKept s (s.driveIo n write fua slba nlb use data).2 :=
  List.foldlRecOn (motive := fun a : List Nat × State => PortsKept s a.2) _ _ (portsKept_refl s) fun _ ha _ _ =>
    portsKept_trans ha (State.driveCmd_ports ..)

@[simp] theorem State.freePages_ports (s : State) (l : List Nat) : PortsKept s (s.freePages l) := portsKept_refl _
@[simp] theorem State.updConn_ports (s : State) (c : Nat) (f : Conn → Conn) : PortsKept s (s.updConn c f) := portsKept_refl _
@[simp] theorem State.connEnqueue_ports (s : State) (c : Nat) (items : List TxItem) : PortsKept s (s.connEnqueue c items) :=
  portsKept_refl _
@[simp] theorem State.updStep_ports (s : State) (sid : Nat) (f : Step → Step) : PortsKept s (s.updStep sid f) := portsKept_refl _

@[simp] theorem State.stepIssue_ports (s : State) (x : Step) (shard off : Nat) (data : List Byte) :
    PortsKept s (s.stepIssue x shard off data) := by simp [State.stepIssue, State.cacheDrop]

@[simp] theorem State.shardIssue_ports (s : State) (x : Step) (i : Nat) : PortsKept s (s.shardIssue x i) := by
  unfold State.shardIssue
  split <;> simp

@[simp] theorem State.stepAdvance_ports (s : State) (sid : Nat) : PortsKept s (s.stepAdvance sid) := by
  unfold State.stepAdvance
  split <;> simp

@[simp] theorem State.stepsAdvance_ports (s : State) (p : Nat) : PortsKept s (s.stepsAdvance p) := by simp [State.stepsAdvance]

@[simp] theorem State.stepSettle_ports (s : State) (sid : Nat) : PortsKept s (s.stepSettle sid) := by
  unfold State.stepSettle
  split <;> simp

@[simp] theorem State.stepsSettle_ports (s : State) : PortsKept s s.stepsSettle := by simp [State.stepsSettle]

@[simp] theorem State.stepMark_ports (s : State) (sid : Nat) (st : Status) (unknown : Bool) :
    PortsKept s (s.stepMark sid st unknown) := by
  unfold State.stepMark
  split <;> simp

/-! ## Work in progress -/

@[simp] theorem State.updWork_ports (s : State) (ring idx : Nat) (f : Work → Work) : PortsKept s (s.updWork ring idx f) :=
  portsKept_refl _

@[simp] theorem State.abandonMsg_ports (s : State) (ring idx : Nat) : PortsKept s (s.abandonMsg ring idx) := by
  unfold State.abandonMsg
  split <;> simp

@[simp] theorem State.dropAttend_ports (s : State) (ring idx : Nat) : PortsKept s (s.dropAttend ring idx) := by
  refine portsKept_trans ?_ (portsKept_foldl (fun t r => ?_) _ _)
  · exact portsKept_refl _
  · split <;> simp

@[simp] theorem State.dropStep_ports (s : State) (ring idx : Nat) (st : Status) : PortsKept s (s.dropStep ring idx st) := by
  unfold State.dropStep
  split <;> simp

@[simp] theorem State.dropCmd_ports (s : State) (ring idx : Nat) : PortsKept s (s.dropCmd ring idx) := portsKept_refl _

@[simp] theorem State.undoWork_ports (s : State) (ring idx : Nat) (st : Status) : PortsKept s (s.undoWork ring idx st) := by
  unfold State.undoWork
  dsimp only
  split
  · split <;> simp
  · simp

@[simp] theorem State.workDone_ports (s : State) (ring idx : Nat) (st : Status) (detail : Nat) (r0 r1 : Word) :
    PortsKept s (s.workDone ring idx st detail r0 r1) := by simp [State.workDone]

@[simp] theorem State.stepAbandon_ports (s : State) (sid : Nat) (st : Status) (unknown : Bool) :
    PortsKept s (s.stepAbandon sid st unknown) := by
  unfold State.stepAbandon
  split <;> simp

@[simp] theorem State.stepTargetLost_ports (s : State) (sid : Nat) (st : Status) : PortsKept s (s.stepTargetLost sid st) := by
  unfold State.stepTargetLost
  split <;> simp

/-! ## The ends of failed reads -/

theorem State.writeSettle_ports (s : State) (ring idx : Nat) : PortsKept s (s.writeSettle ring idx) := by
  unfold State.writeSettle
  split
  · split
    · extract_lets x n stop
      split
      · split <;> simp
      · exact portsKept_refl _
    all_goals exact portsKept_refl _
  · exact portsKept_refl _

@[simp] theorem State.writeReadFailed_ports (s : State) (ring idx k : Nat) (st : Status) :
    PortsKept s (s.writeReadFailed ring idx k st) := State.writeSettle_ports ..

@[simp] theorem State.failGroup_ports (s : State) (key : Nat) (st : Status) : PortsKept s (s.failGroup key st) := by
  unfold State.failGroup
  split <;> simp [State.updGroup, State.clearSlots]

/-- A read that fails leaves its error with its engine, and no tag in quarantine. -/
@[simp] theorem State.operandFailed_quar (s : State) (ring idx : Nat) (hbm : Bool) (addr : Nat) (st : Status) :
    (s.operandFailed ring idx hbm addr st).quar = s.quar := by
  unfold State.operandFailed
  split
  · split
    · rfl
    · extract_lets s1
      have h1 : s1.quar = s.quar := by
        simp only [s1]
        split <;> simp
      refine Eq.trans ?_ h1
      split <;> simp
  · rfl

@[simp] theorem State.failOperand_quar (s : State) (u : ReadUse) (got : Nat) (st : Status) (noSignal : Bool) :
    (s.failOperand u got st noSignal).quar = s.quar := by
  unfold State.failOperand
  split <;> simp

@[simp] theorem State.serveEnd_quar (s : State) (c : Nat) (psn : BitVec 32) (st : Status) : (s.serveEnd c psn st).quar = s.quar := by
  unfold State.serveEnd
  split <;> simp

theorem State.failRead_quar (s : State) (r : HostRead) (st : Status) (noSignal : Bool) : (s.failRead r st noSignal).quar = s.quar := by
  unfold State.failRead
  split <;> simp [State.fetchFailed, State.ringStopped]

/-! ## Sluice -/

@[simp] theorem State.setLeaf_ports (s : State) (l : Nat) (x : Leaf) : PortsKept s (s.setLeaf l x) := portsKept_refl _
@[simp] theorem State.updPnode_ports (s : State) (k : Nat) (f : PNode → PNode) : PortsKept s (s.updPnode k f) := portsKept_refl _
@[simp] theorem State.updPort_ports (s : State) (n : Nat) (f : PortNode → PortNode) : PortsKept s (s.updPort n f) :=
  portsKept_refl _

@[simp] theorem State.refreshNode_ports (s : State) (port p : Nat) : PortsKept s (s.refreshNode port p) := by
  unfold State.refreshNode
  dsimp only
  split <;> simp

@[simp] theorem State.refreshPort_ports (s : State) (port : Nat) : PortsKept s (s.refreshPort port) := by
  simp [State.refreshPort]

@[simp] theorem State.enqueue_ports (s : State) (l n : Nat) (body : Out) (desc : Option (Nat × Nat)) :
    PortsKept s (s.enqueue l n body desc) := by
  unfold State.enqueue
  dsimp only
  split <;> simp

/-! ## Storage commands, namespaces and drives -/

@[simp] theorem State.updTcp_ports (s : State) (t : Nat) (f : Tcp → Tcp) : PortsKept s (s.updTcp t f) := portsKept_refl _

@[simp] theorem State.tcpOut_ports (s : State) (x : Tcp) (syn fin rst : Bool) (seq : BitVec 32) (mss : Nat) (data : List Byte) :
    PortsKept s (s.tcpOut x syn fin rst seq mss data) := by
  simp [State.tcpOut, State.submit]

@[simp] theorem State.tcpPushN_ports (s : State) (t k : Nat) : PortsKept s (s.tcpPushN t k) := by
  induction k generalizing s with
  | zero => exact portsKept_refl _
  | succ k ih =>
    unfold State.tcpPushN
    split
    · simp [ih]
    · exact portsKept_refl _

@[simp] theorem State.tcpPush_ports (s : State) (t : Nat) : PortsKept s (s.tcpPush t) := by
  unfold State.tcpPush
  split <;> simp

@[simp] theorem State.pduSend_ports (s : State) (t typ flags : Nat) (fields data : List Byte) :
    PortsKept s (s.pduSend t typ flags fields data) := by
  unfold State.pduSend
  split <;> simp [State.tcpSend]

@[simp] theorem State.sendResp_ports (s : State) (t dw0 dw1 head qid cid sc : Nat) :
    PortsKept s (s.sendResp t dw0 dw1 head qid cid sc) := s.pduSend_ports ..

@[simp] theorem State.logError_ports (s : State) (c : Cmd) (sc : Nat) : PortsKept s (s.logError c sc) := by
  unfold State.logError
  split
  · split <;> simp
  · exact portsKept_refl _

@[simp] theorem State.queueSettle_ports (s : State) (q : Nat) : PortsKept s (s.queueSettle q) := by
  unfold State.queueSettle
  split <;> simp

@[simp] theorem State.cmdAnswer_ports (s : State) (c : Cmd) (sc dw0 dw1 : Nat) (st : Status) :
    PortsKept s (s.cmdAnswer c sc dw0 dw1 st) := by
  unfold State.cmdAnswer
  split <;> split <;> simp

@[simp] theorem State.cmdComplete_ports (s : State) (c : Cmd) (sc dw0 dw1 : Nat) : PortsKept s (s.cmdComplete c sc dw0 dw1) := by
  simp [State.cmdComplete]

@[simp] theorem State.notice_ports (s : State) (k : Nat) : PortsKept s (s.notice k) := by
  unfold State.notice
  split
  · split
    · split <;> simp [State.updCtrl]
    · exact portsKept_refl _
  · exact portsKept_refl _

@[simp] theorem State.nsChange_ports (s : State) (n : Nat) (st : NsState) (cause drive : Nat) :
    PortsKept s (s.nsChange n st cause drive) := by simp [State.nsChange, State.setNs]

@[simp] theorem State.nsFail_ports (s : State) (n cause drive : Nat) : PortsKept s (s.nsFail n cause drive) := by
  simp [State.nsFail, State.nsSteps, State.nsDropCache]

/-- The loss of the drives behind a port (R318) leaves the ports themselves. -/
@[simp] theorem State.drivesLost_ports (s : State) (n : Nat) : PortsKept s (s.drivesLost n) := by
  unfold State.drivesLost
  extract_lets hit s1 gone sto s2
  have h1 : PortsKept s s1 := portsKept_foldl (fun t e => State.nsFail_ports t _ 2 0) _ _
  refine portsKept_trans h1 (portsKept_trans (portsKept_foldl (s := s2) (fun t d => ?_) gone) (State.stepsSettle_ports _))
  split
  · split <;> simp
  all_goals simp

end Sys2Proof.Machine
end

section
/-! SUPPORT. A downstream port as it enters a state (R83, R89): the port itself, FREEZE, INT_STAT and DPERST_N; then DOWN, freezes and
enumeration in terms of it. -/

namespace Sys2Proof.Machine

/-! ## One port among the others -/

@[simp] theorem State.dport_updDport (s : State) (n : Nat) (f : DPort → DPort) : (s.updDport n f).dport n = f (s.dport n) :=
  Tab.get_insert_self ..

theorem State.dport_updDport_ne (s : State) {n m : Nat} (f : DPort → DPort) (h : m ≠ n) : (s.updDport n f).dport m = s.dport m :=
  Tab.get_insert_ne _ _ _ _ _ h

theorem State.dport_of_dports {s t : State} (h : t.dports = s.dports) (n : Nat) : t.dport n = s.dport n := congrArg (Tab.get _ · n) h

@[simp] theorem State.drivesRecount_ports (s : State) (old : Nat) : PortsKept s (s.drivesRecount old) := by
  simp [State.drivesRecount]

theorem State.drivesRecount_regs (s : State) (old : Nat) : (s.drivesRecount old).regs = s.regs := by
  unfold State.drivesRecount
  dsimp only
  split <;> rfl

theorem State.dport_setEnabled (s : State) (n : Nat) (fs : List CfgFunc) :
    (s.setEnabled n fs).dport n = { s.dport n with enabled := fs } := by
  rw [State.setEnabled, State.dport_of_dports (State.drivesRecount_ports ..).1, State.dport_updDport]

theorem State.dport_setEnabled_ne (s : State) {n m : Nat} (fs : List CfgFunc) (h : m ≠ n) :
    (s.setEnabled n fs).dport m = s.dport m := by
  rw [State.setEnabled, State.dport_of_dports (State.drivesRecount_ports ..).1, State.dport_updDport_ne _ _ h]

theorem State.setEnabled_regs (s : State) (n : Nat) (fs : List CfgFunc) : (s.setEnabled n fs).regs = s.regs := State.drivesRecount_regs ..

theorem State.portIn_iff (s : State) (n : Nat) (st : DState) :
    s.portIn n st = true ↔ (s.dport n).state = st ∧ (s.dport n).goingDown = false ∧ s.flt.safe = false := by
  simp [State.portIn, and_assoc]

/-! ## The loss of the drives behind a port, seen from the port's page -/

theorem State.stepsSettle_regs (s : State) : s.stepsSettle.regs = s.regs :=
  List.foldlRecOn (motive := fun t : State => t.regs = s.regs) s.ckp.steps _ rfl fun t ht x _ => by
    refine Eq.trans ?_ ht
    unfold State.stepSettle
    split
    · split <;> rfl
    · rfl

/-- Only the drive ports have drives behind them. -/
theorem State.driveList_port {s : State} {e : Nat × CfgFunc} (h : e ∈ s.driveList) : e.1 = 4 ∨ e.1 = 5 := by
  simp only [State.driveList, List.mem_flatMap, List.mem_map] at h
  obtain ⟨n, hn, f, -, rfl⟩ := h
  simpa using hn

/-- Behind any other port nothing is lost. -/
theorem State.drivesLost_regs_other (s : State) {n : Nat} (h4 : n ≠ 4) (h5 : n ≠ 5) : (s.drivesLost n).regs = s.regs := by
  unfold State.drivesLost
  extract_lets hit s1 gone sto s2
  have hhit (i : Nat) : hit i = false := by
    simp only [hit]
    split
    next e he =>
      have := State.driveList_port (List.mem_of_getElem? he)
      exact decide_eq_false (by omega)
    next => rfl
  have hnss : s.sto.nss.filter (fun e => e.2.extents.any (fun x => hit x.drive)) = [] := List.filter_eq_nil_iff.2 (by simp [hhit])
  have hs1 : s1 = s := by simp only [s1, hnss, List.foldl_nil]
  have hgone : gone = [] := List.filter_eq_nil_iff.2 (by simp [hhit])
  rw [State.stepsSettle_regs, hgone, List.foldl_nil]
  show s1.regs = s.regs
  rw [hs1]

/-- The loss of the drives behind a port leaves the port's own page. -/
theorem State.reg_drivesLost (s : State) (n : Nat) {o : Nat} (ho : o < 65536) :
    (s.drivesLost n).reg (dlkPage n) o = s.reg (dlkPage n) o := by
  by_cases hn : n < 65536
  · exact State.reg_of_dlkStored (State.drivesLost_ports s n).2.2 hn ho
  · rw [State.reg, s.drivesLost_regs_other (by omega) (by omega), ← State.reg]

/-! ## Leaving READY (R89) -/

theorem Page.key_ne_off (q pg : Page) {o k : Nat} (ho : o < 65536) (hk : k < 65536) (h : o ≠ k) : q.key o ≠ pg.key k := by
  unfold Page.key
  omega

theorem State.leaveReady_of_ne {s : State} {n : Nat} (h : (s.dport n).state ≠ .ready) : s.leaveReady n = s := if_neg h

theorem State.leaveReady_of_ready {s : State} {n : Nat} (h : (s.dport n).state = .ready) :
    s.leaveReady n = ((s.drivesLost n).setEnabled n []).setIntBit (dlkPage n) 9 := if_pos h

theorem State.leaveReady_quar (s : State) (n : Nat) : (s.leaveReady n).quar = s.quar := by
  unfold State.leaveReady
  split
  · rw [State.setIntBit_quar, State.setEnabled, (State.drivesRecount_ports ..).2.1]
    exact (State.drivesLost_ports s n).2.1
  · rfl

theorem State.dport_leaveReady_ne (s : State) {n m : Nat} (h : m ≠ n) : (s.leaveReady n).dport m = s.dport m := by
  unfold State.leaveReady
  split
  · rw [State.dport_of_dports (State.setIntBit_dports ..), State.dport_setEnabled_ne _ _ h,
      State.dport_of_dports (State.drivesLost_ports s n).1]
  · rfl

/-- Of the port's page, leaving READY writes INT_STAT alone, of which it clears no bit. -/
theorem State.reg_leaveReady (s : State) (n : Nat) {o : Nat} (ho : o < 65536) (h : o ≠ 0x30) :
    (s.leaveReady n).reg (dlkPage n) o = s.reg (dlkPage n) o := by
  unfold State.leaveReady
  split
  · rw [State.reg_setIntBit_ne _ _ _ _ _ rfl (Page.key_ne_same _ h), State.reg, State.setEnabled_regs, ← State.reg,
      State.reg_drivesLost s n ho]
  · rfl

theorem State.intStat_leaveReady (s : State) (n : Nat) : IntKept (dlkPage n) s (s.leaveReady n) := by
  intro i hi
  unfold State.leaveReady
  split
  · rw [State.reg_setIntBit _ _ _ rfl, State.reg, State.setEnabled_regs, ← State.reg, State.reg_drivesLost s n (by decide),
      Word.bit_or, hi, Bool.true_or]
  · exact hi

/-! ## Entering a state (R83) -/

/-- A port that is in a state from a time on: the link follows, and held requests go with it. -/
def DPort.enter (d : DPort) (st : DState) (now : Nat) : DPort :=
  { d with
    state := st, since := now, up := st.linkUp, flit := st.linkUp && d.flit, speed := if st.linkUp then d.speed else 0,
    width := if st.linkUp then d.width else 0, inq := if st.linkUp then d.inq else [] }

theorem State.dperst_setDperst (s : State) {n : Nat} (x : Bool) (h : n < 6) : (s.setDperst n x).balls.dperst.getLsbD n = x := by
  have hbit : (BitVec.ofNat 6 (2 ^ n)).getLsbD n = true := by rw [BitVec.getLsbD_ofNat, Nat.testBit_two_pow_self, decide_eq_true h]; rfl
  cases x
  · show (s.balls.dperst &&& ~~~(BitVec.ofNat 6 (2 ^ n))).getLsbD n = false
    rw [BitVec.getLsbD_and, BitVec.getLsbD_not, hbit, Bool.not_true, Bool.and_false, Bool.and_false]
  · show (s.balls.dperst ||| BitVec.ofNat 6 (2 ^ n)).getLsbD n = true
    rw [BitVec.getLsbD_or, hbit, Bool.or_true]

section
variable (s : State) (n : Nat) (st : DState)

/-- The port as it stands before FREEZE.FROZEN falls. -/
def State.portMoved : State :=
  ((s.leaveReady n).updDport n (fun d => d.enter st s.clk.noc)).setDperst n st.perstHigh

theorem State.portGo_eq : s.portGo n st = if st = .frozen then s.portMoved n st else
    (s.portMoved n st).setReg (dlkPage n) 0x110 (((s.portMoved n st).reg (dlkPage n) 0x110).setBit 63 false) := rfl

theorem State.portGo_frozen : s.portGo n .frozen = s.portMoved n .frozen := rfl

theorem State.portMoved_reg (pg : Page) (o : Nat) : (s.portMoved n st).reg pg o = (s.leaveReady n).reg pg o := rfl

theorem State.portMoved_flt : (s.portMoved n st).flt = (s.leaveReady n).flt := rfl

theorem State.portMoved_dport (m : Nat) :
    (s.portMoved n st).dport m = ((s.leaveReady n).updDport n (fun d => d.enter st s.clk.noc)).dport m := rfl

theorem State.dport_portGo : (s.portGo n st).dport n = ((s.leaveReady n).dport n).enter st s.clk.noc := by
  have h : (s.portMoved n st).dport n = ((s.leaveReady n).dport n).enter st s.clk.noc := by
    rw [State.portMoved_dport, State.dport_updDport]
  rw [State.portGo_eq]
  split <;> exact h

theorem State.dport_portGo_ne {m : Nat} (hm : m ≠ n) : (s.portGo n st).dport m = s.dport m := by
  have h : (s.portMoved n st).dport m = s.dport m := by
    rw [State.portMoved_dport, State.dport_updDport_ne _ _ hm, s.dport_leaveReady_ne hm]
  rw [State.portGo_eq]
  split <;> exact h

theorem State.state_portGo : ((s.portGo n st).dport n).state = st := by rw [State.dport_portGo]; rfl

theorem State.dperst_portGo (h : n < 6) : (s.portGo n st).balls.dperst.getLsbD n = st.perstHigh := by
  have hb : (s.portMoved n st).balls.dperst.getLsbD n = st.perstHigh := State.dperst_setDperst _ _ h
  rw [State.portGo_eq]
  split <;> exact hb

/-- FREEZE.FROZEN falls with FROZEN. -/
theorem State.unfrozen_portGo (h : st ≠ .frozen) : ((s.portGo n st).reg (dlkPage n) 0x110).bit 63 = false := by
  rw [State.portGo_eq, if_neg h, State.reg_setReg]
  simp

/-- A move leaves the port's page but for FREEZE and what PARTNER_DOWN adds to INT_STAT. -/
theorem State.reg_portGo {o : Nat} (h : o ≠ 0x110) : (s.portGo n st).reg (dlkPage n) o = (s.leaveReady n).reg (dlkPage n) o := by
  rw [State.portGo_eq]
  split
  · rfl
  · rw [State.reg_setReg_ne _ _ _ _ _ _ (Page.key_ne_same _ h), State.portMoved_reg]

theorem State.intStat_portGo : IntKept (dlkPage n) s (s.portGo n st) :=
  (s.intStat_leaveReady n).trans (.of_eq (s.reg_portGo n st (by decide)))

theorem State.portGo_quar : (s.portGo n st).quar = s.quar := by
  have h : (s.portMoved n st).quar = s.quar := s.leaveReady_quar n
  rw [State.portGo_eq]
  split <;> exact h

variable {s n}

/-- A port that is not READY changes nothing but itself as it moves. -/
theorem State.dport_portGo_of_ne (h : (s.dport n).state ≠ .ready) : (s.portGo n st).dport n = (s.dport n).enter st s.clk.noc := by
  rw [State.dport_portGo, State.leaveReady_of_ne h]

theorem State.portGo_flt_of_ne (h : (s.dport n).state ≠ .ready) : (s.portGo n st).flt = s.flt := by
  have hm : (s.portMoved n st).flt = s.flt := by rw [State.portMoved_flt, State.leaveReady_of_ne h]
  rw [State.portGo_eq]
  split <;> exact hm

theorem State.elw_portGo_of_ne (h : (s.dport n).state ≠ .ready) (pg : Page) (u : Nat) : (s.portGo n st).elw pg u = s.elw pg u := by
  rw [State.elw, State.portGo_flt_of_ne st h, ← State.elw]

end

/-! ## RETRY and DOWN (R83, R90) -/

theorem State.dlkRun_retry (s : State) (n : Nat) :
    s.dlkRun n 1 = if s.portIn n .held then s.portGo n .reset else s.refuse (dlkPage n) 0x130 := by
  have h1 : Word.field 1 7 0 = 1 := by decide
  simp only [State.dlkRun, h1, true_and, OfNat.one_ne_ofNat, false_and, if_false]

theorem State.dlkRun_down (s : State) (n : Nat) : s.dlkRun n 2 =
    if (s.portIn n .ready || s.portIn n .enumerating) = true then s.portDown n false else s.refuse (dlkPage n) 0x130 := by
  have h2 : Word.field 2 7 0 = 2 := by decide
  simp only [State.dlkRun, h2, true_and, OfNat.ofNat_ne_one, false_and, if_false]

theorem State.dlkCmd_taken {s : State} {n : Nat} (hs : s.flt.safe = false) (he : s.entryHeld (dlkPage n) = false) (v : Word) :
    s.dlkCmd n v = s.dlkRun n v := by simp [State.dlkCmd, hs, he]

/-! ## Freezes (R94) -/

/-- What every cause of a freeze sets: its AER bit where it has one, and the error. -/
def State.portCaused (s : State) (n cause : Nat) : State :=
  (if aerCause cause then s.updDport n (fun d => { d with aer := aerAdd d.aer cause }) else s).latch (dlkPage n) 0
    (if cause = 1 then 0 else 1) 0x7F true

/-- The reads of a port have ended, and FREEZE records the cause. -/
def State.portFreezing (s : State) (n cause : Nat) : State :=
  (((s.reads.filter (fun r => r.port = n + 1)).foldl (fun t r => t.failRead r .timeout false)
    ((s.portCaused n cause).endReads (fun r => decide (r.port = n + 1)) false)).setReg (dlkPage n) 0x110
      (((freezeCounted (s.reg (dlkPage n) 0x110)).setBit 63 true).setField 7 0 cause)).setIntBit (dlkPage n) 10

section
variable {s : State} {n : Nat} (cause : Nat)

theorem State.dportFreeze_later (h : (s.dport n).state = .frozen) :
    s.dportFreeze n cause = (s.portCaused n cause).setReg (dlkPage n) 0x110 (freezeCounted (s.reg (dlkPage n) 0x110)) := if_pos h

theorem State.dportFreeze_first (h : (s.dport n).state ≠ .frozen) :
    s.dportFreeze n cause = (s.portFreezing n cause).portGo n .frozen := if_neg h

theorem State.portCaused_reads : (s.portCaused n cause).reads = s.reads := by
  rw [State.portCaused, State.latch_reads]
  split <;> rfl

theorem State.state_portCaused : ((s.portCaused n cause).dport n).state = (s.dport n).state := by
  rw [State.portCaused, State.dport_of_dports (State.latch_dports ..)]
  split
  · rw [State.dport_updDport]
  · rfl

theorem State.portFreezing_freeze : (s.portFreezing n cause).reg (dlkPage n) 0x110 =
    ((freezeCounted (s.reg (dlkPage n) 0x110)).setBit 63 true).setField 7 0 cause := by
  rw [State.portFreezing, State.reg_setIntBit_ne _ _ _ _ _ rfl (Page.key_ne_same _ (by decide)), State.reg_setReg]

/-- The tags of the reads that ended are in quarantine (R67). -/
theorem State.portFreezing_quar {r : HostRead} (hr : r ∈ s.reads) (hp : r.port = n + 1) :
    ∃ q, q ∈ (s.portFreezing n cause).quar ∧ q.port = n + 1 ∧ q.tag = r.tag := by
  have hq : (s.portFreezing n cause).quar = ((s.portCaused n cause).endReads (fun r => decide (r.port = n + 1)) false).quar := by
    rw [State.portFreezing, State.setIntBit_quar, State.setReg_quar]
    exact List.foldlRecOn (motive := fun t : State => t.quar = _) _ _ rfl fun t ht r _ => (t.failRead_quar r _ _).trans ht
  refine ⟨⟨r.port, r.tag, false, (s.portCaused n cause).clk.noc⟩, ?_, hp, rfl⟩
  rw [hq]
  refine List.mem_append_right _ (List.mem_map.2 ⟨r, List.mem_filter.2 ⟨?_, decide_eq_true hp⟩, rfl⟩)
  rwa [State.portCaused_reads]

end

end Sys2Proof.Machine
end

section
open Sys2Proof Sys2Proof.Machine

/-- Settles O17. What a move of a port is: the port as it enters the state, after what leaving READY takes from it, which leaves the
other ports and the port's own page; every row is such a move with its own fields set before or after. -/
theorem downstreamPortStates : Obligations.DownstreamPortStates := by
  unfold Obligations.DownstreamPortStates
  refine ⟨?enter, ?detect, ?perst, ?active, ?timeout, ?noReceiver, ?commands, ?downDone, ?freeze, ?release⟩
  case enter =>
    intro s n st hn
    refine ⟨s.state_portGo n st, ?_, ?_, s.dperst_portGo n st hn, s.unfrozen_portGo n st, fun m hm => s.dport_portGo_ne n st hm⟩
    all_goals rw [State.dport_portGo]; rfl
  case detect =>
    intro s n hin ht
    have hc : (s.portIn n .empty && decide ((s.dport n).since + 2000000 ≤ s.clk.noc)) = true := by simp [hin, ht]
    have hx : exec (.detect n false) s =
        .next ((s.count (dlkPage n) 6 1).updDport n (fun d => { d with since := s.clk.noc })) := congrArg Host.Outcome.next (if_pos hc)
    have hd := State.dport_of_dports (s.count_dports (dlkPage n) 6 1)
    refine ⟨congrArg Host.Outcome.next (if_pos hc), _, hx, ?_, fun m hm => ?_⟩
    · rw [State.dport_updDport, hd]
    · rw [State.dport_updDport_ne _ _ hm, hd]
  case perst =>
    intro s n hin ht
    have hc : (s.portIn n .reset && decide ((s.dport n).since + (s.reg (dlkPage n) 0x100).field 59 52 * 65536 ≤ s.clk.noc)) = true := by
      simp [hin, ht]
    refine ⟨_, congrArg Host.Outcome.next (if_pos hc), ?_, ?_, s.dperst_portGo n .training⟩
    · rw [State.dport_updDport, State.dport_portGo]; rfl
    · rw [State.dport_updDport]
  case active =>
    intro s n speed width flit hin ht
    have hc : (s.portIn n .training && decide (s.clk.noc ≤ (s.dport n).perstHighAt + 200000000)) = true := by simp [hin, ht]
    refine ⟨_, congrArg Host.Outcome.next (if_pos hc), ?_⟩
    dsimp only
    rw [State.dport_updDport]
    exact ⟨s.state_portGo n .enumerating, rfl, rfl, rfl, rfl, rfl, rfl⟩
  case timeout =>
    intro s n hin ht
    have hc : (s.portIn n .training && decide ((s.dport n).perstHighAt + 200000000 ≤ s.clk.noc)) = true := by simp [hin, ht]
    obtain ⟨hst, -, -⟩ := (s.portIn_iff n _).1 hin
    generalize hfails : min ((s.dport n).trainFails + 1) 255 = k
    generalize hs1 : (s.updDport n (fun d => { d with trainFails := k })).latch (dlkPage n) 0 6 0x7F true = s1
    have hd : s1.dport n = { s.dport n with trainFails := k } := by
      rw [← hs1, State.dport_of_dports (State.latch_dports ..), State.dport_updDport]
    have hne : (s1.dport n).state ≠ .ready := by rw [hd, hst]; decide
    refine ⟨s1.portGo n (if 3 ≤ k then .held else .empty), ?_, ?_, s1.state_portGo n _, ?_⟩
    · subst hs1 hfails
      exact congrArg Host.Outcome.next (if_pos hc)
    · rw [State.dport_portGo_of_ne _ hne, hd]; rfl
    · rw [State.elw_portGo_of_ne _ hne, ← hs1, State.elw_latch]
      simp
  case noReceiver => exact fun s n hin => congrArg Host.Outcome.next (if_pos hin)
  case commands =>
    intro s n hs he
    have hretry : exec (.dlkRetry n) s = .next (s.dlkRun n 1) := congrArg Host.Outcome.next (State.dlkCmd_taken hs he 1)
    have hdown : exec (.dlkDown n) s = .next (s.dlkRun n 2) := congrArg Host.Outcome.next (State.dlkCmd_taken hs he 2)
    rw [hretry, hdown, State.dlkRun_retry, State.dlkRun_down]
    refine ⟨fun h => by rw [if_pos h], fun h => by simp [h], fun h => ?_, fun hr he => by simp [hr, he]⟩
    rw [if_pos (Bool.or_eq_true_iff.2 h)]
    simp [State.portDown]
  case downDone =>
    intro s n hd ho hs
    have hc : ((s.dport n).goingDown && decide (s.outstanding (n + 1) = 0) && !s.flt.safe) = true := by simp [hd, ho, hs]
    refine ⟨_, congrArg Host.Outcome.next (if_pos hc), ?_, ?_, ?_⟩
    · rw [State.dport_updDport]
    · refine State.intStat_portGo _ n _ 9 ?_
      rw [State.reg_setIntBit _ _ _ rfl]
      simp
    · rw [State.dport_updDport]
      exact State.state_portGo ..
  case freeze =>
    intro s n cause hs h1 h7
    have hx (hst : ((s.dport n).state.linkUp || decide ((s.dport n).state = .frozen)) = true) :
        exec (.dportFreeze n cause) s = .next (s.dportFreeze n cause) :=
      congrArg Host.Outcome.next (if_pos (by simp [hs, h1, h7, hst]))
    refine ⟨fun hup => ?_, fun hf => ?_⟩
    · have hnf : (s.dport n).state ≠ .frozen := fun e => by rw [e] at hup; cases hup
      refine ⟨_, hx (by rw [hup, Bool.true_or]), ?_⟩
      rw [State.dportFreeze_first cause hnf]
      have hreg : ((s.portFreezing n cause).portGo n .frozen).reg (dlkPage n) 0x110 =
          ((freezeCounted (s.reg (dlkPage n) 0x110)).setBit 63 true).setField 7 0 cause := by
        rw [State.portGo_frozen, State.portMoved_reg, State.reg_leaveReady _ _ (by decide) (by decide), State.portFreezing_freeze]
      refine ⟨State.state_portGo .., ?_, ?_, ?_, fun r hr hp => ?_⟩
      · rw [hreg]
        simp
      · rw [hreg, Word.field_setField _ _ _ _ (by decide) (by decide)]
        omega
      · refine State.intStat_portGo _ n _ 10 ?_
        rw [State.portFreezing, State.reg_setIntBit _ _ _ rfl]
        simp
      · rw [State.portGo_quar]
        exact State.portFreezing_quar cause hr hp
    · refine ⟨_, hx (by simp [hf]), ?_⟩
      rw [State.dportFreeze_later cause hf]
      exact ⟨(State.state_portCaused cause).trans hf, State.reg_setReg ..⟩
  case release =>
    intro s n hs
    have hx : exec (.dportFreezeRelease n) s = .next (s.dportRelease n 0x110) := congrArg Host.Outcome.next (if_neg (by simp [hs]))
    rw [Gives, hx]
    refine ⟨fun h => congrArg Host.Outcome.next (if_pos (by simpa using h)), fun h hin => ?_⟩
    have hrel : s.dportRelease n 0x110 = (s.portGo n .reset).setIntBit (dlkPage n) 11 := by
      rw [State.dportRelease, if_neg (by simpa using h), if_pos hin]
    refine ⟨_, congrArg Host.Outcome.next hrel, ?_, ?_, ?_⟩
    · rw [State.dport_of_dports (State.setIntBit_dports ..)]
      exact s.state_portGo n .reset
    · rw [State.reg_setIntBit_ne _ _ _ _ _ rfl (Page.key_ne_same _ (by decide))]
      exact s.unfrozen_portGo n .reset (by decide)
    · rw [State.reg_setIntBit _ _ _ rfl]
      simp

end

section
/-! SUPPORT. Enumeration of the partners behind a port, changes of a slot, and the requests that partners send in (R86 to R92). -/

namespace Sys2Proof.Machine

/-- A configuration request leaves the ports. -/
theorem State.dport_cfgRead (s : State) (n m : Nat) : (s.cfgRead n).dport m = s.dport m := State.dport_of_dports (State.count_dports ..) m

/-! ## Announcements (R89) -/

theorem State.wake_regs (s : State) (b : Nat) : (s.wake b).regs = s.regs := by
  unfold State.wake
  repeat' split
  all_goals rfl

/-- A wake signal shows on no page. -/
theorem State.reg_wake (s : State) (b : Nat) (pg : Page) (o : Nat) : (s.wake b).reg pg o = s.reg pg o := by
  rw [State.reg, State.wake_regs, ← State.reg]

theorem State.dport_wake (s : State) (b n : Nat) : (s.wake b).dport n = s.dport n := State.dport_of_dports (s.wake_ports b).1 n

theorem State.dport_enumErrs (s : State) (n result limited m : Nat) : (s.enumErrs n result limited).dport m = s.dport m :=
  State.dport_of_dports (by simp [State.enumErrs]) m

/-- The errors of an enumeration leave every register that no counter writes. -/
theorem State.reg_enumErrs (s : State) (n result limited : Nat) {o : Nat} (ho : o < 65536) (h : o ∉ ctrRegs) :
    (s.enumErrs n result limited).reg (dlkPage n) o = s.reg (dlkPage n) o := by
  have hfar (pg : Page) : FarFrom (dlkPage n) o pg := fun k hk => Page.key_ne_off _ _ ho (ctrRegs_lt hk) fun e => h (e ▸ hk)
  have hlatch (t : State) (b : Nat) : (t.latch (dlkPage n) 0 b 0x7F true).reg (dlkPage n) o = t.reg (dlkPage n) o :=
    State.reg_latch_ne _ _ _ _ _ _ _ _ (hfar _ 0x30 (by decide)) (hfar _) (hfar _)
  unfold State.enumErrs
  dsimp only
  repeat' split
  all_goals simp only [hlatch]

/-- SEQ counts one more announcement, and wraps. -/
theorem State.seq_announce (s : State) (n slot eps : Nat) : ((s.announce n slot eps).reg (dlkPage n) 0x128).field 63 32 =
    ((s.reg (dlkPage n) 0x128).field 63 32 + 1) % 2 ^ 32 := by
  rw [State.announce, State.reg_setReg]
  simp

/-! ## The end of an enumeration (R86, R89) -/

/-- A port as its enumeration leaves it. -/
def DPort.enumerated (d : DPort) (e : Enumerated) : DPort :=
  { d with
    enabled := e.on, result := e.result, trainFails := 0, sites := e.sites, maxPayload := payloadOf d.funcs,
    tagMode := d.tagsWith d.funcs, slots := (List.range 31).map (fun b => (b + 1, busSpace e.sites d.funcs (b + 1))) }

/-- The port when it is READY, before it is announced. -/
def State.enumReady (s : State) (n : Nat) : State :=
  let fs := (s.dport n).funcs
  let e := s.enumerate n fs
  (((s.portGo n .ready).setEnabled n e.on).updDport n (fun d => { d with
    result := e.result, trainFails := 0, sites := e.sites, maxPayload := payloadOf fs, tagMode := d.tagsWith fs,
    slots := (List.range 31).map (fun b => (b + 1, busSpace e.sites fs (b + 1))) })).enumErrs n e.result e.limited

theorem State.enumEnd_eq (s : State) (n : Nat) : s.enumEnd n =
    ((((s.enumReady n).setReg (dlkPage n) 0x120 (partnerWord (s.dport n).funcs)).announce n 0
      (endpoints (s.enumerate n (s.dport n).funcs).on)).setIntBit (dlkPage n) 8).wake 3 := rfl

section
variable {s : State} {n : Nat}

theorem State.dport_enumEnd (h : (s.dport n).state ≠ .ready) :
    (s.enumEnd n).dport n = ((s.dport n).enter .ready s.clk.noc).enumerated (s.enumerate n (s.dport n).funcs) := by
  have hr : (s.enumReady n).dport n = ((s.dport n).enter .ready s.clk.noc).enumerated (s.enumerate n (s.dport n).funcs) := by
    rw [State.enumReady, State.dport_enumErrs, State.dport_updDport, State.dport_setEnabled, State.dport_portGo_of_ne _ h]
    rfl
  rw [State.enumEnd_eq, State.dport_wake, State.dport_of_dports (State.setIntBit_dports ..)]
  exact hr

theorem State.partner_enumEnd : (s.enumEnd n).reg (dlkPage n) 0x120 = partnerWord (s.dport n).funcs := by
  rw [State.enumEnd_eq, State.reg_wake, State.reg_setIntBit_ne _ _ _ _ _ rfl (Page.key_ne_same _ (by decide)), State.announce,
    State.reg_setReg_ne _ _ _ _ _ _ (Page.key_ne_same _ (by decide)), State.reg_setReg]

theorem State.seq_enumEnd (h : (s.dport n).state ≠ .ready) : ((s.enumEnd n).reg (dlkPage n) 0x128).field 63 32 =
    ((s.reg (dlkPage n) 0x128).field 63 32 + 1) % 2 ^ 32 := by
  have hr : (s.enumReady n).reg (dlkPage n) 0x128 = s.reg (dlkPage n) 0x128 := by
    rw [State.enumReady, State.reg_enumErrs _ _ _ _ (by decide) (by decide)]
    show ((s.portGo n .ready).setEnabled n _).reg (dlkPage n) 0x128 = _
    rw [State.reg, State.setEnabled_regs, ← State.reg, State.reg_portGo _ _ _ (by decide), State.leaveReady_of_ne h]
  rw [State.enumEnd_eq, State.reg_wake, State.reg_setIntBit_ne _ _ _ _ _ rfl (Page.key_ne_same _ (by decide)), State.seq_announce,
    State.reg_setReg_ne _ _ _ _ _ _ (Page.key_ne_same _ (by decide)), hr]

theorem State.partnerUp_enumEnd : ((s.enumEnd n).reg (dlkPage n) 0x30).bit 8 = true := by
  rw [State.enumEnd_eq, State.reg_wake, State.reg_setIntBit _ _ _ rfl]
  simp

end

/-! ## Changes of a slot (R88) -/

theorem nvmeUpTo_subset (k : Nat) (fs : List CfgFunc) : nvmeUpTo k fs ⊆ fs := by
  induction fs generalizing k with
  | nil => exact fun _ h => h
  | cons f r ih =>
    unfold nvmeUpTo
    split
    · split
      · exact List.subset_cons_of_subset _ (ih 0)
      · exact List.cons_subset_cons _ (ih _)
    · exact List.cons_subset_cons _ (ih k)

/-- Only functions that were found are given sites. -/
theorem giveSites_mem {fs : List CfgFunc} {sec : CfgFunc → Nat} {exts : List (Nat × Nat)} {x : FuncSite × CfgFunc}
    (h : x ∈ giveSites fs sec exts) : x.2 ∈ fs := by
  obtain ⟨e, he, rfl⟩ := List.mem_map.1 h
  exact List.fst_mem_of_mem_zipIdx he

/-- Only functions that were found are enabled. -/
theorem enableIn_subset (port room : Nat) (buses : Bool) (all fs : List CfgFunc) (exts : List (Nat × Nat)) :
    (enableIn port room buses all fs exts).on ⊆ fs := by
  intro f hf
  obtain ⟨x, hx, rfl⟩ := List.mem_map.1 (nvmeUpTo_subset _ _ hf)
  exact List.mem_of_mem_filter (giveSites_mem (List.mem_of_mem_filter hx))

/-- Where no device is found, the result is OK. -/
theorem enableIn_nil (port room : Nat) (all : List CfgFunc) (exts : List (Nat × Nat)) :
    (enableIn port room false all [] exts).on = [] ∧ (enableIn port room false all [] exts).result = 1 := ⟨rfl, rfl⟩

/-- The functions of the other slots that stay enabled. -/
def slotRest (d : DPort) (bus : Nat) : List CfgFunc := d.enabled.filter (fun f => f.bus ≠ bus)

/-- The functions enabled behind a port once those of a slot have changed, in order of bus. -/
def slotEnabled (d : DPort) (bus : Nat) (on : List CfgFunc) : List CfgFunc :=
  (slotRest d bus).filter (fun f => decide (f.bus < bus)) ++ on ++ (slotRest d bus).filter (fun f => decide (bus < f.bus))

/-- What a change of a slot enables: the device found there, between the functions of the buses before and after. -/
theorem State.dport_slotChange (s : State) (n bus : Nat) (devs : List CfgFunc) :
    ∃ (room : Nat) (exts : List (Nat × Nat)) (e : Enumerated),
    e = enableIn n room false ((devs.map (fun f => { f with bus := bus })).filter (fun f => f.isSwitch))
      (devs.map (fun f => { f with bus := bus })) exts ∧
    ((s.slotChange n bus devs).dport n).state = (s.dport n).state ∧ ((s.slotChange n bus devs).dport n).result = e.result ∧
    ((s.slotChange n bus devs).dport n).enabled = slotEnabled (s.dport n) bus e.on := by
  unfold State.slotChange
  extract_lets others s1 rest s2 room fs e s3 s4 s5
  have h1 : s1.dport n = s.dport n := State.dport_of_dports (s.drivesLost_ports n).1 n
  have hrest : rest = slotRest (s.dport n) bus := congrArg others h1
  have h5 : s5.dport n = s3.dport n := by
    rw [State.dport_of_dports (State.setIntBit_dports ..), State.dport_of_dports (State.setIntBit_dports ..)]
    exact s3.dport_enumErrs n e.result e.limited n
  have hd : (if devs = [] then s5 else s5.wake 3).dport n = s3.dport n := by
    split
    · exact h5
    · rw [State.dport_wake, h5]
  refine ⟨room, _, e, rfl, ?_⟩
  rw [hd, State.dport_updDport, State.dport_setEnabled, State.dport_setEnabled, h1, slotEnabled, ← hrest]
  exact ⟨rfl, rfl, rfl⟩

/-- PARTNER_DOWN and SLOT_CHG are set. -/
theorem State.intStat_slotChange (s : State) (n bus : Nat) (devs : List CfgFunc) :
    ((s.slotChange n bus devs).reg (dlkPage n) 0x30).bit 9 = true ∧ ((s.slotChange n bus devs).reg (dlkPage n) 0x30).bit 12 = true := by
  unfold State.slotChange
  extract_lets others s1 rest s2 room fs e s3 s4 s5
  have h5 : (if devs = [] then s5 else s5.wake 3).reg (dlkPage n) 0x30 = s5.reg (dlkPage n) 0x30 := by
    split
    · rfl
    · rw [State.reg_wake]
  rw [h5, State.reg_setIntBit _ _ _ rfl, State.reg_setIntBit _ _ _ rfl]
  simp

/-- A function of another slot is enabled after the change exactly if it was before. -/
theorem mem_slotEnabled_other {d : DPort} {bus : Nat} {on : List CfgFunc} {f : CfgFunc} (hon : f ∈ on → f.bus = bus)
    (hf : f.bus ≠ bus) : f ∈ slotEnabled d bus on ↔ f ∈ d.enabled := by
  have hno : f ∉ on := fun h => hf (hon h)
  simp only [slotEnabled, slotRest, List.mem_append, List.mem_filter, decide_eq_true_eq, hno, or_false, ne_eq, hf, not_false_eq_true,
    and_true]
  rw [← and_or_left]
  exact and_iff_left (Nat.lt_or_gt_of_ne hf)

/-- A function of the slot is one that the change enabled. -/
theorem mem_slotEnabled_same {d : DPort} {bus : Nat} {on : List CfgFunc} {f : CfgFunc} (hf : f.bus = bus)
    (h : f ∈ slotEnabled d bus on) : f ∈ on := by
  simpa [slotEnabled, slotRest, hf] using h

/-! ## Requests of partners (R91, R92) -/

section
variable {s : State} {n p i addr len : Nat} {data : List Byte} (write : Bool)

/-- A request that its port takes runs. -/
theorem exec_inboundRequest (hs : s.flt.safe = false) (hr : s.portIn n .ready = true) (he : s.entryHeld (dlkPage n) = false) :
    exec (.inboundRequest n write addr len data) s = .next (s.inboundRun n write addr len data) := by
  show Host.Outcome.next (s.inbound n write addr len data) = _
  simp only [State.inbound, hs, hr, he, Bool.not_true, Bool.false_eq_true, if_false]

/-- The address in the target of window i that a partner's address is mapped to. -/
def State.windowTarget (s : State) (n i addr : Nat) : Nat :=
  (s.reg (dlkPage n) (0x208 + 16 * i)).field 51 16 * 65536 +
    (addr - (s.reg (dlkPage n) (0x200 + 16 * i)).field 63 16 * 65536)

/-- A request in a window of an owned port goes to the window's target. -/
theorem State.inboundRun_window (ho : s.ownerOf tyPort n = some p) (hw : s.windowOf n addr len = some i) :
    s.inboundRun n write addr len data =
      if (s.reg (dlkPage n) (0x208 + 16 * i)).field 62 61 = 0 then s.inboundHbm n p write addr len (s.windowTarget n i addr) data
      else if (s.reg (dlkPage n) (0x208 + 16 * i)).field 62 61 = 1 then s.inboundSync n p write addr len (s.windowTarget n i addr) data
      else s.inboundPeer n p ((s.reg (dlkPage n) (0x208 + 16 * i)).field 60 58) write addr len (s.windowTarget n i addr) data := by
  rw [State.inboundRun, ho, hw]
  rfl

theorem State.inboundRun_unmatched (hw : s.windowOf n addr len = none) :
    s.inboundRun n write addr len data = (s.inboundUnmatched n).refuseRead n write addr len := by
  rw [State.inboundRun, hw]
  cases s.ownerOf tyPort n <;> rfl

theorem State.bytes_count (pg : Page) (c k a : Nat) : (s.count pg c k).bytes a len = s.bytes a len := by
  simp only [State.bytes, State.byte, State.count_hbm]

theorem State.inboundHbm_owned {a : Nat} (h : s.ownsHbm p a len = true) : s.inboundHbm n p write addr len a data =
    if write then (s.count (dlkPage n) 2 1).setBytes a (data.take len)
    else (s.count (dlkPage n) 2 1).emit (.readReplyBytes n addr (s.bytes a len)) := by
  simp only [State.inboundHbm, if_pos h, State.bytes_count]

theorem State.inboundHbm_refused {a : Nat} (h : s.ownsHbm p a len = false) :
    s.inboundHbm n p write addr len a data = (s.inboundFailed n p addr).refuseRead n write addr len := by
  simp only [State.inboundHbm, h, Bool.false_eq_true, if_false]

/-- A request for the window of a peer that takes it goes out there (R91). -/
theorem State.inboundPeer_open {q a : Nat} (hq : q < 6) (hdest : (s.reg (dlkPage n) 0x108).bit q = true)
    (hacc : (s.reg (dlkPage q) 0x108).bit (8 + n) = true) (hlen : a + len ≤ 0x10000000000) (hup : s.dportUp q = true) :
    s.inboundPeer n p q write addr len a data =
      (((s.count (dlkPage n) 2 1).count (dlkPage n) 4 1).count (dlkPage q) 1 1).emit
        (.partnerAccess q write (windowBase q + a) len (data.take len)) := by
  simp only [State.inboundPeer, hq, hdest, hacc, hlen, hup, decide_true, Bool.and_true, Bool.not_true, Bool.false_eq_true, if_false,
    if_true]

/-- An aligned word of the aperture belongs to one sync object. -/
theorem syncObjs_word {a : Nat} (h : a % 8 = 0) : syncObjs a 8 = [a / 16] := by
  have : a / 8 / 2 = a / 16 := by omega
  simp [syncObjs, h, this]

theorem syncActAt_add {off : Nat} (v : Word) (h : off % 16 = 0) : syncActAt off true v = .add v := if_pos h

theorem syncActAt_set {off : Nat} (v : Word) (h : off % 16 ≠ 0) : syncActAt off true v = .set v := if_neg h

/-- An aligned 64-bit request for a sync object of the port's owner is one act on it. -/
theorem State.inboundSync_word {a : Nat} (h : a % 8 = 0) (ho : s.owns p tySync (a / 16) = true) :
    s.inboundSync n p write addr 8 a data =
      (s.count (dlkPage n) 2 1).syncAct (a / 16) (syncActAt a write (Word.of (leNat (data.take 8)))) (some n) addr := by
  simp [State.inboundSync, syncObjs_word h, ho, h]

end

end Sys2Proof.Machine
end

section
open Sys2Proof Sys2Proof.Machine

/-- Settles O18. An enumeration ends with a move to READY and what it found, announced; a change of a slot enables what is found there
between the functions of the other buses; a request in a window goes by the window's target. -/
theorem partnersAndTheirRequests : Obligations.PartnersAndTheirRequests := by
  unfold Obligations.PartnersAndTheirRequests
  refine ⟨?start, ?config, ?noResp, ?enumEnd, ?slot, ?inbound, ?unmatched⟩
  case start =>
    intro s n hin hst hd ht
    have hc : (s.portIn n .enumerating && !(s.dport n).enumStarted &&
        decide ((s.dport n).dlActiveAt + 200000000 ≤ s.clk.noc) && s.dataHeld = false) = true := by simp [hin, hst, hd, ht]
    refine ⟨_, congrArg Host.Outcome.next (if_pos hc), ?_, _, rfl⟩
    rw [State.dport_cfgRead, State.dport_updDport]
  case config =>
    intro s n f hin hst
    have hc : (s.portIn n .enumerating && (s.dport n).enumStarted) = true := by simp [hin, hst]
    refine ⟨⟨_, congrArg Host.Outcome.next (if_pos hc), State.count_dports .., _, rfl⟩, fun hw => ?_, fun hw => ?_⟩
    · refine ⟨_, congrArg Host.Outcome.next ((if_pos hc).trans (if_pos hw)), ?_, ?_, _, rfl⟩
      all_goals rw [State.dport_cfgRead, State.dport_updDport]
    · exact congrArg Host.Outcome.next ((if_pos hc).trans (if_neg (by simp [hw])))
  case noResp =>
    intro s n hin hok ht
    have hc : (s.portIn n .enumerating && !(s.dport n).enumOk &&
        decide ((s.dport n).perstHighAt + 2000000000 ≤ s.clk.noc)) = true := by simp [hin, hok, ht]
    obtain ⟨hst, -, -⟩ := (s.portIn_iff n _).1 hin
    generalize hs1 : (s.updDport n (fun d => { d with result := 2 })).latch (dlkPage n) 0 7 0x7F true = s1
    have hd : s1.dport n = { s.dport n with result := 2 } := by
      rw [← hs1, State.dport_of_dports (State.latch_dports ..), State.dport_updDport]
    have hne : (s1.dport n).state ≠ .ready := by rw [hd, hst]; decide
    refine ⟨s1.portGo n .held, ?_, s1.state_portGo n _, ?_, ?_⟩
    · subst hs1
      exact congrArg Host.Outcome.next (if_pos hc)
    · rw [State.dport_portGo_of_ne _ hne, hd]; rfl
    · rw [State.elw_portGo_of_ne _ hne, ← hs1, State.elw_latch]
      simp
  case enumEnd =>
    intro s n hin hok
    have hc : (s.portIn n .enumerating && (s.dport n).enumOk) = true := by simp [hin, hok]
    have hne : (s.dport n).state ≠ .ready := by rw [((s.portIn_iff n _).1 hin).1]; decide
    refine ⟨_, congrArg Host.Outcome.next (if_pos hc), ?_⟩
    dsimp only
    rw [State.dport_enumEnd hne]
    exact ⟨rfl, rfl, rfl, rfl, rfl, rfl, State.partner_enumEnd, State.seq_enumEnd hne, State.partnerUp_enumEnd⟩
  case slot =>
    rintro s n bus devs hin h4 h1 h31 ⟨g, hg, hsw⟩
    have hany : (s.dport n).funcs.any (fun f => f.isSwitch) = true := List.any_eq_true.2 ⟨g, hg, hsw⟩
    have hx (l : List CfgFunc) : exec (.slotChange n bus l) s = .next (s.slotChange n bus l) :=
      congrArg Host.Outcome.next (if_pos (by simp only [hin, h4, h1, h31, hany, decide_true, Bool.and_true]))
    constructor
    · obtain ⟨room, exts, e, rfl, -, hres, hen⟩ := s.dport_slotChange n bus []
      refine ⟨_, hx [], fun f => ?_, hres.trans (enableIn_nil ..).2⟩
      rw [hen]
      by_cases hb : f.bus = bus
      · exact ⟨fun hf => absurd (mem_slotEnabled_same hb hf) List.not_mem_nil, fun hf => absurd hb hf.2⟩
      · exact (mem_slotEnabled_other (fun hf => absurd hf List.not_mem_nil) hb).trans (and_iff_left hb).symm
    · obtain ⟨room, exts, e, he, hst, -, hen⟩ := s.dport_slotChange n bus devs
      have hon : ∀ f ∈ e.on, ∃ g, g ∈ devs ∧ f = { g with bus := bus } := fun f hf => by
        rw [he] at hf
        obtain ⟨g, hg, rfl⟩ := List.mem_map.1 (enableIn_subset _ _ _ _ _ _ hf)
        exact ⟨g, hg, rfl⟩
      have hbus : ∀ f ∈ e.on, f.bus = bus := fun f hf => by
        obtain ⟨g, -, rfl⟩ := hon f hf
        rfl
      refine ⟨_, hx devs, hst.trans ((s.portIn_iff n _).1 hin).1, fun f hf hb => ?_, fun f hb => ?_, s.intStat_slotChange n bus devs⟩
      · rw [hen] at hf
        exact hon f (mem_slotEnabled_same hb hf)
      · rw [hen]
        exact mem_slotEnabled_other (hbus f) hb
  case inbound =>
    rintro s n p i addr len data ctl a hs hr he ho hw rfl ha
    obtain rfl : a = s.windowTarget n i addr := ha
    have hx (write : Bool) := (exec_inboundRequest (addr := addr) (len := len) (data := data) write hs hr he).trans
      (congrArg Host.Outcome.next (State.inboundRun_window write ho hw))
    refine ⟨fun ht hown => ?hbm, fun ht hown => ?refused, ?sync, fun ht hq hdest hacc hlen hup => ?peer⟩
    case hbm =>
      simp only [hx, if_pos ht, State.inboundHbm_owned _ hown]
      exact ⟨rfl, rfl⟩
    case refused =>
      simp only [hx, if_pos ht, State.inboundHbm_refused _ hown]
      exact ⟨rfl, rfl⟩
    case sync =>
      rintro ht hown rfl
      have hword (write : Bool) (h8 : s.windowTarget n i addr % 8 = 0) : exec (.inboundRequest n write addr 8 data) s =
          .next ((s.count (dlkPage n) 2 1).syncAct (s.windowTarget n i addr / 16)
            (syncActAt (s.windowTarget n i addr) write (Word.of (leNat (data.take 8)))) (some n) addr) := by
        rw [hx, if_neg (by rw [ht]; decide), if_pos ht, State.inboundSync_word write h8 hown]
      refine ⟨fun h => ?_, fun h => ?_, fun h => hword false h⟩
      · rw [hword true (by omega), syncActAt_add _ h]
        rfl
      · rw [hword true (by omega), syncActAt_set _ (by omega)]
        rfl
    case peer =>
      rw [Gives, hx, if_neg (by rw [ht]; decide), if_neg (by rw [ht]; decide), State.inboundPeer_open _ hq hdest hacc hlen hup]
      exact ⟨_, rfl, _, rfl⟩
  case unmatched =>
    intro s n addr len data hs hr he hw
    rw [exec_inboundRequest _ hs hr he, exec_inboundRequest _ hs hr he, State.inboundRun_unmatched _ hw, State.inboundRun_unmatched _ hw]
    exact ⟨rfl, rfl⟩

end

section
/-! SUPPORT. The commands of the RNG page as writes of their CMD register, and what SETUP leaves of the ring's owner. -/

namespace Sys2Proof.Machine

/-! ## The commands of RNG (R106) -/

theorem rngCmdWord_op {op : Nat} (h : op < 256) (n : Nat) : (rngCmdWord op n).field 31 24 = op := by
  simp [rngCmdWord, Nat.mod_eq_of_lt h]

theorem rngCmdWord_ring (op : Nat) {n : Nat} (h : n < 131072) : (rngCmdWord op n).field 16 0 = n := by
  simp [rngCmdWord, Nat.mod_eq_of_lt h]

/-- The context that RNG.CTX0 to CTX2 spell. -/
def State.ctxRing (s : State) : Ring :=
  ringOfCtx (s.reg Blk.rng.page 0x108) (s.reg Blk.rng.page 0x110) (s.reg Blk.rng.page 0x118)

/-- A SETUP that is taken and passes its checks loads the context and ends with OK. -/
theorem exec_ringSetup_ok {s : State} {n : Nat} (ht : Taken s .rng) (hn : n < 131072)
    (hc : s.setupCheck n (s.reg Blk.rng.page 0x110) s.ctxRing = .ok) :
    exec (.ringSetup n) s = .next ((s.ringSetup n s.ctxRing).cmdEnd .rng 1 n .ok) := by
  refine congrArg Host.Outcome.next ((State.takeCmd_taken _ rngRun ht).trans ?_)
  have hcmd : s.ringCmd 1 n (s.reg Blk.rng.page 0x108) (s.reg Blk.rng.page 0x110) (s.reg Blk.rng.page 0x118) =
      (.ok, s.ringSetup n s.ctxRing) := if_pos hc
  simp only [rngRun, rngCmdWord_op (by decide : 1 < 256), rngCmdWord_ring 1 hn, hcmd]

theorem State.discardHeld_parts (s : State) (n : Nat) : (s.discardHeld n).parts = s.parts := by
  simp [State.discardHeld]

/-- A ring set up as another type is its owner's event ring no more (R112). -/
theorem State.pevt_ringSetup {s : State} {n : Nat} {x : Ring} (hx : x.type ≠ .event)
    (hp : (s.part (s.ringPart n)).pevt = some n) : ((s.ringSetup n x).part (s.ringPart n)).pevt = none := by
  simp [State.ringSetup, hx, hp]

/-! ## A ring that stops being an event ring -/

/-- RNG.CTX1 of a completion ring of 16 entries. -/
def completionCtx1 : Word := ((0 : Word).setField 63 59 4).setField 58 57 1

/-- P0 owns ring 0, which is its event ring, and RNG.CTX0 to CTX2 hold the context of a completion ring; the rest is as after
reset. -/
def eventRingOfP0 : State :=
  ((State.reset.setOwn tyRing 0 (.owned 0)).setPart 0 { Part.free with state := .active, pevt := some 0 }).setReg
    Blk.rng.page 0x110 completionCtx1

theorem eventRingOfP0_taken : Taken eventRingOfP0 .rng := by
  refine ⟨fun h => absurd h (by decide), ?_, by decide, fun h => absurd h (by decide), by decide⟩
  intro c hc
  exact nomatch (hc : (none : Option Nat) = some c)

theorem eventRingOfP0_owner : eventRingOfP0.ownerOf tyRing 0 = some 0 := by decide

theorem eventRingOfP0_format : ringFormatBad (eventRingOfP0.reg Blk.rng.page 0x110) eventRingOfP0.ctxRing = false := by decide

theorem eventRingOfP0_check :
    eventRingOfP0.setupCheck 0 (eventRingOfP0.reg Blk.rng.page 0x110) eventRingOfP0.ctxRing = .ok := by decide

theorem eventRingOfP0_ctx : eventRingOfP0.ctxRing.hbm = false ∧ eventRingOfP0.ctxRing.viEn = false ∧
    eventRingOfP0.ctxRing.type = .completion := by decide

end Sys2Proof.Machine
end

section
open Sys2Proof Sys2Proof.Machine

/-- Refutes O19: SETUP of a ring that is its owner's event ring, with the context of another type, also takes that role from it (R112);
the statement says that nothing changes but the ring and what the end of the command writes. -/
theorem not_ringCommands : ¬ Obligations.RingCommands := by
  unfold Obligations.RingCommands
  rintro ⟨hsetup, -⟩
  obtain ⟨hhbm, hvi, htype⟩ := eventRingOfP0_ctx
  have hnext := hsetup eventRingOfP0 0 0 eventRingOfP0.ctxRing eventRingOfP0_taken (by decide) rfl eventRingOfP0_format
    eventRingOfP0_owner (by simp [hhbm]) (by simp [hvi]) (by simp [htype]) (by decide) (by simp [hvi])
  rw [exec_ringSetup_ok eventRingOfP0_taken (by decide) eventRingOfP0_check] at hnext
  have hpart := congrArg (fun u : State => (u.part 0).pevt) (Host.Outcome.next.inj hnext)
  have hnone : ((eventRingOfP0.ringSetup 0 eventRingOfP0.ctxRing).part 0).pevt = none :=
    State.pevt_ringSetup (by rw [htype]; decide) (by decide)
  simp only [State.part, State.cmdEnd_parts, State.setRing_parts, State.discardHeld_parts] at hpart hnone
  exact absurd (hnone.symm.trans hpart) (by decide)

end

section
/-! SUPPORT. Bytes and words of HBM after a write of several words (R6, R44). -/

namespace Sys2Proof

theorem leBytes_length (n v : Nat) : (leBytes n v).length = n := by
  induction n generalizing v with
  | zero => rfl
  | succ n ih => simp [leBytes, ih]

theorem leNat_leBytes (n v : Nat) : leNat (leBytes n v) = v % 256 ^ n := by
  induction n generalizing v with
  | zero => exact (Nat.mod_one v).symm
  | succ n ih =>
    rw [leBytes, leNat, ih, BitVec.toNat_ofNat, pow_succ' 256 n]
    exact Nat.mod_mul.symm

@[simp] theorem Word.bytes_length (w : Word) : w.bytes.length = 8 := leBytes_length 8 _

/-- The bytes of a word spell it. -/
@[simp] theorem Word.of_leNat_bytes (w : Word) : Word.of (leNat w.bytes) = w := by
  rw [Word.bytes, leNat_leBytes, Nat.mod_eq_of_lt (w.isLt.trans_eq (by decide))]
  exact (BitVec.ofNat_toNat 64 w).trans (BitVec.setWidth_eq w)

theorem wordsBytes_cons (w : Word) (ws : List Word) : wordsBytes (w :: ws) = w.bytes ++ wordsBytes ws := rfl

@[simp] theorem wordsBytes_length (ws : List Word) : (wordsBytes ws).length = 8 * ws.length := by
  induction ws with
  | nil => rfl
  | cons w ws ih => simp [wordsBytes_cons, ih]; omega

end Sys2Proof

namespace Sys2Proof.Machine

theorem State.setBytes_append (s : State) (a : Nat) (l r : List Byte) :
    s.setBytes a (l ++ r) = (s.setBytes a l).setBytes (a + l.length) r := by
  induction l generalizing s a with
  | nil => rfl
  | cons b l ih =>
    refine (ih (s.setByte a b) (a + 1)).trans ?_
    rw [List.length_cons, Nat.add_assoc, Nat.add_comm 1]
    rfl

/-- Writing bytes changes HBM alone. -/
theorem State.setBytes_eq (s : State) (a : Nat) (bs : List Byte) : ∃ h, s.setBytes a bs = { s with hbm := h } := by
  induction bs generalizing s a with
  | nil => exact ⟨s.hbm, rfl⟩
  | cons b r ih =>
    obtain ⟨h, e⟩ := ih (s.setByte a b) (a + 1)
    exact ⟨h, e⟩

@[simp] theorem State.word_setRing (s : State) (n : Nat) (x : Ring) (a : Nat) : (s.setRing n x).word a = s.word a := rfl

@[simp] theorem State.byte_setRing (s : State) (n : Nat) (x : Ring) (a : Nat) : (s.setRing n x).byte a = s.byte a := rfl

@[simp] theorem State.ring_setBytes (s : State) (a : Nat) (bs : List Byte) (n : Nat) : (s.setBytes a bs).ring n = s.ring n := by
  obtain ⟨h, e⟩ := s.setBytes_eq a bs
  rw [e]
  rfl

/-- A byte outside the extent written is as before. -/
theorem State.byte_setBytes_ne (s : State) {a k : Nat} (bs : List Byte) (h : k < a ∨ a + bs.length ≤ k) :
    (s.setBytes a bs).byte k = s.byte k := by
  induction bs generalizing s a with
  | nil => rfl
  | cons b r ih =>
    rw [List.length_cons] at h
    refine (ih (s.setByte a b) (a := a + 1) (by omega)).trans (State.byte_setByte_ne _ _ _ _ (by omega))

theorem State.byte_setBytes (s : State) (a : Nat) (bs : List Byte) {i : Nat} (h : i < bs.length) :
    (s.setBytes a bs).byte (a + i) = bs[i] := by
  induction bs generalizing s a i with
  | nil => cases h
  | cons b r ih =>
    cases i with
    | zero => exact (State.byte_setBytes_ne _ r (by omega)).trans (State.byte_setByte ..)
    | succ i =>
      rw [← Nat.add_assoc, Nat.add_right_comm]
      exact ih (s.setByte a b) (a + 1) (Nat.lt_of_succ_lt_succ h)

theorem State.bytes_setBytes (s : State) (a : Nat) (bs : List Byte) : (s.setBytes a bs).bytes a bs.length = bs :=
  List.ext_getElem (by simp [State.bytes]) fun i h1 h2 => by simp [State.bytes, State.byte_setBytes s a bs h2]

/-- A word before the extent written is as before. -/
theorem State.word_setBytes_before (s : State) {a k : Nat} (bs : List Byte) (h : k + 8 ≤ a) :
    (s.setBytes a bs).word k = s.word k := by
  have hb : (s.setBytes a bs).bytes k 8 = s.bytes k 8 :=
    List.map_congr_left fun i hi => s.byte_setBytes_ne bs (.inl (by have := List.mem_range.1 hi; omega))
  rw [State.word, hb, State.word]

/-- Words written one after another read back in order. -/
theorem State.word_setBytes_words (s : State) (a : Nat) (ws : List Word) {i : Nat} (h : i < ws.length) :
    (s.setBytes a (wordsBytes ws)).word (a + 8 * i) = ws[i] := by
  induction ws generalizing s a i with
  | nil => cases h
  | cons w ws ih =>
    rw [wordsBytes_cons, State.setBytes_append, Word.bytes_length]
    cases i with
    | zero =>
      have hw := s.bytes_setBytes a w.bytes
      rw [Word.bytes_length] at hw
      refine (State.word_setBytes_before _ _ (Nat.le_refl _)).trans ?_
      rw [State.word, hw, Word.of_leNat_bytes]
      rfl
    | succ i =>
      have ha : a + 8 * (i + 1) = a + 8 + 8 * i := by omega
      rw [ha]
      exact ih _ _ (Nat.lt_of_succ_lt_succ h)

end Sys2Proof.Machine
end

section
/-! SUPPORT. What an event can change (R104, R111, R112): a principle by which a relation that the operations of an event keep holds over the
whole of it, and the facts that follow from it. -/

namespace Sys2Proof.Machine

/-- A relation between states that every operation of which an event consists keeps. -/
structure EventClosed (R : State → State → Prop) : Prop where
  refl : ∀ s, R s s
  trans : ∀ {s t u}, R s t → R t u → R s u
  setByte : ∀ (s : State) a b, R s (s.setByte a b)
  setVi : ∀ (s : State) v x, R s (s.setVi v x)
  setRing : ∀ (s : State) n x, R s (s.setRing n x)
  emit : ∀ (s : State) o, R s (s.emit o)
  hlk : ∀ (s : State) h, R s { s with hlk := h }
  msix : ∀ (s : State) v, R s (s.msix v)
  count : ∀ (s : State) (b : Blk) code n, R s (s.count b.page code n)
  lost : ∀ s : State, R s (s.err .rng 2)

namespace EventClosed

variable {R : State → State → Prop} (hR : EventClosed R)
include hR

theorem foldl {α : Type} {f : State → α → State} (hf : ∀ t x, R t (f t x)) (l : List α) (s : State) : R s (l.foldl f s) :=
  List.foldlRecOn (motive := R s) l f (hR.refl s) fun t ht x _ => hR.trans ht (hf t x)

theorem setBytes (s : State) (a : Nat) (bs : List Byte) : R s (s.setBytes a bs) := by
  induction bs generalizing s a with
  | nil => exact hR.refl s
  | cons b r ih => exact hR.trans (hR.setByte s a b) (ih _ _)

theorem dirtyPage (s : State) (v page : Nat) : R s (s.dirtyPage v page) := by
  unfold State.dirtyPage
  dsimp only
  split
  · exact hR.trans (hR.setByte ..) (hR.count ..)
  · exact hR.trans (hR.setVi ..) (hR.count ..)

theorem dirty (s : State) (v addr len : Nat) : R s (s.dirty v addr len) := by
  unfold State.dirty
  split
  · exact hR.refl s
  · exact hR.foldl (fun t i => hR.dirtyPage t v _) _ s

theorem hostWrite (s : State) (v : Option Nat) (addr : Nat) (data : List Byte) : R s (s.hostWrite v addr data) := by
  unfold State.hostWrite
  split
  · refine hR.trans ?_ (hR.foldl (fun t p => hR.trans (hR.count t .hlk 2 1) (hR.emit ..)) _ _)
    cases v with
    | none => exact hR.refl s
    | some v => exact hR.dirty s v addr data.length
  · exact hR.refl s

theorem store (s : State) (hbm : Bool) (v : Option Nat) (addr : Nat) (data : List Byte) : R s (s.store hbm v addr data) := by
  cases hbm
  · exact hR.hostWrite s v addr data
  · exact hR.setBytes s addr data

theorem viVector (s : State) (v n : Nat) : R s (s.viVector v n) := by
  unfold State.viVector
  dsimp only
  split
  · exact hR.hlk s _
  · split
    · split
      · exact hR.refl s
      · exact hR.setVi s v _
    · exact hR.hostWrite s ..

theorem ringIrq (s : State) (r : Ring) : R s (s.ringIrq r) := by
  unfold State.ringIrq
  split
  · split
    · exact hR.viVector s ..
    · exact hR.msix s _
  · exact hR.refl s

theorem ringEntry (s : State) (n : Nat) (w0 w1 w2 w3 : Word) : R s (s.ringEntry n w0 w1 w2 w3) :=
  hR.trans (hR.store ..) (hR.setRing ..)

theorem ringPut (s : State) (n : Nat) (w0 w1 w2 w3 : Word) : R s (s.ringPut n w0 w1 w2 w3) := by
  unfold State.ringPut
  dsimp only
  split
  · exact hR.trans (hR.ringEntry ..) (hR.ringIrq ..)
  · exact hR.ringEntry ..

theorem wake (s : State) (b : Nat) : R s (s.wake b) := by
  unfold State.wake
  split
  · split
    · exact hR.hlk s _
    · split
      · exact hR.emit s _
      · exact hR.refl s
  · exact hR.refl s

theorem eventLost (s : State) : R s s.eventLost := hR.trans (hR.count s .rng 6 1) (hR.lost _)

theorem eventPut (s : State) (n : Nat) (w0 w1 w2 w3 : Word) : R s (s.eventPut n w0 w1 w2 w3) := by
  unfold State.eventPut
  dsimp only
  split
  · exact hR.trans (hR.ringPut ..) (hR.wake ..)
  · exact hR.ringPut ..

theorem overflow (s : State) (n : Nat) : R s (s.overflow n) := by
  unfold State.overflow
  dsimp only
  split
  · exact hR.trans (hR.eventPut ..) (hR.setRing ..)
  · exact hR.refl s

theorem eventRing (s : State) (n typ : Nat) (st : Status) (obj : Nat) (w1 w2 w3 : Word) :
    R s (s.eventRing n typ st obj w1 w2 w3) := by
  refine hR.trans (hR.overflow s n) ?_
  unfold State.eventRing
  dsimp only
  split
  · exact hR.eventLost _
  · split
    · exact hR.eventPut ..
    · exact hR.trans (hR.setRing ..) (hR.count _ .rng 7 1)

/-- The relation holds over an event. -/
theorem event (s : State) (p typ : Nat) (st : Status) (obj : Nat) (w1 w2 w3 : Word) : R s (s.event p typ st obj w1 w2 w3) := by
  unfold State.event
  split
  · split
    · exact hR.eventRing ..
    · exact hR.eventLost s
  · exact hR.eventLost s

end EventClosed

/-! ## INT_STAT of RNG -/

/-- A count on a block's page clears no bit of INT_STAT, of that page or of another block's. -/
theorem intKept_count (s : State) (q b : Blk) (code n : Nat) : IntKept q.page s (s.count b.page code n) := by
  refine IntKept.trans ?_ (intKept_intCross _ _ _ _ (by decide : (0 : Nat) < 65536))
  by_cases hb : q = b
  · subst hb
    exact intKept_countHere s q.page code n
  · refine .of_eq (State.reg_countHere_ne _ _ _ _ _ _ fun k hk => ?_)
    exact Page.key_ne (by decide : (0 : Nat) < 65536) (by decide : (0 : Nat) < 65536) (by decide) (ctrRegs_lt hk)
      (.inl fun e => hb (congrArg Page.blk e))

theorem farFrom_rngIntStat_trs : FarFrom Blk.rng.page 0x30 Blk.trs.page := farFrom_trs (by decide) (by decide) (.inl (by decide))

/-- An error of RNG clears no bit of its INT_STAT. -/
theorem intKept_err_rng (s : State) (bit : Nat) : IntKept Blk.rng.page s (s.err .rng bit) := by
  unfold State.err State.latch
  dsimp only
  refine IntKept.trans ?_ (.of_eq (State.reg_sendRaises_ne _ _ _ farFrom_rngIntStat_trs))
  have hcount (f : Flt) (c : Prop) [Decidable c] :
      IntKept Blk.rng.page s (if c then ({ s with flt := f } : State).count1 .flt 4 else { s with flt := f }) := by
    have hflt : IntKept Blk.rng.page s { s with flt := f } := .refl _ s
    split
    · exact hflt.trans (intKept_count _ .rng .flt 4 1)
    · exact hflt
  split
  · exact (hcount _ _).trans (intKept_setInt _ _ _ (by decide : (0 : Nat) < 65536))
  · exact hcount _ _

theorem eventClosed_rngIntStat : EventClosed (IntKept Blk.rng.page) where
  refl := .refl _
  trans := .trans
  setByte _ _ _ := .refl _ _
  setVi _ _ _ := .refl _ _
  setRing _ _ _ := .refl _ _
  emit _ _ := .refl _ _
  hlk _ _ := .refl _ _
  msix s v := intKept_msix s _ v
  count s b code n := intKept_count s .rng b code n
  lost s := intKept_err_rng s 2

/-- A ring that stops sets RING_STOPPED, which its event leaves. -/
theorem State.intStat_ringStopped (s : State) (n cause : Nat) (st : Status) :
    ((s.ringStopped n cause st).reg Blk.rng.page 0x30).bit 9 = true :=
  eventClosed_rngIntStat.event _ _ _ _ _ _ _ _ 9 (State.bit_setIntBit _ _ (by decide : (0 : Nat) < 65536) (by decide))

end Sys2Proof.Machine
end

section
/-! SUPPORT. Descriptors and completion entries: fetch, start and wait at the head of a ring, and an entry that goes to its completion
ring in HBM (R99 to R103, R105, R109, R110). -/

namespace Sys2Proof.Machine

variable {s : State} {n : Nat}

/-! ## Fetch (R99, R109) -/

/-- A line marked bad is found by a read of its first 64 bytes on. -/
theorem State.firstBad_markBad (s : State) (a : Nat) : ((s.markBad a).firstBad a 64).isSome = true := by
  have hl : a / 64 ∈ (s.markBad a).badLines := by
    unfold State.markBad
    split
    next h => simpa using h
    next => simp
  have hin : a / 64 ∈ (s.markBad a).badIn a 64 := List.mem_filter.2 ⟨hl, by
    simp only [Bool.and_eq_true, decide_eq_true_eq]
    omega⟩
  unfold State.firstBad
  split
  next h => simp [h] at hin
  next => rfl

theorem State.ring_markBad (s : State) (a n : Nat) : (s.markBad a).ring n = s.ring n := by
  unfold State.markBad
  split <;> rfl

/-- Where entry i of a ring of 64-byte descriptors lies (R105). -/
def Ring.descAt (r : Ring) (i : Nat) : Nat := r.base + 64 * (i % 2 ^ r.logSize)

theorem State.descFetch_waits (err : Option Status) (h : s.mayFetch n = false) : s.descFetch n err = s := by
  simp [State.descFetch, h]

theorem State.descFetch_hbm (h : s.mayFetch n = true) (hb : (s.ring n).hbm = true)
    (hg : s.firstBad ((s.ring n).descAt (s.ring n).cons) 64 = none) :
    s.descFetch n none = (s.setRing n { s.ring n with cons := nextIdx (s.ring n).cons }).fetched n (s.ring n).cons
      (s.words ((s.ring n).descAt (s.ring n).cons) 8) := by
  have hg' : (s.firstBad ((s.ring n).base + 64 * ((s.ring n).cons % 2 ^ (s.ring n).logSize)) 64).isSome = false := by
    rw [← Ring.descAt, hg]; rfl
  simp [State.descFetch, h, hb, hg', Ring.descAt]

theorem State.descFetch_hbm_failed (st : Status) (h : s.mayFetch n = true) (hb : (s.ring n).hbm = true) :
    s.descFetch n (some st) =
      (s.markBad ((s.ring n).descAt (s.ring n).cons)).fetchFailed n (s.ring n).cons .poisoned := by
  simp [State.descFetch, h, hb, Ring.descAt, State.firstBad_markBad]

/-! ## Start and wait (R100, R101) -/

@[simp] theorem State.settleHead_work (s : State) (n : Nat) : (s.settleHead n).work = s.work := by
  unfold State.settleHead
  dsimp only
  split
  · split <;> rfl
  · rfl

/-- A descriptor that leaves the head of its ring is the last of the work in progress. -/
theorem State.popHead_work (s : State) (n : Nat) (w : Work) : (s.popHead n w).work = s.work ++ [w] := State.settleHead_work ..

section
variable {d : Desc} (hs : s.flt.safe = false) (hd : s.dataHeld = false)
include hs hd

theorem State.mayStart_ready (he : s.engineStopped (dEngine d.words) = false)
    (hfence : dFence d.words = true → ∀ w, w ∈ s.work → w.ring ≠ n) (hwait : dWaitEn d.words = true → d.released = true) :
    s.mayStart n d = true := by
  have hfence' : (!dFence d.words || !s.work.any (fun w => decide (w.ring = n))) = true := by
    cases h : dFence d.words
    · rfl
    · simpa using hfence h
  have hwait' : (!dWaitEn d.words || d.released) = true := by
    cases h : dWaitEn d.words
    · rfl
    · simpa using hwait h
  simp only [State.mayStart, hs, hd, he, hfence', hwait', Bool.not_false, Bool.and_self, Bool.or_true]

/-- A descriptor that a check refused waits for nothing (R99). -/
theorem State.mayStart_refused {st : Status} (hb : d.bad = some st) : s.mayStart n d = true := by
  simp [State.mayStart, hs, hd, hb]

end

section
variable {d : Desc} {rest : List Desc} (hf : (s.ring n).fetched = d :: rest)
include hf

section
variable (hst : (s.ring n).state = .enabled ∨ (s.ring n).state = .stopped)
include hst

theorem State.descStart_ready (h : s.mayStart n d = true) (hb : d.bad = none) :
    s.descStart n = s.popHead n (s.toWork n d .ready .ok) := by
  rcases hst with hst | hst <;> simp [State.descStart, hf, hst, h, hb]

theorem State.descStart_refused {st : Status} (h : s.mayStart n d = true) (hb : d.bad = some st) :
    s.descStart n = s.popHead n (s.toWork n d .done st) := by
  rcases hst with hst | hst <;> simp [State.descStart, hf, hst, h, hb]

end

/-- The wait at the head ends exactly once its limit has passed. -/
theorem State.waitTimeout_head {at0 : Nat} (ha : d.headAt = some at0) (ht : (s.ring n).waitTo ≠ 0) (hw : dWaitEn d.words = true)
    (hr : d.released = false) (hb : d.bad = none) :
    s.waitTimeout n = if at0 + (s.ring n).waitTo * 65536 ≤ s.clk.noc then s.popHead n (s.toWork n d .done .timeout) else s := by
  simp [State.waitTimeout, hf, ha, ht, hw, hr, hb]

end

/-! ## Ends and completion entries (R102, R103, R110) -/

theorem State.descEnd_ok {idx : Nat} {w : Work} (hw : s.workAt n idx = some w) (hp : w.phase = .done) (hs : w.status = .ok) :
    s.descEnd n idx = (({ s with work := s.work.filter (fun x =>
      !(decide (x.ring = n) && decide (x.idx = idx))) } : State).complete w.cpl w.entry).tryStop n := by
  simp [State.descEnd, hw, hp, hs]

section
variable {c : Cpl} (hc : c.suppress = false ∨ c.status ≠ .ok)

theorem State.complete_suppressed (h : c.suppress = true) (hs : c.status = .ok) : s.complete n c = s.signalOf c := by
  simp [State.complete, h, hs]

include hc

theorem Cpl.not_suppressed : (c.suppress && decide (c.status = .ok)) = false := by
  rcases hc with h | h <;> simp [h]

/-- An entry is held behind what its ring cannot take yet. -/
theorem State.complete_held (h : (s.ring n).state ≠ .enabled ∨ (s.ring n).held ≠ [] ∨ (s.ring n).room = false) :
    s.complete n c = s.setRing n { s.ring n with held := (s.ring n).held ++ [c] } := by
  have hn : (s.cplReady n && decide ((s.ring n).held = [])) = false := by
    rcases h with h | h | h <;> simp [State.cplReady, h]
  simp [State.complete, Cpl.not_suppressed hc, hn]

theorem State.complete_written (hst : (s.ring n).state = .enabled) (hh : (s.ring n).held = []) (hr : (s.ring n).room = true)
    (hb : (s.ring n).hbm = true) : s.complete n c = s.cplWrite n c := by
  simp [State.complete, Cpl.not_suppressed hc, State.cplReady, State.ringReach, hst, hh, hr, hb]

end

/-- A ring that takes no entry keeps those that it holds. -/
theorem State.heldWrite_waits (h : s.cplReady n = false) (k : Nat) : s.heldWrite n k = s := by
  cases k with
  | zero => rfl
  | succ k =>
    unfold State.heldWrite
    split
    · simp [h]
    · rfl

theorem State.heldWrite_one {c : Cpl} (hh : (s.ring n).held = [c]) (h : s.cplReady n = true) :
    s.heldWrite n 1 = (s.setRing n { s.ring n with held := [] }).cplWrite n c := by
  simp [State.heldWrite, hh, h]

/-- Word 0 of a completion entry but for PHASE (R103). -/
def Cpl.word0 (c : Cpl) : Word :=
  ((((0 : Word).setField 55 48 c.status.code).setField 47 40 c.engine).setField 39 23 c.ring).setField 15 0 c.tag

/-- Word 1 of a completion entry (R103). -/
def Cpl.word1 (c : Cpl) : Word :=
  ((Word.of c.idx).setField 31 0 c.idx).setField 63 32 (if c.status = .ok then 0 else c.detail.toNat)

theorem Status.code_lt (st : Status) : st.code < 256 := by cases st <;> decide

theorem Cpl.status_word0 (c : Cpl) : c.word0.field 55 48 = c.status.code := by
  simp [Cpl.word0, Nat.mod_eq_of_lt (Status.code_lt c.status)]

theorem Cpl.tag_word0 (c : Cpl) : c.word0.field 15 0 = c.tag % 2 ^ 16 := by simp [Cpl.word0]

/-- A completion entry with its PHASE bit, as the words of ring memory. -/
def Ring.cplWords (r : Ring) (c : Cpl) : List Word := [c.word0.setBit 63 (r.phaseAt r.prod), c.word1, c.r0, c.r1]

/-- Where entry i of a ring of 32-byte entries lies (R105). -/
def Ring.entryAt (r : Ring) (i : Nat) : Nat := r.base + 32 * (i % 2 ^ r.logSize)

/-- An entry without signal and interrupt, for a ring in HBM, is a write of ring memory and of PROD. -/
theorem State.cplWrite_hbm {c : Cpl} (hb : (s.ring n).hbm = true) (hi : (s.ring n).irqEn = false) (hs : c.signal = none) :
    s.cplWrite n c = (s.setBytes ((s.ring n).entryAt (s.ring n).prod) (wordsBytes ((s.ring n).cplWords c))).setRing n
      { s.ring n with prod := ((s.ring n).prod + 1) % 2 ^ 32 } := by
  simp [State.cplWrite, State.ringEntry, State.store, State.signalOf, State.ringIrq, hb, hi, hs, Ring.entryAt, Ring.cplWords, Cpl.word0,
    Cpl.word1]

section
variable {c : Cpl} (hb : (s.ring n).hbm = true) (hi : (s.ring n).irqEn = false) (hs : c.signal = none)
include hb hi hs

theorem State.prod_cplWrite : ((s.cplWrite n c).ring n).prod = ((s.ring n).prod + 1) % 2 ^ 32 := by
  rw [State.cplWrite_hbm hb hi hs, State.ring_setRing]

variable {a : Nat} (ha : a = (s.ring n).entryAt (s.ring n).prod)
include ha

/-- Word i of the entry reads back from its slot. -/
theorem State.word_cplWrite {i : Nat} (h : i < 4) : (s.cplWrite n c).word (a + 8 * i) = ((s.ring n).cplWords c)[i] := by
  rw [State.cplWrite_hbm hb hi hs, ha, State.word_setRing, s.word_setBytes_words _ ((s.ring n).cplWords c) h]

theorem State.words_cplWrite : (s.cplWrite n c).word a = c.word0.setBit 63 ((s.ring n).phaseAt (s.ring n).prod) ∧
    (s.cplWrite n c).word (a + 16) = c.r0 ∧ (s.cplWrite n c).word (a + 24) = c.r1 :=
  ⟨State.word_cplWrite hb hi hs ha (i := 0) (by decide), State.word_cplWrite hb hi hs ha (i := 2) (by decide),
    State.word_cplWrite hb hi hs ha (i := 3) (by decide)⟩

/-- The entry changes the 32 bytes of its slot alone. -/
theorem State.byte_cplWrite_ne {b : Nat} (h : b < a ∨ a + 32 ≤ b) : (s.cplWrite n c).byte b = s.byte b := by
  rw [State.cplWrite_hbm hb hi hs, ← ha, State.byte_setRing, State.byte_setBytes_ne]
  simpa [Ring.cplWords] using h

end

end Sys2Proof.Machine
end

section
open Sys2Proof Sys2Proof.Machine

/-- Settles O20. Each step of a descriptor's life is the branch of its definition that the hypotheses choose; the entry is read back
word by word from ring memory, and the event of a stopped ring clears no bit of INT_STAT. -/
theorem descriptorLife : Obligations.DescriptorLife := by
  unfold Obligations.DescriptorLife
  refine ⟨?fetch, ?noFetch, ?start, ?timeout, ?ended, ?suppressed, ?held, ?written, ?entry, ?heldWritten, ?heldWaits⟩
  case fetch =>
    intro s n hm hb
    exact ⟨fun hg => congrArg Host.Outcome.next (State.descFetch_hbm hm hb hg), fun st =>
      ⟨_, congrArg Host.Outcome.next (State.descFetch_hbm_failed st hm hb), State.intStat_ringStopped ..⟩⟩
  case noFetch => exact fun s n err hm => congrArg Host.Outcome.next (State.descFetch_waits err hm)
  case start =>
    intro s n d rest hf hst hs hd
    refine ⟨fun hb he hfence hwait => ?_, fun st hb => ?_⟩
    · have hm := State.mayStart_ready hs hd he hfence hwait
      exact ⟨_, congrArg Host.Outcome.next (State.descStart_ready hf hst hm hb), State.popHead_work ..⟩
    · have hm := State.mayStart_refused (n := n) hs hd hb
      exact ⟨_, congrArg Host.Outcome.next (State.descStart_refused hf hst hm hb), State.popHead_work ..⟩
  case timeout =>
    intro s n at0 d rest hf ha ht hw hr hb
    have hx := State.waitTimeout_head hf ha ht hw hr hb
    exact ⟨fun h => ⟨_, congrArg Host.Outcome.next (hx.trans (if_pos h)), State.popHead_work ..⟩,
      fun h => congrArg Host.Outcome.next (hx.trans (if_neg (Nat.not_le.2 h)))⟩
  case ended => exact fun s n idx w hw hp hs => congrArg Host.Outcome.next (State.descEnd_ok hw hp hs)
  case suppressed => exact fun s n c h hs => State.complete_suppressed h hs
  case held => exact fun s n c hc h => State.complete_held hc h
  case written => exact fun s n c hc hst hh hr hb => State.complete_written hc hst hh hr hb
  case entry =>
    rintro s n c a hb hi hs ha
    rw [← Ring.entryAt] at ha
    obtain ⟨h0, h2, h3⟩ := State.words_cplWrite hb hi hs ha
    refine ⟨State.prod_cplWrite hb hi hs, ?_, ?_, ?_, h2, h3, fun b h => State.byte_cplWrite_ne hb hi hs ha h⟩
    · rw [h0, Word.bit_setBit _ _ _ (by decide)]
    · rw [h0, Word.field_setBit_ne _ _ _ _ _ (by decide) (by decide), Cpl.status_word0]
    · rw [h0, Word.field_setBit_ne _ _ _ _ _ (by decide) (by decide), Cpl.tag_word0]
  case heldWritten =>
    intro s n c hh hr
    show Host.Outcome.next (s.heldWrite n (s.ring n).held.length) = _
    rw [hh, List.length_singleton, State.heldWrite_one hh hr]
  case heldWaits => exact fun s n hr => congrArg Host.Outcome.next (State.heldWrite_waits hr _)

end

section
/-! SUPPORT. Sync objects: what a swap, watches and an event leave of their values, and what the operations do to one object (R114, R115,
R117). -/

namespace Sys2Proof.Machine

/-! ## The swap point and the watches of SYN write registers alone -/

theorem onlyRegs_watch {s t : State} (o w : Nat) (h : OnlyRegs s t) : OnlyRegs s (t.watch o w) := by
  unfold State.watch
  dsimp only
  split
  · split
    · exact onlyRegs_setReg _ _ _ (onlyRegs_setReg _ _ _ h)
    · exact onlyRegs_setInt _ _ (onlyRegs_setReg _ _ _ (onlyRegs_setReg _ _ _ h))
  · exact h

/-- All watches in turn, of whatever objects. -/
theorem onlyRegs_watches {s t : State} (o : State → Nat → Nat) (h : OnlyRegs s t) :
    OnlyRegs s ((List.range 64).foldl (fun u w => u.watch (o u w) w) t) :=
  onlyRegs_foldl (fun _ _ hu => onlyRegs_watch _ _ hu) _ h

theorem onlyRegs_swapLive (s : State) (pg : Page) : OnlyRegs s (s.swapLive pg) :=
  onlyRegs_setInt _ _ (onlyRegs_setReg _ _ _ (onlyRegs_foldl (fun _ _ h => onlyRegs_setReg _ _ _ h) _ (onlyRegs_refl s)))

theorem onlyRegs_swapFirst (s : State) (pg : Page) (checks : List (Nat × Bool)) : OnlyRegs s (s.swapFirst pg checks) := by
  unfold State.swapFirst
  split
  · split
    · exact onlyRegs_swapReject s _ pg
    · exact onlyRegs_swapLive s pg
  · exact onlyRegs_refl s

theorem onlyRegs_synTake (s : State) : OnlyRegs s s.synTake := by
  have hfirst := onlyRegs_swapFirst s Blk.syn.page s.synChecks
  unfold State.synTake
  split
  · exact onlyRegs_watches _ hfirst
  · exact hfirst

@[simp] theorem State.synTake_sync (s : State) : s.synTake.sync = s.sync := onlyRegs_sync (onlyRegs_synTake s)

@[simp] theorem State.synTake_work (s : State) : s.synTake.work = s.work := onlyRegs_work (onlyRegs_synTake s)

/-- The waits that an operation releases and the watches that it fires leave every object. -/
@[simp] theorem State.syncSettle_sync (s : State) (o : Nat) : (s.syncSettle o).sync = s.sync := by
  unfold State.syncSettle
  extract_lets v k att s1 s2
  have hcount : OnlyRegs s1 s2 := by
    unfold s2
    split
    · exact onlyRegs_refl s1
    · exact onlyRegs_count _ _ _ (onlyRegs_refl s1)
  have hwatches := onlyRegs_watches (fun _ _ => o) hcount
  exact (onlyRegs_sync hwatches :)

/-! ## What an event leaves -/

theorem eventClosed_sync : EventClosed (fun s t => t.sync = s.sync) where
  refl _ := rfl
  trans h1 h2 := h2.trans h1
  setByte _ _ _ := rfl
  setVi _ _ _ := rfl
  setRing _ _ _ := rfl
  emit _ _ := rfl
  hlk _ _ := rfl
  msix _ _ := State.msix_sync ..
  count _ _ _ _ := State.count_sync ..
  lost _ := State.latch_sync ..

/-- An event latches no error of SYN. -/
theorem eventClosed_synElw : EventClosed (fun s t => t.elw Blk.syn.page 0 = s.elw Blk.syn.page 0) where
  refl _ := rfl
  trans h1 h2 := h2.trans h1
  setByte _ _ _ := rfl
  setVi _ _ _ := rfl
  setRing _ _ _ := rfl
  emit _ _ := rfl
  hlk _ _ := rfl
  msix _ _ := State.elw_msix ..
  count _ _ _ _ := State.elw_count ..
  lost s := s.elw_latch_ne _ _ _ (by decide)

/-! ## ADD and SET (R114) -/

section
variable (s : State) (o : Nat) (v : Word)

theorem State.syncVal_of_sync {s t : State} (h : t.sync = s.sync) (k : Nat) : t.syncVal k = s.syncVal k := congrArg (Tab.get 0 · k) h

theorem State.syncAdd_sync : (s.syncAdd o v).sync = (s.setSync o (s.syncVal o + v)).sync := by
  have hval : s.synTake.syncVal o = s.syncVal o := State.syncVal_of_sync s.synTake_sync o
  have hset : ((s.synTake.setSync o (s.syncVal o + v)).count1 .syn 1).sync = (s.setSync o (s.syncVal o + v)).sync := by
    rw [State.count_sync, State.setSync, s.synTake_sync, State.setSync]
  unfold State.syncAdd
  dsimp only
  rw [hval]
  split
  · rw [State.syncSettle_sync, hset]
  · split
    · rw [eventClosed_sync.event, State.latch_sync, State.syncSettle_sync, hset]
    · rw [State.latch_sync, State.syncSettle_sync, hset]

theorem State.syncSet_sync : (s.syncSet o v).sync = (s.setSync o v).sync := by
  rw [State.syncSet, State.syncSettle_sync, State.count_sync, State.setSync, s.synTake_sync, State.setSync]

/-- ADD adds to its object and to no other. -/
theorem State.syncVal_syncAdd : (s.syncAdd o v).syncVal o = s.syncVal o + v ∧ ∀ k, k ≠ o → (s.syncAdd o v).syncVal k = s.syncVal k :=
  ⟨(State.syncVal_of_sync (s.syncAdd_sync o v) o).trans (State.syncVal_setSync ..),
    fun k hk => (State.syncVal_of_sync (s.syncAdd_sync o v) k).trans (State.syncVal_setSync_ne _ _ _ _ hk)⟩

/-- SET stores in its object and in no other. -/
theorem State.syncVal_syncSet : (s.syncSet o v).syncVal o = v ∧ ∀ k, k ≠ o → (s.syncSet o v).syncVal k = s.syncVal k :=
  ⟨(State.syncVal_of_sync (s.syncSet_sync o v) o).trans (State.syncVal_setSync ..),
    fun k hk => (State.syncVal_of_sync (s.syncSet_sync o v) k).trans (State.syncVal_setSync_ne _ _ _ _ hk)⟩

/-- An ADD that wraps latches ERR_STAT bit 0, which the event to the owner leaves. -/
theorem State.elw_syncAdd_wrap (h : 2 ^ 64 ≤ (s.syncVal o).toNat + v.toNat) : ((s.syncAdd o v).elw Blk.syn.page 0).bit 0 = true := by
  have hval : s.synTake.syncVal o = s.syncVal o := State.syncVal_of_sync s.synTake_sync o
  have hbit (t : State) : ((t.err .syn 0).elw Blk.syn.page 0).bit 0 = true := by
    rw [State.elw_latch]
    simp
  unfold State.syncAdd
  dsimp only
  rw [hval, if_neg (Nat.not_lt.2 h)]
  split
  · rw [eventClosed_synElw.event]
    exact hbit _
  · exact hbit _

end

/-! ## The descriptors of the ring engine (R99) -/

/-- A change of a descriptor in progress that keeps its ring and index. -/
theorem State.workAt_updWork {s : State} {ring idx : Nat} {f : Work → Work} (hr : ∀ w, (f w).ring = w.ring) (hi : ∀ w, (f w).idx = w.idx) :
    (s.updWork ring idx f).workAt ring idx = (s.workAt ring idx).map f := by
  unfold State.workAt State.updWork
  dsimp only
  induction s.work with
  | nil => rfl
  | cons w r ih =>
    by_cases h : w.ring = ring ∧ w.idx = idx
    · simp [h, hr, hi]
    · have hf : (decide (w.ring = ring) && decide (w.idx = idx)) = false := by simpa using h
      rw [List.map_cons, if_neg h, List.find?_cons_of_neg (by simp [hf]), List.find?_cons_of_neg (by simp [hf]), ih]

/-- A descriptor that its engine has finished with OK waits for its end. -/
theorem State.workAt_workDone_ok {s : State} {ring idx : Nat} {w : Work} (detail : Nat) (r0 r1 : Word) (h : s.workAt ring idx = some w) :
    (s.workDone ring idx .ok detail r0 r1).workAt ring idx =
      some { w with phase := .done, status := .ok, detail := BitVec.ofNat 32 detail, r0 := r0, r1 := r1, ctx := .none } := by
  rw [State.workDone, if_pos rfl, State.workAt_updWork, h]
  · rfl
  all_goals exact fun _ => rfl

theorem State.workDone_ok_sync (s : State) (ring idx detail : Nat) (r0 r1 : Word) :
    (s.workDone ring idx .ok detail r0 r1).sync = s.sync := by
  rw [State.workDone, if_pos rfl]
  rfl

/-- SYNC_READ returns the object's value, and leaves every object. -/
theorem State.workAt_syncRead {s : State} {ring idx : Nat} {w : Work} (o : Nat) (h : s.workAt ring idx = some w) :
    ∃ x, ((s.syncRead o).2.workDone ring idx .ok 0 (s.syncRead o).1 0).workAt ring idx = some x ∧ x.phase = .done ∧ x.status = .ok ∧
      x.r0 = s.syncVal o ∧ ((s.syncRead o).2.workDone ring idx .ok 0 (s.syncRead o).1 0).sync = s.sync := by
  have hat : (s.syncRead o).2.workAt ring idx = some w := by
    rw [← h, State.workAt, State.syncRead, State.count_work, State.synTake_work, State.workAt]
  refine ⟨_, State.workAt_workDone_ok 0 _ 0 hat, rfl, rfl, rfl, ?_⟩
  rw [State.workDone_ok_sync, State.syncRead, State.count_sync, State.synTake_sync]

end Sys2Proof.Machine
end

section
/-! SUPPORT. Doorbells of P0's rings, and accesses of the sync-object aperture that reach it (R107, R108, R116). -/

namespace Sys2Proof.Machine

/-! ## Doorbells -/

/-- Where a doorbell of P0's page leads. -/
theorem bar0Decode_doorbell {n : Nat} (h : n < 131072) : bar0Decode (0x08000000 + 8 * n) = .doorbell n := by
  have hn : (0x08000000 + 8 * n - 0x08000000) / 8 = n := by omega
  rw [bar0Decode, if_neg (by omega), if_neg (by omega), if_pos (by omega), hn]

section
variable {s : State}

theorem State.doorbell_frozen (off : Nat) (val : Word) (h : s.frozen = true) :
    s.doorbell off val = (s.count1 .hlk 5).count1 .rng 3 := if_pos h

theorem State.doorbell_dropped (off : Nat) (val : Word) (h : s.frozen = false) (hs : s.dstate = 3 ∨ s.flt.safe = true) :
    s.doorbell off val = s := by
  rcases hs with hs | hs <;> simp [State.doorbell, h, hs]

section
variable {n off : Nat} (val : Word) (hf : s.frozen = false) (hd : s.dstate ≠ 3) (hs : s.flt.safe = false) (hn : n < 131072)
  (ho : off = 0x08000000 + 8 * n)
include hf hd hs hn ho

/-- A doorbell that reaches P0's page is dropped for a VI's ring, and else one for the ring. -/
theorem State.doorbell_p0 : s.doorbell off val =
    if (s.ring n).viEn then s.count1 .rng 3 else s.doorbellRing n (val.field 31 0) := by
  have h8 : ¬ (off % 8 ≠ 0) := by omega
  subst ho
  simp only [State.doorbell, hf, hd, hs, decide_false, Bool.or_self, Bool.false_eq_true, if_false, State.doorbellAt,
    bar0Decode_doorbell hn, if_neg h8]
  rfl

end

section
variable {n : Nat} (idx : Nat)

theorem State.doorbellRing_dropped (h : (s.ring n).state = .disabled ∨ (s.ring n).state = .draining) :
    s.doorbellRing n idx = s.count1 .rng 3 := if_pos (h.imp_right .inl)

/-- A doorbell for a ring that runs, of an ACTIVE partition, goes by the ring's type. -/
theorem State.doorbellRing_active (h : (s.ring n).state = .enabled ∨ (s.ring n).state = .stopped)
    (hp : (s.part (s.ringPart n)).state = .active) :
    s.doorbellRing n idx = if (s.ring n).type = .submission then s.doorbellSub n idx else s.doorbellCons n idx :=
  if_neg (by rcases h with h | h <;> simp [h, hp])

theorem State.doorbellSub_taken (h : (idx + 2 ^ 32 - (s.ring n).cons) % 2 ^ 32 ≤ 2 ^ (s.ring n).logSize) :
    s.doorbellSub n idx = s.setRing n { s.ring n with prod := idx } := if_pos h

theorem State.doorbellSub_beyond (h : 2 ^ (s.ring n).logSize < (idx + 2 ^ 32 - (s.ring n).cons) % 2 ^ 32)
    (hst : (s.ring n).state = .enabled) :
    s.doorbellSub n idx = (s.setRing n { s.ring n with stopping := some .ok }).tryStop n :=
  (if_neg (Nat.not_le.2 h)).trans (if_pos hst)

/-- An index that empties a completion ring sends no interrupt, and such a ring owes no OVERFLOW entry. -/
theorem State.doorbellCons_emptied (ht : (s.ring n).type = .completion) (h : idx = (s.ring n).prod) :
    s.doorbellCons n idx = s.setRing n { s.ring n with cons := idx } := by
  have hle : ((s.ring n).prod + 2 ^ 32 - idx) % 2 ^ 32 ≤ 2 ^ (s.ring n).logSize := by
    rw [h, Nat.add_sub_cancel_left, Nat.mod_self]
    exact Nat.zero_le _
  have hcount : ({ s.ring n with cons := idx } : Ring).count = 0 := by
    rw [Ring.count, h, Nat.add_sub_cancel_left, Nat.mod_self]
  have hover (t : State) (hr : (t.ring n).type = .completion) : t.overflow n = t := by
    simp [State.overflow, Ring.takesEvents, hr]
  unfold State.doorbellCons
  dsimp only
  rw [if_pos hle, State.ring_setRing, if_pos hcount, hover _ (by rw [State.ring_setRing]; exact ht)]

end

end

/-! ## The aperture -/

section
variable {s : State}

section
variable (hs : s.flt.safe = false) (hd : s.dstate ≠ 3) (hp : s.hlk.perst = false) (hf : s.frozen = false)
include hs hd hp hf

theorem State.bar0Gate_open (rd : Bool) (off : Nat) (act : State) : s.bar0Gate rd off act = act := by
  simp [State.bar0Gate, hs, hd, hp, hf]

/-- An access of P0 that BAR0 lets through acts on an object of P0, and is refused for any other. -/
theorem State.syncP0_open (o off : Nat) (act : SyncAct) :
    s.syncP0 o off act =
      if s.owns 0 tySync o then s.syncAct o act none (0x0C000000 + off)
      else if act = .read then (s.err .syn 3).emit (.unsupported none (0x0C000000 + off) 8) else s.err .syn 3 :=
  State.bar0Gate_open hs hd hp hf _ _ _

end

variable {n off len a : Nat} (write : Bool) (data : List Byte)

/-- A partner's access that a window maps is the request at the partner's address. -/
theorem State.aperturePort_mapped (h : s.apertureAddr n off len = some a) (hs : s.flt.safe = false) (hr : s.portIn n .ready = true)
    (he : s.entryHeld (dlkPage n) = false) : s.aperturePort n write off len data = s.inboundRun n write a len data := by
  rw [State.aperturePort, h]
  exact Host.Outcome.next.inj (exec_inboundRequest write hs hr he)

theorem State.aperturePort_unmapped (h : s.apertureAddr n off len = none) (hs : s.flt.safe = false) (hr : s.portIn n .ready = true) :
    s.aperturePort n write off len data = (s.inboundUnmatched n).refuseRead n write off len := by
  simp [State.aperturePort, h, hs, hr]

/-- A partner's aligned word of the aperture, mapped by a window of TARGET 1 to a sync object of the port's owner, is one act on it. -/
theorem State.aperturePort_word {i p : Nat} (hs : s.flt.safe = false) (hr : s.portIn n .ready = true)
    (he : s.entryHeld (dlkPage n) = false) (ho : s.ownerOf tyPort n = some p) (hown : s.owns p tySync (off / 16) = true)
    (hw : s.windowOf n a 8 = some i) (ht : (s.reg (dlkPage n) (0x208 + 16 * i)).field 62 61 = 1) (hoff : s.windowTarget n i a = off)
    (h8 : off % 8 = 0) (h : s.apertureAddr n off 8 = some a) :
    s.aperturePort n write off 8 data = (s.count (dlkPage n) 2 1).syncAct (off / 16)
      (syncActAt off write (Word.of (leNat (data.take 8)))) (some n) a := by
  rw [State.aperturePort_mapped write data h hs hr he, State.inboundRun_window write ho hw, hoff, if_neg (by rw [ht]; decide), if_pos ht,
    State.inboundSync_word write h8 hown]

end

/-- The value of a word that a write carries. -/
theorem Word.of_leNat_take_bytes (v : Word) : Word.of (leNat (v.bytes.take 8)) = v := by
  rw [List.take_of_length_le v.bytes_length.le, Word.of_leNat_bytes]

end Sys2Proof.Machine
end

section
open Sys2Proof Sys2Proof.Machine

/-- Settles O21. A doorbell is decoded and goes by its ring; the operations of SYN change the table of objects at one place, which what
follows them leaves; and an access of the aperture that is let through is one such operation. -/
theorem doorbellsAndSyncObjects : Obligations.DoorbellsAndSyncObjects := by
  unfold Obligations.DoorbellsAndSyncObjects
  refine ⟨?doorbell, ?dropped, ?gated, ?nop, ?add, ?set, ?read, ?values, ?wrap, ?p0, ?partner, ?partnerSet, ?bad, ?badPartner, ?fits⟩
  case doorbell =>
    intro s n off val hf hd hs hn ho hvi hst hp
    have hx : exec (.doorbell off val) s =
        .next (if (s.ring n).type = .submission then s.doorbellSub n (val.field 31 0) else s.doorbellCons n (val.field 31 0)) := by
      refine congrArg Host.Outcome.next ((State.doorbell_p0 val hf hd hs hn ho).trans ?_)
      rw [hvi, if_neg Bool.false_ne_true, State.doorbellRing_active _ hst hp]
    rw [hx]
    refine ⟨fun ht hle => ?_, fun ht hlt he => ?_, fun ht hidx => ?_⟩
    · rw [if_pos ht, State.doorbellSub_taken _ hle]
    · rw [if_pos ht, State.doorbellSub_beyond _ hlt he]
    · rw [if_neg (by rw [ht]; decide), State.doorbellCons_emptied _ ht hidx]
  case dropped =>
    intro s n off val hf hd hs hn ho h
    refine congrArg Host.Outcome.next ((State.doorbell_p0 val hf hd hs hn ho).trans ?_)
    split
    next => rfl
    next hvi => exact State.doorbellRing_dropped _ (h.resolve_left hvi)
  case gated =>
    exact fun s off val => ⟨fun h => congrArg Host.Outcome.next (State.doorbell_frozen off val h),
      fun h hs => congrArg Host.Outcome.next (State.doorbell_dropped off val h hs)⟩
  case nop => exact fun s ring idx w h => congrArg Host.Outcome.next (State.runDesc_started _ h)
  case add =>
    exact fun s ring idx w h => ⟨fun ho => congrArg Host.Outcome.next ((State.runDesc_started _ h).trans (if_pos ho)),
      fun ho => congrArg Host.Outcome.next ((State.runDesc_started _ h).trans (if_neg (by simp [ho])))⟩
  case set =>
    exact fun s ring idx w h => ⟨fun ho => congrArg Host.Outcome.next ((State.runDesc_started _ h).trans (if_pos ho)),
      fun ho => congrArg Host.Outcome.next ((State.runDesc_started _ h).trans (if_neg (by simp [ho])))⟩
  case read =>
    intro s ring idx w h ho
    have ⟨hat, _⟩ := h
    exact ⟨_, congrArg Host.Outcome.next ((State.runDesc_started _ h).trans (if_pos ho)), State.workAt_syncRead w.syncObj hat⟩
  case values =>
    intro s o v
    obtain ⟨hadd, haddNe⟩ := s.syncVal_syncAdd o v
    obtain ⟨hset, hsetNe⟩ := s.syncVal_syncSet o v
    exact ⟨hadd, hset, fun k hk => ⟨haddNe k hk, hsetNe k hk⟩⟩
  case wrap => exact fun s o v h => s.elw_syncAdd_wrap o v h
  case p0 =>
    intro s o v hs hd hp hf
    have hx (off : Nat) (act : SyncAct) := State.syncP0_open hs hd hp hf o off act
    constructor
    · intro ho
      have hact (off : Nat) (act : SyncAct) := (hx off act).trans (if_pos ho)
      exact ⟨congrArg Host.Outcome.next (hact ..), congrArg Host.Outcome.next (hact ..), congrArg Host.Outcome.next (hact ..)⟩
    · intro ho
      have hrefused (off : Nat) (act : SyncAct) := (hx off act).trans (if_neg (by simp [ho]))
      exact ⟨congrArg Host.Outcome.next (hrefused ..), congrArg Host.Outcome.next (hrefused ..), congrArg Host.Outcome.next (hrefused ..)⟩
  case partner =>
    intro s o n a i p v hs hr he ho hown _ hw ht hoff ha
    have hobj : 16 * o / 16 = o := by omega
    have hx (write : Bool) (data : List Byte) := State.aperturePort_word write data hs hr he ho (by rw [hobj]; exact hown) hw ht hoff
      (by omega) ha
    constructor
    · refine congrArg Host.Outcome.next ((hx true v.bytes).trans ?_)
      rw [hobj, Word.of_leNat_take_bytes, syncActAt_add _ (by omega)]
      rfl
    · refine congrArg Host.Outcome.next ((hx false []).trans ?_)
      rw [hobj]
      rfl
  case partnerSet =>
    intro s o n a i p v hs hr he ho hown _ hw ht hoff ha
    have hobj : (16 * o + 8) / 16 = o := by omega
    refine congrArg Host.Outcome.next ((State.aperturePort_word true v.bytes hs hr he ho (by rw [hobj]; exact hown) hw ht hoff
      (by omega) ha).trans ?_)
    rw [hobj, Word.of_leNat_take_bytes, syncActAt_set _ (by omega)]
    rfl
  case bad =>
    intro s off len hfit hs hd hp hf hok
    refine congrArg Host.Outcome.next ((if_neg (by simp [hfit])).trans ((State.bar0Gate_open hs hd hp hf _ _ _).trans ?_))
    simp [hok, State.syncBad]
  case badPartner =>
    intro s n off len hw hr hs hin ha
    constructor
    · exact congrArg Host.Outcome.next ((if_neg (by simp [hw])).trans (State.aperturePort_unmapped true [] ha hs hin))
    · exact congrArg Host.Outcome.next ((if_neg (by simp [hr])).trans (State.aperturePort_unmapped false [] ha hs hin))
  case fits => exact fun s src write off len h => congrArg Host.Outcome.next (if_pos h)

end

section
/-! SUPPORT. Sparse tables looked up after a write, and a connection after an update of it or of its registers. -/

namespace Sys2Proof.Machine

section
variable {α : Type}

/-! ## Looking up after a write -/

theorem Tab.find_insert_self (t : Tab α) (k : Nat) (v : α) : Tab.find (Tab.insert t k v) k = some v := by
  induction t with
  | nil => simp [Tab.insert, Tab.find]
  | cons e r ih =>
    obtain ⟨i, w⟩ := e
    unfold Tab.insert
    split
    next => simp [Tab.find]
    next =>
      split
      next => simp [Tab.find]
      next hne => rw [Tab.find, if_neg (Ne.symm hne), ih]

theorem Tab.find_erase (t : Tab α) (k j : Nat) : Tab.find (Tab.erase t k) j = if j = k then none else Tab.find t j := by
  induction t with
  | nil => simp [Tab.erase, Tab.find]
  | cons e r ih =>
    obtain ⟨i, w⟩ := e
    by_cases hj : j = k
    · subst hj
      rw [if_pos rfl] at ih ⊢
      by_cases hi : i = j
      · rw [Tab.erase, if_pos hi, ih]
      · rw [Tab.erase, if_neg hi, Tab.find, if_neg hi, ih]
    · rw [if_neg hj] at ih ⊢
      by_cases hi : i = k
      · rw [Tab.erase, if_pos hi, ih, Tab.find, if_neg (hi.trans_ne (Ne.symm hj))]
      · rw [Tab.erase, if_neg hi, Tab.find, Tab.find, ih]

theorem Tab.find_upd (t : Tab α) (k j : Nat) (f : α → α) :
    Tab.find (Tab.upd t k f) j = if j = k then (Tab.find t k).map f else Tab.find t j := by
  induction t with
  | nil => simp [Tab.upd, Tab.find]
  | cons e r ih =>
    obtain ⟨i, w⟩ := e
    by_cases hi : i = k
    · subst hi
      by_cases hj : j = i
      · simp [Tab.upd, Tab.find, hj]
      · simp [Tab.upd, Tab.find, hj, Ne.symm hj]
    · by_cases hj : j = k
      · subst hj
        simp [Tab.upd, Tab.find, hi, ih]
      · simp [Tab.upd, Tab.find, hi, hj, ih]

end

/-! ## Connections -/

section
variable {s : State} {c : Nat}

@[simp] theorem State.conn_setConn (x : Conn) : (s.setConn c x).conn c = x := Tab.get_set_self _ _ _ _

theorem State.conn_setConn_ne {n : Nat} (x : Conn) (h : n ≠ c) : (s.setConn c x).conn n = s.conn n := Tab.get_set_ne _ _ _ _ _ h

@[simp] theorem State.conn_updConn (f : Conn → Conn) : (s.updConn c f).conn c = f (s.conn c) := State.conn_setConn _

@[simp] theorem State.conn_count (pg : Page) (code n : Nat) : (s.count pg code n).conn c = s.conn c := by
  rw [State.conn, State.count_mlr, State.conn]

@[simp] theorem State.conn_connOutOf (n : Nat) : (s.connOutOf n).conn c = s.conn c := rfl

theorem State.not_resident_connOutOf : c ∉ (s.connOutOf c).mlr.resident := by simp [State.connOutOf]

/-- A context that is resident is used at once, and no connection changes. -/
theorem State.connUse_resident (h : c ∈ s.mlr.resident) : (s.connUse c).1 = true ∧ ∀ n, (s.connUse c).2.conn n = s.conn n := by
  rw [State.connUse, if_pos (List.contains_iff_mem.2 h)]
  exact ⟨rfl, fun _ => rfl⟩

/-- A context that is not resident is fetched. -/
theorem State.connUse_miss (h : c ∉ s.mlr.resident) : s.connUse c = (false, s.connMiss c) :=
  if_neg (by simpa using h)

/-! ## Settings of the MLR page -/

/-- A count on the MLR page leaves what a packet sees of the staged registers. -/
theorem State.mlrSet_count1 (code : Nat) {off : Nat} (h : off ∉ ctrRegs) (hprev : off + 0x8000 ∉ ctrRegs) :
    (s.count1 .mlr code).mlrSet off = s.mlrSet off := by
  have hreg {o : Nat} (ho : o ∉ ctrRegs) : (s.count1 .mlr code).reg mlrPage o = s.reg mlrPage o :=
    State.reg_count_ne _ _ _ _ _ _ rfl fun _ hk => Page.key_ne_same _ fun e => ho (e ▸ hk)
  unfold State.mlrSet State.regFor State.applied
  rw [State.count_mlr, hreg h, hreg hprev, hreg (show 0x28 ∉ ctrRegs by decide)]

end

/-! ## Checks in order (R39) -/

theorem firstFail_cons_true (st : Status) (cs : List (Bool × Status)) : firstFail ((true, st) :: cs) = st := rfl

end Sys2Proof.Machine
end

section
/-! SUPPORT. The commands of the MLR page as writes of its CMD register, with what OPEN, SET_PART and the spate commands answer (R127, R128,
R140, R144). -/

namespace Sys2Proof.Machine

/-! ## The commands of MLR -/

theorem mlrCmdWord_op {op : Nat} (h : op < 256) (p : Nat) : (mlrCmdWord op p).field 31 24 = op := by
  simp [mlrCmdWord, Nat.mod_eq_of_lt h]

theorem mlrCmdWord_part (op : Nat) {p : Nat} (h : p < 128) : (mlrCmdWord op p).field 6 0 = p := by
  simp [mlrCmdWord, Nat.mod_eq_of_lt h]

section
variable {s : State} (part : Nat) (ht : Taken s .mlr)
include ht

theorem exec_connOpen : exec (.connOpen part) s = .next (s.connOpen.2.cmdEnd .mlr 1 s.argConn s.connOpen.1) := by
  refine congrArg Host.Outcome.next ((State.takeCmd_taken _ _ ht).trans ?_)
  rw [mlrRun, mlrCmdWord_op (by decide)]
  rfl

theorem exec_mlrCmdClose : exec (.mlrCmdClose part) s = .next ((s.connClose s.argConn).cmdEnd .mlr 2 s.argConn .ok) := by
  refine congrArg Host.Outcome.next ((State.takeCmd_taken _ _ ht).trans ?_)
  rw [mlrRun, mlrCmdWord_op (by decide)]
  rfl

theorem exec_mlrCmdQuery : exec (.mlrCmdQuery part) s = .next (s.mlrQuery.cmdEnd .mlr 3 s.argConn .ok) := by
  refine congrArg Host.Outcome.next ((State.takeCmd_taken _ _ ht).trans ?_)
  rw [mlrRun, mlrCmdWord_op (by decide)]
  rfl

theorem exec_mlrSetPart : exec (.mlrSetPart part) s =
    .next ((s.mlrSetPart ((mlrCmdWord 4 part).field 6 0)).2.cmdEnd .mlr 4 s.argConn (s.mlrSetPart ((mlrCmdWord 4 part).field 6 0)).1) := by
  refine congrArg Host.Outcome.next ((State.takeCmd_taken _ _ ht).trans ?_)
  rw [mlrRun, mlrCmdWord_op (by decide)]
  rfl

theorem exec_spateOpen (hp : part < 128) :
    exec (.spateOpen part) s = .next ((s.spateOpen part).2.cmdEnd .mlr 5 s.argConn (s.spateOpen part).1) := by
  refine congrArg Host.Outcome.next ((State.takeCmd_taken _ _ ht).trans ?_)
  rw [mlrRun, mlrCmdWord_op (by decide), mlrCmdWord_part _ hp]
  rfl

theorem exec_spateClose : exec (.spateClose part) s = .next (s.spateClose.2.cmdEnd .mlr 6 s.argConn s.spateClose.1) := by
  refine congrArg Host.Outcome.next ((State.takeCmd_taken _ _ ht).trans ?_)
  rw [mlrRun, mlrCmdWord_op (by decide)]
  rfl

end

section
variable {s : State}

/-! ## OPEN (R127, R128) -/

theorem State.connOpen_window (h : (s.reg mlrPage 0x140).field 15 2 = 0 ∨ 8192 < (s.reg mlrPage 0x140).field 15 2) :
    s.connOpen = (.format, s) := if_pos h

/-- An OPEN that passes every check writes the context and makes it resident. -/
theorem State.connOpen_ok {p : Nat} {m : MlrPart} (hw : (s.reg mlrPage 0x140).field 15 2 ≠ 0)
    (hle : (s.reg mlrPage 0x140).field 15 2 ≤ 8192) (hown : s.ownerOf tyConn s.argConn = some p) (hm : (s.part p).mlr = some m)
    (hfirst : m.first ≤ s.argConn) (hlast : s.argConn < m.first + m.count)
    (haddr : (s.part p).hasAddr ((s.reg mlrPage 0x140).bit 1) = true) (hst : (s.conn s.argConn).state = .closed)
    (htx : s.owns p tyKey ((s.reg mlrPage 0x150).field 63 44) = true) (hrx : s.owns p tyKey ((s.reg mlrPage 0x150).field 43 24) = true)
    (hleaf : s.owns p tyLeaf ((s.reg mlrPage 0x148).field 32 16) = true) :
    s.connOpen = (.ok, (s.setConn s.argConn (s.openConn p)).connIn s.argConn) := by
  have hwindow : ¬ ((s.mlrArg 0x140).field 15 2 = 0 ∨ 8192 < (s.mlrArg 0x140).field 15 2) := by
    rw [State.mlrArg]
    omega
  have htx' : s.owns p tyKey (s.openConn p).txKey = true := htx
  have hrx' : s.owns p tyKey (s.openConn p).rxKey = true := hrx
  have hleaf' : s.owns p tyLeaf (s.openConn p).leaf = true := hleaf
  have haddr' : (s.part p).hasAddr (s.openConn p).v4 = true := haddr
  unfold State.connOpen
  rw [if_neg hwindow, hown]
  simp [firstFail, htx', hrx', hleaf', haddr', hst, hm, hfirst, hlast]

/-! ## CLOSE and QUERY (R128, R148) -/

theorem State.connClose_error {c : Nat} (h : (s.conn c).state = .error) : ((s.connClose c).conn c).state = .closed := by
  simp [State.connClose, h]

theorem State.connClose_idle {c : Nat} (h : (s.conn c).state = .closed ∨ (s.conn c).state = .closing) : s.connClose c = s := by
  rcases h with h | h <;> simp [State.connClose, h]

theorem ConnState.code_lt (x : ConnState) : x.code < 8 := by cases x <;> decide

/-- What QUERY reports of a connection lies in the fields of CONN_STAT and CONN_STAT1. -/
theorem State.connStat_fields (s : State) (c : Nat) : (s.connStat c).field 63 61 = (s.conn c).state.code ∧
    (s.connStat c).field 31 0 = (s.conn c).txUna.toNat ∧ (s.connStat c).bit 55 = s.mlr.resident.contains c ∧
    (s.connStat1 c).field 63 32 = (s.conn c).txNext.toNat ∧ (s.connStat1 c).field 31 0 = (s.conn c).rxNext.toNat := by
  have hcode : (s.conn c).state.code % 8 = (s.conn c).state.code := Nat.mod_eq_of_lt (ConnState.code_lt _)
  have hpsn (x : BitVec 32) : x.toNat % 2 ^ 32 = x.toNat := Nat.mod_eq_of_lt x.isLt
  refine ⟨?_, ?_, ?_, ?_, ?_⟩
  · simpa [State.connStat] using hcode
  · simpa [State.connStat] using hpsn _
  · simp [State.connStat]
  · simpa [State.connStat1] using hpsn _
  · simpa [State.connStat1] using hpsn _

/-- The end of a connection that is CLOSING: what it was sending is forgotten, its context leaves the resident slots. -/
theorem exec_connClosed_ended {c : Nat} (hst : (s.conn c).state = .closing)
    (hwork : ∀ w, w ∈ s.work → w.onConn c = false ∧ w.restoresOn c = false) (hserves : (s.conn c).serves = [])
    (hacked : (s.conn c).txUna = (s.conn c).txNext) (hout : (s.conn c).outq = []) :
    exec (.connClosed c) s = .next ((s.setConn c ((s.conn c).drained .closed)).connOutOf c) := by
  have hidle : s.work.any (fun w => w.onConn c || w.restoresOn c) = false :=
    List.any_eq_false.2 fun w hw => by simp [hwork w hw]
  refine congrArg Host.Outcome.next (if_pos ?_)
  simp [hst, hidle, hserves, hacked, hout]

/-! ## SET_PART (R140) -/

theorem State.mlrSetPart_range {p : Nat} (h : 2 ^ 24 < s.argPart.first + s.argPart.count) : s.mlrSetPart p = (.format, s) := by
  unfold State.mlrSetPart
  dsimp only
  rw [decide_eq_true h, firstFail_cons_true]

theorem State.mlrSetPart_ok {p : Nat} (hrange : s.argPart.first + s.argPart.count ≤ 2 ^ 24)
    (hown : s.argPart.count ≠ 0 → s.ownsHbm p s.argPart.base (256 * s.argPart.count) = true)
    (hst : (s.part p).state = .building ∨ ((s.part p).state = .active ∧ s.connsOpen p = false))
    (haddr : s.addrTaken p s.argPart = false) :
    s.mlrSetPart p = (.ok, s.setPart p { s.part p with mlr := some s.argPart }) := by
  have hbase : (decide (s.argPart.count ≠ 0) && !s.ownsHbm p s.argPart.base (256 * s.argPart.count)) = false := by
    by_cases h0 : s.argPart.count = 0
    · simp [h0]
    · simp [hown h0]
  have hstate : (decide ((s.part p).state = .building) || (decide ((s.part p).state = .active) && !s.connsOpen p)) = true := by
    rcases hst with h | ⟨h, hclosed⟩
    · simp [h]
    · simp [h, hclosed]
  unfold State.mlrSetPart
  dsimp only
  rw [decide_eq_false (Nat.not_lt.2 hrange), hbase, hstate, haddr]
  rfl

/-! ## Spate channels (R144) -/

/-- A SPATE_OPEN that passes its checks opens the channel for its partition, with the key and the sync object of the arguments. -/
theorem State.spateOpen_ok {p : Nat} (hn : s.argConn < 1024) (hkey : s.owns p tyKey ((s.reg mlrPage 0x150).field 43 24) = true)
    (hsync : s.owns p tySync ((s.reg mlrPage 0x150).field 13 0) = true) (hfree : s.spate s.argConn = none) :
    (s.spateOpen p).1 = .ok ∧ ∃ x, (s.spateOpen p).2.spate s.argConn = some x ∧ x.part = p ∧
      x.rxKey = (s.reg mlrPage 0x150).field 43 24 ∧ x.sync = (s.reg mlrPage 0x150).field 13 0 := by
  have hrange : decide (1023 < s.argConn) = false := decide_eq_false (by omega)
  unfold State.spateOpen
  dsimp only [State.mlrArg]
  rw [hrange, hkey, hsync, hfree]
  exact ⟨rfl, _, congrArg (Option.filter fun x : Spate => x.isOpen) (Tab.find_insert_self _ _ _), rfl, rfl, rfl⟩

theorem State.spateClose_shut (hn : s.argConn < 1024) (h : s.spate s.argConn = none) : s.spateClose = (.state, s) := by
  have hrange : decide (1023 < s.argConn) = false := decide_eq_false (by omega)
  unfold State.spateClose
  dsimp only
  rw [hrange, h]
  rfl

theorem State.spateClose_open (hn : s.argConn < 1024) (h : s.spate s.argConn ≠ none) : s.spateClose = (.ok, s.spateShut s.argConn) := by
  have hrange : decide (1023 < s.argConn) = false := decide_eq_false (by omega)
  unfold State.spateClose
  dsimp only
  rw [hrange, Option.isNone_eq_false_iff.2 (Option.ne_none_iff_isSome.1 h)]
  rfl

/-- Shutting a channel leaves every other one. -/
theorem State.spate_spateShut (s : State) (k n : Nat) : (s.spateShut k).spate n = if n = k then none else s.spate n := by
  have hfind : (s.spateShut k).spate n = (if n = k then (Tab.find s.mlr.spates k).map (fun x => { x with isOpen := false })
      else Tab.find s.mlr.spates n).filter (fun x => x.isOpen) :=
    congrArg (Option.filter _) (Tab.find_upd _ _ _ _)
  rw [hfind]
  split
  next => cases Tab.find s.mlr.spates k <;> rfl
  next => rfl

end

end Sys2Proof.Machine
end

section
/-! SUPPORT. The descriptors of the transport engine: the packets of SPATE_SEND one by one, its end, and PROBE (R145, R148). -/

namespace Sys2Proof.Machine

theorem State.workAt_ring {s : State} {ring idx : Nat} {w : Work} (h : s.workAt ring idx = some w) : w.ring = ring ∧ w.idx = idx := by
  simpa using List.find?_some h

section
variable {s : State} {w : Work}

/-! ## SPATE_SEND (R145) -/

/-- A SPATE_SEND that has sent nothing yet is checked first. -/
theorem State.spateSend_first (hctx : w.ctx = .none) (hcheck : s.spateCheck w.part w.vi w.words = .ok) :
    s.spateSend w = (s.updWork w.ring w.idx (fun v => { v with ctx := .send 0 none [] })).spateRun w 0
      ((rLen w.words + mtuBytes (wf w.words 5 23 22) - 1) / mtuBytes (wf w.words 5 23 22)) := by
  unfold State.spateSend
  rw [hctx, hcheck]

theorem State.spateCheck_empty {p : Nat} {v : Option Nat} {ws : List Word} (h : rLen ws = 0) : s.spateCheck p v ws = .format := by
  unfold State.spateCheck
  dsimp only
  rw [decide_eq_true h, Bool.true_or, firstFail_cons_true]

theorem State.spateSend_empty (hctx : w.ctx = .none) (h : rLen w.words = 0) : s.spateSend w = s.workFail w.ring w.idx .format := by
  unfold State.spateSend
  rw [hctx, State.spateCheck_empty h]

/-- A SPATE_SEND that has sent every packet ends with OK, once no frame of it waits at its leaf. -/
theorem State.spateSettle_sent {ring idx i : Nat} (hw : s.workAt ring idx = some w) (hctx : w.ctx = .send i none [])
    (he : dEngine w.words = 1) (ho : dOpcode w.words = 1) (hp : w.phase ≠ .done)
    (hall : rLen w.words ≤ i * mtuBytes (wf w.words 5 23 22)) :
    s.spateSettle ring idx = if (s.leaf (wf w.words 5 21 5)).q.any (fun f => decide (f.desc = some (ring, idx))) then s
      else s.workDone ring idx .ok 0 0 0 := by
  unfold State.spateSettle
  rw [hw]
  dsimp only
  rw [hctx]
  dsimp only
  rw [he, ho, decide_eq_true hp, decide_eq_true hall]
  cases (s.leaf (wf w.words 5 21 5)).q.any (fun f => decide (f.desc = some (ring, idx))) <;> rfl

section
variable {i k : Nat} {data : List Byte}
  (hf : s.fetch w (spaceOf (wb w.words 5 24) ((wordAt w.words 2).toNat + i * mtuBytes (wf w.words 5 23 22)))
    ((wordAt w.words 2).toNat + i * mtuBytes (wf w.words 5 23 22))
    (min (mtuBytes (wf w.words 5 23 22)) (rLen w.words - i * mtuBytes (wf w.words 5 23 22))) = .got data)
include hf

/-- A packet whose frame finds no room in its leaf waits there, not built (R202). -/
theorem State.spateRun_full (ha : s.admits (wf w.words 5 21 5) (s.mlrFrame (wf w.words 5 21 5) (s.spatePkt w i data)) = false) :
    s.spateRun w i (k + 1) = s.waitAt (wf w.words 5 21 5) (.spate w.ring w.idx) := by
  rw [State.spateRun]
  dsimp only
  rw [hf]
  exact if_pos (by rw [ha]; rfl)

variable {u : State} {q : MlrPacket}
  (ha : s.admits (wf w.words 5 21 5) (s.mlrFrame (wf w.words 5 21 5) (s.spatePkt w i data)) = true)
include ha

theorem State.spateRun_sent (hseal : s.sealPkt (wf w.words 5 53 34) 9 (s.spatePkt w i data) = (.sent, q, u)) :
    s.spateRun w i (k + 1) = ((u.mlrSubmit (wf w.words 5 21 5) 9 (wf w.words 5 63 54) 0 false q.path q
      (some (w.ring, w.idx))).updWork w.ring w.idx (fun v => { v with ctx := .send (i + 1) none [] })).spateRun w (i + 1) k := by
  rw [State.spateRun]
  dsimp only
  rw [hf]
  dsimp only
  rw [ha, hseal]
  rfl

theorem State.spateRun_refused (hseal : s.sealPkt (wf w.words 5 53 34) 9 (s.spatePkt w i data) = (.refused, q, u)) :
    s.spateRun w i (k + 1) = u.workDone w.ring w.idx .state i 0 0 := by
  rw [State.spateRun]
  dsimp only
  rw [hf]
  dsimp only
  rw [ha, hseal]
  rfl

end

/-! ## PROBE (R148) -/

section
variable (hown : s.owns w.part tyConn (wf w.words 2 23 0) = true)
  (hpath : wf w.words 2 31 24 ≤ (s.conn (wf w.words 2 23 0)).pathsM1)
include hown hpath

/-- The checks of a PROBE on a connection of its partition, by a path that the connection has. -/
theorem State.probe_checks : firstFail [(!s.owns w.part tyConn (wf w.words 2 23 0), .accessViolation),
      (decide ((s.conn (wf w.words 2 23 0)).pathsM1 < wf w.words 2 31 24), .format),
      (decide ((s.conn (wf w.words 2 23 0)).state ≠ .active), .state)] =
    if (s.conn (wf w.words 2 23 0)).state = .active then .ok else .state := by
  rw [hown, decide_eq_false (Nat.not_lt.2 hpath)]
  by_cases hst : (s.conn (wf w.words 2 23 0)).state = .active <;> simp [firstFail, hst]

/-- A PROBE whose request leaves waits for its echo. -/
theorem State.probe_sent {u v : State} (hst : (s.conn (wf w.words 2 23 0)).state = .active)
    (hu : s.connUse (wf w.words 2 23 0) = (true, u))
    (hv : u.connOut (wf w.words 2 23 0) (wf w.words 2 31 24) 8 (s.conn (wf w.words 2 23 0)).txNext false false none
      (probeExt false (w.idx % 2 ^ 32) s.clk.pkt) [] = (.sent, v)) :
    s.probe w = v.updWork w.ring w.idx
      (fun x => { x with phase := .running, ctx := .probe (wf w.words 2 31 24) s.clk.pkt s.rtoMax }) := by
  unfold State.probe
  dsimp only
  rw [State.probe_checks hown hpath, if_pos hst]
  dsimp only
  rw [hu]
  dsimp only
  rw [hv]

theorem State.probe_notActive (hst : (s.conn (wf w.words 2 23 0)).state ≠ .active) : s.probe w = s.workFail w.ring w.idx .state := by
  unfold State.probe
  dsimp only
  rw [State.probe_checks hown hpath, if_neg hst]

end

/-- A PROBE ends with TIMEOUT once its limit has passed, and not before. -/
theorem exec_probeTimeout {ring idx path ts limit : Nat} (hw : s.workAt ring idx = some w) (hctx : w.ctx = .probe path ts limit) :
    exec (.probeTimeout ring idx) s = .next (if ts + limit ≤ s.clk.pkt then s.workFail ring idx .timeout else s) := by
  refine congrArg Host.Outcome.next ?_
  rw [hw]
  dsimp only
  rw [hctx]

end

end Sys2Proof.Machine
end

section
/-! SUPPORT. What a connection sends next, its timers, its losses, and the contexts and held packets it waits with (R131 to R143). -/

namespace Sys2Proof.Machine

section
variable {s u : State} {c : Nat}

/-! ## The next packet of a connection (R132) -/

theorem Conn.mayNew_iff (x : Conn) : x.mayNew = true ↔
    (x.txNext - x.txUna).toNat < x.window ∧ (x.tx.filter (fun p => !p.lost)).length < x.cwnd := by
  rw [Conn.mayNew, Bool.and_eq_true, decide_eq_true_iff, decide_eq_true_iff, Conn.inFlight]

theorem Conn.find_lost_none {x : Conn} (h : ∀ p, p ∈ x.tx → p.lost = false) : x.tx.find? (fun p => p.lost) = none :=
  List.find?_eq_none.2 fun p hp => by simp [h p hp]

section
variable (hr : s.connRuns c = true) (hu : s.connUse c = (true, u))
include hr hu

/-- A lost packet goes first. -/
theorem State.dataSend_lost {p : TxPkt} (hp : (u.conn c).tx.find? (fun p => p.lost) = some p) : s.dataSend c = u.resend c p true := by
  unfold State.dataSend
  rw [if_neg (by simp [hr]), hu]
  dsimp only
  rw [hp]

/-- With no WRITE and no service under way, the queue's first data packet goes, as window and CWND allow. -/
theorem State.dataSend_queue {it : TxItem} {rest : List TxItem} (hl : ∀ x, x ∈ (u.conn c).tx → x.lost = false)
    (hq : (u.conn c).outq = it :: rest) (htyp : it.typ < 5) (hn : (u.conn c).mayNew = true) (hw : u.work = [])
    (hv : (u.conn c).serves = []) : s.dataSend c = u.queueSend c it := by
  unfold State.dataSend
  rw [if_neg (by simp [hr]), hu]
  dsimp only
  rw [Conn.find_lost_none hl, hq, hw, hv]
  dsimp only [List.head?_cons, List.find?_nil]
  rw [if_neg (Nat.not_le.2 htyp), if_neg (by simp [hn])]

/-- With an empty queue, a WRITE sends its next packet, as window and CWND allow. -/
theorem State.dataSend_write {w : Work} (hl : ∀ x, x ∈ (u.conn c).tx → x.lost = false) (hq : (u.conn c).outq = [])
    (hw : u.work.find? (u.writeReady c) = some w) : s.dataSend c = if (u.conn c).mayNew then u.writeSend c w else u := by
  unfold State.dataSend
  rw [if_neg (by simp [hr]), hu]
  dsimp only
  rw [Conn.find_lost_none hl, hq]
  dsimp only [List.head?_nil]
  rw [hw]

end

/-- A new packet takes TX_NEXT and starts its timers. -/
theorem State.sendNew_sent {v : State} {it : TxItem}
    (hc : s.connNext c it.typ (s.conn c).txNext false (decide (it.typ = 2)) none it.ext it.payload = (.sent, u))
    (hv : s.sendNew c it = (.sent, v)) :
    (v.conn c).txNext = (u.conn c).txNext + 1 ∧ ∃ x, x ∈ (v.conn c).tx ∧ x.psn = (s.conn c).txNext ∧ x.ext = it.ext ∧
      x.payload = it.payload ∧ x.tries = 0 ∧ x.lost = false ∧ x.rtoAt = s.clk.pkt + s.rtoMin ∧
      x.reorderAt = s.clk.pkt + s.reorderWin := by
  unfold State.sendNew at hv
  dsimp only at hv
  rw [hc] at hv
  obtain rfl := (Prod.mk.inj hv).2
  rw [State.conn_updConn, State.conn_count]
  exact ⟨rfl, _, List.mem_append_right _ (List.mem_singleton_self _), rfl, rfl, rfl, rfl, rfl, rfl, rfl⟩

/-! ## Acknowledgements and their timer (R131) -/

theorem exec_ackDelayExpire {t : Nat} (ht : (s.conn c).ackDue = some t) (hr : s.connRuns c = true) :
    exec (.ackDelayExpire c) s = .next (if t ≤ s.clk.pkt then s.sendAck c none else s) := by
  refine congrArg Host.Outcome.next ?_
  rw [ht]
  dsimp only
  rw [hr]
  simp

/-- An ACK that leaves where no echo waits settles what was due. -/
theorem State.sendAck_sent (hg : (s.conn c).gap = false) (he : (s.conn c).ecePaths = [])
    (hu : s.connNext c 5 (s.conn c).txNext false false none [] [] = (.sent, u)) :
    ((s.sendAck c none).conn c).ackDue = none ∧ ((s.sendAck c none).conn c).ackCount = 0 ∧
      ((s.sendAck c none).conn c).sackSent = false := by
  have hnext : s.connNext c (if (s.conn c).gap then 6 else 5) (s.conn c).txNext false false
      ((none : Option Nat).or (s.conn c).ecePaths.head?) (if (s.conn c).gap then (s.conn c).map else []) [] = (.sent, u) := by
    rw [hg, he]
    exact hu
  unfold State.sendAck
  dsimp only
  rw [hnext]
  dsimp only
  rw [State.conn_updConn]
  exact ⟨rfl, rfl, hg⟩

/-! ## Losses (R133 to R135) -/

section
variable {n : Nat} {p : TxPkt} (hp : (s.conn c).txOf (BitVec.ofNat 32 n) = some p) (hr : s.connRuns c = true)
include hp hr

theorem exec_reorderLoss (hl : p.lost = false) : exec (.reorderLoss c n) s =
    .next (if p.order + 1 < (s.conn c).ackedOrder ∧ p.reorderAt ≤ s.clk.pkt then (s.cwndCut c).packetLost c p else s) := by
  refine congrArg Host.Outcome.next ?_
  rw [hp]
  dsimp only
  rw [hr, hl]
  simp

theorem exec_rtoExpire (hl : p.lost = false) : exec (.rtoExpire c n) s =
    .next (if p.rtoAt ≤ s.clk.pkt then
      ((s.count1 .mlr 0x0E).updConn c (fun x => { x with cwnd := s.cwndLow x })).packetLost c p else s) := by
  refine congrArg Host.Outcome.next ?_
  rw [hp]
  dsimp only
  rw [hr, hl]
  simp

theorem exec_nakResend {t : Nat} (ht : p.nakAt = some t) :
    exec (.nakResend c n) s = .next (if t ≤ s.clk.pkt then s.resend c p false else s) := by
  refine congrArg Host.Outcome.next ?_
  rw [hp]
  dsimp only
  rw [ht]
  dsimp only
  rw [hr]
  simp

end

theorem State.packetLost_last {p : TxPkt} (h : s.retryMax ≤ p.tries) : s.packetLost c p = s.connRetries c := if_pos h

theorem State.packetLost_again {p : TxPkt} (h : p.tries < s.retryMax) : s.packetLost c p =
    ((s.updConn c (fun x => x.updTx p.psn (fun q => { q with lost := true }))).holdPath c p.path).resend c p true :=
  if_neg (Nat.not_le.2 h)

/-- A packet that is sent again counts its try, is lost no more, and waits for twice as long, up to RTO_MAX. -/
theorem State.resend_sent {p q : TxPkt} (hu : s.connNext c p.typ p.psn true (decide (p.typ = 2)) none p.ext p.payload = (.sent, u))
    (hq : q ∈ (u.conn c).tx) (hpsn : q.psn = p.psn) :
    ∃ x, x ∈ ((s.resend c p true).conn c).tx ∧ x.psn = p.psn ∧ x.tries = p.tries + 1 ∧
      x.lost = false ∧ x.nakAt = none ∧ x.rtoAt = s.clk.pkt + min s.rtoMax (s.rtoMin * 2 ^ (p.tries + 1)) := by
  unfold State.resend
  dsimp only
  rw [hu]
  dsimp only
  rw [State.conn_updConn, State.conn_count]
  exact ⟨_, List.mem_map.2 ⟨q, hq, if_pos hpsn⟩, hpsn, rfl, rfl, rfl, rfl⟩

/-! ## Paths (R137) -/

theorem exec_pathHoldEnd {path e : Nat} (h : Tab.find (s.conn c).pathHeld path = some e) : exec (.pathHoldEnd c path) s =
    .next (if e ≤ s.clk.pkt then s.updConn c (fun x => { x with pathHeld := Tab.erase x.pathHeld path }) else s) := by
  refine congrArg Host.Outcome.next ?_
  rw [h]

/-! ## Contexts and held packets (R140 to R143) -/

theorem State.reprocess_none {which : HeldPkt → Bool} (h : s.mlr.held.filter which = []) : s.reprocess which = s := by
  rw [State.reprocess, h, List.foldl_nil]

/-- A context that arrives while no packet of it is held becomes resident. -/
theorem exec_contextFetched_ok (h : c ∈ s.mlr.fetching) (hheld : ∀ x, x ∈ s.mlr.held → x.conn ≠ c) :
    exec (.contextFetched c true) s = .next { s with mlr := { s.mlr with
      fetching := s.mlr.fetching.filter (fun x => x ≠ c), resident := s.mlr.resident ++ [c] } } := by
  refine congrArg Host.Outcome.next ((if_pos (List.contains_iff_mem.2 h)).trans ((if_pos rfl).trans (State.reprocess_none ?_)))
  exact List.filter_eq_nil_iff.2 fun x hx => by simp [hheld x hx]

/-- The fetch of the context of a connection that is open fails. -/
theorem exec_contextFetched_failed (h : c ∈ s.mlr.fetching) (hst : (s.conn c).state ≠ .closed) : exec (.contextFetched c false) s =
    .next ((({ s with mlr := { s.mlr with fetching := s.mlr.fetching.filter (fun x => x ≠ c) } } : State).errFor .mlr 1
      (s.conn c).part).connError c 4 .state) :=
  congrArg Host.Outcome.next ((if_pos (List.contains_iff_mem.2 h)).trans ((if_neg Bool.false_ne_true).trans (if_pos hst)))

/-- A write-back that ends while no packet of the context is held starts nothing. -/
theorem exec_contextWritebackDone_idle (h : c ∈ s.mlr.writingBack) (hheld : ∀ x, x ∈ s.mlr.held → x.conn ≠ c) :
    exec (.contextWritebackDone c) s =
      .next { s with mlr := { s.mlr with writingBack := s.mlr.writingBack.filter (fun x => x ≠ c) } } := by
  have hnone : s.mlr.held.any (fun x => decide (x.conn = c) && decide (x.why = .context)) = false :=
    List.any_eq_false.2 fun x hx => by simp [hheld x hx]
  exact congrArg Host.Outcome.next ((if_pos (List.contains_iff_mem.2 h)).trans (if_neg (by simp [hnone])))

/-- A packet held for too long is dropped and counted. -/
theorem exec_missHoldTimeout_dropped {h : HeldPkt} (hmem : h ∈ s.mlr.held) (hwhy : h.why ≠ .window) (hstall : s.stalls h = false)
    (hat : h.at_ + 102400 ≤ s.clk.pkt) : exec (.missHoldTimeout h.hid) s =
      .next (({ s with mlr := { s.mlr with held := s.mlr.held.filter (fun x => x.hid ≠ h.hid) } } : State).count1 .mlr 0x0A) :=
  congrArg Host.Outcome.next (if_pos (List.any_eq_true.2 ⟨h, hmem, by simp [hwhy, hstall, hat]⟩))

end

end Sys2Proof.Machine
end

section
/-! SUPPORT. The arrival of a Millrace packet: the gate of its cluster, the checks of R126 one by one, control packets, what an
acknowledgement takes off, echoes, and the packets of spate channels (R120, R126, R130 to R132, R135 to R139, R146). -/

namespace Sys2Proof.Machine

section
variable {s u : State} {typ : Nat} {p : MlrPacket} {d : List Byte}

/-! ## The gate and the first checks (R10, R120, R126) -/

theorem State.clusterStopped_eq {n : Nat} : s.clusterStopped n = !(s.gate n).isOpen := rfl

/-- With nothing waiting at the gate, or the gate closed, an arrival is its packet alone. -/
theorem State.gatedTake_idle (h : s.mlr.gated = [] ∨ (s.gate 20).isOpen = false) : s.gatedTake = s := by
  unfold State.gatedTake
  split
  next => rfl
  next hrun =>
    have hg : s.mlr.gated = [] := h.resolve_right fun hc => hrun (by rw [State.clusterStopped_eq, hc]; rfl)
    rw [hg, List.foldl_nil, ← hg]

theorem exec_arrivalOf {i : Instr} (hi : arrivalOf typ p = some i) (h : s.mlr.gated = [] ∨ (s.gate 20).isOpen = false) :
    exec i s = .next (s.mlrReceive typ p).faultsPresent.missStart := by
  have hexec : exec i s = .next (s.mlrArrive typ p) := by
    unfold arrivalOf at hi
    split at hi <;> cases hi <;> rfl
  rw [hexec, State.mlrArrive, State.gatedTake_idle h]

theorem State.mlrReceive_gated (hs : s.flt.safe = false) (hd : s.dataHeld = false) (ho : (s.gate 20).isOpen = false) :
    s.mlrReceive typ p = { s with mlr := { s.mlr with gated := s.mlr.gated ++ [(typ, p)] } } :=
  (if_neg (by simp [hs, hd])).trans (if_pos (by rw [State.clusterStopped_eq, ho]; rfl))

theorem State.mlrReceive_bad (hs : s.flt.safe = false) (hd : s.dataHeld = false) (ho : (s.gate 20).isOpen = true)
    (h : s.addrKnown p = false ∨ mlrFormBad typ p = true) : s.mlrReceive typ p = s.count1 .mlr 4 := by
  refine (if_neg (by simp [hs, hd])).trans ((if_neg (by simp [State.clusterStopped_eq, ho])).trans (if_pos ?_))
  rcases h with h | h <;> simp [h]

/-- A packet that nothing keeps from the checks goes to its spate channel, or to its connection's context. -/
theorem Arriving.mlrReceive (h : Arriving s typ p) : s.mlrReceive typ p =
    if typ = 9 then s.spateArrive p
    else if !(s.conn p.dstConn).live || s.flt.parts.contains (s.conn p.dstConn).part then s.count1 .mlr 5
    else if (s.connUse p.dstConn).1 then (s.connUse p.dstConn).2.connArrive typ p
    else (s.connUse p.dstConn).2.missHold p.dstConn .context typ p := by
  obtain ⟨hs, hd, ho, _, ha, hf⟩ := h
  refine (if_neg (by simp [hs, hd])).trans ((if_neg (by simp [State.clusterStopped_eq, ho])).trans
    ((if_neg (by simp [ha, hf])).trans ?_))
  obtain ⟨resident, v⟩ := s.connUse p.dstConn
  cases resident <;> rfl

theorem Arriving.mlrReceive_spate (h : Arriving s 9 p) : s.mlrReceive 9 p = s.spateArrive p := h.mlrReceive.trans (if_pos rfl)

theorem Arriving.mlrReceive_notOpen (h : Arriving s typ p) (ht : typ ≠ 9) (hl : (s.conn p.dstConn).live = false) :
    s.mlrReceive typ p = s.count1 .mlr 5 := by
  rw [h.mlrReceive, if_neg ht, if_pos (by simp [hl])]

section
variable (h : Arriving s typ p) (ht : typ ≠ 9) (hl : (s.conn p.dstConn).live = true) (hp : (s.conn p.dstConn).part ∉ s.flt.parts)
include h ht hl hp

theorem Arriving.mlrReceive_resident (hres : p.dstConn ∈ s.mlr.resident) :
    s.mlrReceive typ p = (s.connUse p.dstConn).2.connArrive typ p := by
  rw [h.mlrReceive, if_neg ht, if_neg (by simp [hl, hp]), if_pos (State.connUse_resident hres).1]

/-- A packet whose context is not resident is held while it is fetched (R142). -/
theorem Arriving.mlrReceive_miss (hm : p.dstConn ∉ s.mlr.resident) :
    s.mlrReceive typ p = (s.connMiss p.dstConn).missHold p.dstConn .context typ p := by
  rw [h.mlrReceive, if_neg ht, if_neg (by simp [hl, hp]), State.connUse_miss hm, if_neg Bool.false_ne_true]

end

/-- A packet that its tag has verified: a control packet acts, a data packet outside the window is dropped, another is taken (R126). -/
theorem State.connArrive_opened (hpeer : (s.conn p.dstConn).fromPeer p = true)
    (ho : s.openPkt (s.conn p.dstConn).rxKey typ p = (.ok d, u)) : s.connArrive typ p =
    if 5 ≤ typ then u.ctrlArrive p.dstConn typ { p with payload := d }
    else if !psnBefore p.psn (s.conn p.dstConn).rxNext &&
        decide ((s.conn p.dstConn).window ≤ (p.psn - (s.conn p.dstConn).rxNext).toNat) then u.count1 .mlr 7
    else u.dataArrive p.dstConn typ { p with payload := d } := by
  unfold State.connArrive
  dsimp only
  rw [if_neg (by simp [hpeer]), ho]

theorem Accepted.mlrReceive (h : Accepted s typ p d u) : s.mlrReceive typ p =
    if 5 ≤ typ then u.ctrlArrive p.dstConn typ { p with payload := d }
    else if !psnBefore p.psn (s.conn p.dstConn).rxNext &&
        decide ((s.conn p.dstConn).window ≤ (p.psn - (s.conn p.dstConn).rxNext).toNat) then u.count1 .mlr 7
    else u.dataArrive p.dstConn typ { p with payload := d } := by
  obtain ⟨harr, ht, hl, hp, hpeer, hres, hopen⟩ := h
  obtain ⟨_, hconn⟩ := State.connUse_resident hres
  rw [harr.mlrReceive_resident ht hl hp hres, State.connArrive_opened ((hconn _).symm ▸ hpeer) ((hconn _).symm ▸ hopen), hconn]

/-! ## Control packets (R131, R135, R138, R148) -/

/-- What a NAK asks of a packet that is in flight. -/
theorem State.ctrlAct_nak {c : Nat} {x : TxPkt} {st : Status} (hx : (s.conn c).txOf (BitVec.ofNat 32 (beAt p.ext 0 4)) = some x)
    (hst : Status.ofCode (beAt p.ext 4 1) = some st) : s.ctrlAct c 7 p =
      if st = .pageNotReady then s.updConn c (fun y => y.updTx (BitVec.ofNat 32 (beAt p.ext 0 4))
        (fun q => { q with nakAt := some (s.clk.pkt + beAt p.ext 8 4) }))
      else (s.ownerFailed x.owner st).connAcked c (fun q => decide (q = BitVec.ofNat 32 (beAt p.ext 0 4))) := by
  unfold State.ctrlAct State.nakIn
  rw [hx, hst]
  cases st <;> rfl

theorem State.ctrlAct_ack {c : Nat} (h : typ = 5 ∨ typ = 6) : s.ctrlAct c typ p = if p.ece then s.eceIn c p.path else s := by
  rcases h with rfl | rfl <;> rfl

/-! ## What an acknowledgement takes off (R125, R132, R139) -/

/-- READ_RESPs that are acknowledged have nobody to tell. -/
theorem State.foldl_ownerAcked_serves (l : List TxPkt) (h : ∀ x, x ∈ l → ∃ r, x.owner = .serve r) :
    l.foldl (fun t p => t.ownerAcked p.owner) s = s := by
  induction l with
  | nil => rfl
  | cons x l ih =>
    obtain ⟨r, hr⟩ := h x (List.mem_cons_self ..)
    rw [List.foldl_cons, hr]
    exact ih fun y hy => h y (List.mem_cons_of_mem _ hy)

theorem State.tx_connAcked {c : Nat} (covers : BitVec 32 → Bool) (h : ∀ x, x ∈ (s.conn c).tx → ∃ r, x.owner = .serve r) :
    ((s.connAcked c covers).conn c).tx = (s.conn c).tx.filter (fun x => !covers x.psn) := by
  unfold State.connAcked
  dsimp only
  rw [State.foldl_ownerAcked_serves _ fun x hx => h x (List.mem_of_mem_filter hx), State.conn_setConn]

theorem mem_mapPsns (a : BitVec 32) {ext : List Byte} {k : Nat} (hk : k < 256)
    (h : ((ext.getD (k / 8) 0).toNat).testBit (7 - k % 8) = true) : a + 1 + BitVec.ofNat 32 k ∈ mapPsns a ext :=
  List.mem_map.2 ⟨k, List.mem_filter.2 ⟨List.mem_range.2 hk, h⟩, rfl⟩

theorem Conn.credited_cwnd (x : Conn) : x.credited.cwnd = if x.cwnd ≤ x.credit + 1 then min (x.cwnd + 1) x.window else x.cwnd := by
  unfold Conn.credited
  split <;> rfl

/-- The credit never takes CWND above the window. -/
theorem Conn.credited_cwnd_le {x : Conn} (h : x.cwnd ≤ x.window) : x.credited.cwnd ≤ x.window := by
  rw [Conn.credited_cwnd]
  split
  · exact Nat.min_le_right _ _
  · exact h

/-! ## Echoes (R137, R139) -/

/-- A cut that CUT_GAP allows. -/
theorem State.cwnd_cwndCut {c : Nat} (h : ∀ t, (s.conn c).lastCut = some t → t + s.cutGap ≤ s.clk.pkt) :
    ((s.cwndCut c).conn c).cwnd = max (s.cwndLow (s.conn c))
      ((s.conn c).cwnd - (s.conn c).cwnd / 2 ^ (s.mlrSet 0x118).field 31 28) := by
  unfold State.cwndCut
  rw [State.conn_updConn]
  dsimp only
  cases ht : (s.conn c).lastCut with
  | none => exact congrArg Conn.cwnd (if_pos rfl)
  | some t => exact congrArg Conn.cwnd (if_pos (decide_eq_true (h t ht)))

theorem State.pathHeld_cwndCut {c : Nat} : ((s.cwndCut c).conn c).pathHeld = (s.conn c).pathHeld := by
  unfold State.cwndCut
  rw [State.conn_updConn]
  dsimp only
  split
  next => split <;> rfl
  next => rfl

theorem State.conn_holdPath {c path : Nat} : (s.holdPath c path).conn c =
    { s.conn c with pathHeld := Tab.insert (s.conn c).pathHeld path (s.clk.pkt + s.pathHold) } := State.conn_updConn _

/-- An echo holds its path and cuts CWND, where CUT_GAP allows. -/
theorem State.eceIn_cut {c path : Nat} (h : ∀ t, (s.conn c).lastCut = some t → t + s.cutGap ≤ s.clk.pkt) :
    ((s.eceIn c path).conn c).cwnd = max (s.cwndLow (s.conn c))
        ((s.conn c).cwnd - (s.conn c).cwnd / 2 ^ (s.mlrSet 0x118).field 31 28) ∧
      Tab.find ((s.eceIn c path).conn c).pathHeld path = some (s.clk.pkt + s.pathHold) := by
  have hcc : ((s.count1 .mlr 0x0D).holdPath c path).mlrSet 0x118 = s.mlrSet 0x118 := State.mlrSet_count1 0x0D (by decide) (by decide)
  have htime : (s.count1 .mlr 0x0D).mlrSet 0x120 = s.mlrSet 0x120 := State.mlrSet_count1 0x0D (by decide) (by decide)
  have hconn := State.conn_holdPath (s := s.count1 .mlr 0x0D) (c := c) (path := path)
  have hcut : ∀ t, (((s.count1 .mlr 0x0D).holdPath c path).conn c).lastCut = some t →
      t + ((s.count1 .mlr 0x0D).holdPath c path).cutGap ≤ ((s.count1 .mlr 0x0D).holdPath c path).clk.pkt := by
    intro t ht
    rw [hconn, State.conn_count] at ht
    change t + ((s.count1 .mlr 0x0D).mlrSet 0x120).field 31 0 ≤ (s.count1 .mlr 0x0D).clk.pkt
    rw [htime, State.count_clk]
    exact h t ht
  constructor
  · rw [State.eceIn, State.cwnd_cwndCut hcut, State.cwndLow, hcc, hconn, State.conn_count, State.cwndLow]
  · rw [State.eceIn, State.pathHeld_cwndCut, hconn]
    refine (Tab.find_insert_self _ _ _).trans ?_
    rw [State.count_clk, State.pathHold, htime, State.pathHold]

/-! ## Spate channels (R126, R146) -/

/-- A packet of a channel that is open, with a tag that verifies, goes on to its region. -/
theorem State.spateArrive_opened {x : Spate} (hx : s.spate p.dstConn = some x) (hp : x.part ∉ s.flt.parts)
    (ho : s.openPkt x.rxKey 9 p = (.ok d, u)) :
    s.spateArrive p = (u.count1 .mlr 3).spateIn p.dstConn { p with payload := d } := by
  unfold State.spateArrive
  rw [hx]
  dsimp only
  rw [if_neg (by simpa using hp), ho]

/-- One that no check of its region refuses is acted on. -/
theorem State.spateIn_valid {n : Nat} {x : Spate} (hx : s.rmaSwap.spate n = some x)
    (hk : s.rmaSwap.keyReason x.part (extKey p.ext) = none) (hc : extKey p.ext ∈ s.rmaSwap.mlr.regionCache)
    (hr : regionReason (s.rmaSwap.region (extKey p.ext)) 9 none (extOff p.ext) p.payload.length = none) :
    s.spateIn n p = (s.rmaSwap.regionTouch (extKey p.ext)).spateTake n x p := by
  unfold State.spateIn
  dsimp only
  rw [hx]
  dsimp only
  rw [hk]
  dsimp only
  rw [if_pos (List.contains_iff_mem.2 hc), hr]

/-- Its bytes are placed, and then added to the sync object of the channel. -/
theorem State.spateTake_placed {n : Nat} {x : Spate} {segs : List (Nat × Nat)} (hh : s.hostRefusal (s.region (extKey p.ext)) = none)
    (ht : (s.atsRange (s.region (extKey p.ext)) (extOff p.ext) p.payload.length).translate x.part (s.region (extKey p.ext)) (extOff p.ext)
      p.payload.length = .at_ segs) :
    s.spateTake n x p = ((((s.atsRange (s.region (extKey p.ext)) (extOff p.ext) p.payload.length).putSegs
      (gHost (s.region (extKey p.ext))) segs p.payload).count1 .mlr 0x0F).count1 .rma 1).syncAdd x.sync (Word.of p.payload.length) := by
  unfold State.spateTake
  dsimp only
  rw [hh]
  dsimp only
  rw [ht]

end

end Sys2Proof.Machine
end

section
open Sys2Proof Sys2Proof.Machine

/-- Settles O22. Each arrival is its packet alone, which stops at the first check that it fails; a control packet acts by its type, an
acknowledgement takes off what it covers, and a spate packet that nothing refuses is placed and added. -/
theorem arrivingPackets : Obligations.ArrivingPackets := by
  unfold Obligations.ArrivingPackets
  refine ⟨?bad, ?gated, ?notOpen, ?noChannel, ?outside, ?duplicate, ?miss, ?control, ?ack, ?nak, ?probe, ?acked, ?map, ?echo, ?credit,
    ?spate⟩
  case bad =>
    intro s typ p i hi hs hd ho hg h
    rw [exec_arrivalOf hi (.inl hg), State.mlrReceive_bad hs hd ho h]
  case gated =>
    intro s typ p i hi hs hd ho
    rw [exec_arrivalOf hi (.inr ho), State.mlrReceive_gated hs hd ho]
  case notOpen =>
    intro s typ p i hi h ht hl
    have ⟨_, _, _, hg, _⟩ := h
    rw [exec_arrivalOf hi (.inl hg), Arriving.mlrReceive_notOpen h ht hl]
  case noChannel =>
    intro s p h hx
    have ⟨_, _, _, hg, _⟩ := h
    rw [exec_arrivalOf (typ := 9) rfl (.inl hg), Arriving.mlrReceive_spate h, State.spateArrive, hx]
  case outside =>
    intro s u typ p i d hi ht h hpsn hw
    have ⟨⟨_, _, _, hg, _⟩, _⟩ := h
    rw [exec_arrivalOf hi (.inl hg), Accepted.mlrReceive h, if_neg (Nat.not_le.2 ht), if_pos (by rw [hpsn, decide_eq_true hw]; rfl)]
  case duplicate =>
    intro s u typ p i d hi ht h hw hdup
    have ⟨⟨_, _, _, hg, _⟩, _⟩ := h
    rw [exec_arrivalOf hi (.inl hg), Accepted.mlrReceive h, if_neg (Nat.not_le.2 ht),
      if_neg (by rw [decide_eq_false (Nat.not_le.2 hw), Bool.and_false]; exact Bool.false_ne_true), State.dataArrive, if_pos hdup]
  case miss =>
    intro s typ p i hi h ht hl hp hm
    have ⟨_, _, _, hg, _⟩ := h
    rw [exec_arrivalOf hi (.inl hg), Arriving.mlrReceive_miss h ht hl hp hm]
  case control =>
    intro s u v typ p i d hi ht h hv
    have ⟨⟨_, _, _, hg, _⟩, _⟩ := h
    subst hv
    rw [exec_arrivalOf hi (.inl hg), Accepted.mlrReceive h, if_pos ht]
    rfl
  case ack => exact fun v c typ p h => State.ctrlAct_ack h
  case nak =>
    exact fun v c p x hx => ⟨fun hst => (State.ctrlAct_nak hx hst).trans (if_pos rfl),
      fun st hne hst => (State.ctrlAct_nak hx hst).trans (if_neg hne)⟩
  case probe => exact fun v c p => ⟨fun h => if_neg (by rw [h]; exact Bool.false_ne_true), fun h => if_pos h⟩
  case acked =>
    intro s c a m h x
    rw [State.connAck, State.tx_connAcked _ h, List.mem_filter]
    simp [ackCovers]
  case map => exact fun a ext k hk h => mem_mapPsns a hk h
  case echo => exact fun s c path h => State.eceIn_cut h
  case credit => exact fun x h => ⟨x.credited_cwnd, Conn.credited_cwnd_le h⟩
  case spate =>
    intro s u v w p d x segs e h hx hp ho hv hvx hk hc he hr hh hw ht
    have ⟨_, _, _, hg, _⟩ := h
    subst hv he hw
    rw [exec_arrivalOf (typ := 9) rfl (.inl hg), Arriving.mlrReceive_spate h, State.spateArrive_opened hx hp ho,
      State.spateIn_valid (p := { p with payload := d }) hvx hk hc hr, State.spateTake_placed (p := { p with payload := d }) hh ht]

end

section
open Sys2Proof Sys2Proof.Machine

/-- Settles O23. What a connection sends next is read off case by case; each timer acts once it is due and not before; and a context that
comes or goes moves between the lists of the resident slots. -/
theorem selectiveRepeat : Obligations.SelectiveRepeat := by
  unfold Obligations.SelectiveRepeat
  refine ⟨?queue, ?write, ?lost, Conn.mayNew_iff, ?new, ?delay, ?settled, ?loss, ?tries, ?again, ?nak, ?path, ?fetched, ?failed, ?written,
    ?timeout⟩
  case queue =>
    intro s u c it rest hr hu hl hq ht hn hw hv
    exact congrArg (fun t : State => Host.Outcome.next t.missStart) (State.dataSend_queue hr hu hl hq ht hn hw hv)
  case write =>
    intro s u c w hr hu hl hq hw
    have hx : exec (.dataSend c) s = .next (if (u.conn c).mayNew then u.writeSend c w else u).missStart :=
      congrArg (fun t : State => Host.Outcome.next t.missStart) (State.dataSend_write hr hu hl hq hw)
    exact ⟨fun hn => by rw [hx, if_pos hn], fun hn => by rw [hx, if_neg (by simp [hn])]⟩
  case lost =>
    intro s u c p hr hu hp
    exact congrArg (fun t : State => Host.Outcome.next t.missStart) (State.dataSend_lost hr hu hp)
  case new => exact fun s u v c it hc hv => State.sendNew_sent hc hv
  case delay =>
    intro s c t ht hr
    rw [exec_ackDelayExpire ht hr]
    exact ⟨fun h => by rw [if_pos h], fun h => by rw [if_neg (Nat.not_le.2 h)]⟩
  case settled => exact fun s u c hg he hu => State.sendAck_sent hg he hu
  case loss =>
    intro s c n p hp hr hl
    rw [exec_reorderLoss hp hr hl, exec_rtoExpire hp hr hl]
    refine ⟨fun hord hat => ?_, fun hat => ?_, fun hat => ?_, fun hat => ?_⟩
    · rw [if_pos ⟨hord, hat⟩]
    · rw [if_neg fun h => absurd h.2 (Nat.not_le.2 hat)]
    · rw [if_pos hat]
      rfl
    · rw [if_neg (Nat.not_le.2 hat)]
  case tries =>
    intro s c p
    exact ⟨fun h hst => (State.packetLost_last h).trans (if_neg hst), fun h hst => (State.packetLost_last h).trans (if_pos hst),
      fun h => State.packetLost_again h⟩
  case again => exact fun s u c p q hu hq hpsn => State.resend_sent hu hq hpsn
  case nak =>
    intro s c n t p hp hr ht
    rw [exec_nakResend hp hr ht]
    exact ⟨fun h => by rw [if_pos h], fun h => by rw [if_neg (Nat.not_le.2 h)]⟩
  case path =>
    intro s c path e he
    have hx := exec_pathHoldEnd he
    refine ⟨fun h => ⟨_, hx.trans (by rw [if_pos h]), ?_, fun q hq => ?_⟩, fun h => hx.trans (by rw [if_neg (Nat.not_le.2 h)])⟩
    · rw [State.conn_updConn, Tab.find_erase, if_pos rfl]
    · rw [State.conn_updConn, Tab.find_erase, if_neg hq]
  case fetched =>
    exact fun s c h hheld => ⟨_, exec_contextFetched_ok h hheld, List.mem_append_right _ (List.mem_singleton_self c), by simp⟩
  case failed =>
    intro s c h hl
    exact exec_contextFetched_failed h fun hst => by simp [Conn.live, hst] at hl
  case written => exact fun s c h hheld => ⟨_, exec_contextWritebackDone_idle h hheld, by simp, rfl⟩
  case timeout =>
    intro s hid h hmem hid' hwhy hstall hat
    subst hid'
    refine ⟨_, exec_missHoldTimeout_dropped hmem hwhy hstall hat, fun x => ?_⟩
    rw [State.count_mlr, List.mem_filter, decide_eq_true_iff]

end

section
open Sys2Proof Sys2Proof.Machine

/-- Settles O24. Each command is a write of its CMD register that is taken; what it answers is its checks in order and then its effect. -/
theorem connectionCommands : Obligations.ConnectionCommands := by
  unfold Obligations.ConnectionCommands
  refine ⟨?opened, ?context, ?window, ?closeQuery, ?states, ?setPart, ?range, ?spate, ?closed⟩
  case opened =>
    intro s part p m ht hw hle hown hm hfirst hlast haddr hst htx hrx hleaf
    rw [exec_connOpen part ht, State.connOpen_ok hw hle hown hm hfirst hlast haddr hst htx hrx hleaf]
  case context =>
    intro s p x hx
    subst hx
    exact ⟨rfl, rfl, rfl, rfl, rfl, rfl, rfl, rfl, rfl, rfl, rfl, rfl⟩
  case window =>
    intro s part ht hw
    rw [exec_connOpen part ht, State.connOpen_window hw]
  case closeQuery => exact fun s part ht => ⟨exec_mlrCmdClose part ht, exec_mlrCmdQuery part ht⟩
  case states =>
    exact fun s c => ⟨fun h => by rw [State.connClose, h], State.connClose_error, State.connClose_idle, s.connStat_fields c⟩
  case setPart =>
    intro s part ht hp hrange hown hst haddr
    rw [exec_mlrSetPart part ht, mlrCmdWord_part _ hp, State.mlrSetPart_ok hrange hown hst haddr]
  case range =>
    intro s part ht h
    rw [exec_mlrSetPart part ht, State.mlrSetPart_range h]
  case spate =>
    intro s part ht hp hn
    refine ⟨fun hkey hsync hfree => ?_, fun h => ?_, fun h => ⟨?_, s.spate_spateShut s.argConn⟩⟩
    · obtain ⟨hok, x, hx, hpart, hrx, hobj⟩ := State.spateOpen_ok (p := part) hn hkey hsync hfree
      refine ⟨_, exec_spateOpen part ht hp, x, ?_, hpart, hrx, hobj⟩
      rw [State.spate, State.cmdEnd_mlr]
      exact hx
    · rw [exec_spateClose part ht, State.spateClose_shut hn h]
    · rw [exec_spateClose part ht, State.spateClose_open hn h]
  case closed =>
    intro s c hst hwork hserves hacked hout
    refine ⟨_, exec_connClosed_ended hst hwork hserves hacked hout, ?_, State.not_resident_connOutOf, fun n hn => ?_⟩
    · rw [State.conn_connOutOf, State.conn_setConn]
      rfl
    · rw [State.conn_connOutOf, State.conn_setConn_ne _ hn]

end

section
open Sys2Proof Sys2Proof.Machine

/-- Settles O25. Each descriptor that has started runs as its definition says: a SPATE_SEND packet by packet, CLOSE and QUERY by their
connection's owner, and a PROBE by its checks and its limit. -/
theorem millraceDescriptors : Obligations.MillraceDescriptors := by
  unfold Obligations.MillraceDescriptors
  refine ⟨?spate, ?last, ?settle, ?packet, ?fields, ?close, ?query, ?probe, ?inactive, ?timeout⟩
  case spate =>
    intro s ring idx w h hctx
    have ⟨hat, _⟩ := h
    obtain ⟨rfl, rfl⟩ := State.workAt_ring hat
    have hx : exec (.spateSend w.ring w.idx) s = .next (s.spateSend w) := congrArg Host.Outcome.next (State.runDesc_started _ h)
    exact ⟨fun hok => hx.trans (congrArg _ (State.spateSend_first hctx hok)),
      fun h0 => hx.trans (congrArg _ (State.spateSend_empty hctx h0))⟩
  case last => exact fun s w i => rfl
  case settle =>
    intro s ring idx i w hw hctx he ho hp hall
    rw [State.spateSettle_sent hw hctx he ho hp hall]
    refine ⟨fun h => if_neg ?_, fun f hf hdesc => if_pos (List.any_eq_true.2 ⟨f, hf, decide_eq_true hdesc⟩)⟩
    simpa using h
  case packet =>
    intro s u w i k data q a ha hf
    subst ha
    exact ⟨fun hfull => State.spateRun_full hf hfull,
      fun hroom => ⟨fun hseal => State.spateRun_sent hf hroom hseal, fun hseal => State.spateRun_refused hf hroom hseal⟩⟩
  case fields => exact fun s w i data => ⟨rfl, rfl, rfl, rfl, rfl, rfl⟩
  case close =>
    exact fun s ring idx w h => ⟨fun ho => congrArg Host.Outcome.next ((State.runDesc_started _ h).trans (if_pos ho)),
      fun ho => congrArg Host.Outcome.next ((State.runDesc_started _ h).trans (if_neg (by simp [ho])))⟩
  case query =>
    exact fun s ring idx w h => ⟨fun ho => congrArg Host.Outcome.next ((State.runDesc_started _ h).trans (if_pos ho)),
      fun ho => congrArg Host.Outcome.next ((State.runDesc_started _ h).trans (if_neg (by simp [ho])))⟩
  case probe =>
    intro s u v ring idx c path w h hring hidx hc hpath hown hle hst hu hv
    subst hring hidx hc hpath
    exact congrArg Host.Outcome.next ((State.runDesc_started _ h).trans (State.probe_sent hown hle hst hu hv))
  case inactive =>
    intro s ring idx w h hring hidx hown hle hst
    subst hring hidx
    exact congrArg Host.Outcome.next ((State.runDesc_started _ h).trans (State.probe_notActive hown hle hst))
  case timeout =>
    intro s ring idx path ts limit w hw hctx
    rw [exec_probeTimeout hw hctx]
    exact ⟨fun h => by rw [if_pos h], fun h => by rw [if_neg (Nat.not_le.2 h)]⟩

end


section
/-! SUPPORT. Regions in HBM, the checks of an access to one in order, and what an absent page does to the packet that meets it (R150, R153,
R154, R160, R161). -/

namespace Sys2Proof.Machine

/-! ## The entry of a key (R150, R153) -/

section
variable {s : State} {q key : Nat}

theorem State.regionAt_table {t : Nat × Nat} (ht : (s.part (key / 2 ^ 25)).rmaTable = some t) :
    s.regionAt key = if key % 2 ^ 25 < t.2 then some (t.1 + 64 * (key % 2 ^ 25)) else none := by
  rw [State.regionAt, ht]

theorem State.regionAt_noTable (ht : (s.part (key / 2 ^ 25)).rmaTable = none) : s.regionAt key = none := by
  rw [State.regionAt, ht]

theorem State.region_at {a : Nat} (ha : s.regionAt key = some a) : s.region key = s.words a 4 := by
  rw [State.region, ha]

/-- A region that no table holds reads as CLOSED. -/
theorem State.gState_noEntry (ha : s.regionAt key = none) : gState (s.region key) = 0 := by
  have hnone : s.region key = [] := by rw [State.region, ha]
  rw [hnone]
  rfl

theorem State.gState_region {a : Nat} (ha : s.regionAt key = some a) : gState (s.region key) = (s.word a).field 63 62 := by
  rw [State.region_at ha]
  rfl

theorem State.keyReason_other (h : key / 2 ^ 25 ≠ q) : s.keyReason q key = some 1 := if_pos h

theorem State.keyReason_noEntry (h : key / 2 ^ 25 = q) (ha : s.regionAt key = none) : s.keyReason q key = some 2 := by
  rw [State.keyReason, if_neg (not_not.2 h), ha]
  rfl

theorem State.keyReason_entry {a : Nat} (h : key / 2 ^ 25 = q) (ha : s.regionAt key = some a) : s.keyReason q key = none := by
  rw [State.keyReason, if_neg (not_not.2 h), ha]
  rfl

/-- Steps 1 and 2 for a partition with a table of n entries. -/
theorem State.keyReason_table {base n : Nat} (h : key / 2 ^ 25 = q) (ht : (s.part q).rmaTable = some (base, n)) :
    (n ≤ key % 2 ^ 25 → s.keyReason q key = some 2) ∧
    (key % 2 ^ 25 < n → s.keyReason q key = none ∧ s.region key = s.words (base + 64 * (key % 2 ^ 25)) 4) := by
  have ha := State.regionAt_table (h ▸ ht)
  exact ⟨fun hn => State.keyReason_noEntry h (ha.trans (if_neg (Nat.not_lt.2 hn))),
    fun hn => ⟨State.keyReason_entry h (ha.trans (if_pos hn)), State.region_at (ha.trans (if_pos hn))⟩⟩

end

/-! ## The checks against the entry (R153) -/

section
variable {e : List Word} {typ off len : Nat} {conn : Option Nat}

theorem regionReason_closed (h : gState e = 0) : regionReason e typ conn off len = some 3 := if_pos h

theorem regionReason_closing (h : gState e = 2) : regionReason e typ conn off len = some 4 := by
  simp [regionReason, h]

/-! An ACTIVE region: the right, the length, and the connection that the region is bound to. -/

section
variable (hst : gState e = 1)
include hst

theorem regionReason_right (hr : wb e 0 (if typ = 9 then 58 else if typ = 3 then 57 else 56) = false) :
    regionReason e typ conn off len = some 5 := by
  simp [regionReason, hst, hr]

variable (hr : wb e 0 (if typ = 9 then 58 else if typ = 3 then 57 else 56) = true)
include hr

theorem regionReason_length (hl : gLen e < off + len) : regionReason e typ conn off len = some 6 := by
  simp [regionReason, hst, hr, hl]

variable (hl : off + len ≤ gLen e)
include hl

theorem regionReason_bound (hb : wb e 3 39 = true) (hc : conn ≠ some (gBind e)) : regionReason e typ conn off len = some 7 := by
  simp [regionReason, hst, hr, Nat.not_lt.2 hl, hb, hc]

theorem regionReason_none (hb : wb e 3 39 = false ∨ conn = some (gBind e)) : regionReason e typ conn off len = none := by
  rcases hb with hb | hb <;> simp [regionReason, hst, hr, Nat.not_lt.2 hl, hb]

end

end

/-! ## The order of the checks (R153, R160) -/

section
variable {s : State} {c typ r : Nat} {p : MlrPacket} {ended : Option PageId}

/-- With no swap due, a validation runs under the set that is live. -/
theorem State.rmaSwap_idle (h : s.swapDue rmaPage = false) : s.rmaSwap = s := if_neg (by simp [h])

section
variable (hd : s.swapDue rmaPage = false)
include hd

theorem State.rmaIn_key (hk : s.keyReason (s.conn c).part (extKey p.ext) = some r) : s.rmaIn c typ p ended = s.rmaRefuse c p r := by
  unfold State.rmaIn
  rw [State.rmaSwap_idle hd]
  dsimp only
  rw [hk]

section
variable (hk : s.keyReason (s.conn c).part (extKey p.ext) = none)
include hk

/-- An entry that is not cached is fetched first. -/
theorem State.rmaIn_miss (hc : extKey p.ext ∉ s.mlr.regionCache) :
    s.rmaIn c typ p ended = (s.missHold c .region typ p).regionMiss (extKey p.ext) := by
  unfold State.rmaIn
  rw [State.rmaSwap_idle hd]
  dsimp only
  rw [hk]
  exact if_neg (by simpa using hc)

section
variable (hc : extKey p.ext ∈ s.mlr.regionCache)
include hc

/-- Steps 3 to 7 against an entry that is cached decide between a refusal and the access. -/
theorem State.rmaIn_cached : s.rmaIn c typ p ended =
    (regionReason (s.region (extKey p.ext)) typ (some c) (extOff p.ext) (accLen typ p)).elim
      ((s.regionTouch (extKey p.ext)).rmaTake c typ p ended) ((s.regionTouch (extKey p.ext)).rmaRefuse c p) := by
  unfold State.rmaIn
  rw [State.rmaSwap_idle hd]
  dsimp only
  rw [hk]
  dsimp only
  rw [if_pos (List.contains_iff_mem.2 hc)]
  cases regionReason (s.region (extKey p.ext)) typ (some c) (extOff p.ext) (accLen typ p) <;> rfl

theorem State.rmaIn_refused (hr : regionReason (s.region (extKey p.ext)) typ (some c) (extOff p.ext) (accLen typ p) = some r) :
    s.rmaIn c typ p ended = (s.regionTouch (extKey p.ext)).rmaRefuse c p r := by
  rw [State.rmaIn_cached hd hk hc, hr, Option.elim_some]

theorem State.rmaIn_valid (hr : regionReason (s.region (extKey p.ext)) typ (some c) (extOff p.ext) (accLen typ p) = none) :
    s.rmaIn c typ p ended = (s.regionTouch (extKey p.ext)).rmaTake c typ p ended := by
  rw [State.rmaIn_cached hd hk hc, hr, Option.elim_none]

end

end

end

end

/-- R160 refuses an access to host memory alone: while its VI is not ENABLED, and then while the link is down. -/
theorem State.hostRefusal_host {s : State} {e : List Word} (h : gMode e = 2) :
    s.hostRefusal e = if (s.vi (gVi e)).state ≠ .enabled then some .abortedByReset else if !s.hostUp then some .state else none :=
  if_neg (not_not.2 h)

/-! ## Asking for a page leaves Millrace (R61, R161) -/

theorem eventClosed_mlr : EventClosed (fun s t => t.mlr = s.mlr) where
  refl _ := rfl
  trans h1 h2 := h2.trans h1
  setByte _ _ _ := rfl
  setVi _ _ _ := rfl
  setRing _ _ _ := rfl
  emit _ _ := rfl
  hlk _ _ := rfl
  msix _ _ := State.msix_mlr ..
  count _ _ _ _ := State.count_mlr ..
  lost _ := State.latch_mlr ..

section
variable (s : State) (v : Option Nat) (page : Nat) (u : Option ReadUse) (id : PageId)

@[simp] theorem State.priAsk_mlr : (s.priAsk v page u).mlr = s.mlr := by
  unfold State.priAsk
  split
  · rfl
  · dsimp only
    split
    · rw [State.emit_mlr, State.count_mlr]
    · rfl

/-- A page request counts on the page of the host link, and leaves every register of another page. -/
theorem State.reg_priAsk {q : Page} (off : Nat) (h : ∀ k, k ∈ ctrRegs → q.key off ≠ Blk.hlk.page.key k) :
    (s.priAsk v page u).reg q off = s.reg q off := by
  unfold State.priAsk
  split
  · rfl
  · dsimp only
    split
    · exact State.reg_count_ne _ _ _ _ _ _ rfl h
    · rfl

@[simp] theorem State.pageAsk_mlr : (s.pageAsk id).mlr = s.mlr := by
  unfold State.pageAsk
  split
  · exact eventClosed_mlr.event ..
  · exact s.priAsk_mlr ..

theorem State.pageAgain_mlr : (s.pageAgain id).mlr = s.mlr := by
  unfold State.pageAgain
  split
  · rfl
  · exact s.pageAsk_mlr id

/-- The page of an entry of MODE 2 alone is asked for again, by a page request. -/
theorem State.pageAgain_eq : s.pageAgain id = if id.mode = 1 then s else s.priAsk (some id.vi) id.page none := by
  unfold State.pageAgain State.pageAsk
  split <;> rfl

theorem State.stallLimit_pageAgain : (s.pageAgain id).stallLimit = s.stallLimit := by
  rw [State.pageAgain_eq]
  split
  · rfl
  · exact congrArg (Word.field · 63 48) (s.reg_priAsk _ _ _ 0x100 (by decide))

end

/-! ## The fault table and stalls (R161, R162) -/

section
variable {s : State} {id : PageId} {f : FaultEntry}

/-- The entry that opens for a page. -/
theorem State.faults_faultOpen : (s.faultOpen id).mlr.faults = s.mlr.faults ++
    [{ id := s.mlr.nextFault, mode := id.mode, part := id.part, vi := id.vi, page := id.page, at_ := s.clk.pkt,
       limited := false, told := false }] := by
  rw [State.faultOpen, State.pageAsk_mlr]

theorem State.faultMeet_new (hf : s.faultOf id = none) (hn : s.mlr.faults.length < 4096) :
    s.faultMeet id = (.stall s.mlr.nextFault, s.faultOpen id) := by
  rw [State.faultMeet, hf]
  exact if_neg (Nat.not_le.2 hn)

theorem State.faultMeet_full (hf : s.faultOf id = none) (hn : 4096 ≤ s.mlr.faults.length) :
    s.faultMeet id = (.full, s.setIntBit rmaPage 9) := by
  rw [State.faultMeet, hf]
  exact if_pos hn

theorem State.faultMeet_open (hf : s.faultOf id = some f) (hl : f.limited = false) :
    s.faultMeet id = (.stall f.id, s.pageAgain id) := by
  rw [State.faultMeet, hf]
  exact if_neg (by simp [hl])

/-- An entry past its limit that has refused an access before. -/
theorem State.faultMeet_told (hf : s.faultOf id = some f) (hl : f.limited = true) (ht : f.told = true) :
    s.faultMeet id = (.limit, s.pageAgain id) := by
  rw [State.faultMeet, hf]
  exact (if_pos hl).trans (by rw [if_pos ht])

variable {c typ : Nat} {p : MlrPacket}

/-- A packet that the buffer has room for is held; beside the buffer nothing changes. -/
theorem State.missHold_room (c : Nat) (why : HoldWhy) (typ : Nat) (h : s.missRoom p = true) :
    ∃ m, s.missHold c why typ p = { s with mlr := m } ∧ m.conns = s.mlr.conns :=
  ⟨_, if_pos h, rfl⟩

theorem State.stalls_stallStart (fid : Nat) (psn : BitVec 32) : ((s.stallStart c fid psn).conn c).stalls =
    (s.conn c).stalls ++ [(fid, psn, s.clk.pkt + s.stallLimit)] := by
  rw [State.stallStart, State.conn_count, State.conn_updConn]

/-- A packet that waits for the page of an open entry stalls its connection for STALL. -/
theorem State.stalls_packetStall (hf : s.faultOf id = some f) (hl : f.limited = false) (hr : s.missRoom p = true) :
    ((s.packetStall c typ p id none).conn c).stalls = (s.conn c).stalls ++ [(f.id, p.psn, s.clk.pkt + s.stallLimit)] := by
  have hroom : (s.pageAgain id).missRoom p = true := by
    rw [← hr, State.missRoom, State.missOcc, State.pageAgain_mlr, State.missRoom, State.missOcc]
  have hstall : s.packetStall c typ p id none = ((s.pageAgain id).missHold c .stall typ p).stallStart c f.id p.psn := by
    rw [State.packetStall, State.faultMeet_open hf hl]
    exact if_pos hroom
  obtain ⟨m, hm, hconns⟩ := State.missHold_room c .stall typ hroom
  have hconn : ({ s.pageAgain id with mlr := m } : State).conn c = s.conn c := by
    rw [State.conn, hconns, State.pageAgain_mlr, State.conn]
  rw [hstall, State.stalls_stallStart, hm, hconn, ← s.stallLimit_pageAgain id, ← s.pageAgain_clk id]
  rfl

theorem State.packetStall_told (hf : s.faultOf id = some f) (hl : f.limited = true) (ht : f.told = true) :
    s.packetStall c typ p id none = (s.pageAgain id).rmaRefuse c p 9 := by
  rw [State.packetStall, State.faultMeet_told hf hl ht]

end

end Sys2Proof.Machine
end

section
open Sys2Proof Sys2Proof.Machine

/-- Settles O26. The checks of an access answer in their order, the first that fails with its REASON; and the table of faults decides what
an absent page does. -/
theorem regionValidation : Obligations.RegionValidation := by
  unfold Obligations.RegionValidation
  refine ⟨?key, ?entry, ?codes, fun s c typ r p hd hk => State.rmaIn_key hd hk, ?refused, ?host, ?opened, ?full, ?again, ?asked,
    ?stall, ?told⟩
  case key =>
    exact fun s q key => ⟨State.keyReason_other, fun h ht => State.keyReason_noEntry h (State.regionAt_noTable (h ▸ ht)),
      fun base n h ht => State.keyReason_table h ht⟩
  case entry =>
    rintro e typ c off len right rfl
    exact ⟨regionReason_closed, regionReason_closing, regionReason_right, regionReason_length,
      fun hst hr hl hb hc => regionReason_bound hst hr hl hb fun h => hc (Option.some.inj h),
      fun hst hr hl hb => regionReason_none hst hr hl (hb.imp_right (congrArg some))⟩
  case codes =>
    intro r h1 h11
    interval_cases r <;> exact ⟨rfl, rfl⟩
  case refused => exact fun s c typ r p hd hk hc hr => State.rmaIn_refused hd hk hc hr
  case host =>
    intro s e
    refine ⟨fun h => if_pos h, fun h hv => ?_, fun h hv hu => ?_⟩
    · rw [State.hostRefusal_host h]
      exact if_pos hv
    · rw [State.hostRefusal_host h, hu]
      exact if_neg (not_not.2 hv)
  case opened => exact fun s id hf hn => ⟨State.faultMeet_new hf hn, State.faults_faultOpen⟩
  case full => exact fun s id hf hn => State.faultMeet_full hf hn
  case again => exact fun s id f hf hl => State.faultMeet_open hf hl
  case asked => exact fun s id => rfl
  case stall => exact fun s c typ p id f hf hl hr => State.stalls_packetStall hf hl hr
  case told => exact fun s c typ p id f hf hl ht => State.packetStall_told hf hl ht

end

section
/-! SUPPORT. Remote memory packets that arrive: validation, the fetch of a region entry, placement, the service of reads, the end of stalls,
and READ_RESPs (R153, R156 to R162, R165 to R167). -/

namespace Sys2Proof.Machine

section
variable {s v : State} {c typ : Nat} {p : MlrPacket}

/-! ## A data packet that is taken (R126, R130, R161) -/

/-- A data packet inside its window, no duplicate and behind no stall is acted on by type. -/
theorem Taking.mlrReceive {d : List Byte} (h : Taking s typ p d v) (ht : typ < 5) : s.mlrReceive typ p =
    (v.dataIn p.dstConn typ { p with payload := d } none).areqAck p.dstConn { p with payload := d } := by
  obtain ⟨u, ha, hw, hdup, rfl, hstall⟩ := h
  rw [Accepted.mlrReceive ha, if_neg (Nat.not_le.2 ht), 
    if_neg (by rw [decide_eq_false (Nat.not_le.2 hw), Bool.and_false]; exact Bool.false_ne_true), State.dataArrive, if_neg (by simp [hdup])]
  dsimp only
  rw [if_neg (by simp [hstall])]

theorem exec_taking {i : Instr} {d : List Byte} (hi : arrivalOf typ p = some i) (h : Taking s typ p d v) (ht : typ < 5) : exec i s =
    .next ((v.dataIn p.dstConn typ { p with payload := d } none).areqAck p.dstConn { p with payload := d }).faultsPresent.missStart := by
  have ⟨_, ⟨⟨_, _, _, hg, _⟩, _⟩, _⟩ := h
  rw [exec_arrivalOf hi (.inl hg), h.mlrReceive ht]

theorem State.dataIn_readResp {ended : Option PageId} : s.dataIn c 4 p ended = s.readResp c p := if_pos rfl

/-- A packet that is neither a READ_RESP nor taken by a reduction goes to its region. -/
theorem State.dataIn_rma {ended : Option PageId} (h4 : typ ≠ 4) (h : typ = 3 ∨ (s.conn c).attached = false) :
    s.dataIn c typ p ended = s.rmaIn c typ p ended := by
  rw [State.dataIn, if_neg h4]
  refine if_neg ?_
  rcases h with h | h <;> simp [h]

/-! ## A validated access (R153, R160, R161) -/

/-- An access that R160 does not refuse and whose pages are present is taken. -/
theorem State.rmaTake_present {e : List Word} {n : Nat} {segs : List (Nat × Nat)} {ended : Option PageId}
    (he : e = s.region (extKey p.ext)) (hh : s.hostRefusal e = none)
    (hn : n = if typ = 3 then min (accLen 3 p) (mtuBytes (s.conn c).mtu) else p.payload.length)
    (ht : (s.atsRange e (extOff p.ext) n).translate (s.conn c).part e (extOff p.ext) n = .at_ segs) :
    s.rmaTake c typ p ended = if typ = 3 then (s.atsRange e (extOff p.ext) n).readIn c p
      else (s.atsRange e (extOff p.ext) n).writeIn c typ p e segs := by
  unfold State.rmaTake
  dsimp only
  rw [← he, ← hn, hh]
  dsimp only
  rw [ht]

/-- A WRITE is in flight until it is placed; it is never held. -/
theorem State.writeIn_write (e : List Word) (segs : List (Nat × Nat)) : s.writeIn c 1 p e segs =
    s.updConn c (fun y => { y with rxPkts := y.rxPkts ++
      [{ psn := p.psn, typ := 1, pkt := p, key := extKey p.ext, host := gHost e, segs := segs, gen := s.rxGenNow }] }) := by
  unfold State.writeIn
  dsimp only
  exact if_neg fun h => absurd h.1 (by decide)

/-! ## The fetch of a region entry (R150, R153) -/

section
variable {key : Nat}

/-- The entry that was used last stays cached. -/
theorem State.mem_regionTouch (s : State) (key : Nat) : key ∈ (s.regionTouch key).mlr.regionCache := by
  unfold State.regionTouch
  dsimp only
  rw [List.drop_append_of_le_length (by rw [List.length_append, List.length_singleton]; omega)]
  exact List.mem_append_right _ (List.mem_singleton_self key)

/-- The use of an entry reorders the cache alone. -/
theorem State.regionTouch_eq (s : State) (key : Nat) :
    ∃ l, s.regionTouch key = { s with mlr := { s.mlr with regionCache := l } } := ⟨_, rfl⟩

/-- The fetch of a region entry is over. -/
def State.regionFetched (s : State) (key : Nat) : State :=
  { s with mlr := { s.mlr with regionFetch := s.mlr.regionFetch.filter (fun k => k ≠ key) } }

theorem State.not_mem_regionFetched (s : State) (key : Nat) : key ∉ (s.regionFetched key).mlr.regionFetch := by
  simp [State.regionFetched]

section
variable (hkey : key ∈ s.mlr.regionFetch) (hheld : ∀ h, h ∈ s.mlr.held → ¬(h.why = .region ∧ extKey h.pkt.ext = key))
include hkey hheld

/-- An entry that arrives while no packet waits for it is cached; one whose fetch fails is an error of the block. -/
theorem exec_regionEntryFetched_idle (ok : Bool) : exec (.regionEntryFetched key ok) s =
    .next (if ok then (s.regionFetched key).regionTouch key else (s.regionFetched key).errFor .rma 1 (key / 2 ^ 25)) := by
  have hnone : s.mlr.held.filter (fun h => decide (h.why = .region) && decide (extKey h.pkt.ext = key)) = [] :=
    List.filter_eq_nil_iff.2 fun h hh => by simpa using hheld h hh
  refine congrArg Host.Outcome.next ((if_pos (List.contains_iff_mem.2 hkey)).trans ?_)
  dsimp only
  rw [hnone]
  rfl

end

end

/-! ## Placement (R156, R157, R159) -/

section
variable {n : Nat} {r : RxPkt}

section
variable (hr : (s.conn c).rxOf (BitVec.ofNat 32 n) 1 = some r)
include hr

/-- A write in flight whose VI has not been stopped is placed, once the host link takes it. -/
theorem exec_writePlaced (hf : s.rxRefusal r = none) : exec (.writePlaced c n) s =
    .next (if s.rxWaits r then s else (((s.rxGone c r.psn).putSegs r.host r.segs r.pkt.payload).count1 .rma 1).underGen r.gen
      (fun t => t.rxSet c r.psn false r.pkt.ce r.pkt.path)) := by
  refine congrArg Host.Outcome.next ?_
  rw [hr]
  dsimp only
  rw [hf]

theorem exec_writePlaced_refused {st : Status} (hf : s.rxRefusal r = some st) :
    exec (.writePlaced c n) s = .next (((s.rxGone c r.psn).count1 .rma 4).nakSet c r.pkt st) := by
  refine congrArg Host.Outcome.next ?_
  rw [hr]
  dsimp only
  rw [hf]

end

section
variable (hr : (s.conn c).rxOf (BitVec.ofNat 32 n) 2 = some r)
include hr

theorem exec_writeLastPlace (hf : s.rxRefusal r = none) (hw : s.rxWaits r = false) (hn : (s.conn c).rxNext = r.psn) :
    exec (.writeLastPlace c n) s =
      .next (((((s.rxGone c r.psn).putSegs r.host r.segs r.pkt.payload).count1 .rma 1).lastNotices c r).underGen r.gen
        (fun t => t.rxLast c r.psn r.pkt.ce r.pkt.path)) := by
  refine congrArg Host.Outcome.next ?_
  rw [hr]
  dsimp only
  rw [if_pos hn, hf]
  exact if_neg (by simp [hw])

/-- A WRITE_LAST waits for the writes before it (R157). -/
theorem exec_writeLastPlace_waits (hn : (s.conn c).rxNext ≠ r.psn) : exec (.writeLastPlace c n) s = .next s := by
  refine congrArg Host.Outcome.next ?_
  rw [hr]
  exact if_neg hn

end

/-- A region without notices by event: a placed WRITE_LAST makes its addition, where the region has one. -/
theorem State.lastNotices_noEvent (h : wb (s.region r.key) 0 54 = false) :
    s.lastNotices c r = if wb (s.region r.key) 0 53 then s.syncAdd (gSync (s.region r.key)) 1 else s := by
  unfold State.lastNotices
  dsimp only
  rw [h]
  rfl

end

/-- A packet in order, with nothing else received or in flight, advances RX_NEXT. -/
theorem Conn.mark_inOrder {x : Conn} {psn : BitVec 32} (hn : x.rxNext = psn) (hb : x.rxBits = []) (hp : x.rxPkts = []) :
    x.mark psn = { x with rxNext := psn + 1, rxBits := [] } := by
  simp [Conn.mark, Conn.advance, Conn.lastHeld, hn, hb, hp]

/-- Such a packet, neither marked nor the one that ACK_EVERY waits for, is acknowledged after ACK_DELAY (R131). -/
theorem State.rxSet_inOrder {psn : BitVec 32} {path : Nat} (hn : (s.conn c).rxNext = psn) (hb : (s.conn c).rxBits = [])
    (hp : (s.conn c).rxPkts = []) (hs : (s.conn c).sackSent = false) (ha : (s.conn c).ackCount + 1 < s.ackEvery) :
    (s.rxSet c psn false false path).conn c = { s.conn c with
      rxNext := psn + 1, rxBits := [], ackCount := (s.conn c).ackCount + 1,
      ackDue := some ((s.conn c).ackDue.getD (s.clk.pkt + s.ackDelay)) } := by
  unfold State.rxSet
  dsimp only
  rw [Conn.mark_inOrder hn hb hp, if_neg (by simp [Conn.gap, hs, Nat.not_le.2 ha]), State.conn_setConn]
  rfl

/-! ## The service of a READ_REQ (R157) -/

theorem exec_readServeStart {n : Nat} {x : Serve} (hx : (s.conn c).serveOf (BitVec.ofNat 32 n) = some x) (hs : x.started = false) :
    exec (.readServeStart c n) s = .next (if psnBefore x.psn (s.conn c).rxNext then
      s.updServe c x.psn (fun y => { y with started := true }) else s) := by
  refine congrArg Host.Outcome.next ?_
  rw [hx]
  dsimp only
  rw [hs]
  rfl

/-! ## The end of stalls and of entries (R161, R162) -/

theorem exec_stallExpire_absent {x : Nat × BitVec 32 × Nat} {f : FaultEntry}
    (hx : (s.conn c).stalls.find? (fun t => decide (t.2.2 ≤ s.clk.pkt)) = some x)
    (hf : s.mlr.faults.find? (fun f => decide (f.id = x.1)) = some f) : exec (.stallExpire c) s = .next (s.stallFail c x.2.1 f) := by
  refine congrArg Host.Outcome.next ?_
  rw [hx]
  dsimp only
  rw [hf]

theorem exec_stallExpire_early (h : ∀ x, x ∈ (s.conn c).stalls → s.clk.pkt < x.2.2) : exec (.stallExpire c) s = .next s := by
  have hnone : (s.conn c).stalls.find? (fun t => decide (t.2.2 ≤ s.clk.pkt)) = none :=
    List.find?_eq_none.2 fun x hx => by simpa using h x hx
  refine congrArg Host.Outcome.next ?_
  rw [hnone]

/-- The packet that stalled its connection is refused with PAGE_NOT_READY, and what waited behind it goes on. -/
theorem State.stallFail_packet {psn : BitVec 32} {f : FaultEntry} {h : HeldPkt} (hh : (s.stallOff c psn).stalledPkt c psn = some h) :
    s.stallFail c psn f = ((s.stallOff c psn).heldTake h (fun t => t.rmaPnr c h.pkt f.mode)).stallDrain c
      (some { mode := f.mode, part := f.part, vi := f.vi, page := f.page }) := by
  unfold State.stallFail
  dsimp only
  rw [hh]

/-! ## READ_RESPs (R166, R167) -/

/-- A READ_RESP that no read waits for is counted as an error, and its bit is set. -/
theorem State.readResp_unmatched (h : s.readOf c (BitVec.ofNat 32 (beAt p.ext 0 4)) = none) :
    s.readResp c p = ((s.count1 .rma 8).errFor .rma 2 (s.conn c).part).rxSet c p.psn p.areq p.ce p.path := by
  have hw : s.respWaits c p = false := by rw [State.respWaits, h]
  rw [State.readResp, if_neg (by simp [hw]), State.respDone, h]

theorem Status.ofCode_code (x : Status) : Status.ofCode x.code = some x := by cases x <;> rfl

section
variable {w : Work} {pos roff : Nat} {rq : Option (BitVec 32)} {pl : List (Nat × Nat)} {rs : Option (Nat × Nat)} {data : List Byte}

theorem State.readTake_pageNotReady : s.readTake w pos rq pl rs (Status.code .pageNotReady) roff data =
    s.updWork w.ring w.idx (fun v => { v with ctx := .read rq pos pl (some (s.clk.pkt + s.rdWait, pos + roff)) }) := rfl

theorem State.readTake_failed {x : Status} (hok : x ≠ .ok) (hp : x ≠ .pageNotReady) :
    s.readTake w pos rq pl rs x.code roff data = s.workFail w.ring w.idx x := by
  rw [State.readTake, Status.ofCode_code]
  cases x
  case ok => exact absurd rfl hok
  case pageNotReady => exact absurd rfl hp
  all_goals rfl

end

end

end Sys2Proof.Machine
end

section
open Sys2Proof Sys2Proof.Machine

/-- Settles O27. An arriving packet is acted on by type; each event of placement, of a service and of a stall acts once its condition holds
and is nothing before; and a READ_RESP goes to the read that waits for it. -/
theorem remoteAccesses : Obligations.RemoteAccesses := by
  unfold Obligations.RemoteAccesses
  refine ⟨?arrive, ?valid, fun s c typ p hd hk hc => State.rmaIn_miss hd hk hc, ?write, ?fetched, ?placed, ?lastPlaced, ?last, ?segs,
    ?notices, ?bit, ?serve, ?stall, fun s c h => exec_stallExpire_early h, ?stallFail, fun s c mode p => rfl, ?limit,
    fun s c p h => State.readResp_unmatched h, ?read⟩
  case arrive =>
    rintro s v p q d rfl
    refine ⟨fun h ha => ?_, fun h ha => ?_, fun h => ?_, fun h => ?_⟩
    · rw [exec_taking rfl h (by decide), State.dataIn_rma (by decide) (.inr ha)]
    · rw [exec_taking rfl h (by decide), State.dataIn_rma (by decide) (.inr ha)]
    · rw [exec_taking rfl h (by decide), State.dataIn_rma (by decide) (.inl rfl)]
    · rw [exec_taking rfl h (by decide), State.dataIn_readResp]
  case valid =>
    rintro s u w c typ n p e segs hd hk hc hr rfl he hh hn rfl ht
    rw [State.rmaIn_valid hd hk hc hr, State.rmaTake_present he hh hn ht]
  case write => exact fun s c p e segs => State.writeIn_write e segs
  case fetched =>
    intro s key hkey hheld
    have hx := exec_regionEntryFetched_idle hkey hheld
    refine ⟨⟨_, (hx true).trans (by rw [if_pos rfl]), State.mem_regionTouch .., ?_⟩,
      ⟨_, (hx false).trans (by rw [if_neg Bool.false_ne_true]), ?_, ?_⟩⟩
    · obtain ⟨l, hl⟩ := (s.regionFetched key).regionTouch_eq key
      rw [hl]
      exact s.not_mem_regionFetched key
    · rw [State.latch_mlr]
      exact s.not_mem_regionFetched key
    · rw [State.elw_latch]
      simp
  case placed =>
    exact fun s c n r hr => ⟨fun hf hw => (exec_writePlaced hr hf).trans (by rw [hw]; rfl),
      fun hf hw => (exec_writePlaced hr hf).trans (by rw [if_pos hw]), fun st hf => exec_writePlaced_refused hr hf⟩
  case lastPlaced => exact fun s c n r hr => ⟨exec_writeLastPlace hr, exec_writeLastPlace_waits hr⟩
  case last => exact fun s c path psn ce h => if_neg (by simpa using h)
  case segs => exact fun s a n data => rfl
  case notices =>
    rintro s c r e rfl h
    exact ⟨fun hs => (State.lastNotices_noEvent h).trans (if_pos hs),
      fun hs => (State.lastNotices_noEvent h).trans (if_neg (ne_true_of_eq_false hs))⟩
  case bit =>
    intro s c path psn hn hb hp hs ha
    rw [State.rxSet_inOrder hn hb hp hs ha]
    exact ⟨rfl, rfl, rfl⟩
  case serve =>
    intro s c n v hv hs
    rw [exec_readServeStart hv hs]
    exact ⟨fun h => by rw [if_pos h], fun h => by rw [if_neg (ne_true_of_eq_false h)]⟩
  case stall => exact fun s c fid t psn f hx hf => exec_stallExpire_absent hx hf
  case stallFail =>
    rintro s u c psn f h rfl hh
    exact State.stallFail_packet hh
  case limit =>
    intro s entry f hf hid hat
    refine ⟨_, rfl, ⟨_, List.mem_map.2 ⟨f, hf, if_pos ⟨hid, hat⟩⟩, rfl⟩, fun g hg => ?_⟩
    rw [List.mem_map]
    constructor
    · rintro ⟨x, hx, rfl⟩
      split at hg
      next h => exact absurd h.1 hg
      next h => rwa [if_neg h]
    · exact fun h => ⟨g, h, if_neg fun hc => hg hc.1⟩
  case read =>
    intro s w pos st roff rq pl rs data
    refine ⟨?_, ?_⟩
    · rintro rfl
      exact State.readTake_pageNotReady
    · rintro x hok hp rfl
      exact State.readTake_failed hok hp

end

section
/-! SUPPORT. The descriptors of engine 2 and the commands of the RMA page: WRITE and READ with their packets and limits, REGISTER, REVOKE
and the close of a region, QUERY, and a new region table (R152, R166 to R168, R170, R171, R173). -/

namespace Sys2Proof.Machine

section
variable {s : State} {w : Work}

/-! ## WRITE and READ (R170, R171) -/

theorem State.rwCheck_empty (h : rLen w.words = 0) : s.rwCheck w = .format := by
  unfold State.rwCheck
  dsimp only
  rw [decide_eq_true h, firstFail_cons_true]

theorem State.rwCheck_notOwned (h : rLen w.words ≠ 0) (ho : s.owns w.part tyConn (rConn w.words) = false) :
    s.rwCheck w = .accessViolation := by
  unfold State.rwCheck
  dsimp only
  rw [decide_eq_false h, ho]
  rfl

/-- What passes the checks goes over an ACTIVE connection. -/
theorem State.rwCheck_active (h : s.rwCheck w = .ok) : (s.conn (rConn w.words)).state = .active := by
  by_contra hst
  revert h
  unfold State.rwCheck
  simp only [firstFail, ne_eq, hst, not_false_eq_true, decide_true, if_true]
  split
  · exact Status.noConfusion
  · split <;> exact Status.noConfusion

section
variable {ring idx : Nat} {st : Status}

theorem exec_rmaWrite_ok (h : Started s ring idx 2 1 w) (hctx : w.ctx = .none) (hc : s.rwCheck w = .ok) : exec (.rmaWrite ring idx) s =
    .next ((s.updWork ring idx (fun v => { v with phase := .running, ctx := .send 0 none [] })).connUse (rConn w.words)).2 := by
  refine congrArg Host.Outcome.next ((State.runDesc_started _ h).trans ?_)
  rw [if_pos hctx, hc]

theorem exec_rmaWrite_failed (h : Started s ring idx 2 1 w) (hctx : w.ctx = .none) (hst : st ≠ .ok) (hc : s.rwCheck w = st) :
    exec (.rmaWrite ring idx) s = .next (s.workFail ring idx st) := by
  refine congrArg Host.Outcome.next ((State.runDesc_started _ h).trans ?_)
  rw [if_pos hctx]
  split
  next hok => exact absurd (hc.symm.trans hok) hst
  next => rw [hc]

theorem exec_rmaRead_ok (h : Started s ring idx 2 2 w) (hctx : w.ctx = .none) (hc : s.rwCheck w = .ok) : exec (.rmaRead ring idx) s =
    .next ((s.updWork ring idx (fun v => { v with phase := .running, ctx := .read none 0 [] none })).readAsk w 0) := by
  refine congrArg Host.Outcome.next ((State.runDesc_started _ h).trans ?_)
  rw [if_pos hctx, hc]

theorem exec_rmaRead_failed (h : Started s ring idx 2 2 w) (hctx : w.ctx = .none) (hst : st ≠ .ok) (hc : s.rwCheck w = st) :
    exec (.rmaRead ring idx) s = .next (s.workFail ring idx st) := by
  refine congrArg Host.Outcome.next ((State.runDesc_started _ h).trans ?_)
  rw [if_pos hctx]
  split
  next hok => exact absurd (hc.symm.trans hok) hst
  next => rw [hc]

end

/-- A packet of a WRITE that leaves makes the next one its turn. -/
theorem State.writeSend_sent {u : State} {c i n mtu a : Nat} {stopAt : Option Nat} {data : List Byte} {fin : Bool}
    (hctx : w.ctx = .send i stopAt []) (hmtu : mtu = mtuBytes (s.conn c).mtu) (hn : n = (rLen w.words + mtu - 1) / mtu)
    (ha : a = (wordAt w.words 2).toNat + i * mtu) (hfin : fin = (decide (i + 1 = n) && wb w.words 5 39))
    (hf : s.fetch w (spaceOf (wb w.words 5 38) a) a (min mtu (rLen w.words - i * mtu)) = .got data)
    (hs : s.sendNew c (TxItem.mk (if fin then 2 else 1)
      (placeExt (wf w.words 3 31 0) (if fin then wf w.words 5 37 6 else 0) ((wordAt w.words 4).toNat + i * mtu)) data
      (.work w.ring w.idx i)) = (.sent, u)) :
    s.writeSend c w = u.updWork w.ring w.idx (fun v => { v with phase := .running, ctx := .send (i + 1) stopAt [] }) := by
  unfold State.writeSend
  rw [hctx]
  dsimp only
  rw [← hmtu, ← hn, ← hfin, ← ha, hf]
  dsimp only
  rw [hs]

section
variable {ring idx pos : Nat} {rq : Option (BitVec 32)} {pl : List (Nat × Nat)} {rs : Option (Nat × Nat)}
  (hw : s.workAt ring idx = some w)
include hw

/-- A READ whose READ_REQ has been settled asks again for what is left, RD_WAIT after a PAGE_NOT_READY (R166). -/
theorem exec_readReissue {psn : BitVec 32} {t p : Nat} (hctx : w.ctx = .read (some psn) pos pl (some (t, p)))
    (ho : (s.conn (rConn w.words)).owes (.work ring idx 0) = false) :
    exec (.readReissue ring idx) s = .next (if t ≤ s.clk.pkt then s.readAsk w p else s) := by
  refine congrArg Host.Outcome.next ?_
  rw [hw]
  dsimp only
  rw [hctx]
  simp [ho]

/-- A READ ends with TIMEOUT once READ_TO has passed since its start, and not before (R167). -/
theorem exec_readTimeout (hctx : w.ctx = .read rq pos pl rs) : exec (.readTimeout ring idx) s =
    .next (if w.startPkt + (s.regFor rmaPage w.gen 0x100).field 31 0 * 65536 ≤ s.clk.pkt then
      (s.workFail ring idx .timeout).updConn (rConn w.words) (fun x => x.dropQueued (.work ring idx 0)) else s) := by
  refine congrArg Host.Outcome.next ?_
  rw [hw]
  dsimp only
  rw [hctx]

end

/-! ## REGISTER (R152) -/

/-- The words of an entry are words 2 to 5 of its descriptor. -/
theorem regionWords {ws : List Word} (h : 6 ≤ ws.length) :
    (ws.drop 2).take 4 = [wordAt ws 2, wordAt ws 3, wordAt ws 4, wordAt ws 5] := by
  have hw {i : Nat} (hi : i < 6) : wordAt ws i = ws[i] := List.getD_eq_getElem ws 0 (Nat.lt_of_lt_of_le hi h)
  rw [hw (i := 2) (by decide), hw (i := 3) (by decide), hw (i := 4) (by decide), hw (i := 5) (by decide)]
  refine List.ext_getElem (by simp; omega) fun i _ h2 => ?_
  have hi : i < 4 := h2
  interval_cases i <;> simp

section
variable {ring idx : Nat}

theorem exec_register_ok {a : Nat} (h : Started s ring idx 2 3 w) (hlen : 6 ≤ w.words.length)
    (hc : s.registerCheck w.part w.words = .ok) (ha : s.regionAt (regKey w.words) = some a) : exec (.register ring idx) s =
      .next ((s.setBytes a (wordsBytes [(wordAt w.words 2).setField 63 62 1, wordAt w.words 3, wordAt w.words 4,
        wordAt w.words 5])).workDone ring idx .ok 0 0 0) := by
  refine congrArg Host.Outcome.next ((State.runDesc_started _ h).trans ?_)
  dsimp only
  rw [hc, ha]
  dsimp only
  rw [regionWords hlen]
  rfl

theorem exec_register_failed {st : Status} (h : Started s ring idx 2 3 w) (hst : st ≠ .ok)
    (hc : s.registerCheck w.part w.words = st) : exec (.register ring idx) s = .next (s.workFail ring idx st) := by
  refine congrArg Host.Outcome.next ((State.runDesc_started _ h).trans ?_)
  split
  next hok _ => exact absurd (hc.symm.trans hok) hst
  next hok _ => exact absurd (hc.symm.trans hok) hst
  next => rw [hc]

end

/-- An entry of MODE 3, without a length that a region may have, or beyond the table, is FORMAT before anything else. -/
theorem State.registerCheck_format {p base n : Nat} {ws : List Word} (ht : (s.part p).rmaTable = some (base, n))
    (h : gMode ((ws.drop 2).take 4) = 3 ∨ gLen ((ws.drop 2).take 4) = 0 ∨ 2 ^ 48 < gLen ((ws.drop 2).take 4) ∨
      n ≤ regKey ws % 2 ^ 25) :
    s.registerCheck p ws = .format := by
  unfold State.registerCheck
  dsimp only
  rw [ht]
  dsimp only
  have hfirst : (decide (gMode ((ws.drop 2).take 4) = 3) || decide (gLen ((ws.drop 2).take 4) = 0) ||
      decide (2 ^ 48 < gLen ((ws.drop 2).take 4)) || decide (n ≤ regKey ws % 2 ^ 25)) = true := by
    simpa only [Bool.or_eq_true, decide_eq_true_iff, or_assoc] using h
  rw [hfirst, firstFail_cons_true]

/-! ## REVOKE and the close of a region (R168) -/

section
variable {key a : Nat}

theorem State.regionAt_setBytes (s : State) (b : Nat) (bs : List Byte) (key : Nat) : (s.setBytes b bs).regionAt key = s.regionAt key := by
  obtain ⟨h, e⟩ := s.setBytes_eq b bs
  rw [e]
  rfl

theorem State.word_setWord (s : State) (a : Nat) (x : Word) : (s.setWord a x).word a = x := by
  have h := s.word_setBytes_words a [x] (i := 0) Nat.one_pos
  rwa [wordsBytes_cons, wordsBytes, List.flatMap_nil, List.append_nil] at h

/-- STATE of a region reads as it was written. -/
theorem State.gState_setRegionState {st : Nat} (ha : s.regionAt key = some a) (hst : st < 4) :
    gState ((s.setRegionState key st).region key) = st := by
  have hset : s.setRegionState key st = s.setWord a ((s.word a).setField 63 62 st) := by rw [State.setRegionState, ha]
  have ha' : (s.setWord a ((s.word a).setField 63 62 st)).regionAt key = some a := (s.regionAt_setBytes ..).trans ha
  rw [hset, State.gState_region ha', State.word_setWord, Word.field_setField _ _ _ _ (by decide) (by decide)]
  exact Nat.mod_eq_of_lt hst

/-- A region that is not CLOSED has an entry. -/
theorem State.regionAt_of_gState (h : gState (s.region key) ≠ 0) : ∃ a, s.regionAt key = some a :=
  Option.ne_none_iff_exists'.1 fun hn => h (State.gState_noEntry hn)

/-- Descriptors that end with OK change the list of work alone. -/
theorem State.workDone_ok_eq (s : State) (ring idx detail : Nat) (r0 r1 : Word) :
    ∃ l, s.workDone ring idx .ok detail r0 r1 = { s with work := l } := by
  rw [State.workDone, if_pos rfl]
  exact ⟨_, rfl⟩

theorem State.foldl_workDone_ok_eq (s : State) (l : List Work) :
    ∃ x, l.foldl (fun t w => t.workDone w.ring w.idx .ok 0 0 0) s = { s with work := x } := by
  refine List.foldlRecOn (motive := fun t : State => ∃ x, t = { s with work := x }) l _ ⟨_, rfl⟩ ?_
  rintro _ ⟨x, rfl⟩ w _
  obtain ⟨y, hy⟩ := State.workDone_ok_eq { s with work := x } w.ring w.idx 0 0 0
  exact ⟨y, hy⟩

/-- A CLOSING region with nothing in flight is CLOSED, and its entry leaves the cache. -/
theorem exec_regionClosed (h : gState (s.region key) = 2) (h0 : s.regionInFlight key = 0) :
    Gives (.regionClosed key) s (fun t => gState (t.region key) = 0 ∧ key ∉ t.mlr.regionCache) := by
  obtain ⟨a, ha⟩ := State.regionAt_of_gState (s := s) (key := key) (by rw [h]; decide)
  have hclosed := State.gState_setRegionState (st := 0) ha (by decide)
  refine ⟨_, congrArg Host.Outcome.next (if_pos ⟨h, h0⟩), ?_⟩
  dsimp only
  generalize List.filter _ (s.setRegionState key 0).work = l
  obtain ⟨x, hx⟩ := State.foldl_workDone_ok_eq { s.setRegionState key 0 with mlr := { (s.setRegionState key 0).mlr with
    regionCache := (s.setRegionState key 0).mlr.regionCache.filter (fun k => k ≠ key) } } l
  rw [hx]
  exact ⟨hclosed, by simp⟩

theorem exec_regionClosed_waits (h : s.regionInFlight key ≠ 0) : exec (.regionClosed key) s = .next s :=
  congrArg Host.Outcome.next (if_neg fun hc => h hc.2)

end

section
variable {ring idx : Nat}

theorem exec_revoke (h : Started s ring idx 2 4 w) (hc : s.keyCheck w.part (regKey w.words) = .ok) : exec (.revoke ring idx) s =
    .next (if gState (s.region (regKey w.words)) = 1 then
      (s.setRegionState (regKey w.words) 2).updWork ring idx (fun v => { v with phase := .running })
    else s.workFail ring idx .state) := by
  refine congrArg Host.Outcome.next ((State.runDesc_started _ h).trans ?_)
  rw [hc]

/-! ## QUERY (R170, R173) -/

theorem exec_rmaQuery_ok (h : Started s ring idx 2 5 w) (hc : s.keyCheck w.part (regKey w.words) = .ok) :
    exec (.rmaQuery ring idx) s = .next (s.workDone ring idx .ok 0 (s.regionStat (regKey w.words)) 0) := by
  refine congrArg Host.Outcome.next ((State.runDesc_started _ h).trans ?_)
  rw [hc]

theorem exec_rmaQuery_failed {st : Status} (h : Started s ring idx 2 5 w) (hst : st ≠ .ok)
    (hc : s.keyCheck w.part (regKey w.words) = st) : exec (.rmaQuery ring idx) s = .next (s.workFail ring idx st) := by
  refine congrArg Host.Outcome.next ((State.runDesc_started _ h).trans ?_)
  split
  next hok => exact absurd (hc.symm.trans hok) hst
  next => rw [hc]

end

/-- The fields of the state word of a region. -/
theorem State.regionStat_fields (s : State) (key : Nat) : (s.regionStat key).field 63 62 = gState (s.region key) ∧
    (s.regionStat key).field 61 60 = gMode (s.region key) ∧ (s.regionStat key).field 31 0 = s.regionInFlight key % 2 ^ 32 := by
  have hstate : gState (s.region key) % 4 = gState (s.region key) := Nat.mod_eq_of_lt (Word.field_lt _ 63 62)
  have hmode : gMode (s.region key) % 4 = gMode (s.region key) := Nat.mod_eq_of_lt (Word.field_lt _ 61 60)
  refine ⟨?_, ?_, ?_⟩
  · simpa [State.regionStat] using hstate
  · simpa [State.regionStat] using hmode
  · simp [State.regionStat]

/-! ## The commands of the RMA page (R173) -/

section
variable {part : Nat} (ht : Taken s .rma) (hp : part < 128)
include ht hp

theorem exec_rmaSetPart : exec (.rmaSetPart part) s = .next ((s.rmaSetPart part).2.cmdEnd .rma 1 part (s.rmaSetPart part).1) := by
  refine congrArg Host.Outcome.next ((State.takeCmd_taken _ _ ht).trans ?_)
  rw [rmaRun, ← mlrCmdWord, mlrCmdWord_op (by decide), mlrCmdWord_part _ hp]
  rfl

theorem exec_rmaCmdQuery : exec (.rmaCmdQuery part) s = .next (s.rmaQuery.2.cmdEnd .rma 2 part s.rmaQuery.1) := by
  refine congrArg Host.Outcome.next ((State.takeCmd_taken _ _ ht).trans ?_)
  rw [rmaRun, ← mlrCmdWord, mlrCmdWord_op (by decide), mlrCmdWord_part _ hp]
  rfl

end

/-- A new region table of a partition: its entries are CLOSED, and none of the partition's is cached. -/
def State.newRmaTable (s : State) (p base n : Nat) : State :=
  let s1 := (s.zero base (64 * n)).setPart p { s.part p with rmaTable := some (base, n) }
  { s1 with mlr := { s1.mlr with regionCache := s1.mlr.regionCache.filter (fun k => k / 2 ^ 25 ≠ p) } }

theorem State.rmaSetPart_ok {p base n : Nat} (hb : base = (s.reg rmaPage 0x140).field 63 12 * 4096)
    (hn : n = (s.reg rmaPage 0x148).field 25 0) (h0 : n ≠ 0) (hle : n ≤ 2 ^ 25) (ho : s.ownsHbm 0 base (64 * n) = true)
    (hst : (s.part p).state = .building ∨ ((s.part p).state = .active ∧ s.regionsOpen p = false)) :
    s.rmaSetPart p = (.ok, s.newRmaTable p base n) := by
  have hstate : (decide ((s.part p).state = .building) || (decide ((s.part p).state = .active) && !s.regionsOpen p)) = true := by
    rcases hst with h | ⟨h, hclosed⟩
    · simp [h]
    · simp [h, hclosed]
  unfold State.rmaSetPart
  dsimp only
  rw [← hb, ← hn, decide_eq_false (Nat.not_lt.2 hle), ho, hstate, if_neg h0]
  simp only [firstFail, Bool.not_true, Bool.and_false, Bool.false_eq_true, if_false]
  rfl

theorem State.byte_zero_ne (s : State) {a n k : Nat} (h : k < a ∨ a + n ≤ k) : (s.zero a n).byte k = s.byte k :=
  (Tab.get_filter_key hbmFill s.hbm (fun k => decide (k < a ∨ a + n ≤ k)) k).trans (if_pos (decide_eq_true h))

end

end Sys2Proof.Machine
end

section
open Sys2Proof Sys2Proof.Machine

/-- Settles O28. Each descriptor that has started runs by its checks; a region's STATE is a field of its entry in HBM, which REGISTER,
REVOKE and the close write; and a page command is a write of its CMD register that is taken. -/
theorem remoteMemoryDescriptors : Obligations.RemoteMemoryDescriptors := by
  unfold Obligations.RemoteMemoryDescriptors
  refine ⟨?write, ?read, ?check, ?packet, ?reissue, ?timeout, ?register, fun s ring idx w st h hst hc => exec_register_failed h hst hc,
    ?format, ?revoke, fun s key st a ha hst => State.gState_setRegionState ha hst, fun s key h h0 => exec_regionClosed h h0,
    fun s key h => exec_regionClosed_waits h, ?query, State.regionStat_fields, ?table, ?regStat⟩
  case write =>
    exact fun s ring idx w h hctx => ⟨exec_rmaWrite_ok h hctx, fun st hst hc => exec_rmaWrite_failed h hctx hst hc⟩
  case read =>
    exact fun s ring idx w h hctx => ⟨exec_rmaRead_ok h hctx, fun st hst hc => exec_rmaRead_failed h hctx hst hc⟩
  case check => exact fun s w => ⟨State.rwCheck_empty, State.rwCheck_notOwned, State.rwCheck_active⟩
  case packet =>
    intro s u c i n mtu a w stopAt data fin hctx hmtu hn ha hfin hf hs
    exact State.writeSend_sent hctx hmtu hn ha hfin hf hs
  case reissue =>
    intro s ring idx pos t p psn pl w hw hctx ho
    rw [exec_readReissue hw hctx ho]
    exact ⟨fun h => by rw [if_pos h], fun h => by rw [if_neg (Nat.not_le.2 h)]⟩
  case timeout =>
    intro s ring idx pos rq pl rs w hw hctx
    rw [exec_readTimeout hw hctx]
    exact ⟨fun h => by rw [if_pos h], fun h => by rw [if_neg (Nat.not_le.2 h)]⟩
  case register => exact fun s ring idx a w h hlen hc ha => exec_register_ok h hlen hc ha
  case format =>
    rintro s p base n ws e hop rfl ht h
    refine State.registerCheck_format ht ?_
    rw [regKey, if_pos hop]
    exact h
  case revoke =>
    intro s ring idx w h hc
    rw [exec_revoke h hc]
    exact ⟨fun hst => by rw [if_pos hst], fun hst => by rw [if_neg hst]⟩
  case query =>
    exact fun s ring idx w h => ⟨exec_rmaQuery_ok h, fun st hst hc => exec_rmaQuery_failed h hst hc⟩
  case table =>
    intro s part base n ht hp hb hn h0 hle ho hst
    have hx := exec_rmaSetPart ht hp
    rw [State.rmaSetPart_ok hb hn h0 hle ho hst] at hx
    refine ⟨_, hx, ?_, fun b h1 h2 => ?_, fun b h => ?_, fun key => ?_⟩
    · rw [State.part, State.cmdEnd_parts]
      exact congrArg Part.rmaTable (State.part_setPart (s.zero base (64 * n)) part _)
    · rw [State.byte, State.cmdEnd_hbm]
      exact s.byte_zero h1 h2
    · rw [State.byte, State.cmdEnd_hbm]
      exact s.byte_zero_ne h
    · rw [State.cmdEnd_mlr]
      simp [State.newRmaTable, State.zero, State.setPart, List.mem_filter]
  case regStat =>
    rintro s part key a ht hp rfl
    rw [exec_rmaCmdQuery ht hp, State.rmaQuery]
    exact ⟨fun ha => by rw [ha]; rfl, fun ha => by rw [ha]; rfl⟩

end

section
/-! SUPPORT. An Ethernet port's registers and record after counts, pauses and frames, and what its MAC does with a frame (R174 to R181). -/

namespace Sys2Proof.Machine

section
variable {s : State} {n c : Nat}

/-! ## The record of a port and the registers that decide on it -/

@[simp] theorem State.ept_updEpt (f : EptPort → EptPort) : (s.updEpt n f).ept n = f (s.ept n) := Tab.get_insert_self _ _ _ _

@[simp] theorem State.ept_count (pg : Page) (code k : Nat) : (s.count pg code k).ept n = s.ept n :=
  congrArg (Tab.get EptPort.reset · n) (State.count_epts ..)

/-- The refresh of a port's node is Sluice's own matter (R211). -/
theorem State.ept_refreshPort (port : Nat) : (s.refreshPort port).ept n = s.ept n := by
  have h : sluiceView s (s.refreshPort port) = s := onlySluice_refreshPort port (onlySluice_refl s)
  exact congrArg (Tab.get EptPort.reset · n) (congrArg State.epts h :)

theorem State.eptTake_idle (h : s.swapDue (eptPage n) = false) : s.eptTake n = s := if_neg (by simp [h])

/-- A count on a port's page writes no register that is none of its counters', on whatever page. -/
theorem State.reg_countEpt (q : Page) (code k : Nat) {off : Nat} (hlt : off < 65536) (h : off ∉ ctrRegs) :
    (s.count (eptPage n) code k).reg q off = s.reg q off :=
  State.reg_count_ne _ _ _ _ _ _ rfl fun _ hk => Page.key_ne_off _ _ hlt (ctrRegs_lt hk) fun e => h (e ▸ hk)

theorem State.pauseCycles_countEpt (code k quanta : Nat) :
    (s.count (eptPage n) code k).pauseCycles n quanta = s.pauseCycles n quanta := by
  simp only [State.pauseCycles, State.lineRate, State.eptMode,
    State.reg_countEpt _ code k (by decide : 0x100 < 65536) (by decide : 0x100 ∉ ctrRegs)]

/-! ## A pause that a partner asks for (R177) -/

theorem State.pfcReceive_off {quanta : Nat} (h : (s.reg (eptPage n) 0x100).bit (40 + c) = false) : s.pfcReceive n c quanta = s :=
  if_neg (by simp [h])

theorem State.paused_pfcReceive {quanta : Nat} (h : (s.reg (eptPage n) 0x100).bit (40 + c) = true) :
    Tab.find ((s.pfcReceive n c quanta).ept n).paused c =
      if quanta = 0 then none else some (s.clk.pkt + s.pauseCycles n quanta) := by
  rw [State.pfcReceive, if_pos h, State.ept_refreshPort, State.ept_updEpt]
  dsimp only
  split
  · rw [Tab.find_erase, if_pos rfl]
  · exact Tab.find_insert_self _ _ _

/-! ## Pauses that the port asks for (R177) -/

/-- A class asks for no pause any more. -/
def State.pauseEnds (s : State) (n c : Nat) : State :=
  s.updEpt n (fun x => { x with pausing := x.pausing.filter (fun k => k ≠ c), pauseAt := Tab.erase x.pauseAt c })

/-- A class asks for a pause from now on. -/
def State.pauseBegins (s : State) (n c : Nat) : State :=
  s.updEpt n (fun x => { x with pausing := x.pausing ++ [c], pauseAt := Tab.insert x.pauseAt c s.clk.pkt })

theorem State.not_mem_pausing_pauseEnds : c ∉ ((s.pauseEnds n c).ept n).pausing := by
  simp [State.pauseEnds]

theorem State.mem_pausing_pauseBegins : c ∈ ((s.pauseBegins n c).ept n).pausing := by
  simp [State.pauseBegins]

@[simp] theorem State.ept_pfcSend (quanta : Nat) : (s.pfcSend n c quanta).ept n = s.ept n := State.ept_count _ _ _

/-- The frame of a pause is the last that has gone out. -/
theorem State.out_pfcSend (quanta : Nat) : ∃ o, (s.pfcSend n c quanta).out = o ++ [.pfc n c quanta] := ⟨_, rfl⟩

/-- Where PFC is off, a class ends its pause in silence. -/
theorem State.pfcClass_off (h : (s.reg (eptPage n) 0x100).bit (40 + c) = false) : s.pfcClass n c = s.pauseEnds n c :=
  if_pos (by simp [h])

section
variable (h : (s.reg (eptPage n) 0x100).bit (40 + c) = true)
include h

/-- At XON or below, the pause ends. -/
theorem State.pfcClass_xon (hp : c ∈ (s.ept n).pausing) (hv : Tab.get 0 (s.ept n).ingress c ≤ (s.reg (eptPage n) 0x120).field 31 0) :
    s.pfcClass n c = (s.pauseEnds n c).pfcSend n c 0 :=
  (if_neg (by simp [h])).trans ((if_pos (List.contains_iff_mem.2 hp)).trans (if_pos hv))

/-- Above XOFF, a pause begins. -/
theorem State.pfcClass_xoff (hp : c ∉ (s.ept n).pausing) (hup : (s.ept n).up = true)
    (hv : (s.reg (eptPage n) 0x120).field 63 32 < Tab.get 0 (s.ept n).ingress c) :
    s.pfcClass n c = (s.pauseBegins n c).pfcSend n c 0xFFFF :=
  (if_neg (by simp [h])).trans ((if_neg (by simpa using hp)).trans (if_pos ⟨hup, hv⟩))

end

@[simp] theorem State.pfcClass_pkt : (s.pfcClass n c).pkt = s.pkt := by
  have hend : (s.pauseEnds n c).pkt = s.pkt := rfl
  have hbegin : (s.pauseBegins n c).pkt = s.pkt := rfl
  have hsend (t : State) (quanta : Nat) : (t.pfcSend n c quanta).pkt = t.pkt := State.count_pkt ..
  unfold State.pfcClass
  extract_lets e v off
  split
  · exact hend
  · split
    · split
      · exact (hsend _ _).trans hend
      · rfl
    · split
      · exact (hsend _ _).trans hbegin
      · rfl

/-- The port with other ingress bytes of a class, before its pauses follow. -/
def State.ingressAs (s : State) (n c v : Nat) : State := s.updEpt n (fun e => { e with ingress := Tab.set 0 e.ingress c v })

section
variable {v : Nat}

theorem State.ingress_ingressAs : Tab.get 0 ((s.ingressAs n c v).ept n).ingress c = v := by simp [State.ingressAs]

theorem State.pausing_ingressAs : ((s.ingressAs n c v).ept n).pausing = (s.ept n).pausing := by simp [State.ingressAs]

theorem State.up_ingressAs : ((s.ingressAs n c v).ept n).up = (s.ept n).up := by simp [State.ingressAs]

@[simp] theorem State.ingressSet_pkt : (s.ingressSet n c v).pkt = s.pkt := State.pfcClass_pkt

theorem State.ingressSet_off (h : (s.reg (eptPage n) 0x100).bit (40 + c) = false) :
    s.ingressSet n c v = (s.ingressAs n c v).pauseEnds n c := State.pfcClass_off h

theorem State.ingressSet_xon (h : (s.reg (eptPage n) 0x100).bit (40 + c) = true) (hp : c ∈ (s.ept n).pausing)
    (hv : v ≤ (s.reg (eptPage n) 0x120).field 31 0) :
    s.ingressSet n c v = ((s.ingressAs n c v).pauseEnds n c).pfcSend n c 0 :=
  State.pfcClass_xon (s := s.ingressAs n c v) h (by rwa [State.pausing_ingressAs]) (by rwa [State.ingress_ingressAs])

theorem State.ingressSet_xoff (h : (s.reg (eptPage n) 0x100).bit (40 + c) = true) (hp : c ∉ (s.ept n).pausing)
    (hup : (s.ept n).up = true) (hv : (s.reg (eptPage n) 0x120).field 63 32 < v) :
    s.ingressSet n c v = ((s.ingressAs n c v).pauseBegins n c).pfcSend n c 0xFFFF :=
  State.pfcClass_xoff (s := s.ingressAs n c v) h (by rwa [State.pausing_ingressAs]) (by rwa [State.up_ingressAs])
    (by rwa [State.ingress_ingressAs])

end

/-- A pause that still holds the class above XON is sent again once its time has come (R177). -/
theorem exec_pfcRepeat_due (hs : s.flt.safe = false) (h : (s.reg (eptPage n) 0x100).bit (40 + c) = true)
    (hp : c ∈ (s.ept n).pausing) (ht : Tab.get 0 (s.ept n).pauseAt c + 32768 ≤ s.clk.pkt)
    (hv : (s.reg (eptPage n) 0x120).field 31 0 < Tab.get 0 (s.ept n).ingress c) :
    exec (.pfcRepeat n c) s =
      .next ((s.updEpt n (fun x => { x with pauseAt := Tab.insert x.pauseAt c s.clk.pkt })).pfcSend n c 0xFFFF) :=
  congrArg Host.Outcome.next (if_pos (by simp [hs, h, hp, ht, hv]))

/-! ## What the MAC does with a frame (R176, R180) -/

variable {d : List Byte}

theorem State.frameAtMac_badFcs : s.frameAtMac n d false = s.count (eptPage n) 3 1 := by
  rw [State.frameAtMac, if_pos Bool.not_false]

theorem State.frameAtMac_badSize (h : d.length + 4 < 64 ∨ (s.reg (eptPage n) 0x100).field 13 0 < d.length + 4) :
    s.frameAtMac n d true = s.count (eptPage n) 4 1 := by
  rw [State.frameAtMac, if_neg (by simp), if_pos h]

section
variable (hmin : 64 ≤ d.length + 4) (hmax : d.length + 4 ≤ (s.reg (eptPage n) 0x100).field 13 0)
include hmin hmax

/-- A frame of an allowed size: MAC control, or one that the address filter decides on. -/
theorem State.frameAtMac_sized : s.frameAtMac n d true = if beAt d 12 2 = 0x8808 then s.macControl n d
    else if !s.macPasses n d then s.count (eptPage n) 5 1 else s.frameAccept n d := by
  rw [State.frameAtMac, if_neg (by simp), if_neg (by omega)]

theorem State.frameAtMac_otherControl (ht : beAt d 12 2 = 0x8808) (ho : beAt d 14 2 ≠ 0x0101) :
    s.frameAtMac n d true = s.count (eptPage n) 0xA 1 := by
  rw [State.frameAtMac_sized hmin hmax, if_pos ht]
  exact if_neg ho

theorem State.frameAtMac_filtered (ht : beAt d 12 2 ≠ 0x8808) (hp : s.macPasses n d = false) :
    s.frameAtMac n d true = s.count (eptPage n) 5 1 := by
  rw [State.frameAtMac_sized hmin hmax, if_neg ht, if_pos (by simp [hp])]

theorem State.frameAtMac_accepted (ht : beAt d 12 2 ≠ 0x8808) (hp : s.macPasses n d = true) :
    s.frameAtMac n d true = s.frameAccept n d := by
  rw [State.frameAtMac_sized hmin hmax, if_neg ht, if_neg (by simp [hp])]

end

theorem State.macPasses_iff : s.macPasses n d = true ↔ (s.reg (eptPage n) 0x100).bit 59 = true ∨
    beAt d 0 6 = (s.reg (eptPage n) 0x108).field 47 0 ∨ beAt d 0 1 % 2 = 1 := by
  simp [State.macPasses, or_assoc]

/-- An accepted frame as it enters its pipeline: stamped on arrival, of no version yet, before its first pass (R179, R180). -/
def State.frameIn (s : State) (n : Nat) (d : List Byte) : Frame :=
  { ept := n, cls := s.frameClass n d, data := d, stamp := s.stamp n, hash := s.frameHash n d, version := none, pass := 0, node := 0,
    gen := 0 }

/-- With no room in the ingress buffer, the frame is counted as received and as dropped. -/
theorem State.frameAccept_full (h : Config.ingressBytes < s.ingressAll n + (d.length + 4)) :
    s.frameAccept n d = (s.count (eptPage n) 1 1).count (eptPage n) 0xC 1 := if_pos (by simp [h])

/-- With room, the frame joins the new frames of the pipeline that its hash names. -/
theorem State.newQ_frameAccept (hd : s.dataHeld = false) (h : s.ingressAll n + (d.length + 4) ≤ Config.ingressBytes) :
    (s.frameAccept n d).pkt.newQ = Tab.insert s.pkt.newQ (s.frameHash n d % 6)
      (Tab.get [] s.pkt.newQ (s.frameHash n d % 6) ++ [s.frameIn n d]) := by
  rw [State.frameAccept, if_neg (by simp [hd, Nat.not_lt.2 h])]
  simp only [State.ingressSet_pkt, State.count_pkt]
  rfl

/-! ## The commands of a port that is up, and a link that comes up -/

section
variable (hup : (s.ept n).up = true) (hs : s.flt.safe = false) (hq : s.swapDue (eptPage n) = false)
include hup hs hq

theorem exec_frameReceive_up (fcsOk : Bool) : exec (.frameReceive n d fcsOk) s = .next (s.frameAtMac n d fcsOk) := by
  show Host.Outcome.next (s.frameReceive n d fcsOk) = _
  rw [State.frameReceive, State.eptTake_idle hq, if_neg (by simp [hup, hs])]

theorem exec_pfcReceive_up (quanta : Nat) :
    exec (.pfcReceive n c quanta) s = .next ((s.count (eptPage n) 8 1).pfcReceive n c quanta) := by
  show execPfcReceive n c quanta s = _
  rw [execPfcReceive, State.eptTake_idle hq, if_pos (by simp [hup, hs])]

end

theorem exec_linkUp_trained (he : (s.reg (eptPage n) 0x100).bit 63 = true) (hp : s.eptPresent n = true) (hup : (s.ept n).up = false)
    (hs : s.flt.safe = false) : exec (.linkUp n) s = .next ((List.range 8).foldl (fun t c => t.pfcClass n c)
      ((s.updEpt n (fun e => { e with up := true })).setIntBit (eptPage n) 8)) :=
  congrArg Host.Outcome.next (if_pos (by simp [he, hp, hup, hs]))

theorem exec_linkUp_absent (hp : s.eptPresent n = false) : exec (.linkUp n) s = .next s :=
  congrArg Host.Outcome.next (if_neg (by simp [hp]))

end

end Sys2Proof.Machine
end

section
open Sys2Proof Sys2Proof.Machine

/-- Settles O29. A frame stops at the first check of the MAC that it fails, or joins the pipeline of its hash; a pause is honoured, begun,
repeated or ended as PFC_EN, XOFF and XON have it. -/
theorem framesAndPauses : Obligations.FramesAndPauses := by
  unfold Obligations.FramesAndPauses
  refine ⟨?dropped, ?accepted, ?honoured, ?repeated, ?paused, ?silent, fun s n he hp hup hs => exec_linkUp_trained he hp hup hs,
    fun s n hp => exec_linkUp_absent hp⟩
  case dropped =>
    intro s n d hup hs hq
    simp only [exec_frameReceive_up hup hs hq]
    refine ⟨congrArg _ State.frameAtMac_badFcs, fun h => congrArg _ (State.frameAtMac_badSize h),
      fun hmin hmax ht ho => congrArg _ (State.frameAtMac_otherControl hmin hmax ht ho), fun hmin hmax ht hprom hown hgroup => ?_⟩
    have hp : s.macPasses n d = false := by
      rw [← Bool.not_eq_true, State.macPasses_iff]
      simp [hprom, hown, hgroup]
    exact congrArg _ (State.frameAtMac_filtered hmin hmax ht hp)
  case accepted =>
    rintro s n q d hup hs hq hmin hmax ht hp hd rfl
    refine ⟨_, exec_frameReceive_up hup hs hq true, ?_⟩
    rw [State.frameAtMac_accepted hmin hmax ht (State.macPasses_iff.2 hp)]
    split
    next h =>
      rw [State.newQ_frameAccept hd h]
      exact ⟨s.frameIn n d, Tab.get_insert_self _ _ _ _, rfl, rfl, rfl, rfl, rfl, rfl, fun k hk => Tab.get_insert_ne _ _ _ _ _ hk⟩
    next h => exact State.frameAccept_full (Nat.not_le.1 h)
  case honoured =>
    intro s n c quanta hup hs hq _
    have hx := exec_pfcReceive_up (c := c) hup hs hq quanta
    have hreg : (s.count (eptPage n) 8 1).reg (eptPage n) 0x100 = s.reg (eptPage n) 0x100 :=
      State.reg_countEpt _ _ _ (by decide) (by decide)
    refine ⟨fun h => ?_, fun h => ⟨_, hx, ?_⟩⟩
    · rw [hx, State.pfcReceive_off (by rwa [hreg])]
    · show Tab.find _ c = _
      rw [State.paused_pfcReceive (by rwa [hreg]), State.count_clk, State.pauseCycles_countEpt]
  case repeated =>
    intro s n c hs h hp ht hv
    refine ⟨_, exec_pfcRepeat_due hs h hp ht hv, State.out_pfcSend _, ?_⟩
    rw [State.ept_pfcSend, State.ept_updEpt]
    exact Tab.get_insert_self _ _ _ _
  case paused =>
    refine fun s n c v h => ⟨fun hp hv => ?_, fun hp hup hv => ?_⟩
    · rw [State.ingressSet_xon h hp hv, State.ept_pfcSend]
      exact ⟨State.not_mem_pausing_pauseEnds, State.out_pfcSend _⟩
    · rw [State.ingressSet_xoff h hp hup hv, State.ept_pfcSend]
      exact ⟨State.mem_pausing_pauseBegins, State.out_pfcSend _⟩
  case silent =>
    intro s n c v h
    rw [State.ingressSet_off h]
    exact ⟨State.not_mem_pausing_pauseEnds, rfl⟩

end

section
/-! SUPPORT. Passes of the packet graph: which frame a pipeline takes, how a walk ends, what a lookup finds and what an action does
(R183 to R193, R199); and the slots of the rule set as versions retire (R194 to R198). -/

namespace Sys2Proof.Machine

section
variable {s : State} {pipe : Nat}

/-! ## The start of a pass (R181, R183, R195, R199) -/

section
variable (hr : s.pktRuns = true) (ho : (s.gate (14 + pipe)).isOpen = true)
include hr ho

theorem exec_passStart_runs : exec (.passStart pipe) s = .next (s.passStart pipe) :=
  congrArg Host.Outcome.next (if_pos (by simp [hr, State.clusterStopped_eq, ho]))

theorem exec_recircPass_runs : exec (.recircPass pipe) s = .next (s.recircPass pipe) :=
  congrArg Host.Outcome.next (if_pos (by simp [hr, State.clusterStopped_eq, ho]))

end

/-- Pipelines that take no work, and one whose cluster is stopped, start no pass. -/
theorem exec_pass_stopped (h : s.pktRuns = false ∨ (s.gate (14 + pipe)).isOpen = false) :
    exec (.passStart pipe) s = .next s ∧ exec (.recircPass pipe) s = .next s := by
  have hc : ¬ (s.pktRuns && !s.clusterStopped (14 + pipe)) = true := by
    rcases h with h | h <;> simp [State.clusterStopped_eq, h]
  exact ⟨congrArg Host.Outcome.next (if_neg hc), congrArg Host.Outcome.next (if_neg hc)⟩

section
variable {f : Frame} {rest : List Frame}

theorem State.recircPass_cons (h : Tab.get [] s.pkt.recQ pipe = f :: rest) :
    s.recircPass pipe = (({ s with pkt := { s.pkt with recQ := Tab.set [] s.pkt.recQ pipe rest } } : State).count1 .pkt 2).runPass
      f pipe := by
  rw [State.recircPass, h]

/-- Recirculated frames go first. -/
theorem State.passStart_recirc (h : Tab.get [] s.pkt.recQ pipe = f :: rest) : s.passStart pipe = s.recircPass pipe := by
  rw [State.passStart, h]

/-- A new frame leaves its port's ingress buffer and takes the CURRENT version. -/
theorem State.passStart_new {s2 : State} {n : Nat} {x : RuleSlot} (hrec : Tab.get [] s.pkt.recQ pipe = [])
    (hnew : Tab.get [] s.pkt.newQ pipe = f :: rest)
    (hs2 : s2 = ({ s with pkt := { s.pkt with newQ := Tab.set [] s.pkt.newQ pipe rest } } : State).ingressSet f.ept f.cls
      (Tab.get 0 (s.ept f.ept).ingress f.cls - (f.data.length + 4))) (hcur : s2.slotIn .current = some (n, x)) :
    s.passStart pipe = (s2.setSlot n { x with refs := x.refs + 1 }).runPass
      { f with version := some x.version, node := x.graph.start, gen := s.applied pktPage } pipe := by
  subst hs2
  rw [State.passStart, hrec, hnew]
  dsimp only
  rw [show Tab.get 0 (({ s with pkt := { s.pkt with newQ := Tab.set [] s.pkt.newQ pipe rest } } : State).ept f.ept).ingress f.cls =
    Tab.get 0 (s.ept f.ept).ingress f.cls from rfl, hcur]

end

/-! ## How a walk ends (R183, R184) -/

theorem Graph.walk_layers (g : Graph) (hu ht : Nat → Nat → Bool) (d : List Byte) (n pos : Nat) (w : Walk) :
    (g.walk hu ht d n pos 0 w).result = .odd .layers := rfl

/-- Word 0 of the one node that the graph at reset holds. -/
def resetNode : Word := 0x01800E0000000000

theorem resetNode_fields : resetNode.field 63 56 = 1 ∧ resetNode.bit 39 = false ∧ resetNode.bit 55 = true ∧
    resetNode.field 47 40 = 14 ∧ resetNode.field 54 51 = 0 := by decide

/-- The graph at reset is one END node of an Ethernet header of 14 bytes, with profile 0. -/
theorem Graph.walk_reset (hu ht : Nat → Nat → Bool) (d : List Byte) (w : Walk) (h : w.seen = []) :
    (14 ≤ d.length → (Graph.reset.walk hu ht d 0 0 16 w).result = .profile 0) ∧
    (d.length < 14 → (Graph.reset.walk hu ht d 0 0 16 w).result = .odd .trunc) := by
  have hnode : Graph.reset.node 0 = [resetNode, 0, 0, 0] := rfl
  obtain ⟨hkind, hlong, hend, hlen, hprofile⟩ := resetNode_fields
  have hout : extractOut d 0 0#64 = false := rfl
  have hcheck : kindCheck 1 d 0 = none := rfl
  have hplain : plainStack [] = none := rfl
  rw [Graph.walk]
  constructor <;> intro hd
  · simp [hnode, wordAt, hkind, hlong, hend, hlen, hprofile, hout, h, hcheck, hplain, Nat.not_lt.2 hd]
  · simp [hnode, wordAt, hkind, hlong, hlen, h, hd]

section
variable {f : Frame} {n : Nat} {w : Walk} (hv : f.version.bind s.slotOf = some n)
  (hw : w = (s.slot n).graph.walk (s.handUdp f.data) (s.handTcp f.data) f.data f.node 0 16
    { fv := List.replicate 64 0, outer := none, seen := [], result := .odd .layers })
include hv hw

theorem State.runPass_profile {p : Nat} (h : w.result = .profile p) :
    s.runPass f pipe = (s.count1 .pkt 1).classify (s.slot n).graph p f w w.fv 0 pipe := by
  subst hw
  simp only [State.runPass, hv, h]

theorem State.runPass_udp {ip a : Nat} (h : w.result = .udp ip a) :
    s.runPass f pipe = ((s.count1 .pkt 1).toMillrace f.data ip a).refDrop f.version := by
  subst hw
  simp only [State.runPass, hv, h]

/-- While the page drops odd frames, one is counted and gone. -/
theorem State.runPass_oddDropped {r : Odd} (h : w.result = .odd r) (hd : (s.regFor pktPage f.gen 0x100).bit 0 = true) :
    s.runPass f pipe = ((s.count1 .pkt 1).count1 .pkt 3).refDrop f.version := by
  subst hw
  simp only [State.runPass, hv, h, hd, if_true]

end

/-! ## Lookup (R187 to R189, R197) -/

theorem State.visible_iff (c : Word) (v : Nat) : s.visible c v = true ↔ c.bit 63 = true ∧
    (c.bit 62 = true → s.inWindow (c.field 47 32) = true → s.dVer (c.field 47 32) ≤ s.dVer v) ∧
    (c.bit 61 = true → s.inWindow (c.field 31 16) = true ∧ s.dVer v < s.dVer (c.field 31 16)) := by
  have hfrom (a b : Bool) (p : Prop) [Decidable p] : (!a || !b || decide p) = true ↔ (a = true → b = true → p) := by
    cases a <;> cases b <;> simp
  have hto (a b : Bool) (p : Prop) [Decidable p] : (!a || (b && decide p)) = true ↔ (a = true → b = true ∧ p) := by
    cases a <;> simp
  rw [State.visible, Bool.and_eq_true, Bool.and_eq_true, hfrom, hto, and_assoc]

section
variable {g : Graph} {p ept v : Nat} {fv : List Byte} {pf : List Word} (hpf : pf = g.profile p) (hport : (wordAt pf 0).bit 31 = false)
include hpf hport

theorem State.pktLookup_exact {a : Nat} (he : (wordAt pf 0).bit 30 = true) (hb : s.bucketBad (lookupKey pf fv) p 0 = false)
    (ha : s.exactFind (lookupKey pf fv) p 0 v = some a) :
    s.pktLookup g p ept v fv = (some (s.word (a + 40), s.word (a + 48)), s.count1 .pkt 4) := by
  subst hpf
  simp [State.pktLookup, hport, he, hb, ha]

theorem State.pktLookup_poisoned (he : (wordAt pf 0).bit 30 = true) (hb : s.bucketBad (lookupKey pf fv) p 0 = true) :
    s.pktLookup g p ept v fv = (none, (s.count1 .pkt 8).err .pkt 2) := by
  subst hpf
  simp [State.pktLookup, hport, he, hb]

theorem State.pktLookup_wild {e : List Word} (he : (wordAt pf 0).bit 30 = false) (hwild : (wordAt pf 0).bit 29 = true)
    (ha : s.wildFind (lookupKey pf fv) p 0 v = some e) :
    s.pktLookup g p ept v fv = (some (wordAt e 10, wordAt e 11), s.count1 .pkt 5) := by
  subst hpf
  simp [State.pktLookup, hport, he, hwild, ha]

theorem State.pktLookup_miss (he : (wordAt pf 0).bit 30 = false) (hwild : (wordAt pf 0).bit 29 = false) :
    s.pktLookup g p ept v fv = (some (wordAt pf 2, wordAt pf 3), s.count1 .pkt 6) := by
  subst hpf
  simp [State.pktLookup, he, hwild]

end

section
variable {t : State} {g : Graph} {p odd : Nat} {f : Frame} {w : Walk} {fv : List Byte}

theorem State.classify_found {a b : Word} (h : s.pktLookup g p f.ept (f.version.getD 0) fv = (some (a, b), t)) :
    s.classify g p f w fv odd pipe = t.applyAction f w odd a b pipe := by
  rw [State.classify, h]

theorem State.classify_poisoned (h : s.pktLookup g p f.ept (f.version.getD 0) fv = (none, t)) :
    s.classify g p f w fv odd pipe = t.refDrop f.version := by
  rw [State.classify, h]

end

/-! ## Actions (R190 to R192, R199) -/

theorem Edit.tagOp_none (e : Edit) {b : Word} (h : b.field 63 62 = 0) : e.tagOp b = e := by
  simp only [Edit.tagOp, h]

theorem State.meterApply_none {a : Word} (e : Edit) (h : a.bit 36 = false) : s.meterApply a e = (some e, s) :=
  if_neg (by simp [h])

theorem decapBytes_untagged (seen : List (Nat × Nat × Nat)) (n before after : Nat) {b : Word} (h : b.field 63 62 = 0) :
    decapBytes seen n before after b = ((seen.take n).map (fun x => x.2.2)).sum := by
  simp [decapBytes, h]

/-- A frame that its action sends round again: without its first headers, at the action's node, in its next pass (R199). -/
def Frame.again (f : Frame) (w : Walk) (a : Word) : Frame :=
  { f with data := f.data.drop ((w.seen.take (a.field 55 52)).map (fun x => x.2.2)).sum, pass := f.pass + 1, node := a.field 51 44 }

section
variable {f : Frame} {w : Walk} {odd : Nat} {a b : Word}

theorem State.applyAction_refused (hok : s.actionOk a f.hash w.seen.length = false) :
    s.applyAction f w odd a b pipe = (s.count1 .pkt 9).refDrop f.version :=
  if_pos (by simp [hok])

/-- What the verdict of an action does with a frame that its action has not rewritten. -/
def State.verdict (s : State) (f : Frame) (w : Walk) (odd : Nat) (a b : Word) (pipe : Nat) : State :=
  match a.field 63 61 with
  | 1 => (s.offer (a.field 60 44) (max 64 (f.data.length + 4)) (.frame 0 f.data)).refDrop f.version
  | 2 => (s.pktDeliver (deliverTarget a f.hash) f f.data odd (b.field 31 0)).refDrop f.version
  | 3 =>
    if 4 ≤ f.pass then (s.count1 .pkt 0xB).refDrop f.version
    else { s with pkt := { s.pkt with recQ := Tab.insert s.pkt.recQ pipe (Tab.get [] s.pkt.recQ pipe ++ [f.again w a]) } }
  | _ => (s.count1 .pkt 8).refDrop f.version

/-- An action without meter, mirror or rewriting is its verdict on the frame as it came. -/
theorem State.applyAction_plain (hok : s.actionOk a f.hash w.seen.length = true) (hmeter : a.bit 36 = false)
    (hmirror : a.bit 20 = false) (hdscp : b.bit 45 = false) (htag : b.field 63 62 = 0) :
    s.applyAction f w odd a b pipe = s.verdict f w odd a b pipe := by
  simp only [State.applyAction, hok, hmirror, hdscp, Edit.tagOp_none _ htag, State.meterApply_none _ hmeter,
    decapBytes_untagged _ _ _ _ htag, Bool.not_true, Bool.false_eq_true, if_false]
  rfl

end

/-! ## Slots and sweeps (R194 to R198) -/

theorem State.slot_setSlot (n : Nat) (x : RuleSlot) : (s.setSlot n x).slot n = x := Tab.get_set_self _ _ _ _

theorem State.slot_setSlot_ne {n m : Nat} (x : RuleSlot) (h : m ≠ n) : (s.setSlot n x).slot m = s.slot m := Tab.get_set_ne _ _ _ _ _ h

/-- A slot that becomes FREE leaves the others, reports it and asks for a sweep. -/
theorem State.slotFree_leaves (n : Nat) : (s.slotFree n).slot n = RuleSlot.free ∧ ((s.slotFree n).reg pktPage 0x30).bit 9 = true ∧
    (s.slotFree n).pkt.sweeps = s.pkt.sweeps + 1 ∧ ∀ m, m ≠ n → (s.slotFree n).slot m = s.slot m := by
  have hpkt : ((s.setSlot n RuleSlot.free).setIntBit pktPage 9).pkt = (s.setSlot n RuleSlot.free).pkt := State.setIntBit_pkt ..
  have hslot (m : Nat) : (s.slotFree n).slot m = (s.setSlot n RuleSlot.free).slot m :=
    congrArg (Tab.get RuleSlot.free · m) (congrArg Pkt.slots hpkt :)
  exact ⟨(hslot n).trans (State.slot_setSlot n _), State.bit_setIntBit _ _ (by decide : (0 : Nat) < 65536) (by decide),
    congrArg (· + 1) (congrArg Pkt.sweeps hpkt :), fun m hm => (hslot m).trans (State.slot_setSlot_ne _ hm)⟩

theorem exec_slotRetire_drained {n : Nat} (hst : (s.slot n).state = .draining) (h0 : (s.slot n).refs = 0)
    (hold : ∀ e, e ∈ s.pkt.slots → e.2.state ≠ .free → s.behind e.2.version ≤ s.behind (s.slot n).version) :
    exec (.slotRetire n) s = .next (s.slotFree n) := by
  have hnone : (s.pkt.slots.any fun e =>
      decide (e.2.state ≠ .free) && decide (s.behind (s.slot n).version < s.behind e.2.version)) = false := by
    rw [List.any_eq_false]
    intro e he
    have := hold e he
    simpa using this
  exact congrArg Host.Outcome.next (if_pos (by rw [hnone]; simp [hst, h0]))

theorem exec_slotRetire_waits {n : Nat} (h : (s.slot n).state ≠ .draining ∨ (s.slot n).refs ≠ 0) : exec (.slotRetire n) s = .next s :=
  congrArg Host.Outcome.next (if_neg (by rcases h with h | h <;> simp [h]))

/-- The state whose tables a sweep has gone through. -/
def State.swept (s : State) : State :=
  let s1 := s.mapControls (fun c => if c.bit 63 then s.sweepWord c else c)
  { s1 with pkt := { s1.pkt with sweeps := 0 } }

theorem exec_sweepDone_due (h : s.pkt.sweeps ≠ 0) : exec .sweepDone s = .next (s.swept.setIntBit pktPage 10) :=
  congrArg Host.Outcome.next (if_neg h)

/-- A sweep clears VALID of an entry that no live version sees. -/
theorem State.sweepWord_unseen {c : Word} (h : ∀ e, e ∈ s.pkt.slots → e.2.state ≠ .free → s.visible c e.2.version = false) :
    (s.sweepWord c).bit 63 = false := by
  have hseen : (s.pkt.slots.any fun e => decide (e.2.state ≠ .free) && s.visible c e.2.version) = false := by
    rw [List.any_eq_false]
    intro e he
    have := h e he
    simpa using this
  rw [State.sweepWord, hseen]
  exact Word.bit_setBit _ _ _ (by decide)

/-- A sweep clears the lower bound of an entry whose version has left the window. -/
theorem State.sweepWord_unbounded {c : Word} (hb : c.bit 62 = true) (hw : s.inWindow (c.field 47 32) = false) :
    (s.sweepWord c).bit 62 = false := by
  have hcond : (c.bit 62 && !s.inWindow (c.field 47 32)) = true := by simp [hb, hw]
  rw [State.sweepWord, if_pos hcond]
  split
  · exact Word.bit_setBit _ _ _ (by decide)
  · rw [Word.bit_setBit_ne _ _ _ _ (by decide) (by decide)]
    exact Word.bit_setBit _ _ _ (by decide)

end

end Sys2Proof.Machine
end

section
open Sys2Proof Sys2Proof.Machine

/-- Settles O30. A pipeline takes a recirculated frame before a new one; the walk's end, the lookup and the action decide what becomes of
it; and a slot's retirement and a sweep are read off slot by slot and bit by bit. -/
theorem passesAndVersions : Obligations.PassesAndVersions := by
  unfold Obligations.PassesAndVersions
  refine ⟨?fresh, ?recirculated, fun s pipe h => exec_pass_stopped h, ?pass, Graph.walk_reset, Graph.walk_layers,
    fun s t g p odd pipe f w fv => ⟨fun a b h => State.classify_found h, State.classify_poisoned⟩, fun s => State.visible_iff,
    ?lookup, ?verdict, fun s f w odd pipe a b h => State.applyAction_refused h, ?retire, fun s n h => exec_slotRetire_waits h, ?sweep,
    fun s c h => State.sweepWord_unseen h, fun s c hb hw => State.sweepWord_unbounded hb hw⟩
  case fresh =>
    intro s s2 pipe n f rest x hr ho hrec hnew hs2 hcur
    rw [exec_passStart_runs hr ho, State.passStart_new hrec hnew hs2 hcur]
  case recirculated =>
    intro s pipe f rest hr ho h
    rw [exec_passStart_runs hr ho, exec_recircPass_runs hr ho, State.passStart_recirc h, State.recircPass_cons h]
    exact ⟨rfl, rfl⟩
  case pass =>
    exact fun s f pipe n w hv hw => ⟨fun p h => State.runPass_profile hv hw h, fun ip a h => State.runPass_udp hv hw h,
      fun r h hd => State.runPass_oddDropped hv hw h hd⟩
  case lookup =>
    exact fun s g p ept v fv pf hpf hport => ⟨fun a he hb ha => State.pktLookup_exact hpf hport he hb ha,
      fun he hb => State.pktLookup_poisoned hpf hport he hb, fun e he hwild ha => State.pktLookup_wild hpf hport he hwild ha,
      fun he hwild => State.pktLookup_miss hpf hport he hwild⟩
  case verdict =>
    intro s f w odd pipe a b hok hmeter hmirror hdscp htag
    rw [State.applyAction_plain hok hmeter hmirror hdscp htag]
    refine ⟨fun hv => ?_, fun hv => ?_, fun hv => ?_, fun hv hp => ?_, fun hv hp => ⟨f.again w a, ?_, rfl, rfl, rfl, rfl, rfl⟩⟩
    · simp only [State.verdict, hv]
    · simp only [State.verdict, hv]
    · simp only [State.verdict, hv, deliverTarget]
    · simp only [State.verdict, hv, if_pos hp]
    · simp only [State.verdict, hv, if_neg (Nat.not_le.2 hp), Tab.get_insert_self]
  case retire =>
    exact fun s n hst h0 hold => ⟨_, exec_slotRetire_drained hst h0 hold, State.slotFree_leaves n⟩
  case sweep =>
    intro s h
    refine ⟨_, exec_sweepDone_due h, ?_, State.bit_setIntBit _ _ (by decide : (0 : Nat) < 65536) (by decide)⟩
    rw [State.setIntBit_pkt]
    rfl

end

section
/-! SUPPORT. The commands of the PKT page whose image in HBM lies on a line with a lasting fault (R200, R469). -/

namespace Sys2Proof.Machine

/-- The checks of CMD_ADDR end with poisoned memory. -/
theorem State.pktAddrCheck_poisoned {s : State} {n : Nat} (ha : s.pktAddr % 64 = 0) (ho : s.ownsHbm 0 s.pktAddr n = true)
    (hb : (s.firstBad s.pktAddr n).isSome = true) : firstFail (s.pktAddrCheck n) = .poisoned := by
  simp [State.pktAddrCheck, firstFail, ha, ho, hb]

theorem State.rxtSetup_poisoned {s : State} (hi : s.pktArg.field 15 0 ≤ 4095) (ha : s.pktAddr % 64 = 0)
    (ho : s.ownsHbm 0 s.pktAddr 16 = true) (hb : (s.firstBad s.pktAddr 16).isSome = true) : s.rxtSetup = (.poisoned, s) := by
  have hcheck : firstFail ((decide (4095 < s.pktArg.field 15 0), .format) :: s.pktAddrCheck 16) = .poisoned := by
    rw [firstFail, if_neg (by simpa using hi), State.pktAddrCheck_poisoned ha ho hb]
  rw [State.rxtSetup, hcheck]
  rfl

theorem exec_rxtSetup {s : State} (h : Taken s .pkt) :
    exec .rxtSetup s = .next (s.rxtSetup.2.cmdEnd .pkt 10 0 s.rxtSetup.1) := by
  have hop : (pktWord 10).field 31 24 = 10 := by decide
  refine congrArg Host.Outcome.next ((State.takeCmd_taken _ pktRun h).trans ?_)
  simp only [pktRun, hop]

/-- The end of a command of the PKT page names its status. -/
theorem State.status_cmdEnd_pkt (s : State) (op obj : Nat) (st : Status) :
    ((s.cmdEnd .pkt op obj st).reg Blk.pkt.page (cmdStatOff .pkt)).field 55 48 = st.code := by
  rw [State.reg_cmdEnd_stat]
  simp [cmdStatWord, seqBits, Nat.mod_eq_of_lt (Status.code_lt st)]

/-- The gate of the PKT page's cluster is open and line 0 of HBM has a lasting fault; the rest is as after reset, with CMD_ADDR and
CMD_ARG at 0. -/
def faultAtCmdAddr : State :=
  ({ State.reset with badLines := [0] } : State).setGate 14 { Gate.reset with isOpen := true }

theorem faultAtCmdAddr_taken : Taken faultAtCmdAddr .pkt := by
  refine ⟨fun h => absurd h (by decide), ?_, by decide, fun h => absurd h (by decide), by decide⟩
  intro c hc
  obtain rfl : 14 = c := Option.some.inj hc
  decide

theorem faultAtCmdAddr_owned : faultAtCmdAddr.ownsHbm 0 faultAtCmdAddr.pktAddr 16 = true := by decide

theorem faultAtCmdAddr_bad : (faultAtCmdAddr.firstBad faultAtCmdAddr.pktAddr 16).isSome = true := by decide

/-- The image of a receive target that lies there is all zero: its buffer size is out of range (R192). -/
theorem faultAtCmdAddr_image : (faultAtCmdAddr.word faultAtCmdAddr.pktAddr).field 11 8 < 11 := by decide

end Sys2Proof.Machine
end

section
open Sys2Proof Sys2Proof.Machine

/-- Refutes O31: RXT_SETUP of an image whose line has a lasting fault ends with POISONED (R469) before the image is looked at; the
statement, which leaves poisoned memory out of this and of four more commands, says that it ends with FORMAT. -/
theorem not_ruleSetCommands : ¬ Obligations.RuleSetCommands := by
  unfold Obligations.RuleSetCommands
  rintro ⟨-, -, -, -, -, -, -, -, -, -, -, -, hsetup, -⟩
  obtain ⟨-, hformat⟩ := hsetup faultAtCmdAddr 0 _ faultAtCmdAddr_taken (by decide) (by decide) (by decide) faultAtCmdAddr_owned rfl
  have hend := hformat (.inl faultAtCmdAddr_image)
  rw [exec_rxtSetup faultAtCmdAddr_taken, State.rxtSetup_poisoned (by decide) (by decide) faultAtCmdAddr_owned faultAtCmdAddr_bad] at hend
  have hstat := congrArg (fun t : State => (t.reg Blk.pkt.page (cmdStatOff .pkt)).field 55 48) (Host.Outcome.next.inj hend)
  simp only [State.status_cmdEnd_pkt] at hstat
  exact absurd hstat (by decide)

end

section
/-! SUPPORT. Sluice's tree: leaves and partition nodes read back after a write, and what the refresh of a port, the moves of its pointers and
the frames that have left leave of them (R201 to R211). -/

namespace Sys2Proof.Machine

section
variable {s t u : State}

/-! ## Reading back -/

@[simp] theorem State.leaf_setLeaf (l : Nat) (x : Leaf) : (s.setLeaf l x).leaf l = x := Tab.get_set_self _ _ _ _

theorem State.leaf_setLeaf_ne {l k : Nat} (x : Leaf) (h : k ≠ l) : (s.setLeaf l x).leaf k = s.leaf k :=
  Tab.get_set_ne _ _ _ _ _ h

@[simp] theorem State.leaf_updPnode (k l : Nat) (f : PNode → PNode) : (s.updPnode k f).leaf l = s.leaf l := rfl

@[simp] theorem State.pnode_setLeaf (k l : Nat) (x : Leaf) : (s.setLeaf l x).pnode k = s.pnode k := rfl

theorem State.pnode_updPnode (k j : Nat) (f : PNode → PNode) :
    (s.updPnode k f).pnode j = if j = k then (s.pnode k).map f else s.pnode j := Tab.find_upd _ _ _ _

theorem State.pnode_updPnode_some {k : Nat} {x : PNode} (f : PNode → PNode) (h : s.pnode k = some x) :
    (s.updPnode k f).pnode k = some (f x) := by
  rw [State.pnode_updPnode, if_pos rfl, h, Option.map_some]

@[simp] theorem State.meter_setMeter (m : Nat) (x : Meter) : (s.setMeter m x).meter m = x := Tab.get_set_self _ _ _ _

theorem State.meter_setMeter_ne {m k : Nat} (x : Meter) (h : k ≠ m) : (s.setMeter m x).meter k = s.meter k :=
  Tab.get_set_ne _ _ _ _ _ h

/-! ## What only scheduling changes -/

/-- The tree is as it was but for where its round robins stand and for the DEFICITs: every leaf has its settings, frames and marks, and
every partition node its settings and buckets. -/
structure TreeKept (s t : State) : Prop where
  leaf : ∀ l, ∃ d, t.leaf l = { s.leaf l with deficit := d }
  node : ∀ k x, s.pnode k = some x → ∃ r d, t.pnode k = some { x.setRr r with deficit := d }

theorem TreeKept.of_sch (h : t.sch = s.sch) : TreeKept s t := by
  refine ⟨fun l => ⟨(s.leaf l).deficit, ?_⟩, fun k x hx => ⟨x.rr, x.deficit, ?_⟩⟩
  · rw [State.leaf, h]
    rfl
  · rw [State.pnode, h]
    exact hx

theorem TreeKept.refl (s : State) : TreeKept s s := .of_sch rfl

theorem TreeKept.trans (h1 : TreeKept s t) (h2 : TreeKept t u) : TreeKept s u := by
  refine ⟨fun l => ?_, fun k x hx => ?_⟩
  · obtain ⟨_, h⟩ := h1.leaf l
    obtain ⟨d, h'⟩ := h2.leaf l
    exact ⟨d, by rw [h', h]⟩
  · obtain ⟨_, _, h⟩ := h1.node k x hx
    obtain ⟨r, d, h'⟩ := h2.node k _ h
    exact ⟨r, d, h'⟩

theorem TreeKept.foldl {α : Type} {f : State → α → State} (hf : ∀ t x, TreeKept t (f t x)) (l : List α) (s : State) :
    TreeKept s (l.foldl f s) :=
  List.foldlRecOn (motive := TreeKept s) l f (.refl s) fun t ht x _ => ht.trans (hf t x)

theorem TreeKept.q (h : TreeKept s t) (l : Nat) : (t.leaf l).q = (s.leaf l).q := by
  obtain ⟨_, h⟩ := h.leaf l
  rw [h]

theorem treeKept_count (s : State) (pg : Page) (code n : Nat) : TreeKept s (s.count pg code n) := .of_sch (s.count_sch pg code n)

theorem treeKept_updPort (s : State) (n : Nat) (f : PortNode → PortNode) : TreeKept s (s.updPort n f) :=
  ⟨(TreeKept.refl s).leaf, (TreeKept.refl s).node⟩

theorem treeKept_deficit (s : State) (l d : Nat) : TreeKept s (s.setLeaf l { s.leaf l with deficit := d }) := by
  refine ⟨fun k => ?_, (TreeKept.refl s).node⟩
  by_cases hk : k = l
  · subst hk
    exact ⟨d, State.leaf_setLeaf _ _⟩
  · exact ⟨(s.leaf k).deficit, State.leaf_setLeaf_ne _ hk⟩

theorem treeKept_updPnode (s : State) (k : Nat) {f : PNode → PNode} (hf : ∀ x, ∃ r d, f x = { x.setRr r with deficit := d }) :
    TreeKept s (s.updPnode k f) := by
  refine ⟨(TreeKept.refl s).leaf, fun j x hx => ?_⟩
  by_cases hj : j = k
  · subst hj
    obtain ⟨r, d, h⟩ := hf x
    exact ⟨r, d, by rw [State.pnode_updPnode_some f hx, h]⟩
  · rw [State.pnode_updPnode, if_neg hj]
    exact (TreeKept.refl s).node j x hx

theorem treeKept_setRr (s : State) (k : Nat) (r : PNode → RoundRobin) : TreeKept s (s.updPnode k (fun y => y.setRr (r y))) :=
  treeKept_updPnode s k fun x => ⟨r x, x.deficit, rfl⟩

theorem treeKept_countIf (s : State) (n : Nat) : TreeKept s (if n = 0 then s else s.count schPage 5 n) := by
  split
  · exact .refl s
  · exact treeKept_count ..

theorem treeKept_refreshNode (s : State) (port p : Nat) : TreeKept s (s.refreshNode port p) := by
  unfold State.refreshNode
  dsimp only
  split
  · exact .refl s
  · exact ((treeKept_setRr ..).trans (.foldl (fun t l => treeKept_deficit t l 0) _ _)).trans (treeKept_countIf ..)

theorem treeKept_refreshPort (s : State) (port : Nat) : TreeKept s (s.refreshPort port) := by
  have hnodes := TreeKept.foldl (fun t p => treeKept_refreshNode t port p) (s.nodesOf port) s
  have hzero (t : State) (p : Nat) : TreeKept t (t.updPnode (nodeKey port p) (fun y => { y with deficit := 0 })) :=
    treeKept_updPnode t _ fun x => ⟨x.rr, 0, rfl⟩
  exact ((hnodes.trans (treeKept_updPort ..)).trans (.foldl hzero _ _)).trans (treeKept_countIf ..)

theorem treeKept_turnLeaf (s : State) (port p : Nat) : TreeKept s (s.turnLeaf port p) := by
  unfold State.turnLeaf
  split
  · split
    · split
      · exact treeKept_setRr ..
      · exact .refl s
    · exact .refl s
  · exact .refl s

theorem treeKept_turnNode (s : State) (port : Nat) : TreeKept s (s.turnNode port) := by
  unfold State.turnNode
  dsimp only
  split
  · split
    · exact treeKept_updPort ..
    · exact .refl s
  · exact .refl s

/-! ## Frames that have left their leaf (R145) -/

theorem State.spateSettle_eq (s : State) (ring idx : Nat) : ∃ l, s.spateSettle ring idx = { s with work := l } := by
  unfold State.spateSettle
  split
  · split
    · split
      · exact State.workDone_ok_eq ..
      · exact ⟨_, rfl⟩
    all_goals exact ⟨_, rfl⟩
  · exact ⟨_, rfl⟩

/-- Frames that have left their leaf can end descriptors, and change the list of work alone. -/
theorem State.framesGone_eq (s : State) (fs : List TxFrame) : ∃ l, s.framesGone fs = { s with work := l } := by
  refine List.foldlRecOn (motive := fun t : State => ∃ l, t = { s with work := l }) fs _ ⟨_, rfl⟩ ?_
  rintro _ ⟨l, rfl⟩ f _
  split
  · exact State.spateSettle_eq { s with work := l } _ _
  · exact ⟨l, rfl⟩

theorem treeKept_framesGone (s : State) (fs : List TxFrame) : TreeKept s (s.framesGone fs) := by
  obtain ⟨l, h⟩ := s.framesGone_eq fs
  rw [h]
  exact .of_sch rfl

theorem State.ept_framesGone (s : State) (fs : List TxFrame) (n : Nat) : (s.framesGone fs).ept n = s.ept n := by
  obtain ⟨l, h⟩ := s.framesGone_eq fs
  rw [h]
  rfl

end

end Sys2Proof.Machine
end

section
/-! SUPPORT. Admission to the leaves, the picks of a port node with its floors and ceilings, the transmission of a head frame, pauses and
lost links, and meters (R202 to R213). -/

namespace Sys2Proof.Machine

section
variable {s : State} {l n : Nat} {o : Out}

/-! ## Admission (R202, R204, R211) -/

theorem State.admits_iff {port p : Nat} {k : PNode} (hport : (s.leaf l).port = some port) (hown : s.ownerOf tyLeaf l = some p)
    (hk : s.pnode (nodeKey port p) = some k) : s.admits l n = true ↔ (s.leaf l).depth + n ≤ (s.leaf l).depthMax * 4096 ∧
      s.nodeOcc port p + n ≤ k.buf * 4096 ∧ (s.part p).state ≠ .draining := by
  simp [State.admits, hport, hown, hk, and_assoc]

theorem State.admits_noPort (h : (s.leaf l).port = none) : s.admits l n = false := by simp [State.admits, h]

theorem State.offer_admitted (h : s.admits l n = true) : s.offer l n o = s.enqueue l n o none := if_pos h

theorem State.offer_dropped (h : s.admits l n = false) :
    s.offer l n o = (s.setLeaf l { s.leaf l with drops := (s.leaf l).drops + 1 }).count1 .sch 2 := if_neg (by simp [h])

theorem State.submit_admitted (h : s.admits l n = true) (hw : (s.leaf l).waiting = []) : s.submit l n o = s.enqueue l n o none :=
  if_pos (by simp [h, hw])

theorem State.submit_waits (h : s.admits l n = false ∨ (s.leaf l).waiting ≠ []) :
    s.submit l n o = s.setLeaf l { s.leaf l with waiting := (s.leaf l).waiting ++ [.packet n o] } :=
  if_neg (by rcases h with h | h <;> simp [h])

/-- A frame that is queued comes last in its leaf: counting it and refreshing its port leave the queues. -/
theorem State.q_enqueue (desc : Option (Nat × Nat)) : ((s.enqueue l n o desc).leaf l).q = (s.leaf l).q ++
    [{ len := n, stamp := s.clk.pkt, body := o, desc := desc, gen := s.applied Blk.mlr.page }] := by
  have hcount (x : Leaf) : (((s.setLeaf l x).count1 .sch 1).leaf l).q = x.q := by
    rw [(treeKept_count ..).q, State.leaf_setLeaf]
  unfold State.enqueue
  dsimp only
  split
  · rw [(treeKept_refreshPort ..).q, hcount]
  · rw [hcount]

section
variable {rest : List LeafWait}

/-- The first that waits at a leaf leaves the others. -/
theorem State.leafPop_cons {x : LeafWait} (h : (s.leaf l).waiting = x :: rest) :
    s.leafPop l = s.setLeaf l { s.leaf l with waiting := rest } := by rw [State.leafPop, h, List.tail_cons]

theorem State.admitWaiting_packet (h : (s.leaf l).waiting = .packet n o :: rest) : s.admitWaiting l =
    if s.admits l n then (s.setLeaf l { s.leaf l with waiting := rest }).enqueue l n o none else s := by
  simp only [State.admitWaiting, State.leafPop_cons h, h]

theorem State.admitWaiting_inject {a : Nat} (h : (s.leaf l).waiting = .inject a n :: rest) : s.admitWaiting l =
    if s.admits l (n + 4) then (s.setLeaf l { s.leaf l with waiting := rest }).injectAt l a n else s := by
  simp only [State.admitWaiting, State.leafPop_cons h, h]

theorem State.admitWaiting_conn {t : State} {c : Nat} (h : (s.leaf l).waiting = .conn c :: rest)
    (ht : t = s.setLeaf l { s.leaf l with waiting := rest }) :
    s.admitWaiting l = if t.connRuns c && t.ackDueNow c then t.sendAck c none else t.dataSend c := by
  subst ht
  simp only [State.admitWaiting, State.leafPop_cons h, h]

theorem State.admitWaiting_spate {ring idx : Nat} (h : (s.leaf l).waiting = .spate ring idx :: rest) :
    s.admitWaiting l = (s.setLeaf l { s.leaf l with waiting := rest }).spateAgain ring idx := by
  simp only [State.admitWaiting, State.leafPop_cons h, h]

end

end

section
variable {s u v : State} {port p l : Nat}

/-! ## The picks of a port node (R205, R208) -/

theorem State.portSends_iff : s.portSends port = true ↔ (s.ept port).up = true ∧ s.dataHeld = false ∧ s.flt.safe = false ∧
    (s.gate 23).isOpen = true ∧ (∃ p, p ∈ (s.portNode port).active ∧ s.ceilBlocked port p = false) ∧
    (s.swapPending schPage = true → (s.portNode port).rr.atBoundary = false) := by
  have hswap (a b : Bool) : (!(a && b)) = true ↔ (a = true → b = false) := by cases a <;> simp
  simp only [State.portSends, State.clusterStopped, Bool.and_eq_true, List.any_eq_true, hswap, Bool.not_not, Bool.not_eq_true',
    and_assoc]

theorem State.ceilBlocked_iff {x : PNode} (h : s.pnode (nodeKey port p) = some x) :
    s.ceilBlocked port p = true ↔ x.ceil ≠ 0 ∧ x.ceilB < 0 := by simp [State.ceilBlocked, h]

theorem State.floorFirst_off (h : (s.reg schPage (0x100 + 8 * port)).bit 62 = false) : s.floorFirst port = none :=
  if_neg (by simp [h])

/-- A floor pick is of the active list, from its pointer on. -/
theorem State.floorFirst_some (h : s.floorFirst port = some p) : p ∈ (s.portNode port).active ∧ s.ceilBlocked port p = false ∧
    ∃ y, s.pnode (nodeKey port p) = some y ∧ 0 ≤ y.floorB := by
  unfold State.floorFirst at h
  dsimp only at h
  split at h
  next =>
    have hmem := List.mem_of_find?_eq_some h
    have hpick := List.find?_some h
    rw [List.mem_append] at hmem
    simp only [Bool.and_eq_true, Bool.not_eq_true'] at hpick
    obtain ⟨hceil, hfloor⟩ := hpick
    refine ⟨hmem.elim List.mem_of_mem_drop List.mem_of_mem_take, hceil, ?_⟩
    split at hfloor
    next y hy => exact ⟨y, hy, of_decide_eq_true hfloor⟩
    next => exact absurd hfloor Bool.false_ne_true
  next => cases h

theorem State.floorPick_send {q i : Nat} {x : PNode} (hx : s.pnode (nodeKey port p) = some x)
    (hi : i = (s.portNode port).active.findIdx (fun c => c = p))
    (hu : u = s.updPort port (fun y => { y with ptr := i, atTurn := y.atTurn && decide (i = (s.portNode port).ptr) }))
    (hv : u.pickLeaf port p (u.leafFuel port p) = .send q l v) :
    s.floorPick port p = ((v.count1 .sch 3).sendHead port p l).updPnode (nodeKey port p) (fun y => { y with round := x.round }) := by
  subst hi hu
  simp only [State.floorPick, hv, hx, Option.map_some, Option.getD_some]

section
variable {x : PNode} {k : Nat} {f : TxFrame} {rest : List TxFrame} (hx : s.pnode (nodeKey port p) = some x)
  (hl : x.active[x.ptr]? = some l) (hq : (s.leaf l).q = f :: rest)
include hx hl hq

/-- At the start of its turn a leaf gains QUANTUM × 64, and sends its head frame if its DEFICIT then covers it. -/
theorem State.pickLeaf_newTurn (ht : x.atTurn = false) (hf : f.len ≤ (s.leaf l).deficit + (s.leaf l).quantum * 64) :
    s.pickLeaf port p (k + 1) = .send p l
      ((s.setLeaf l { s.leaf l with deficit := (s.leaf l).deficit + (s.leaf l).quantum * 64 }).updPnode (nodeKey port p)
        (fun y => { y with atTurn := true, mid := true })) := by
  simp only [State.pickLeaf, hx, hl, hq, ht, Bool.false_eq_true, if_false, if_pos hf]

/-- Within its turn a leaf sends its head frame while its DEFICIT covers it. -/
theorem State.pickLeaf_sameTurn (ht : x.atTurn = true) (hf : f.len ≤ (s.leaf l).deficit) :
    s.pickLeaf port p (k + 1) = .send p l
      ((s.setLeaf l { s.leaf l with deficit := (s.leaf l).deficit }).updPnode (nodeKey port p)
        (fun y => { y with atTurn := true, mid := true })) := by
  simp only [State.pickLeaf, hx, hl, hq, ht, if_true, if_pos hf]

end

theorem State.portPick_floor (h : s.floorFirst port = some p) : s.portPick port = s.floorPick port p := by
  simp only [State.portPick, h]

theorem State.portPick_send {f : TxFrame} {rest : List TxFrame} (h : s.floorFirst port = none)
    (hv : s.pickNode port (pickFuel (s.portNode port).active.length) = .send p l v) (hq : (v.leaf l).q = f :: rest) :
    s.portPick port = (v.updPnode (nodeKey port p) (fun y => { y with deficit := y.deficit - f.len })).sendHead port p l := by
  simp only [State.portPick, h, hv, hq]

theorem State.portPick_halt (h : s.floorFirst port = none)
    (hv : s.pickNode port (pickFuel (s.portNode port).active.length) = .halt v) : s.portPick port = v := by
  simp only [State.portPick, h, hv]

/-- Where no swap of its page is due, a port picks once the change that is due is applied and its buckets are filled. -/
theorem exec_portTransmit (h : s.swapDue (eptPage port) = false) (hu : u = s.changeTake.refillPort port) :
    exec (.portTransmit port) s = .next (if u.portSends port then u.portPick port else s) := by
  subst hu
  show Host.Outcome.next (s.portTransmit port) = _
  rw [State.portTransmit, State.eptTake_idle h]

/-! ## The head frame of a leaf goes out (R205, R208, R215) -/

/-- The head frame has left its leaf, whose DEFICIT and mark follow, and is charged to the buckets of its node. -/
def State.headTaken (s : State) (port p l : Nat) (f : TxFrame) (rest : List TxFrame) : State :=
  (s.setLeaf l { s.leaf l with
      q := rest, deficit := (s.leaf l).deficit - f.len, sojHwm := max (s.leaf l).sojHwm (min (s.clk.pkt - f.stamp) 0xFFFFFFFF) }).updPnode
    (nodeKey port p) (fun y => { y with floorB := y.floorB - (f.len + 20) * 12800, ceilB := y.ceilB - (f.len + 20) * 12800 })

/-- The frame is sent, or dropped by the MAC where it is longer than FRAME_MAX (R176). -/
def State.headSent (s : State) (port p l : Nat) (f : TxFrame) (rest : List TxFrame) : State :=
  if (s.reg ⟨.ept, port⟩ 0x100).field 13 0 < f.len then (s.headTaken port p l f rest).count ⟨.ept, port⟩ 0xB 1
  else ((s.headTaken port p l f rest).count ⟨.ept, port⟩ 2 1).emit (s.onWire port f.body)

section
variable {f : TxFrame} {rest : List TxFrame}

theorem State.sendHead_cons (hq : (s.leaf l).q = f :: rest) : s.sendHead port p l =
    ((((s.headSent port p l f rest).refreshPort port).turnLeaf port p).turnNode port).framesGone [f] := by
  simp only [State.sendHead, hq]
  rfl

theorem State.headSent_sch : (s.headSent port p l f rest).sch = (s.headTaken port p l f rest).sch := by
  unfold State.headSent
  split
  · exact State.count_sch ..
  · exact State.count_sch ..

theorem treeKept_sendHead (hq : (s.leaf l).q = f :: rest) : TreeKept (s.headTaken port p l f rest) (s.sendHead port p l) := by
  rw [State.sendHead_cons hq]
  exact ((((TreeKept.of_sch State.headSent_sch).trans (treeKept_refreshPort ..)).trans (treeKept_turnLeaf ..)).trans
    (treeKept_turnNode ..)).trans (treeKept_framesGone ..)

theorem State.q_sendHead (hq : (s.leaf l).q = f :: rest) : ((s.sendHead port p l).leaf l).q = rest := by
  rw [(treeKept_sendHead hq).q, State.headTaken, State.leaf_updPnode, State.leaf_setLeaf]

/-- What follows the frame on its way out takes back nothing that was sent. -/
theorem State.onWire_mem_sendHead (hq : (s.leaf l).q = f :: rest) (hmax : f.len ≤ (s.reg ⟨.ept, port⟩ 0x100).field 13 0) :
    s.onWire port f.body ∈ (s.sendHead port p l).out := by
  have hsent : s.onWire port f.body ∈ (s.headSent port p l f rest).out := by
    rw [State.headSent, if_neg (Nat.not_lt.2 hmax)]
    simp [State.emit]
  have hkeeps : Keeps (s.headSent port p l f rest) (s.sendHead port p l) := by
    rw [State.sendHead_cons hq]
    exact State.framesGone_keeps _ (State.turnNode_keeps _ (State.turnLeaf_keeps _ _ (State.refreshPort_keeps _ (keeps_refl _))))
  obtain ⟨-, hout, -⟩ := hkeeps
  exact hout.subset hsent

theorem State.pnode_sendHead {x : PNode} (hq : (s.leaf l).q = f :: rest) (hx : s.pnode (nodeKey port p) = some x) :
    ∃ y, (s.sendHead port p l).pnode (nodeKey port p) = some y ∧ y.floorB = x.floorB - (f.len + 20) * 12800 ∧
      y.ceilB = x.ceilB - (f.len + 20) * 12800 := by
  obtain ⟨r, d, h⟩ := (treeKept_sendHead hq).node _ _ (State.pnode_updPnode_some _ ((State.pnode_setLeaf _ l _).trans hx))
  exact ⟨_, h, rfl, rfl⟩

end

end

/-! ## Rounds (R206, R207) -/

theorem RoundRobin.active_refresh (r : RoundRobin) (elig : List Nat) : (r.refresh elig).active =
    r.active.filter (fun c => elig.contains c) ++ elig.filter (fun c => !r.active.contains c) := by
  unfold RoundRobin.refresh
  dsimp only
  split <;> rfl

theorem RoundRobin.next_tail {r : RoundRobin} (h : r.active.length ≤ r.ptr + 1) :
    r.next = { r with ptr := 0, atTurn := false, mid := false, round := (r.round + 1) % 2 ^ 32 } := if_pos h

theorem RoundRobin.next_inner {r : RoundRobin} (h : r.ptr + 1 < r.active.length) :
    r.next = { r with ptr := r.ptr + 1, atTurn := false, mid := true } := if_neg (Nat.not_le.2 h)

theorem RoundRobin.next_active (r : RoundRobin) : r.next.active = r.active ∧ r.next.atTurn = false := by
  unfold RoundRobin.next
  split <;> exact ⟨rfl, rfl⟩

section
variable {s : State} {n c : Nat}

/-! ## Pauses and links (R211) -/

theorem exec_pfcPauseEnd {t : Nat} (h : Tab.find (s.ept n).paused c = some t) : exec (.pfcPauseEnd n c) s = .next (if t ≤ s.clk.pkt then
    (s.updEpt n (fun e => { e with paused := Tab.erase e.paused c })).refreshPort n else s) := by
  show execPfcPauseEnd n c s = _
  simp only [execPfcPauseEnd, h]

/-- The frames of the leaves of a port are dropped and counted there. -/
theorem State.q_dropPort (l : Nat) (h : (s.leaf l).port = some n) : ((s.dropPort n).leaf l).q = [] := by
  have hmem : l ∈ (s.sch.leaves.filter (fun e => e.2.port = some n)).map Prod.fst := by
    have hne : s.leaf l ≠ Leaf.reset := fun e => by simp [e, Leaf.reset] at h
    exact List.mem_map.2 ⟨(l, s.leaf l), List.mem_filter.2 ⟨Tab.mem_of_get rfl hne, by simp [h]⟩, rfl⟩
  unfold State.dropPort
  extract_lets ls k dropped
  have hdropped : (dropped.leaf l).q = [] := by
    refine foldl_reaches (P := fun t : State => (t.leaf l).q = []) hmem (fun t => by simp) (fun t x _ ht => ?_) s
    by_cases hx : l = x
    · subst hx
      simp
    · rwa [State.leaf_setLeaf_ne _ hx]
  rw [(treeKept_framesGone ..).q, (treeKept_refreshPort ..).q]
  split
  · exact hdropped
  · rw [(treeKept_count ..).q, hdropped]

theorem State.ept_dropPort (n m : Nat) : (s.dropPort n).ept m = s.ept m := by
  unfold State.dropPort
  extract_lets ls k dropped
  have hdropped : dropped.ept m = s.ept m :=
    List.foldlRecOn (motive := fun t : State => t.ept m = s.ept m) _ _ rfl fun _ ht _ _ => ht
  rw [State.ept_framesGone, State.ept_refreshPort]
  split
  · exact hdropped
  · rw [State.ept_count, hdropped]

theorem State.eptDown_up (h : (s.ept n).up = true) : s.eptDown n =
    ((s.updEpt n (fun e => { e with up := false, pausing := [], pauseAt := [], paused := [] })).dropPort n).setIntBit (eptPage n) 9 :=
  if_pos h

theorem exec_linkDown_up (h : (s.ept n).up = true) : Gives (.linkDown n) s (fun t => (t.ept n).up = false ∧
    (t.ept n).paused = [] ∧ (t.reg (eptPage n) 0x30).bit 9 = true ∧ ∀ l, (s.leaf l).port = some n → (t.leaf l).q = []) := by
  refine ⟨_, congrArg Host.Outcome.next (State.eptDown_up h), ?_⟩
  generalize hd : s.updEpt n (fun e => { e with up := false, pausing := [], pauseAt := [], paused := [] }) = d
  have hept : ((d.dropPort n).setIntBit (eptPage n) 9).ept n =
      { s.ept n with up := false, pausing := [], pauseAt := [], paused := [] } := by
    rw [State.ept, State.setIntBit_epts, ← State.ept, State.ept_dropPort, ← hd, State.ept_updEpt]
  refine ⟨by rw [hept], by rw [hept], ?_, fun l hl => ?_⟩
  · rw [State.reg_setIntBit _ _ _ rfl]
    simp
  · rw [(TreeKept.of_sch (State.setIntBit_sch ..)).q]
    refine State.q_dropPort l ?_
    rw [← hd]
    exact hl

theorem exec_linkDown_isDown (h : (s.ept n).up = false) : exec (.linkDown n) s = .next s :=
  congrArg Host.Outcome.next (if_neg (by simp [h]))

theorem exec_schChangeApply {c : SchChange} (h : s.sch.change = some c) : exec .schChangeApply s = .next (if s.changeDue c then
    ({ s with sch := { s.sch with change := none } } : State).changeApply c else s) := by
  show Host.Outcome.next s.changeTake = _
  simp only [State.changeTake, h]

end

section
variable {m x : Meter} {y : Bool} {n now : Nat} (hx : x = m.refill now)
include hx

/-! ## Meters (R212, R213) -/

section
variable (hmode : m.mode = false)
include hmode

/-- RFC 2698: what exceeds the peak bucket is red. -/
theorem Meter.colour_rfc2698_red (hp : x.pB < n * 65536) : (m.colour y n now).1 = .red := by
  subst hx
  simp only [Meter.colour, hmode, Bool.not_false, if_true, if_pos hp]

/-- What arrives yellow or exceeds the committed bucket is yellow, and is charged to the peak bucket. -/
theorem Meter.colour_rfc2698_yellow (hp : n * 65536 ≤ x.pB) (h : (y && m.aware) = true ∨ x.cB < n * 65536) :
    (m.colour y n now).1 = .yellow ∧ (m.colour y n now).2.pB = x.pB - n * 65536 := by
  subst hx
  have hy : ((y && m.aware) || decide ((m.refill now).cB < n * 65536)) = true := by simpa using h
  simp only [Meter.colour, hmode, Bool.not_false, if_true, if_neg (Nat.not_lt.2 hp), if_pos hy, and_self]

/-- The rest is green, and is charged to both. -/
theorem Meter.colour_rfc2698_green (hp : n * 65536 ≤ x.pB) (hc : n * 65536 ≤ x.cB) (h : y = false ∨ m.aware = false) :
    (m.colour y n now).1 = .green ∧ (m.colour y n now).2.pB = x.pB - n * 65536 ∧ (m.colour y n now).2.cB = x.cB - n * 65536 := by
  subst hx
  have hy : ¬ ((y && m.aware) || decide ((m.refill now).cB < n * 65536)) = true := by
    rcases h with h | h <;> simp [h, hc]
  simp only [Meter.colour, hmode, Bool.not_false, if_true, if_neg (Nat.not_lt.2 hp), if_neg hy, and_self]

end

section
variable (hmode : m.mode = true)
include hmode

/-- RFC 4115: what arrives green within the committed bucket is green, and is charged to it alone. -/
theorem Meter.colour_rfc4115_green (h : y = false ∨ m.aware = false) (hc : n * 65536 ≤ x.cB) :
    (m.colour y n now).1 = .green ∧ (m.colour y n now).2.cB = x.cB - n * 65536 := by
  subst hx
  have hy : (!(y && m.aware) && decide (n * 65536 ≤ (m.refill now).cB)) = true := by
    rcases h with h | h <;> simp [h, hc]
  simp only [Meter.colour, hmode, Bool.not_true, Bool.false_eq_true, if_false, if_pos hy, and_self]

/-- Beyond it, the excess bucket decides. -/
theorem Meter.colour_rfc4115_excess (hc : x.cB < n * 65536) :
    (m.colour y n now).1 = if n * 65536 ≤ x.pB then .yellow else .red := by
  subst hx
  have hy : ¬ (!(y && m.aware) && decide (n * 65536 ≤ (m.refill now).cB)) = true := by simp [hc]
  simp only [Meter.colour, hmode, Bool.not_true, Bool.false_eq_true, if_false, if_neg hy]
  by_cases hp : n * 65536 ≤ (m.refill now).pB
  · simp only [if_pos hp]
  · simp only [if_neg hp]

end

end

end Sys2Proof.Machine
end

section
open Sys2Proof Sys2Proof.Machine

/-- Settles O32. What waits at a leaf, the next sender of a port and a frame's colour are read off case by case; what follows a frame or a
lost link moves round robins and DEFICITs alone. -/
theorem queuesAndTransmission : Obligations.QueuesAndTransmission := by
  unfold Obligations.QueuesAndTransmission
  refine ⟨fun s l n port p k hport hown hk => State.admits_iff hport hown hk, fun s l n h => State.admits_noPort h,
    fun s l n o => ⟨State.offer_admitted, State.offer_dropped, State.submit_admitted, State.submit_waits, State.q_enqueue⟩,
    ?packet, ?inject, ?conn, fun s l ring idx rest h => congrArg Host.Outcome.next (State.admitWaiting_spate h),
    fun s port => State.portSends_iff, ?transmit, fun s port p => ⟨State.floorFirst_off, State.floorFirst_some⟩,
    fun s u v port p q l i x hx hi hu hv => State.floorPick_send hx hi hu hv,
    fun s port p k l x f rest hx hl hq => ⟨State.pickLeaf_newTurn hx hl hq, State.pickLeaf_sameTurn hx hl hq⟩,
    fun s port p x hx => State.ceilBlocked_iff hx,
    fun s port p l f rest x hq hx _ => ⟨State.q_sendHead hq, State.onWire_mem_sendHead hq, State.pnode_sendHead hq hx⟩,
    RoundRobin.active_refresh, ?next, ?pause, fun s n h => exec_linkDown_up h, fun s n h => exec_linkDown_isDown h, ?change,
    ?rfc2698, ?rfc4115, fun e m => ⟨rfl, rfl, rfl, rfl⟩⟩
  case packet =>
    intro s l n o rest h
    have hx : exec (.admitWaiting l) s = _ := congrArg Host.Outcome.next (State.admitWaiting_packet h)
    exact ⟨fun ha => by rw [hx, if_pos ha], fun ha => by rw [hx, if_neg (by simp [ha])]⟩
  case inject =>
    intro s l a n rest h
    have hx : exec (.admitWaiting l) s = _ := congrArg Host.Outcome.next (State.admitWaiting_inject h)
    exact ⟨fun ha => by rw [hx, if_pos ha], fun ha => by rw [hx, if_neg (by simp [ha])]⟩
  case conn =>
    intro s t l c rest h ht
    have hx : exec (.admitWaiting l) s = _ := congrArg Host.Outcome.next (State.admitWaiting_conn h ht)
    refine ⟨fun hno => ?_, fun hruns hdue => by rw [hx, if_pos (by simp [hruns, hdue])]⟩
    rw [hx, if_neg (by rcases hno with hno | hno <;> simp [hno])]
  case transmit =>
    intro s u port hq hu
    rw [exec_portTransmit hq hu]
    refine ⟨fun h => by rw [if_neg (by simp [h])], fun p h hp => ?_, fun p l v f rest h hp hv hf => ?_, fun v h hp hv => ?_⟩
    · rw [if_pos h, State.portPick_floor hp]
    · rw [if_pos h, State.portPick_send hp hv hf]
    · rw [if_pos h, State.portPick_halt hp hv]
  case next =>
    exact fun r => ⟨fun h => by simp [RoundRobin.next_tail h], fun h => by simp [RoundRobin.next_inner h], r.next_active⟩
  case pause =>
    intro s n c t h
    rw [exec_pfcPauseEnd h]
    exact ⟨fun ht => by rw [if_pos ht], fun ht => by rw [if_neg (Nat.not_le.2 ht)]⟩
  case change =>
    intro s c h
    rw [exec_schChangeApply h]
    exact ⟨fun hd => by rw [if_pos hd], fun hd => by rw [if_neg (by simp [hd])]⟩
  case rfc2698 =>
    intro m x y n now hx hmode
    exact ⟨Meter.colour_rfc2698_red hx hmode, fun hp hc => Meter.colour_rfc2698_yellow hx hmode hp (.inr hc),
      fun hp hy ha => (Meter.colour_rfc2698_yellow hx hmode hp (.inl (by simp [hy, ha]))).1,
      fun hp hc h => Meter.colour_rfc2698_green hx hmode hp hc h⟩
  case rfc4115 =>
    intro m x y n now hx hmode
    exact ⟨fun h hc => Meter.colour_rfc4115_green hx hmode h hc,
      fun hc hp => (Meter.colour_rfc4115_excess hx hmode hc).trans (if_pos hp),
      fun hc hp => (Meter.colour_rfc4115_excess hx hmode hc).trans (if_neg (Nat.not_le.2 hp))⟩

end

section
/-! SUPPORT. The commands of the SCH page as writes of its CMD register, with what they check, set and report (R209, R212, R215, R216). -/

namespace Sys2Proof.Machine

/-! ## The commands of SCH -/

section
variable {op port p obj : Nat}

theorem schCmdWord_op (h : op < 256) : (schCmdWord op port p obj).field 63 56 = op := by
  simp [schCmdWord, Nat.mod_eq_of_lt h]

theorem schCmdWord_port (h : port < 16) : (schCmdWord op port p obj).field 51 48 = port := by
  simp [schCmdWord, Nat.mod_eq_of_lt h]

theorem schCmdWord_part (h : p < 128) : (schCmdWord op port p obj).field 46 40 = p := by
  simp [schCmdWord, Nat.mod_eq_of_lt h]

theorem schCmdWord_obj (h : obj < 131072) : (schCmdWord op port p obj).field 16 0 = obj := by
  simp [schCmdWord, Nat.mod_eq_of_lt h]

end

section
variable {s : State} {port p l m : Nat} (ht : Taken s .sch)
include ht

theorem exec_pnodeSet (hport : port < 16) (hp : p < 128) : exec (.pnodeSet port p) s = .next
    (if s.pnodeCheck port p (s.schArg 0) (s.schArg 1) (s.schArg 2) = .ok then
      s.changeStart (.pnode port p (s.schArg 0) (s.schArg 1) (s.schArg 2))
    else s.cmdEnd .sch 1 0 (s.pnodeCheck port p (s.schArg 0) (s.schArg 1) (s.schArg 2))) := by
  refine congrArg Host.Outcome.next ((State.takeCmd_taken _ _ ht).trans ?_)
  simp only [schRun, schCmdWord_op (by decide : 1 < 256), schCmdWord_port hport, schCmdWord_part hp]

theorem exec_pnodeClear (hport : port < 16) (hp : p < 128) : exec (.pnodeClear port p) s =
    .next ((s.pnodeClear port p).2.cmdEnd .sch 2 0 (s.pnodeClear port p).1) := by
  refine congrArg Host.Outcome.next ((State.takeCmd_taken _ _ ht).trans ?_)
  simp only [schRun, schCmdWord_op (by decide : 2 < 256), schCmdWord_port hport, schCmdWord_part hp]

theorem exec_pnodeRead (hport : port < 16) (hp : p < 128) : exec (.pnodeRead port p) s =
    .next ((s.pnodeRead port p).2.cmdEnd .sch 3 0 (s.pnodeRead port p).1) := by
  refine congrArg Host.Outcome.next ((State.takeCmd_taken _ _ ht).trans ?_)
  simp only [schRun, schCmdWord_op (by decide : 3 < 256), schCmdWord_port hport, schCmdWord_part hp]

theorem exec_leafSet (hport : port < 16) (hl : l < 131072) : exec (.leafSet port l) s = .next
    (if s.leafCheck port l (s.schArg 0) = .ok then s.changeStart (.leaf port l (s.schArg 0))
    else s.cmdEnd .sch 4 0 (s.leafCheck port l (s.schArg 0))) := by
  refine congrArg Host.Outcome.next ((State.takeCmd_taken _ _ ht).trans ?_)
  simp only [schRun, schCmdWord_op (by decide : 4 < 256), schCmdWord_port hport, schCmdWord_obj hl]

theorem exec_leafRead (hl : l < 131072) : exec (.leafRead l) s =
    .next ((s.leafRead l ((s.schArg 0).bit 0)).cmdEnd .sch 5 0 .ok) := by
  refine congrArg Host.Outcome.next ((State.takeCmd_taken _ _ ht).trans ?_)
  simp only [schRun, schCmdWord_op (by decide : 5 < 256), schCmdWord_obj hl]

theorem exec_meterSet (hm : m < 32768) : exec (.meterSet m) s =
    .next ((s.meterSet m (s.schArg 0) (s.schArg 1) (s.schArg 2)).2.cmdEnd .sch 6 0
      (s.meterSet m (s.schArg 0) (s.schArg 1) (s.schArg 2)).1) := by
  refine congrArg Host.Outcome.next ((State.takeCmd_taken _ _ ht).trans ?_)
  simp only [schRun, schCmdWord_op (by decide : 6 < 256), schCmdWord_obj (Nat.lt_trans hm (by decide)), if_pos hm]

theorem exec_meterRead (hm : m < 32768) : exec (.meterRead m) s = .next ((s.meterRead m).cmdEnd .sch 7 0 .ok) := by
  refine congrArg Host.Outcome.next ((State.takeCmd_taken _ _ ht).trans ?_)
  simp only [schRun, schCmdWord_op (by decide : 7 < 256), schCmdWord_obj (Nat.lt_trans hm (by decide)), if_pos hm]

end

section
variable {s : State} {port p l m : Nat}

/-! ## What a command reports -/

section
variable (op : Nat) (st : Status) (r0 r1 r2 : Word)

/-- The end of a command of SCH leaves RD0 to RD2. -/
theorem State.reg_cmdEnd_sch (t : State) {off : Nat} (hlt : off < 65536) (hint : off ≠ 0x30) (hstat : off ≠ 0x1A8) :
    (t.cmdEnd .sch op 0 st).reg schPage off = t.reg schPage off :=
  State.reg_cmdEnd_ne _ _ _ _ _ _ _ (Page.key_ne_same _ hint) (Page.key_ne_same _ hstat)
    (farFrom_trs (by decide : (0 : Nat) < 65536) hlt (.inl (by decide)))

@[simp] theorem State.rd0_cmdEnd : ((s.schRd r0 r1 r2).cmdEnd .sch op 0 st).reg schPage 0x1B0 = r0 := by
  rw [State.reg_cmdEnd_sch _ _ _ (by decide) (by decide) (by decide), State.schRd,
    State.reg_setReg_ne _ _ _ _ _ _ (Page.key_ne_same _ (by decide)), State.reg_setReg_ne _ _ _ _ _ _ (Page.key_ne_same _ (by decide)),
    State.reg_setReg]

@[simp] theorem State.rd1_cmdEnd : ((s.schRd r0 r1 r2).cmdEnd .sch op 0 st).reg schPage 0x1B8 = r1 := by
  rw [State.reg_cmdEnd_sch _ _ _ (by decide) (by decide) (by decide), State.schRd,
    State.reg_setReg_ne _ _ _ _ _ _ (Page.key_ne_same _ (by decide)), State.reg_setReg]

@[simp] theorem State.rd2_cmdEnd : ((s.schRd r0 r1 r2).cmdEnd .sch op 0 st).reg schPage 0x1C0 = r2 := by
  rw [State.reg_cmdEnd_sch _ _ _ (by decide) (by decide) (by decide), State.schRd, State.reg_setReg]

end

theorem Word.high_halves (hi lo : Nat) : (((0 : Word).setField 63 32 hi).setField 31 0 lo).field 63 32 = hi % 2 ^ 32 := by simp

theorem Word.low_halves (hi lo : Nat) : (((0 : Word).setField 63 32 hi).setField 31 0 lo).field 31 0 = lo % 2 ^ 32 := by simp

theorem State.setLeaf_schRd (r0 r1 r2 : Word) (x : Leaf) : (s.schRd r0 r1 r2).setLeaf l x = (s.setLeaf l x).schRd r0 r1 r2 := rfl

@[simp] theorem State.leaf_schRd (r0 r1 r2 : Word) : (s.schRd r0 r1 r2).leaf l = s.leaf l := rfl

@[simp] theorem State.pnode_schRd (r0 r1 r2 : Word) (k : Nat) : (s.schRd r0 r1 r2).pnode k = s.pnode k := rfl

section
variable (b : Blk) (op obj : Nat) (st : Status)

@[simp] theorem State.leaf_cmdEnd : (s.cmdEnd b op obj st).leaf l = s.leaf l := by rw [State.leaf, State.cmdEnd_sch, State.leaf]

@[simp] theorem State.pnode_cmdEnd (k : Nat) : (s.cmdEnd b op obj st).pnode k = s.pnode k := by
  rw [State.pnode, State.cmdEnd_sch, State.pnode]

@[simp] theorem State.meter_cmdEnd : (s.cmdEnd b op obj st).meter m = s.meter m := by rw [State.meter, State.cmdEnd_sch, State.meter]

end

/-- The halves of a result. -/
theorem Word.halves (a b : Nat) : (((0 : Word).setField 63 32 a).setField 31 0 b).field 63 32 = a % 2 ^ 32 ∧
    (((0 : Word).setField 63 32 a).setField 31 0 b).field 31 0 = b % 2 ^ 32 := by simp

/-! ## Changes that wait for a boundary (R216) -/

theorem State.changeStart_due {c : SchChange} (h : s.changeDue c = true) : s.changeStart c = s.changeApply c := if_pos h

/-- A change whose boundary has not come waits with the command running, and nothing else of Sluice changes. -/
theorem State.changeStart_waits {c : SchChange} (h : s.changeDue c = false) :
    (s.changeStart c).sch = { s.sch with change := some c } ∧ (s.changeStart c).cmdBusy .sch = true := by
  have hw : s.changeStart c = { s.setBusy .sch true with sch := { s.sch with change := some c } } := if_neg (by simp [h])
  have hbusy : (s.setBusy .sch true).cmdBusy .sch = true := by simp [State.cmdBusy, State.setBusy]
  rw [hw]
  exact ⟨rfl, hbusy⟩

/-! ## Partition nodes (R208, R209, R216) -/

theorem State.pnodeCheck_format {a0 a1 a2 : Word} (h : a0.field 15 0 = 0 ∨ a2.field 15 0 < 3 ∨ a1.field 63 32 < 64 ∨
    a1.field 31 0 < 64 ∨ (a0.field 39 16 ≠ 0 ∧ a0.field 39 16 < a0.field 63 40) ∨ s.eptPresent port = false) :
    s.pnodeCheck port p a0 a1 a2 = .format :=
  if_pos (by simpa [or_assoc] using h)

theorem firstFail_ok {c : Bool} {st : Status} {cs : List (Bool × Status)} (hst : st ≠ .ok) (h : firstFail ((c, st) :: cs) = .ok) :
    c = false ∧ firstFail cs = .ok := by
  cases c with
  | true => exact absurd h hst
  | false => exact ⟨rfl, h⟩

theorem State.pnodeCheck_ok {a0 a1 a2 : Word} (h : s.pnodeCheck port p a0 a1 a2 = .ok) : (s.part p).state ≠ .free ∧
    s.bufSum (nodeKey port p) + a2.field 15 0 ≤ 8192 ∧
    s.floorSum port - ((s.pnode (nodeKey port p)).map (fun x => x.floor)).getD 0 + a0.field 63 40 ≤ s.portRate port := by
  obtain ⟨-, hrest⟩ := firstFail_ok (by decide) h
  obtain ⟨hstate, hrest⟩ := firstFail_ok (by decide) hrest
  obtain ⟨hbuf, -⟩ := firstFail_ok (by decide) hrest
  simp only [Bool.or_eq_false_iff, decide_eq_false_iff_not, Nat.not_lt] at hstate hbuf
  exact ⟨hstate.1, hbuf, hstate.2⟩

/-- A node has the settings of its last PNODE_SET: refreshing its port leaves them. -/
theorem State.pnode_pnodeApply (s : State) (port p : Nat) (a0 a1 a2 : Word) :
    ∃ x, (s.pnodeApply port p a0 a1 a2).pnode (nodeKey port p) = some x ∧ x.floor = a0.field 63 40 ∧ x.ceil = a0.field 39 16 ∧
      x.quantum = a0.field 15 0 ∧ x.floorBurst = a1.field 63 32 ∧ x.ceilBurst = a1.field 31 0 ∧ x.buf = a2.field 15 0 := by
  unfold State.pnodeApply
  extract_lets k filled base x
  generalize ht : ({ filled with sch := { filled.sch with pnodes := Tab.insert filled.sch.pnodes k x } } : State) = t
  have hx : t.pnode k = some x := by
    rw [← ht]
    exact Tab.find_insert_self ..
  obtain ⟨r, d, h⟩ := (treeKept_refreshPort t port).node k x hx
  exact ⟨_, h, rfl, rfl, rfl, rfl, rfl, rfl⟩

theorem State.pnodeClear_named (h : s.leavesOf port p ≠ []) : s.pnodeClear port p = (.state, s) := if_pos h

theorem State.pnodeClear_unnamed {u : State} (h : s.leavesOf port p = []) (hu : u = s.refillPort port) : s.pnodeClear port p =
    (.ok, ({ u with sch := { u.sch with pnodes := Tab.erase u.sch.pnodes (nodeKey port p) } } : State).refreshPort port) := by
  subst hu
  exact if_neg (not_not.2 h)

theorem State.pnodeRead_absent (h : s.pnode (nodeKey port p) = none) : s.pnodeRead port p = (.state, s) := by
  have hn : (s.refill port p).pnode (nodeKey port p) = none := by
    rw [State.refill, State.pnode_updPnode, if_pos rfl, h, Option.map_none]
  simp only [State.pnodeRead, hn]

theorem State.pnodeRead_present {y : PNode} (h : (s.refill port p).pnode (nodeKey port p) = some y) : s.pnodeRead port p =
    (.ok, (s.refill port p).schRd
      (((0 : Word).setField 63 32 (signedField 32 (y.floorB / 12800))).setField 31 0 (signedField 32 (y.ceilB / 12800)))
      (((0 : Word).setField 63 32 (s.nodeOcc port p)).setField 31 0 y.round) (s.reg schPage 0x1C0)) := by
  simp only [State.pnodeRead, h]

/-- Buckets fill at their rates up to their bursts, where the floors fit the port rate. -/
theorem State.pnode_refill {x : PNode} (h : s.pnode (nodeKey port p) = some x) (hle : s.floorSum port ≤ s.portRate port) :
    ∃ y, (s.refill port p).pnode (nodeKey port p) = some y ∧ y.at_ = s.clk.pkt ∧
      y.floorB = min (x.floorB + (x.floor * (s.clk.pkt - x.at_) : Nat)) (x.floorBurst * 12800 : Nat) ∧
      y.ceilB = min (x.ceilB + (x.ceil * (s.clk.pkt - x.at_) : Nat)) (x.ceilBurst * 12800 : Nat) := by
  refine ⟨_, State.pnode_updPnode_some _ h, rfl, ?_, ?_⟩
  · simp only [if_pos hle, Nat.cast_mul, Nat.cast_ofNat]
  · simp only [Nat.cast_mul, Nat.cast_ofNat]

/-! ## Leaves (R215, R216) -/

/-- A leaf has the settings of its last LEAF_SET and keeps its frames: refreshing the ports leaves both. -/
theorem State.leaf_leafApply (s : State) (port l : Nat) (a0 : Word) : ∃ d, (s.leafApply port l a0).leaf l = { s.leaf l with
    port := some port, depthMax := a0.field 47 32, cls := a0.field 18 16, quantum := a0.field 15 0, deficit := d } := by
  unfold State.leafApply
  extract_lets old x set moved
  have hset : set.leaf l = { s.leaf l with
      port := some port, depthMax := a0.field 47 32, cls := a0.field 18 16, quantum := a0.field 15 0 } := State.leaf_setLeaf ..
  have hmoved : TreeKept set moved := by
    unfold moved
    cases old with
    | some q => exact treeKept_refreshPort ..
    | none => exact .refl set
  obtain ⟨d, h⟩ := (hmoved.trans (treeKept_refreshPort moved port)).leaf l
  exact ⟨d, by rw [h, hset]⟩

/-- The marks of a leaf start again from its depth (R215). -/
def State.marksCleared (s : State) (l : Nat) : State :=
  s.setLeaf l { s.leaf l with depthHwm := (s.leaf l).depth, sojHwm := 0 }

/-- LEAF_READ sets RD0 to RD2, and with CLR clears the marks. -/
theorem State.leafRead_eq (s : State) (l : Nat) (clr : Bool) : s.leafRead l clr = (if clr then s.marksCleared l else s).schRd
    (((0 : Word).setField 63 32 (s.leaf l).depth).setField 31 0 (s.leaf l).depthHwm)
    (((0 : Word).setField 63 32 (s.leaf l).sojHwm).setField 31 0 (s.leaf l).drops)
    (((0 : Word).setField 63 32 (s.leaf l).deficit).setField 31 0 (s.parentRound l)) := by
  cases clr with
  | false => rfl
  | true => exact State.setLeaf_schRd ..

/-! ## Meters (R212) -/

/-- Filling a meter changes its buckets and their time alone. -/
theorem Meter.refill_eq (x : Meter) (now : Nat) : ∃ c p, x.refill now = { x with cB := c, pB := p, at_ := now } := ⟨_, _, rfl⟩

@[simp] theorem Meter.nYellow_refill (x : Meter) (now : Nat) : (x.refill now).nYellow = x.nYellow := by
  obtain ⟨_, _, h⟩ := x.refill_eq now
  rw [h]

@[simp] theorem Meter.nRed_refill (x : Meter) (now : Nat) : (x.refill now).nRed = x.nRed := by
  obtain ⟨_, _, h⟩ := x.refill_eq now
  rw [h]

section
variable {a0 a1 a2 : Word} (hrate : a0.bit 0 = true ∨ a0.field 63 40 ≤ a0.field 39 16) (hcbs : 64 ≤ a1.field 63 32)
  (hpbs : 64 ≤ a1.field 31 0)
include hrate hcbs hpbs

/-- With settings of the right form, ownership alone decides a METER_SET. -/
theorem meterSet_checks (unowned : Bool) : firstFail
    [((!a0.bit 0 && decide (a0.field 39 16 < a0.field 63 40)) || decide (a1.field 63 32 < 64) || decide (a1.field 31 0 < 64), .format),
     (unowned, .state)] = if unowned then .state else .ok := by
  have hform : ((!a0.bit 0 && decide (a0.field 39 16 < a0.field 63 40)) || decide (a1.field 63 32 < 64) ||
      decide (a1.field 31 0 < 64)) = false := by
    rcases hrate with h | h <;> simp [h, hcbs, hpbs]
  rw [hform]
  rfl

theorem State.meterSet_unowned (h : s.ownerOf tyMeter m = none) : s.meterSet m a0 a1 a2 = (.state, s) := by
  simp only [State.meterSet, meterSet_checks hrate hcbs hpbs, h, Option.isNone_none, if_true]
  rfl

/-- An owned meter takes its settings with both buckets full. -/
theorem State.meterSet_owned (h : s.ownerOf tyMeter m ≠ none) : s.meterSet m a0 a1 a2 =
    (.ok, s.setMeter m { mode := a0.bit 0, aware := a0.bit 1, cir := a0.field 63 40, pir := a0.field 39 16, cbs := a1.field 63 32,
                         pbs := a1.field 31 0, dscp := a2.field 13 8, yellow := a2.field 3 2, red := a2.field 1 0,
                         cB := a1.field 63 32 * 65536, pB := a1.field 31 0 * 65536, at_ := s.clk.pkt, nYellow := 0, nRed := 0 }) := by
  have hown : (s.ownerOf tyMeter m).isNone = false := Option.isNone_eq_false_iff.2 (Option.isSome_iff_ne_none.2 h)
  simp only [State.meterSet, meterSet_checks hrate hcbs hpbs, hown, Bool.false_eq_true, if_false, if_true]

end

end

end Sys2Proof.Machine
end

section
open Sys2Proof Sys2Proof.Machine

/-- Settles O33. Each command is a write of its CMD register that is taken; it ends with the first check that it fails, or sets and reports
what its node, leaf or meter holds. -/
theorem sluiceCommands : Obligations.SluiceCommands := by
  unfold Obligations.SluiceCommands
  refine ⟨?set, ?refused, fun s port p a0 a1 a2 => ⟨State.pnodeCheck_format, State.pnodeCheck_ok⟩,
    fun s port p a0 a1 a2 _ => s.pnode_pnodeApply port p a0 a1 a2, ?clearRead, fun s port p x hx hle => State.pnode_refill hx hle,
    ?leaf, ?applied, ?meterSet, ?meterRead⟩
  case set =>
    rintro s port p _ _ _ ht hport hp rfl rfl rfl hok
    have hx := exec_pnodeSet ht hport hp
    rw [if_pos hok] at hx
    refine ⟨fun hd => by rw [hx, State.changeStart_due hd, State.changeApply], fun hd => ⟨_, hx, ?_⟩⟩
    obtain ⟨hsch, hbusy⟩ := State.changeStart_waits hd
    exact ⟨by rw [hsch], by rw [hsch], hbusy⟩
  case refused =>
    rintro s port p _ _ _ ht hport hp rfl rfl rfl hfail
    rw [exec_pnodeSet ht hport hp, if_neg hfail]
  case clearRead =>
    intro s port p ht hport hp
    refine ⟨fun h => ?_, fun u h hu => ?_, fun h => ?_, fun x y _ hy => ⟨_, exec_pnodeRead ht hport hp, ?_⟩⟩
    · rw [exec_pnodeClear ht hport hp, State.pnodeClear_named h]
    · rw [exec_pnodeClear ht hport hp, State.pnodeClear_unnamed h hu]
    · rw [exec_pnodeRead ht hport hp, State.pnodeRead_absent h]
    · rw [State.pnodeRead_present hy]
      refine ⟨?_, by rw [State.rd1_cmdEnd, Word.low_halves], by rw [State.rd1_cmdEnd, Word.high_halves]⟩
      rw [State.pnode_cmdEnd, State.pnode_schRd, hy]
  case leaf =>
    intro s port l ht hport hl
    have hset := exec_leafSet ht hport hl
    refine ⟨fun hfail => by rw [hset, if_neg hfail], fun hok hd => ?_, fun hok hd => ⟨_, hset, ?_⟩, ⟨_, exec_leafRead ht hl, ?_⟩⟩
    · rw [hset, if_pos hok, State.changeStart_due hd, State.changeApply]
    · obtain ⟨hsch, -⟩ := State.changeStart_waits hd
      rw [if_pos hok, hsch]
      exact ⟨rfl, rfl⟩
    · rw [State.leafRead_eq]
      simp only [State.rd0_cmdEnd, State.rd1_cmdEnd, State.rd2_cmdEnd, Word.high_halves, Word.low_halves, true_and]
      intro hclr
      rw [if_pos hclr, State.leaf_cmdEnd, State.leaf_schRd, State.marksCleared, State.leaf_setLeaf]
      exact ⟨rfl, rfl⟩
  case applied =>
    intro s port l a0
    obtain ⟨d, h⟩ := s.leaf_leafApply port l a0
    rw [h]
    exact ⟨rfl, rfl, rfl, rfl, rfl⟩
  case meterSet =>
    rintro s m _ _ ht hm rfl rfl hrate hcbs hpbs
    refine ⟨fun h => ?_, fun h => ⟨_, exec_meterSet ht hm, ?_⟩⟩
    · rw [exec_meterSet ht hm, State.meterSet_unowned hrate hcbs hpbs h]
    · rw [State.meterSet_owned hrate hcbs hpbs h]
      simp only [State.meter_cmdEnd, State.meter_setMeter, true_and]
      exact fun k hk => State.meter_setMeter_ne _ hk
  case meterRead =>
    intro s m ht hm
    refine ⟨_, exec_meterRead ht hm, ?_⟩
    simp only [State.meterRead, State.rd0_cmdEnd, State.rd1_cmdEnd, Word.high_halves, Word.low_halves, Meter.nYellow_refill,
      Meter.nRed_refill, and_self]

end

section
/-! SUPPORT. The descriptors of engine 0x09: their checks, and what CONVERT and SUM deliver (R217, R232 to R234). -/

namespace Sys2Proof.Machine

/-! ## Format codes (R217) -/

theorem elemOf_undefined {c : Nat} (h : 0xD ≤ c) : elemOf c = none := by
  obtain ⟨k, rfl⟩ := Nat.exists_eq_add_of_le' h
  rfl

theorem isMx_of_elemOf {c : Nat} {el : Elem} (hlo : 5 ≤ c) (hhi : c ≤ 9) (h : elemOf c = some el) : el.isMx = true := by
  interval_cases c <;> cases h <;> rfl

theorem eq_xacc_of_elemOf {el : Elem} (h : elemOf 0xC = some el) : el = .xacc := (Option.some.inj h).symm

/-! ## The checks (R234) -/

section
variable {s : State} {p : Nat} {v : Option Nat} {ws : List Word}

/-- CONVERT ends with FORMAT where its two formats, if both are defined, fail one of its checks. -/
theorem State.convertCheck_format (h : ∀ src dst, elemOf (wf ws 4 31 28) = some src → elemOf (wf ws 4 27 24) = some dst →
    src = .xacc ∨ dst = .xacc ∨ wb ws 4 20 = true ∨ wb ws 4 19 = true ∨ numFormatBad ws src dst (dstRanges ws dst) = true) :
    s.convertCheck p v ws = .error .format := by
  unfold State.convertCheck
  split
  next src dst hsrc hdst => exact if_pos (h src dst hsrc hdst)
  next => rfl

/-- The same of SUM. -/
theorem State.sumCheck_format (h : ∀ src dst, elemOf (wf ws 4 31 28) = some src → elemOf (wf ws 4 27 24) = some dst →
    src.isMx = true ∨ dst.isMx = true ∨ (wb ws 4 20 = true ∧ wb ws 4 19 = false) ∨
      numFormatBad ws src dst (imageRange ws) = true) :
    s.sumCheck p v ws = .error .format := by
  unfold State.sumCheck
  split
  next src dst hsrc hdst => exact if_pos (h src dst hsrc hdst)
  next => rfl

/-- Defined formats with no element, or with an address off its alignment, fail the checks that both opcodes share. -/
theorem numFormatBad_of_operands {src dst : Elem} (dr : List (Nat × Nat))
    (h : 0xD ≤ wf ws 4 31 28 ∨ 0xD ≤ wf ws 4 27 24 ∨ wf ws 4 63 32 = 0 ∨ (wordAt ws 2).toNat % 64 ≠ 0 ∨ (wordAt ws 3).toNat % 64 ≠ 0)
    (hsrc : elemOf (wf ws 4 31 28) = some src) (hdst : elemOf (wf ws 4 27 24) = some dst) : numFormatBad ws src dst dr = true := by
  rcases h with h | h | h | h | h
  · cases (elemOf_undefined h).symm.trans hsrc
  · cases (elemOf_undefined h).symm.trans hdst
  all_goals simp [numFormatBad, nCount, nSrc, nDst, h]

end

/-! ## CONVERT (R233) -/

section
variable {s u : State} {ring idx : Nat} {w : Work} {src dst : Elem} {st : Status}

theorem exec_convert (h : Started s ring idx 9 1 w) : exec (.convert ring idx) s = .next (s.convert w) :=
  congrArg Host.Outcome.next (State.runDesc_started _ h)

theorem State.convert_refused (h : s.convertCheck w.part w.vi w.words = .error st) : s.convert w = s.workFail w.ring w.idx st := by
  rw [State.convert, h]

/-- Results are written where the memory at each of their addresses takes writes. -/
theorem State.numOut_up {l : List Nat} {act : State} (h : ∀ a ∈ l, s.spaceUp (spaceOf (nDstHbm w.words) a) w.vi a = true) :
    s.numOut w l act = act :=
  if_pos (List.all_eq_true.2 h)

theorem State.convert_fetched {ds : List (List Byte)} (hok : s.convertCheck w.part w.vi w.words = .ok (src, dst))
    (hf : s.fetchAll w (toRead (nSrcHbm w.words) (srcRanges w.words src)) = (some ds, u))
    (hd : u.spaceUp (spaceOf (nDstHbm w.words) (nDst w.words)) w.vi (nDst w.words) = true)
    (hs : dst.isMx = true → u.spaceUp (spaceOf (nDstHbm w.words) (nDScale w.words)) w.vi (nDScale w.words) = true) :
    s.convert w = u.converted w dst (convertAll src dst (wb w.words 4 23) (mxAdj (s.regFor Blk.num.page w.gen 0x100))
      (nCount w.words) (ds.getD 0 []) (ds.getD 1 [])) := by
  rw [State.convert, hok]
  dsimp only
  rw [hf]
  refine State.numOut_up fun a ha => ?_
  rcases List.mem_cons.1 ha with rfl | ha
  · exact hd
  · obtain ⟨hmx, ha⟩ := List.mem_ite_nil_right.1 ha
    exact List.mem_singleton.1 ha ▸ hs hmx

/-- A conversion between equal MX formats copies elements and scales (R222). -/
theorem convertAll_sameMx (f : FFmt) (sat : Bool) (adj : Int) (n : Nat) (d sc : List Byte) :
    ∃ k, convertAll (.mx f) (.mx f) sat adj n d sc = { data := d, scales := sc, sat := 0, flushed := 0, nan := k } :=
  ⟨_, if_pos rfl⟩

end

/-! ## SUM (R233) -/

section
variable {s u : State} {ring idx : Nat} {w : Work} {src dst : Elem} {st : Status} {d m : List Byte} {x0 x : Xacc}

theorem exec_sum (h : Started s ring idx 9 2 w) : exec (.sum ring idx) s = .next (s.sum w) :=
  congrArg Host.Outcome.next (State.runDesc_started _ h)

theorem State.sum_refused (h : s.sumCheck w.part w.vi w.words = .error st) : s.sum w = s.workFail w.ring w.idx st := by
  rw [State.sum, h]

/-- A SUM writes where the memory at its image takes writes, if it writes one. -/
theorem State.numOut_image {act : State}
    (h : wb w.words 4 19 = true → s.spaceUp (spaceOf (nDstHbm w.words) (nDst w.words)) w.vi (nDst w.words) = true) :
    s.numOut w (if wb w.words 4 19 then [nDst w.words] else []) act = act := by
  refine State.numOut_up fun a ha => ?_
  obtain ⟨hxo, ha⟩ := List.mem_ite_nil_right.1 ha
  exact List.mem_singleton.1 ha ▸ h hxo

/-- A SUM that starts from a cleared accumulator. -/
theorem State.sum_cleared (hok : s.sumCheck w.part w.vi w.words = .ok (src, dst)) (hacc : wb w.words 4 20 = false)
    (hf : s.fetchAll w (toRead (nSrcHbm w.words) (srcRanges w.words src)) = (some [d], u))
    (hx : sumAll src .zero (nCount w.words) d = some x)
    (hout : wb w.words 4 19 = true → u.spaceUp (spaceOf (nDstHbm w.words) (nDst w.words)) w.vi (nDst w.words) = true) :
    s.sum w = u.summed w src dst .zero x := by
  rw [State.sum, hok]
  dsimp only
  rw [hacc, if_neg Bool.false_ne_true, List.append_nil, hf]
  dsimp only
  rw [show [d].getD 0 [] = d from rfl]
  rw [Bool.false_and, if_neg Bool.false_ne_true, if_neg Bool.false_ne_true, hx]
  exact State.numOut_image hout

section
variable (hok : s.sumCheck w.part w.vi w.words = .ok (src, dst)) (hacc : wb w.words 4 20 = true)
  (hf : s.fetchAll w (toRead (nSrcHbm w.words) (srcRanges w.words src) ++ toRead (nDstHbm w.words) [(nDst w.words, 64)]) =
    (some [d, m], u))
include hok hacc hf

/-- Under ACC_IN, an image with a reserved bit set ends the SUM (R235). -/
theorem State.sum_badImage (hbad : imageBad m = true) : s.sum w = u.workDone w.ring w.idx .format 0xFFFFFFFF 0 0 := by
  rw [State.sum, hok]
  dsimp only
  rw [hacc, if_pos rfl, hf]
  exact if_pos hbad

/-- Under ACC_IN, the SUM starts from the image at DST_ADDR. -/
theorem State.sum_fromImage (hgood : imageBad m = false) (hx : sumAll src (Xacc.ofImage m) (nCount w.words) d = some x)
    (hout : u.spaceUp (spaceOf (nDstHbm w.words) (nDst w.words)) w.vi (nDst w.words) = true) :
    s.sum w = u.summed w src dst (Xacc.ofImage m) x := by
  rw [State.sum, hok]
  dsimp only
  rw [hacc, if_pos rfl, hf]
  dsimp only
  rw [show [d, m].getD 0 [] = d from rfl, show [d, m].getD 1 [] = m from rfl]
  rw [hgood, Bool.and_false, if_neg Bool.false_ne_true, if_pos rfl, hx]
  exact State.numOut_image fun _ => hout

end

@[simp] theorem State.countNum_work (s : State) (code n : Nat) : (s.countNum code n).work = s.work := by
  unfold State.countNum
  split
  next => rfl
  next => exact State.count_work ..

/-- A SUM that writes no image leaves its result with its descriptor. -/
theorem State.workAt_summed (hw : s.workAt w.ring w.idx = some w) (hxo : wb w.words 4 19 = false) :
    (s.summed w src dst x0 x).workAt w.ring w.idx = some { w with
      phase := .done, status := .ok, detail := 0, r0 := Word.of (x.round dst (wb w.words 4 23)), r1 := x.flagWord, ctx := .none } := by
  have hcounted (t : State) (ht : t.work = s.work) : t.workAt w.ring w.idx = some w := by rw [State.workAt, ht, ← State.workAt, hw]
  unfold State.summed
  refine State.workAt_workDone_ok 0 _ _ (hcounted _ ?_)
  rw [hxo, if_neg Bool.false_ne_true]
  split <;> simp only [State.countNum_work]

/-- RESULT word 1 holds the flags in its low four bits. -/
theorem Xacc.bit_flagWord (x : Xacc) : x.flagWord.bit 3 = x.ovf ∧ x.flagWord.bit 2 = x.nan ∧ x.flagWord.bit 1 = x.ninf ∧
    x.flagWord.bit 0 = x.pinf := by
  simp [Xacc.flagWord]

end

end Sys2Proof.Machine
end

section
open Sys2Proof Sys2Proof.Machine

/-- Settles O34. A descriptor that has started ends with its first failed check, or with what its formats make of the bytes read. -/
theorem numberDescriptors : Obligations.NumberDescriptors := by
  unfold Obligations.NumberDescriptors
  refine ⟨?convert, ?convertRefused, ?sum, ?sumImage, ?sumRefused, ?checks, ?result, ?sameMx⟩
  case convert =>
    intro s u ring idx w src dst ds h hok hf hd hs
    rw [exec_convert h, State.convert_fetched hok hf hd hs]
  case convertRefused =>
    intro s ring idx w st h hbad
    rw [exec_convert h, State.convert_refused hbad]
  case sum =>
    intro s u ring idx w src dst d x h hok hacc hf hx hout
    rw [exec_sum h, State.sum_cleared hok hacc hf hx hout]
  case sumImage =>
    intro s u ring idx w src dst d m x h hok hacc hf
    refine ⟨fun hbad => ?_, fun hgood hx hout => ?_⟩
    · rw [exec_sum h, State.sum_badImage hok hacc hf hbad]
    · rw [exec_sum h, State.sum_fromImage hok hacc hf hgood hx hout]
  case sumRefused =>
    intro s ring idx w st h hbad
    rw [exec_sum h, State.sum_refused hbad]
  case checks =>
    intro s p v ws
    refine ⟨fun h => ⟨State.convertCheck_format fun src dst hsrc hdst => ?_, State.sumCheck_format fun src dst hsrc hdst => ?_⟩,
      fun h => State.convertCheck_format fun src dst hsrc hdst => ?_, fun h => State.sumCheck_format fun src dst hsrc hdst => ?_⟩
    · exact .inr (.inr (.inr (.inr (numFormatBad_of_operands _ h hsrc hdst))))
    · exact .inr (.inr (.inr (numFormatBad_of_operands _ h hsrc hdst)))
    · rcases h with h | h | h | h
      · exact .inl (eq_xacc_of_elemOf (h ▸ hsrc))
      · exact .inr (.inl (eq_xacc_of_elemOf (h ▸ hdst)))
      · exact .inr (.inr (.inl h))
      · exact .inr (.inr (.inr (.inl h)))
    · rcases h with ⟨hlo, hhi⟩ | h
      · exact .inl (isMx_of_elemOf hlo hhi hsrc)
      · exact .inr (.inr (.inl h))
  case result =>
    exact fun s w src dst x0 x hw hxo => ⟨_, State.workAt_summed hw hxo, rfl, rfl, rfl, x.bit_flagWord⟩
  case sameMx =>
    intro f sat adj n d sc
    obtain ⟨k, hk⟩ := convertAll_sameMx f sat adj n d sc
    rw [hk]
    exact ⟨rfl, rfl, rfl, rfl⟩

end

section
/-! SUPPORT. The exact accumulator: sums within the range of V, its image, and what it rounds from (R227 to R231). -/

namespace Sys2Proof

/-- The magnitude that a term adds to V, in units of 2^-149 (R228). -/
def Num.units : Num → Nat
  | .fin neg m e => (roundTo .zero neg m e (-149)).1
  | .inf _ | .nan => 0

/-- What a term adds to V (R228). -/
def Num.signedUnits : Num → Int
  | .fin neg m e => (if neg then -1 else 1) * ((Num.fin neg m e).units : Int)
  | .inf _ | .nan => 0

theorem Num.natAbs_signedUnits (t : Num) : t.signedUnits.natAbs = t.units := by
  cases t with
  | fin neg m e => cases neg <;> simp [Num.signedUnits]
  | inf _ => rfl
  | nan => rfl

/-- The magnitude that V gains at most from a list of terms. -/
def unitsOf (l : List Num) : Nat := (l.map Num.units).sum

theorem unitsOf_cons (t : Num) (l : List Num) : unitsOf (t :: l) = t.units + unitsOf l := by
  rw [unitsOf, List.map_cons, List.sum_cons, unitsOf]

theorem unitsOf_append (l m : List Num) : unitsOf (l ++ m) = unitsOf l + unitsOf m := by
  rw [unitsOf, List.map_append, List.sum_append, unitsOf, unitsOf]

theorem unitsOf_perm {l m : List Num} (h : l.Perm m) : unitsOf l = unitsOf m := (h.map Num.units).sum_eq

end Sys2Proof

namespace Sys2Proof.Machine

/-! ## Sums within the range of V (R228, R230) -/

theorem xaccFits_of_natAbs {v : Int} (h : v.natAbs < 2 ^ 415) : xaccFits v = true := by
  rw [xaccFits, Bool.and_eq_true, decide_eq_true_iff, decide_eq_true_iff]
  generalize 2 ^ 415 = bound at h
  omega

theorem Xacc.natAbs_v_add_signedUnits (x : Xacc) (t : Num) : (x.v + t.signedUnits).natAbs ≤ x.v.natAbs + t.units :=
  (Int.natAbs_add_le _ _).trans_eq (by rw [t.natAbs_signedUnits])

/-- What a term does that keeps V in its range. -/
theorem Xacc.add_inRange {x : Xacc} {t : Num} (h : x.v.natAbs + t.units < 2 ^ 415) : x.add t =
    { x with v := x.v + t.signedUnits, pinf := x.pinf || decide (t = .inf false), ninf := x.ninf || decide (t = .inf true),
             nan := x.nan || decide (t = .nan), terms := termSat (x.terms + 1) } := by
  have hfits := xaccFits_of_natAbs ((x.natAbs_v_add_signedUnits t).trans_lt h)
  cases t with
  | fin neg m e => exact (if_pos hfits).trans (by simp [Num.signedUnits, Num.units])
  | inf neg => cases neg <;> simp [Xacc.add, Num.signedUnits]
  | nan => simp [Xacc.add, Num.signedUnits]

theorem Xacc.natAbs_v_add {x : Xacc} {t : Num} (h : x.v.natAbs + t.units < 2 ^ 415) :
    (x.add t).v.natAbs ≤ x.v.natAbs + t.units := by
  rw [Xacc.add_inRange h]
  exact x.natAbs_v_add_signedUnits t

/-- The bound on what a list of terms adds passes to its tail. -/
theorem Xacc.bound_add {x : Xacc} {t : Num} {n : Nat} (h : x.v.natAbs + (t.units + n) < 2 ^ 415) :
    (x.add t).v.natAbs + n < 2 ^ 415 := by
  have hle : (x.add t).v.natAbs ≤ x.v.natAbs + t.units := Xacc.natAbs_v_add (by omega)
  omega

/-- Two terms commute. -/
theorem Xacc.add_right_comm {x : Xacc} {t t' : Num} (h : x.v.natAbs + (t.units + t'.units) < 2 ^ 415) :
    (x.add t).add t' = (x.add t').add t := by
  have ht : x.v.natAbs + t.units < 2 ^ 415 := by omega
  have ht' : x.v.natAbs + t'.units < 2 ^ 415 := by omega
  have hle := Xacc.natAbs_v_add ht
  have hle' := Xacc.natAbs_v_add ht'
  rw [Xacc.add_inRange (x := x.add t) (by omega), Xacc.add_inRange (x := x.add t') (by omega),
    Xacc.add_inRange ht, Xacc.add_inRange ht']
  simp only [Int.add_right_comm, Bool.or_right_comm]

/-- The order of the terms does not change a sum. -/
theorem Xacc.foldl_add_perm {l m : List Num} (h : l.Perm m) {x : Xacc} (hb : x.v.natAbs + unitsOf l < 2 ^ 415) :
    l.foldl Xacc.add x = m.foldl Xacc.add x := by
  induction h generalizing x with
  | nil => rfl
  | cons t _ ih =>
    rw [unitsOf_cons] at hb
    exact ih (Xacc.bound_add hb)
  | swap t t' l =>
    rw [unitsOf_cons, unitsOf_cons] at hb
    simp only [List.foldl_cons]
    rw [Xacc.add_right_comm (by omega)]
  | trans hlm _ ihl ihm => exact (ihl hb).trans (ihm (unitsOf_perm hlm ▸ hb))

theorem Xacc.merge_inRange {x y : Xacc} (h : x.v.natAbs + y.v.natAbs < 2 ^ 415) : x.merge y =
    { v := x.v + y.v, pinf := x.pinf || y.pinf, ninf := x.ninf || y.ninf, nan := x.nan || y.nan, ovf := x.ovf || y.ovf,
      terms := termSat (x.terms + y.terms) } := by
  have hfits := xaccFits_of_natAbs ((Int.natAbs_add_le x.v y.v).trans_lt h)
  simp only [Xacc.merge, hfits, if_true, Bool.not_true, Bool.or_false]

/-- A merge with a cleared accumulator changes nothing. -/
theorem Xacc.merge_zero {x : Xacc} (hv : x.v.natAbs < 2 ^ 415) (hn : x.terms < 2 ^ 64) : x.merge .zero = x := by
  have hsat : termSat (x.terms + 0) = x.terms := Nat.min_eq_left (Nat.le_sub_one_of_lt hn)
  rw [Xacc.merge_inRange (y := .zero) hv]
  simp only [Xacc.zero, hsat, Int.add_zero, Bool.or_false]

theorem termSat_add_termSat (a b : Nat) : termSat (a + termSat b) = termSat (a + b) := by
  unfold termSat
  omega

theorem termSat_termSat_add (a b : Nat) : termSat (termSat a + b) = termSat (a + b) := by
  unfold termSat
  omega

theorem termSat_lt (n : Nat) : termSat n < 2 ^ 64 := by
  unfold termSat
  omega

/-- A term added after a merge may be added before it. -/
theorem Xacc.merge_add {x y : Xacc} {t : Num} (h : x.v.natAbs + y.v.natAbs + t.units < 2 ^ 415) :
    (x.merge y).add t = x.merge (y.add t) := by
  have hxy : x.v.natAbs + y.v.natAbs < 2 ^ 415 := by omega
  have hyt : y.v.natAbs + t.units < 2 ^ 415 := by omega
  have hle := Xacc.natAbs_v_add hyt
  have hm : (x.merge y).v.natAbs + t.units < 2 ^ 415 := by
    rw [Xacc.merge_inRange hxy]
    exact lt_of_le_of_lt (Nat.add_le_add_right (Int.natAbs_add_le ..) _) h
  rw [Xacc.add_inRange hm, Xacc.merge_inRange hxy, Xacc.merge_inRange (by omega), Xacc.add_inRange hyt]
  simp only [Int.add_assoc, Bool.or_assoc, termSat_add_termSat, termSat_termSat_add, Nat.add_assoc]

/-- Terms added after a merge may be added before it. -/
theorem Xacc.foldl_add_merge {l : List Num} {x y : Xacc} (h : x.v.natAbs + y.v.natAbs + unitsOf l < 2 ^ 415) :
    l.foldl Xacc.add (x.merge y) = x.merge (l.foldl Xacc.add y) := by
  induction l generalizing y with
  | nil => rfl
  | cons t l ih =>
    rw [unitsOf_cons] at h
    rw [List.foldl_cons, List.foldl_cons, Xacc.merge_add (by omega)]
    have hb := Xacc.bound_add (x := y) (t := t) (n := x.v.natAbs + unitsOf l) (by omega)
    exact ih (by omega)

theorem Xacc.natAbs_v_foldl_add {l : List Num} {x : Xacc} {n : Nat} (h : x.v.natAbs + (unitsOf l + n) < 2 ^ 415) :
    (l.foldl Xacc.add x).v.natAbs + n < 2 ^ 415 := by
  induction l generalizing x with
  | nil => rwa [unitsOf, List.map_nil, List.sum_nil, Nat.zero_add] at h
  | cons t l ih =>
    rw [unitsOf_cons, Nat.add_assoc] at h
    exact ih (Xacc.bound_add h)

theorem Xacc.terms_add (x : Xacc) (t : Num) : (x.add t).terms = termSat (x.terms + 1) := by
  cases t with
  | fin neg m e =>
    unfold Xacc.add
    dsimp only
    generalize xaccFits _ = fits
    cases fits <;> rfl
  | inf neg => cases neg <;> rfl
  | nan => rfl

theorem Xacc.terms_foldl_add_lt {l : List Num} {x : Xacc} (h : x.terms < 2 ^ 64) : (l.foldl Xacc.add x).terms < 2 ^ 64 :=
  List.foldlRecOn (motive := fun y : Xacc => y.terms < 2 ^ 64) l _ h fun y _ t _ => (y.terms_add t).trans_lt (termSat_lt _)

/-- Terms may be gathered in a partial accumulator of their own. -/
theorem Xacc.foldl_add_append {l m : List Num} {x : Xacc} (hn : x.terms < 2 ^ 64) (h : x.v.natAbs + unitsOf (l ++ m) < 2 ^ 415) :
    (l ++ m).foldl Xacc.add x = (l.foldl Xacc.add x).merge (m.foldl Xacc.add .zero) := by
  rw [unitsOf_append] at h
  have hb := Xacc.natAbs_v_foldl_add h
  have hv : (l.foldl Xacc.add x).v.natAbs < 2 ^ 415 := (Nat.le_add_right _ _).trans_lt hb
  calc (l ++ m).foldl Xacc.add x = m.foldl Xacc.add (l.foldl Xacc.add x) := List.foldl_append
    _ = m.foldl Xacc.add ((l.foldl Xacc.add x).merge .zero) := by rw [Xacc.merge_zero hv (Xacc.terms_foldl_add_lt hn)]
    _ = (l.foldl Xacc.add x).merge (m.foldl Xacc.add .zero) := Xacc.foldl_add_merge hb

/-! ## The image (R231) -/

theorem toSigned_intBits {k : Nat} {v : Int} (hlo : -((2 ^ k : Nat) : Int) ≤ v) (hhi : v < (2 ^ k : Nat)) :
    toSigned (k + 1) (intBits (k + 1) v) = v := by
  have hpow : 2 ^ (k + 1) = 2 ^ k * 2 := pow_succ 2 k
  rw [toSigned, intBits, Nat.add_sub_cancel, hpow]
  generalize 2 ^ k = half at hlo hhi
  have hmod : v % ((half * 2 : Nat) : Int) = if 0 ≤ v then v else v + (half * 2 : Nat) := by
    split
    next h => exact Int.emod_eq_of_lt h (by omega)
    next h => rw [← Int.add_emod_right]; exact Int.emod_eq_of_lt (by omega) (by omega)
  rw [hmod, Nat.mod_eq_of_lt (by split <;> omega)]
  split <;> split <;> omega

theorem intBits_lt (b : Nat) (v : Int) : intBits b v < 2 ^ b := by
  have h := Int.emod_lt_of_pos v (Int.natCast_pos.2 (Nat.two_pow_pos b))
  rw [intBits]
  omega

theorem intBits_lt_bytes (n : Nat) (v : Int) : intBits (8 * n) v < 256 ^ n := (intBits_lt _ v).trans_eq (Nat.pow_mul 2 8 n)

/-- The flags of an image: the low four bits of its byte 52. -/
def imageFlags (pinf ninf nan ovf : Bool) : Nat :=
  (if pinf then 1 else 0) + (if ninf then 2 else 0) + (if nan then 4 else 0) + (if ovf then 8 else 0)

theorem imageFlags_lt : ∀ p i n o : Bool, imageFlags p i n o < 16 := by decide

theorem testBit_imageFlags : ∀ p i n o : Bool, (imageFlags p i n o).testBit 0 = p ∧ (imageFlags p i n o).testBit 1 = i ∧
    (imageFlags p i n o).testBit 2 = n ∧ (imageFlags p i n o).testBit 3 = o := by decide

/-- The flags of an accumulator as they stand in its image. -/
def Xacc.flags (x : Xacc) : Nat := imageFlags x.pinf x.ninf x.nan x.ovf

theorem leNat_flags (x : Xacc) : leNat (leBytes 1 x.flags) = x.flags := by
  have hlt : x.flags < 16 := imageFlags_lt ..
  rw [leNat_leBytes, Nat.mod_eq_of_lt (hlt.trans (by decide))]

theorem Xacc.image_eq (x : Xacc) : x.image = leBytes 52 (intBits 416 x.v) ++ (leBytes 1 x.flags ++ ([0, 0, 0] ++ leBytes 8 x.terms)) := by
  simp only [Xacc.image, Xacc.flags, imageFlags, List.append_assoc]

theorem Xacc.image_length (x : Xacc) : x.image.length = 64 := by
  simp [Xacc.image_eq, leBytes_length]

theorem Xacc.take_image (x : Xacc) : x.image.take 52 = leBytes 52 (intBits 416 x.v) := by
  rw [Xacc.image_eq, List.take_left' (leBytes_length ..)]

theorem Xacc.drop_image (x : Xacc) : x.image.drop 52 = leBytes 1 x.flags ++ ([0, 0, 0] ++ leBytes 8 x.terms) := by
  rw [Xacc.image_eq, List.drop_left' (leBytes_length ..)]

theorem Xacc.terms_image (x : Xacc) : (x.image.drop 56).take 8 = leBytes 8 x.terms := by
  rw [show 56 = 52 + 4 from rfl, ← List.drop_drop, Xacc.drop_image, ← List.append_assoc, List.drop_left' (i := 4) rfl,
    List.take_of_length_le (leBytes_length ..).le]

/-- No reserved bit is set in an image that the device writes. -/
theorem Xacc.imageBad_image (x : Xacc) : imageBad x.image = false := by
  have hlt : x.flags < 16 := imageFlags_lt ..
  have hflags : leNat ((x.image.drop 52).take 4) = x.flags := by
    rw [Xacc.drop_image, ← List.append_assoc, List.take_left' (i := 4) rfl]
    exact leNat_flags x
  rw [imageBad, hflags, Nat.div_eq_of_lt hlt]
  rfl

theorem Xacc.ofImage_image {x : Xacc} (hlo : -((2 ^ 415 : Nat) : Int) ≤ x.v) (hhi : x.v < (2 ^ 415 : Nat)) (hn : x.terms < 2 ^ 64) :
    Xacc.ofImage x.image = x := by
  have hv : leNat (leBytes 52 (intBits 416 x.v)) = intBits 416 x.v := by
    rw [leNat_leBytes, Nat.mod_eq_of_lt (intBits_lt_bytes 52 x.v)]
  have hflags : leNat ((x.image.drop 52).take 1) = x.flags := by
    rw [Xacc.drop_image, List.take_left' (leBytes_length ..), leNat_flags]
  have hterms : leNat (leBytes 8 x.terms) = x.terms := by
    rw [leNat_leBytes, Nat.mod_eq_of_lt (hn.trans_eq (by decide))]
  obtain ⟨hp, hi, hnan, ho⟩ := testBit_imageFlags x.pinf x.ninf x.nan x.ovf
  rw [Xacc.ofImage, hflags, Xacc.take_image, Xacc.terms_image, hv, hterms, toSigned_intBits hlo hhi]
  simp only [Xacc.flags, hp, hi, hnan, ho]

/-! ## What an accumulator rounds from (R229) -/

section
variable {x : Xacc}

theorem Xacc.value_nan (h : x.nan = true ∨ x.ovf = true ∨ (x.pinf = true ∧ x.ninf = true)) : x.value = .nan :=
  if_pos (by simpa [or_assoc] using h)

theorem Xacc.value_inf (hn : x.nan = false) (ho : x.ovf = false) :
    (x.pinf = true → x.ninf = false → x.value = .inf false) ∧ (x.pinf = false → x.ninf = true → x.value = .inf true) := by
  constructor <;> intro hp hi <;> simp [Xacc.value, hn, ho, hp, hi]

theorem Xacc.value_fin (hn : x.nan = false) (ho : x.ovf = false) (hp : x.pinf = false) (hi : x.ninf = false) :
    x.value = .fin (decide (x.v < 0)) x.v.natAbs (-149) := by
  simp [Xacc.value, hn, ho, hp, hi]

end

theorem encodeFlt_zero (f : FFmt) (sat : Bool) (e : Int) : (encodeFlt f sat (.fin false 0 e)).1 = 0 := rfl

theorem roundTo_zero (md : Round) (e q : Int) : (roundTo md false 0 e q).1 = 0 := by
  unfold roundTo
  split
  next => exact Nat.zero_mul _
  next => cases md <;> simp [roundsUp]

theorem encodeInt_zero (b : Nat) (e : Int) : (encodeInt b (.fin false 0 e)).1 = 0 := by
  have hround : roundInt .even false 0 e = 0 := by rw [roundInt, roundTo_zero .even]; rfl
  have hpos := Nat.two_pow_pos (b - 1)
  have hclamp : clampInt b 0 = 0 := by
    unfold clampInt
    omega
  simp [encodeInt, hround, hclamp, intBits]

/-- An exact zero sum without a flag is delivered as +0. -/
theorem Xacc.round_zero {x : Xacc} (hv : x.v = 0) (hn : x.nan = false) (ho : x.ovf = false) (hp : x.pinf = false)
    (hi : x.ninf = false) (f : FFmt) (b : Nat) (sat : Bool) : x.round (.flt f) sat = 0 ∧ x.round (.int b) sat = 0 := by
  have hval : x.value = .fin false 0 (-149) := by
    rw [Xacc.value_fin hn ho hp hi, hv]
    rfl
  unfold Xacc.round
  dsimp only
  rw [hval]
  exact ⟨encodeFlt_zero f sat _, encodeInt_zero b _⟩

end Sys2Proof.Machine
end

section
open Sys2Proof Sys2Proof.Machine

/-- Settles O35. Within the range of V every term adds its units, so that terms commute and a merge passes over a term; the image is
read back field by field. -/
theorem exactAccumulator : Obligations.ExactAccumulator := by
  unfold Obligations.ExactAccumulator
  refine ⟨fun x l m h hb => Xacc.foldl_add_perm h hb, fun x l m hn hb => Xacc.foldl_add_append hn hb, fun x hlo hhi hn =>
    ⟨Xacc.ofImage_image ?_ ?_ hn, x.image_length, x.imageBad_image⟩, fun x => ⟨Xacc.value_nan, fun hn ho => (Xacc.value_inf hn ho).1,
    fun hn ho => (Xacc.value_inf hn ho).2⟩, fun x f b sat hv hn ho hp hi => Xacc.round_zero hv hn ho hp hi f b sat⟩
  · rwa [Nat.cast_pow]
  · rwa [Nat.cast_pow]

end
